-- ==== Sys2Proof/Word.lean ====
section
/-! DEFINITION. The plain data that commands and state share: bytes, lists of readings, and the periods of the clocks in femtoseconds. -/
namespace Sys2Proof

/-- One byte. -/
abbrev Byte := BitVec 8
/-- A byte string, lowest address first (R7). -/
abbrev Bytes := List Byte
/-- A list of signed readings. -/
abbrev Ints := List Int
/-- A list of words or counts. -/
abbrev Nats := List Nat
/-- The comparator levels seen by a stitch's strobes: one pair per strobe, in the order in which the stitch has them
(pins rising, entries rising): the CMH and CML levels at the strobe's sampling points; a window strobe gives all of its points. -/
abbrev Samples := List (List Bool × List Bool)
/-- The results of a full calibration phase: pin, quantity, and none where no edge was found, else the gauge in 0.5 ps, the anchor of its tap
in 2^-9 ps, and whether the spread of the 8 repetitions is below 1.0 ps. -/
abbrev CalResults := List (Nat × Nat × Option (Int × Int × Bool))
/-- One poll of the PMBus: per rail VOUT in mV, IOUT in 10 mA, the STATUS_WORD and the temperature in degrees. -/
abbrev Rails := List (Nat × Nat × Nat × Int)
/-- The symbols of an event seen on the four lanes of a cascade port: per lane the received symbol and whether its check passed. -/
abbrev Lanes := List (Nat × Bool)
/-- The result of an alignment per lane: phase, slip and flight time of the lane in steps, none where the lane did not align. -/
abbrev LaneFits := List (Option (Nat × Nat × Nat))

/-- The period of the root clock, 12.8 GHz, in fs (00_scope, Conventions). -/
abbrev rootFs : Nat := 78125
/-- The period of FCLK, 1.6 GHz, in fs. -/
abbrev fclkFs : Nat := 625000
/-- The period of VCLK and MCLK, 800 MHz, in fs. -/
abbrev vclkFs : Nat := 1250000
/-- The period of TCLK, 100 MHz, in fs. -/
abbrev tclkFs : Nat := 10000000
/-- One nanosecond in fs. -/
abbrev nsFs : Nat := 1000000
/-- One microsecond in fs. -/
abbrev usFs : Nat := 1000000000
/-- One millisecond in fs. -/
abbrev msFs : Nat := 1000000000000
/-- One second in fs. -/
abbrev secFs : Nat := 1000000000000000

/-- A master's request to HBM: its number (R785), a write or a read of so many bytes, the address, the bytes written (of a read only their number counts). -/
structure Request where
  master : Nat
  write : Bool
  addr : Nat
  data : Bytes
  deriving DecidableEq, Repr

/-- The level at a comparator input of a pin changes: CMH, or CML with `cml`, at an instant in fs, to a level. -/
structure Change where
  pin : Nat
  cml : Bool
  t : Nat
  level : Bool
  deriving DecidableEq, Repr

/-- The changes at comparator inputs, in time order; an input is low before its first. -/
abbrev Changes := List Change

end Sys2Proof
end

