-- ==== Sys2Proof/Syntax.lean ====
section
/-! DEFINITION. The commands of the YVX-256: one constructor per row of spec/opcode_table.json, in the order of the table. The table gives no operands; the operands here are the model's (notes/assumptions/2.md). -/
namespace Sys2Proof

/-- A command of the block: a host service, an event on a ball, or the end of one of the engine's own waits. -/
inductive Instr where
  /-- POWER_ON (R108): Rails valid and RST_N released take the engine from COLD into BOOT with reason POWER_ON. -/
  | powerOn
  /-- EXT_RESET (R830): RST_N held low for 5 µs or more restarts BOOT at once from any mode except COLD. -/
  | extReset
  /-- COLD_ENTRY (R831): VDD_AON or VDD_1V8 staying below its threshold for 2 µs puts the engine into COLD. -/
  | coldEntry
  /-- BOOT_STAGE_END (R808): A boot stage completes and the next stage of the boot sequence starts. -/
  | bootStageEnd (a : Nat) (b : Nats)
  /-- REFCLK_RETRY (R816): With ROOT_SRC REFCLK and no REFCLK present, REFCLK detection is retried every 100 ms. -/
  | refclkRetry (present : Bool)
  /-- HBM_TRAINING_DONE (R539): A stack finishes training in BOOT, either trained (DEV.CAPS bit 7 may set) or FAILED. -/
  | hbmTrainingDone (stack : Nat) (ok : Bool) (id : Nat) (ms : Nat)
  /-- POA_FRAME (R685): A received POA frame is checked, bound to its session and sequenced by SEQ before its items run in order. -/
  | poaFrame (port : Nat) (sub : Nat) (addr : Nat) (udp : Nat) (pcp : Nat) (frame : Bytes)
  /-- HOLD_TIMEOUT (R700): A frame held for 50 µs without the frames before it causes every held frame of the session to be answered with E_SEQ. -/
  | holdTimeout (session : Nat)
  /-- MULTICAST_FRAME (R719): A multicast write frame is tag- and SEQ-checked, then its writes run without any reply. -/
  | multicastFrame (port : Nat) (sub : Nat) (group : Nat) (frame : Bytes)
  /-- READ (R61): The READ service returns an object value; a group read samples every member on one FCLK edge. -/
  | read (session : Nat) (ix : Nat) (el : Nat)
  /-- WRITE (R71): The WRITE service writes an object that has no row of its own, after the ordered access checks and group commit. -/
  | write (session : Nat) (ix : Nat) (el : Nat) (value : Bytes)
  /-- DOMAIN_BEGIN (R706): Opens a bulk transfer of a DOMAIN object element, for writing or reading. -/
  | domainBegin (session : Nat) (ix : Nat) (el : Nat) (dir : Nat) (total : Nat)
  /-- DOMAIN_DATA (R707): Carries one fragment of a bulk transfer; the fragment that completes a write starts validation. -/
  | domainData (session : Nat) (xfer : Nat) (dlen : Nat) (offset : Nat) (data : Bytes)
  /-- DOMAIN_ABORT (R709): Ends a transfer; an aborted write is a failed load with E_SEQ. -/
  | domainAbort (session : Nat) (xfer : Nat)
  /-- TRANSFER_TIMEOUT (R709): A transfer with no item for 1 s ends. -/
  | transferTimeout (xfer : Nat)
  /-- STREAM_DATA (R710): Carries one fragment of a skein to a needle's ring; the first fragment is checked and reserves credit. -/
  | streamData (session : Nat) (needle : Nat) (skein : Nat) (offset : Nat) (data : Bytes)
  /-- SKEIN_TIMEOUT (R711): A skein with no fragment for 10 ms is discarded. -/
  | skeinTimeout (needle : Nat)
  /-- SUBSCRIBE (R713): Creates a CYCLIC, ON_CHANGE, EVENT or DATALOG subscription. -/
  | subscribe (session : Nat) (skind : Nat) (ix : Nat) (el : Nat) (interval : Nat) (window : Nat)
  /-- UNSUBSCRIBE (R713): Ends a subscription. -/
  | unsubscribe (session : Nat) (sub : Nat)
  /-- ACK (R716): Acknowledges DATALOG reports up to DSEQ and frees window room. -/
  | ack (session : Nat) (sub : Nat) (dseq : Nat)
  /-- HEARTBEAT (R698): Keeps a session open and reports mode, fault state and NT time. -/
  | heartbeat (session : Nat)
  /-- OPEN (R695): Opens a session: at level V at once, at O, E or S as CHALLENGED with an engine nonce. -/
  | openCmd (port : Nat) (sub : Nat) (addr : Nat) (udp : Nat) (level : Nat) (maxFrame : Nat) (timeout : Nat) (nonce : Bytes)
  /-- AUTH (R696): Completes the handshake: a matching proof opens the session, a mismatch frees the slot. -/
  | auth (session : Nat) (proof : Bytes)
  /-- AUTH_TIMEOUT (R695): A CHALLENGED session without AUTH within 100 ms has its slot freed. -/
  | authTimeout (session : Nat)
  /-- CLOSE (R698): Closes the session after the earlier items of its frame, ending its subscriptions and transfers. -/
  | close (session : Nat)
  /-- POA_SESSION_EXPIRED (R698): A session with no valid frame for TIMEOUT closes. -/
  | poaSessionExpired (session : Nat)
  /-- SESSION_CLOSE (R698): A write to SEC.SESSION_CLOSE closes the named session. -/
  | sessionClose (session : Nat) (target : Nat)
  /-- CYCLIC_REPORT (R713): At each CYCLIC instant, or ON_CHANGE check instant, the object is sampled and a VALUE report formed. -/
  | cyclicReport (sub : Nat)
  /-- EVENT_REPORT (R715): When a source's hold-off expires, its pending EVENT report is formed with the count of occurrences. -/
  | eventReport (sub : Nat) (source : Nat)
  /-- DATALOG_REPORT (R716): A datalog record is sent as a DATALOG report once the subscription window has room. -/
  | datalogReport (sub : Nat)
  /-- DATALOG_RETRANSMIT (R716): A DATALOG report not acknowledged within 2 ms is sent again unchanged. -/
  | datalogRetransmit (sub : Nat)
  /-- REQUEST_BOOT (R104): A DEV.MODE_REQ write of BOOT starts a warm restart from SAFE or IDLE. -/
  | requestBoot (session : Nat)
  /-- REQUEST_SAFE (R104): A DEV.MODE_REQ write of SAFE enters SAFE under the safe plan, or ends BOOT in SAFE. -/
  | requestSafe (session : Nat)
  /-- REQUEST_IDLE (R107): A DEV.MODE_REQ write of IDLE returns to IDLE, frogging needles and releasing every placement. -/
  | requestIdle (session : Nat)
  /-- REQUEST_DOZE (R583): A DEV.MODE_REQ write of DOZE switches off domains, puts HBM in self-refresh and powers down the on-die SRAM. -/
  | requestDoze (session : Nat)
  /-- REQUEST_ARMED (R484): A DEV.MODE_REQ write of ARMED snapshots the placement inputs and starts placement and admission, or frogs needles from RUN and HOLD. -/
  | requestArmed (session : Nat)
  /-- REQUEST_RUN (R105): A DEV.MODE_REQ write of RUN starts every needle with a chart, or resumes held needles, at the apply edge. -/
  | requestRun (session : Nat)
  /-- REQUEST_HOLD (R111): A DEV.MODE_REQ write of HOLD freezes every running needle from the apply edge. -/
  | requestHold (session : Nat)
  /-- REQUEST_MEASURE (R104): A DEV.MODE_REQ write of MEASURE enters measurement mode from IDLE. -/
  | requestMeasure (session : Nat)
  /-- REQUEST_CALIBRATE (R445): A DEV.MODE_REQ write of CALIBRATE enters full calibration, provided a valid fixture is loaded. -/
  | requestCalibrate (session : Nat)
  /-- MODE_TRANSITION_COMPLETE (R108): A timed mode transition completes: DEV.MODE, MODE_STAMP, PREV_MODE and MODE_REASON update. -/
  | modeTransitionComplete
  /-- ADMISSION_END (R498): The admission checks end; the ARMED request is answered OK, or refused with E_PLACE and the report published. -/
  | admissionEnd
  /-- PLACEMENT_COPIES_DONE (R486): The Stitch Cache copies complete and the engine enters ARMED. -/
  | placementCopiesDone
  /-- MIGRATION_COPY_DONE (R507): A migration copy completes, making a segment switch pending for each needle that uses the segment. -/
  | migrationCopyDone (handle : Nat) (seg : Nat)
  /-- SAFE_ENTRY (R126): On the SAFE or DUMP entry edge, needles frog, streams stop, pins park and stage 0 of the ramp-down starts. -/
  | safeEntry
  /-- SAFE_STAGE_END (R127): Every loop of a ramp-down stage has discharged, so the next stage begins or SAFE completes. -/
  | safeStageEnd
  /-- SAFE_STAGE_TIMEOUT (R128): A stage timeout expires; loops still above threshold have their PWM switched off and the next stage begins. -/
  | safeStageTimeout
  /-- LINEWARN (R607): A line disturbance appears and the engine enters RIDETHRU, or only counts it in COLD, BOOT, SAFE or DUMP. -/
  | linewarn (bulk : Bool)
  /-- RIDETHRU_PLAN_ENTRY (R608): The plan clock reaches an entry's TIME and its FROG, RAMP, SUMMARY or SAFE action is taken. -/
  | ridethruPlanEntry
  /-- LINE_COMMIT (R610): The plan clock reaches COMMIT and the commit point is passed. -/
  | lineCommit
  /-- LINE_RECOVERED (R611): The disturbance clears before the commit point; the plan ends and the engine returns under R118. -/
  | lineRecovered
  /-- JUNCTION_READING (R840): Every 100 µs the sixteen junction sensors are read and the hottest reading is acted on. -/
  | junctionReading (readings : Ints)
  /-- SAVE (R81): DEV.STORE SAVE snapshots every P object and starts writing a new persistent store copy. -/
  | save (session : Nat)
  /-- RESTORE (R84): DEV.FACTORY_RESTORE resets the persisted copies of all P objects to their Default values. -/
  | restore (session : Nat)
  /-- STORE_COMPLETE (R850): The last flash write of a SAVE or RESTORE makes the new copy current. -/
  | storeComplete
  /-- CHART_VALIDATION (R191): Chart validation ends; the handle becomes LOADED or INVALID and the final reply is sent. -/
  | chartValidation (handle : Nat)
  /-- CHART_DELETE (R194): NDL.CHART_DELETE empties a handle that is not PLACED, ending any load in progress. -/
  | chartDelete (session : Nat) (el : Nat)
  /-- WAVE_VALIDATION (R305): Wave table validation ends; the table becomes LOADED or INVALID. -/
  | waveValidation (el : Nat)
  /-- WAVE_DELETE (R335): PTF.WAVE_DELETE empties a wave table that is not PLACED. -/
  | waveDelete (session : Nat) (el : Nat)
  /-- START (R206): A staged write of 1 to NDL.START, accepted when every addressed needle is startable. -/
  | start (session : Nat) (el : Nat)
  /-- START_QUALIFY (R852): On the apply edge a start is qualified and the needle enters CASTON, or the start is dropped. -/
  | startQualify (needle : Nat)
  /-- TIMED_START (R638): The qualify edge of a pending CLK.START_AT is reached and its needles start. -/
  | timedStart
  /-- START_AT (R637): A write to CLK.START_AT schedules a timed start at AT_NS after the epoch. -/
  | startAt (session : Nat) (needles : Nat) (atNs : Nat)
  /-- CANCEL_START (R639): CLK.CANCEL_START drops a pending timed start. -/
  | cancelStart (session : Nat)
  /-- BLOCK_DECODE (R185): The needle decodes one block header per VCLK, running ahead of issue. -/
  | blockDecode (needle : Nat)
  /-- STITCH_ISSUE (R212): On an issue edge the needle hands up to 8 stitches to the timing channels and applies the block actions due there. -/
  | stitchIssue (needle : Nat)
  /-- RAS_SYNC_EDGE (R552): A qualified RAS_SYNC edge ends the frame or is counted as early, and can lock the stream. -/
  | rasSyncEdge (stream : Nat) (falling : Bool) (t : Nat)
  /-- FROG (R238): A staged write to NDL.FROG, which aborts the addressed needles at the apply edge. -/
  | frog (session : Nat) (el : Nat)
  /-- FROG_COMMIT (R235): On the frog commit edge the needle stops issuing and ends FROGGED, or DONE with FROG_LATE. -/
  | frogCommit (needle : Nat)
  /-- PIN_PARK (R316): Six VCLK after a park cause the needle's pins park, DEN first. -/
  | pinPark (needle : Nat)
  /-- SEAM_END (R26): A seam's 1,024 VCLK end; after a bind-off seam the needle is DONE. -/
  | seamEnd (needle : Nat)
  /-- NEEDLE_FREEZE (R221): A needle reaches its freeze edge and becomes HELD; the engine enters HOLD when the last needle has frozen. -/
  | needleFreeze (needle : Nat)
  /-- RESUME (R113): At the resume apply edge each held needle continues at the apply edge + 8 VCLK. -/
  | resume
  /-- HOST_EVENT (R227): A staged write of a host event number to NDL.HOST_EVENT. -/
  | hostEvent (session : Nat) (el : Nat) (value : Nat)
  /-- HOST_EVENT_LATCH (R227): On the apply edge the host event is latched in each addressed needle. -/
  | hostEventLatch (needle : Nat)
  /-- JUMP (R230): A staged write of a jump table entry to NDL.JUMP. -/
  | jump (session : Nat) (el : Nat) (value : Nat)
  /-- JUMP_APPLY (R233): On the apply edge the jump becomes pending, or is dropped. -/
  | jumpApply (needle : Nat)
  /-- TRIGIN_EDGE (R228): A TRIGIN ball edge is synchronised and reaches the needle latches and acquisition units at e+3. -/
  | triginEdge (input : Nat) (falling : Bool) (t : Nat)
  /-- STROBE_RESULT (R313): A strobe is evaluated into a per-pin and per-site result, feeding site results, pin fail counts, the fail logger and capture. -/
  | strobeResult (needle : Nat) (samples : Samples)
  /-- FAIL_FLAG (R213): The fail flag reaches the needle 8 VCLK after the strobe, setting the sticky flag and feeding decisions. -/
  | failFlag (needle : Nat)
  /-- FAIL_LOGGER_DRAIN (R353): The fail logger drains one FIFO entry per VCLK into a fail record in the site's queue. -/
  | failLoggerDrain (needle : Nat)
  /-- RESULTS_FINAL (R347): Site results become final and SITE_END records are committed. -/
  | resultsFinal (needle : Nat)
  /-- QUEUE_POST (R360): A site queue posts a work item once its threshold, age or SITE_END condition holds, retrying if refused. -/
  | queuePost (queue : Nat)
  /-- POOL_RELEASE (R359): A core releases consumed bytes and their cells return to the free list. -/
  | poolRelease (queue : Nat) (bytes : Nat)
  /-- RQP_FLUSH (R370): RQP.FLUSH empties a site queue and marks the log incomplete. -/
  | rqpFlush (session : Nat) (el : Nat)
  /-- STR_FLUSH (R265): STR.FLUSH empties the ring and restores the full credit. -/
  | strFlush (session : Nat) (el : Nat)
  /-- SKEIN_VALIDATED (R271): A skein passes its checks 64 FCLK after its last byte and STR.NEXT_SEQ advances. -/
  | skeinValidated (needle : Nat)
  /-- STALL_EXPIRY (R277): Stall time reaches STR.STALL_LIMIT and the needle frogs. -/
  | stallExpiry (needle : Nat)
  /-- LEVEL_FRAME_START (R328): A level-bus frame starts with CS_N falling: 20 VCLK after a LEVELS issue edge, or in the next slot. -/
  | levelFrameStart (bank : Nat)
  /-- LEVEL_FRAME_END (R331): CS_N rises at the end of a frame, and a host frame reads DONE. -/
  | levelFrameEnd (bank : Nat) (miso : Nat)
  /-- LVL_HOST_WRITE (R331): LVL.HOST_CMD with READ 0 sends one write frame to a PE device. -/
  | lvlHostWrite (session : Nat) (pin : Nat) (reg : Nat) (value : Nat) (bcast : Bool)
  /-- LVL_HOST_READ (R331): LVL.HOST_CMD with READ 1 sends a read frame and returns the MISO bits. -/
  | lvlHostRead (session : Nat) (pin : Nat) (reg : Nat)
  /-- SUPPLY_APPLY (R602): A SUPPLY entry writes the setpoint or current limit 16 VCLK after its issue edge, with clamping. -/
  | supplyApply
  /-- GAUGE_WRITE (R429): A host write to PTF.GAUGE sets the base, clears the anchors and becomes a pending step. -/
  | gaugeWrite (session : Nat) (el : Nat) (value : Bytes)
  /-- MEAS_DRIVE (R317): A staged write to PTF.MEAS_DRIVE in MEASURE. -/
  | measDrive (session : Nat) (el : Nat) (value : Nat)
  /-- MEAS_DRIVE_APPLY (R317): On the apply edge each pin takes its new MEASURE state in the stated order. -/
  | measDriveApply
  /-- TAE_ARM (R396): TAE.ARM ARM takes the unit into REARM. -/
  | taeArm (session : Nat) (el : Nat)
  /-- TAE_DISARM (R412): TAE.ARM DISARM takes the unit to DISARMED and abandons a record in POST. -/
  | taeDisarm (session : Nat) (el : Nat)
  /-- REARM_END (R410): 64 VCLK of REARM pass and the unit reads ARMED. -/
  | rearmEnd (unit : Nat)
  /-- TRIGGER_STAMP (R404): A qualifying trigger event reaches a unit and the unit triggers, or counts the event as missed, busy or not armed. -/
  | triggerStamp (unit : Nat)
  /-- FORCE (R404): TAE.FORCE forces a HOST trigger on the next VCLK edge. -/
  | force (session : Nat) (el : Nat)
  /-- TAE_TIMEOUT (R411): In AUTO mode, TAE.TIMEOUT expires in ARMED and a trigger is forced. -/
  | taeTimeout (unit : Nat)
  /-- RECORD_COMPLETE (R399): The last post-trigger sample is written and a TRIG_RECORD is committed. -/
  | recordComplete (unit : Nat) (changes : Changes)
  /-- CAL_SAMPLE (R423): A calibration TDC samples a qualifying tapped edge or strobe. -/
  | calSample (bank : Nat) (value : Int)
  /-- SWATCH_TIMEOUT (R427): A swatch without 128 samples within CAL.SWATCH_TIMEOUT ends with outcome TIMEOUT. -/
  | swatchTimeout (bank : Nat)
  /-- CAL_AGED (R441): A needle's seam age first exceeds CAL.MAX_AGE. -/
  | calAged (needle : Nat)
  /-- FULL_CAL_PHASE (R447): A full calibration phase ends at its time; at phase 3 the results are committed and the engine enters IDLE. -/
  | fullCalPhase (results : CalResults)
  /-- TMU_START (R473): TMU.CTRL START clears the result and starts a measurement. -/
  | tmuStart (session : Nat) (el : Nat)
  /-- TMU_STOP (R473): TMU.CTRL STOP ends the measurement as STOPPED. -/
  | tmuStop (session : Nat) (el : Nat)
  /-- TDC_STAMP (R467): A qualifying input event is stamped and forms measurement samples. -/
  | tdcStamp (tdc : Nat) (source : Nat) (falling : Bool) (t : Nat)
  /-- GATE_CLOSE (R470): A FREQUENCY gate closes on an XTAL edge and yields a sample. -/
  | gateClose (tdc : Nat) (t : Nat)
  /-- TMU_TIMEOUT (R472): No qualifying event arrives within TMU.TIMEOUT and the measurement ends NO_SIGNAL. -/
  | tmuTimeout (tdc : Nat)
  /-- MEMORY_REQUEST (R522): A pseudo-channel scheduler serves a master's request in class and age order. -/
  | memoryRequest (channel : Nat) (master : Nat) (write : Bool) (addr : Nat) (data : Bytes) (errorBits : Nat)
  /-- REFRESH_INTERVAL (R527): A tREFI boundary adds refresh deficit and applies the temperature-dependent interval. -/
  | refreshInterval (pc : Nat) (temp : Int)
  /-- FORCED_REFRESH (R528): The deficit reaches 8 tREFI and a REFab is forced. -/
  | forcedRefresh (pc : Nat)
  /-- NEIGHBOUR_REFRESH (R530): A neighbour refresh unissued after 1,024 MCLK is issued at the next access boundary. -/
  | neighbourRefresh (pc : Nat) (bank : Nat)
  /-- SELF_REFRESH_ENTRY (R533): A stack idle for HMS.SR_CFG.IDLE enters self-refresh automatically. -/
  | selfRefreshEntry (stack : Nat)
  /-- SCRUB (R538): The scrubber reads memory in the best-effort class and writes back corrected bursts. -/
  | scrub (addr : Nat) (errorBits : Nat)
  /-- COMMIT (R565): RAS.COMMIT makes the shadow layer state pending for the next sampling edge. -/
  | commit (session : Nat) (el : Nat)
  /-- BUFFER_RELEASE (R563): RAS.BUFFER_RELEASE makes a buffer EMPTY, or RELEASE_PENDING while attached. -/
  | bufferRelease (session : Nat) (el : Nat)
  /-- DOMAIN_REQ (R581): A PSM.DOMAIN_REQ write starts switching every domain whose bit changes. -/
  | domainReq (session : Nat) (value : Nat)
  /-- DOMAIN_SWITCH_DONE (R581): A domain reaches ON or OFF, or reads FAILED when its on time expires. -/
  | domainSwitchDone (pd : Nat) (ok : Bool)
  /-- PMBUS_POLL (R588): Every 1 ms the monitored rails are read and checked. -/
  | pmbusPoll (readings : Rails)
  /-- PMB_ALERT (R588): PMB_ALERT_N falling causes STATUS_WORD to be read at once. -/
  | pmbAlert (words : Nats)
  /-- CONVERSION (R590): A conversion code becomes available 2 slots after its slot: it is scaled, window-checked and fed to its loop compensator. -/
  | conversion (conv : Nat) (code : Int) (ovr : Bool)
  /-- LOOP_ENABLE (R600): SPL.ENABLE ENABLE starts the softstart of a loop. -/
  | loopEnable (session : Nat) (el : Nat)
  /-- LOOP_DISABLE (R600): SPL.ENABLE DISABLE takes the loop to DISABLED at once. -/
  | loopDisable (session : Nat) (el : Nat)
  /-- OW_TEST (R594): ADC.OW_TEST starts an open-wire test of an input. -/
  | owTest (session : Nat) (el : Nat)
  /-- OW_TEST_DONE (R594): The open-wire test completes with result OPEN or CONNECTED. -/
  | owTestDone (input : Nat) (vUp : Int) (vDown : Int)
  /-- SYSCAL_ZERO (R595): ADC.SYSCAL STEP ZERO averages 4,096 samples as C0. -/
  | syscalZero (session : Nat) (el : Nat)
  /-- SYSCAL_FULL (R595): ADC.SYSCAL STEP FULL averages 4,096 samples as C1 against FS_VALUE. -/
  | syscalFull (session : Nat) (el : Nat) (fs : Int)
  /-- SYSCAL_DONE (R595): A calibration step's averaging completes, setting GAIN and OFFSET or ending FAILED. -/
  | syscalDone (input : Nat) (codeSum : Int) (ovr : Bool)
  /-- REFCLK_LOSS (R624): REFCLK absent for 1 µs puts the PLL into holdover. -/
  | refclkLoss
  /-- REFCLK_RELOCK (R625): REFCLK present again for 10 ms relocks the PLL with a slewed phase. -/
  | refclkRelock
  /-- CLK_PLL_UNLOCK (R626): The root PLL loses lock. -/
  | clkPllUnlock
  /-- SYNC_EDGE (R631): A qualified SYNC edge sets the epoch when armed, or is only monitored against the expected period. -/
  | syncEdge (t : Nat)
  /-- SYNC_ARM (R631): CLK.SYNC_ARM ARM arms the epoch for the next qualified SYNC edge. -/
  | syncArm (session : Nat)
  /-- SYNC_DISARM (R631): CLK.SYNC_ARM DISARM disarms the epoch. -/
  | syncDisarm (session : Nat)
  /-- PTP_EVENT_MESSAGE (R648): A PTP event message is stamped on ingress or egress; an egress stamp enters the transmit queue. -/
  | ptpEventMessage (port : Nat) (egress : Bool) (seqId : Nat) (msgType : Nat)
  /-- PTP_OFFSET (R644): The offset computed from a Sync is handed to the servo, which adjusts the increment or steps NT. -/
  | ptpOffset (offset : Int) (pathDelay : Int) (port : Nat) (master : Nat)
  /-- PTP_SYNC_TIMEOUT (R645): 3 s without a Sync clears LOCKED. -/
  | ptpSyncTimeout
  /-- NT_SET (R646): PTP.NT_SET sets NT on its commit edge. -/
  | ntSet (session : Nat) (value : Bytes)
  /-- NT_ADJ (R646): PTP.NT_ADJ steps NT by the value written. -/
  | ntAdj (session : Nat) (value : Int)
  /-- TXQ_OVF_CLEAR (R648): A write of 0 to PTP.TXQ_OVF clears the overflow flag. -/
  | txqOvfClear (session : Nat) (el : Nat)
  /-- EVENT_SEND (R662): A SIGNAL event's first code group leaves the lane balls on the first column boundary at or after e+8. -/
  | eventSend (port : Nat)
  /-- EVENT_RECEIVE (R659): A received event is accepted by lane vote, or discarded as an event error. -/
  | eventReceive (port : Nat) (lanes : Lanes) (sentAt : Nat)
  /-- EVENT_DELIVERY (R665): An accepted event reaches the needle latches and acquisition units at e + 37 + X. -/
  | eventDelivery (port : Nat)
  /-- LATENCY_MARKER (R668): A K28.7 marker arrives, from which the flight and EXTRA are set, or LAT_VALID clears. -/
  | latencyMarker (port : Nat) (flight : Nat)
  /-- CASCADE_FRAME (R660): A cascade data frame is received into CSL.MSG_RECV, or discarded on a CRC failure or abort. -/
  | cascadeFrame (port : Nat) (frame : Bytes) (aborted : Bool)
  /-- CSL_LINK_DOWN (R675): Invalid code groups or comma loss take the port DOWN, and AUTO realignment may start. -/
  | cslLinkDown (port : Nat) (lane : Nat)
  /-- ALIGN_AUTO (R672): CSL.ALIGN AUTO runs the firmware alignment procedure. -/
  | alignAuto (session : Nat) (el : Nat)
  /-- ALIGN_MANUAL (R672): CSL.ALIGN MANUAL puts the port in TRAINING and opens CSL.LANE_CTRL to writes. -/
  | alignManual (session : Nat) (el : Nat)
  /-- ALIGN_DONE (R672): CSL.ALIGN DONE ends a manual alignment as UP or FAILED. -/
  | alignDone (session : Nat) (el : Nat)
  /-- ALIGNMENT_COMPLETE (R674): An AUTO alignment finishes and the port reads UP or FAILED. -/
  | alignmentComplete (port : Nat) (lanes : LaneFits)
  /-- LANE_TEST (R673): CSL.LANE_TEST starts a 10 µs code-error count on a lane. -/
  | laneTest (session : Nat) (el : Nat)
  /-- LANE_TEST_DONE (R673): The 10 µs test ends and TEST_DONE sets with the count. -/
  | laneTestDone (el : Nat) (errors : Nat) (comma : Bool) (deskewed : Bool)
  /-- FRAME_RECEIVE (R729): An Ethernet frame is received on a sub-port and filtered, queued or dropped. -/
  | frameReceive (port : Nat) (sub : Nat) (etherType : Nat) (vid : Nat) (pcp : Nat) (len : Nat) (fcsOk : Bool) (cls : Nat)
  /-- ARP_REQUEST (R729): An ARP request for the sub-port's address is answered. -/
  | arpRequest (port : Nat) (sub : Nat) (senderIp : Nat) (senderMac : Nat) (targetIp : Nat)
  /-- ECHO_REQUEST (R729): An ICMP or ICMPv6 echo request is answered, rate-limited. -/
  | echoRequest (port : Nat) (sub : Nat) (v6 : Bool) (src : Nat) (dst : Nat) (len : Nat)
  /-- NEIGHBOUR_SOLICITATION (R729): An NS is answered with an NA. -/
  | neighbourSolicitation (port : Nat) (sub : Nat) (src : Nat) (target : Nat) (dad : Bool)
  /-- MEMBERSHIP_QUERY (R729): An IGMP or MLD query is answered with reports for the joined groups. -/
  | membershipQuery (port : Nat) (sub : Nat) (v6 : Bool) (group : Nat)
  /-- PFC_RECEIVE (R737): A received PFC frame pauses the matching transmit classes. -/
  | pfcReceive (port : Nat) (sub : Nat) (classes : Nat) (quanta : Nats)
  /-- PFC_REPEAT (R736): While the bulk buffer stays above 75 %, PFC frames are repeated every 20 µs. -/
  | pfcRepeat (port : Nat)
  /-- MODULE_INSERT (R739): A module is inserted, released from low power and its data paths activated. -/
  | moduleInsert (port : Nat) (id : Nat)
  /-- HLK_LINK_UP (R739): A sub-port's PCS aligns and it reads UP. -/
  | hlkLinkUp (port : Nat) (sub : Nat)
  /-- HLK_LINK_DOWN (R739): A sub-port leaves UP and its queued frames are dropped. -/
  | hlkLinkDown (port : Nat) (sub : Nat)
  /-- PORT_CFG (R741): A write to HLK.PORT_CFG retrains every sub-port of the port. -/
  | portCfg (session : Nat) (el : Nat) (value : Bytes)
  /-- ENQUEUE (R759): A producer enqueues a work item in its flow, or is refused. -/
  | enqueue (flow : Nat) (prio : Nat) (producer : Nat)
  /-- DISPATCH (R756): On an FCLK edge the highest-priority competing item is handed to an idle eligible core. -/
  | dispatch
  /-- COMPLETE (R758): A core completes its item and is idle from the next edge. -/
  | complete (core : Nat)
  /-- YIELD (R750): A core yields its item, which is enqueued again ahead of later items of its flow. -/
  | yieldCmd (core : Nat)
  /-- CCC_HANG (R751): An item in service for 1 ms halts its core. -/
  | cccHang (core : Nat)
  /-- CCC_ECC_U (R752): A double-bit local SRAM error halts the core. -/
  | cccEccU (core : Nat)
  /-- STATS_CLEAR (R776): WDP.STATS_CLEAR clears the statistics block. -/
  | statsClear (session : Nat)
  /-- SOURCE_LATCH (R766): A rising source latches pending, count and stamps, and a fast-class source is delivered at once. -/
  | sourceLatch (source : Nat) (high : Bool)
  /-- HOLDOFF_EXPIRY (R768): A group hold-off timer expires and the group's pending sources are delivered. -/
  | holdoffExpiry (group : Nat)
  /-- CORE_WAIT (R769): A core executes its wait and becomes IDLE, taking deliveries held for it. -/
  | coreWait (core : Nat) (mask : Bool)
  /-- HANDLER_ENTRY (R770): The first handler instruction runs 9 or 30 FCLK after delivery. -/
  | handlerEntry (core : Nat)
  /-- CLAIM (R771): A core claims a source, clearing its pending bit, count and stamps. -/
  | claim (core : Nat) (source : Nat) (spurious : Bool)
  /-- FAULT_RAISE (R780): A checker reports a fault: the collector records, counts and latches it, and starts its reaction. -/
  | faultRaise (source : Nat) (inst : Nat) (master : Nat) (access : Nat) (addr : Nat)
  /-- FAULT_REACTION (R786): SITE_INVALID or NEEDLE_STOP reaches the needles in scope 8 FCLK after the latch edge. -/
  | faultReaction
  /-- FCR_PARITY (R789): A parity error in the collector's own registers enters SAFE by hardware and reloads the default reactions. -/
  | fcrParity
  /-- FAULT_CLEAR (R793): FCR.CLEAR of a source clears that active fault if its cause is gone. -/
  | faultClear (session : Nat) (source : Nat)
  /-- FAULT_CLEAR_ALL (R793): FCR.CLEAR of 0xFFFF clears every active fault whose cause is gone. -/
  | faultClearAll (session : Nat)
  /-- FCR_RECOVERED (R794): In BOOT, CALIBRATE or RIDETHRU an active fault clears after FCR.QUIET without its cause. -/
  | fcrRecovered (source : Nat)
  /-- FIRST_CLEAR (R790): FCR.FIRST_CLEAR clears VALID in every FCR.FIRST entry. -/
  | firstClear (session : Nat)
  /-- INJECT (R795): FCR.INJECT arms a fault injection into the next COUNT checked accesses. -/
  | inject (session : Nat) (source : Nat) (bits : Nat) (master : Nat) (count : Nat)
  /-- INJECT_CANCEL (R795): FCR.INJECT with SOURCE 0xFFFF cancels the pending injection. -/
  | injectCancel (session : Nat)
  /-- DUMP_ENTRY (R797): Once the safe plan completes on entry to DUMP, a core starts writing the dump. -/
  | dumpEntry
  /-- DMP_READY (R798): The dump completes, full or partial, and a summary record is written to flash. -/
  | dmpReady (body : Bytes)
  /-- DMP_CLEAR (R801): DMP.CLEAR discards the dump and starts the DUMP to BOOT transition. -/
  | dmpClear (session : Nat)
  /-- SUMMARY_CLEAR (R802): DMP.SUMMARY_CLEAR erases the summary records in flash. -/
  | summaryClear (session : Nat)
  /-- IMAGE_VALIDATION (R818): A firmware or patch image transfer is validated in flash and its final reply sent. -/
  | imageValidation (patch : Bool) (slot : Nat)
  /-- SLOT_SELECT (R819): BOT.SLOT_SELECT updates the boot control block to a slot with valid firmware. -/
  | slotSelect (session : Nat) (slot : Nat)
  /-- ROLLBACK_COMMIT (R817): BOT.ROLLBACK_COMMIT raises the fused rollback level to the running images' level. -/
  | rollbackCommit (session : Nat)
  /-- KEY_REVOKE (R820): BOT.KEY_REVOKE blows the revoke fuse of a signing key. -/
  | keyRevoke (session : Nat) (key : Nat)
  /-- KEY_WRITE (R821): A SEC.KEY write stores an HMAC key encrypted in the key store. -/
  | keyWrite (session : Nat) (el : Nat) (value : Bytes)
  /-- PAUSE_QUANTA_EXPIRY (R737): The pause quanta of a received PFC frame run out and the paused transmit class sends its held frames again. -/
  | pauseQuantaExpiry (port : Nat) (sub : Nat) (pcp : Nat)
  /-- MODULE_REMOVAL (R738): The Ethernet module is removed, so the port's sub-ports read NO_MODULE and HLK.MODULE.PRESENT clears. -/
  | moduleRemoval (port : Nat)
  /-- CSL_FRAME_SENT (R678): The last column of a CSL.MSG_SEND frame leaves the port, which ends the E_BUSY refusal of the next transfer. -/
  | cslFrameSent (port : Nat)
  /-- ARP_ENTRY_EXPIRY (R729): An ARP cache entry reaches its 300 s lifetime and is removed from the sub-port's cache. -/
  | arpEntryExpiry (port : Nat) (sub : Nat) (ip : Nat)
  /-- DISPATCHER_TIME_ANCHOR (R761): The lower 32 bits of the FCLK count wrap and the dispatcher trace writes a TIME record. -/
  | dispatcherTimeAnchor
  /-- SOFTSTART_END (R600): SOFTSTART µs after enable, set_eff reaches SPL.SETPOINT and the loop reads REGULATING. -/
  | softstartEnd (loop : Nat)
  deriving DecidableEq, Repr

end Sys2Proof
end

