-- ==== Sys2Proof/Machine/ObjTypes.lean ====
section
/-! DEFINITION. The shapes of the dictionary's tables: element classes (R49, R846, R50), value types (R67), a row, a field of a record. -/
namespace Sys2Proof.Machine

/-- What the elements of an object select. -/
inductive ObjCls where
  /-- R48: the single element 0. -/
  | single
  /-- R49: the instance classes. -/
  | pin | site | needle | loop | core | ain | port | cport | chart | aunit | tdc | stream | layer
  /-- R846: an object of its own range, with this many elements. -/
  | own (n : Nat)
  /-- R50: a composite element, outer and inner class counts. -/
  | composite (outer inner : Nat)
  /-- HLK objects per sub-port: port × 256 + sub-port, a port having as many sub-ports as its mode gives (12 at most, see 19_host_link). -/
  | subPort
  deriving DecidableEq, Repr

/-- The types of R67. A numeric type carries its length in bytes and its limits (R71 step 7). -/
inductive ObjTy where
  | bool
  | uint (bytes lo hi : Nat)
  | sint (bytes : Nat) (lo hi : Int)
  | enum (codes : List Nat)
  /-- R849: a command object. -/
  | command
  /-- A set over the first n instances, stored in the given number of bytes. -/
  | bitset (bytes n : Nat)
  /-- A string of at most so many bytes. -/
  | str (maxLen : Nat)
  | stamp
  | record (bytes : Nat)
  | domain
  /-- R87: a service object; its type is Weahan's. -/
  | service
  deriving DecidableEq, Repr

/-- One row of an object table. Levels: 0 V, 1 O, 2 E, 3 S, none for a dash; modes: bit n for mode code n. -/
structure ObjRow where
  ix : Nat
  cls : ObjCls
  ty : ObjTy
  rd : Option Nat
  wr : Option Nat
  dflt : Nat
  modes : Nat
  fw : Bool
  persist : Bool
  deriving DecidableEq, Repr

/-- A field of a record: its lowest bit and its width. -/
structure Fld where
  lo : Nat
  w : Nat
  deriving DecidableEq, Repr

end Sys2Proof.Machine
end

