-- ==== Sys2Proof/Machine/Fields.lean ====
section
/-! DEFINITION. The fields of the RECORD objects (lowest bit and width), written from the field maps of spec/, and the numbers of the event sources (R763). -/
namespace Sys2Proof.Machine

abbrev F.devIdentVendor : Fld := ⟨0, 16⟩
abbrev F.devIdentPart : Fld := ⟨16, 16⟩
abbrev F.devIdentStepping : Fld := ⟨32, 8⟩
abbrev F.devIdentNeedles : Fld := ⟨40, 8⟩
abbrev F.devIdentPins : Fld := ⟨48, 16⟩
abbrev F.devIdentHbmGib : Fld := ⟨64, 8⟩
abbrev F.devIdentCores : Fld := ⟨72, 8⟩
abbrev F.devIdentDictRev : Fld := ⟨80, 16⟩
abbrev F.devStoreStatusState : Fld := ⟨0, 8⟩
abbrev F.devStoreStatusLastReason : Fld := ⟨8, 16⟩
abbrev F.devStoreStatusBadSat : Fld := ⟨24, 1⟩
abbrev F.devStoreStatusBadRecords : Fld := ⟨32, 32⟩
abbrev F.devStoreStatusLastSaveNs : Fld := ⟨64, 32⟩
abbrev F.devStoreStatusLastSaveS : Fld := ⟨96, 32⟩
abbrev F.odeMcastStatusAccepted : Fld := ⟨0, 48⟩
abbrev F.odeMcastStatusRefused : Fld := ⟨48, 48⟩
abbrev F.odeMcastStatusLastReason : Fld := ⟨96, 16⟩
abbrev F.odeMcastStatusLastIndex : Fld := ⟨112, 16⟩
abbrev F.odeMcastStatusLastElement : Fld := ⟨128, 16⟩
abbrev F.odeMcastStatusAcceptedSat : Fld := ⟨190, 1⟩
abbrev F.odeMcastStatusRefusedSat : Fld := ⟨191, 1⟩
abbrev F.ndlChartInfoNpins : Fld := ⟨0, 16⟩
abbrev F.ndlChartInfoInitTset : Fld := ⟨16, 8⟩
abbrev F.ndlChartInfoHflags : Fld := ⟨24, 8⟩
abbrev F.ndlChartInfoCourses : Fld := ⟨32, 32⟩
abbrev F.ndlChartInfoNseg : Fld := ⟨64, 32⟩
abbrev F.ndlChartInfoBlocks : Fld := ⟨96, 32⟩
abbrev F.ndlChartInfoImageCrc : Fld := ⟨128, 32⟩
abbrev F.ndlChartErrorReason : Fld := ⟨0, 16⟩
abbrev F.ndlChartErrorCheck : Fld := ⟨16, 8⟩
abbrev F.ndlChartErrorCourse : Fld := ⟨24, 32⟩
abbrev F.ndlChartStoreCapacity : Fld := ⟨0, 64⟩
abbrev F.ndlChartStoreUsed : Fld := ⟨64, 64⟩
abbrev F.ndlChartCountsLoads : Fld := ⟨0, 48⟩
abbrev F.ndlChartCountsFails : Fld := ⟨48, 48⟩
abbrev F.ndlChartCountsLoadsSat : Fld := ⟨96, 1⟩
abbrev F.ndlChartCountsFailsSat : Fld := ⟨97, 1⟩
abbrev F.devUcodeVersionBaseMajor : Fld := ⟨24, 8⟩
abbrev F.devUcodeVersionBaseMinor : Fld := ⟨16, 8⟩
abbrev F.devUcodeVersionPatchLevel : Fld := ⟨0, 16⟩
abbrev F.ndlStatusTset : Fld := ⟨0, 6⟩
abbrev F.ndlStatusTsetGap : Fld := ⟨6, 1⟩
abbrev F.ndlStatusFrogLate : Fld := ⟨7, 1⟩
abbrev F.ndlStatusFrogCause : Fld := ⟨8, 3⟩
abbrev F.ndlStatusStickyFail : Fld := ⟨11, 1⟩
abbrev F.ndlStatusLoopDepth : Fld := ⟨12, 4⟩
abbrev F.ndlStatusCallDepth : Fld := ⟨16, 5⟩
abbrev F.ndlStatusInSeam : Fld := ⟨21, 1⟩
abbrev F.ndlStatusGaugePending : Fld := ⟨22, 1⟩
abbrev F.ndlStatusSwitchPending : Fld := ⟨23, 1⟩
abbrev F.ndlStatusJumpPending : Fld := ⟨24, 1⟩
abbrev F.ndlStatusStagedPending : Fld := ⟨25, 1⟩
abbrev F.ndlStatusDecisionPending : Fld := ⟨26, 1⟩
abbrev F.ndlStatusOverlayActive : Fld := ⟨27, 1⟩
abbrev F.ndlStatusRasterAttached : Fld := ⟨28, 1⟩
abbrev F.ndlStatusBreakHit : Fld := ⟨29, 1⟩
abbrev F.ndlStatusMarkId : Fld := ⟨32, 16⟩
abbrev F.ndlStatusCourse : Fld := ⟨48, 32⟩
abbrev F.ndlStatusSegment : Fld := ⟨80, 20⟩
abbrev F.ndlStatusExternal : Fld := ⟨100, 1⟩
abbrev F.ndlStatusHandle : Fld := ⟨101, 10⟩
abbrev F.ndlJumpTableValid : Fld := ⟨256, 8⟩
abbrev F.ndlJumpStatusState : Fld := ⟨0, 2⟩
abbrev F.ndlJumpStatusEntry : Fld := ⟨2, 3⟩
abbrev F.ndlJumpStatusDeferred : Fld := ⟨5, 1⟩
abbrev F.ndlJumpStatusSegment : Fld := ⟨8, 20⟩
abbrev F.ndlJumpStatusStitch : Fld := ⟨32, 64⟩
abbrev F.ndlCountsStarts : Fld := ⟨0, 48⟩
abbrev F.ndlCountsDones : Fld := ⟨48, 48⟩
abbrev F.ndlCountsFrogs : Fld := ⟨96, 48⟩
abbrev F.ndlCountsFrogLates : Fld := ⟨144, 48⟩
abbrev F.ndlCountsSeams : Fld := ⟨192, 48⟩
abbrev F.ndlCountsTsetGaps : Fld := ⟨240, 48⟩
abbrev F.ndlCountsHolds : Fld := ⟨288, 48⟩
abbrev F.ndlCountsSat : Fld := ⟨336, 7⟩
abbrev F.ndlTraceCtrlKinds : Fld := ⟨0, 16⟩
abbrev F.ndlTraceCtrlEnable : Fld := ⟨16, 1⟩
abbrev F.ndlTraceCtrlSize : Fld := ⟨24, 8⟩
abbrev F.ndlTraceStatusWritten : Fld := ⟨0, 48⟩
abbrev F.ndlTraceStatusLost : Fld := ⟨48, 48⟩
abbrev F.ndlTraceStatusWrittenSat : Fld := ⟨96, 1⟩
abbrev F.ndlTraceStatusLostSat : Fld := ⟨97, 1⟩
abbrev F.ndlUcodeInfoVersion : Fld := ⟨0, 32⟩
abbrev F.ndlUcodeInfoPatchState : Fld := ⟨32, 8⟩
abbrev F.ndlUcodeInfoTraps : Fld := ⟨40, 7⟩
abbrev F.ndlUcodeInfoPatchWords : Fld := ⟨48, 11⟩
abbrev F.ndlUcodeInfoWordsCrc : Fld := ⟨64, 32⟩
abbrev F.strFillUsed : Fld := ⟨0, 32⟩
abbrev F.strFillFree : Fld := ⟨32, 32⟩
abbrev F.strFillAhead : Fld := ⟨64, 32⟩
abbrev F.strUnderrunStalls : Fld := ⟨0, 48⟩
abbrev F.strUnderrunFrogs : Fld := ⟨48, 48⟩
abbrev F.strUnderrunStallsSat : Fld := ⟨96, 1⟩
abbrev F.strUnderrunFrogsSat : Fld := ⟨97, 1⟩
abbrev F.strUnderrunLastFrog : Fld := ⟨98, 1⟩
abbrev F.strUnderrunExpired : Fld := ⟨99, 1⟩
abbrev F.strUnderrunLastStitch : Fld := ⟨128, 64⟩
abbrev F.strCountsSkeins : Fld := ⟨0, 48⟩
abbrev F.strCountsRefused : Fld := ⟨48, 48⟩
abbrev F.strCountsIdleStitches : Fld := ⟨96, 48⟩
abbrev F.strCountsSat : Fld := ⟨144, 3⟩
abbrev F.strSkeinErrorReason : Fld := ⟨0, 16⟩
abbrev F.strSkeinErrorCheck : Fld := ⟨16, 8⟩
abbrev F.strSkeinErrorSeq : Fld := ⟨32, 32⟩
abbrev F.strSkeinErrorCourse : Fld := ⟨64, 32⟩
abbrev F.ptfPinCfgInvDrv : Fld := ⟨0, 1⟩
abbrev F.ptfPinCfgInvDen : Fld := ⟨1, 1⟩
abbrev F.ptfPinCfgInvCmh : Fld := ⟨2, 1⟩
abbrev F.ptfPinCfgInvCml : Fld := ⟨3, 1⟩
abbrev F.ptfGaugeDrvRise : Fld := ⟨0, 16⟩
abbrev F.ptfGaugeDrvFall : Fld := ⟨16, 16⟩
abbrev F.ptfGaugeDenOn : Fld := ⟨32, 16⟩
abbrev F.ptfGaugeDenOff : Fld := ⟨48, 16⟩
abbrev F.ptfGaugeCmh : Fld := ⟨64, 16⟩
abbrev F.ptfGaugeCml : Fld := ⟨80, 16⟩
abbrev F.ptfGaugeFactoryDrvRise : Fld := ⟨0, 16⟩
abbrev F.ptfGaugeFactoryDrvFall : Fld := ⟨16, 16⟩
abbrev F.ptfGaugeFactoryDenOn : Fld := ⟨32, 16⟩
abbrev F.ptfGaugeFactoryDenOff : Fld := ⟨48, 16⟩
abbrev F.ptfGaugeFactoryCmh : Fld := ⟨64, 16⟩
abbrev F.ptfGaugeFactoryCml : Fld := ⟨80, 16⟩
abbrev F.ptfGaugeActiveDrvRise : Fld := ⟨0, 16⟩
abbrev F.ptfGaugeActiveDrvFall : Fld := ⟨16, 16⟩
abbrev F.ptfGaugeActiveDenOn : Fld := ⟨32, 16⟩
abbrev F.ptfGaugeActiveDenOff : Fld := ⟨48, 16⟩
abbrev F.ptfGaugeActiveCmh : Fld := ⟨64, 16⟩
abbrev F.ptfGaugeActiveCml : Fld := ⟨80, 16⟩
abbrev F.ptfWaveInfoPeriod : Fld := ⟨0, 64⟩
abbrev F.ptfWaveInfoNpins : Fld := ⟨64, 16⟩
abbrev F.ptfWaveInfoRange : Fld := ⟨80, 2⟩
abbrev F.ptfWaveInfoWindowUsed : Fld := ⟨82, 1⟩
abbrev F.ptfWaveInfoImageCrc : Fld := ⟨96, 32⟩
abbrev F.ptfWaveErrorReason : Fld := ⟨0, 16⟩
abbrev F.ptfWaveErrorCheck : Fld := ⟨16, 8⟩
abbrev F.ptfWaveErrorPin : Fld := ⟨24, 8⟩
abbrev F.ptfWaveErrorWave : Fld := ⟨32, 4⟩
abbrev F.ptfWaveErrorEntry : Fld := ⟨36, 3⟩
abbrev F.ptfCountsCollisions : Fld := ⟨0, 48⟩
abbrev F.ptfCountsCollisionsSat : Fld := ⟨48, 1⟩
abbrev F.ptfMeasCmpCmh : Fld := ⟨0, 1⟩
abbrev F.ptfMeasCmpCml : Fld := ⟨1, 1⟩
abbrev F.lvlHostCmdValue : Fld := ⟨0, 16⟩
abbrev F.lvlHostCmdReg : Fld := ⟨16, 8⟩
abbrev F.lvlHostCmdPin : Fld := ⟨24, 8⟩
abbrev F.lvlHostCmdRead : Fld := ⟨32, 1⟩
abbrev F.lvlHostCmdBcast : Fld := ⟨33, 1⟩
abbrev F.lvlHostResultState : Fld := ⟨0, 8⟩
abbrev F.lvlHostResultReadValue : Fld := ⟨8, 16⟩
abbrev F.lvlCountsChartFrames : Fld := ⟨0, 48⟩
abbrev F.lvlCountsHostFrames : Fld := ⟨48, 48⟩
abbrev F.lvlCountsChartSat : Fld := ⟨96, 1⟩
abbrev F.lvlCountsHostSat : Fld := ⟨97, 1⟩
abbrev F.failStitch : Fld := ⟨0, 64⟩
abbrev F.failCourse : Fld := ⟨64, 32⟩
abbrev F.failTset : Fld := ⟨96, 6⟩
abbrev F.siteEndResult : Fld := ⟨0, 8⟩
abbrev F.siteEndFlags : Fld := ⟨8, 8⟩
abbrev F.siteEndFailStitches : Fld := ⟨16, 48⟩
abbrev F.siteEndFirstFail : Fld := ⟨64, 64⟩
abbrev F.siteEndDropped : Fld := ⟨128, 48⟩
abbrev F.gapRecords : Fld := ⟨0, 48⟩
abbrev F.gapCause : Fld := ⟨48, 8⟩
abbrev F.gapFirstStitch : Fld := ⟨64, 64⟩
abbrev F.capRunStitch : Fld := ⟨0, 64⟩
abbrev F.capRunWord : Fld := ⟨64, 64⟩
abbrev F.flushedBytes : Fld := ⟨0, 48⟩
abbrev F.flushedEndDiscarded : Fld := ⟨48, 1⟩
abbrev F.ptfSiteResultResult : Fld := ⟨0, 8⟩
abbrev F.ptfSiteResultFinal : Fld := ⟨8, 1⟩
abbrev F.ptfSiteResultLogIncomplete : Fld := ⟨9, 1⟩
abbrev F.ptfSiteResultLogLimited : Fld := ⟨10, 1⟩
abbrev F.ptfSiteResultStopped : Fld := ⟨11, 1⟩
abbrev F.ptfSiteResultNeedleFrogged : Fld := ⟨12, 1⟩
abbrev F.ptfSiteResultCauses : Fld := ⟨16, 6⟩
abbrev F.ptfSiteResultNeedle : Fld := ⟨24, 8⟩
abbrev F.ptfSiteResultFailStitches : Fld := ⟨32, 48⟩
abbrev F.ptfSiteResultFailSat : Fld := ⟨80, 1⟩
abbrev F.ptfSiteResultFirstFail : Fld := ⟨96, 64⟩
abbrev F.ptfSiteResultDropped : Fld := ⟨160, 48⟩
abbrev F.ptfSiteResultDroppedSat : Fld := ⟨208, 1⟩
abbrev F.ptfFailLogCfgEnable : Fld := ⟨0, 1⟩
abbrev F.ptfFailLogCfgDlog : Fld := ⟨1, 2⟩
abbrev F.ptfFailLogCfgLimit : Fld := ⟨32, 32⟩
abbrev F.ptfFailFifoHighWater : Fld := ⟨0, 11⟩
abbrev F.ptfFailFifoOverruns : Fld := ⟨32, 48⟩
abbrev F.ptfFailFifoOverrunsSat : Fld := ⟨80, 1⟩
abbrev F.ptfPinFailsFails : Fld := ⟨0, 48⟩
abbrev F.ptfPinFailsFailsSat : Fld := ⟨48, 1⟩
abbrev F.ptfPinFailsFirstFail : Fld := ⟨64, 64⟩
abbrev F.ptfCapCfgSize : Fld := ⟨0, 13⟩
abbrev F.ptfCapCfgBits : Fld := ⟨13, 1⟩
abbrev F.ptfCapCfgWrap : Fld := ⟨14, 1⟩
abbrev F.ptfCapStatusWords : Fld := ⟨0, 64⟩
abbrev F.ptfCapStatusLost : Fld := ⟨64, 48⟩
abbrev F.ptfCapStatusLostSat : Fld := ⟨112, 1⟩
abbrev F.ptfCapStatusFull : Fld := ⟨113, 1⟩
abbrev F.ptfCapStatusWrapped : Fld := ⟨114, 1⟩
abbrev F.ptfCapStatusCw : Fld := ⟨116, 12⟩
abbrev F.ptfDlogStatusSent : Fld := ⟨0, 48⟩
abbrev F.ptfDlogStatusDiscarded : Fld := ⟨48, 48⟩
abbrev F.ptfDlogStatusSentSat : Fld := ⟨96, 1⟩
abbrev F.ptfDlogStatusDiscardedSat : Fld := ⟨97, 1⟩
abbrev F.rqpPoolCfgQueueCells : Fld := ⟨0, 16⟩
abbrev F.rqpPoolCfgResumeCells : Fld := ⟨16, 16⟩
abbrev F.rqpPoolCfgPrio : Fld := ⟨32, 3⟩
abbrev F.rqpPoolStatusFreeCells : Fld := ⟨0, 17⟩
abbrev F.rqpPoolStatusMinFree : Fld := ⟨32, 17⟩
abbrev F.rqpPoolStatusQueues : Fld := ⟨64, 11⟩
abbrev F.rqpPoolStatusExhausted : Fld := ⟨75, 1⟩
abbrev F.rqpCountsRefusals : Fld := ⟨0, 48⟩
abbrev F.rqpCountsDropped : Fld := ⟨48, 48⟩
abbrev F.rqpCountsFlushes : Fld := ⟨96, 48⟩
abbrev F.rqpCountsDiscarded : Fld := ⟨144, 48⟩
abbrev F.rqpCountsEccCorrected : Fld := ⟨192, 48⟩
abbrev F.rqpCountsSat : Fld := ⟨240, 5⟩
abbrev F.rqpSiteQueueQueue : Fld := ⟨0, 10⟩
abbrev F.rqpSiteQueuePlaced : Fld := ⟨10, 1⟩
abbrev F.rqpSiteQueueCells : Fld := ⟨16, 16⟩
abbrev F.rqpSiteQueuePending : Fld := ⟨32, 32⟩
abbrev F.rqpNeedleQueueQueue : Fld := ⟨0, 10⟩
abbrev F.rqpNeedleQueuePlaced : Fld := ⟨10, 1⟩
abbrev F.rqpNeedleQueueCells : Fld := ⟨16, 16⟩
abbrev F.rqpNeedleQueuePending : Fld := ⟨32, 32⟩
abbrev F.taeSampleCfgDiv : Fld := ⟨0, 5⟩
abbrev F.taeSampleCfgBits : Fld := ⟨5, 1⟩
abbrev F.taeTrigCfgMode : Fld := ⟨0, 2⟩
abbrev F.taeTrigCfgSources : Fld := ⟨8, 4⟩
abbrev F.taeTrigCfgTrigin : Fld := ⟨16, 2⟩
abbrev F.taeTrigCfgFalling : Fld := ⟨18, 1⟩
abbrev F.taeTrigCfgEvent : Fld := ⟨24, 8⟩
abbrev F.taeTrigCfgPorts : Fld := ⟨32, 4⟩
abbrev F.taeTrigCfgCount : Fld := ⟨64, 32⟩
abbrev F.taeCountsRecords : Fld := ⟨0, 48⟩
abbrev F.taeCountsMissed : Fld := ⟨48, 48⟩
abbrev F.taeCountsBusy : Fld := ⟨96, 48⟩
abbrev F.taeCountsNotArmed : Fld := ⟨144, 48⟩
abbrev F.taeCountsForced : Fld := ⟨192, 48⟩
abbrev F.taeCountsOverwritten : Fld := ⟨240, 48⟩
abbrev F.taeCountsAbandoned : Fld := ⟨288, 48⟩
abbrev F.taeCountsSat : Fld := ⟨336, 7⟩
abbrev F.calCtrlEnable : Fld := ⟨0, 1⟩
abbrev F.calCtrlBanks : Fld := ⟨8, 8⟩
abbrev F.calCtrlQuants : Fld := ⟨16, 6⟩
abbrev F.calCountsSwatches : Fld := ⟨0, 48⟩
abbrev F.calCountsSkips : Fld := ⟨48, 48⟩
abbrev F.calCountsTimeouts : Fld := ⟨96, 48⟩
abbrev F.calCountsSteps : Fld := ⟨144, 48⟩
abbrev F.calCountsSat : Fld := ⟨192, 4⟩
abbrev F.calPinStatusAnchored : Fld := ⟨0, 6⟩
abbrev F.calPinStatusPending : Fld := ⟨6, 6⟩
abbrev F.calPinStatusUntracked : Fld := ⟨12, 6⟩
abbrev F.calPinStatusRejectRun : Fld := ⟨24, 8⟩
abbrev F.calPinStatusConfirmed : Fld := ⟨32, 96⟩
abbrev F.calLastSwatchQuant : Fld := ⟨0, 3⟩
abbrev F.calLastSwatchOutcome : Fld := ⟨3, 4⟩
abbrev F.calLastSwatchSpread : Fld := ⟨16, 16⟩
abbrev F.calLastSwatchValueDelta : Fld := ⟨32, 32⟩
abbrev F.calLastSwatchCandidate : Fld := ⟨64, 16⟩
abbrev F.calLastSwatchStamp : Fld := ⟨96, 96⟩
abbrev F.calNeedleAgeAge : Fld := ⟨0, 64⟩
abbrev F.calNeedleAgeAged : Fld := ⟨64, 1⟩
abbrev F.calFullCfgRefPin : Fld := ⟨0, 8⟩
abbrev F.calFullCfgBanks : Fld := ⟨8, 8⟩
abbrev F.calFullStatusResult : Fld := ⟨0, 8⟩
abbrev F.calFullStatusPhase : Fld := ⟨8, 8⟩
abbrev F.calFullStatusPinsFailed : Fld := ⟨16, 16⟩
abbrev F.calFullStatusStamp : Fld := ⟨32, 96⟩
abbrev F.calFullPinOutcome : Fld := ⟨0, 8⟩
abbrev F.calFullPinQuant : Fld := ⟨8, 3⟩
abbrev F.tmuCfgMode : Fld := ⟨0, 3⟩
abbrev F.tmuCfgTimebase : Fld := ⟨3, 1⟩
abbrev F.tmuCfgEdgeA : Fld := ⟨4, 2⟩
abbrev F.tmuCfgEdgeB : Fld := ⟨6, 2⟩
abbrev F.tmuCfgSrcA : Fld := ⟨8, 16⟩
abbrev F.tmuCfgSrcB : Fld := ⟨24, 16⟩
abbrev F.tmuCfgSpan : Fld := ⟨40, 24⟩
abbrev F.tmuResultMode : Fld := ⟨0, 4⟩
abbrev F.tmuResultNSat : Fld := ⟨4, 1⟩
abbrev F.tmuResultN : Fld := ⟨16, 48⟩
abbrev F.tmuResultMin : Fld := ⟨64, 64⟩
abbrev F.tmuResultMax : Fld := ⟨128, 64⟩
abbrev F.tmuResultMean : Fld := ⟨192, 64⟩
abbrev F.tmuResultRms : Fld := ⟨256, 64⟩
abbrev F.tmuResultStamp : Fld := ⟨320, 96⟩
abbrev F.tmuCountsStamps : Fld := ⟨0, 48⟩
abbrev F.tmuCountsMissed : Fld := ⟨48, 48⟩
abbrev F.tmuCountsChains : Fld := ⟨96, 48⟩
abbrev F.tmuCountsSat : Fld := ⟨144, 3⟩
abbrev F.tmuXtalOffsetOffset : Fld := ⟨0, 32⟩
abbrev F.tmuXtalOffsetStandalone : Fld := ⟨32, 1⟩
abbrev F.stampRoot : Fld := ⟨0, 64⟩
abbrev F.stampFine : Fld := ⟨64, 9⟩
abbrev F.stampInput : Fld := ⟨73, 1⟩
abbrev F.stampFalling : Fld := ⟨74, 1⟩
abbrev F.plcReportCondition : Fld := ⟨0, 8⟩
abbrev F.plcReportNeedle : Fld := ⟨8, 8⟩
abbrev F.plcReportChart : Fld := ⟨16, 16⟩
abbrev F.plcReportPin : Fld := ⟨32, 16⟩
abbrev F.plcReportCourse : Fld := ⟨48, 32⟩
abbrev F.plcReportTsetA : Fld := ⟨80, 6⟩
abbrev F.plcReportTsetB : Fld := ⟨86, 6⟩
abbrev F.plcReportWaveA : Fld := ⟨92, 4⟩
abbrev F.plcReportWaveB : Fld := ⟨96, 4⟩
abbrev F.plcReportDemand : Fld := ⟨128, 32⟩
abbrev F.plcReportLimit : Fld := ⟨160, 32⟩
abbrev F.plcReportExcess : Fld := ⟨192, 32⟩
abbrev F.plcReportStamp : Fld := ⟨256, 96⟩
abbrev F.plcNeedleDemandFetchHbm : Fld := ⟨0, 32⟩
abbrev F.plcNeedleDemandFetchSc : Fld := ⟨32, 32⟩
abbrev F.plcNeedleDemandRingRead : Fld := ⟨64, 32⟩
abbrev F.plcNeedleDemandRingWrite : Fld := ⟨96, 32⟩
abbrev F.plcNeedleDemandCapture : Fld := ⟨128, 32⟩
abbrev F.plcNeedleDemandPMin : Fld := ⟨160, 64⟩
abbrev F.plcTotalsHbmDemand : Fld := ⟨0, 32⟩
abbrev F.plcTotalsScDemand : Fld := ⟨32, 32⟩
abbrev F.plcTotalsAcq : Fld := ⟨64, 32⟩
abbrev F.plcTotalsScUsed : Fld := ⟨96, 32⟩
abbrev F.plcTotalsMandatory : Fld := ⟨128, 32⟩
abbrev F.plcTotalsPoolUsed : Fld := ⟨160, 32⟩
abbrev F.plcTotalsQueues : Fld := ⟨192, 11⟩
abbrev F.plcLimitsHbmReserve : Fld := ⟨0, 32⟩
abbrev F.plcLimitsScShare : Fld := ⟨32, 32⟩
abbrev F.plcLimitsPort : Fld := ⟨64, 32⟩
abbrev F.plcLimitsPoolMib : Fld := ⟨96, 32⟩
abbrev F.plcStreamProfileBpp4 : Fld := ⟨0, 1⟩
abbrev F.plcStreamProfileCopies : Fld := ⟨1, 7⟩
abbrev F.plcStreamProfileTsets : Fld := ⟨64, 64⟩
abbrev F.plcChartPlaceSegmentsSc : Fld := ⟨0, 32⟩
abbrev F.plcChartPlaceCoursesSc : Fld := ⟨32, 32⟩
abbrev F.plcChartPlaceSwitchesPending : Fld := ⟨64, 32⟩
abbrev F.plcCountsArmings : Fld := ⟨0, 48⟩
abbrev F.plcCountsRefusals : Fld := ⟨48, 48⟩
abbrev F.plcCountsMigrations : Fld := ⟨96, 48⟩
abbrev F.plcCountsSwitches : Fld := ⟨144, 48⟩
abbrev F.plcCountsSat : Fld := ⟨192, 4⟩
abbrev F.plcLogRecordKind : Fld := ⟨0, 4⟩
abbrev F.plcLogRecordNeedle : Fld := ⟨8, 8⟩
abbrev F.plcLogRecordChart : Fld := ⟨16, 16⟩
abbrev F.plcLogRecordItem : Fld := ⟨32, 32⟩
abbrev F.plcLogRecordValue : Fld := ⟨64, 32⟩
abbrev F.plcLogRecordArming : Fld := ⟨96, 32⟩
abbrev F.hmsRhCfgEnable : Fld := ⟨0, 1⟩
abbrev F.hmsRhCfgK : Fld := ⟨8, 5⟩
abbrev F.hmsSrCfgAuto : Fld := ⟨0, 1⟩
abbrev F.hmsSrCfgIdle : Fld := ⟨32, 32⟩
abbrev F.hmsScrubCfgEnable : Fld := ⟨0, 1⟩
abbrev F.hmsScrubCfgPeriod : Fld := ⟨32, 32⟩
abbrev F.hmsLoadRtPeak : Fld := ⟨0, 32⟩
abbrev F.hmsLoadRtLatMax : Fld := ⟨32, 16⟩
abbrev F.hmsLoadBeLatMax : Fld := ⟨48, 16⟩
abbrev F.hmsCountsPostponed : Fld := ⟨0, 48⟩
abbrev F.hmsCountsForced : Fld := ⟨48, 48⟩
abbrev F.hmsCountsNeighbour : Fld := ⟨96, 48⟩
abbrev F.hmsCountsEccC : Fld := ⟨144, 48⟩
abbrev F.hmsCountsEccU : Fld := ⟨192, 48⟩
abbrev F.hmsCountsSrEntries : Fld := ⟨240, 48⟩
abbrev F.hmsCountsSat : Fld := ⟨288, 6⟩
abbrev F.hmsSrLateCount : Fld := ⟨0, 48⟩
abbrev F.hmsSrLateCountSat : Fld := ⟨48, 1⟩
abbrev F.hmsSrLateMax : Fld := ⟨49, 15⟩
abbrev F.rasStreamCfgNeedle : Fld := ⟨0, 8⟩
abbrev F.rasStreamCfgLock : Fld := ⟨8, 1⟩
abbrev F.rasStreamCfgPolarity : Fld := ⟨9, 1⟩
abbrev F.rasStreamCfgWindow : Fld := ⟨16, 16⟩
abbrev F.rasStreamCfgFlyLimit : Fld := ⟨32, 8⟩
abbrev F.rasTimingHtotal : Fld := ⟨0, 16⟩
abbrev F.rasTimingHactive : Fld := ⟨16, 16⟩
abbrev F.rasTimingHsStart : Fld := ⟨32, 16⟩
abbrev F.rasTimingHsEnd : Fld := ⟨48, 16⟩
abbrev F.rasTimingVtotal : Fld := ⟨64, 16⟩
abbrev F.rasTimingVactive : Fld := ⟨80, 16⟩
abbrev F.rasTimingVsStart : Fld := ⟨96, 16⟩
abbrev F.rasTimingVsEnd : Fld := ⟨112, 16⟩
abbrev F.outputLanePin : Fld := ⟨0, 8⟩
abbrev F.outputLaneSrc : Fld := ⟨8, 5⟩
abbrev F.outputLaneCode0 : Fld := ⟨16, 4⟩
abbrev F.outputLaneCode1 : Fld := ⟨20, 4⟩
abbrev F.outputLaneValid : Fld := ⟨31, 1⟩
abbrev F.returnLanePin : Fld := ⟨0, 8⟩
abbrev F.returnLaneValid : Fld := ⟨31, 1⟩
abbrev F.rasStateState : Fld := ⟨0, 8⟩
abbrev F.rasStateLocked : Fld := ⟨8, 1⟩
abbrev F.rasStateLine : Fld := ⟨16, 16⟩
abbrev F.rasStateDot : Fld := ⟨32, 16⟩
abbrev F.rasFlipFrame : Fld := ⟨0, 32⟩
abbrev F.rasFlipStamp : Fld := ⟨32, 96⟩
abbrev F.rasLayerCfgFormat : Fld := ⟨0, 2⟩
abbrev F.rasLayerCfgBuffers : Fld := ⟨2, 3⟩
abbrev F.rasLayerCfgWidth : Fld := ⟨16, 16⟩
abbrev F.rasLayerCfgHeight : Fld := ⟨32, 16⟩
abbrev F.rasLayerShadowShow : Fld := ⟨0, 1⟩
abbrev F.rasLayerShadowFront : Fld := ⟨1, 2⟩
abbrev F.rasLayerShadowX : Fld := ⟨16, 16⟩
abbrev F.rasLayerShadowY : Fld := ⟨32, 16⟩
abbrev F.rasLayerActiveShow : Fld := ⟨0, 1⟩
abbrev F.rasLayerActiveFront : Fld := ⟨1, 2⟩
abbrev F.rasLayerActiveX : Fld := ⟨16, 16⟩
abbrev F.rasLayerActiveY : Fld := ⟨32, 16⟩
abbrev F.rasCrcRectOutX : Fld := ⟨0, 16⟩
abbrev F.rasCrcRectOutY : Fld := ⟨16, 16⟩
abbrev F.rasCrcRectOutW : Fld := ⟨32, 16⟩
abbrev F.rasCrcRectOutH : Fld := ⟨48, 16⟩
abbrev F.rasCrcRectOutExpect : Fld := ⟨64, 32⟩
abbrev F.rasCrcRectOutEnable : Fld := ⟨96, 1⟩
abbrev F.rasCrcRectOutCheck : Fld := ⟨97, 1⟩
abbrev F.rasCrcRectRetX : Fld := ⟨0, 16⟩
abbrev F.rasCrcRectRetY : Fld := ⟨16, 16⟩
abbrev F.rasCrcRectRetW : Fld := ⟨32, 16⟩
abbrev F.rasCrcRectRetH : Fld := ⟨48, 16⟩
abbrev F.rasCrcRectRetExpect : Fld := ⟨64, 32⟩
abbrev F.rasCrcRectRetEnable : Fld := ⟨96, 1⟩
abbrev F.rasCrcRectRetCheck : Fld := ⟨97, 1⟩
abbrev F.rasCrcOutFrame : Fld := ⟨0, 32⟩
abbrev F.rasCrcOutCrc : Fld := ⟨32, 32⟩
abbrev F.rasCrcOutValid : Fld := ⟨64, 1⟩
abbrev F.rasCrcOutMismatch : Fld := ⟨65, 1⟩
abbrev F.rasCrcRetFrame : Fld := ⟨0, 32⟩
abbrev F.rasCrcRetCrc : Fld := ⟨32, 32⟩
abbrev F.rasCrcRetValid : Fld := ⟨64, 1⟩
abbrev F.rasCrcRetMismatch : Fld := ⟨65, 1⟩
abbrev F.rasCountsSyncEarly : Fld := ⟨0, 48⟩
abbrev F.rasCountsSyncMissed : Fld := ⟨48, 48⟩
abbrev F.rasCountsUnderflows : Fld := ⟨96, 48⟩
abbrev F.rasCountsCrcMismatches : Fld := ⟨144, 48⟩
abbrev F.rasCountsRetired : Fld := ⟨192, 48⟩
abbrev F.rasCountsSat : Fld := ⟨240, 5⟩
abbrev F.psmLineCfgLinewarnEn : Fld := ⟨0, 1⟩
abbrev F.psmLineCfgBulkAin : Fld := ⟨8, 8⟩
abbrev F.psmLineCfgBulkLow : Fld := ⟨32, 32⟩
abbrev F.psmLineCfgBulkCommit : Fld := ⟨64, 32⟩
abbrev F.psmRidethruPlanCommit : Fld := ⟨0, 32⟩
abbrev F.psmLineStatusState : Fld := ⟨0, 8⟩
abbrev F.psmLineStatusLinewarn : Fld := ⟨8, 1⟩
abbrev F.psmLineStatusBulkLowSeen : Fld := ⟨9, 1⟩
abbrev F.psmLineStatusNext : Fld := ⟨16, 8⟩
abbrev F.psmLineStatusBulk : Fld := ⟨32, 32⟩
abbrev F.psmLineStatusPlanTime : Fld := ⟨64, 32⟩
abbrev F.psmLineStatusStart : Fld := ⟨96, 96⟩
abbrev F.psmCountsEvents : Fld := ⟨0, 48⟩
abbrev F.psmCountsRecoveries : Fld := ⟨48, 48⟩
abbrev F.psmCountsCommits : Fld := ⟨96, 48⟩
abbrev F.psmCountsIgnored : Fld := ⟨144, 48⟩
abbrev F.psmCountsRailFaults : Fld := ⟨192, 48⟩
abbrev F.psmCountsSat : Fld := ⟨240, 5⟩
abbrev F.splCfgVsenseAin : Fld := ⟨0, 8⟩
abbrev F.splCfgIsenseAin : Fld := ⟨8, 8⟩
abbrev F.splCfgPeriod : Fld := ⟨16, 16⟩
abbrev F.splCfgDutyMin : Fld := ⟨32, 16⟩
abbrev F.splCfgDutyMax : Fld := ⟨48, 16⟩
abbrev F.splCfgDeadtime : Fld := ⟨64, 8⟩
abbrev F.splCoeffKc : Fld := ⟨160, 32⟩
abbrev F.splLimitsVsetMin : Fld := ⟨0, 32⟩
abbrev F.splLimitsVsetMax : Fld := ⟨32, 32⟩
abbrev F.splLimitsIlimMax : Fld := ⟨64, 32⟩
abbrev F.splLimitsSlew : Fld := ⟨96, 32⟩
abbrev F.splLimitsSoftstart : Fld := ⟨128, 32⟩
abbrev F.splMeasV : Fld := ⟨0, 32⟩
abbrev F.splMeasI : Fld := ⟨32, 32⟩
abbrev F.splMeasSetEff : Fld := ⟨64, 32⟩
abbrev F.splMeasDuty : Fld := ⟨96, 16⟩
abbrev F.splMeasIlimiting : Fld := ⟨112, 1⟩
abbrev F.splSafePlanStage : Fld := ⟨0, 3⟩
abbrev F.splSafePlanRamp : Fld := ⟨8, 32⟩
abbrev F.splSafePlanDischarge : Fld := ⟨40, 32⟩
abbrev F.splCountsTrips : Fld := ⟨0, 48⟩
abbrev F.splCountsClamps : Fld := ⟨48, 48⟩
abbrev F.splCountsChartSteps : Fld := ⟨96, 48⟩
abbrev F.splCountsIgnored : Fld := ⟨144, 48⟩
abbrev F.splCountsSafeTimeouts : Fld := ⟨192, 48⟩
abbrev F.splCountsSat : Fld := ⟨240, 5⟩
abbrev F.adcWindowLow : Fld := ⟨0, 32⟩
abbrev F.adcWindowHigh : Fld := ⟨32, 32⟩
abbrev F.adcWindowAction : Fld := ⟨64, 2⟩
abbrev F.adcWindowPersist : Fld := ⟨66, 5⟩
abbrev F.adcWindowLoop : Fld := ⟨71, 5⟩
abbrev F.adcValueCode : Fld := ⟨0, 16⟩
abbrev F.adcValueOvr : Fld := ⟨16, 1⟩
abbrev F.adcValueRecovering : Fld := ⟨17, 1⟩
abbrev F.adcValueOutOfBand : Fld := ⟨18, 1⟩
abbrev F.adcValueOpen : Fld := ⟨19, 1⟩
abbrev F.adcValueValue : Fld := ⟨32, 32⟩
abbrev F.adcValueSlot : Fld := ⟨64, 64⟩
abbrev F.adcCalGain : Fld := ⟨0, 32⟩
abbrev F.adcCalOffset : Fld := ⟨32, 32⟩
abbrev F.adcCalFactoryGain : Fld := ⟨0, 32⟩
abbrev F.adcCalFactoryOffset : Fld := ⟨32, 32⟩
abbrev F.adcSyscalStep : Fld := ⟨0, 8⟩
abbrev F.adcSyscalFsValue : Fld := ⟨32, 32⟩
abbrev F.adcSyscalStatusState : Fld := ⟨0, 8⟩
abbrev F.adcSyscalStatusReason : Fld := ⟨8, 16⟩
abbrev F.adcOwResultState : Fld := ⟨0, 8⟩
abbrev F.adcOwResultDelta : Fld := ⟨32, 32⟩
abbrev F.adcCountsOvr : Fld := ⟨0, 48⟩
abbrev F.adcCountsOutOfBand : Fld := ⟨48, 48⟩
abbrev F.adcCountsOvrSat : Fld := ⟨96, 1⟩
abbrev F.adcCountsOobSat : Fld := ⟨97, 1⟩
abbrev F.clkCfgRootSrc : Fld := ⟨0, 2⟩
abbrev F.clkStateSource : Fld := ⟨0, 2⟩
abbrev F.clkStateLocked : Fld := ⟨2, 1⟩
abbrev F.clkStateRefPresent : Fld := ⟨3, 1⟩
abbrev F.clkStateAligned : Fld := ⟨4, 1⟩
abbrev F.clkSyncCfgCheckLimit : Fld := ⟨0, 16⟩
abbrev F.clkSyncCfgPeriod : Fld := ⟨64, 64⟩
abbrev F.clkEpochPhase : Fld := ⟨0, 64⟩
abbrev F.clkEpochSource : Fld := ⟨64, 1⟩
abbrev F.clkEpochNt : Fld := ⟨128, 96⟩
abbrev F.clkSyncStatusLastDev : Fld := ⟨0, 32⟩
abbrev F.clkSyncStatusArmed : Fld := ⟨32, 1⟩
abbrev F.clkSyncStatusLastHt : Fld := ⟨64, 64⟩
abbrev F.clkStartAtNeedles : Fld := ⟨0, 16⟩
abbrev F.clkStartAtAtNs : Fld := ⟨64, 64⟩
abbrev F.clkStartStatusState : Fld := ⟨0, 2⟩
abbrev F.clkStartStatusNeedles : Fld := ⟨16, 16⟩
abbrev F.clkStartStatusAtNs : Fld := ⟨64, 64⟩
abbrev F.clkCountsEpochs : Fld := ⟨0, 48⟩
abbrev F.clkCountsSyncEdges : Fld := ⟨48, 48⟩
abbrev F.clkCountsSyncDevs : Fld := ⟨96, 48⟩
abbrev F.clkCountsRefLosses : Fld := ⟨144, 48⟩
abbrev F.clkCountsSat : Fld := ⟨192, 4⟩
abbrev F.ptpCfgPorts : Fld := ⟨0, 2⟩
abbrev F.ptpCfgTransport : Fld := ⟨2, 2⟩
abbrev F.ptpCfgP2p : Fld := ⟨4, 1⟩
abbrev F.ptpCfgDomain : Fld := ⟨8, 8⟩
abbrev F.ptpPortCfgRxLat : Fld := ⟨0, 64⟩
abbrev F.ptpPortCfgTxLat : Fld := ⟨64, 64⟩
abbrev F.ptpServoCfgMode : Fld := ⟨0, 2⟩
abbrev F.ptpServoCfgLockLimit : Fld := ⟨16, 16⟩
abbrev F.ptpServoCfgStepLimit : Fld := ⟨32, 32⟩
abbrev F.ptpServoCfgKp : Fld := ⟨64, 32⟩
abbrev F.ptpServoCfgKi : Fld := ⟨96, 32⟩
abbrev F.ptpStatusState : Fld := ⟨0, 8⟩
abbrev F.ptpStatusLocked : Fld := ⟨8, 1⟩
abbrev F.ptpStatusPort : Fld := ⟨9, 1⟩
abbrev F.ptpStatusOffset : Fld := ⟨64, 64⟩
abbrev F.ptpStatusPathDelay : Fld := ⟨128, 64⟩
abbrev F.ptpStatusGmIdentity : Fld := ⟨192, 64⟩
abbrev F.ptpTxqStatusFill : Fld := ⟨0, 5⟩
abbrev F.ptpTxqStatusDropped : Fld := ⟨64, 48⟩
abbrev F.ptpTxqStatusDroppedSat : Fld := ⟨112, 1⟩
abbrev F.ptpCountsRxEvent : Fld := ⟨0, 48⟩
abbrev F.ptpCountsTxEvent : Fld := ⟨48, 48⟩
abbrev F.ptpCountsSteps : Fld := ⟨96, 48⟩
abbrev F.ptpCountsSat : Fld := ⟨144, 3⟩
abbrev F.cslPortCfgEnable : Fld := ⟨0, 1⟩
abbrev F.cslPortCfgRxEvents : Fld := ⟨1, 1⟩
abbrev F.cslPortCfgAutoAlign : Fld := ⟨2, 1⟩
abbrev F.cslPortStatusState : Fld := ⟨0, 3⟩
abbrev F.cslPortStatusLatValid : Fld := ⟨3, 1⟩
abbrev F.cslPortStatusExtra : Fld := ⟨4, 5⟩
abbrev F.cslPortStatusFlight : Fld := ⟨16, 32⟩
abbrev F.cslLaneCtrlPhase : Fld := ⟨0, 6⟩
abbrev F.cslLaneCtrlSlip : Fld := ⟨6, 4⟩
abbrev F.cslLaneCtrlDeskew : Fld := ⟨10, 3⟩
abbrev F.cslLaneStatusTestErrors : Fld := ⟨0, 48⟩
abbrev F.cslLaneStatusTestDone : Fld := ⟨48, 1⟩
abbrev F.cslLaneStatusComma : Fld := ⟨49, 1⟩
abbrev F.cslLaneStatusDeskewed : Fld := ⟨50, 1⟩
abbrev F.cslLaneStatusCodeErrors : Fld := ⟨64, 48⟩
abbrev F.cslLaneStatusCodeSat : Fld := ⟨112, 1⟩
abbrev F.cslCountsEventsTx : Fld := ⟨0, 48⟩
abbrev F.cslCountsEventsRx : Fld := ⟨48, 48⟩
abbrev F.cslCountsEventErrors : Fld := ⟨96, 48⟩
abbrev F.cslCountsTxDropped : Fld := ⟨144, 48⟩
abbrev F.cslCountsRxDropped : Fld := ⟨192, 48⟩
abbrev F.cslCountsFrameErrors : Fld := ⟨240, 48⟩
abbrev F.cslCountsLinkDowns : Fld := ⟨288, 48⟩
abbrev F.cslCountsSat : Fld := ⟨336, 7⟩
abbrev F.sessionState : Fld := ⟨0, 8⟩
abbrev F.sessionLevel : Fld := ⟨8, 8⟩
abbrev F.sessionPort : Fld := ⟨16, 1⟩
abbrev F.sessionUdpPort : Fld := ⟨32, 16⟩
abbrev F.sessionMaxFrame : Fld := ⟨48, 16⟩
abbrev F.sessionTimeout : Fld := ⟨64, 32⟩
abbrev F.sessionSubs : Fld := ⟨96, 8⟩
abbrev F.sessionAddress : Fld := ⟨128, 128⟩
abbrev F.secPoaCfgUdpPort : Fld := ⟨0, 16⟩
abbrev F.secPoaCfgVOpen : Fld := ⟨16, 1⟩
abbrev F.secMcastCfgLevel : Fld := ⟨0, 2⟩
abbrev F.secPoaCountsFramesRx : Fld := ⟨0, 48⟩
abbrev F.secPoaCountsFramesTx : Fld := ⟨48, 48⟩
abbrev F.secPoaCountsBadFrames : Fld := ⟨96, 48⟩
abbrev F.secPoaCountsBadTags : Fld := ⟨144, 48⟩
abbrev F.secPoaCountsAuthFails : Fld := ⟨192, 48⟩
abbrev F.secPoaCountsSeqErrors : Fld := ⟨240, 48⟩
abbrev F.secPoaCountsDuplicates : Fld := ⟨288, 48⟩
abbrev F.secPoaCountsReportsDropped : Fld := ⟨336, 48⟩
abbrev F.secPoaCountsSat : Fld := ⟨384, 8⟩
abbrev F.hlkPortCfgEnable : Fld := ⟨0, 1⟩
abbrev F.hlkPortCfgMode : Fld := ⟨1, 2⟩
abbrev F.hlkPortCfgMaxFrame : Fld := ⟨16, 16⟩
abbrev F.hlkModulePresent : Fld := ⟨0, 1⟩
abbrev F.hlkModuleActive : Fld := ⟨1, 1⟩
abbrev F.hlkModuleIdentifier : Fld := ⟨8, 8⟩
abbrev F.hlkMacAddress : Fld := ⟨0, 48⟩
abbrev F.hlkIpv4Address : Fld := ⟨0, 32⟩
abbrev F.hlkIpv4Prefix : Fld := ⟨32, 8⟩
abbrev F.hlkIpv4Gateway : Fld := ⟨64, 32⟩
abbrev F.hlkIpv6Address : Fld := ⟨0, 128⟩
abbrev F.hlkIpv6Prefix : Fld := ⟨128, 8⟩
abbrev F.hlkIpv6Gateway : Fld := ⟨192, 128⟩
abbrev F.hlkVlanVid : Fld := ⟨0, 12⟩
abbrev F.hlkVlanTxTag : Fld := ⟨12, 1⟩
abbrev F.hlkPrioCfgHighPcp : Fld := ⟨0, 8⟩
abbrev F.hlkPrioCfgDefaultPcp : Fld := ⟨8, 3⟩
abbrev F.hlkPrioCfgTxPcpHigh : Fld := ⟨11, 3⟩
abbrev F.hlkPrioCfgTxPcpBulk : Fld := ⟨14, 3⟩
abbrev F.hlkPrioCfgPfcTx : Fld := ⟨24, 8⟩
abbrev F.hlkPrioCfgPfcRx : Fld := ⟨32, 8⟩
abbrev F.hlkMcastGroupsValid : Fld := ⟨1024, 8⟩
abbrev F.hlkLinkStatusState : Fld := ⟨0, 3⟩
abbrev F.hlkLinkStatusDuplicate : Fld := ⟨3, 1⟩
abbrev F.hlkCountsRxFrames : Fld := ⟨0, 48⟩
abbrev F.hlkCountsTxFrames : Fld := ⟨48, 48⟩
abbrev F.hlkCountsRxFcs : Fld := ⟨96, 48⟩
abbrev F.hlkCountsRxOversize : Fld := ⟨144, 48⟩
abbrev F.hlkCountsRxFiltered : Fld := ⟨192, 48⟩
abbrev F.hlkCountsRxDropHigh : Fld := ⟨240, 48⟩
abbrev F.hlkCountsRxDropBulk : Fld := ⟨288, 48⟩
abbrev F.hlkCountsFecCorrected : Fld := ⟨336, 48⟩
abbrev F.hlkCountsFecUncorrected : Fld := ⟨384, 48⟩
abbrev F.hlkCountsPfcRx : Fld := ⟨432, 48⟩
abbrev F.hlkCountsPfcTx : Fld := ⟨480, 48⟩
abbrev F.hlkCountsTxNoRoute : Fld := ⟨528, 48⟩
abbrev F.hlkCountsSat : Fld := ⟨576, 12⟩
abbrev F.cccCountsHandlers : Fld := ⟨0, 48⟩
abbrev F.cccCountsEccCorrected : Fld := ⟨48, 48⟩
abbrev F.cccCountsSat : Fld := ⟨96, 2⟩
abbrev F.cccRolesSystem0 : Fld := ⟨0, 4⟩
abbrev F.cccRolesSystem1 : Fld := ⟨4, 4⟩
abbrev F.cccRolesSiteCores : Fld := ⟨16, 16⟩
abbrev F.wdpStatusFree : Fld := ⟨0, 17⟩
abbrev F.wdpStatusInService : Fld := ⟨32, 5⟩
abbrev F.wdpStatusBusyFlows : Fld := ⟨64, 13⟩
abbrev F.wdpStatsItems : Fld := ⟨0, 48⟩
abbrev F.wdpStatsItemsSat : Fld := ⟨48, 1⟩
abbrev F.wdpStatsBusy : Fld := ⟨64, 48⟩
abbrev F.wdpStatsBusySat : Fld := ⟨112, 1⟩
abbrev F.wdpStatsLoad : Fld := ⟨128, 16⟩
abbrev F.wdpStatsMaxItem : Fld := ⟨160, 32⟩
abbrev F.wdpCountsEnqueued : Fld := ⟨0, 48⟩
abbrev F.wdpCountsDispatched : Fld := ⟨48, 48⟩
abbrev F.wdpCountsRefused : Fld := ⟨96, 48⟩
abbrev F.wdpCountsSat : Fld := ⟨144, 3⟩
abbrev F.wdpTraceCtrlEnable : Fld := ⟨0, 1⟩
abbrev F.wdpTraceCtrlSize : Fld := ⟨8, 8⟩
abbrev F.wdpTraceCtrlKinds : Fld := ⟨16, 16⟩
abbrev F.wdpTraceStatusWritten : Fld := ⟨0, 48⟩
abbrev F.wdpTraceStatusLost : Fld := ⟨48, 48⟩
abbrev F.wdpTraceStatusWrittenSat : Fld := ⟨96, 1⟩
abbrev F.wdpTraceStatusLostSat : Fld := ⟨97, 1⟩
abbrev F.iecCountsDelivered : Fld := ⟨0, 48⟩
abbrev F.iecCountsHeldOff : Fld := ⟨48, 48⟩
abbrev F.iecCountsWakes : Fld := ⟨96, 48⟩
abbrev F.iecCountsSat : Fld := ⟨144, 3⟩
abbrev F.fcrStateFaultState : Fld := ⟨0, 1⟩
abbrev F.fcrStateActiveCount : Fld := ⟨16, 10⟩
abbrev F.fcrStateInjectPending : Fld := ⟨32, 1⟩
abbrev F.fcrFirstSource : Fld := ⟨0, 16⟩
abbrev F.fcrFirstClass : Fld := ⟨16, 2⟩
abbrev F.fcrFirstValid : Fld := ⟨18, 1⟩
abbrev F.fcrFirstMulti : Fld := ⟨19, 1⟩
abbrev F.fcrFirstInjected : Fld := ⟨20, 1⟩
abbrev F.fcrFirstMaster : Fld := ⟨24, 8⟩
abbrev F.fcrFirstAccess : Fld := ⟨32, 4⟩
abbrev F.fcrFirstInstance : Fld := ⟨48, 16⟩
abbrev F.fcrFirstAddress : Fld := ⟨64, 64⟩
abbrev F.fcrFirstStamp : Fld := ⟨128, 96⟩
abbrev F.fcrLogSource : Fld := ⟨0, 16⟩
abbrev F.fcrLogClass : Fld := ⟨16, 2⟩
abbrev F.fcrLogValid : Fld := ⟨18, 1⟩
abbrev F.fcrLogMulti : Fld := ⟨19, 1⟩
abbrev F.fcrLogInjected : Fld := ⟨20, 1⟩
abbrev F.fcrLogMaster : Fld := ⟨24, 8⟩
abbrev F.fcrLogAccess : Fld := ⟨32, 4⟩
abbrev F.fcrLogInstance : Fld := ⟨48, 16⟩
abbrev F.fcrLogAddress : Fld := ⟨64, 64⟩
abbrev F.fcrLogStamp : Fld := ⟨128, 96⟩
abbrev F.fcrInjectSource : Fld := ⟨0, 16⟩
abbrev F.fcrInjectBits : Fld := ⟨16, 2⟩
abbrev F.fcrInjectMaster : Fld := ⟨24, 8⟩
abbrev F.fcrInjectCount : Fld := ⟨32, 16⟩
abbrev F.fcrCountsRaisedC : Fld := ⟨0, 48⟩
abbrev F.fcrCountsRaisedU : Fld := ⟨48, 48⟩
abbrev F.fcrCountsRaisedF : Fld := ⟨96, 48⟩
abbrev F.fcrCountsCleared : Fld := ⟨144, 48⟩
abbrev F.fcrCountsSat : Fld := ⟨192, 4⟩
abbrev F.dmpStatusState : Fld := ⟨0, 2⟩
abbrev F.dmpStatusPartial : Fld := ⟨2, 1⟩
abbrev F.dmpStatusWriter : Fld := ⟨8, 8⟩
abbrev F.dmpStatusCause : Fld := ⟨16, 16⟩
abbrev F.dmpStatusLength : Fld := ⟨64, 64⟩
abbrev F.dmpStatusStamp : Fld := ⟨128, 96⟩
abbrev F.botStatusStage : Fld := ⟨0, 4⟩
abbrev F.botStatusSlot : Fld := ⟨4, 1⟩
abbrev F.botStatusFallback : Fld := ⟨5, 1⟩
abbrev F.botStatusFwReason : Fld := ⟨8, 8⟩
abbrev F.botStatusPatchReason : Fld := ⟨16, 8⟩
abbrev F.botStatusBootMs : Fld := ⟨32, 32⟩
abbrev F.botSlotInfoFwValid : Fld := ⟨0, 1⟩
abbrev F.botSlotInfoPatchValid : Fld := ⟨1, 1⟩
abbrev F.botSlotInfoFwReason : Fld := ⟨8, 8⟩
abbrev F.botSlotInfoPatchReason : Fld := ⟨16, 8⟩
abbrev F.botSlotInfoFwVersion : Fld := ⟨32, 32⟩
abbrev F.botSlotInfoPatchVersion : Fld := ⟨64, 32⟩
abbrev F.botSlotInfoFwRollback : Fld := ⟨96, 8⟩
abbrev F.botSlotInfoPatchRollback : Fld := ⟨104, 8⟩
abbrev F.botRollbackFused : Fld := ⟨0, 7⟩
abbrev F.botKeysRevoked : Fld := ⟨0, 4⟩
abbrev F.secKeyStatusPresent : Fld := ⟨0, 4⟩
abbrev F.secKeyStatusStoreBad : Fld := ⟨4, 1⟩
abbrev F.botCountsBoots : Fld := ⟨0, 48⟩
abbrev F.botCountsFallbacks : Fld := ⟨48, 48⟩
abbrev F.botCountsSat : Fld := ⟨96, 2⟩

/-- fault, class U -/
abbrev Ev.chartCrc : Nat := 112
/-- fault, class U -/
abbrev Ev.ucodeParity : Nat := 113
/-- event -/
abbrev Ev.ndlDone : Nat := 114
/-- event -/
abbrev Ev.ndlFrogged : Nat := 115
/-- event -/
abbrev Ev.ndlBreak : Nat := 116
/-- event -/
abbrev Ev.ndlJump : Nat := 117
/-- fault, class U -/
abbrev Ev.streamUnderrun : Nat := 128
/-- event -/
abbrev Ev.strStall : Nat := 129
/-- event -/
abbrev Ev.strResume : Nat := 130
/-- event -/
abbrev Ev.strLow : Nat := 131
/-- fault, class U -/
abbrev Ev.waveParity : Nat := 144
/-- event -/
abbrev Ev.ptfCollision : Nat := 145
/-- fault, class C -/
abbrev Ev.rqpEccC : Nat := 160
/-- fault, class U -/
abbrev Ev.rqpEccU : Nat := 161
/-- event -/
abbrev Ev.rqpExhausted : Nat := 162
/-- event -/
abbrev Ev.rqpResumed : Nat := 163
/-- event -/
abbrev Ev.siteLogIncomplete : Nat := 164
/-- event -/
abbrev Ev.ptfStopped : Nat := 165
/-- event -/
abbrev Ev.capFull : Nat := 166
/-- event -/
abbrev Ev.taeRecord : Nat := 176
/-- event -/
abbrev Ev.taeMissed : Nat := 177
/-- event -/
abbrev Ev.calAged : Nat := 192
/-- fault, class U -/
abbrev Ev.calUntracked : Nat := 193
/-- event -/
abbrev Ev.calFullDone : Nat := 194
/-- fault, class U -/
abbrev Ev.tmuFuseCrc : Nat := 208
/-- event -/
abbrev Ev.tmuDone : Nat := 209
/-- event -/
abbrev Ev.plcRefused : Nat := 224
/-- event -/
abbrev Ev.plcMigrated : Nat := 225
/-- fault, class C -/
abbrev Ev.scEccC : Nat := 226
/-- fault, class U -/
abbrev Ev.scEccU : Nat := 227
/-- fault, class C -/
abbrev Ev.hmsEccC : Nat := 240
/-- fault, class U -/
abbrev Ev.hmsEccU : Nat := 241
/-- fault, class U -/
abbrev Ev.hmsRtLate : Nat := 242
/-- fault, class F -/
abbrev Ev.hmsTrainFail : Nat := 243
/-- event -/
abbrev Ev.hmsHot : Nat := 244
/-- event -/
abbrev Ev.rasFlip : Nat := 256
/-- event -/
abbrev Ev.rasRetired : Nat := 257
/-- event -/
abbrev Ev.rasSyncLocked : Nat := 258
/-- event -/
abbrev Ev.rasSyncLost : Nat := 259
/-- event -/
abbrev Ev.rasUnderflow : Nat := 260
/-- event -/
abbrev Ev.rasCrcMismatch : Nat := 261
/-- fault, class F -/
abbrev Ev.psmRailFault : Nat := 272
/-- fault, class U -/
abbrev Ev.psmDomainFail : Nat := 273
/-- fault, class U -/
abbrev Ev.splTrip : Nat := 274
/-- fault, class U -/
abbrev Ev.splSafeTimeout : Nat := 275
/-- event -/
abbrev Ev.splClamp : Nat := 276
/-- event -/
abbrev Ev.adcWindow : Nat := 277
/-- event -/
abbrev Ev.lineWarn : Nat := 278
/-- event -/
abbrev Ev.lineRecovered : Nat := 279
/-- event -/
abbrev Ev.lineCommit : Nat := 280
/-- fault, class U -/
abbrev Ev.clkRefLost : Nat := 80
/-- fault, class F -/
abbrev Ev.clkPllUnlock : Nat := 81
/-- event -/
abbrev Ev.clkEpoch : Nat := 82
/-- event -/
abbrev Ev.clkSyncDev : Nat := 83
/-- event -/
abbrev Ev.clkStartDropped : Nat := 84
/-- event -/
abbrev Ev.ptpLocked : Nat := 85
/-- event -/
abbrev Ev.ptpUnlocked : Nat := 86
/-- event -/
abbrev Ev.ptpStep : Nat := 87
/-- event -/
abbrev Ev.ptpTxqOvf : Nat := 88
/-- fault, class U -/
abbrev Ev.cslLinkDown : Nat := 96
/-- fault, class U -/
abbrev Ev.cslLatency : Nat := 97
/-- event -/
abbrev Ev.cslLinkUp : Nat := 98
/-- event -/
abbrev Ev.poaAuthFail : Nat := 48
/-- event -/
abbrev Ev.poaSessionExpired : Nat := 49
/-- event -/
abbrev Ev.hlkLinkUp : Nat := 64
/-- fault, class U -/
abbrev Ev.hlkLinkDown : Nat := 65
/-- event -/
abbrev Ev.hlkRxDrop : Nat := 66
/-- fault, class F -/
abbrev Ev.cccHang : Nat := 0
/-- fault, class C -/
abbrev Ev.cccEccC : Nat := 1
/-- fault, class F -/
abbrev Ev.cccEccU : Nat := 2
/-- event -/
abbrev Ev.wdpFull : Nat := 3
/-- event -/
abbrev Ev.wdpTraceLost : Nat := 4
/-- fault, class F -/
abbrev Ev.fcrParity : Nat := 16
/-- fault, class F -/
abbrev Ev.odeParity : Nat := 17
/-- fault, class F -/
abbrev Ev.tempLimit : Nat := 18
/-- event -/
abbrev Ev.tempWarn : Nat := 19
/-- event -/
abbrev Ev.fcrRecovered : Nat := 20
/-- event -/
abbrev Ev.dmpReady : Nat := 21
/-- fault, class U -/
abbrev Ev.bootFwRejected : Nat := 32
/-- fault, class U -/
abbrev Ev.bootPatchRejected : Nat := 33
/-- fault, class U -/
abbrev Ev.bootSelftest : Nat := 34
/-- fault, class U -/
abbrev Ev.keyStoreCrc : Nat := 35
/-- event -/
abbrev Ev.bootComplete : Nat := 36

/-- R763: the sources the spec names. -/
def evAll : List Nat := [
  0, 1, 2, 3, 4, 16, 17, 18, 19, 20, 21, 32, 33, 34, 35, 36,
  48, 49, 64, 65, 66, 80, 81, 82, 83, 84, 85, 86, 87, 88, 96, 97,
  98, 112, 113, 114, 115, 116, 117, 128, 129, 130, 131, 144, 145, 160, 161, 162,
  163, 164, 165, 166, 176, 177, 192, 193, 194, 208, 209, 224, 225, 226, 227, 240,
  241, 242, 243, 244, 256, 257, 258, 259, 260, 261, 272, 273, 274, 275, 276, 277,
  278, 279, 280]

/-- The fault sources with their class: 0 corrected (C), 1 uncorrected (U), 2 fatal (F). -/
def faultClasses : List (Nat × Nat) := [
  (0, 2), (1, 0), (2, 2), (16, 2), (17, 2), (18, 2), (32, 1), (33, 1), (34, 1), (35, 1), (65, 1), (80, 1), (81, 2), (96, 1), (97, 1), (112, 1), (113, 1), (128, 1), (144, 1), (160, 0), (161, 1), (193, 1), (208, 1), (226, 0), (227, 1), (240, 0), (241, 1), (242, 1), (243, 2), (272, 2), (273, 1), (274, 1), (275, 1)]

end Sys2Proof.Machine
end

