-- ==== Sys2Proof/Machine/ObjTable.lean ====
section
/-! DEFINITION. The object dictionary: the index of every object and its row (element class, type, access levels, default, modes in which it is writable, service, persistence), written from the object tables of spec/02 to spec/23. -/
namespace Sys2Proof.Machine

/-- DEV.IDENT, 02 R88 -/
abbrev Obj.devIdent : Nat := 0x1000
/-- DEV.STEPPING, 02 R88 -/
abbrev Obj.devStepping : Nat := 0x1001
/-- DEV.SERIAL, 02 R88 -/
abbrev Obj.devSerial : Nat := 0x1002
/-- DEV.FW_VERSION, 02 R88 -/
abbrev Obj.devFwVersion : Nat := 0x1003
/-- DEV.UCODE_VERSION, 02 R88 -/
abbrev Obj.devUcodeVersion : Nat := 0x1004
/-- DEV.CAPS, 02 R88 -/
abbrev Obj.devCaps : Nat := 0x1005
/-- DEV.MODE_REQ, 02 R88 -/
abbrev Obj.devModeReq : Nat := 0x1010
/-- DEV.MODE, 02 R88 -/
abbrev Obj.devMode : Nat := 0x1011
/-- DEV.MODE_REASON, 02 R88 -/
abbrev Obj.devModeReason : Nat := 0x1012
/-- DEV.MODE_STAMP, 02 R88 -/
abbrev Obj.devModeStamp : Nat := 0x1013
/-- DEV.PREV_MODE, 02 R88 -/
abbrev Obj.devPrevMode : Nat := 0x1014
/-- ODE.GROUP_PIN, 02 R88 -/
abbrev Obj.odeGroupPin : Nat := 0x1020
/-- ODE.GROUP_SITE, 02 R88 -/
abbrev Obj.odeGroupSite : Nat := 0x1021
/-- ODE.GROUP_NEEDLE, 02 R88 -/
abbrev Obj.odeGroupNeedle : Nat := 0x1022
/-- ODE.GROUP_LOOP, 02 R88 -/
abbrev Obj.odeGroupLoop : Nat := 0x1023
/-- DEV.STORE, 02 R88 -/
abbrev Obj.devStore : Nat := 0x1030
/-- DEV.STORE_STATUS, 02 R88 -/
abbrev Obj.devStoreStatus : Nat := 0x1031
/-- DEV.STORE_COUNT, 02 R88 -/
abbrev Obj.devStoreCount : Nat := 0x1032
/-- DEV.FACTORY_RESTORE, 02 R88 -/
abbrev Obj.devFactoryRestore : Nat := 0x1033
/-- DEV.LABEL, 02 R88 -/
abbrev Obj.devLabel : Nat := 0x1040
/-- DEV.HEAD_POSITION, 02 R88 -/
abbrev Obj.devHeadPosition : Nat := 0x1041
/-- ODE.MCAST_STATUS, 02 R88 -/
abbrev Obj.odeMcastStatus : Nat := 0x1050
/-- SEC.SESSIONS, 18 R720 -/
abbrev Obj.secSessions : Nat := 0x1100
/-- SEC.POA_CFG, 18 R720 -/
abbrev Obj.secPoaCfg : Nat := 0x1101
/-- SEC.MCAST_CFG, 18 R720 -/
abbrev Obj.secMcastCfg : Nat := 0x1102
/-- SEC.MCAST_SEQ, 18 R720 -/
abbrev Obj.secMcastSeq : Nat := 0x1103
/-- SEC.POA_COUNTS, 18 R720 -/
abbrev Obj.secPoaCounts : Nat := 0x1104
/-- SEC.SESSION_CLOSE, 18 R720 -/
abbrev Obj.secSessionClose : Nat := 0x1105
/-- SEC.KEY, 22 R822 -/
abbrev Obj.secKey : Nat := 0x1110
/-- SEC.KEY_STATUS, 22 R822 -/
abbrev Obj.secKeyStatus : Nat := 0x1111
/-- HLK.PORT_CFG, 19 R742 -/
abbrev Obj.hlkPortCfg : Nat := 0x1200
/-- HLK.MODULE, 19 R742 -/
abbrev Obj.hlkModule : Nat := 0x1201
/-- HLK.MAC, 19 R742 -/
abbrev Obj.hlkMac : Nat := 0x1202
/-- HLK.IPV4, 19 R742 -/
abbrev Obj.hlkIpv4 : Nat := 0x1203
/-- HLK.IPV6, 19 R742 -/
abbrev Obj.hlkIpv6 : Nat := 0x1204
/-- HLK.VLAN, 19 R742 -/
abbrev Obj.hlkVlan : Nat := 0x1205
/-- HLK.PRIO_CFG, 19 R742 -/
abbrev Obj.hlkPrioCfg : Nat := 0x1206
/-- HLK.MCAST_GROUPS, 19 R742 -/
abbrev Obj.hlkMcastGroups : Nat := 0x1207
/-- HLK.LINK_STATUS, 19 R742 -/
abbrev Obj.hlkLinkStatus : Nat := 0x1208
/-- HLK.COUNTS, 19 R742 -/
abbrev Obj.hlkCounts : Nat := 0x1210
/-- CLK.CFG, 16 R650 -/
abbrev Obj.clkCfg : Nat := 0x1300
/-- CLK.STATE, 16 R650 -/
abbrev Obj.clkState : Nat := 0x1301
/-- CLK.SYNC_CFG, 16 R650 -/
abbrev Obj.clkSyncCfg : Nat := 0x1302
/-- CLK.SYNC_ARM, 16 R650 -/
abbrev Obj.clkSyncArm : Nat := 0x1303
/-- CLK.SYNC_TRIM, 16 R650 -/
abbrev Obj.clkSyncTrim : Nat := 0x1304
/-- CLK.EPOCH, 16 R650 -/
abbrev Obj.clkEpoch : Nat := 0x1305
/-- CLK.SYNC_STATUS, 16 R650 -/
abbrev Obj.clkSyncStatus : Nat := 0x1306
/-- CLK.HT_NOW, 16 R650 -/
abbrev Obj.clkHtNow : Nat := 0x1307
/-- CLK.START_AT, 16 R650 -/
abbrev Obj.clkStartAt : Nat := 0x1310
/-- CLK.START_STATUS, 16 R650 -/
abbrev Obj.clkStartStatus : Nat := 0x1311
/-- CLK.CANCEL_START, 16 R650 -/
abbrev Obj.clkCancelStart : Nat := 0x1312
/-- CLK.COUNTS, 16 R650 -/
abbrev Obj.clkCounts : Nat := 0x1320
/-- PTP.CFG, 16 R650 -/
abbrev Obj.ptpCfg : Nat := 0x1340
/-- PTP.PORT_CFG, 16 R650 -/
abbrev Obj.ptpPortCfg : Nat := 0x1341
/-- PTP.PORT_ASYM, 16 R650 -/
abbrev Obj.ptpPortAsym : Nat := 0x1342
/-- PTP.SERVO_CFG, 16 R650 -/
abbrev Obj.ptpServoCfg : Nat := 0x1343
/-- PTP.INCREMENT, 16 R650 -/
abbrev Obj.ptpIncrement : Nat := 0x1344
/-- PTP.NT_NOW, 16 R650 -/
abbrev Obj.ptpNtNow : Nat := 0x1345
/-- PTP.NT_SET, 16 R650 -/
abbrev Obj.ptpNtSet : Nat := 0x1346
/-- PTP.NT_ADJ, 16 R650 -/
abbrev Obj.ptpNtAdj : Nat := 0x1347
/-- PTP.STATUS, 16 R650 -/
abbrev Obj.ptpStatus : Nat := 0x1348
/-- PTP.TXQ_OVF, 16 R650 -/
abbrev Obj.ptpTxqOvf : Nat := 0x1350
/-- PTP.TXQ_STATUS, 16 R650 -/
abbrev Obj.ptpTxqStatus : Nat := 0x1351
/-- PTP.COUNTS, 16 R650 -/
abbrev Obj.ptpCounts : Nat := 0x1352
/-- CSL.PORT_CFG, 17 R677 -/
abbrev Obj.cslPortCfg : Nat := 0x1400
/-- CSL.PORT_STATUS, 17 R677 -/
abbrev Obj.cslPortStatus : Nat := 0x1401
/-- CSL.ALIGN, 17 R677 -/
abbrev Obj.cslAlign : Nat := 0x1402
/-- CSL.LANE_CTRL, 17 R677 -/
abbrev Obj.cslLaneCtrl : Nat := 0x1410
/-- CSL.LANE_TEST, 17 R677 -/
abbrev Obj.cslLaneTest : Nat := 0x1411
/-- CSL.LANE_STATUS, 17 R677 -/
abbrev Obj.cslLaneStatus : Nat := 0x1412
/-- CSL.MSG_SEND, 17 R677 -/
abbrev Obj.cslMsgSend : Nat := 0x1420
/-- CSL.MSG_RECV, 17 R677 -/
abbrev Obj.cslMsgRecv : Nat := 0x1421
/-- CSL.COUNTS, 17 R677 -/
abbrev Obj.cslCounts : Nat := 0x1430
/-- BOT.STATUS, 22 R822 -/
abbrev Obj.botStatus : Nat := 0x1500
/-- BOT.SLOT_INFO, 22 R822 -/
abbrev Obj.botSlotInfo : Nat := 0x1501
/-- BOT.SLOT_SELECT, 22 R822 -/
abbrev Obj.botSlotSelect : Nat := 0x1502
/-- BOT.FW_IMAGE, 22 R822 -/
abbrev Obj.botFwImage : Nat := 0x1503
/-- BOT.PATCH_IMAGE, 22 R822 -/
abbrev Obj.botPatchImage : Nat := 0x1504
/-- BOT.ROLLBACK, 22 R822 -/
abbrev Obj.botRollback : Nat := 0x1505
/-- BOT.ROLLBACK_COMMIT, 22 R822 -/
abbrev Obj.botRollbackCommit : Nat := 0x1506
/-- BOT.KEY_REVOKE, 22 R822 -/
abbrev Obj.botKeyRevoke : Nat := 0x1507
/-- BOT.KEYS, 22 R822 -/
abbrev Obj.botKeys : Nat := 0x1508
/-- BOT.COUNTS, 22 R822 -/
abbrev Obj.botCounts : Nat := 0x1509
/-- NDL.PINSET, 05 R253 -/
abbrev Obj.ndlPinset : Nat := 0x2000
/-- NDL.SITES, 05 R253 -/
abbrev Obj.ndlSites : Nat := 0x2001
/-- NDL.CHART, 05 R253 -/
abbrev Obj.ndlChart : Nat := 0x2002
/-- NDL.SITE_PINS, 05 R253 -/
abbrev Obj.ndlSitePins : Nat := 0x2003
/-- NDL.START, 05 R253 -/
abbrev Obj.ndlStart : Nat := 0x2010
/-- NDL.FROG, 05 R253 -/
abbrev Obj.ndlFrog : Nat := 0x2011
/-- NDL.STATE, 05 R253 -/
abbrev Obj.ndlState : Nat := 0x2012
/-- NDL.STATUS, 05 R253 -/
abbrev Obj.ndlStatus : Nat := 0x2013
/-- NDL.STITCH_COUNT, 05 R253 -/
abbrev Obj.ndlStitchCount : Nat := 0x2014
/-- NDL.HOST_EVENT, 05 R253 -/
abbrev Obj.ndlHostEvent : Nat := 0x2020
/-- NDL.JUMP, 05 R253 -/
abbrev Obj.ndlJump : Nat := 0x2021
/-- NDL.JUMP_TABLE, 05 R253 -/
abbrev Obj.ndlJumpTable : Nat := 0x2022
/-- NDL.JUMP_STATUS, 05 R253 -/
abbrev Obj.ndlJumpStatus : Nat := 0x2023
/-- NDL.BREAK_EN, 05 R253 -/
abbrev Obj.ndlBreakEn : Nat := 0x2024
/-- NDL.TSET_GAP, 05 R253 -/
abbrev Obj.ndlTsetGap : Nat := 0x2025
/-- NDL.CASTON_WAIT, 05 R253 -/
abbrev Obj.ndlCastonWait : Nat := 0x2026
/-- NDL.COUNTS, 05 R253 -/
abbrev Obj.ndlCounts : Nat := 0x2027
/-- NDL.TRACE_CTRL, 05 R253 -/
abbrev Obj.ndlTraceCtrl : Nat := 0x2030
/-- NDL.TRACE, 05 R253 -/
abbrev Obj.ndlTrace : Nat := 0x2031
/-- NDL.TRACE_STATUS, 05 R253 -/
abbrev Obj.ndlTraceStatus : Nat := 0x2032
/-- NDL.UCODE_INFO, 05 R253 -/
abbrev Obj.ndlUcodeInfo : Nat := 0x2040
/-- NDL.CHART_IMAGE, 04 R195 -/
abbrev Obj.ndlChartImage : Nat := 0x2400
/-- NDL.CHART_STATE, 04 R195 -/
abbrev Obj.ndlChartState : Nat := 0x2401
/-- NDL.CHART_INFO, 04 R195 -/
abbrev Obj.ndlChartInfo : Nat := 0x2402
/-- NDL.CHART_LABEL, 04 R195 -/
abbrev Obj.ndlChartLabel : Nat := 0x2403
/-- NDL.CHART_ERROR, 04 R195 -/
abbrev Obj.ndlChartError : Nat := 0x2404
/-- NDL.CHART_DELETE, 04 R195 -/
abbrev Obj.ndlChartDelete : Nat := 0x2405
/-- NDL.CHART_USERS, 04 R195 -/
abbrev Obj.ndlChartUsers : Nat := 0x2406
/-- NDL.CHART_STORE, 04 R195 -/
abbrev Obj.ndlChartStore : Nat := 0x2407
/-- NDL.CHART_COUNTS, 04 R195 -/
abbrev Obj.ndlChartCounts : Nat := 0x2408
/-- NDL.CHART_FORMAT, 04 R195 -/
abbrev Obj.ndlChartFormat : Nat := 0x2409
/-- NDL.CHART_MAX_COURSES, 04 R195 -/
abbrev Obj.ndlChartMaxCourses : Nat := 0x240A
/-- NDL.CHART_TSETS, 04 R195 -/
abbrev Obj.ndlChartTsets : Nat := 0x240B
/-- STR.RING_SIZE, 06 R282 -/
abbrev Obj.strRingSize : Nat := 0x2800
/-- STR.RATE, 06 R282 -/
abbrev Obj.strRate : Nat := 0x2801
/-- STR.IDLE_STITCH, 06 R282 -/
abbrev Obj.strIdleStitch : Nat := 0x2802
/-- STR.STALL_LIMIT, 06 R282 -/
abbrev Obj.strStallLimit : Nat := 0x2803
/-- STR.RESUME_LEVEL, 06 R282 -/
abbrev Obj.strResumeLevel : Nat := 0x2804
/-- STR.STATE, 06 R282 -/
abbrev Obj.strState : Nat := 0x2805
/-- STR.FILL, 06 R282 -/
abbrev Obj.strFill : Nat := 0x2806
/-- STR.NEXT_SEQ, 06 R282 -/
abbrev Obj.strNextSeq : Nat := 0x2807
/-- STR.UNDERRUN, 06 R282 -/
abbrev Obj.strUnderrun : Nat := 0x2808
/-- STR.COUNTS, 06 R282 -/
abbrev Obj.strCounts : Nat := 0x2809
/-- STR.FLUSH, 06 R282 -/
abbrev Obj.strFlush : Nat := 0x280A
/-- STR.SKEIN_ERROR, 06 R282 -/
abbrev Obj.strSkeinError : Nat := 0x280B
/-- STR.LOW_WATER, 06 R282 -/
abbrev Obj.strLowWater : Nat := 0x280C
/-- PTF.PIN_STATE, 07 R333 -/
abbrev Obj.ptfPinState : Nat := 0x3000
/-- PTF.PIN_NEEDLE, 07 R333 -/
abbrev Obj.ptfPinNeedle : Nat := 0x3001
/-- PTF.PIN_CFG, 07 R333 -/
abbrev Obj.ptfPinCfg : Nat := 0x3002
/-- PTF.WAVE_TABLE, 07 R333 -/
abbrev Obj.ptfWaveTable : Nat := 0x3100
/-- PTF.WAVE_STATE, 07 R333 -/
abbrev Obj.ptfWaveState : Nat := 0x3101
/-- PTF.WAVE_INFO, 07 R333 -/
abbrev Obj.ptfWaveInfo : Nat := 0x3102
/-- PTF.WAVE_ERROR, 07 R333 -/
abbrev Obj.ptfWaveError : Nat := 0x3103
/-- PTF.WAVE_DELETE, 07 R333 -/
abbrev Obj.ptfWaveDelete : Nat := 0x3104
/-- PTF.GAUGE, 07 R333 -/
abbrev Obj.ptfGauge : Nat := 0x3200
/-- PTF.GAUGE_FACTORY, 07 R333 -/
abbrev Obj.ptfGaugeFactory : Nat := 0x3201
/-- PTF.GAUGE_ACTIVE, 07 R333 -/
abbrev Obj.ptfGaugeActive : Nat := 0x3202
/-- PTF.COUNTS, 07 R333 -/
abbrev Obj.ptfCounts : Nat := 0x3400
/-- PTF.MEAS_DRIVE, 07 R333 -/
abbrev Obj.ptfMeasDrive : Nat := 0x3600
/-- PTF.MEAS_CMP, 07 R333 -/
abbrev Obj.ptfMeasCmp : Nat := 0x3601
/-- LVL.BANK_CFG, 07 R333 -/
abbrev Obj.lvlBankCfg : Nat := 0x3800
/-- LVL.HOST_CMD, 07 R333 -/
abbrev Obj.lvlHostCmd : Nat := 0x3801
/-- LVL.HOST_RESULT, 07 R333 -/
abbrev Obj.lvlHostResult : Nat := 0x3802
/-- LVL.BANK_OWNER, 07 R333 -/
abbrev Obj.lvlBankOwner : Nat := 0x3803
/-- LVL.COUNTS, 07 R333 -/
abbrev Obj.lvlCounts : Nat := 0x3804
/-- PTF.SITE_RESULT, 08 R385 -/
abbrev Obj.ptfSiteResult : Nat := 0x4000
/-- PTF.STOP_ON_FAIL, 08 R385 -/
abbrev Obj.ptfStopOnFail : Nat := 0x4001
/-- PTF.FAIL_LOG_CFG, 08 R385 -/
abbrev Obj.ptfFailLogCfg : Nat := 0x4002
/-- PTF.FAIL_FIFO, 08 R385 -/
abbrev Obj.ptfFailFifo : Nat := 0x4003
/-- PTF.PIN_FAILS, 08 R385 -/
abbrev Obj.ptfPinFails : Nat := 0x4004
/-- PTF.CAP_CFG, 08 R385 -/
abbrev Obj.ptfCapCfg : Nat := 0x4008
/-- PTF.CAP_STATUS, 08 R385 -/
abbrev Obj.ptfCapStatus : Nat := 0x4009
/-- PTF.CAP_DATA, 08 R385 -/
abbrev Obj.ptfCapData : Nat := 0x400A
/-- PTF.DATALOG, 08 R385 -/
abbrev Obj.ptfDatalog : Nat := 0x4010
/-- PTF.DLOG_STATUS, 08 R385 -/
abbrev Obj.ptfDlogStatus : Nat := 0x4011
/-- RQP.POOL_CFG, 08 R385 -/
abbrev Obj.rqpPoolCfg : Nat := 0x4100
/-- RQP.POOL_STATUS, 08 R385 -/
abbrev Obj.rqpPoolStatus : Nat := 0x4101
/-- RQP.COUNTS, 08 R385 -/
abbrev Obj.rqpCounts : Nat := 0x4102
/-- RQP.SITE_QUEUE, 08 R385 -/
abbrev Obj.rqpSiteQueue : Nat := 0x4110
/-- RQP.SITE_THRESHOLD, 08 R385 -/
abbrev Obj.rqpSiteThreshold : Nat := 0x4111
/-- RQP.SITE_AGE, 08 R385 -/
abbrev Obj.rqpSiteAge : Nat := 0x4112
/-- RQP.FLUSH, 08 R385 -/
abbrev Obj.rqpFlush : Nat := 0x4113
/-- RQP.NEEDLE_QUEUE, 08 R385 -/
abbrev Obj.rqpNeedleQueue : Nat := 0x4120
/-- TAE.BUFFER, 09 R415 -/
abbrev Obj.taeBuffer : Nat := 0x4201
/-- TAE.PINS, 09 R415 -/
abbrev Obj.taePins : Nat := 0x4202
/-- TAE.SAMPLE_CFG, 09 R415 -/
abbrev Obj.taeSampleCfg : Nat := 0x4203
/-- TAE.TRIG_CFG, 09 R415 -/
abbrev Obj.taeTrigCfg : Nat := 0x4204
/-- TAE.PRE, 09 R415 -/
abbrev Obj.taePre : Nat := 0x4205
/-- TAE.POST, 09 R415 -/
abbrev Obj.taePost : Nat := 0x4206
/-- TAE.TIMEOUT, 09 R415 -/
abbrev Obj.taeTimeout : Nat := 0x4207
/-- TAE.ARM, 09 R415 -/
abbrev Obj.taeArm : Nat := 0x4210
/-- TAE.FORCE, 09 R415 -/
abbrev Obj.taeForce : Nat := 0x4211
/-- TAE.STATE, 09 R415 -/
abbrev Obj.taeState : Nat := 0x4212
/-- TAE.READ_SEL, 09 R415 -/
abbrev Obj.taeReadSel : Nat := 0x4213
/-- TAE.LAST_RECORD, 09 R415 -/
abbrev Obj.taeLastRecord : Nat := 0x4214
/-- TAE.RECORD_LIST, 09 R415 -/
abbrev Obj.taeRecordList : Nat := 0x4215
/-- TAE.DATA, 09 R415 -/
abbrev Obj.taeData : Nat := 0x4216
/-- TAE.COUNTS, 09 R415 -/
abbrev Obj.taeCounts : Nat := 0x4217
/-- TAE.TRIGIN_CFG, 09 R415 -/
abbrev Obj.taeTriginCfg : Nat := 0x4220
/-- TMU.CFG, 11 R477 -/
abbrev Obj.tmuCfg : Nat := 0x4300
/-- TMU.HOLDOFF, 11 R477 -/
abbrev Obj.tmuHoldoff : Nat := 0x4301
/-- TMU.GATE, 11 R477 -/
abbrev Obj.tmuGate : Nat := 0x4302
/-- TMU.TIMEOUT, 11 R477 -/
abbrev Obj.tmuTimeout : Nat := 0x4303
/-- TMU.COUNT, 11 R477 -/
abbrev Obj.tmuCount : Nat := 0x4304
/-- TMU.REF_PERIOD, 11 R477 -/
abbrev Obj.tmuRefPeriod : Nat := 0x4305
/-- TMU.CTRL, 11 R477 -/
abbrev Obj.tmuCtrl : Nat := 0x4310
/-- TMU.STATE, 11 R477 -/
abbrev Obj.tmuState : Nat := 0x4311
/-- TMU.RESULT, 11 R477 -/
abbrev Obj.tmuResult : Nat := 0x4312
/-- TMU.STAMPS, 11 R477 -/
abbrev Obj.tmuStamps : Nat := 0x4313
/-- TMU.COUNTS, 11 R477 -/
abbrev Obj.tmuCounts : Nat := 0x4314
/-- TMU.XTAL_AGEING, 11 R477 -/
abbrev Obj.tmuXtalAgeing : Nat := 0x4320
/-- TMU.XTAL_OFFSET, 11 R477 -/
abbrev Obj.tmuXtalOffset : Nat := 0x4321
/-- TMU.LT_NOW, 11 R477 -/
abbrev Obj.tmuLtNow : Nat := 0x4322
/-- CAL.COUNT, 10 R452 -/
abbrev Obj.calCount : Nat := 0x4400
/-- CAL.LAST_TIME, 10 R452 -/
abbrev Obj.calLastTime : Nat := 0x4401
/-- CAL.MAX_AGE, 10 R452 -/
abbrev Obj.calMaxAge : Nat := 0x4402
/-- CAL.CTRL, 10 R452 -/
abbrev Obj.calCtrl : Nat := 0x4403
/-- CAL.STEP_LIMIT, 10 R452 -/
abbrev Obj.calStepLimit : Nat := 0x4404
/-- CAL.ABS_LIMIT, 10 R452 -/
abbrev Obj.calAbsLimit : Nat := 0x4405
/-- CAL.SWATCH_TIMEOUT, 10 R452 -/
abbrev Obj.calSwatchTimeout : Nat := 0x4406
/-- CAL.REJECT_LIMIT, 10 R452 -/
abbrev Obj.calRejectLimit : Nat := 0x4407
/-- CAL.REJECTS, 10 R452 -/
abbrev Obj.calRejects : Nat := 0x4408
/-- CAL.COUNTS, 10 R452 -/
abbrev Obj.calCounts : Nat := 0x4409
/-- CAL.PIN_STATUS, 10 R452 -/
abbrev Obj.calPinStatus : Nat := 0x4410
/-- CAL.BASE, 10 R452 -/
abbrev Obj.calBase : Nat := 0x4411
/-- CAL.LAST_SWATCH, 10 R452 -/
abbrev Obj.calLastSwatch : Nat := 0x4412
/-- CAL.NEEDLE_AGE, 10 R452 -/
abbrev Obj.calNeedleAge : Nat := 0x4418
/-- CAL.FULL_CFG, 10 R452 -/
abbrev Obj.calFullCfg : Nat := 0x4420
/-- CAL.FIXTURE, 10 R452 -/
abbrev Obj.calFixture : Nat := 0x4421
/-- CAL.FULL_STATUS, 10 R452 -/
abbrev Obj.calFullStatus : Nat := 0x4422
/-- CAL.FULL_PIN, 10 R452 -/
abbrev Obj.calFullPin : Nat := 0x4423
/-- PLC.STATE, 12 R511 -/
abbrev Obj.plcState : Nat := 0x4800
/-- PLC.REPORT, 12 R511 -/
abbrev Obj.plcReport : Nat := 0x4801
/-- PLC.NEEDLE_DEMAND, 12 R511 -/
abbrev Obj.plcNeedleDemand : Nat := 0x4802
/-- PLC.TOTALS, 12 R511 -/
abbrev Obj.plcTotals : Nat := 0x4803
/-- PLC.LIMITS, 12 R511 -/
abbrev Obj.plcLimits : Nat := 0x4804
/-- PLC.CHART_HINT, 12 R511 -/
abbrev Obj.plcChartHint : Nat := 0x4810
/-- PLC.STREAM_PROFILE, 12 R511 -/
abbrev Obj.plcStreamProfile : Nat := 0x4811
/-- PLC.CORE_MASK, 12 R511 -/
abbrev Obj.plcCoreMask : Nat := 0x4812
/-- PLC.MIGRATE, 12 R511 -/
abbrev Obj.plcMigrate : Nat := 0x4813
/-- PLC.CHART_PLACE, 12 R511 -/
abbrev Obj.plcChartPlace : Nat := 0x4820
/-- PLC.SITE_CORE, 12 R511 -/
abbrev Obj.plcSiteCore : Nat := 0x4821
/-- PLC.LOG, 12 R511 -/
abbrev Obj.plcLog : Nat := 0x4830
/-- PLC.COUNTS, 12 R511 -/
abbrev Obj.plcCounts : Nat := 0x4831
/-- HMS.STATE, 13 R541 -/
abbrev Obj.hmsState : Nat := 0x4900
/-- HMS.INFO, 13 R541 -/
abbrev Obj.hmsInfo : Nat := 0x4901
/-- HMS.HASH, 13 R541 -/
abbrev Obj.hmsHash : Nat := 0x4910
/-- HMS.RH_CFG, 13 R541 -/
abbrev Obj.hmsRhCfg : Nat := 0x4911
/-- HMS.SR_CFG, 13 R541 -/
abbrev Obj.hmsSrCfg : Nat := 0x4912
/-- HMS.SCRUB_CFG, 13 R541 -/
abbrev Obj.hmsScrubCfg : Nat := 0x4913
/-- HMS.REGIONS, 13 R541 -/
abbrev Obj.hmsRegions : Nat := 0x4920
/-- HMS.LOAD, 13 R541 -/
abbrev Obj.hmsLoad : Nat := 0x4921
/-- HMS.COUNTS, 13 R541 -/
abbrev Obj.hmsCounts : Nat := 0x4930
/-- HMS.SR_LATE, 13 R541 -/
abbrev Obj.hmsSrLate : Nat := 0x4931
/-- RAS.STREAM_CFG, 14 R571 -/
abbrev Obj.rasStreamCfg : Nat := 0x4A00
/-- RAS.TIMING, 14 R571 -/
abbrev Obj.rasTiming : Nat := 0x4A01
/-- RAS.BACKGROUND, 14 R571 -/
abbrev Obj.rasBackground : Nat := 0x4A02
/-- RAS.LANE_MAP, 14 R571 -/
abbrev Obj.rasLaneMap : Nat := 0x4A03
/-- RAS.RETURN_MAP, 14 R571 -/
abbrev Obj.rasReturnMap : Nat := 0x4A04
/-- RAS.RETURN_DELAY, 14 R571 -/
abbrev Obj.rasReturnDelay : Nat := 0x4A05
/-- RAS.STATE, 14 R571 -/
abbrev Obj.rasState : Nat := 0x4A08
/-- RAS.FRAME, 14 R571 -/
abbrev Obj.rasFrame : Nat := 0x4A09
/-- RAS.FLIP, 14 R571 -/
abbrev Obj.rasFlip : Nat := 0x4A0A
/-- RAS.COMMIT, 14 R571 -/
abbrev Obj.rasCommit : Nat := 0x4A0B
/-- RAS.COMMIT_PENDING, 14 R571 -/
abbrev Obj.rasCommitPending : Nat := 0x4A0C
/-- RAS.LAYER_CFG, 14 R571 -/
abbrev Obj.rasLayerCfg : Nat := 0x4A10
/-- RAS.LAYER_SHADOW, 14 R571 -/
abbrev Obj.rasLayerShadow : Nat := 0x4A11
/-- RAS.LAYER_ACTIVE, 14 R571 -/
abbrev Obj.rasLayerActive : Nat := 0x4A12
/-- RAS.BUFFER, 14 R571 -/
abbrev Obj.rasBuffer : Nat := 0x4A18
/-- RAS.BUFFER_STATE, 14 R571 -/
abbrev Obj.rasBufferState : Nat := 0x4A19
/-- RAS.BUFFER_RELEASE, 14 R571 -/
abbrev Obj.rasBufferRelease : Nat := 0x4A1A
/-- RAS.CRC_RECT_OUT, 14 R571 -/
abbrev Obj.rasCrcRectOut : Nat := 0x4A20
/-- RAS.CRC_RECT_RET, 14 R571 -/
abbrev Obj.rasCrcRectRet : Nat := 0x4A21
/-- RAS.CRC_OUT, 14 R571 -/
abbrev Obj.rasCrcOut : Nat := 0x4A22
/-- RAS.CRC_RET, 14 R571 -/
abbrev Obj.rasCrcRet : Nat := 0x4A23
/-- RAS.COUNTS, 14 R571 -/
abbrev Obj.rasCounts : Nat := 0x4A30
/-- PSM.DOMAIN_REQ, 15 R614 -/
abbrev Obj.psmDomainReq : Nat := 0x5000
/-- PSM.DOMAIN_STATE, 15 R614 -/
abbrev Obj.psmDomainState : Nat := 0x5001
/-- PSM.RAIL_STATUS, 15 R614 -/
abbrev Obj.psmRailStatus : Nat := 0x5002
/-- PSM.PMBUS_MAP, 15 R614 -/
abbrev Obj.psmPmbusMap : Nat := 0x5003
/-- PSM.SAFE_STAGES, 15 R614 -/
abbrev Obj.psmSafeStages : Nat := 0x5010
/-- PSM.LINE_CFG, 15 R614 -/
abbrev Obj.psmLineCfg : Nat := 0x5020
/-- PSM.RIDETHRU_PLAN, 15 R614 -/
abbrev Obj.psmRidethruPlan : Nat := 0x5021
/-- PSM.LINE_STATUS, 15 R614 -/
abbrev Obj.psmLineStatus : Nat := 0x5022
/-- PSM.COUNTS, 15 R614 -/
abbrev Obj.psmCounts : Nat := 0x5023
/-- SPL.CFG, 15 R614 -/
abbrev Obj.splCfg : Nat := 0x5100
/-- SPL.COEFF, 15 R614 -/
abbrev Obj.splCoeff : Nat := 0x5101
/-- SPL.LIMITS, 15 R614 -/
abbrev Obj.splLimits : Nat := 0x5102
/-- SPL.SETPOINT, 15 R614 -/
abbrev Obj.splSetpoint : Nat := 0x5103
/-- SPL.ILIMIT, 15 R614 -/
abbrev Obj.splIlimit : Nat := 0x5104
/-- SPL.ENABLE, 15 R614 -/
abbrev Obj.splEnable : Nat := 0x5105
/-- SPL.STATE, 15 R614 -/
abbrev Obj.splState : Nat := 0x5106
/-- SPL.MEAS, 15 R614 -/
abbrev Obj.splMeas : Nat := 0x5107
/-- SPL.SAFE_PLAN, 15 R614 -/
abbrev Obj.splSafePlan : Nat := 0x5108
/-- SPL.COUNTS, 15 R614 -/
abbrev Obj.splCounts : Nat := 0x5109
/-- ADC.SEQ, 15 R614 -/
abbrev Obj.adcSeq : Nat := 0x5200
/-- ADC.WINDOW, 15 R614 -/
abbrev Obj.adcWindow : Nat := 0x5201
/-- ADC.VALUE, 15 R614 -/
abbrev Obj.adcValue : Nat := 0x5202
/-- ADC.CAL, 15 R614 -/
abbrev Obj.adcCal : Nat := 0x5203
/-- ADC.CAL_FACTORY, 15 R614 -/
abbrev Obj.adcCalFactory : Nat := 0x5204
/-- ADC.SYSCAL, 15 R614 -/
abbrev Obj.adcSyscal : Nat := 0x5205
/-- ADC.SYSCAL_STATUS, 15 R614 -/
abbrev Obj.adcSyscalStatus : Nat := 0x5206
/-- ADC.OW_TEST, 15 R614 -/
abbrev Obj.adcOwTest : Nat := 0x5207
/-- ADC.OW_RESULT, 15 R614 -/
abbrev Obj.adcOwResult : Nat := 0x5208
/-- ADC.OW_CFG, 15 R614 -/
abbrev Obj.adcOwCfg : Nat := 0x5209
/-- ADC.COUNTS, 15 R614 -/
abbrev Obj.adcCounts : Nat := 0x5210
/-- CCC.STATE, 20 R773 -/
abbrev Obj.cccState : Nat := 0x6000
/-- CCC.COUNTS, 20 R773 -/
abbrev Obj.cccCounts : Nat := 0x6001
/-- CCC.ROLES, 20 R773 -/
abbrev Obj.cccRoles : Nat := 0x6002
/-- WDP.STATUS, 20 R773 -/
abbrev Obj.wdpStatus : Nat := 0x6010
/-- WDP.QUEUE, 20 R773 -/
abbrev Obj.wdpQueue : Nat := 0x6012
/-- WDP.STATS, 20 R773 -/
abbrev Obj.wdpStats : Nat := 0x6013
/-- WDP.COUNTS, 20 R773 -/
abbrev Obj.wdpCounts : Nat := 0x6014
/-- WDP.TRACE_CTRL, 20 R773 -/
abbrev Obj.wdpTraceCtrl : Nat := 0x6015
/-- WDP.TRACE, 20 R773 -/
abbrev Obj.wdpTrace : Nat := 0x6016
/-- WDP.TRACE_STATUS, 20 R773 -/
abbrev Obj.wdpTraceStatus : Nat := 0x6017
/-- WDP.STATS_CLEAR, 20 R773 -/
abbrev Obj.wdpStatsClear : Nat := 0x6018
/-- IEC.GROUP_CFG, 20 R773 -/
abbrev Obj.iecGroupCfg : Nat := 0x6100
/-- IEC.SRC_MAP, 20 R773 -/
abbrev Obj.iecSrcMap : Nat := 0x6101
/-- IEC.PENDING, 20 R773 -/
abbrev Obj.iecPending : Nat := 0x6102
/-- IEC.SPURIOUS, 20 R773 -/
abbrev Obj.iecSpurious : Nat := 0x6103
/-- IEC.COUNTS, 20 R773 -/
abbrev Obj.iecCounts : Nat := 0x6104
/-- FCR.STATE, 21 R803 -/
abbrev Obj.fcrState : Nat := 0x6200
/-- FCR.ACTIVE, 21 R803 -/
abbrev Obj.fcrActive : Nat := 0x6201
/-- FCR.REACTION, 21 R803 -/
abbrev Obj.fcrReaction : Nat := 0x6202
/-- FCR.CLEAR, 21 R803 -/
abbrev Obj.fcrClear : Nat := 0x6203
/-- FCR.FIRST, 21 R803 -/
abbrev Obj.fcrFirst : Nat := 0x6204
/-- FCR.FIRST_CLEAR, 21 R803 -/
abbrev Obj.fcrFirstClear : Nat := 0x6205
/-- FCR.QUIET, 21 R803 -/
abbrev Obj.fcrQuiet : Nat := 0x6206
/-- FCR.RECOVERIES, 21 R803 -/
abbrev Obj.fcrRecoveries : Nat := 0x6207
/-- FCR.INJECT, 21 R803 -/
abbrev Obj.fcrInject : Nat := 0x6208
/-- FCR.LOG, 21 R803 -/
abbrev Obj.fcrLog : Nat := 0x6209
/-- FCR.COUNTS, 21 R803 -/
abbrev Obj.fcrCounts : Nat := 0x620A
/-- DMP.IMAGE, 21 R803 -/
abbrev Obj.dmpImage : Nat := 0x6300
/-- DMP.STATUS, 21 R803 -/
abbrev Obj.dmpStatus : Nat := 0x6301
/-- DMP.CLEAR, 21 R803 -/
abbrev Obj.dmpClear : Nat := 0x6302
/-- DMP.SUMMARY, 21 R803 -/
abbrev Obj.dmpSummary : Nat := 0x6303
/-- DMP.SUMMARY_CLEAR, 21 R803 -/
abbrev Obj.dmpSummaryClear : Nat := 0x6304

/-- The rows of the indices 0x10xx. -/
def objRows10 : List ObjRow := [
  ⟨0x1000, .single, (.record 16), some 0, none, 0x1021030010010b102565745, 0x0, false, false⟩,
  ⟨0x1001, .single, (.uint 2 0 65535), some 0, none, 0xb1, 0x0, false, false⟩,
  ⟨0x1002, .single, (.str 32), some 0, none, 0x0, 0x0, false, false⟩,
  ⟨0x1003, .single, (.uint 4 0 4294967295), some 0, none, 0x0, 0x0, false, false⟩,
  ⟨0x1004, .single, (.uint 4 0 4294967295), some 0, none, 0x0, 0x0, false, false⟩,
  ⟨0x1005, .single, (.bitset 8 64), some 0, none, 0x0, 0x0, false, false⟩,
  ⟨0x1010, .single, (.enum [1, 2, 3, 4, 5, 6, 7, 8, 9]), some 0, some 1, 0x3, 0xFFE, false, false⟩,
  ⟨0x1011, .single, (.enum [0, 1, 2, 3, 4, 5, 6, 7, 8, 9, 10, 11]), some 0, none, 0x0, 0x0, false, false⟩,
  ⟨0x1012, .single, (.enum [0, 1, 2, 3, 4, 5, 6, 7, 8, 9, 10, 11, 12, 13, 14, 15]), some 0, none, 0x0, 0x0, false, false⟩,
  ⟨0x1013, .single, .stamp, some 0, none, 0x0, 0x0, false, false⟩,
  ⟨0x1014, .single, (.enum [0, 1, 2, 3, 4, 5, 6, 7, 8, 9, 10, 11]), some 0, none, 0x0, 0x0, false, false⟩,
  ⟨0x1020, (.own 64), (.bitset 32 256), some 0, some 2, 0x0, 0x3C, false, true⟩,
  ⟨0x1021, (.own 16), (.bitset 8 64), some 0, some 2, 0x0, 0x3C, false, true⟩,
  ⟨0x1022, (.own 8), (.bitset 2 16), some 0, some 2, 0x0, 0x3C, false, true⟩,
  ⟨0x1023, (.own 8), (.bitset 8 32), some 0, some 2, 0x0, 0x3C, false, true⟩,
  ⟨0x1030, .single, .command, some 0, some 2, 0x0, 0xC, true, false⟩,
  ⟨0x1031, .single, (.record 16), some 0, none, 0x0, 0x0, true, false⟩,
  ⟨0x1032, .single, (.uint 8 0 18446744073709551615), some 0, none, 0x0, 0x0, true, false⟩,
  ⟨0x1033, .single, .command, some 0, some 2, 0x0, 0xC, true, false⟩,
  ⟨0x1040, .single, (.str 64), some 0, some 1, 0x0, 0xFFE, false, true⟩,
  ⟨0x1041, .single, (.uint 1 0 255), some 0, some 2, 0x0, 0xC, false, true⟩,
  ⟨0x1050, .single, (.record 24), some 0, none, 0x0, 0x0, false, false⟩]

/-- The rows of the indices 0x11xx. -/
def objRows11 : List ObjRow := [
  ⟨0x1100, .single, (.record 512), some 0, none, 0x0, 0x0, false, false⟩,
  ⟨0x1101, .single, (.record 8), some 0, some 2, 0x1bdec, 0xC, false, true⟩,
  ⟨0x1102, .single, (.record 1), some 0, some 2, 0x0, 0xC, false, true⟩,
  ⟨0x1103, .single, (.uint 4 0 4294967295), some 0, none, 0x0, 0x0, false, false⟩,
  ⟨0x1104, .single, (.record 56), some 0, none, 0x0, 0x0, false, false⟩,
  ⟨0x1105, .single, (.uint 1 1 16), some 0, some 2, 0x0, 0xFFE, false, false⟩,
  ⟨0x1110, (.own 4), (.record 32), none, some 3, 0x0, 0xC, true, false⟩,
  ⟨0x1111, .single, (.record 1), some 0, none, 0x0, 0x0, true, false⟩]

/-- The rows of the indices 0x12xx. -/
def objRows12 : List ObjRow := [
  ⟨0x1200, .port, (.record 8), some 0, some 2, 0x24000001, 0xC, true, true⟩,
  ⟨0x1201, .port, (.record 8), some 0, none, 0x0, 0x0, true, false⟩,
  ⟨0x1202, .subPort, (.record 8), some 0, none, 0x0, 0x0, false, false⟩,
  ⟨0x1203, .subPort, (.record 12), some 0, some 2, 0x0, 0xC, true, true⟩,
  ⟨0x1204, .subPort, (.record 40), some 0, some 2, 0x0, 0xC, true, true⟩,
  ⟨0x1205, .subPort, (.record 4), some 0, some 2, 0x0, 0xC, true, true⟩,
  ⟨0x1206, .port, (.record 8), some 0, some 2, 0xff000030c0, 0xC, true, true⟩,
  ⟨0x1207, .port, (.record 136), some 0, some 2, 0x0, 0xC, true, true⟩,
  ⟨0x1208, .subPort, (.record 8), some 0, none, 0x0, 0x0, false, false⟩,
  ⟨0x1210, .subPort, (.record 80), some 0, none, 0x0, 0x0, false, false⟩]

/-- The rows of the indices 0x13xx. -/
def objRows13 : List ObjRow := [
  ⟨0x1300, .single, (.record 8), some 0, some 2, 0x0, 0xC, false, true⟩,
  ⟨0x1301, .single, (.record 8), some 0, none, 0x0, 0x0, false, false⟩,
  ⟨0x1302, .single, (.record 16), some 0, some 2, 0x28, 0xC, false, true⟩,
  ⟨0x1303, .single, (.enum [0, 1]), some 0, some 2, 0x0, 0xC, false, false⟩,
  ⟨0x1304, .single, (.sint 2 (-32768) 32767), some 0, some 2, 0x0, 0xC, false, true⟩,
  ⟨0x1305, .single, (.record 32), some 0, none, 0x0, 0x0, false, false⟩,
  ⟨0x1306, .single, (.record 16), some 0, none, 0x0, 0x0, false, false⟩,
  ⟨0x1307, .single, (.uint 8 0 18446744073709551615), some 0, none, 0x0, 0x0, false, false⟩,
  ⟨0x1310, .single, (.record 16), some 0, some 1, 0x0, 0x60, false, false⟩,
  ⟨0x1311, .single, (.record 16), some 0, none, 0x0, 0x0, false, false⟩,
  ⟨0x1312, .single, .command, some 0, some 1, 0x0, 0xE0, false, false⟩,
  ⟨0x1320, .single, (.record 32), some 0, none, 0x0, 0x0, false, false⟩,
  ⟨0x1340, .single, (.record 8), some 0, some 2, 0x0, 0x1C, true, true⟩,
  ⟨0x1341, .port, (.record 16), some 0, some 2, 0x0, 0xC, false, true⟩,
  ⟨0x1342, .port, (.sint 8 (-65536000000) 65536000000), some 0, some 2, 0x0, 0xFFE, false, true⟩,
  ⟨0x1343, .single, (.record 16), some 0, some 2, 0xccd000080000000271000640000, 0xFFE, false, true⟩,
  ⟨0x1344, .single, (.uint 8 0 18446744073709551615), some 0, some 2, 0xa00000000, 0xFFE, false, false⟩,
  ⟨0x1345, .single, .stamp, some 0, none, 0x0, 0x0, false, false⟩,
  ⟨0x1346, .single, .stamp, none, some 2, 0x0, 0xFFE, false, false⟩,
  ⟨0x1347, .single, (.sint 8 (-9223372036854775808) 9223372036854775807), none, some 2, 0x0, 0xFFE, false, false⟩,
  ⟨0x1348, .single, (.record 32), some 0, none, 0x0, 0x0, true, false⟩,
  ⟨0x1350, .port, .bool, some 0, some 1, 0x0, 0xFFE, false, false⟩,
  ⟨0x1351, .port, (.record 16), some 0, none, 0x0, 0x0, false, false⟩,
  ⟨0x1352, .port, (.record 32), some 0, none, 0x0, 0x0, false, false⟩]

/-- The rows of the indices 0x14xx. -/
def objRows14 : List ObjRow := [
  ⟨0x1400, .cport, (.record 8), some 0, some 2, 0x7, 0xC, false, true⟩,
  ⟨0x1401, .cport, (.record 8), some 0, none, 0x0, 0x0, false, false⟩,
  ⟨0x1402, .cport, (.enum [1, 2, 3]), some 0, some 2, 0x0, 0x10C, true, false⟩,
  ⟨0x1410, (.composite 4 4), (.record 4), some 0, some 2, 0x0, 0x10C, false, false⟩,
  ⟨0x1411, (.composite 4 4), .command, some 0, some 2, 0x0, 0x10C, false, false⟩,
  ⟨0x1412, (.composite 4 4), (.record 16), some 0, none, 0x0, 0x0, false, false⟩,
  ⟨0x1420, .cport, .domain, some 1, some 1, 0x0, 0xFFE, true, false⟩,
  ⟨0x1421, .cport, .domain, some 0, none, 0x0, 0x0, true, false⟩,
  ⟨0x1430, .cport, (.record 48), some 0, none, 0x0, 0x0, false, false⟩]

/-- The rows of the indices 0x15xx. -/
def objRows15 : List ObjRow := [
  ⟨0x1500, .single, (.record 16), some 0, none, 0x0, 0x0, false, false⟩,
  ⟨0x1501, (.own 2), (.record 16), some 0, none, 0x0, 0x0, true, false⟩,
  ⟨0x1502, .single, (.uint 1 0 1), some 0, some 3, 0x0, 0xC, true, false⟩,
  ⟨0x1503, (.own 2), .domain, none, some 3, 0x0, 0xC, true, false⟩,
  ⟨0x1504, (.own 2), .domain, none, some 3, 0x0, 0xC, true, false⟩,
  ⟨0x1505, .single, (.record 4), some 0, none, 0x0, 0x0, false, false⟩,
  ⟨0x1506, .single, .command, some 0, some 3, 0x0, 0x8, true, false⟩,
  ⟨0x1507, .single, (.uint 1 0 3), some 0, some 3, 0x0, 0x8, true, false⟩,
  ⟨0x1508, .single, (.record 1), some 0, none, 0x0, 0x0, false, false⟩,
  ⟨0x1509, .single, (.record 16), some 0, none, 0x0, 0x0, false, false⟩]

/-- The rows of the indices 0x20xx. -/
def objRows20 : List ObjRow := [
  ⟨0x2000, .needle, (.bitset 32 256), some 0, some 2, 0x0, 0x8, false, false⟩,
  ⟨0x2001, .needle, (.bitset 8 64), some 0, some 2, 0x0, 0x8, false, false⟩,
  ⟨0x2002, .needle, (.uint 2 0 65535), some 0, some 1, 0xffff, 0x8, false, false⟩,
  ⟨0x2003, .site, (.bitset 32 256), some 0, some 2, 0x0, 0x8, false, false⟩,
  ⟨0x2010, .needle, .command, some 0, some 1, 0x0, 0x60, false, false⟩,
  ⟨0x2011, .needle, .command, some 0, some 1, 0x0, 0xE0, false, false⟩,
  ⟨0x2012, .needle, (.enum [0, 1, 2, 3, 4, 5, 6, 7, 8, 9]), some 0, none, 0x1, 0x0, false, false⟩,
  ⟨0x2013, .needle, (.record 16), some 0, none, 0x0, 0x0, false, false⟩,
  ⟨0x2014, .needle, (.uint 8 0 18446744073709551615), some 0, none, 0x0, 0x0, false, false⟩,
  ⟨0x2020, .needle, (.uint 1 0 255), some 0, some 1, 0x0, 0xE0, false, false⟩,
  ⟨0x2021, .needle, (.uint 1 0 7), some 0, some 1, 0x0, 0xC0, false, false⟩,
  ⟨0x2022, .needle, (.record 40), some 0, some 2, 0x0, 0x8, false, false⟩,
  ⟨0x2023, .needle, (.record 16), some 0, none, 0x0, 0x0, false, false⟩,
  ⟨0x2024, .needle, .bool, some 0, some 1, 0x1, 0xE8, false, false⟩,
  ⟨0x2025, .needle, (.uint 8 0 18446744073709551615), some 0, none, 0x0, 0x0, false, false⟩,
  ⟨0x2026, .needle, (.uint 8 0 18446744073709551615), some 0, none, 0x0, 0x0, false, false⟩,
  ⟨0x2027, .needle, (.record 48), some 0, none, 0x0, 0x0, false, false⟩,
  ⟨0x2030, .needle, (.record 8), some 0, some 2, 0x0, 0x8, false, false⟩,
  ⟨0x2031, .needle, .domain, some 2, none, 0x0, 0x0, true, false⟩,
  ⟨0x2032, .needle, (.record 16), some 0, none, 0x0, 0x0, false, false⟩,
  ⟨0x2040, .single, (.record 16), some 0, none, 0x0, 0x0, true, false⟩]

/-- The rows of the indices 0x24xx. -/
def objRows24 : List ObjRow := [
  ⟨0x2400, .chart, .domain, some 1, some 1, 0x0, 0x3EC, true, false⟩,
  ⟨0x2401, .chart, (.enum [0, 1, 2, 3, 4]), some 0, none, 0x0, 0x0, false, false⟩,
  ⟨0x2402, .chart, (.record 24), some 0, none, 0x0, 0x0, false, false⟩,
  ⟨0x2403, .chart, (.str 32), some 0, none, 0x0, 0x0, false, false⟩,
  ⟨0x2404, .chart, (.record 16), some 0, none, 0x0, 0x0, true, false⟩,
  ⟨0x2405, .chart, .command, some 0, some 1, 0x0, 0x3EC, true, false⟩,
  ⟨0x2406, .chart, (.bitset 2 16), some 0, none, 0x0, 0x0, false, false⟩,
  ⟨0x2407, .single, (.record 16), some 0, none, 0x800000000, 0x0, true, false⟩,
  ⟨0x2408, .single, (.record 16), some 0, none, 0x0, 0x0, true, false⟩,
  ⟨0x2409, .single, (.uint 2 0 65535), some 0, none, 0x100, 0x0, false, false⟩,
  ⟨0x240A, .single, (.uint 4 0 4294967295), some 0, none, 0x10000000, 0x0, false, false⟩,
  ⟨0x240B, .chart, (.bitset 8 64), some 0, none, 0x0, 0x0, false, false⟩]

/-- The rows of the indices 0x28xx. -/
def objRows28 : List ObjRow := [
  ⟨0x2800, .needle, (.uint 2 0 1024), some 0, some 2, 0x0, 0x8, false, false⟩,
  ⟨0x2801, .needle, (.uint 8 0 50000000000), some 0, some 2, 0x0, 0x8, false, false⟩,
  ⟨0x2802, .needle, (.record 128), some 0, some 1, 0x0, 0x28, false, false⟩,
  ⟨0x2803, .needle, (.uint 8 0 1000000000000000), some 0, some 1, 0x9184e72a000, 0x28, false, false⟩,
  ⟨0x2804, .needle, (.uint 4 1 8388608), some 0, some 1, 0x4000, 0x28, false, false⟩,
  ⟨0x2805, .needle, (.enum [0, 1, 2, 3]), some 0, none, 0x0, 0x0, false, false⟩,
  ⟨0x2806, .needle, (.record 16), some 0, none, 0x0, 0x0, false, false⟩,
  ⟨0x2807, .needle, (.uint 4 0 4294967295), some 0, none, 0x0, 0x0, false, false⟩,
  ⟨0x2808, .needle, (.record 24), some 0, none, 0x0, 0x0, false, false⟩,
  ⟨0x2809, .needle, (.record 24), some 0, none, 0x0, 0x0, false, false⟩,
  ⟨0x280A, .needle, .command, some 0, some 1, 0x0, 0x60, false, false⟩,
  ⟨0x280B, .needle, (.record 16), some 0, none, 0x0, 0x0, true, false⟩,
  ⟨0x280C, .needle, (.uint 4 0 4294967295), some 0, some 1, 0x0, 0xE8, false, false⟩]

/-- The rows of the indices 0x30xx. -/
def objRows30 : List ObjRow := [
  ⟨0x3000, .pin, (.enum [0, 1, 2, 3, 4]), some 0, none, 0x1, 0x0, false, false⟩,
  ⟨0x3001, .pin, (.uint 1 0 255), some 0, none, 0xff, 0x0, false, false⟩,
  ⟨0x3002, .pin, (.record 1), some 0, some 2, 0x0, 0xC, false, true⟩]

/-- The rows of the indices 0x31xx. -/
def objRows31 : List ObjRow := [
  ⟨0x3100, (.composite 16 64), .domain, some 1, some 1, 0x0, 0x3EC, true, false⟩,
  ⟨0x3101, (.composite 16 64), (.enum [0, 1, 2, 3, 4]), some 0, none, 0x0, 0x0, false, false⟩,
  ⟨0x3102, (.composite 16 64), (.record 24), some 0, none, 0x0, 0x0, false, false⟩,
  ⟨0x3103, (.composite 16 64), (.record 8), some 0, none, 0x0, 0x0, true, false⟩,
  ⟨0x3104, (.composite 16 64), .command, some 0, some 1, 0x0, 0x3EC, true, false⟩]

/-- The rows of the indices 0x32xx. -/
def objRows32 : List ObjRow := [
  ⟨0x3200, .pin, (.record 12), some 0, some 2, 0x0, 0x10C, false, true⟩,
  ⟨0x3201, .pin, (.record 12), some 0, none, 0x0, 0x0, false, false⟩,
  ⟨0x3202, .pin, (.record 12), some 0, none, 0x0, 0x0, false, false⟩]

/-- The rows of the indices 0x34xx. -/
def objRows34 : List ObjRow := [
  ⟨0x3400, .pin, (.record 8), some 0, none, 0x0, 0x0, false, false⟩]

/-- The rows of the indices 0x36xx. -/
def objRows36 : List ObjRow := [
  ⟨0x3600, .pin, (.enum [0, 1, 2]), some 0, some 2, 0x0, 0x100, false, false⟩,
  ⟨0x3601, .pin, (.record 1), some 0, none, 0x0, 0x0, false, false⟩]

/-- The rows of the indices 0x38xx. -/
def objRows38 : List ObjRow := [
  ⟨0x3800, .single, (.record 16), some 0, some 2, 0x8000800080008000800080008000800, 0xC, false, true⟩,
  ⟨0x3801, .single, (.record 8), some 0, some 1, 0x0, 0x3EC, false, false⟩,
  ⟨0x3802, .single, (.record 4), some 0, none, 0x0, 0x0, false, false⟩,
  ⟨0x3803, .single, (.record 8), some 0, none, 0xffffffffffffffff, 0x0, false, false⟩,
  ⟨0x3804, .single, (.record 16), some 0, none, 0x0, 0x0, false, false⟩]

/-- The rows of the indices 0x40xx. -/
def objRows40 : List ObjRow := [
  ⟨0x4000, .site, (.record 32), some 0, none, 0x0, 0x0, false, false⟩,
  ⟨0x4001, .needle, (.enum [0, 1, 2]), some 0, some 1, 0x0, 0x28, false, false⟩,
  ⟨0x4002, .needle, (.record 8), some 0, some 2, 0x1, 0x28, false, false⟩,
  ⟨0x4003, .needle, (.record 16), some 0, none, 0x0, 0x0, false, false⟩,
  ⟨0x4004, .pin, (.record 16), some 0, none, 0x0, 0x0, false, false⟩,
  ⟨0x4008, .needle, (.record 8), some 0, some 2, 0x0, 0x8, false, false⟩,
  ⟨0x4009, .needle, (.record 24), some 0, none, 0x0, 0x0, false, false⟩,
  ⟨0x400A, .needle, .domain, some 2, none, 0x0, 0x0, true, false⟩,
  ⟨0x4010, .single, .domain, some 1, none, 0x0, 0x0, true, false⟩,
  ⟨0x4011, .single, (.record 16), some 0, none, 0x0, 0x0, true, false⟩]

/-- The rows of the indices 0x41xx. -/
def objRows41 : List ObjRow := [
  ⟨0x4100, .single, (.record 16), some 0, some 2, 0x401001000, 0x8, false, true⟩,
  ⟨0x4101, .single, (.record 16), some 0, none, 0x1000000010000, 0x0, false, false⟩,
  ⟨0x4102, .single, (.record 40), some 0, none, 0x0, 0x0, false, false⟩,
  ⟨0x4110, .site, (.record 16), some 0, none, 0x0, 0x0, false, false⟩,
  ⟨0x4111, .site, (.uint 4 256 1048576), some 0, some 1, 0x1000, 0x28, false, false⟩,
  ⟨0x4112, .site, (.uint 8 1000000000 1000000000000000), some 0, some 1, 0x174876e800, 0x28, false, false⟩,
  ⟨0x4113, .site, .command, some 0, some 1, 0x0, 0xE0, false, false⟩,
  ⟨0x4120, .needle, (.record 16), some 0, none, 0x0, 0x0, false, false⟩]

/-- The rows of the indices 0x42xx. -/
def objRows42 : List ObjRow := [
  ⟨0x4201, .aunit, (.uint 2 0 4096), some 0, some 2, 0x0, 0x8, false, false⟩,
  ⟨0x4202, .aunit, (.bitset 32 256), some 0, some 2, 0x0, 0x8, false, false⟩,
  ⟨0x4203, .aunit, (.record 8), some 0, some 2, 0x0, 0x8, false, false⟩,
  ⟨0x4204, .aunit, (.record 16), some 0, some 1, 0x10000000000000001, 0x28, false, false⟩,
  ⟨0x4205, .aunit, (.uint 4 0 4294967295), some 0, some 1, 0x0, 0x28, false, false⟩,
  ⟨0x4206, .aunit, (.uint 4 0 4294967295), some 0, some 1, 0x400, 0x28, false, false⟩,
  ⟨0x4207, .aunit, (.uint 8 1000000000 100000000000000000), some 0, some 1, 0x38d7ea4c68000, 0x28, false, false⟩,
  ⟨0x4210, .aunit, (.enum [0, 1]), some 0, some 1, 0x0, 0xE0, false, false⟩,
  ⟨0x4211, .aunit, .command, some 0, some 1, 0x0, 0xE0, false, false⟩,
  ⟨0x4212, .aunit, (.enum [0, 1, 2, 3, 4]), some 0, none, 0x0, 0x0, false, false⟩,
  ⟨0x4213, .aunit, (.uint 4 0 4294967295), some 0, some 1, 0x0, 0xE0, false, false⟩,
  ⟨0x4214, .aunit, (.record 64), some 0, none, 0x0, 0x0, true, false⟩,
  ⟨0x4215, .aunit, .domain, some 0, none, 0x0, 0x0, true, false⟩,
  ⟨0x4216, .aunit, .domain, some 2, none, 0x0, 0x0, true, false⟩,
  ⟨0x4217, .aunit, (.record 56), some 0, none, 0x0, 0x0, false, false⟩,
  ⟨0x4220, .single, (.record 2), some 0, some 2, 0x0, 0x2C, false, true⟩]

/-- The rows of the indices 0x43xx. -/
def objRows43 : List ObjRow := [
  ⟨0x4300, (.own 32), (.record 16), some 0, some 2, 0x10000000000, 0x1EC, false, false⟩,
  ⟨0x4301, (.own 32), (.uint 8 0 1000000000000000), some 0, some 2, 0x0, 0x1EC, false, false⟩,
  ⟨0x4302, (.own 32), (.uint 8 1000000000 10000000000000000), some 0, some 2, 0xe8d4a51000, 0x1EC, false, false⟩,
  ⟨0x4303, (.own 32), (.uint 8 1000000000 10000000000000000), some 0, some 2, 0x38d7ea4c68000, 0x1EC, false, false⟩,
  ⟨0x4304, (.own 32), (.uint 4 0 4294967295), some 0, some 2, 0x3e8, 0x1EC, false, false⟩,
  ⟨0x4305, (.own 32), (.uint 8 156250 1000000000000000), some 0, some 2, 0x1312d0, 0x1EC, false, false⟩,
  ⟨0x4310, (.own 32), (.enum [0, 1]), some 0, some 2, 0x0, 0x1EC, false, false⟩,
  ⟨0x4311, .tdc, (.enum [0, 1, 2, 3, 4, 5, 6, 7, 8]), some 0, none, 0x0, 0x0, false, false⟩,
  ⟨0x4312, (.own 32), (.record 56), some 0, none, 0x0, 0x0, false, false⟩,
  ⟨0x4313, (.own 32), .domain, some 0, none, 0x0, 0x0, true, false⟩,
  ⟨0x4314, (.own 32), (.record 24), some 0, none, 0x0, 0x0, false, false⟩,
  ⟨0x4320, .single, (.sint 4 (-100000) 100000), some 0, some 2, 0x0, 0xFFE, false, true⟩,
  ⟨0x4321, .single, (.record 8), some 0, none, 0x0, 0x0, false, false⟩,
  ⟨0x4322, .single, .stamp, some 0, none, 0x0, 0x0, false, false⟩]

/-- The rows of the indices 0x44xx. -/
def objRows44 : List ObjRow := [
  ⟨0x4400, .single, (.uint 8 0 18446744073709551615), some 0, none, 0x0, 0x0, false, false⟩,
  ⟨0x4401, .single, .stamp, some 0, none, 0x0, 0x0, false, false⟩,
  ⟨0x4402, .single, (.uint 8 100000000000 1000000000000000), some 0, some 1, 0x82f79cd9000, 0x2C, false, true⟩,
  ⟨0x4403, .single, (.record 8), some 0, some 2, 0x3fff01, 0x2C, false, true⟩,
  ⟨0x4404, .single, (.uint 2 1 40), some 0, some 2, 0xc, 0x2C, false, true⟩,
  ⟨0x4405, .single, (.uint 2 2 2000), some 0, some 2, 0xf0, 0x2C, false, true⟩,
  ⟨0x4406, .single, (.uint 8 10000000000 100000000000000), some 0, some 2, 0xe8d4a51000, 0x2C, false, true⟩,
  ⟨0x4407, .single, (.uint 1 1 255), some 0, some 2, 0x4, 0x2C, false, true⟩,
  ⟨0x4408, .single, (.uint 8 0 18446744073709551615), some 0, none, 0x0, 0x0, false, false⟩,
  ⟨0x4409, .single, (.record 32), some 0, none, 0x0, 0x0, false, false⟩,
  ⟨0x4410, .pin, (.record 16), some 0, none, 0x0, 0x0, false, false⟩,
  ⟨0x4411, .pin, (.record 12), some 0, none, 0x0, 0x0, false, false⟩,
  ⟨0x4412, .pin, (.record 24), some 0, none, 0x0, 0x0, false, false⟩,
  ⟨0x4418, .needle, (.record 16), some 0, none, 0x0, 0x0, false, false⟩,
  ⟨0x4420, .single, (.record 8), some 0, some 2, 0xff00, 0xC, false, true⟩,
  ⟨0x4421, .single, .domain, some 2, some 2, 0x0, 0xC, true, true⟩,
  ⟨0x4422, .single, (.record 16), some 0, none, 0x0, 0x0, true, false⟩,
  ⟨0x4423, .pin, (.record 4), some 0, none, 0x0, 0x0, true, false⟩]

/-- The rows of the indices 0x48xx. -/
def objRows48 : List ObjRow := [
  ⟨0x4800, .single, (.enum [0, 1, 2, 3]), some 0, none, 0x0, 0x0, false, false⟩,
  ⟨0x4801, .single, (.record 48), some 0, none, 0x0, 0x0, true, false⟩,
  ⟨0x4802, .needle, (.record 32), some 0, none, 0x0, 0x0, true, false⟩,
  ⟨0x4803, .single, (.record 32), some 0, none, 0x0, 0x0, true, false⟩,
  ⟨0x4804, .single, (.record 16), some 0, none, 0x3c0000100000001c000000132400, 0x0, false, false⟩,
  ⟨0x4810, .chart, (.enum [0, 1, 2]), some 0, some 2, 0x0, 0x8, false, false⟩,
  ⟨0x4811, .needle, (.record 16), some 0, some 2, 0x0, 0x8, false, false⟩,
  ⟨0x4812, .single, (.bitset 2 16), some 0, some 2, 0xfffc, 0x8, false, true⟩,
  ⟨0x4813, .single, .bool, some 0, some 1, 0x1, 0xE8, false, true⟩,
  ⟨0x4820, .chart, (.record 16), some 0, none, 0x0, 0x0, false, false⟩,
  ⟨0x4821, .site, (.uint 1 0 255), some 0, none, 0xff, 0x0, false, false⟩,
  ⟨0x4830, .single, .domain, some 0, none, 0x0, 0x0, true, false⟩,
  ⟨0x4831, .single, (.record 32), some 0, none, 0x0, 0x0, false, false⟩]

/-- The rows of the indices 0x49xx. -/
def objRows49 : List ObjRow := [
  ⟨0x4900, .single, (.record 8), some 0, none, 0x0, 0x0, false, false⟩,
  ⟨0x4901, .single, (.record 16), some 0, none, 0x0, 0x0, true, false⟩,
  ⟨0x4910, .single, (.record 32), some 0, some 2, 0x2108108408420421080804040202010100880044002200110008000400020001, 0x8, false, true⟩,
  ⟨0x4911, .single, (.record 8), some 0, some 2, 0xa01, 0xC, false, true⟩,
  ⟨0x4912, .single, (.record 8), some 0, some 2, 0x3e800000001, 0x10C, false, true⟩,
  ⟨0x4913, .single, (.record 8), some 0, some 2, 0x1518000000001, 0xC, false, true⟩,
  ⟨0x4920, .single, .domain, some 0, none, 0x0, 0x0, true, false⟩,
  ⟨0x4921, .single, (.record 16), some 0, none, 0x0, 0x0, false, false⟩,
  ⟨0x4930, .single, (.record 40), some 0, none, 0x0, 0x0, false, false⟩,
  ⟨0x4931, .single, (.record 8), some 0, none, 0x0, 0x0, false, false⟩]

/-- The rows of the indices 0x4Axx. -/
def objRows4A : List ObjRow := [
  ⟨0x4A00, .stream, (.record 8), some 0, some 2, 0x4000100ff, 0x8, false, false⟩,
  ⟨0x4A01, .stream, (.record 16), some 0, some 2, 0x0, 0x8, false, false⟩,
  ⟨0x4A02, .stream, (.uint 4 0 4294967295), some 0, some 1, 0x0, 0xE8, false, false⟩,
  ⟨0x4A03, .stream, (.record 128), some 0, some 2, 0x0, 0x8, false, false⟩,
  ⟨0x4A04, .stream, (.record 128), some 0, some 2, 0x0, 0x8, false, false⟩,
  ⟨0x4A05, .stream, (.uint 2 0 65535), some 0, some 2, 0x0, 0x8, false, false⟩,
  ⟨0x4A08, .stream, (.record 8), some 0, none, 0x0, 0x0, false, false⟩,
  ⟨0x4A09, .stream, (.uint 4 0 4294967295), some 0, none, 0x0, 0x0, false, false⟩,
  ⟨0x4A0A, .stream, (.record 16), some 0, none, 0x0, 0x0, false, false⟩,
  ⟨0x4A0B, .stream, .command, some 0, some 1, 0x0, 0xE8, false, false⟩,
  ⟨0x4A0C, .stream, .bool, some 0, none, 0x0, 0x0, false, false⟩,
  ⟨0x4A10, .layer, (.record 8), some 0, some 2, 0x0, 0x8, false, false⟩,
  ⟨0x4A11, .layer, (.record 8), some 0, some 1, 0x0, 0xE8, false, false⟩,
  ⟨0x4A12, .layer, (.record 8), some 0, none, 0x0, 0x0, false, false⟩,
  ⟨0x4A18, (.composite 8 4), .domain, some 1, some 1, 0x0, 0xE0, true, false⟩,
  ⟨0x4A19, (.composite 8 4), (.enum [0, 1, 2, 3, 4]), some 0, none, 0x0, 0x0, false, false⟩,
  ⟨0x4A1A, (.composite 8 4), .command, some 0, some 1, 0x0, 0xE0, false, false⟩,
  ⟨0x4A20, (.composite 2 16), (.record 16), some 0, some 1, 0x0, 0xE8, false, false⟩,
  ⟨0x4A21, (.composite 2 16), (.record 16), some 0, some 1, 0x0, 0xE8, false, false⟩,
  ⟨0x4A22, (.composite 2 16), (.record 16), some 0, none, 0x0, 0x0, false, false⟩,
  ⟨0x4A23, (.composite 2 16), (.record 16), some 0, none, 0x0, 0x0, false, false⟩,
  ⟨0x4A30, .stream, (.record 32), some 0, none, 0x0, 0x0, false, false⟩]

/-- The rows of the indices 0x50xx. -/
def objRows50 : List ObjRow := [
  ⟨0x5000, .single, (.record 4), some 0, some 2, 0x1ffffe, 0x10C, true, false⟩,
  ⟨0x5001, .single, (.record 16), some 0, none, 0x222222222222222222222, 0x0, false, false⟩,
  ⟨0x5002, .single, (.record 80), some 0, none, 0x0, 0x0, true, false⟩,
  ⟨0x5003, .single, (.record 40), some 0, some 2, 0xc9000000c8000000c7000000c6000000c5000000c4000000c3000000c2000000c1000000c0, 0xC, true, true⟩,
  ⟨0x5010, .single, (.record 16), some 0, some 2, 0x7d007d007d007d007d007d007d007d0, 0xC, false, true⟩,
  ⟨0x5020, .single, (.record 16), some 0, some 2, 0xff01, 0xC, false, true⟩,
  ⟨0x5021, .single, (.record 136), some 0, some 2, 0x40000138800000003000007d000000002000007d0ffff0001000007d000000000000007d0, 0xC, false, true⟩,
  ⟨0x5022, .single, (.record 24), some 0, none, 0x0, 0x0, false, false⟩,
  ⟨0x5023, .single, (.record 32), some 0, none, 0x0, 0x0, false, false⟩]

/-- The rows of the indices 0x51xx. -/
def objRows51 : List ObjRow := [
  ⟨0x5100, .loop, (.record 16), some 0, some 2, 0x10000000003200ffff, 0xC, false, true⟩,
  ⟨0x5101, .loop, (.record 24), some 0, some 2, 0x0, 0x1EC, false, true⟩,
  ⟨0x5102, .loop, (.record 20), some 0, some 2, 0x3e800000000000000000000000000000000, 0xC, false, true⟩,
  ⟨0x5103, .loop, (.sint 4 (-2147483648) 2147483647), some 0, some 1, 0x0, 0x1FC, false, false⟩,
  ⟨0x5104, .loop, (.sint 4 (-2147483648) 2147483647), some 0, some 1, 0x0, 0x1FC, false, false⟩,
  ⟨0x5105, .loop, (.enum [0, 1]), some 0, some 1, 0x0, 0x1E8, false, false⟩,
  ⟨0x5106, .loop, (.enum [0, 1, 2, 3, 4, 5]), some 0, none, 0x0, 0x0, false, false⟩,
  ⟨0x5107, .loop, (.record 16), some 0, none, 0x0, 0x0, false, false⟩,
  ⟨0x5108, .loop, (.record 12), some 0, some 2, 0x186a0000003e800, 0xC, false, true⟩,
  ⟨0x5109, .loop, (.record 40), some 0, none, 0x0, 0x0, false, false⟩]

/-- The rows of the indices 0x52xx. ADC.OW_TEST (0x5207) meets the two conditions of R849 and is not in its list: DESIGN CHOICE, it is a command object, so that a write of 0 is
answered OK (notes/assumptions/61.md). -/
def objRows52 : List ObjRow := [
  ⟨0x5200, .single, (.record 128), some 0, some 2, 0x10fedcba98765432100000000000000010fedcba98765432100000000000000010fedcba98765432100000000000000010fedcba98765432100000000000000010fedcba98765432100000000000000010fedcba98765432100000000000000010fedcba98765432100000000000000010fedcba9876543210, 0xC, false, true⟩,
  ⟨0x5201, .ain, (.record 16), some 0, some 1, 0x47fffffff80000000, 0x1FC, false, true⟩,
  ⟨0x5202, .ain, (.record 16), some 0, none, 0x0, 0x0, false, false⟩,
  ⟨0x5203, .ain, (.record 8), some 0, some 2, 0x0, 0x10C, false, true⟩,
  ⟨0x5204, .ain, (.record 8), some 0, none, 0x0, 0x0, false, false⟩,
  ⟨0x5205, .ain, (.record 8), some 0, some 2, 0x0, 0x10C, true, false⟩,
  ⟨0x5206, .ain, (.record 8), some 0, none, 0x0, 0x0, true, false⟩,
  ⟨0x5207, .ain, .command, some 0, some 1, 0x0, 0x10C, true, false⟩,
  ⟨0x5208, .ain, (.record 8), some 0, none, 0x0, 0x0, true, false⟩,
  ⟨0x5209, .single, (.sint 4 (-2147483648) 2147483647), some 0, some 2, 0x186a0, 0xC, false, true⟩,
  ⟨0x5210, .ain, (.record 16), some 0, none, 0x0, 0x0, false, false⟩]

/-- The rows of the indices 0x60xx. -/
def objRows60 : List ObjRow := [
  ⟨0x6000, .core, (.enum [0, 1, 2, 3, 4, 5]), some 0, none, 0x0, 0x0, false, false⟩,
  ⟨0x6001, .core, (.record 32), some 0, none, 0x0, 0x0, false, false⟩,
  ⟨0x6002, .single, (.record 8), some 0, none, 0x10, 0x0, true, false⟩,
  ⟨0x6010, .single, (.record 16), some 0, none, 0x10000, 0x0, false, false⟩,
  ⟨0x6012, .single, (.record 64), some 0, none, 0x0, 0x0, false, false⟩,
  ⟨0x6013, .core, (.record 32), some 0, none, 0x0, 0x0, false, false⟩,
  ⟨0x6014, .single, (.record 32), some 0, none, 0x0, 0x0, false, false⟩,
  ⟨0x6015, .single, (.record 8), some 0, some 2, 0x0, 0x3EC, false, false⟩,
  ⟨0x6016, .single, .domain, some 2, none, 0x0, 0x0, true, false⟩,
  ⟨0x6017, .single, (.record 16), some 0, none, 0x0, 0x0, false, false⟩,
  ⟨0x6018, .single, .command, some 0, some 1, 0x0, 0xFFE, false, false⟩]

/-- The rows of the indices 0x61xx. -/
def objRows61 : List ObjRow := [
  ⟨0x6100, .single, (.record 128), some 0, some 2, 0x64000000640000006400000064000000640000006400000064000000640000006400000064000000640000006400000064000000640000006400100064000000640000006400100064000000640010006400100064001000640010006400000064000000640000006400000064000000640000006400000064000000640, 0xFFE, false, true⟩,
  ⟨0x6101, .single, (.record 1024), some 0, none, 0x0, 0x0, true, false⟩,
  ⟨0x6102, .single, (.record 64), some 0, none, 0x0, 0x0, false, false⟩,
  ⟨0x6103, .single, (.uint 8 0 18446744073709551615), some 0, none, 0x0, 0x0, false, false⟩,
  ⟨0x6104, .single, (.record 32), some 0, none, 0x0, 0x0, false, false⟩]

/-- The rows of the indices 0x62xx. -/
def objRows62 : List ObjRow := [
  ⟨0x6200, .single, (.record 8), some 0, none, 0x0, 0x0, false, false⟩,
  ⟨0x6201, .single, (.record 64), some 0, none, 0x0, 0x0, false, false⟩,
  ⟨0x6202, .single, (.record 512), some 0, some 2, 0x10101110000000000000000000000000000000000000000000000000000000011010901000000000000000000000000090100000000000000000000000000000000000100000000000000000000000000000100000000000000000000000000000000000000000000000000000000000000010100000000000000000000000000000009000000000000000000000000000000090000000000000000000000000000090900000000000000000000000000000101000000000000000000000000000011050000000000000000000000000000010000000000000000000000000000000000000000000000000000000000011101010000000000000000000000000011111300000000000000000000000000210121, 0xFFE, false, true⟩,
  ⟨0x6203, .single, (.uint 2 0 65535), some 0, some 1, 0x0, 0xFFE, false, false⟩,
  ⟨0x6204, .single, (.record 96), some 0, none, 0x0, 0x0, false, false⟩,
  ⟨0x6205, .single, .command, some 0, some 1, 0x0, 0xFFE, false, false⟩,
  ⟨0x6206, .single, (.uint 8 10000000000 1000000000000000), some 0, some 2, 0xe8d4a51000, 0xC, false, true⟩,
  ⟨0x6207, .single, (.uint 4 0 4294967295), some 0, none, 0x0, 0x0, false, false⟩,
  ⟨0x6208, .single, (.record 8), some 0, some 3, 0x0, 0x16C, false, false⟩,
  ⟨0x6209, .single, .domain, some 0, none, 0x0, 0x0, true, false⟩,
  ⟨0x620A, .single, (.record 32), some 0, none, 0x0, 0x0, false, false⟩]

/-- The rows of the indices 0x63xx. -/
def objRows63 : List ObjRow := [
  ⟨0x6300, .single, .domain, some 2, none, 0x0, 0x0, true, false⟩,
  ⟨0x6301, .single, (.record 32), some 0, none, 0x0, 0x0, false, false⟩,
  ⟨0x6302, .single, .command, some 0, some 2, 0x0, 0x800, false, false⟩,
  ⟨0x6303, .single, .domain, some 2, none, 0x0, 0x0, true, false⟩,
  ⟨0x6304, .single, .command, some 0, some 2, 0x0, 0x80C, true, false⟩]

/-- The rows of the indices 0x70xx, the service objects (R87). The spec gives them no Element column: DESIGN CHOICE, each has the one element 0 (notes/assumptions/62.md). -/
def objRows70 : List ObjRow := [
  ⟨0x7000, .single, .service, some 3, some 3, 0x0, 0xC, true, false⟩,
  ⟨0x7001, .single, .service, some 3, some 3, 0x0, 0xC, true, false⟩,
  ⟨0x7002, .single, .service, some 3, some 3, 0x0, 0xC, true, false⟩,
  ⟨0x7003, .single, .service, some 3, some 3, 0x0, 0xC, true, false⟩,
  ⟨0x7004, .single, .service, some 3, some 3, 0x0, 0xC, true, false⟩,
  ⟨0x7010, .single, .service, some 3, some 3, 0x0, 0xC, true, false⟩,
  ⟨0x7011, .single, .service, some 3, some 3, 0x0, 0xC, true, false⟩,
  ⟨0x7012, .single, .service, some 3, some 3, 0x0, 0xC, true, false⟩,
  ⟨0x7020, .single, .service, some 3, some 3, 0x0, 0xC, true, false⟩,
  ⟨0x7021, .single, .service, some 3, some 3, 0x0, 0xC, true, false⟩,
  ⟨0x7022, .single, .service, some 3, some 3, 0x0, 0xC, true, false⟩,
  ⟨0x7030, .single, .service, some 3, some 3, 0x0, 0xC, true, false⟩,
  ⟨0x7031, .single, .service, some 3, some 3, 0x0, 0xC, true, false⟩,
  ⟨0x7032, .single, .service, some 3, some 3, 0x0, 0xC, true, false⟩,
  ⟨0x7040, .single, .service, some 3, some 3, 0x0, 0xC, true, false⟩,
  ⟨0x7041, .single, .service, some 3, some 3, 0x0, 0xC, true, false⟩,
  ⟨0x7042, .single, .service, some 3, some 3, 0x0, 0xC, true, false⟩,
  ⟨0x7050, .single, .service, some 3, some 3, 0x0, 0xC, true, false⟩,
  ⟨0x7051, .single, .service, some 3, some 3, 0x0, 0xC, true, false⟩,
  ⟨0x7060, .single, .service, some 3, some 3, 0x0, 0xC, true, false⟩,
  ⟨0x7061, .single, .service, some 3, some 3, 0x0, 0xC, true, false⟩,
  ⟨0x7062, .single, .service, some 3, some 3, 0x0, 0xC, true, false⟩,
  ⟨0x7070, .single, .service, some 3, some 3, 0x0, 0xC, true, false⟩,
  ⟨0x7071, .single, .service, some 3, some 3, 0x0, 0xC, true, false⟩,
  ⟨0x7080, .single, .service, some 3, some 3, 0x0, 0xC, true, false⟩,
  ⟨0x7081, .single, .service, some 3, some 3, 0x0, 0xC, true, false⟩,
  ⟨0x7090, .single, .service, some 3, some 3, 0x0, 0xC, true, false⟩,
  ⟨0x7091, .single, .service, some 3, some 3, 0x0, 0xC, true, false⟩,
  ⟨0x70A0, .single, .service, some 3, some 3, 0x0, 0xC, true, false⟩,
  ⟨0x70B0, .single, .service, some 3, some 3, 0x0, 0xC, true, false⟩]

/-- The rows of the 256 indices that share their high byte. -/
def objPage : Nat → List ObjRow
  | 0x10 => objRows10
  | 0x11 => objRows11
  | 0x12 => objRows12
  | 0x13 => objRows13
  | 0x14 => objRows14
  | 0x15 => objRows15
  | 0x20 => objRows20
  | 0x24 => objRows24
  | 0x28 => objRows28
  | 0x30 => objRows30
  | 0x31 => objRows31
  | 0x32 => objRows32
  | 0x34 => objRows34
  | 0x36 => objRows36
  | 0x38 => objRows38
  | 0x40 => objRows40
  | 0x41 => objRows41
  | 0x42 => objRows42
  | 0x43 => objRows43
  | 0x44 => objRows44
  | 0x48 => objRows48
  | 0x49 => objRows49
  | 0x4A => objRows4A
  | 0x50 => objRows50
  | 0x51 => objRows51
  | 0x52 => objRows52
  | 0x60 => objRows60
  | 0x61 => objRows61
  | 0x62 => objRows62
  | 0x63 => objRows63
  | 0x70 => objRows70
  | _ => []

/-- R47: the row of an index, none where no object occupies it. -/
def objRow (ix : Nat) : Option ObjRow := (objPage (ix / 256)).find? (fun r => r.ix == ix)

/-- The Default column: what an object holds at entry to BOOT (R79); 0 for an index without an object. -/
def objDflt (ix : Nat) : Nat := ((objRow ix).map (·.dflt)).getD 0

/-- Every row of the dictionary. -/
def objAll : List ObjRow := objRows10 ++ objRows11 ++ objRows12 ++ objRows13 ++ objRows14 ++ objRows15 ++ objRows20 ++ objRows24 ++ objRows28 ++ objRows30 ++ objRows31 ++ objRows32 ++ objRows34 ++ objRows36 ++ objRows38 ++ objRows40 ++ objRows41 ++ objRows42 ++ objRows43 ++ objRows44 ++ objRows48 ++ objRows49 ++ objRows4A ++ objRows50 ++ objRows51 ++ objRows52 ++ objRows60 ++ objRows61 ++ objRows62 ++ objRows63 ++ objRows70

end Sys2Proof.Machine
end

