-- ==== Sys2Proof/Machine/Tables.lean ====
section
/-! DEFINITION. Sparse tables in one canonical form: keys rising, no entry equal to what an unlisted key reads as. -/
namespace Sys2Proof.Machine

/-- A sparse table: pairs of a key and a value. -/
abbrev Tbl (α : Type) := List (Nat × α)

/-- The entry of a key. -/
def Tbl.find {α : Type} : Tbl α → Nat → Option α
  | [], _ => none
  | (j, a) :: t, k => if j = k then some a else Tbl.find t k

/-- The table with the entry of a key set, keys staying in rising order. -/
def Tbl.set {α : Type} : Tbl α → Nat → α → Tbl α
  | [], k, v => [(k, v)]
  | (j, a) :: t, k, v => if k < j then (k, v) :: (j, a) :: t else if j = k then (k, v) :: t else (j, a) :: Tbl.set t k v

/-- The table without the entry of a key. -/
def Tbl.del {α : Type} : Tbl α → Nat → Tbl α
  | [], _ => []
  | (j, a) :: t, k => if j = k then Tbl.del t k else (j, a) :: Tbl.del t k

/-- What a key reads as: its entry, else the default of that key. -/
def Tbl.get {α : Type} (d : Nat → α) (t : Tbl α) (k : Nat) : α := (Tbl.find t k).getD (d k)

/-- A write that keeps the canonical form: writing the default removes the entry. -/
def Tbl.put {α : Type} [DecidableEq α] (d : Nat → α) (t : Tbl α) (k : Nat) (v : α) : Tbl α :=
  if v = d k then Tbl.del t k else Tbl.set t k v

/-- The canonical form. -/
abbrev Tbl.Wf {α : Type} (d : Nat → α) (t : Tbl α) : Prop :=
  t.Pairwise (fun x y => x.1 < y.1) ∧ ∀ e ∈ t, e.2 ≠ d e.1

/-- The value of a field. -/
def Fld.get (f : Fld) (v : Nat) : Nat := (v >>> f.lo) % 2 ^ f.w

/-- The record with one field replaced: the field's bits that differ from the new value are flipped. -/
def Fld.put (f : Fld) (v x : Nat) : Nat := v ^^^ ((f.get v ^^^ (x % 2 ^ f.w)) <<< f.lo)

/-- Field f moved up by so many bits (entry i of a record of equal entries). -/
def Fld.up (f : Fld) (off : Nat) : Fld := ⟨f.lo + off, f.w⟩

/-- Two's complement: the signed value of the low w bits. -/
def toSigned (w v : Nat) : Int :=
  let u := v % 2 ^ w
  if u < 2 ^ (w - 1) then (u : Int) else (u : Int) - (2 ^ w : Nat)

/-- Two's complement: the low w bits of a signed value. -/
def ofSigned (w : Nat) (i : Int) : Nat := (i % (2 ^ w : Nat)).toNat

/-- A signed value clamped to w bits. -/
def clampSigned (w : Nat) (i : Int) : Int :=
  let m : Int := (2 ^ (w - 1) : Nat)
  if i < -m then -m else if i > m - 1 then m - 1 else i

/-- R7: the value of little-endian bytes. -/
def ofLE : Bytes → Nat
  | [] => 0
  | b :: t => b.toNat + 256 * ofLE t

/-- R7: n little-endian bytes of a value. -/
def toLE : Nat → Nat → Bytes
  | 0, _ => []
  | n + 1, v => BitVec.ofNat 8 v :: toLE n (v / 256)

/-- R6: the value of bytes in network order. -/
def ofBE (b : Bytes) : Nat := b.foldl (fun a x => a * 256 + x.toNat) 0

/-- R6: n bytes of a value in network order. -/
def toBE (n v : Nat) : Bytes := (toLE n v).reverse

/-- The bytes from an offset, at most so many. -/
def slice (b : Bytes) (off len : Nat) : Bytes := (b.drop off).take len

/-- The little-endian number at an offset; bytes beyond the end read as nothing. -/
def leAt (b : Bytes) (off len : Nat) : Nat := ofLE (slice b off len)

/-- The number in network order at an offset. -/
def beAt (b : Bytes) (off len : Nat) : Nat := ofBE (slice b off len)

/-- Whether bit i is set. -/
def bit (v i : Nat) : Bool := v.testBit i

/-- v with bit i set or cleared. -/
def setBit (v i : Nat) (b : Bool) : Nat := Fld.put ⟨i, 1⟩ v b.toNat

/-- The members of a set of n instances, rising. -/
def members (n v : Nat) : List Nat := (List.range n).filter (fun i => v.testBit i)

/-- The set with the given members. -/
def ofMembers (l : List Nat) : Nat := l.foldl (fun a i => a ||| 2 ^ i) 0

/-- How many members a set of n instances has. -/
def popcount (n v : Nat) : Nat := (members n v).length

/-- The difference of two sets. -/
def setMinus (a b : Nat) : Nat := a ^^^ (a &&& b)

/-- The last n elements of a list. -/
def lastN {α : Type} (n : Nat) (l : List α) : List α := l.drop (l.length - n)

/-- n divided by d, rounded up. -/
def ceilDiv (n d : Nat) : Nat := (n + d - 1) / d

/-- Division of integers rounded to the nearest, ties away from zero. -/
def roundDiv (n : Int) (d : Nat) : Int :=
  if n ≥ 0 then (2 * n + d) / (2 * d) else -((2 * (-n) + d) / (2 * d))

end Sys2Proof.Machine
end

