-- ==== Sys2Proof/Machine/Sha.lean ====
section
/-! DEFINITION. HMAC-SHA-256, which R695 to R697 and R719 name, and the CRCs of 04_charts (R138, R150). -/
namespace Sys2Proof.Machine

/-- The 64 round constants of SHA-256 packed in one number, 32 bits each, round 0 lowest. -/
def shaRounds : Nat :=
  0xc19bf1749bdc06a780deb1fe72be5d74550c7dc3243185be12835b01d807aa98ab1c5ed5923f82a459f111f13956c25be9b5dba5b5c0fbcf71374491428a2f98 * 2 ^ 0 +
  0x1429296706ca6351d5a79147c6e00bf3bf597fc7b00327c8a831c66d983e515276f988da5cb0a9dc4a7484aa2de92c6f240ca1cc0fc19dc6efbe4786e49b69c1 * 2 ^ 512 +
  0x106aa070f40e3585d6990624d192e819c76c51a3c24b8b70a81a664ba2bfe8a192722c8581c2c92e766a0abb650a735453380d134d2c6dfc2e1b213827b70a85 * 2 ^ 1024 +
  0xc67178f2bef9a3f7a4506ceb90befffa8cc7020884c8781478a5636f748f82ee682e6ff35b9cca4f4ed8aa4a391c0cb334b0bcb52748774c1e376c0819a4c116 * 2 ^ 1536

/-- The initial digest packed the same way, word 0 lowest. -/
def shaStart : Nat := 0x5be0cd191f83d9ab9b05688c510e527fa54ff53a3c6ef372bb67ae856a09e667

/-- Word i of a number that packs 32-bit words. -/
def packed (v i : Nat) : Nat := (v >>> (32 * i)) % 2 ^ 32

/-- Two rotations to the right of a 32-bit word and a third term, added without carry: a rotation reads the word written twice. -/
def shaMix (i j last x : Nat) : Nat :=
  let twice := x * (2 ^ 32 + 1)
  ((twice >>> i) ^^^ (twice >>> j) ^^^ last) % 2 ^ 32

/-- The Σ functions: the third term is a rotation too. -/
def shaTurn (i j k x : Nat) : Nat := shaMix i j ((x * (2 ^ 32 + 1)) >>> k) x

/-- One round on the eight working words and the window of the sixteen next message words: the front word is used up and its successor joins at the back. -/
def shaRound : List Nat × List Nat → Nat → List Nat × List Nat
  | ([a, b, c, d, e, f, g, h], w :: ws), n =>
    let grow := w + shaMix 7 18 (ws.getD 0 0 >>> 3) (ws.getD 0 0) + ws.getD 8 0 + shaMix 17 19 (ws.getD 13 0 >>> 10) (ws.getD 13 0)
    let x := h + shaTurn 6 11 25 e + (g ^^^ (e &&& (f ^^^ g))) + packed shaRounds n + w
    let y := shaTurn 2 13 22 a + ((a &&& (b ||| c)) ||| (b &&& c))
    ([(x + y) % 2 ^ 32, a, b, c, (d + x) % 2 ^ 32, e, f, g], ws ++ [grow % 2 ^ 32])
  | r, _ => r

/-- A digest with one 64-byte block taken in. -/
def shaBlock (v : List Nat) (blk : Bytes) : List Nat :=
  let words := (List.range 16).map (fun i => beAt blk (4 * i) 4)
  List.zipWith (fun x y => (x + y) % 2 ^ 32) v ((List.range 64).foldl shaRound (v, words)).1

/-- SHA-256 of a byte string: padded with 0x80, zeros and the bit count to whole blocks. -/
def sha256 (m : Bytes) : Bytes :=
  let blocks := (m.length + 72) / 64
  let p := m ++ 0x80#8 :: (List.replicate (64 * blocks - m.length - 9) 0#8 ++ toBE 8 (8 * m.length))
  let v := (List.range blocks).foldl (fun v i => shaBlock v (slice p (64 * i) 64)) ((List.range 8).map (packed shaStart))
  v.flatMap (toBE 4)

/-- HMAC-SHA-256 under a key of at most 64 bytes (the keys of R821 have 32). -/
def hmacSha256 (key m : Bytes) : Bytes :=
  let k := key ++ List.replicate (64 - key.length) 0#8
  sha256 (k.map (· ^^^ 0x5c#8) ++ sha256 (k.map (· ^^^ 0x36#8) ++ m))

/-- One bit of a reflected CRC. -/
def crcBit (poly : Nat) : Nat → Nat → Nat
  | 0, c => c
  | n + 1, c => crcBit poly n (if c % 2 = 1 then (c / 2) ^^^ poly else c / 2)

/-- R138: the CRC-32 of a byte string (reflected polynomial 0x04C11DB7, initial and final complement). -/
def crc32 (b : Bytes) : Nat := (b.foldl (fun c x => crcBit 0xEDB88320 8 (c ^^^ x.toNat)) 0xFFFFFFFF) ^^^ 0xFFFFFFFF

/-- One bit of a CRC-8 with its most significant bit first. -/
def crc8Bit (poly : Nat) : Nat → Nat → Nat
  | 0, c => c
  | n + 1, c => crc8Bit poly n (if c ≥ 128 then ((c * 2) % 256) ^^^ poly else c * 2)

/-- The CRC-8 with polynomial 0x07 and initial value 0 of a byte string. -/
def crc8 (b : Bytes) : Nat := b.foldl (fun c x => crc8Bit 0x07 8 (c ^^^ x.toNat)) 0

end Sys2Proof.Machine
end

