-- ==== Sys2Proof/Config.lean ====
section
/-! DEFINITION. What one part fixes and the manual does not: the free values, opaque constants about which nothing can be proved (notes/assumptions/3.md). -/
namespace Sys2Proof

/-- A draw of the engine's random generator (session nonces R695, neighbour refresh R532). -/
opaque Config.freeRandom : Nat → Nat
/-- A value that the spec leaves open and that a later rule reads (notes/assumptions/3.md names every use). -/
opaque Config.freeValue : Nat → Nat
/-- A byte string that the spec leaves open (bodies of service objects, core memories in a dump). -/
opaque Config.freeBytes : Nat → Bytes
/-- A verdict of firmware that the spec leaves open. -/
opaque Config.freeBool : Nat → Bool
/-- R241: a word of the base microcode in the boot ROM, whose contents the spec does not give. -/
opaque Config.baseWord : Nat → Nat
/-- R812: SHA-384 of a byte string; R810: used on firmware and patch images. The digest function is standard and not described by the spec. -/
opaque Config.sha384 : Bytes → Bytes
/-- R812: whether an ECDSA P-384 signature of a digest verifies under a key of the given number. -/
opaque Config.ecdsaOk : Nat → Bytes → Bytes → Bool
/-- AES-256-GCM under the part's device key (R821): the plain bytes, none where the tag does not agree. -/
opaque Config.gcmOpen : Bytes → Option Bytes

end Sys2Proof
end

