-- ==== Sys2Proof/Machine/State.lean ====
section
/-! DEFINITION. The state of the engine as plain data: the dictionary's store, and for each subsystem what its rules keep beside its objects. Each line gives the rule and the reset value. -/
namespace Sys2Proof.Machine

/-- What the engine sends out of its balls and ports. -/
inductive OutMsg where
  /-- A reply item of a service commanded alone (not in a frame): session, its bytes (R688). -/
  | item (session : Nat) (bytes : Bytes)
  /-- A POA frame to a host: the instant at which its first byte may leave the MAC (R42), port, sub-port, destination address and UDP port, VID and PCP of its C-tag (none for an
  untagged frame, R733), the UDP payload (R686, R692). -/
  | frame (t port sub addr udp : Nat) (tag : Option (Nat × Nat)) (bytes : Bytes)
  /-- An Ethernet answer of the port itself (ARP, ICMP, NDP, IGMP, MLD), by a kind number and its two addresses (R729), with VID and PCP of its C-tag (R733). -/
  | ether (port sub kind dst src : Nat) (tag : Option (Nat × Nat))
  /-- A PFC frame: port, classes, quanta (R736). -/
  | pfc (port classes quanta : Nat)
  /-- What a cascade port sends: kind 0 an event with its byte (R659), kind 2 a data frame with its bytes from LEN to the CRC (R660). -/
  | cascade (port kind value : Nat) (body : Bytes)
  /-- A level-bus frame: bank, the 32-bit word, the chip select mask (R324). -/
  | level (bank word chips : Nat)
  /-- An edge at a pin's balls, in the sense after PTF.PIN_CFG's inversion: pin, PE_DEN or PE_DRV, level, instant (R290, R319). -/
  | edge (pin : Nat) (den high : Bool) (t : Nat)
  /-- A pin's PE_DEN at 1 and PE_DRV toggling from one instant to another, in the sense before PTF.PIN_CFG's inversion: pin, the two instants, the period in fs, 0 where the
  instants of the edges are not given (R447). -/
  | wave (pin start stop period : Nat)
  /-- The output pairs of a bank are driven, or high-impedance, from an instant on (R321). -/
  | pads (bank : Nat) (driven : Bool) (t : Nat)
  /-- A read served from HBM: the instant of completion, master, address, the bytes (R522, R532). -/
  | memory (t master addr : Nat) (bytes : Bytes)
  /-- A PMBus transfer: address, page, command (R586, R588). -/
  | pmbus (addr page cmd : Nat)
  deriving DecidableEq, Repr

/-- A work item in the ready lists (R754, R755). -/
structure Item where
  /-- 0 to 4095 a flow, 4096 PARALLEL (R754) -/
  flow : Nat
  /-- 0 to 7 (R754) -/
  prio : Nat
  /-- R760 PRODUCER -/
  producer : Nat
  /-- the instant of its enqueue edge (R757) -/
  enq : Nat
  deriving DecidableEq, Repr

/-- A delivery on its way to a core (R769, R770). -/
structure Delivery where
  /-- the source (R763) -/
  source : Nat
  /-- fast class (R765) -/
  fast : Bool
  /-- the instant of the first handler instruction (R770) -/
  due : Nat
  deriving DecidableEq, Repr

/-- A control core beside its objects. -/
structure CoreRt where
  /-- width: one item and an instant; the item in service and its dispatch instant, 20_cores R749; reset none -/
  item : Option (Item × Nat) := none
  /-- 1 bit; the interrupt mask, 20_cores R769; reset false (no reset value stated: DESIGN CHOICE, notes/assumptions/5.md) -/
  mask : Bool := false
  /-- deliveries not yet entered, 20_cores R770; reset empty -/
  due : List Delivery := []
  /-- handlers running, innermost first (source, fast), 20_cores R770; reset empty -/
  handlers : List (Nat × Bool) := []
  /-- the last claim: source, count, FIRST, LAST, 20_cores R771; reset none -/
  claimed : Option (Nat × Nat × Nat × Nat) := none
  /-- busy intervals of the last 1 ms (start, end), 20_cores R776 LOAD; reset empty -/
  busy : List (Nat × Nat) := []
  /-- instant since which an item or a handler is in service, 20_cores R776 BUSY; reset none -/
  since : Option Nat := none
  /-- instant from which the dispatcher sees the core idle, 20_cores R758; reset 0 -/
  idleFrom : Nat := 0
  deriving DecidableEq, Repr

/-- An interrupt source beside IEC.PENDING (R766). -/
structure SrcRt where
  /-- 1 bit; the sensed level, 20_cores R766; reset low -/
  high : Bool := false
  /-- 32 bits; occurrence count, 20_cores R766; reset 0 -/
  count : Nat := 0
  /-- STAMP; NT time of the first occurrence since the claim, 20_cores R766; reset 0 -/
  first : Nat := 0
  /-- STAMP; NT time of the last occurrence, 20_cores R766; reset 0 -/
  last : Nat := 0
  deriving DecidableEq, Repr

/-- A reaction on its way to the needles in scope (R785, R786). -/
structure Reaction where
  /-- the fault's source (R763) -/
  source : Nat
  /-- the needles that the fault names; none for an engine-wide instance (R785) -/
  scope : Option Nat
  /-- SITE_INVALID (R783) -/
  invalid : Bool
  /-- NEEDLE_STOP (R783) -/
  stop : Bool
  /-- the VCLK edge on which it reaches the needles (R786) -/
  due : Nat
  deriving DecidableEq, Repr

/-- The fault collector beside its objects. -/
structure FcrRt where
  /-- entries of 256 bits, at most 1,024, oldest first; FCR.LOG, 21_faults R791; reset empty -/
  log : List Nat := []
  /-- reactions under way, 21_faults R786; reset empty -/
  reactions : List Reaction := []
  /-- entry to SAFE or DUMP under way: the entry edge, whether DUMP, the reason code, the fault's source, 21_faults R786 to R788; reset none -/
  entry : Option (Nat × Bool × Nat × Nat) := none
  /-- checked accesses still to corrupt, 0 for no injection, 16 bits, 21_faults R795; reset 0 -/
  injLeft : Nat := 0
  /-- per active fault the instant of its last latch edge, 21_faults R794; reset empty -/
  raised : Tbl Nat := []
  /-- per active fault the instances that have reported it, 21_faults R793; reset empty -/
  insts : Tbl (List Nat) := []
  /-- 1 bit; the injection of the next recorded fault (R796), 21_faults R796; reset false -/
  injected : Bool := false
  deriving DecidableEq, Repr

/-- The clock unit beside its objects (16_clocks_time). -/
structure ClkRt where
  /-- instant; the root edge at which the PLL locked, from which every divider counts, 16_clocks R623; reset 0 -/
  lock : Nat := 0
  /-- instant; the epoch E, 16_clocks R628; reset 0 -/
  epoch : Nat := 0
  /-- 2^-32 ns units; NT at the TCLK edge ntEdge, 16_clocks R643; reset 0 -/
  ntBase : Nat := 0
  /-- TCLK edges since lock at which ntBase held, 16_clocks R643; reset 0 -/
  ntEdge : Nat := 0
  /-- ns; the sum of offsets of the servo, 16_clocks R644; reset 0 -/
  servoSum : Int := 0
  /-- consecutive offsets within LOCK_LIMIT, at most 16, 16_clocks R645; reset 0 -/
  lockRun : Nat := 0
  /-- instant of the last Sync, 16_clocks R645; reset none -/
  syncAt : Option Nat := none
  /-- qualify edge of the pending timed start, 16_clocks R638; reset none -/
  startQ : Option Nat := none
  /-- per port the transmit queue, oldest first: STAMP, sequenceId, messageType; at most 16, 16_clocks R648; reset empty -/
  txq : Tbl (List (Nat × Nat × Nat)) := []
  /-- instant at entry to BOOT, the start of LT, 11_time R474, 16_clocks R640; reset 0 -/
  ltStart : Nat := 0
  /-- the values of TMU.XTAL_AGEING since then, each with its instant, oldest first, 11_time R476; reset empty -/
  ageings : List (Nat × Int) := []
  deriving DecidableEq, Repr

/-- The per-source hold-off of an EVENT subscription (R715). -/
structure EvHold where
  /-- instant of the last report sent; none before the first (R715) -/
  last : Option Nat := none
  /-- 32 bits; occurrences of the pending report (R715) -/
  count : Nat := 0
  /-- STAMP of the first of them -/
  first : Nat := 0
  /-- STAMP of the last of them -/
  lastSt : Nat := 0
  deriving DecidableEq, Repr

/-- A subscription (R713). -/
structure Sub where
  /-- the session that holds it, 18_poa R713 -/
  session : Nat
  /-- SKIND: 0 CYCLIC, 1 ON_CHANGE, 2 EVENT, 3 DATALOG -/
  kind : Nat
  ix : Nat
  el : Nat
  interval : Nat
  window : Nat
  /-- the next sampling instant (kinds 0 and 1) -/
  next : Nat
  /-- the last value reported (kind 1) -/
  lastVal : Option Bytes := none
  /-- per source the hold-off (kind 2), R715 -/
  evs : Tbl EvHold := []
  /-- 32 bits; the next DSEQ (kind 3), R716 -/
  dseq : Nat := 0
  /-- reports not acknowledged: DSEQ, the frame, the instant it was last sent (kind 3), R716 -/
  unacked : List (Nat × Bytes × Nat) := []
  /-- records waiting for window room (kind 3), R716 -/
  waiting : List Bytes := []
  deriving DecidableEq, Repr

/-- A POA session (R691 to R701). -/
structure Session where
  /-- 0 FREE, 1 CHALLENGED, 2 OPEN (R722) -/
  state : Nat
  /-- 0 V, 1 O, 2 E, 3 S -/
  level : Nat
  port : Nat
  sub : Nat
  /-- IPv6 form of the source address (R722) -/
  addr : Nat
  udp : Nat
  maxFrame : Nat
  /-- ms (R693) -/
  timeout : Nat
  hostNonce : Bytes
  engNonce : Bytes
  /-- K_s; empty for V sessions (R697) -/
  key : Bytes
  /-- N, the next expected SEQ (R699) -/
  next : Nat
  /-- held frames: SEQ, frame, instant of arrival, high-priority class (R699, R700, R704) -/
  held : List (Nat × Bytes × Nat × Bool)
  /-- the last 16 replies: SEQ, frame (R701) -/
  replies : List (Nat × Bytes)
  /-- the next report sequence number (R718) -/
  rseq : Nat
  /-- instant of the last valid frame (R698) -/
  lastRx : Nat
  deriving DecidableEq, Repr

/-- An open bulk transfer (R706 to R709). -/
structure Xfer where
  session : Nat
  ix : Nat
  el : Nat
  /-- true for DIR 1 READ -/
  read : Bool
  total : Nat
  /-- a write's bytes so far; a read's snapshot (R708) -/
  data : Bytes
  /-- instant of the last item (R709) -/
  last : Nat
  /-- the completing item has arrived and validation runs (R707) -/
  validating : Bool
  /-- a reason with which the owner ended a read early (R708), 0 for none -/
  ended : Nat
  deriving DecidableEq, Repr

/-- The protocol engine beside its objects (18_poa_protocol). -/
structure PoaRt where
  /-- sessions 1 to 16, 18_poa R691; reset none -/
  sessions : Tbl (Option Session) := []
  /-- transfers by XFER number, at most 16, 18_poa R706; reset none -/
  xfers : Tbl (Option Xfer) := []
  /-- the next XFER number, 16 bits (the spec gives no rule, notes/assumptions/14.md); reset 1 -/
  nextXfer : Nat := 1
  /-- subscriptions by SUB number, at most 256, 18_poa R713; reset none -/
  subs : Tbl (Option Sub) := []
  /-- the next SUB number, 16 bits (the spec gives no rule, notes/assumptions/14.md); reset 1 -/
  nextSub : Nat := 1
  /-- per source address: consecutive AUTH failures and the end of the lock-out, 18_poa R696; reset empty -/
  fails : List (Nat × Nat × Nat) := []
  /-- UDP_PORT and V_OPEN as loaded at entry to BOOT, 18_poa R721; reset the default -/
  udp : Nat := 48620
  vOpen : Bool := true
  deriving DecidableEq, Repr

/-- What a reply waits for. -/
inductive Token where
  /-- the validation of a write transfer (R707) -/
  | xfer (id : Nat)
  /-- the validation of a needle's skein (R712) -/
  | skein (needle : Nat)
  /-- the end of the admission checks (R13) -/
  | arming
  /-- the completion of a FW-served access (R76) -/
  | fw (id : Nat)
  deriving DecidableEq, Repr

/-- A request whose reply is not yet formed (R77, R707, R712). -/
structure Waiter where
  token : Token
  session : Nat
  /-- the service code of the request -/
  service : Nat
  /-- it is the item at which a frame of the session stands; else it was commanded alone -/
  inFrame : Bool
  /-- DLEN and OFFSET of a DOMAIN_DATA item (R689) -/
  dlen : Nat
  off : Nat
  /-- index and element of a multicast write, whose outcome goes to ODE.MCAST_STATUS alone (R65); none for a request that is answered -/
  mcast : Option (Nat × Nat)
  deriving DecidableEq, Repr

/-- A FW-served access that a core is to execute (R76): its number, the ELEMENT and the members it resolved to (R53), a write's value. -/
structure FwJob where
  id : Nat
  read : Bool
  ix : Nat
  el : Nat
  els : List Nat
  value : Nat
  deriving DecidableEq, Repr

/-- The dictionary engine beside its objects (02_object_dictionary). -/
structure OdeRt where
  /-- FW-served accesses handed to the core of flow 88, oldest first, 02_dictionary R76, 20_cores R754; reset empty -/
  jobs : List FwJob := []
  /-- those whose work items are complete and whose effects are due, 02_dictionary R76; reset empty -/
  done : List FwJob := []
  /-- the model's own: number of the next one; reset 0 -/
  next : Nat := 0
  deriving DecidableEq, Repr

/-- A request frame in execution or waiting for execution (R77, R78). -/
structure Job where
  session : Nat
  /-- the session as it stood when the frame came (R692) -/
  who : Session
  seq : Nat
  /-- high-priority class (R704) -/
  high : Bool
  /-- the instant at which the frame's last byte came (R42) -/
  came : Nat
  /-- BULK of the frame (R705) -/
  bulk : Bool
  /-- the items still to execute -/
  items : List Bytes
  /-- the reply items formed so far -/
  replies : List Bytes
  deriving DecidableEq, Repr

/-- A decoded block header (R146). -/
structure Block where
  op : Nat
  tset : Nat
  bpp : Nat
  flags : Nat
  len : Nat
  count : Nat
  target : Nat
  arg : Nat
  crc : Nat
  /-- the extension area, 384 bits (R146) -/
  ext : Nat
  deriving DecidableEq, Repr

/-- A mode transition in progress (R100, R101, R116). -/
structure Trans where
  /-- the mode it started from, 03_modes R117 -/
  source : Nat
  /-- the target's code, 03_modes R101 -/
  target : Nat
  /-- the reason recorded when it completes, 03_modes R133 -/
  reason : Nat
  /-- the instant at which it completes; none while it waits for an event of its own, 03_modes R108 -/
  due : Option Nat
  deriving DecidableEq, Repr



/-- A frame held by a paused transmit class (R737). -/
structure HeldFrame where
  port : Nat
  sub : Nat
  /-- the transmit class -/
  pcp : Nat
  /-- the session whose report it is; 0 for a reply (R717) -/
  report : Nat
  msg : OutMsg
  deriving DecidableEq, Repr

/-- The Ethernet ports beside their objects (19_host_link). -/
structure HlkRt where
  /-- lengths of the frames in the receive buffers, oldest first, key port × 2 + class (0 high-priority, 1 bulk), 19_host R735; reset empty -/
  fill : Tbl (List Nat) := []
  /-- instant at which a paused transmit class goes on, key (port × 256 + sub-port) × 8 + PCP, 19_host R737; reset none paused -/
  paused : Tbl (Option Nat) := []
  /-- frames held by paused classes, oldest first, 19_host R737; reset empty -/
  held : List HeldFrame := []
  /-- per sub-port (port × 256 + sub-port) the ARP cache, oldest first: IP, MAC, instant learned; at most 256, 19_host R729; reset empty -/
  arp : Tbl (List (Nat × Nat × Nat)) := []
  /-- per sub-port the instants of the echo replies of the last second, at most 1,000, 19_host R729; reset empty -/
  echo : Tbl (List Nat) := []
  /-- per port the instant of the next PFC repeat, 19_host R736; reset none -/
  pfcNext : Tbl (Option Nat) := []
  /-- per sub-port: HLK_RX_DROP raised since link-up, 19_host R735; reset false -/
  dropSeen : Tbl Bool := []
  /-- per sub-port its IPv6 addresses that another node claimed in duplicate address detection, unused until the next link-up, 19_host R729; reset none -/
  dups : Tbl (List Nat) := []
  deriving DecidableEq, Repr

/-- A DUT supply loop beside its objects (R598 to R604). -/
structure LoopRt where
  /-- µV; e1 of the compensator, 15_power R598; reset 0 -/
  e1 : Int := 0
  /-- µV; e2, 15_power R598; reset 0 -/
  e2 : Int := 0
  /-- 2^-16 root periods; y1, 15_power R598; reset 0 -/
  y1 : Int := 0
  /-- 2^-16 root periods; y2, 15_power R598; reset 0 -/
  y2 : Int := 0
  /-- µV; set_eff at the start of the softstart or ramp, 15_power R600, R604; reset 0 -/
  rampFrom : Int := 0
  /-- instant at which the softstart or ramp began, 15_power R600, R604; reset 0 -/
  rampAt : Nat := 0
  /-- instant of the previous VSENSE sample, 15_power R599; reset 0 -/
  lastV : Nat := 0
  /-- root periods; the duty of the PWM period that holds the previous VSENSE sample, 15_power R597; reset 0 -/
  held : Nat := 0
  /-- an ISENSE sample has come, 15_power R598 isense_valid; reset false -/
  iOk : Bool := false
  /-- instants of the last chart value per KIND, 15_power R603; reset none -/
  chartV : Option Nat := none
  chartI : Option Nat := none
  deriving DecidableEq, Repr

/-- The converters beside their objects (R589 to R595). -/
structure AdcRt where
  /-- per converter the number of the next slot since the epoch, 64 bits, 15_power R589; reset 0 -/
  slot : Tbl Nat := []
  /-- per converter how many slots still carry RECOVERING, 15_power R592; reset 0 -/
  recover : Tbl Nat := []
  /-- per input the run of out-of-band samples, 15_power R593; reset 0 -/
  oob : Tbl Nat := []
  /-- per input the sum of the 4,096 codes of a completed ZERO step, 15_power R595; reset none -/
  c0 : Tbl (Option Int) := []
  /-- per input the start of an open-wire test, 15_power R594; reset none -/
  ow : Tbl (Option Nat) := []
  deriving DecidableEq, Repr

/-- A SUPPLY entry on its way (R602). -/
structure SupplyEntry where
  /-- the edge on which it takes force, 16 VCLK after its issue edge -/
  due : Nat
  /-- the needle that issued it (R175) -/
  needle : Nat
  loop : Nat
  /-- 0 setpoint, 1 current limit (R174) -/
  kind : Nat
  value : Int
  deriving DecidableEq, Repr

/-- The power manager beside its objects. -/
structure PsmRt where
  /-- the ramp-down under way: its stage and the instant of the stage timeout, 03_modes R127; reset none -/
  ramp : Option (Nat × Nat) := none
  /-- entry to SAFE or DUMP under way: the mode it came from, whether DUMP, the reason, the fault's source, 03_modes R126; reset none -/
  plan : Option (Nat × Bool × Nat × Nat) := none
  /-- the instant at which the plan clock stood at 0, 15_power R608; moved back when BULK_COMMIT advances the clock (R610); reset none -/
  ride : Option Int := none
  /-- a disturbance is present, 15_power R607; reset false -/
  line : Bool := false
  /-- the abandoned transition was an arming, 03_modes R118; reset false -/
  rideArming : Bool := false
  /-- SUPPLY entries on their way, 15_power R602; reset empty -/
  supply : List SupplyEntry := []
  /-- per domain the instant by which a switch ends, 15_power R581; reset none -/
  domDue : Tbl (Option Nat) := []
  /-- TEMP_WARN raised and no reading below 95 since, 23_electrical R840; reset false -/
  warm : Bool := false
  /-- TEMP_LIMIT's cause present, 23_electrical R840; reset false -/
  hot : Bool := false
  /-- rails outside their limits at the last check, bit r rail r, 15_power R586, R588; reset 0 -/
  badRails : Nat := 0
  deriving DecidableEq, Repr

/-- The HBM controllers beside their objects (13_memory). -/
structure HmsRt where
  /-- per pseudo-channel (0 to 63) the deficit in tREFI, 13_memory R527; reset 0 -/
  deficit : Tbl Nat := []
  /-- per pseudo-channel the instant of the last interval boundary, 13_memory R526; reset 0 -/
  boundary : Tbl Nat := []
  /-- per pseudo-channel: 1,560 MCLK interval in force, 13_memory R526; reset false -/
  short : Tbl Bool := []
  /-- per pseudo-channel: a real-time request since the last boundary, 13_memory R527; reset false -/
  busy : Tbl Bool := []
  /-- open rows by bank (pseudo-channel × 48 + bank), row + 1, 0 closed, 13_memory R529; reset closed -/
  rows : Tbl Nat := []
  /-- scheduled neighbour refreshes by bank: row and instant, 13_memory R529, R530; reset none -/
  near : Tbl (Option (Nat × Nat)) := []
  /-- per stack the instant of the last request, 13_memory R533; reset 0 -/
  lastReq : Tbl Nat := []
  /-- the current load window's number and its real-time bytes, 13_memory R543 RT_PEAK, 12_placement R491; reset 0 -/
  window : Nat := 0
  winBytes : Nat := 0
  /-- the window's best-effort bytes, 13_memory R525; reset 0 -/
  winBest : Nat := 0
  /-- requests that no scheduler has served, oldest first, each with the instant at which it came, 13_memory R522, R524, R532; reset empty -/
  waiting : List (Request × Nat) := []
  /-- per pseudo-channel the LFSR of R529, 32 bits, 13_memory R544; reset 0 (no reset value stated: DESIGN CHOICE, notes/assumptions/5.md) -/
  lfsr : Tbl Nat := []
  deriving DecidableEq, Repr

/-- A copy of the persistent store (R79, R81). -/
structure StoreCopy where
  /-- the values of the P objects, by dictionary key -/
  vals : Tbl Nat
  /-- the bytes of the P objects that are DOMAINs, same keys -/
  imgs : Tbl Bytes
  deriving DecidableEq, Repr

/-- A write of the persistent store under way (R850). -/
structure Saving where
  /-- a RESTORE; else a SAVE -/
  restore : Bool
  /-- the copy that becomes current; none for Default values -/
  copy : Option StoreCopy
  /-- the reason code with which its last flash write ends, a free value drawn at its start (the model's own field, notes/assumptions/130.md) -/
  ending : Nat
  deriving DecidableEq, Repr

/-- Flash, fuses and the boot ROM's progress (22_boot). -/
structure BotRt where
  /-- persistent store: its current copy, 02_dictionary R79; reset no valid copy (DESIGN CHOICE, notes/assumptions/5.md) -/
  store : Option StoreCopy := none
  /-- the SAVE or RESTORE being written, 02_dictionary R850; reset none -/
  saving : Option Saving := none
  /-- DEV.STORE_COUNT with its SAT bit, 02_dictionary R95; reset 0 (no reset value stated: DESIGN CHOICE, notes/assumptions/5.md) -/
  storeCount : Nat := 0
  /-- the factory store by dictionary key, 02_dictionary R79; reset empty, every value 0 (DESIGN CHOICE, notes/assumptions/5.md) -/
  factory : Tbl Nat := []
  /-- the boot control block's slot, 1 bit, 22_boot R814; reset 0 (DESIGN CHOICE, notes/assumptions/5.md) -/
  slot : Nat := 0
  /-- per slot the firmware image, empty for an empty slot, 22_boot R811; reset empty (DESIGN CHOICE, notes/assumptions/5.md) -/
  fw : Tbl Bytes := []
  /-- per slot the patch image, 22_boot R811; reset empty (DESIGN CHOICE, notes/assumptions/5.md) -/
  patch : Tbl Bytes := []
  /-- blown bits of the rollback field, 0 to 64, 22_boot R817; reset 0 (DESIGN CHOICE, notes/assumptions/5.md) -/
  fused : Nat := 0
  /-- revoke fuses, 4 bits, 22_boot R820; reset 0 (DESIGN CHOICE, notes/assumptions/5.md) -/
  revoked : Nat := 0
  /-- key store, per element 32 bytes as a number, 0 absent, 22_boot R821; reset absent (DESIGN CHOICE for the S key, notes/assumptions/5.md) -/
  keys : Tbl Nat := []
  /-- the summary records in flash, newest first, at most 8, 21_faults R802; reset empty -/
  summaries : List Bytes := []
  /-- base microcode version in the ROM, 16 bits, 05_needles R246; reset 0 (DESIGN CHOICE, notes/assumptions/5.md) -/
  base : Nat := 0
  /-- instant from which the times of R808 count, 22_boot R808; reset 0 -/
  since : Nat := 0
  /-- a warm restart, which skips stage 2, 22_boot R809; reset false -/
  warm : Bool := false
  /-- boot has stopped until RST_N, 22_boot R816; reset false -/
  held : Bool := false
  /-- BOOT_ERR_N is driven low, 22_boot R816; reset false, released -/
  errLow : Bool := false
  /-- QSPI pins are high-impedance, 22_boot R816; reset false -/
  qspiOff : Bool := false
  /-- input TEST_MODE, 23_electrical R834; reset low (its pull-down), false -/
  testMode : Bool := false
  deriving DecidableEq, Repr

/-- Which image a block comes from: a chart's, or a skein's of the needle's ring (R183, R267). -/
inductive Img where
  | chart (handle : Nat)
  | skein (seq : Nat)
  deriving DecidableEq, Repr

/-- A decoded block waiting for issue (R185). -/
structure Dec where
  img : Img
  /-- course offset of its header (R146) -/
  off : Nat
  blk : Block
  /-- open loops at the block, NDL.STATUS.LOOP_DEPTH (R256) -/
  loops : Nat
  /-- call-stack entries at the block, NDL.STATUS.CALL_DEPTH (R256) -/
  calls : Nat
  /-- offset of the outermost open LOOP_BEGIN in its skein, 0 for none (R264) -/
  outer : Nat
  /-- the edge of its decode (R185, R856) -/
  edge : Nat
  /-- the ring's next skein and course when it was decoded (R231) -/
  place : Nat × Nat
  /-- it lies in a loop body that the prefetch buffer replays (R216) -/
  replay : Bool
  /-- the course after the loop headers that the decoder passed just before it (R285) -/
  past : Nat
  deriving DecidableEq, Repr

/-- A course held by the prefetch buffer (R215). -/
structure Held where
  img : Img
  course : Nat
  /-- the decoder or the issue stage has taken it once (R216) -/
  used : Bool
  deriving DecidableEq, Repr

/-- What the decoder stands at on one path of a decision: the branch buffer's blocks and its place (R214). -/
structure Ahead where
  queue : List Dec
  cursor : Option (Img × Nat)
  resume : Option (Img × Nat)
  ringSeq : Nat
  ringOff : Nat
  loops : List (Img × Nat × Nat)
  calls : List (Img × Nat)
  wait : Bool
  deriving DecidableEq, Repr

/-- A validated skein in its ring (R271). -/
structure Skein where
  seq : Nat
  data : Bytes
  /-- the edge on which it was validated (R271) -/
  valid : Nat
  deriving DecidableEq, Repr

/-- A skein in transfer (R710, R711). -/
structure SkeinIn where
  session : Nat
  seq : Nat
  courses : Nat
  data : Bytes
  /-- instant of the last fragment (R711) -/
  last : Nat
  /-- the edge of its validation once its last byte has come (R271) -/
  due : Option Nat
  /-- no fragment came for 10 ms: it is discarded, its courses wait for the refusal (R264, R711) -/
  dead : Bool
  deriving DecidableEq, Repr

/-- A strobe of an issued stitch (R311, R312). -/
structure Strobe where
  pin : Nat
  /-- the pin's site, 64 for none (R313) -/
  site : Nat
  /-- 0 strobe 0 or the window, 1 strobe 1 (R365) -/
  slot : Nat
  /-- the code of R296 -/
  act : Nat
  /-- the strobe instant (R311, R312) -/
  t : Nat
  /-- how many CMH and CML samples it takes (R311, R312) -/
  nh : Nat
  nl : Nat
  deriving DecidableEq, Repr

/-- An issued stitch whose strobes are not yet evaluated (R313). -/
structure Stitch where
  /-- R340 -/
  idx : Nat
  /-- the strobes not suppressed, in the order of pins and entries -/
  strobes : List Strobe
  /-- the sites active on the stitch (R181) -/
  active : Nat
  /-- the MATCH pass it belongs to, 0 for none (R165, R167) -/
  pass : Nat
  /-- NOLOG of its block (R148) -/
  nolog : Bool
  tset : Nat
  course : Nat
  deriving DecidableEq, Repr

/-- A failing strobe on its way to the needle (R213). -/
structure Flag where
  due : Nat
  /-- the strobe instant -/
  t : Nat
  /-- sets the sticky fail flag (R168) -/
  sticky : Bool
  /-- the failing site where the fail counts (R341), 64 for none -/
  site : Nat
  /-- the sites active on the stitch (R350 ALL) -/
  active : Nat
  deriving DecidableEq, Repr

/-- A pass of a MATCH (R165). -/
structure Pass where
  n : Nat
  /-- the instant of the last strobe, or of the last stitch where it has none -/
  last : Nat
  strobed : Bool
  /-- stitches of the pass whose strobes are not yet evaluated -/
  waiting : Nat
  /-- the sites with a failing strobe in the pass -/
  failed : Nat
  deriving DecidableEq, Repr

/-- An edge placed at the balls and not yet passed (R290). -/
structure PinEdge where
  t : Nat
  pin : Nat
  /-- a PE_DEN edge; else PE_DRV -/
  den : Bool
  high : Bool
  deriving DecidableEq, Repr

/-- A staged write whose apply edge has not been handled (R57). -/
structure Staged where
  obj : Nat
  /-- the ELEMENT addressed (R89) -/
  el : Nat
  /-- the members addressed -/
  els : Nat
  value : Nat
  due : Nat
  deriving DecidableEq, Repr

/-- An entry of a fail logger's FIFO (R353). -/
structure FailEntry where
  site : Nat
  stitch : Nat
  course : Nat
  tset : Nat
  /-- the pin bits of the FAIL payload (R365) -/
  bits : Nat
  deriving DecidableEq, Repr

/-- A needle beside its objects. -/
structure NdlRt where
  /-- the qualify edge q of the last cast-on, 05_needles R207; reset 0 -/
  q : Nat := 0
  /-- no stitch issued since the stream began or last resumed, 05_needles R218; reset true -/
  fresh : Bool := true
  /-- no stitch issued since the cast-on: NDL.CASTON_WAIT and the CASTON trace record are due with the first, 05_needles R211, R251; reset true -/
  castOn : Bool := true
  /-- the time at the balls before the stitch issued last in which no stitch stands there: from, to, and whether the pins were parked, 07_pin_timing R315; reset none -/
  gap : Option (Nat × Nat × Bool) := none
  /-- no stitch issued since the last resume: the RESUME trace record is due, 05_needles R251; reset false -/
  resumed : Bool := false
  /-- the instant t0 while fresh, else the end of the last stitch, 05_needles R218; reset 0 -/
  t0 : Nat := 0
  /-- the decoder's place: image and course offset, 05_needles R214; reset none -/
  cursor : Option (Img × Nat) := none
  /-- where the needle resumes after the streamed sequence, 06_streaming R183; reset none -/
  resume : Option (Img × Nat) := none
  /-- the next skein and course to decode, 06_streaming R262; reset 0, 1 -/
  ringSeq : Nat := 0
  ringOff : Nat := 1
  /-- the loop stack, innermost first: image, LOOP_BEGIN offset, iterations left; at most 8, 05_needles R217; reset empty -/
  loops : List (Img × Nat × Nat) := []
  /-- the call stack, innermost first, with the loops open at the call; at most 16, 04_charts R160; reset empty -/
  calls : List (Img × Nat) := []
  /-- the decoder waits behind a decision or at the chart's end, 05_needles R214; reset false -/
  wait : Bool := false
  /-- the edge of the last decode, 04_charts R185; reset 0 -/
  decodedAt : Nat := 0
  /-- the course after the loop headers of a skein passed since the last block of the queue, 06_streaming R285; reset 0 -/
  past : Nat := 0
  /-- decoded blocks, oldest first, 04_charts R185; reset empty -/
  queue : List Dec := []
  /-- blocks of LEN 0 whose actions wait for the issue edge of the next stitch, oldest first, 04_charts R155; reset empty -/
  held : List Dec := []
  /-- the branch buffer while a decision waits: TARGET's path and that of the next block, 05_needles R214; reset none -/
  ahead : Option (Ahead × Ahead) := none
  /-- the prefetch buffer, at most 16,384 courses, oldest first, 05_needles R215, R216; reset empty -/
  pre : List Held := []
  /-- the first 64 courses have been read since the cast-on, 05_needles R208, R210; reset false -/
  warm : Bool := false
  /-- address of the microword read last, 13 bits, 05_needles R243; reset 0 -/
  uaddr : Nat := 0
  /-- the microstack, innermost first, at most 4 addresses, 05_needles R243; reset empty -/
  ustack : List Nat := []
  /-- OP and header course of the block stitched last, 05_needles R250; reset 0, 0 -/
  last : Nat × Nat := (0, 0)
  /-- sites whose counted fail flags have reached the needle, 64 bits, 08_capture R350; reset 0 -/
  failed : Nat := 0
  /-- results that a frog has made INVALID, as accumulated: site and RESULT, 08_capture R346; reset empty -/
  before : List (Nat × Nat) := []
  /-- the front block's action has been done, 04_charts R155; reset false -/
  acted : Bool := false
  /-- stitches of the current repetition or pass issued, 04_charts R153; reset 0 -/
  pos : Nat := 0
  /-- repetitions or passes completed, 04_charts R154, R165; reset 0 -/
  reps : Nat := 0
  /-- passes of the MATCH in progress, oldest first, 04_charts R165; reset empty -/
  passes : List Pass := []
  /-- 64 bits; the active sites, 04_charts R165; reset 0 -/
  active : Nat := 0
  /-- MASK_DRIVE and MASK_COMPARE in force, 04_charts R181; reset false -/
  maskDrive : Bool := false
  maskCmp : Bool := false
  /-- raster streams attached, bit s, 04_charts R178; reset 0 -/
  streams : Nat := 0
  /-- event latches by SOURCE × 256 + SELECT: the edge on which the event reached the needle, 05_needles R228; reset none -/
  latches : Tbl (Option Nat) := []
  /-- instants of the failing strobes that the sticky flag holds, 04_charts R168, R169; reset empty -/
  sticky : List Nat := []
  /-- stitches not yet evaluated, oldest first, 07_pin_timing R313; reset empty -/
  strobes : List Stitch := []
  /-- failing strobes on their way, 05_needles R213; reset empty -/
  flags : List Flag := []
  /-- the instant at which the seam in progress ends, and whether it is the bind-off seam, 01_architecture R26; reset none -/
  seam : Option (Nat × Bool) := none
  /-- the end of the BIND_OFF stitch at the balls, and its issue edge, 05_needles R203, R236; reset none -/
  bound : Option (Nat × Nat) := none
  /-- the instant from which a HOLD freezes it, 05_needles R221; reset none -/
  freeze : Option Nat := none
  /-- MARK_ID of a breakpoint whose payload has ended, 05_needles R224; reset none -/
  brk : Option Nat := none
  /-- the next stitch slot is a pause point, 06_streaming R274; reset false -/
  pause : Bool := false
  /-- the instant from which stall time counts, 06_streaming R277; reset none -/
  stallFrom : Option Nat := none
  /-- fs of stall time before that, 06_streaming R277; reset 0 -/
  stallUsed : Nat := 0
  /-- frogs on their way: commit edge and cause, 05_needles R234; reset empty -/
  frogs : List (Nat × Nat) := []
  /-- the edge on which the pins park, 07_pin_timing R316; reset none -/
  park : Option Nat := none
  /-- the park edge of the frog that ended the run, 08_capture R341; reset none -/
  parked : Option Nat := none
  /-- the edge on which results become final, 08_capture R347; reset none -/
  final : Option Nat := none
  /-- a pending host jump: entry, apply edge, an earlier boundary has passed, 05_needles R231, R233; reset none -/
  jump : Option (Nat × Nat × Bool) := none
  /-- handle and segment of the last issued stitch, none for a skein stitch, 05_needles R231; reset none -/
  lastSeg : Option (Nat × Nat) := none
  /-- edges placed and not yet passed, 07_pin_timing R290; reset empty -/
  edges : List PinEdge := []
  /-- 128-bit records of the trace ring, oldest first, 05_needles R250; reset empty -/
  trace : List Nat := []
  /-- records written since the last TIME record, 05_needles R251; reset 0 -/
  traceRun : Nat := 0
  /-- the skeins held in the ring, oldest first, 06_streaming R262; reset empty -/
  ring : List Skein := []
  /-- the skein in transfer, 06_streaming R263; reset none -/
  skeinIn : Option SkeinIn := none
  /-- courses of the front skeins returned to the credit, 06_streaming R264; reset 0 -/
  returned : Nat := 0
  /-- skein and courses of it that have left AHEAD, 06_streaming R285; reset 0, 0 -/
  aheadSeq : Nat := 0
  aheadOff : Nat := 0
  /-- R266 of the current window: its number and bytes written, 06_streaming R266; reset 0, 0 -/
  ringWindow : Nat := 0
  ringBytes : Nat := 0
  /-- the fail logger's FIFO, at most 1,024, 08_capture R353; reset empty -/
  fifo : List FailEntry := []
  /-- the capture buffer holds the words since the last cast-on, 08_capture R374, R390; reset false -/
  capLive : Bool := false
  /-- the stitch after the last capture word, 08_capture R375; reset none -/
  capNext : Option Nat := none
  /-- next datalog SEQ of the capture-index queue, 08_capture R379; reset 0 -/
  dlog : Nat := 0
  dlogRun : Nat := 0
  /-- the instant from which the seam age runs, 10_calibration R440; reset none -/
  ageFrom : Option Nat := none
  deriving DecidableEq, Repr

/-- A site's run beside PTF.SITE_RESULT. -/
structure SiteRt where
  /-- records of the run, 08_capture R353; reset 0 -/
  logged : Nat := 0
  /-- next datalog SEQ and the RUN that it counts in, 08_capture R379, R382; reset 0 -/
  dlog : Nat := 0
  dlogRun : Nat := 0
  deriving DecidableEq, Repr

/-- A committed record of a queue (R357, R363). -/
structure PoolRec where
  bytes : Bytes
  /-- its commit edge (R357) -/
  t : Nat
  /-- it lies in the end cell (R356) -/
  inEnd : Bool
  /-- the stitch it belongs to (R369) -/
  stitch : Nat
  /-- NDL.COUNTS.STARTS of its needle (R379 RUN) -/
  run : Nat
  /-- a cell of it has a double-bit error (R372) -/
  bad : Bool := false
  deriving DecidableEq, Repr

/-- A queue of the Result Queue Pool (R355 to R363). -/
structure Queue where
  /-- the dispatcher's flow: 0 to 63 a site, 64 to 79 a needle, 80 to 87 a unit (R754) -/
  flow : Nat
  /-- committed records not yet released (R356, R357) -/
  recs : List PoolRec := []
  /-- bytes of the front record already released (R359) -/
  part : Nat := 0
  /-- the place in its cell of the first byte not released, the end cell excluded (R358) -/
  pos : Nat := 0
  /-- the committed and released byte counts, 32 bits each, which wrap (R359, R388) -/
  written : Nat := 0
  released : Nat := 0
  /-- the next SEQ (R363) -/
  seq : Nat := 0
  /-- records dropped since the last: count, cause, first stitch (R369) -/
  gap : Nat × Nat × Nat := (0, 0, 0)
  /-- a posted item that has not yet started (R361) -/
  posted : Bool := false
  deriving DecidableEq, Repr

/-- A pin's timing channel beside its objects. -/
structure PinRt where
  /-- 1 bit; PE_DRV after the last placed edge, 07_pin_timing R308; reset 0 -/
  drv : Bool := false
  /-- 1 bit; PE_DEN after the last placed edge, 07_pin_timing R308; reset 0 -/
  den : Bool := false
  /-- instant of the last changing transition of each, 07_pin_timing R310; reset none -/
  drvAt : Option Int := none
  denAt : Option Int := none
  /-- 1 bit; DEN as the waves have it, 04_charts R853; reset 0 -/
  waveDen : Bool := false
  /-- DEN held at 0 by MASK_DRIVE, 04_charts R853; reset false -/
  masked : Bool := false
  /-- 1 bit each; the levels at the balls in the sense before PTF.PIN_CFG's inversion, 07_pin_timing R316; reset 0 -/
  ballDrv : Bool := false
  ballDen : Bool := false
  /-- instants of the last edges that have passed the balls, 07_pin_timing R310; reset none -/
  ballDrvAt : Option Int := none
  ballDenAt : Option Int := none
  /-- PTF_COLLISION raised since cast-on, 07_pin_timing R338; reset false -/
  collided : Bool := false
  deriving DecidableEq, Repr

/-- A level-bus frame on its way (R325, R328). -/
structure LevelFrame where
  /-- the instant at which CS_N falls -/
  start : Nat
  word : Nat
  /-- chip select number in the bank (R323) -/
  dev : Nat
  /-- a frame of LVL.HOST_CMD (R331) -/
  host : Bool
  /-- CS_N has fallen -/
  open' : Bool := false
  deriving DecidableEq, Repr

/-- A dot whose returned pixel is not yet complete (R561). -/
structure Dot where
  /-- index of the stitch that carries the returned sample -/
  idx : Nat
  frame : Nat
  x : Nat
  y : Nat
  deriving DecidableEq, Repr

/-- A raster stream beside its objects. -/
structure RasRt where
  /-- the generator runs, 14_raster R549; reset false -/
  on : Bool := false
  /-- place of the next dot, 14_raster R547; reset 0, 0 -/
  line : Nat := 0
  dot : Nat := 0
  /-- a frame begins with the next stitch, 14_raster R551; reset true -/
  start : Bool := true
  /-- consecutive flywheel frames, 14_raster R554; reset 0 -/
  fly : Nat := 0
  /-- qualified sync edges on their way: arrival edges, 14_raster R552; reset empty -/
  syncs : List Nat := []
  /-- the frame ends after the current line; 1 in the window, 2 the first lock, 0 not, 14_raster R553, R555; reset 0 -/
  cut : Nat := 0
  /-- layers transparent for the current line, 14_raster R559; reset 0 -/
  under : Nat := 0
  /-- RAS_UNDERFLOW raised in this frame, 14_raster R559; reset false -/
  underSeen : Bool := false
  /-- CRC rectangle configurations of the frame, out then returned (0 to 31), 14_raster R569; reset 0 -/
  rects : Tbl Nat := []
  /-- CRC registers of the frame, key as rects: register, whether a dot has come, 14_raster R568; reset none -/
  crcs : Tbl (Option Nat) := []
  /-- dots awaiting their returned pixels, 14_raster R561; reset empty -/
  dots : List Dot := []
  /-- the commit applied at the last sampling edge shows with the next frame, 14_raster R567; reset false -/
  flip : Bool := false
  /-- buffers that left the screen (layer × 256 + buffer), retired at the next frame, 14_raster R564; reset empty -/
  leaving : List Nat := []
  /-- the commit edge of the pending commit, 14_raster R566; reset 0 -/
  commitAt : Nat := 0
  deriving DecidableEq, Repr

/-- A trigger that has been taken (R397, R404). -/
structure Trig where
  /-- the edge on which the stamp was taken -/
  edge : Nat
  /-- the trigger instant -/
  t : Nat
  src : Nat
  deriving DecidableEq, Repr

/-- A complete record (R395, R399). -/
structure TaeRecord where
  /-- the ARM under which it was taken -/
  gen : Nat
  num : Nat
  /-- its slot: the first sample's place in the buffer, and PRE + POST -/
  slot : Nat
  span : Nat
  /-- its first sample's place in the slot's ring, and its number of samples -/
  first : Nat
  count : Nat
  deriving DecidableEq, Repr

/-- An acquisition unit beside its objects. -/
structure TaeRt where
  /-- the edge on which REARM ends, 09_acquisition R410; reset none -/
  rearm : Option Nat := none
  /-- the instant at which the current REARM began, 09_acquisition R398; reset 0 -/
  slotFrom : Nat := 0
  /-- the instant at which the unit entered ARMED, 09_acquisition R411; reset none -/
  armedAt : Option Nat := none
  /-- qualifying events since ARMED, 09_acquisition R407; reset 0 -/
  events : Nat := 0
  /-- the number of the next record, 09_acquisition R395; reset 0 -/
  next : Nat := 0
  /-- qualifying events on their way: edge, instant, source, 09_acquisition R404; reset empty -/
  waiting : List Trig := []
  /-- the trigger of the record in POST, 09_acquisition R397; reset none -/
  trig : Option Trig := none
  /-- HOLDs since the current REARM began: first and last instant without samples, 09_acquisition R413; reset empty -/
  pauses : List (Nat × Option Nat) := []
  /-- complete records whose slots are not being written again, oldest first, 09_acquisition R399, R402; reset empty -/
  records : List TaeRecord := []
  /-- how often ARM has started the unit (the model's own count, which tells the records of one ARM from those of another), 09_acquisition R395; reset 0 -/
  gen : Nat := 0
  /-- the slot being written held a record of this ARM, 09_acquisition R403; reset false -/
  replaces : Bool := false
  /-- TAE_MISSED raised since ARM, 09_acquisition R419; reset false -/
  missed : Bool := false
  deriving DecidableEq, Repr

/-- A received event on its way to the latches (R665). -/
structure CslEvent where
  due : Nat
  byte : Nat
  deriving DecidableEq, Repr

/-- A cascade port beside its objects. -/
structure CslRt where
  /-- events to send: issue edge and byte, 17_cascade R662; reset empty -/
  tx : List (Nat × Nat) := []
  /-- events received: 17_cascade R665; reset empty -/
  rx : List CslEvent := []
  /-- the payload of the frame being sent, 17_cascade R678; reset none -/
  frame : Option Bytes := none
  /-- frames received and not read, oldest first, at most 16, 17_cascade R678; reset empty -/
  inbox : List Bytes := []
  /-- flight time of the first marker of the epoch in fs, some where no marker of this epoch can set LAT_VALID any more, 17_cascade R668, R675; reset none -/
  flight : Option Nat := none
  /-- a manual alignment is open, 17_cascade R672; reset false -/
  manual : Bool := false
  /-- per lane the instant at which a lane test ends, 17_cascade R673; reset none -/
  test : Tbl (Option Nat) := []
  deriving DecidableEq, Repr

/-- A bank's calibration TDC (R423 to R428). -/
structure CalBank where
  /-- place in the round: pin of the bank and quantity, 10_calibration R426; reset 0, 0 -/
  pin : Nat := 0
  q : Nat := 0
  /-- samples of the swatch in progress in 2^-2 ps, oldest first, 10_calibration R425; reset empty -/
  samples : List Int := []
  /-- instant of its first sample, 10_calibration R427; reset 0 -/
  first : Nat := 0
  /-- the edge on which the TDC is ready for its next sample, 10_calibration R423; reset 0 -/
  ready : Nat := 0
  deriving DecidableEq, Repr

/-- R438: a host write of PTF.GAUGE: its instant, and what stood before it in PTF.GAUGE, in CAL.BASE and as anchors. -/
structure GaugeWrite where
  t : Nat
  gauge : Nat
  base : Nat
  anchors : List (Option Int)
  deriving DecidableEq, Repr

/-- The Calibration Engine beside its objects. -/
structure CalRt where
  /-- the eight banks, 10_calibration R423; reset each as CalBank says -/
  banks : Tbl CalBank := []
  /-- anchors by pin × 8 + quantity: sum of the 128 samples in 2^-2 ps, 10_calibration R429; reset none -/
  anchors : Tbl (Option Int) := []
  /-- runs of rejections, same keys, 10_calibration R433; reset 0 -/
  runs : Tbl Nat := []
  /-- per candidate or base or full result the STAMP of the latest completion, same keys, 10_calibration R442; reset empty -/
  ages : Tbl (List (Int × Nat)) := []
  /-- the instant at which full calibration began, 10_calibration R447; reset none -/
  full : Option Nat := none
  /-- the results of phases 1 and 2 so far, 10_calibration R447; reset empty -/
  found : CalResults := []
  /-- the edge of the live commit that PTF.GAUGE holds, with the run of rejections and the UNTRACKED bit before it, same keys, none where the host or full calibration set it,
  10_calibration R438, R439; reset none -/
  live : Tbl (Option (Nat × Nat × Nat)) := []
  /-- the edge of the last commit to the field of PTF.GAUGE, same keys, 10_calibration R436; reset 0 -/
  commits : Tbl Nat := []
  /-- per pin the last host write, 10_calibration R438; reset none -/
  host : Tbl (Option GaugeWrite) := []
  /-- the edge that CAL.COUNT counted last, 10_calibration R439; reset none -/
  counted : Option Nat := none
  deriving DecidableEq, Repr

/-- A stamp: ROOT × 78,125 + FINE × 250 fs after the epoch, input B, falling (R459, R480). -/
structure TdcStamp where
  t : Nat
  b : Bool
  falling : Bool
  deriving DecidableEq, Repr

/-- A user TDC beside its objects. -/
structure TdcRt where
  /-- the last 4,096 stamps, oldest first, 11_time R471; reset empty -/
  stamps : List TdcStamp := []
  /-- per input the edge on which it is ready again, 11_time R460; reset 0, 0 -/
  readyA : Nat := 0
  readyB : Nat := 0
  /-- the A stamp that waits for B, or the chain's last stamp, 11_time R467; reset none -/
  from' : Option Nat := none
  /-- A edges since the chain's last stamp, 11_time R467; reset 0 -/
  span : Nat := 0
  /-- the samples taken, as fractions (numerator, denominator) in the unit of R467, newest first, 11_time R471; reset empty -/
  samples : List (Int × Nat) := []
  /-- FREQUENCY gate: opening instant, its first A edge, its last, edges after the first, 11_time R470; INTERVAL: first the last B stamp that closed no sample, last the B stamp of the last sample, R467; reset none -/
  gate : Option Nat := none
  first : Option Nat := none
  last : Option Nat := none
  edges : Nat := 0
  /-- the instant since which the awaited input has had no event, 11_time R472; reset 0 -/
  since : Nat := 0
  deriving DecidableEq, Repr

/-- A Stitch Cache copy in progress or a switch that waits (R505, R507). -/
structure Copy where
  handle : Nat
  seg : Nat
  /-- the needles whose switch is pending; the edge of completion -/
  needles : Nat
  done : Nat
  deriving DecidableEq, Repr

/-- The Placement Engine beside its objects. -/
structure PlcRt where
  /-- the arming under way: instant by which admission ends, and whether it has passed, 12_placement R486; reset none -/
  arming : Option Nat := none
  /-- resident segments (handle × 2^20 + segment), 12_placement R488, R489; reset empty -/
  resident : List Nat := []
  /-- switches pending, 12_placement R507; reset empty -/
  switches : List Copy := []
  /-- timing sets loaded per needle, 12_placement R487; reset 0 -/
  tsets : Tbl Nat := []
  /-- the segment that migration copies (handle × 2^20 + segment), 12_placement R505; reset none -/
  copying : Option Nat := none
  /-- 16-byte records of PLC.LOG, oldest first, at most 4,096, 12_placement R509; reset empty -/
  log : List Nat := []
  deriving DecidableEq, Repr

/-- The machine: everything the spec gives the engine. -/
structure State where
  /-- commands waiting, first in first out (block model); reset empty -/
  pending : List Instr := []
  /-- fs since power-on (00_scope clock table; notes/assumptions/1.md); reset 0 -/
  now : Nat := 0
  /-- the model's own: counter that the free values are applied to (notes/assumptions/3.md); reset 0, DESIGN CHOICE -/
  freeCtr : Nat := 0
  /-- the value of every object element, by element × 65536 + index; unlisted reads the Default column (R79); reset nothing listed -/
  od : Tbl Nat := []
  /-- the bytes of every DOMAIN element, same keys; unlisted reads empty; reset nothing listed -/
  images : Tbl Bytes := []
  /-- what was sent, oldest first; reset empty -/
  out : List OutMsg := []
  /-- the transition in progress, 03_modes R100; reset none -/
  trans : Option Trans := none
  /-- a SAFE request made in BOOT, 03_modes R851; reset false -/
  safeWanted : Bool := false
  /-- the cores, 20_cores R749; reset each as CoreRt says -/
  cores : Tbl CoreRt := []
  /-- the ready lists in enqueue order, at most 65,536 items, 20_cores R759; reset empty -/
  ready : List Item := []
  /-- per flow the instant from which its next item competes, 20_cores R758; reset 0 -/
  flowFree : Tbl Nat := []
  /-- per flow 64 to 87 the home core of the standing placement, 255 none, 20_cores R754, 12_placement R501; reset 255 -/
  homes : Tbl Nat := []
  /-- the instant at which WDP_FULL was last raised, 20_cores R759; reset none -/
  wdpFullAt : Option Nat := none
  /-- the decision trace ring, 64-bit records, oldest first, 20_cores R760; reset empty -/
  wdpTrace : List Nat := []
  /-- WDP_TRACE_LOST raised since tracing was enabled, 20_cores R762; reset false -/
  wdpLost : Bool := false
  /-- the sources, 20_cores R766; reset each as SrcRt says -/
  srcs : Tbl SrcRt := []
  /-- per group the instant at which its timer ends, 20_cores R768; reset none running -/
  groups : Tbl (Option Nat) := []
  /-- the fault collector, 21_faults; reset as FcrRt says -/
  fcr : FcrRt := {}
  /-- the clock unit, 16_clocks_time; reset as ClkRt says -/
  clk : ClkRt := {}
  /-- the protocol engine, 18_poa_protocol; reset as PoaRt says -/
  poa : PoaRt := {}
  /-- the Ethernet ports, 19_host_link; reset as HlkRt says -/
  hlk : HlkRt := {}
  /-- the supply loops 0 to 31, 15_power_supplies; reset each as LoopRt says -/
  loops : Tbl LoopRt := []
  /-- the converters, 15_power_supplies; reset as AdcRt says -/
  adc : AdcRt := {}
  /-- the power manager, 15_power_supplies; reset as PsmRt says -/
  psm : PsmRt := {}
  /-- the dictionary engine, 02_dictionary; reset as OdeRt says -/
  ode : OdeRt := {}
  /-- requests whose replies are not yet formed, 18_poa R707, R712; reset empty -/
  waiters : List Waiter := []
  /-- results for them that have come: token, reason, and the bytes after MEMBER, 18_poa R707; reset empty -/
  results : List (Token × Nat × Bytes) := []
  /-- frames in execution, the front one standing at its first item, 18_poa R77; reset empty -/
  jobs : List Job := []
  /-- per handle the bytes that count in CHART_STORE.USED, 04_charts R199; reset 0 -/
  chartLen : Tbl Nat := []
  /-- HBM contents: address and byte, rising, no entry 0 (unlisted bytes read 0: DESIGN CHOICE, notes/assumptions/4.md), 13_memory R518; reset nothing listed -/
  mem : List Host.Cell := []
  /-- the HBM controllers, 13_memory; reset as HmsRt says -/
  hms : HmsRt := {}
  /-- staged writes that wait for their apply edges, oldest first, 02_dictionary R57; reset empty -/
  staged : List Staged := []
  /-- the needles, 05_needles; reset each as NdlRt says -/
  ndls : Tbl NdlRt := []
  /-- events on their way to the latches or newly there: latch key, the needles, the edge on which they reach them, 05_needles R209, R228; reset empty -/
  evts : List (Nat × Nat × Nat) := []
  /-- the control store: words 7,168 on, 192 bits each, loaded from the patch, 05_needles R240, R246; reset none loaded -/
  ucode : List Nat := []
  /-- the base microcode is in the control store (words 0 to 7,167, whose contents the boot ROM gives), 05_needles R241; reset false -/
  ubase : Bool := false
  /-- the enabled traps of the loaded microcode patch: trapped word and replacement word, 05_needles R247; reset none -/
  traps : List (Nat × Nat) := []
  /-- the sites' runs, 08_capture R353; reset each as SiteRt says -/
  sites : Tbl SiteRt := []
  /-- the queues of the pool by number, 08_capture R355; reset none placed -/
  queues : Tbl (Option Queue) := []
  /-- the pins' timing channels, 07_pin_timing; reset each as PinRt says -/
  pins : Tbl PinRt := []
  /-- per bank the level-bus frames on their way, oldest first, 07_pin_timing R328; reset empty -/
  levelBus : Tbl (List LevelFrame) := []
  /-- the instant from which a bank's next frame may start, 07_pin_timing R325; reset 0 -/
  levelFree : Tbl Nat := []
  /-- the raster streams, 14_raster; reset each as RasRt says -/
  ras : Tbl RasRt := []
  /-- the acquisition units, 09_acquisition; reset each as TaeRt says -/
  tae : Tbl TaeRt := []
  /-- the cascade ports, 17_cascade; reset each as CslRt says -/
  csl : Tbl CslRt := []
  /-- the Calibration Engine, 10_calibration; reset as CalRt says -/
  cal : CalRt := {}
  /-- the user TDCs, 11_time_measurement; reset each as TdcRt says -/
  tdc : Tbl TdcRt := []
  /-- the Placement Engine, 12_placement; reset as PlcRt says -/
  plc : PlcRt := {}
  /-- flash, fuses and boot, 22_boot; reset as BotRt says -/
  bot : BotRt := {}
  deriving DecidableEq, Repr

/-- Why the machine stops in a fault. -/
inductive Fault where
  /-- 13_memory R518: an HBM access to an address with A[35:34] = 3, which no stack holds. Raised by MEMORY_REQUEST and SCRUB. Safe: the machine stops. -/
  | noSuchAddress (addr : Nat)
  deriving DecidableEq, Repr

/-- Why a command has no meaning. -/
inductive Refusal where
  /-- The command has no meaning in the model yet; the dispatch alone answers it. Safe: the machine stops. -/
  | notModelled (mnemonic : String)
  deriving DecidableEq, Repr

/-- The machine right after power is applied: mode COLD (DEV.MODE reads code 0), every object at its Default, nothing waiting (R79, R98, R108). -/
def State.reset : State := {}

end Sys2Proof.Machine
end

