-- ==== Sys2Proof/Machine/Ops.lean ====
section
/-! DEFINITION. The operations that every family shares: reading and writing the dictionary's store, fields, counters, the clocks' edges, network time, the mode, outputs, free values. -/
namespace Sys2Proof.Machine

/-- Where an element's value is kept: the index in the low 16 bits. -/
def odKey (o el : Nat) : Nat := el * 65536 + o

/-- R79: an unlisted element reads as its object's Default. -/
def odDflt (k : Nat) : Nat := objDflt (k % 65536)

/-- The value an element holds. -/
def State.rd (s : State) (o el : Nat) : Nat := Tbl.get odDflt s.od (odKey o el)

/-- The state with an element's value replaced. -/
def State.wr (s : State) (o el v : Nat) : State := { s with od := Tbl.put odDflt s.od (odKey o el) v }

/-- A field of an element's record. -/
def State.fld (s : State) (o el : Nat) (f : Fld) : Nat := f.get (s.rd o el)

/-- The state with one field of an element's record replaced. -/
def State.setFld (s : State) (o el : Nat) (f : Fld) (x : Nat) : State := s.wr o el (f.put (s.rd o el) x)

/-- The state with the same field set in several elements. -/
def State.wrAll (s : State) (o : Nat) (els : List Nat) (v : Nat) : State := els.foldl (fun s el => s.wr o el v) s

/-- R11, kind SAT: n more in a counter field that stops at its largest value. Its SAT bit sets with the increment that would pass that value, not on first reaching it:
the spec does not say which (DESIGN CHOICE, notes/assumptions/50.md). -/
def State.count (s : State) (o el : Nat) (f sat : Fld) (n : Nat) : State :=
  let x := s.fld o el f + n
  if x < 2 ^ f.w then s.setFld o el f x
  else (s.setFld o el f (2 ^ f.w - 1)).setFld o el sat 1

/-- R11, kind SAT without a SAT bit. -/
def State.countNoSat (s : State) (o el : Nat) (f : Fld) (n : Nat) : State :=
  s.setFld o el f (min (s.fld o el f + n) (2 ^ f.w - 1))

/-- R11, a 48-bit counter in a U64 with SAT in bit 63. -/
def State.count64 (s : State) (o el n : Nat) : State := s.count o el ⟨0, 48⟩ ⟨63, 1⟩ n

/-- A field read as a signed number. -/
def State.fldS (s : State) (o el : Nat) (f : Fld) : Int := toSigned f.w (s.fld o el f)

/-- The bytes of a DOMAIN element. -/
def State.img (s : State) (o el : Nat) : Bytes := Tbl.get (fun _ => []) s.images (odKey o el)

/-- The state with the bytes of a DOMAIN element replaced. -/
def State.setImg (s : State) (o el : Nat) (b : Bytes) : State :=
  { s with images := Tbl.put (fun _ => []) s.images (odKey o el) b }

/-- The counter that free values are applied to, moved on (notes/assumptions/3.md). -/
def State.draw (s : State) : State := { s with freeCtr := s.freeCtr + 1 }

/-- One more output. -/
def State.emit (s : State) (m : OutMsg) : State := { s with out := s.out ++ [m] }

/-- The state with the clocks' runtime state replaced. -/
def State.setClk (s : State) (c : ClkRt) : State := { s with clk := c }

/-- The state with the placement's runtime state replaced. -/
def State.setPlc (s : State) (p : PlcRt) : State := { s with plc := p }

/-- The state with the transition in progress replaced (R96). -/
def State.setTrans (s : State) (t : Option Trans) : State := { s with trans := t }

/-- Time passes to an instant, if that lies ahead (notes/assumptions/1.md). -/
def State.reach (s : State) (t : Nat) : State := { s with now := max s.now t }

/-! Clock edges (R623): every divided clock counts from the edge at which the PLL locked. -/

/-- The first edge of a clock of period p at or after t. -/
def State.edgeAt (s : State) (p t : Nat) : Nat := s.clk.lock + ceilDiv (t - s.clk.lock) p * p

/-- The last edge of a clock of period p at or before t. -/
def State.edgeBefore (s : State) (p t : Nat) : Nat := s.clk.lock + (t - s.clk.lock) / p * p

/-- How many edges of a clock of period p lie after lock and at or before t. -/
def State.edges (s : State) (p t : Nat) : Nat := (t - s.clk.lock) / p

/-- R57: the apply edge of a write that commits now: the first VCLK edge at least 16 VCLK later. -/
def State.applyEdge (s : State) : Nat := s.edgeAt vclkFs (s.now + 16 * vclkFs)

/-- R629: the epoch grid edge, the last grid edge at or before E. -/
def State.epochGrid (s : State) : Nat := s.edgeBefore tclkFs s.clk.epoch

/-- R629: the epoch phase. -/
def State.epochPhase (s : State) : Nat := s.clk.epoch - s.epochGrid

/-- R218: the first edge, at or after t, of the period clock counted from E. -/
def State.periodEdge (s : State) (p t : Nat) : Nat :=
  if p = 0 then t else s.clk.epoch + ceilDiv (t - s.clk.epoch) p * p

/-- R640: HT at an instant: TCLK edges after the epoch grid edge, 64 bits. -/
def State.htAt (s : State) (t : Nat) : Nat := ((t - s.epochGrid) / tclkFs) % 2 ^ 64

/-- R643: NT at an instant, in units of 2^-32 ns. -/
def State.ntAt (s : State) (t : Nat) : Nat :=
  s.clk.ntBase + s.rd Obj.ptpIncrement 0 * (s.edges tclkFs t - s.clk.ntEdge)

/-- R67, R643: the STAMP of an NT value: the upper 16 bits of the fraction, nanoseconds, seconds. -/
def stampOf (nt : Nat) : Nat :=
  let ns := nt / 2 ^ 32
  (nt / 2 ^ 16) % 2 ^ 16 + (ns % 1000000000) * 2 ^ 16 + ((ns / 1000000000) % 2 ^ 48) * 2 ^ 48

/-- The NT value of a STAMP, in units of 2^-32 ns. -/
def ofStamp (st : Nat) : Nat :=
  (st % 2 ^ 16) * 2 ^ 16 + ((st / 2 ^ 16) % 2 ^ 32 + (st / 2 ^ 48) * 1000000000) * 2 ^ 32

/-- The STAMP of an instant. -/
def State.stampAt (s : State) (t : Nat) : Nat := stampOf (s.ntAt t)

/-- The STAMP of now. -/
def State.stamp (s : State) : Nat := s.stampAt s.now

/-- R641: the NS32 value of an instant. -/
def State.ns32At (s : State) (t : Nat) : Nat := (s.ntAt t / 2 ^ 32) % 2 ^ 32

/-- R643: NT counted afresh from the last TCLK edge, so that a new increment takes force from here. -/
def State.rebaseNt (s : State) : State :=
  { s with clk := { s.clk with ntBase := s.ntAt s.now, ntEdge := s.edges tclkFs s.now } }

/-! The mode (R96 to R98). -/

/-- The codes of R98. -/
inductive Mode where
  | cold | boot | safe | idle | doze | armed | run | hold | measure | calibrate | ridethru | dump
  deriving DecidableEq, Repr

/-- R98. -/
def Mode.code : Mode → Nat
  | .cold => 0 | .boot => 1 | .safe => 2 | .idle => 3 | .doze => 4 | .armed => 5 | .run => 6 | .hold => 7
  | .measure => 8 | .calibrate => 9 | .ridethru => 10 | .dump => 11

/-- R98; codes above 11 do not occur. -/
def Mode.ofCode : Nat → Mode
  | 0 => .cold | 1 => .boot | 2 => .safe | 3 => .idle | 4 => .doze | 5 => .armed | 6 => .run | 7 => .hold
  | 8 => .measure | 9 => .calibrate | 10 => .ridethru | _ => .dump

/-- The mode the engine is in. -/
def State.mode (s : State) : Mode := Mode.ofCode (s.rd Obj.devMode 0)

/-- R96, R97, R631: the edge at which DEV.MODE changes: MODE_STAMP, PREV_MODE and MODE_REASON change with it; leaving SAFE or IDLE disarms SYNC. -/
def State.enter (s : State) (m : Mode) (prev reason : Nat) : State :=
  let s := if (s.mode = .safe ∨ s.mode = .idle) ∧ s.mode ≠ m then (s.setFld Obj.clkSyncStatus 0 F.clkSyncStatusArmed 0).wr Obj.clkSyncArm 0 0 else s
  let s := (((s.wr Obj.devMode 0 m.code).wr Obj.devModeStamp 0 s.stamp).wr Obj.devPrevMode 0 prev).wr Obj.devModeReason 0 reason
  if m = .armed then (s.setFld Obj.rqpPoolStatus 0 F.rqpPoolStatusMinFree (s.fld Obj.rqpPoolStatus 0 F.rqpPoolStatusFreeCells)).wr Obj.hmsLoad 0 0 else s

/-- R85: the reason codes. -/
def rOk : Nat := 0
def rNoObj : Nat := 1
def rNoElem : Nat := 2
def rAccess : Nat := 3
def rMode : Nat := 4
def rRange : Nat := 5
def rType : Nat := 6
def rBusy : Nat := 7
def rMixed : Nat := 8
def rAuth : Nat := 9
def rPlace : Nat := 10
def rSeq : Nat := 11
def rInUse : Nat := 12
def rFormat : Nat := 13
def rSign : Nat := 14
def rFault : Nat := 15

/-- R848: the first reason, in the order of R848, of those that apply. -/
def firstReason (l : List (Bool × Nat)) : Nat :=
  let p := fun r => l.any (fun x => x.1 && x.2 == r)
  if p rBusy then rBusy else if p rInUse then rInUse else if p rMode then rMode else if p rNoElem then rNoElem
  else if p rRange then rRange else if p rPlace then rPlace else if p rFormat then rFormat
  else if p rSign then rSign else ((l.find? (·.1)).map (·.2)).getD rOk

end Sys2Proof.Machine
end

