-- ==== Sys2Proof/Machine/Link.lean ====
section
/-! DEFINITION. Building POA frames and items (R686 to R688, R697, R714) and sending frames through an Ethernet sub-port (R730, R731, R734, R737). -/
namespace Sys2Proof.Machine

/-- A 16-byte IPv6 form of an IPv4 address: ::ffff:a.b.c.d (R722). -/
def isV4 (addr : Nat) : Bool := addr / 2 ^ 32 == 0xFFFF

/-- A field held in network order (R744): the number that its bytes spell, first byte highest. -/
def netVal (n v : Nat) : Nat := ofBE (toLE n v)

/-- Whether two addresses of so many bits share a prefix. -/
def samePrefix (bits p a b : Nat) : Bool := a / 2 ^ (bits - p) == b / 2 ^ (bits - p)

/-- R728, R742: the element of a sub-port. -/
def subEl (port sub : Nat) : Nat := port * 256 + sub

/-- R730: whether a frame to an address can be sent from a sub-port: inside its prefix, on the link, or through a gateway. -/
def State.routed (s : State) (port sub addr : Nat) : Bool :=
  let el := subEl port sub
  if isV4 addr then
    let own := netVal 4 (s.fld Obj.hlkIpv4 el F.hlkIpv4Address)
    samePrefix 32 (s.fld Obj.hlkIpv4 el F.hlkIpv4Prefix) own (addr % 2 ^ 32) || s.fld Obj.hlkIpv4 el F.hlkIpv4Gateway != 0
  else
    let own := netVal 16 (s.fld Obj.hlkIpv6 el F.hlkIpv6Address)
    addr / 2 ^ 64 == 0xFE80000000000000 ||
    (own != 0 && samePrefix 128 (s.fld Obj.hlkIpv6 el F.hlkIpv6Prefix) own addr) ||
    s.fld Obj.hlkIpv6 el F.hlkIpv6Gateway != 0

/-- HLK.COUNTS field i of a sub-port, one more (R744, R745). -/
def State.hlkCount (s : State) (port sub i : Nat) : State :=
  s.count Obj.hlkCounts (subEl port sub) ⟨48 * i, 48⟩ ⟨576 + i, 1⟩ 1

/-- SEC.POA_COUNTS field i, one more (R722, R723). -/
def State.poaCount (s : State) (i : Nat) : State :=
  s.count Obj.secPoaCounts 0 ⟨48 * i, 48⟩ ⟨384 + i, 1⟩ 1

/-- R734: the PCP of a transmit class. -/
def State.txPcp (s : State) (port : Nat) (high : Bool) : Nat :=
  s.fld Obj.hlkPrioCfg port (if high then F.hlkPrioCfgTxPcpHigh else F.hlkPrioCfgTxPcpBulk)

/-- R733: the C-tag, VID and PCP, of a frame sent from a sub-port; none where it is sent untagged. -/
def State.txTag (s : State) (port sub pcp : Nat) : Option (Nat × Nat) :=
  let vid := s.fld Obj.hlkVlan (subEl port sub) F.hlkVlanVid
  if vid ≠ 0 ∨ s.fld Obj.hlkVlan (subEl port sub) F.hlkVlanTxTag = 1 then some (vid, pcp) else none

/-- R730, R731, R737: a POA frame sent to a session's address. It is dropped where the sub-port is down or has no route,
held where its class is paused, and leaves at once otherwise. `report` is the session whose report it is, 0 for a reply. -/
def State.transmit (s : State) (t port sub addr udp : Nat) (high : Bool) (report : Nat) (b : Bytes) : State :=
  let pcp := s.txPcp port high
  let m := OutMsg.frame t port sub addr udp (s.txTag port sub pcp) b
  if s.fld Obj.hlkLinkStatus (subEl port sub) F.hlkLinkStatusState != 3 || !s.routed port sub addr then s.hlkCount port sub 11
  else if (Tbl.get (fun _ => none) s.hlk.paused (subEl port sub * 8 + pcp)).isSome then
    { s with hlk := { s.hlk with held := s.hlk.held ++ [⟨port, sub, pcp, report, m⟩] } }
  else ((s.emit m).hlkCount port sub 1).poaCount 1

/-- R717: how many report frames of a session wait. -/
def State.reportsWaiting (s : State) (sess : Nat) : Nat := (s.hlk.held.filter (fun h => h.report == sess)).length

/-- Bytes padded with zeros to a multiple of 4 (R687). -/
def pad4 (b : Bytes) : Bytes := b ++ List.replicate ((4 - b.length % 4) % 4) 0#8

/-- R687: an item of a service code and its fields after the prefix. -/
def mkItem (code : Nat) (body : Bytes) : Bytes :=
  let p := pad4 body
  BitVec.ofNat 8 code :: 0#8 :: toBE 2 (p.length + 4) ++ p

/-- R688: a reply item: REASON, MEMBER and the fields that follow them. -/
def mkReply (service reason member : Nat) (body : Bytes) : Bytes :=
  mkItem (service + 0x80) (toBE 2 reason ++ toBE 2 member ++ body)

/-- R686: a frame with a zero tag. -/
def mkFrame (kind flags sess seq : Nat) (items : List Bytes) : Bytes :=
  let body := items.flatten
  [0x50#8, 0x4F#8, 1#8, BitVec.ofNat 8 kind, BitVec.ofNat 8 flags, BitVec.ofNat 8 items.length] ++ toBE 2 sess ++ toBE 4 seq ++
    toBE 2 (24 + body.length) ++ [0#8, 0#8] ++ List.replicate 8 0#8 ++ body

/-- R697: the frame with its tag; a session without a key keeps the zero tag. -/
def tagFrame (key : Bytes) (f : Bytes) : Bytes :=
  if key.isEmpty then f else f.take 16 ++ (hmacSha256 key (f.take 16 ++ List.replicate 8 0#8 ++ f.drop 24)).take 8 ++ f.drop 24

/-- A session by its number. -/
def State.session (s : State) (n : Nat) : Option Session := Tbl.get (fun _ => none) s.poa.sessions n

/-- The state with a session's slot replaced. -/
def State.setSession (s : State) (n : Nat) (x : Option Session) : State :=
  { s with poa := { s.poa with sessions := Tbl.put (fun _ => none) s.poa.sessions n x } }

/-- R714: the fields of a STAMP in a report: seconds, nanoseconds, fraction. -/
def stampBE (st : Nat) : Bytes := toBE 6 (st / 2 ^ 48) ++ toBE 4 ((st / 2 ^ 16) % 2 ^ 32) ++ toBE 2 (st % 2 ^ 16)

/-- R697, R718: the report frame of an item, which carries the session's next report sequence number. -/
def State.reportFrame (s : State) (sess : Nat) (item : Bytes) : Bytes :=
  match s.session sess with
  | none => []
  | some x => tagFrame x.key (mkFrame 3 0 sess x.rseq [item])

/-- R717, R731: a report frame sent to the session that holds the subscription, in the high-priority class (R704). -/
def State.sendReport (s : State) (sess : Nat) (f : Bytes) : State :=
  match s.session sess with
  | none => s
  | some x => s.transmit s.now x.port x.sub x.addr x.udp true sess f

/-- R717, R718: a report item formed and sent; it takes the session's next report sequence number. -/
def State.report (s : State) (sess : Nat) (item : Bytes) : State :=
  match s.session sess with
  | none => s
  | some x => (s.setSession sess (some { x with rseq := (x.rseq + 1) % 2 ^ 32 })).sendReport sess (s.reportFrame sess item)

end Sys2Proof.Machine
end

