-- ==== Sys2Proof/Machine/Flags.lean ====
section
/-! DEFINITION. Events and faults: the interrupt sources (R763 to R772), the EVENT reports that count their occurrences (R715), and the fault collector (R780 to R796). -/
namespace Sys2Proof.Machine

/-! Roles and routing. -/

/-- A core's runtime state. -/
def State.core (s : State) (n : Nat) : CoreRt := Tbl.get (fun _ => {}) s.cores n

/-- The state with a core's runtime state replaced. -/
def State.setCore (s : State) (n : Nat) (c : CoreRt) : State := { s with cores := Tbl.put (fun _ => {}) s.cores n c }

/-- CCC.STATE of a core (R775). -/
def State.coreState (s : State) (n : Nat) : Nat := s.rd Obj.cccState n

/-- R749: SYSTEM_0. -/
def State.system0 (s : State) : Nat := s.fld Obj.cccRoles 0 F.cccRolesSystem0

/-- R749: SYSTEM_1. -/
def State.system1 (s : State) : Nat := s.fld Obj.cccRoles 0 F.cccRolesSystem1

/-- R783: the reaction byte of a source. -/
def State.reactionByte (s : State) (src : Nat) : Nat := Fld.get ⟨8 * src, 8⟩ (s.rd Obj.fcrReaction 0)

/-- The class of a fault source (0 C, 1 U, 2 F), none for an event. -/
def faultClass (src : Nat) : Option Nat := (faultClasses.find? (fun p => p.1 == src)).map (·.2)

/-- R765: a fault source whose reaction includes IRQ_FAST is fast class. -/
def State.isFast (s : State) (src : Nat) : Bool := (faultClass src).isSome && bit (s.reactionByte src) 1

/-- R764: the core that serves a source. Doorbells and timers of groups 24 and 25 belong to their core (R763). -/
def State.srcTarget (s : State) (src : Nat) : Nat :=
  if 384 ≤ src ∧ src < 416 then src % 16
  else if src < 48 || s.isFast src then s.system0 else s.system1

/-- R764: the sources that firmware enables. -/
def srcEnabled (src : Nat) : Bool := evAll.contains src || (384 ≤ src && src < 416)

/-- A source's runtime state. -/
def State.src (s : State) (n : Nat) : SrcRt := Tbl.get (fun _ => {}) s.srcs n

/-- The state with a source's runtime state replaced. -/
def State.setSrc (s : State) (n : Nat) (x : SrcRt) : State := { s with srcs := Tbl.put (fun _ => {}) s.srcs n x }

/-- IEC.PENDING of a source. -/
def State.srcPending (s : State) (n : Nat) : Bool := bit (s.rd Obj.iecPending 0) n

/-- IEC.COUNTS field i, one more. -/
def State.iecCount (s : State) (i : Nat) : State := s.count Obj.iecCounts 0 ⟨48 * i, 48⟩ ⟨144 + i, 1⟩ 1

/-! Deliveries (R767 to R770). -/

/-- R769: a core is IDLE. -/
def State.coreIdle (s : State) (n : Nat) : Bool := s.coreState n == 2

/-- R769, R770: a source delivered to its core at an instant: it wakes an IDLE core; a masked core enters no handler, an unmasked one enters its handler 9 FCLK (fast) or 30 FCLK later. -/
def State.deliver (s : State) (src t : Nat) : State :=
  let n := s.srcTarget src
  let fast := s.isFast src
  let c := s.core n
  let idle := s.coreIdle n
  let s := s.iecCount 0
  let s := if idle then (s.iecCount 2).wr Obj.cccState n 3 else s
  if c.mask then s
  else s.setCore n { c with due := c.due ++ [⟨src, fast, t + (if fast then 9 else 30) * fclkFs⟩] }

/-- R763: the group of a source. -/
def srcGroup (src : Nat) : Nat := src / 16

/-- HOLDOFF of a group, in FCLK. -/
def State.holdoff (s : State) (g : Nat) : Nat := Fld.get ⟨32 * g, 24⟩ (s.rd Obj.iecGroupCfg 0)

/-- KIND of a group: true for DATA. -/
def State.groupData (s : State) (g : Nat) : Bool := bit (s.rd Obj.iecGroupCfg 0) (32 * g + 24)

/-- The instant at which a group's timer ends, none while it does not run. -/
def State.groupTimer (s : State) (g : Nat) : Option Nat := Tbl.get (fun _ => none) s.groups g

/-- The state with a group's timer replaced. -/
def State.setGroup (s : State) (g : Nat) (t : Option Nat) : State := { s with groups := Tbl.put (fun _ => none) s.groups g t }

/-- The pending normal-class sources of a group. -/
def State.groupPending (s : State) (g : Nat) : List Nat := ((List.range 16).map (16 * g + ·)).filter (fun n => s.srcPending n && !s.isFast n)

/-- R768: delivery of every pending normal-class source of a group; the timer stops. -/
def State.deliverGroup (s : State) (g t : Nat) : State :=
  (s.groupPending g).foldl (fun s n => s.deliver n t) (s.setGroup g none)

/-- R768: what follows the latch of a normal-class source. -/
def State.moderate (s : State) (src t : Nat) : State :=
  let g := srcGroup src
  if s.holdoff g == 0 || (!s.groupData g && s.coreIdle (s.srcTarget src)) then s.deliver src t
  else if (s.groupTimer g).isSome then s
  else s.setGroup g (some (t + s.holdoff g * fclkFs))

/-! EVENT reports (R715). -/

/-- A subscription by its number. -/
def State.sub (s : State) (n : Nat) : Option Sub := Tbl.get (fun _ => none) s.poa.subs n

/-- The state with a subscription replaced. -/
def State.setSub (s : State) (n : Nat) (x : Option Sub) : State :=
  { s with poa := { s.poa with subs := Tbl.put (fun _ => none) s.poa.subs n x } }

/-- R714: the EVENT report item of a source's hold-off. -/
def eventItem (sub src : Nat) (h : EvHold) : Bytes :=
  mkItem 0x21 (toBE 2 sub ++ toBE 2 src ++ toBE 4 h.count ++ stampBE h.first ++ stampBE h.lastSt)

/-- R715: the pending EVENT report of one source of a subscription is formed, if the report queue has room (R717). -/
def State.formEvent (s : State) (n src t : Nat) (x : Sub) : State :=
  let h := Tbl.get (fun _ => {}) x.evs src
  if s.reportsWaiting x.session ≥ 256 then s
  else (s.setSub n (some { x with evs := Tbl.put (fun _ => {}) x.evs src { last := some t } })).report x.session (eventItem n src h)

/-- R715: one occurrence for one EVENT subscription. -/
def State.eventFor (s : State) (src t st n : Nat) : State :=
  match s.sub n with
  | none => s
  | some x =>
    if x.kind == 2 && x.ix ≤ src && src ≤ x.el then
      let h := Tbl.get (fun _ => {}) x.evs src
      let h' : EvHold := { h with count := min (h.count + 1) (2 ^ 32 - 1), first := if h.count == 0 then st else h.first, lastSt := st }
      let x' := { x with evs := Tbl.put (fun _ => {}) x.evs src h' }
      let s' := s.setSub n (some x')
      match h.last with
      | some l => if t < l + x.interval || h.count != 0 then s' else s'.formEvent n src t x'
      | none => if h.count != 0 then s' else s'.formEvent n src t x'
    else s

/-- R715: an occurrence counted for every EVENT subscription. Sources of groups 24 and 25 and reserved sources produce no report (R763). -/
def State.eventSubs (s : State) (src t st : Nat) : State :=
  if evAll.contains src then (s.poa.subs.map (·.1)).foldl (fun s n => s.eventFor src t st n) s else s

/-- R766: the FCLK edge on which a source that rises now is latched. -/
def State.latchEdge (s : State) : Nat := s.edgeAt fclkFs s.now

/-- R766: the latch edge of a source: pending, occurrence count, LAST and FIRST; then R767 and R768. -/
def State.latch (s : State) (src : Nat) : State :=
  let t := s.latchEdge
  let st := s.stampAt t
  let x := s.src src
  let x' : SrcRt := { x with count := min (x.count + 1) (2 ^ 32 - 1), first := if x.count == 0 then st else x.first, last := st }
  let s := (s.setSrc src x').wr Obj.iecPending 0 (setBit (s.rd Obj.iecPending 0) src true)
  let s := s.eventSubs src t st
  if s.isFast src then s.deliver src t else s.moderate src t

/-! The fault collector. -/

/-- FCR.COUNTS field i, n more. -/
def State.fcrCount (s : State) (i n : Nat) : State := s.count Obj.fcrCounts 0 ⟨48 * i, 48⟩ ⟨192 + i, 1⟩ n

/-- R780: whether a fault is active. -/
def State.active (s : State) (src : Nat) : Bool := bit (s.rd Obj.fcrActive 0) src

/-- R781: whether a reaction byte holds SITE_INVALID, NEEDLE_STOP, SAFE or DUMP. -/
def grave (b : Nat) : Bool := (b / 4) % 16 != 0

/-- R781: the fault state. -/
def State.faultState (s : State) : Bool :=
  (faultClasses.map (·.1)).any (fun f => s.active f && grave (s.reactionByte f))

/-- R804: a FCR.FIRST or FCR.LOG entry. -/
def faultEntry (src cls inst master access addr st : Nat) (inj : Bool) : Nat :=
  src + cls * 2 ^ 16 + 2 ^ 18 + inj.toNat * 2 ^ 20 + master * 2 ^ 24 + access * 2 ^ 32 + inst * 2 ^ 48 + addr * 2 ^ 64 + st * 2 ^ 128

/-- R790: capture in FCR.FIRST: an empty entry takes the fault; a fault of the same class on the same edge keeps the lowest source and sets MULTI. -/
def State.captureFirst (s : State) (cls src st entry : Nat) : State :=
  let f : Fld := ⟨256 * cls, 256⟩
  let cur := s.fld Obj.fcrFirst 0 f
  if !bit cur 18 then s.setFld Obj.fcrFirst 0 f entry
  else if Fld.get ⟨128, 96⟩ cur == st && Fld.get F.fcrFirstSource cur != src then
    s.setFld Obj.fcrFirst 0 f (setBit (if src < Fld.get F.fcrFirstSource cur then entry else cur) 19 true)
  else s

/-- R639: a pending timed start is dropped. -/
def State.dropTimedStart (s : State) : State :=
  if s.clk.startQ.isSome then
    (({ s with clk := { s.clk with startQ := none } }).setFld Obj.clkStartStatus 0 F.clkStartStatusState 3).latch Ev.clkStartDropped
  else s

/-- R788: the reason of an entry to SAFE by a set of faults that meet on one edge: FCR_PARITY, else THERMAL, else FAULT_SAFE. -/
def safeReason (src : Nat) : Nat := if src == Ev.fcrParity then 9 else if src == Ev.tempLimit then 10 else 7

/-- R788: the reason that prevails. -/
def worseReason (a b : Nat) : Nat := if a == 9 || b == 9 then 9 else if a == 10 || b == 10 then 10 else a

/-- R786, R787, R116: an entry to SAFE or DUMP set on its way; DUMP prevails over SAFE. -/
def State.scheduleEntry (s : State) (t : Nat) (dump : Bool) (reason src : Nat) : State :=
  let e := match s.fcr.entry with
    | none => (t, dump, reason, src)
    | some (t0, d0, r0, s0) => if d0 then (t0, d0, r0, s0) else if dump then (min t0 t, true, reason, src)
        else (t0, false, if t0 == t then worseReason r0 reason else r0, s0)
  { s with fcr := { s.fcr with entry := some e } }

/-- R784 to R788: the reaction of a fault with a reaction byte; `scope` names the needles of the fault's instance, none for an engine-wide one;
`own` is set where the checker lies in a needle's own path, which stops on the edge of detection. -/
def State.react (s : State) (src b : Nat) (scope : Option Nat) (own : Bool) : State :=
  if s.mode == .dump then s else
  let t := s.now
  let s := if bit b 2 || bit b 3 then
      let r : Reaction := ⟨src, scope, bit b 2, bit b 3, if own then t else s.edgeAt vclkFs (t + 8 * fclkFs)⟩
      { s with fcr := { s.fcr with reactions := s.fcr.reactions ++ [r] } }
    else s
  if bit b 5 then s.scheduleEntry (s.edgeAt fclkFs (t + 4 * fclkFs)) true 8 src
  else if bit b 4 && s.mode != .boot && s.mode != .cold then
    s.scheduleEntry (s.edgeAt fclkFs (t + 4 * fclkFs)) false (safeReason src) src
  else s

/-- R780 to R782, R790, R791, R796: a fault is raised: latched, logged, counted, captured, made active, and its reaction starts. -/
def State.raise (s : State) (src inst master access addr : Nat) (scope : Option Nat) (own : Bool) : State :=
  match faultClass src with
  | none => s.latch src
  | some cls =>
    let st := s.stampAt s.latchEdge
    let e := faultEntry src cls inst master access addr st s.fcr.injected
    let s := s.latch src
    let s := { s with fcr := { s.fcr with log := lastN 1024 (s.fcr.log ++ [e]), injected := false } }
    let s := (s.fcrCount cls 1).captureFirst cls src st e
    let s := if cls == 0 then s else
      let s := s.wr Obj.fcrActive 0 (setBit (s.rd Obj.fcrActive 0) src true)
      let seen := Tbl.get (fun _ => []) s.fcr.insts src
      { s with fcr := { s.fcr with raised := Tbl.put (fun _ => 0) s.fcr.raised src s.now,
                                   insts := Tbl.put (fun _ => []) s.fcr.insts src (if seen.contains inst then seen else seen ++ [inst]) } }
    let s := if s.faultState then s.dropTimedStart else s
    s.react src (s.reactionByte src) scope own

/-- A fault with an instance that covers every needle and no access. -/
def State.raiseAll (s : State) (src inst : Nat) : State := s.raise src inst 0xFF 0 0 none false

/-- One more instance noted for an active fault. -/
def State.noteInst (s : State) (src i : Nat) : State :=
  let seen := Tbl.get (fun _ => []) s.fcr.insts src
  { s with fcr := { s.fcr with insts := Tbl.put (fun _ => []) s.fcr.insts src (if seen.contains i then seen else seen ++ [i]) } }


/-! Injection (R795, R796, R858). -/

/-- The sources of a checker: a SECDED checker's pair (C, U), or the one source twice. -/
def checkerPair (src : Nat) : Option (Nat × Nat) :=
  if src == Ev.hmsEccC || src == Ev.hmsEccU then some (Ev.hmsEccC, Ev.hmsEccU)
  else if src == Ev.scEccC || src == Ev.scEccU then some (Ev.scEccC, Ev.scEccU)
  else if src == Ev.rqpEccC || src == Ev.rqpEccU then some (Ev.rqpEccC, Ev.rqpEccU)
  else if src == Ev.cccEccC || src == Ev.cccEccU then some (Ev.cccEccC, Ev.cccEccU)
  else if src == Ev.chartCrc || src == Ev.ucodeParity || src == Ev.waveParity || src == Ev.fcrParity || src == Ev.odeParity then some (src, src)
  else none

/-- R795: one checked access of a checker (named by either of its sources) by a master. The answer says how many check bits the pending injection inverts, 0 for none;
the access uses up one of COUNT. -/
def State.checked (s : State) (src master : Nat) : Nat × State :=
  let r := s.rd Obj.fcrInject 0
  let m := Fld.get F.fcrInjectMaster r
  if s.fcr.injLeft != 0 && checkerPair (Fld.get F.fcrInjectSource r) == checkerPair src && (m == 0xFF || m == master) then
    (Fld.get F.fcrInjectBits r, { s with fcr := { s.fcr with injLeft := s.fcr.injLeft - 1, injected := true } })
  else (0, s)

end Sys2Proof.Machine
end

