-- ==== Sys2Proof/Machine/Dispatcher.lean ====
section
/-! DEFINITION. The work dispatcher and the cores' meanings: items, flows, the ready lists, the decision trace (20_cores_dispatch R748 to R762), waits, handlers and claims (R766 to R772). -/
namespace Sys2Proof.Machine

/-- The outcome of a command. -/
abbrev Res := Host.Outcome State Fault Refusal

/-- PARALLEL (R754). -/
def parallelFlow : Nat := 4096

/-- WDP.COUNTS field i, one more. -/
def State.wdpCount (s : State) (i : Nat) : State := s.count Obj.wdpCounts 0 ⟨48 * i, 48⟩ ⟨144 + i, 1⟩ 1

/-- R762: ring writes are behind while no stack can take them (HMS.STATE reads neither READY nor SELF_REFRESH for a stack; notes/assumptions/16.md). -/
def State.hbmWritable (s : State) : Bool :=
  let ok := fun v : Nat => v == 2 || v == 3
  ok (Fld.get ⟨0, 4⟩ (s.rd Obj.hmsState 0)) && ok (Fld.get ⟨8, 4⟩ (s.rd Obj.hmsState 0))

/-- R760: FCLK edges since the epoch grid edge. -/
def State.fclkCount (s : State) : Nat := (s.now - s.epochGrid) / fclkFs

/-- R762: a 64-bit record written to the ring, or dropped and counted; the first drop after tracing is enabled raises WDP_TRACE_LOST. -/
def State.traceWrite (s : State) (r : Nat) : State :=
  if s.hbmWritable then
    ({ s with wdpTrace := lastN (s.fld Obj.wdpTraceCtrl 0 F.wdpTraceCtrlSize * 131072) (s.wdpTrace ++ [r]) }).count
      Obj.wdpTraceStatus 0 F.wdpTraceStatusWritten F.wdpTraceStatusWrittenSat 1
  else
    let first := !s.wdpLost
    let s := { s with wdpLost := true }.count Obj.wdpTraceStatus 0 F.wdpTraceStatusLost F.wdpTraceStatusLostSat 1
    if first then s.latch Ev.wdpTraceLost else s

/-- R760, R761: a decision of a kind is traced while tracing is enabled for it. -/
def State.trace (s : State) (kind : Nat) (i : Item) (core : Nat) : State :=
  let c := s.rd Obj.wdpTraceCtrl 0
  if bit c 0 && bit c (16 + kind) then
    s.traceWrite (min i.flow 0xFFF + i.prio * 2 ^ 12 + core * 2 ^ 16 + kind * 2 ^ 20 + i.producer * 2 ^ 24 + (s.fclkCount % 2 ^ 32) * 2 ^ 32)
  else s

/-- R761: the TIME record. -/
def State.traceTime (s : State) : State :=
  if bit (s.rd Obj.wdpTraceCtrl 0) 0 then s.traceWrite (15 * 2 ^ 20 + ((s.fclkCount / 2 ^ 32) % 2 ^ 32) * 2 ^ 32) else s

/-- R754: the priority of a flow's items; firmware sets that of its own flows. -/
def State.flowPrio (s : State) (flow prio : Nat) : Nat :=
  if flow < 88 then s.fld Obj.rqpPoolCfg 0 F.rqpPoolCfgPrio else if flow = 88 then 6 else if flow = 89 then 5 else prio % 8

/-- R759: an enqueue; the answer says whether it is accepted. -/
def State.enqueue (s : State) (flow prio producer : Nat) : Bool × State :=
  let i : Item := ⟨flow, s.flowPrio flow prio, producer, s.now⟩
  let free := 65536 - s.ready.length
  if free = 0 ∨ (free ≤ 1024 ∧ i.prio < 6) then
    let s := (s.wdpCount 2).trace 4 i 0
    let raise := match s.wdpFullAt with | none => true | some t => decide (t + msFs ≤ s.now)
    (false, if raise then ({ s with wdpFullAt := some s.now }).latch Ev.wdpFull else s)
  else (true, (({ s with ready := s.ready ++ [i] }).wdpCount 0).trace 0 i 0)

/-- R754: the cores that may serve a flow; an unplaced flow has none. -/
def State.eligible (s : State) (flow core : Nat) : Bool :=
  s.coreState core != 0 && s.coreState core != 5 &&
  (if flow < 64 then s.rd Obj.plcSiteCore flow == core
   else if flow < 88 then Tbl.get (fun _ => 255) s.homes flow == core
   else if flow = 88 then s.system0 == core else if flow = 89 then s.system1 == core else true)

/-- R755: whether an item of a flow is in service. -/
def State.flowBusy (s : State) (flow : Nat) : Bool :=
  (List.range 16).any (fun c => match (s.core c).item with | some (i, _) => i.flow == flow | none => false)

/-- R755: the items that compete: PARALLEL items, and the oldest waiting item of each flow that has none in service. -/
def competing (busy : Nat → Bool) : List Nat → List Item → List Item
  | _, [] => []
  | seen, i :: t =>
    if i.flow = parallelFlow then i :: competing busy seen t
    else if seen.contains i.flow || busy i.flow then competing busy (i.flow :: seen) t
    else i :: competing busy (i.flow :: seen) t

/-- R757, R758: the edge from which an item competes. -/
def State.itemReady (s : State) (i : Item) : Nat := max (i.enq + 12 * fclkFs) (if i.flow = parallelFlow then 0 else Tbl.get (fun _ => 0) s.flowFree i.flow)

/-- R756: the lowest-numbered idle core that may serve an item at an instant. -/
def State.coreFor (s : State) (i : Item) (t : Nat) : Option Nat :=
  (List.range 16).find? (fun c => s.coreIdle c && decide ((s.core c).idleFrom ≤ t) && s.eligible i.flow c)

/-- R756: the first choice at an instant: the highest priority, then the earliest enqueued, among the competing items with an idle eligible core. -/
def State.choice (s : State) (t : Nat) : Option (Item × Nat) :=
  (competing s.flowBusy [] s.ready).foldl (fun best i =>
    if s.itemReady i ≤ t then
      match s.coreFor i t with
      | none => best
      | some c => match best with
        | none => some (i, c)
        | some (b, _) => if b.prio < i.prio ∨ (b.prio = i.prio ∧ i.enq < b.enq) then some (i, c) else best
    else best) none

/-- A core becomes busy with an item or handler. -/
def CoreRt.busyFrom (c : CoreRt) (t : Nat) : CoreRt := { c with since := some (c.since.getD t) }

/-- R756, R776: one item handed to a core. -/
def State.dispatchTo (s : State) (i : Item) (c : Nat) : State :=
  let s := { s with ready := s.ready.erase i }
  let s := (s.setCore c { (s.core c).busyFrom s.now with item := some (i, s.now) }).wr Obj.cccState c 3
  let w : Fld := ⟨256 + 32 * i.prio, 32⟩
  let s := s.setFld Obj.wdpQueue 0 w (max (s.fld Obj.wdpQueue 0 w) (min ((s.now - i.enq) / fclkFs) (2 ^ 32 - 1)))
  (s.wdpCount 1).trace 1 i c

/-- R756: dispatch on one edge until no competing item has an idle eligible core (at most one per core). -/
def State.dispatchAll : Nat → State → State
  | 0, s => s
  | n + 1, s => match s.choice s.now with | none => s | some (i, c) => State.dispatchAll n (s.dispatchTo i c)

/-- The first edge at or after now on which something can be dispatched. -/
def State.dispatchEdge (s : State) : Nat :=
  let ts := (competing s.flowBusy [] s.ready).flatMap (fun i =>
    ((List.range 16).filter (fun c => s.coreIdle c && s.eligible i.flow c)).map (fun c => max (s.itemReady i) (s.core c).idleFrom))
  match ts with | [] => s.now | t :: r => max s.now (s.edgeAt fclkFs (r.foldl min t))

/-- R756: DISPATCH. -/
def execDispatch (s : State) : Res := let s := s.reach s.dispatchEdge; .next (s.dispatchAll 16)

/-- R759: ENQUEUE, by firmware or any producer. -/
def execEnqueue (flow prio producer : Nat) (s : State) : Res := .next (s.enqueue flow prio producer).2

/-- R776: the busy interval of a core that now has neither item nor handler ends: BUSY grows, and the interval counts toward LOAD. -/
def State.endBusy (s : State) (n : Nat) : State :=
  let c := s.core n
  match c.since with
  | none => s
  | some t =>
    if c.item.isSome || !c.handlers.isEmpty then s
    else ((s.setCore n { c with since := none, busy := (c.busy.filter (fun b => decide (s.now ≤ b.2 + msFs))) ++ [(t, s.now)] }).count
      Obj.wdpStats n F.wdpStatsBusy F.wdpStatsBusySat ((s.now - t) / fclkFs))

/-- R768, R769: a core that has become IDLE takes the CONTROL deliveries held for it. -/
def State.takeHeld (s : State) (n : Nat) : State :=
  (List.range 32).foldl (fun s g =>
    if (s.groupTimer g).isSome && !s.groupData g && s.coreIdle n &&
       ((List.range 16).any (fun k => s.srcPending (16 * g + k) && s.srcTarget (16 * g + k) == n))
    then s.deliverGroup g (max s.now (s.core n).idleFrom) else s) s

/-- R76: the completed item of flow 88 was the oldest FW-served access: its effect is due. -/
def State.fwComplete (s : State) (flow : Nat) : State :=
  match s.ode.jobs with
  | j :: t => if flow = 88 then { s with ode := { s.ode with jobs := t, done := s.ode.done ++ [j] } } else s
  | [] => s

/-- R758, R776: a core completes its item: it is idle from the next FCLK edge, and so competes the next item of the flow. -/
def State.complete (s : State) (n : Nat) : State :=
  match (s.core n).item with
  | none => s
  | some (i, t) =>
    let s := s.fwComplete i.flow
    let next := s.edgeAt fclkFs s.now + fclkFs
    let s := (s.setCore n { s.core n with item := none, idleFrom := next }).wr Obj.cccState n (if (s.core n).handlers.isEmpty then 2 else 4)
    let s := { s with flowFree := if i.flow = parallelFlow then s.flowFree else Tbl.put (fun _ => 0) s.flowFree i.flow next }
    let s := s.count Obj.wdpStats n F.wdpStatsItems F.wdpStatsItemsSat 1
    let s := s.setFld Obj.wdpStats n F.wdpStatsMaxItem (max (s.fld Obj.wdpStats n F.wdpStatsMaxItem) (min ((s.now - t) / fclkFs) (2 ^ 32 - 1)))
    ((s.trace 2 i n).endBusy n).takeHeld n

/-- R750: the place of a yielded item: ahead of the first waiting item of its flow, else last. -/
def reinsert (i : Item) : List Item → List Item
  | [] => [i]
  | j :: t => if j.flow = i.flow ∧ i.flow ≠ parallelFlow then i :: j :: t else j :: reinsert i t

/-- The core is HALTED (R751, R752): it runs nothing. -/
def State.halted (s : State) (n : Nat) : Bool := s.coreState n == 5

/-- R750: YIELD. -/
def execYield (core : Nat) (s : State) : Res :=
  if s.halted core then .next s else
  match (s.core core).item with
  | none => .next s
  | some (i, _) =>
    let next := s.edgeAt fclkFs s.now + fclkFs
    let j := { i with enq := s.now }
    let s := (s.setCore core { s.core core with item := none, idleFrom := next }).wr Obj.cccState core (if (s.core core).handlers.isEmpty then 2 else 4)
    .next ((((({ s with ready := reinsert j s.ready }).wdpCount 0).trace 3 i core).endBusy core).takeHeld core)

/-- A core halts (R751, R752). -/
def State.halt (s : State) (n : Nat) : State := s.wr Obj.cccState n 5

/-- R751: CCC_HANG: an item in service for 1 ms. -/
def execCccHang (core : Nat) (s : State) : Res :=
  match (s.core core).item with
  | none => .next s
  | some (_, t) => .next (((s.reach (t + msFs)).halt core).raise Ev.cccHang core (0x10 + core) 0 0 none false)

/-- R752: CCC_ECC_U: a double-bit local SRAM error halts the core; an injection of one bit (R795) is corrected and raises CCC_ECC_C. -/
def execCccEccU (core : Nat) (s : State) : Res :=
  let (k, s) := s.checked Ev.cccEccU (0x10 + core)
  if k = 1 then .next ((s.count Obj.cccCounts core F.cccCountsEccCorrected ⟨97, 1⟩ 1).raise Ev.cccEccC core (0x10 + core) 1 0 none false)
  else .next ((s.halt core).raise Ev.cccEccU core (0x10 + core) 1 0 none false)

/-- R776: WDP.STATS_CLEAR clears MAX_WAIT_p and every field of WDP.STATS. -/
def State.statsClear (s : State) : State :=
  let s := s.setFld Obj.wdpQueue 0 ⟨256, 256⟩ 0
  let s := s.wrAll Obj.wdpStats (List.range 16) 0
  { s with cores := s.cores.map (fun p => (p.1, { p.2 with busy := [], since := p.2.since.map (fun _ => s.now) })) }

/-- R776 LOAD: the busy fraction over the last 1 ms in units of 2^-16, at most 65,535. -/
def State.load (s : State) (n : Nat) : Nat :=
  let c := s.core n
  let a := s.now - msFs
  let iv := c.busy ++ (match c.since with | some t => [(t, s.now)] | none => [])
  min 65535 ((iv.foldl (fun x b => x + (min b.2 s.now - max b.1 a)) 0) * 65536 / msFs)

/-- R761: DISPATCHER_TIME_ANCHOR: the lower 32 bits of the FCLK count wrap. -/
def execDispatcherTimeAnchor (s : State) : Res :=
  .next ((s.reach (s.epochGrid + ((s.now - s.epochGrid) / (2 ^ 32 * fclkFs) + 1) * (2 ^ 32 * fclkFs))).traceTime)

/-! Interrupt commands. -/

/-- R766: SOURCE_LATCH: the level of a source is sensed; a rising edge of a source that firmware enables (R764) latches. A fault source's rising edge alone latches; FAULT_RAISE carries the collector's part. -/
def execSourceLatch (source : Nat) (high : Bool) (s : State) : Res :=
  let x := s.src source
  let s := s.setSrc source { x with high := high }
  if high && !x.high && srcEnabled source then .next (s.latch source) else .next s

/-- R768: HOLDOFF_EXPIRY: the group's timer ends and its pending sources are delivered together, each a delivery of HELD_OFF. -/
def execHoldoffExpiry (group : Nat) (s : State) : Res :=
  match s.groupTimer group with
  | none => .next s
  | some t =>
    let s := s.reach t
    .next ((s.count Obj.iecCounts 0 ⟨48, 48⟩ ⟨145, 1⟩ (s.groupPending group).length).deliverGroup group t)

/-- R769: CORE_WAIT: the core executes its wait with its interrupt mask set or clear; its handlers have ended; without an item in service it is IDLE and takes the deliveries held for it. -/
def execCoreWait (core : Nat) (mask : Bool) (s : State) : Res :=
  let st := s.coreState core
  if st = 0 ∨ st = 5 then .next s else
  let s := s.setCore core { s.core core with mask := mask, handlers := [] }
  let s := s.endBusy core
  if (s.core core).item.isSome then .next (s.wr Obj.cccState core 3)
  else .next ((s.wr Obj.cccState core 2).takeHeld core)

/-- R769, R770: the delivery that a core enters next: the lowest-numbered of those due first; a fast one may pre-empt a normal handler, a normal one pre-empts an item only. -/
def CoreRt.nextDue (c : CoreRt) : Option Delivery :=
  let can := c.due.filter (fun d => c.handlers.isEmpty || (d.fast && c.handlers.all (fun h => !h.2)))
  can.foldl (fun b d => match b with
    | none => some d
    | some e => if d.due < e.due ∨ (d.due = e.due ∧ d.source < e.source) then some d else some e) none

/-- R770: HANDLER_ENTRY: the first handler instruction runs. -/
def execHandlerEntry (core : Nat) (s : State) : Res :=
  if s.halted core then .next s else
  let c := s.core core
  match c.nextDue with
  | none => .next s
  | some d =>
    let s := s.reach d.due
    let s := s.setCore core { c.busyFrom s.now with due := c.due.erase d, handlers := (d.source, d.fast) :: c.handlers }
    .next ((s.wr Obj.cccState core 4).count Obj.cccCounts core F.cccCountsHandlers ⟨96, 1⟩ 1)

/-- R771, R772: CLAIM: the pending bit clears; count, FIRST and LAST are returned and cleared; a handler that finds the status idle counts IEC.SPURIOUS. -/
def execClaim (core source : Nat) (spurious : Bool) (s : State) : Res :=
  let x := s.src source
  let s := s.setCore core { s.core core with claimed := some (source, x.count, x.first, x.last) }
  let s := s.setSrc source { x with count := 0, first := 0, last := 0 }
  let s := s.wr Obj.iecPending 0 (setBit (s.rd Obj.iecPending 0) source false)
  .next (if spurious then s.count64 Obj.iecSpurious 0 1 else s)

end Sys2Proof.Machine
end

