-- ==== Sys2Proof/Machine/Clocks.lean ====
section
/-! DEFINITION. The clock and time unit (16_clocks_time): root source, SYNC and the epoch, network time and its servo. -/
namespace Sys2Proof.Machine

/-- CLK.COUNTS field i, one more. -/
def State.clkCount (s : State) (i : Nat) : State := s.count Obj.clkCounts 0 ⟨48 * i, 48⟩ ⟨192 + i, 1⟩ 1

/-- R669: ALIGNED clears; a cascade port whose latency was valid loses it and raises CSL_LATENCY. -/
def State.unalign (s : State) : State :=
  if s.fld Obj.clkState 0 F.clkStateAligned = 0 then s else
  let s := s.setFld Obj.clkState 0 F.clkStateAligned 0
  ((List.range 4).filter (fun p => s.fld Obj.cslPortStatus p F.cslPortStatusLatValid == 1)).foldl
    (fun s p => (s.setFld Obj.cslPortStatus p F.cslPortStatusLatValid 0).raiseAll Ev.cslLatency p) s

/-- R624: REFCLK_LOSS: the PLL locked to REFCLK enters holdover; its frequency and phase stay. -/
def execRefclkLoss (s : State) : Res :=
  let c := s.rd Obj.clkState 0
  let s := s.setFld Obj.clkState 0 F.clkStateRefPresent 0
  if Fld.get F.clkStateSource c = 0 ∧ Fld.get F.clkStateLocked c = 1 then
    let s := (s.setFld Obj.clkState 0 F.clkStateSource 2).unalign
    .next ((s.clkCount 3).raiseAll Ev.clkRefLost 0xFFFF)
  else .next s

/-- R625: REFCLK_RELOCK: REFCLK present for 10 ms ends holdover; ALIGNED waits for the next epoch from SYNC. -/
def execRefclkRelock (s : State) : Res :=
  let s := s.setFld Obj.clkState 0 F.clkStateRefPresent 1
  if s.fld Obj.clkState 0 F.clkStateSource = 2 then .next (s.setFld Obj.clkState 0 F.clkStateSource 0) else .next s

/-- R626: CLK_PLL_UNLOCK. -/
def execClkPllUnlock (s : State) : Res :=
  .next (((s.setFld Obj.clkState 0 F.clkStateLocked 0).unalign).raiseAll Ev.clkPllUnlock 0xFFFF)

/-- R633, R634, R629: an epoch taken at an instant: PHASE, SOURCE and the NT of E; HT counts from the new epoch grid edge, and each converter discards a conversion in
progress (one whose code is not available yet) and restarts its slot list at slot 0. -/
def State.setEpoch (s : State) (e src : Nat) : State :=
  let s := { s with clk := { s.clk with epoch := e }, adc := { s.adc with slot := [] } }
  let s := s.setFld Obj.clkEpoch 0 F.clkEpochPhase s.epochPhase
  (s.setFld Obj.clkEpoch 0 F.clkEpochSource src).setFld Obj.clkEpoch 0 F.clkEpochNt (s.stampAt e)

/-- R631: disarmed. -/
def State.disarm (s : State) : State := (s.setFld Obj.clkSyncStatus 0 F.clkSyncStatusArmed 0).wr Obj.clkSyncArm 0 0

/-- R627, R628: the epoch instant of a crossing at the balls, which is resolved to 0.25 ps. -/
def State.syncInstant (s : State) (t : Nat) : Nat := ((t / 250 * 250 : Nat) + toSigned 16 (s.rd Obj.clkSyncTrim 0) * 500).toNat

/-- R635: the deviation of an edge from the expected period, in fs. -/
def syncDev (e' e period : Nat) : Int :=
  let x : Int := (e' : Int) - e
  x - roundDiv x period * period

/-- R631, R633 to R635: SYNC_EDGE: a qualified edge whose crossing lies at t. -/
def execSyncEdge (t : Nat) (s : State) : Res :=
  let s := (s.reach t).clkCount 1
  let e := s.syncInstant t
  if s.fld Obj.clkSyncStatus 0 F.clkSyncStatusArmed = 1 then
    let s := (s.disarm.setEpoch e 1).clkCount 0
    let s := { s with csl := s.csl.map (fun (p : Nat × CslRt) => (p.1, { p.2 with flight := none })) }
    let s := if s.fld Obj.clkState 0 F.clkStateSource = 0 ∧ s.fld Obj.clkState 0 F.clkStateLocked = 1
      then s.setFld Obj.clkState 0 F.clkStateAligned 1 else s
    .next ((s.setFld Obj.clkSyncStatus 0 F.clkSyncStatusLastHt (s.htAt t)).latch Ev.clkEpoch)
  else
    let s := s.setFld Obj.clkSyncStatus 0 F.clkSyncStatusLastHt (s.htAt t)
    let period := s.fld Obj.clkSyncCfg 0 F.clkSyncCfgPeriod
    if period = 0 then .next s else
    let d := syncDev e s.clk.epoch period
    let s := s.setFld Obj.clkSyncStatus 0 F.clkSyncStatusLastDev (ofSigned 32 (clampSigned 32 (roundDiv d 500)))
    if d.natAbs > s.fld Obj.clkSyncCfg 0 F.clkSyncCfgCheckLimit * 500 then .next ((s.clkCount 2).latch Ev.clkSyncDev) else .next s

/-- R631: the effect of a write of CLK.SYNC_ARM. -/
def State.syncArm (s : State) (v : Nat) : State :=
  if v = 1 then (s.wr Obj.clkSyncArm 0 1).setFld Obj.clkSyncStatus 0 F.clkSyncStatusArmed 1 else s.disarm

/-! Network time. -/

/-- A TIME_PS value (2^-16 ps) in units of 2^-32 ns. -/
def psToNt (v : Int) : Int := v * 65536 / 1000

/-- NT moved by a signed amount (2^-32 ns), counted afresh from the last TCLK edge. -/
def State.stepNt (s : State) (d : Int) : State :=
  let s := s.rebaseNt
  { s with clk := { s.clk with ntBase := ((s.clk.ntBase : Int) + d).toNat } }

/-- R645: LOCKED clears; PTP_UNLOCKED is raised where it was set. -/
def State.ptpUnlock (s : State) : State :=
  let was := s.fld Obj.ptpStatus 0 F.ptpStatusLocked
  let s := ({ s with clk := { s.clk with lockRun := 0 } }).setFld Obj.ptpStatus 0 F.ptpStatusLocked 0
  if was = 1 then s.latch Ev.ptpUnlocked else s

/-- PTP.COUNTS field i of a port, one more. -/
def State.ptpCount (s : State) (port i : Nat) : State := s.count Obj.ptpCounts port ⟨48 * i, 48⟩ ⟨144 + i, 1⟩ 1

/-- R644: the nominal increment. -/
def ptpNominal : Nat := 0x0000000A00000000

/-- R643: a new increment from here on. -/
def State.setIncrement (s : State) (v : Nat) : State := s.rebaseNt.wr Obj.ptpIncrement 0 v

/-- R644: a in units of 2^-16 × 2^-16/1000 ppb, as an exact fraction: numerator over 65536 × 65536000, clamped to ±500,000 ppb. -/
def servoPpb (kp ki o sum : Int) : Int :=
  let n := kp * o + ki * sum
  let lim : Int := 500000 * 65536 * 65536000
  if n > lim then lim else if n < -lim then -lim else n

/-- R644: the increment for a servo output; where the product is no whole number the spec does not say which of its two neighbours
is taken, and `up` decides (a free value, notes/assumptions/3.md). -/
def servoIncrement (n : Int) (up : Bool) : Nat :=
  let den : Int := 65536 * 65536000 * 1000000000
  let num := (ptpNominal : Int) * (den + n)
  ((num / den) + (if num % den ≠ 0 ∧ up then 1 else 0)).toNat

/-- R644, R645: PTP_OFFSET: the offset from the master and the mean path delay, both as TIME_PS, on the serving port. -/
def execPtpOffset (offset pathDelay : Int) (port master : Nat) (s : State) : Res :=
  if !bit (s.fld Obj.ptpCfg 0 F.ptpCfgPorts) port then .next s else
  let s := s.setClk { s.clk with syncAt := some s.now, txq := Tbl.put (fun _ => []) s.clk.txq port ((Tbl.get (fun _ => []) s.clk.txq port).drop 1) }
  let s := s.setFld Obj.ptpTxqStatus port F.ptpTxqStatusFill (Tbl.get (fun _ => []) s.clk.txq port).length
  let s := ((s.setFld Obj.ptpStatus 0 F.ptpStatusState 3).setFld Obj.ptpStatus 0 F.ptpStatusPort port).setFld Obj.ptpStatus 0 F.ptpStatusGmIdentity master
  let s := (s.setFld Obj.ptpStatus 0 F.ptpStatusOffset (ofSigned 64 (clampSigned 64 offset))).setFld Obj.ptpStatus 0 F.ptpStatusPathDelay (ofSigned 64 (clampSigned 64 pathDelay))
  if s.fld Obj.ptpServoCfg 0 F.ptpServoCfgMode ≠ 0 then .next s else
  if offset.natAbs > s.fld Obj.ptpServoCfg 0 F.ptpServoCfgStepLimit * 65536000 then
    let s := s.stepNt (-(psToNt offset))
    .next (((s.setClk { s.clk with servoSum := 0 }).ptpUnlock.ptpCount port 2).latch Ev.ptpStep)
  else
    let sum := s.clk.servoSum + offset
    let n := servoPpb (s.fldS Obj.ptpServoCfg 0 F.ptpServoCfgKp) (s.fldS Obj.ptpServoCfg 0 F.ptpServoCfgKi) offset sum
    let s := (s.setClk { s.clk with servoSum := sum }).draw.setIncrement (servoIncrement n (Config.freeBool s.freeCtr))
    if offset.natAbs ≤ s.fld Obj.ptpServoCfg 0 F.ptpServoCfgLockLimit * 65536000 then
      let run := min 16 (s.clk.lockRun + 1)
      let s := s.setClk { s.clk with lockRun := run }
      if run = 16 ∧ s.fld Obj.ptpStatus 0 F.ptpStatusLocked = 0 then .next ((s.setFld Obj.ptpStatus 0 F.ptpStatusLocked 1).latch Ev.ptpLocked) else .next s
    else .next s.ptpUnlock

/-- R645: PTP_SYNC_TIMEOUT: 3 s without a Sync. -/
def execPtpSyncTimeout (s : State) : Res :=
  match s.clk.syncAt with
  | none => .next s
  | some t => let s := s.reach (t + 3 * secFs); .next ({ s with clk := { s.clk with syncAt := none } }).ptpUnlock

/-- R647, R648: PTP_EVENT_MESSAGE: a message is stamped while PTP is enabled on its port. An egress stamp adds TX_LAT and enters the
queue; the stamp's uncertainty of ±1.5 ns is a free value (notes/assumptions/3.md). -/
def execPtpEventMessage (port : Nat) (egress : Bool) (seqId msgType : Nat) (s : State) : Res :=
  if !bit (s.fld Obj.ptpCfg 0 F.ptpCfgPorts) port then .next s else
  if !egress then .next (s.ptpCount port 0) else
  let q := Tbl.get (fun _ => []) s.clk.txq port
  let err : Int := ((Config.freeValue s.freeCtr % 3001 : Nat) : Int) - 1500
  let nt : Int := (s.ntAt s.now : Int) + psToNt (s.fldS Obj.ptpPortCfg port F.ptpPortCfgTxLat) + err * 2 ^ 32 / 1000
  let s := s.draw.ptpCount port 1
  if q.length ≥ 16 then
    .next (((s.wr Obj.ptpTxqOvf port 1).count Obj.ptpTxqStatus port F.ptpTxqStatusDropped F.ptpTxqStatusDroppedSat 1).latch Ev.ptpTxqOvf)
  else
    let q' := q ++ [(stampOf nt.toNat, seqId % 2 ^ 16, msgType % 16)]
    .next (({ s with clk := { s.clk with txq := Tbl.put (fun _ => []) s.clk.txq port q' } }).setFld Obj.ptpTxqStatus port F.ptpTxqStatusFill q'.length)

/-- R646: the effect of a write of PTP.NT_SET. -/
def State.ntSet (s : State) (st : Nat) : State :=
  let s := s.rebaseNt
  ({ s with clk := { s.clk with ntBase := ofStamp st, servoSum := 0 } }).ptpUnlock

/-- R646: the effect of a write of PTP.NT_ADJ, signed ns. -/
def State.ntAdj (s : State) (ns : Int) : State :=
  let s := s.stepNt (ns * 2 ^ 32)
  ({ s with clk := { s.clk with servoSum := 0 } }).ptpUnlock

/-- R644: the effect of a write of PTP.SERVO_CFG: FREE holds the nominal increment. -/
def State.servoWritten (s : State) : State :=
  if s.fld Obj.ptpServoCfg 0 F.ptpServoCfgMode = 2 then s.setIncrement ptpNominal else s

/-- R642, R652: the effect of a write of PTP.CFG on PTP.STATUS.STATE: DISABLED with no port, LISTENING where PTP was disabled or its serving port is no longer enabled
(DEDUCED, notes/assumptions/127.md). -/
def State.ptpCfgWritten (s : State) : State :=
  let ports := s.fld Obj.ptpCfg 0 F.ptpCfgPorts
  let state := s.fld Obj.ptpStatus 0 F.ptpStatusState
  if ports = 0 then s.setFld Obj.ptpStatus 0 F.ptpStatusState 0
  else if state = 0 ∨ state = 3 ∧ bit ports (s.fld Obj.ptpStatus 0 F.ptpStatusPort) = false then s.setFld Obj.ptpStatus 0 F.ptpStatusState 1
  else s

end Sys2Proof.Machine
end

