-- ==== Sys2Proof/Machine/Floats.lean ====
section
/-! DEFINITION. IEEE 754 values as exact fractions (R67): decoding, and encoding to the nearest value with ties to even (the default rounding of IEEE 754, which the spec's F32 and F64 name). -/
namespace Sys2Proof.Machine

/-- A fraction: numerator and positive denominator. -/
abbrev Frac := Int × Nat

/-- The fraction m × 2^e. -/
def pow2Frac (m : Int) (e : Int) : Frac := if e ≥ 0 then (m * 2 ^ e.toNat, 1) else (m, 2 ^ (-e).toNat)

/-- The value of a binary format with p significand bits (hidden one included) and w exponent bits. -/
def decodeFloat (p w v : Nat) : Frac :=
  let man := v % 2 ^ (p - 1)
  let ex := (v / 2 ^ (p - 1)) % 2 ^ w
  let sgn : Int := if v / 2 ^ (p - 1 + w) % 2 = 1 then -1 else 1
  let bias : Int := 2 ^ (w - 1) - 1
  if ex = 0 then pow2Frac (sgn * man) (2 - bias - p) else pow2Frac (sgn * (man + 2 ^ (p - 1) : Nat)) (ex + 1 - bias - p)

/-- Whether a format's value is a NaN or an infinity (R67: refused with E_RANGE). -/
def floatSpecial (p w v : Nat) : Bool := (v / 2 ^ (p - 1)) % 2 ^ w == 2 ^ w - 1

/-- n / d rounded to the nearest whole number, ties to even. -/
def roundEven (n d : Nat) : Nat :=
  let q := n / d
  let r := n % d
  if 2 * r < d then q else if 2 * r > d then q + 1 else q + q % 2

/-- The nearest value of a format to a fraction; beyond the largest, the infinity of its sign. -/
def encodeFloat (p w : Nat) (x : Frac) : Nat :=
  let n := x.1.natAbs
  let sgn := if x.1 < 0 then 2 ^ (p - 1 + w) else 0
  if n = 0 then 0 else
  let bias : Int := 2 ^ (w - 1) - 1
  let e0 : Int := (Nat.log2 n : Int) - Nat.log2 x.2
  let below := if e0 ≥ 0 then n < x.2 * 2 ^ e0.toNat else n * 2 ^ (-e0).toNat < x.2
  let e1 := if below then e0 - 1 else e0
  let e := if e1 < 1 - bias then 1 - bias else e1
  let sh : Int := (p : Int) - 1 - e
  let m := if sh ≥ 0 then roundEven (n * 2 ^ sh.toNat) x.2 else roundEven n (x.2 * 2 ^ (-sh).toNat)
  -- a carry out of the significand raises the exponent by itself, since the fields are adjacent
  let body := if m < 2 ^ (p - 1) then m else ((e + bias).toNat - 1) * 2 ^ (p - 1) + m
  let inf := (2 ^ w - 1) * 2 ^ (p - 1)
  sgn + min body inf

/-- F32 as a fraction. -/
def f32 (v : Nat) : Frac := decodeFloat 24 8 v
/-- A fraction as F32. -/
def toF32 (x : Frac) : Nat := encodeFloat 24 8 x
/-- A fraction as F64. -/
def toF64 (x : Frac) : Nat := encodeFloat 53 11 x

/-- a − b. -/
def fracSub (a b : Frac) : Frac := (a.1 * b.2 - b.1 * a.2, a.2 * b.2)
/-- a × b. -/
def fracMul (a b : Frac) : Frac := (a.1 * b.1, a.2 * b.2)
/-- Rounded to the nearest whole number, ties away from zero. -/
def fracRound (a : Frac) : Int := roundDiv a.1 a.2

end Sys2Proof.Machine
end

