-- ==== Sys2Proof/Machine/Power.lean ====
section
/-! DEFINITION. Converters, supply loops and rails (15_power_supplies): conversions, windows, the compensator, chart supply entries, PMBus polls, junction readings. -/
namespace Sys2Proof.Machine

/-- A loop's runtime state. -/
def State.loop (s : State) (n : Nat) : LoopRt := Tbl.get (fun _ => {}) s.loops n

/-- The state with a loop's runtime state replaced. -/
def State.setLoop (s : State) (n : Nat) (x : LoopRt) : State := { s with loops := Tbl.put (fun _ => {}) s.loops n x }

/-- SPL.STATE of a loop (R618). -/
def State.loopState (s : State) (n : Nat) : Nat := s.rd Obj.splState n

/-- R596: the loop switches: SOFTSTART, REGULATING or RAMPDOWN. -/
def State.loopOn (s : State) (n : Nat) : Bool := 1 ≤ s.loopState n && s.loopState n ≤ 3

/-- SPL.COUNTS field i of a loop, one more. -/
def State.splCount (s : State) (n i : Nat) : State := s.count Obj.splCounts n ⟨48 * i, 48⟩ ⟨240 + i, 1⟩ 1

/-- PSM.COUNTS field i, one more. -/
def State.psmCount (s : State) (i : Nat) : State := s.count Obj.psmCounts 0 ⟨48 * i, 48⟩ ⟨240 + i, 1⟩ 1

/-- PSM.DOMAIN_STATE of a domain (R616). -/
def State.domain (s : State) (pd : Nat) : Nat := s.fld Obj.psmDomainState 0 ⟨4 * pd, 4⟩

/-- Whether a domain reads ON. -/
def State.domOn (s : State) (pd : Nat) : Bool := s.domain pd == 2

/-- The state with a domain's state replaced. -/
def State.setDomain (s : State) (pd v : Nat) : State := s.setFld Obj.psmDomainState 0 ⟨4 * pd, 4⟩ v

/-! Loops. -/

/-- R606: a window trip of a loop: its PWM goes off and it reads TRIPPED. A loop that does not switch stays as it is. -/
def State.trip (s : State) (n : Nat) : State :=
  if s.loopOn n then
    (((s.wr Obj.splState n 4).setFld Obj.splMeas n F.splMeasDuty 0).splCount n 0).raiseAll Ev.splTrip n
  else s

/-- A loop goes DISABLED. -/
def State.loopOff (s : State) (n : Nat) : State := (s.wr Obj.splState n 0).setFld Obj.splMeas n F.splMeasDuty 0

/-- step_toward of R598. -/
def stepToward (x target slew : Int) : Int := if x < target then min target (x + slew) else max target (x - slew)

/-- R599, R600, R604: what set_eff moves toward at an instant. -/
def State.loopTarget (s : State) (n t : Nat) : Int :=
  let l := s.loop n
  let path := fun (dst : Int) (us : Nat) =>
    let total := us * usFs
    if total ≤ t - l.rampAt then dst else l.rampFrom + (dst - l.rampFrom) * ((t - l.rampAt : Nat) : Int) / (total : Int)
  let set := toSigned 32 (s.rd Obj.splSetpoint n)
  match s.loopState n with
  | 1 => path set (s.fld Obj.splLimits n F.splLimitsSoftstart)
  | 3 => path 0 (s.fld Obj.splSafePlan n F.splSafePlanRamp)
  | _ => set

/-- The coefficients of R598 of a loop. -/
def State.coeff (s : State) (n i : Nat) : Int := s.fldS Obj.splCoeff n ⟨32 * i, 32⟩

/-- R597, R630: the number of a loop's PWM period at an instant, and the root periods since its start; the periods begin at the epoch grid edge. -/
def State.pwmPeriod (s : State) (n t : Nat) : Nat × Nat :=
  let x := (t - s.epochGrid) / rootFs
  let p := max 1 (s.fld Obj.splCfg n F.splCfgPeriod)
  (x / p, x % p)

/-- R597: the duty of the PWM period that holds an instant: the compensator's output that was latest at its start. -/
def State.dutyAt (s : State) (n t : Nat) : Nat :=
  if (s.pwmPeriod n t).1 = (s.pwmPeriod n (s.loop n).lastV).1 then (s.loop n).held else s.fld Obj.splMeas n F.splMeasDuty

/-- R598: one run of the compensator on a VSENSE value. -/
def State.compensate (s : State) (n t : Nat) (v : Int) : State :=
  let l := s.loop n
  let target := s.loopTarget n t
  let cur := s.fldS Obj.splMeas n F.splMeasSetEff
  let slew := s.fld Obj.splLimits n F.splLimitsSlew
  let set := if slew = 0 then target else stepToward cur target ((slew : Int) * ((t - l.lastV : Nat) : Int) / (usFs : Int))
  let lim := toSigned 32 (s.rd Obj.splIlimit n)
  let i := s.fldS Obj.splMeas n F.splMeasI
  let ev := set - v
  let ei := s.coeff n 5 * (lim - i) / 65536
  let limiting := l.iOk && decide (lim > 0) && decide (ei < ev)
  let e0 := if limiting then ei else ev
  let y := s.coeff n 0 * e0 + s.coeff n 1 * l.e1 + s.coeff n 2 * l.e2 - (s.coeff n 3 * l.y1 + s.coeff n 4 * l.y2) / 2 ^ 29
  let lo : Int := s.fld Obj.splCfg n F.splCfgDutyMin * 65536
  let hi : Int := s.fld Obj.splCfg n F.splCfgDutyMax * 65536
  let y := min (max y lo) hi
  let s := s.setLoop n { l with e1 := e0, e2 := l.e1, y1 := y, y2 := l.y1, lastV := t, held := s.dutyAt n t }
  let s := s.setFld Obj.splMeas n F.splMeasSetEff (ofSigned 32 (clampSigned 32 set))
  (s.setFld Obj.splMeas n F.splMeasDuty (y / 65536).toNat).setFld Obj.splMeas n F.splMeasIlimiting limiting.toNat

/-- R597: the levels of a loop's two gates at an instant (H, L). -/
def State.pwm (s : State) (n t : Nat) : Bool × Bool :=
  if !s.loopOn n || !s.domOn 19 then (false, false) else
  let period := s.fld Obj.splCfg n F.splCfgPeriod
  let d := s.dutyAt n t
  let dt := s.fld Obj.splCfg n F.splCfgDeadtime
  let x := (s.pwmPeriod n t).2
  (decide (x < d), decide (d + dt ≤ x ∧ x < period - dt))

/-- R598, R604, R606: a VSENSE sample of a loop. A RECOVERING sample leaves the previous input value in place (R592). -/
def State.vsense (s : State) (n t : Nat) (v : Int) (fresh : Bool) : State :=
  let s := if fresh then s.setFld Obj.splMeas n F.splMeasV (ofSigned 32 v) else s
  let v := s.fldS Obj.splMeas n F.splMeasV
  if !s.loopOn n then s else
  let s := s.compensate n t v
  if s.loopState n = 3 ∧ v < s.fldS Obj.splSafePlan n F.splSafePlanDischarge then s.loopOff n else s

/-- An ISENSE sample of a loop. -/
def State.isense (s : State) (n : Nat) (v : Int) (fresh : Bool) : State :=
  if fresh then (s.setFld Obj.splMeas n F.splMeasI (ofSigned 32 v)).setLoop n { s.loop n with iOk := true } else s

/-- The loops that name an input as a sense input (f: the field of SPL.CFG). -/
def State.loopsOf (s : State) (f : Fld) (ain : Nat) : List Nat := (List.range 32).filter (fun n => s.fld Obj.splCfg n f == ain)

/-- Whether an input senses an enabled loop. -/
def State.sensesOn (s : State) (ain : Nat) : Bool :=
  (s.loopsOf F.splCfgVsenseAin ain ++ s.loopsOf F.splCfgIsenseAin ain).any s.loopOn

/-- R589: the length of a converter's slot list and its slots. -/
def seqLen (seq c : Nat) : Nat := Fld.get ⟨128 * c + 64, 5⟩ seq
def seqSlot (seq c j : Nat) : Nat := Fld.get ⟨128 * c + 4 * j, 4⟩ seq

/-- R589: whether an input is converted under a slot list. -/
def converted (seq ain : Nat) : Bool := (List.range (seqLen seq (ain / 16))).any (fun j => seqSlot seq (ain / 16) j == ain % 16)

/-- R600: SPL.ENABLE written with 1: step 8 conditions. -/
def State.enableCond (s : State) (n v : Nat) : List (Bool × Nat) :=
  if v = 0 then [] else
  let a := s.fld Obj.splCfg n F.splCfgVsenseAin
  [(a == 0xFF || !converted (s.rd Obj.adcSeq 0) a, rRange), (!s.domOn 19, rMode)]

/-- R600: SPL.ENABLE written. -/
def State.enableLoop (s : State) (n v : Nat) : State :=
  let s := s.wr Obj.splEnable n v
  if v = 0 then (if s.loopState n = 5 then s else s.loopOff n)
  else if s.loopState n = 0 ∨ s.loopState n = 4 then
    let m := s.fld Obj.splMeas n F.splMeasV
    let s := s.setLoop n { s.loop n with e1 := 0, e2 := 0, y1 := 0, y2 := 0, rampFrom := toSigned 32 m, rampAt := s.now, lastV := s.now, held := 0 }
    (s.setFld Obj.splMeas n F.splMeasSetEff m).wr Obj.splState n 1
  else s

/-- R599, R600: SOFTSTART_END: the path has reached SPL.SETPOINT; with a SLEW, set_eff goes on toward it by steps. -/
def execSoftstartEnd (loop : Nat) (s : State) : Res :=
  if s.loopState loop = 1 then
    let s := s.reach ((s.loop loop).rampAt + s.fld Obj.splLimits loop F.splLimitsSoftstart * usFs)
    .next ((if s.fld Obj.splLimits loop F.splLimitsSlew = 0 then s.setFld Obj.splMeas loop F.splMeasSetEff (s.rd Obj.splSetpoint loop) else s).wr Obj.splState loop 2)
  else .next s

/-- R604: a ramp takes a loop from REGULATING or SOFTSTART into RAMPDOWN. -/
def State.rampLoop (s : State) (n : Nat) : State :=
  if s.loopState n = 1 ∨ s.loopState n = 2 then
    (s.setLoop n { s.loop n with rampFrom := s.fldS Obj.splMeas n F.splMeasSetEff, rampAt := s.now }).wr Obj.splState n 3
  else s

/-- The loops of a ramp-down stage. -/
def State.stageLoops (s : State) (st : Nat) : List Nat := (List.range 32).filter (fun n => s.fld Obj.splSafePlan n F.splSafePlanStage == st)

/-- R127: whether every loop of a stage has discharged. -/
def State.stageDone (s : State) (st : Nat) : Bool := (s.stageLoops st).all (fun n => !s.loopOn n)

/-- R605: the timeout of a stage. -/
def State.stageTimeout (s : State) (st : Nat) : Nat := s.fld Obj.psmSafeStages 0 ⟨16 * st, 16⟩ * usFs

/-- R127: stage `st` starts, or the first later stage that still has a loop to take down; none is left after stage 7. `fuel` bounds the stages. -/
def State.startStage : Nat → Nat → State → State
  | 0, _, s => { s with psm := { s.psm with ramp := none } }
  | f + 1, st, s =>
    if st > 7 then { s with psm := { s.psm with ramp := none } } else
    let s := (s.stageLoops st).foldl State.rampLoop s
    if s.stageDone st then State.startStage f (st + 1) s
    else { s with psm := { s.psm with ramp := some (st, s.now + s.stageTimeout st) } }

/-- R126, R127, R613: entry to SAFE starts the ramp-down at stage 0; one that a ride-through plan has started goes on (DEDUCED, notes/assumptions/125.md). -/
def State.rampDown (s : State) : State := if s.psm.ramp.isSome then s else State.startStage 9 0 s

/-- R601, R602: the limits of a loop's KIND. -/
def State.supplyLimits (s : State) (n kind : Nat) : Int × Int :=
  if kind = 0 then (s.fldS Obj.splLimits n F.splLimitsVsetMin, s.fldS Obj.splLimits n F.splLimitsVsetMax)
  else (0, s.fldS Obj.splLimits n F.splLimitsIlimMax)

/-- The object of a KIND. -/
def kindObj (kind : Nat) : Nat := if kind = 0 then Obj.splSetpoint else Obj.splIlimit

/-- R602: one SUPPLY entry takes force. -/
def State.supply (s : State) (x : SupplyEntry) : State :=
  if s.loopState x.loop = 3 then s.splCount x.loop 3 else
  let (lo, hi) := s.supplyLimits x.loop x.kind
  let v := min (max x.value lo) hi
  let l := s.loop x.loop
  let s := s.setLoop x.loop (if x.kind = 0 then { l with chartV := some s.now } else { l with chartI := some s.now })
  let s := (s.wr (kindObj x.kind) x.loop (ofSigned 32 v)).splCount x.loop 2
  if v ≠ x.value then (s.splCount x.loop 1).latch Ev.splClamp else s

/-- R602: SUPPLY_APPLY: the entry due first takes force on its edge. -/
def execSupplyApply (s : State) : Res :=
  match s.psm.supply with
  | [] => .next s
  | x :: r =>
    let f := r.foldl (fun a b => if b.due < a.due then b else a) x
    let s := s.reach f.due
    .next (({ s with psm := { s.psm with supply := s.psm.supply.erase f } }).supply f)

/-- R601, R603: a host write of SPL.SETPOINT or SPL.ILIMIT; a chart value that took force on this same edge stands. -/
def State.hostSupply (s : State) (o n v : Nat) : State :=
  let l := s.loop n
  if (if o = Obj.splSetpoint then l.chartV else l.chartI) = some s.now then s else s.wr o n v

/-! Conversions. -/

/-- R591: the scaled value of a code, in µV, kept within I32. -/
def State.scale (s : State) (ain : Nat) (code : Int) : Int :=
  clampSigned 32 (fracRound (fracMul (fracSub (code, 1) (f32 (s.fld Obj.adcCal ain F.adcCalOffset))) (f32 (s.fld Obj.adcCal ain F.adcCalGain))))

/-- R42, R590, R593: a window trips; the PWM of a loop goes off 4 FCLK later. -/
def State.windowTrip (s : State) (ain : Nat) : State :=
  match s.fld Obj.adcWindow ain F.adcWindowAction with
  | 1 => s.latch Ev.adcWindow
  | 2 => ((s.latch Ev.adcWindow).reach (s.now + 4 * fclkFs)).trip (s.fld Obj.adcWindow ain F.adcWindowLoop)
  | _ => s

/-- R593: the window comparator on one sample that it evaluates. -/
def State.window (s : State) (ain : Nat) (bad : Bool) : State :=
  let run := if bad then min 16 (Tbl.get (fun _ => 0) s.adc.oob ain + 1) else 0
  let was := Tbl.get (fun _ => 0) s.adc.oob ain
  let persist := s.fld Obj.adcWindow ain F.adcWindowPersist
  let s := { s with adc := { s.adc with oob := Tbl.put (fun _ => 0) s.adc.oob ain run } }
  let s := s.setFld Obj.adcValue ain F.adcValueOutOfBand bad.toNat
  let s := if bad then s.count Obj.adcCounts ain F.adcCountsOutOfBand F.adcCountsOobSat 1 else s
  if bad && run == persist && was != persist then s.windowTrip ain else s

/-- R607: the latest sample of BULK_AIN lies below BULK_LOW. -/
def State.bulkLow (s : State) : Bool :=
  s.fld Obj.psmLineCfg 0 F.psmLineCfgBulkAin != 0xFF && decide (s.fldS Obj.psmLineStatus 0 F.psmLineStatusBulk < s.fldS Obj.psmLineCfg 0 F.psmLineCfgBulkLow)

/-- R610: a bulk sample. In a plan before its commit point a sample below BULK_COMMIT advances the plan clock to COMMIT. -/
def State.bulkSample (s : State) (v : Int) : State :=
  let s := s.setFld Obj.psmLineStatus 0 F.psmLineStatusBulk (ofSigned 32 v)
  match s.psm.ride with
  | none => s
  | some r =>
    let s := if v < s.fldS Obj.psmLineCfg 0 F.psmLineCfgBulkLow then s.setFld Obj.psmLineStatus 0 F.psmLineStatusBulkLowSeen 1 else s
    let c : Int := (s.fld Obj.psmRidethruPlan 0 F.psmRidethruPlanCommit * usFs : Nat)
    if v < s.fldS Obj.psmLineCfg 0 F.psmLineCfgBulkCommit ∧ s.fld Obj.psmLineStatus 0 F.psmLineStatusState = 1 ∧ (s.now : Int) - r < c then
      { s with psm := { s.psm with ride := some ((s.now : Int) - c) } }
    else s

/-- R593: a value below LOW or above HIGH of its window. -/
def State.offBand (s : State) (ain : Nat) (v : Int) : Bool :=
  decide (v < s.fldS Obj.adcWindow ain F.adcWindowLow) || decide (s.fldS Obj.adcWindow ain F.adcWindowHigh < v)

/-- R589: the converters start: the next slot of each is the first that begins from now on. -/
def State.adcStart (s : State) : State :=
  let k := ceilDiv (s.now - s.epochGrid) (10 * tclkFs) % 2 ^ 64
  { s with adc := { s.adc with slot := (List.range 8).foldl (fun t c => Tbl.put (fun _ => 0) t c k) s.adc.slot, recover := [] } }

/-- R590 to R593: a code of converter `conv` becomes available: the conversion of its next slot. `ovr` says that the input lay beyond full scale. -/
def execConversion (conv : Nat) (code : Int) (ovr : Bool) (s : State) : Res :=
  if !s.domOn 19 then .next s else
  let k := Tbl.get (fun _ => 0) s.adc.slot conv
  let seq := s.rd Obj.adcSeq 0
  let ain := 16 * conv + seqSlot seq conv (k % max 1 (seqLen seq conv))
  let s := s.reach (s.epochGrid + (k + 3) * 10 * tclkFs)
  let rec0 := Tbl.get (fun _ => 0) s.adc.recover conv
  let recovering := decide (0 < rec0) && !ovr
  let s := { s with adc := { s.adc with slot := Tbl.put (fun _ => 0) s.adc.slot conv ((k + 1) % 2 ^ 64), recover := Tbl.put (fun _ => 0) s.adc.recover conv (if ovr then 2 else rec0 - 1) } }
  let code := if ovr then (if code < 0 then -32768 else 32767) else clampSigned 16 code
  let v := s.scale ain code
  let old := s.rd Obj.adcValue ain
  let s := s.wr Obj.adcValue ain (ofSigned 16 code + ovr.toNat * 2 ^ 16 + recovering.toNat * 2 ^ 17 +
    (Fld.get F.adcValueOpen old) * 2 ^ 19 + ofSigned 32 v * 2 ^ 32 + k * 2 ^ 64)
  let s := if ovr then s.count Obj.adcCounts ain F.adcCountsOvr F.adcCountsOvrSat 1 else s
  let bad := ovr || s.offBand ain v
  let s := (s.loopsOf F.splCfgIsenseAin ain).foldl (fun s n => s.isense n v (!recovering)) s
  let s := (s.loopsOf F.splCfgVsenseAin ain).foldl (fun s n => s.vsense n s.now v (!recovering)) s
  let s := if s.fld Obj.psmLineCfg 0 F.psmLineCfgBulkAin = ain then s.bulkSample v else s
  .next (if recovering || (Tbl.get (fun _ => none) s.adc.ow ain).isSome then s else s.window ain bad)

/-- R594: the conditions of R594 and R595 on an input. -/
def State.owCond (s : State) (ain : Nat) : List (Bool × Nat) :=
  [(s.sensesOn ain || s.fld Obj.psmLineCfg 0 F.psmLineCfgBulkAin == ain, rInUse)]

/-- R594: ADC.OW_TEST written with 1. -/
def State.owTest (s : State) (ain : Nat) : State :=
  ({ s with adc := { s.adc with ow := Tbl.put (fun _ => none) s.adc.ow ain (some s.now) } }).setFld Obj.adcOwResult ain F.adcOwResultState 1

/-- R594: OW_TEST_DONE with the two averages in µV. -/
def execOwTestDone (input : Nat) (vUp vDown : Int) (s : State) : Res :=
  match Tbl.get (fun _ => none) s.adc.ow input with
  | none => .next s
  | some t =>
    let s := s.reach (t + 60 * usFs)
    let d := clampSigned 32 (vUp - vDown)
    let isOpen := decide ((vUp - vDown).natAbs > (toSigned 32 (s.rd Obj.adcOwCfg 0)))
    let s := { s with adc := { s.adc with ow := Tbl.put (fun _ => none) s.adc.ow input none } }
    let s := (s.setFld Obj.adcOwResult input F.adcOwResultState (if isOpen then 3 else 2)).setFld Obj.adcOwResult input F.adcOwResultDelta (ofSigned 32 d)
    .next (s.setFld Obj.adcValue input F.adcValueOpen isOpen.toNat)

/-- R595: the conditions of a write of ADC.SYSCAL. -/
def State.syscalCond (s : State) (ain v : Nat) : List (Bool × Nat) :=
  let step := Fld.get F.adcSyscalStep v
  (!converted (s.rd Obj.adcSeq 0) ain || (step == 2 && (Tbl.get (fun _ => none) s.adc.c0 ain).isNone), rRange) :: s.owCond ain

/-- R595: ADC.SYSCAL written. -/
def State.syscal (s : State) (ain v : Nat) : State :=
  let s := s.wr Obj.adcSyscal ain v
  if Fld.get F.adcSyscalStep v = 1 then
    ({ s with adc := { s.adc with c0 := Tbl.put (fun _ => none) s.adc.c0 ain none } }).wr Obj.adcSyscalStatus ain 1
  else s.wr Obj.adcSyscalStatus ain 3

/-- R595: a step ends FAILED; the spec names no reason code for it, so REASON is a free value (notes/assumptions/3.md). -/
def State.syscalFail (s : State) (ain : Nat) : State :=
  (s.draw).wr Obj.adcSyscalStatus ain (5 + (Config.freeValue s.freeCtr % 2 ^ 16) * 2 ^ 8)

/-- R595: SYSCAL_DONE: the sum of the 4,096 codes, and whether any sample had OVR set. -/
def execSyscalDone (input : Nat) (codeSum : Int) (ovr : Bool) (s : State) : Res :=
  match s.fld Obj.adcSyscalStatus input F.adcSyscalStatusState with
  | 1 => if ovr then .next (s.syscalFail input)
      else .next (({ s with adc := { s.adc with c0 := Tbl.put (fun _ => none) s.adc.c0 input (some codeSum) } }).wr Obj.adcSyscalStatus input 2)
  | 3 =>
    match Tbl.get (fun _ => none) s.adc.c0 input with
    | none => .next s
    | some c0 =>
      let d := codeSum - c0
      if ovr ∨ d.natAbs < 1024 * 4096 then .next (s.syscalFail input) else
      let fs := s.fldS Obj.adcSyscal input F.adcSyscalFsValue
      let gain := toF32 (if d < 0 then (-(fs * 4096), d.natAbs) else (fs * 4096, d.natAbs))
      let s := (s.setFld Obj.adcCal input F.adcCalGain gain).setFld Obj.adcCal input F.adcCalOffset (toF32 (c0, 4096))
      .next (s.wr Obj.adcSyscalStatus input 4)
  | _ => .next s

/-! Rails and temperature. -/

/-- R586: the nominal voltages of the rails in mV; HBM rails as R827 gives them. -/
def railNominal : List Nat := [800, 1800, 800, 750, 900, 1200, 1000, 1800, 1100, 400]

/-- R586: a rail marked present. -/
def State.railPresent (s : State) (r : Nat) : Bool := bit (s.rd Obj.psmPmbusMap 0) (32 * r + 7)

/-- A reading within so many per cent of nominal. -/
def withinPct (nominal v pct : Nat) : Bool := decide (nominal * (100 - pct) ≤ v * 100 ∧ v * 100 ≤ nominal * (100 + pct))

/-- R588: the fault bits of STATUS_WORD: VOUT [15], IOUT [14], INPUT [13], TEMPERATURE [2] (PMBus 1.3, which R585 names; notes/assumptions/17.md). -/
def statusFault (w : Nat) : Bool := bit w 15 || bit w 14 || bit w 13 || bit w 2

/-- R588: one rail's reading recorded and checked. -/
def State.pollRail (s : State) (r : Nat) (x : Nat × Nat × Nat × Int) : State :=
  if !s.railPresent r then s else
  let s := s.setFld Obj.psmRailStatus 0 ⟨64 * r, 64⟩ (x.1 % 2 ^ 16 + (x.2.1 % 2 ^ 16) * 2 ^ 16 + (x.2.2.1 % 2 ^ 16) * 2 ^ 32 + ofSigned 8 x.2.2.2 * 2 ^ 48)
  let bad := statusFault x.2.2.1 || !withinPct (railNominal.getD r 0) x.1 5
  let was := bit s.psm.badRails r
  let s := { s with psm := { s.psm with badRails := setBit s.psm.badRails r bad } }
  if bad && !was then (s.psmCount 4).raiseAll Ev.psmRailFault 0xFFFF else s

/-- R588: PMBUS_POLL: every monitored rail, after BOOT. -/
def execPmbusPoll (readings : Rails) (s : State) : Res :=
  if s.mode = .cold ∨ s.mode = .boot then .next s
  else .next ((readings.zipIdx).foldl (fun s p => s.pollRail p.2 p.1) s)

/-- R588: PMB_ALERT: STATUS_WORD of every monitored rail is read at once. -/
def execPmbAlert (words : Nats) (s : State) : Res :=
  if s.mode = .cold ∨ s.mode = .boot then .next s
  else .next ((words.zipIdx).foldl (fun s p =>
    if !s.railPresent p.2 then s else
    let s := s.setFld Obj.psmRailStatus 0 ⟨64 * p.2 + 32, 16⟩ p.1
    let was := bit s.psm.badRails p.2
    if statusFault p.1 && !was then
      ((({ s with psm := { s.psm with badRails := setBit s.psm.badRails p.2 true } }).psmCount 4).raiseAll Ev.psmRailFault 0xFFFF)
    else s) s)

/-- R840: JUNCTION_READING: the sixteen readings; the hottest is acted on. -/
def execJunctionReading (readings : Ints) (s : State) : Res :=
  match readings with
  | [] => .next s
  | a :: r =>
    let h := r.foldl max a
    let warn := decide (h ≥ 100) && !s.psm.warm
    let lim := decide (h ≥ 110) && !s.psm.hot
    let s := { s with psm := { s.psm with warm := if h ≥ 100 then true else if h < 95 then false else s.psm.warm,
                                          hot := if h ≥ 110 then true else if h < 105 then false else s.psm.hot } }
    let s := if warn then s.latch Ev.tempWarn else s
    .next (if lim then s.raiseAll Ev.tempLimit 0xFFFF else s)

/-- R613: the plan's completion bound in µs. -/
def State.planTime (s : State) : Nat :=
  let plan := s.rd Obj.psmRidethruPlan 0
  let occ := (List.range 8).foldl (fun a st => if (s.stageLoops st).isEmpty then a else a + s.fld Obj.psmSafeStages 0 ⟨16 * st, 16⟩) 0
  let at_ := fun act => (List.range 16).find? (fun i => Fld.get ⟨64 * i + 96, 4⟩ plan == act)
  let time := fun i => Fld.get ⟨64 * i + 64, 32⟩ plan
  let tSafe := match at_ 4 with | some i => time i | none => 0
  match at_ 2 with
  | some i => max tSafe (time i + occ)
  | none => tSafe + occ

end Sys2Proof.Machine
end

