-- ==== Sys2Proof/Machine/Memory.lean ====
section
/-! DEFINITION. The HBM memory subsystem (13_memory): the address map, requests with their error codes, refresh, neighbour refresh, self-refresh, scrubbing. -/
namespace Sys2Proof.Machine

/-- What a byte that nothing has written reads as (the spec gives no contents: DESIGN CHOICE, notes/assumptions/4.md). -/
def memDflt (_ : Nat) : BitVec 8 := 0#8

/-- The canonical form of memory: addresses rising, no entry equal to what an unlisted address reads as. -/
abbrev Memory.wf (m : List Host.Cell) : Prop := Tbl.Wf memDflt m

/-- One byte read. -/
def Memory.read (m : List Host.Cell) (a : Nat) : BitVec 8 := Tbl.get memDflt m a

/-- One byte written. -/
def Memory.write (m : List Host.Cell) (a : Nat) (b : BitVec 8) : List Host.Cell := Tbl.put memDflt m a b

/-- Bytes written at rising addresses. -/
def Memory.writeAll (m : List Host.Cell) (a : Nat) : Bytes → List Host.Cell
  | [] => m
  | b :: t => Memory.writeAll (Memory.write m a b) (a + 1) t

/-- R518: an address that exists. -/
def addrOk (a : Nat) : Bool := a / 2 ^ 34 < 3

/-- R518: the stack of an address. -/
def addrStack (a : Nat) : Nat := a / 256 % 2
/-- R518: the pseudo-channel, counted over both stacks. -/
def addrPc (a : Nat) : Nat := addrStack a * 32 + a / 512 % 32
/-- R518: the row. -/
def addrRow (a : Nat) : Nat := a / 2 ^ 20 % 2 ^ 14
/-- R518: the stack-layer group. -/
def addrSid (a : Nat) : Nat := a / 2 ^ 34 % 4

/-- The parity of a number of at most 14 bits. -/
def parity (v : Nat) : Nat := popcount 14 v % 2

/-- R520: mask i of hash h: M_BG0, M_BG1, M_BA0, M_BA1. -/
def State.hashMask (s : State) (h i : Nat) : Nat := s.fld Obj.hmsHash 0 ⟨64 * h + 16 * i, 16⟩

/-- R520: the bank bits of an address under a hash: each bit XOR the parity of ROW AND its mask. -/
def State.addrBank (s : State) (h a : Nat) : Nat :=
  (List.range 4).foldl (fun b i => b + ((a / 2 ^ (16 + i) % 2 + parity (addrRow a &&& s.hashMask h i)) % 2) * 2 ^ i) 0

/-- HMS.STATE of a stack (R543). -/
def State.stack (s : State) (k : Nat) : Nat := s.fld Obj.hmsState 0 ⟨8 * k, 4⟩

/-- The state with a stack's STATE replaced. -/
def State.setStack (s : State) (k v : Nat) : State := s.setFld Obj.hmsState 0 ⟨8 * k, 4⟩ v

/-- HMS.COUNTS field i, n more. -/
def State.hmsCount (s : State) (i n : Nat) : State := s.count Obj.hmsCounts 0 ⟨48 * i, 48⟩ ⟨288 + i, 1⟩ n

/-- R34, R35: whether a master's requests are real-time. -/
def realTime (master : Nat) : Bool := decide (master < 0x10 ∨ (0x20 ≤ master ∧ master ≤ 0x2A))

/-- R785: the scope of a memory fault: the reading needle, else empty. -/
def memScope (master : Nat) : Option Nat := if master < 0x10 then some (2 ^ master) else some 0

/-- R536, R537: a burst with so many wrong check bits is corrected, or its data is refused; access codes of R804. -/
def State.burst (s : State) (stack bits master access addr : Nat) : State :=
  if bits = 1 then (s.hmsCount 3 1).raise Ev.hmsEccC stack master access addr (some 0) false
  else if bits ≥ 2 then (s.hmsCount 4 1).raise Ev.hmsEccU stack master access addr (memScope master) (decide (master < 0x10))
  else s

/-- R529, R544: an ACT of another row of a bank draws from its pseudo-channel's LFSR; with probability 2^-K it schedules a neighbour refresh. The draw, the LFSR's next state, is a free
value, and K low bits that are 0 stand for the probability. -/
def State.activate (s : State) (bank row : Nat) : State :=
  if Tbl.get (fun _ => 0) s.hms.rows bank = row + 1 then s else
  let s := { s with hms := { s.hms with rows := Tbl.put (fun _ => 0) s.hms.rows bank (row + 1) } }
  if s.fld Obj.hmsRhCfg 0 F.hmsRhCfgEnable = 1 then
    let next : Nat := Config.freeRandom s.freeCtr % 2 ^ 32
    let s := { s.draw with hms := { s.hms with lfsr := Tbl.put (fun _ => 0) s.hms.lfsr (bank / 48) next } }
    if next % 2 ^ s.fld Obj.hmsRhCfg 0 F.hmsRhCfgK = 0 then { s with hms := { s.hms with near := Tbl.put (fun _ => none) s.hms.near bank (some (row, s.now)) } } else s
  else s

/-- R534, R535: what exit from self-refresh adds to a request: 192 MCLK, and what is left of entry and of 16 MCLK before it; at most 240 MCLK and otherwise a free value. -/
def State.wakeDelay (s : State) (k : Nat) : Nat := if s.stack k = 3 then 192 + Config.freeValue s.freeCtr % 49 else 0

/-- R534, R535: a request to a stack in self-refresh is served after exit, so many MCLK later. -/
def State.wake (s : State) (k delay : Nat) : State :=
  if s.stack k = 3 then
    let s := (s.draw.setStack k 2).count Obj.hmsSrLate 0 F.hmsSrLateCount F.hmsSrLateCountSat 1
    s.setFld Obj.hmsSrLate 0 F.hmsSrLateMax (max delay (s.fld Obj.hmsSrLate 0 F.hmsSrLateMax))
  else s

/-- R543: HMS.LOAD of one request: bytes of the window of 1,024 VCLK, and a read's latency. -/
def State.loadStats (s : State) (rt write : Bool) (bytes latency : Nat) : State :=
  let w := s.edges (1024 * vclkFs) s.now
  let here := w = s.hms.window
  let b := (if here then s.hms.winBytes else 0) + (if rt then bytes else 0)
  let e := (if here then s.hms.winBest else 0) + (if rt then 0 else bytes)
  let s := { s with hms := { s.hms with window := w, winBytes := b, winBest := e } }
  let s := s.setFld Obj.hmsLoad 0 F.hmsLoadRtPeak (max (s.fld Obj.hmsLoad 0 F.hmsLoadRtPeak) (min b (2 ^ 32 - 1)))
  let f := if rt then F.hmsLoadRtLatMax else F.hmsLoadBeLatMax
  if write then s else s.setFld Obj.hmsLoad 0 f (max (s.fld Obj.hmsLoad 0 f) (min latency 65535))

/-- R523, R524: a pseudo-channel holds a waiting real-time read. -/
def State.holdsRead (s : State) (pc : Nat) : Bool := s.hms.waiting.any (fun x => addrPc x.1.addr == pc && !x.1.write && realTime x.1.master)

/-- R526: the interval of a pseudo-channel in MCLK. -/
def State.trefi (s : State) (pc : Nat) : Nat := if Tbl.get (fun _ => false) s.hms.short pc then 1560 else 3120

/-- R526, R527: REFRESH_INTERVAL: an interval boundary of a pseudo-channel, with the temperature its stack reports. One more tREFI is owed; without a real-time request in the
interval all is issued; else how much of it found a bank free is a free value. REFpb issued after the first tREFI count as POSTPONED. -/
def execRefreshInterval (pc : Nat) (temp : Int) (s : State) : Res :=
  let k := pc / 32
  if s.stack k ≠ 2 then .next s else
  let s := s.reach (Tbl.get (fun _ => 0) s.hms.boundary pc + s.trefi pc * vclkFs)
  let hot := decide (temp > 85)
  let wasHot := decide (s.fldS Obj.hmsState 0 ⟨16 + 8 * k, 8⟩ > 85)
  let s := s.setFld Obj.hmsState 0 ⟨16 + 8 * k, 8⟩ (ofSigned 8 (clampSigned 8 temp))
  let owed := Tbl.get (fun _ => 0) s.hms.deficit pc + 1
  let busy := Tbl.get (fun _ => false) s.hms.busy pc || s.hms.waiting.any (fun x => addrPc x.1.addr == pc && realTime x.1.master)
  let done := if busy then Config.freeValue s.freeCtr % (owed + 1) else owed
  let s := { s.draw with hms := { s.hms with
    boundary := Tbl.put (fun _ => 0) s.hms.boundary pc s.now,
    short := Tbl.put (fun _ => false) s.hms.short pc hot,
    busy := Tbl.put (fun _ => false) s.hms.busy pc false,
    deficit := Tbl.put (fun _ => 0) s.hms.deficit pc (min 8 (owed - done)) } }
  let s := s.hmsCount 0 (min done (owed - 1))
  .next (if hot && !wasHot then s.latch Ev.hmsHot else s)

/-- R528: FORCED_REFRESH: at a deficit of 8 tREFI one REFab is forced. -/
def execForcedRefresh (pc : Nat) (s : State) : Res :=
  let d := Tbl.get (fun _ => 0) s.hms.deficit pc
  if d < 8 ∨ s.stack (pc / 32) ≠ 2 then .next s
  else .next (({ s with hms := { s.hms with deficit := Tbl.put (fun _ => 0) s.hms.deficit pc (d - 1) } }).hmsCount 1 1)

/-- R524, R530: NEIGHBOUR_REFRESH: a neighbour refresh still scheduled 1,024 MCLK after its draw is issued at the next access boundary of its bank, once its pseudo-channel holds no
waiting real-time read. -/
def execNeighbourRefresh (pc bank : Nat) (s : State) : Res :=
  match Tbl.get (fun _ => none) s.hms.near (pc * 48 + bank) with
  | none => .next s
  | some (_, t) =>
    if s.holdsRead pc then .next s else
    let s := s.reach (t + 1024 * vclkFs)
    .next (({ s with hms := { s.hms with near := Tbl.put (fun _ => none) s.hms.near (pc * 48 + bank) none } }).hmsCount 2 1)

/-- R533, R535: the modes in which a stack enters self-refresh by itself. -/
def State.autoSelfRefresh (s : State) : Bool :=
  match s.mode with
  | .doze => true
  | .safe | .idle | .measure => s.fld Obj.hmsSrCfg 0 F.hmsSrCfgAuto == 1
  | _ => false

/-- A stack enters self-refresh. -/
def State.selfRefresh (s : State) (k : Nat) : State :=
  if s.stack k = 2 then (s.setStack k 3).hmsCount 5 1 else s

/-- R533, R534: SELF_REFRESH_ENTRY: HMS.SR_CFG.IDLE has passed without a request; a request that waits cancels it. -/
def execSelfRefreshEntry (stack : Nat) (s : State) : Res :=
  if s.autoSelfRefresh && s.stack stack == 2 && s.hms.waiting.all (fun x => addrStack x.1.addr != stack) then
    .next ((s.reach (Tbl.get (fun _ => 0) s.hms.lastReq stack + s.fld Obj.hmsSrCfg 0 F.hmsSrCfgIdle * usFs)).selfRefresh stack)
  else .next s

/-- R538: SCRUB: one burst read by the scrubber in the best-effort class; a corrected burst is written back. -/
def execScrub (addr errorBits : Nat) (s : State) : Res :=
  if !addrOk addr then .fault (.noSuchAddress addr) else
  let k := addrStack addr
  if s.fld Obj.hmsScrubCfg 0 F.hmsScrubCfgEnable = 0 ∨ s.stack k ≠ 2 then .next s else
  let (b, s) := s.checked Ev.hmsEccC 0x2E
  let bits := max b errorBits
  let s := s.burst k bits 0x2E 1 addr
  if bits = 1 then
    let (w, s) := s.checked Ev.hmsEccC 0x2E
    .next (s.burst k w 0x2E 3 addr)
  else .next s

/-- R521, R542: a write of HMS.HASH keeps hash 0 and its reserved bits. -/
def State.hashOk (s : State) (v : Nat) : Bool :=
  v % 2 ^ 64 == s.rd Obj.hmsHash 0 % 2 ^ 64 && (List.range 16).all (fun i => Fld.get ⟨16 * i + 14, 2⟩ v == 0)

end Sys2Proof.Machine
end

