-- ==== Sys2Proof/Machine/Charts.lean ====
section
/-! DEFINITION. Charts: the image format, its checks, and the life of a handle (04_charts). -/
namespace Sys2Proof.Machine

/-! The format. -/

/-- R141: the stitch width for so many pins at so many bits each. -/
def stitchWidth (npins b : Nat) : Nat :=
  ((List.range 7).map (fun i => 16 * 2 ^ i)).find? (fun w => decide (npins * b ≤ w)) |>.getD 1024

/-- R141: bits per pin of a BPP code. -/
def bppBits (bpp : Nat) : Nat := if bpp = 0 then 2 else 4

/-- R144: the courses of a payload of so many stitches. -/
def stitchCourses (npins bpp len : Nat) : Nat := ceilDiv (len * stitchWidth npins (bppBits bpp)) 512

/-- The copies of a payload: 1, or 1 + n for OVERLAY (R182). -/
def Block.copies (b : Block) : Nat := if b.op = 0x11 then 1 + popcount 64 b.ext else 1

/-- R191 check 0x06: the payload courses of a block. -/
def Block.courses (b : Block) (npins : Nat) : Nat := if b.len = 0 then 0 else b.copies * stitchCourses npins b.bpp b.len

/-- The bytes of a course. -/
def courseAt (img : Bytes) (k : Nat) : Bytes := slice img (64 * k) 64

/-- R146: a header course decoded. -/
def decodeBlock (c : Bytes) : Block :=
  let v := ofLE (c.take 16)
  ⟨v / 2 ^ 120 % 256, v / 2 ^ 114 % 64, v / 2 ^ 112 % 4, v / 2 ^ 104 % 256, v / 2 ^ 88 % 2 ^ 16, v / 2 ^ 56 % 2 ^ 32,
   v / 2 ^ 24 % 2 ^ 32, v / 2 ^ 8 % 2 ^ 16, v % 256, ofLE (slice c 16 48)⟩

/-- R147: the CRC-8 of a header course is right. -/
def blockCrcOk (c : Bytes) : Bool := crc8 ((slice c 1 15).reverse) == (c.headD 0#8).toNat

/-- The operation codes of R151. -/
def opKnown (op : Nat) : Bool := (1 ≤ op && op ≤ 0x14) || op == 0xFE || op == 0xFF

/-- R155: the action OPs, and the OPs whose LEN may be 0 beside them. -/
def opAction (op : Nat) : Bool := [0x0B, 0x0C, 0x0D, 0x0E, 0x13, 0x10, 0x14, 0xFE].contains op

/-- Fields of a chart header (R137). -/
def hdr (img : Bytes) (lo w : Nat) : Nat := Fld.get ⟨lo, w⟩ (ofLE (img.take 64))
def hNpins (img : Bytes) : Nat := hdr img 48 16
def hInitTset (img : Bytes) : Nat := hdr img 64 8
def hCourses (img : Bytes) : Nat := hdr img 96 32
def hEntry (img : Bytes) : Nat := hdr img 128 32
def hNseg (img : Bytes) : Nat := hdr img 160 32

/-- R139: segment entry i: START and LENGTH. -/
def segAt (img : Bytes) (i : Nat) : Nat × Nat := (leAt img (64 + 8 * i) 4, leAt img (64 + 8 * i + 4) 4)

/-- R139: the segments of an image. -/
def segments (img : Bytes) : List (Nat × Nat) := (List.range (hNseg img)).map (segAt img)

/-- R191 check 0x06: the load walk from a course offset: the headers found, and the offset at which it fails, if it does. Which course fails where a block runs past the image
is not stated (R192): DESIGN CHOICE, the image's end, COURSES (notes/assumptions/64.md). -/
def walk (img : Bytes) (npins last : Nat) : Nat → Nat → List (Nat × Block) × Option Nat
  | 0, off => ([], if off = last then none else some off)
  | f + 1, off =>
    if off = last then ([], none)
    else if off > last then ([], some last)
    else
      let b := decodeBlock (courseAt img off)
      if b.len ≥ 1 ∧ b.bpp ≥ 2 then ([], some off) else
      let (l, e) := walk img npins last f (off + 1 + b.courses npins)
      ((off, b) :: l, e)

/-- The walked headers of an image. -/
def blocks (img : Bytes) : List (Nat × Block) := (walk img (hNpins img) (hCourses img) (hCourses img) (hEntry img)).1

/-- R173, R174: entry i of a LEVELS or SUPPLY block. -/
def entry48 (b : Block) (i : Nat) : Nat := Fld.get ⟨48 * i, 48⟩ b.ext

/-- R173: a LEVELS entry is well formed. -/
def levelOk (e : Nat) : Bool :=
  if bit e 47 then Fld.get ⟨33, 14⟩ e == 0 && (!bit e 29 || Fld.get ⟨24, 5⟩ e == 0) else e == 0

/-- R174: a SUPPLY entry is well formed. -/
def supplyOk (e : Nat) : Bool := if bit e 7 then Fld.get ⟨5, 2⟩ e < 2 && Fld.get ⟨8, 8⟩ e == 0 else e == 0

/-- R174: the valid SUPPLY entries of a block name distinct pairs of LOOP and KIND. -/
def supplyDistinct (b : Block) : Bool :=
  let l := ((List.range 8).map (entry48 b)).filter (fun e => bit e 7)
  decide ((l.map (fun e => e % 128)).Nodup)

/-- R148: FLAGS are those defined for the OP. -/
def flagsOk (b : Block) : Bool :=
  b.flags < 8 && (!bit b.flags 0 || b.op == 0x12) && (!bit b.flags 1 || (b.len ≥ 1 && b.op != 0x08)) && (!bit b.flags 2 || b.op == 0xFE)

/-- R191 check 0x08 on one header. -/
def check8 (b : Block) : Bool :=
  opKnown b.op && (b.tset == 0 || b.op == 0x0B) && b.bpp < 2 && (b.len ≥ 1 || b.bpp == 0) && flagsOk b &&
  (if b.op = 0x0C ∨ b.op = 0x0D then true else if b.op = 0x10 ∨ b.op = 0x11 then b.ext < 2 ^ 64 else b.ext == 0)

/-- R170: SOURCE and SELECT of a WAIT_EVENT. -/
def waitOk (arg : Nat) : Bool := arg / 256 < 2 || (arg / 256 == 2 && arg % 256 < 4)

/-- R191 check 0x09 on one header: LEN, COUNT, TARGET, ARG and the extension content of R151. -/
def check9 (b : Block) : Bool :=
  let z := fun (n : Nat) => n == 0
  match b.op with
  | 0x01 => b.len ≥ 1 && z b.count && z b.target && z b.arg
  | 0x02 => b.len ≥ 1 && b.count ≥ 1 && z b.target && z b.arg
  | 0x03 => z b.len && z b.arg
  | 0x04 => z b.len && z b.count && z b.arg
  | 0x05 => z b.len && z b.count && Fld.get ⟨10, 5⟩ b.arg == 0
  | 0x06 => z b.len && z b.count && z b.target && z b.arg
  | 0x07 => z b.len && z b.count && z b.arg
  | 0x08 => b.len ≥ 1 && b.count ≥ 1 && b.arg < 2
  | 0x09 => z b.len && z b.count && b.arg < 2
  | 0x0A => b.len ≥ 1 && waitOk b.arg && (b.count ≥ 1 || z b.target)
  | 0x0B => z b.count && z b.target && z b.arg
  | 0x0C => z b.count && z b.target && z b.arg && (List.range 8).all (fun i => levelOk (entry48 b i))
  | 0x0D => z b.count && z b.target && z b.arg && (List.range 8).all (fun i => supplyOk (entry48 b i)) && supplyDistinct b
  | 0x0E => z b.count && z b.target && 1 ≤ b.arg && b.arg < 256
  | 0x0F => z b.len && z b.count && z b.target && z b.arg
  | 0x10 => z b.count && z b.target && b.arg < 4
  | 0x11 => b.len ≥ 1 && b.count ≥ 1 && z b.target && z b.arg && b.ext % 2 ^ 64 != 0
  | 0x12 => z b.len && z b.count && z b.arg
  | 0x13 => z b.count && z b.target && b.arg < 4096 && b.arg / 256 != 0
  | 0x14 => z b.count && z b.target && b.arg < 4
  | 0xFE => z b.count && z b.target
  | _ => b.len ≥ 1 && z b.count && z b.target && z b.arg

/-- Whether TARGET of a block names a header of its own image (R151, R152, R161). -/
def hasTarget (b : Block) : Bool :=
  match b.op with
  | 0x03 | 0x04 | 0x07 | 0x08 | 0x09 | 0x12 => true
  | 0x05 => !bit b.arg 15
  | 0x0A => b.count ≥ 1
  | _ => false

/-- The block at an offset among walked headers. -/
def blockAt (l : List (Nat × Block)) (off : Nat) : Option Block := (l.find? (fun p => p.1 == off)).map (·.2)

/-- R156, R157: loop pairing and nesting; the offset of the first offender. -/
def loopFail (all : List (Nat × Block)) : List (Nat × Block) → List (Nat × Nat) → Option Nat
  | [], [] => none
  | [], (o, _) :: _ => some o
  | (off, b) :: t, st =>
    if b.op = 0x03 then
      if st.length ≥ 8 then some off
      else match blockAt all b.target with
        | some e => if e.op = 0x04 ∧ e.target = off ∧ off < b.target then loopFail all t ((off, b.target) :: st) else some off
        | none => some off
    else if b.op = 0x04 then
      match st with
      | (o, e) :: r => if e = off ∧ b.target = o then loopFail all t r else some off
      | [] => some off
    else loopFail all t st

/-- R159: the innermost loop of each header: the offset of its LOOP_BEGIN, 0 outside every loop. -/
def loopLevels : List (Nat × Block) → List Nat → List (Nat × Nat)
  | [], _ => []
  | (off, b) :: t, st =>
    if b.op = 0x03 then (off, st.headD 0) :: loopLevels t (off :: st)
    else if b.op = 0x04 then (off, (st.drop 1).headD 0) :: loopLevels t (st.drop 1)
    else (off, st.headD 0) :: loopLevels t st

/-- The loop level of an offset. -/
def levelOf (lv : List (Nat × Nat)) (off : Nat) : Nat := ((lv.find? (fun p => p.1 == off)).map (·.2)).getD 0

/-- R159: the OPs bound to their loop body. -/
def boundToLevel (b : Block) : Bool := b.op == 0x07 || b.op == 0x08 || b.op == 0x09 || (b.op == 0x0A && b.count ≥ 1)

/-- R140: a segment boundary that splits a 1,024-bit stitch. Which course fails is not stated (R192): DESIGN CHOICE, the header of the split block (notes/assumptions/64.md). -/
def splitFail (npins : Nat) (starts : List Nat) (l : List (Nat × Block)) : Option Nat :=
  (l.find? (fun p => p.2.len ≥ 1 && stitchWidth npins (bppBits p.2.bpp) == 1024 &&
    starts.any (fun s => decide (p.1 + 1 < s ∧ s < p.1 + 1 + p.2.courses npins ∧ (s - (p.1 + 1)) % 2 = 1)))).map (·.1)

/-- R139, R140: the segment table; the course of the first offending entry. -/
def segFail (img : Bytes) : Option Nat :=
  let n := hNseg img
  if n < 1 ∨ n > 1048576 ∨ hEntry img ≠ 1 + ceilDiv n 8 then some 0 else
  let go := (List.range n).foldl (fun (a : Nat × Option Nat) i =>
    match a.2 with
    | some e => (a.1, some e)
    | none =>
      let (st, len) := segAt img i
      if st = a.1 ∧ 1 ≤ len ∧ len ≤ 16384 then (st + len, none) else (a.1, some (1 + i / 8))) (hEntry img, none)
  match go.2 with
  | some e => some e
  | none =>
    if go.1 ≠ hCourses img then some (1 + (n - 1) / 8)
    else if (slice img (64 + 8 * n) (64 * (hEntry img - 1) - 8 * n)).any (· != 0#8) then some (hEntry img - 1) else none

/-- R138: the image's CRC is right. -/
def imageCrcOk (img : Bytes) (at4 : Nat) : Bool :=
  crc32 (img.take at4 ++ List.replicate 4 0#8 ++ img.drop (at4 + 4)) == leAt img at4 4

/-- The offset of the first header that fails a test. -/
def firstBad (l : List (Nat × Block)) (ok : Block → Bool) : Option Nat := (l.find? (fun p => !ok p.2)).map (·.1)

/-- R191: the checks in order: none where all pass, else the number of the first that fails and the offset of the failing course. -/
def chartChecks (img : Bytes) : Option (Nat × Nat) :=
  if hdr img 0 32 ≠ 0x54484357 ∨ hdr img 32 16 ≠ 0x0100 then some (0x01, 0)
  else if hNpins img < 1 ∨ hNpins img > 256 ∨ hInitTset img > 63 ∨ hCourses img < 3 ∨ hCourses img > 268435456 ∨ hdr img 74 22 ≠ 0 ∨ hdr img 480 32 ≠ 0 then some (0x02, 0)
  else if img.length ≠ hCourses img * 64 then some (0x03, 0)
  else if !imageCrcOk img 24 then some (0x04, 0)
  else match segFail img with
  | some e => some (0x05, e)
  | none =>
    let npins := hNpins img
    let (l, e) := walk img npins (hCourses img) (hCourses img) (hEntry img)
    match e with
    | some e => some (0x06, e)
    | none =>
      match (l.find? (fun p => !blockCrcOk (courseAt img p.1))).map (·.1) with
      | some e => some (0x07, e)
      | none =>
        match firstBad l check8 with
        | some e => some (0x08, e)
        | none =>
          match firstBad l check9 with
          | some e => some (0x09, e)
          | none =>
            match firstBad l (fun b => !hasTarget b || (blockAt l b.target).isSome) with
            | some e => some (0x0A, e)
            | none =>
              match loopFail l l [] with
              | some e => some (0x0B, e)
              | none =>
                let lv := loopLevels l []
                match (l.find? (fun p => boundToLevel p.2 && levelOf lv p.2.target != levelOf lv p.1)).map (·.1) with
                | some e => some (0x0C, e)
                | none =>
                  if (hdr img 72 1 == 1) != l.any (fun p => p.2.op == 0x12) || (hdr img 73 1 == 1) != l.any (fun p => p.2.op == 0x05 && bit p.2.arg 15) then some (0x0D, 0)
                  else match l.getLast? with
                  | none => some (0x0E, hEntry img)
                  | some (o, b) =>
                    if !(b.op == 0xFF || b.op == 0x07 || b.op == 0x06 || b.op == 0x12) then some (0x0E, o)
                    else (splitFail npins ((segments img).map (·.1)) l).map (fun e => (0x0F, e))

/-- R197: the timing sets of a chart. -/
def chartTsets (img : Bytes) : Nat :=
  ofMembers (hInitTset img :: ((blocks img).filter (fun p => p.2.op == 0x0B)).map (fun p => p.2.tset))

/-- R161: the handles that a chart's external CALLs name. -/
def externCalls (img : Bytes) : List Nat := ((blocks img).filter (fun p => p.2.op == 0x05 && bit p.2.arg 15)).map (fun p => p.2.arg % 1024)

/-- A zero-padded label as a STRING value (R67): byte count, then the bytes. -/
def labelString (b : Bytes) : Nat :=
  let t := (b.reverse.dropWhile (· == 0#8)).reverse
  t.length + ofLE t * 2 ^ 16

/-! The life of a handle. -/

/-- NDL.CHART_STATE of a handle. -/
def State.chartState (s : State) (h : Nat) : Nat := s.rd Obj.ndlChartState h

/-- The image of a handle. -/
def State.chart (s : State) (h : Nat) : Bytes := s.img Obj.ndlChartImage h

/-- R199: the bytes of the charts that count. -/
def State.chartUsed (s : State) : Nat := s.chartLen.foldl (fun a p => a + p.2) 0

/-- The state with a handle's counted bytes replaced. -/
def State.setChartLen (s : State) (h n : Nat) : State := { s with chartLen := Tbl.put (fun _ => 0) s.chartLen h n }

/-- NDL.CHART_COUNTS: LOADS (0) or FAILS (1), one more. -/
def State.chartCount (s : State) (i : Nat) : State := s.count Obj.ndlChartCounts 0 ⟨48 * i, 48⟩ ⟨96 + i, 1⟩ 1

/-- What a handle holds when it holds no image. -/
def State.chartClear (s : State) (h st : Nat) : State :=
  ((((s.wr Obj.ndlChartState h st).wr Obj.ndlChartInfo h 0).wr Obj.ndlChartLabel h 0).wr Obj.ndlChartTsets h 0).setImg Obj.ndlChartImage h [] |>.setChartLen h 0

/-- R192: NDL.CHART_ERROR of a handle. -/
def State.chartError (s : State) (h reason check course : Nat) : State :=
  (s.wr Obj.ndlChartError h (reason + check * 2 ^ 16 + course % 2 ^ 32 * 2 ^ 24)).chartCount 1

/-- R188, R189: step 8 of a chart's DOMAIN_BEGIN for writing. -/
def State.chartBeginCond (s : State) (h total : Nat) : List (Bool × Nat) :=
  [(s.chartState h == 1, rBusy), (s.chartState h == 4, rInUse),
   (decide (total > 2 ^ 34) || decide (total + s.chartUsed > 2 ^ 35 + Tbl.get (fun _ => 0) s.chartLen h), rRange)]

/-- R190: an accepted begin: LOADING, the previous image discarded. -/
def State.chartBegin (s : State) (h total : Nat) : State := (s.chartClear h 1).setChartLen h total

/-- R192, R709: a load of a handle fails. -/
def State.chartFail (s : State) (h reason check course : Nat) : State := (s.chartClear h 3).chartError h reason check course

/-- R191: a validated image is held. -/
def State.chartLoaded (s : State) (h : Nat) (img : Bytes) : State :=
  let info := hNpins img + hInitTset img * 2 ^ 16 + hdr img 72 8 * 2 ^ 24 + hCourses img * 2 ^ 32 + hNseg img * 2 ^ 64 +
    (blocks img).length * 2 ^ 96 + hdr img 192 32 * 2 ^ 128
  let s := ((s.wr Obj.ndlChartState h 2).wr Obj.ndlChartInfo h info).wr Obj.ndlChartLabel h (labelString (slice img 28 32))
  ((s.wr Obj.ndlChartTsets h (chartTsets img)).setImg Obj.ndlChartImage h img).chartCount 0

/-- An open transfer by its number. -/
def State.xfer (s : State) (id : Nat) : Option Xfer := Tbl.get (fun _ => none) s.poa.xfers id

/-- The state with a transfer replaced. -/
def State.setXfer (s : State) (id : Nat) (x : Option Xfer) : State :=
  { s with poa := { s.poa with xfers := Tbl.put (fun _ => none) s.poa.xfers id x } }

/-- The write transfer in progress on an element, with its number. -/
def State.writing (s : State) (ix el : Nat) : Option (Nat × Xfer) :=
  s.poa.xfers.findSome? (fun p => match p.2 with | some x => if x.ix == ix && x.el == el && !x.read then some (p.1, x) else none | none => none)

/-- A result for a waiting request: reason and the bytes after MEMBER. -/
def State.result (s : State) (t : Token) (reason : Nat) (body : Bytes) : State := { s with results := s.results ++ [(t, reason, body)] }

/-- R707: what the end of a validation hands to the final reply: its CHECK. -/
def checkOf (check : Nat) : Bytes := [BitVec.ofNat 8 check]

/-- R191, R707: the validation of a chart's transfer ends. -/
def State.validateChart (s : State) (h : Nat) : State :=
  match s.writing Obj.ndlChartImage h with
  | none => s
  | some (id, x) =>
    if !x.validating then s else
    let s := s.setXfer id none
    match chartChecks x.data with
    | none => (s.chartLoaded h x.data).result (.xfer id) rOk (checkOf 0)
    | some (c, k) => (s.chartFail h rFormat c k).result (.xfer id) rFormat (checkOf c)

/-- R194: step 8 of NDL.CHART_DELETE. -/
def State.chartDeleteCond (s : State) (h : Nat) : List (Bool × Nat) := [(s.chartState h == 4, rInUse)]

/-- R194, R198: a delete: the transfer in progress ends, its pending reply is refused with E_SEQ, the handle is EMPTY. -/
def State.chartDelete (s : State) (h : Nat) : State :=
  let s := match s.writing Obj.ndlChartImage h with
    | some (id, x) => if x.validating then (s.setXfer id none).result (.xfer id) rSeq [] else s.setXfer id none
    | none => s
  s.chartClear h 0

/-- R197: the handles reached from a chart through external CALLs. -/
def State.reached (s : State) : Nat → List Nat → List Nat → List Nat
  | 0, _, seen => seen
  | _ + 1, [], seen => seen
  | f + 1, h :: t, seen => if seen.contains h then State.reached s f t seen else State.reached s f (((externCalls (s.chart h)).dedup.filter (fun k => k != h && !seen.contains k && !t.contains k)) ++ t) (h :: seen)

/-- The charts a needle uses: its own and those reached from it. -/
def State.needleCharts (s : State) (n : Nat) : List Nat :=
  let h := s.rd Obj.ndlChart n
  if h < 1024 then s.reached 4096 [h] [] else []

/-- R197: NDL.CHART_USERS of a handle. -/
def State.chartUsers (s : State) (h : Nat) : Nat := ofMembers ((List.range 16).filter (fun n => (s.needleCharts n).contains h))

/-- R143, R182: stitch k of a copy of a block's payload, as a number. -/
def stitchWord (img : Bytes) (off : Nat) (b : Block) (npins copy k : Nat) : Nat :=
  let w := stitchWidth npins (bppBits b.bpp)
  leAt img (64 * (off + 1 + copy * stitchCourses npins b.bpp b.len) + k * w / 8) (w / 8)

/-- R142: the code of chart pin j in a stitch. -/
def codeAt (b : Block) (word j : Nat) : Nat := Fld.get ⟨bppBits b.bpp * j, bppBits b.bpp⟩ word

end Sys2Proof.Machine
end

