-- ==== Sys2Proof/Machine/Pool.lean ====
section
/-! DEFINITION. The Result Queue Pool, the fail logger, site results, raw capture and the datalog that the cores deliver (08_capture R340 to R390). -/
namespace Sys2Proof.Machine

/-! Access to the runtime state of needles, sites and queues. -/

/-- A needle's runtime state. -/
def State.ndl (s : State) (n : Nat) : NdlRt := Tbl.get (fun _ => {}) s.ndls n

/-- The state with a needle's runtime state replaced. -/
def State.setNdl (s : State) (n : Nat) (x : NdlRt) : State := { s with ndls := Tbl.put (fun _ => {}) s.ndls n x }

/-- NDL.STATE of a needle (R202). -/
def State.ndlState (s : State) (n : Nat) : Nat := s.rd Obj.ndlState n

/-- NDL.CHART names a chart. -/
def State.hasChart (s : State) (n : Nat) : Bool := s.rd Obj.ndlChart n < 1024

/-- R204: CASTON, RUNNING, STALLED or BINDOFF. -/
def State.running (s : State) (n : Nat) : Bool := [3, 4, 5, 7].contains (s.ndlState n)

/-- R785, R283: CASTON, RUNNING, STALLED, HELD or BINDOFF. -/
def State.busyNeedle (s : State) (n : Nat) : Bool := [3, 4, 5, 6, 7].contains (s.ndlState n)

/-- The needles 0 to 15 that meet a condition. -/
def needles (p : Nat → Bool) : List Nat := (List.range 16).filter p

/-- A site's run. -/
def State.site (s : State) (n : Nat) : SiteRt := Tbl.get (fun _ => {}) s.sites n

/-- The state with a site's run replaced. -/
def State.setSite (s : State) (n : Nat) (x : SiteRt) : State := { s with sites := Tbl.put (fun _ => {}) s.sites n x }

/-- A needle's sites, rising (R21). -/
def State.sitesOf (s : State) (n : Nat) : List Nat := members 64 (s.rd Obj.ndlSites n)

/-- R365: a site's pins, rising. -/
def State.sitePins (s : State) (site : Nat) : List Nat := members 256 (s.rd Obj.ndlSitePins site)

/-- R142: the chart pins of a needle: chart pin j is the j-th pin of its PINSET. -/
def State.chartPins (s : State) (n : Nat) : List Nat := members 256 (s.rd Obj.ndlPinset n)

/-- The needle that holds a site. -/
def State.siteNeedle (s : State) (site : Nat) : Option Nat := (List.range 16).find? (fun n => bit (s.rd Obj.ndlSites n) site)

/-- A queue by its number. -/
def State.queue (s : State) (q : Nat) : Option Queue := Tbl.get (fun _ => none) s.queues q

/-- The state with a queue replaced. -/
def State.putQueue (s : State) (q : Nat) (x : Option Queue) : State := { s with queues := Tbl.put (fun _ => none) s.queues q x }

/-! Cells (R355, R356, R358, R362). -/

/-- The bytes that a queue holds outside its end cell. -/
def Queue.held (q : Queue) : Nat :=
  (q.recs.filter (fun r => !r.inEnd)).foldl (fun a r => a + r.bytes.length) 0 - (match q.recs with | r :: _ => if r.inEnd then 0 else q.part | [] => 0)

/-- The cells a queue holds, its end cell excluded. -/
def Queue.cells (q : Queue) : Nat := ceilDiv (q.pos + q.held) 256

/-- R356: a site queue holds an end cell. -/
def Queue.endCell (q : Queue) : Nat := if q.flow < 64 then 1 else 0

/-- R387 PENDING: committed bytes not released. -/
def Queue.pendingBytes (q : Queue) : Nat := q.recs.foldl (fun a r => a + r.bytes.length) 0 - q.part

/-- RQP.POOL_STATUS.FREE_CELLS. -/
def State.freeCells (s : State) : Nat :=
  65536 - s.queues.foldl (fun a p => match p.2 with | some q => a + q.cells + q.endCell | none => a) 0

/-- RQP.COUNTS field i, n more. -/
def State.rqpCount (s : State) (i n : Nat) : State := s.count Obj.rqpCounts 0 ⟨48 * i, 48⟩ ⟨240 + i, 1⟩ n

/-- R387, R367: the pool's status follows a change of its cells: MIN_FREE falls with FREE_CELLS; an exhaustion ends at RESUME_CELLS. -/
def State.poolNote (s : State) : State :=
  let free := s.freeCells
  let s := s.setFld Obj.rqpPoolStatus 0 F.rqpPoolStatusFreeCells free
  let s := s.setFld Obj.rqpPoolStatus 0 F.rqpPoolStatusMinFree (min free (s.fld Obj.rqpPoolStatus 0 F.rqpPoolStatusMinFree))
  if s.fld Obj.rqpPoolStatus 0 F.rqpPoolStatusExhausted = 1 ∧ s.fld Obj.rqpPoolCfg 0 F.rqpPoolCfgResumeCells ≤ free then
    (s.setFld Obj.rqpPoolStatus 0 F.rqpPoolStatusExhausted 0).latch Ev.rqpResumed
  else s

/-- R387: a site's or needle's queue record. -/
def State.queueNote (s : State) (qn : Nat) : State :=
  match s.queue qn with
  | none => s
  | some q =>
    let r := qn + 2 ^ 10 + q.cells % 2 ^ 16 * 2 ^ 16 + q.pendingBytes % 2 ^ 32 * 2 ^ 32
    if q.flow < 64 then s.wr Obj.rqpSiteQueue q.flow r else if q.flow < 80 then s.wr Obj.rqpNeedleQueue (q.flow - 64) r else s

/-- The state with a queue replaced and the pool's and the queue's records following. -/
def State.setQueue (s : State) (qn : Nat) (q : Queue) : State := ((s.putQueue qn (some q)).poolNote).queueNote qn

/-! Results of a site. -/

/-- A field of a site's PTF.SITE_RESULT set. -/
def State.setResult (s : State) (site : Nat) (f : Fld) (v : Nat) : State := s.setFld Obj.ptfSiteResult site f v

/-- R368: a drop of n records of a queue for a cause, the first of them of a stitch. -/
def State.dropRec (s : State) (qn cause stitch n : Nat) : State :=
  match s.queue qn with
  | none => s
  | some q =>
    let g := if q.gap.1 = 0 then (n, cause, stitch) else (q.gap.1 + n, q.gap.2.1, q.gap.2.2)
    let s := (s.putQueue qn (some { q with gap := g })).rqpCount 1 n
    if q.flow < 64 then
      let was := s.fld Obj.ptfSiteResult q.flow F.ptfSiteResultLogIncomplete
      let s := s.count Obj.ptfSiteResult q.flow F.ptfSiteResultDropped F.ptfSiteResultDroppedSat n
      let s := s.setResult q.flow F.ptfSiteResultLogIncomplete 1
      let s := s.setFld Obj.ptfSiteResult q.flow ⟨16 + (cause - 1), 1⟩ 1
      if was = 0 then s.latch Ev.siteLogIncomplete else s
    else s

/-- R368: the log of a queue's site becomes INCOMPLETE without a dropped record (flush). -/
def State.incomplete (s : State) (site cause : Nat) : State :=
  let was := s.fld Obj.ptfSiteResult site F.ptfSiteResultLogIncomplete
  let s := (s.setResult site F.ptfSiteResultLogIncomplete 1).setFld Obj.ptfSiteResult site ⟨16 + (cause - 1), 1⟩ 1
  if was = 0 then s.latch Ev.siteLogIncomplete else s

/-! Records (R363 to R365). -/

/-- R363: a record with its header. -/
def poolRec (typ site seq : Nat) (payload : Bytes) : Bytes :=
  toLE 2 (payload.length + 8) ++ [BitVec.ofNat 8 typ, BitVec.ofNat 8 site] ++ toLE 4 seq ++ payload

/-- The SITE byte of a queue's records. -/
def Queue.siteByte (q : Queue) : Nat := if q.flow < 64 then q.flow else 0xFF

/-- R357, R363: a record of a type for a queue, committed at t. -/
def Queue.record (q : Queue) (typ : Nat) (payload : Bytes) (t stitch run : Nat) (inEnd : Bool) : PoolRec := ⟨poolRec typ q.siteByte q.seq payload, t, inEnd, stitch, run, false⟩

/-- A record appended to a queue. -/
def Queue.push (q : Queue) (r : PoolRec) : Queue :=
  { q with recs := q.recs ++ [r], seq := (q.seq + 1) % 2 ^ 32, written := (q.written + r.bytes.length) % 2 ^ 32 }

/-- R365: the payload of a GAP record. -/
def gapPayload (g : Nat × Nat × Nat) : Bytes := toLE 6 g.1 ++ [BitVec.ofNat 8 g.2.1, 0#8] ++ toLE 8 g.2.2

/-- R369: the queue with the GAP record that precedes the first record after drops. -/
def Queue.withGap (q : Queue) (t run : Nat) : Queue :=
  if q.gap.1 = 0 then q else { q.push (q.record 0x03 (gapPayload q.gap) t q.gap.2.2 run false) with gap := (0, 0, 0) }

/-- R379: RUN of the records that a queue takes now. -/
def State.runOf (s : State) (flow : Nat) : Nat :=
  if flow < 64 then s.fld Obj.ndlCounts (s.fld Obj.ptfSiteResult flow F.ptfSiteResultNeedle) F.ndlCountsStarts % 2 ^ 32
  else if flow < 80 then s.fld Obj.ndlCounts (flow - 64) F.ndlCountsStarts % 2 ^ 32 else 0

/-- R357, R358, R362, R366, R367: a producer's record of a type; `stitch` is the stitch it belongs to. -/
def State.produce (s : State) (qn typ : Nat) (payload : Bytes) (stitch : Nat) : State :=
  match s.queue qn with
  | none => s
  | some q =>
    if s.fld Obj.rqpPoolStatus 0 F.rqpPoolStatusExhausted = 1 then s.dropRec qn 1 stitch 1 else
    let run := s.runOf q.flow
    let g := q.withGap s.now run
    let q' := g.push (g.record typ payload s.now stitch run false)
    if q'.cells > s.fld Obj.rqpPoolCfg 0 F.rqpPoolCfgQueueCells then s.dropRec qn 2 stitch 1
    else if q'.cells - q.cells > s.freeCells then
      let s := (s.setFld Obj.rqpPoolStatus 0 F.rqpPoolStatusExhausted 1).rqpCount 0 1
      (s.latch Ev.rqpExhausted).dropRec qn 1 stitch 1
    else s.setQueue qn q'

/-- R356: a SITE_END record, in the end cell; a GAP record precedes it where its cells can be had. -/
def State.produceEnd (s : State) (qn : Nat) (payload : Bytes) : State :=
  match s.queue qn with
  | none => s
  | some q =>
    let run := s.runOf q.flow
    let g := q.withGap s.now run
    let ok := s.fld Obj.rqpPoolStatus 0 F.rqpPoolStatusExhausted = 0 ∧ g.cells ≤ s.fld Obj.rqpPoolCfg 0 F.rqpPoolCfgQueueCells ∧ g.cells - q.cells ≤ s.freeCells
    let q := if ok then g else q
    s.setQueue qn (q.push (q.record 0x02 payload s.now 0 run true))

/-- The queue that serves a flow. -/
def State.flowQueue (s : State) (flow : Nat) : Option Nat :=
  s.queues.findSome? (fun p => match p.2 with | some q => if q.flow == flow then some p.1 else none | none => none)

/-- A record for a flow's queue, where one is placed. -/
def State.produceFlow (s : State) (flow typ : Nat) (payload : Bytes) (stitch : Nat) : State :=
  match s.flowQueue flow with | some q => s.produce q typ payload stitch | none => s

/-! The fail logger (R353 to R355). -/

/-- R365: the payload of a FAIL record. -/
def failPayload (e : FailEntry) (npins : Nat) : Bytes :=
  toLE 8 e.stitch ++ toLE 4 e.course ++ toLE 4 (e.tset % 64) ++ toLE (8 * ceilDiv npins 32) e.bits

/-- R353 to R355: an entry for the FIFO of a needle's logger. -/
def State.logFail (s : State) (n : Nat) (e : FailEntry) : State :=
  let cfg := s.rd Obj.ptfFailLogCfg n
  let x := s.site e.site
  let limit := Fld.get F.ptfFailLogCfgLimit cfg
  if Fld.get F.ptfFailLogCfgEnable cfg = 0 ∨ (limit ≠ 0 ∧ x.logged ≥ limit) then s
  else
    let r := s.ndl n
    if r.fifo.length ≥ 1024 then
      let s := s.count Obj.ptfFailFifo n F.ptfFailFifoOverruns F.ptfFailFifoOverrunsSat 1
      match s.flowQueue e.site with | some q => s.dropRec q 3 e.stitch 1 | none => s
    else
      let s := s.setNdl n { r with fifo := r.fifo ++ [e] }
      let s := s.setFld Obj.ptfFailFifo n F.ptfFailFifoHighWater (max (r.fifo.length + 1) (s.fld Obj.ptfFailFifo n F.ptfFailFifoHighWater))
      let s := s.setSite e.site { x with logged := x.logged + 1 }
      if limit ≠ 0 ∧ x.logged + 1 = limit then s.setResult e.site F.ptfSiteResultLogLimited 1 else s

/-- R353: one entry drained into a fail record. -/
def State.drainOne (s : State) (n : Nat) : State :=
  let r := s.ndl n
  match r.fifo with
  | [] => s
  | e :: t => (s.setNdl n { r with fifo := t }).produceFlow e.site 0x01 (failPayload e (s.sitePins e.site).length) e.stitch

/-- R353: FAIL_LOGGER_DRAIN. -/
def execFailLoggerDrain (needle : Nat) (s : State) : Res := .next (s.drainOne needle)

/-- R347: the entries that the logger still holds are drained, in order. -/
def State.drainAll : Nat → Nat → State → State
  | 0, _, s => s
  | k + 1, n, s => if (s.ndl n).fifo.isEmpty then s else State.drainAll k n (s.drainOne n)

/-- R365: the payload of a SITE_END record. -/
def State.endPayload (s : State) (site : Nat) : Bytes :=
  let r := s.rd Obj.ptfSiteResult site
  toLE 1 r ++ toLE 1 (r / 2 ^ 8) ++ toLE 6 (Fld.get F.ptfSiteResultFailStitches r) ++ toLE 8 (Fld.get F.ptfSiteResultFirstFail r) ++
    toLE 6 (Fld.get F.ptfSiteResultDropped r) ++ toLE 2 0

/-- R346, R347: the results of a needle that has ended become final on an edge: FINAL sets and the SITE_END records are committed. After a stop on fail
the active sites that hold no FAIL are INVALID. -/
def State.finalize (s : State) (n : Nat) : State :=
  let s := s.drainAll 1024 n
  let stopped := s.ndlState n == 9 && s.fld Obj.ndlStatus n F.ndlStatusFrogCause == 4
  let s := s.setNdl n { s.ndl n with final := none }
  (s.sitesOf n).foldl (fun s i =>
    let s := if stopped && bit (s.ndl n).active i && s.fld Obj.ptfSiteResult i F.ptfSiteResultResult != 2 then s.setResult i F.ptfSiteResultResult 3 else s
    let s := s.setResult i F.ptfSiteResultFinal 1
    match s.flowQueue i with | some q => s.produceEnd q (s.endPayload i) | none => s) s

/-- R347: RESULTS_FINAL. -/
def execResultsFinal (needle : Nat) (s : State) : Res :=
  match (s.ndl needle).final with
  | none => .next s
  | some t => .next ((s.reach t).finalize needle)

/-- R343, R348, R387, R259: what the cast-on edge q + 1 clears for a needle's sites, pins, logger, capture and queues; datalog SEQ starts again with the first record of the new run (R382). -/
def State.clearRun (s : State) (n : Nat) : State :=
  let s := (s.sitesOf n).foldl (fun s i =>
    let s := (s.wr Obj.ptfSiteResult i (1 + n * 2 ^ 24)).setSite i { s.site i with logged := 0 }
    match s.flowQueue i with
    | some q => match s.queue q with | some x => s.putQueue q (some { x with seq := 0 }) | none => s
    | none => s) s
  let s := s.wrAll Obj.ptfPinFails (s.chartPins n) 0
  let s := s.setFld Obj.ptfFailFifo n F.ptfFailFifoHighWater 0
  let s := s.wr Obj.ptfCapStatus n 0
  let s := match s.flowQueue (64 + n) with
    | some q => match s.queue q with | some x => s.putQueue q (some { x with seq := 0 }) | none => s
    | none => s
  s.setNdl n { s.ndl n with capLive := true, capNext := none }

/-! Raw capture (R373 to R376). -/

/-- R373: bits of a capture word for so many pins. -/
def capWidth (npins cb : Nat) : Nat := ((List.range 7).map (fun i => 8 * 2 ^ i)).find? (fun w => decide (npins * cb ≤ w)) |>.getD 512

/-! Datalog (R379 to R383). -/

/-- Bytes of the unacknowledged reports of a subscription (R716): of each the report item, its frame without the 24 bytes of R686 (notes/assumptions/128.md). -/
def Sub.unackedBytes (x : Sub) : Nat := x.unacked.foldl (fun a r => a + (r.2.1.length - 24)) 0

/-- R714: a DATALOG report item. -/
def dlogItem (n dseq : Nat) (b : Bytes) : Bytes := mkItem 0x22 (toBE 2 n ++ toBE 2 0 ++ toBE 4 dseq ++ b)

/-- R716, R717: whether a record fits the window and the report queue. -/
def State.dlogRoom (s : State) (x : Sub) (b : Bytes) : Bool :=
  x.unackedBytes + b.length ≤ x.window && s.reportsWaiting x.session < 256

/-- R716: a record sent on a subscription. -/
def State.dlogNow (s : State) (n : Nat) (x : Sub) (b : Bytes) : State :=
  (s.setSub n (some { x with dseq := (x.dseq + 1) % 2 ^ 32, unacked := x.unacked ++ [(x.dseq, s.reportFrame x.session (dlogItem n x.dseq b), s.now)] })).report x.session (dlogItem n x.dseq b)

/-- The DATALOG subscriptions. -/
def State.dlogSubs (s : State) : List Nat :=
  s.poa.subs.filterMap (fun p => match p.2 with | some x => if x.kind == 3 then some p.1 else none | none => none)

/-- Some DATALOG subscription still has to send a record (R716). -/
def State.dlogHeld (s : State) (b : Bytes) : Bool := s.dlogSubs.any (fun n => match s.sub n with | some x => x.waiting.contains b | none => false)

/-- R387 SENT: a record has been delivered once every DATALOG subscription has sent it. -/
def State.dlogSent (s : State) (b : Bytes) : State :=
  if s.dlogHeld b then s else s.count Obj.ptfDlogStatus 0 F.ptfDlogStatusSent F.ptfDlogStatusSentSat 1

/-- R716: a record for one DATALOG subscription: sent at once where window and queue have room, else waiting. -/
def State.dlogSend (s : State) (n : Nat) (b : Bytes) : State :=
  match s.sub n with
  | none => s
  | some x => if x.waiting.isEmpty && s.dlogRoom x b then s.dlogNow n x b else s.setSub n (some { x with waiting := x.waiting ++ [b] })

/-- R716: the records that wait are sent as far as window and queue allow. -/
def State.dlogPump : Nat → Nat → State → State
  | 0, _, s => s
  | k + 1, n, s =>
    match s.sub n with
    | none => s
    | some x =>
      match x.waiting with
      | [] => s
      | b :: t => if s.dlogRoom x b then State.dlogPump k n (((s.setSub n (some { x with waiting := t })).dlogNow n { x with waiting := t } b).dlogSent b) else s

/-- R379: a datalog record. -/
def State.dlogRec (s : State) (kind site needle seq run : Nat) (payload : Bytes) : Bytes :=
  toLE 2 (32 + payload.length) ++ [BitVec.ofNat 8 kind, BitVec.ofNat 8 site, BitVec.ofNat 8 needle, 0#8] ++ toLE 1 (s.rd Obj.devHeadPosition 0) ++ [0#8] ++
    toLE 4 seq ++ toLE 4 run ++ toLE 12 s.stamp ++ toLE 4 0 ++ payload

/-- R382, R383: a datalog record of a run formed and delivered to every DATALOG subscription, or discarded; SEQ starts at 0 with each run. -/
def State.datalog (s : State) (kind site needle run : Nat) (payload : Bytes) : State :=
  let (n, r) := if site < 64 then ((s.site site).dlog, (s.site site).dlogRun) else ((s.ndl needle).dlog, (s.ndl needle).dlogRun)
  let seq := if r = run then n else 0
  let b := s.dlogRec kind site needle seq run payload
  let next := (seq + 1) % 2 ^ 32
  let s := if site < 64 then s.setSite site { s.site site with dlog := next, dlogRun := run } else s.setNdl needle { s.ndl needle with dlog := next, dlogRun := run }
  match s.dlogSubs with
  | [] => s.count Obj.ptfDlogStatus 0 F.ptfDlogStatusDiscarded F.ptfDlogStatusDiscardedSat 1
  | l => (l.foldl (fun s n => s.dlogSend n b) s).dlogSent b

/-- R380: the PIN_SUMMARY payload of a site. -/
def State.pinSummary (s : State) (site : Nat) : Bytes :=
  (s.sitePins site).flatMap (fun p => toLE 2 p ++ toLE 6 0 ++ toLE 16 (s.rd Obj.ptfPinFails p))

/-- The TYPE of a pool record. -/
def recType (b : Bytes) : Nat := leAt b 2 1

/-- R379: lists of payloads that fit one record of 8,192 bytes. -/
def chunkList : Nat → List Bytes → List (List Bytes)
  | 0, _ => []
  | _ + 1, [] => []
  | k + 1, p :: t => let m := max 1 ((8192 - 40) / max 1 p.length); ((p :: t).take m) :: chunkList k ((p :: t).drop m)

/-- R380: the list records (FAIL_LIST or CAPTURE_INDEX) of consecutive payloads. -/
def State.dlogList (s : State) (kind site needle run : Nat) (l : List Bytes) : State :=
  (chunkList l.length l).foldl (fun s c => s.datalog kind site needle run (toLE 4 c.length ++ toLE 4 0 ++ c.flatten)) s

/-- R399: the core's part of a TRIG_RECORD: the newest header to TAE.LAST_RECORD; TAE_RECORD. -/
def State.unitRecord (s : State) (unit : Nat) (b : Bytes) : State :=
  let l := s.img Obj.taeRecordList unit ++ b
  ((s.wr Obj.taeLastRecord unit (ofLE b)).setImg Obj.taeRecordList unit (l.drop (l.length - 4096))).latch Ev.taeRecord

/-- R380, R381: the payloads of consecutive FAIL or CAP_RUN records of one run, delivered. -/
def State.dlogRun (s : State) (flow : Nat) (l : Nat × List Bytes) : State :=
  if flow < 64 then s.dlogList 0x01 flow (s.fld Obj.ptfSiteResult flow F.ptfSiteResultNeedle) l.1 l.2
  else if flow < 80 then s.dlogList 0x06 0xFF (flow - 64) l.1 l.2 else s

/-- R381, R382, R399: what the cores deliver for the records of a queue, in order; consecutive FAIL or CAP_RUN payloads of one run share a list record. -/
def State.consume (s : State) (flow : Nat) : Nat × List Bytes → List PoolRec → State
  | l, [] => s.dlogRun flow l
  | l, r :: t =>
    let typ := recType r.bytes
    let p := r.bytes.drop 8
    if 80 ≤ flow then State.consume (if typ = 0x10 then s.unitRecord (flow - 80) r.bytes else s) flow l t
    else
      let needle := if flow < 64 then s.fld Obj.ptfSiteResult flow F.ptfSiteResultNeedle else flow - 64
      let mode := s.fld Obj.ptfFailLogCfg needle F.ptfFailLogCfgDlog
      let site := if flow < 64 then flow else 0xFF
      if typ = 0x01 ∧ mode = 1 then State.consume s flow (r.run, []) t
      else if typ = 0x01 ∨ typ = 0x04 then
        if l.1 = r.run then State.consume s flow (r.run, l.2 ++ [p]) t else State.consume (s.dlogRun flow l) flow (r.run, [p]) t
      else
        let s := s.dlogRun flow l
        if typ = 0x02 then
          let s := if mode ≠ 0 then s.datalog 0x02 site needle r.run (s.pinSummary flow) else s
          State.consume (s.datalog 0x03 site needle r.run p) flow (r.run, []) t
        else if mode = 1 ∧ flow < 64 then State.consume s flow (r.run, []) t
        else State.consume (s.datalog (if typ = 0x03 then 0x04 else 0x05) site needle r.run p) flow (r.run, []) t

/-- R383: every DATALOG subscription has sent what the cores have formed for it. -/
def State.dlogIdle (s : State) : Bool := s.dlogSubs.all (fun n => match s.sub n with | some x => x.waiting.isEmpty | none => true)

/-- R359: the records whose bytes a release covers, what is left of the queue, the bytes of the front record that are released, and the bytes left over. -/
def release : Nat → List PoolRec → Nat → List PoolRec × List PoolRec × Nat × Nat
  | n, [], _ => ([], [], 0, n)
  | n, r :: l, part =>
    if r.bytes.length - part ≤ n then
      let (done, rest, p, left) := release (n - (r.bytes.length - part)) l 0
      (r :: done, rest, p, left)
    else ([], r :: l, part + n, 0)

/-- R383: how many bytes of a queue the cores release when they would release so many: no more records than they can deliver, the last of them perhaps still to be sent; none
while a subscription has not sent what they have formed. -/
def State.releasable (s : State) (q : Queue) (bytes : Nat) : Nat :=
  if q.flow < 80 ∧ s.dlogIdle = false then 0 else
  let done := (release bytes q.recs q.part).1
  let all := fun (k : Nat) => ((done.take k).foldl (fun a r => a + r.bytes.length) 0) - q.part
  if 80 ≤ q.flow ∨ (s.consume q.flow (0, []) (done.take (done.length - 1))).dlogIdle = true then bytes
  else all (1 + (((List.range (done.length - 1)).reverse.find? (fun k => (s.consume q.flow (0, []) (done.take k)).dlogIdle)).getD 0))

/-- R372: an error in the pool cell that the front of a queue stands in: bits 1 corrected, 2 the record is to be discarded. -/
def State.cellError (s : State) (queue bits : Nat) : State :=
  match s.queue queue with
  | none => s
  | some q =>
    if bits = 1 then s.rqpCount 4 1
    else if bits = 2 then s.putQueue queue (some { q with recs := match q.recs with | r :: t => { r with bad := true } :: t | [] => [] })
    else s

/-- The core that serves a queue. -/
def State.queueCore (s : State) (q : Queue) : Nat := if q.flow < 64 then s.rd Obj.plcSiteCore q.flow else Tbl.get (fun _ => 255) s.homes q.flow

/-- R372: an error in a cell that a core reads: the cell stands at the front of its lowest queue that holds records (DESIGN CHOICE: the fault names no queue, notes/assumptions/67.md). -/
def State.poolEcc (s : State) (master bits : Nat) : State :=
  match (s.queues.map (·.1)).find? (fun k => match s.queue k with | some q => !q.recs.isEmpty && 0x10 + s.queueCore q % 16 == master | none => false) with
  | some k => s.cellError k bits
  | none => s

/-- R359, R372, R383: POOL_RELEASE: a core has consumed bytes of a queue: they are released, and the datalog of the whole records among them is delivered; a record with a double-bit
error is discarded when it is consumed. -/
def execPoolRelease (queue bytes : Nat) (s : State) : Res :=
  match s.queue queue with
  | none => .next s
  | some q =>
    let bytes := s.releasable q bytes
    if q.recs.isEmpty ∨ bytes = 0 then .next s else
    let core := 0x10 + s.queueCore q % 16
    let (k, s) := s.checked Ev.rqpEccU core
    let s := s.cellError queue k
    let s := if k = 1 then s.raise Ev.rqpEccC 0xFFFF core 1 (q.released / 256) (some 0) false
      else if k = 2 then s.raise Ev.rqpEccU 0xFFFF core 1 (q.released / 256) (some 0) false else s
    let q := (s.queue queue).getD q
    let (done, rest, part, left) := release bytes q.recs q.part
    let q' := { q with recs := rest, part := part, released := (q.released + (bytes - left)) % 2 ^ 32 }
    let s := s.setQueue queue { q' with pos := (q.pos + (q.held - q'.held)) % 256 }
    let s := (done.filter (·.bad)).foldl (fun s r => s.dropRec queue 5 r.stitch 1) s
    .next (s.consume q.flow (0, []) (done.filter (fun r => !r.bad)))

/-! Posting and flushing. -/

/-- R360: the first edge at which a queue's item can be posted, none while no condition holds. R359 only bounds how late a commit and a release are seen: DESIGN CHOICE, a commit
posts exactly 4 FCLK after its edge, while PENDING and the freed cells show at once (notes/assumptions/59.md). -/
def State.postEdge (s : State) (q : Queue) : Option Nat :=
  let vis := fun t => s.edgeAt fclkFs (t + 4 * fclkFs)
  match q.recs with
  | [] => none
  | r0 :: _ =>
    let t := r0.t
    if q.flow < 64 then
      let thr := s.rd Obj.rqpSiteThreshold q.flow
      let cum := (q.recs.foldl (fun (a : Nat × Option Nat) r =>
        let n := a.1 + r.bytes.length
        (n, if a.2.isNone && (decide (n ≥ thr + q.part) || r.inEnd) then some (vis r.t) else a.2)) (0, none)).2
      let age := s.edgeAt fclkFs (vis t + s.rd Obj.rqpSiteAge q.flow)
      some (match cum with | some c => min c age | none => age)
    else some (vis t)

/-- R360, R361: QUEUE_POST: the queue posts its work item; a refused post is tried again. The queues of needles and units have no threshold: they post with their first visible record. -/
def execQueuePost (queue : Nat) (s : State) : Res :=
  match s.queue queue with
  | none => .next s
  | some q =>
    match s.postEdge q with
    | none => .next s
    | some t =>
      let posted := q.posted && s.ready.any (fun i => i.flow == q.flow)
      if posted then .next s else
      let s := s.reach t
      let (ok, s) := s.enqueue q.flow 0 (if q.flow < 64 then 0x20 else if q.flow < 80 then 0x21 else 0x22 + (q.flow - 80))
      .next (s.putQueue queue (some { q with posted := ok }))

/-- R386: step 8 of RQP.FLUSH. -/
def State.flushCond (s : State) (site : Nat) : List (Bool × Nat) := [((s.flowQueue site).isNone, rNoElem)]

/-- R370, R371: the effect of RQP.FLUSH on a site's queue. Records visible to a core that has the flow's item in service are claimed and stay. -/
def State.flushQueue (s : State) (site : Nat) : State :=
  match s.flowQueue site with
  | none => s
  | some qn => match s.queue qn with
    | none => s
    | some q =>
      let since := (List.range 16).findSome? (fun c => match (s.core c).item with | some (i, t) => if i.flow == site then some t else none | none => none)
      let claimed := fun (r : PoolRec) => match since with | some t => decide (r.t + 4 * fclkFs ≤ t) | none => false
      let keep := q.recs.takeWhile claimed
      let gone := q.recs.drop keep.length
      let partGone := if keep.isEmpty then q.part else 0
      let bytes := gone.foldl (fun a r => a + r.bytes.length) 0 - partGone
      let q := { q with recs := keep, part := if keep.isEmpty then 0 else q.part, pos := if keep.isEmpty then 0 else q.pos, released := (q.released + bytes) % 2 ^ 32 }
      let q := q.push (q.record 0x05 (toLE 6 bytes ++ [BitVec.ofNat 8 (gone.any (·.inEnd)).toNat, 0#8]) s.now 0 (s.runOf q.flow) false)
      let s := (s.setQueue qn q).rqpCount 2 1
      s.incomplete site 4

/-- R384, R779: the queues released with a placement: pending records and the waiting items of flows 0–87 are discarded. -/
def State.releaseQueues (s : State) : State :=
  let s := s.queues.foldl (fun s p => match p.2 with
    | none => s
    | some q =>
      if q.recs.isEmpty then s
      else
        let s := s.rqpCount 3 q.recs.length
        if q.flow < 64 then s.incomplete q.flow 6 else s) s
  let s := ({ s with queues := [], ready := s.ready.filter (fun i => decide (88 ≤ i.flow)) }).poolNote
  let s := s.wrAll Obj.rqpSiteQueue (List.range 64) 0
  (s.wrAll Obj.rqpNeedleQueue (List.range 16) 0).setFld Obj.rqpPoolStatus 0 F.rqpPoolStatusQueues 0

end Sys2Proof.Machine
end

