-- ==== Sys2Proof/Machine/Acquire.lean ====
section
/-! DEFINITION. Trigger and acquisition (09_acquisition R391 to R420): unit states, triggers, records. -/
namespace Sys2Proof.Machine

/-- A unit's runtime state. -/
def State.unit (s : State) (u : Nat) : TaeRt := Tbl.get (fun _ => {}) s.tae u

/-- The state with a unit's runtime state replaced. -/
def State.setUnit (s : State) (u : Nat) (x : TaeRt) : State := { s with tae := Tbl.put (fun _ => {}) s.tae u x }

/-- TAE.STATE of a unit (R409). -/
def State.taeState (s : State) (u : Nat) : Nat := s.rd Obj.taeState u

/-- TAE.COUNTS field i, one more. -/
def State.taeCount (s : State) (u i : Nat) : State := s.count Obj.taeCounts u ⟨48 * i, 48⟩ ⟨336 + i, 1⟩ 1

/-- R392: Ts. -/
def State.taeTs (s : State) (u : Nat) : Nat := 156250 * 2 ^ s.fld Obj.taeSampleCfg u F.taeSampleCfgDiv

/-- R393: sw. -/
def State.taeWidth (s : State) (u : Nat) : Nat :=
  let need := popcount 256 (s.rd Obj.taePins u) * (1 + s.fld Obj.taeSampleCfg u F.taeSampleCfgBits)
  ((List.range 5).map (fun i => 8 * 2 ^ i)).find? (fun w => decide (need ≤ w)) |>.getD 128

/-- R394: C. -/
def State.taeRoom (s : State) (u : Nat) : Nat := s.rd Obj.taeBuffer u * 8388608 / s.taeWidth u

/-- PRE + POST. -/
def State.taeSpan (s : State) (u : Nat) : Nat := s.rd Obj.taePre u + s.rd Obj.taePost u

/-- R395: SLOTS. -/
def State.taeSlots (s : State) (u : Nat) : Nat := s.taeRoom u / max 1 (s.taeSpan u)

/-- R392: the number of the first sample at or after an instant. -/
def State.sampleAt (s : State) (u t : Nat) : Nat := ceilDiv (t - s.clk.epoch) (s.taeTs u)

/-- R413: samples numbered from a to below b that fall into no HOLD. -/
def samplesTaken (num : Nat → Nat) (ps : List (Nat × Option Nat)) (a b : Nat) : Nat :=
  let lost := ps.foldl (fun x p =>
    let lo := max a (num p.1)
    let hi := match p.2 with | some e => min b (num e) | none => b
    x + (hi - lo)) 0
  (b - a) - lost

/-- R413: the number of the k-th sample taken from sample a on, past the HOLDs; none while a HOLD that stops it goes on. -/
def sampleAfter (num : Nat → Nat) : List (Nat × Option Nat) → Nat → Nat → Option Nat
  | [], a, k => some (a + k)
  | (p, e) :: t, a, k =>
    if a + k < num p then some (a + k)
    else match e with
      | none => none
      | some e => if num e ≤ a then sampleAfter num t a k else sampleAfter num t (num e) (k - (num p - a))

/-- R396: step 8 of an ARM write. -/
def State.taeArmCond (s : State) (u v : Nat) : List (Bool × Nat) :=
  if v ≠ 1 then [] else
  [((s.flowQueue (80 + u)).isNone, rMode),
   (s.rd Obj.taePost u == 0 || decide (s.rd Obj.taePost u > s.taeRoom u) || decide (s.taeSpan u > s.taeRoom u), rRange)]

/-- R413, R122: no unit takes samples, and triggers count as NOT_ARMED: in HOLD; and in RIDETHRU, where acquisition is stopped (DEDUCED, notes/assumptions/69.md). -/
def State.taePaused (s : State) : Bool := s.mode == .hold || s.mode == .ridethru

/-- R395: the place of the slot of the record to come, in samples. -/
def State.taeSlot (s : State) (u : Nat) : Nat := (s.unit u).next % max 1 (s.taeSlots u) * s.taeSpan u

/-- R409, R410: REARM begins at an instant; the next record's slot is written again from here (R402), and what it held is lost. -/
def State.rearmFrom (s : State) (u t : Nat) : State :=
  let x := s.unit u
  let lo := s.taeSlot u
  let hit := fun (r : TaeRecord) => decide (r.slot < lo + s.taeSpan u ∧ lo < r.slot + r.span)
  (s.wr Obj.taeState u 1).setUnit u { x with
    rearm := some (t + 64 * vclkFs), slotFrom := t, trig := none, armedAt := none, pauses := if s.taePaused then [(t, none)] else [],
    replaces := x.records.any (fun r => hit r && r.gen == x.gen), records := x.records.filter (fun r => !hit r) }

/-- R412: DISARM, and what ends a unit's work with its state DISARMED; a record in POST is abandoned. Triggers on their way still reach the unit (R409, R414). -/
def State.disarmUnit (s : State) (u : Nat) : State :=
  let s := if s.taeState u = 3 then s.taeCount u 6 else s
  (s.wr Obj.taeState u 0).setUnit u { s.unit u with rearm := none, trig := none, armedAt := none }

/-- R409, R412: the effect of a write of TAE.ARM. A unit in REARM, ARMED or POST leaves these states only as R409 lists, so an ARM there changes nothing. -/
def State.taeArm (s : State) (u v : Nat) : State :=
  if v = 0 then s.disarmUnit u
  else if s.taeState u = 0 ∨ s.taeState u = 4 then
    (s.setUnit u { s.unit u with next := 0, gen := (s.unit u).gen + 1, missed := false, events := 0 }).rearmFrom u s.now
  else s

/-- R410: REARM_END. -/
def execRearmEnd (unit : Nat) (s : State) : Res :=
  let x := s.unit unit
  match x.rearm with
  | none => .next s
  | some t =>
    let s := s.reach t
    .next ((s.wr Obj.taeState unit 2).setUnit unit { x with rearm := none, armedAt := some s.now, events := 0 })

/-- R404: an event of a source reaches a unit on an edge. -/
def State.taeEvent (s : State) (u edge t src : Nat) : State :=
  s.setUnit u { s.unit u with waiting := (s.unit u).waiting ++ [⟨edge, t, src⟩] }

/-- R404: whether a unit's SOURCES enable a source 0 to 3. -/
def State.taeEnabled (s : State) (u src : Nat) : Bool := bit (s.fld Obj.taeTrigCfg u F.taeTrigCfgSources) src

/-- R404 CHART, R414: a TRIGGER block whose UNITS hold these units, issued on an edge. -/
def State.taeChart (s : State) (units e : Nat) : State :=
  ((List.range 8).filter (fun u => bit units u)).foldl (fun s u => s.taeEvent u (e + 2 * vclkFs) (e + 2 * vclkFs) 1) s

/-- R404 FAIL: a failing strobe of a pin at an instant whose interval begins on edge e. -/
def State.taeFail (s : State) (pin e t : Nat) : State :=
  ((List.range 8).filter (fun u => bit (s.rd Obj.taePins u) pin && s.taeEnabled u 2)).foldl (fun s u => s.taeEvent u (e + 8 * vclkFs) t 2) s

/-- R404 TRIGIN, R405: an edge at input k in the interval that begins on edge e. -/
def State.taeTrigin (s : State) (k e t : Nat) (falling : Bool) : State :=
  let at' := if bit (s.rd Obj.taeTriginCfg 0) k then e + (t - e) / 250 * 250 else e
  ((List.range 8).filter (fun u => s.taeEnabled u 0 && s.fld Obj.taeTrigCfg u F.taeTrigCfgTrigin == k && (s.fld Obj.taeTrigCfg u F.taeTrigCfgFalling == 1) == falling)).foldl
    (fun s u => s.taeEvent u (e + 3 * vclkFs) at' 0) s

/-- R404 CASCADE: an event byte from a port delivered on an edge. -/
def State.taeCascade (s : State) (port byte edge : Nat) : State :=
  ((List.range 8).filter (fun u => s.taeEnabled u 3 && s.fld Obj.taeTrigCfg u F.taeTrigCfgEvent == byte && bit (s.fld Obj.taeTrigCfg u F.taeTrigCfgPorts) port)).foldl
    (fun s u => s.taeEvent u edge edge 3) s

/-- R404 HOST: the effect of a write of 1 to TAE.FORCE. -/
def State.taeForce (s : State) (u : Nat) : State :=
  let e := s.edgeAt vclkFs (s.now + 1)
  s.taeEvent u e e 4

/-- R409, R414, R413: a trigger that finds the unit not in ARMED. -/
def State.taeTurned (s : State) (u : Nat) : State :=
  let st := s.taeState u
  if s.taePaused || st = 0 || st = 4 then s.taeCount u 3
  else
    let s := if st = 1 then s.taeCount u 1 else s.taeCount u 2
    if (s.unit u).missed then s else (s.setUnit u { s.unit u with missed := true }).latch Ev.taeMissed

/-- R407, R408: the events that reach a unit on one edge. A TRIGGER block is a source of an armed unit only where SOURCES enables it (R404). -/
def State.taeStamp (s : State) (u : Nat) (l : List Trig) : State :=
  if s.taeState u = 2 ∧ !s.taePaused then
    let x := s.unit u
    let l := l.filter (fun e => e.src != 1 || s.taeEnabled u 1)
    let n := x.events + (l.filter (fun e => e.src < 4)).length
    let forced := l.any (fun e => e.src ≥ 4)
    if forced ∨ n ≥ s.fld Obj.taeTrigCfg u F.taeTrigCfgCount then
      match l with
      | [] => s
      | e :: t =>
        let first := t.foldl (fun b c => if c.t < b.t ∨ (c.t = b.t ∧ c.src < b.src) then c else b) e
        let s := if first.src ≥ 4 then s.taeCount u 4 else s
        let s := if x.replaces then s.taeCount u 5 else s
        (s.wr Obj.taeState u 3).setUnit u { x with trig := some first, armedAt := none, events := n }
    else s.setUnit u { x with events := n }
  else l.foldl (fun s _ => s.taeTurned u) s

/-- R411: the edge on which TAE.TIMEOUT expires in ARMED, in AUTO mode. -/
def State.taeExpiry (s : State) (u : Nat) : Option Nat :=
  if s.fld Obj.taeTrigCfg u F.taeTrigCfgMode = 2 then (s.unit u).armedAt.map (fun t => s.edgeAt vclkFs (t + s.rd Obj.taeTimeout u)) else none

/-- R408: all that reaches a unit on one edge. -/
def State.taeArrive (s : State) (u edge : Nat) : State :=
  let s := s.reach edge
  let x := s.unit u
  let late := s.taeExpiry u == some edge
  let s := s.setUnit u { x with waiting := x.waiting.filter (fun c => c.edge != edge), armedAt := if late then some edge else x.armedAt }
  s.taeStamp u (x.waiting.filter (fun c => c.edge == edge) ++ (if late then [⟨edge, edge, 5⟩] else []))

/-- R404: TRIGGER_STAMP: the stamps due next are taken. -/
def execTriggerStamp (unit : Nat) (s : State) : Res :=
  match (s.unit unit).waiting with
  | [] => .next s
  | e :: t => .next (s.taeArrive unit (t.foldl (fun b c => min b c.edge) e.edge))

/-- R411: TAE_TIMEOUT: in AUTO mode ARMED has lasted TAE.TIMEOUT. -/
def execTaeTimeout (unit : Nat) (s : State) : Res :=
  match s.taeExpiry unit with
  | none => .next s
  | some e => .next (s.taeArrive unit e)

/-- R400: the header of a record. TRIG_VCLK counts from the epoch grid edge (R630). -/
def State.trigRecord (s : State) (u seq pre : Nat) (held : Bool) (g : Trig) : Bytes :=
  let x := s.unit u
  let e := s.edgeBefore vclkFs g.t
  toLE 2 64 ++ [0x10#8, 0xFF#8] ++ toLE 4 seq ++ [BitVec.ofNat 8 u, BitVec.ofNat 8 g.src] ++
    toLE 2 ((decide (pre < s.rd Obj.taePre u)).toNat + (decide (g.src ≥ 4)).toNat * 2 + held.toNat * 4) ++
    toLE 4 x.next ++ toLE 4 (x.next % max 1 (s.taeSlots u)) ++ toLE 4 pre ++ toLE 4 (s.rd Obj.taePost u) ++
    toLE 8 ((e - s.epochGrid) / vclkFs) ++ toLE 4 (g.t - e) ++ toLE 12 (s.stampAt g.t) ++ toLE 12 0

/-- R402: the record that TAE.READ_SEL names, complete and not replaced; records are numbered anew from each ARM (R395). -/
def State.taeRecord (s : State) (u : Nat) : Option TaeRecord :=
  (s.unit u).records.find? (fun r => r.num == s.rd Obj.taeReadSel u && r.gen == (s.unit u).gen)

/-- The mark by which a transfer knows its record. -/
def TaeRecord.mark (r : TaeRecord) : Nat := r.num + r.gen * 2 ^ 32

/-- R413: a HOLD begins: no unit takes samples. A pause that is open already goes on. -/
def State.taeHold (s : State) (t : Nat) : State :=
  ((List.range 8).filter (fun u => [1, 2, 3].contains (s.taeState u))).foldl (fun s u =>
    if (s.unit u).pauses.any (·.2.isNone) then s else s.setUnit u { s.unit u with pauses := (s.unit u).pauses ++ [(t, none)] }) s

/-- R413: a HOLD ends. -/
def State.taeResume (s : State) (t : Nat) : State :=
  (List.range 8).foldl (fun s u => s.setUnit u { s.unit u with pauses := (s.unit u).pauses.map (fun p => (p.1, some (p.2.getD t))) }) s

/-- R412, R126: every unit is disarmed. -/
def State.taeStop (s : State) : State := (List.range 8).foldl (fun s u => s.disarmUnit u) s

/-- R412, R420: the buffers go with the placement; their records are lost. -/
def State.taeRelease (s : State) : State :=
  (List.range 8).foldl (fun s u => (s.setUnit u { s.unit u with records := [] }).setImg Obj.taeRecordList u []) s.taeStop

end Sys2Proof.Machine
end

