-- ==== Sys2Proof/Machine/Cascade.lean ====
section
/-! DEFINITION. The cascade links (17_cascade R656 to R682): events, markers, data frames and alignment. -/
namespace Sys2Proof.Machine

/-- A port's runtime state. -/
def State.cport (s : State) (p : Nat) : CslRt := Tbl.get (fun _ => {}) s.csl p

/-- The state with a port's runtime state replaced. -/
def State.setCport (s : State) (p : Nat) (x : CslRt) : State := { s with csl := Tbl.put (fun _ => {}) s.csl p x }

/-- CSL.PORT_STATUS.STATE: 0 OFF, 1 TRAINING, 2 UP, 3 DOWN, 4 FAILED. -/
def State.cslState (s : State) (p : Nat) : Nat := s.fld Obj.cslPortStatus p F.cslPortStatusState

/-- The state with a port's STATE replaced. -/
def State.setCslState (s : State) (p v : Nat) : State := s.setFld Obj.cslPortStatus p F.cslPortStatusState v

/-- CSL.COUNTS field i of a port, one more. -/
def State.cslCount (s : State) (p i : Nat) : State := s.count Obj.cslCounts p ⟨48 * i, 48⟩ ⟨336 + i, 1⟩ 1

/-- R177, R662, R663: a SIGNAL block issued on an edge. -/
def State.signal (s : State) (byte ports e : Nat) : State :=
  (members 4 ports).foldl (fun s p =>
    if s.cslState p = 2 then s.setCport p { s.cport p with tx := (s.cport p).tx ++ [(e, byte)] } else s.cslCount p 3) s

/-- R657, R662: the first column boundary at or after an instant. -/
def State.columnAt (s : State) (t : Nat) : Nat := s.clk.epoch + ceilDiv (t - s.clk.epoch) 781250 * 781250

/-- R662: EVENT_SEND: the oldest event of a port leaves the lane balls. -/
def execEventSend (port : Nat) (s : State) : Res :=
  match (s.cport port).tx with
  | [] => .next s
  | (e, b) :: t =>
    let s := s.reach (s.columnAt (e + 8 * vclkFs))
    .next (((s.setCport port { s.cport port with tx := t }).emit (.cascade port 0 b [])).cslCount port 0)

/-- R659: the byte that at least three lanes carry with good checks. -/
def laneVote (lanes : Lanes) : Option Nat :=
  (lanes.map (·.1)).find? (fun b => decide (3 ≤ (lanes.filter (fun l => l.2 && l.1 == b)).length))

/-- R659, R665, R670: EVENT_RECEIVE: the event that left its sender's block on the issue edge at sentAt has come. -/
def execEventReceive (port : Nat) (lanes : Lanes) (sentAt : Nat) (s : State) : Res :=
  if s.cslState port ≠ 2 then .next s else
  match laneVote lanes with
  | none => .next (s.cslCount port 2)
  | some b =>
    if s.fld Obj.cslPortStatus port F.cslPortStatusLatValid = 0 then .next (s.cslCount port 4)
    else if s.fld Obj.cslPortCfg port F.cslPortCfgRxEvents = 0 then .next s
    else
      let due := s.edgeAt vclkFs (sentAt + (37 + s.fld Obj.cslPortStatus port F.cslPortStatusExtra) * vclkFs)
      .next (s.setCport port { s.cport port with rx := (s.cport port).rx ++ [⟨due, b % 256⟩] })

/-- R171, R228: an event reaches the latches of the needles that have cast on; a latch keeps the first edge. -/
def State.latchEvent (s : State) (source select mask edge : Nat) : State :=
  let k := source * 256 + select
  let s := { s with evts := s.evts.filter (fun x => decide (s.now ≤ x.2.2 + usFs)) ++ [(k, mask, edge)] }
  ((needles s.busyNeedle).filter (bit mask)).foldl (fun s n =>
    let r := s.ndl n
    match Tbl.get (fun _ => none) r.latches k with
    | some _ => s
    | none => s.setNdl n { r with latches := Tbl.put (fun _ => none) r.latches k (some edge) }) s

/-- R665: EVENT_DELIVERY: the accepted event that is due first reaches latches and units. -/
def execEventDelivery (port : Nat) (s : State) : Res :=
  match (s.cport port).rx with
  | [] => .next s
  | e :: t =>
    let s := s.reach e.due
    let s := (s.setCport port { s.cport port with rx := t }).cslCount port 1
    .next ((s.latchEvent 0 e.byte (2 ^ 16 - 1) e.due).taeCascade port e.byte e.due)

/-- R668: EXTRA for a flight time in fs. -/
def extraOf (f : Nat) : Nat := ceilDiv (f - 5000000) 1250000

/-- R668, R669: LATENCY_MARKER: a marker arrives with a flight time in fs. -/
def execLatencyMarker (port flight : Nat) (s : State) : Res :=
  if s.cslState port ≠ 2 then .next s else
  let bad := fun (s : State) => (s.setFld Obj.cslPortStatus port F.cslPortStatusLatValid 0).raiseAll Ev.cslLatency port
  match (s.cport port).flight with
  | none =>
    let s := s.setCport port { s.cport port with flight := some flight }
    if flight > 25000000 ∨ s.fld Obj.clkState 0 F.clkStateAligned = 0 then .next (bad s)
    else
      let s := s.setFld Obj.cslPortStatus port F.cslPortStatusExtra (extraOf flight)
      .next ((s.setFld Obj.cslPortStatus port F.cslPortStatusFlight (flight / 1000)).setFld Obj.cslPortStatus port F.cslPortStatusLatValid 1)
  | some f =>
    if s.fld Obj.cslPortStatus port F.cslPortStatusLatValid = 1 ∧ (flight > f + 500000 ∨ f > flight + 500000 ∨ flight > 25000000) then .next (bad s) else .next s

/-- R660, R678: CASCADE_FRAME: the bytes from LEN to the CRC of a received frame. -/
def execCascadeFrame (port : Nat) (frame : Bytes) (aborted : Bool) (s : State) : Res :=
  if s.cslState port ≠ 2 then .next s else
  let n := leAt frame 0 2
  if aborted || n < 1 || n > 1024 || frame.length != n + 8 || crc32 (frame.take (n + 4)) != leAt frame (n + 4) 4 then .next (s.cslCount port 5)
  else
    let box := (s.cport port).inbox ++ [toLE 2 n ++ slice frame 4 n]
    let s := if box.length > 16 then s.cslCount port 4 else s
    .next (s.setCport port { s.cport port with inbox := lastN 16 box })

/-- R675: CSL_LINK_DOWN: a lane fails and takes its port DOWN; AUTO_ALIGN starts an alignment. No marker makes LAT_VALID set before the next epoch from SYNC. -/
def execCslLinkDown (port lane : Nat) (s : State) : Res :=
  if s.cslState port ≠ 2 then .next s else
  let s := (s.setCslState port 3).setFld Obj.cslLaneStatus (port * 256 + lane) F.cslLaneStatusComma 0
  let s := s.setFld Obj.cslPortStatus port F.cslPortStatusLatValid 0
  let s := s.setCport port { s.cport port with frame := none, tx := [], flight := some ((s.cport port).flight.getD 0) }
  let s := (s.cslCount port 6).raiseAll Ev.cslLinkDown port
  .next (if s.fld Obj.cslPortCfg port F.cslPortCfgAutoAlign = 1 then s.setCslState port 1 else s)

/-- A port reads UP (R681). -/
def State.cslUp (s : State) (port : Nat) : State := (s.setCslState port 2).latch Ev.cslLinkUp

/-- R672: whether every lane has COMMA and DESKEWED set. -/
def State.lanesGood (s : State) (port : Nat) : Bool :=
  (List.range 4).all (fun l => s.fld Obj.cslLaneStatus (port * 256 + l) F.cslLaneStatusComma == 1 && s.fld Obj.cslLaneStatus (port * 256 + l) F.cslLaneStatusDeskewed == 1)

/-- R672, R676: the effect of a write of CSL.ALIGN: 1 AUTO, 2 MANUAL, 3 DONE. While PD15 is off a port stays OFF. -/
def State.align (s : State) (port v : Nat) : State :=
  if !s.domOn 15 then s
  else if v = 1 then (s.setCport port { s.cport port with manual := false }).setCslState port 1
  else if v = 2 then (s.setCport port { s.cport port with manual := true }).setCslState port 1
  else if (s.cport port).manual then
    let s := s.setCport port { s.cport port with manual := false }
    if s.lanesGood port then s.cslUp port else s.setCslState port 4
  else s

/-- The settings that an alignment gives a lane (R671). -/
def State.setLane (s : State) (el : Nat) (f : Option (Nat × Nat × Nat)) : State :=
  match f with
  | none => (s.setFld Obj.cslLaneStatus el F.cslLaneStatusComma 0).setFld Obj.cslLaneStatus el F.cslLaneStatusDeskewed 0
  | some (ph, sl, dk) =>
    let s := s.wr Obj.cslLaneCtrl el (ph % 64 + sl % 16 * 64 + dk % 8 * 1024)
    (s.setFld Obj.cslLaneStatus el F.cslLaneStatusComma 1).setFld Obj.cslLaneStatus el F.cslLaneStatusDeskewed 1

/-- R672, R674: ALIGNMENT_COMPLETE: an AUTO alignment ends with the settings found per lane, none for a lane that did not align. -/
def execAlignmentComplete (port : Nat) (lanes : LaneFits) (s : State) : Res :=
  if s.cslState port ≠ 1 ∨ (s.cport port).manual = true then .next s else
  let s := (List.range 4).foldl (fun s l => s.setLane (port * 256 + l) ((lanes[l]?).join)) s
  if s.lanesGood port then .next (s.cslUp port)
  else
    let s := s.setCslState port 4
    .next (if s.mode == .boot then s.raiseAll Ev.cslLinkDown port else s)

/-- R673: the effect of a write of 1 to CSL.LANE_TEST. -/
def State.laneTest (s : State) (el : Nat) : State :=
  let x := s.cport (el / 256)
  (s.setCport (el / 256) { x with test := Tbl.put (fun _ => none) x.test (el % 256) (some (s.now + 10 * usFs)) }).setFld Obj.cslLaneStatus el F.cslLaneStatusTestDone 0

/-- R673: LANE_TEST_DONE: the test ends with so many code errors; COMMA and DESKEWED as the receiver finds them at the current settings. -/
def execLaneTestDone (el errors : Nat) (comma deskewed : Bool) (s : State) : Res :=
  let x := s.cport (el / 256)
  match Tbl.get (fun _ => none) x.test (el % 256) with
  | none => .next s
  | some t =>
    let s := (s.reach t).setCport (el / 256) { x with test := Tbl.put (fun _ => none) x.test (el % 256) none }
    let s := (s.setFld Obj.cslLaneStatus el F.cslLaneStatusTestErrors (min errors (2 ^ 48 - 1))).setFld Obj.cslLaneStatus el F.cslLaneStatusTestDone 1
    let s := (s.setFld Obj.cslLaneStatus el F.cslLaneStatusComma comma.toNat).setFld Obj.cslLaneStatus el F.cslLaneStatusDeskewed deskewed.toNat
    .next (s.count Obj.cslLaneStatus el F.cslLaneStatusCodeErrors F.cslLaneStatusCodeSat errors)

/-- R678: step 8 of a transfer to CSL.MSG_SEND. -/
def State.msgCond (s : State) (port total : Nat) : List (Bool × Nat) :=
  [(s.cslState port != 2 || (s.cport port).frame.isSome, rBusy), (total < 1 || decide (total > 1024), rRange)]

/-- R678: a complete transfer to CSL.MSG_SEND starts its frame. -/
def State.msgSend (s : State) (port : Nat) (b : Bytes) : State := s.setCport port { s.cport port with frame := some b }

/-- R660: the frame's bytes from LEN to its CRC. -/
def cascadeFrame (b : Bytes) : Bytes := let h := toLE 2 b.length ++ [0#8, 0#8] ++ b; h ++ toLE 4 (crc32 h)

/-- R660, R678: CSL_FRAME_SENT: the last column of the frame leaves the port. -/
def execCslFrameSent (port : Nat) (s : State) : Res :=
  match (s.cport port).frame with
  | none => .next s
  | some b => .next ((s.setCport port { s.cport port with frame := none }).emit (.cascade port 2 0 (cascadeFrame b)))

/-- R678: what a read of CSL.MSG_RECV returns, and the state after it. -/
def State.msgRecv (s : State) (port : Nat) : Bytes × State := ((s.cport port).inbox.flatten, s.setCport port { s.cport port with inbox := [] })

/-- R676: PD15 goes off. -/
def State.cslOff (s : State) : State :=
  (List.range 4).foldl (fun s p => ((s.wr Obj.cslPortStatus p 0).setCport p {})) s

/-- R674, R676: AUTO alignment of every enabled port. -/
def State.cslStart (s : State) : State :=
  ((List.range 4).filter (fun p => s.fld Obj.cslPortCfg p F.cslPortCfgEnable == 1)).foldl (fun s p => s.align p 1) s

end Sys2Proof.Machine
end

