-- ==== Sys2Proof/Machine/Waves.lean ====
section
/-! DEFINITION. Wave tables: their image, its checks and the life of a table (07_pin_timing R292 to R306). -/
namespace Sys2Proof.Machine

/-- R50: the element of a needle's timing set. -/
def waveEl (needle tset : Nat) : Nat := needle * 256 + tset

/-- The course of wave w (0 to 15) of chart pin j, or its selector (w = 16), as a number (R292). -/
def waveCourse (img : Bytes) (j w : Nat) : Nat := ofLE (slice img (64 * (1 + 17 * j + w)) 64)

/-- R293: NPINS and PERIOD of an image. -/
def wNpins (img : Bytes) : Nat := leAt img 6 2
def wPeriod (img : Bytes) : Nat := leAt img 8 8

/-- R294: entry i of a wave course. -/
def wEntry (c i : Nat) : Nat := Fld.get ⟨64 * i, 64⟩ c
def eValid (e : Nat) : Bool := bit e 63
def eOffset (e : Nat) : Nat := e % 2 ^ 48
def eAction (e : Nat) : Nat := Fld.get ⟨48, 4⟩ e
/-- R297: the wave control. -/
def wControl (c : Nat) : Nat := Fld.get ⟨384, 64⟩ c
def wWindow (c : Nat) : Bool := bit c 384

/-- R295: a drive action is a transition of DRV. -/
def drvAction (a : Nat) : Bool := a == 0 || a == 1 || a == 4 || a == 5
/-- R295: a drive action is a transition of DEN. -/
def denAction (a : Nat) : Bool := a < 4
/-- The level that a DRV transition takes. -/
def drvLevel (a : Nat) : Bool := a == 1 || a == 5
/-- The level that a DEN transition takes. -/
def denLevel (a : Nat) : Bool := a != 2

/-- R300: the largest numbers of drive edges and strobes for a period. -/
def waveLimits (p : Nat) : Nat × Nat := if p < 625000 then (1, 1) else if p < 1250000 then (2, 1) else (4, 2)

/-- The valid drive edges of a wave: entry number, offset, action. -/
def wEdges (c : Nat) : List (Nat × Nat × Nat) :=
  ((List.range 4).filter (fun i => eValid (wEntry c i))).map (fun i => (i, eOffset (wEntry c i), eAction (wEntry c i)))

/-- The valid strobes of a wave: entry number, offset, action. -/
def wStrobes (c : Nat) : List (Nat × Nat × Nat) :=
  ([4, 5].filter (fun i => eValid (wEntry c i))).map (fun i => (i, eOffset (wEntry c i), eAction (wEntry c i)))

/-- R305 check 0x05 on an entry. -/
def entryOk (c i : Nat) : Bool :=
  let e := wEntry c i
  if eValid e then eAction e < (if i < 4 then 6 else 5) && Fld.get ⟨52, 11⟩ e == 0 else e == 0

/-- R305 check 0x06: the first entry beyond the counts of R300. -/
def countFail (p c : Nat) : Option Nat :=
  let (d, k) := waveLimits p
  match (wEdges c)[d]? with
  | some e => some e.1
  | none => ((wStrobes c)[k]?).map (·.1)

/-- R301: the first entry out of order, after a gap, or beyond the period. -/
def orderFail (p c : Nat) : Option Nat :=
  let bad := fun (i lo : Nat) =>
    let e := wEntry c i
    eValid e && (decide (eOffset e * 500 ≥ p) || (decide (lo < i) && (!eValid (wEntry c (i - 1)) || decide (eOffset e ≤ eOffset (wEntry c (i - 1))))))
  (List.range 6).find? (fun i => bad i (if i < 4 then 0 else 4))

/-- R302: among transitions of one signal, the first that follows its predecessor too closely. -/
def closeFail : List (Nat × Nat × Nat) → Option Nat
  | (_, a, _) :: (j, b, y) :: t => if (b - a) * 500 < 150000 then some j else closeFail ((j, b, y) :: t)
  | _ => none

/-- R305 check 0x08. -/
def spaceFail (c : Nat) : Option Nat :=
  let f := closeFail ((wEdges c).filter (fun e => drvAction e.2.2))
  let g := closeFail ((wEdges c).filter (fun e => denAction e.2.2))
  match f, g with | some a, some b => some (min a b) | some a, none => some a | none, x => x

/-- R305 check 0x09, R304. -/
def windowOk (p c : Nat) : Bool :=
  wControl c < 2 && Fld.get ⟨448, 64⟩ c == 0 &&
  (!wWindow c || (decide (p ≥ 1250000) && match wStrobes c with | [a, b] => a.2.2 == b.2.2 && decide (a.2.2 < 4) | _ => false))

/-- The waves of an image in order: chart pin, wave, course. -/
def allWaves (img : Bytes) : List (Nat × Nat × Nat) :=
  (List.range (wNpins img)).flatMap (fun j => (List.range 16).map (fun w => (j, w, waveCourse img j w)))

/-- R305 check 0x0A: in NRZ fast mode, the first wave of a pin whose edge or strobe offset differs from the pin's first. -/
def fastFail (waves : List (Nat × Nat × Nat)) (j : Nat) : Option (Nat × Nat) :=
  let mine := waves.filter (fun x => x.1 == j)
  let differs := fun (get : Nat → List (Nat × Nat × Nat)) =>
    let l : List (Nat × Nat × Nat) := mine.flatMap (fun x => (get x.2.2).map (fun e => (x.2.1, e.1, e.2.1)))
    match l with | [] => none | (_, _, o) :: _ => (l.find? (fun (y : Nat × Nat × Nat) => y.2.2 != o)).map (fun (y : Nat × Nat × Nat) => (y.1, y.2.1))
  match differs wEdges, differs wStrobes with
  | some a, some b => some (if b.1 < a.1 then b else a)
  | some a, none => some a
  | none, x => x

/-- R305: the checks in order: none where all pass, else check, chart pin, wave, entry of the first failure. -/
def waveChecks (img : Bytes) : Option (Nat × Nat × Nat × Nat) :=
  let p := wPeriod img
  if leAt img 0 4 ≠ 0x45564157 ∨ leAt img 4 2 ≠ 0x0100 then some (1, 0, 0, 7)
  else if wNpins img < 1 ∨ wNpins img > 256 ∨ p < 156250 ∨ p > 1000000000000000 ∨ leAt img 56 8 ≠ 0 then some (2, 0, 0, 7)
  else if img.length ≠ leAt img 16 4 * 64 ∨ leAt img 16 4 ≠ 1 + 17 * wNpins img then some (3, 0, 0, 7)
  else if !imageCrcOk img 20 then some (4, 0, 0, 7)
  else
    let ws := allWaves img
    let first := fun (k : Nat) (f : Nat → Option Nat) => ws.findSome? (fun x => (f x.2.2).map (fun i => (k, x.1, x.2.1, i)))
    (first 5 (fun c => (List.range 6).find? (fun i => !entryOk c i)) <|>
     first 6 (countFail p) <|> first 7 (orderFail p) <|> first 8 spaceFail <|>
     first 9 (fun c => if windowOk p c then none else some 6) <|>
     (if p < 625000 then (List.range (wNpins img)).findSome? (fun j => (fastFail ws j).map (fun x => (10, j, x.1, x.2))) else none) <|>
     (List.range (wNpins img)).findSome? (fun j => if waveCourse img j 16 < 2 ^ 16 then none else some (11, j, 0, 7)))

/-! The life of a table (R305, R306, R335). -/

/-- PTF.WAVE_STATE of a table. -/
def State.waveState (s : State) (el : Nat) : Nat := s.rd Obj.ptfWaveState el

/-- R305: step 8 of a wave table's DOMAIN_BEGIN for writing. -/
def State.waveBeginCond (s : State) (el total : Nat) : List (Bool × Nat) :=
  [(s.waveState el == 1, rBusy), (s.waveState el == 4, rInUse), (decide (total > 1048576), rRange)]

/-- R306: PTF.WAVE_ERROR. -/
def State.waveError (s : State) (el reason : Nat) (f : Nat × Nat × Nat × Nat) : State :=
  s.wr Obj.ptfWaveError el (reason + f.1 * 2 ^ 16 + f.2.1 * 2 ^ 24 + f.2.2.1 * 2 ^ 32 + f.2.2.2 * 2 ^ 36)

/-- What a table holds when it holds no image. -/
def State.waveClear (s : State) (el st : Nat) : State :=
  ((s.wr Obj.ptfWaveState el st).wr Obj.ptfWaveInfo el 0).setImg Obj.ptfWaveTable el []

/-- R300: RANGE of a period. -/
def waveRange (p : Nat) : Nat := if p < 625000 then 0 else if p < 1250000 then 1 else 2

/-- R336: PTF.WAVE_INFO of an image. -/
def waveInfo (img : Bytes) : Nat :=
  wPeriod img + wNpins img * 2 ^ 64 + waveRange (wPeriod img) * 2 ^ 80 + ((allWaves img).any (fun x => wWindow x.2.2)).toNat * 2 ^ 82 + leAt img 20 4 * 2 ^ 96

/-- R305, R707: the validation of a wave table's transfer ends. -/
def State.validateWave (s : State) (el : Nat) : State :=
  match s.writing Obj.ptfWaveTable el with
  | none => s
  | some (id, x) =>
    if !x.validating then s else
    let s := s.setXfer id none
    match waveChecks x.data with
    | none =>
      (((s.wr Obj.ptfWaveState el 2).wr Obj.ptfWaveInfo el (waveInfo x.data)).setImg Obj.ptfWaveTable el x.data).result (.xfer id) rOk (checkOf 0)
    | some f => ((s.waveClear el 3).waveError el rFormat f).result (.xfer id) rFormat (checkOf f.1)

/-- R335, R194: a delete of a table. -/
def State.waveDelete (s : State) (el : Nat) : State :=
  let s := match s.writing Obj.ptfWaveTable el with
    | some (id, x) => if x.validating then (s.setXfer id none).result (.xfer id) rSeq [] else s.setXfer id none
    | none => s
  s.waveClear el 0

/-- The period of a needle's timing set. -/
def State.period (s : State) (n tset : Nat) : Nat := wPeriod (s.img Obj.ptfWaveTable (waveEl n tset))

/-- R298, R560: the wave course of chart pin j for a stitch code; 2-bit codes go through the selector. -/
def waveFor (img : Bytes) (j code bpp : Nat) : Nat :=
  let w := if bpp = 0 then Fld.get ⟨4 * code, 4⟩ (waveCourse img j 16) else code
  waveCourse img j w

end Sys2Proof.Machine
end

