-- ==== Sys2Proof/Machine/Pins.lean ====
section
/-! DEFINITION. The timing channels (07_pin_timing R290, R308 to R317, R853): edges, strobes, parking, MEASURE. -/
namespace Sys2Proof.Machine

/-- A pin's runtime state. -/
def State.pin (s : State) (p : Nat) : PinRt := Tbl.get (fun _ => {}) s.pins p

/-- The state with a pin's runtime state replaced. -/
def State.setPin (s : State) (p : Nat) (x : PinRt) : State := { s with pins := Tbl.put (fun _ => {}) s.pins p x }

/-- R309: field q of a pin's gauge in effect, in units of 0.5 ps. -/
def State.gauge (s : State) (p q : Nat) : Int := toSigned 16 (Fld.get ⟨16 * q, 16⟩ (s.rd Obj.ptfGaugeActive p))

/-- R290: an instant rounded to the grid of 500 fs counted from the epoch, ties to the later multiple. -/
def State.onGrid (s : State) (t : Int) : Int :=
  let e : Int := s.clk.epoch
  e + (2 * (t - e) + 500) / 1000 * 500

/-- R290: the corrected instant of an offset in a stitch that starts at `start`. -/
def State.corrected (s : State) (p q start off : Nat) : Int := s.onGrid ((start : Int) + (off : Int) * 500 + s.gauge p q * 500)

/-- R319: the level at the balls for a logical level. -/
def State.ballLevel (s : State) (p : Nat) (den high : Bool) : Bool :=
  high != bit (s.rd Obj.ptfPinCfg p) (if den then 1 else 0)

/-- R310: a changing transition of a signal: its instant, moved where it follows the preceding one too closely. -/
def spaced (last : Option Int) (t : Int) : Int := match last with | some l => if t < l + 150000 then l + 150000 else t | none => t

/-- R310, R338: a transition has been moved. -/
def State.collision (s : State) (p : Nat) : State :=
  let s := s.count Obj.ptfCounts p F.ptfCountsCollisions F.ptfCountsCollisionsSat 1
  if (s.pin p).collided then s else (s.setPin p { s.pin p with collided := true }).latch Ev.ptfCollision

/-- R308, R310: DRV of a pin of a needle goes to a level at an instant; nothing happens where it holds that level. -/
def State.drvEdge (s : State) (n p : Nat) (high : Bool) (t : Int) : State :=
  let x := s.pin p
  if x.drv = high then s else
  let t' := spaced x.drvAt t
  let s := s.setPin p { x with drv := high, drvAt := some t' }
  let s := s.setNdl n { s.ndl n with edges := (s.ndl n).edges ++ [⟨t'.toNat, p, false, high⟩] }
  if t' ≠ t then s.collision p else s

/-- R308, R310: DEN of a pin of a needle goes to a level at an instant. -/
def State.denEdge (s : State) (n p : Nat) (high : Bool) (t : Int) : State :=
  let x := s.pin p
  if x.den = high then s else
  let t' := spaced x.denAt t
  let s := s.setPin p { x with den := high, denAt := some t' }
  let s := s.setNdl n { s.ndl n with edges := (s.ndl n).edges ++ [⟨t'.toNat, p, true, high⟩] }
  if t' ≠ t then s.collision p else s

/-- R308, R853: one drive edge of a wave, in a stitch that starts at `start`. -/
def State.driveEdge (s : State) (n p start : Nat) (e : Nat × Nat × Nat) : State :=
  let (_, off, a) := e
  let s := if drvAction a then s.drvEdge n p (drvLevel a) (s.corrected p (if drvLevel a then 0 else 1) start off) else s
  if denAction a then
    let s := s.setPin p { s.pin p with waveDen := denLevel a }
    if (s.pin p).masked then s else s.denEdge n p (denLevel a) (s.corrected p (if denLevel a then 2 else 3) start off)
  else s

/-- R853: a pin's DEN is held at 0, or released, at the start of a stitch. -/
def State.maskPin (s : State) (n p start : Nat) (m : Bool) : State :=
  let x := s.pin p
  if x.masked = m then s else
  let s := s.setPin p { x with masked := m }
  let want := !m && x.waveDen
  s.denEdge n p want (s.corrected p (if want then 2 else 3) start 0)

/-- R296: the comparators that a strobe action uses: CMH, CML. -/
def usesCmh (a : Nat) : Bool := a != 0
def usesCml (a : Nat) : Bool := a != 1

/-- The largest of the instants that a strobe uses (R311). -/
def laterOf (a : Nat) (h l : Int) : Nat := (if usesCmh a && usesCml a then max h l else if usesCmh a then h else l).toNat

/-- R312: BCLK edges, shifted by a comparator's gauge, strictly between two instants. -/
def State.bclkBetween (s : State) (p q : Nat) (a b : Int) : Nat :=
  let o : Int := (s.clk.epoch : Int) + s.gauge p q * 500
  ((b - o - 1) / 156250 - (a - o) / 156250).toNat

/-- R311, R312: the strobes of a pin's wave. -/
def State.strobesOf (s : State) (p site start c : Nat) : List Strobe :=
  match wStrobes c with
  | [] => []
  | (i, o, a) :: rest =>
    if wWindow c then
      match rest with
      | [] => []
      | (_, o1, _) :: _ =>
        let h0 := s.corrected p 4 start o
        let h1 := s.corrected p 4 start o1
        let l0 := s.corrected p 5 start o
        let l1 := s.corrected p 5 start o1
        [⟨p, site, 0, a, laterOf a h1 l1, if usesCmh a then 2 + s.bclkBetween p 4 h0 h1 else 0, if usesCml a then 2 + s.bclkBetween p 5 l0 l1 else 0⟩]
    else
      ((i, o, a) :: rest).map (fun e =>
        ⟨p, site, e.1 - 4, e.2.2, laterOf e.2.2 (s.corrected p 4 start e.2.1) (s.corrected p 5 start e.2.1), (usesCmh e.2.2).toNat, (usesCml e.2.2).toNat⟩)

/-- R296, R312: whether a strobe passes on its samples of CMH and CML: every sampling point must pass. -/
def strobePasses (a : Nat) (h l : List Bool) : Bool :=
  match a with
  | 0 => l.all id
  | 1 => h.all id
  | 2 => h.all (!·) && l.all (!·)
  | 3 => (List.range (max h.length l.length)).all (fun i => h.getD i false || l.getD i false)
  | _ => true

/-- The site of a pin, 64 for none. -/
def State.pinSite (s : State) (n p : Nat) : Nat := ((s.sitesOf n).find? (fun i => bit (s.rd Obj.ndlSitePins i) p)).getD 64

/-- R315: PTF.PIN_STATE of pins set. -/
def State.pinStates (s : State) (ps : List Nat) (v : Nat) : State := s.wrAll Obj.ptfPinState ps v

/-- R321: the output pairs of a pin's bank are driven. -/
def State.driven (s : State) (p : Nat) : Bool := s.domOn (p / 32 + 1)

/-- R319, R321: an edge of a pin, in the logical sense, passes the balls. -/
def State.passEdge (s : State) (p : Nat) (den high : Bool) (t : Nat) : State :=
  let x := s.pin p
  let s := s.setPin p (if den then { x with ballDen := high, ballDenAt := some (t : Int) } else { x with ballDrv := high, ballDrvAt := some (t : Int) })
  if s.driven p then s.emit (.edge p den (s.ballLevel p den high) t) else s

/-- An edge that has passed the balls. -/
def State.emitEdge (s : State) (e : PinEdge) : State := s.passEdge e.pin e.den e.high e.t

/-- R319: PTF.PIN_CFG of a pin is written: the pairs whose inversion changes turn over. -/
def State.pinCfg (s : State) (p v : Nat) : State :=
  let x := s.pin p
  let s' := s.wr Obj.ptfPinCfg p v
  if !s.driven p then s' else
  let turn := fun (s' : State) (den high : Bool) => if s'.ballLevel p den high = s.ballLevel p den high then s' else s'.emit (.edge p den (s'.ballLevel p den high) s'.now)
  turn (turn s' true x.ballDen) false x.ballDrv

/-- R319: a comparator sample of a pin in its logical sense: bit 0 CMH, bit 1 CML. -/
def State.cmpSense (s : State) (p : Nat) (cml : Bool) (v : Bool) : Bool := v != bit (s.rd Obj.ptfPinCfg p) (if cml then 3 else 2)

/-- The edges of a needle that have passed by now. -/
def State.flushEdges (s : State) (n : Nat) : State :=
  let r := s.ndl n
  (r.edges.filter (fun e => decide (e.t ≤ s.now))).foldl State.emitEdge (s.setNdl n { r with edges := r.edges.filter (fun e => decide (s.now < e.t)) })

/-- R310, R316: a pin parks on an edge: DEN goes to 0, and DRV to 0 at least 1 ns later (how much later is a free value, notes/assumptions/3.md). Edges that have not
passed the balls by then never come. -/
def State.parkPin (s : State) (t p : Nat) : State :=
  let x := s.pin p
  let later := t + nsFs + Config.freeValue s.freeCtr
  let s := if x.ballDen then s.passEdge p true false t else s
  let s := if x.ballDrv then s.draw.passEdge p false false later else s
  let y := s.pin p
  (s.setPin p { y with den := false, drv := false, waveDen := false, masked := false, denAt := y.ballDenAt, drvAt := y.ballDrvAt }).wr Obj.ptfPinState p (if s.rd Obj.ptfPinState p = 0 then 0 else 1)

/-- R235, R316: the pins of a needle park on an edge: edges before it have passed, later ones never come. -/
def State.parkNeedle (s : State) (n t : Nat) : State :=
  let r := s.ndl n
  let s := (r.edges.filter (fun e => decide (e.t < t))).foldl State.emitEdge (s.setNdl n { r with edges := [], park := none })
  (s.chartPins n).foldl (fun s p => s.parkPin t p) s

/-- R316: PIN_PARK. -/
def execPinPark (needle : Nat) (s : State) : Res :=
  match (s.ndl needle).park with
  | none => .next s
  | some t => .next ((s.reach t).parkNeedle needle t)

/-- R317, R321: a pin whose bank is on takes a MEASURE state (0 parked, 1 low, 2 high) from the apply edge a. -/
def State.measPin (s : State) (a v p : Nat) : State :=
  if !s.driven p then s else
  let t4 := a + 4 * vclkFs
  let t6 := a + 6 * vclkFs
  let go := fun (s : State) (den high : Bool) (t : Nat) => if (if den then (s.pin p).ballDen else (s.pin p).ballDrv) = high then s else s.passEdge p den high t
  let s := if v = 0 then go (go s true false t4) false false t6 else go (go s false (v == 2) t4) true true t6
  let y := s.pin p
  s.setPin p { y with den := y.ballDen, drv := y.ballDrv, denAt := y.ballDenAt, drvAt := y.ballDrvAt }

/-- R116, R126: entry to SAFE or DUMP is in progress: the plan runs, or its entry edge has come. -/
def State.safeGoing (s : State) : Bool := s.psm.plan.isSome || (match s.fcr.entry with | some e => decide (e.1 ≤ s.now) | none => false)

/-- R126, R317: MEAS_DRIVE_APPLY: the oldest staged write of PTF.MEAS_DRIVE takes force on its apply edge, unless pins are being disabled. -/
def execMeasDriveApply (s : State) : Res :=
  match s.staged.find? (fun x => x.obj == Obj.ptfMeasDrive) with
  | none => .next s
  | some x =>
    let s := ({ s with staged := s.staged.erase x }).reach x.due
    if s.mode ≠ .measure ∨ s.safeGoing = true then .next s else .next ((members 256 x.els).foldl (fun s p => s.measPin x.due x.value p) s)

/-- R126, R315: pins that are driven by no needle, in MEASURE or CALIBRATE, park 6 VCLK from now. -/
def State.parkRest (s : State) : State :=
  (List.range 256).foldl (fun s p =>
    if s.rd Obj.ptfPinState p = 4 || (s.rd Obj.ptfPinState p == 1 && ((s.pin p).ballDen || (s.pin p).ballDrv)) then s.parkPin (s.now + 6 * vclkFs) p else s) s

/-- R317: MEASURE is left: every pin parks and PTF.MEAS_DRIVE returns to 0. -/
def State.leaveMeasure (s : State) : State :=
  let s := s.parkRest
  let s := { s with staged := s.staged.filter (fun x => x.obj != Obj.ptfMeasDrive) }
  s.wrAll Obj.ptfMeasDrive (List.range 256) 0

/-- R315: MEASURE is entered: every pin whose bank is on is under PTF.MEAS_DRIVE. -/
def State.enterMeasure (s : State) : State := (List.range 256).foldl (fun s p => if s.rd Obj.ptfPinState p = 0 then s else s.wr Obj.ptfPinState p 4) s

/-- R60: a staged write of an object to a member has not reached its apply edge. -/
def State.stagedBusy (s : State) (o el : Nat) : Bool := s.staged.any (fun x => x.obj == o && bit x.els el && decide (s.now < x.due))

/-- R57: a staged write to members of an object. -/
def State.stage (s : State) (o el els v : Nat) : State := { s with staged := s.staged ++ [⟨o, el, els, v, s.applyEdge⟩] }

end Sys2Proof.Machine
end

