-- ==== Sys2Proof/Machine/Levels.lean ====
section
/-! DEFINITION. The level bus (07_pin_timing R323 to R332). -/
namespace Sys2Proof.Machine

/-- R323: pins per device of a bank. -/
def State.ppd (s : State) (b : Nat) : Nat := 32 / 2 ^ Fld.get ⟨16 * b, 2⟩ (s.rd Obj.lvlBankCfg 0)

/-- R325: T of a bank in fs. -/
def State.sclk (s : State) (b : Nat) : Nat := 2 * Fld.get ⟨16 * b + 8, 7⟩ (s.rd Obj.lvlBankCfg 0) * vclkFs

/-- R330: the needle that owns a bank's bus, 0xFF for none. -/
def State.bankOwner (s : State) (b : Nat) : Nat := Fld.get ⟨8 * b, 8⟩ (s.rd Obj.lvlBankOwner 0)

/-- R324: a frame's word. -/
def levelWord (value reg channel : Nat) (bcast read : Bool) : Nat :=
  value % 2 ^ 16 + reg % 2 ^ 8 * 2 ^ 16 + channel % 32 * 2 ^ 24 + bcast.toNat * 2 ^ 29 + read.toNat * 2 ^ 31

/-- The frames on their way on a bank. -/
def State.levelFrames (s : State) (b : Nat) : List LevelFrame := Tbl.get (fun _ => []) s.levelBus b

/-- The state with a bank's frames replaced. -/
def State.setFrames (s : State) (b : Nat) (l : List LevelFrame) : State := { s with levelBus := Tbl.put (fun _ => []) s.levelBus b l }

/-- R327: the words of a LEVELS entry on its bank, with their devices. -/
def State.expandLevel (s : State) (n e : Nat) : List (Nat × Nat) :=
  let b := Fld.get ⟨30, 3⟩ e
  let ppd := s.ppd b
  let v := e % 2 ^ 16
  let r := Fld.get ⟨16, 8⟩ e
  if bit e 29 then
    (List.range (32 / ppd)).flatMap (fun d =>
      let mine := (List.range ppd).filter (fun c => bit (s.rd Obj.ndlPinset n) (32 * b + d * ppd + c))
      if mine.length = ppd then [(levelWord v r 0 true false, d)] else mine.map (fun c => (levelWord v r c false false, d)))
  else
    let pin := Fld.get ⟨24, 5⟩ e
    [(levelWord v r (pin % ppd) false false, pin / ppd)]

/-- R328: the frames of one bank of a LEVELS block issued on an edge. -/
def State.levelBank (s : State) (n e b : Nat) (blk : Block) : State :=
  let ws := (((List.range 8).map (entry48 blk)).filter (fun x => bit x 47 && Fld.get ⟨30, 3⟩ x == b)).flatMap (s.expandLevel n)
  let slot := 35 * s.sclk b
  let fs := (ws.zip (List.range ws.length)).map (fun (w : (Nat × Nat) × Nat) => (⟨e + 20 * vclkFs + slot * w.2, w.1.1, w.1.2, false, false⟩ : LevelFrame))
  s.setFrames b (s.levelFrames b ++ fs)

/-- R173, R328: the LEVELS block of a needle issued on an edge. -/
def State.levels (s : State) (n e : Nat) (blk : Block) : State := (List.range 8).foldl (fun s b => s.levelBank n e b blk) s

/-- R325, R326: LEVEL_FRAME_START: CS_N of the next frame of a bank falls; a bank whose domain is off selects no device. -/
def execLevelFrameStart (bank : Nat) (s : State) : Res :=
  match s.levelFrames bank with
  | [] => .next s
  | f :: t => if f.open' then .next s else .next (((s.reach f.start).setFrames bank ({ f with open' := true } :: t)).emit (.level bank f.word (if s.domOn (bank + 1) then 2 ^ f.dev else 0)))

/-- R325, R331: LEVEL_FRAME_END: CS_N of the frame under way rises; `miso` is what the device drove on bits 15 to 0. -/
def execLevelFrameEnd (bank miso : Nat) (s : State) : Res :=
  match s.levelFrames bank with
  | [] => .next s
  | f :: t =>
    if !f.open' then .next s else
    let s := (s.reach (f.start + 33 * s.sclk bank)).setFrames bank t
    let s := { s with levelFree := Tbl.put (fun _ => 0) s.levelFree bank (f.start + 35 * s.sclk bank) }
    if f.host then
      let s := s.count Obj.lvlCounts 0 F.lvlCountsHostFrames F.lvlCountsHostSat 1
      let s := s.setFld Obj.lvlHostResult 0 F.lvlHostResultState 2
      .next (if bit f.word 31 then s.setFld Obj.lvlHostResult 0 F.lvlHostResultReadValue miso else s)
    else .next (s.count Obj.lvlCounts 0 F.lvlCountsChartFrames F.lvlCountsChartSat 1)

/-- R331: a pending CLK.START_AT names a needle. -/
def State.timedStart (s : State) (n : Nat) : Bool := s.clk.startQ.isSome && bit (s.fld Obj.clkStartStatus 0 F.clkStartStatusNeedles) n

/-- R331: step 8 of LVL.HOST_CMD. -/
def State.hostCmdCond (s : State) (v : Nat) : List (Bool × Nat) :=
  let o := s.bankOwner (Fld.get F.lvlHostCmdPin v / 32)
  [(decide (o < 16) && (s.busyNeedle o || s.timedStart o), rInUse), (s.fld Obj.lvlHostResult 0 F.lvlHostResultState == 1, rBusy)]

/-- R325, R331: the effect of LVL.HOST_CMD. The frame starts within two slots, in no slot of an earlier frame; when exactly is a free value (notes/assumptions/3.md). -/
def State.hostCmd (s : State) (v : Nat) : State :=
  let pin := Fld.get F.lvlHostCmdPin v
  let b := pin / 32
  let bc := Fld.get F.lvlHostCmdBcast v == 1
  let first := match (s.levelFrames b).getLast? with | some f => max s.now (f.start + 35 * s.sclk b) | none => max s.now (Tbl.get (fun _ => 0) s.levelFree b)
  let start := first + Config.freeValue s.freeCtr % (s.now + 70 * s.sclk b + 1 - first)
  let ch := pin % 32 % s.ppd b
  let w := levelWord (Fld.get F.lvlHostCmdValue v) (Fld.get F.lvlHostCmdReg v) (if bc then 0 else ch) bc (Fld.get F.lvlHostCmdRead v == 1)
  let s := s.draw.setFrames b (s.levelFrames b ++ [⟨start, w, pin % 32 / s.ppd b, true, false⟩])
  s.setFld Obj.lvlHostResult 0 F.lvlHostResultState 1

/-- R332: a host frame stands on a bank that a needle owns. -/
def State.hostFrameOn (s : State) (n : Nat) : Bool :=
  s.fld Obj.lvlHostResult 0 F.lvlHostResultState == 1 && (List.range 8).any (fun b => s.bankOwner b == n && (s.levelFrames b).any (·.host))

end Sys2Proof.Machine
end

