-- ==== Sys2Proof/Machine/Raster.lean ====
section
/-! DEFINITION. The Raster Engine (14_raster R547 to R577): the timing generator, layers, lanes, buffers, commits and CRC rectangles. -/
namespace Sys2Proof.Machine

/-- A stream's runtime state. -/
def State.stream (s : State) (i : Nat) : RasRt := Tbl.get (fun _ => {}) s.ras i

/-- The state with a stream's runtime state replaced. -/
def State.setStream (s : State) (i : Nat) (x : RasRt) : State := { s with ras := Tbl.put (fun _ => {}) s.ras i x }

/-- RAS.COUNTS field k of a stream, one more. -/
def State.rasCount (s : State) (i k : Nat) : State := s.count Obj.rasCounts i ⟨48 * k, 48⟩ ⟨240 + k, 1⟩ 1

/-- A field of RAS.TIMING. -/
def State.rasT (s : State) (i : Nat) (f : Fld) : Nat := s.fld Obj.rasTiming i f

/-! Buffers (R562 to R564, R572). -/

/-- R50: the element of a buffer. -/
def bufEl (layer b : Nat) : Nat := layer * 256 + b

/-- SHOW and FRONT of a layer in its active or shadow state. -/
def State.shows (s : State) (o layer b : Nat) : Bool :=
  s.fld o layer F.rasLayerActiveShow == 1 && s.fld o layer F.rasLayerActiveFront == b

/-- R562: a buffer is attached. -/
def State.attached (s : State) (layer b : Nat) : Bool :=
  s.shows Obj.rasLayerActive layer b || (s.shows Obj.rasLayerShadow layer b && s.rd Obj.rasCommitPending (layer / 4) == 1)

/-- R572: the buffer exists: below the layer's BUFFERS, in a placed region. -/
def State.bufferPlaced (s : State) (layer b : Nat) : Bool := s.rd Obj.plcState 0 == 2 && decide (b < s.fld Obj.rasLayerCfg layer F.rasLayerCfgBuffers)

/-- RAS.BUFFER_STATE of a buffer. -/
def State.bufferState (s : State) (layer b : Nat) : Nat := s.rd Obj.rasBufferState (bufEl layer b)

/-- R556: bytes of a pixel. -/
def pixelBytes (fmt : Nat) : Nat := fmt + 2

/-- R562: the bytes of a buffer's image. -/
def State.bufferBytes (s : State) (layer : Nat) : Nat :=
  let c := s.rd Obj.rasLayerCfg layer
  Fld.get F.rasLayerCfgHeight c * Fld.get F.rasLayerCfgWidth c * pixelBytes (Fld.get F.rasLayerCfgFormat c)

/-- R562, R572: step 8 of a buffer's DOMAIN_BEGIN for writing. -/
def State.bufferCond (s : State) (el total : Nat) : List (Bool × Nat) :=
  let layer := el / 256
  let b := el % 256
  [(!s.bufferPlaced layer b, rNoElem), (s.bufferState layer b == 1, rBusy), (s.attached layer b || s.bufferState layer b == 4, rInUse),
   (total != s.bufferBytes layer, rFormat)]

/-- R562: a complete transfer makes the buffer READY. -/
def State.bufferLoaded (s : State) (el : Nat) (b : Bytes) : State := (s.setImg Obj.rasBuffer el b).wr Obj.rasBufferState el 2

/-- R572: step 8 of RAS.BUFFER_RELEASE. -/
def State.releaseCond (s : State) (el : Nat) : List (Bool × Nat) := [(!s.bufferPlaced (el / 256) (el % 256), rNoElem)]

/-- R563: the effect of a write of 1 to RAS.BUFFER_RELEASE; a transfer in progress ends with its buffer. -/
def State.bufferRelease (s : State) (el : Nat) : State :=
  if s.attached (el / 256) (el % 256) then s.wr Obj.rasBufferState el 4
  else
    let s := match s.writing Obj.rasBuffer el with
      | some (id, x) => if x.validating then (s.setXfer id none).result (.xfer id) rSeq [] else s.setXfer id none
      | none => s
    (s.wr Obj.rasBufferState el 0).setImg Obj.rasBuffer el []

/-- The layers of a stream. -/
def layersOf (i : Nat) : List Nat := (List.range 4).map (4 * i + ·)

/-- The buffers of a stream. -/
def buffersOf (i : Nat) : List (Nat × Nat) := (layersOf i).flatMap (fun l => (List.range 4).map (fun b => (l, b)))

/-- R572: an attached buffer that holds an image reads ATTACHED. -/
def State.noteAttached (s : State) (i : Nat) : State :=
  (buffersOf i).foldl (fun s p => if s.attached p.1 p.2 && s.bufferState p.1 p.2 == 2 then s.wr Obj.rasBufferState (bufEl p.1 p.2) 3 else s) s

/-- R565: step 8 of RAS.COMMIT. -/
def State.commitCond (s : State) (i : Nat) : List (Bool × Nat) :=
  let shown := (buffersOf i).filter (fun p => s.shows Obj.rasLayerShadow p.1 p.2)
  [(s.rd Obj.rasCommitPending i == 1, rBusy),
   (shown.any (fun p => s.bufferState p.1 p.2 == 4), rInUse),
   (shown.any (fun p => s.bufferState p.1 p.2 != 2 && s.bufferState p.1 p.2 != 4 && !s.attached p.1 p.2), rRange)]

/-- R566: the pending commit of a stream takes force: all four shadow states become active together; buffers that are no longer attached leave the screen. -/
def State.applyCommit (s : State) (i : Nat) : State :=
  let was := (buffersOf i).filter (fun p => s.shows Obj.rasLayerActive p.1 p.2)
  let s := (layersOf i).foldl (fun s l => s.wr Obj.rasLayerActive l (s.rd Obj.rasLayerShadow l)) s
  let s := s.wr Obj.rasCommitPending i 0
  let gone := (was.filter (fun p => !s.attached p.1 p.2)).map (fun p => bufEl p.1 p.2)
  (s.setStream i { s.stream i with flip := true, leaving := (s.stream i).leaving ++ gone }).noteAttached i

/-- R565, R566: the effect of a write of 1 to RAS.COMMIT. -/
def State.rasCommit (s : State) (i : Nat) : State :=
  let s := (s.wr Obj.rasCommitPending i 1).setStream i { s.stream i with commitAt := s.now }
  if (s.stream i).on then s.noteAttached i else s.applyCommit i

/-- R564: the buffers that left the screen are retired. -/
def State.retire (s : State) (i : Nat) : State :=
  let l := (s.stream i).leaving
  l.foldl (fun s el =>
    let st := s.rd Obj.rasBufferState el
    let s := if s.attached (el / 256) (el % 256) then s
      else if st = 4 then (s.wr Obj.rasBufferState el 0).setImg Obj.rasBuffer el []
      else if st = 3 then s.wr Obj.rasBufferState el 2 else s
    (s.rasCount i 4).latch Ev.rasRetired) (s.setStream i { s.stream i with leaving := [] })

/-- R577, R107: every buffer goes with the placement, and a pending commit is dropped. -/
def State.rasRelease (s : State) : State :=
  let s := [0, 1].foldl (fun s i => (s.wr Obj.rasCommitPending i 0).setStream i { s.stream i with leaving := [], flip := false }) s
  ([0, 1].flatMap buffersOf).foldl (fun s p => (s.wr Obj.rasBufferState (bufEl p.1 p.2) 0).setImg Obj.rasBuffer (bufEl p.1 p.2) []) s

/-! Attachment (R549, R550). -/

/-- R549, R552: a stream attaches on edge e: dot 0 of line 0 of a new frame, unlocked; sync edges that arrive from e on are still to come. -/
def State.rasAttach (s : State) (n i e : Nat) : State :=
  if (s.stream i).on then s else
  let x := s.stream i
  let s := s.setStream i { ({} : RasRt) with on := true, syncs := x.syncs.filter (fun a => decide (e ≤ a)), flip := x.flip, leaving := x.leaving, commitAt := x.commitAt }
  (s.wr Obj.rasState i 1).setNdl n { s.ndl n with streams := setBit (s.ndl n).streams i true }

/-- R550: a stream stops; its generator and unfinished CRCs are discarded, and a pending commit is applied, as one of a stream that is not attached is (R566; DESIGN CHOICE,
notes/assumptions/124.md). -/
def State.rasStop (s : State) (n i : Nat) : State :=
  let x := s.stream i
  let s := s.setStream i { ({} : RasRt) with syncs := x.syncs, flip := x.flip, leaving := x.leaving, commitAt := x.commitAt }
  let s := (s.wr Obj.rasState i 0).setNdl n { s.ndl n with streams := setBit (s.ndl n).streams i false }
  if s.rd Obj.rasCommitPending i = 1 then s.applyCommit i else s

/-- R550, R209: the streams of a needle stop. -/
def State.rasStopNeedle (s : State) (n : Nat) : State := (members 2 (s.ndl n).streams).foldl (fun s i => s.rasStop n i) s

/-- R574: FROZEN while its needle is HELD, RUNNING again afterwards. -/
def State.rasFreeze (s : State) (n : Nat) (frozen : Bool) : State :=
  (members 2 (s.ndl n).streams).foldl (fun s i => s.setFld Obj.rasState i F.rasStateState (if frozen then 2 else 1)) s

/-- R552: RAS_SYNC_EDGE: an edge at RAS_SYNC of a stream at t, which arrives at the generator 3 VCLK later. A stream that is not attached may be so by then. -/
def execRasSyncEdge (stream : Nat) (falling : Bool) (t : Nat) (s : State) : Res :=
  let s := s.reach t
  let c := s.rd Obj.rasStreamCfg stream
  if Fld.get F.rasStreamCfgLock c = 1 ∧ (Fld.get F.rasStreamCfgPolarity c = 1) = (falling = true) then
    let x := s.stream stream
    .next (s.setStream stream { x with syncs := (if x.on then x.syncs else x.syncs.filter (fun a => decide (t ≤ a))) ++ [s.edgeBefore vclkFs t + 3 * vclkFs] })
  else .next s

/-! Pixels (R556 to R558). -/

/-- R557: a pixel of a format as 24 bits, none where it is transparent. -/
def pixelOf (fmt : Nat) (b : Bytes) : Option Nat :=
  if fmt = 0 then
    let v := ofLE b
    let w5 := fun c : Nat => c * 8 + c / 4
    let g := v / 32 % 64
    some (w5 (v % 32) + (g * 4 + g / 16) * 2 ^ 8 + w5 (v / 2048 % 32) * 2 ^ 16)
  else if fmt = 1 then some (ofLE (b.take 3))
  else if leAt b 3 1 ≥ 0x80 then some (ofLE (b.take 3)) else none

/-- R558: the pixel that a layer shows at an active dot. -/
def State.layerPixel (s : State) (l x y : Nat) : Option Nat :=
  let a := s.rd Obj.rasLayerActive l
  let c := s.rd Obj.rasLayerCfg l
  if Fld.get F.rasLayerActiveShow a = 0 then none else
  let dx := (x : Int) - toSigned 16 (Fld.get F.rasLayerActiveX a)
  let dy := (y : Int) - toSigned 16 (Fld.get F.rasLayerActiveY a)
  let w := Fld.get F.rasLayerCfgWidth c
  let h := Fld.get F.rasLayerCfgHeight c
  if 0 ≤ dx ∧ dx < w ∧ 0 ≤ dy ∧ dy < h then
    let fmt := Fld.get F.rasLayerCfgFormat c
    let k := pixelBytes fmt
    pixelOf fmt (slice (s.img Obj.rasBuffer (bufEl l (Fld.get F.rasLayerActiveFront a))) ((dy.toNat * w + dx.toNat) * k) k)
  else none

/-- R558: the output pixel of an active dot; the layers in `under` are transparent. -/
def State.pixel (s : State) (i x y under : Nat) : Nat :=
  (layersOf i).foldl (fun p l => if bit under (l % 4) then p else (s.layerPixel l x y).getD p) (s.rd Obj.rasBackground i % 2 ^ 24)

/-! CRC rectangles (R568, R569). -/

/-- A CRC register after more bytes. -/
def crcFeed (r : Option Nat) (b : Bytes) : Option Nat := some (b.foldl (fun c x => crcBit 0xEDB88320 8 (c ^^^ x.toNat)) (r.getD 0xFFFFFFFF))

/-- The key of a rectangle's registers in a frame: returned rectangles follow the output ones. -/
def rectKey (frame : Nat) (ret : Bool) (r : Nat) : Nat := frame * 32 + ret.toNat * 16 + r

/-- R568: a dot lies in a rectangle's configuration and the rectangle is in use. -/
def inRect (c x y : Nat) : Bool :=
  bit c 96 && decide (Fld.get F.rasCrcRectOutX c ≤ x ∧ x < Fld.get F.rasCrcRectOutX c + Fld.get F.rasCrcRectOutW c ∧
    Fld.get F.rasCrcRectOutY c ≤ y ∧ y < Fld.get F.rasCrcRectOutY c + Fld.get F.rasCrcRectOutH c)

/-- R568: the bytes of an active dot enter the CRCs of its rectangles. -/
def State.feedRects (s : State) (i frame : Nat) (ret : Bool) (x y : Nat) (b : Bytes) : State :=
  (List.range 16).foldl (fun s r =>
    let k := rectKey frame ret r
    let z := s.stream i
    if inRect (Tbl.get (fun _ => 0) z.rects k) x y then
      s.setStream i { z with crcs := Tbl.put (fun _ => none) z.crcs k (crcFeed (Tbl.get (fun _ => none) z.crcs k) b) }
    else s) s

/-- R569: the CRCs of a frame are latched. -/
def State.latchRects (s : State) (i frame : Nat) (ret : Bool) : State :=
  (List.range 16).foldl (fun s r =>
    let k := rectKey frame ret r
    let z := s.stream i
    let c := Tbl.get (fun _ => 0) z.rects k
    let s := s.setStream i { z with rects := Tbl.del z.rects k, crcs := Tbl.del z.crcs k }
    if !bit c 96 then s else
    let crc := match Tbl.get (fun _ => none) z.crcs k with | some v => v ^^^ 0xFFFFFFFF | none => 0
    let bad := bit c 97 && crc != Fld.get F.rasCrcRectOutExpect c
    let s := s.wr (if ret then Obj.rasCrcRet else Obj.rasCrcOut) (i * 256 + r) (frame % 2 ^ 32 + crc * 2 ^ 32 + 2 ^ 64 + bad.toNat * 2 ^ 65)
    if bad then (s.rasCount i 3).latch Ev.rasCrcMismatch else s) s

/-! One dot (R547 to R555). -/

/-- R551, R564, R567, R569: the first stitch of a frame, issued on edge e. -/
def State.rasFrameStart (s : State) (i e : Nat) : State :=
  let f := (s.rd Obj.rasFrame i + 1) % 2 ^ 32
  let s := (s.wr Obj.rasFrame i f).retire i
  let z := s.stream i
  let rects := (List.range 16).foldl (fun t r =>
    Tbl.put (fun _ => 0) (Tbl.put (fun _ => 0) t (rectKey f false r) (s.rd Obj.rasCrcRectOut (i * 256 + r))) (rectKey f true r) (s.rd Obj.rasCrcRectRet (i * 256 + r))) z.rects
  let s := s.setStream i { z with start := false, rects := rects, underSeen := false, flip := false }
  if z.flip then (s.wr Obj.rasFlip i (f + s.stampAt e * 2 ^ 32)).latch Ev.rasFlip else s

/-- R552 to R555: the sync edges that have arrived by the issue edge of a stitch act on its line. -/
def State.rasSync (s : State) (i e : Nat) : State :=
  let z := s.stream i
  let here := z.syncs.filter (fun a => decide (a ≤ e))
  let s := s.setStream i { z with syncs := z.syncs.filter (fun a => decide (e < a)) }
  let win := s.rasT i F.rasTimingVtotal - s.fld Obj.rasStreamCfg i F.rasStreamCfgWindow
  here.foldl (fun s _ =>
    if s.fld Obj.rasState i F.rasStateLocked = 0 then s.setStream i { s.stream i with cut := 2 }
    else if win ≤ z.line then s.setStream i { s.stream i with cut := 1 }
    else s.rasCount i 0) s

/-- R559: at the first dot of an active line: whether each shown layer's line has arrived is a free value (notes/assumptions/3.md). -/
def State.rasUnder (s : State) (i y : Nat) : State :=
  (List.range 4).foldl (fun s k =>
    let l := 4 * i + k
    let a := s.rd Obj.rasLayerActive l
    let dy := (y : Int) - toSigned 16 (Fld.get F.rasLayerActiveY a)
    if Fld.get F.rasLayerActiveShow a = 1 ∧ 0 ≤ dy ∧ dy < s.fld Obj.rasLayerCfg l F.rasLayerCfgHeight then
      let lost := Config.freeBool s.freeCtr
      let s := s.draw
      if lost then
        let z := s.stream i
        let s := (s.setStream i { z with under := setBit z.under k true, underSeen := true }).rasCount i 2
        if z.underSeen then s else s.latch Ev.rasUnderflow
      else s
    else s) (s.setStream i { s.stream i with under := 0 })

/-- R560: the waves that the output lanes give their pins for a pixel and the three signals. -/
def State.rasLanes (s : State) (i px : Nat) (hs vs de : Bool) : List (Nat × Nat) :=
  let m := s.rd Obj.rasLaneMap i
  (List.range 32).filterMap (fun k =>
    let e := Fld.get ⟨32 * k, 32⟩ m
    if !bit e 31 then none else
    let src := Fld.get ⟨8, 5⟩ e
    let b := if src < 24 then bit px src else if src = 24 then hs else if src = 25 then vs else if src = 26 then de else src == 28
    some (e % 256, if b then Fld.get ⟨20, 4⟩ e else Fld.get ⟨16, 4⟩ e))

/-- R547, R553 to R555: the generator moves on by one dot. -/
def State.rasAdvance (s : State) (i : Nat) : State :=
  let z := s.stream i
  if z.dot + 1 < s.rasT i F.rasTimingHtotal then s.setStream i { z with dot := z.dot + 1 }
  else
    let fly := z.cut = 0
    if !fly || z.line + 1 ≥ s.rasT i F.rasTimingVtotal then
      let s := s.setStream i { z with dot := 0, line := 0, start := true, cut := 0, fly := if fly then z.fly + 1 else 0 }
      if z.cut = 2 then (s.setFld Obj.rasState i F.rasStateLocked 1).latch Ev.rasSyncLocked
      else if fly ∧ s.fld Obj.rasStreamCfg i F.rasStreamCfgLock = 1 then
        let s := s.rasCount i 1
        if s.fld Obj.rasState i F.rasStateLocked = 1 ∧ z.fly + 1 ≥ s.fld Obj.rasStreamCfg i F.rasStreamCfgFlyLimit then
          ((s.setStream i { s.stream i with fly := 0 }).setFld Obj.rasState i F.rasStateLocked 0).latch Ev.rasSyncLost
        else s
      else s
    else s.setStream i { z with dot := 0, line := z.line + 1 }

/-- One chart stitch with an index, issued on edge e, for an attached stream: the waves of its lanes, and the state after it. -/
def State.rasDot (s : State) (i e idx : Nat) : List (Nat × Nat) × State :=
  let s := if (s.stream i).start then s.rasFrameStart i e else s
  let s := s.rasSync i e
  let z := s.stream i
  let frame := s.rd Obj.rasFrame i
  let s := (s.setFld Obj.rasState i F.rasStateLine z.line).setFld Obj.rasState i F.rasStateDot z.dot
  let va := s.rasT i F.rasTimingVactive
  let delay := s.rd Obj.rasReturnDelay i
  let s := if z.line = va ∧ z.dot = 0 then
      let s := s.latchRects i frame false
      let s := s.setStream i { s.stream i with dots := (s.stream i).dots ++ [⟨idx + delay, frame, 0, va⟩] }
      if s.rd Obj.rasCommitPending i = 1 ∧ z.commitAt ≤ e then s.applyCommit i else s
    else s
  let de := z.dot < s.rasT i F.rasTimingHactive && z.line < va
  let s := if z.dot = 0 ∧ z.line < va then s.rasUnder i z.line else s
  let px := if de then s.pixel i z.dot z.line (s.stream i).under else 0
  let hs := s.rasT i F.rasTimingHsStart ≤ z.dot && z.dot < s.rasT i F.rasTimingHsEnd
  let vs := s.rasT i F.rasTimingVsStart ≤ z.line && z.line < s.rasT i F.rasTimingVsEnd
  let s := if de then
      let s := s.feedRects i frame false z.dot z.line (toLE 3 px)
      s.setStream i { s.stream i with dots := (s.stream i).dots ++ [⟨idx + delay, frame, z.dot, z.line⟩] }
    else s
  (s.rasLanes i px hs vs de, s.rasAdvance i)

/-- R561: the returned pixel of an evaluated stitch: bit i from the CMH sample of the first strobe of lane i's pin. A strobe that takes no CMH sample
gives a free value (notes/assumptions/3.md). -/
def State.returned (s : State) (i : Nat) (ss : List (Strobe × List Bool × List Bool)) : Nat :=
  let m := s.rd Obj.rasReturnMap i
  ofMembers ((List.range 32).filter (fun k =>
    let e := Fld.get ⟨32 * k, 32⟩ m
    bit e 31 && match ss.find? (fun x => x.1.pin == e % 256) with
      | some (_, h, _) => h.headD (Config.freeBool (s.freeCtr + k))
      | none => false))

/-- R561, R569: the returned pixels and returned CRCs that wait for the stitch with an index. -/
def State.rasReturn (s : State) (i idx : Nat) (ss : List (Strobe × List Bool × List Bool)) : State :=
  let z := s.stream i
  let v := s.returned i ss
  let s := { s.setStream i { z with dots := z.dots.filter (fun d => d.idx != idx) } with freeCtr := s.freeCtr + 32 }
  (z.dots.filter (fun d => d.idx == idx)).foldl (fun s d =>
    if d.y ≥ s.rasT i F.rasTimingVactive then s.latchRects i d.frame true else s.feedRects i d.frame true d.x d.y (toLE 4 v)) s

end Sys2Proof.Machine
end

