-- ==== Sys2Proof/Machine/Calibrate.lean ====
section
/-! DEFINITION. Live and full calibration (10_calibration R421 to R458). -/
namespace Sys2Proof.Machine

/-- A bank's calibration TDC. -/
def State.calBank (s : State) (b : Nat) : CalBank := Tbl.get (fun _ => {}) s.cal.banks b

/-- The state with a bank's calibration TDC replaced. -/
def State.setCalBank (s : State) (b : Nat) (x : CalBank) : State :=
  { s with cal := { s.cal with banks := Tbl.put (fun _ => {}) s.cal.banks b x } }

/-- The key of a pin's quantity. -/
def calKey (p q : Nat) : Nat := p * 8 + q

/-- Field q of a gauge record (R421): I16 in units of 0.5 ps. -/
def gaugeFld (q : Nat) : Fld := ⟨16 * q, 16⟩

/-- Field q of a pin's gauge object. -/
def State.gaugeOf (s : State) (o p q : Nat) : Int := toSigned 16 (s.fld o p (gaugeFld q))

/-- A quantity's anchor, as the sum of 128 samples in 2^-2 ps. -/
def State.anchor (s : State) (p q : Nat) : Option Int := Tbl.get (fun _ => none) s.cal.anchors (calKey p q)

/-- The state with a quantity's anchor replaced. -/
def State.setAnchor (s : State) (p q : Nat) (v : Option Int) : State :=
  { s with cal := { s.cal with anchors := Tbl.put (fun _ => none) s.cal.anchors (calKey p q) v } }

/-- CAL.COUNTS field i, one more. -/
def State.calCounts (s : State) (i : Nat) : State := s.count Obj.calCounts 0 ⟨48 * i, 48⟩ ⟨192 + i, 1⟩ 1

/-- R442: the calibration anchor time of a quantity: the latest completion whose value is its gauge in effect; 0 where there is none (notes/assumptions/31.md). -/
def State.anchorTime (s : State) (p q : Nat) : Nat :=
  (((Tbl.get (fun _ => []) s.cal.ages (calKey p q)).find? (fun x => x.1 == s.gaugeOf Obj.ptfGaugeActive p q)).map (·.2)).getD 0

/-- R442: a completion with a value for a quantity. -/
def State.noteAge (s : State) (p q : Nat) (v : Int) : State :=
  let k := calKey p q
  let l := (Tbl.get (fun _ => []) s.cal.ages k).filter (fun x => x.1 != v)
  { s with cal := { s.cal with ages := Tbl.put (fun _ => []) s.cal.ages k ((v, s.stamp) :: l) } }

/-- R454: CAL.PIN_STATUS of a pin: ANCHORED, PENDING, REJECT_RUN and CONFIRMED follow the pin's state. -/
def State.calNote (s : State) (p : Nat) : State :=
  let anchored := (List.range 6).filter (fun q => (s.anchor p q).isSome)
  let pend := (List.range 6).filter (fun q => s.gaugeOf Obj.ptfGauge p q != s.gaugeOf Obj.ptfGaugeActive p q)
  let run := (List.range 6).foldl (fun m q => max m (Tbl.get (fun _ => 0) s.cal.runs (calKey p q))) 0
  let conf := match anchored.map (s.anchorTime p) with | [] => 0 | a :: t => t.foldl min a
  let un := s.fld Obj.calPinStatus p F.calPinStatusUntracked
  s.wr Obj.calPinStatus p (ofMembers anchored + ofMembers pend * 2 ^ 6 + un * 2 ^ 12 + min run 255 * 2 ^ 24 + conf * 2 ^ 32)

/-- R431, R449: one field of PTF.GAUGE committed now. -/
def State.commitGauge (s : State) (p q : Nat) (v : Int) (live : Bool) : State :=
  let k := calKey p q
  let before := (s.now, Tbl.get (fun _ => 0) s.cal.runs k, s.fld Obj.calPinStatus p ⟨12 + q, 1⟩)
  let s := s.setFld Obj.ptfGauge p (gaugeFld q) (ofSigned 16 v)
  { s with cal := { s.cal with commits := Tbl.put (fun _ => 0) s.cal.commits k s.now, live := Tbl.put (fun _ => none) s.cal.live k (if live then some before else none) } }

/-- R439: CAL.COUNT and CAL.LAST_TIME on an edge, once for each edge. -/
def State.calCount (s : State) (e : Nat) : State :=
  if s.cal.counted = some e then s
  else ({ s with cal := { s.cal with counted := some e } }.count64 Obj.calCount 0 1).wr Obj.calLastTime 0 (s.stampAt e)

/-- R436: one pending step of a pin is applied on an edge, where it was committed by then. -/
def State.applyStep (s : State) (e p q : Nat) : State :=
  let v := s.gaugeOf Obj.ptfGauge p q
  let k := calKey p q
  if v = s.gaugeOf Obj.ptfGaugeActive p q ∨ e < Tbl.get (fun _ => 0) s.cal.commits k then s
  else
    let s := (s.setFld Obj.ptfGaugeActive p (gaugeFld q) (ofSigned 16 v)).calCounts 3
    if (Tbl.get (fun _ => none) s.cal.live k).isSome then s.calCount e else s

/-- R436, R437: the pending steps of a needle's pins are applied at a seam that begins on an edge. -/
def State.applyGauges (s : State) (n e : Nat) : State :=
  (s.chartPins n).foldl (fun s p => ((List.range 6).foldl (fun s q => s.applyStep e p q) s).calNote p) s

/-- A pin in no NDL.PINSET (R30). -/
def State.pinFree (s : State) (p : Nat) : Bool := (List.range 16).all (fun n => !bit (s.rd Obj.ndlPinset n) p)

/-- R30, R450: the whole gauge of a pin takes effect at once. -/
def State.applyNow (s : State) (p : Nat) : State := (s.wr Obj.ptfGaugeActive p (s.rd Obj.ptfGauge p)).calNote p

/-- R438: two instants lie before the same FCLK edge. -/
def State.sameFclk (s : State) (t u : Nat) : Bool := s.edgeAt fclkFs t == s.edgeAt fclkFs u

/-- R433, R438: a live commit of the same FCLK edge gives way: its swatch ends SUPERSEDED and has not ended the run of rejections. -/
def State.supersede (s : State) (p : Nat) : State :=
  (List.range 6).foldl (fun s q =>
    match Tbl.get (fun _ => none) s.cal.live (calKey p q) with
    | some (t, run, un) =>
      if s.sameFclk t s.now then
        (({ s with cal := { s.cal with runs := Tbl.put (fun _ => 0) s.cal.runs (calKey p q) run } }).setFld Obj.calPinStatus p ⟨12 + q, 1⟩ un).setFld
          Obj.calLastSwatch p F.calLastSwatchOutcome 8
      else s
    | none => s) s

/-- R429, R435, R438: the effect of a host write of PTF.GAUGE: it prevails over a live commit on the same FCLK edge. -/
def State.hostGauge (s : State) (p v : Nat) : State :=
  let s := s.supersede p
  let w : GaugeWrite := ⟨s.now, s.rd Obj.ptfGauge p, s.rd Obj.calBase p, (List.range 6).map (s.anchor p)⟩
  let s := ((s.wr Obj.ptfGauge p v).wr Obj.calBase p v)
  let s := (List.range 6).foldl (fun s q => (s.commitGauge p q (s.gaugeOf Obj.ptfGauge p q) false).setAnchor p q none) s
  let s := { s with cal := { s.cal with host := Tbl.put (fun _ => none) s.cal.host p (some w) } }
  if s.pinFree p then s.applyNow p else s.calNote p

/-! Swatches (R423 to R434). -/

/-- R428: the conditions under which swatches run. -/
def State.calOn (s : State) : Bool :=
  (s.mode == .run || s.mode == .ridethru) && s.fld Obj.calCtrl 0 F.calCtrlEnable == 1 && s.domOn 20

/-- R428: when a condition has ceased to hold, the swatches in progress are discarded. -/
def State.calPause (s : State) : State :=
  if s.calOn then s else { s with cal := { s.cal with banks := s.cal.banks.map (fun (p : Nat × CalBank) => (p.1, { p.2 with samples := [] })) } }

/-- R426: a swatch of a bank's pin and quantity may be taken; TMU.STATE code 7 is FAILED (R479). -/
def State.swatchOk (s : State) (b pin q : Nat) : Bool :=
  s.rd Obj.ptfPinState (32 * b + pin) == 2 && bit (s.fld Obj.calCtrl 0 F.calCtrlQuants) q && bit (s.fld Obj.calCtrl 0 F.calCtrlBanks) b &&
  s.fld Obj.tmuState (32 + b) ⟨0, 8⟩ != 7

/-- R426: the place after a swatch in the round. -/
def nextSwatch (pin q : Nat) : Nat × Nat := if q < 5 then (pin, q + 1) else ((pin + 1) % 32, 0)

/-- R426: swatches are skipped up to the first that may be taken; a bank in which none may be taken stays where it is. -/
def State.skipSwatches (s : State) (b : Nat) : State :=
  let rec go : Nat → Nat × Nat → Nat → Option ((Nat × Nat) × Nat)
    | 0, _, _ => none
    | f + 1, p, k => if s.swatchOk b p.1 p.2 then some (p, k) else go f (nextSwatch p.1 p.2) (k + 1)
  let x := s.calBank b
  match go 192 (x.pin, x.q) 0 with
  | none => s
  | some (p, k) => (s.count Obj.calCounts 0 F.calCountsSkips ⟨193, 1⟩ k).setCalBank b { x with pin := p.1, q := p.2 }

/-- R455, R434: an outcome is recorded. The values that the outcome does not have, and the rounding of SPREAD and VALUE_DELTA to 2^-8 ps, are free (notes/assumptions/3.md). -/
def State.lastSwatch (s : State) (p q outcome : Nat) (spread : Option Nat) (delta cand : Option Int) : State :=
  let f := fun (i w : Nat) => Config.freeValue (s.freeCtr + i) % 2 ^ w
  let d := match delta with | some d => ofSigned 32 (clampSigned 32 d) | none => f 1 32
  let v := q + outcome * 2 ^ 3 + (min (spread.getD (f 0 16)) 65535) * 2 ^ 16 + d * 2 ^ 32 + (match cand with | some c => ofSigned 16 c | none => f 2 16) * 2 ^ 64 + s.stamp * 2 ^ 96
  ({ s with freeCtr := s.freeCtr + 3 }.wr Obj.calLastSwatch p v).calCounts 0

/-- R433: the run of rejections of a quantity ends. -/
def State.endRun (s : State) (p q : Nat) : State :=
  let s := { s with cal := { s.cal with runs := Tbl.put (fun _ => 0) s.cal.runs (calKey p q) 0 } }
  s.setFld Obj.calPinStatus p ⟨12 + q, 1⟩ 0

/-- R432, R433: a rejection. -/
def State.rejectSwatch (s : State) (p q : Nat) : State :=
  let run := min 255 (Tbl.get (fun _ => 0) s.cal.runs (calKey p q) + 1)
  let s := (s.count64 Obj.calRejects 0 1)
  let s := { s with cal := { s.cal with runs := Tbl.put (fun _ => 0) s.cal.runs (calKey p q) run } }
  if run = s.rd Obj.calRejectLimit 0 then
    (s.setFld Obj.calPinStatus p ⟨12 + q, 1⟩ 1).raise Ev.calUntracked p 0xFF 0 0 (some (ofMembers (needles (fun n => bit (s.rd Obj.ndlPinset n) p)))) false
  else s

/-- R425: the squared spread of 128 samples times 2^21, in (2^-9 ps)^2 scaled by 8 groups: the sum over the groups of (8 × group sum − sum)^2. -/
def spreadSum (l : List Int) : Nat :=
  let sum : Int := l.foldl (· + ·) 0
  (List.range 8).foldl (fun a g => a + ((8 * ((l.drop (16 * g)).take 16).foldl (· + ·) 0 - sum).natAbs) ^ 2) 0

/-- Half of a whole number, with `up` where the half is not whole. -/
def halfInt (v : Int) (up : Bool) : Int := v / 2 + (if v % 2 ≠ 0 ∧ up then 1 else 0)

/-- R438: the host write of a pin's gauge on the FCLK edge on which a swatch completes. -/
def State.gaugeWrite (s : State) (p : Nat) : Option GaugeWrite := (Tbl.get (fun _ => none) s.cal.host p).filter (fun w => s.sameFclk w.t s.now)

/-- R430: the swatch of quantity q of a pin completes with its 128 samples. Where the host writes the gauge on the same edge, the swatch sees what stood before it, and its commit gives
way (R438). -/
def State.evalSwatch (s : State) (p q : Nat) (l : List Int) : State :=
  let sum : Int := l.foldl (· + ·) 0
  let ss := spreadSum l
  let root := Nat.sqrt (ss / 32)
  let write := s.gaugeWrite p
  let anchor := match write with | some w => (w.anchors[q]?).join | none => s.anchor p q
  let base := match write with | some w => toSigned 16 (Fld.get (gaugeFld q) w.base) | none => s.gaugeOf Obj.calBase p q
  let committed := match write with | some w => toSigned 16 (Fld.get (gaugeFld q) w.gauge) | none => s.gaugeOf Obj.ptfGauge p q
  let up := Config.freeBool s.freeCtr
  let spread := root + (if root * root * 32 ≠ ss ∧ up then 1 else 0)
  let s := s.draw
  let delta := anchor.map (fun a => halfInt (sum - a) (Config.freeBool s.freeCtr))
  let s := s.draw
  if ss ≥ 2 ^ 21 then ((s.lastSwatch p q 4 (some spread) delta none).rejectSwatch p q).calNote p
  else match anchor with
  | none =>
    let s := (s.setAnchor p q (some sum)).noteAge p q (s.gaugeOf Obj.calBase p q)
    ((s.lastSwatch p q 3 (some spread) (some 0) none).endRun p q).calNote p
  | some a =>
    let e := roundDiv (sum - a) 256
    let c := base - e
    let rec' := fun (s : State) (o : Nat) => s.lastSwatch p q o (some spread) delta (some c)
    let s := s.noteAge p q c
    if (c - s.gaugeOf Obj.ptfGaugeFactory p q).natAbs > s.rd Obj.calAbsLimit 0 ∨ c.natAbs > 2000 then ((rec' s 5).rejectSwatch p q).calNote p
    else if (c - s.gaugeOf Obj.ptfGaugeActive p q).natAbs > s.rd Obj.calStepLimit 0 then ((rec' s 6).rejectSwatch p q).calNote p
    else if c = committed then ((rec' s 2).endRun p q).calNote p
    else if write.isSome then (rec' s 8).calNote p
    else (((rec' s 1).commitGauge p q c true).endRun p q).calNote p

/-- The swatch of a bank ends and the TDC moves on (R426, R427). -/
def State.swatchDone (s : State) (b : Nat) : State :=
  let x := s.calBank b
  let p := nextSwatch x.pin x.q
  (s.setCalBank b { x with pin := p.1, q := p.2, samples := [] }).skipSwatches b

/-- R423 to R425: CAL_SAMPLE: the TDC of a bank samples the first qualifying event once it is ready; the value in steps of 0.25 ps. -/
def execCalSample (bank : Nat) (value : Int) (s : State) : Res :=
  if !s.calOn ∨ bank ≥ 8 then .next s.calPause else
  let s := if (s.calBank bank).samples.isEmpty then s.skipSwatches bank else s
  let x := s.calBank bank
  if s.rd Obj.ptfPinState (32 * bank + x.pin) ≠ 2 ∨ !s.swatchOk bank x.pin x.q && x.samples.isEmpty then .next s else
  let s := s.reach x.ready
  let l := x.samples ++ [value]
  let x := { x with samples := l, first := if x.samples.isEmpty then s.now else x.first, ready := s.edgeAt vclkFs s.now + 16 * vclkFs }
  let s := s.setCalBank bank x
  if l.length < 128 then .next s else .next ((s.evalSwatch (32 * bank + x.pin) x.q l).swatchDone bank)

/-- R427: SWATCH_TIMEOUT. -/
def execSwatchTimeout (bank : Nat) (s : State) : Res :=
  let x := s.calBank bank
  if !s.calOn then .next s.calPause else
  if x.samples.isEmpty then .next s else
  let s := s.reach (x.first + s.rd Obj.calSwatchTimeout 0)
  .next (((s.lastSwatch (32 * bank + x.pin) x.q 7 none none none).calCounts 2).swatchDone bank)

/-! Seam age (R440, R441). -/

/-- R440: the seam age of a needle. -/
def State.seamAge (s : State) (n : Nat) : Nat := match (s.ndl n).ageFrom with | some t => s.now - t | none => 0

/-- R440, R441: the seam age runs from an instant, or stops. -/
def State.ageFrom (s : State) (n : Nat) (t : Option Nat) : State :=
  (s.setNdl n { s.ndl n with ageFrom := t }).setFld Obj.calNeedleAge n F.calNeedleAgeAged 0

/-- R441: CAL_AGED: the seam age exceeds CAL.MAX_AGE. -/
def execCalAged (needle : Nat) (s : State) : Res :=
  match (s.ndl needle).ageFrom with
  | none => .next s
  | some t =>
    if s.fld Obj.calNeedleAge needle F.calNeedleAgeAged = 1 then .next s else
    let s := s.reach (t + s.rd Obj.calMaxAge 0 + 1)
    .next ((s.setFld Obj.calNeedleAge needle F.calNeedleAgeAged 1).latch Ev.calAged)

/-! Full calibration (R445 to R451). -/

/-- R446: an image of CAL.FIXTURE is valid for a reference pin. -/
def fixtureOk (b : Bytes) : Bool :=
  b.length == 1032 && leAt b 0 4 == 0x58464143 && crc32 (b.take 1028) == leAt b 1028 4

/-- R445: step 2 of a CALIBRATE request. -/
def State.calibrateOk (s : State) : Bool :=
  fixtureOk (s.img Obj.calFixture 0) && bit (s.fld Obj.calFullCfg 0 F.calFullCfgBanks) (s.fld Obj.calFullCfg 0 F.calFullCfgRefPin / 32)

/-- R447: DEN of a pin under full calibration. -/
def State.calDrive (s : State) (p : Nat) (on : Bool) : State := s.setPin p { s.pin p with den := on, ballDen := on, drv := false, ballDrv := false }

/-- R447: phases 0 and 1: the square wave of REF_PIN, as far as it has gone at an instant. -/
def State.calWave (s : State) (start stop : Nat) : State := s.emit (.wave (s.fld Obj.calFullCfg 0 F.calFullCfgRefPin) start stop (10 * nsFs))

/-- R447: phase 2: the pin that drives in a slot of 0.4 ms, none where it lies outside BANKS. -/
def State.calSlot (s : State) (p : Nat) : Option Nat :=
  if p < 256 ∧ bit (s.fld Obj.calFullCfg 0 F.calFullCfgBanks) (p / 32) = true then some p else none

/-- R447: the slots of phase 2, which starts at an instant, that have begun by another: only their pins drive, at edges that the spec does not give. -/
def State.calSlots (s : State) (start stop : Nat) : State :=
  ((List.range 256).filter (fun p => decide (start + p * (400 * usFs) < stop) && (s.calSlot p).isSome)).foldl (fun s p =>
    s.emit (.wave p (start + p * (400 * usFs)) (min stop (start + (p + 1) * (400 * usFs))) 0)) s

/-- R447, R451: full calibration starts, or starts again, at phase 0: REF_PIN drives its square wave. PTF.PIN_STATE has no code for a pin driven here: it stays as it is
(DESIGN CHOICE, notes/assumptions/58.md). -/
def State.fullStart (s : State) : State :=
  let s := ({ s with cal := { s.cal with full := some s.now, found := [] } }).setFld Obj.calFullStatus 0 F.calFullStatusPhase 0
  s.calDrive (s.fld Obj.calFullCfg 0 F.calFullCfgRefPin) true

/-- R447, R451: full calibration is abandoned; what drove then stays so until it parks. -/
def State.fullAbandon (s : State) : State :=
  match s.cal.full with
  | none => s
  | some t =>
    let ph := s.fld Obj.calFullStatus 0 F.calFullStatusPhase
    let t2 := t + 70 * msFs
    let s := if ph < 2 then s.calWave t s.now
      else if ph = 2 then
        let s := s.calSlots t2 s.now
        match s.calSlot ((s.now - t2) / (400 * usFs)) with | some p => s.calDrive p true | none => s
      else s
    let s := ({ s with cal := { s.cal with full := none, found := [] } }).setFld Obj.calFullStatus 0 F.calFullStatusResult 3
    s.setFld Obj.calFullStatus 0 F.calFullStatusStamp s.stamp

/-- R448: the result of a quantity, none where it was not found. -/
def calFound (l : CalResults) (p q : Nat) : Option (Int × Int × Bool) := ((l.find? (fun x => x.1 == p && x.2.1 == q)).map (·.2.2)).join

/-- R448, R454: why a quantity of a pin fails: 0 passes, 2 NO_EDGE, 3 ABS_LIMIT, 4 SPREAD. -/
def State.fullCheck (s : State) (p q : Nat) : Nat :=
  match calFound s.cal.found p q with
  | none => 2
  | some (g, _, ok) =>
    if !ok then 4
    else if (g - s.gaugeOf Obj.ptfGaugeFactory p q).natAbs > s.rd Obj.calAbsLimit 0 ∨ g.natAbs > 2000 then 3 else 0

/-- R448: the quantities that full calibration sets for a pin. -/
def State.fullQuants (s : State) (p : Nat) : List Nat := if p = s.fld Obj.calFullCfg 0 F.calFullCfgRefPin then [4, 5] else List.range 6

/-- R449, R450: one pin at the end of phase 3; the answer counts passes and failures. -/
def State.fullPin (x : State × Nat × Nat) (p : Nat) : State × Nat × Nat :=
  let (s, pass, bad) := x
  if !bit (s.fld Obj.calFullCfg 0 F.calFullCfgBanks) (p / 32) then (s.wr Obj.calFullPin p 0, pass, bad)
  else match (s.fullQuants p).find? (fun q => s.fullCheck p q != 0) with
  | some q => (s.wr Obj.calFullPin p (s.fullCheck p q + q * 2 ^ 8), pass, bad + 1)
  | none =>
    let s := (s.fullQuants p).foldl (fun s q =>
      match calFound s.cal.found p q with
      | some (g, a, _) => ((s.commitGauge p q g false).setAnchor p q (some a)).noteAge p q g
      | none => s) s
    let s := (s.wr Obj.calFullPin p 1).wr Obj.calBase p (s.rd Obj.ptfGauge p)
    (if s.pinFree p then s.applyNow p else s.calNote p, pass + 1, bad)

/-- R447: the instants at which the phases end, after entry. -/
def phaseEnd (ph : Nat) : Nat := [20 * msFs, 70 * msFs, 172400 * usFs, 180 * msFs].getD ph (180 * msFs)

/-- R447: what phases 1 and 2 of a full calibration that began at t have driven when they end. -/
def State.fullDrive (s : State) (t ph : Nat) : State :=
  if ph = 1 then (s.calWave t (t + phaseEnd 1)).calDrive (s.fld Obj.calFullCfg 0 F.calFullCfgRefPin) false
  else if ph = 2 then s.calSlots (t + phaseEnd 1) (t + phaseEnd 2) else s

/-- R447 to R449: FULL_CAL_PHASE: the phase in progress ends with the results that it found; phase 3 ends full calibration. -/
def execFullCalPhase (results : CalResults) (s : State) : Res :=
  match s.cal.full with
  | none => .next s
  | some t =>
    let ph := s.fld Obj.calFullStatus 0 F.calFullStatusPhase
    let s := s.reach (t + phaseEnd ph)
    if ph < 3 then
      let s := s.fullDrive t ph
      .next (({ s with cal := { s.cal with found := s.cal.found ++ (if ph = 1 ∨ ph = 2 then results else []) } }).setFld Obj.calFullStatus 0 F.calFullStatusPhase (ph + 1))
    else
      let (s, pass, bad) := (List.range 256).foldl State.fullPin (s, 0, 0)
      let s := if pass > 0 then s.calCount s.now else s
      let s := s.wr Obj.calFullStatus 0 ((if bad = 0 then 1 else 2) + 3 * 2 ^ 8 + bad * 2 ^ 16 + s.stamp * 2 ^ 32)
      let s := { s with cal := { s.cal with full := none, found := [] } }
      .next ((({ s with trans := none }).enter .idle 9 6).latch Ev.calFullDone)

end Sys2Proof.Machine
end

