-- ==== Sys2Proof/Machine/Measure.lean ====
section
/-! DEFINITION. Time-interval and frequency measurement (11_time_measurement R459 to R483). -/
namespace Sys2Proof.Machine

/-- A user TDC's runtime state. -/
def State.tdcOf (s : State) (d : Nat) : TdcRt := Tbl.get (fun _ => {}) s.tdc d

/-- The state with a user TDC's runtime state replaced. -/
def State.setTdc (s : State) (d : Nat) (x : TdcRt) : State := { s with tdc := Tbl.put (fun _ => {}) s.tdc d x }

/-- TMU.STATE as it stands beside LOANED. -/
def State.tmuState (s : State) (d : Nat) : Nat := s.rd Obj.tmuState d

/-- R466: TDC 28 + k interpolates TRIGIN k. -/
def State.loaned (s : State) (d : Nat) : Bool := 28 ≤ d && d < 32 && bit (s.rd Obj.taeTriginCfg 0) (d - 28)

/-- R466, R479: what TMU.STATE reads as. -/
def State.tmuStateRead (s : State) (d : Nat) : Nat := if s.loaned d && s.tmuState d != 7 then 6 else s.tmuState d

/-- TMU.COUNTS field i, one more. -/
def State.tmuCount (s : State) (d i : Nat) : State := s.count Obj.tmuCounts d ⟨48 * i, 48⟩ ⟨144 + i, 1⟩ 1

/-- R459: the stamp of an event at an instant, in fs after the epoch: whole root periods and steps of 0.25 ps, ties upward. -/
def State.stampFs (s : State) (t : Nat) : Nat :=
  let d := t - s.clk.epoch
  d / rootFs * rootFs + (d % rootFs * 2 + 250) / 500 * 250

/-- R480: an entry of TMU.STAMPS. -/
def TdcStamp.bytes (x : TdcStamp) : Bytes := toLE 16 (x.t / rootFs % 2 ^ 64 + x.t % rootFs / 250 * 2 ^ 64 + x.b.toNat * 2 ^ 73 + x.falling.toNat * 2 ^ 74)

/-- The bytes of a read of TMU.STAMPS. -/
def State.tmuStamps (s : State) (d : Nat) : Bytes := (s.tdcOf d).stamps.flatMap TdcStamp.bytes

/-! Statistics (R471). -/

/-- a + b as fractions. -/
def fracAdd (a b : Frac) : Frac := (a.1 * b.2 + b.1 * a.2, a.2 * b.2)

/-- a ≤ b for fractions. -/
def fracLe (a b : Frac) : Bool := decide (a.1 * b.2 ≤ b.1 * a.2)

/-- The square root of a fraction that is not negative, with 80 bits and a last bit that says whether it is inexact, so that it rounds to F64 as the exact root does. -/
def fracSqrt (a : Frac) : Frac :=
  let n := a.1.toNat
  let k := 160 + 2 * (Nat.log2 a.2 - Nat.log2 n)
  let k := k + k % 2
  let v := n * 2 ^ k / a.2
  let r := Nat.sqrt v
  let exact := r * r = v ∧ n * 2 ^ k % a.2 = 0
  ((2 * r + (if exact then 0 else 1) : Nat), 2 ^ (k / 2 + 1))

/-- R471: minimum, maximum, mean and rms deviation of samples as F64. -/
def tmuStats (l : List Frac) : Nat × Nat × Nat × Nat :=
  match l with
  | [] => (0, 0, 0, 0)
  | a :: t =>
    let lo := t.foldl (fun m x => if fracLe x m then x else m) a
    let hi := t.foldl (fun m x => if fracLe m x then x else m) a
    let n := l.length
    let sum := t.foldl fracAdd a
    let mean : Frac := (sum.1, sum.2 * n)
    let sq := l.foldl (fun m x => let d := fracSub x mean; fracAdd m (fracMul d d)) (0, 1)
    (toF64 lo, toF64 hi, toF64 mean, toF64 (fracSqrt (sq.1, sq.2 * n)))

/-- R472, R473, R479: a measurement ends with a state. -/
def State.tmuEnd (s : State) (d code : Nat) : State :=
  let s := (s.wr Obj.tmuState d code).setFld Obj.tmuResult d F.tmuResultStamp s.stamp
  if code = 5 then s else s.latch Ev.tmuDone

/-- R471: a sample is taken; `stat` is none in TIMESTAMP. -/
def State.tmuSample (s : State) (d : Nat) (stat : Option Frac) : State :=
  let s := s.count Obj.tmuResult d F.tmuResultN F.tmuResultNSat 1
  let s := match stat with
    | none => s
    | some f =>
      let x := s.tdcOf d
      let l := f :: x.samples
      let (a, b, c, e) := tmuStats l
      let s := s.setTdc d { x with samples := l }
      (((s.setFld Obj.tmuResult d F.tmuResultMin a).setFld Obj.tmuResult d F.tmuResultMax b).setFld Obj.tmuResult d F.tmuResultMean c).setFld Obj.tmuResult d F.tmuResultRms e
  let n := s.rd Obj.tmuCount d
  if n ≠ 0 ∧ s.fld Obj.tmuResult d F.tmuResultN ≥ n then s.tmuEnd d 2 else s

/-! Control (R473). -/

/-- R466, R473: step 8 of TMU.CTRL. -/
def State.tmuCond (s : State) (d v : Nat) : List (Bool × Nat) :=
  if v = 1 then [(s.tmuState d == 1, rBusy), (s.loaned d, rInUse)] else []

/-- R473: step 8 of a write to TMU.CFG, HOLDOFF, GATE, TIMEOUT, COUNT or REF_PERIOD. -/
def State.tmuCfgCond (s : State) (d : Nat) : List (Bool × Nat) := [(s.tmuState d == 1, rInUse)]

/-- R473: the effect of a write of TMU.CTRL. A FAILED TDC goes on reading FAILED (R462). The XTAL edge on which the first FREQUENCY gate opens is a free value
within one period (notes/assumptions/3.md). -/
def State.tmuCtrl (s : State) (d v : Nat) : State :=
  let s := s.wr Obj.tmuCtrl d v
  if v = 0 then (if s.tmuState d = 1 then s.tmuEnd d 3 else s)
  else if s.tmuState d = 7 then s
  else
    let s := (s.wr Obj.tmuResult d (s.fld Obj.tmuCfg d F.tmuCfgMode)).wr Obj.tmuCounts d 0
    let open' := s.now + Config.freeValue s.freeCtr % (25 * nsFs)
    let s := s.draw.setTdc d { s.tdcOf d with from' := none, span := 0, samples := [], gate := some open', first := none, last := none, edges := 0, since := s.now }
    s.wr Obj.tmuState d 1

/-- R473: every running measurement is abandoned. -/
def State.tmuAbandon (s : State) : State :=
  ((List.range 32).filter (fun d => s.tmuState d == 1)).foldl (fun s d => s.tmuEnd d 5) s

/-! Events (R460, R467 to R469). -/

/-- R463, R480: an event qualifies on an input with a source code and an EDGE code. -/
def qualifies (src edge source : Nat) (falling : Bool) : Bool :=
  src / 4096 != 0 && src == source && (edge == 2 || (edge == 1) == falling)

/-- R460: an input takes a stamp. -/
def State.takeStamp (s : State) (d : Nat) (b falling : Bool) (st : Nat) : State :=
  let x := s.tdcOf d
  let r := s.edgeAt vclkFs s.now + 16 * vclkFs
  let x := { x with stamps := lastN 4096 (x.stamps ++ [(⟨st, b, falling⟩ : TdcStamp)]) }
  (s.setTdc d (if b then { x with readyB := r } else { x with readyA := r })).tmuCount d 0

/-- A difference in fs as a fraction of ps. -/
def psFrac (v : Int) (den : Nat) : Frac := (v, 1000 * max 1 den)

/-- R467 JITTER: the distance of a stamp from the nearest multiple of the reference period; a tie between two multiples is a free choice (notes/assumptions/3.md). -/
def jitterOf (t ref : Nat) (up : Bool) : Int :=
  let r := t % max 1 ref
  if 2 * r < ref ∨ (2 * r = ref ∧ !up) then (r : Int) else (r : Int) - ref

/-- R467, R468: an A edge in PERIOD or JITTER. -/
def State.chainEdge (s : State) (d mode st : Nat) (ready falling : Bool) : State :=
  let x := s.tdcOf d
  let sampleOf := fun (s : State) (prev : Option Nat) =>
    if mode = 4 then s.draw.tmuSample d (some (psFrac (jitterOf st (s.rd Obj.tmuRefPeriod d) (Config.freeBool s.freeCtr)) 1))
    else match prev with
    | some p => s.tmuSample d (some (psFrac ((st : Int) - p) (s.fld Obj.tmuCfg d F.tmuCfgSpan)))
    | none => s
  match x.from' with
  | none =>
    if ready then
      let s := s.takeStamp d false falling st
      sampleOf (s.setTdc d { s.tdcOf d with from' := some st, span := 0 }) none
    else s.tmuCount d 1
  | some p =>
    if x.span + 1 < s.fld Obj.tmuCfg d F.tmuCfgSpan then
      (if ready then id else fun s => s.tmuCount d 1) (s.setTdc d { x with span := x.span + 1 })
    else if ready then
      let s := s.takeStamp d false falling st
      sampleOf (s.setTdc d { s.tdcOf d with from' := some st, span := 0 }) (some p)
    else (((s.setTdc d { x with from' := none, span := 0 }).tmuCount d 1).tmuCount d 2)

/-- R467 INTERVAL: the B stamp st closes the sample that the A stamp a opened. -/
def State.intervalClose (s : State) (d st a : Nat) : State :=
  (s.setTdc d { s.tdcOf d with from' := none, first := none, last := some st, since := s.now }).tmuSample d (some (psFrac ((st : Int) - a) 1))

/-- R467, R469 INTERVAL: a stamp on A or B. `last` is the B stamp of the last sample, which the next A edge comes after, and `first` the last B stamp
that closed no sample: an A stamp equal to it makes a sample of 0 ps. -/
def State.intervalStamp (s : State) (d st : Nat) (b : Bool) : State :=
  let x := s.tdcOf d
  match x.from' with
  | none =>
    if b then s.setTdc d { x with first := some st }
    else if x.last.any (fun l => decide (st ≤ l)) then s
    else if x.first = some st ∧ s.rd Obj.tmuHoldoff d = 0 then s.intervalClose d st st
    else s.setTdc d { x with from' := some st, since := s.now }
  | some a => if b && decide (a + s.rd Obj.tmuHoldoff d ≤ st) then s.intervalClose d st a else s

/-- R473: a pin source whose bank domain is off produces no events. -/
def State.tapped (s : State) (source : Nat) : Bool := source / 4096 == 0 || source / 4096 > 4 || s.driven (source % 4096)

/-- R467 to R469, R473: TDC_STAMP: an event of a source code at t. -/
def execTdcStamp (tdc source : Nat) (falling : Bool) (t : Nat) (s : State) : Res :=
  let s := s.reach t
  if s.tmuState tdc ≠ 1 ∨ tdc ≥ 32 ∨ s.tapped source = false then .next s else
  let c := s.rd Obj.tmuCfg tdc
  let mode := Fld.get F.tmuCfgMode c
  let isA := qualifies (Fld.get F.tmuCfgSrcA c) (Fld.get F.tmuCfgEdgeA c) source falling
  let isB := !isA && mode < 2 && qualifies (Fld.get F.tmuCfgSrcB c) (Fld.get F.tmuCfgEdgeB c) source falling
  if !isA && !isB then .next s else
  let x := s.tdcOf tdc
  let st := s.stampFs t
  let ready := decide ((if isB then x.readyB else x.readyA) ≤ t)
  let awaited := if mode = 0 then true else if mode = 1 then isB == x.from'.isSome else true
  let s := if awaited then s.setTdc tdc { x with since := s.now } else s
  if mode = 2 ∨ mode = 4 then .next (s.chainEdge tdc mode st ready falling) else
  let s := if mode == 3 && (match x.gate with | some g => decide (g ≤ t) | none => false) then
      let x := s.tdcOf tdc
      s.setTdc tdc (if x.first.isNone then { x with first := some st } else { x with last := some st, edges := x.edges + 1 })
    else s
  if !ready then .next (s.tmuCount tdc 1) else
  let s := s.takeStamp tdc isB falling st
  if mode = 0 then .next (s.tmuSample tdc none)
  else if mode = 1 then .next (s.intervalStamp tdc st isB)
  else .next s

/-! FREQUENCY gates and local time (R470, R474 to R476). -/

/-- R474: 25 ns ÷ (1 + A × 10⁻⁹) for so many edges, as a fraction of fs. -/
def ltSpan (edges : Nat) (a : Int) : Frac := ((edges : Int) * 25000000 * 1000000000, (1000000000 + a).toNat)

/-- R474, R476: LT over an interval of so many evenly spaced XTAL edges: each edge takes the value of TMU.XTAL_AGEING in force at it. -/
def State.ltOver (s : State) (a b k : Nat) : Frac :=
  let upTo := fun t : Nat => if b ≤ a then 0 else min k ((t - a) * k / (b - a))
  let l := s.clk.ageings.filter (fun x => decide (x.1 < b))
  let rec go : List (Nat × Int) → Frac
    | [] => (0, 1)
    | [(t, v)] => ltSpan (k - upTo t) v
    | (t, v) :: (u, w) :: r => fracAdd (ltSpan (upTo u - upTo t) v) (go ((u, w) :: r))
  go l

/-- R470: GATE_CLOSE: the XTAL edge at t closes the gate, whose length is the fewest XTAL periods of 25 ns that hold TMU.GATE; the next gate opens on it. -/
def execGateClose (tdc t : Nat) (s : State) : Res :=
  let x := s.tdcOf tdc
  if s.tmuState tdc ≠ 1 ∨ s.fld Obj.tmuCfg tdc F.tmuCfgMode ≠ 3 then .next s else
  match x.gate with
  | none => .next s
  | some g =>
    if t ≤ g then .next s else
    let s := s.reach t
    let s := s.setTdc tdc { x with gate := some t, first := none, last := none, edges := 0 }
    match x.first, x.last with
    | some a, some b =>
      if b ≤ a then .next (s.tmuEnd tdc 4) else
      let f : Frac := ((x.edges : Int) * secFs, b - a)
      if s.fld Obj.tmuCfg tdc F.tmuCfgTimebase = 0 then .next (s.tmuSample tdc (some f))
      else
        let lt := s.ltOver g t (ceilDiv (s.rd Obj.tmuGate tdc) (25 * nsFs))
        .next (s.tmuSample tdc (some (f.1 * ((s.stampFs t - s.stampFs g : Nat) : Int) * lt.2, f.2 * max 1 lt.1.toNat)))
    | _, _ => .next (s.tmuEnd tdc 4)

/-- R472: TMU_TIMEOUT: the awaited input has had no qualifying event for TMU.TIMEOUT. -/
def execTmuTimeout (tdc : Nat) (s : State) : Res :=
  if s.tmuState tdc ≠ 1 then .next s
  else .next ((s.reach ((s.tdcOf tdc).since + s.rd Obj.tmuTimeout tdc)).tmuEnd tdc 4)

/-- R475: the root runs from XTAL. -/
def State.standalone (s : State) : Bool := s.fld Obj.clkState 0 F.clkStateSource == 1

/-- R475: TMU.XTAL_OFFSET: while the root is locked to REFCLK the measured error of the crystal is a free value (notes/assumptions/3.md). -/
def State.xtalOffset (s : State) : Nat := if s.standalone then 2 ^ 32 else Config.freeValue s.freeCtr % 2 ^ 32

/-- R474: TMU.LT_NOW on the FCLK edge of a read. From XTAL the edges lie 25 ns apart; against REFCLK the crystal's edges, and so LT, are free (notes/assumptions/3.md). -/
def State.ltNow (s : State) : Nat :=
  if s.standalone then
    let k := (s.now - s.clk.ltStart) / (25 * nsFs)
    let lt := s.ltOver s.clk.ltStart (s.clk.ltStart + k * (25 * nsFs)) k
    stampOf (lt.1.toNat * 2 ^ 32 / (lt.2 * nsFs))
  else Config.freeValue s.freeCtr % 2 ^ 96

/-- R476: a write of TMU.XTAL_AGEING. -/
def State.ageing (s : State) (v : Nat) : State :=
  { s.wr Obj.tmuXtalAgeing 0 v with clk := { s.clk with ageings := s.clk.ageings ++ [(s.now, toSigned 32 v)] } }

/-- R466: step 8 of a write of TAE.TRIGIN_CFG. -/
def State.interpCond (s : State) (v : Nat) : List (Bool × Nat) :=
  [((List.range 4).any (fun k => bit v k && s.tmuState (28 + k) == 1), rInUse)]

end Sys2Proof.Machine
end

