-- ==== Sys2Proof/Machine/Paths.lean ====
section
/-! DEFINITION. The path analysis of admission (12_placement R488, R491 to R493, R857; R186, R193, R330): which blocks a needle can reach, what a window of stitches fetches, the decode budget, the level-bus rate. -/
namespace Sys2Proof.Machine

/-- A place on an execution path: the block, the open loops innermost first (handle, LOOP_BEGIN, iterations left), the calls innermost first. -/
structure Node where
  h : Nat
  off : Nat
  loops : List (Nat × Nat × Nat)
  calls : List (Nat × Nat)
  deriving DecidableEq, Repr

/-- What path analysis reads: the charts (handle, NPINS, blocks), the needle's shortest period, per LOOP_BEGIN (handle, offset) the iterations that a window can tell apart, and per
MATCH (handle, offset) the earliest and the latest deciding strobe of a pass, in fs from the pass's start. -/
structure Paths where
  charts : List (Nat × Nat × List (Nat × Block))
  p : Nat
  caps : List (Nat × Nat × Nat) := []
  decides : List (Nat × Nat × Nat × Nat) := []
  deriving DecidableEq, Repr

/-- R491: S. -/
def Paths.s (c : Paths) : Nat := max 1 (1280000000 / c.p)

/-- NPINS and blocks of a handle. -/
def Paths.chart (c : Paths) (h : Nat) : Option (Nat × List (Nat × Block)) := (c.charts.find? (fun x => x.1 == h)).map (·.2)

/-- The block at a place. -/
def Paths.block (c : Paths) (h off : Nat) : Option Block := (c.chart h).bind (fun x => blockAt x.2 off)

/-- The offset of the block after one. -/
def Paths.after (c : Paths) (h off : Nat) (b : Block) : Nat := off + 1 + b.courses (((c.chart h).map (·.1)).getD 1)

/-- Iterations of a loop that a window can tell apart (R491: as many as a window can reach). -/
def Paths.cap (c : Paths) (h o : Nat) : Nat := ((c.caps.find? (fun x => x.1 == h && x.2.1 == o)).map (·.2.2)).getD (c.s + 1200)

/-- R857: where a path goes on after a block. With `all`, the iterations after the first start at every number of iterations left that a window can tell apart;
a LOOP_END whose loop was not opened on this path goes both ways. -/
def Paths.succ (c : Paths) (all : Bool) (n : Node) : List Node :=
  match c.block n.h n.off with
  | none => []
  | some b =>
    let nx := c.after n.h n.off b
    let go := fun off => ({ n with off := off } : Node)
    match b.op with
    | 0x03 => if b.count = 0 then (match c.block n.h b.target with | some e => [go (c.after n.h b.target e)] | none => [])
        else [{ n with off := nx, loops := (n.h, n.off, b.count) :: n.loops }]
    | 0x04 =>
      let body := match c.block n.h b.target with | some e => c.after n.h b.target e | none => nx
      match n.loops with
      | (h, o, l) :: t =>
        if h = n.h ∧ o = b.target then
          if l ≤ 1 then [{ n with off := nx, loops := t }]
          else
            let full := match c.block h o with | some e => e.count | none => l
            let ls := if all ∧ l = full then (List.range (min (l - 1) (c.cap h o))).map (· + 1) else [l - 1]
            ls.map (fun k => { n with off := body, loops := (h, o, k) :: t })
        else [go body, go nx]
      | [] => [go body, go nx]
    | 0x05 =>
      let h := if bit b.arg 15 then b.arg % 1024 else n.h
      if n.calls.length ≥ 16 then [] else [{ n with h := h, off := b.target, calls := (n.h, nx) :: n.calls }]
    | 0x06 => match n.calls with | (h, o) :: t => [{ n with h := h, off := o, calls := t }] | [] => []
    | 0x07 => [go b.target]
    | 0x08 => [go nx, go b.target]
    | 0x09 => [go nx, go b.target]
    | 0x0A => if b.count ≥ 1 then [go nx, go b.target] else [go nx]
    | 0x12 => [go b.target]
    | 0xFF => []
    | _ => [go nx]

/-- The search over a successor function: what a work list reaches. -/
def explore {α : Type} [DecidableEq α] (next : α → List α) : Nat → List α → List α → List α
  | 0, _, seen => seen
  | _, [], seen => seen
  | f + 1, a :: w, seen => if seen.contains a then explore next f w seen else explore next f (next a ++ w) (a :: seen)

/-- A bound on the steps of a search, beyond any chart. -/
def searchFuel : Nat := 2 ^ 60

/-- R165: the earliest and the latest deciding strobe of a MATCH. -/
def Paths.strobed (c : Paths) (n : Node) : Nat × Nat := ((c.decides.find? (fun x => x.1 == n.h && x.2.1 == n.off)).map (·.2.2)).getD (0, 0)

/-- R166: the passes from a pass to the first boundary at least 14 VCLK after its deciding strobe, that pass included. -/
def Paths.turn (c : Paths) (b : Block) (strobe : Nat) : Nat := ceilDiv (strobe + 14 * vclkFs) (b.len * c.p)

/-- R857: the fewest issues of a block's payload in one visit. -/
def Paths.fewest (c : Paths) (n : Node) (b : Block) : Nat :=
  match b.op with
  | 0x02 | 0x11 => b.count
  | 0x08 => max 1 (c.turn b (c.strobed n).1)
  | _ => 1

/-- R857: the numbers of issues to consider: of a MATCH up to the passes after COUNT that its deciding strobe can take, of a WAIT_EVENT up to COUNT; no more than fill one window beyond the fewest. -/
def Paths.issues (c : Paths) (n : Node) (b : Block) : List Nat :=
  let lo := c.fewest n b
  let more := c.s / max 1 b.len + 1
  let hi := match b.op with
    | 0x08 => min (b.count - 1 + c.turn b (c.strobed n).2) (lo + more)
    | 0x0A => if b.count = 0 then lo + more else min b.count (lo + more)
    | _ => lo
  (List.range (hi - lo + 1)).map (lo + ·)

/-- R493: stitches of a block, with the fewest passes. -/
def Paths.stitches (c : Paths) (n : Node) (b : Block) : Nat := b.len * c.fewest n b

/-- The fewest stitches of one iteration of a loop, no more than a window holds. -/
def Paths.iteration (c : Paths) (h o : Nat) (b : Block) : Nat :=
  let ends := fun (n : Node) => n.h == h && n.off == b.target && n.calls.isEmpty && decide (n.loops.length = 1)
  let next := fun (x : Node × Nat) => if x.2 ≥ c.s ∨ ends x.1 = true then [] else
    match c.block x.1.h x.1.off with
    | none => []
    | some d => (c.succ false x.1).map (fun m => (m, x.2 + c.stitches x.1 d))
  (explore next searchFuel [(⟨h, c.after h o b, [(h, o, 1)], []⟩, 0)] []).foldl (fun m x => if ends x.1 then min m x.2 else m) c.s

/-- R491: loops are unrolled for as many iterations as a window can reach. -/
def Paths.withCaps (c : Paths) : Paths :=
  { c with caps := c.charts.flatMap (fun x => (x.2.2.filter (fun y => y.2.op == 0x03 && decide (y.2.count > 1))).map (fun y =>
      (x.1, y.1, let m := c.iteration x.1 y.1 y.2; if m = 0 then c.s + 1200 else c.s / m + 2))) }

/-- The places that paths from some blocks of a chart reach: its ENTRY, and the jump-table targets, at which a host jump goes on with both stacks empty (R231). -/
def Paths.reach (c : Paths) (h : Nat) (starts : List Nat) : List Node := explore (c.succ true) searchFuel (starts.map (fun o => ⟨h, o, [], []⟩)) []

/-! Fetch items (R491, R492). -/

/-- R216: the block lies in a loop body of at most 8,192 courses that has run once, and is replayed. -/
def Paths.replayed (c : Paths) (n : Node) : Bool :=
  n.loops.any (fun l => match c.block l.1 l.2.1 with
    | some b => l.1 == n.h && decide (l.2.1 < n.off ∧ n.off ≤ b.target ∧ l.2.2 < b.count ∧ b.target - (l.2.1 + 1) ≤ 8192)
    | none => false)

/-- R491: the payload is read again on every issue. -/
def Paths.reread (c : Paths) (h : Nat) (b : Block) : Bool :=
  (b.op == 0x02 || b.op == 0x08 || b.op == 0x0A || b.op == 0x11) && decide (b.courses (((c.chart h).map (·.1)).getD 1) > 8192)

/-- R491: the first stitch that course k of a copy holds. -/
def firstStitch (w k : Nat) : Nat := if w ≤ 512 then k * (512 / w) else k / 2

/-- The payload courses of a block with their first stitches. -/
def Paths.payload (c : Paths) (h off : Nat) (b : Block) : List (Nat × Nat) :=
  let np := ((c.chart h).map (·.1)).getD 1
  let per := if b.len = 0 then 0 else stitchCourses np b.bpp b.len
  (List.range b.copies).flatMap (fun k => (List.range per).map (fun i => (off + 1 + k * per + i, firstStitch (stitchWidth np (bppBits b.bpp)) i)))

/-- R491: the items of a visit of so many issues that have the wanted residence: stitch of the visit and bytes; none where it is replayed. -/
def Paths.items (c : Paths) (want : Nat → Nat → Bool) (n : Node) (b : Block) (times : Nat) : List (Nat × Nat) :=
  if c.replayed n then [] else
  let np := ((c.chart n.h).map (·.1)).getD 1
  let per := if b.len = 0 then 0 else stitchCourses np b.bpp b.len
  let w := stitchWidth np (bppBits b.bpp)
  let one := (List.range per).map (fun i => (firstStitch w i, 64 * ((List.range b.copies).filter (fun k => want n.h (n.off + 1 + k * per + i))).length))
  let reps := if c.reread n.h b then List.range times else [0]
  (if want n.h n.off then [(0, 64)] else []) ++ (reps.flatMap (fun r => one.map (fun x => (r * b.len + x.1, x.2)))).filter (fun x => decide (0 < x.2))

/-- R857: the numbers of issues that can matter to a window: where nothing is read again, the fewest leave the window most room; else no more than three beyond those that fill one. -/
def Paths.tries (c : Paths) (n : Node) (b : Block) : List Nat :=
  if c.reread n.h b then ((c.issues n b).map (fun t => min t (c.s / max 1 b.len + 3))).dedup else [c.fewest n b]

/-- Blocks in a row that issue no stitch: no more can pass the decode budget (R493). -/
def zeroRun : Nat := 1200

/-- A place that a window has reached: stitches used, place, bytes, blocks without a stitch since the last. -/
abbrev Reached := Nat × Node × Nat × Nat

/-- A place joins those to go on from, in order of stitches used; of two ways to one place the one with more bytes stays. -/
def joinReached (x : Reached) : List Reached → List Reached
  | [] => [x]
  | y :: t =>
    if y.1 < x.1 then y :: joinReached x t
    else if y.1 = x.1 ∧ y.2.1 = x.2.1 then (if y.2.2.1 < x.2.2.1 then x else y) :: t
    else if y.1 = x.1 then y :: joinReached x t
    else x :: y :: t

/-- The sums that items reach after `v` bytes, from stitch u on. -/
def sums (u : Nat) : Nat → List (Nat × Nat) → List (Nat × Nat)
  | _, [] => []
  | v, x :: t => (u + x.1, v + x.2) :: sums u (v + x.2) t

/-- R492: the items on the paths that go on from places, within one window: stitches used before the item, bytes with it. -/
def Paths.ahead (c : Paths) (want : Nat → Nat → Bool) : Nat → List Reached → List (Nat × Nat) → List (Nat × Nat)
  | 0, _, out => out
  | _, [], out => out
  | f + 1, (u, n, v, z) :: w, out =>
    match c.block n.h n.off with
    | none => Paths.ahead c want f w out
    | some b =>
      let vs := (c.tries n b).map (fun t => (b.len * t, sums u v ((c.items want n b t).filter (fun x => decide (u + x.1 < c.s)))))
      let go := vs.foldl (fun w x =>
        if u + x.1 ≥ c.s ∨ (x.1 = 0 ∧ z ≥ zeroRun) then w
        else (c.succ false n).foldl (fun w m => joinReached (u + x.1, m, (x.2.getLast?.map (·.2)).getD v, if x.1 = 0 then z + 1 else 0) w) w) w
      Paths.ahead c want f go (vs.foldl (fun o x => x.2 ++ o) out)

/-- R492, R857: the largest window that begins at an item of a visit; a window that begins elsewhere holds no more than the one that begins at its first item. -/
def Paths.window (c : Paths) (want : Nat → Nat → Bool) (n : Node) (b : Block) : Nat :=
  let next := c.ahead want searchFuel ((c.succ false n).foldl (fun w y => joinReached (0, y, 0, 0) w) []) []
  (c.tries n b).foldl (fun m t =>
    let total := b.len * t
    let items := c.items want n b t
    (items.map (·.1)).dedup.foldl (fun m lo =>
      let own := items.foldl (fun a x => if lo ≤ x.1 ∧ x.1 < lo + c.s then a + x.2 else a) 0
      let left := c.s - (total - lo)
      max m (own + next.foldl (fun a x => if x.1 < left then max a x.2 else a) 0)) m) 0

/-- R492: FETCH of a needle for one residence. -/
def Paths.fetch (c : Paths) (want : Nat → Nat → Bool) (h : Nat) (starts : List Nat) : Nat :=
  (c.reach h starts).foldl (fun m n => match c.block n.h n.off with
    | none => m
    | some b => if c.replayed n then m else max m (c.window want n b)) 0

/-! The decode budget (R493). -/

/-- One place of a path is worse than another where it has no more slack: an iteration that begins with the slack of the one before it changes nothing more, so the search goes on at its loop's last. -/
def Paths.skipSame (seen : List (Node × Nat)) (x : Node × Nat) : Node × Nat :=
  match x.1.loops with
  | (h, o, l) :: t =>
    if l > 1 ∧ seen.contains ({ x.1 with loops := (h, o, l + 1) :: t }, x.2) then ({ x.1 with loops := (h, o, 1) :: t }, x.2) else x
  | [] => x

/-- R493: the first block found that breaks the budget; the slack in fs. -/
def Paths.budget (c : Paths) : Nat → List (Node × Nat) → List (Node × Nat) → Option (Nat × Nat)
  | 0, _, _ => none
  | _, [], _ => none
  | f + 1, (n, sl) :: w, seen =>
    if seen.any (fun y => y.1 == n && decide (y.2 ≤ sl)) then Paths.budget c f w seen
    else match c.block n.h n.off with
    | none => Paths.budget c f w seen
    | some b =>
      if sl < vclkFs then some (n.h, n.off) else
      let s1 := min (64 * vclkFs) (sl - vclkFs + c.stitches n b * c.p)
      Paths.budget c f ((c.succ false n).map (fun m => Paths.skipSame ((n, sl) :: seen) (m, s1)) ++ w) ((n, sl) :: seen)

/-- R493, from each start. -/
def Paths.decodeFail (c : Paths) (h : Nat) (starts : List Nat) : Option (Nat × Nat) := c.budget searchFuel (starts.map (fun o => (⟨h, o, [], []⟩, 64 * vclkFs))) []

/-! Calls (R193). -/

/-- R162, R193: a block at which a call path exceeds a depth, calls itself, or returns with an empty stack. -/
def Paths.callFail (c : Paths) (h : Nat) (starts : List Nat) : Option (Nat × Nat) :=
  ((c.reach h starts).find? (fun n => match c.block n.h n.off with
    | none => false
    | some b =>
      (b.op == 0x05 && (decide (n.calls.length ≥ 16) || n.calls.contains (n.h, c.after n.h n.off b))) ||
      (b.op == 0x06 && n.calls.isEmpty) || (b.op == 0x03 && b.count ≥ 1 && decide (n.loops.length ≥ 8)))).map (fun n => (n.h, n.off))

/-! Extents (R488). -/

/-- R488: the courses of the extent at a place, as (handle, course). -/
def Paths.extent (c : Paths) (n : Node) : List (Nat × Nat) :=
  let far := ceilDiv (64 * vclkFs) (max 1 c.p)
  let next := fun (x : Node × Nat) => if x.2 ≥ far then [] else
    match c.block x.1.h x.1.off with
    | none => []
    | some b => (c.succ false x.1).map (fun m => (m, x.2 + c.stitches x.1 b))
  (explore next searchFuel [(n, 0)] []).flatMap (fun (x : Node × Nat) => if x.2 ≥ far then [] else
    match c.block x.1.h x.1.off with
    | none => []
    | some b => (x.1.h, x.1.off) :: ((c.payload x.1.h x.1.off b).filter (fun (y : Nat × Nat) => decide (x.2 + y.2 < far))).map (fun y => (x.1.h, y.1)))

/-- R488: where the extents of a block begin. -/
def Paths.extentStarts (c : Paths) (h : Nat) (off : Nat) (b : Block) : List (Nat × Nat) :=
  let nx := c.after h off b
  match b.op with
  | 0x03 =>
    (match c.block h b.target with | some e => [(h, c.after h b.target e)] | none => []) ++ (if b.target - (off + 1) > 8192 then [(h, nx)] else [])
  | 0x05 => [(if bit b.arg 15 then b.arg % 1024 else h, b.target), (h, nx)]
  | 0x07 => [(h, b.target)]
  | 0x08 | 0x09 => [(h, b.target), (h, nx)]
  | 0x0A => if b.count ≥ 1 then [(h, b.target), (h, nx)] else [(h, nx)]
  | 0x12 => if b.target = 0 then [] else [(h, b.target)]
  | _ => []

/-- R488: every mandatory course of a needle, with its jump-table targets; an extent is taken at its block in every way that paths reach it. -/
def Paths.mandatory (c : Paths) (h : Nat) (starts : List Nat) : List (Nat × Nat) :=
  let from' := starts.map (fun j => (h, j)) ++ c.charts.flatMap (fun x => x.2.2.flatMap (fun y => c.extentStarts x.1 y.1 y.2))
  let reached := c.reach h starts
  from'.flatMap (fun st => ((⟨st.1, st.2, [], []⟩ : Node) :: reached.filter (fun n => n.h == st.1 && n.off == st.2)).flatMap c.extent)

/-! The level bus (R330). -/

/-- R330: a LEVELS block reached too soon after one that addresses the same bank. `frames b` is the frame count on the bank, `busy k` the time of k frames. -/
def Paths.levelFail (c : Paths) (h : Nat) (starts : List Nat) (frames : Block → Nat) (busy : Nat → Nat) : Option (Nat × Nat) :=
  let one := fun (n : Node) => match c.block n.h n.off with | some b => if b.op = 0x0C then frames b else 0 | none => 0
  let issue := fun (n : Node) => match c.block n.h n.off with | some b => c.stitches n b * c.p | none => 0
  (c.reach h starts).findSome? (fun n =>
    if one n = 0 then none else
    let limit := busy (one n)
    let next := fun (x : Node × Nat) => if x.2 ≥ limit ∨ one x.1 > 0 then [] else (c.succ false x.1).map (fun m => (m, x.2 + issue x.1))
    ((explore next searchFuel ((c.succ false n).map (fun m => (m, issue n))) []).find? (fun x => decide (x.2 < limit) && decide (one x.1 > 0))).map (fun x => (x.1.h, x.1.off)))

/-! Events to neighbours (R664). -/

/-- The cascade ports that a block sends an event on. -/
def signalPorts (b : Block) : Nat := if b.op = 0x13 then b.arg / 256 % 16 else 0

/-- R664: a SIGNAL block reached less than 2 VCLK of stitch time after one that addresses a port of its own. -/
def Paths.signalFail (c : Paths) (h : Nat) (starts : List Nat) : Option (Nat × Nat) :=
  let ports := fun (n : Node) => (match c.block n.h n.off with | some b => signalPorts b | none => (0 : Nat))
  let issue := fun (n : Node) => match c.block n.h n.off with | some b => c.stitches n b * c.p | none => 0
  let limit := 2 * vclkFs
  (c.reach h starts).findSome? (fun n =>
    if ports n = 0 then none else
    let next := fun (x : Node × Nat) => if x.2 ≥ limit then [] else (c.succ false x.1).map (fun m => (m, x.2 + issue x.1))
    ((explore next searchFuel ((c.succ false n).map (fun m => (m, issue n))) []).find? (fun x => decide (x.2 < limit) && (ports x.1 &&& ports n) != (0 : Nat))).map (fun x => (x.1.h, x.1.off)))

end Sys2Proof.Machine
end

