-- ==== Sys2Proof/Machine/Place.lean ====
section
/-! DEFINITION. Placement and admission (12_placement R484 to R516): the checks of an ARMED request, residence, regions, queues, home cores, migration. -/
namespace Sys2Proof.Machine

/-- What PLC.REPORT says of a refusal (R514). -/
structure Report where
  cond : Nat
  needle : Nat := 0xFF
  chart : Nat := 0xFFFF
  pin : Nat := 0xFFFF
  course : Nat := 0
  tsA : Nat := 0
  tsB : Nat := 0
  wvA : Nat := 0
  wvB : Nat := 0
  demand : Nat := 0
  limit : Nat := 0
  excess : Int := 0
  deriving DecidableEq, Repr

/-! Inputs. -/

/-- The needles to place. -/
def State.placedNeedles (s : State) : List Nat := needles s.hasChart

/-- A needle's chart. -/
def State.chartOf (s : State) (n : Nat) : Nat := s.rd Obj.ndlChart n

/-- R262: the needle's chart is streamed. -/
def State.streamed (s : State) (n : Nat) : Bool := s.hasChart n && hdr (s.chart (s.chartOf n)) 72 1 == 1

/-- R186: the timing sets of a needle's chart and its external motifs. -/
def State.pathTsets (s : State) (n : Nat) : Nat := (s.needleCharts n).foldl (fun a h => a ||| chartTsets (s.chart h)) 0

/-- R487: the timing sets of a needle. -/
def State.needleTsets (s : State) (n : Nat) : Nat := s.pathTsets n ||| s.fld Obj.plcStreamProfile n F.plcStreamProfileTsets

/-- The shortest period of some timing sets of a needle. -/
def State.shortestOf (s : State) (n sets : Nat) : Nat :=
  match (members 64 sets).map (s.period n) with | [] => 0 | a :: t => t.foldl min a

/-- R186: the shortest period of a needle's paths. -/
def State.pathPeriod (s : State) (n : Nat) : Nat := s.shortestOf n (s.pathTsets n)

/-- R491: P, the shortest period of a needle, which for a streamed chart covers the sets of its skeins. -/
def State.shortest (s : State) (n : Nat) : Nat := s.shortestOf n (if s.streamed n then s.needleTsets n else s.pathTsets n)

/-- R165, R166: the last strobe of a MATCH pass on the pins of one site under one timing set, in fs from the start of the pass at a period; the last stitch where there is none. -/
def State.lastStrobe (s : State) (n p h off : Nat) (b : Block) (t site : Nat) : Nat :=
  let img := s.chart h
  let waves := s.img Obj.ptfWaveTable (waveEl n t)
  let pins := s.chartPins n
  let mine := pins.zipIdx.filter (fun (x : Nat × Nat) => s.pinSite n x.1 == site)
  let at' := fun (k : Nat) => mine.flatMap (fun (x : Nat × Nat) =>
    (wStrobes (waveFor waves x.2 (codeAt b (stitchWord img off b pins.length 0 k) x.2) b.bpp)).map (fun e => k * p + e.2.1 * 500))
  match (List.range b.len).reverse.find? (fun k => !(at' k).isEmpty) with
  | some k => (at' k).foldl max 0
  | none => (b.len - 1) * p

/-- R857: the earliest and the latest deciding strobe of the MATCH blocks of a needle. Which sites are active and which set is in force are not known at arming:
DESIGN CHOICE, any one site and any set of the paths (notes/assumptions/68.md). -/
def State.decisions (s : State) (n p : Nat) : List (Nat × Nat × Nat × Nat) :=
  (s.needleCharts n).flatMap (fun h => ((blocks (s.chart h)).filter (fun y => y.2.op == 0x08)).map (fun y =>
    let l := (members 64 (s.pathTsets n)).flatMap (fun t => (s.sitesOf n).map (s.lastStrobe n p h y.1 y.2 t))
    let none' := (y.2.len - 1) * p
    (h, y.1, match l with | [] => (none', none') | a :: t => (t.foldl min a, t.foldl max a))))

/-- What path analysis reads of a needle at a period. -/
def State.pathsAt (s : State) (n p : Nat) : Paths :=
  Paths.withCaps { charts := (s.needleCharts n).map (fun h => (h, hNpins (s.chart h), blocks (s.chart h))), p := p, decides := s.decisions n p }

/-- R186: the paths at the period of the chart, which the decode budget, the extents, the level buses and the ports take. -/
def State.chartPaths (s : State) (n : Nat) : Paths := s.pathsAt n (s.pathPeriod n)

/-- R491: the paths at P, which the windows take. -/
def State.pathsOf (s : State) (n : Nat) : Paths := s.pathsAt n (s.shortest n)

/-- The entry of a needle's chart. -/
def State.entryOf (s : State) (n : Nat) : Nat := hEntry (s.chart (s.chartOf n))

/-- R229: the valid targets of a needle's jump table. -/
def State.jumpTargets (s : State) (n : Nat) : List Nat :=
  ((List.range 8).filter (fun i => bit (s.fld Obj.ndlJumpTable n F.ndlJumpTableValid) i)).map (fun i => s.fld Obj.ndlJumpTable n ⟨32 * i, 32⟩)

/-- Where a needle's paths begin: ENTRY, and each target that a host jump can take. -/
def State.startsOf (s : State) (n : Nat) : List Nat := s.entryOf n :: s.jumpTargets n

/-! Checks 0x01 to 0x09 (R498). -/

/-- A block that fails a test, as handle and offset. -/
def badBlock (c : Paths) (bad : Block → Bool) : Option (Nat × Nat) :=
  c.charts.findSome? (fun x => (x.2.2.find? (fun y => bad y.2)).map (fun y => (x.1, y.1)))

/-- R193: a LEVELS entry lies outside a pin set. -/
def levelOutside (pinset e : Nat) : Bool :=
  bit e 47 && (let b := Fld.get ⟨30, 3⟩ e
    if bit e 29 then (List.range 32).all (fun i => !bit pinset (32 * b + i)) else !bit pinset (32 * b + Fld.get ⟨24, 5⟩ e))

/-- R664: the cascade ports that a needle's SIGNAL blocks address. -/
def State.signalled (s : State) (n : Nat) : Nat :=
  (s.chartPaths n).charts.foldl (fun a x => x.2.2.foldl (fun a y => a ||| signalPorts y.2) a) 0

/-- R193, R570, R664: check 0x02; of two needles whose SIGNAL blocks address one port the higher-numbered fails. -/
def State.check02 (s : State) (n : Nat) : Option Report :=
  let h := s.chartOf n
  let c := s.chartPaths n
  let bare := fun (t : Nat) => s.waveState (waveEl n t) != 2
  let pinset := s.rd Obj.ndlPinset n
  let np := (s.chartPins n).length
  let rep := fun (x : Option (Nat × Nat)) => x.map (fun y => ({ cond := 2, needle := n, chart := y.1, course := y.2 } : Report))
  let raster := fun (b : Block) => b.op == 0x14 && s.fld Obj.rasStreamCfg (b.arg % 2) F.rasStreamCfgNeedle != n
  let lanes := [0, 1].any (fun i => s.fld Obj.rasStreamCfg i F.rasStreamCfgNeedle == n &&
    (List.range 32).any (fun k => [Obj.rasLaneMap, Obj.rasReturnMap].any (fun o =>
      let e := s.fld o i ⟨32 * k, 32⟩
      bit e 31 && !bit pinset (e % 256))))
  rep (if hNpins (s.chart h) ≠ np then some (h, 0) else none) <|>
  rep (badBlock c (fun b => b.op == 0x05 && bit b.arg 15 && (s.chartState (b.arg % 1024) != 2 || hNpins (s.chart (b.arg % 1024)) != np))) <|>
  rep (c.callFail h (s.startsOf n)) <|>
  rep (badBlock c (fun b => b.op == 0x0C && (List.range 8).any (fun i => levelOutside pinset (entry48 b i)))) <|>
  rep (badBlock c (fun b => b.op == 0x11 && setMinus (b.ext % 2 ^ 64) (s.rd Obj.ndlSites n) != 0)) <|>
  rep (((s.needleCharts n).find? (fun k => bare (hInitTset (s.chart k)))).map (fun k => (k, 0))) <|>
  rep (badBlock c (fun b => b.op == 0x0B && bare b.tset)) <|>
  rep (if (members 64 (s.needleTsets n)).any bare then some (h, 0) else none) <|>
  rep (badBlock c raster) <|>
  rep (if lanes then some (h, 0) else none) <|>
  (let lower := ((s.placedNeedles).filter (fun m => decide (m < n))).foldl (fun a m => a ||| s.signalled m) 0
   rep (badBlock c (fun b => signalPorts b &&& lower != 0))) <|>
  rep (c.signalFail h (s.startsOf n))

/-- R570: a layer with buffers belongs to a stream without a needle. -/
def State.layerFail (s : State) : Option Report :=
  if (List.range 8).any (fun l => s.fld Obj.rasLayerCfg l F.rasLayerCfgBuffers ≥ 1 && s.fld Obj.rasStreamCfg (l / 4) F.rasStreamCfgNeedle ≥ 16) then some { cond := 2 } else none

/-- R255: check 0x03. -/
def State.check03 (s : State) (n : Nat) : Option Report :=
  (s.sitesOf n).findSome? (fun i =>
    let out := setMinus (s.rd Obj.ndlSitePins i) (s.rd Obj.ndlPinset n)
    if s.rd Obj.ndlSitePins i = 0 then some { cond := 3, needle := n, chart := s.chartOf n }
    else if out ≠ 0 then some { cond := 3, needle := n, chart := s.chartOf n, pin := (members 256 out).headD 0xFFFF } else none)

/-- R229: check 0x04. -/
def State.check04 (s : State) (n : Nat) : Option Report :=
  let bl := blocks (s.chart (s.chartOf n))
  let lv := loopLevels bl []
  ((s.jumpTargets n).find? (fun t => (blockAt bl t).isNone || levelOf lv t != 0)).map (fun t => { cond := 4, needle := n, chart := s.chartOf n, course := t })

/-- R307: the last and the first transition of a signal in a wave, in fs. -/
def lastEdge (c : Nat) (act : Nat → Bool) : Option Nat := (((wEdges c).filter (fun e => act e.2.2)).getLast?).map (fun e => e.2.1 * 500)
def firstEdge (c : Nat) (act : Nat → Bool) : Option Nat := (((wEdges c).filter (fun e => act e.2.2)).head?).map (fun e => e.2.1 * 500)

/-- R307: a wave pair too close. -/
def tooClose (p a b : Nat) (act : Nat → Bool) : Bool :=
  match lastEdge a act, firstEdge b act with
  | some x, some y => decide (p + y < x + 150000)
  | _, _ => false

/-- R307: check 0x05. -/
def State.check05 (s : State) (n : Nat) : Option Report :=
  let ts := members 64 (s.pathTsets n)
  let pins := s.chartPins n
  let img := fun t => s.img Obj.ptfWaveTable (waveEl n t)
  ((ts.find? (fun t => wNpins (img t) != pins.length)).map (fun t => ({ cond := 5, needle := n, chart := s.chartOf n, tsA := t, tsB := t } : Report))) <|>
  (pins.zipIdx).findSome? (fun (x : Nat × Nat) => ts.findSome? (fun a => ts.findSome? (fun b =>
    (List.range 16).findSome? (fun v => (List.range 16).findSome? (fun w =>
      let ca := waveCourse (img a) x.2 v
      let cb := waveCourse (img b) x.2 w
      if tooClose (wPeriod (img a)) ca cb drvAction || tooClose (wPeriod (img a)) ca cb denAction then
        some { cond := 5, needle := n, chart := s.chartOf n, pin := x.1, tsA := a, tsB := b, wvA := v, wvB := w } else none)))))

/-- R493: check 0x06. -/
def State.check06 (s : State) (n : Nat) : Option Report :=
  ((s.chartPaths n).decodeFail (s.chartOf n) (s.startsOf n)).map (fun x => { cond := 6, needle := n, chart := x.1, course := x.2 })

/-- R328: the frames of a LEVELS block of a needle on a bank. -/
def State.levelFrameCount (s : State) (n b : Nat) (blk : Block) : Nat :=
  ((((List.range 8).map (entry48 blk)).filter (fun x => bit x 47 && Fld.get ⟨30, 3⟩ x == b)).flatMap (s.expandLevel n)).length

/-- R330: the banks that a needle's LEVELS blocks address. -/
def State.levelBanks (s : State) (n : Nat) : List Nat :=
  (List.range 8).filter (fun b => (s.chartPaths n).charts.any (fun x => x.2.2.any (fun y => y.2.op == 0x0C && decide (s.levelFrameCount n b y.2 > 0))))

/-- R330: check 0x07. -/
def State.check07 (s : State) (n : Nat) : Option Report :=
  let c := s.chartPaths n
  let mine := s.levelBanks n
  let lower := ((s.placedNeedles).filter (fun m => decide (m < n))).flatMap s.levelBanks
  match mine.find? (fun b => lower.contains b) with
  | some b => (badBlock c (fun k => k.op == 0x0C && decide (s.levelFrameCount n b k > 0))).map (fun x => { cond := 7, needle := n, chart := x.1, course := x.2 })
  | none => mine.findSome? (fun b => (c.levelFail (s.chartOf n) (s.startsOf n) (s.levelFrameCount n b) (fun k => k * 35 * s.sclk b)).map
      (fun x => { cond := 7, needle := n, chart := x.1, course := x.2 }))

/-- R262, R280, R281: check 0x08. -/
def State.check08 (s : State) (n : Nat) : Option Report :=
  let ring := s.rd Obj.strRingSize n
  if s.streamed n && (ring == 0 || s.rd Obj.strRate n == 0 || decide (s.rd Obj.strResumeLevel n * 2 > ring * 16384)) then some { cond := 8, needle := n, chart := s.chartOf n } else none

/-- R280: check 0x09. -/
def State.check09 (s : State) : Option Report :=
  if (List.range 16).foldl (fun a n => a + s.rd Obj.strRate n) 0 > 100000000000 then some { cond := 9 } else none

/-! Residence (R488, R489). -/

/-- The key of a segment. -/
def segKey (h i : Nat) : Nat := h * 2 ^ 20 + i

/-- The segments of a handle. -/
def State.segs (s : State) (h : Nat) : List (Nat × Nat) := segments (s.chart h)

/-- The segment that holds a course. -/
def State.segOf (s : State) (h course : Nat) : Nat :=
  ((s.segs h).zipIdx.find? (fun (x : (Nat × Nat) × Nat) => decide (x.1.1 ≤ course ∧ course < x.1.1 + x.1.2))).elim 0 (·.2)

/-- Courses of a segment key. -/
def State.segLen (s : State) (k : Nat) : Nat := ((s.segs (k / 2 ^ 20))[k % 2 ^ 20]?).elim 0 (·.2)

/-- Courses of segment keys. -/
def State.segSum (s : State) (l : List Nat) : Nat := l.foldl (fun a k => a + s.segLen k) 0

/-- Insertion into a list in rising order of a key pair. -/
def insertBy {α : Type} (le : α → α → Bool) (a : α) : List α → List α
  | [] => [a]
  | b :: t => if le a b then a :: b :: t else b :: insertBy le a t

/-- A list sorted. -/
def sortBy {α : Type} (le : α → α → Bool) (l : List α) : List α := l.foldr (insertBy le) []

/-- The keys of all segments of a handle. -/
def State.segKeys (s : State) (h : Nat) : List Nat := (List.range (s.segs h).length).map (segKey h)

/-- The handles of the placed charts, ascending. -/
def State.placedCharts (s : State) : List Nat := sortBy (fun a b => decide (a ≤ b)) ((s.placedNeedles.flatMap s.needleCharts).dedup)

/-- R210, R488: the mandatory segments of every needle, ascending: the first 64 courses from ENTRY and the extents. -/
def State.mandatorySegs (s : State) : List Nat :=
  sortBy (fun a b => decide (a ≤ b)) ((s.placedNeedles.flatMap (fun n =>
    let h := s.chartOf n
    let first := (List.range (min 64 ((s.chart h).length / 64 - s.entryOf n))).map (fun i => (h, s.entryOf n + i))
    (first ++ (s.chartPaths n).mandatory h (s.startsOf n)).map (fun x => segKey x.1 (s.segOf x.1 x.2)))).dedup)

/-- A course is resident. -/
def State.inSc (s : State) (res : List Nat) (h course : Nat) : Bool := res.contains (segKey h (s.segOf h course))

/-- R492: FETCH_HBM (sc false) or FETCH_SC of a needle under a residence. -/
def State.fetch (s : State) (res : List Nat) (sc : Bool) (n : Nat) : Nat :=
  (s.pathsOf n).fetch (fun h k => s.inSc res h k == sc) (s.chartOf n) (s.startsOf n)

/-- R489: the provisional demand of a chart. -/
def State.provisional (s : State) (res : List Nat) (h : Nat) : Nat :=
  ((s.placedNeedles).filter (fun n => (s.needleCharts n).contains h)).foldl (fun m n => max m (s.fetch res false n)) 0

/-- R489: items added while they fit; the ones that do not fit are skipped. -/
def State.addFit (s : State) (res : List Nat) (items : List (List Nat)) : List Nat :=
  items.foldl (fun r it =>
    let new := it.filter (fun k => !r.contains k)
    if s.segSum r + s.segSum new ≤ 1048576 then r ++ new else r) res

/-- R489: a segment is re-read under R216. -/
def State.rereadSeg (s : State) (k : Nat) : Bool :=
  let h := k / 2 ^ 20
  let img := s.chart h
  match (s.segs h)[k % 2 ^ 20]? with
  | none => false
  | some (st, len) => (blocks img).any (fun x =>
      let b := x.2
      let n := b.courses (hNpins img)
      let meets := fun lo hi => decide (lo < st + len ∧ st < hi)
      ((b.op == 0x02 || b.op == 0x08 || b.op == 0x0A || b.op == 0x11) && decide (n > 8192) && meets (x.1 + 1) (x.1 + 1 + n)) ||
      (b.op == 0x03 && decide (b.target - (x.1 + 1) > 8192) && meets (x.1 + 1) b.target))

/-- R489 step 4: the segments not yet resident of charts whose hint is not HBM_ONLY, in its order. -/
def State.step4 (s : State) (first res : List Nat) : List Nat :=
  let hs := (s.placedCharts.filter (fun h => s.rd Obj.plcChartHint h != 2)).map (fun h => (h, s.provisional first h))
  let order := (sortBy (fun (a b : Nat × Nat) => decide (b.2 < a.2 ∨ (a.2 = b.2 ∧ a.1 ≤ b.1))) hs).flatMap (fun x => (s.segKeys x.1).filter (fun k => !res.contains k))
  order.filter s.rereadSeg ++ order.filter (fun k => !s.rereadSeg k)

/-- R489: the residence that placement chooses. -/
def State.residence (s : State) : List Nat :=
  let r1 := s.mandatorySegs
  let withHint := fun v => s.placedCharts.filter (fun h => s.rd Obj.plcChartHint h == v)
  let r2 := s.addFit r1 ((withHint 1).map s.segKeys)
  let auto := sortBy (fun (a b : Nat × Nat) => decide (b.2 < a.2 ∨ (a.2 = b.2 ∧ a.1 ≤ b.1))) ((withHint 0).map (fun h => (h, s.provisional r1 h)))
  let r3 := s.addFit r2 (auto.map (fun x => s.segKeys x.1))
  s.addFit r3 ((s.step4 r1 r3).map (fun k => [k]))

/-! Demand (R494, R496). -/

/-- R494: RING_READ. -/
def State.ringRead (s : State) (n : Nat) : Nat :=
  if s.streamed n then
    let w := stitchWidth (s.chartPins n).length (if s.fld Obj.plcStreamProfile n F.plcStreamProfileBpp4 = 1 then 4 else 2)
    min 1048576 ((s.pathsOf n).s * w / 8 * (1 + s.fld Obj.plcStreamProfile n F.plcStreamProfileCopies) + 65536)
  else 0

/-- R494: RING_WRITE. -/
def State.ringWrite (s : State) (n : Nat) : Nat := if s.streamed n then ceilDiv (s.rd Obj.strRate n * 128) 100000000 else 0

/-- R496: CAPTURE. -/
def State.captureDemand (s : State) (n : Nat) : Nat :=
  if s.fld Obj.ptfCapCfg n F.ptfCapCfgSize = 0 then 0
  else (s.pathsOf n).s * capWidth (s.chartPins n).length (1 + s.fld Obj.ptfCapCfg n F.ptfCapCfgBits) / 8

/-- R496: ACQ of a unit. -/
def State.acqDemand (s : State) (u : Nat) : Nat :=
  if s.rd Obj.taeBuffer u = 0 then 0 else max 1 (1280000000 / s.taeTs u) * s.taeWidth u / 8

/-- The sum of ACQ over the units. -/
def State.acqTotal (s : State) : Nat := (List.range 8).foldl (fun a u => a + s.acqDemand u) 0

/-! Regions, queues, cores (R499 to R504). -/

/-- R556, R562: MiB of a layer's region. -/
def State.layerMib (s : State) (l : Nat) : Nat :=
  let c := s.rd Obj.rasLayerCfg l
  ceilDiv (Fld.get F.rasLayerCfgBuffers c * Fld.get F.rasLayerCfgHeight c * (ceilDiv (Fld.get F.rasLayerCfgWidth c * pixelBytes (Fld.get F.rasLayerCfgFormat c)) 64 * 64)) 1048576

/-- R499: the regions in order: kind, needle or unit or layer, MiB. -/
def State.regions (s : State) : List (Nat × Nat × Nat) :=
  let ns := s.placedNeedles
  let mk := fun (k : Nat) (l : List Nat) (size : Nat → Nat) => (l.map (fun n => (k, n, size n))).filter (fun x => decide (x.2.2 > 0))
  mk 1 (ns.filter s.streamed) (s.rd Obj.strRingSize) ++ mk 2 ns (fun n => s.fld Obj.ptfCapCfg n F.ptfCapCfgSize) ++
  mk 3 (List.range 8) (s.rd Obj.taeBuffer) ++ mk 4 ns (fun n => s.fld Obj.ndlTraceCtrl n F.ndlTraceCtrlSize) ++ mk 5 (List.range 8) s.layerMib

/-- R502: MiB of all regions. -/
def State.poolMib (s : State) : Nat := s.regions.foldl (fun a x => a + x.2.2) 0

/-- R500: the flows that get queues, in queue order. -/
def State.queueFlows (s : State) : List Nat :=
  s.placedNeedles.flatMap s.sitesOf ++ (s.placedNeedles.filter (fun n => s.fld Obj.ptfCapCfg n F.ptfCapCfgSize > 0)).map (64 + ·) ++
  ((List.range 8).filter (fun u => s.rd Obj.taeBuffer u > 0)).map (80 + ·)

/-- R501: the cores that placement deals to. -/
def State.dealCores (s : State) : List Nat := (members 16 (s.rd Obj.plcCoreMask 0)).filter (fun c => s.coreState c != 0)

/-! Admission (R498). -/

/-- The demand terms of R492 to R496 for a needle: HBM, SC, ring read, ring write, capture. -/
def State.demand (s : State) (res : List Nat) (n : Nat) : Nat × Nat × Nat × Nat × Nat :=
  (s.fetch res false n, s.fetch res true n, s.ringRead n, s.ringWrite n, s.captureDemand n)

/-- A sum over the placed needles. -/
def State.sumN (s : State) (f : Nat → Nat) : Nat := s.placedNeedles.foldl (fun a n => a + f n) 0

/-- A refusal of a sum that exceeds a limit. -/
def exceeds (cond needle chart d lim : Nat) : Option Report :=
  if d > lim then some { cond := cond, needle := needle, chart := chart, demand := d, limit := lim, excess := (d : Int) - lim } else none

/-- Check 0x0C and 0x0D sums under a residence. -/
def State.scDemand (s : State) (res : List Nat) : Nat := s.sumN (s.fetch res true)
def State.hbmDemand (s : State) (res : List Nat) : Nat :=
  s.sumN (fun n => s.fetch res false n + s.ringRead n + s.ringWrite n + s.captureDemand n) + s.acqTotal

/-- R498: the first check that fails. -/
def State.admission (s : State) (res : List Nat) : Option Report :=
  let ns := s.placedNeedles
  let queues := s.queueFlows.length
  let ends := (s.queueFlows.filter (fun f => decide (f < 64))).length
  let resume := s.fld Obj.rqpPoolCfg 0 F.rqpPoolCfgResumeCells
  ns.findSome? (fun n => if s.chartState (s.chartOf n) ≠ 2 then some { cond := 1, needle := n, chart := s.chartOf n } else none) <|>
  ns.findSome? s.check02 <|> s.layerFail <|> ns.findSome? s.check03 <|> ns.findSome? s.check04 <|> ns.findSome? s.check05 <|> ns.findSome? s.check06 <|>
  ns.findSome? s.check07 <|> ns.findSome? s.check08 <|> s.check09 <|>
  exceeds 0x0A 0xFF 0xFFFF (ceilDiv (s.segSum s.mandatorySegs) 16) 65536 <|>
  ns.findSome? (fun n => exceeds 0x0B n (s.chartOf n) (s.fetch res false n + s.fetch res true n + s.ringRead n) 1048576) <|>
  exceeds 0x0C 0xFF 0xFFFF (s.scDemand res) 1835008 <|> exceeds 0x0D 0xFF 0xFFFF (s.hbmDemand res) 1254400 <|>
  exceeds 0x0E 0xFF 0xFFFF s.poolMib 15360 <|>
  exceeds 0x0F 0xFF 0xFFFF queues 1024 <|>
  (if 65536 - ends < resume then some { cond := 0x0F, demand := queues, limit := 1024, excess := (queues : Int) - 1024 } else none) <|>
  (if s.dealCores.isEmpty then some { cond := 0x10 } else none)

/-! Publication (R509, R514). -/

/-- PLC.COUNTS field i, one more. -/
def State.plcCount (s : State) (i : Nat) : State := s.count Obj.plcCounts 0 ⟨48 * i, 48⟩ ⟨192 + i, 1⟩ 1

/-- R509: a record of PLC.LOG. -/
def State.plcLog (s : State) (kind needle chart item value : Nat) : State :=
  let r := kind + needle % 256 * 2 ^ 8 + chart % 2 ^ 16 * 2 ^ 16 + item % 2 ^ 32 * 2 ^ 32 + value % 2 ^ 32 * 2 ^ 64 + s.fld Obj.plcCounts 0 F.plcCountsArmings % 2 ^ 32 * 2 ^ 96
  { s with plc := { s.plc with log := lastN 4096 (s.plc.log ++ [r]) } }

/-- PLC.REPORT of a check; an admitted request has CONDITION 0 and no needle, chart or pin. -/
def State.plcReport (s : State) (r : Report) : State :=
  s.wr Obj.plcReport 0 (r.cond + r.needle * 2 ^ 8 + r.chart * 2 ^ 16 + r.pin * 2 ^ 32 + r.course % 2 ^ 32 * 2 ^ 48 + r.tsA % 64 * 2 ^ 80 + r.tsB % 64 * 2 ^ 86 +
    r.wvA % 16 * 2 ^ 92 + r.wvB % 16 * 2 ^ 96 + r.demand % 2 ^ 32 * 2 ^ 128 + r.limit % 2 ^ 32 * 2 ^ 160 + ofSigned 32 r.excess * 2 ^ 192 + s.stamp * 2 ^ 256)

/-- R514: PLC.NEEDLE_DEMAND of every needle and PLC.TOTALS. -/
def State.plcDemand (s : State) (res : List Nat) : State :=
  let s := (List.range 16).foldl (fun s n =>
    if s.hasChart n then
      let (a, b, c, d, e) := s.demand res n
      s.wr Obj.plcNeedleDemand n (a % 2 ^ 32 + b % 2 ^ 32 * 2 ^ 32 + c % 2 ^ 32 * 2 ^ 64 + d % 2 ^ 32 * 2 ^ 96 + e % 2 ^ 32 * 2 ^ 128 + s.shortest n % 2 ^ 64 * 2 ^ 160)
    else s.wr Obj.plcNeedleDemand n 0) s
  s.wr Obj.plcTotals 0 (s.hbmDemand res % 2 ^ 32 + s.scDemand res % 2 ^ 32 * 2 ^ 32 + s.acqTotal % 2 ^ 32 * 2 ^ 64 + ceilDiv (s.segSum res) 16 * 2 ^ 96 +
    ceilDiv (s.segSum s.mandatorySegs) 16 % 2 ^ 32 * 2 ^ 128 + s.poolMib % 2 ^ 32 * 2 ^ 160 + s.queueFlows.length % 2 ^ 11 * 2 ^ 192)

/-- R513, R498: the request is refused. -/
def State.plcRefuse (s : State) (r : Report) : State :=
  let s := ((s.wr Obj.plcState 0 3).plcReport r).plcCount 1
  let s := { s with plc := { s.plc with arming := none } }
  (s.plcLog 7 r.needle r.chart 0 r.cond).latch Ev.plcRefused

/-- R514: PLC.CHART_PLACE of a handle. -/
def State.placeNote (s : State) (h : Nat) : State :=
  let mine := s.plc.resident.filter (fun k => k / 2 ^ 20 == h)
  let pend := (s.plc.switches.filter (fun c => c.handle == h)).foldl (fun a c => a + popcount 16 c.needles) 0
  s.wr Obj.plcChartPlace h (mine.length % 2 ^ 32 + s.segSum mine % 2 ^ 32 * 2 ^ 32 + pend % 2 ^ 32 * 2 ^ 64)

/-- R500, R501, R356: queues and home cores are dealt. -/
def State.dealQueues (s : State) : State :=
  let flows := s.queueFlows
  let cores := s.dealCores
  let s := (flows.zipIdx).foldl (fun s (x : Nat × Nat) => s.putQueue x.2 (some { flow := x.1 })) s
  let s := (s.poolNote).setFld Obj.rqpPoolStatus 0 F.rqpPoolStatusQueues flows.length
  let who := fun f => if f < 64 then (s.siteNeedle f).getD 0xFF else if f < 80 then f - 64 else f - 80
  let s := (flows.zipIdx).foldl (fun s (x : Nat × Nat) => (s.queueNote x.2).plcLog 3 (who x.1) 0xFFFF x.2 x.2) s
  (flows.zipIdx).foldl (fun s (x : Nat × Nat) =>
    let c := cores.getD (x.2 % max 1 cores.length) 0xFF
    let s := if x.1 < 64 then s.wr Obj.plcSiteCore x.1 c else { s with homes := Tbl.put (fun _ => 255) s.homes x.1 c }
    s.plcLog 4 (who x.1) 0xFFFF x.1 c) s

/-- R484 to R503: the placement of an admitted request: chart and wave states, regions, queues, cores, the level-bus owners. -/
def State.placeAll (s : State) (res : List Nat) : State :=
  let s := ((s.plcCount 0).plcReport { cond := 0 })
  let charts := s.placedCharts
  let s := { s with plc := { s.plc with resident := res, switches := [], copying := none } }
  let s := charts.foldl (fun s h => ((s.segKeys h).foldl (fun s k => s.plcLog (if res.contains k then 0 else 1) 0xFF h (k % 2 ^ 20) (s.segLen k)) (s.wr Obj.ndlChartState h 4)).placeNote h) s
  let s := s.placedNeedles.foldl (fun s n =>
    let ts := s.needleTsets n
    let s := { s with plc := { s.plc with tsets := Tbl.put (fun _ => 0) s.plc.tsets n ts } }
    let s := (members 64 ts).foldl (fun s t => s.wr Obj.ptfWaveState (waveEl n t) 4) s
    (s.levelBanks n).foldl (fun s b => s.setFld Obj.lvlBankOwner 0 ⟨8 * b, 8⟩ n) s) s
  let s := s.regions.foldl (fun s (x : Nat × Nat × Nat) => s.plcLog 2 (if x.1 = 5 then 0xFF else x.2.1) 0xFFFF x.1 x.2.2) s
  s.dealQueues

/-! Migration (R505 to R508). -/

/-- R505, R506: the next segment to copy. -/
def State.nextCopy (s : State) : Option Nat :=
  (s.step4 s.mandatorySegs s.plc.resident).find? (fun k =>
    s.segSum s.plc.resident + s.segLen k ≤ 1048576 && s.scDemand (k :: s.plc.resident) ≤ 1835008)

/-- R505, R508: a copy starts, if none is in progress, migration is on, and the mode allows it. -/
def State.startCopy (s : State) : State :=
  if s.plc.copying.isNone && s.rd Obj.plcMigrate 0 == 1 && s.rd Obj.plcState 0 == 2 && [Mode.armed, Mode.run, Mode.hold].contains s.mode then
    { s with plc := { s.plc with copying := s.nextCopy } }
  else s

/-- NDL.STATUS.SWITCH_PENDING of a needle. -/
def State.switchNote (s : State) (n : Nat) : State :=
  s.setFld Obj.ndlStatus n F.ndlStatusSwitchPending (s.plc.switches.any (fun c => bit c.needles n)).toNat

/-- R507: MIGRATION_COPY_DONE: the copy in progress completes on the FCLK edge at or after now; a switch becomes pending for each needle whose chart uses the segment. -/
def execMigrationCopyDone (handle seg : Nat) (s : State) : Res :=
  if s.plc.copying ≠ some (segKey handle seg) then .next s else
  let users := ofMembers ((s.placedNeedles).filter (fun n => (s.needleCharts n).contains handle))
  let s := { s with plc := { s.plc with copying := none, resident := s.plc.resident ++ [segKey handle seg], switches := s.plc.switches ++ [(⟨handle, seg, users, s.edgeAt fclkFs s.now⟩ : Copy)] } }
  let s := (s.plcCount 2).plcLog 5 0xFF handle seg (s.segLen (segKey handle seg))
  .next (((members 16 users).foldl State.switchNote (s.placeNote handle)).startCopy)

/-- R507: the switches pending for a needle are applied at a seam that begins on an edge. -/
def State.applySwitches (s : State) (n e : Nat) : State :=
  let mine := s.plc.switches.filter (fun c => bit c.needles n && decide (c.done ≤ e))
  let s := { s with plc := { s.plc with switches := (s.plc.switches.map (fun (c : Copy) => if bit c.needles n && decide (c.done ≤ e) then { c with needles := setBit c.needles n false } else c)).filter (fun (c : Copy) => c.needles != 0) } }
  (mine.foldl (fun (s : State) (c : Copy) => (((s.plcCount 3).plcLog 6 n c.handle c.seg (s.segLen (segKey c.handle c.seg))).placeNote c.handle).latch Ev.plcMigrated) s).switchNote n

/-- R513: PLC.STATE returns to NONE with a RELEASE record where a placement stood or was under way. -/
def State.plcNone (s : State) : State :=
  if [1, 2].contains (s.rd Obj.plcState 0) then (s.plcLog 8 0xFF 0xFFFF 0 0).wr Obj.plcState 0 0 else s

/-- R503: the charts of the placement are LOADED again. -/
def State.freeCharts (s : State) : State :=
  (List.range 1024).foldl (fun s h => if s.chartState h = 4 then (s.wr Obj.ndlChartState h 2).wr Obj.plcChartPlace h 0 else s) s

/-- R503: the wave tables of a needle are LOADED again. -/
def State.freeWaves (s : State) (n : Nat) : State :=
  (List.range 64).foldl (fun s t => if s.waveState (waveEl n t) = 4 then s.wr Obj.ptfWaveState (waveEl n t) 2 else s) (s.switchNote n)

/-- R503: the placement is released: charts and wave tables are LOADED again; regions, queues, cores and residence go. -/
def State.releasePlacement (s : State) : State :=
  let s := { s with plc := { s.plc with resident := [], switches := [], copying := none, arming := none, tsets := [] }, homes := [] }
  let s := (List.range 16).foldl State.freeWaves s.freeCharts
  let s := (List.range 16).foldl (fun s n => s.setNdl n { s.ndl n with capLive := false }) s
  let s := (s.wrAll Obj.plcSiteCore (List.range 64) 0xFF).wr Obj.lvlBankOwner 0 (2 ^ 64 - 1)
  s.plcNone.releaseQueues.taeRelease.rasRelease

end Sys2Proof.Machine
end

