-- ==== Sys2Proof/Machine/Hbm.lean ====
section
/-! DEFINITION. The pseudo-channel schedulers of HBM (13_memory R520 to R537; 12_placement R499): regions, requests in class and age order, ordering modes, latencies; the capture buffers (08_capture R374). -/
namespace Sys2Proof.Machine

/-- R499: bank hash, ordering mode and class of a kind of region (0 none, 1 ring, 2 capture, 3 acquisition, 4 trace, 5 raster). -/
def regionAttr (kind : Nat) : Nat × Nat × Nat :=
  match kind with
  | 1 => (1, 1, 0)
  | 2 => (2, 0, 0)
  | 3 => (2, 1, 0)
  | 4 => (3, 0, 1)
  | 5 => (3, 1, 1)
  | _ => (0, 0, 0)

/-- R499, R519: the first address of each placed region, one after another from the start of the placement pool (DEDUCED, notes/assumptions/65.md). -/
def regionStarts : Nat → List (Nat × Nat × Nat) → List (Nat × Nat × Nat × Nat)
  | _, [] => []
  | a, x :: t => (a, x) :: regionStarts (a + x.2.2 * 1048576) t

/-- The placed regions: first address, kind, number, MiB. -/
def State.placedRegions (s : State) : List (Nat × Nat × Nat × Nat) := if s.rd Obj.plcState 0 = 2 then regionStarts 0x800000000 s.regions else []

/-- The kind of the region that holds an address. -/
def State.regionKind (s : State) (a : Nat) : Nat :=
  match s.placedRegions.find? (fun r => decide (r.1 ≤ a ∧ a < r.1 + r.2.2.2 * 1048576)) with | some r => r.2.1 | none => 0

/-! The scheduler (R522 to R525, R531, R532). -/

/-- R532: a read overlaps a write's 64-byte course. -/
def sameCourse (r w : Request) : Bool := w.write && !r.write && r.addr / 64 == w.addr / 64

/-- R531, R532: a request may not be served before an older one. -/
def State.behind (s : State) (old r : Request) : Bool :=
  (s.regionKind r.addr == s.regionKind old.addr) &&
  (if (regionAttr (s.regionKind r.addr)).2.1 = 1 then sameCourse r old else r.master == old.master)

/-- The requests of a list that no older one holds back, oldest first. -/
def State.memReady (s : State) : List (Request × Nat) → List (Request × Nat) → List (Request × Nat)
  | _, [] => []
  | old, x :: t => (if old.any (fun o => s.behind o.1 x.1) then [] else [x]) ++ State.memReady s (old ++ [x]) t

/-- R522, R524: the request that a pseudo-channel serves next: the oldest real-time one, else the oldest best-effort one. Where every waiting real-time one is held
back by an older best-effort one, that one goes first (DESIGN CHOICE, notes/assumptions/66.md). -/
def State.memNext (s : State) (pc : Nat) : Option (Request × Nat) :=
  let l := s.hms.waiting.filter (fun x => addrPc x.1.addr == pc)
  let ok := s.memReady [] l
  (ok.find? (fun x => realTime x.1.master)) <|> (ok.find? (fun o => l.any (fun x => realTime x.1.master && s.behind o.1 x.1))) <|> ok.head?

/-- R44, R523, R525: the latency of a read in MCLK: 96 up to 1 % load; 96 and a blocking time, which is open up to its bound, while demand is within the reserve or the floor; else
open (free values, notes/assumptions/3.md). The window of 1,024 VCLK holds 1,254,400 bytes at the reserve's rate and 262,400 at the floor's. -/
def State.readLatency (s : State) (rt : Bool) : Nat :=
  let free := Config.freeValue s.freeCtr
  if s.hms.winBytes + s.hms.winBest ≤ 12544 then 96
  else if rt then (if s.hms.winBytes ≤ 1254400 then 96 + free % 185 else 96 + free)
  else if s.hms.winBest ≤ 262400 then 96 + free % 1825 else 96 + free

/-- R536, R858: the bursts of a read are checked; the answer is the largest number of wrong bits. -/
def State.readBursts (s : State) (x : Request) (errorBits : Nat) : Nat × State :=
  let n := (x.addr + x.data.length - 1) / 32 - x.addr / 32 + 1
  (List.range n).foldl (fun (a : Nat × State) i =>
    let (k, s) := a.2.checked Ev.hmsEccC x.master
    let bits := max k (if i = 0 then errorBits else 0)
    (max a.1 bits, s.burst (addrStack x.addr) bits x.master 1 (x.addr + 32 * i))) (0, s)

/-- R520: the bank of a request within its pseudo-channel. -/
def State.reqBank (s : State) (r : Request) : Nat := addrSid r.addr * 16 + s.addrBank (regionAttr (s.regionKind r.addr)).1 r.addr

/-- R524, R530: at an access boundary of a pseudo-channel that holds no waiting real-time read, each scheduled neighbour refresh whose bank has no pending real-time request is
issued (DESIGN CHOICE that it waits no longer, notes/assumptions/66.md). -/
def State.nearIssue (s : State) (pc : Nat) : State :=
  let held := s.hms.waiting.filter (fun x => addrPc x.1.addr == pc && realTime x.1.master)
  if s.holdsRead pc then s else
  ((List.range 48).filter (fun b => !held.any (fun x => s.reqBank x.1 == b))).foldl (fun s b =>
    if (Tbl.get (fun _ => none) s.hms.near (pc * 48 + b)).isSome then
      ({ s with hms := { s.hms with near := Tbl.put (fun _ => none) s.hms.near (pc * 48 + b) none } }).hmsCount 2 1
    else s) s

/-- R520 to R537: a request is served. -/
def State.memServe (s : State) (x : Request × Nat) (errorBits : Nat) : State :=
  let r := x.1
  let s := { s with hms := { s.hms with waiting := s.hms.waiting.erase x } }
  let rt := realTime r.master
  let s := (s.activate (addrPc r.addr * 48 + s.reqBank r) (addrRow r.addr)).nearIssue (addrPc r.addr)
  if r.write then { s.loadStats rt true r.data.length 0 with mem := Memory.writeAll s.mem r.addr r.data } else
  let lat := s.readLatency rt
  let late := rt && (decide (1254400 < s.hms.winBytes) && decide (280 < lat))
  let s := s.draw.loadStats rt false r.data.length lat
  let s := if late then s.raise Ev.hmsRtLate (addrStack r.addr) r.master 1 r.addr (memScope r.master) false else s
  let (bits, s) := s.readBursts r errorBits
  if bits ≥ 2 then s else s.emit (.memory (x.2 + lat * vclkFs) r.master r.addr ((List.range r.data.length).map (fun i => Memory.read s.mem (r.addr + i))))

/-- R534, R535: a request reaches its controller; a stack that is off, training or failed takes none. -/
def State.memArrive (s : State) (r : Request) : State :=
  let k := addrStack r.addr
  let s := { s with hms := { s.hms with lastReq := Tbl.put (fun _ => 0) s.hms.lastReq k s.now } }
  let delay := s.wakeDelay k
  let s := s.wake k delay
  if s.stack k ≠ 2 then s else
  let busy := if realTime r.master then Tbl.put (fun _ => false) s.hms.busy (addrPc r.addr) true else s.hms.busy
  { s with hms := { s.hms with busy := busy, waiting := s.hms.waiting ++ [(r, s.now + delay * vclkFs)] } }

/-- R522 to R537: MEMORY_REQUEST: a master's request comes to the schedulers (none where it has no bytes), and the scheduler of a pseudo-channel serves one; `errorBits` says
how many check bits of its first burst are wrong. -/
def execMemoryRequest (channel master : Nat) (write : Bool) (addr : Nat) (data : Bytes) (errorBits : Nat) (s : State) : Res :=
  if !data.isEmpty && !addrOk (addr + (data.length - 1)) then .fault (.noSuchAddress addr) else
  let s := if data.isEmpty then s else s.memArrive ⟨master, write, addr, data⟩
  .next (match s.memNext channel with | some x => s.memServe x errorBits | none => s)

/-! Capture buffers (R374, R390). -/

/-- The first address and the bytes of a needle's capture buffer. -/
def State.capRegion (s : State) (n : Nat) : Nat × Nat :=
  match s.placedRegions.find? (fun r => r.2.1 == 2 && r.2.2.1 == n) with | some r => (r.1, r.2.2.2 * 1048576) | none => (0, 0)

/-- R374: the byte offset of a capture word. -/
def capOffset (cw size k : Nat) : Nat := if size = 0 then 0 else k * cw / 8 % size

/-- R373 to R375: a capture word of a needle goes to its buffer. -/
def State.captureWord (s : State) (n idx word : Nat) : State :=
  let cfg := s.rd Obj.ptfCapCfg n
  let (base, size) := s.capRegion n
  if size = 0 then s else
  let cw := capWidth (s.chartPins n).length (1 + Fld.get F.ptfCapCfgBits cfg)
  let room := size * 8 / cw
  let k := s.fld Obj.ptfCapStatus n F.ptfCapStatusWords
  let s := (s.setFld Obj.ptfCapStatus n F.ptfCapStatusWords (k + 1)).setFld Obj.ptfCapStatus n F.ptfCapStatusCw cw
  let s := if (s.ndl n).capNext = some idx then s else s.produceFlow (64 + n) 0x04 (toLE 8 idx ++ toLE 8 k) idx
  let s := s.setNdl n { s.ndl n with capNext := some (idx + 1) }
  let wrap := Fld.get F.ptfCapCfgWrap cfg = 1
  let s := if k < room ∨ wrap then (if s.hbmWritable then { s with mem := Memory.writeAll s.mem (base + capOffset cw size k) (toLE (cw / 8) word) } else s) else s
  if k < room then s
  else if wrap then s.setFld Obj.ptfCapStatus n F.ptfCapStatusWrapped 1
  else
    let full := s.fld Obj.ptfCapStatus n F.ptfCapStatusFull
    let s := (s.count Obj.ptfCapStatus n F.ptfCapStatusLost F.ptfCapStatusLostSat 1).setFld Obj.ptfCapStatus n F.ptfCapStatusFull 1
    if full = 0 then s.latch Ev.capFull else s

/-- PTF.CAP_DATA: the words that the buffer holds, oldest first. -/
def State.captureBytes (s : State) (n : Nat) : Bytes :=
  let cw := s.fld Obj.ptfCapStatus n F.ptfCapStatusCw
  let (base, size) := s.capRegion n
  if !(s.ndl n).capLive || cw == 0 then [] else
  let words := s.fld Obj.ptfCapStatus n F.ptfCapStatusWords
  let room := size * 8 / cw
  let first := if s.fld Obj.ptfCapStatus n F.ptfCapStatusWrapped = 1 then words - room else 0
  (List.range (min (words - first) room)).flatMap (fun i =>
    (List.range (cw / 8)).map (fun j => Memory.read s.mem (base + capOffset cw size (first + i) + j)))

/-! Acquisition buffers (R391 to R401). -/

/-- R314: what a comparator gives at an instant, in its logical sense (R319): the level of the last change; within 12 ps of a change, a free value. -/
def State.levelAt (s : State) (ch : Changes) (p : Nat) (cml : Bool) (t : Int) (ctr : Nat) : Bool :=
  let mine := ch.filter (fun c => c.pin == p && c.cml == cml)
  let old := ((mine.filter (fun c => decide ((c.t : Int) ≤ t))).getLast?.map (·.level)).getD false
  s.cmpSense p cml (if mine.any (fun c => decide (t - 12000 ≤ (c.t : Int) ∧ (c.t : Int) ≤ t + 12000)) then Config.freeBool ctr else old)

/-- R392, R393: sample j of a unit: each selected pin's CMH at the instant and its gauge, and its CML beside it. -/
def State.sampleWord (s : State) (u : Nat) (ch : Changes) (ctr j : Nat) : Nat :=
  let t : Int := (s.clk.epoch + j * s.taeTs u : Nat)
  let cb := 1 + s.fld Obj.taeSampleCfg u F.taeSampleCfgBits
  (members 256 (s.rd Obj.taePins u)).zipIdx.foldl (fun a (x : Nat × Nat) =>
    let h := s.levelAt ch x.1 false (t + s.gauge x.1 4 * 500) (ctr + 2 * x.2)
    let l := s.levelAt ch x.1 true (t + s.gauge x.1 5 * 500) (ctr + 2 * x.2 + 1)
    a + h.toNat * 2 ^ (cb * x.2) + (if cb = 2 then l.toNat * 2 ^ (cb * x.2 + 1) else 0)) 0

/-- R413: a sample falls into no HOLD. -/
def sampled (num : Nat → Nat) (ps : List (Nat × Option Nat)) (j : Nat) : Bool :=
  ps.all (fun p => decide (j < num p.1) || p.2.any (fun e => decide (num e ≤ j)))

/-- The first address of a unit's buffer, none where it has none. -/
def State.taeBase (s : State) (u : Nat) : Option Nat := (s.placedRegions.find? (fun r => r.2.1 == 3 && r.2.2.1 == u)).map (·.1)

/-- R395: the address of a place in a slot's ring. -/
def State.ringAt (s : State) (u base slot span k : Nat) : Nat := base + (slot + k % max 1 span) * (s.taeWidth u / 8)

/-- R395, R399: sample words go into a slot's ring from a place on. -/
def State.writeSamples (s : State) (u slot span first : Nat) (words : List Nat) : State :=
  match s.taeBase u with
  | none => s
  | some base => if s.hbmWritable then
      { s with mem := words.zipIdx.foldl (fun m (x : Nat × Nat) => Memory.writeAll m (s.ringAt u base slot span (first + x.2)) (toLE (s.taeWidth u / 8) x.1)) s.mem } else s

/-- R401: TAE.DATA: the record's words in time order, as its slot holds them. -/
def State.taeBytes (s : State) (u : Nat) : Bytes :=
  match s.taeRecord u, s.taeBase u with
  | some r, some base => (List.range r.count).flatMap (fun i =>
      (List.range (s.taeWidth u / 8)).map (fun j => Memory.read s.mem (s.ringAt u base r.slot r.span (r.first + i) + j)))
  | _, _ => []

/-- R397, R398, R413: the samples of a record whose trigger is g: their numbers in order, how many stand before the trigger sample, and how many samples were taken in the slot
before the first of them; none while a HOLD stops the record. -/
def State.recordSamples (s : State) (u : Nat) (g : Trig) : Option (List Nat × Nat × Nat) :=
  let x := s.unit u
  let num := s.sampleAt u
  let ps := x.pauses.filter (fun p => p.2.all (fun e => decide (num g.t < num e)))
  (sampleAfter num ps (num g.t) 0).bind (fun m => (sampleAfter num ps m (s.rd Obj.taePost u - 1)).map (fun last =>
    let lo := num x.slotFrom
    let all := samplesTaken num x.pauses lo m
    let pre := min (s.rd Obj.taePre u) all
    let begin' := max lo (m - pre - ((m - lo) - all))
    (lastN pre (((List.range (m - begin')).map (begin' + ·)).filter (sampled num x.pauses)) ++ ((List.range (last + 1 - m)).map (m + ·)).filter (sampled num x.pauses), pre, all - pre)))

/-- R400, R413: a HOLD lies between the first and the last of some samples. -/
def State.spansHold (s : State) (u : Nat) (js : List Nat) : Bool :=
  (s.unit u).pauses.any (fun p => decide (js.headD 0 < s.sampleAt u p.1) && p.2.any (fun e => decide (s.sampleAt u e ≤ js.getLastD 0)))

/-- R397 to R399, R409: RECORD_COMPLETE: the last post-trigger sample has been written: the record is in its slot, its header is committed, and the unit goes on. `changes` says what
the comparators saw. -/
def execRecordComplete (unit : Nat) (changes : Changes) (s : State) : Res :=
  let x := s.unit unit
  match x.trig.bind (fun g => (s.recordSamples unit g).map (fun r => (g, r))) with
  | none => .next s
  | some (g, js, pre, skipped) =>
    let words := js.zipIdx.map (fun (j : Nat × Nat) => s.sampleWord unit changes (s.freeCtr + 128 * j.2) j.1)
    let r : TaeRecord := ⟨x.gen, x.next, s.taeSlot unit, s.taeSpan unit, skipped % max 1 (s.taeSpan unit), js.length⟩
    let t := s.clk.epoch + js.getLastD 0 * s.taeTs unit
    let s : State := { s with freeCtr := s.freeCtr + 128 * js.length }
    let s := (s.reach (s.edgeAt vclkFs t)).writeSamples unit r.slot r.span r.first words
    let seq := (((s.flowQueue (80 + unit)).bind s.queue).map (·.seq)).getD 0
    let h := s.trigRecord unit seq pre (s.spansHold unit js) g
    let s := s.setUnit unit { x with records := x.records ++ [r], next := (x.next + 1) % 2 ^ 32, trig := none }
    let s : State := (s.produceFlow (80 + unit) 0x10 (h.drop 8) x.next).taeCount unit 0
    let e : Nat := s.edgeAt vclkFs (t + 1)
    .next (if s.fld Obj.taeTrigCfg unit F.taeTrigCfgMode = 0 then s.wr Obj.taeState unit 4 else (s.reach e).rearmFrom unit e)

end Sys2Proof.Machine
end

