-- ==== Sys2Proof/Machine/Stream.lean ====
section
/-! DEFINITION. Skein rings, the skein format and the transfer of skeins (06_streaming R262 to R289, 18_poa R710 to R712). -/
namespace Sys2Proof.Machine

/-- STR.STATE of a needle (R284). -/
def State.strState (s : State) (n : Nat) : Nat := s.rd Obj.strState n

/-- Courses of a skein. -/
def Skein.courses (k : Skein) : Nat := k.data.length / 64

/-- R285: STR.FILL.USED: courses reserved or held. -/
def State.ringUsed (s : State) (n : Nat) : Nat :=
  let r := s.ndl n
  (match r.skeinIn with | some k => k.courses | none => 0) + r.ring.foldl (fun a k => a + k.courses) 0 - r.returned

/-- R263: the credit, STR.FILL.FREE. -/
def State.ringFree (s : State) (n : Nat) : Nat :=
  if s.strState n = 0 then 0 else s.rd Obj.strRingSize n * 16384 - s.ringUsed n

/-- R285: STR.FILL.AHEAD. -/
def State.ringAhead (s : State) (n : Nat) : Nat :=
  let r := s.ndl n
  let from' := r.ring.dropWhile (fun k => k.seq != r.aheadSeq)
  if from'.isEmpty then r.ring.foldl (fun a k => a + k.courses) 0 else from'.foldl (fun a k => a + k.courses) 0 - r.aheadOff

/-- What STR.FILL reads as. -/
def State.strFill (s : State) (n : Nat) : Nat :=
  if s.strState n = 0 then 0 else s.ringUsed n % 2 ^ 32 + s.ringFree n % 2 ^ 32 * 2 ^ 32 + s.ringAhead n % 2 ^ 32 * 2 ^ 64

/-- R712: the reply fields of STREAM_DATA: CHECK, FREE, NEXT_SEQ. -/
def State.streamReply (s : State) (n check : Nat) : Bytes :=
  [BitVec.ofNat 8 check, 0#8, 0#8, 0#8] ++ toBE 4 (s.ringFree n) ++ toBE 4 (s.rd Obj.strNextSeq n)

/-- R287: STR.COUNTS: SKEINS 0, REFUSED 1, IDLE_STITCHES 2, k more. -/
def State.strCount (s : State) (n i k : Nat) : State := s.count Obj.strCounts n ⟨48 * i, 48⟩ ⟨144 + i, 1⟩ k

/-- R270: STR.SKEIN_ERROR records a refusal. -/
def State.skeinError (s : State) (n reason check seq course : Nat) : State :=
  (s.wr Obj.strSkeinError n (reason + check * 2 ^ 16 + seq % 2 ^ 32 * 2 ^ 32 + course % 2 ^ 32 * 2 ^ 64)).strCount n 1 1

/-- R264, R265, R711: the skein in transfer is discarded; a pending final reply carries E_SEQ. -/
def State.discardSkein (s : State) (n : Nat) : State :=
  match (s.ndl n).skeinIn with
  | none => s
  | some k =>
    if k.dead then s.setNdl n { s.ndl n with skeinIn := none } else
    let s := (s.setNdl n { s.ndl n with skeinIn := none }).strCount n 1 1
    if k.due.isSome then s.result (.skein n) rSeq (s.streamReply n 0) else s

/-- R265: the ring is emptied, STR.NEXT_SEQ is 0 and the credit is full. -/
def State.flushRing (s : State) (n : Nat) : State :=
  let s := (s.wr Obj.strNextSeq n 0).setNdl n { s.ndl n with ring := [], returned := 0, aheadSeq := 0, aheadOff := 0, ringSeq := 0, ringOff := 1 }
  s.discardSkein n

/-- R283: step 8 of STR.FLUSH. -/
def State.strFlushCond (s : State) (n : Nat) : List (Bool × Nat) := [(s.busyNeedle n, rBusy)]

/-! The checks of R270. -/

/-- Fields of a skein header (R267). -/
def kSeq (b : Bytes) : Nat := leAt b 8 4
def kCourses (b : Bytes) : Nat := leAt b 12 2

/-- R268: the OPs that a skein may carry. -/
def skeinOp (op : Nat) : Bool := [0x01, 0x02, 0x03, 0x04, 0x0B, 0x0C, 0x0D, 0x0E, 0x0F, 0x10, 0x11, 0x12, 0x13, 0x14, 0xFE, 0xFF].contains op

/-- R268: the first LOOP_BEGIN that opens more than so many loops, with so many open. -/
def tooDeep (lim : Nat) : List (Nat × Block) → Nat → Option Nat
  | [], _ => none
  | (o, b) :: t, d => if b.op = 0x03 then (if d ≥ lim then some o else tooDeep lim t (d + 1)) else if b.op = 0x04 then tooDeep lim t (d - 1) else tooDeep lim t d

/-- R269: a block after a STREAM_JOIN with PAUSE_OK 0. -/
def afterEnd : List (Nat × Block) → Option Nat
  | [] => none
  | (_, b) :: t => if b.op = 0x12 ∧ !bit b.flags 0 then (t.head?).map (·.1) else afterEnd t

/-- R268: the largest number of loops open at a STREAM_JOIN of the needle's charts. -/
def State.joinDepth (s : State) (n : Nat) : Nat :=
  let c := s.chartPaths n
  (c.reach (s.chartOf n) (s.startsOf n)).foldl (fun m x => match c.block x.h x.off with | some b => if b.op = 0x12 then max m x.loops.length else m | none => m) 0

/-- R270, R495: checks 0x04 to 0x09 on a complete skein: the number of the first that fails, its reason and the failing course. -/
def State.skeinChecks (s : State) (n : Nat) (k : SkeinIn) : Option (Nat × Nat × Nat) :=
  let b := k.data
  let np := hNpins (s.chart (s.chartOf n))
  if b.length ≠ k.courses * 64 then some (4, rFormat, 0)
  else if leAt b 0 4 ≠ 0x314E4B53 ∨ leAt b 4 2 ≠ 0x0100 ∨ leAt b 6 2 ≠ np ∨ leAt b 14 2 ≠ 0 ∨ (slice b 20 44).any (· != 0#8) then some (5, rFormat, 0)
  else if !imageCrcOk b 16 then some (6, rFormat, 0)
  else
    let (l, e) := walk b np k.courses k.courses 1
    match e with
    | some e => some (7, rFormat, e)
    | none =>
      match (l.find? (fun p => !blockCrcOk (courseAt b p.1))).map (·.1) with
      | some e => some (7, rFormat, e)
      | none =>
        match firstBad l (fun x => skeinOp x.op && check8 x && check9 x && (x.op != 0x12 || x.target == 0)) <|> loopFail l l [] <|> afterEnd l <|>
          (if l.any (fun x => x.2.op == 0x03) then tooDeep (8 - s.joinDepth n) l 0 else none) with
        | some e => some (8, rFormat, e)
        | none =>
          let sets := chartTsets (s.chart (s.chartOf n)) ||| s.fld Obj.plcStreamProfile n F.plcStreamProfileTsets
          (firstBad l (fun x => !(x.bpp == 1 && s.fld Obj.plcStreamProfile n F.plcStreamProfileBpp4 == 0) &&
            !(x.op == 0x11 && decide (popcount 64 x.ext > s.fld Obj.plcStreamProfile n F.plcStreamProfileCopies)) && !(x.op == 0x0B && !bit sets x.tset))).map (fun e => (9, rPlace, e))

/-! Transfer (R710 to R712). -/

/-- R266: the bytes that a fragment writes, counted in its window of 1 µs: real-time up to STR.RATE, best-effort beyond it. -/
def State.ringWritten (s : State) (n len : Nat) : State :=
  let w := s.now / usFs
  let r := s.ndl n
  let old := if w = r.ringWindow then r.ringBytes else 0
  let quota := s.rd Obj.strRate n / 1000000
  let rt := min (old + len) quota - min old quota
  let s := if rt = 0 then s else s.loadStats true true rt 0
  let s := if rt = len then s else s.loadStats false true (len - rt) 0
  s.setNdl n { s.ndl n with ringWindow := w, ringBytes := old + len }

/-- A fragment has come: the skein is complete once all its bytes have (R271). -/
def State.skeinGot (s : State) (n : Nat) (k : SkeinIn) : State :=
  let due := if k.data.length ≥ k.courses * 64 then some (s.edgeAt fclkFs s.now + 64 * fclkFs) else none
  s.setNdl n { s.ndl n with skeinIn := some { k with due := due, last := s.now } }

/-- R710, R711: a STREAM_DATA item: reason, CHECK, whether the reply waits for validation, and the state. -/
def State.streamData (s : State) (session n skein off : Nat) (data : Bytes) : (Nat × Nat × Bool) × State :=
  let r := s.ndl n
  if n ≥ 16 then ((rNoElem, 0, false), s) else
  match r.skeinIn.filter (fun k => !k.dead || k.seq == skein) with
  | some k =>
    if k.dead then ((rSeq, 0, false), s.discardSkein n)
    else if off = 0 ∨ session ≠ k.session then ((rBusy, 0, false), s)
    else if skein ≠ k.seq ∨ off ≠ k.data.length ∨ k.due.isSome then ((rSeq, 0, false), s.discardSkein n)
    else
      let s := (s.ringWritten n data.length).skeinGot n { k with data := k.data ++ data }
      ((rOk, 0, ((s.ndl n).skeinIn.bind (·.due)).isSome), s)
  | none =>
    let bad := fun (reason check : Nat) => ((reason, check, false), s.skeinError n reason check (if check = 0 then skein else kSeq data) 0)
    if off ≠ 0 then ((rSeq, 0, false), s)
    else if data.length < 64 then bad rFormat 0
    else if s.strState n = 0 ∨ !([Mode.armed, Mode.run, Mode.hold].contains s.mode) then bad rMode 1
    else if kSeq data ≠ s.rd Obj.strNextSeq n ∨ skein ≠ s.rd Obj.strNextSeq n then bad rSeq 2
    else if kCourses data < 2 ∨ kCourses data > 16384 then bad rFormat 3
    else if kCourses data > s.ringFree n then bad rBusy 3
    else
      let s := (s.ringWritten n data.length).skeinGot n ⟨session, skein, kCourses data, data, s.now, none, false⟩
      ((rOk, 0, ((s.ndl n).skeinIn.bind (·.due)).isSome), s)

/-- R264, R711: SKEIN_TIMEOUT: no fragment for 10 ms. The skein is discarded; its courses return with the refusal of the next item that names it. -/
def runSkeinTimeout (needle : Nat) (s : State) : Res :=
  match (s.ndl needle).skeinIn with
  | none => .next s
  | some k =>
    if k.due.isSome || k.dead then .next s
    else
      let s := s.reach (k.last + 10 * msFs)
      .next ((s.setNdl needle { s.ndl needle with skeinIn := some { k with dead := true } }).strCount needle 1 1)

/-- R270, R271: the complete skein of a needle is validated on its edge. -/
def State.skeinValidated (s : State) (n : Nat) : State :=
  match (s.ndl n).skeinIn with
  | none => s
  | some k =>
    match k.due with
    | none => s
    | some t =>
      let s := s.reach t
      match s.skeinChecks n k with
      | some (c, reason, course) =>
        let s := (s.setNdl n { s.ndl n with skeinIn := none }).skeinError n reason c k.seq course
        s.result (.skein n) reason (s.streamReply n c)
      | none =>
        let r := s.ndl n
        let s := s.setNdl n { r with skeinIn := none, ring := r.ring ++ [⟨k.seq, k.data, t⟩] }
        let s := (s.wr Obj.strNextSeq n ((k.seq + 1) % 2 ^ 32)).strCount n 0 1
        s.result (.skein n) rOk (s.streamReply n 0)

/-! What the needle's issue does to the ring. -/

/-- The skein with a sequence number in a needle's ring. -/
def State.skein (s : State) (n seq : Nat) : Option Skein := (s.ndl n).ring.find? (fun k => k.seq == seq)

/-- R264: the courses before a place (skein, offset) return to the credit; skeins returned whole leave the ring. -/
def State.ringReturn (s : State) (n seq off : Nat) : State :=
  let r := s.ndl n
  let before := r.ring.takeWhile (fun k => k.seq != seq)
  if before.length = r.ring.length then s else
  match r.ring.drop before.length with
  | [] => s
  | k :: _ =>
    if off < k.courses then s.setNdl n { r with ring := r.ring.drop before.length, returned := if before.isEmpty then max r.returned off else off }
    else s.setNdl n { r with ring := r.ring.drop (before.length + 1), returned := 0 }

/-- R285, R288: the courses before a place leave AHEAD; STR_LOW on its way below a nonzero STR.LOW_WATER. -/
def State.ringIssue (s : State) (n seq off : Nat) : State :=
  let was := s.ringAhead n
  let r := s.ndl n
  let off' := if r.aheadSeq = seq then max r.aheadOff off else off
  let s := s.setNdl n { r with aheadSeq := seq, aheadOff := off' }
  let low := s.rd Obj.strLowWater n
  if low ≠ 0 ∧ low ≤ was ∧ s.ringAhead n < low ∧ s.strState n = 2 then s.latch Ev.strLow else s

end Sys2Proof.Machine
end

