-- ==== Sys2Proof/Machine/Micro.lean ====
section
/-! DEFINITION. The control store and the microsequencers (05_needles R240 to R247): words, their fields, their parity, traps, the next address. -/
namespace Sys2Proof.Machine

/-! Words (R242). -/

/-- NEXT. -/
def uNext (w : Nat) : Nat := Fld.get ⟨179, 13⟩ w
/-- The VCLK that a word occupies. -/
def uCycles (w : Nat) : Nat := Fld.get ⟨177, 2⟩ w + 1
/-- NSEL. -/
def uNsel (w : Nat) : Nat := Fld.get ⟨174, 3⟩ w
/-- CINV. -/
def uCinv (w : Nat) : Bool := bit w 167

/-- PARITY: bit i is even parity over bits 23i + 30 to 23i + 8. -/
def uParityOk (w : Nat) : Bool := (List.range 8).all (fun i => bit w i == (popcount 23 (Fld.get ⟨23 * i + 8, 23⟩ w) % 2 == 1))

/-- R240, R241: a word of the control store. The boot ROM's words are open (notes/assumptions/52.md). -/
def State.uword (s : State) (a : Nat) : Nat :=
  if a < 7168 then (if s.ubase then Config.baseWord a % 2 ^ 192 else 0) else s.ucode.getD (a - 7168) 0

/-- R247: the word that is read in place of one. -/
def State.trapped (s : State) (a : Nat) : Nat := ((s.traps.find? (fun t => t.1 == a)).map (·.2)).getD a

/-- R245: the word at an address has a parity mismatch as stored: the ROM's words are right, a patch's are as they were loaded. -/
def State.uBad (s : State) (a : Nat) : Bool := !s.ucode.isEmpty && decide (7168 ≤ a) && !uParityOk (s.uword a)

/-- R243: the address of the next word and the microstack, after a word at an address; `op` is the OP of the next decoded header, `cond` the selected condition, whose code and value are Weahan's.
What a push on a full stack, a pop of an empty one and a reserved NSEL do is open: the oldest entry is lost, and the address is `other` (notes/assumptions/52.md). -/
def uStep (w a op other : Nat) (cond : Bool) (st : List Nat) : Nat × List Nat :=
  let c := cond != uCinv w
  match uNsel w with
  | 0 => (uNext w, st)
  | 1 => (op, st)
  | 2 => (if c then uNext w else a + 1, st)
  | 3 => (uNext w, ((a + 1) :: st).take 4)
  | 4 => (st.headD other, st.tail)
  | 5 => (if c then uNext w else a, st)
  | _ => (other, st)

/-- What a run of microwords leaves: the last address, the microstack, how many words were read, whether one had a parity mismatch, the trapped addresses. -/
structure URun where
  addr : Nat
  stack : List Nat
  words : Nat
  bad : Bool
  traps : List Nat
  deriving DecidableEq, Repr

/-- R243, R244: words read one after another until so many VCLK have passed; conditions and open addresses come from free values (notes/assumptions/3.md). -/
def State.uRun (s : State) (op : Nat) : Nat → Nat → Nat → URun → URun
  | 0, _, _, u => u
  | f + 1, left, a, u =>
    let b := s.trapped a
    let w := s.uword b
    let n := uStep w b op (Config.freeValue (s.freeCtr + f + 1) % 8192) (Config.freeBool (s.freeCtr + f + 1)) u.stack
    let v : URun := ⟨b, n.2, u.words + 1, u.bad || s.uBad b, if b = a then u.traps else u.traps ++ [a]⟩
    if left ≤ uCycles w then v else State.uRun s op f (left - uCycles w) n.1 v

/-- R795, R858: so many accesses of a checker in a row: the wrong bits of the first that is corrupted, 0 for none. -/
def State.checkedMany (s : State) (src master count : Nat) : Nat × State :=
  let (k, s') := s.checked src master
  if k = 0 then (0, s') else (k, { s' with fcr := { s'.fcr with injLeft := s'.fcr.injLeft - (count - 1) } })

end Sys2Proof.Machine
end

