-- ==== Sys2Proof/Machine/Needles.lean ====
section
/-! DEFINITION. The needles' lives (05_needles R202 to R209, R221 to R239, R852; 01_architecture R24 to R33): starts, freezes, resumes, ends, host events and jumps, and the trace. -/
namespace Sys2Proof.Machine

/-- NDL.COUNTS field i, one more. -/
def State.ndlCount (s : State) (n i : Nat) : State := s.count Obj.ndlCounts n ⟨48 * i, 48⟩ ⟨336 + i, 1⟩ 1

/-- The state with a field of NDL.STATUS set. -/
def State.setStatus (s : State) (n : Nat) (f : Fld) (v : Nat) : State := s.setFld Obj.ndlStatus n f v

/-- A field of NDL.STATUS. -/
def State.status (s : State) (n : Nat) (f : Fld) : Nat := s.fld Obj.ndlStatus n f

/-- NDL.STITCH_COUNT of a needle. -/
def State.stitches (s : State) (n : Nat) : Nat := s.rd Obj.ndlStitchCount n

/-! Trace (R250 to R252). -/

/-- R252: a record written to a needle's ring, or dropped and counted. -/
def State.ndlTraceWrite (s : State) (n r : Nat) : State :=
  if s.hbmWritable then
    let x := s.ndl n
    (s.setNdl n { x with trace := lastN (s.fld Obj.ndlTraceCtrl n F.ndlTraceCtrlSize * 65536) (x.trace ++ [r]), traceRun := x.traceRun + 1 }).count
      Obj.ndlTraceStatus n F.ndlTraceStatusWritten F.ndlTraceStatusWrittenSat 1
  else s.count Obj.ndlTraceStatus n F.ndlTraceStatusLost F.ndlTraceStatusLostSat 1

/-- R250: a trace record. -/
def traceRecord (kind n uaddr op course stitch : Nat) : Nat :=
  stitch % 2 ^ 64 + course % 2 ^ 32 * 2 ^ 64 + op % 256 * 2 ^ 99 + uaddr % 2 ^ 13 * 2 ^ 107 + n % 16 * 2 ^ 120 + kind % 16 * 2 ^ 124

/-- R251: the TIME record, written when tracing is enabled and after every 65,536 records. Its UADDR, OP and COURSE concern no block and are 0. -/
def State.ndlTraceTime (s : State) (n : Nat) : State :=
  if s.fld Obj.ndlTraceCtrl n F.ndlTraceCtrlEnable = 0 then s else
  let s := s.ndlTraceWrite n (traceRecord 15 n 0 0 0 (s.htAt s.now))
  s.setNdl n { s.ndl n with traceRun := 0 }

/-- R250, R251: a record of an enabled kind. -/
def State.ndlTraceAt (s : State) (n kind uaddr op course : Nat) : State :=
  let c := s.rd Obj.ndlTraceCtrl n
  if Fld.get F.ndlTraceCtrlEnable c = 1 ∧ bit c kind = true then
    let s := s.ndlTraceWrite n (traceRecord kind n uaddr op course (s.stitches n))
    if (s.ndl n).traceRun ≥ 65536 then s.ndlTraceTime n else s
  else s

/-- A record whose microword address the spec does not give (a free value, notes/assumptions/3.md). -/
def State.ndlTrace (s : State) (n kind op course : Nat) : State := s.draw.ndlTraceAt n kind (Config.freeValue s.freeCtr % 8192) op course

/-- OP and header course of the block that a needle stands at: the next to issue, else the one stitched last. -/
def State.blockOf (s : State) (n : Nat) : Nat × Nat :=
  match (s.ndl n).held ++ (s.ndl n).queue with
  | d :: _ => (d.blk.op, d.off)
  | [] => (s.ndl n).last

/-- R244, R245, R247: the microwords of cast-on, of a seam, a freeze, a resume or a frog, in so many VCLK; their entry address is a free value (notes/assumptions/52.md).
The answer says whether a word had a parity mismatch, and where. -/
def State.routine (s : State) (n cycles : Nat) : Option Nat × State :=
  let entry := Config.freeValue s.freeCtr % 8192
  let (op, course) := s.blockOf n
  let u := s.uRun op cycles cycles entry ⟨entry, (s.ndl n).ustack, 0, false, []⟩
  let s := s.draw.setNdl n { s.ndl n with uaddr := u.addr, ustack := u.stack }
  let s := if s.traps.isEmpty then s else u.traps.foldl (fun s a => s.ndlTraceAt n 11 a op course) s
  let (k, s) := s.checkedMany Ev.ucodeParity n u.words
  (if k ≠ 0 || (!s.ucode.isEmpty && u.bad) then some u.addr else none, s)

/-! The engine's part in the ends and freezes of needles. -/

/-- R204: some needle is running. -/
def State.anyRunning (s : State) : Bool := (List.range 16).any s.running

/-- Some needle is running or held. -/
def State.anyBusy (s : State) : Bool := (List.range 16).any s.busyNeedle

/-- R639: a pending timed start is dropped once one of its needles has left ARMED, DONE and FROGGED, the engine is in HOLD, or a transition other than ARMED to RUN has started. -/
def State.timedCheck (s : State) : State :=
  let ns := members 16 (s.fld Obj.clkStartStatus 0 F.clkStartStatusNeedles)
  let other := match s.trans with | some t => t.target != Mode.run.code || t.source != Mode.armed.code | none => false
  if s.clk.startQ.isSome && (ns.any (fun n => !([2, 8, 9].contains (s.ndlState n))) || s.mode == .hold || other) then s.dropTimedStart else s

/-- R550: the raster streams of every needle stop. -/
def State.rasStopAll (s : State) : State := (List.range 16).foldl State.rasStopNeedle s

/-- The engine is in ARMED after RUN or HOLD. -/
def State.arriveArmed (s : State) (prev reason : Nat) : State :=
  ((({ s with trans := none }).enter .armed prev reason).rasStopAll.taeResume s.now).calPause

/-- R224, R111: the engine enters HOLD. -/
def State.arriveHold (s : State) (prev reason : Nat) : State :=
  (((({ s with trans := none }).enter .hold prev reason).taeHold s.now).calPause).timedCheck

/-- R111, R224: a HOLD transition completes once no needle is running and some needle is held. -/
def State.holdCheck (s : State) : State :=
  match s.trans with
  | some t => if t.target = Mode.hold.code ∧ s.anyRunning = false ∧ s.anyBusy = true then s.arriveHold t.source t.reason else s
  | none => s

/-- R110, R115: a request for ARMED or IDLE has reached its apply edge, which lies 6 VCLK before the first instant at which it can complete. -/
def State.leaving (s : State) : Bool :=
  match s.trans with
  | some t => (t.target == Mode.armed.code || t.target == Mode.idle.code) && (match t.due with | some d => decide (d ≤ s.now + 6 * vclkFs) | none => false)
  | none => false

/-- R110, R116: what the engine does once a needle has ended; without a needle running or held it returns to ARMED at t. A transition for a host request that has
not reached its apply edge is abandoned; entry to SAFE or DUMP and the ride-through go on. -/
def State.needlesEnded (s : State) (t : Nat) : State :=
  if (s.mode = .run ∨ s.mode = .hold) ∧ s.anyBusy = false ∧ s.psm.plan.isNone ∧ s.leaving = false then
    if t ≤ s.now then s.arriveArmed s.mode.code 4
    else ({ s with trans := some ⟨s.mode.code, Mode.armed.code, 4, some t⟩ }).timedCheck
  else s.holdCheck

/-! Ends (R203, R234 to R239, R346). -/

/-- R235, R265, R440, R550: what every end of a needle does: its streams stop, its ring is emptied, its seam age stops. -/
def State.stopNeedle (s : State) (n : Nat) : State :=
  let s := s.rasStopNeedle n
  let s := s.setNdl n { s.ndl n with queue := [], held := [], ahead := none, cursor := none, resume := none, wait := false, passes := [], seam := none, bound := none, freeze := none, brk := none, pause := false, stallFrom := none, stallUsed := 0, jump := none }
  let s := s.setStatus n F.ndlStatusInSeam 0
  let s := s.setStatus n F.ndlStatusOverlayActive 0
  let s := s.setStatus n F.ndlStatusRasterAttached 0
  let s := if s.strState n = 0 then s else (s.wr Obj.strState n 1).flushRing n
  s.ageFrom n none

/-- R233: a pending jump is dropped. -/
def State.dropJump (s : State) (n : Nat) : State :=
  match (s.ndl n).jump with
  | none => s
  | some (entry, _, _) =>
    let s := s.setNdl n { s.ndl n with jump := none }
    (((s.setStatus n F.ndlStatusJumpPending 0).setFld Obj.ndlJumpStatus n F.ndlJumpStatusState 3).setFld Obj.ndlJumpStatus n F.ndlJumpStatusEntry entry).latch Ev.ndlJump

/-- R346: the results of a needle's sites at a frog that does not end DONE, by cause; what had been accumulated is kept, for a STOP_ON_FAIL on the same edge. -/
def State.frogResults (s : State) (n cause : Nat) : State :=
  let act := (s.ndl n).active
  let old := (s.ndl n).before
  let now := (s.sitesOf n).map (fun i => (i, s.fld Obj.ptfSiteResult i F.ptfSiteResultResult))
  let s := s.setNdl n { s.ndl n with before := if old.isEmpty then now else old }
  (s.sitesOf n).foldl (fun s i =>
    if bit act i then
      (if cause = 4 then (match (s.ndl n).before.find? (fun b => b.1 == i) with | some b => s.setResult i F.ptfSiteResultResult b.2 | none => s)
       else s.setResult i F.ptfSiteResultResult 3)
    else s.setResult i F.ptfSiteResultNeedleFrogged 1) s

/-- R234 to R239: a frog of a needle with a cause, on its commit edge c. On an edge on which the needle has been frogged already the lowest cause stands. -/
def State.frogAt (s : State) (n c cause : Nat) : State :=
  let r := s.ndl n
  let s := s.setNdl n { r with frogs := r.frogs.filter (fun f => decide (c < f.1)) }
  let r := s.ndl n
  if !s.busyNeedle n then
    if r.parked = some (c + 6 * vclkFs) ∧ cause < s.status n F.ndlStatusFrogCause then
      let s := s.setStatus n F.ndlStatusFrogCause cause
      if s.ndlState n = 9 then s.frogResults n cause else s
    else s
  else
    let late := match r.bound with | some (_, i) => decide (i < c) | none => false
    let s := s.dropJump n
    let s := s.ndlTrace n 7 (s.blockOf n).1 (s.blockOf n).2
    let (bad, s) := s.routine n 6
    let s := match bad with | some a => s.raise Ev.ucodeParity n n 4 a (some (2 ^ n)) true | none => s
    let cause := if bad.isSome then 1 else cause
    let s := (s.stopNeedle n).setStatus n F.ndlStatusFrogCause cause
    let s := s.setNdl n { s.ndl n with park := some (c + 6 * vclkFs), parked := some (c + 6 * vclkFs), final := some (c + 14 * vclkFs), frogs := [] }
    let s := if late then
        ((((s.wr Obj.ndlState n 8).setStatus n F.ndlStatusFrogLate 1).ndlCount n 1).ndlCount n 3).latch Ev.ndlDone
      else (((s.wr Obj.ndlState n 9).frogResults n cause).ndlCount n 2).latch Ev.ndlFrogged
    s.needlesEnded (c + 6 * vclkFs)

/-- R184, R203, R347: a bind-off seam has ended: the needle is DONE, its pins park, its results are final on this instant. -/
def State.doneAt (s : State) (n t : Nat) : State :=
  let s := s.stopNeedle n
  let s := s.parkNeedle n t
  let s := s.setNdl n { s.ndl n with final := some t, parked := none, frogs := [] }
  (((s.wr Obj.ndlState n 8).ndlCount n 1).latch Ev.ndlDone).needlesEnded t

/-- R142, R150, R245: a frog on a checker's edge of detection, with cause FAULT. -/
def State.frogFault (s : State) (n src access addr : Nat) : State :=
  (s.raise src n n access addr (some (2 ^ n)) true).frogAt n s.now 1

/-- R244, R245: the microwords of a cast-on, a seam, a freeze or a resume of a needle; a parity mismatch frogs it. -/
def State.runRoutine (s : State) (n cycles : Nat) : State :=
  let (bad, s) := s.routine n cycles
  match bad with | some a => s.frogFault n Ev.ucodeParity 4 a | none => s

/-! Starts (R206 to R211, R852, R638). -/

/-- R206: a needle can be started. -/
def State.startable (s : State) (n : Nat) : Bool :=
  [2, 8, 9].contains (s.ndlState n) && s.hasChart n && s.chartState (s.chartOf n) == 4

/-- R206: step 8 of a write of 1 to NDL.START. -/
def State.startCond (s : State) (els : List Nat) : List (Bool × Nat) := [(els.any (fun n => !s.startable n), rMode)]

/-- R207, R208, R27, R437: a needle casts on with the qualify edge q: what its last run left ends, pending gauges and switches apply. -/
def State.castOn (s : State) (q n : Nat) : State :=
  let s := match (s.ndl n).park with | some t => s.parkNeedle n t | none => s
  let s := if (s.ndl n).final.isSome then s.finalize n else s
  let s := ((s.rasStopNeedle n).applyGauges n q).applySwitches n q
  (s.wr Obj.ndlState n 3).ndlCount n 0

/-- R209: the events that reach a needle from its qualify edge on. -/
def State.lateEvents (s : State) (n q : Nat) : Tbl (Option Nat) :=
  (s.evts.filter (fun x => bit x.2.1 n && decide (q ≤ x.2.2))).foldl (fun t x =>
    match Tbl.get (fun _ => none) t x.1 with | some _ => t | none => Tbl.put (fun _ => none) t x.1 (some x.2.2)) []

/-- R209 to R211: the needle's state is reset on q + 1; t0 is the earliest instant of its first stitch. The entry microroutine takes q + 2 to q + 9 (R208). -/
def State.castReset (s : State) (q t0 n : Nat) : State :=
  let h := s.chartOf n
  let img := s.chart h
  let r := s.ndl n
  let r' : NdlRt := { ({} : NdlRt) with
    q := q, t0 := t0, cursor := some (.chart h, hEntry img), ringSeq := r.ringSeq, ringOff := r.ringOff, decodedAt := q + 41 * vclkFs,
    active := s.rd Obj.ndlSites n, latches := s.lateEvents n q, trace := r.trace, traceRun := r.traceRun, ring := r.ring, skeinIn := r.skeinIn, returned := r.returned,
    aheadSeq := r.aheadSeq, aheadOff := r.aheadOff, ringWindow := r.ringWindow, ringBytes := r.ringBytes, fifo := r.fifo, dlog := r.dlog, dlogRun := r.dlogRun, capLive := r.capLive, frogs := r.frogs, uaddr := r.uaddr, ustack := r.ustack }
  let s := (s.setNdl n r').clearRun n
  let pend := s.status n F.ndlStatusGaugePending
  let sw := s.status n F.ndlStatusSwitchPending
  let s := s.wr Obj.ndlStatus n (hInitTset img % 64 + pend * 2 ^ 22 + sw * 2 ^ 23)
  let s := s.wr Obj.ndlStitchCount n 0
  let s := (s.setFld Obj.strUnderrun n F.strUnderrunLastFrog 0).setFld Obj.strUnderrun n F.strUnderrunExpired 0
  let s := (s.chartPins n).foldl (fun s p => s.setPin p { s.pin p with collided := false }) s
  s.runRoutine n 8

/-- R109: the engine is in RUN from the edge on which the first needle's start is qualified. -/
def State.enterRun (s : State) (reason : Nat) : State := if s.mode = .armed then s.enter .run Mode.armed.code reason else s

/-- R852: the conditions under which a start of a set of needles is qualified. -/
def State.qualifies (s : State) (ns : List Nat) : Bool :=
  ns.all s.startable && (s.mode == .armed || s.mode == .run) && !s.safeGoing &&
  (match s.trans with | some t => t.target == Mode.run.code && t.source == Mode.armed.code | none => true)

/-- R207, R852, R109: the start of a set of needles on its qualify edge q, with the reset of R209 on q + 1, or its drop. -/
def State.qualify (s : State) (ns : List Nat) (q reason : Nat) (t0 : Nat) : State :=
  if s.qualifies ns && !ns.isEmpty then
    let s := ((ns.foldl (State.castOn · q) s).enterRun reason).timedCheck.reach (q + vclkFs)
    ns.foldl (State.castReset · q t0) s
  else s

/-- R105, R109: the needles of a RUN request from ARMED start on its apply edge; the request's transition ends with it. -/
def State.runQualify (s : State) : State :=
  match s.trans with
  | some t =>
    if t.target = Mode.run.code ∧ t.source = Mode.armed.code then
      let q := t.due.getD s.now
      let s := s.reach q
      { s with trans := none }.qualify (needles s.hasChart) q 1 (q + 64 * vclkFs)
    else s
  | none => s

/-- The oldest staged entry of an object that addresses a member. -/
def State.stagedFor (s : State) (o n : Nat) : Option Staged := s.staged.find? (fun x => x.obj == o && bit x.els n)

/-- R852: START_QUALIFY: the oldest staged start that addresses the needle, else the RUN request in progress, on its apply edge. -/
def execStartQualify (needle : Nat) (s : State) : Res :=
  match s.stagedFor Obj.ndlStart needle with
  | some x =>
    let s := ({ s with staged := s.staged.erase x }).reach x.due
    .next (s.qualify (members 16 x.els) x.due 3 (x.due + 64 * vclkFs))
  | none => .next s.runQualify

/-- R638: TIMED_START. -/
def execTimedStart (s : State) : Res :=
  match s.clk.startQ with
  | none => .next s
  | some q =>
    let s := s.reach q
    let ns := members 16 (s.fld Obj.clkStartStatus 0 F.clkStartStatusNeedles)
    if s.qualifies ns then
      let e := s.clk.epoch + s.fld Obj.clkStartStatus 0 F.clkStartStatusAtNs * nsFs
      let s := ({ s with clk := { s.clk with startQ := none } }).setFld Obj.clkStartStatus 0 F.clkStartStatusState 2
      .next (s.qualify ns q 3 e)
    else .next s.dropTimedStart

/-- R638: the qualify edge of CLK.START_AT. -/
def State.startEdge (s : State) (atNs : Nat) : Nat := s.edgeBefore vclkFs (s.clk.epoch + atNs * nsFs - 64 * vclkFs)

/-- R637: step 8 of CLK.START_AT. -/
def State.startAtCond (s : State) (ns atNs : Nat) : List (Bool × Nat) :=
  [(s.clk.startQ.isSome, rBusy), ((members 16 ns).any (fun n => !s.startable n), rMode),
   (ns % 2 ^ 16 == 0 || decide (s.startEdge atNs < s.now + 16 * vclkFs) || decide (s.now + 100 * secFs < s.clk.epoch + atNs * nsFs), rRange)]

/-- R637: the effect of CLK.START_AT. -/
def State.startAt (s : State) (ns atNs : Nat) : State :=
  let s := { s with clk := { s.clk with startQ := some (s.startEdge atNs) } }
  s.wr Obj.clkStartStatus 0 (1 + ns % 2 ^ 16 * 2 ^ 16 + atNs % 2 ^ 64 * 2 ^ 64)

/-! Freezes and resumes (R221 to R226, R113). -/

/-- R203, R221, R277: a needle is frozen on an edge. -/
def State.freezeAt (s : State) (n e : Nat) : State :=
  let r := s.ndl n
  let used := match r.stallFrom with | some t => r.stallUsed + (e - t) | none => r.stallUsed
  let s := s.setNdl n { r with freeze := none, brk := none, stallFrom := none, stallUsed := used }
  let s := (s.wr Obj.ndlState n 6).ndlCount n 6
  let s := s.ndlTrace n 4 (s.blockOf n).1 (s.blockOf n).2
  let s := (s.rasFreeze n true).holdCheck
  s.runRoutine n 8

/-- R224, R225: a breakpoint freezes its needle on an edge; where no transition is in progress the other running needles follow and the engine goes to HOLD. -/
def State.breakAt (s : State) (n e mark : Nat) : State :=
  let s := ((s.setStatus n F.ndlStatusMarkId mark).setStatus n F.ndlStatusBreakHit 1).latch Ev.ndlBreak
  let s := if s.trans.isNone && s.psm.plan.isNone && s.mode == .run then
      let s := ({ s with trans := some ⟨Mode.run.code, Mode.hold.code, 5, none⟩ }).timedCheck
      ((List.range 16).filter (fun m => m != n && s.running m && (s.ndl m).bound.isNone)).foldl (fun s m =>
        s.setNdl m { s.ndl m with freeze := some (match (s.ndl m).freeze with | some f => min f (e + 16 * vclkFs) | none => e + 16 * vclkFs) }) s
    else s
  s.freezeAt n e

/-! Staged frogs, host events and jumps. -/

/-- R227: HOST_EVENT_LATCH: the oldest staged host event that addresses the needle is latched in every needle that it addresses. -/
def execHostEventLatch (needle : Nat) (s : State) : Res :=
  match s.stagedFor Obj.ndlHostEvent needle with
  | none => .next s
  | some x => .next ((({ s with staged := s.staged.erase x }).reach x.due).latchEvent 1 (x.value % 256) x.els x.due)

/-- R228: TRIGIN_EDGE: an edge at a TRIGIN ball at t. A rising edge reaches the latches, the edge that a unit selects its stamp, on edge e + 3. -/
def execTriginEdge (input : Nat) (falling : Bool) (t : Nat) (s : State) : Res :=
  let s := s.reach t
  let e := s.edgeBefore vclkFs t
  let s := if falling then s else s.latchEvent 2 input (2 ^ 16 - 1) (e + 3 * vclkFs)
  .next (s.taeTrigin input e t falling)

/-- R230: step 8 of NDL.JUMP: the entry of an addressed needle is not valid. -/
def State.jumpCond (s : State) (els : List Nat) (v : Nat) : List (Bool × Nat) :=
  [(els.any (fun n => !bit (s.fld Obj.ndlJumpTable n F.ndlJumpTableValid) v), rRange)]

/-- R233: a jump to an entry becomes pending for a needle on its apply edge, or is dropped. A jump that is still pending gives way to the new one. -/
def State.jumpNow (s : State) (n entry a : Nat) : State :=
  let s := (s.setFld Obj.ndlJumpStatus n F.ndlJumpStatusEntry entry).setFld Obj.ndlJumpStatus n F.ndlJumpStatusState 1
  let s := s.setNdl n { s.ndl n with jump := some (entry, a, false) }
  if [3, 4, 5, 6].contains (s.ndlState n) && (s.ndl n).bound.isNone then
    (s.setStatus n F.ndlStatusJumpPending 1).setFld Obj.ndlJumpStatus n F.ndlJumpStatusDeferred 0
  else s.dropJump n

/-- R233: JUMP_APPLY: the oldest staged jump that addresses the needle, for every needle that it addresses. -/
def execJumpApply (needle : Nat) (s : State) : Res :=
  match s.stagedFor Obj.ndlJump needle with
  | none => .next s
  | some x =>
    let s := ({ s with staged := s.staged.erase x }).reach x.due
    .next ((members 16 x.els).foldl (fun s n => s.jumpNow n (x.value % 8) x.due) s)

/-! What NDL.STATUS and PTF.PIN_STATE read as where they follow from the needle. -/

/-- R165, R166: whether a pass of a MATCH matches: MODE 0 no active site failed, MODE 1 some active site did not; a pass without a strobe on an active site matches. -/
def passMatches (mode active : Nat) (p : Pass) : Bool :=
  !p.strobed || (if mode = 0 then p.failed == 0 else (members 64 active).any (fun i => !bit p.failed i))

/-- R256 DECISION_PENDING: a decision has fallen and waits for its payload boundary. -/
def NdlRt.decided (r : NdlRt) (now : Nat) : Bool :=
  match r.queue with
  | d :: _ =>
    if d.blk.op = 0x08 then
      r.passes.any (fun p => p.waiting == 0 && p.last != 0 && p.n ≤ d.blk.count && (passMatches (d.blk.arg % 2) r.active p || p.n == d.blk.count) && decide (p.n ≤ r.reps))
    else d.blk.op == 0x0A && (match Tbl.get (fun _ => none) r.latches (d.blk.arg % 2 ^ 16) with | some l => decide (l ≤ now) | none => false)
  | [] => false

/-- R256: NDL.STATUS as it reads. -/
def State.statusRead (s : State) (n : Nat) : Nat :=
  let v := s.rd Obj.ndlStatus n
  let staged := s.staged.any (fun x => [Obj.ndlStart, Obj.ndlFrog, Obj.ndlHostEvent, Obj.ndlJump].contains x.obj && bit x.els n && decide (s.now < x.due))
  let pend := (s.chartPins n).any (fun p => s.rd Obj.ptfGauge p != s.rd Obj.ptfGaugeActive p)
  F.ndlStatusGaugePending.put (F.ndlStatusDecisionPending.put (F.ndlStatusStagedPending.put v staged.toNat) ((s.busyNeedle n) && (s.ndl n).decided s.now).toNat) pend.toNat

/-- R315: PTF.PIN_STATE as it reads: HOLDING under a needle that is HELD, in a seam or in a gap between stitches, else ACTIVE while a stitch stands at the balls; a needle that
has ended leaves its pins ACTIVE until they park (R316, notes/assumptions/47.md), and one that casts on leaves them PARKED until its first stitch. -/
def State.pinStateRead (s : State) (p : Nat) : Nat :=
  let v := s.rd Obj.ptfPinState p
  match (List.range 16).find? (fun n => bit (s.rd Obj.ndlPinset n) p) with
  | none => v
  | some n =>
    let r := s.ndl n
    if (v = 1 ∨ v = 2) ∧ s.ndlState n = 6 then 3
    else if v ≠ 2 then v
    else if s.ndlState n = 8 ∨ s.ndlState n = 9 then 2
    else if r.seam.isSome ∨ r.fresh = true then 3
    else match r.gap with
      | some (a, b, parked) => if a ≤ s.now ∧ s.now < b then (if parked then 1 else 3) else if r.t0 ≤ s.now then 3 else 2
      | none => if r.t0 ≤ s.now then 3 else 2

end Sys2Proof.Machine
end

