-- ==== Sys2Proof/Machine/Compare.lean ====
section
/-! DEFINITION. Strobes evaluated (R313, R340 to R352, R365, R373, R561) and the fail flags that they send to the needle (R168, R213, R350 to R352). -/
namespace Sys2Proof.Machine

/-- R213: the edge on which the fail flag of a strobe at an instant reaches the needle. -/
def State.flagEdge (s : State) (t : Nat) : Nat := s.edgeBefore vclkFs t + 8 * vclkFs

/-- R350, R351: whether a group of flags that reach a needle together stops it: in mode ALL the fails that have reached the needle count. -/
def State.stops (s : State) (n : Nat) (fs : List Flag) : Bool :=
  match s.rd Obj.ptfStopOnFail n with
  | 1 => fs.any (fun f => decide (f.site < 64))
  | 2 => fs.any (fun f => decide (f.site < 64) && (members 64 f.active).all (bit (s.ndl n).failed))
  | _ => false

/-- R168, R213, R351, R352: the flags of a needle that are due on an edge reach it. -/
def State.flagGroup (s : State) (n t : Nat) : State :=
  let r := s.ndl n
  let fs := r.flags.filter (fun f => f.due == t)
  let s := s.setNdl n { r with flags := r.flags.filter (fun f => f.due != t), failed := r.failed ||| ofMembers ((fs.map (·.site)).filter (fun i => decide (i < 64))) }
  let live := s.busyNeedle n
  let st := (fs.filter (·.sticky)).map (·.t)
  let s := if live && !st.isEmpty then (s.setNdl n { s.ndl n with sticky := (s.ndl n).sticky ++ st }).setStatus n F.ndlStatusStickyFail 1 else s
  if (live || r.parked == some (t + 6 * vclkFs)) && s.stops n fs then
    let s := (fs.filter (fun f => decide (f.site < 64))).foldl (fun s f => s.setResult f.site F.ptfSiteResultStopped 1) s
    (s.latch Ev.ptfStopped).frogAt n t 4
  else s

/-- The flags of a needle that are due by an edge reach it, in order. -/
def State.deliverFlags : Nat → Nat → Nat → State → State
  | 0, _, _, s => s
  | k + 1, n, e, s =>
    match (s.ndl n).flags.filter (fun f => decide (f.due ≤ e)) with
    | [] => s
    | f :: t =>
      let d := t.foldl (fun a b => min a b.due) f.due
      State.deliverFlags k n e ((s.reach d).flagGroup n d)

/-- A strobe with its samples of CMH and CML. -/
abbrev Seen := Strobe × List Bool × List Bool

/-- R319: the strobes of a stitch with their samples, taken at the balls, in the logical sense. -/
def State.seenOf (s : State) (st : Stitch) (samples : Samples) : List Seen :=
  st.strobes.zipIdx.map (fun (x : Strobe × Nat) =>
    let m := samples.getD x.2 ([], [])
    (x.1, (m.1.take x.1.nh).map (s.cmpSense x.1.pin false), (m.2.take x.1.nl).map (s.cmpSense x.1.pin true)))

/-- R296, R313: a strobe that gives a result, and fails. -/
def seenFails (x : Seen) : Bool := decide (x.1.site < 64) && !strobePasses x.1.act x.2.1 x.2.2

/-- R344, R353: a counted failing stitch of a site: its result, and its entry for the fail logger. -/
def State.siteFail (s : State) (n : Nat) (st : Stitch) (bad : List Seen) (site : Nat) : State :=
  let r := s.rd Obj.ptfSiteResult site
  let s := if Fld.get F.ptfSiteResultFailStitches r = 0 then s.setResult site F.ptfSiteResultFirstFail st.idx else s
  let s := s.count Obj.ptfSiteResult site F.ptfSiteResultFailStitches F.ptfSiteResultFailSat 1
  let s := if Fld.get F.ptfSiteResultResult r = 3 then
      s.setNdl n { s.ndl n with before := (s.ndl n).before.map (fun b => if b.1 = site then (site, 2) else b) }
    else s.setResult site F.ptfSiteResultResult 2
  if st.nolog then s else
  let pins := s.sitePins site
  let bits := (bad.filter (fun x => x.1.site == site)).foldl (fun a x => a ||| 2 ^ (2 * (pins.findIdx (· == x.1.pin)) + x.1.slot)) 0
  s.logFail n ⟨site, st.idx, st.course, st.tset, bits⟩

/-- R348: a counted stitch in which a strobe of a pin failed. -/
def State.pinFail (s : State) (idx p : Nat) : State :=
  let s := if s.fld Obj.ptfPinFails p F.ptfPinFailsFails = 0 then s.setFld Obj.ptfPinFails p F.ptfPinFailsFirstFail idx else s
  s.count Obj.ptfPinFails p F.ptfPinFailsFails F.ptfPinFailsFailsSat 1

/-- R373: the capture word of a stitch. -/
def State.captureOf (s : State) (n : Nat) (caps : List Seen) : Nat :=
  let cb := 1 + s.fld Obj.ptfCapCfg n F.ptfCapCfgBits
  ((s.chartPins n).zipIdx).foldl (fun a (x : Nat × Nat) =>
    match (caps.filter (fun y => y.1.pin == x.1)).getLast? with
    | none => a
    | some y => a + (y.2.1.headD false).toNat * 2 ^ (cb * x.2) + (if cb = 2 then (y.2.2.headD false).toNat * 2 ^ (cb * x.2 + 1) else 0)) 0

/-- R341 to R348, R373, R404, R561: a stitch of a needle is evaluated. -/
def State.evalStitch (s : State) (n : Nat) (st : Stitch) (seen : List Seen) : State :=
  let bad := seen.filter seenFails
  let s := bad.foldl (fun s x => s.taeFail x.1.pin (s.edgeBefore vclkFs x.1.t) x.1.t) s
  let r := s.ndl n
  let act := bad.filter (fun x => bit st.active x.1.site)
  let counts := fun (x : Seen) => match r.parked with | some p => decide (x.1.t < p) | none => true
  let s := if st.pass = 0 then
      s.setNdl n { r with flags := r.flags ++ act.map (fun x => (⟨s.flagEdge x.1.t, x.1.t, true, if counts x then x.1.site else 64, st.active⟩ : Flag)) }
    else s.setNdl n { r with passes := r.passes.map (fun (p : Pass) => if p.n = st.pass then
        { p with waiting := if st.strobes.isEmpty then p.waiting else p.waiting - 1, failed := p.failed ||| ofMembers (act.map (fun x => x.1.site)) } else p) }
  let hits := if st.pass = 0 then act.filter counts else []
  let s := ((List.range 64).filter (fun i => hits.any (fun x => x.1.site == i))).foldl (fun s i => s.siteFail n st hits i) s
  let s := ((List.range 256).filter (fun p => hits.any (fun x => x.1.pin == p))).foldl (fun s p => s.pinFail st.idx p) s
  let caps := seen.filter (fun x => x.1.act == 4)
  let s := if caps.isEmpty then s else s.captureWord n st.idx (s.captureOf n caps)
  (members 2 (s.ndl n).streams).foldl (fun s i => s.rasReturn i st.idx seen) s

/-- Stitches without strobes at the front of a needle's list need no samples. -/
def State.popEmpty : Nat → Nat → State → State
  | 0, _, s => s
  | k + 1, n, s =>
    match (s.ndl n).strobes with
    | [] => s
    | st :: t => if st.strobes.isEmpty then State.popEmpty k n ((s.setNdl n { s.ndl n with strobes := t }).evalStitch n st []) else s

/-- R313: STROBE_RESULT: the oldest stitch of the needle that waits for its strobes is evaluated with the comparators' levels. -/
def execStrobeResult (needle : Nat) (samples : Samples) (s : State) : Res :=
  let s := s.popEmpty (s.ndl needle).strobes.length needle
  match (s.ndl needle).strobes with
  | [] => .next s
  | st :: t =>
    let s := s.reach (st.strobes.foldl (fun a x => max a x.t) 0)
    let s := (s.setNdl needle { s.ndl needle with strobes := t }).evalStitch needle st (s.seenOf st samples)
    .next (s.popEmpty t.length needle)

end Sys2Proof.Machine
end

