-- ==== Sys2Proof/Machine/Decoder.lean ====
section
/-! DEFINITION. The needle's decoder (R150, R158 to R164, R183 to R186, R214 to R217, R244, R245, R247): the prefetch and branch buffers, headers in path order, one a VCLK. -/
namespace Sys2Proof.Machine

/-- The bytes of an image that a needle walks. -/
def State.imgBytes (s : State) (n : Nat) : Img → Bytes
  | .chart h => s.chart h
  | .skein q => match s.skein n q with | some k => k.data | none => []

/-- R138, R267: NPINS of an image. -/
def State.imgPins (s : State) (n : Nat) : Img → Nat
  | .chart h => hNpins (s.chart h)
  | .skein _ => hNpins (s.chart (s.chartOf n))

/-- R269: the place after a block; a skein that has ended continues in the next. -/
def State.nextPlace (s : State) (n : Nat) (img : Img) (off : Nat) : Img × Nat :=
  match img with
  | .chart h => (.chart h, off)
  | .skein q => if off * 64 ≥ (s.imgBytes n img).length then (.skein ((q + 1) % 2 ^ 32), 1) else (.skein q, off)

/-- The course after a block. -/
def State.afterBlock (s : State) (n : Nat) (img : Img) (off : Nat) (b : Block) : Nat := off + 1 + b.courses (s.imgPins n img)

/-- R185: stitch time of a decoded block that is still to issue. -/
def decTime (period : Nat → Nat) (ts pos reps : Nat) (b : Block) : Nat :=
  let times := if b.op = 0x02 ∨ b.op = 0x11 then b.count else 1
  (b.len * times - (b.len * reps + pos)) * period (if b.op = 0x0B then b.tset else ts)

/-- R185: the stitch time of decoded blocks, the first of them issued as far as pos and reps say, and the timing set after them. -/
def aheadOf (period : Nat → Nat) (ts pos reps : Nat) (q : List Dec) : Nat × Nat :=
  let go := fun (a : Nat × Nat × Bool) (d : Dec) =>
    let ts := if d.blk.op = 0x0B then d.blk.tset else a.2.1
    (a.1 + decTime period a.2.1 (if a.2.2 then pos else 0) (if a.2.2 then reps else 0) d.blk, ts, false)
  let x := q.foldl go (0, ts, true)
  (x.1, x.2.1)

/-- R185: the stitch time that stands decoded ahead of the timing channels, and the timing set after it. -/
def State.aheadTime (s : State) (n : Nat) : Nat × Nat :=
  let r := s.ndl n
  aheadOf (s.period n) (s.status n F.ndlStatusTset) r.pos r.reps r.queue

/-- R264: what has been issued and is in no open loop returns to the credit where nothing of it is left to issue. -/
def State.ringSettle (s : State) (n : Nat) : State :=
  let r := s.ndl n
  if !r.queue.isEmpty || !r.held.isEmpty then s else
  match r.cursor with
  | some (.skein q, off) =>
    if r.loops.any (fun l => match l.1 with | .skein _ => true | _ => false) then s
    else if (s.skein n q).isSome then s.ringReturn n q off
    else match r.ring.getLast? with
      | some k => if (k.seq + 1) % 2 ^ 32 = q then s.ringReturn n k.seq k.courses else s
      | none => s
  | _ => s

/-- R216: a block lies in a loop body of at most 8,192 courses that has run once: it comes from the prefetch buffer. -/
def State.replaying (s : State) (n : Nat) (img : Img) (off : Nat) : Bool :=
  (s.ndl n).loops.any (fun l => l.1 == img &&
    (let b := decodeBlock (courseAt (s.imgBytes n img) l.2.1)
     decide (l.2.1 < off ∧ off ≤ b.target ∧ l.2.2 < b.count ∧ b.target - (l.2.1 + 1) ≤ 8192)))

/-! The branch buffer (R214). -/

/-- The decoder's place and blocks. -/
def NdlRt.path (r : NdlRt) : Ahead := ⟨r.queue, r.cursor, r.resume, r.ringSeq, r.ringOff, r.loops, r.calls, r.wait⟩

/-- The decoder at another place. -/
def NdlRt.at (r : NdlRt) (a : Ahead) : NdlRt :=
  { r with queue := a.queue, cursor := a.cursor, resume := a.resume, ringSeq := a.ringSeq, ringOff := a.ringOff, loops := a.loops, calls := a.calls, wait := a.wait }

/-- R214: behind a decision the branch buffer begins at its TARGET and at the block after it. -/
def NdlRt.fork (r : NdlRt) (d : Dec) : NdlRt :=
  let next := { r.path with queue := [], wait := false }
  { r with ahead := some ({ next with cursor := some (d.img, d.blk.target) }, next) }

/-- R159 to R164, R183, R217: where the decoder goes from a block, and whether the block waits in the queue for issue; the loop stack has 8 entries, the call stack 16. -/
def State.decodeMove (s : State) (n : Nat) (img : Img) (off : Nat) (b : Block) : State :=
  let r := s.ndl n
  let nx := s.nextPlace n img (s.afterBlock n img off b)
  let outer := ((r.loops.filter (fun l => l.1 == img)).getLast?.map (·.2.1)).getD 0
  let d : Dec := ⟨img, off, b, r.loops.length, r.calls.length, match img with | .skein _ => outer | _ => 0, r.decodedAt, (r.ringSeq, r.ringOff), s.replaying n img off, r.past⟩
  let past := match img with | .skein _ => max r.past (off + 1) | .chart _ => 0
  let goto := fun (p : Option (Img × Nat)) => s.setNdl n { r with cursor := p }
  let put := fun (p : Option (Img × Nat)) (w : Bool) => s.setNdl n { r with queue := r.queue ++ [d], cursor := p, wait := w, past := 0 }
  match b.op with
  | 0x03 =>
    if b.count = 0 then goto (some (s.nextPlace n img (b.target + 1)))
    else s.setNdl n { r with past := past, cursor := some nx, loops := ((img, off, b.count) :: r.loops).take 8 }
  | 0x04 =>
    match r.loops with
    | (i, o, left) :: t => if left ≤ 1 then s.setNdl n { r with past := past, cursor := some nx, loops := t } else s.setNdl n { r with past := past, cursor := some (i, o + 1), loops := (i, o, left - 1) :: t }
    | [] => goto (some nx)
  | 0x05 => s.setNdl n { r with cursor := some (if bit b.arg 15 then .chart (b.arg % 1024) else img, b.target), calls := (nx :: r.calls).take 16 }
  | 0x06 => match r.calls with | p :: t => s.setNdl n { r with cursor := some p, calls := t } | [] => goto none
  | 0x07 => goto (some (img, b.target))
  | 0x08 | 0x09 | 0x0A => s.setNdl n (({ r with queue := r.queue ++ [d], cursor := some nx, wait := true } : NdlRt).fork d)
  | 0x12 =>
    match img with
    | .chart _ => s.setNdl n { r with queue := r.queue ++ [d], cursor := some (.skein r.ringSeq, r.ringOff), resume := some (img, b.target) }
    | .skein q => if bit b.flags 0 then put (some nx) false
      else s.setNdl n { r with queue := r.queue ++ [d], cursor := r.resume, resume := none, ringSeq := (q + 1) % 2 ^ 32, ringOff := 1 }
  | 0xFF => put none true
  | _ => put (some nx) false

/-- R507: a needle reads a segment from the Stitch Cache: it is resident, and no switch of it is pending for the needle. -/
def State.cached (s : State) (n h course : Nat) : Bool :=
  let g := s.segOf h course
  s.plc.resident.contains (segKey h g) && !s.plc.switches.any (fun c => c.handle == h && c.seg == g && bit c.needles n)

/-- R858: the Stitch Cache read of a course of a chart, where its segment is resident; the answer says whether the needle has been frogged. The course's number in the
cache is a free value (notes/assumptions/3.md). -/
def State.cacheRead (s : State) (n : Nat) (img : Img) (course : Nat) : Bool × State :=
  match img with
  | .skein _ => (false, s)
  | .chart h =>
    if !s.cached n h course then (false, s) else
    let (k, s) := s.checked Ev.scEccU n
    if k = 0 then (false, s)
    else
      let at' := Config.freeValue s.freeCtr
      let s := s.draw
      if k = 1 then (false, s.raise Ev.scEccC 0xFFFF n 1 at' (some 0) false) else (true, s.frogFault n Ev.scEccU 1 at')

/-- R215, R216: a needle takes a course: from the prefetch buffer where it was read ahead or is replayed, else from its residence, from which it enters the buffer. -/
def State.takeCourse (s : State) (n : Nat) (img : Img) (course : Nat) (replay used : Bool) : Bool × State :=
  let p := (s.ndl n).pre
  let here := p.any (fun h => h.img == img && h.course == course && (replay || !h.used))
  let keep := p.filter (fun h => !(h.img == img && h.course == course))
  let s' := if here then (false, s) else s.cacheRead n img course
  if s'.1 then (true, s'.2) else (false, s'.2.setNdl n { s'.2.ndl n with pre := lastN 16384 (keep ++ [⟨img, course, used⟩]) })

/-- R208, R210: the first 64 courses from ENTRY in address order, or as many as the image has, read from q + 10 to q + 41. -/
def State.castRead (s : State) (n : Nat) : Bool × State :=
  let h := s.chartOf n
  let e := hEntry (s.chart h)
  let q := (s.ndl n).q
  (List.range (min 64 ((s.chart h).length / 64 - e))).foldl (fun (a : Bool × State) i =>
    if a.1 then a else (a.2.reach (q + (10 + i / 2) * vclkFs)).takeCourse n (.chart h) (e + i) false false) (false, s.setNdl n { s.ndl n with warm := true })

/-- R150, R244, R245, R247, R250: a header decoded, after its checkers: its course, its CRC, and the one microword that the dispatch table gives its OP. -/
def State.decodeAt (s : State) (n : Nat) (img : Img) (off : Nat) : State :=
  let (dead, s) := s.takeCourse n img off (s.replaying n img off) true
  if dead then s else
  let c := courseAt (s.imgBytes n img) off
  let b := decodeBlock c
  let (k, s) := s.checked Ev.chartCrc n
  if k ≠ 0 || !blockCrcOk c then s.frogFault n Ev.chartCrc 4 off else
  let u := s.trapped b.op
  let (k, s) := s.checked Ev.ucodeParity n
  if k ≠ 0 || s.uBad u then s.frogFault n Ev.ucodeParity 4 u else
  let s := s.setNdl n { s.ndl n with uaddr := u }
  let s := s.ndlTraceAt n 1 u b.op off
  let s := if u = b.op then s else s.ndlTraceAt n 11 b.op b.op off
  s.decodeMove n img off b

/-- R185, R214: a path on which the decoder can go on: it has a place in an image and less than 64 VCLK of stitch time. -/
def State.canDecode (s : State) (n ts pos reps : Nat) (a : Ahead) : Bool :=
  !a.wait && (a.queue.isEmpty || decide ((aheadOf (s.period n) ts pos reps a.queue).1 < 64 * vclkFs)) &&
  (match a.cursor with | some (img, off) => decide (off * 64 < (s.imgBytes n img).length) | none => false)

/-- R214: one header decoded into the branch buffer, on TARGET's path or the other. -/
def State.decodeAhead (s : State) (n : Nat) (target : Bool) (a b : Ahead) (place : Img × Nat) : State :=
  let main := (s.ndl n).path
  let s := (s.setNdl n ((s.ndl n).at (if target then a else b))).decodeAt n place.1 place.2
  if !s.busyNeedle n then s else
  let c := (s.ndl n).path
  s.setNdl n { (s.ndl n).at main with ahead := some (if target then (c, b) else (a, c)) }

/-- R185, R208, R214: BLOCK_DECODE: the needle decodes the next header, from q + 42 VCLK on, one a VCLK, at most 64 VCLK of stitch time ahead; behind a decision it fills
the branch buffer, TARGET's path first (notes/assumptions/53.md). -/
def runBlockDecode (needle : Nat) (s : State) : Res :=
  let r := s.ndl needle
  if !s.busyNeedle needle || decide (s.now < r.q + vclkFs) then .next s else
  let (dead, s) := if r.warm then (false, s) else s.castRead needle
  if dead then .next s else
  let r := s.ndl needle
  let t := r.decodedAt + vclkFs
  let go := fun (_ : Unit) => (s.reach t).setNdl needle { (s.reach t).ndl needle with decodedAt := max t (s.edgeBefore vclkFs (max s.now t)) }
  let (_, ts) := s.aheadTime needle
  if s.canDecode needle (s.status needle F.ndlStatusTset) r.pos r.reps r.path then
    (match r.cursor with | some p => .next (((go ()).decodeAt needle p.1 p.2).ringSettle needle) | none => .next s)
  else match r.ahead with
    | none => .next s
    | some (a, b) =>
      if s.canDecode needle ts 0 0 a then (match a.cursor with | some p => .next ((go ()).decodeAhead needle true a b p) | none => .next s)
      else if s.canDecode needle ts 0 0 b then (match b.cursor with | some p => .next ((go ()).decodeAhead needle false a b p) | none => .next s)
      else .next s

end Sys2Proof.Machine
end

