-- ==== Sys2Proof/Machine/Issue.lean ====
section
/-! DEFINITION. The needle's issue (R18, R153 to R184, R211 to R220, R224, R231, R232, R272 to R279): slots, actions, stitches, decisions, seams, stalls. -/
namespace Sys2Proof.Machine

/-! Slots (R212, R218). -/

/-- R212: the issue edge of a stitch that starts at an instant. -/
def State.issueEdge (s : State) (t : Nat) : Nat := s.edgeBefore vclkFs t - 4 * vclkFs

/-- R272: an image's blocks have arrived for an issue edge; a skein that has left the ring has. -/
def State.arrived (s : State) (n e : Nat) (img : Img) : Bool :=
  match img with
  | .chart _ => true
  | .skein q => match s.skein n q with
    | some k => decide (k.valid + 320 * vclkFs ≤ e)
    | none => let ago := (s.rd Obj.strNextSeq n + 2 ^ 32 - q) % 2 ^ 32; decide (0 < ago ∧ ago < 2 ^ 31)

/-- A block of LEN 0 whose action waits for the issue edge of the next stitch (R155). -/
def Dec.waits (d : Dec) : Bool := d.blk.len == 0 && [0x0C, 0x0D, 0x0E, 0x10, 0x13, 0x14, 0xFE].contains d.blk.op

/-- R155, R224: a front block of LEN 0 whose action waits leaves the queue for the issue edge of the next stitch; a MARK that breaks waits for that edge as a breakpoint. -/
def State.holdFront (s : State) (n : Nat) (d : Dec) : State :=
  let r := { s.ndl n with queue := (s.ndl n).queue.drop 1, acted := false, pos := 0, reps := 0 }
  if d.blk.op = 0xFE ∧ bit d.blk.flags 2 = true ∧ s.rd Obj.ndlBreakEn n = 1 then s.setNdl n { r with brk := some d.blk.arg }
  else s.setNdl n { r with held := r.held ++ [d] }

/-- The blocks of LEN 0 at the front of the queue wait, up to a breakpoint. -/
def State.holdAll : Nat → Nat → State → State
  | 0, _, s => s
  | k + 1, n, s =>
    match (s.ndl n).queue with
    | d :: _ => if d.waits && (s.ndl n).brk.isNone then State.holdAll k n (s.holdFront n d) else s
    | [] => s

/-- The timing set of the next stitch among decoded blocks, and whether a seam comes before it. -/
def slotWalk : Bool → List Dec → Nat → Nat × Bool
  | _, [], ts => (ts, false)
  | acted, d :: t, ts =>
    if d.blk.op = 0x0F then (ts, true)
    else if d.blk.op = 0x0B then (if acted then (ts, false) else if d.blk.len = 0 then slotWalk false t d.blk.tset else (d.blk.tset, false))
    else if d.waits || d.blk.op == 0x12 then slotWalk false t ts
    else (ts, false)

/-- R272, R856: a decoded block has not arrived for an issue edge. -/
def State.absent (s : State) (n e : Nat) (d : Dec) : Bool := !s.arrived n e d.img || (match d.img with | .skein _ => decide (e < d.edge) | .chart _ => false)

/-- R272, R856: the next stitch that the needle needs has not arrived for an issue edge, as far as the decoded blocks tell; `joins` looks past a STREAM_JOIN. -/
def State.missingIn (s : State) (n e : Nat) (joins : Bool) : List Dec → Bool
  | d :: t =>
    if s.absent n e d then true
    else if d.waits || (d.blk.op == 0x0B && d.blk.len == 0) || (joins && d.blk.op == 0x12) then State.missingIn s n e joins t
    else false
  | [] =>
    match (s.ndl n).cursor with
    | some (img, _) => !s.arrived n e img || (match img with | .skein _ => decide (e < (s.ndl n).decodedAt + vclkFs) | .chart _ => false)
    | none => false

/-- R272: the next stitch that the needle needs has not arrived for an issue edge. -/
def State.missing (s : State) (n e : Nat) (joins : Bool) : Bool := s.missingIn n e joins (s.ndl n).queue

/-- The next stitch slot of a needle: whether a seam comes first, the start, the period, the issue edge. In a stall, and where the next stitch is missing, the slots go on
under the set in force. -/
def State.slot (s : State) (n : Nat) : Bool × Nat × Nat × Nat :=
  let r := s.ndl n
  let ts := s.status n F.ndlStatusTset
  let at' := fun (w : Nat × Bool) => let p := s.period n w.1; let t := s.periodEdge p r.t0; (w.2, t, p, s.issueEdge t)
  if s.ndlState n = 5 then at' (ts, false) else
  let x := at' (slotWalk r.acted r.queue ts)
  if s.missing n x.2.2.2 false then at' (ts, false) else x

/-! Stitches (R143, R153, R182, R298, R308). -/

/-- R182: the copy from which a pin takes its code. -/
def copyOf (b : Block) (site : Nat) : Nat :=
  if b.op = 0x11 ∧ site < 64 ∧ bit b.ext site = true then 1 + popcount site b.ext else 0

/-- R308, R311: what one chart pin does in a stitch that starts at t1: its drive edges, and its strobes where they are not suppressed. -/
def State.pinStitch (s : State) (n t1 p c : Nat) (masked : Bool) : List Strobe × State :=
  let s := (wEdges c).foldl (fun s e => s.driveEdge n p t1 e) s
  (if masked then [] else s.strobesOf p (s.pinSite n p) t1 c, s)

/-- R203, R211, R251, R315, R440: what the first stitch after cast-on or after a resume brings. -/
def State.firstStitch (s : State) (n t1 op course : Nat) : State :=
  let r := s.ndl n
  let s := if r.castOn then
      let s := ((s.wr Obj.ndlCastonWait n (t1 - (r.q + 64 * vclkFs))).ageFrom n (some t1)).ndlTrace n 0 op course
      (s.chartPins n).foldl (fun s p => if s.rd Obj.ptfPinState p = 0 then s else s.wr Obj.ptfPinState p 2) s
    else s
  let s := if r.resumed then s.ndlTrace n 5 op course else s
  let gap := if r.fresh then some (0, t1, r.castOn) else if r.t0 < t1 then some (r.t0, t1, false) else r.gap
  let s := s.setNdl n { s.ndl n with castOn := false, resumed := false, gap := gap }
  if s.ndlState n = 3 then s.wr Obj.ndlState n 4 else s

/-- R256: LOOP_DEPTH, CALL_DEPTH and OVERLAY_ACTIVE at a block; it becomes the block last reached. -/
def State.noteBlock (s : State) (n : Nat) (d : Dec) : State :=
  let s := (s.setStatus n F.ndlStatusLoopDepth d.loops).setStatus n F.ndlStatusCallDepth d.calls
  (s.setStatus n F.ndlStatusOverlayActive (d.blk.op == 0x11).toNat).setNdl n { s.ndl n with last := (d.blk.op, d.off) }

/-- R256: NDL.STATUS and the place of the last issued stitch follow a stitch of a block's payload course. -/
def State.noteStitch (s : State) (n course : Nat) (d : Dec) : State :=
  let s := (s.noteBlock n d).setStatus n F.ndlStatusCourse d.off
  match d.img with
  | .chart h =>
    let g := s.segOf h course
    let ext := h != s.chartOf n
    let s := ((s.setStatus n F.ndlStatusSegment g).setStatus n F.ndlStatusExternal ext.toNat).setStatus n F.ndlStatusHandle (if ext then h else 0)
    s.setNdl n { s.ndl n with lastSeg := some (h, g) }
  | .skein _ => ((s.setStatus n F.ndlStatusExternal 0).setStatus n F.ndlStatusHandle 0).setNdl n { s.ndl n with lastSeg := none }

/-- The payload course that holds stitch k of the base copy. -/
def payloadCourse (off npins k : Nat) (b : Block) : Nat := off + 1 + k * stitchWidth npins (bppBits b.bpp) / 512

/-- R264, R285: the ring after a stitch of a skein's block: courses leave AHEAD with the first stitch that they hold, loop headers with the first stitch after them, and return to the credit with their last. -/
def State.ringStitch (s : State) (n k : Nat) (d : Dec) (npins : Nat) : State :=
  match d.img with
  | .chart _ => s
  | .skein q =>
    let w := stitchWidth npins (bppBits d.blk.bpp)
    let s := s.ringIssue n q (max d.past (d.off + 1 + d.blk.copies * ceilDiv ((k + 1) * w) 512))
    if d.outer ≠ 0 then s.ringReturn n q d.outer
    else if d.blk.op = 0x02 ∨ d.blk.op = 0x11 then s.ringReturn n q d.off
    else s.ringReturn n q (payloadCourse d.off npins (k + 1) d.blk)

/-- A block of a skein has been issued whole. -/
def State.ringBlock (s : State) (n : Nat) (d : Dec) : State :=
  match d.img with
  | .chart _ => s
  | .skein q =>
    let nx := s.afterBlock n d.img d.off d.blk
    (s.ringIssue n q nx).ringReturn n q (if d.outer ≠ 0 then d.outer else nx)

/-- The front block leaves the queue. -/
def State.popFront (s : State) (n : Nat) (d : Dec) : State :=
  let r := s.ndl n
  ((s.setNdl n { r with queue := r.queue.drop 1, acted := false, pos := 0, reps := 0 }).ringBlock n d).ringSettle n

/-- R165: the pass of a MATCH that a stitch belongs to, begun or carried on. The spec does not say which instant of the last stitch decides in a pass without a strobe:
DESIGN CHOICE, its start at the DRV balls (notes/assumptions/54.md). -/
def notePass (ps : List Pass) (n t1 active : Nat) (first last : Bool) (ss : List Strobe) : List Pass :=
  let ps := if first then ps ++ [(⟨n, 0, false, 0, 0⟩ : Pass)] else ps
  ps.map (fun (p : Pass) => if p.n = n then
    let l := ss.foldl (fun a x => max a x.t) p.last
    { p with last := if last && l == 0 then t1 else l, strobed := p.strobed || ss.any (fun x => decide (x.site < 64) && bit active x.site), waiting := p.waiting + (!ss.isEmpty).toNat }
    else p)

/-- R153 to R155, R165, R184, R224: after a stitch of the front block: its place moves on, and a finished block leaves the queue. -/
def State.advance (s : State) (n e t1 p : Nat) (d : Dec) : State :=
  let r := s.ndl n
  if r.pos + 1 < d.blk.len then s.setNdl n { r with pos := r.pos + 1 }
  else
    let reps := r.reps + 1
    let s := s.setNdl n { r with pos := 0, reps := reps }
    match d.blk.op with
    | 0x02 | 0x11 => if reps ≥ d.blk.count then s.popFront n d else s
    | 0x08 | 0x0A => s
    | 0xFE =>
      let s := s.popFront n d
      if bit d.blk.flags 2 && s.rd Obj.ndlBreakEn n == 1 then s.setNdl n { s.ndl n with brk := some d.blk.arg } else s
    | 0xFF =>
      let s := (s.ndlTrace n 8 0xFF d.off).dropJump n
      let s := s.popFront n d
      s.setNdl n { s.ndl n with bound := some (t1 + p, e), freeze := none, cursor := none }
    | _ => s.popFront n d

/-- The waves' edges of all pins of a stitch, and its strobes. -/
def State.allPins (s : State) (n t1 : Nat) (wave : Nat → Nat → Nat) (masked : Nat → Bool) : List Strobe × State :=
  ((s.chartPins n).zipIdx).foldl (fun (a : List Strobe × State) (x : Nat × Nat) =>
    let (ss, s) := a.2.pinStitch n t1 x.1 (wave x.2 x.1) (masked x.1)
    (a.1 ++ ss, s)) ([], s)

/-- R143, R182: the courses that a stitch of a payload touches first, of every copy. -/
def newCourses (off npins k : Nat) (b : Block) : List Nat :=
  let w := stitchWidth npins (bppBits b.bpp)
  let lo := ceilDiv (k * w) 512
  let hi := ((k + 1) * w - 1) / 512
  (List.range (b.copies + 1)).flatMap (fun c => (List.range (hi + 1 - lo)).map (fun i => off + 1 + c * stitchCourses npins b.bpp b.len + lo + i))

/-- R216: the courses of the next stitch are taken: once for a payload of at most 8,192 courses, on each repetition for a longer one. The answer says whether a checker frogged the needle. -/
def State.loadStitch (s : State) (n : Nat) (d : Dec) : Bool × State :=
  let r := s.ndl n
  let npins := s.imgPins n d.img
  if r.reps ≠ 0 ∧ d.blk.courses npins ≤ 8192 then (false, s)
  else (newCourses d.off npins r.pos d.blk).foldl (fun (a : Bool × State) c => if a.1 then a else a.2.takeCourse n d.img c d.replay true) (false, s)

/-- R338, R858: the wave and selector reads of a stitch: a wave for every pin, and a selector for every pin that takes a 2-bit code of the chart. -/
def State.waveRead (s : State) (n bpp : Nat) : Bool × State :=
  let pins := s.chartPins n
  let lanes := ((members 2 (s.ndl n).streams).flatMap (fun i => s.rasLanes i 0 false false false)).map (·.1)
  let (k, s) := s.checkedMany Ev.waveParity n (pins.length + if bpp = 0 then (pins.filter (fun p => !lanes.contains p)).length else 0)
  if k ≠ 0 then (true, s.frogFault n Ev.waveParity 1 0) else (false, s)

/-- One payload stitch of the front block, issued on edge e, starting at t1 under a period. -/
def State.issueStitch (s : State) (n e t1 p : Nat) (d : Dec) : State :=
  let r := s.ndl n
  let npins := s.imgPins n d.img
  let course := payloadCourse d.off npins r.pos d.blk
  let s := s.firstStitch n t1 d.blk.op d.off
  let idx := s.stitches n
  let timg := s.img Obj.ptfWaveTable (waveEl n (s.status n F.ndlStatusTset))
  let bytes := s.imgBytes n d.img
  let (lanes, s) := (members 2 (s.ndl n).streams).foldl (fun (a : List (Nat × Nat) × State) i =>
    let (l, s) := a.2.rasDot i e idx
    (a.1 ++ l, s)) ([], s)
  let wave := fun j pin =>
    match lanes.find? (fun l => l.1 == pin) with
    | some (_, w) => waveFor timg j w 1
    | none => waveFor timg j (codeAt d.blk (stitchWord bytes d.off d.blk npins (copyOf d.blk (s.pinSite n pin)) r.pos) j) d.blk.bpp
  let masked := fun pin => let i := s.pinSite n pin; r.maskCmp && decide (i < 64) && !bit r.active i
  let (ss, s) := s.allPins n t1 wave masked
  let r := s.ndl n
  let pass := if d.blk.op = 0x08 then r.reps + 1 else 0
  let passes := if pass = 0 then r.passes else notePass r.passes pass t1 r.active (r.pos == 0) (decide (r.pos + 1 ≥ d.blk.len)) ss
  let st : Stitch := ⟨idx, ss, r.active, pass, bit d.blk.flags 1, s.status n F.ndlStatusTset, d.off⟩
  let s := s.setNdl n { r with passes := passes, strobes := if ss.isEmpty && r.streams == 0 then r.strobes else r.strobes ++ [st], t0 := t1 + p, fresh := false, pause := false, stallFrom := none, stallUsed := 0 }
  let s := (s.wr Obj.ndlStitchCount n ((idx + 1) % 2 ^ 64)).noteStitch n course d
  let s := s.ringStitch n r.pos d npins
  ((s.advance n e t1 p d).popEmpty (s.ndl n).strobes.length n).flushEdges n

/-- R275, R338: one idle stitch. -/
def State.idleStitch (s : State) (n t1 p : Nat) : State :=
  let (dead, s) := s.waveRead n 1
  if dead then s else
  let s := s.firstStitch n t1 (s.blockOf n).1 (s.blockOf n).2
  let timg := s.img Obj.ptfWaveTable (waveEl n (s.status n F.ndlStatusTset))
  let codes := s.rd Obj.strIdleStitch n
  let (_, s) := s.allPins n t1 (fun j _ => waveFor timg j (Fld.get ⟨4 * j, 4⟩ codes) 1) (fun _ => true)
  let s := s.setNdl n { s.ndl n with t0 := t1 + p, fresh := false, lastSeg := none }
  (s.strCount n 2 1).flushEdges n

/-! Actions (R18, R155, R172 to R181, R220, R853). -/

/-- R172, R218, R220: SET_TSET. Where a second one names the set of a first with no stitch between, the spec does not say whether that set is in force already:
DESIGN CHOICE, each reports and counts the gap from the end of the last stitch (notes/assumptions/55.md). -/
def State.setTset (s : State) (n : Nat) (d : Dec) : State :=
  let r := s.ndl n
  let gap := if r.fresh then 0 else s.periodEdge (s.period n d.blk.tset) r.t0 - r.t0
  let s := ((s.wr Obj.ndlTsetGap n gap).setStatus n F.ndlStatusTsetGap (decide (0 < gap)).toNat).setStatus n F.ndlStatusTset d.blk.tset
  let s := if gap = 0 then s else (s.ndlCount n 5).ndlTrace n 10 0x0B d.off
  if d.blk.len = 0 then s.popFront n d else s.setNdl n { s.ndl n with acted := true }

/-- R174, R175, R602: the SUPPLY entries of a block on their way: among entries due on one edge those of higher-numbered needles come last. -/
def State.supplyBlock (s : State) (n e : Nat) (b : Block) : State :=
  let es := ((List.range 8).map (entry48 b)).filter (fun x => bit x 7)
  let mine := es.map (fun x => (⟨e + 16 * vclkFs, n, x % 32, Fld.get ⟨5, 2⟩ x, toSigned 32 (Fld.get ⟨16, 32⟩ x)⟩ : SupplyEntry))
  let q := s.psm.supply
  let late := q.filter (fun x => x.due == e + 16 * vclkFs && decide (n < x.needle))
  { s with psm := { s.psm with supply := q.filter (fun x => !late.contains x) ++ mine ++ late } }

/-- R181, R853: SITE_MASK, at the start t1 of the next stitch. -/
def State.siteMask (s : State) (n t1 : Nat) (b : Block) : State :=
  let act := (b.ext % 2 ^ 64) &&& s.rd Obj.ndlSites n
  let md := bit b.arg 0
  let s := s.setNdl n { s.ndl n with active := act, maskDrive := md, maskCmp := bit b.arg 1 }
  (s.chartPins n).foldl (fun s p => let i := s.pinSite n p; s.maskPin n p t1 (md && decide (i < 64) && !bit act i)) s

/-- R178, R549, R550: RASTER on its issue edge e. -/
def State.rasterBlock (s : State) (n e : Nat) (b : Block) : State :=
  let i := b.arg % 2
  let s := if bit b.arg 1 then s.rasAttach n i e else if bit (s.ndl n).streams i then s.rasStop n i else s
  s.setStatus n F.ndlStatusRasterAttached (decide ((s.ndl n).streams ≠ 0)).toNat

/-- R155: the action of a block on its issue edge e; the next stitch starts at t1. -/
def State.act (s : State) (n e t1 : Nat) (b : Block) : State :=
  match b.op with
  | 0x0C => s.levels n e b
  | 0x0D => s.supplyBlock n e b
  | 0x0E => s.taeChart (b.arg % 256) e
  | 0x10 => s.siteMask n t1 b
  | 0x13 => s.signal (b.arg % 256) (b.arg / 256 % 16) e
  | 0x14 => s.rasterBlock n e b
  | 0xFE => s.setStatus n F.ndlStatusMarkId b.arg
  | _ => s

/-- R155: the actions that wait for the issue edge e of the next stitch, which starts at t1, in block order. -/
def State.actHeld (s : State) (n e t1 : Nat) : State :=
  (s.ndl n).held.foldl (fun (s : State) (d : Dec) => s.act n e t1 d.blk) s |> fun s => s.setNdl n { s.ndl n with held := [] }

/-- R183, R269, R274, R284: STREAM_JOIN is passed. -/
def State.passJoin (s : State) (n : Nat) (d : Dec) : State :=
  let s := match d.img with
    | .chart _ => s.wr Obj.strState n 2
    | .skein _ => if bit d.blk.flags 0 then s else s.wr Obj.strState n 1
  let s := if bit d.blk.flags 0 then s.setNdl n { s.ndl n with pause := true } else s
  s.popFront n d

/-! Decisions (R165 to R171). -/

/-- R214: a decision is left, for its target or for the next block: the branch buffer's blocks of that path are the next to issue, the others are discarded. -/
def State.leave (s : State) (n : Nat) (d : Dec) (taken : Bool) : State :=
  let s := s.ndlTrace n 2 d.blk.op (if taken then d.blk.target else s.afterBlock n d.img d.off d.blk)
  let r := { s.ndl n with acted := false, pos := 0, reps := 0, passes := [], ahead := none }
  match (s.ndl n).ahead with
  | some (a, b) =>
    let r := r.at (if taken then a else b)
    s.setNdl n (match r.queue.getLast? with | some d => if r.wait && d.blk.op != 0xFF then r.fork d else r | none => r)
  | none => s.setNdl n { r with queue := r.queue.drop 1, wait := false, cursor := if taken then some (d.img, d.blk.target) else r.cursor }

/-- R165, R166: at the payload boundary whose next stitch would start at t1: some true leave for TARGET, some false leave for the next block, none go on with a pass;
the outer none: strobes that decide are not evaluated yet. -/
def matchDecision (b : Block) (active t1 : Nat) : List Pass → Option (Option Bool)
  | [] => some none
  | p :: t =>
    if p.n > b.count ∨ t1 < p.last + 14 * vclkFs then some none
    else if p.waiting > 0 then none
    else if passMatches (b.arg % 2) active p then some (some false)
    else if p.n = b.count then some (some true)
    else matchDecision b active t1 t

/-- R171: the same for WAIT_EVENT at a boundary whose next stitch would be issued on edge e after so many passes. -/
def waitDecision (b : Block) (latch : Option Nat) (e reps : Nat) : Option Bool :=
  if (match latch with | some l => decide (l + 3 * vclkFs ≤ e) | none => false) then some false
  else if b.count ≥ 1 ∧ reps ≥ b.count then some true else none

/-- R211, R218, R26: the start of the first stitch of decoded blocks that a needle comes to at t0 under a timing set; none where they hold none. -/
def State.pathStart (s : State) (n : Nat) : List Dec → Nat → Nat → Option Nat
  | [], _, _ => none
  | d :: t, ts, t0 =>
    if d.blk.op = 0x0F then State.pathStart s n t ts (t0 + 1024 * vclkFs)
    else if d.blk.op = 0x0B then
      (let t1 := s.periodEdge (s.period n d.blk.tset) t0
       if d.blk.len = 0 then State.pathStart s n t d.blk.tset t1 else some t1)
    else if d.waits || d.blk.op == 0x12 then State.pathStart s n t ts t0
    else some (s.periodEdge (s.period n ts) t0)

/-- R169: the start of the first stitch after a BRANCH_FAIL whose own slot starts at t1; none while the branch buffer is to be filled. Where the two paths start
differently the earlier counts (DESIGN CHOICE, notes/assumptions/53.md). -/
def State.branchStart (s : State) (n t1 : Nat) : Option Nat :=
  match (s.ndl n).ahead with
  | none => some t1
  | some (a, b) =>
    let ts := s.status n F.ndlStatusTset
    let start := fun (c : Ahead) => s.pathStart n c.queue ts (s.ndl n).t0
    if [a, b].any (fun c => (start c).isNone && s.canDecode n ts 0 0 c) then none
    else match start a, start b with
      | some x, some y => some (min x y)
      | some x, none => some x
      | none, some y => some y
      | none, none => some t1

/-- R169: BRANCH_FAIL in a slot that starts at t1; none while a strobe that it observes is not evaluated. Flags of observed strobes count also where they have not reached the needle. -/
def State.branch (s : State) (n t1 : Nat) (d : Dec) : Option State :=
  let r := s.ndl n
  match s.branchStart n t1 with
  | none => none
  | some t1 =>
    let seen := fun (t : Nat) => decide (t + 14 * vclkFs ≤ t1)
    if r.strobes.any (fun st => st.pass == 0 && st.strobes.any (fun x => seen x.t && decide (x.site < 64) && bit st.active x.site)) then none
    else
      let hit := r.sticky.any seen || r.flags.any (fun f => f.sticky && seen f.t)
      let clear := bit d.blk.arg 0
      let keep := if clear then r.sticky.filter (fun t => !seen t) else r.sticky
      let flags := if clear then r.flags.map (fun (f : Flag) => { f with sticky := f.sticky && !seen f.t }) else r.flags
      let s := (s.setNdl n { r with sticky := keep, flags := flags }).setStatus n F.ndlStatusStickyFail (!keep.isEmpty).toNat
      some (s.leave n d hit)

/-! Stalls and under-runs (R272 to R279). -/

/-- The place of the next block of a needle. -/
def NdlRt.need (r : NdlRt) : Option (Img × Nat) := match r.queue with | d :: _ => some (d.img, d.off) | [] => r.cursor

/-- A skein that must be validated by e − 320 VCLK has not been: whether the next stitch arrives is open until SKEIN_VALIDATED. -/
def State.openArrival (s : State) (n e : Nat) : Bool :=
  match (s.ndl n).skeinIn with | some k => (match k.due with | some t => decide (t + 320 * vclkFs ≤ e) | none => false) | none => false

/-- R276: the level or the end of the sequence has arrived for an issue edge. -/
def State.levelMet (s : State) (n e : Nat) : Bool :=
  match (s.ndl n).need with
  | some (.skein q, off) =>
    let ks := ((s.ndl n).ring.dropWhile (fun k => k.seq != q)).takeWhile (fun k => decide (k.valid + 320 * vclkFs ≤ e))
    let np := hNpins (s.chart (s.chartOf n))
    let total := ks.foldl (fun a k => a + (k.courses - (if k.seq = q then off else 1))) 0
    let ends := fun (k : Skein) => (walk k.data np k.courses k.courses 1).1.any (fun x => decide (k.seq ≠ q ∨ off ≤ x.1) && (x.2.op == 0xFF || (x.2.op == 0x12 && !bit x.2.flags 0)))
    decide (s.rd Obj.strResumeLevel n ≤ total) || ks.any ends
  | _ => true

/-- R276: a stall ends at an issue edge. -/
def State.stallEnds (s : State) (n e : Nat) : Bool := !s.missing n e true && s.levelMet n e

/-- R277: the edge on which a stall expires. -/
def State.stallEdge (s : State) (n : Nat) : Option Nat :=
  let r := s.ndl n
  r.stallFrom.map (fun t => s.edgeAt vclkFs (t + (s.rd Obj.strStallLimit n - r.stallUsed)))

/-- R278: an under-run frog, with commit edge e. -/
def State.underFrog (s : State) (n e : Nat) (expired : Bool) : State :=
  let s := s.count Obj.strUnderrun n F.strUnderrunFrogs F.strUnderrunFrogsSat 1
  let s := ((s.setFld Obj.strUnderrun n F.strUnderrunLastFrog 1).setFld Obj.strUnderrun n F.strUnderrunExpired expired.toNat).setFld Obj.strUnderrun n F.strUnderrunLastStitch (s.stitches n)
  (s.raise Ev.streamUnderrun n n 0 0 (some (2 ^ n)) true).frogAt n e 1

/-- R203, R274: a stall begins at the slot whose issue edge is e; a needle in CASTON is RUNNING before it is STALLED. -/
def State.stallStart (s : State) (n e : Nat) : State :=
  let s := (s.count Obj.strUnderrun n F.strUnderrunStalls F.strUnderrunStallsSat 1).setFld Obj.strUnderrun n F.strUnderrunLastStitch (s.stitches n)
  let s := (((s.wr Obj.ndlState n 4).wr Obj.ndlState n 5).wr Obj.strState n 3).latch Ev.strStall
  let s := s.ndlTrace n 9 (s.blockOf n).1 (s.blockOf n).2
  s.setNdl n { s.ndl n with stallFrom := some e, stallUsed := 0 }

/-- R276: a stall ends. -/
def State.stallEnd (s : State) (n : Nat) : State :=
  (((s.wr Obj.ndlState n 4).wr Obj.strState n 2).latch Ev.strResume).setNdl n { s.ndl n with stallFrom := none, stallUsed := 0 }

/-- R272 to R278: an under-run at a slot. -/
def State.underRun (s : State) (n e t1 p : Nat) : State :=
  if (s.ndl n).pause then
    let s := s.stallStart n e
    if s.rd Obj.strStallLimit n = 0 then s.underFrog n e true else s.idleStitch n t1 p
  else s.underFrog n e false

/-! Host jumps (R229 to R233). -/

/-- R231: the next stitch of the front block lies in another segment of the image of the last issued stitch. -/
def State.atBoundary (s : State) (n : Nat) (d : Dec) : Bool :=
  match (s.ndl n).lastSeg, d.img with
  | some (h, g), .chart h' => h == h' && g != s.segOf h (payloadCourse d.off (s.imgPins n d.img) (s.ndl n).pos d.blk)
  | _, _ => false

/-- R231 to R233, R214: the jump to an entry is taken at a boundary; decoded blocks are discarded, and a skein that only the decoder had come to is still to be joined. -/
def State.takeJump (s : State) (n entry : Nat) (deferred : Bool) (op : Nat) : State :=
  let target := s.fld Obj.ndlJumpTable n ⟨32 * entry, 32⟩
  let seg := match (s.ndl n).lastSeg with | some (_, g) => g | none => 0
  let s := s.wr Obj.ndlJumpStatus n (2 + entry * 4 + deferred.toNat * 32 + seg % 2 ^ 20 * 2 ^ 8 + s.stitches n * 2 ^ 32)
  let s := ((s.setStatus n F.ndlStatusJumpPending 0).setStatus n F.ndlStatusOverlayActive 0).setStatus n F.ndlStatusLoopDepth 0
  let s := ((s.setStatus n F.ndlStatusCallDepth 0).latch Ev.ndlJump).ndlTrace n 6 op target
  let r := s.ndl n
  let join := r.queue.find? (fun d => d.blk.op == 0x12 && (match d.img with | .chart _ => true | .skein _ => false))
  let place := match join with | some d => d.place | none => (r.ringSeq, r.ringOff)
  s.setNdl n { r with jump := none, queue := [], ahead := none, cursor := some (.chart (s.chartOf n), target), loops := [], calls := [], resume := none, wait := false, acted := false, pos := 0, reps := 0, passes := [], ringSeq := place.1, ringOff := place.2 }

/-! One slot. -/

/-- The front block's payload stitch at a slot: jump, the courses and waves that it reads, the actions due on its edge, the stitch. -/
def State.slotStitch (s : State) (n e t1 p : Nat) (d : Dec) : State :=
  let r := s.ndl n
  let b := s.atBoundary n d
  let ready := match r.jump with | some (_, a, _) => b && decide (a + 3 * vclkFs ≤ e) | none => false
  if ready then (match r.jump with | some (entry, _, df) => s.takeJump n entry df d.blk.op | none => s)
  else
    let s := match r.jump with | some (entry, a, df) => if b then s.setNdl n { r with jump := some (entry, a, df || decide (a ≤ e)) } else s | none => s
    let (dead, s) := s.loadStitch n d
    if dead then s else
    let (dead, s) := s.waveRead n d.blk.bpp
    if dead then s else
    let s := s.actHeld n e t1
    let r := s.ndl n
    let s := if r.acted || r.pos != 0 || r.reps != 0 then s else
        let s := s.act n e t1 d.blk
        s.setNdl n { s.ndl n with acted := true }
    s.issueStitch n e t1 p d

/-- R275 to R277: a slot in a stall, on edge e: the stall ends, an idle stitch is issued, or none where the stall expires first. -/
def State.slotStall (s : State) (n e t1 p : Nat) : Option State :=
  let expiry := s.stallEdge n
  if (match expiry with | some x => decide (x < e) | none => false) then none
  else if s.stallEnds n e then some (s.stallEnd n)
  else if expiry = some e then none
  else some (s.idleStitch n t1 p)

/-- What the needle does next on edge e, its next stitch starting at t1 under a period; none where it cannot go on with what has been decoded and evaluated. -/
def State.slotStep (s : State) (n e t1 p : Nat) : Option State :=
  let r := s.ndl n
  if s.openArrival n e then none
  else match r.brk with
  | some m => some (s.breakAt n e m)
  | none =>
    if s.ndlState n = 5 then s.slotStall n e t1 p
    else if s.missing n e false then some (s.underRun n e t1 p)
    else match r.queue with
      | [] => none
      | d :: _ =>
        if d.blk.op = 0x0B ∧ r.acted = false then some (s.setTset n d)
        else if d.waits then some (s.holdFront n d)
        else if d.blk.op = 0x12 then some (s.passJoin n d)
        else if d.blk.op = 0x09 then s.branch n t1 d
        else if d.blk.op = 0x08 ∧ r.pos = 0 ∧ r.reps > 0 then
          match matchDecision d.blk r.active t1 r.passes with
          | none => none
          | some (some taken) => some (s.leave n d taken)
          | some none => some (s.slotStitch n e t1 p d)
        else if d.blk.op = 0x0A ∧ r.pos = 0 ∧ r.reps > 0 then
          let k := d.blk.arg % 2 ^ 16
          match waitDecision d.blk (Tbl.get (fun _ => none) r.latches k) e r.reps with
          | some taken =>
            let s := if taken then s else s.setNdl n { r with latches := Tbl.put (fun _ => none) r.latches k none }
            some (s.leave n d taken)
          | none => some (s.slotStitch n e t1 p d)
        else some (s.slotStitch n e t1 p d)

/-- The needle can issue: CASTON, RUNNING or STALLED, in no seam, its BIND_OFF stitch not issued. -/
def State.issuing (s : State) (n : Nat) : Bool :=
  [3, 4, 5].contains (s.ndlState n) && (s.ndl n).seam.isNone && (s.ndl n).bound.isNone

/-- R212: everything that the needle does on one edge, up to 8 stitches and the actions between them. -/
def State.issueAll : Nat → Nat → Nat → State → State
  | 0, _, _, s => s
  | f + 1, n, e, s =>
    if !s.issuing n then s else
    let (seam, t1, p, e') := s.slot n
    if seam ∨ e' ≠ e then s
    else match s.slotStep n e t1 p with
      | none => s
      | some s' => State.issueAll f n e s'

/-! Seams (R24 to R33, R180). -/

/-- R26, R28, R125, R250, R436, R507: a seam of a needle begins at an instant t, the end of the last stitch or t0; what is pending is applied on the VCLK edge then, gauges
in RUN only. -/
def State.seamBegin (s : State) (n t : Nat) (bind : Bool) (op course : Nat) : State :=
  let b := s.edgeAt vclkFs t
  let s := (s.reach b).flushEdges n
  let s := ((s.setStatus n F.ndlStatusInSeam 1).ndlCount n 4).ndlTrace n 3 op course
  let s := (if s.mode = .run then s.applyGauges n b else s).applySwitches n b
  (s.setNdl n { s.ndl n with seam := some (t + 1024 * vclkFs, bind) }).runRoutine n 1024

/-- The decoded blocks before a seam that a needle has reached, and the SEAM: SET_TSET and STREAM_JOIN take effect in order, the actions of LEN 0 wait for the next stitch. The first number bounds the search. -/
def State.reachSeam : Nat → Nat → State → Option Dec × State
  | 0, _, s => (none, s)
  | f + 1, n, s =>
    match (s.ndl n).queue with
    | [] => (none, s)
    | d :: _ =>
      if d.blk.op = 0x0F then (some d, (s.popFront n d).noteBlock n d)
      else if d.blk.op = 0x0B then State.reachSeam f n (s.setTset n d)
      else if d.blk.op = 0x12 then State.reachSeam f n (s.passJoin n d)
      else State.reachSeam f n (s.holdFront n d)

/-- R203: the BIND_OFF stitch has ended at the balls: the bind-off seam begins. -/
def State.bindBegin (s : State) (n : Nat) : State :=
  match (s.ndl n).bound, (s.ndl n).seam with
  | some (t, _), none => (s.wr Obj.ndlState n 7).seamBegin n t true (s.ndl n).last.1 (s.ndl n).last.2
  | _, _ => s

/-! Frogs and under-runs on one edge (R235, R239, R279). -/

/-- R235: a frog commit edge of the needle, or the entry edge of SAFE or DUMP, lies at or before an edge. -/
def State.frogBy (s : State) (n e : Nat) : Bool :=
  (s.ndl n).frogs.any (fun f => decide (f.1 ≤ e)) || s.staged.any (fun x => x.obj == Obj.ndlFrog && bit x.els n && decide (x.due ≤ e)) ||
  (match s.fcr.entry with | some x => decide (x.1 ≤ e) | none => false)

/-- R272 to R278: a frog of R278 falls on an edge c, and whether it is the expiry of a stall. -/
def State.underDue (s : State) (n c : Nat) : Option Bool :=
  let (seam, _, _, e) := s.slot n
  if !s.issuing n || s.openArrival n e then none
  else if s.ndlState n = 5 then (if s.stallEdge n = some c ∧ ¬(e = c ∧ s.stallEnds n c = true) then some true else none)
  else if seam || e != c || !s.missing n c false then none
  else if (s.ndl n).pause then (if s.rd Obj.strStallLimit n = 0 then some true else none)
  else some false

/-- R239, R279: where a frog on edge c has come from another cause than an under-run on that edge, the under-run's frog is recorded too. -/
def State.alsoUnder (s before : State) (n c : Nat) : State :=
  if before.busyNeedle n && !s.busyNeedle n then (match before.underDue n c with | some x => s.underFrog n c x | none => s) else s

/-- R234, R239: FROG_COMMIT: the frog of the needle that is due first. -/
def runFrogCommit (needle : Nat) (s : State) : Res :=
  let host := (s.stagedFor Obj.ndlFrog needle).map (fun x => (x.due, 5))
  let all := (match host with | some f => [f] | none => []) ++ (s.ndl needle).frogs
  match all with
  | [] => .next s
  | f :: t =>
    let g := t.foldl (fun a b => if b.1 < a.1 ∨ (b.1 = a.1 ∧ b.2 < a.2) then b else a) f
    let s := s.reach g.1
    let s := match s.stagedFor Obj.ndlFrog needle with
      | some x => if x.due ≤ g.1 then
          let rest := setMinus x.els (2 ^ needle)
          { s with staged := if rest = 0 then s.staged.erase x else s.staged.map (fun y => if y = x then { y with els := rest } else y) }
        else s
      | none => s
    .next ((s.frogAt needle g.1 g.2).alsoUnder s needle g.1)

/-- R213: FAIL_FLAG: the flags of the needle that are due first. -/
def runFailFlag (needle : Nat) (s : State) : Res :=
  match (s.ndl needle).flags with
  | [] => .next s
  | f :: t =>
    let e := t.foldl (fun a b => min a b.due) f.due
    .next (((s.reach e).flagGroup needle e).alsoUnder s needle e)

/-- R212: STITCH_ISSUE: the needle's next issue edge: flags that have reached it, a seam, or up to 8 stitches with the actions between them. On or after its freeze edge, or a
frog commit edge (R235), it issues nothing. -/
def runStitchIssue (needle : Nat) (s : State) : Res :=
  if (s.ndl needle).bound.isSome && (s.ndl needle).seam.isNone && s.busyNeedle needle then .next (s.bindBegin needle)
  else if !s.issuing needle then .next s
  else
    let e := (s.slot needle).2.2.2
    let s0 := s
    let s := (s.deliverFlags (s.ndl needle).flags.length needle e).alsoUnder s0 needle e
    if !s.issuing needle then .next s
    else
      let r := s.ndl needle
      let (seam, _, _, e) := s.slot needle
      if s.frogBy needle e then .next s
      else if seam then
        let (d, s) := s.reachSeam r.queue.length needle
        .next (match d with | some d => s.seamBegin needle (s.ndl needle).t0 false 0x0F d.off | none => s)
      else if (match r.freeze with | some f => decide (f ≤ e) | none => false) then .next s
      else .next ((s.reach e).issueAll 64 needle e)

/-- R26, R203: SEAM_END: the seam in progress ends; a bind-off seam leaves the needle DONE. For the sequencer a seam before more stitches ends 4 VCLK before its end at
the balls, when the next stitch may be issued (R212). -/
def runSeamEnd (needle : Nat) (s : State) : Res :=
  let s := s.bindBegin needle
  match (s.ndl needle).seam with
  | none => .next s
  | some (t, bind) =>
    if bind then .next ((s.reach t).doneAt needle t)
    else
      let s := s.reach (s.issueEdge t)
      let s := s.setNdl needle { s.ndl needle with seam := none, fresh := true, t0 := t, pause := true }
      .next ((s.setStatus needle F.ndlStatusInSeam 0).ageFrom needle (some t))

/-- R221, R225: NEEDLE_FREEZE: the needle reaches the first edge, at or after the apply edge of the HOLD, on which it would issue a stitch; a breakpoint of that edge is one too. -/
def execNeedleFreeze (needle : Nat) (s : State) : Res :=
  match (s.ndl needle).freeze with
  | none => .next s
  | some f =>
    if !s.issuing needle then .next s
    else
      let (seam, _, _, e) := s.slot needle
      if seam ∨ e < f then .next s
      else
        let s := (s.reach e).holdAll (s.ndl needle).queue.length needle
        .next (match (s.ndl needle).brk with | some m => s.breakAt needle e m | none => s.freezeAt needle e)

/-- R277: STALL_EXPIRY: the stall time reaches STR.STALL_LIMIT; a stall that ends on that edge does not expire. -/
def runStallExpiry (needle : Nat) (s : State) : Res :=
  if s.ndlState needle ≠ 5 then .next s else
  match s.stallEdge needle with
  | none => .next s
  | some x =>
    let e := (s.slot needle).2.2.2
    if e ≤ x ∧ (s.openArrival needle e = true ∨ s.stallEnds needle e = true) then .next s
    else .next ((s.reach x).underFrog needle x true)

/-! Resumes (R113, R203, R226, R277, R279). -/

/-- R113, R203, R218, R226, R279: a held needle goes on after a resume whose apply edge is a; a stall that R276 ends on the resume edge is over. -/
def State.resumeNeedle (s : State) (n a : Nat) : State :=
  if s.ndlState n ≠ 6 then s else
  let stalled := s.strState n = 3
  let s := ((s.setNdl n { s.ndl n with fresh := true, resumed := true, t0 := a + 8 * vclkFs, brk := none, stallFrom := none }).wr Obj.ndlState n 4).setStatus n F.ndlStatusBreakHit 0
  let s := s.rasFreeze n false
  let e := s.issueEdge (s.periodEdge (s.period n (s.status n F.ndlStatusTset)) (a + 8 * vclkFs))
  let s := if !stalled then s
    else if s.stallEnds n e && !s.openArrival n e then s.stallEnd n
    else (s.wr Obj.ndlState n 5).setNdl n { s.ndl n with stallFrom := some e }
  s.runRoutine n 8

/-- R113: the held needles resume on the apply edge of a RUN request from HOLD, and the engine is in RUN. -/
def State.resumeAll (s : State) : State :=
  match s.trans with
  | some t =>
    if t.target = Mode.run.code ∧ t.source = Mode.hold.code then
      let a := t.due.getD s.now
      let s := ({ s.reach a with trans := none }).enter .run t.source t.reason
      ((List.range 16).foldl (State.resumeNeedle · · a) s).taeResume a
    else s
  | none => s

/-- R113: RESUME. -/
def execResume (s : State) : Res := .next s.resumeAll

end Sys2Proof.Machine
end

