-- ==== Sys2Proof/Machine/Ports.lean ====
section
/-! DEFINITION. The Ethernet ports (19_host_link R726 to R747): filters, receive buffers, flow control, the protocols that a sub-port answers itself, link states. -/
namespace Sys2Proof.Machine

/-- R726: sub-ports of a port's mode. -/
def State.subCount (s : State) (port : Nat) : Nat := [1, 2, 4].getD (s.fld Obj.hlkPortCfg port F.hlkPortCfgMode) 1

/-- The sub-ports of a port. -/
def State.subs (s : State) (port : Nat) : List Nat := List.range (s.subCount port)

/-- HLK.LINK_STATUS.STATE of a sub-port (R738). -/
def State.linkState (s : State) (port sub : Nat) : Nat := s.fld Obj.hlkLinkStatus (subEl port sub) F.hlkLinkStatusState

/-- A sub-port passes frames. -/
def State.linkUp (s : State) (port sub : Nat) : Bool := decide (sub < s.subCount port) && s.linkState port sub == 3

/-- R728: the MAC address of a sub-port. -/
def State.mac (s : State) (port sub : Nat) : Nat := s.fld Obj.hlkMac (subEl port sub) F.hlkMacAddress

/-- R729: the EUI-64 link-local address of a MAC address, whose first byte is bits 47 to 40. -/
def linkLocal (mac : Nat) : Nat :=
  0xFE80 * 2 ^ 112 + ((mac / 2 ^ 40) ^^^ 2) * 2 ^ 56 + mac / 2 ^ 24 % 2 ^ 16 * 2 ^ 40 + 0xFFFE * 2 ^ 24 + mac % 2 ^ 24

/-- R729, R744: a sub-port's IPv4 address, 0 for none. -/
def State.ip4 (s : State) (port sub : Nat) : Nat := netVal 4 (s.fld Obj.hlkIpv4 (subEl port sub) F.hlkIpv4Address)

/-- R729: the IPv6 addresses of a sub-port that are in use. -/
def State.ip6 (s : State) (port sub : Nat) : List Nat :=
  let g := netVal 16 (s.fld Obj.hlkIpv6 (subEl port sub) F.hlkIpv6Address)
  let d := Tbl.get (fun _ => []) s.hlk.dups (subEl port sub)
  ([linkLocal (s.mac port sub)] ++ (if g = 0 then [] else [g])).filter (fun a => !d.contains a)

/-- R733, R743: the groups that a port has joined. -/
def State.groups6 (s : State) (port : Nat) : List Nat :=
  let g := s.rd Obj.hlkMcastGroups port
  ((List.range 8).filter (fun i => bit g (1024 + i))).map (fun i => netVal 16 (Fld.get ⟨128 * i, 128⟩ g))

/-- The kinds of the port's own frames: 1 ARP reply, 2 ICMP echo reply, 3 ICMPv6 echo reply, 4 neighbour advertisement, 5 IGMPv3 report, 6 MLDv2 report, 7 gratuitous ARP,
8 neighbour solicitation of duplicate address detection (R729). They carry TX_PCP_BULK (R734). -/
def State.ether (s : State) (port sub kind dst src : Nat) : State := (s.emit (.ether port sub kind dst src (s.txTag port sub (s.txPcp port false)))).hlkCount port sub 1

/-- R729: the membership reports of a sub-port: all groups (0), or one. -/
def State.memberReports (s : State) (port sub : Nat) (v6 : Option Bool) (group : Nat) : State :=
  ((s.groups6 port).filter (fun g => (group == 0 || group == g) && (match v6 with | some b => b == !isV4 g | none => true))).foldl
    (fun s g => s.ether port sub (if isV4 g then 5 else 6) g 0) s

/-! Receive buffers and flow control (R734 to R736). -/

/-- The frames in a receive buffer: class 0 high-priority, 1 bulk. -/
def State.rxFill (s : State) (port cls : Nat) : List Nat := Tbl.get (fun _ => []) s.hlk.fill (port * 2 + cls)

/-- The state with a receive buffer replaced. -/
def State.setRx (s : State) (port cls : Nat) (l : List Nat) : State := { s with hlk := { s.hlk with fill := Tbl.put (fun _ => []) s.hlk.fill (port * 2 + cls) l } }

/-- The instant of a port's next PFC repeat, none while it does not hold senders off. -/
def State.pfcAt (s : State) (port : Nat) : Option Nat := Tbl.get (fun _ => none) s.hlk.pfcNext port

/-- The state with that instant replaced. -/
def State.setPfc (s : State) (port : Nat) (t : Option Nat) : State := { s with hlk := { s.hlk with pfcNext := Tbl.put (fun _ => none) s.hlk.pfcNext port t } }

/-- R736: PFC frames for each PCP of PFC_TX, on every sub-port that is UP. -/
def State.sendPfc (s : State) (port quanta : Nat) : State :=
  let c := s.fld Obj.hlkPrioCfg port F.hlkPrioCfgPfcTx
  if c = 0 then s else ((s.subs port).filter (s.linkUp port)).foldl (fun s sub => (s.emit (.pfc port c quanta)).hlkCount port sub 10) s

/-- R736: the bulk buffer's fill has changed. -/
def State.pfcCheck (s : State) (port : Nat) : State :=
  let n := (s.rxFill port 1).foldl (· + ·) 0
  match s.pfcAt port with
  | none => if n * 4 > 3 * 4194304 then (s.sendPfc port 0xFFFF).setPfc port (some (s.now + 20 * usFs)) else s
  | some _ => if n * 2 < 4194304 then (s.sendPfc port 0).setPfc port none else s

/-- R734: the receive class of a PCP: 0 high-priority, 1 bulk. -/
def State.rxClass (s : State) (port pcp : Nat) : Nat := if bit (s.fld Obj.hlkPrioCfg port F.hlkPrioCfgHighPcp) pcp then 0 else 1

/-- R735: a POA frame of a length enters its receive buffer, or is dropped. -/
def State.rxQueue (s : State) (port sub cls len : Nat) : State :=
  let l := s.rxFill port cls
  if l.foldl (· + ·) 0 + len > (if cls = 0 then 262144 else 4194304) then
    let s := s.hlkCount port sub (if cls = 0 then 5 else 6)
    if Tbl.get (fun _ => false) s.hlk.dropSeen (subEl port sub) then s
    else ({ s with hlk := { s.hlk with dropSeen := Tbl.put (fun _ => false) s.hlk.dropSeen (subEl port sub) true } }).latch Ev.hlkRxDrop
  else (s.setRx port cls (l ++ [len])).pfcCheck port

/-- The protocol engine takes the oldest frame of a receive buffer. -/
def State.rxTake (s : State) (port cls : Nat) : State := (s.setRx port cls ((s.rxFill port cls).drop 1)).pfcCheck port

/-- R729, R733: whether a sub-port accepts a frame by its tag: `vid` 4096 stands for an untagged frame. -/
def State.vidOk (s : State) (port sub vid : Nat) : Bool :=
  let v := s.fld Obj.hlkVlan (subEl port sub) F.hlkVlanVid
  if v = 0 then vid == 4096 || vid == 0 else vid == v

/-- FRAME_RECEIVE (R726, R729, R733 to R735). `etherType` follows the C-tag, where there is one; `cls` says what the frame carries: 1 POA, 2 PTP, 3 ARP, ICMP, ND, IGMP or MLD for the
sub-port (R729; their answers are commands of their own), 0 anything else (other protocols, IP fragments, PAUSE, frames for others). -/
def execFrameReceive (port sub etherType vid pcp len : Nat) (fcsOk : Bool) (cls : Nat) (s : State) : Res :=
  if !s.linkUp port sub then .next s
  else if !fcsOk then .next (s.hlkCount port sub 2)
  else if len > s.fld Obj.hlkPortCfg port F.hlkPortCfgMaxFrame then .next (s.hlkCount port sub 3)
  else
    let s := s.hlkCount port sub 0
    if !s.vidOk port sub vid || !([0x0800, 0x0806, 0x86DD].contains etherType) || cls == 0 || decide (cls > 3) || decide (len < 64) ||
        (etherType == 0x0800 && s.ip4 port sub == 0) then .next (s.hlkCount port sub 4)
    else if cls = 1 then
      let pcp := if vid = 4096 then s.fld Obj.hlkPrioCfg port F.hlkPrioCfgDefaultPcp else pcp
      .next (s.rxQueue port sub (s.rxClass port pcp) len)
    else .next s

/-- R729: an ARP cache entry is learned: at most 256, the oldest goes. -/
def State.arpLearn (s : State) (port sub ip mac : Nat) : State :=
  let el := subEl port sub
  let l := (Tbl.get (fun _ => []) s.hlk.arp el).filter (fun e => e.1 != ip)
  { s with hlk := { s.hlk with arp := Tbl.put (fun _ => []) s.hlk.arp el (lastN 256 (l ++ [(ip, mac, s.now)])) } }

/-- R729: ARP_REQUEST. -/
def execArpRequest (port sub senderIp senderMac targetIp : Nat) (s : State) : Res :=
  let own := s.ip4 port sub
  if !s.linkUp port sub || own == 0 || targetIp != own then .next s
  else .next ((s.arpLearn port sub senderIp senderMac).ether port sub 1 senderIp own)

/-- R729: ARP_ENTRY_EXPIRY: an entry has stood for 300 s. -/
def execArpEntryExpiry (port sub ip : Nat) (s : State) : Res :=
  let el := subEl port sub
  let l := Tbl.get (fun _ => []) s.hlk.arp el
  match l.find? (fun e => e.1 == ip) with
  | none => .next s
  | some e =>
    let s := s.reach (e.2.2 + 300 * secFs)
    .next { s with hlk := { s.hlk with arp := Tbl.put (fun _ => []) s.hlk.arp el (l.filter (fun e => e.1 != ip)) } }

/-- R729: ECHO_REQUEST: at most 1,000 replies in a second. -/
def execEchoRequest (port sub : Nat) (v6 : Bool) (src dst len : Nat) (s : State) : Res :=
  let el := subEl port sub
  let mine := if v6 then (s.ip6 port sub).contains dst else s.ip4 port sub != 0 && dst == s.ip4 port sub
  let recent := (Tbl.get (fun _ => []) s.hlk.echo el).filter (fun t => decide (s.now < t + secFs))
  if !s.linkUp port sub || !mine || decide (len > s.fld Obj.hlkPortCfg port F.hlkPortCfgMaxFrame) || decide (recent.length ≥ 1000) then .next s
  else .next (({ s with hlk := { s.hlk with echo := Tbl.put (fun _ => []) s.hlk.echo el (recent ++ [s.now]) } }).ether port sub (if v6 then 3 else 2) src dst)

/-- R729: NEIGHBOUR_SOLICITATION: answered with an advertisement; with `dad` another node claims the target while the sub-port's own duplicate address detection stands. -/
def execNeighbourSolicitation (port sub src target : Nat) (dad : Bool) (s : State) : Res :=
  if !s.linkUp port sub || !(s.ip6 port sub).contains target then .next s
  else if dad then
    let el := subEl port sub
    let d := Tbl.get (fun _ => []) s.hlk.dups el
    .next (({ s with hlk := { s.hlk with dups := Tbl.put (fun _ => []) s.hlk.dups el (d ++ [target]) } }).setFld Obj.hlkLinkStatus el F.hlkLinkStatusDuplicate 1)
  else .next (s.ether port sub 4 src target)

/-- R729: MEMBERSHIP_QUERY: a general query (group 0) or one for a group. -/
def execMembershipQuery (port sub : Nat) (v6 : Bool) (group : Nat) (s : State) : Res :=
  if s.linkUp port sub then .next (s.memberReports port sub (some v6) group) else .next s

/-! PFC received (R737). -/

/-- The length of a pause quantum, 512 bit times at the sub-port's rate, in fs. -/
def State.quantum (s : State) (port : Nat) : Nat := [1280000, 2560000, 5120000].getD (s.fld Obj.hlkPortCfg port F.hlkPortCfgMode) 1280000

/-- R737: a class goes on: the frames that it held leave, in order. -/
def State.unpause (s : State) (port sub pcp : Nat) : State :=
  let mine := fun (h : HeldFrame) => h.port == port && h.sub == sub && h.pcp == pcp
  let go := s.hlk.held.filter mine
  let s := { s with hlk := { s.hlk with paused := Tbl.put (fun _ => none) s.hlk.paused (subEl port sub * 8 + pcp) none, held := s.hlk.held.filter (fun h => !mine h) } }
  go.foldl (fun s h => ((s.emit h.msg).hlkCount port sub 1).poaCount 1) s

/-- R737: one class of a received PFC frame. -/
def State.pauseClass (s : State) (port sub pcp quanta : Nat) : State :=
  if !bit (s.fld Obj.hlkPrioCfg port F.hlkPrioCfgPfcRx) pcp then s
  else if quanta = 0 then s.unpause port sub pcp
  else { s with hlk := { s.hlk with paused := Tbl.put (fun _ => none) s.hlk.paused (subEl port sub * 8 + pcp) (some (s.now + quanta * s.quantum port)) } }

/-- R737: PFC_RECEIVE: a frame with its class vector and the quanta of the eight classes. -/
def execPfcReceive (port sub classes : Nat) (quanta : Nats) (s : State) : Res :=
  if !s.linkUp port sub then .next s
  else .next ((members 8 classes).foldl (fun s c => s.pauseClass port sub c (quanta.getD c 0 % 2 ^ 16)) ((s.hlkCount port sub 0).hlkCount port sub 9))

/-- R737: PAUSE_QUANTA_EXPIRY. -/
def execPauseQuantaExpiry (port sub pcp : Nat) (s : State) : Res :=
  match Tbl.get (fun _ => none) s.hlk.paused (subEl port sub * 8 + pcp) with
  | none => .next s
  | some t => .next ((s.reach t).unpause port sub pcp)

/-- R736: PFC_REPEAT. -/
def execPfcRepeat (port : Nat) (s : State) : Res :=
  match s.pfcAt port with
  | none => .next s
  | some t => .next (((s.reach t).sendPfc port 0xFFFF).setPfc port (some (t + 20 * usFs)))

/-! Link states (R738, R739, R741). -/

/-- R739: a sub-port leaves UP for a state: HLK_LINK_DOWN, and the frames that it holds are dropped. -/
def State.linkTo (s : State) (port sub st : Nat) : State :=
  let el := subEl port sub
  let was := s.linkState port sub
  let s := s.setFld Obj.hlkLinkStatus el F.hlkLinkStatusState st
  if was = 3 ∧ st ≠ 3 then
    let mine := fun (h : HeldFrame) => h.port == port && h.sub == sub
    let n := (s.hlk.held.filter mine).length
    let s := { s with hlk := { s.hlk with held := s.hlk.held.filter (fun h => !mine h) } }
    ((s.count Obj.hlkCounts el F.hlkCountsTxNoRoute ⟨587, 1⟩ n).raiseAll Ev.hlkLinkDown port).noteInst Ev.hlkLinkDown (0x10000 + el)
  else s

/-- R739, R741: every sub-port of a port trains anew, as its domain, its configuration and its module allow. -/
def State.portTrain (s : State) (port : Nat) : State :=
  let st := if !s.domOn (13 + port) || s.fld Obj.hlkPortCfg port F.hlkPortCfgEnable == 0 then 0
    else if s.fld Obj.hlkModule port F.hlkModuleActive = 0 then 1 else 2
  (List.range 4).foldl (fun s sub => s.linkTo port sub (if sub < s.subCount port then st else 0)) s

/-- R739: MODULE_INSERT with its CMIS identifier: released from low power, its data paths activated. -/
def execModuleInsert (port id : Nat) (s : State) : Res :=
  let on := s.domOn (13 + port)
  .next ((s.wr Obj.hlkModule port (1 + on.toNat * 2 + id % 256 * 256)).portTrain port)

/-- R738: MODULE_REMOVAL. -/
def execModuleRemoval (port : Nat) (s : State) : Res := .next ((s.wr Obj.hlkModule port 0).portTrain port)

/-- R739, R729: HLK_LINK_UP: the sub-port's PCS aligns; it announces its addresses and groups. -/
def execHlkLinkUp (port sub : Nat) (s : State) : Res :=
  if sub ≥ s.subCount port ∨ !([2, 4].contains (s.linkState port sub)) then .next s else
  let el := subEl port sub
  let s := (s.linkTo port sub 3).setFld Obj.hlkLinkStatus el F.hlkLinkStatusDuplicate 0
  let s := { s with hlk := { s.hlk with dropSeen := Tbl.put (fun _ => false) s.hlk.dropSeen el false, dups := Tbl.put (fun _ => []) s.hlk.dups el [] } }
  let s := s.latch Ev.hlkLinkUp
  let s := if s.ip4 port sub = 0 then s else s.ether port sub 7 (s.ip4 port sub) (s.ip4 port sub)
  let s := (s.ip6 port sub).foldl (fun s a => s.ether port sub 8 a 0) s
  .next (s.memberReports port sub none 0)

/-- R739: HLK_LINK_DOWN: alignment is lost; the sub-port retrains at once. -/
def execHlkLinkDown (port sub : Nat) (s : State) : Res := if s.linkUp port sub then .next (s.linkTo port sub 4) else .next s

/-- R741: step 8 of HLK.PORT_CFG for a session that came in on a port. -/
def State.portCfgCond (s : State) (port carrier v : Nat) : List (Bool × Nat) := [(carrier == port && v != s.rd Obj.hlkPortCfg port, rInUse)]

/-- R741: HLK.PORT_CFG is written. -/
def State.portCfg (s : State) (port v : Nat) : State := (s.wr Obj.hlkPortCfg port v).portTrain port

end Sys2Proof.Machine
end

