-- ==== Sys2Proof/Machine/Boot.lean ====
section
/-! DEFINITION. Boot, images and the non-volatile stores (22_boot; 02_object_dictionary R79 to R84, R850): entry to BOOT, the boot stages, image checks, slots, keys, SAVE and RESTORE. -/
namespace Sys2Proof.Machine

/-- R79: whether the persistent store keeps an object. -/
def objP (ix : Nat) : Bool := ((objRow ix).map (·.persist)).getD false

/-! The stores (R79 to R84). -/

/-- R81: the copy that a SAVE snapshots. -/
def State.snapshot (s : State) : StoreCopy :=
  ⟨s.od.filter (fun p => objP (p.1 % 65536)), s.images.filter (fun p => objP (p.1 % 65536))⟩

/-- R79, R83: an object takes its Default value: no valid copy, or a record with a bad CRC. -/
def State.useDefault (s : State) (bad : List Nat) (o : Nat) : Bool := s.bot.store.isNone || bad.contains o

/-- R79, R84: what the factory store gives: its own objects, and the Default of the P objects that come from it. -/
def State.factoryVals (s : State) (bad : List Nat) : List (Nat × Nat) :=
  s.bot.factory.flatMap (fun (p : Nat × Nat) =>
    let o := p.1 % 65536
    let el := p.1 / 65536
    (if objP o && !s.useDefault bad o then [] else [p]) ++
    (if o == Obj.ptfGaugeFactory && s.useDefault bad Obj.ptfGauge then [(odKey Obj.ptfGauge el, p.2)] else []) ++
    (if o == Obj.adcCalFactory && s.useDefault bad Obj.adcCal then [(odKey Obj.adcCal el, p.2)] else []))

/-- Values put into the dictionary's store. -/
def State.putAll (s : State) (l : List (Nat × Nat)) : State := { s with od := l.foldl (fun t p => Tbl.put odDflt t p.1 p.2) s.od }

/-- R83: the records with a bad CRC among those that a stage loads. The spec does not say which objects share a record: one record for each P object
(DESIGN CHOICE, notes/assumptions/51.md). -/
def State.badRecords (s : State) (bad : List Nat) (want : Nat → Bool) : Nat :=
  if s.bot.store.isSome then (bad.eraseDups.filter (fun o => objP o && want o)).length else 0

/-- R79, R83: the factory and persisted values of the objects that a stage loads; `bad` lists the objects whose records have a bad CRC. -/
def State.loadStore (s : State) (bad : List Nat) (want : Nat → Bool) : State :=
  let vals := match s.bot.store with | some c => c.vals.filter (fun (p : Nat × Nat) => !bad.contains (p.1 % 65536)) | none => []
  let imgs := match s.bot.store with | some c => c.imgs.filter (fun (p : Nat × Bytes) => !bad.contains (p.1 % 65536)) | none => []
  let s := (s.putAll ((s.factoryVals bad).filter (fun (p : Nat × Nat) => want (p.1 % 65536)))).putAll (vals.filter (fun (p : Nat × Nat) => want (p.1 % 65536)))
  let s := (imgs.filter (fun (p : Nat × Bytes) => want (p.1 % 65536))).foldl (fun s (p : Nat × Bytes) => s.setImg (p.1 % 65536) (p.1 / 65536) p.2) s
  s.count Obj.devStoreStatus 0 F.devStoreStatusBadRecords F.devStoreStatusBadSat (s.badRecords bad want)

/-- R808 stage 1, R615: the records read before the others: CLK.CFG, and the rail map that stage 2 needs. -/
def earlyObj (o : Nat) : Bool := o == Obj.clkCfg || o == Obj.psmPmbusMap

/-- R82: step 8 of DEV.STORE and DEV.FACTORY_RESTORE written with 1. -/
def State.storeCond (s : State) : List (Bool × Nat) := [(s.bot.saving.isSome, rBusy)]

/-- R81, R82: a SAVE starts; the reason code with which its flash writes will end is a free value (notes/assumptions/130.md). -/
def State.saveStart (s : State) : State :=
  ({ s with bot := { s.bot with saving := some ⟨false, some s.snapshot, Config.freeValue s.freeCtr % 65536⟩ } }).draw.setFld Obj.devStoreStatus 0 F.devStoreStatusState 1

/-- R84, R82: a RESTORE starts; its end is a free value as a SAVE's is. -/
def State.restoreStart (s : State) : State :=
  ({ s with bot := { s.bot with saving := some ⟨true, none, Config.freeValue s.freeCtr % 65536⟩ } }).draw.setFld Obj.devStoreStatus 0 F.devStoreStatusState 2

/-- R93, R95, R850: STORE_COMPLETE: the last flash write makes the new copy current, or the operation fails with the reason code it ends with, and the standing copy
stays current. -/
def execStoreComplete (s : State) : Res :=
  match s.bot.saving with
  | none => .next s
  | some x =>
    if x.ending ≠ rOk then
      .next (({ s with bot := { s.bot with saving := none } }.setFld Obj.devStoreStatus 0 F.devStoreStatusState 3).setFld Obj.devStoreStatus 0 F.devStoreStatusLastReason x.ending)
    else
    let s := { s with bot := { s.bot with saving := none, store := x.copy } }
    let s := (s.setFld Obj.devStoreStatus 0 F.devStoreStatusState 0).setFld Obj.devStoreStatus 0 F.devStoreStatusLastReason rOk
    if x.restore then .next s else
    let s := s.count64 Obj.devStoreCount 0 1
    let s := { s with bot := { s.bot with storeCount := s.rd Obj.devStoreCount 0 } }
    let nt := s.ntAt s.now / 2 ^ 32
    .next ((s.setFld Obj.devStoreStatus 0 F.devStoreStatusLastSaveNs (nt % 2 ^ 32)).setFld Obj.devStoreStatus 0 F.devStoreStatusLastSaveS (nt / 1000000000))

/-! Images (R812, R813). -/

/-- R812, R813 check 1. -/
def headerOk (patch : Bool) (img : Bytes) : Bool :=
  decide (256 ≤ img.length) && leAt img 0 4 == 0x49585659 && leAt img 4 2 == 0x0100 && leAt img 6 1 == (if patch then 2 else 1) &&
  leAt img 16 8 == img.length - 256 && decide (leAt img 16 8 ≤ (if patch then 1048576 else 8388608) - 256) && leAt img 100 60 == 0

/-- The key that signs an image. -/
def imgKey (img : Bytes) : Nat := leAt img 7 1

/-- An image's security version. -/
def imgRollback (img : Bytes) : Nat := leAt img 12 2

/-- The fields of a patch's descriptor (R246). -/
def patchDesc (p : Bytes) (lo w : Nat) : Nat := Fld.get ⟨lo, w⟩ (ofLE (p.take 64))

/-- R246: entry i of the trap table. -/
def trapAt (p : Bytes) (i : Nat) : Nat := leAt p (64 + 4 * i) 4

/-- R247: a trap entry's fields lie in range. -/
def trapOk (e : Nat) : Bool := decide (e % 2 ^ 13 < 7168) && Fld.get ⟨13, 3⟩ e == 0 && decide (7168 ≤ Fld.get ⟨16, 13⟩ e) && Fld.get ⟨29, 2⟩ e == 0

/-- R246: word i of a decrypted patch, which goes to address 7,168 + i of the control store. -/
def patchWord (p : Bytes) (traps i : Nat) : Nat := leAt p (64 + 4 * traps + 24 * i) 24

/-- R248, R258: why a decrypted patch is not loaded: 2 base version, 3 CRC, 4 a field out of range; 0 it is. -/
def patchState (base : Nat) (p : Bytes) : Nat :=
  let words := patchDesc p 32 11
  let traps := patchDesc p 43 7
  if patchDesc p 0 16 ≠ base then 2
  else if crc32 (slice p 64 (4 * traps + 24 * words)) ≠ patchDesc p 64 32 then 3
  else if patchDesc p 16 16 = 0 ∨ words = 0 ∨ 1024 < words ∨ 64 < traps ∨ patchDesc p 50 14 ≠ 0 ∨ patchDesc p 96 416 ≠ 0 ∨
      p.length ≠ 64 + 4 * traps + 24 * words ∨ (List.range traps).any (fun i => !trapOk (trapAt p i)) = true then 4
  else 0

/-- R813: the reason for which an image is rejected, 0 for none. An empty slot has reason 9. -/
def State.imageReason (s : State) (patch : Bool) (img : Bytes) : Nat :=
  if img.isEmpty then 9
  else if !headerOk patch img then 1
  else if leAt img 14 2 ≠ 0xB1 then 2
  else if bit s.bot.revoked (imgKey img) then 3
  else if 3 < imgKey img ∨ Config.ecdsaOk (imgKey img) (Config.sha384 (img.take 160)) (slice img 160 96) = false then 4
  else if imgRollback img < s.bot.fused then 5
  else if Config.sha384 (img.drop 256) ≠ slice img 24 48 then 6
  else if !patch then 0
  else match Config.gcmOpen img with
    | none => 7
    | some p => if patchState s.bot.base p = 0 then 0 else 8

/-- The firmware image in a slot. -/
def State.fwImg (s : State) (slot : Nat) : Bytes := Tbl.get (fun _ => []) s.bot.fw slot

/-- The patch image in a slot. -/
def State.patchImg (s : State) (slot : Nat) : Bytes := Tbl.get (fun _ => []) s.bot.patch slot

/-- The state with a slot's image replaced. -/
def State.setSlot (s : State) (patch : Bool) (slot : Nat) (b : Bytes) : State :=
  if patch then { s with bot := { s.bot with patch := Tbl.put (fun _ => []) s.bot.patch slot b } }
  else { s with bot := { s.bot with fw := Tbl.put (fun _ => []) s.bot.fw slot b } }

/-- R823: BOT.SLOT_INFO of a slot as it reads. -/
def State.slotInfo (s : State) (slot : Nat) : Nat :=
  let f := s.fwImg slot
  let p := s.patchImg slot
  let rf := s.imageReason false f
  let rp := s.imageReason true p
  (decide (rf = 0)).toNat + (decide (rp = 0)).toNat * 2 + rf * 2 ^ 8 + rp * 2 ^ 16 + leAt f 8 4 * 2 ^ 32 + leAt p 8 4 * 2 ^ 64 +
    imgRollback f % 256 * 2 ^ 96 + imgRollback p % 256 * 2 ^ 104

/-! Entry to BOOT (R79, R807, R809). -/

/-- What outlasts a reset of the engine with AON powered: the flash and fuses, PSM.COUNTS (R612), BOT.COUNTS (R823), FCR.RECOVERIES (R807), and the
physical conditions that the engine has sensed: a present Ethernet module, the line disturbance and the junction's heat. -/
def State.bootBase (s : State) : State :=
  let b : BotRt := { s.bot with saving := none, since := s.now, warm := false, held := false, errLow := false, qspiOff := false }
  let c : ClkRt := { ltStart := s.now }
  let q : PsmRt := { line := s.psm.line, warm := s.psm.warm, hot := s.psm.hot }
  let r : State := { State.reset with pending := s.pending, now := s.now, freeCtr := s.freeCtr, out := s.out, mem := s.mem, clk := c, psm := q, bot := b, levelBus := (s.levelBus.map (fun (x : Nat × List LevelFrame) => (x.1, x.2.filter (·.open')))).filter (fun x => !x.2.isEmpty), levelFree := s.levelFree }
  ((r.wr Obj.psmCounts 0 (s.rd Obj.psmCounts 0)).wr Obj.botCounts 0 (s.rd Obj.botCounts 0)).wr Obj.fcrRecoveries 0 (s.rd Obj.fcrRecoveries 0)

/-- R79, R97, R807, R808: BOOT is entered from a mode with a reason, and stage 1 begins; a junction that is still too hot raises TEMP_LIMIT again. -/
def State.bootEntry (s : State) (prev reason : Nat) (warm : Bool) : State :=
  let r := s.bootBase
  let r := { r with bot := { r.bot with warm := warm } }
  let r := (r.setFld Obj.botStatus 0 F.botStatusStage 1).count Obj.botCounts 0 F.botCountsBoots ⟨96, 1⟩ 1
  let r := r.enter .boot prev reason
  if r.psm.hot then r.raiseAll Ev.tempLimit 0xFFFF else r

/-- R117, R97: the mode that DEV.PREV_MODE records on leaving: the one from which a transition in progress started. -/
def State.leftMode (s : State) : Nat :=
  match s.psm.plan with
  | some p => if s.mode = .dump then s.mode.code else p.1
  | none => match s.trans with | some t => t.source | none => s.mode.code

/-- R823: an entry to BOOT by request, whose BOOT_MS counts from the instant of the request. -/
def State.bootAsked (s : State) (prev reason asked : Nat) : State :=
  let r := s.bootEntry prev reason (reason == 1)
  { r with bot := { r.bot with since := asked } }

/-- R108, R834: POWER_ON; while TEST_MODE is high the engine stays in COLD. -/
def execPowerOn (s : State) : Res := if s.mode = .cold ∧ s.bot.testMode = false then .next (s.bootEntry 0 0 false) else .next s

/-- R108, R830: EXT_RESET. -/
def execExtReset (s : State) : Res := if s.mode = .cold then .next s else .next (s.bootEntry s.leftMode 15 false)

/-- R831: COLD_ENTRY: everything that AON holds is lost. -/
def execColdEntry (s : State) : Res :=
  .next { State.reset with pending := s.pending, now := s.now, freeCtr := s.freeCtr, out := s.out, bot := { s.bot with saving := none, warm := false, held := false, errLow := false, qspiOff := false } }

/-! The stages (R808). -/

/-- The stage in progress. -/
def State.bootStage (s : State) : Nat := s.fld Obj.botStatus 0 F.botStatusStage

/-- R92: in stage 8 of BOOT, DEV.CAPS bit 7 sets when both stacks have trained. -/
def State.capsHbm (s : State) : State :=
  if s.mode = .boot ∧ s.bootStage = 8 ∧ s.stack 0 = 2 ∧ s.stack 1 = 2 then s.wr Obj.devCaps 0 (s.rd Obj.devCaps 0 ||| 2 ^ 7) else s

/-- The next stage begins. -/
def State.toStage (s : State) (n : Nat) : State := s.setFld Obj.botStatus 0 F.botStatusStage n

/-- R808 stage 1: fuses, the boot control block, the early records. -/
def State.stage1 (s : State) (bad : List Nat) : State :=
  let s := s.loadStore bad earlyObj
  let s := (s.wr Obj.botRollback 0 s.bot.fused).wr Obj.botKeys 0 s.bot.revoked
  (s.wr Obj.botSlotSelect 0 s.bot.slot).toStage (if s.bot.warm then 3 else 2)

/-- R586: the rails that the engine enables, in ascending order, up to a failing one. -/
def State.enableRails (s : State) (last : Nat) : State :=
  (((List.range 8).map (· + 2)).filter (fun r => decide (r ≤ last) && s.railPresent r)).foldl (fun s r =>
    s.emit (.pmbus (Fld.get ⟨32 * r, 7⟩ (s.rd Obj.psmPmbusMap 0)) (Fld.get ⟨32 * r + 8, 8⟩ (s.rd Obj.psmPmbusMap 0)) 1)) s

/-- R586, R587, R816: stage 2 ends with every rail up, or stops at a rail. A rail marked not present counts as valid. -/
def State.stage2 (s : State) (rail : Nat) : State :=
  if rail = 0 ∨ s.railPresent rail = false then (s.enableRails 9).toStage 3
  else
    let s := s.enableRails rail
    let s := { s with psm := { s.psm with badRails := setBit s.psm.badRails rail true }, bot := { s.bot with held := true, errLow := true } }
    (s.psmCount 4).raiseAll Ev.psmRailFault 0xFFFF

/-- R622, R623, R634: the root PLL locks to its source; every divider starts, and the provisional epoch is the lock edge. -/
def State.lockRoot (s : State) (present : Bool) : State :=
  let xtal := s.fld Obj.clkCfg 0 ⟨0, 2⟩ == 2 || !present
  let s := { s with clk := { s.clk with lock := s.now, epoch := s.now, ntBase := 0, ntEdge := 0 } }
  let s := ((s.setFld Obj.clkState 0 F.clkStateSource xtal.toNat).setFld Obj.clkState 0 F.clkStateLocked 1).setFld Obj.clkState 0 F.clkStateRefPresent present.toNat
  let s := s.wrAll Obj.cccState (List.range 16) 1
  s.toStage 4

/-- R622, R816: stage 3: ROOT_SRC REFCLK without a REFCLK has no root source. -/
def State.stage3 (s : State) (present : Bool) : State :=
  if s.fld Obj.clkCfg 0 ⟨0, 2⟩ = 1 ∧ present = false then
    ((s.setFld Obj.clkState 0 F.clkStateSource 3).setFld Obj.clkState 0 F.clkStateRefPresent 0).raiseAll Ev.clkRefLost 0xFFFF
  else s.lockRoot present

/-- R622, R816: REFCLK_RETRY: detection is retried after 100 ms; the times of R808 count from success. -/
def execRefclkRetry (present : Bool) (s : State) : Res :=
  if s.mode = .boot ∧ s.bootStage = 3 ∧ s.fld Obj.clkState 0 F.clkStateSource = 3 then
    let s := s.reach (s.now + 100 * msFs)
    if present then .next (({ s with bot := { s.bot with since := s.now } }).lockRoot true) else .next s
  else .next s

/-- R814: firmware of a slot boots. -/
def State.bootFw (s : State) (slot : Nat) : State :=
  let s := (s.setFld Obj.botStatus 0 F.botStatusSlot slot).wr Obj.devFwVersion 0 (leAt (s.fwImg slot) 8 4)
  (s.wrAll Obj.cccState (List.range 16) 2).toStage 5

/-- R814, R816: stage 4: the selected slot, else the other one, else boot stops. -/
def State.stage4 (s : State) : State :=
  let a := s.bot.slot
  let b := 1 - a
  let ra := s.imageReason false (s.fwImg a)
  if ra = 0 then s.bootFw a else
  let s := (s.setFld Obj.botStatus 0 F.botStatusFwReason ra).raiseAll Ev.bootFwRejected 0xFFFF
  if s.imageReason false (s.fwImg b) = 0 then
    ((s.bootFw b).setFld Obj.botStatus 0 F.botStatusFallback 1).count Obj.botCounts 0 F.botCountsFallbacks ⟨97, 1⟩ 1
  else { s with bot := { s.bot with held := true, errLow := true, qspiOff := true } }

/-- R246 to R248, R258, R815: stage 5: the base microcode, and the patch of the slot that booted. -/
def State.stage5 (s : State) : State :=
  let img := s.patchImg (s.fld Obj.botStatus 0 F.botStatusSlot)
  let r := s.imageReason true img
  let plain := (Config.gcmOpen img).getD []
  let base := s.bot.base % 2 ^ 16
  if r = 0 then
    let n := patchDesc plain 43 7
    let es := (List.range n).map (trapAt plain)
    let v := base * 2 ^ 16 + patchDesc plain 16 16
    let s := { s with ubase := true, ucode := (List.range (patchDesc plain 32 11)).map (patchWord plain n), traps := (es.filter (fun e => bit e 31)).map (fun e => (e % 2 ^ 13, Fld.get ⟨16, 13⟩ e)) }
    ((s.wr Obj.devUcodeVersion 0 v).wr Obj.ndlUcodeInfo 0 (v + 2 ^ 32 + n * 2 ^ 40 + patchDesc plain 32 11 * 2 ^ 48 + patchDesc plain 64 32 * 2 ^ 64)).toStage 6
  else
    let v := base * 2 ^ 16
    let st := if r = 8 then patchState s.bot.base plain else 0
    let s := { s with ubase := true, ucode := [], traps := [] }
    let s := ((s.wr Obj.devUcodeVersion 0 v).wr Obj.ndlUcodeInfo 0 (v + st * 2 ^ 32)).setFld Obj.botStatus 0 F.botStatusPatchReason r
    (s.raiseAll Ev.bootPatchRejected 0xFFFF).toStage 6

/-- R91, R92, R462, R825: stage 6: bit n − 1 of `bad` is subsystem n that fails its self-test; `tdcs` are the TDCs whose fused table fails. -/
def State.stage6 (s : State) (bad : Nat) (tdcs : Nats) : State :=
  let s := s.wr Obj.devCaps 0 (setMinus (2 ^ 18 - 1) ((bad % 2 ^ 18) ||| 2 ^ 7))
  let s := if bad % 2 ^ 18 = 0 then s else s.raiseAll Ev.bootSelftest 0xFFFF
  let s := s.wrAll Obj.tmuState ((List.range 8).map (· + 32)) 8
  (((List.range 40).filter (fun d => tdcs.contains d)).foldl (fun s d => (s.wr Obj.tmuState d 7).raiseAll Ev.tmuFuseCrc d) s).toStage 7

/-- R429, R721, R202: what follows the persisted values: gauges and bases, the protocol's settings. -/
def State.applyStored (s : State) : State :=
  let s := (List.range 256).foldl (fun s p => (s.wr Obj.ptfGaugeActive p (s.rd Obj.ptfGauge p)).wr Obj.calBase p (s.rd Obj.ptfGauge p)) s
  { s with poa := { s.poa with udp := s.fld Obj.secPoaCfg 0 F.secPoaCfgUdpPort, vOpen := s.fld Obj.secPoaCfg 0 F.secPoaCfgVOpen == 1 } }

/-- R821: the keys as the store holds them. -/
def State.loadKeys (s : State) (ok : Bool) : State :=
  let s := (List.range 4).foldl (fun s k => s.wr Obj.secKey k (if ok then Tbl.get (fun _ => 0) s.bot.keys k else 0)) s
  let s := s.wr Obj.secKeyStatus 0 (ofMembers ((List.range 4).filter (fun k => s.rd Obj.secKey k != 0)) + (!ok).toNat * 16)
  if ok then s else s.raiseAll Ev.keyStoreCrc 0xFFFF

/-- R539, R674, R739: stage 8 begins: HBM training, link-up and cascade alignment. -/
def State.startLinks (s : State) : State :=
  let s := (s.setStack 0 1).setStack 1 1
  let s := [0, 1].foldl (fun s p => (if s.fld Obj.hlkModule p ⟨0, 1⟩ = 1 then s.setFld Obj.hlkModule p F.hlkModuleActive 1 else s).portTrain p) s
  s.cslStart

/-- R79, R83, R821: stage 7: `keysBad` says that the key store failed its CRC; `bad` lists the objects whose records have a bad CRC. -/
def State.stage7 (s : State) (keysBad : Bool) (bad : List Nat) : State :=
  let s := s.loadStore bad (fun o => !earlyObj o)
  let s := (s.wr Obj.devStoreCount 0 s.bot.storeCount).applyStored
  ((s.loadKeys (!keysBad)).toStage 8).startLinks

/-- R92: stage 8 ends once both stacks have trained or failed. -/
def State.stage8 (s : State) : State :=
  let done := fun k => s.stack k == 2 || s.stack k == 4
  if done 0 && done 1 then s.capsHbm.toStage 9 else s

/-- R108, R851, R823: BOOT ends, in SAFE with the fault state set or SAFE requested, else in IDLE. -/
def State.bootDone (s : State) : State :=
  let m := if s.faultState || s.safeWanted then Mode.safe else Mode.idle
  let s := s.setFld Obj.botStatus 0 F.botStatusBootMs (min ((s.now - s.bot.since) / msFs) (2 ^ 32 - 1))
  (({ s with safeWanted := false }).enter m 1 2).latch Ev.bootComplete

/-- R539: HBM_TRAINING_DONE: a stack has trained or failed, with its identifier and the time it took. -/
def execHbmTrainingDone (stack : Nat) (ok : Bool) (id ms : Nat) (s : State) : Res :=
  if s.stack stack ≠ 1 then .next s else
  let s := (s.setFld Obj.hmsInfo 0 ⟨16 * stack, 16⟩ id).setFld Obj.hmsInfo 0 ⟨32 + 16 * stack, 16⟩ ms
  let s := { s with hms := { s.hms with lastReq := Tbl.put (fun _ => 0) s.hms.lastReq stack s.now } }
  if ok then .next (s.setStack stack 2).capsHbm else .next ((s.setStack stack 4).raiseAll Ev.hmsTrainFail stack)

/-! Slots and keys (R817 to R821). -/

/-- R818: step 8 of a transfer to a slot's image: the running slot. -/
def State.slotBeginCond (s : State) (patch : Bool) (slot total : Nat) : List (Bool × Nat) :=
  [(s.fld Obj.botStatus 0 F.botStatusSlot == slot, rInUse), (decide (total > (if patch then 1048576 else 8388608)), rRange)]

/-- R818: the reason code of the reply to a rejected image. -/
def imageReply (r : Nat) : Nat := if r = 0 then rOk else if r = 5 then rRange else if [1, 2, 6, 9].contains r then rFormat else rSign

/-- R818: IMAGE_VALIDATION: the transfer's bytes, written to the slot's partition, are checked; a rejected image leaves the slot empty. -/
def runImageValidation (patch : Bool) (slot : Nat) (s : State) : Res :=
  match s.writing (if patch then Obj.botPatchImage else Obj.botFwImage) slot with
  | none => .next s
  | some (id, x) =>
    if !x.validating then .next s else
    let s := s.setXfer id none
    let r := s.imageReason patch x.data
    let s := s.setSlot patch slot (if r = 0 then x.data else [])
    .next (s.result (.xfer id) (imageReply r) (checkOf r))

/-- R819: step 8 of BOT.SLOT_SELECT. -/
def State.slotCond (s : State) (slot : Nat) : List (Bool × Nat) := [(s.imageReason false (s.fwImg slot) != 0, rRange)]

/-- R819: the boot control block names a slot. -/
def State.selectSlot (s : State) (slot : Nat) : State := ({ s with bot := { s.bot with slot := slot } }).wr Obj.botSlotSelect 0 slot

/-- R817: the level that a ROLLBACK_COMMIT commits. -/
def State.commitLevel (s : State) : Nat :=
  let k := s.fld Obj.botStatus 0 F.botStatusSlot
  let f := imgRollback (s.fwImg k)
  if s.fld Obj.ndlUcodeInfo 0 F.ndlUcodeInfoPatchState = 1 then min f (imgRollback (s.patchImg k)) else f

/-- R817: BOT.ROLLBACK_COMMIT written with 1. -/
def State.rollbackCommit (s : State) : State :=
  let v := min 64 (max s.bot.fused s.commitLevel)
  ({ s with bot := { s.bot with fused := v } }).wr Obj.botRollback 0 v

/-- R820: the key that signed an image is in use: the running firmware, or a valid image of either slot. -/
def State.keyUsed (s : State) (k : Nat) : Bool :=
  let valid := fun (p : Bool) (img : Bytes) => s.imageReason p img == 0 && imgKey img == k
  imgKey (s.fwImg (s.fld Obj.botStatus 0 F.botStatusSlot)) == k ||
  [0, 1].any (fun i => valid false (s.fwImg i) || valid true (s.patchImg i))

/-- R820: step 8 of BOT.KEY_REVOKE. -/
def State.revokeCond (s : State) (k : Nat) : List (Bool × Nat) :=
  [(s.keyUsed k, rInUse), (s.bot.revoked ||| 2 ^ k == 15, rRange)]

/-- R820: a key's revoke fuse is blown. -/
def State.revokeKey (s : State) (k : Nat) : State :=
  let v := (s.bot.revoked ||| 2 ^ k) % 16
  ({ s with bot := { s.bot with revoked := v } }).wr Obj.botKeys 0 v

/-- R821: a key is stored at once; all zeros is absent. -/
def State.writeKey (s : State) (k v : Nat) : State :=
  let s := ({ s with bot := { s.bot with keys := Tbl.put (fun _ => 0) s.bot.keys k v } }).wr Obj.secKey k v
  s.setFld Obj.secKeyStatus 0 ⟨k, 1⟩ (decide (v ≠ 0)).toNat

end Sys2Proof.Machine
end

