-- ==== Sys2Proof/Machine/Reads.lean ====
section
/-! DEFINITION. What a read of an object returns where it follows from the rest of the state (R62, R101 and the owning chapters), the encoding of values (R67), and the bytes of DOMAIN objects. -/
namespace Sys2Proof.Machine

/-! Encoding (R67). -/

/-- R67: the bytes of a value of a type. A string is kept as its byte count and its bytes above that. -/
def encodeVal : ObjTy → Nat → Bytes
  | .bool, v => toLE 1 v
  | .uint n _ _, v => toLE n v
  | .sint n _ _, v => toLE n v
  | .enum _, v => toLE 1 v
  | .command, v => toLE 1 v
  | .bitset n _, v => toLE n v
  | .str m, v => toLE (2 + min (v % 65536) m) v
  | .stamp, v => toLE 12 v
  | .record n, v => toLE n v
  | .domain, _ => []
  | .service, _ => []

/-! Values that follow from the state. -/

/-- R101: DEV.MODE_REQ: the target of the transition in progress, else the current mode. Whether BOOT is a transition in progress is not said: DESIGN CHOICE, it is none, so
DEV.MODE_REQ reads 1 in BOOT until SAFE is requested (notes/assumptions/63.md). -/
def State.modeReq (s : State) : Nat :=
  match s.psm.plan with
  | some (_, dump, _, _) => if dump then 11 else 2
  | none => match s.fcr.entry with
    | some (t, dump, _, _) => if t ≤ s.now then (if dump then 11 else 2) else (match s.trans with | some x => x.target | none => s.mode.code)
    | none => match s.trans with
      | some x => x.target
      | none => if s.mode = .boot ∧ s.safeWanted = true then 2 else s.mode.code

/-- R722: the entry of a session in SEC.SESSIONS. -/
def State.sessionEntry (s : State) (n : Nat) : Nat :=
  match s.session n with
  | none => 0
  | some x =>
    let subs := (s.poa.subs.filter (fun (p : Nat × Option Sub) => match p.2 with | some y => y.session == n | none => false)).length
    x.state + x.level * 2 ^ 8 + x.port * 2 ^ 16 + x.udp % 2 ^ 16 * 2 ^ 32 + x.maxFrame % 2 ^ 16 * 2 ^ 48 + x.timeout % 2 ^ 32 * 2 ^ 64 + subs * 2 ^ 96 + x.addr % 2 ^ 128 * 2 ^ 128

/-- R722: SEC.SESSIONS. -/
def State.secSessions (s : State) : Nat := (List.range 16).foldl (fun a i => a + s.sessionEntry (i + 1) * 2 ^ (256 * i)) 0

/-- R776: WDP.STATUS. -/
def State.wdpStatus (s : State) : Nat :=
  let served := (List.range 16).filterMap (fun c => (s.core c).item.map (fun (x : Item × Nat) => x.1))
  let flows := ((served ++ s.ready).map (·.flow)).filter (fun f => decide (f < parallelFlow))
  (65536 - s.ready.length) + served.length * 2 ^ 32 + flows.dedup.length * 2 ^ 64

/-- R776: WDP.QUEUE: the depths beside the longest waits. -/
def State.wdpQueue (s : State) : Nat :=
  (List.range 8).foldl (fun a p => a + (s.ready.filter (fun i => i.prio == p)).length * 2 ^ (32 * p)) (s.rd Obj.wdpQueue 0)

/-- R764, R776: IEC.SRC_MAP. -/
def State.srcMap (s : State) : Nat :=
  (List.range 512).foldl (fun a n =>
    if srcEnabled n then a + (s.srcTarget n + (s.isFast n).toNat * 2 ^ 4 + 2 ^ 5) * 2 ^ (16 * n) else a) 0

/-- R781, R804: FCR.STATE. -/
def State.fcrState (s : State) : Nat :=
  s.faultState.toNat + popcount 512 (s.rd Obj.fcrActive 0) * 2 ^ 16 + (s.fcr.injLeft != 0).toNat * 2 ^ 32

/-- The needle whose PINSET holds a pin, 0xFF for none (R333). -/
def State.pinNeedle (s : State) (p : Nat) : Nat := ((List.range 16).find? (fun n => bit (s.rd Obj.ndlPinset n) p)).getD 0xFF

/-- R317, R319: PTF.MEAS_CMP of a pin in MEASURE: the levels at the balls of its comparators are an input that no command brings (a free value for each pin,
notes/assumptions/3.md), read in the logical sense: CMH bit 0, CML bit 1; 0 elsewhere. -/
def State.measCmp (s : State) (p : Nat) : Nat :=
  if s.mode = .measure then
    let v := Config.freeValue (s.freeCtr + p)
    (s.cmpSense p false (bit v 0)).toNat + (s.cmpSense p true (bit v 1)).toNat * 2
  else 0

/-- R87: whether an index is a service object's, whose value is Weahan's. -/
def isService (o : Nat) : Bool := match objRow o with | some r => r.ty == .service | none => false

/-- The value of an element as a read returns it (R62). -/
def State.valueOf (s : State) (o el : Nat) : Nat :=
  if o = Obj.devModeReq then s.modeReq
  else if o = Obj.clkHtNow then s.htAt s.now
  else if o = Obj.ptpNtNow then s.stamp
  else if o = Obj.tmuLtNow then s.ltNow
  else if o = Obj.tmuXtalOffset then s.xtalOffset
  else if o = Obj.tmuState then s.tmuStateRead el
  else if o = Obj.secSessions then s.secSessions
  else if o = Obj.wdpStatus then s.wdpStatus
  else if o = Obj.wdpQueue then s.wdpQueue
  else if o = Obj.wdpStats then F.wdpStatsLoad.put (s.rd o el) (s.load el)
  else if o = Obj.iecSrcMap then s.srcMap
  else if o = Obj.fcrState then s.fcrState
  else if o = Obj.ndlChartStore then F.ndlChartStoreUsed.put (s.rd o el) s.chartUsed
  else if o = Obj.ndlChartUsers then s.chartUsers el
  else if o = Obj.psmLineStatus then F.psmLineStatusPlanTime.put (s.rd o el) s.planTime
  else if o = Obj.calNeedleAge then F.calNeedleAgeAge.put (s.rd o el) (s.seamAge el)
  else if o = Obj.strFill then s.strFill el
  else if o = Obj.ndlStatus then s.statusRead el
  else if o = Obj.ptfPinState then s.pinStateRead el
  else if o = Obj.ptfPinNeedle then s.pinNeedle el
  else if o = Obj.botSlotInfo then s.slotInfo el
  else if o = Obj.ptfMeasCmp then s.measCmp el
  else s.rd o el

/-- Whether a read uses a free value. -/
def State.readFree (s : State) (o : Nat) : Bool :=
  isService o || (o == Obj.ptfMeasCmp && s.mode == .measure) || ((o == Obj.tmuLtNow || o == Obj.tmuXtalOffset) && !s.standalone)

/-- R67, R87: the bytes of an element as a read returns them. -/
def State.readBytes (s : State) (o el : Nat) : Bytes :=
  match objRow o with
  | none => []
  | some r => if r.ty = .service then Config.freeBytes s.freeCtr else encodeVal r.ty (s.valueOf o el)

/-! DOMAIN objects. -/

/-- R499, R542: HMS.REGIONS: START, SIZE in MiB, HASH, MODE, CLASS and a reserved byte of each placed region. -/
def State.hmsRegions (s : State) : Bytes :=
  s.placedRegions.flatMap (fun r =>
    let (h, m, c) := regionAttr r.2.1
    toLE 8 r.1 ++ toLE 4 r.2.2.2 ++ toLE 1 h ++ toLE 1 m ++ toLE 1 c ++ [0#8])

/-- Step 8 of R71 for a DOMAIN_BEGIN that reads. -/
def State.domainReadCond (s : State) (o el : Nat) : List (Bool × Nat) :=
  if o = Obj.ndlChartImage then [(s.chartState el == 1, rBusy)]
  else if o = Obj.ptfWaveTable then [(s.waveState el == 1, rBusy)]
  else if o = Obj.ptfCapData then [(s.busyNeedle el, rBusy), (!([Mode.armed, Mode.run, Mode.hold].contains s.mode), rMode)]
  else if o = Obj.taeData then [((s.taeRecord el).isNone, rRange)]
  else if o = Obj.dmpImage then
    let st := s.fld Obj.dmpStatus 0 F.dmpStatusState
    [(st == 1, rBusy), (st == 0 || st == 3, rRange)]
  else []

/-- The bytes of a DOMAIN element as they stand. -/
def State.domainBytes (s : State) (o el : Nat) : Bytes :=
  if o = Obj.cslMsgRecv then (s.msgRecv el).1
  else if o = Obj.ndlTrace then (s.ndl el).trace.flatMap (toLE 16)
  else if o = Obj.ptfCapData then s.captureBytes el
  else if o = Obj.ptfDatalog then Config.freeBytes s.freeCtr
  else if o = Obj.taeData then s.taeBytes el
  else if o = Obj.tmuStamps then s.tmuStamps el
  else if o = Obj.plcLog then s.plc.log.flatMap (toLE 16)
  else if o = Obj.hmsRegions then s.hmsRegions
  else if o = Obj.wdpTrace then s.wdpTrace.flatMap (toLE 8)
  else if o = Obj.fcrLog then s.fcr.log.flatMap (toLE 32)
  else if o = Obj.dmpSummary then s.bot.summaries.flatten
  else s.img o el

/-- What an accepted read of a DOMAIN element does: CSL.MSG_RECV takes the frames (R678). -/
def State.domainTaken (s : State) (o el : Nat) : State :=
  if o = Obj.cslMsgRecv then (s.msgRecv el).2 else if o = Obj.ptfDatalog then s.draw else s

end Sys2Proof.Machine
end

