-- ==== Sys2Proof/Machine/Collector.lean ====
section
/-! DEFINITION. The Fault Collector's commands (21_faults R780 to R796): raising, reactions, clearing, recovery, injection; the post-mortem dump and the summary records (R797 to R802). -/
namespace Sys2Proof.Machine

/-- R785: the needles that a fault covers, by its source, instance and master, none for all; and whether the checker lies in a needle's own path (R786). -/
def State.faultScope (s : State) (src inst master : Nat) : Option Nat × Bool :=
  if [Ev.chartCrc, Ev.ucodeParity, Ev.streamUnderrun, Ev.waveParity].contains src then (some (2 ^ (inst % 16)), true)
  else if src = Ev.calUntracked then (some (ofMembers (needles (fun n => bit (s.rd Obj.ndlPinset n) inst))), false)
  else if [Ev.hmsEccC, Ev.hmsEccU, Ev.hmsRtLate, Ev.scEccC, Ev.scEccU, Ev.rqpEccC, Ev.rqpEccU].contains src then (memScope master, decide (master < 0x10))
  else (none, false)

/-- R789: a parity error in the collector's own registers: every reaction byte is its default again, and FCR_PARITY enters SAFE. -/
def State.fcrParity (s : State) : State :=
  let s := (s.checked Ev.fcrParity 0xFF).2
  (s.wr Obj.fcrReaction 0 (objDflt Obj.fcrReaction)).raiseAll Ev.fcrParity 0xFFFF

/-- R150, R245, R338, 12_placement R514: the needle that a fault of its own checker frogs with cause FAULT, whatever the reaction byte. -/
def frogsNeedle (source inst master : Nat) : Option Nat :=
  if [Ev.ucodeParity, Ev.waveParity, Ev.chartCrc].contains source then some (inst % 16)
  else if source = Ev.scEccU ∧ master < 0x10 then some master else none

/-- R372, R751, R752: what the checker itself does with the error that it reports: the pool record that was read, the core of the instance. -/
def State.checkerActs (s : State) (source inst master : Nat) : State :=
  if source = Ev.rqpEccC then s.poolEcc master 1
  else if source = Ev.rqpEccU then s.poolEcc master 2
  else if source = Ev.cccEccC then s.count Obj.cccCounts (inst % 16) F.cccCountsEccCorrected ⟨97, 1⟩ 1
  else if source = Ev.cccEccU ∨ source = Ev.cccHang then s.halt (inst % 16)
  else s

/-- R780 to R788: FAULT_RAISE: a checker reports a fault. A number that is no fault source names nothing. -/
def execFaultRaise (source inst master access addr : Nat) (s : State) : Res :=
  if source = Ev.fcrParity then .next s.fcrParity
  else if (faultClass source).isNone then .next s
  else
    let s := if source = Ev.odeParity then (s.checked Ev.odeParity 0xFF).2 else s
    let (scope, own) := s.faultScope source inst master
    let s := (s.checkerActs source inst master).raise source inst master access addr scope own
    .next (match frogsNeedle source inst master with | some n => (s.frogAt n s.now 1).alsoUnder s n s.now | none => s)

/-- R789: FCR_PARITY. -/
def execFcrParity (s : State) : Res := .next s.fcrParity

/-- R345, R785: the sites of a needle that are active become INVALID. -/
def State.invalidate (s : State) (n : Nat) : State :=
  ((s.sitesOf n).filter (fun i => bit (s.ndl n).active i)).foldl (fun s i => s.setResult i F.ptfSiteResultResult 3) s

/-- R785, R786: a reaction reaches the needles in its scope, as they stand then. -/
def State.reactNow (s : State) (r : Reaction) : State :=
  ((List.range 16).filter (fun n => s.busyNeedle n && (match r.scope with | none => true | some x => bit x n))).foldl (fun s n =>
    let s := if r.invalid then s.invalidate n else s
    if r.stop then (s.frogAt n r.due 1).alsoUnder s n r.due else s) s

/-- R786: FAULT_REACTION: the reaction that is due first. -/
def runFaultReaction (s : State) : Res :=
  match s.fcr.reactions with
  | [] => .next s
  | r :: t =>
    let f := t.foldl (fun a b => if b.due < a.due then b else a) r
    let s := s.reach f.due
    .next (({ s with fcr := { s.fcr with reactions := s.fcr.reactions.erase f } }).reactNow f)

/-! Clearing (R793, R794). -/

/-- The checker table of R788 and R825: whether the cause of a level fault is present. -/
def State.causePresent (s : State) (src : Nat) : Bool :=
  let inst := Tbl.get (fun _ => []) s.fcr.insts src
  if src = Ev.calUntracked then (List.range 256).any (fun p => s.fld Obj.calPinStatus p F.calPinStatusUntracked != 0)
  else if src = Ev.tmuFuseCrc then (List.range 40).any (fun d => s.tmuState d == 7)
  else if src = Ev.hmsTrainFail then s.stack 0 == 4 || s.stack 1 == 4
  else if src = Ev.psmRailFault then s.psm.badRails != 0
  else if src = Ev.psmDomainFail then (List.range 21).any (fun d => s.domain d == 4)
  else if src = Ev.clkRefLost then s.fld Obj.clkState 0 F.clkStateSource ≥ 2
  else if src = Ev.clkPllUnlock then s.fld Obj.clkState 0 F.clkStateLocked == 0
  else if src = Ev.cslLinkDown then inst.any (fun p => s.cslState p != 2)
  else if src = Ev.cslLatency then inst.any (fun p => s.fld Obj.cslPortStatus p F.cslPortStatusLatValid == 0)
  else if src = Ev.hlkLinkDown then inst.any (fun e => decide (0x10000 ≤ e) && s.fld Obj.hlkLinkStatus (e - 0x10000) F.hlkLinkStatusState != 3)
  else if src = Ev.cccHang ∨ src = Ev.cccEccU then inst.any (fun c => s.coreState c == 5)
  else if src = Ev.tempLimit then s.psm.hot
  else src == Ev.bootSelftest

/-- An active fault clears; counted in CLEARED. -/
def State.clearFault (s : State) (src : Nat) : State :=
  if !s.active src then s else
  let s := s.wr Obj.fcrActive 0 (setBit (s.rd Obj.fcrActive 0) src false)
  ({ s with fcr := { s.fcr with raised := Tbl.put (fun _ => 0) s.fcr.raised src 0, insts := Tbl.put (fun _ => []) s.fcr.insts src [] } }).fcrCount 3 1

/-- The active faults. -/
def State.actives (s : State) : List Nat := (faultClasses.map (·.1)).filter s.active

/-- R793: step 8 of a write of a source to FCR.CLEAR. -/
def State.clearCond (s : State) (src : Nat) : List (Bool × Nat) := [(s.active src && s.causePresent src, rBusy)]

/-- R793: the effect of FCR.CLEAR with 0xFFFF, with the reason of its reply. -/
def State.clearAll (s : State) : Nat × State :=
  let s := (s.actives.filter (fun f => !s.causePresent f)).foldl State.clearFault s
  (if s.actives.isEmpty then rOk else rBusy, s)

/-- R794: FCR_RECOVERED: the cause of an active fault has been absent for FCR.QUIET. -/
def execFcrRecovered (source : Nat) (s : State) : Res :=
  if s.active source && !s.causePresent source && [Mode.boot, Mode.calibrate, Mode.ridethru].contains s.mode then
    let s := s.reach (Tbl.get (fun _ => 0) s.fcr.raised source + s.rd Obj.fcrQuiet 0)
    .next (((s.clearFault source).count Obj.fcrRecoveries 0 ⟨0, 16⟩ ⟨31, 1⟩ 1).latch Ev.fcrRecovered)
  else .next s

/-- R790: the effect of FCR.FIRST_CLEAR. -/
def State.firstClear (s : State) : State :=
  [0, 1, 2].foldl (fun s c => s.setFld Obj.fcrFirst 0 ⟨256 * c + 18, 1⟩ 0) s

/-! Injection (R795). -/

/-- R792: a master code, or 0xFF. -/
def masterOk (m : Nat) : Bool := decide (m < 0x30) || m == 0xFF

/-- R795, R804, R858: the value of a write to FCR.INJECT is within its limits. -/
def injectOk (v : Nat) : Bool :=
  let src := Fld.get F.fcrInjectSource v
  let bits := Fld.get F.fcrInjectBits v
  let m := Fld.get F.fcrInjectMaster v
  let pair := checkerPair src
  let regs := src == Ev.fcrParity || src == Ev.odeParity
  Fld.get ⟨18, 6⟩ v == 0 && Fld.get ⟨48, 16⟩ v == 0 && (bits == 1 || bits == 2) && masterOk m && Fld.get F.fcrInjectCount v != 0 &&
  (src == 0xFFFF || (pair.isSome && (!regs || m == 0xFF) && (bits == 1 || (match pair with | some (a, b) => a != b | none => false))))

/-- R795: step 8 of FCR.INJECT. -/
def State.injectCond (s : State) (v : Nat) : List (Bool × Nat) := [(Fld.get F.fcrInjectSource v != 0xFFFF && s.fcr.injLeft != 0, rBusy)]

/-- R795: the effect of FCR.INJECT. -/
def State.inject (s : State) (v : Nat) : State :=
  let left := if Fld.get F.fcrInjectSource v = 0xFFFF then 0 else Fld.get F.fcrInjectCount v
  { s.wr Obj.fcrInject 0 v with fcr := { s.fcr with injLeft := left } }

/-! The dump (R797 to R802). -/

/-- R799: a section. -/
def tlv (typ : Nat) (payload : Bytes) : Bytes :=
  toLE 2 typ ++ toLE 2 0 ++ toLE 4 payload.length ++ payload ++ List.replicate ((8 - payload.length % 8) % 8) 0#8

/-- The bytes of the elements of several objects, one object after another. -/
def State.objs (s : State) (l : List (Nat × Nat)) : Bytes := l.flatMap (fun (p : Nat × Nat) => s.readBytes p.1 p.2)

/-- R800: section 1. -/
def State.faultsSection (s : State) : Bytes := tlv 1 (s.objs [(Obj.fcrState, 0), (Obj.fcrActive, 0), (Obj.fcrFirst, 0), (Obj.fcrCounts, 0)])

/-- R800: sections 2 to 9. -/
def State.stateSections (s : State) : Bytes :=
  tlv 2 (s.domainBytes Obj.fcrLog 0) ++
  tlv 3 (s.objs [(Obj.devModeReq, 0), (Obj.devMode, 0), (Obj.devModeReason, 0), (Obj.devModeStamp, 0), (Obj.devPrevMode, 0)]) ++
  tlv 4 ((List.range 16).flatMap (fun n => s.readBytes Obj.ndlState n ++ List.replicate 7 0#8 ++ s.objs [(Obj.ndlStatus, n), (Obj.ndlStitchCount, n)])) ++
  tlv 5 ((List.range 64).flatMap (fun i => s.readBytes Obj.ptfSiteResult i)) ++
  tlv 6 ((List.range 16).flatMap (fun c => s.readBytes Obj.cccState c) ++ s.objs [(Obj.wdpStatus, 0), (Obj.wdpQueue, 0), (Obj.iecPending, 0)]) ++
  tlv 7 (s.objs [(Obj.plcReport, 0), (Obj.plcTotals, 0)] ++ s.domainBytes Obj.plcLog 0) ++
  tlv 8 (s.objs [(Obj.psmDomainState, 0), (Obj.psmLineStatus, 0)] ++ (List.range 32).flatMap (fun n => s.objs [(Obj.splState, n), (Obj.splMeas, n)])) ++
  tlv 9 (s.objs [(Obj.clkState, 0), (Obj.clkEpoch, 0), (Obj.ptpStatus, 0)])

/-- R799: the header of a dump or a summary record, IMAGE_CRC zero. -/
def State.dumpHeader (s : State) (flags len cause stamp sections : Nat) : Bytes :=
  let serial := s.rd Obj.devSerial 0
  toLE 4 0x31504D44 ++ toLE 2 0x0100 ++ toLE 1 flags ++ [0#8] ++ toLE 8 len ++ toLE 2 cause ++ toLE 1 (s.rd Obj.devPrevMode 0) ++ toLE 1 sections ++
    toLE 12 stamp ++ toLE 4 (s.rd Obj.devFwVersion 0) ++ toLE 4 (s.rd Obj.devUcodeVersion 0) ++ toLE 2 (s.rd Obj.devStepping 0) ++ toLE 2 0 ++ toLE 4 0 ++
    toLE 32 (serial / 65536) ++ List.replicate 176 0#8

/-- R799: an image with its IMAGE_CRC in bytes 44 to 47. -/
def withCrc (b : Bytes) : Bytes := b.take 44 ++ toLE 4 (crc32 b) ++ b.drop 48

/-- R799: the STAMP of the latch edge of the dump's cause: that of its newest log entry before the mode changed. -/
def State.causeStamp (s : State) (src : Nat) : Nat :=
  match (s.fcr.log.filter (fun e => Fld.get F.fcrLogSource e == src && decide (Fld.get F.fcrLogStamp e ≤ s.rd Obj.devModeStamp 0))).getLast? with
  | some e => Fld.get F.fcrLogStamp e
  | none => s.stampAt (Tbl.get (fun _ => 0) s.fcr.raised src)

/-- R802: a summary record. -/
def State.summaryRecord (s : State) (flags cause stamp : Nat) : Bytes :=
  let body := s.faultsSection ++ tlv 0xFFFF []
  let b := s.dumpHeader flags 4096 cause stamp 2 ++ body
  withCrc (b ++ List.replicate (4096 - b.length) 0#8)

/-- R802: a record enters the flash, which keeps the latest 8. -/
def State.addSummary (s : State) (b : Bytes) : State := { s with bot := { s.bot with summaries := (b :: s.bot.summaries).take 8 } }

/-- R798: the dump goes to the pool. -/
def State.dumpPartial (s : State) (cause : Nat) : Bool :=
  decide (240 ≤ cause ∧ cause ≤ 243) || [0, 1].any (fun k => s.stack k != 2 && s.stack k != 3)

/-- R797, R798: DUMP_ENTRY: the safe plan has completed and a core begins to write the dump. -/
def execDumpEntry (s : State) : Res :=
  if s.mode ≠ .dump ∨ s.psm.plan.isSome = true ∨ s.psm.ramp.isSome = true ∨ s.fld Obj.dmpStatus 0 F.dmpStatusState ≠ 0 ∨ s.trans.isSome = true then .next s else
  let first := (List.range 16).find? (fun c => s.coreState c != 5)
  let writer := if s.coreState s.system0 ≠ 5 then some s.system0 else first
  match writer with
  | none => .next (s.setFld Obj.dmpStatus 0 F.dmpStatusState 3)
  | some c =>
    let part := s.dumpPartial (s.fld Obj.dmpStatus 0 F.dmpStatusCause)
    .next (((s.setFld Obj.dmpStatus 0 F.dmpStatusState 1).setFld Obj.dmpStatus 0 F.dmpStatusPartial part.toNat).setFld Obj.dmpStatus 0 F.dmpStatusWriter c)

/-- R799 to R802: DMP_READY: the dump is complete; `body` is the firmware's sections CORE_SRAM, CORE_DATA (in a full dump) and FW_LOG. A summary record is written with it. -/
def execDmpReady (body : Bytes) (s : State) : Res :=
  if s.fld Obj.dmpStatus 0 F.dmpStatusState ≠ 1 then .next s else
  let part := s.fld Obj.dmpStatus 0 F.dmpStatusPartial
  let cause := s.fld Obj.dmpStatus 0 F.dmpStatusCause
  let stamp := s.causeStamp cause
  let rest := s.faultsSection ++ s.stateSections ++ body ++ tlv 0xFFFF []
  let len := 256 + rest.length
  let img := withCrc (s.dumpHeader part len cause stamp (if part = 1 then 12 else 13) ++ rest)
  let s := (s.setImg Obj.dmpImage 0 img).addSummary (s.summaryRecord (part + 2) cause stamp)
  .next ((((s.setFld Obj.dmpStatus 0 F.dmpStatusState 2).setFld Obj.dmpStatus 0 F.dmpStatusLength len).setFld Obj.dmpStatus 0 F.dmpStatusStamp s.stamp).latch Ev.dmpReady)

/-- R801: step 8 of DMP.CLEAR. -/
def State.dmpClearCond (s : State) : List (Bool × Nat) := [(s.fld Obj.dmpStatus 0 F.dmpStatusState == 1, rBusy)]

/-- R801, R108: the effect of DMP.CLEAR: STATE is NONE and the transition to BOOT starts. -/
def State.dmpClear (s : State) : State :=
  let s := (s.setFld Obj.dmpStatus 0 F.dmpStatusState 0).setImg Obj.dmpImage 0 []
  { s with trans := some ⟨Mode.dump.code, Mode.boot.code, 14, some s.now⟩ }

/-- R802: the effect of DMP.SUMMARY_CLEAR. -/
def State.summaryClear (s : State) : State := { s with bot := { s.bot with summaries := [] } }

end Sys2Proof.Machine
end

