-- ==== Sys2Proof/Machine/Domains.lean ====
section
/-! DEFINITION. Domain switching (15_power_supplies R581 to R584): the conditions of PSM.DOMAIN_REQ, what each domain's switching does, and DOZE. -/
namespace Sys2Proof.Machine

/-- R581: the time within which a domain reaches ON, in fs; for an Ethernet port that of its link-up (R739). -/
def domainTime (pd : Nat) : Nat :=
  if pd ≤ 8 then 200 * usFs else if pd ≤ 10 then 100 * usFs else if pd ≤ 12 then 600 * msFs else if pd ≤ 14 then 500 * msFs
  else if pd = 15 then msFs else if pd ≤ 17 then 5 * msFs else if pd = 18 then 100 * usFs else if pd = 19 then msFs else 5 * msFs

/-- PD1 to PD20. -/
def allDomains : List Nat := (List.range 20).map (· + 1)

/-- R749: the system cores: 0 and 1 while PD16 is on, 8 and 9 otherwise. -/
def State.setRoles (s : State) : State :=
  let b := if s.domOn 16 then 0 else 8
  (s.setFld Obj.cccRoles 0 F.cccRolesSystem0 b).setFld Obj.cccRoles 0 F.cccRolesSystem1 (b + 1)

/-- R581: a core goes off; it gives up its item first. -/
def State.coreOff (s : State) (c : Nat) : State :=
  ((s.complete c).setCore c { s.core c with item := none, due := [], handlers := [], since := none }).wr Obj.cccState c 0

/-- R581, R531: a stack's contents are lost, and with them every chart, wave table and trace. -/
def State.stackOff (s : State) (k : Nat) : State :=
  let s := { s with mem := s.mem.filter (fun c => addrStack c.1 != k), wdpTrace := [], hms := { s.hms with waiting := s.hms.waiting.filter (fun x => addrStack x.1.addr != k) } }
  let s := (List.range 1024).foldl State.chartDelete s
  let s := (List.range 16).foldl (fun s n => (List.range 64).foldl (fun s t => s.waveDelete (waveEl n t)) (s.setNdl n { s.ndl n with trace := [] })) s
  s.setStack k 0

/-- R581, R321: a pin's bank goes off. -/
def State.pinOff (s : State) (p : Nat) : State := (s.setPin p {}).wr Obj.ptfPinState p 0

/-- R581: a domain is off. -/
def State.domainOff (s : State) (pd : Nat) : State :=
  let s := { s.setDomain pd 0 with psm := { s.psm with domDue := Tbl.put (fun _ => none) s.psm.domDue pd none } }
  if pd ≤ 8 then (((List.range 32).map (· + 32 * (pd - 1))).foldl State.pinOff s).emit (.pads (pd - 1) false s.now)
  else if pd ≤ 10 then s.wrAll Obj.ndlState ((List.range 8).map (· + 8 * (pd - 9))) 0
  else if pd ≤ 12 then s.stackOff (pd - 11)
  else if pd ≤ 14 then s.portTrain (pd - 13)
  else if pd = 15 then s.cslOff
  else if pd ≤ 17 then ((((List.range 8).map (· + 8 * (pd - 16))).foldl State.coreOff s).setRoles)
  else if pd = 18 then s.rasStopAll
  else if pd = 19 then (List.range 32).foldl (fun s n => (s.loopOff n).wr Obj.splState n 5) s
  else s.tmuAbandon.calPause

/-- R581: a domain begins to switch on. -/
def State.domainPower (s : State) (pd : Nat) : State :=
  let s := { s.setDomain pd 1 with psm := { s.psm with domDue := Tbl.put (fun _ => none) s.psm.domDue pd (some (s.now + domainTime pd)) } }
  if pd = 11 ∨ pd = 12 then s.setStack (pd - 11) 1
  else if pd = 16 ∨ pd = 17 then s.wrAll Obj.cccState ((List.range 8).map (· + 8 * (pd - 16))) 1
  else s

/-- R315, R317: a pin whose bank comes on: under its busy needle, under PTF.MEAS_DRIVE in MEASURE, else parked. -/
def State.pinUp (s : State) (p : Nat) : State :=
  if s.mode = .measure then (s.wr Obj.ptfPinState p 4).measPin s.now (if s.stagedBusy Obj.ptfMeasDrive p then 0 else s.rd Obj.ptfMeasDrive p) p
  else s.wr Obj.ptfPinState p (if (List.range 16).any (fun n => bit (s.rd Obj.ndlPinset n) p && s.busyNeedle n && !(s.ndl n).castOn) then 2 else 1)

/-- R581: a domain is on. -/
def State.domainUp (s : State) (pd : Nat) : State :=
  let s := { s.setDomain pd 2 with psm := { s.psm with domDue := Tbl.put (fun _ => none) s.psm.domDue pd none } }
  if pd ≤ 8 then ((List.range 32).map (· + 32 * (pd - 1))).foldl State.pinUp (s.emit (.pads (pd - 1) true s.now))
  else if pd ≤ 10 then s.wrAll Obj.ndlState ((List.range 8).map (· + 8 * (pd - 9))) 1
  else if pd = 13 ∨ pd = 14 then
    (if s.fld Obj.hlkModule (pd - 13) ⟨0, 1⟩ = 1 then s.setFld Obj.hlkModule (pd - 13) F.hlkModuleActive 1 else s).portTrain (pd - 13)
  else if pd = 15 then s.cslStart
  else if pd = 16 ∨ pd = 17 then (s.wrAll Obj.cccState ((List.range 8).map (· + 8 * (pd - 16))) 2).setRoles
  else if pd = 19 then (s.wrAll Obj.splState (List.range 32) 0).adcStart
  else s

/-- The domains whose request bit goes from 1 to 0, and from 0 to 1, with a write. -/
def State.domainsOff (s : State) (v : Nat) : List Nat := allDomains.filter (fun d => bit (s.rd Obj.psmDomainReq 0) d && !bit v d)
/-- As domainsOff, for bits that go to 1. -/
def State.domainsOn (s : State) (v : Nat) : List Nat := allDomains.filter (fun d => !bit (s.rd Obj.psmDomainReq 0) d && bit v d)

/-- R753: a placement gives some flow a home core in a domain. -/
def State.homesIn (s : State) (pd : Nat) : Bool :=
  let inside := fun c : Nat => decide (8 * (pd - 16) ≤ c ∧ c < 8 * (pd - 16) + 8)
  s.rd Obj.plcState 0 == 2 &&
  ((List.range 64).any (fun i => inside (s.rd Obj.plcSiteCore i)) || ((List.range 24).any (fun i => inside (Tbl.get (fun _ => 255) s.homes (64 + i)))))

/-- R581, R753: step 8 of PSM.DOMAIN_REQ written through a port. -/
def State.domainCond (s : State) (port v : Nat) : List (Bool × Nat) :=
  let off := s.domainsOff v
  [(allDomains.any (fun d => s.domain d == 1 || s.domain d == 3), rBusy),
   ((off.contains 11 || off.contains 12) && s.mode != .safe, rMode),
   (off.contains 11 != off.contains 12, rRange),
   (off.contains (13 + port), rInUse),
   (!bit v 16 && !bit v 17, rRange),
   (off.contains 19 && (List.range 32).any (fun n => s.loopState n != 0), rInUse),
   ((off.contains 16 && s.homesIn 16) || (off.contains 17 && s.homesIn 17), rInUse)]

/-- R581: PSM.DOMAIN_REQ written. -/
def State.domainReq (s : State) (v : Nat) : State :=
  let on := s.domainsOn v
  let off := s.domainsOff v
  let s := s.wr Obj.psmDomainReq 0 v
  off.foldl (fun s d => s.setDomain d 3) (on.foldl State.domainPower s)

/-- R581: DOMAIN_SWITCH_DONE: a domain that was switching has reached ON or OFF, or its on time expires. -/
def runDomainSwitchDone (pd : Nat) (ok : Bool) (s : State) : Res :=
  match s.domain pd with
  | 1 =>
    if ok then .next (s.domainUp pd)
    else
      let s := match Tbl.get (fun _ => none) s.psm.domDue pd with | some t => s.reach t | none => s
      .next (({ s.setDomain pd 4 with psm := { s.psm with domDue := Tbl.put (fun _ => none) s.psm.domDue pd none } }).raiseAll Ev.psmDomainFail 0xFFFF)
  | 3 => .next (s.domainOff pd)
  | _ => .next s

/-- R583: the domains that DOZE switches off. -/
def dozeDomains : List Nat := (List.range 10).map (· + 1) ++ [15, 17, 18, 20]

/-- R583, R473: DOZE is entered. -/
def State.enterDoze (s : State) : State := ((dozeDomains.foldl State.domainOff s.tmuAbandon).selfRefresh 0).selfRefresh 1

/-- R583: DOZE is left: the domains that PSM.DOMAIN_REQ requests begin to switch on. -/
def State.leaveDoze (s : State) : State :=
  if s.mode = .doze then (dozeDomains.filter (fun d => s.domain d == 0 && bit (s.rd Obj.psmDomainReq 0) d)).foldl State.domainPower s else s

end Sys2Proof.Machine
end

