-- ==== Sys2Proof/Machine/Modes.lean ====
section
/-! DEFINITION. Modes (03_modes): requests and their checks, transitions, arming, entry to SAFE and DUMP with the ramp-down, the ride-through plan (15_power R607 to R612), and the stages of boot (22_boot R808). -/
namespace Sys2Proof.Machine

/-! Requests (R99 to R107). -/

/-- R104: the targets that a mode accepts. -/
def accepted : Mode → List Nat
  | .boot => [2]
  | .safe => [3, 1]
  | .idle => [2, 1, 4, 5, 8, 9]
  | .doze => [3, 2]
  | .armed => [3, 2, 6]
  | .run => [7, 5, 3, 2]
  | .hold => [6, 5, 3, 2]
  | .measure => [3, 2]
  | .calibrate => [3, 2]
  | .ridethru => [2]
  | .cold => []
  | .dump => []

/-- R101, R103: a transition is in progress: one on its way, a safe plan, an entry to SAFE or DUMP that has begun, or a SAFE request made in BOOT. -/
def State.inTransition (s : State) : Bool :=
  s.trans.isSome || s.psm.plan.isSome || (match s.fcr.entry with | some e => decide (e.1 ≤ s.now) | none => false) || (s.mode == .boot && s.safeWanted)

/-- R582: the bank domains of a set of pins are ON. -/
def State.banksOn (s : State) (pins : List Nat) : Bool := pins.all (fun p => s.domOn (p / 32 + 1))

/-- R582: the domains that ARMED needs are ON. -/
def State.armedDomains (s : State) : Bool :=
  let ns := s.placedNeedles
  s.domOn 11 && s.domOn 12 && ns.all (fun n => s.domOn (9 + n / 8) && s.banksOn (s.chartPins n)) &&
  ([0, 1].all (fun i => !(ns.contains (s.fld Obj.rasStreamCfg i F.rasStreamCfgNeedle)) || s.domOn 18))

/-- R582: the domains that CALIBRATE needs are ON. -/
def State.calibrateDomains (s : State) : Bool := s.domOn 20 && (members 8 (s.fld Obj.calFullCfg 0 F.calFullCfgBanks)).all (fun b => s.domOn (b + 1))

/-- R103: the checks of a mode request at step 8 that come before admission. -/
def State.modeCond (s : State) (v : Nat) : List (Bool × Nat) :=
  let m := s.mode
  let same := v == m.code && !s.inTransition
  let again := v == 2 && s.psm.plan.isSome
  let bad := (v == 6 && m == .armed && (needles s.hasChart).isEmpty) || (v == 5 && m == .idle && !s.armedDomains) ||
    (v == 9 && m == .idle && !(s.calibrateDomains && s.calibrateOk))
  [(s.inTransition && v != 2, rBusy), (!same && !again && (!((accepted m).contains v) || bad), rMode)]

/-- R115: every running or held needle is to be frogged on the apply edge a. -/
def State.frogAll (s : State) (a : Nat) : State :=
  (needles s.busyNeedle).foldl (fun s n => s.setNdl n { s.ndl n with frogs := (s.ndl n).frogs ++ [(a, 3)] }) s

/-- R111, R112: every running needle is to freeze from an edge on, but for one in its bind-off. -/
def State.freezeAll (s : State) (a : Nat) : State :=
  ((needles s.running).filter (fun n => (s.ndl n).bound.isNone && s.ndlState n != 7)).foldl (fun s n =>
    s.setNdl n { s.ndl n with freeze := some (match (s.ndl n).freeze with | some f => min f a | none => a) }) s

/-- R116, R126: a host request for SAFE enters it on its commit edge. -/
def State.safeNow (s : State) (reason : Nat) : State :=
  match s.fcr.entry with
  | some (t, false, _, _) => if t ≤ s.now then s else { s with fcr := { s.fcr with entry := some (s.now, false, reason, 0xFFFF) } }
  | _ => s.scheduleEntry s.now false reason 0xFFFF

/-- R96, R100: a requested transition is under way, from the edge at which it is `due` if one is set. -/
def State.pend (s : State) (m : Mode) (v : Nat) (due : Option Nat) : State := (s.setTrans (some ⟨m.code, v, 1, due⟩)).timedCheck

/-- R100 to R107, R484, R851: an accepted mode request. -/
def State.requestMode (s : State) (v : Nat) : State :=
  let m := s.mode
  let a := s.applyEdge
  if v = m.code ∧ s.inTransition = false then s
  else if v = 2 then
    if m = .boot then { s with safeWanted := true } else if s.psm.plan.isSome then s else s.safeNow 1
  else if v = 7 then ((s.freezeAll a).pend m v none).holdCheck
  else if v = 6 then s.pend m v (some a)
  else if m = .run ∨ m = .hold then (s.frogAll a).pend m v (some (a + 6 * vclkFs))
  else if v = 5 then
    let s := (s.wr Obj.plcState 0 1).dropTimedStart
    (s.setPlc { s.plc with arming := some (s.now + 4 * msFs) }).pend m v none
  else s.leaveDoze.pend m v (some s.now)

/-! Leaving the placed modes (R107, R503, R203). -/

/-- R203: every needle that is not OFF is IDLE. -/
def State.needlesIdle (s : State) : State := (List.range 16).foldl (fun s n => if s.ndlState n = 0 then s else s.wr Obj.ndlState n 1) s

/-- R503, R265, R550: the engine leaves the placed modes. -/
def State.unplace (s : State) : State :=
  let s := (List.range 16).foldl (fun s n => if s.strState n = 0 then s else (s.flushRing n).wr Obj.strState n 0) (s.rasStopAll.calPause)
  s.releasePlacement.needlesIdle

/-- The frogs that reach their needles by an instant are carried out, each on its edge. -/
def State.frogsDue (s : State) (t : Nat) : State :=
  (List.range 16).foldl (fun s n => match (s.ndl n).frogs.filter (fun f => decide (f.1 ≤ t)) with
    | [] => s
    | f :: r => let g := r.foldl (fun a b => if b.1 < a.1 ∨ (b.1 = a.1 ∧ b.2 < a.2) then b else a) f
                (s.frogAt n g.1 g.2).alsoUnder s n g.1) s

/-- R533: HBM leaves self-refresh. -/
def State.wakeStacks (s : State) : State :=
  [0, 1].foldl (fun s k => if s.stack k = 3 then s.setStack k 2 else s) s

/-- R108: the engine arrives in the target of a host request or of DMP.CLEAR. -/
def State.arrive (s : State) (x : Trans) : State :=
  let s := { s with trans := none }
  match Mode.ofCode x.target with
  | .boot => s.bootAsked x.source x.reason (x.due.getD s.now)
  | .idle =>
    let s := if x.source = Mode.doze.code then s.wakeStacks else s
    let s := if x.source = Mode.measure.code then s.leaveMeasure.tmuAbandon else s
    (s.fullAbandon.parkRest.enter .idle x.source x.reason).unplace
  | .doze => (s.enter .doze x.source x.reason).enterDoze
  | .measure => (s.enter .measure x.source x.reason).enterMeasure.needlesIdle
  | .calibrate => ((s.enter .calibrate x.source x.reason).tmuAbandon.fullStart).needlesIdle
  | .armed => s.arriveArmed x.source x.reason
  | _ => s

/-- R108: MODE_TRANSITION_COMPLETE: the transition in progress completes on the first edge on which it can. -/
def runModeTransitionComplete (s : State) : Res :=
  match s.trans with
  | none => .next s
  | some x =>
    match x.due with
    | none => .next s
    | some t =>
      if x.target = Mode.run.code then .next (if x.source = Mode.hold.code then s.resumeAll else s.runQualify)
      else
        let s := (s.reach t).frogsDue t
        .next (s.arrive x)

/-! Arming (R484 to R486, R13, R498). -/

/-- R485: admission is in progress, or its copies are. -/
def State.placing (s : State) : Bool := s.rd Obj.plcState 0 == 1

/-- R498, R486: ADMISSION_END: the checks end with the reply. -/
def runAdmissionEnd (s : State) : Res :=
  match s.plc.arming with
  | none => .next s
  | some _ =>
    let res := s.residence
    let s1 := s.plcDemand res
    match s.admission res with
    | some r =>
      let s2 := s1.plcRefuse r
      .next (((s2.setTrans none).setPlc { s2.plc with arming := none }).result .arming rPlace [])
    | none =>
      let cores := (s1.dealCores).take (s1.queueFlows).length
      let s2 := (s1.placeAll res).setFld Obj.cccRoles 0 F.cccRolesSiteCores (ofMembers cores)
      .next ((s2.setPlc { s2.plc with arming := none }).result .arming rOk [])

/-- R203, R265, R251, R390: a needle enters ARMED. -/
def State.armNeedle (s : State) (n : Nat) : State :=
  let s := s.wr Obj.ndlState n 2
  let s := s.setNdl n { s.ndl n with trace := [], traceRun := 0, capLive := false }
  let s := if s.streamed n then (s.wr Obj.strState n 1).flushRing n else s
  s.ndlTraceTime n

/-- R486: PLACEMENT_COPIES_DONE: the engine is in ARMED. -/
def runPlacementCopiesDone (s : State) : Res :=
  match s.trans with
  | none => .next s
  | some x =>
    if x.target = Mode.armed.code ∧ s.placing = true ∧ s.plc.arming = none then
      let s := ({ s with trans := none }).wr Obj.plcState 0 2
      let s := (needles s.hasChart).foldl State.armNeedle s
      .next ((s.enter .armed x.source x.reason).startCopy)
    else .next s

/-! Entry to SAFE and DUMP (R126 to R132, R851). -/

/-- R117: what an abandoned transition leaves is undone: an arming's placement, freezes and frogs that have not reached their needles. -/
def State.abandon (s : State) : State :=
  let arming := s.placing
  let wait := s.plc.arming.isSome
  let s := if arming then s.releasePlacement else s
  let s := if wait then s.result .arming rMode [] else s
  let s := (List.range 16).foldl (fun s n => s.setNdl n { s.ndl n with freeze := none, frogs := (s.ndl n).frogs.filter (fun f => decide (f.2 ≠ 3)) }) s
  { s with trans := none }

/-- R127, R130: the safe plan completes once no stage is left: DEV.MODE reads SAFE, and what was placed is released. -/
def State.planCheck (s : State) : State :=
  match s.psm.plan with
  | none => s
  | some (prev, dump, reason, _) =>
    if s.psm.ramp.isSome then s else
    let s := { s with psm := { s.psm with plan := none } }
    if dump then s else (s.wakeStacks.enter .safe prev reason).unplace

/-- R126: the entry edge of SAFE or DUMP: needles frog, acquisition, raster streams and streaming stop, every pin parks, the ramp-down starts. A host's SAFE request from
MEASURE abandons measurements, as R104 says of that request (DEDUCED, notes/assumptions/56.md). -/
def State.safeEnter (s : State) (dump : Bool) (reason src : Nat) : State :=
  let m := s.mode
  if m = .cold ∨ m = .dump then s
  else if dump = false ∧ (s.psm.plan.isSome = true ∨ m = .safe ∨ m = .boot) then s
  else
    let prev := s.leftMode
    let t := s.now
    let s := s.dropTimedStart.abandon
    let s := { s with safeWanted := false, psm := { s.psm with plan := some (prev, dump, reason, src), ride := none, rideArming := false } }
    let s := s.setFld Obj.psmLineStatus 0 F.psmLineStatusState 0
    let s := (needles s.busyNeedle).foldl (fun s n => (s.frogAt n t 3).alsoUnder s n t) s
    let s := (s.taeStop.rasStopAll.fullAbandon.leaveDoze).calPause
    let s := if m = .measure ∧ reason = 1 then s.leaveMeasure.tmuAbandon else s.leaveMeasure
    let s := (List.range 16).foldl (fun s n => if s.strState n = 0 then s else (s.flushRing n).wr Obj.strState n 0) s
    let s := s.rampDown
    if dump then
      let s := ((s.enter .dump prev reason).setFld Obj.dmpStatus 0 F.dmpStatusCause src).tmuAbandon
      s.wakeStacks.unplace.planCheck
    else s.planCheck

/-- R126, R786: SAFE_ENTRY: the entry on its way reaches its entry edge. -/
def runSafeEntry (s : State) : Res :=
  match s.fcr.entry with
  | none => .next s
  | some (t, dump, reason, src) => .next (({ s with fcr := { s.fcr with entry := none } }.reach t).safeEnter dump reason src)

/-- R127: the ramp-down goes on with the stage after one, or is over. -/
def State.nextStage (s : State) (st : Nat) : State := (State.startStage 9 (st + 1) s).planCheck

/-- R127: SAFE_STAGE_END: every loop of the stage has discharged. -/
def runSafeStageEnd (s : State) : Res :=
  match s.psm.ramp with
  | none => .next s
  | some (st, _) => if s.stageDone st then .next (s.nextStage st) else .next s

/-- R128: SAFE_STAGE_TIMEOUT. -/
def runSafeStageTimeout (s : State) : Res :=
  match s.psm.ramp with
  | none => .next s
  | some (st, t) =>
    let s := s.reach t
    let s := ((s.stageLoops st).filter (fun n => s.loopOn n)).foldl (fun s n => ((s.loopOff n).splCount n 4).raiseAll Ev.splSafeTimeout n) s
    .next (s.nextStage st)

/-! The ride-through plan (R607 to R612, R118). -/

/-- R122, R451, R608: RIDETHRU is entered; pins stay as they are until the plan parks them. -/
def State.rideEnter (s : State) : State :=
  let prev := s.leftMode
  let arming := s.placing
  let s := (s.dropTimedStart.abandon).leaveDoze
  let s := if s.mode = .doze then s.wakeStacks else s
  let s := (s.fullAbandon.rasStopAll).taeHold s.now
  let s := s.enter .ridethru prev 11
  let s := { s with psm := { s.psm with ride := some (s.now : Int), rideArming := arming } }
  s.wr Obj.psmLineStatus 0 (1 + s.fld Obj.psmLineStatus 0 F.psmLineStatusLinewarn * 2 ^ 8 + s.fld Obj.psmLineStatus 0 F.psmLineStatusBulk * 2 ^ 32 + s.stamp * 2 ^ 96)

/-- R607, R612, R116, R119: LINEWARN: a disturbance appears: a bulk sample below BULK_LOW, else LINEWARN high for 50 TCLK, which counts where LINEWARN_EN is 1. Entry to SAFE
goes before it. While the safe plan runs and DEV.MODE still reads another mode, R119 does not say whether the event counts: DESIGN CHOICE, it does not (notes/assumptions/57.md). -/
def runLinewarn (bulk : Bool) (s : State) : Res :=
  let s := if bulk then s else s.setFld Obj.psmLineStatus 0 F.psmLineStatusLinewarn 1
  if s.psm.line || (if bulk then !s.bulkLow else s.fld Obj.psmLineCfg 0 F.psmLineCfgLinewarnEn == 0) then .next s else
  let s := { s with psm := { s.psm with line := true } }
  match s.mode with
  | .cold | .boot | .safe | .dump => .next ((s.psmCount 0).psmCount 3)
  | .ridethru => .next s
  | _ => if s.safeGoing then .next s else .next (((s.rideEnter).psmCount 0).latch Ev.lineWarn)

/-- R608: field of entry i of the plan: TIME, ACTION, ARG. -/
def State.planEntry (s : State) (i : Nat) : Nat × Nat × Nat :=
  let v := Fld.get ⟨64 * i + 64, 64⟩ (s.rd Obj.psmRidethruPlan 0)
  (v % 2 ^ 32, v / 2 ^ 32 % 16, v / 2 ^ 48)

/-- R610: the commit point is passed. -/
def State.lineCommit (s : State) : State :=
  if s.fld Obj.psmLineStatus 0 F.psmLineStatusState = 1 then ((s.setFld Obj.psmLineStatus 0 F.psmLineStatusState 2).psmCount 2).latch Ev.lineCommit else s

/-- The plan clock's value in µs as an instant. -/
def rideAt (r : Int) (us : Nat) : Nat := (r + (us * usFs : Nat)).toNat

/-- R608: the action of a plan entry. -/
def State.planAction (s : State) (act arg : Nat) : State :=
  match act with
  | 1 => ((members 16 arg).filter s.busyNeedle).foldl (fun s n => (s.frogAt n (s.edgeAt vclkFs s.now) 2).alsoUnder s n (s.edgeAt vclkFs s.now)) s
  | 2 => State.startStage 9 0 s
  | 3 => (s.addSummary (s.summaryRecord 2 (Config.freeValue s.freeCtr % 65536) (Config.freeValue (s.freeCtr + 1) % 2 ^ 96))).draw.draw
  | 4 => s.scheduleEntry s.now false 13 0xFFFF
  | _ => s

/-- R608: RIDETHRU_PLAN_ENTRY: the plan clock reaches the next used entry's TIME. -/
def runRidethruPlanEntry (s : State) : Res :=
  match s.psm.ride with
  | none => .next s
  | some r =>
    let i := s.fld Obj.psmLineStatus 0 F.psmLineStatusNext
    match ((List.range 16).filter (fun k => decide (i ≤ k) && (s.planEntry k).2.1 != 0)).head? with
    | none => .next s
    | some k =>
      let (time, act, arg) := s.planEntry k
      let s := s.reach (rideAt r time)
      let s := if time ≥ s.fld Obj.psmRidethruPlan 0 F.psmRidethruPlanCommit then s.lineCommit else s
      .next ((s.setFld Obj.psmLineStatus 0 F.psmLineStatusNext (k + 1)).planAction act arg)

/-- R610: LINE_COMMIT: the plan clock reaches COMMIT. -/
def execLineCommit (s : State) : Res :=
  match s.psm.ride with
  | none => .next s
  | some r => .next ((s.reach (rideAt r (s.fld Obj.psmRidethruPlan 0 F.psmRidethruPlanCommit))).lineCommit)

/-- R118: the mode to which the engine returns. -/
def State.rideReturn (s : State) : Mode :=
  let prev := Mode.ofCode (s.rd Obj.devPrevMode 0)
  if s.psm.rideArming then .idle
  else if prev = .run ∨ prev = .hold then (if s.anyRunning then .run else if s.anyBusy then .hold else .armed)
  else prev

/-- R607, R611, R118: LINE_RECOVERED: LINEWARN has been low for 50 TCLK. Unless the bulk supply still lies below BULK_LOW the disturbance clears; before the commit point the plan
ends and the engine returns. -/
def runLineRecovered (s : State) : Res :=
  let s := s.setFld Obj.psmLineStatus 0 F.psmLineStatusLinewarn 0
  if s.bulkLow then .next s else
  let s := { s with psm := { s.psm with line := false } }
  let s := match s.psm.ride with
    | some r => if rideAt r (s.fld Obj.psmRidethruPlan 0 F.psmRidethruPlanCommit) ≤ s.now then s.lineCommit else s
    | none => s
  if s.psm.ride.isNone ∨ s.fld Obj.psmLineStatus 0 F.psmLineStatusState ≠ 1 then .next s else
  let m := s.rideReturn
  let s := { s with psm := { s.psm with ride := none, rideArming := false } }
  let s := (((s.setFld Obj.psmLineStatus 0 F.psmLineStatusState 0).enter m 10 12).psmCount 1).latch Ev.lineRecovered
  match m with
  | .run => .next (s.taeResume s.now)
  | .armed => .next (s.taeResume s.now).calPause
  | .calibrate => .next s.fullStart
  | .doze => .next s.enterDoze
  | _ => .next s

/-! The stages of boot (R808). -/

/-- R808, R851: stage 9: PSM.DOMAIN_REQ is applied, and BOOT ends. -/
def State.stage9 (s : State) : State :=
  ((allDomains.filter (fun d => !bit (s.rd Obj.psmDomainReq 0) d)).foldl State.domainOff s).bootDone

/-- R808, R816: BOOT_STAGE_END: the stage in progress completes with what it found: a number and a list, which are the objects of the records with a bad CRC in stages 1 and 7 and the
TDCs whose table fails in stage 6 (notes/assumptions/2.md). -/
def runBootStageEnd (a : Nat) (b : Nats) (s : State) : Res :=
  if s.mode ≠ .boot ∨ s.bot.held = true then .next s else
  match s.bootStage with
  | 1 => .next (s.stage1 b)
  | 2 => .next (s.stage2 a)
  | 3 => if s.fld Obj.clkState 0 F.clkStateSource = 3 then .next s else .next (s.stage3 (decide (a ≠ 0)))
  | 4 => .next s.stage4
  | 5 => .next s.stage5
  | 6 => .next (s.stage6 a b)
  | 7 => .next (s.stage7 (decide (a ≠ 0)) b)
  | 8 => .next s.stage8
  | 9 => .next s.stage9
  | _ => .next s


end Sys2Proof.Machine
end

