-- ==== Sys2Proof/Machine/Operands.lean ====
section
/-! DEFINITION. The values that a write may carry: the types of R67 and R849, and the ranges of every object's fields as its owning chapter states them (step 7 of R71). -/
namespace Sys2Proof.Machine

/-! Types (R67). -/

/-- R67: valid UTF-8; `need` continuation bytes are still due, the next of them within lo to hi. -/
def utf8 : Nat → Nat → Nat → List Nat → Bool
  | 0, _, _, [] => true
  | _ + 1, _, _, [] => false
  | n + 1, lo, hi, b :: t => decide (lo ≤ b ∧ b ≤ hi) && utf8 n 0x80 0xBF t
  | 0, _, _, b :: t =>
    if b < 0x80 then utf8 0 0 0 t
    else if 0xC2 ≤ b ∧ b ≤ 0xDF then utf8 1 0x80 0xBF t
    else if b = 0xE0 then utf8 2 0xA0 0xBF t
    else if b = 0xED then utf8 2 0x80 0x9F t
    else if 0xE1 ≤ b ∧ b ≤ 0xEF then utf8 2 0x80 0xBF t
    else if b = 0xF0 then utf8 3 0x90 0xBF t
    else if 0xF1 ≤ b ∧ b ≤ 0xF3 then utf8 3 0x80 0xBF t
    else if b = 0xF4 then utf8 3 0x80 0x8F t
    else false

/-- R67: the length of a value in bytes, for the types of fixed length. -/
def tyLen : ObjTy → Option Nat
  | .bool => some 1
  | .uint n _ _ => some n
  | .sint n _ _ => some n
  | .enum _ => some 1
  | .command => some 1
  | .bitset n _ => some n
  | .str _ => none
  | .stamp => some 12
  | .record n => some n
  | .domain => none
  | .service => none

/-- Step 4 of R71 for a write (R67, R68). The type of a service object is Weahan's. -/
def typeOk (ty : ObjTy) (b : Bytes) : Bool :=
  match ty with
  | .str _ => decide (2 ≤ b.length) && b.length == 2 + leAt b 0 2 && utf8 0 0 0 ((b.drop 2).map (·.toNat))
  | .domain => false
  | .service => true
  | t => tyLen t == some b.length

/-- Step 7 of R71 as far as the type decides (R67). -/
def tyRange (ty : ObjTy) (v : Nat) : Bool :=
  match ty with
  | .bool => decide (v ≤ 1)
  | .uint _ lo hi => decide (lo ≤ v ∧ v ≤ hi)
  | .sint n lo hi => decide (lo ≤ toSigned (8 * n) v ∧ toSigned (8 * n) v ≤ hi)
  | .enum l => l.contains v
  | .command => decide (v ≤ 1)
  | .bitset _ n => decide (v < 2 ^ n)
  | .str m => decide (v % 65536 ≤ m)
  | .stamp => decide (Fld.get ⟨16, 32⟩ v < 1000000000)
  | _ => true

/-! Ranges of fields. -/

/-- Bits lo to lo + w − 1 are zero (a reserved field). -/
def zero (v lo w : Nat) : Bool := Fld.get ⟨lo, w⟩ v == 0

/-- A field lies within lo to hi. -/
def within (v : Nat) (f : Fld) (lo hi : Nat) : Bool := decide (lo ≤ f.get v ∧ f.get v ≤ hi)

/-- A signed field lies within ±m. -/
def withinS (v : Nat) (f : Fld) (m : Nat) : Bool := decide ((toSigned f.w (f.get v)).natAbs ≤ m)

/-- R589: an input number, or 0xFF for none. -/
def ainOk (v : Nat) (f : Fld) : Bool := decide (f.get v < 128) || f.get v == 0xFF

/-- R743: an IPv4 address that is no multicast address. -/
def v4Unicast (a : Nat) : Bool := a / 2 ^ 28 != 0xE

/-- R743: an IPv6 address that is no multicast address. -/
def v6Unicast (a : Nat) : Bool := a / 2 ^ 120 != 0xFF

/-- R743: HLK.IPV4. -/
def ipv4Ok (v : Nat) : Bool :=
  let a := netVal 4 (F.hlkIpv4Address.get v)
  let g := netVal 4 (F.hlkIpv4Gateway.get v)
  within v F.hlkIpv4Prefix 0 32 && zero v 40 24 && v4Unicast a && v4Unicast g && (g == 0 || samePrefix 32 (F.hlkIpv4Prefix.get v) a g)

/-- R743, R744: HLK.IPV6; a link-local gateway lies on the link. -/
def ipv6Ok (v : Nat) : Bool :=
  let a := netVal 16 (F.hlkIpv6Address.get v)
  let g := netVal 16 (F.hlkIpv6Gateway.get v)
  within v F.hlkIpv6Prefix 0 128 && zero v 136 56 && v6Unicast a && v6Unicast g &&
  (g == 0 || g / 2 ^ 64 == 0xFE80000000000000 || samePrefix 128 (F.hlkIpv6Prefix.get v) a g)

/-- R463, R464: a source code that an input of TDC t may select. -/
def tmuSource (t c : Nat) : Bool :=
  let i := c % 4096
  match c / 4096 with
  | 0 => i == 0
  | 1 | 2 | 3 | 4 => decide (i < 256) && i / 32 == t / 4
  | 5 => decide (i < 4)
  | 6 | 7 | 8 | 9 => i == 0
  | _ => false

/-- R478: TMU.CFG of TDC t. -/
def tmuCfgOk (t v : Nat) : Bool :=
  within v F.tmuCfgMode 0 4 && (F.tmuCfgTimebase.get v == 0 || F.tmuCfgMode.get v == 3) && within v F.tmuCfgEdgeA 0 2 && within v F.tmuCfgEdgeB 0 2 &&
  tmuSource t (F.tmuCfgSrcA.get v) && tmuSource t (F.tmuCfgSrcB.get v) && decide (1 ≤ F.tmuCfgSpan.get v) && zero v 64 64

/-- R574: RAS.TIMING. -/
def rasTimingOk (v : Nat) : Bool :=
  let g := fun i => Fld.get ⟨16 * i, 16⟩ v
  decide (g 1 + 1 ≤ g 0 ∧ 1 ≤ g 1 ∧ g 1 ≤ 4096 ∧ g 2 < g 3 ∧ g 3 ≤ g 0 ∧ g 5 + 2 ≤ g 4 ∧ 1 ≤ g 5 ∧ g 5 ≤ 4096 ∧ g 6 < g 7 ∧ g 7 ≤ g 4)

/-- R609, R616: PSM.RIDETHRU_PLAN. -/
def planOk (v : Nat) : Bool :=
  let time := fun i => Fld.get ⟨64 * i + 64, 32⟩ v
  let act := fun i => Fld.get ⟨64 * i + 96, 4⟩ v
  let used := (List.range 16).filter (fun i => act i != 0)
  let commit := F.psmRidethruPlanCommit.get v
  zero v 32 32 &&
  (List.range 16).all (fun i => decide (act i ≤ 4) && zero v (64 * i + 100) 12 && (act i == 1 || zero v (64 * i + 112) 16)) &&
  used.all (fun i => decide (time i ≤ 100000) && (act i == 1 || decide (commit ≤ time i))) &&
  (used.zip (used.drop 1)).all (fun (p : Nat × Nat) => decide (time p.1 ≤ time p.2)) &&
  (used.filter (fun i => act i == 4)).length == 1 && (used.getLast?.map act) == some 4 &&
  decide ((used.filter (fun i => act i == 2)).length ≤ 1) && decide ((used.filter (fun i => act i == 3)).length ≤ 1)

/-- R615: SPL.CFG. -/
def splCfgOk (v : Nat) : Bool :=
  ainOk v F.splCfgVsenseAin && ainOk v F.splCfgIsenseAin && decide (640 ≤ F.splCfgPeriod.get v) && zero v 72 56 &&
  decide (F.splCfgDutyMax.get v + 2 * F.splCfgDeadtime.get v ≤ F.splCfgPeriod.get v)

/-- R784: FCR.REACTION. -/
def reactionOk (v : Nat) : Bool :=
  (List.range 512).all (fun n =>
    let b := Fld.get ⟨8 * n, 8⟩ v
    match faultClass n with
    | none => b == 0
    | some c => bit b 0 && decide (b < 64) && (c != 0 || decide (b < 4)) && (c != 2 || bit b 4 || bit b 5) && (n != Ev.fcrParity || b == 0x13))

/-- R67: an F32 that is neither NaN nor infinite. -/
def f32Ok (v : Nat) : Bool := Fld.get ⟨23, 8⟩ v != 0xFF

/-- R573: RAS.STREAM_CFG of stream i; a needle that the other stream names is refused. -/
def State.streamCfgOk (s : State) (i v : Nat) : Bool :=
  let n := F.rasStreamCfgNeedle.get v
  let lines : Int := (s.rasT i F.rasTimingVtotal : Int) - s.rasT i F.rasTimingVactive - 1
  zero v 10 6 && zero v 40 24 && (decide (n < 16) || n == 0xFF) && (n == 0xFF || s.fld Obj.rasStreamCfg (1 - i) F.rasStreamCfgNeedle != n) &&
  decide (1 ≤ F.rasStreamCfgWindow.get v ∧ (F.rasStreamCfgWindow.get v : Int) ≤ lines) && within v F.rasStreamCfgFlyLimit 1 255

/-- Step 7 of R71: the fields of an object's value, as the field maps and limits of its chapter state them, in chapters 16 to 22 and 2. -/
def State.rangeSys (s : State) (o el v : Nat) : Bool :=
  if o = Obj.secPoaCfg then within v F.secPoaCfgUdpPort 1 65535 && zero v 17 47
  else if o = Obj.secMcastCfg then within v ⟨0, 2⟩ 0 2 && zero v 2 6
  else if o = Obj.hlkPortCfg then within v F.hlkPortCfgMode 0 2 && zero v 3 13 && within v F.hlkPortCfgMaxFrame 1518 9216 && zero v 32 32
  else if o = Obj.hlkIpv4 then ipv4Ok v
  else if o = Obj.hlkIpv6 then ipv6Ok v
  else if o = Obj.hlkVlan then within v F.hlkVlanVid 0 4094 && zero v 13 19
  else if o = Obj.hlkPrioCfg then zero v 17 7 && zero v 40 24
  else if o = Obj.hlkMcastGroups then zero v 1032 56
  else if o = Obj.clkCfg then within v ⟨0, 2⟩ 0 2 && zero v 2 62
  else if o = Obj.clkSyncCfg then within v F.clkSyncCfgCheckLimit 1 65535 && zero v 16 48
  else if o = Obj.clkStartAt then zero v 16 48
  else if o = Obj.ptpCfg then within v F.ptpCfgTransport 0 2 && zero v 5 3 && within v F.ptpCfgDomain 0 127 && zero v 16 48
  else if o = Obj.ptpPortCfg then within v F.ptpPortCfgRxLat 0 65536000000 && within v F.ptpPortCfgTxLat 0 65536000000
  else if o = Obj.ptpServoCfg then within v F.ptpServoCfgMode 0 2 && zero v 2 14 && within v F.ptpServoCfgLockLimit 1 65535 && within v F.ptpServoCfgStepLimit 1 1000000000
  else if o = Obj.ptpIncrement then decide (((v : Int) - ptpNominal).natAbs * 1000000 ≤ 500 * ptpNominal)
  else if o = Obj.ptpTxqOvf then v == 0
  else if o = Obj.cslPortCfg then zero v 3 61
  else if o = Obj.cslLaneCtrl then within v F.cslLaneCtrlSlip 0 9 && zero v 13 19
  else if o = Obj.wdpTraceCtrl then zero v 1 7 && within v F.wdpTraceCtrlSize 0 64 && (!bit v 0 || F.wdpTraceCtrlSize.get v != 0) && zero v 32 32
  else if o = Obj.iecGroupCfg then (List.range 32).all (fun g => within v ⟨32 * g, 24⟩ 0 16000000 && zero v (32 * g + 25) 7)
  else if o = Obj.fcrReaction then reactionOk v
  else if o = Obj.fcrClear then v == 0xFFFF || (faultClass v).isSome
  else if o = Obj.fcrInject then injectOk v
  else if o = Obj.psmDomainReq then zero v 0 1 && zero v 21 11
  else if o = Obj.psmPmbusMap then (List.range 10).all (fun r => zero v (32 * r + 16) 16)
  else if o = Obj.psmSafeStages then (List.range 8).all (fun i => within v ⟨16 * i, 16⟩ 10 65535)
  else if o = Obj.psmLineCfg then zero v 1 7 && ainOk v F.psmLineCfgBulkAin && zero v 16 16 && zero v 96 32 &&
    decide (toSigned 32 (F.psmLineCfgBulkCommit.get v) ≤ toSigned 32 (F.psmLineCfgBulkLow.get v))
  else if o = Obj.psmRidethruPlan then planOk v
  else if o = Obj.splCfg then splCfgOk v
  else if o = Obj.splLimits then decide (F.splLimitsIlimMax.get v < 2 ^ 31) && within v F.splLimitsSoftstart 1 1000000
  else if o = Obj.splSafePlan then zero v 3 5 && within v F.splSafePlanRamp 1 1000000 && decide (F.splSafePlanDischarge.get v < 2 ^ 31) && zero v 72 24
  else if o = Obj.splSetpoint ∨ o = Obj.splIlimit then
    let (lo, hi) := s.supplyLimits el (if o = Obj.splSetpoint then 0 else 1)
    decide (lo ≤ toSigned 32 v ∧ toSigned 32 v ≤ hi)
  else if o = Obj.adcSeq then (List.range 8).all (fun c => within v ⟨128 * c + 64, 5⟩ 1 16 && zero v (128 * c + 69) 59)
  else if o = Obj.adcWindow then within v F.adcWindowAction 0 2 && within v F.adcWindowPersist 1 16 && zero v 76 52
  else if o = Obj.adcCal then f32Ok v && f32Ok (v / 2 ^ 32)
  else if o = Obj.adcSyscal then within v F.adcSyscalStep 1 2 && zero v 8 24
  else true

/-- Step 7 of R71, as rangeSys, for the chapters of needles, pins, capture, acquisition, calibration, placement, memory and raster. -/
def State.rangeTest (s : State) (o el v : Nat) : Bool :=
  if o = Obj.ndlChart then decide (v ≤ 0x3FF) || v == 0xFFFF
  else if o = Obj.ndlJumpTable then zero v 264 56
  else if o = Obj.ndlTraceCtrl then zero v 17 7 && zero v 32 32 && (F.ndlTraceCtrlEnable.get v == 0 || F.ndlTraceCtrlSize.get v != 0)
  else if o = Obj.ptfPinCfg then zero v 4 4
  else if o = Obj.ptfGauge then (List.range 6).all (fun q => withinS v (gaugeFld q) 2000)
  else if o = Obj.lvlBankCfg then (List.range 8).all (fun b => within v ⟨16 * b, 2⟩ 0 2 && zero v (16 * b + 2) 6 && within v ⟨16 * b + 8, 7⟩ 4 64 && zero v (16 * b + 15) 1)
  else if o = Obj.lvlHostCmd then zero v 34 30
  else if o = Obj.ptfFailLogCfg then within v F.ptfFailLogCfgDlog 0 2 && zero v 3 29
  else if o = Obj.ptfCapCfg then within v F.ptfCapCfgSize 0 4096 && zero v 15 49
  else if o = Obj.rqpPoolCfg then within v F.rqpPoolCfgQueueCells 16 16384 && within v F.rqpPoolCfgResumeCells 1 4096 && zero v 35 93
  else if o = Obj.taePins then decide (popcount 256 v ≤ 64)
  else if o = Obj.taeSampleCfg then within v F.taeSampleCfgDiv 0 20 && zero v 6 58
  else if o = Obj.taeTrigCfg then within v F.taeTrigCfgMode 0 2 && zero v 2 6 && zero v 12 4 && zero v 19 5 && zero v 36 28 && within v F.taeTrigCfgCount 1 (2 ^ 32 - 1) && zero v 96 32
  else if o = Obj.taeTriginCfg then zero v 4 12
  else if o = Obj.tmuCfg then tmuCfgOk el v
  else if o = Obj.calCtrl then zero v 1 7 && zero v 22 42
  else if o = Obj.calFullCfg then zero v 16 48
  else if o = Obj.plcStreamProfile then within v F.plcStreamProfileCopies 0 64 && zero v 8 56
  else if o = Obj.plcCoreMask then v != 0
  else if o = Obj.hmsHash then s.hashOk v
  else if o = Obj.hmsRhCfg then zero v 1 7 && within v F.hmsRhCfgK 4 20 && zero v 13 51
  else if o = Obj.hmsSrCfg then zero v 1 31 && within v F.hmsSrCfgIdle 10 10000000
  else if o = Obj.hmsScrubCfg then zero v 1 31 && within v F.hmsScrubCfgPeriod 60 604800
  else if o = Obj.rasStreamCfg then s.streamCfgOk el v
  else if o = Obj.rasTiming then rasTimingOk v
  else if o = Obj.rasLaneMap then (List.range 32).all (fun i => zero v (32 * i + 13) 3 && zero v (32 * i + 24) 7 && within v ⟨32 * i + 8, 5⟩ 0 28)
  else if o = Obj.rasReturnMap then (List.range 32).all (fun i => zero v (32 * i + 8) 23)
  else if o = Obj.rasLayerCfg then within v F.rasLayerCfgFormat 0 2 && within v F.rasLayerCfgBuffers 0 4 && zero v 5 11 && within v F.rasLayerCfgWidth 1 4096 && within v F.rasLayerCfgHeight 1 4096 && zero v 48 16
  else if o = Obj.rasLayerShadow then zero v 3 13 && zero v 48 16 && decide (F.rasLayerShadowFront.get v < s.fld Obj.rasLayerCfg el F.rasLayerCfgBuffers)
  else if o = Obj.rasCrcRectOut ∨ o = Obj.rasCrcRectRet then within v ⟨32, 16⟩ 0 4096 && within v ⟨48, 16⟩ 0 4096 && zero v 98 30
  else true

/-- Step 7 of R71 for an element of an object and a value. -/
def State.rangeOk (s : State) (r : ObjRow) (el v : Nat) : Bool :=
  tyRange r.ty v && s.rangeSys r.ix el v && s.rangeTest r.ix el v

end Sys2Proof.Machine
end

