-- ==== Sys2Proof/Machine/Sessions.lean ====
section
/-! DEFINITION. Items, replies and their frames (R686 to R690, R701), the ends of transfers and sessions (R698, R709). -/
namespace Sys2Proof.Machine

/-! Items. -/

/-- R687: the service code of an item. -/
def itemSvc (b : Bytes) : Nat := beAt b 0 1

/-- R689: the bytes of a service's reply after REASON and MEMBER where it carries no value, no data. -/
def replyLen : Nat → Nat
  | 0x01 => 4
  | 0x03 => 12
  | 0x04 => 12
  | 0x06 => 12
  | 0x07 => 4
  | 0x0A => 16
  | 0x10 => 20
  | 0x11 => 32
  | _ => 0

/-- R688, R689: a reply item; where the service gives no fields they read 0 (notes/assumptions/40.md). -/
def replyItem (svc reason member : Nat) (body : Bytes) : Bytes :=
  mkReply svc reason member (if body.isEmpty then List.replicate (replyLen svc) 0#8 else body)

/-- R690: the reply to a malformed item. -/
def badItem (svc : Nat) : Bytes := mkReply svc rType 0xFFFF []

/-- R699, R700, R702: an item answered with E_SEQ. -/
def seqItem (item : Bytes) : Bytes := replyItem (itemSvc item) rSeq 0xFFFF []

/-- R689: the reply fields of a DOMAIN_DATA item: DLEN, CHECK, OFFSET; DLEN and OFFSET repeat the item's (notes/assumptions/40.md). -/
def dataHead (dlen check off : Nat) : Bytes := toBE 2 dlen ++ [BitVec.ofNat 8 check, 0#8] ++ toBE 8 off

/-! Replies. -/

/-- R731: the session as it stands now, or as it stood when its frame came. -/
def State.bound (s : State) (n : Nat) (who : Session) : Session := (s.session n).getD who

/-- R42, R44: the instant at which the first byte of a reply leaves the MAC: 180 FCLK after the last byte of the request came, unless its accesses took longer; behind
bulk frames it may stand up to 18 µs after the request came (how long is a free value, notes/assumptions/3.md). -/
def State.replyAt (s : State) (high : Bool) (came : Nat) : Nat :=
  max s.now (came + 180 * fclkFs + (if high then 0 else Config.freeValue s.freeCtr % (18 * usFs - 180 * fclkFs + 1)))

/-- R688, R693, R701, R704: a reply frame. One longer than MAX_FRAME is not sent (notes/assumptions/41.md). -/
def State.sendReply (s : State) (n : Nat) (who : Session) (seq : Nat) (high keep : Bool) (came : Nat) (items : List Bytes) : State :=
  let x := s.bound n who
  let f := tagFrame who.key (mkFrame 2 0 n seq items)
  if f.length > who.maxFrame then s
  else
    let t := s.replyAt high came
    let s := if high then s else s.draw
    let s := if keep && (s.session n).isSome then s.setSession n (some { x with replies := lastN 16 (x.replies ++ [(seq, f)]) }) else s
    s.transmit t x.port x.sub x.addr x.udp high 0 f

/-! The ends of transfers (R709). -/

/-- R192, R198, R306, R709, R818: a write that ends in any way other than validation or deletion is a failed load. -/
def State.loadFailed (s : State) (ix el : Nat) : State :=
  if ix = Obj.ndlChartImage then s.chartFail el rSeq 0 0
  else if ix = Obj.ptfWaveTable then (s.waveClear el 3).waveError el rSeq (0, 0, 0, 7)
  else if ix = Obj.botFwImage then s.setSlot false el []
  else if ix = Obj.botPatchImage then s.setSlot true el []
  else if ix = Obj.rasBuffer then s.wr Obj.rasBufferState el 0
  else s

/-- R709: a transfer ends other than by validation: a pending final reply is refused with E_SEQ. -/
def State.endXfer (s : State) (id : Nat) (x : Xfer) : State :=
  let s := s.setXfer id none
  let s := if x.validating then s.result (.xfer id) rSeq [] else s
  if x.read then s else s.loadFailed x.ix x.el

/-- R698: what a closed session's frame still has to answer is answered with E_SEQ. -/
def State.dropJob (s : State) (j : Job) : State :=
  s.sendReply j.session j.who j.seq j.high false j.came (j.replies ++ j.items.map seqItem)

/-- R698: a request that waits for its reply and was commanded alone is answered with E_SEQ. -/
def State.dropWaiter (s : State) (w : Waiter) : State :=
  if w.inFrame then s else s.emit (.item w.session (replyItem w.service rSeq 0xFFFF []))

/-- R698, R709, R713: a session closes: its subscriptions and transfers end, and the slot is free. -/
def State.closeSession (s : State) (n : Nat) : State :=
  match s.session n with
  | none => s
  | some _ =>
    let s := { s with poa := { s.poa with subs := s.poa.subs.filter (fun (p : Nat × Option Sub) => match p.2 with | some y => y.session != n | none => true) } }
    let s := s.poa.xfers.foldl (fun s (p : Nat × Option Xfer) => match p.2 with | some x => if x.session = n then s.endXfer p.1 x else s | none => s) s
    let s := (s.waiters.filter (fun w => w.session == n)).foldl State.dropWaiter s
    let s := (s.jobs.filter (fun j => j.session == n)).foldl State.dropJob s
    { s with waiters := s.waiters.filter (fun w => w.session != n), jobs := s.jobs.filter (fun j => j.session != n) }.setSession n none

end Sys2Proof.Machine
end

