-- ==== Sys2Proof/Machine/Ode.lean ====
section
/-! DEFINITION. The Object Dictionary Engine: elements, groups (R46 to R56), the steps of R71, the conditions of step 8, the effect of every write. -/
namespace Sys2Proof.Machine

/-- Who makes an access: the session (0xFFFF a multicast frame), its level and the port that carried it. -/
structure Who where
  session : Nat
  level : Nat
  port : Nat
  deriving DecidableEq, Repr

/-- The answer to an item: its reason, MEMBER and fields; a malformed item (R690); or a reply that is formed later (R707, R712, R13). -/
inductive Ans where
  | done (reason member : Nat) (body : Bytes)
  | bad
  | wait (t : Token) (dlen off : Nat)
  deriving DecidableEq, Repr

/-- A plain answer with a reason. -/
def Ans.of (r : Nat) : Ans := .done r 0xFFFF []

/-! Elements (R48 to R54, R846). -/

/-- R49: the instances, the groups and the group mask object of a class. -/
def clsInfo : ObjCls → Nat × Nat × Nat
  | .pin => (256, 64, Obj.odeGroupPin)
  | .site => (64, 16, Obj.odeGroupSite)
  | .needle => (16, 8, Obj.odeGroupNeedle)
  | .loop => (32, 8, Obj.odeGroupLoop)
  | .core => (16, 0, 0)
  | .ain => (128, 0, 0)
  | .port => (2, 0, 0)
  | .cport => (4, 0, 0)
  | .chart => (1024, 0, 0)
  | .aunit => (8, 0, 0)
  | .tdc => (40, 0, 0)
  | .stream => (2, 0, 0)
  | .layer => (8, 0, 0)
  | .own n => (n, 0, 0)
  | _ => (1, 0, 0)

/-- The members that an element selects; none for an element that is refused with E_NOELEM, an empty group among them. A class without groups has no
broadcast element (R49: every element of 0xFE00 or above is refused); an object of a range of its own has one (R846). -/
def State.elems (s : State) (c : ObjCls) (el : Nat) : List Nat :=
  match c with
  | .single => if el = 0 then [0] else []
  | .composite a b => if el / 256 < a ∧ el % 256 < b then [el] else []
  | .subPort => if el / 256 < 2 ∧ el % 256 < s.subCount (el / 256) then [el] else []
  | c =>
    let i := clsInfo c
    let own := match c with | .own _ => true | _ => false
    if el < i.1 then [el] else if el = 0xFFFF ∧ (own || i.2.1 != 0) = true then List.range i.1
    else if 0xFE00 ≤ el ∧ el < 0xFE00 + i.2.1 then members i.1 (s.rd i.2.2 (el - 0xFE00)) else []

/-- R55: whether an element is a group or the broadcast element. -/
def isGroup (el : Nat) : Bool := decide (0xFE00 ≤ el)

/-! Step 5 (R70, R73). -/

/-- R73: whether an index is served in the mode. -/
def State.serves (s : State) (ix : Nat) : Bool :=
  let r := fun a b => decide (a ≤ ix ∧ ix ≤ b)
  match s.mode with
  | .cold => false
  | .boot => (List.range 2).any (fun p => (s.subs p).any (fun k => s.linkUp p k)) && (r 0x1000 0x15FF || r 0x6200 0x63FF)
  | .doze => r 0x1000 0x15FF || r 0x5000 0x52FF || r 0x6000 0x63FF
  | .dump => r 0x1000 0x12FF || r 0x1500 0x15FF || r 0x6200 0x63FF
  | _ => true

/-- Whether a session level reaches an object's level. -/
def reaches (need : Option Nat) (level : Nat) : Bool := match need with | some l => decide (l ≤ level) | none => false

/-- R74: whether an access goes through a core. -/
def State.fwServed (s : State) (r : ObjRow) : Bool := r.fw || s.mode == .doze

/-- R72: step 6. -/
def State.faultRefuses (s : State) (ix v : Nat) : Bool :=
  s.faultState && ((ix == Obj.devModeReq && [5, 6, 8, 9].contains v) || ix == Obj.ndlStart || ix == Obj.clkStartAt)

/-- R76, R754, R759: an access handed to SYSTEM_0 as an item of flow 88; refused where the ready lists are full. Its checks are made when it is accepted, its effect or its
sample when the item completes (notes/assumptions/42.md). -/
def State.firmware (s : State) (read : Bool) (ix el : Nat) (els : List Nat) (v : Nat) : Option Token × State :=
  match s.enqueue 88 0 3 with
  | (false, s) => (none, s)
  | (true, s) =>
    let id := s.ode.next
    (some (.fw id), { s with ode := { s.ode with jobs := s.ode.jobs ++ [⟨id, read, ix, el, els, v⟩], next := id + 1 } })

/-- R754, R759: the item of flow 89 that a transfer, a stream fragment or a subscription posts for SYSTEM_1; its answer does not wait for it (notes/assumptions/42.md). -/
def State.post89 (s : State) : Bool × State := s.enqueue 89 0 4

/-! Reads. -/

/-- R71 steps 1 to 5 for a read: the reason and the members. -/
def State.readCheck (s : State) (level ix el : Nat) : Nat × List Nat :=
  match objRow ix with
  | none => (rNoObj, [])
  | some r =>
    let els := s.elems r.cls el
    if els.isEmpty then (rNoElem, [])
    else if !reaches r.rd level then (rAccess, [])
    else if r.ty == .domain then (rType, [])
    else if !s.serves ix then (rMode, [])
    else (rOk, els)

/-- R61: the value of the members as they stand, none where they differ. -/
def State.sample (s : State) (ix : Nat) (els : List Nat) : Option Bytes :=
  match els with
  | [] => none
  | e :: t => let b := s.readBytes ix e; if t.all (fun x => s.readBytes ix x == b) then some b else none

/-- R62: a read that used a free value moves the counter on. -/
def State.readDone (s : State) (ix : Nat) : State := if s.readFree ix then s.draw else s

/-- R61: the reason, the reply's fields and the state after a read of members that passed its checks. -/
def State.readNow (s : State) (ix : Nat) (els : List Nat) : Nat × Bytes × State :=
  match s.sample ix els with
  | some b => (rOk, toBE 2 b.length ++ [0#8, 0#8] ++ b, s.readDone ix)
  | none => (rMixed, [], s.readDone ix)

/-- R61, R71: READ. -/
def State.readItem (s : State) (w : Who) (ix el : Nat) : Ans × State :=
  match s.readCheck w.level ix el with
  | (0, els) =>
    if ((objRow ix).map s.fwServed).getD false then
      match s.firmware true ix el els 0 with
      | (some k, s) => (.wait k 0 0, s)
      | (none, s) => (.of rBusy, s)
    else let (r, b, s) := s.readNow ix els; (.done r 0xFFFF b, s)
  | (r, _) => (.of r, s)

/-! Step 8 for writes. -/

/-- R484, R485: the objects that placement reads. -/
def placingObj (ix : Nat) : Bool :=
  let r := fun a b => decide (a ≤ ix ∧ ix ≤ b)
  r 0x2000 0x28FF || r 0x4000 0x42FF || r 0x4800 0x48FF || r 0x4A00 0x4AFF || ix == Obj.wdpTraceCtrl || ix == Obj.ptfWaveDelete

/-- R60, R89: a staged write that addressed an element of one of some objects has not reached its apply edge. -/
def State.stagedGroup (s : State) (objs : List Nat) (el : Nat) : Bool :=
  s.staged.any (fun x => objs.contains x.obj && x.el == el && decide (s.now < x.due))

/-- R89: a group mask written in ARMED. -/
def State.groupCond (s : State) (objs : List Nat) (g : Nat) : List (Bool × Nat) := [(s.mode == .armed && s.stagedGroup objs (0xFE00 + g), rBusy)]

/-- R19, R254: the masks of an object must stay disjoint when a value is written to some members. -/
def State.disjointCond (s : State) (o n : Nat) (els : List Nat) (el v : Nat) : List (Bool × Nat) :=
  [((List.range n).any (fun m => m != el && (if els.contains m then v else s.rd o m) &&& v != 0), rInUse)]

/-- R332: a needle cannot start while a host frame runs on one of its banks. -/
def State.startFrameCond (s : State) (ns : List Nat) : Bool × Nat := (ns.any s.hostFrameOn, rBusy)

/-- R615: an ADC.SEQ value that stops converting a sense input of an enabled loop. -/
def State.seqCond (s : State) (v : Nat) : List (Bool × Nat) :=
  [((List.range 32).any (fun n => s.loopOn n && [s.fld Obj.splCfg n F.splCfgVsenseAin, s.fld Obj.splCfg n F.splCfgIsenseAin].any
      (fun a => decide (a < 128) && converted (s.rd Obj.adcSeq 0) a && !converted v a)), rInUse)]

/-- R104, R332: step 8 of a DEV.MODE_REQ write. -/
def State.modeReqCond (s : State) (v : Nat) : List (Bool × Nat) :=
  s.modeCond v ++ [(v == 6 && s.mode == .armed && ((needles s.hasChart).any s.hostFrameOn), rBusy)]

/-- R565: a commit is pending for the stream of a layer. -/
def State.layerPending (s : State) (l : Nat) : Bool := (List.range 2).any (fun i => (layersOf i).contains l && s.rd Obj.rasCommitPending i == 1)

/-- Step 8 of R71 for a write to one member, by object: devices, links, clocks, supplies, cores, faults and boot. -/
def State.condSys (s : State) (w : Who) (ix el v : Nat) : List (Bool × Nat) :=
  if ix = Obj.devModeReq then s.modeReqCond v
  else if ix = Obj.devStore ∨ ix = Obj.devFactoryRestore then s.storeCond
  else if ix = Obj.odeGroupPin then s.groupCond [Obj.ptfMeasDrive] el
  else if ix = Obj.odeGroupNeedle then s.groupCond [Obj.ndlStart, Obj.ndlFrog, Obj.ndlHostEvent, Obj.ndlJump] el
  else if ix = Obj.hlkPortCfg then s.portCfgCond el w.port v
  else if ix = Obj.clkSyncArm then [(v == 1 && ((List.range 32).any s.loopOn || (List.range 32).any (fun d => s.tmuState d == 1)), rInUse)]
  else if ix = Obj.clkStartAt then
    let ns := v % 2 ^ 16
    s.startFrameCond (members 16 ns) :: s.startAtCond ns (v / 2 ^ 64)
  else if ix = Obj.ptpIncrement then [(s.fld Obj.ptpServoCfg 0 F.ptpServoCfgMode != 1, rInUse)]
  else if ix = Obj.cslLaneCtrl then [(!(s.cport (el / 256)).manual, rInUse)]
  else if ix = Obj.botSlotSelect then s.slotCond v
  else if ix = Obj.botKeyRevoke then s.revokeCond v
  else if ix = Obj.psmDomainReq then s.domainCond w.port v
  else if ix = Obj.splEnable then s.enableCond el v
  else if ix = Obj.splCfg ∨ ix = Obj.splLimits then [(s.loopState el != 0, rInUse)]
  else if ix = Obj.adcSeq then s.seqCond v
  else if ix = Obj.adcSyscal then s.syscalCond el v
  else if ix = Obj.adcOwTest then s.owCond el
  else if ix = Obj.wdpTraceCtrl then
    [(bit (s.rd ix 0) 0 && Fld.get F.wdpTraceCtrlSize v != s.fld ix 0 F.wdpTraceCtrlSize, rInUse)]
  else if ix = Obj.fcrClear then (if v = 0xFFFF then [] else s.clearCond v)
  else if ix = Obj.fcrInject then s.injectCond v
  else if ix = Obj.dmpClear then s.dmpClearCond
  else []

/-- Step 8 of R71 for a write to one member, by object: needles, charts, pins, capture, acquisition, measurement, raster. -/
def State.condTest (s : State) (ix el v : Nat) (els : List Nat) : List (Bool × Nat) :=
  if ix = Obj.ndlPinset then s.disjointCond ix 16 els el v
  else if ix = Obj.ndlSites then s.disjointCond ix 16 els el v
  else if ix = Obj.ndlSitePins then s.disjointCond ix 64 els el v
  else if ix = Obj.ndlStart then (s.stagedBusy ix el, rBusy) :: s.startFrameCond [el] :: s.startCond [el]
  else if ix = Obj.ndlFrog ∨ ix = Obj.ndlHostEvent ∨ ix = Obj.ptfMeasDrive then [(s.stagedBusy ix el, rBusy)]
  else if ix = Obj.ndlJump then (s.stagedBusy ix el, rBusy) :: s.jumpCond [el] v
  else if ix = Obj.ndlChartDelete then s.chartDeleteCond el
  else if ix = Obj.ptfWaveDelete then [(s.waveState el == 4, rInUse)]
  else if ix = Obj.strFlush then s.strFlushCond el
  else if ix = Obj.lvlHostCmd then s.hostCmdCond v
  else if ix = Obj.rqpFlush then s.flushCond el
  else if ix = Obj.taeTrigCfg ∨ ix = Obj.taePre ∨ ix = Obj.taePost ∨ ix = Obj.taeTimeout then [([1, 2, 3].contains (s.taeState el), rInUse)]
  else if ix = Obj.taeArm then s.taeArmCond el v
  else if ix = Obj.taeTriginCfg then s.interpCond v
  else if ix = Obj.tmuCfg ∨ ix = Obj.tmuHoldoff ∨ ix = Obj.tmuGate ∨ ix = Obj.tmuTimeout ∨ ix = Obj.tmuCount ∨ ix = Obj.tmuRefPeriod then s.tmuCfgCond el
  else if ix = Obj.tmuCtrl then s.tmuCond el v
  else if ix = Obj.rasLayerShadow then [(s.layerPending el, rBusy)]
  else if ix = Obj.rasCommit then s.commitCond el
  else if ix = Obj.rasBufferRelease then s.releaseCond el
  else []

/-- Step 8 of R71 for a write to one member. -/
def State.writeCond (s : State) (w : Who) (ix el v : Nat) (els : List Nat) : List (Bool × Nat) :=
  (s.placing && placingObj ix, rBusy) :: (s.condSys w ix el v ++ s.condTest ix el v els)

/-! Effects. -/

/-- The objects whose write keeps its value elsewhere or not at all. -/
def unstored (ix : Nat) : Bool :=
  [Obj.devModeReq, Obj.hlkPortCfg, Obj.clkSyncArm, Obj.ptpIncrement, Obj.psmDomainReq, Obj.splSetpoint, Obj.splIlimit, Obj.ptfGauge,
   Obj.secKey, Obj.botSlotSelect].contains ix || isService ix

/-- R56: what a committed write of a value does at each member, beside the store of the value: devices, links, clocks, supplies, cores, faults and boot. -/
def State.effectSys (s : State) (ix el v : Nat) : State :=
  if ix = Obj.devStore then s.saveStart
  else if ix = Obj.devFactoryRestore then s.restoreStart
  else if ix = Obj.secSessionClose then s.closeSession v
  else if ix = Obj.secKey then s.writeKey el v
  else if ix = Obj.hlkPortCfg then s.portCfg el v
  else if ix = Obj.clkSyncArm then s.syncArm v
  else if ix = Obj.clkStartAt then s.startAt (v % 2 ^ 16) (v / 2 ^ 64)
  else if ix = Obj.clkCancelStart then s.dropTimedStart
  else if ix = Obj.ptpServoCfg then s.servoWritten
  else if ix = Obj.ptpCfg then s.ptpCfgWritten
  else if ix = Obj.ptpIncrement then s.setIncrement v
  else if ix = Obj.ptpNtSet then s.ntSet v
  else if ix = Obj.ptpNtAdj then s.ntAdj (toSigned 64 v)
  else if ix = Obj.cslAlign then s.align el v
  else if ix = Obj.cslLaneTest then s.laneTest el
  else if ix = Obj.botSlotSelect then s.selectSlot v
  else if ix = Obj.botRollbackCommit then s.rollbackCommit
  else if ix = Obj.botKeyRevoke then s.revokeKey v
  else if ix = Obj.psmDomainReq then s.domainReq v
  else if ix = Obj.splSetpoint ∨ ix = Obj.splIlimit then s.hostSupply ix el v
  else if ix = Obj.splEnable then s.enableLoop el v
  else if ix = Obj.adcSyscal then s.syscal el v
  else if ix = Obj.adcOwTest then s.owTest el
  else if ix = Obj.wdpStatsClear then s.statsClear
  else if ix = Obj.fcrClear then s.clearFault v
  else if ix = Obj.fcrFirstClear then s.firstClear
  else if ix = Obj.fcrInject then s.inject v
  else if ix = Obj.dmpClear then s.dmpClear
  else if ix = Obj.dmpSummaryClear then s.summaryClear
  else s

/-- As effectSys: charts, pins, acquisition, measurement, calibration, placement, raster. What a pending gauge step of a pin does when a write of NDL.PINSET takes the pin out of
every set is not stated: DESIGN CHOICE, it stays pending (R30, notes/assumptions/60.md). -/
def State.effectTest (s : State) (ix el v : Nat) : State :=
  if ix = Obj.ndlChartDelete then s.chartDelete el
  else if ix = Obj.ptfWaveDelete then s.waveDelete el
  else if ix = Obj.strFlush then s.flushRing el
  else if ix = Obj.lvlHostCmd then s.hostCmd v
  else if ix = Obj.ptfGauge then s.hostGauge el v
  else if ix = Obj.rqpFlush then s.flushQueue el
  else if ix = Obj.taeArm then s.taeArm el v
  else if ix = Obj.taeForce then s.taeForce el
  else if ix = Obj.tmuCtrl then s.tmuCtrl el v
  else if ix = Obj.tmuXtalAgeing then s.ageing v
  else if ix = Obj.calCtrl then s.calPause
  else if ix = Obj.plcMigrate then (if v = 1 then s.startCopy else s)
  else if ix = Obj.rasCommit then s.rasCommit el
  else if ix = Obj.rasBufferRelease then s.bufferRelease el
  else s

/-- The staged objects (R57). -/
def isStaged (ix : Nat) : Bool := [Obj.ndlStart, Obj.ndlFrog, Obj.ndlHostEvent, Obj.ndlJump, Obj.ptfMeasDrive].contains ix

/-- R760, R761: a TIME record when tracing is enabled, and the loss of R762 is told anew. -/
def State.traceEnabled (s : State) (old v : Nat) : State :=
  if !bit old 0 && bit v 0 then { s with wdpLost := false }.traceTime else s

/-- R53, R56, R57: an accepted write commits: the value is stored in every member and acts. What a write of a service object does is Weahan's (R87): DESIGN CHOICE, the reply's
reason is a free value and nothing else changes (notes/assumptions/62.md). -/
def State.commitWrite (s : State) (ix el v : Nat) (els : List Nat) : Ans × State :=
  let s := if ix = Obj.ptfPinCfg then els.foldl (fun s p => s.pinCfg p v) s else s
  let s1 := if unstored ix then s else s.wrAll ix els v
  if ix = Obj.devModeReq then
    let s2 := s1.requestMode v
    (if s2.plc.arming.isSome && s.plc.arming.isNone then .wait .arming 0 0 else .of rOk, s2)
  else if ix = Obj.fcrClear ∧ v = 0xFFFF then
    let (r, s2) := s1.clearAll
    (.of r, s2)
  else if isStaged ix then (.of rOk, s1.stage ix el (ofMembers els) v)
  else if ix = Obj.wdpTraceCtrl then (.of rOk, s1.traceEnabled (s.rd ix 0) v)
  else if isService ix then (.of (Config.freeValue s.freeCtr % 16), s1.draw)
  else (.of rOk, els.foldl (fun s m => (s.effectSys ix m v).effectTest ix m v) s1)

/-! Writes. -/

/-- R71 steps 7 and 8 for one member. -/
def State.memberReason (s : State) (w : Who) (r : ObjRow) (els : List Nat) (v m : Nat) : Nat :=
  if !s.rangeOk r m v then rRange
  else if r.ty == .command && v == 0 then rOk
  else firstReason (s.writeCond w r.ix m v els)

/-- R71 steps 1 to 6 for a write: the reason and the members (none where steps 1 and 2 refuse). -/
def State.writeCheck (s : State) (level ix el : Nat) (b : Bytes) : Nat × List Nat :=
  match objRow ix with
  | none => (rNoObj, [])
  | some r =>
    let els := s.elems r.cls el
    if els.isEmpty then (rNoElem, [])
    else if !reaches r.wr level then (rAccess, els)
    else if !typeOk r.ty b then (rType, els)
    else if !s.serves ix || !bit r.modes s.mode.code then (rMode, els)
    else if s.faultRefuses ix (ofLE b) then (rFault, els)
    else (rOk, els)

/-- R849: a write of 0 to a command object is answered OK and has no effect; any other accepted write commits. -/
def State.commitCommand (s : State) (r : ObjRow) (ix el v : Nat) (els : List Nat) : Ans × State :=
  if r.ty == .command && v == 0 then (.of rOk, s) else s.commitWrite ix el v els

/-- R55: MEMBER of a refusal that meets every member alike: the lowest-numbered member of a group, 0xFFFF for a single element. -/
def memberOf (el : Nat) (els : List Nat) : Nat := if isGroup el then els.headD 0xFFFF else 0xFFFF

/-- R55, R56, R71: WRITE: checked against every member, then committed to all; the lowest-numbered failing member decides the reason. -/
def State.writeItem (s : State) (w : Who) (ix el : Nat) (b : Bytes) : Ans × State :=
  match s.writeCheck w.level ix el b with
  | (0, els) =>
    match objRow ix with
    | none => (.of rNoObj, s)
    | some r =>
      let v := ofLE b
      match els.find? (fun m => s.memberReason w r els v m != 0) with
      | some m => (.done (s.memberReason w r els v m) (if isGroup el then m else 0xFFFF) [], s)
      | none =>
        if s.fwServed r then
          match s.firmware false ix el els v with
          | (some k, s) => (.wait k 0 0, s)
          | (none, s) => (.done rBusy (memberOf el els) [], s)
        else s.commitCommand r ix el v els
  | (r, els) => (.done r (memberOf el els) [], s)

/-- R76: a FW-served access is executed on the completion of its item; its request is answered then. -/
def State.fwRun (s : State) (j : FwJob) : State :=
  if j.read then
    let (r, b, s) := s.readNow j.ix j.els
    s.result (.fw j.id) r b
  else match objRow j.ix with
    | none => s
    | some row => match s.commitCommand row j.ix j.el j.value j.els with
      | (.done r _ b, s) => s.result (.fw j.id) r b
      | (.bad, s) => s.result (.fw j.id) rType []
      | (.wait k _ _, s) => { s with waiters := s.waiters.map (fun w => if w.token = .fw j.id then { w with token := k } else w) }

end Sys2Proof.Machine
end

