-- ==== Sys2Proof/Machine/Services.lean ====
section
/-! DEFINITION. The services of R689 other than READ and WRITE, and one item's execution (R690, R703). -/
namespace Sys2Proof.Machine

/-! Bulk transfers (R706 to R709). -/

/-- R485: a transfer that placement forbids. -/
def State.placingXfer (s : State) (ix el : Nat) : Bool :=
  s.placing &&
  ((ix == Obj.ndlChartImage && (List.range 16).any (fun n => (s.needleCharts n).contains el)) ||
   (ix == Obj.ptfWaveTable && s.hasChart (el / 256) && bit (s.needleTsets (el / 256)) (el % 256)))

/-- Step 8 of R71 for a DOMAIN_BEGIN that writes, by the owning chapter; one write of an element at a time (notes/assumptions/43.md). -/
def State.domainWriteCond (s : State) (ix el total : Nat) : List (Bool × Nat) :=
  (s.placingXfer ix el, rBusy) :: ((s.writing ix el).isSome, rBusy) ::
  (if ix = Obj.ndlChartImage then s.chartBeginCond el total
   else if ix = Obj.ptfWaveTable then s.waveBeginCond el total
   else if ix = Obj.cslMsgSend then s.msgCond el total
   else if ix = Obj.botFwImage then s.slotBeginCond false el total
   else if ix = Obj.botPatchImage then s.slotBeginCond true el total
   else if ix = Obj.calFixture then [(total != 1032, rFormat)]
   else if ix = Obj.rasBuffer then s.bufferCond el total
   else [])

/-- R706: the limits on open transfers. -/
def State.xferCond (s : State) (session : Nat) : Bool × Nat :=
  let l := s.poa.xfers.filterMap (fun (p : Nat × Option Xfer) => p.2)
  (decide (16 ≤ l.length) || decide (4 ≤ (l.filter (fun x => x.session == session)).length), rBusy)

/-- R199, R306: a refusal at the start of a transfer is recorded. -/
def State.beginRefused (s : State) (ix el reason : Nat) : State :=
  if ix = Obj.ndlChartImage then s.chartError el reason 0 0
  else if ix = Obj.ptfWaveTable then s.waveError el reason (0, 0, 0, 7)
  else s

/-- R190, R306, R562, R818: an accepted write begins: the previous contents go. -/
def State.beginWrite (s : State) (ix el total : Nat) : State :=
  if ix = Obj.ndlChartImage then s.chartBegin el total
  else if ix = Obj.ptfWaveTable then s.waveClear el 1
  else if ix = Obj.botFwImage then s.setSlot false el []
  else if ix = Obj.botPatchImage then s.setSlot true el []
  else if ix = Obj.rasBuffer then (s.setImg Obj.rasBuffer el []).wr Obj.rasBufferState el 1
  else s

/-- A XFER number that no open transfer has, counting on from the last (notes/assumptions/14.md). -/
def State.freeXfer (s : State) : Nat :=
  ((List.range 17).find? (fun i => (s.xfer ((s.poa.nextXfer + i - 1) % 65535 + 1)).isNone)).elim 1 (fun i => (s.poa.nextXfer + i - 1) % 65535 + 1)

/-- R71 steps 1 to 5 for a DOMAIN_BEGIN (R706, R847). -/
def State.domainCheck (s : State) (level : Nat) (read : Bool) (ix el : Nat) : Nat :=
  match objRow ix with
  | none => rNoObj
  | some r =>
    if isGroup el || (s.elems r.cls el).isEmpty then rNoElem
    else if !reaches (if read then r.rd else r.wr) level then rAccess
    else if r.ty != .domain then rType
    else if !s.serves ix || (!read && !bit r.modes s.mode.code) then rMode
    else rOk

/-- R706, R708: DOMAIN_BEGIN. DIR other than 0 and 1 makes the item malformed (notes/assumptions/40.md). -/
def State.domainBegin (s : State) (w : Who) (ix el dir total : Nat) : Ans × State :=
  if dir > 1 then (.bad, s) else
  let read := dir == 1
  let r := s.domainCheck w.level read ix el
  if r ≠ rOk then (.of r, s) else
  let (ok, s) := s.post89
  if !ok then (.of rBusy, s) else
  let c := firstReason (s.xferCond w.session :: (if read then s.domainReadCond ix el else s.domainWriteCond ix el total))
  if c ≠ rOk then (.of c, if read then s else s.beginRefused ix el c) else
  let id := s.freeXfer
  let data := if read then s.domainBytes ix el else []
  let t := if read then data.length else total
  let mark := if read && ix == Obj.taeData then ((s.taeRecord el).map TaeRecord.mark).getD 0 else t
  let s := if read then s.domainTaken ix el else s.beginWrite ix el total
  let s := { s.setXfer id (some ⟨w.session, ix, el, read, mark, data, s.now, false, 0⟩) with
    poa := { (s.setXfer id (some ⟨w.session, ix, el, read, mark, data, s.now, false, 0⟩)).poa with nextXfer := id % 65535 + 1 } }
  (.done rOk 0xFFFF (toBE 2 id ++ [0#8, 0#8] ++ toBE 8 t), s)

/-- R707: the objects whose validation takes its own time. -/
def validated (ix : Nat) : Bool := [Obj.ndlChartImage, Obj.ptfWaveTable, Obj.botFwImage, Obj.botPatchImage].contains ix

/-- R446, R562, R678: the other objects take a complete transfer at once; the reason. -/
def State.finishWrite (s : State) (x : Xfer) : Nat × State :=
  if x.ix = Obj.cslMsgSend then (rOk, s.msgSend x.el x.data)
  else if x.ix = Obj.calFixture then (if fixtureOk x.data then (rOk, s.setImg x.ix x.el x.data) else (rFormat, s))
  else if x.ix = Obj.rasBuffer then (rOk, s.bufferLoaded x.el x.data)
  else (rOk, s.setImg x.ix x.el x.data)

/-- R402, R708: the reason with which the owner has ended a read, 0 while it goes on. `total` holds the record's number for TAE.DATA. -/
def State.readEnded (s : State) (x : Xfer) : Nat :=
  if x.ended ≠ 0 then x.ended
  else if x.ix = Obj.taeData && !(s.unit x.el).records.any (fun r => r.mark == x.total) then rBusy
  else 0

/-- R707, R708: DOMAIN_DATA; `room` is what MAX_FRAME leaves for data. -/
def State.domainData (s : State) (w : Who) (id dlen off : Nat) (data : Bytes) (room : Nat) : Ans × State :=
  match s.xfer id with
  | none => (.done rSeq 0xFFFF (dataHead dlen 0 off), s)
  | some x =>
    if x.session ≠ w.session then (.done rSeq 0xFFFF (dataHead dlen 0 off), s)
    else if data.length ≠ (if x.read then 0 else dlen) then (.bad, s)
    else
      let (ok, s) := s.post89
      if !ok then (.done rBusy 0xFFFF (dataHead dlen 0 off), s) else
      let x := { x with last := s.now }
      if x.read then
        let e := s.readEnded x
        let s := s.setXfer id (some { x with ended := e })
        if e ≠ 0 then (.done e 0xFFFF (dataHead dlen 0 off), s)
        else
          let b := slice x.data off (min dlen (room / 4 * 4))
          (.done rOk 0xFFFF (dataHead b.length 0 off ++ b), s)
      else if x.validating ∨ off ≠ x.data.length ∨ off + dlen > x.total then (.done rSeq 0xFFFF (dataHead dlen 0 off), s.setXfer id (some x))
      else
        let x := { x with data := x.data ++ data }
        if x.data.length < x.total then (.done rOk 0xFFFF (dataHead dlen 0 off), s.setXfer id (some x))
        else if validated x.ix then (.wait (.xfer id) dlen off, s.setXfer id (some { x with validating := true }))
        else
          let (r, s) := (s.setXfer id none).finishWrite x
          (.done r 0xFFFF (dataHead dlen 0 off), s)

/-- R709: DOMAIN_ABORT. -/
def State.domainAbort (s : State) (w : Who) (id : Nat) : Ans × State :=
  match s.xfer id with
  | none => (.of rSeq, s)
  | some x => if x.session ≠ w.session then (.of rSeq, s) else (.of rOk, s.endXfer id x)

/-! Stream data (R710 to R712). -/

/-- R710: STREAM_DATA. -/
def State.streamItem (s : State) (w : Who) (n skein off : Nat) (data : Bytes) : Ans × State :=
  if n ≥ 16 then (.of rNoElem, s)
  else if w.level < 1 then (.done rAccess 0xFFFF (s.streamReply n 0), s)
  else
    let (ok, s) := s.post89
    if !ok then (.done rBusy 0xFFFF (s.streamReply n 0), s) else
    match s.streamData w.session n skein off data with
    | ((_, _, true), s) => (.wait (.skein n) 0 0, s)
    | ((r, c, false), s) => (.done r 0xFFFF (s.streamReply n c), s)

/-! Subscriptions (R713, R716). -/

/-- R713: a SUB number that no subscription has. -/
def State.freeSub (s : State) : Nat :=
  ((List.range 257).find? (fun i => (s.sub ((s.poa.nextSub + i - 1) % 65535 + 1)).isNone)).elim 1 (fun i => (s.poa.nextSub + i - 1) % 65535 + 1)

/-- R713: the reason that refuses a subscription before its limits. -/
def State.subReason (s : State) (w : Who) (maxFrame kind ix el interval window : Nat) : Nat :=
  if kind ≤ 1 then
    let r := (s.readCheck w.level ix el).1
    if r ≠ rOk then r else if 100 * usFs ≤ interval ∧ interval ≤ 100 * secFs then rOk else rRange
  else if kind = 2 then (if ix ≤ el ∧ el ≤ 511 ∧ interval ≤ 10 * secFs then rOk else rRange)
  else if kind = 3 then
    if ix ≠ Obj.ptfDatalog ∨ el ≠ 0 then rRange
    else if !reaches (((objRow ix).map (·.rd)).getD none) w.level then rAccess
    else if !s.serves ix then rMode
    else if interval = 0 ∧ 8448 ≤ window ∧ window ≤ 4194304 ∧ 8448 ≤ maxFrame then rOk else rRange
  else rRange

/-- R713: SUBSCRIBE. -/
def State.subscribe (s : State) (w : Who) (maxFrame kind ix el interval window : Nat) : Ans × State :=
  let r := s.subReason w maxFrame kind ix el interval window
  if r ≠ rOk then (.of r, s) else
  let l := s.poa.subs.filterMap (fun (p : Nat × Option Sub) => p.2)
  if 256 ≤ l.length ∨ 64 ≤ (l.filter (fun x => x.session == w.session)).length then (.of rBusy, s) else
  let (ok, s) := s.post89
  if !ok then (.of rBusy, s) else
  let id := s.freeSub
  let x : Sub := { session := w.session, kind := kind, ix := ix, el := el, interval := interval, window := window, next := s.periodEdge interval s.now }
  let s := s.setSub id (some x)
  (.done rOk 0xFFFF (toBE 2 id ++ [0#8, 0#8]), { s with poa := { s.poa with nextSub := id % 65535 + 1 } })

/-- R713: UNSUBSCRIBE; a SUB that the session does not hold is answered E_SEQ (notes/assumptions/43.md). -/
def State.unsubscribe (s : State) (w : Who) (id : Nat) : Ans × State :=
  match s.sub id with
  | none => (.of rSeq, s)
  | some x => if x.session ≠ w.session then (.of rSeq, s) else (.of rOk, s.setSub id none)

/-- R716: ACK: every report up to and including DSEQ, in 32-bit serial arithmetic. -/
def State.ackItem (s : State) (w : Who) (id dseq : Nat) : Ans × State :=
  match s.sub id with
  | none => (.of rSeq, s)
  | some x =>
    if x.session ≠ w.session ∨ x.kind ≠ 3 then (.of rSeq, s)
    else
      let left := x.unacked.filter (fun (r : Nat × Bytes × Nat) => decide (2 ^ 31 ≤ (dseq + 2 ^ 32 - r.1) % 2 ^ 32))
      (.of rOk, (s.setSub id (some { x with unacked := left })).dlogPump x.waiting.length id)

/-! Heartbeat. -/

/-- R689, R698: HEARTBEAT. -/
def State.heartbeat (s : State) : Bytes :=
  [BitVec.ofNat 8 s.mode.code, BitVec.ofNat 8 s.faultState.toNat, 0#8, 0#8] ++ toBE 8 (s.stamp / 2 ^ 48) ++ toBE 4 (s.stamp / 2 ^ 16 % 2 ^ 32)

/-! One item of a request frame. -/

/-- Whether an item has a length that its layout and length fields give (R690). -/
def lenIs (it : Bytes) (n : Nat) : Bool := it.length == 4 + (n + 3) / 4 * 4

/-- R689, R690, R703, R705: an item of a frame executed for an open session; `room` is what MAX_FRAME leaves for the reply item. -/
def State.runItem (s : State) (w : Who) (maxFrame : Nat) (bulk : Bool) (room : Nat) (it : Bytes) : Ans × State :=
  let f := beAt it
  match itemSvc it with
  | 0x01 => if lenIs it 4 then s.readItem w (f 4 2) (f 6 2) else (.bad, s)
  | 0x02 => if 12 ≤ it.length && lenIs it (8 + f 8 2) then s.writeItem w (f 4 2) (f 6 2) (slice it 12 (f 8 2)) else (.bad, s)
  | 0x03 => if lenIs it 16 then s.domainBegin w (f 4 2) (f 6 2) (f 8 1) (f 12 8) else (.bad, s)
  | 0x04 =>
    if it.length < 16 then (.bad, s)
    else if lenIs it 12 || lenIs it (12 + f 6 2) then
      if !bulk then (.of rType, s)
      else s.domainData w (f 4 2) (f 6 2) (f 8 8) (if lenIs it (12 + f 6 2) then slice it 16 (f 6 2) else []) (room - 20)
    else (.bad, s)
  | 0x05 => if lenIs it 4 then s.domainAbort w (f 4 2) else (.bad, s)
  | 0x06 =>
    if 16 ≤ it.length && lenIs it (12 + f 6 2) then
      if !bulk then (.of rType, s) else s.streamItem w (f 4 2) (f 8 4) (f 12 4) (slice it 16 (f 6 2))
    else (.bad, s)
  | 0x07 => if lenIs it 20 then s.subscribe w maxFrame (f 4 1) (f 8 2) (f 10 2) (f 12 8) (f 20 4) else (.bad, s)
  | 0x08 => if lenIs it 4 then s.unsubscribe w (f 4 2) else (.bad, s)
  | 0x09 => if lenIs it 8 then s.ackItem w (f 4 2) (f 8 4) else (.bad, s)
  | 0x0A => if lenIs it 4 then (.done rOk 0xFFFF s.heartbeat, s) else (.bad, s)
  | 0x12 => if lenIs it 4 then (.of rOk, s.closeSession w.session) else (.bad, s)
  | _ => (.bad, s)

end Sys2Proof.Machine
end

