-- ==== Sys2Proof/Machine/Poa.lean ====
section
/-! DEFINITION. POA frames (R683 to R705, R719), the handshake (R691 to R697), the order in which frames execute (R77, R78, R704), the protocol's timers and reports (R713 to R718). -/
namespace Sys2Proof.Machine

/-! Executing frames. -/

/-- The reply item of an answered item. -/
def ansItem (svc : Nat) : Ans → Bytes
  | .done r m b => replyItem svc r m b
  | .bad => badItem svc
  | .wait _ _ _ => badItem svc

/-- R698, R702: an item of a frame: E_SEQ once the session has closed. -/
def State.jobItem (s : State) (j : Job) (used : Nat) (it : Bytes) : Ans × State :=
  match s.session j.session with
  | none => (.of rSeq, s)
  | some _ => s.runItem ⟨j.session, j.who.level, j.who.port⟩ j.who.maxFrame j.bulk (j.who.maxFrame - used) it

/-- R77, R703: the items of a frame in their order, up to one whose reply is formed later, where the frame waits. -/
def State.runJob (s : State) (j : Job) : List Bytes → List Bytes → State
  | [], reps => s.sendReply j.session j.who j.seq j.high true j.came reps
  | it :: t, reps =>
    match s.jobItem j (24 + reps.flatten.length) it with
    | (.wait k d o, s') =>
      { s' with jobs := { j with items := it :: t, replies := reps } :: s'.jobs, waiters := s'.waiters ++ [⟨k, j.session, itemSvc it, true, d, o, none⟩] }
    | (a, s') => State.runJob s' j t (reps ++ [ansItem (itemSvc it) a])

/-- A result's reply item (R707, R712). -/
def Waiter.reply (w : Waiter) (reason : Nat) (body : Bytes) : Bytes :=
  replyItem w.service reason 0xFFFF (if w.service = 0x04 then dataHead w.dlen (beAt body 0 1) w.off else body)

/-- ODE.MCAST_STATUS: a write refused. -/
def State.mcastRefused (s : State) (reason ix el : Nat) : State :=
  (((s.count Obj.odeMcastStatus 0 F.odeMcastStatusRefused F.odeMcastStatusRefusedSat 1).setFld Obj.odeMcastStatus 0 F.odeMcastStatusLastReason reason).setFld
    Obj.odeMcastStatus 0 F.odeMcastStatusLastIndex ix).setFld Obj.odeMcastStatus 0 F.odeMcastStatusLastElement el

/-- R65, R94: ODE.MCAST_STATUS records the outcome of a multicast write. -/
def State.mcastDone (s : State) (reason ix el : Nat) : State :=
  if reason = rOk then s.count Obj.odeMcastStatus 0 F.odeMcastStatusAccepted F.odeMcastStatusAcceptedSat 1 else s.mcastRefused reason ix el

/-- A result reaches the request that waits for it: a service commanded alone is answered, a frame goes on with its next item. -/
def State.deliverResult (s : State) (k : Token) (reason : Nat) (body : Bytes) : State :=
  match s.waiters.find? (fun w => w.token == k) with
  | none => s
  | some w =>
    let s := { s with waiters := s.waiters.erase w }
    match w.mcast with
    | some (ix, el) => s.mcastDone reason ix el
    | none =>
    if !w.inFrame then s.emit (.item w.session (w.reply reason body))
    else match s.jobs.find? (fun j => j.session == w.session) with
      | none => s
      | some j => State.runJob { s with jobs := s.jobs.erase j } j j.items.tail (j.replies ++ [w.reply reason body])

/-- R78, R704: a frame that can begin: the first of its session, whose earlier frames have ended; a high-priority one goes before. -/
def State.nextJob (s : State) : Option Job :=
  let ready := s.jobs.filter (fun j => !s.waiters.any (fun w => w.inFrame && w.session == j.session) && (s.jobs.find? (fun i => i.session == j.session)) == some j)
  match ready.find? (fun j => j.high) with | some j => some j | none => ready.head?

/-- Completed FW-served accesses take effect, results reach their requests and frames begin until nothing more can. -/
def State.settleLoop : Nat → State → State
  | 0, s => s
  | n + 1, s =>
    match s.ode.done with
    | j :: t => State.settleLoop n (State.fwRun { s with ode := { s.ode with done := t } } j)
    | [] => match s.results with
      | r :: t => State.settleLoop n (State.deliverResult { s with results := t } r.1 r.2.1 r.2.2)
      | [] => match s.nextJob with
        | none => s
        | some j => State.settleLoop n (State.runJob { s with jobs := s.jobs.erase j } j j.items j.replies)

/-- 16 sessions of at most 16 frames of at most 64 items, each of which can wait once. -/
def State.settle (s : State) : State := State.settleLoop 20000 s

/-- The outcome of a command after which replies may be due. -/
def settled : Res → Res
  | .next s => .next s.settle
  | r => r

/-! Frames (R685 to R687). -/

/-- R687: the items of a frame's body by their ITEM_LEN; none where they do not add up. -/
def splitItems : Nat → Bytes → Option (List Bytes)
  | _, [] => some []
  | 0, _ => none
  | n + 1, b =>
    let l := beAt b 2 2
    if l < 4 ∨ b.length < l then none else (splitItems n (b.drop l)).map (fun t => b.take l :: t)

/-- R685: a request frame's items; none for a frame that is discarded. -/
def frameItems (f : Bytes) : Option (List Bytes) :=
  if 28 ≤ f.length ∧ f.length ≤ 8960 ∧ beAt f 0 2 = 0x504F ∧ beAt f 2 1 = 1 ∧ beAt f 3 1 = 1 ∧ beAt f 12 2 = f.length then
    match splitItems 2240 (f.drop 24) with
    | some l => if l.length = beAt f 5 1 ∧ 1 ≤ l.length ∧ l.length ≤ 64 then some l else none
    | none => none
  else none

/-- SESSION, SEQ, BULK and TAG of a frame. -/
def frSession (f : Bytes) : Nat := beAt f 6 2
def frSeq (f : Bytes) : Nat := beAt f 8 4
def frBulk (f : Bytes) : Bool := bit (beAt f 4 1) 0
def frTag (f : Bytes) : Bytes := slice f 16 8

/-- R697: the tag of a frame under a key. -/
def tagOf (key f : Bytes) : Bytes := slice (tagFrame key f) 16 8

/-- R699, R700: every item of a frame answered with E_SEQ. -/
def State.seqAnswer (s : State) (n : Nat) (x : Session) (seq : Nat) (high : Bool) (items : List Bytes) : State :=
  (s.poaCount 5).sendReply n x seq high false s.now (items.map seqItem)

/-! The handshake. -/

/-- R821: the HMAC key of an element of SEC.KEY, none where absent. -/
def State.secKey (s : State) (k : Nat) : Option Bytes :=
  let v := Tbl.get (fun _ => 0) s.bot.keys k
  if v = 0 then none else some (toLE 32 v)

/-- R695: the bytes that the proofs cover after their label. -/
def shakeBytes (hn en : Bytes) (n level : Nat) : Bytes := hn ++ en ++ toBE 2 n ++ [BitVec.ofNat 8 level]

/-- R695: proof, engine proof and K_s by their label, in ASCII. -/
def shakeMac (k : Bytes) (label : Nat) (x : Session) (n : Nat) : Bytes :=
  hmacSha256 k ([0x50#8, 0x4F#8, 0x41#8, 0x2D#8, BitVec.ofNat 8 label] ++ shakeBytes x.hostNonce x.engNonce n x.level)

/-- R696: consecutive failures of an address and the end of its lock-out. -/
def State.failsOf (s : State) (addr : Nat) : Nat × Nat := ((s.poa.fails.find? (fun p => p.1 == addr)).map (·.2)).getD (0, 0)

/-- The state with an address's failures replaced. -/
def State.setFails (s : State) (addr : Nat) (v : Nat × Nat) : State :=
  { s with poa := { s.poa with fails := if v = (0, 0) then s.poa.fails.filter (fun p => p.1 != addr) else (addr, v) :: s.poa.fails.filter (fun p => p.1 != addr) } }

/-- R691: the lowest slot that is free. -/
def State.freeSession (s : State) : Option Nat := ((List.range 16).map (· + 1)).find? (fun n => (s.session n).isNone)

/-- R691, R693 to R696, R732: the reason that refuses an OPEN; E_AUTH first, as a session check (R71), then E_RANGE, then E_BUSY (notes/assumptions/44.md). -/
def State.openReason (s : State) (port addr level maxFrame timeout : Nat) : Nat :=
  if level = 0 ∧ s.poa.vOpen = false then rAuth
  else if 1 ≤ level ∧ level ≤ 3 ∧ ((s.secKey (level - 1)).isNone = true ∨ s.now < (s.failsOf addr).2) then rAuth
  else if level > 3 ∨ maxFrame < 576 ∨ 8960 < maxFrame ∨ timeout < 100 ∨ 60000 < timeout ∨ s.fld Obj.hlkPortCfg port F.hlkPortCfgMaxFrame < maxFrame + 70 then rRange
  else if s.freeSession.isNone then rBusy else rOk

/-- R691 to R695: OPEN: the session's number and its answer. A CHALLENGED session keeps the level's key until AUTH. -/
def State.openSession (s : State) (port sub addr udp level maxFrame timeout : Nat) (nonce : Bytes) : Nat × Ans × State :=
  let r := s.openReason port addr level maxFrame timeout
  match s.freeSession with
  | none => (0, .of r, s)
  | some n =>
    if r ≠ rOk then (0, .of r, s)
    else
      let en := if level = 0 then List.replicate 16 0#8 else toLE 16 (Config.freeRandom s.freeCtr)
      let key := if level = 0 then [] else (s.secKey (level - 1)).getD []
      let x : Session := ⟨if level = 0 then 2 else 1, level, port, sub, addr, udp, maxFrame, timeout, nonce, en, key, 1, [], [], 0, s.now⟩
      let s := if level = 0 then s else s.draw
      (n, .done rOk 0xFFFF (toBE 2 n ++ [0#8, 0#8] ++ en), s.setSession n (some x))

/-- R696: AUTH on a CHALLENGED session: the answer, and the session as it answers. -/
def State.authSession (s : State) (n : Nat) (x : Session) (proof : Bytes) : Ans × Session × State :=
  if proof = shakeMac x.key 0x48 x n then
    let y := { x with state := 2, key := shakeMac x.key 0x4B x n, lastRx := s.now }
    (.done rOk 0xFFFF (shakeMac x.key 0x45 x n), y, (s.setSession n (some y)).setFails x.addr (0, 0))
  else
    let f := (s.failsOf x.addr).1 + 1
    let s := (s.closeSession n).setFails x.addr (if f ≥ 3 then (0, s.now + secFs) else (f, (s.failsOf x.addr).2))
    (.of rAuth, { x with key := [] }, (s.poaCount 4).latch Ev.poaAuthFail)

/-! Received frames. -/

/-- R699: a frame accepted for execution in its turn. -/
def State.acceptFrame (s : State) (n : Nat) (x : Session) (f : Bytes) (high : Bool) (came : Nat) : State :=
  match s.session n, frameItems f with
  | some y, some items =>
    { s.setSession n (some { y with next := (y.next + 1) % 2 ^ 32 }) with jobs := s.jobs ++ [⟨n, x, frSeq f, high, came, frBulk f, items, []⟩] }
  | _, _ => s

/-- R699: held frames whose turn has come. -/
def State.acceptHeld : Nat → Nat → Session → State → State
  | 0, _, _, s => s
  | k + 1, n, x, s =>
    match s.session n with
    | none => s
    | some y => match y.held.find? (fun h => h.1 == y.next) with
      | none => s
      | some h => State.acceptHeld k n x ((s.setSession n (some { y with held := y.held.erase h })).acceptFrame n x h.2.1 h.2.2.2 h.2.2.1)

/-- R699, R701: a valid frame of an open session by its SEQ. -/
def State.sequence (s : State) (n : Nat) (x : Session) (f : Bytes) (high : Bool) (items : List Bytes) : State :=
  let seq := frSeq f
  let d := (seq + 2 ^ 32 - x.next) % 2 ^ 32
  if d = 0 then State.acceptHeld 16 n x (s.acceptFrame n x f high s.now)
  else if d < 16 then
    if x.held.any (fun h => h.1 == seq) then s else s.setSession n (some { x with held := x.held ++ [(seq, f, s.now, high)] })
  else if 2 ^ 32 - 16 ≤ d then
    let s := s.poaCount 6
    match x.replies.find? (fun r => r.1 == seq) with
    | some r => s.transmit (s.now + 180 * fclkFs) x.port x.sub x.addr x.udp high 0 r.2
    | none => s
  else s.seqAnswer n x seq high items

/-- R693, R695, R696: a frame whose one item is OPEN or AUTH, with SEQ 0. -/
def State.shakeFrame (s : State) (port sub addr udp : Nat) (high : Bool) (f it : Bytes) : State :=
  let svc := itemSvc it
  let num := frSession f
  let stranger : Session := ⟨0, 0, port, sub, addr, udp, 8960, 0, [], [], [], 0, [], [], 0, 0⟩
  let answer := fun (s : State) (n : Nat) (x : Session) (a : Ans) => s.sendReply n x 0 high false s.now [ansItem svc a]
  if svc = 0x10 then
    let s := s.poaCount 0
    if !lenIs it 24 then answer s num stranger .bad
    else
      let (n, a, s) := s.openSession port sub addr udp (beAt it 4 1) (beAt it 6 2) (beAt it 8 4) (slice it 12 16)
      answer s (if n = 0 then num else n) stranger a
  else match s.session num with
    | none => (s.poaCount 0).seqAnswer num stranger 0 high [it]
    | some x =>
      if x.port ≠ port ∨ x.addr ≠ addr ∨ x.udp ≠ udp then s.poaCount 2
      else
        let s := s.poaCount 0
        if x.state ≠ 1 then s.seqAnswer num stranger 0 high [it]
        else if !lenIs it 32 then answer s num stranger .bad
        else
          let (a, y, s) := s.authSession num x (slice it 4 32)
          answer s num { y with sub := sub } a

/-- R685, R691, R692, R697, R698, R702: a received frame. -/
def State.frameIn (s : State) (port sub addr udp : Nat) (high : Bool) (f : Bytes) : State :=
  match frameItems f with
  | none => s.poaCount 2
  | some items =>
    if items.any (fun it => itemSvc it == 0x10 || itemSvc it == 0x11) then
      (match items with
       | [it] => if frSeq f = 0 then s.shakeFrame port sub addr udp high f it else s.poaCount 2
       | _ => s.poaCount 2)
    else
      let n := frSession f
      let stranger : Session := ⟨0, 0, port, sub, addr, udp, 8960, 0, [], [], [], 0, [], [], 0, 0⟩
      match s.session n with
      | none => (s.poaCount 0).seqAnswer n stranger (frSeq f) high (items.take 1)
      | some x =>
        if x.port ≠ port ∨ x.addr ≠ addr ∨ x.udp ≠ udp then s.poaCount 2
        else if x.state ≠ 2 then (s.poaCount 0).seqAnswer n stranger (frSeq f) high (items.take 1)
        else if x.level ≠ 0 ∧ frTag f ≠ tagOf x.key f then s.poaCount 3
        else
          let y := { x with lastRx := s.now, sub := sub }
          ((s.poaCount 0).setSession n (some y)).sequence n y f high items

/-- POA_FRAME (R685): a frame taken from the receive buffer of its class; a frame of class bulk or with BULK 1 is bulk (R704). -/
def execPoaFrame (port sub addr udp pcp : Nat) (frame : Bytes) (s : State) : Res :=
  if !s.linkUp port sub then .next s else
  let cls := s.rxClass port pcp
  .next (((s.rxTake port cls).frameIn port sub addr udp (cls == 0 && !frBulk frame) frame).settle)

/-- HOLD_TIMEOUT (R700): 50 µs after the arrival of a session's oldest held frame. -/
def execHoldTimeout (session : Nat) (s : State) : Res :=
  match s.session session with
  | none => .next s
  | some x =>
    match x.held with
    | [] => .next s
    | h :: _ =>
      let s := (s.reach (h.2.2.1 + 50 * usFs)).setSession session (some { x with held := [] })
      .next (x.held.foldl (fun s (h : Nat × Bytes × Nat × Bool) => s.seqAnswer session { x with held := [] } h.1 h.2.2.2 ((frameItems h.2.1).getD [])) s)

/-! Multicast (R64 to R66, R719). -/

/-- R64, R65, R719: one item of a multicast frame, its outcome recorded when it is known (an access that waits is counted then); `deny` is the reason of a frame that failed its checks, 0 for one that passed. -/
def State.mcastItem (s : State) (w : Who) (deny : Nat) (it : Bytes) : State :=
  let ix := beAt it 4 2
  let el := beAt it 6 2
  if itemSvc it ≠ 0x02 then s.count Obj.odeMcastStatus 0 F.odeMcastStatusRefused F.odeMcastStatusRefusedSat 1
  else if deny ≠ 0 then s.mcastRefused deny ix el
  else if !(12 ≤ it.length && lenIs it (8 + beAt it 8 2)) then s.mcastRefused rType ix el
  else match s.writeItem w ix el (slice it 12 (beAt it 8 2)) with
    | (.done r _ _, s) => s.mcastDone r ix el
    | (.wait k d o, s) => { s with waiters := s.waiters ++ [⟨k, 0xFFFF, 0x02, false, d, o, some (ix, el)⟩] }
    | (.bad, s) => s.mcastRefused rType ix el

/-- R719: the reason for which a multicast frame is not executed, 0 for none. -/
def State.mcastDeny (s : State) (f : Bytes) : Nat :=
  let level := s.fld Obj.secMcastCfg 0 ⟨0, 2⟩
  let tagBad := level != 0 && (match s.secKey 3 with | some k => frTag f != tagOf k f | none => true)
  let d := (frSeq f + 2 ^ 32 - s.rd Obj.secMcastSeq 0) % 2 ^ 32
  if tagBad then rAuth else if d = 0 ∨ 2 ^ 31 ≤ d then rSeq else 0

/-- MULTICAST_FRAME (R719). It leaves the receive buffer in which it waits (notes/assumptions/45.md). -/
def execMulticastFrame (port sub group : Nat) (frame : Bytes) (s : State) : Res :=
  if !s.linkUp port sub || !(s.groups6 port).contains group then .next s else
  let s := s.rxTake port (if (s.rxFill port 0).isEmpty then 1 else 0)
  match frameItems frame with
  | none => .next (s.poaCount 2)
  | some items =>
    if frSession frame ≠ 0xFFFF ∨ frBulk frame = true then .next (s.poaCount 2)
    else
      let deny := s.mcastDeny frame
      let w : Who := ⟨0xFFFF, s.fld Obj.secMcastCfg 0 ⟨0, 2⟩, port⟩
      let s := if deny = 0 then (s.poaCount 0).wr Obj.secMcastSeq 0 (frSeq frame) else s
      .next ((items.foldl (fun s it => s.mcastItem w deny it) s).settle)

/-! The protocol's timers. -/

/-- TRANSFER_TIMEOUT (R709): 1 s without an item. -/
def execTransferTimeout (xfer : Nat) (s : State) : Res :=
  match s.xfer xfer with
  | none => .next s
  | some x => if x.validating then .next s else .next (((s.reach (x.last + secFs)).endXfer xfer x).settle)

/-- AUTH_TIMEOUT (R695): 100 ms without AUTH. -/
def execAuthTimeout (session : Nat) (s : State) : Res :=
  match s.session session with
  | none => .next s
  | some x => if x.state ≠ 1 then .next s else .next (((s.reach (x.lastRx + 100 * msFs)).closeSession session).settle)

/-- POA_SESSION_EXPIRED (R698): TIMEOUT without a valid frame. -/
def execPoaSessionExpired (session : Nat) (s : State) : Res :=
  match s.session session with
  | none => .next s
  | some x =>
    if x.state ≠ 2 then .next s
    else .next ((((s.reach (x.lastRx + x.timeout * msFs)).closeSession session).latch Ev.poaSessionExpired).settle)

/-! Reports. -/

/-- R714: the VALUE report item. -/
def valueItem (sub st : Nat) (b : Bytes) : Bytes := mkItem 0x20 (toBE 2 sub ++ [0#8, 0#8] ++ stampBE st ++ toBE 2 b.length ++ [0#8, 0#8] ++ b)

/-- R713, R717: a sampling instant of a CYCLIC or ON_CHANGE subscription. A report longer than MAX_FRAME is not sent (R693, notes/assumptions/128.md). -/
def State.sampleSub (s : State) (n : Nat) (x : Sub) (level maxFrame : Nat) : State :=
  match s.readCheck level x.ix x.el with
  | (0, els) =>
    match s.sample x.ix els with
    | none => s.readDone x.ix
    | some b =>
      let s' := s.readDone x.ix
      if x.kind = 1 ∧ x.lastVal = some b ∨ maxFrame < 24 + (valueItem n s.stamp b).length then s'
      else if s.reportsWaiting x.session ≥ 256 then s'.poaCount 7
      else (s'.setSub n (some { x with lastVal := some b })).report x.session (valueItem n s.stamp b)
  | _ => s

/-- CYCLIC_REPORT (R713): sampled on the first FCLK edge at or after the instant. A sample that cannot be read gives no report (notes/assumptions/46.md). -/
def execCyclicReport (sub : Nat) (s : State) : Res :=
  match s.sub sub with
  | none => .next s
  | some x =>
    if x.kind > 1 then .next s
    else
      let s := s.reach (s.edgeAt fclkFs x.next)
      let x := { x with next := s.periodEdge x.interval (max (x.next + 1) s.now) }
      .next ((s.setSub sub (some x)).sampleSub sub x (((s.session x.session).map (·.level)).getD 0) (((s.session x.session).map (·.maxFrame)).getD 0))

/-- EVENT_REPORT (R715): INTERVAL after the previous report of the source. -/
def execEventReport (sub source : Nat) (s : State) : Res :=
  match s.sub sub with
  | none => .next s
  | some x =>
    let h := Tbl.get (fun _ => {}) x.evs source
    if x.kind ≠ 2 ∨ h.count = 0 then .next s
    else
      let s := match h.last with | some l => s.reach (l + x.interval) | none => s
      .next (s.formEvent sub source s.now x)

/-- DATALOG_REPORT (R716): records that wait are sent as far as the window allows. -/
def execDatalogReport (sub : Nat) (s : State) : Res :=
  match s.sub sub with
  | none => .next s
  | some x => .next (s.dlogPump x.waiting.length sub)

/-- The unacknowledged report sent longest ago. -/
def oldestSent (l : List (Nat × Bytes × Nat)) : Option (Nat × Bytes × Nat) :=
  l.foldl (fun (b : Option (Nat × Bytes × Nat)) r => match b with | none => some r | some c => if r.2.2 < c.2.2 then some r else some c) none

/-- DATALOG_RETRANSMIT (R716): 2 ms after a report that has not been acknowledged, it is sent again unchanged. -/
def execDatalogRetransmit (sub : Nat) (s : State) : Res :=
  match s.sub sub with
  | none => .next s
  | some x =>
    match oldestSent x.unacked with
    | none => .next s
    | some r =>
      let s := s.reach (r.2.2 + 2 * msFs)
      let l := x.unacked.map (fun (q : Nat × Bytes × Nat) => if q = r then (q.1, q.2.1, s.now) else q)
      .next ((s.setSub sub (some { x with unacked := l })).sendReport x.session r.2.1)

/-! Ends of validations. -/

/-- CHART_VALIDATION (R191). -/
def execChartValidation (handle : Nat) (s : State) : Res := .next (s.validateChart handle).settle

/-- WAVE_VALIDATION (R305). -/
def execWaveValidation (el : Nat) (s : State) : Res := .next (s.validateWave el).settle

/-- SKEIN_VALIDATED (R271). -/
def execSkeinValidated (needle : Nat) (s : State) : Res := .next (s.skeinValidated needle).settle

end Sys2Proof.Machine
end

