-- ==== Sys2Proof/Machine/HostRows.lean ====
section
/-! DEFINITION. Services commanded alone: READ, WRITE and the rows of the table that are writes of one object, the bulk, stream, subscription and session services; and the engine's own events after which replies may be due. -/
namespace Sys2Proof.Machine

/-- A service commanded alone for a session: one item of a valid frame of the session (R698), whose reply item goes to `out` (notes/assumptions/2.md). -/
def State.direct (s : State) (n svc : Nat) (f : Session → Who → State → Ans × State) : State :=
  match s.session n with
  | none => s.emit (.item n (replyItem svc rSeq 0xFFFF []))
  | some x =>
    if x.state ≠ 2 then s.emit (.item n (replyItem svc rSeq 0xFFFF []))
    else
      let y := { x with lastRx := s.now }
      match f y ⟨n, x.level, x.port⟩ (s.setSession n (some y)) with
      | (.wait k d o, s') => State.settle { s' with waiters := s'.waiters ++ [⟨k, n, svc, false, d, o, none⟩] }
      | (a, s') => (s'.emit (.item n (ansItem svc a))).settle

/-- A WRITE commanded alone. -/
def State.hostWrite (s : State) (n ix el : Nat) (b : Bytes) : State := s.direct n 0x02 (fun _ w s => s.writeItem w ix el b)

/-- A WRITE of a number in its object's length. -/
def State.hostPut (s : State) (n ix el v : Nat) : State :=
  s.hostWrite n ix el (toLE (((objRow ix).bind (fun r => tyLen r.ty)).getD 0) v)

/-! READ, WRITE, bulk, stream and subscription services. -/

/-- READ (R61). -/
def execRead (session ix el : Nat) (s : State) : Res := .next (s.direct session 0x01 (fun _ w s => s.readItem w ix el))

/-- WRITE (R71). -/
def execWrite (session ix el : Nat) (value : Bytes) (s : State) : Res := .next (s.hostWrite session ix el value)

/-- DOMAIN_BEGIN (R706). -/
def execDomainBegin (session ix el dir total : Nat) (s : State) : Res := .next (s.direct session 0x03 (fun _ w s => s.domainBegin w ix el dir total))

/-- DOMAIN_DATA (R707, R708), as in a frame with BULK 1. -/
def execDomainData (session xfer dlen offset : Nat) (data : Bytes) (s : State) : Res :=
  .next (s.direct session 0x04 (fun x w s => s.domainData w xfer dlen offset data (x.maxFrame - 44)))

/-- DOMAIN_ABORT (R709). -/
def execDomainAbort (session xfer : Nat) (s : State) : Res := .next (s.direct session 0x05 (fun _ w s => s.domainAbort w xfer))

/-- STREAM_DATA (R710), as in a frame with BULK 1. -/
def execStreamData (session needle skein offset : Nat) (data : Bytes) (s : State) : Res :=
  .next (s.direct session 0x06 (fun _ w s => s.streamItem w needle skein offset data))

/-- SUBSCRIBE (R713). -/
def execSubscribe (session skind ix el interval window : Nat) (s : State) : Res :=
  .next (s.direct session 0x07 (fun x w s => s.subscribe w x.maxFrame skind ix el interval window))

/-- UNSUBSCRIBE (R713). -/
def execUnsubscribe (session sub : Nat) (s : State) : Res := .next (s.direct session 0x08 (fun _ w s => s.unsubscribe w sub))

/-- ACK (R716). -/
def execAck (session sub dseq : Nat) (s : State) : Res := .next (s.direct session 0x09 (fun _ w s => s.ackItem w sub dseq))

/-- HEARTBEAT (R698). -/
def execHeartbeat (session : Nat) (s : State) : Res := .next (s.direct session 0x0A (fun _ _ s => (.done rOk 0xFFFF s.heartbeat, s)))

/-! Sessions. -/

/-- OPEN (R695), on a sub-port that is up. -/
def execOpen (port sub addr udp level maxFrame timeout : Nat) (nonce : Bytes) (s : State) : Res :=
  if !s.linkUp port sub then .next s else
  let (n, a, s) := s.openSession port sub addr udp level maxFrame timeout nonce
  .next (s.emit (.item n (ansItem 0x10 a)))

/-- AUTH (R696), from the session's own address. -/
def execAuth (session : Nat) (proof : Bytes) (s : State) : Res :=
  match s.session session with
  | none => .next (s.emit (.item session (replyItem 0x11 rSeq 0xFFFF [])))
  | some x =>
    if x.state ≠ 1 then .next (s.emit (.item session (replyItem 0x11 rSeq 0xFFFF [])))
    else
      let (a, _, s) := s.authSession session x proof
      .next ((s.emit (.item session (ansItem 0x11 a))).settle)

/-- CLOSE (R698). -/
def execClose (session : Nat) (s : State) : Res := .next (s.direct session 0x12 (fun _ w s => (.of rOk, s.closeSession w.session)))

/-- R758: COMPLETE; a FW-served access whose item it was takes effect and is answered (R76). -/
def execComplete (core : Nat) (s : State) : Res := if s.halted core then .next s else .next (s.complete core).settle

/-! Writes of one object. -/

/-- SESSION_CLOSE (R698). -/
def execSessionClose (session target : Nat) (s : State) : Res := .next (s.hostPut session Obj.secSessionClose 0 target)

/-- REQUEST_BOOT (R104). -/
def execRequestBoot (session : Nat) (s : State) : Res := .next (s.hostPut session Obj.devModeReq 0 1)

/-- REQUEST_SAFE (R104). -/
def execRequestSafe (session : Nat) (s : State) : Res := .next (s.hostPut session Obj.devModeReq 0 2)

/-- REQUEST_IDLE (R107). -/
def execRequestIdle (session : Nat) (s : State) : Res := .next (s.hostPut session Obj.devModeReq 0 3)

/-- REQUEST_DOZE (R583). -/
def execRequestDoze (session : Nat) (s : State) : Res := .next (s.hostPut session Obj.devModeReq 0 4)

/-- REQUEST_ARMED (R484). -/
def execRequestArmed (session : Nat) (s : State) : Res := .next (s.hostPut session Obj.devModeReq 0 5)

/-- REQUEST_RUN (R105). -/
def execRequestRun (session : Nat) (s : State) : Res := .next (s.hostPut session Obj.devModeReq 0 6)

/-- REQUEST_HOLD (R111). -/
def execRequestHold (session : Nat) (s : State) : Res := .next (s.hostPut session Obj.devModeReq 0 7)

/-- REQUEST_MEASURE (R104). -/
def execRequestMeasure (session : Nat) (s : State) : Res := .next (s.hostPut session Obj.devModeReq 0 8)

/-- REQUEST_CALIBRATE (R445). -/
def execRequestCalibrate (session : Nat) (s : State) : Res := .next (s.hostPut session Obj.devModeReq 0 9)

/-- SAVE (R81). -/
def execSave (session : Nat) (s : State) : Res := .next (s.hostPut session Obj.devStore 0 1)

/-- RESTORE (R84). -/
def execRestore (session : Nat) (s : State) : Res := .next (s.hostPut session Obj.devFactoryRestore 0 1)

/-- CHART_DELETE (R194). -/
def execChartDelete (session el : Nat) (s : State) : Res := .next (s.hostPut session Obj.ndlChartDelete el 1)

/-- WAVE_DELETE (R335). -/
def execWaveDelete (session el : Nat) (s : State) : Res := .next (s.hostPut session Obj.ptfWaveDelete el 1)

/-- START (R206). -/
def execStart (session el : Nat) (s : State) : Res := .next (s.hostPut session Obj.ndlStart el 1)

/-- START_AT (R637). -/
def execStartAt (session needles atNs : Nat) (s : State) : Res := .next (s.hostPut session Obj.clkStartAt 0 (needles + atNs * 2 ^ 64))

/-- CANCEL_START (R639). -/
def execCancelStart (session : Nat) (s : State) : Res := .next (s.hostPut session Obj.clkCancelStart 0 1)

/-- FROG (R238). -/
def execFrog (session el : Nat) (s : State) : Res := .next (s.hostPut session Obj.ndlFrog el 1)

/-- HOST_EVENT (R227). -/
def execHostEvent (session el value : Nat) (s : State) : Res := .next (s.hostPut session Obj.ndlHostEvent el value)

/-- JUMP (R230). -/
def execJump (session el value : Nat) (s : State) : Res := .next (s.hostPut session Obj.ndlJump el value)

/-- RQP_FLUSH (R370). -/
def execRqpFlush (session el : Nat) (s : State) : Res := .next (s.hostPut session Obj.rqpFlush el 1)

/-- STR_FLUSH (R265). -/
def execStrFlush (session el : Nat) (s : State) : Res := .next (s.hostPut session Obj.strFlush el 1)

/-- LVL_HOST_READ (R331). -/
def execLvlHostRead (session pin reg : Nat) (s : State) : Res := .next (s.hostPut session Obj.lvlHostCmd 0 (F.lvlHostCmdRead.put (F.lvlHostCmdReg.put (F.lvlHostCmdPin.put 0 pin) reg) 1))

/-- MEAS_DRIVE (R317). -/
def execMeasDrive (session el value : Nat) (s : State) : Res := .next (s.hostPut session Obj.ptfMeasDrive el value)

/-- TAE_ARM (R396). -/
def execTaeArm (session el : Nat) (s : State) : Res := .next (s.hostPut session Obj.taeArm el 1)

/-- TAE_DISARM (R412). -/
def execTaeDisarm (session el : Nat) (s : State) : Res := .next (s.hostPut session Obj.taeArm el 0)

/-- FORCE (R404). -/
def execForce (session el : Nat) (s : State) : Res := .next (s.hostPut session Obj.taeForce el 1)

/-- TMU_START (R467). -/
def execTmuStart (session el : Nat) (s : State) : Res := .next (s.hostPut session Obj.tmuCtrl el 1)

/-- TMU_STOP (R471). -/
def execTmuStop (session el : Nat) (s : State) : Res := .next (s.hostPut session Obj.tmuCtrl el 0)

/-- COMMIT (R565). -/
def execCommit (session el : Nat) (s : State) : Res := .next (s.hostPut session Obj.rasCommit el 1)

/-- BUFFER_RELEASE (R563). -/
def execBufferRelease (session el : Nat) (s : State) : Res := .next (s.hostPut session Obj.rasBufferRelease el 1)

/-- DOMAIN_REQ (R581). -/
def execDomainReq (session value : Nat) (s : State) : Res := .next (s.hostPut session Obj.psmDomainReq 0 value)

/-- LOOP_ENABLE (R600). -/
def execLoopEnable (session el : Nat) (s : State) : Res := .next (s.hostPut session Obj.splEnable el 1)

/-- LOOP_DISABLE (R604). -/
def execLoopDisable (session el : Nat) (s : State) : Res := .next (s.hostPut session Obj.splEnable el 0)

/-- OW_TEST (R594). -/
def execOwTest (session el : Nat) (s : State) : Res := .next (s.hostPut session Obj.adcOwTest el 1)

/-- SYSCAL_ZERO (R595). -/
def execSyscalZero (session el : Nat) (s : State) : Res := .next (s.hostPut session Obj.adcSyscal el 1)

/-- SYNC_ARM (R630). -/
def execSyncArm (session : Nat) (s : State) : Res := .next (s.hostPut session Obj.clkSyncArm 0 1)

/-- SYNC_DISARM (R630). -/
def execSyncDisarm (session : Nat) (s : State) : Res := .next (s.hostPut session Obj.clkSyncArm 0 0)

/-- TXQ_OVF_CLEAR (R648). -/
def execTxqOvfClear (session el : Nat) (s : State) : Res := .next (s.hostPut session Obj.ptpTxqOvf el 0)

/-- ALIGN_AUTO (R672). -/
def execAlignAuto (session el : Nat) (s : State) : Res := .next (s.hostPut session Obj.cslAlign el 1)

/-- ALIGN_MANUAL (R672). -/
def execAlignManual (session el : Nat) (s : State) : Res := .next (s.hostPut session Obj.cslAlign el 2)

/-- ALIGN_DONE (R672). -/
def execAlignDone (session el : Nat) (s : State) : Res := .next (s.hostPut session Obj.cslAlign el 3)

/-- LANE_TEST (R673). -/
def execLaneTest (session el : Nat) (s : State) : Res := .next (s.hostPut session Obj.cslLaneTest el 1)

/-- STATS_CLEAR (R776). -/
def execStatsClear (session : Nat) (s : State) : Res := .next (s.hostPut session Obj.wdpStatsClear 0 1)

/-- FAULT_CLEAR (R793). -/
def execFaultClear (session source : Nat) (s : State) : Res := .next (s.hostPut session Obj.fcrClear 0 source)

/-- FAULT_CLEAR_ALL (R793). -/
def execFaultClearAll (session : Nat) (s : State) : Res := .next (s.hostPut session Obj.fcrClear 0 0xFFFF)

/-- FIRST_CLEAR (R790). -/
def execFirstClear (session : Nat) (s : State) : Res := .next (s.hostPut session Obj.fcrFirstClear 0 1)

/-- INJECT (R795). -/
def execInject (session source bits master count : Nat) (s : State) : Res := .next (s.hostPut session Obj.fcrInject 0 (source + bits * 2 ^ 16 + master * 2 ^ 24 + count * 2 ^ 32))

/-- INJECT_CANCEL (R795). -/
def execInjectCancel (session : Nat) (s : State) : Res := .next (s.hostPut session Obj.fcrInject 0 (0xFFFF + 2 ^ 16 + 0xFF * 2 ^ 24 + 2 ^ 32))

/-- DMP_CLEAR (R801). -/
def execDmpClear (session : Nat) (s : State) : Res := .next (s.hostPut session Obj.dmpClear 0 1)

/-- SUMMARY_CLEAR (R802). -/
def execSummaryClear (session : Nat) (s : State) : Res := .next (s.hostPut session Obj.dmpSummaryClear 0 1)

/-- SLOT_SELECT (R819). -/
def execSlotSelect (session slot : Nat) (s : State) : Res := .next (s.hostPut session Obj.botSlotSelect 0 slot)

/-- ROLLBACK_COMMIT (R817). -/
def execRollbackCommit (session : Nat) (s : State) : Res := .next (s.hostPut session Obj.botRollbackCommit 0 1)

/-- KEY_REVOKE (R820). -/
def execKeyRevoke (session key : Nat) (s : State) : Res := .next (s.hostPut session Obj.botKeyRevoke 0 key)

/-- LVL_HOST_WRITE (R331). -/
def execLvlHostWrite (session pin reg value : Nat) (bcast : Bool) (s : State) : Res :=
  .next (s.hostPut session Obj.lvlHostCmd 0 (F.lvlHostCmdBcast.put (F.lvlHostCmdValue.put (F.lvlHostCmdReg.put (F.lvlHostCmdPin.put 0 pin) reg) value) bcast.toNat))

/-- GAUGE_WRITE (R429). -/
def execGaugeWrite (session el : Nat) (value : Bytes) (s : State) : Res := .next (s.hostWrite session Obj.ptfGauge el value)

/-- SYSCAL_FULL (R595). -/
def execSyscalFull (session el : Nat) (fs : Int) (s : State) : Res :=
  .next (s.hostPut session Obj.adcSyscal el (F.adcSyscalFsValue.put 2 (ofSigned 32 fs)))

/-- NT_SET (R646). -/
def execNtSet (session : Nat) (value : Bytes) (s : State) : Res := .next (s.hostWrite session Obj.ptpNtSet 0 value)

/-- NT_ADJ (R646). -/
def execNtAdj (session : Nat) (value : Int) (s : State) : Res := .next (s.hostPut session Obj.ptpNtAdj 0 (ofSigned 64 value))

/-- PORT_CFG (R741). -/
def execPortCfg (session el : Nat) (value : Bytes) (s : State) : Res := .next (s.hostWrite session Obj.hlkPortCfg el value)

/-- KEY_WRITE (R821). -/
def execKeyWrite (session el : Nat) (value : Bytes) (s : State) : Res := .next (s.hostWrite session Obj.secKey el value)

/-! Events of the engine after which a pending reply may be due: a validation or the admission has ended, or a transfer or a skein has been discarded. -/

/-- ADMISSION_END (R498). -/
def execAdmissionEnd (s : State) : Res := settled (runAdmissionEnd s)

/-- BLOCK_DECODE (R185). -/
def execBlockDecode (needle : Nat) (s : State) : Res := settled (runBlockDecode needle s)

/-- BOOT_STAGE_END (R808). -/
def execBootStageEnd (a : Nat) (b : Nats) (s : State) : Res := settled (runBootStageEnd a b s)

/-- DOMAIN_SWITCH_DONE (R581). -/
def execDomainSwitchDone (pd : Nat) (ok : Bool) (s : State) : Res := settled (runDomainSwitchDone pd ok s)

/-- FAIL_FLAG (R213). -/
def execFailFlag (needle : Nat) (s : State) : Res := settled (runFailFlag needle s)

/-- FAULT_REACTION (R786). -/
def execFaultReaction (s : State) : Res := settled (runFaultReaction s)

/-- FROG_COMMIT (R235). -/
def execFrogCommit (needle : Nat) (s : State) : Res := settled (runFrogCommit needle s)

/-- IMAGE_VALIDATION (R818). -/
def execImageValidation (patch : Bool) (slot : Nat) (s : State) : Res := settled (runImageValidation patch slot s)

/-- LINE_RECOVERED (R611). -/
def execLineRecovered (s : State) : Res := settled (runLineRecovered s)

/-- LINEWARN (R607). -/
def execLinewarn (bulk : Bool) (s : State) : Res := settled (runLinewarn bulk s)

/-- MODE_TRANSITION_COMPLETE (R108). -/
def execModeTransitionComplete (s : State) : Res := settled (runModeTransitionComplete s)

/-- PLACEMENT_COPIES_DONE (R486). -/
def execPlacementCopiesDone (s : State) : Res := settled (runPlacementCopiesDone s)

/-- RIDETHRU_PLAN_ENTRY (R608). -/
def execRidethruPlanEntry (s : State) : Res := settled (runRidethruPlanEntry s)

/-- SAFE_ENTRY (R126). -/
def execSafeEntry (s : State) : Res := settled (runSafeEntry s)

/-- SAFE_STAGE_END (R127). -/
def execSafeStageEnd (s : State) : Res := settled (runSafeStageEnd s)

/-- SAFE_STAGE_TIMEOUT (R128). -/
def execSafeStageTimeout (s : State) : Res := settled (runSafeStageTimeout s)

/-- SEAM_END (R26). -/
def execSeamEnd (needle : Nat) (s : State) : Res := settled (runSeamEnd needle s)

/-- SKEIN_TIMEOUT (R711). -/
def execSkeinTimeout (needle : Nat) (s : State) : Res := settled (runSkeinTimeout needle s)

/-- STALL_EXPIRY (R277). -/
def execStallExpiry (needle : Nat) (s : State) : Res := settled (runStallExpiry needle s)

/-- STITCH_ISSUE (R212). -/
def execStitchIssue (needle : Nat) (s : State) : Res := settled (runStitchIssue needle s)

end Sys2Proof.Machine
end

