-- ==== Sys2Proof/Machine/Dispatch.lean ====
section
/-! DEFINITION. The dispatch: one arm per command. -/
namespace Sys2Proof.Machine

def exec (i : Instr) (s : State) : Host.Outcome State Fault Refusal :=
  match i with
  | .powerOn => Sys2Proof.Machine.execPowerOn s
  | .extReset => Sys2Proof.Machine.execExtReset s
  | .coldEntry => Sys2Proof.Machine.execColdEntry s
  | .bootStageEnd a b => Sys2Proof.Machine.execBootStageEnd a b s
  | .refclkRetry present => Sys2Proof.Machine.execRefclkRetry present s
  | .hbmTrainingDone stack ok id ms => Sys2Proof.Machine.execHbmTrainingDone stack ok id ms s
  | .poaFrame port sub addr udp pcp frame => Sys2Proof.Machine.execPoaFrame port sub addr udp pcp frame s
  | .holdTimeout session => Sys2Proof.Machine.execHoldTimeout session s
  | .multicastFrame port sub group frame => Sys2Proof.Machine.execMulticastFrame port sub group frame s
  | .read session ix el => Sys2Proof.Machine.execRead session ix el s
  | .write session ix el value => Sys2Proof.Machine.execWrite session ix el value s
  | .domainBegin session ix el dir total => Sys2Proof.Machine.execDomainBegin session ix el dir total s
  | .domainData session xfer dlen offset data => Sys2Proof.Machine.execDomainData session xfer dlen offset data s
  | .domainAbort session xfer => Sys2Proof.Machine.execDomainAbort session xfer s
  | .transferTimeout xfer => Sys2Proof.Machine.execTransferTimeout xfer s
  | .streamData session needle skein offset data => Sys2Proof.Machine.execStreamData session needle skein offset data s
  | .skeinTimeout needle => Sys2Proof.Machine.execSkeinTimeout needle s
  | .subscribe session skind ix el interval window => Sys2Proof.Machine.execSubscribe session skind ix el interval window s
  | .unsubscribe session sub => Sys2Proof.Machine.execUnsubscribe session sub s
  | .ack session sub dseq => Sys2Proof.Machine.execAck session sub dseq s
  | .heartbeat session => Sys2Proof.Machine.execHeartbeat session s
  | .openCmd port sub addr udp level maxFrame timeout nonce => Sys2Proof.Machine.execOpen port sub addr udp level maxFrame timeout nonce s
  | .auth session proof => Sys2Proof.Machine.execAuth session proof s
  | .authTimeout session => Sys2Proof.Machine.execAuthTimeout session s
  | .close session => Sys2Proof.Machine.execClose session s
  | .poaSessionExpired session => Sys2Proof.Machine.execPoaSessionExpired session s
  | .sessionClose session target => Sys2Proof.Machine.execSessionClose session target s
  | .cyclicReport sub => Sys2Proof.Machine.execCyclicReport sub s
  | .eventReport sub source => Sys2Proof.Machine.execEventReport sub source s
  | .datalogReport sub => Sys2Proof.Machine.execDatalogReport sub s
  | .datalogRetransmit sub => Sys2Proof.Machine.execDatalogRetransmit sub s
  | .requestBoot session => Sys2Proof.Machine.execRequestBoot session s
  | .requestSafe session => Sys2Proof.Machine.execRequestSafe session s
  | .requestIdle session => Sys2Proof.Machine.execRequestIdle session s
  | .requestDoze session => Sys2Proof.Machine.execRequestDoze session s
  | .requestArmed session => Sys2Proof.Machine.execRequestArmed session s
  | .requestRun session => Sys2Proof.Machine.execRequestRun session s
  | .requestHold session => Sys2Proof.Machine.execRequestHold session s
  | .requestMeasure session => Sys2Proof.Machine.execRequestMeasure session s
  | .requestCalibrate session => Sys2Proof.Machine.execRequestCalibrate session s
  | .modeTransitionComplete => Sys2Proof.Machine.execModeTransitionComplete s
  | .admissionEnd => Sys2Proof.Machine.execAdmissionEnd s
  | .placementCopiesDone => Sys2Proof.Machine.execPlacementCopiesDone s
  | .migrationCopyDone handle seg => Sys2Proof.Machine.execMigrationCopyDone handle seg s
  | .safeEntry => Sys2Proof.Machine.execSafeEntry s
  | .safeStageEnd => Sys2Proof.Machine.execSafeStageEnd s
  | .safeStageTimeout => Sys2Proof.Machine.execSafeStageTimeout s
  | .linewarn bulk => Sys2Proof.Machine.execLinewarn bulk s
  | .ridethruPlanEntry => Sys2Proof.Machine.execRidethruPlanEntry s
  | .lineCommit => Sys2Proof.Machine.execLineCommit s
  | .lineRecovered => Sys2Proof.Machine.execLineRecovered s
  | .junctionReading readings => Sys2Proof.Machine.execJunctionReading readings s
  | .save session => Sys2Proof.Machine.execSave session s
  | .restore session => Sys2Proof.Machine.execRestore session s
  | .storeComplete => Sys2Proof.Machine.execStoreComplete s
  | .chartValidation handle => Sys2Proof.Machine.execChartValidation handle s
  | .chartDelete session el => Sys2Proof.Machine.execChartDelete session el s
  | .waveValidation el => Sys2Proof.Machine.execWaveValidation el s
  | .waveDelete session el => Sys2Proof.Machine.execWaveDelete session el s
  | .start session el => Sys2Proof.Machine.execStart session el s
  | .startQualify needle => Sys2Proof.Machine.execStartQualify needle s
  | .timedStart => Sys2Proof.Machine.execTimedStart s
  | .startAt session needles atNs => Sys2Proof.Machine.execStartAt session needles atNs s
  | .cancelStart session => Sys2Proof.Machine.execCancelStart session s
  | .blockDecode needle => Sys2Proof.Machine.execBlockDecode needle s
  | .stitchIssue needle => Sys2Proof.Machine.execStitchIssue needle s
  | .rasSyncEdge stream falling t => Sys2Proof.Machine.execRasSyncEdge stream falling t s
  | .frog session el => Sys2Proof.Machine.execFrog session el s
  | .frogCommit needle => Sys2Proof.Machine.execFrogCommit needle s
  | .pinPark needle => Sys2Proof.Machine.execPinPark needle s
  | .seamEnd needle => Sys2Proof.Machine.execSeamEnd needle s
  | .needleFreeze needle => Sys2Proof.Machine.execNeedleFreeze needle s
  | .resume => Sys2Proof.Machine.execResume s
  | .hostEvent session el value => Sys2Proof.Machine.execHostEvent session el value s
  | .hostEventLatch needle => Sys2Proof.Machine.execHostEventLatch needle s
  | .jump session el value => Sys2Proof.Machine.execJump session el value s
  | .jumpApply needle => Sys2Proof.Machine.execJumpApply needle s
  | .triginEdge input falling t => Sys2Proof.Machine.execTriginEdge input falling t s
  | .strobeResult needle samples => Sys2Proof.Machine.execStrobeResult needle samples s
  | .failFlag needle => Sys2Proof.Machine.execFailFlag needle s
  | .failLoggerDrain needle => Sys2Proof.Machine.execFailLoggerDrain needle s
  | .resultsFinal needle => Sys2Proof.Machine.execResultsFinal needle s
  | .queuePost queue => Sys2Proof.Machine.execQueuePost queue s
  | .poolRelease queue bytes => Sys2Proof.Machine.execPoolRelease queue bytes s
  | .rqpFlush session el => Sys2Proof.Machine.execRqpFlush session el s
  | .strFlush session el => Sys2Proof.Machine.execStrFlush session el s
  | .skeinValidated needle => Sys2Proof.Machine.execSkeinValidated needle s
  | .stallExpiry needle => Sys2Proof.Machine.execStallExpiry needle s
  | .levelFrameStart bank => Sys2Proof.Machine.execLevelFrameStart bank s
  | .levelFrameEnd bank miso => Sys2Proof.Machine.execLevelFrameEnd bank miso s
  | .lvlHostWrite session pin reg value bcast => Sys2Proof.Machine.execLvlHostWrite session pin reg value bcast s
  | .lvlHostRead session pin reg => Sys2Proof.Machine.execLvlHostRead session pin reg s
  | .supplyApply => Sys2Proof.Machine.execSupplyApply s
  | .gaugeWrite session el value => Sys2Proof.Machine.execGaugeWrite session el value s
  | .measDrive session el value => Sys2Proof.Machine.execMeasDrive session el value s
  | .measDriveApply => Sys2Proof.Machine.execMeasDriveApply s
  | .taeArm session el => Sys2Proof.Machine.execTaeArm session el s
  | .taeDisarm session el => Sys2Proof.Machine.execTaeDisarm session el s
  | .rearmEnd unit => Sys2Proof.Machine.execRearmEnd unit s
  | .triggerStamp unit => Sys2Proof.Machine.execTriggerStamp unit s
  | .force session el => Sys2Proof.Machine.execForce session el s
  | .taeTimeout unit => Sys2Proof.Machine.execTaeTimeout unit s
  | .recordComplete unit changes => Sys2Proof.Machine.execRecordComplete unit changes s
  | .calSample bank value => Sys2Proof.Machine.execCalSample bank value s
  | .swatchTimeout bank => Sys2Proof.Machine.execSwatchTimeout bank s
  | .calAged needle => Sys2Proof.Machine.execCalAged needle s
  | .fullCalPhase results => Sys2Proof.Machine.execFullCalPhase results s
  | .tmuStart session el => Sys2Proof.Machine.execTmuStart session el s
  | .tmuStop session el => Sys2Proof.Machine.execTmuStop session el s
  | .tdcStamp tdc source falling t => Sys2Proof.Machine.execTdcStamp tdc source falling t s
  | .gateClose tdc t => Sys2Proof.Machine.execGateClose tdc t s
  | .tmuTimeout tdc => Sys2Proof.Machine.execTmuTimeout tdc s
  | .memoryRequest channel master write addr data errorBits => Sys2Proof.Machine.execMemoryRequest channel master write addr data errorBits s
  | .refreshInterval pc temp => Sys2Proof.Machine.execRefreshInterval pc temp s
  | .forcedRefresh pc => Sys2Proof.Machine.execForcedRefresh pc s
  | .neighbourRefresh pc bank => Sys2Proof.Machine.execNeighbourRefresh pc bank s
  | .selfRefreshEntry stack => Sys2Proof.Machine.execSelfRefreshEntry stack s
  | .scrub addr errorBits => Sys2Proof.Machine.execScrub addr errorBits s
  | .commit session el => Sys2Proof.Machine.execCommit session el s
  | .bufferRelease session el => Sys2Proof.Machine.execBufferRelease session el s
  | .domainReq session value => Sys2Proof.Machine.execDomainReq session value s
  | .domainSwitchDone pd ok => Sys2Proof.Machine.execDomainSwitchDone pd ok s
  | .pmbusPoll readings => Sys2Proof.Machine.execPmbusPoll readings s
  | .pmbAlert words => Sys2Proof.Machine.execPmbAlert words s
  | .conversion conv code ovr => Sys2Proof.Machine.execConversion conv code ovr s
  | .loopEnable session el => Sys2Proof.Machine.execLoopEnable session el s
  | .loopDisable session el => Sys2Proof.Machine.execLoopDisable session el s
  | .owTest session el => Sys2Proof.Machine.execOwTest session el s
  | .owTestDone input vUp vDown => Sys2Proof.Machine.execOwTestDone input vUp vDown s
  | .syscalZero session el => Sys2Proof.Machine.execSyscalZero session el s
  | .syscalFull session el fs => Sys2Proof.Machine.execSyscalFull session el fs s
  | .syscalDone input codeSum ovr => Sys2Proof.Machine.execSyscalDone input codeSum ovr s
  | .refclkLoss => Sys2Proof.Machine.execRefclkLoss s
  | .refclkRelock => Sys2Proof.Machine.execRefclkRelock s
  | .clkPllUnlock => Sys2Proof.Machine.execClkPllUnlock s
  | .syncEdge t => Sys2Proof.Machine.execSyncEdge t s
  | .syncArm session => Sys2Proof.Machine.execSyncArm session s
  | .syncDisarm session => Sys2Proof.Machine.execSyncDisarm session s
  | .ptpEventMessage port egress seqId msgType => Sys2Proof.Machine.execPtpEventMessage port egress seqId msgType s
  | .ptpOffset offset pathDelay port master => Sys2Proof.Machine.execPtpOffset offset pathDelay port master s
  | .ptpSyncTimeout => Sys2Proof.Machine.execPtpSyncTimeout s
  | .ntSet session value => Sys2Proof.Machine.execNtSet session value s
  | .ntAdj session value => Sys2Proof.Machine.execNtAdj session value s
  | .txqOvfClear session el => Sys2Proof.Machine.execTxqOvfClear session el s
  | .eventSend port => Sys2Proof.Machine.execEventSend port s
  | .eventReceive port lanes sentAt => Sys2Proof.Machine.execEventReceive port lanes sentAt s
  | .eventDelivery port => Sys2Proof.Machine.execEventDelivery port s
  | .latencyMarker port flight => Sys2Proof.Machine.execLatencyMarker port flight s
  | .cascadeFrame port frame aborted => Sys2Proof.Machine.execCascadeFrame port frame aborted s
  | .cslLinkDown port lane => Sys2Proof.Machine.execCslLinkDown port lane s
  | .alignAuto session el => Sys2Proof.Machine.execAlignAuto session el s
  | .alignManual session el => Sys2Proof.Machine.execAlignManual session el s
  | .alignDone session el => Sys2Proof.Machine.execAlignDone session el s
  | .alignmentComplete port lanes => Sys2Proof.Machine.execAlignmentComplete port lanes s
  | .laneTest session el => Sys2Proof.Machine.execLaneTest session el s
  | .laneTestDone el errors comma deskewed => Sys2Proof.Machine.execLaneTestDone el errors comma deskewed s
  | .frameReceive port sub etherType vid pcp len fcsOk cls => Sys2Proof.Machine.execFrameReceive port sub etherType vid pcp len fcsOk cls s
  | .arpRequest port sub senderIp senderMac targetIp => Sys2Proof.Machine.execArpRequest port sub senderIp senderMac targetIp s
  | .echoRequest port sub v6 src dst len => Sys2Proof.Machine.execEchoRequest port sub v6 src dst len s
  | .neighbourSolicitation port sub src target dad => Sys2Proof.Machine.execNeighbourSolicitation port sub src target dad s
  | .membershipQuery port sub v6 group => Sys2Proof.Machine.execMembershipQuery port sub v6 group s
  | .pfcReceive port sub classes quanta => Sys2Proof.Machine.execPfcReceive port sub classes quanta s
  | .pfcRepeat port => Sys2Proof.Machine.execPfcRepeat port s
  | .moduleInsert port id => Sys2Proof.Machine.execModuleInsert port id s
  | .hlkLinkUp port sub => Sys2Proof.Machine.execHlkLinkUp port sub s
  | .hlkLinkDown port sub => Sys2Proof.Machine.execHlkLinkDown port sub s
  | .portCfg session el value => Sys2Proof.Machine.execPortCfg session el value s
  | .enqueue flow prio producer => Sys2Proof.Machine.execEnqueue flow prio producer s
  | .dispatch => Sys2Proof.Machine.execDispatch s
  | .complete core => Sys2Proof.Machine.execComplete core s
  | .yieldCmd core => Sys2Proof.Machine.execYield core s
  | .cccHang core => Sys2Proof.Machine.execCccHang core s
  | .cccEccU core => Sys2Proof.Machine.execCccEccU core s
  | .statsClear session => Sys2Proof.Machine.execStatsClear session s
  | .sourceLatch source high => Sys2Proof.Machine.execSourceLatch source high s
  | .holdoffExpiry group => Sys2Proof.Machine.execHoldoffExpiry group s
  | .coreWait core mask => Sys2Proof.Machine.execCoreWait core mask s
  | .handlerEntry core => Sys2Proof.Machine.execHandlerEntry core s
  | .claim core source spurious => Sys2Proof.Machine.execClaim core source spurious s
  | .faultRaise source inst master access addr => Sys2Proof.Machine.execFaultRaise source inst master access addr s
  | .faultReaction => Sys2Proof.Machine.execFaultReaction s
  | .fcrParity => Sys2Proof.Machine.execFcrParity s
  | .faultClear session source => Sys2Proof.Machine.execFaultClear session source s
  | .faultClearAll session => Sys2Proof.Machine.execFaultClearAll session s
  | .fcrRecovered source => Sys2Proof.Machine.execFcrRecovered source s
  | .firstClear session => Sys2Proof.Machine.execFirstClear session s
  | .inject session source bits master count => Sys2Proof.Machine.execInject session source bits master count s
  | .injectCancel session => Sys2Proof.Machine.execInjectCancel session s
  | .dumpEntry => Sys2Proof.Machine.execDumpEntry s
  | .dmpReady body => Sys2Proof.Machine.execDmpReady body s
  | .dmpClear session => Sys2Proof.Machine.execDmpClear session s
  | .summaryClear session => Sys2Proof.Machine.execSummaryClear session s
  | .imageValidation patch slot => Sys2Proof.Machine.execImageValidation patch slot s
  | .slotSelect session slot => Sys2Proof.Machine.execSlotSelect session slot s
  | .rollbackCommit session => Sys2Proof.Machine.execRollbackCommit session s
  | .keyRevoke session key => Sys2Proof.Machine.execKeyRevoke session key s
  | .keyWrite session el value => Sys2Proof.Machine.execKeyWrite session el value s
  | .pauseQuantaExpiry port sub pcp => Sys2Proof.Machine.execPauseQuantaExpiry port sub pcp s
  | .moduleRemoval port => Sys2Proof.Machine.execModuleRemoval port s
  | .cslFrameSent port => Sys2Proof.Machine.execCslFrameSent port s
  | .arpEntryExpiry port sub ip => Sys2Proof.Machine.execArpEntryExpiry port sub ip s
  | .dispatcherTimeAnchor => Sys2Proof.Machine.execDispatcherTimeAnchor s
  | .softstartEnd loop => Sys2Proof.Machine.execSoftstartEnd loop s

end Sys2Proof.Machine
end

