-- ==== Sys2Proof/Safety.lean ====
section
/-! DEFINITION. The terms in which the claims speak: the parts of the state, what a command may change and what it leaves alone, and the command's answer. -/
namespace Sys2Proof.Machine

/-- A part of the state: the elements of one object of the dictionary, or one field of the state (the queue apart). -/
inductive Part where
  | obj (o : Nat)
  | now
  | freeCtr
  | images
  | out
  | trans
  | safeWanted
  | cores
  | ready
  | flowFree
  | homes
  | wdpFullAt
  | wdpTrace
  | wdpLost
  | srcs
  | groups
  | fcr
  | clk
  | poa
  | hlk
  | loops
  | adc
  | psm
  | ode
  | waiters
  | results
  | jobs
  | chartLen
  | mem
  | hms
  | staged
  | ndls
  | evts
  | ucode
  | ubase
  | traps
  | sites
  | queues
  | pins
  | levelBus
  | levelFree
  | ras
  | tae
  | csl
  | cal
  | tdc
  | plc
  | bot
  deriving DecidableEq, Repr

/-- A part reads the same in two states. -/
def Part.Same : Part → State → State → Prop
  | .obj o, s, t => ∀ e, o < 65536 → t.rd o e = s.rd o e
  | .now, s, t => t.now = s.now
  | .freeCtr, s, t => t.freeCtr = s.freeCtr
  | .images, s, t => t.images = s.images
  | .out, s, t => t.out = s.out
  | .trans, s, t => t.trans = s.trans
  | .safeWanted, s, t => t.safeWanted = s.safeWanted
  | .cores, s, t => t.cores = s.cores
  | .ready, s, t => t.ready = s.ready
  | .flowFree, s, t => t.flowFree = s.flowFree
  | .homes, s, t => t.homes = s.homes
  | .wdpFullAt, s, t => t.wdpFullAt = s.wdpFullAt
  | .wdpTrace, s, t => t.wdpTrace = s.wdpTrace
  | .wdpLost, s, t => t.wdpLost = s.wdpLost
  | .srcs, s, t => t.srcs = s.srcs
  | .groups, s, t => t.groups = s.groups
  | .fcr, s, t => t.fcr = s.fcr
  | .clk, s, t => t.clk = s.clk
  | .poa, s, t => t.poa = s.poa
  | .hlk, s, t => t.hlk = s.hlk
  | .loops, s, t => t.loops = s.loops
  | .adc, s, t => t.adc = s.adc
  | .psm, s, t => t.psm = s.psm
  | .ode, s, t => t.ode = s.ode
  | .waiters, s, t => t.waiters = s.waiters
  | .results, s, t => t.results = s.results
  | .jobs, s, t => t.jobs = s.jobs
  | .chartLen, s, t => t.chartLen = s.chartLen
  | .mem, s, t => t.mem = s.mem
  | .hms, s, t => t.hms = s.hms
  | .staged, s, t => t.staged = s.staged
  | .ndls, s, t => t.ndls = s.ndls
  | .evts, s, t => t.evts = s.evts
  | .ucode, s, t => t.ucode = s.ucode
  | .ubase, s, t => t.ubase = s.ubase
  | .traps, s, t => t.traps = s.traps
  | .sites, s, t => t.sites = s.sites
  | .queues, s, t => t.queues = s.queues
  | .pins, s, t => t.pins = s.pins
  | .levelBus, s, t => t.levelBus = s.levelBus
  | .levelFree, s, t => t.levelFree = s.levelFree
  | .ras, s, t => t.ras = s.ras
  | .tae, s, t => t.tae = s.tae
  | .csl, s, t => t.csl = s.csl
  | .cal, s, t => t.cal = s.cal
  | .tdc, s, t => t.tdc = s.tdc
  | .plc, s, t => t.plc = s.plc
  | .bot, s, t => t.bot = s.bot

/-- The frame of a command: the queue is as before, every element of every object reads as before but the listed elements and the objects among
the listed parts, and every other field is as before but the listed ones. -/
structure Keeps (s t : State) (els : List (Nat × Nat)) (ps : List Part) : Prop where
  pending : t.pending = s.pending
  rd : ∀ o e, o < 65536 → (o, e) ∉ els → .obj o ∉ ps → t.rd o e = s.rd o e
  field : ∀ p : Part, p ∉ ps → (∀ o, p ≠ .obj o) → p.Same s t

/-- What the latch of a source may change (R766 to R770, R715): the source and its group, deliveries to cores, EVENT reports. -/
def signalParts : List Part := [.srcs, .groups, .cores, .obj Obj.iecPending, .obj Obj.iecCounts, .obj Obj.cccState,
  .poa, .hlk, .out, .obj Obj.hlkCounts, .obj Obj.secPoaCounts]

/-- What a raised fault may change (R780 to R791, R639): what its latch may, the collector's state and objects, a pending timed start. -/
def faultParts : List Part := signalParts ++ [.fcr, .obj Obj.fcrCounts, .obj Obj.fcrFirst, .obj Obj.fcrActive, .clk, .obj Obj.clkStartStatus]

/-- Parts beside those of a latch. -/
def withSignals (ps : List Part) : List Part := signalParts ++ ps

/-- Parts beside those of a raised fault. -/
def withFaults (ps : List Part) : List Part := faultParts ++ ps

/-- R780: after a fault is raised its source is pending, and a fault of class U or F is active. -/
def Raised (t : State) (src : Nat) : Prop :=
  t.srcPending src = true ∧ ∀ c, faultClass src = some c → c ≠ 0 → t.active src = true

/-- R11, kind SAT: a counter of w bits after n more. -/
def counted (w x n : Nat) : Nat := min (x + n) (2 ^ w - 1)

/-- The step stops neither in a fault nor in a refusal. -/
def Safe (s : State) : Prop := ∃ t, step s = .next t

/-- No service and no frame waits for its answer, and no completed access waits for its effect. -/
structure State.Quiet (s : State) : Prop where
  jobs : s.jobs = []
  waiters : s.waiters = []
  results : s.results = []
  done : s.ode.done = []

/-- One request, commanded alone, waits for its reply, and nothing else does. -/
structure State.Awaits (s : State) (w : Waiter) : Prop where
  waiters : s.waiters = [w]
  alone : w.inFrame = false
  jobs : s.jobs = []
  results : s.results = []
  done : s.ode.done = []
  single : w.mcast = none

/-- Session n is open, and nothing waits for an answer. -/
structure State.Opened (s : State) (n : Nat) (x : Session) : Prop where
  quiet : s.Quiet
  sess : s.session n = some x
  level : x.state = 2

/-- R698: a session's TIMEOUT counts afresh from now. -/
def State.touch (s : State) (n : Nat) (x : Session) : State := s.setSession n (some { x with lastRx := s.now })

/-- R74, R754: the state in which an item of a transfer is carried out: its work item has been posted in flow 89. -/
def State.carried (s : State) (n : Nat) (x : Session) : State := (s.touch n x).post89.2

/-- A WRITE of the bytes b to an element of an object, of which `els` are the members, is accepted (R71): no earlier access waits, session n is open,
steps 1 to 6 pass, steps 7 and 8 pass for every member, and where a core serves the access its ready list has room (R76). -/
structure Accepts (s : State) (n : Nat) (x : Session) (r : ObjRow) (ix el : Nat) (b : Bytes) (els : List Nat) : Prop where
  quiet : s.Quiet
  sess : s.session n = some x
  level : x.state = 2
  row : objRow ix = some r
  check : (s.touch n x).writeCheck x.level ix el b = (rOk, els)
  member : ∀ m ∈ els, (s.touch n x).memberReason ⟨n, x.level, x.port⟩ r els (ofLE b) m = rOk
  room : (s.touch n x).fwServed r = true → ((s.touch n x).enqueue 88 0 3).1 = true

/-- R74, R76: the accepted access is with its core: its item is posted, its job and its request (of service svc) wait, and no answer is given yet. -/
structure Posted (s : State) (n : Nat) (x : Session) (svc : Nat) (j : FwJob) (t : State) : Prop where
  jobs : t.ode.jobs = s.ode.jobs ++ [j]
  waiters : t.waiters = [⟨.fw j.id, n, svc, false, 0, 0, none⟩]
  out : bit (s.rd Obj.wdpTraceCtrl 0) 0 = false → t.out = s.out
  ready : t.ready = s.ready ++ [⟨88, (s.touch n x).flowPrio 88 0, 3, s.now⟩]
  kept : Keeps s t [] (withSignals [.ode, .waiters, .ready, .wdpFullAt, .wdpTrace, .wdpLost, .obj Obj.wdpCounts, .obj Obj.wdpTraceStatus])

/-- R76: the state after a core's access has been carried out and what waits for it has gone on. -/
def State.finish (u : State) (j : FwJob) : State := State.settleLoop 19999 (u.fwRun j)

/-- R76: the first way in which an accepted write takes effect: its hardware serves it, and the command itself commits it; `p` says what it does to a state. The second: a core serves it
(an object that says FW, any object in DOZE), the command posts its work item, and when the item completes, the write commits in the state that it finds then, and is answered. -/
structure Effect (i : Instr) (s : State) (n : Nat) (x : Session) (r : ObjRow) (ix el : Nat) (b : Bytes) (els : List Nat) (p : State → State → Prop) : Prop where
  direct : (s.touch n x).fwServed r = false → ∃ t, exec i s = .next t ∧ p (s.touch n x) t
  posted : (s.touch n x).fwServed r = true → ∃ t, exec i s = .next t ∧ Posted s n x 0x02 ⟨s.ode.next, false, ix, el, els, ofLE b⟩ t
  later : (s.touch n x).fwServed r = true → ∀ (u : State) (k : Nat), u.Awaits ⟨.fw k, n, 0x02, false, 0, 0, none⟩ →
    p { u with waiters := [] } (u.finish ⟨k, false, ix, el, els, ofLE b⟩)

/-- An accepted write of a number v in the length of the object's type has an effect. -/
def Takes (i : Instr) (s : State) (n : Nat) (x : Session) (r : ObjRow) (ix el v : Nat) (els : List Nat) (p : State → State → Prop) : Prop :=
  v < 256 ^ (tyLen r.ty).getD 0 → Accepts s n x r ix el (toLE ((tyLen r.ty).getD 0) v) els → Effect i s n x r ix el (toLE ((tyLen r.ty).getD 0) v) els p

/-- R688: the reply item of a WRITE with a reason and a MEMBER, for session n. -/
def wrote (n reason member : Nat) : OutMsg := .item n (replyItem 0x02 reason member [])

/-- A command answers a next state, of which p holds. -/
def Next (i : Instr) (s : State) (p : State → Prop) : Prop := ∃ t, exec i s = .next t ∧ p t

end Sys2Proof.Machine
end

