-- ==== Sys2Proof/Certificates/Slice0/Obligations.lean ====
section
/-! DEFINITION. The statements for the provers. -/
open Sys2Proof Sys2Proof.Machine

/-- The block's step: the front command on the state with the queue's rest (the model's own queue, notes/assumptions/1.md). -/
def Obligations.StepRunsTheFrontCommand : Prop :=
  (∀ (s : State) (c : Instr) (rest : List Instr), s.pending = c :: rest → step s = exec c { s with pending := rest }) ∧
  (∀ (s : State) (c : Instr), step { s with pending := c :: s.pending } = exec c s) ∧
  (∀ s : State, s.pending = [] → step s = .next { s with now := s.now + 78125 })

/-- R79, R98, R108. -/
def Obligations.ResetHoldsTheDefaults : Prop :=
  (∀ o e : Nat, o < 65536 → State.reset.rd o e = objDflt o) ∧ State.reset.mode = .cold ∧ State.reset.pending = [] ∧ State.reset.trans = none ∧
  (∀ n, State.reset.session n = none) ∧ State.reset.ready = [] ∧ State.reset.staged = [] ∧ State.reset.fcr.reactions = [] ∧
  State.reset.actives = [] ∧ State.reset.mem = [] ∧
  Next .powerOn State.reset (fun t => t.mode = .boot ∧ t.rd Obj.devPrevMode 0 = 0 ∧ t.rd Obj.devModeReason 0 = 0)

/-- The model's two sparse stores (notes/assumptions/4.md for memory), R817 for the fuses. -/
def Obligations.EveryStepKeepsTheStores : Prop :=
  ∀ s t : State, Memory.wf s.mem ∧ Tbl.Wf odDflt s.od ∧ s.bot.fused ≤ 64 → step s = .next t →
    Memory.wf t.mem ∧ Tbl.Wf odDflt t.od ∧ t.bot.fused ≤ 64

/-- The invariant of EveryStepKeepsTheStores at reset. -/
def Obligations.ResetMeetsTheInvariant : Prop :=
  Memory.wf State.reset.mem ∧ Tbl.Wf odDflt State.reset.od ∧ State.reset.bot.fused ≤ 64

/-- The queue of the block model; R640 for time. -/
def Obligations.StepsTakeOneCommandAndNoTimeBack : Prop :=
  ∀ s t : State, step s = .next t → t.pending = s.pending.tail ∧ s.now ≤ t.now

/-- R817, R820: blown fuses stay blown. -/
def Obligations.FusesStayBlown : Prop :=
  ∀ s t : State, s.bot.fused ≤ 64 → step s = .next t →
    s.bot.fused ≤ t.bot.fused ∧ ∀ k < 4, s.bot.revoked.testBit k = true → t.bot.revoked.testBit k = true

/-- R518: the addresses that exist; nothing else stops the machine. -/
def Obligations.OnlyAbsentAddressesStop : Prop :=
  ∀ (s : State) (i : Instr),
    match i with
    | .memoryRequest _ _ _ a d _ =>
      if d = [] ∨ (a + (d.length - 1)) / 2 ^ 34 < 3 then ∃ t, exec i s = .next t else exec i s = .fault (.noSuchAddress a)
    | .scrub a _ => if a / 2 ^ 34 < 3 then ∃ t, exec i s = .next t else exec i s = .fault (.noSuchAddress a)
    | _ => ∃ t, exec i s = .next t

/-- R71, R74, R76: how an accepted write comes to its effect. -/
def Obligations.AcceptedWritesAreServed : Prop :=
  (∀ (s : State) (n : Nat) (x : Session), s.session n = some x →
    (s.touch n x).session n = some { x with lastRx := s.now } ∧ (∀ k, k ≠ n → (s.touch n x).session k = s.session k) ∧ Keeps s (s.touch n x) [] [.poa]) ∧
  (∀ (s : State) (n : Nat) (x : Session) (r : ObjRow) (ix el : Nat) (b : Bytes) (els : List Nat), Accepts s n x r ix el b els →
    ((s.touch n x).fwServed r = false → ∀ (a : Nat) (t : State), (s.touch n x).commitCommand r ix el (ofLE b) els = (.done a 0xFFFF [], t) →
      exec (.write n ix el b) s = .next (t.emit (wrote n a 0xFFFF)).settle) ∧
    ((s.touch n x).fwServed r = true → Next (.write n ix el b) s (Posted s n x 0x02 ⟨s.ode.next, false, ix, el, els, ofLE b⟩))) ∧
  (∀ (u : State) (core start : Nat) (i : Item) (j : FwJob) (l : List FwJob), (u.core core).item = some (i, start) → i.flow = 88 → u.ode.jobs = j :: l → u.ode.done = [] →
    ∃ v : State, exec (.complete core) u = .next (v.finish j) ∧ v.ode = { u.ode with jobs := l } ∧ v.waiters = u.waiters ∧ v.results = u.results ∧ v.jobs = u.jobs ∧
      (v.core core).item = none ∧ Keeps u v [(Obj.cccState, core)] (withSignals [.flowFree, .ode, .wdpLost, .wdpTrace, .obj Obj.wdpStats, .obj Obj.wdpTraceStatus]))

/-- R79, R108, R807, R830, R831: entries to BOOT and COLD. -/
def Obligations.BootBegins : Prop :=
  ∀ s : State,
  let kept := fun t : State => t.bot.fw = s.bot.fw ∧ t.bot.patch = s.bot.patch ∧ t.bot.fused = s.bot.fused ∧ t.bot.revoked = s.bot.revoked ∧
    t.bot.keys = s.bot.keys ∧ t.bot.store = s.bot.store ∧ t.bot.factory = s.bot.factory ∧ t.now = s.now ∧ t.pending = s.pending
  let boots := fun (prev reason : Nat) (t : State) =>
    t.mode = .boot ∧ t.rd Obj.devPrevMode 0 = prev ∧ t.rd Obj.devModeReason 0 = reason ∧ t.bootStage = 1 ∧
    t.fld Obj.botCounts 0 F.botCountsBoots = counted 48 (s.fld Obj.botCounts 0 F.botCountsBoots) 1 ∧
    t.ready = [] ∧ t.staged = [] ∧ t.trans = none ∧ kept t ∧
    (s.psm.hot = true → Raised t Ev.tempLimit) ∧
    (s.psm.hot = false → (∀ n, t.session n = none) ∧ ∀ o e, o < 65536 → o ∉ [Obj.psmCounts, Obj.botCounts, Obj.fcrRecoveries, Obj.botStatus,
      Obj.devMode, Obj.devModeStamp, Obj.devPrevMode, Obj.devModeReason] → t.rd o e = objDflt o)
  (s.mode = .cold → s.bot.testMode = false → Next .powerOn s (boots 0 0)) ∧
  (s.mode ≠ .cold ∨ s.bot.testMode = true → Next .powerOn s (fun t => t = s)) ∧
  (s.mode ≠ .cold → Next .extReset s (boots s.leftMode 15)) ∧
  (s.mode ≠ .cold → s.psm.plan = none → s.trans = none → s.leftMode = s.mode.code) ∧
  (s.mode = .cold → Next .extReset s (fun t => t = s)) ∧
  Next .coldEntry s (fun t => t.mode = .cold ∧ (∀ o e, o < 65536 → t.rd o e = objDflt o) ∧ t.mem = [] ∧ t.images = [] ∧ (∀ n, t.session n = none) ∧ kept t)

/-- R808, R814 to R816: the stages of boot. -/
def Obligations.BootStagesFollow : Prop :=
  ∀ (s : State) (a : Nat) (b : Nats), s.Quiet → s.mode = .boot →
  let ended := fun (p : State → Prop) => Next (.bootStageEnd a b) s p
  let other := 1 - s.bot.slot
  (s.bot.held = true → ended (fun t => t = s)) ∧
  (s.bot.held = false →
    (s.bootStage = 1 → ended (fun t => t.bootStage = (if s.bot.warm then 3 else 2) ∧ t.rd Obj.botRollback 0 = s.bot.fused ∧
      t.rd Obj.botKeys 0 = s.bot.revoked ∧ t.rd Obj.botSlotSelect 0 = s.bot.slot)) ∧
    (s.bootStage = 2 → a = 0 ∨ s.railPresent a = false → ended (fun t => t.bootStage = 3 ∧ Keeps s t [(Obj.botStatus, 0)] [.out])) ∧
    (s.bootStage = 2 → a ≠ 0 → s.railPresent a = true →
      ended (fun t => t.bootStage = 2 ∧ t.bot.held = true ∧ t.bot.errLow = true ∧ Raised t Ev.psmRailFault)) ∧
    (s.bootStage = 3 → s.fld Obj.clkState 0 F.clkStateSource ≠ 3 → ¬ (s.fld Obj.clkCfg 0 ⟨0, 2⟩ = 1 ∧ a = 0) →
      ended (fun t => t.bootStage = 4 ∧ t.fld Obj.clkState 0 F.clkStateLocked = 1 ∧ t.clk.lock = s.now ∧ t.clk.epoch = s.now ∧
        t.fld Obj.clkState 0 F.clkStateSource = (if s.fld Obj.clkCfg 0 ⟨0, 2⟩ = 2 ∨ a = 0 then 1 else 0) ∧ ∀ c < 16, t.coreState c = 1)) ∧
    (s.bootStage = 3 → s.fld Obj.clkState 0 F.clkStateSource ≠ 3 → s.fld Obj.clkCfg 0 ⟨0, 2⟩ = 1 → a = 0 →
      ended (fun t => t.bootStage = 3 ∧ t.fld Obj.clkState 0 F.clkStateSource = 3 ∧ Raised t Ev.clkRefLost)) ∧
    (s.bootStage = 4 → s.imageReason false (s.fwImg s.bot.slot) = 0 → s.bot.slot < 2 →
      ended (fun t => t.bootStage = 5 ∧ t.fld Obj.botStatus 0 F.botStatusSlot = s.bot.slot ∧ t.rd Obj.devFwVersion 0 = leAt (s.fwImg s.bot.slot) 8 4 ∧
        ∀ c < 16, t.coreState c = 2)) ∧
    (s.bootStage = 4 → s.imageReason false (s.fwImg s.bot.slot) ≠ 0 → s.imageReason false (s.fwImg other) = 0 →
      ended (fun t => t.bootStage = 5 ∧ t.fld Obj.botStatus 0 F.botStatusSlot = other ∧ t.fld Obj.botStatus 0 F.botStatusFallback = 1 ∧
        t.fld Obj.botStatus 0 F.botStatusFwReason = s.imageReason false (s.fwImg s.bot.slot) ∧ Raised t Ev.bootFwRejected)) ∧
    (s.bootStage = 4 → s.imageReason false (s.fwImg s.bot.slot) ≠ 0 → s.imageReason false (s.fwImg other) ≠ 0 →
      ended (fun t => t.bootStage = 4 ∧ t.bot.held = true ∧ t.bot.errLow = true ∧ t.bot.qspiOff = true ∧ Raised t Ev.bootFwRejected)) ∧
    (s.bootStage = 5 →
      let r := s.imageReason true (s.patchImg (s.fld Obj.botStatus 0 F.botStatusSlot))
      let plain := (Config.gcmOpen (s.patchImg (s.fld Obj.botStatus 0 F.botStatusSlot))).getD []
      ended (fun t => t.bootStage = 6 ∧ t.ubase = true ∧
        (r = 0 → t.fld Obj.ndlUcodeInfo 0 F.ndlUcodeInfoPatchState = 1 ∧
          ∀ i < patchDesc plain 32 11, t.uword (7168 + i) = leAt plain (64 + 4 * patchDesc plain 43 7 + 24 * i) 24) ∧
        (r ≠ 0 → t.fld Obj.botStatus 0 F.botStatusPatchReason = r ∧ t.traps = [] ∧ t.ucode = [] ∧ Raised t Ev.bootPatchRejected))) ∧
    (s.bootStage = 6 → ended (fun t => t.bootStage = 7 ∧ (∀ k < 18, bit (t.rd Obj.devCaps 0) k = (!bit a k && k != 7)) ∧
      (a % 2 ^ 18 ≠ 0 → Raised t Ev.bootSelftest))) ∧
    (s.bootStage = 7 → ended (fun t => t.bootStage = 8 ∧ t.stack 0 = 1 ∧ t.stack 1 = 1)) ∧
    (s.bootStage = 8 → (∀ k < 2, s.stack k = 2 ∨ s.stack k = 4) →
      ended (fun t => t.bootStage = 9 ∧ (s.stack 0 = 2 → s.stack 1 = 2 → bit (t.rd Obj.devCaps 0) 7 = true) ∧
        Keeps s t [(Obj.botStatus, 0), (Obj.devCaps, 0)] [])) ∧
    (s.bootStage = 8 → (∃ k < 2, s.stack k ≠ 2 ∧ s.stack k ≠ 4) → ended (fun t => t = s)) ∧
    (s.bootStage = 9 → ended (fun t => (t.mode = .idle ∨ t.mode = .safe) ∧ (s.safeWanted = true → t.mode = .safe) ∧
      ((∀ d ∈ allDomains, bit (s.rd Obj.psmDomainReq 0) d = true) → (t.mode = .safe ↔ s.faultState = true ∨ s.safeWanted = true)) ∧
      t.safeWanted = false ∧ t.rd Obj.devPrevMode 0 = 1 ∧ t.rd Obj.devModeReason 0 = 2 ∧ t.srcPending Ev.bootComplete = true)))

/-- R816, R539: waits in boot. -/
def Obligations.BootWaitsAreServed : Prop :=
  ∀ s : State,
  (s.mode = .boot → s.bootStage = 3 → s.fld Obj.clkState 0 F.clkStateSource = 3 →
    Next (.refclkRetry true) s (fun t => t.now = s.now + 100 * msFs ∧ t.bootStage = 4 ∧ t.fld Obj.clkState 0 F.clkStateLocked = 1 ∧
      t.fld Obj.clkState 0 F.clkStateRefPresent = 1 ∧ t.clk.lock = t.now ∧ t.bot.since = t.now ∧ Keeps s t [] [.now, .clk, .bot, .obj Obj.botStatus, .obj Obj.cccState, .obj Obj.clkState]) ∧
    Next (.refclkRetry false) s (fun t => t.now = s.now + 100 * msFs ∧ Keeps s t [] [.now])) ∧
  (∀ present : Bool, s.mode ≠ .boot ∨ s.bootStage ≠ 3 ∨ s.fld Obj.clkState 0 F.clkStateSource ≠ 3 → Next (.refclkRetry present) s (fun t => t = s)) ∧
  (∀ (k id ms : Nat), k < 2 → id < 2 ^ 16 → ms < 2 ^ 16 → s.stack k = 1 →
    let info := fun t : State => t.fld Obj.hmsInfo 0 ⟨16 * k, 16⟩ = id ∧ t.fld Obj.hmsInfo 0 ⟨32 + 16 * k, 16⟩ = ms ∧ t.stack (1 - k) = s.stack (1 - k)
    Next (.hbmTrainingDone k true id ms) s (fun t => t.stack k = 2 ∧ info t ∧
      t.rd Obj.devCaps 0 = (if s.mode = .boot ∧ s.bootStage = 8 ∧ s.stack (1 - k) = 2 then s.rd Obj.devCaps 0 ||| 2 ^ 7 else s.rd Obj.devCaps 0) ∧
      Keeps s t [(Obj.hmsInfo, 0), (Obj.hmsState, 0), (Obj.devCaps, 0)] [.hms]) ∧
    Next (.hbmTrainingDone k false id ms) s (fun t => t.stack k = 4 ∧ info t ∧ Raised t Ev.hmsTrainFail ∧
      Keeps s t [(Obj.hmsInfo, 0), (Obj.hmsState, 0)] (withFaults [.hms]))) ∧
  (∀ (k id ms : Nat) (ok : Bool), s.stack k ≠ 1 → Next (.hbmTrainingDone k ok id ms) s (fun t => t = s))

/-- R813, R817 to R821. -/
def Obligations.ImagesAndKeysAreKept : Prop :=
  ∀ s : State,
  (∀ (patch : Bool) (slot id : Nat) (x : Xfer) (w : Waiter),
    s.writing (if patch then Obj.botPatchImage else Obj.botFwImage) slot = some (id, x) → x.validating = true → s.Awaits w → w.token = .xfer id →
    let r := s.imageReason patch x.data
    Next (.imageValidation patch slot) s (fun t =>
      (if patch then t.patchImg slot else t.fwImg slot) = (if r = 0 then x.data else []) ∧
      (∀ k, k ≠ slot → t.patchImg k = s.patchImg k ∧ t.fwImg k = s.fwImg k) ∧ t.xfer id = none ∧
      t.out = s.out ++ [.item w.session (w.reply (imageReply r) [BitVec.ofNat 8 r])] ∧ t.waiters = [] ∧ Keeps s t [] [.bot, .poa, .out, .waiters])) ∧
  (∀ (n : Nat) (x : Session) (r : ObjRow),
    (∀ slot : Nat, Takes (.slotSelect n slot) s n x r Obj.botSlotSelect 0 slot [0] (fun b t =>
      ( t.bot = { b.bot with slot := slot } ∧ t.rd Obj.botSlotSelect 0 = slot ∧
        t.out = b.out ++ [wrote n rOk 0xFFFF] ∧ Keeps b t [(Obj.botSlotSelect, 0)] [.bot, .out]))) ∧
    Takes (.rollbackCommit n) s n x r Obj.botRollbackCommit 0 1 [0] (fun b t =>
      t.bot.fused = min 64 (max b.bot.fused b.commitLevel) ∧ t.rd Obj.botRollback 0 = t.bot.fused ∧
        (b.bot.fused ≤ 64 → b.bot.fused ≤ t.bot.fused) ∧ t.bot = { b.bot with fused := t.bot.fused } ∧
        t.out = b.out ++ [wrote n rOk 0xFFFF] ∧ Keeps b t [(Obj.botRollbackCommit, 0), (Obj.botRollback, 0)] [.bot, .out]) ∧
    (∀ k : Nat, Takes (.keyRevoke n k) s n x r Obj.botKeyRevoke 0 k [0] (fun b t =>
      (∀ j < 4, bit t.bot.revoked j = (bit b.bot.revoked j || j == k)) ∧ t.rd Obj.botKeys 0 = t.bot.revoked ∧
        t.bot = { b.bot with revoked := t.bot.revoked } ∧
        t.out = b.out ++ [wrote n rOk 0xFFFF] ∧ Keeps b t [(Obj.botKeyRevoke, 0), (Obj.botKeys, 0)] [.bot, .out])) ∧
    (∀ (el : Nat) (v : Bytes) (els : List Nat), Accepts s n x r Obj.secKey el v els →
      Effect (.keyWrite n el v) s n x r Obj.secKey el v els (fun b t => (∀ m ∈ els, t.rd Obj.secKey m = ofLE v ∧ Tbl.get (fun _ => 0) t.bot.keys m = ofLE v ∧
          t.fld Obj.secKeyStatus 0 ⟨m, 1⟩ = (if ofLE v = 0 then 0 else 1)) ∧
        (∀ m, m ∉ els → Tbl.get (fun _ => 0) t.bot.keys m = Tbl.get (fun _ => 0) b.bot.keys m) ∧
        t.out = b.out ++ [wrote n rOk 0xFFFF] ∧ Keeps b t ((Obj.secKeyStatus, 0) :: els.map (fun m => (Obj.secKey, m))) [.bot, .out])))

/-- R81, R84, R850: the persistent store; that an operation fails, and its reason, is the model's free value (notes/assumptions/130.md). -/
def Obligations.TheStoreIsSavedAndRestored : Prop :=
  ∀ s : State,
  (∀ (n : Nat) (x : Session) (r : ObjRow),
    Takes (.save n) s n x r Obj.devStore 0 1 [0] (fun b t =>
      (∃ c : StoreCopy, t.bot.saving = some ⟨false, some c, Config.freeValue b.freeCtr % 65536⟩ ∧
          (∀ o e, o < 65536 → objP o = true → Tbl.get odDflt c.vals (odKey o e) = b.rd o e)) ∧
        t.bot.store = b.bot.store ∧ t.fld Obj.devStoreStatus 0 F.devStoreStatusState = 1 ∧
        t.out = b.out ++ [wrote n rOk 0xFFFF] ∧ Keeps b t [(Obj.devStore, 0), (Obj.devStoreStatus, 0)] [.bot, .freeCtr, .out]) ∧
    Takes (.restore n) s n x r Obj.devFactoryRestore 0 1 [0] (fun b t =>
      t.bot = { b.bot with saving := some ⟨true, none, Config.freeValue b.freeCtr % 65536⟩ } ∧ t.fld Obj.devStoreStatus 0 F.devStoreStatusState = 2 ∧
        t.out = b.out ++ [wrote n rOk 0xFFFF] ∧ Keeps b t [(Obj.devFactoryRestore, 0), (Obj.devStoreStatus, 0)] [.bot, .freeCtr, .out])) ∧
  (∀ w : Saving, s.bot.saving = some w →
    (w.ending = rOk → Next .storeComplete s (fun t => t.bot.saving = none ∧ t.bot.store = w.copy ∧ t.fld Obj.devStoreStatus 0 F.devStoreStatusState = 0 ∧
      t.fld Obj.devStoreStatus 0 F.devStoreStatusLastReason = 0 ∧
      (w.restore = false → t.fld Obj.devStoreCount 0 ⟨0, 48⟩ = counted 48 (s.fld Obj.devStoreCount 0 ⟨0, 48⟩) 1 ∧ t.bot.storeCount = t.rd Obj.devStoreCount 0) ∧
      (w.restore = true → t.rd Obj.devStoreCount 0 = s.rd Obj.devStoreCount 0) ∧
      Keeps s t [(Obj.devStoreStatus, 0), (Obj.devStoreCount, 0)] [.bot])) ∧
    (w.ending ≠ rOk → w.ending < 65536 → Next .storeComplete s (fun t => t.bot = { s.bot with saving := none } ∧
      t.fld Obj.devStoreStatus 0 F.devStoreStatusState = 3 ∧ t.fld Obj.devStoreStatus 0 F.devStoreStatusLastReason = w.ending ∧ Keeps s t [(Obj.devStoreStatus, 0)] [.bot]))) ∧
  (s.bot.saving = none → Next .storeComplete s (fun t => t = s))

/-- R100 to R116, R851: mode requests. -/
def Obligations.ModeRequestsStartTransitions : Prop :=
  ∀ (s : State) (n : Nat) (x : Session) (r : ObjRow),
  let asks := fun (v : Nat) (i : Instr) (p : State → State → Prop) => Takes i s n x r Obj.devModeReq 0 v [0] p
  let answered := fun (b t : State) => t.out = b.out ++ [wrote n rOk 0xFFFF]
  let quiet := fun b : State => b.clk.startQ = none
  let placed := fun b : State => b.mode = .run ∨ b.mode = .hold
  (∀ p ∈ [(1, Instr.requestBoot n), (2, .requestSafe n), (3, .requestIdle n), (4, .requestDoze n), (5, .requestArmed n), (6, .requestRun n),
      (7, .requestHold n), (8, .requestMeasure n), (9, .requestCalibrate n)],
    asks p.1 p.2 (fun b t => b.inTransition = false → p.1 = b.mode.code → answered b t ∧ Keeps b t [] [.out])) ∧
  (∀ p ∈ [(1, Instr.requestBoot n), (3, .requestIdle n), (4, .requestDoze n), (8, .requestMeasure n), (9, .requestCalibrate n)],
    asks p.1 p.2 (fun b t => b.inTransition = false → p.1 ≠ b.mode.code → ¬ placed b →
      t.trans = some ⟨b.mode.code, p.1, 1, some b.now⟩ ∧ t.clk.startQ = none ∧
      (quiet b → b.mode ≠ .doze → answered b t ∧ Keeps b t [] [.trans, .out]) ∧ Keeps b t [] (withSignals [.clk, .psm, .trans, .obj Obj.clkStartStatus, .obj Obj.hmsState, .obj Obj.psmDomainState]))) ∧
  (∀ p ∈ [(3, Instr.requestIdle n), (5, .requestArmed n)], asks p.1 p.2 (fun b t => b.inTransition = false → placed b →
      t.trans = some ⟨b.mode.code, p.1, 1, some (b.applyEdge + 6 * vclkFs)⟩ ∧ t.clk.startQ = none ∧
      (∀ m < 16, (t.ndl m).frogs = (b.ndl m).frogs ++ (if b.busyNeedle m then [(b.applyEdge, 3)] else [])) ∧
      (quiet b → answered b t ∧ Keeps b t [] [.trans, .ndls, .out]) ∧ Keeps b t [] (withSignals [.clk, .ndls, .trans, .obj Obj.clkStartStatus]))) ∧
  asks 6 (.requestRun n) (fun b t => b.inTransition = false → b.mode ≠ .run → t.trans = some ⟨b.mode.code, 6, 1, some b.applyEdge⟩ ∧
      (quiet b → answered b t ∧ Keeps b t [] [.trans, .out]) ∧ Keeps b t [] (withSignals [.clk, .trans, .obj Obj.clkStartStatus])) ∧
  asks 7 (.requestHold n) (fun b t => b.inTransition = false → b.mode = .run → b.anyRunning = true →
      t.trans = some ⟨6, 7, 1, none⟩ ∧ t.clk.startQ = none ∧ t.mode = .run ∧
      (∀ m < 16, (t.ndl m).freeze = (if b.running m = true ∧ (b.ndl m).bound = none ∧ b.ndlState m ≠ 7 then
        some (match (b.ndl m).freeze with | some f => min f b.applyEdge | none => b.applyEdge) else (b.ndl m).freeze)) ∧
      (quiet b → answered b t ∧ Keeps b t [] [.trans, .ndls, .out]) ∧ Keeps b t [] (withSignals [.clk, .ndls, .trans, .obj Obj.clkStartStatus])) ∧
  asks 5 (.requestArmed n) (fun b t => b.inTransition = false → b.mode = .idle → b.plc.arming = none →
      t.trans = some ⟨3, 5, 1, none⟩ ∧ t.rd Obj.plcState 0 = 1 ∧ t.plc = { b.plc with arming := some (b.now + 4 * msFs) } ∧
      t.waiters = [⟨.arming, n, 0x02, false, 0, 0, none⟩] ∧ t.clk.startQ = none ∧
      (quiet b → Keeps b t [(Obj.plcState, 0)] [.trans, .plc, .waiters]) ∧ Keeps b t [(Obj.plcState, 0)] (withSignals [.clk, .plc, .trans, .waiters, .obj Obj.clkStartStatus])) ∧
  asks 2 (.requestSafe n) (fun b t => b.mode = .boot → b.safeWanted = false → t.safeWanted = true ∧ t.mode = .boot ∧ answered b t ∧ Keeps b t [] [.safeWanted, .out]) ∧
  asks 2 (.requestSafe n) (fun b t => b.mode ≠ .boot → b.mode ≠ .safe → b.psm.plan = none → b.fcr.entry = none →
      t.fcr = { b.fcr with entry := some (b.now, false, 1, 0xFFFF) } ∧ answered b t ∧ Keeps b t [] [.fcr, .out]) ∧
  asks 2 (.requestSafe n) (fun b t => b.mode ≠ .boot → b.mode ≠ .safe → b.psm.plan ≠ none → answered b t ∧ Keeps b t [] [.out])

/-- R97, R107, R108: transitions complete. -/
def Obligations.TransitionsComplete : Prop :=
  ∀ s : State, s.Quiet →
  (s.trans = none ∨ (∃ x, s.trans = some x ∧ x.due = none) → Next .modeTransitionComplete s (fun t => t = s)) ∧
  (∀ (x : Trans) (d : Nat), s.trans = some x → x.due = some d →
    let enters := fun (m : Mode) (p : State → Prop) => x.target = m.code →
      Next .modeTransitionComplete s (fun t => t.mode = m ∧ t.rd Obj.devPrevMode 0 = x.source ∧ t.rd Obj.devModeReason 0 = x.reason ∧
        t.trans = none ∧ t.now = max s.now d ∧ t.waiters = [] ∧ t.jobs = [] ∧ p t)
    enters .boot (fun t => t.bootStage = 1 ∧ t.bot.warm = (x.reason == 1)) ∧
    enters .idle (fun t => ∀ m < 16, t.ndlState m = 0 ∨ t.ndlState m = 1) ∧
    enters .doze (fun t => ∀ k < 2, t.stack k ≠ 2) ∧
    enters .measure (fun t => (∀ p < 256, t.rd Obj.ptfPinState p = 0 ∨ t.rd Obj.ptfPinState p = 4) ∧ ∀ m < 16, t.ndlState m = 0 ∨ t.ndlState m = 1) ∧
    enters .calibrate (fun t => t.cal.full = some t.now ∧ t.fld Obj.calFullStatus 0 F.calFullStatusPhase = 0) ∧
    enters .armed (fun _ => True) ∧
    (x.target = 6 → x.source = 7 → Next .modeTransitionComplete s (fun t => t.mode = .run ∧ t.rd Obj.devPrevMode 0 = x.source ∧
      t.rd Obj.devModeReason 0 = x.reason ∧ (t.trans = none ∨ t.active Ev.ucodeParity = true) ∧ t.now = max s.now d ∧ t.waiters = [] ∧ t.jobs = [] ∧
      ∀ m < 16, s.ndlState m = 6 → t.ndlState m = 4 ∨ t.ndlState m = 5 ∨ t.ndlState m = 9)) ∧
    (x.target = 6 → x.source = 5 →
      let u := s.reach d
      (u.qualifies (needles s.hasChart) = true → needles s.hasChart ≠ [] →
        Next .modeTransitionComplete s (fun t => (t.trans = none ∨ t.active Ev.ucodeParity = true) ∧ t.now = max s.now (d + vclkFs) ∧ (∀ m ∈ needles s.hasChart, t.ndlState m = 3 ∨ t.ndlState m = 9) ∧
          (s.mode = .armed → t.mode = .run))) ∧
      (u.qualifies (needles s.hasChart) = false → Next .modeTransitionComplete s (fun t => t = { u with trans := none }))))

/-- R485, R486, R498, R505, R507: arming and migration. -/
def Obligations.ArmingEnds : Prop :=
  ∀ s : State,
  (∀ w : Waiter, s.plc.arming ≠ none → s.Awaits w → w.token = .arming →
    (∀ q : Report, s.admission s.residence = some q →
      Next .admissionEnd s (fun t => t.trans = none ∧ t.plc.arming = none ∧ t.rd Obj.plcState 0 = 3 ∧ t.srcPending Ev.plcRefused = true ∧
        t.out.getLast? = some (.item w.session (w.reply rPlace [])) ∧ t.waiters = [] ∧ Keeps s t [] (withSignals [.homes, .plc, .queues, .results, .trans, .waiters, .obj Obj.cccRoles, .obj Obj.lvlBankOwner, .obj Obj.ndlChartState,
        .obj Obj.plcChartPlace, .obj Obj.plcCounts, .obj Obj.plcNeedleDemand, .obj Obj.plcReport, .obj Obj.plcSiteCore, .obj Obj.plcState,
        .obj Obj.plcTotals, .obj Obj.ptfWaveState, .obj Obj.rqpNeedleQueue, .obj Obj.rqpPoolStatus, .obj Obj.rqpSiteQueue]))) ∧
    (s.admission s.residence = none →
      Next .admissionEnd s (fun t => t.trans = s.trans ∧ t.plc.arming = none ∧ t.rd Obj.plcState 0 = s.rd Obj.plcState 0 ∧
        (∀ h ∈ s.placedCharts, t.chartState h = 4) ∧ t.plc.resident = s.residence ∧
        t.out.getLast? = some (.item w.session (w.reply rOk [])) ∧ t.waiters = [] ∧ Keeps s t [] (withSignals [.homes, .plc, .queues, .results, .trans, .waiters, .obj Obj.cccRoles, .obj Obj.lvlBankOwner, .obj Obj.ndlChartState,
        .obj Obj.plcChartPlace, .obj Obj.plcCounts, .obj Obj.plcNeedleDemand, .obj Obj.plcReport, .obj Obj.plcSiteCore, .obj Obj.plcState,
        .obj Obj.plcTotals, .obj Obj.ptfWaveState, .obj Obj.rqpNeedleQueue, .obj Obj.rqpPoolStatus, .obj Obj.rqpSiteQueue])))) ∧
  (s.Quiet → s.plc.arming = none → Next .admissionEnd s (fun t => t = s)) ∧
  (∀ x : Trans, s.Quiet → s.trans = some x → x.target = 5 → s.rd Obj.plcState 0 = 1 → s.plc.arming = none →
    Next .placementCopiesDone s (fun t => t.mode = .armed ∧ t.trans = none ∧ t.rd Obj.plcState 0 = 2 ∧ t.rd Obj.devPrevMode 0 = x.source ∧
      t.rd Obj.devModeReason 0 = x.reason ∧ (∀ m ∈ needles s.hasChart, t.ndlState m = 2) ∧ Keeps s t [] (withSignals [.ndls, .plc, .results, .trans, .wdpLost, .wdpTrace, .obj Obj.clkSyncArm, .obj Obj.clkSyncStatus, .obj Obj.devMode,
        .obj Obj.devModeReason, .obj Obj.devModeStamp, .obj Obj.devPrevMode, .obj Obj.hmsLoad, .obj Obj.ndlState, .obj Obj.ndlTraceStatus,
        .obj Obj.plcState, .obj Obj.rqpPoolStatus, .obj Obj.strCounts, .obj Obj.strNextSeq, .obj Obj.strState, .obj Obj.wdpTraceStatus]))) ∧
  (s.Quiet → s.trans = none → Next .placementCopiesDone s (fun t => t = s)) ∧
  (∀ h k : Nat, s.plc.copying = some (segKey h k) →
    Next (.migrationCopyDone h k) s (fun t =>
      let users := (s.placedNeedles).filter (fun m => (s.needleCharts m).contains h)
      t.plc.resident = s.plc.resident ++ [segKey h k] ∧ t.plc.switches = s.plc.switches ++ [⟨h, k, ofMembers users, s.edgeAt fclkFs s.now⟩] ∧
      (∀ m ∈ users, t.status m F.ndlStatusSwitchPending = 1) ∧
      t.fld Obj.plcCounts 0 F.plcCountsMigrations = counted 48 (s.fld Obj.plcCounts 0 F.plcCountsMigrations) 1 ∧ Keeps s t [] [.plc, .obj Obj.ndlStatus, .obj Obj.plcChartPlace, .obj Obj.plcCounts])) ∧
  (∀ h k : Nat, s.plc.copying ≠ some (segKey h k) → Next (.migrationCopyDone h k) s (fun t => t = s))

/-- R126 to R130, R851: entry to SAFE and DUMP. -/
def Obligations.SafeAndDumpAreEntered : Prop :=
  ∀ s : State, s.Quiet →
  (∀ (e : Nat) (dump : Bool) (reason src : Nat), s.fcr.entry = some (e, dump, reason, src) →
    let took := fun t : State => (t.fcr.entry = none ∨ t.active Ev.ucodeParity = true ∨ t.active Ev.streamUnderrun = true) ∧ t.now = max s.now e
    let stopped := fun t : State => t.trans = none ∧ t.safeWanted = false ∧ (∀ m < 16, t.busyNeedle m = false) ∧ t.psm.ride = none
    (dump = false → s.mode ≠ .cold → s.mode ≠ .dump → s.mode ≠ .boot → s.mode ≠ .safe → s.psm.plan = none →
      Next .safeEntry s (fun t => took t ∧ stopped t ∧
        ((t.psm.plan = some (s.leftMode, false, reason, src) ∧ t.psm.ramp ≠ none ∧ t.mode = s.mode) ∨
          (t.psm.plan = none ∧ t.mode = .safe ∧ t.rd Obj.devPrevMode 0 = s.leftMode ∧ t.rd Obj.devModeReason 0 = reason)))) ∧
    (dump = true → s.mode ≠ .cold → s.mode ≠ .dump → src < 2 ^ 16 →
      Next .safeEntry s (fun t => took t ∧ stopped t ∧ t.mode = .dump ∧ t.rd Obj.devPrevMode 0 = s.leftMode ∧ t.rd Obj.devModeReason 0 = reason ∧
        t.fld Obj.dmpStatus 0 F.dmpStatusCause = src ∧ (t.psm.plan ≠ none → t.psm.ramp ≠ none))) ∧
    (s.mode = .cold ∨ s.mode = .dump ∨ (dump = false ∧ (s.mode = .boot ∨ s.mode = .safe ∨ s.psm.plan ≠ none)) →
      Next .safeEntry s (fun t => t.fcr.entry = none ∧ t.now = max s.now e ∧ Keeps s t [] [.now, .fcr]))) ∧
  (s.fcr.entry = none → Next .safeEntry s (fun t => t = s)) ∧
  (∀ st d : Nat, s.psm.ramp = some (st, d) →
    let goes := fun t : State => (t.psm.ramp = none ∨ ∃ k e, t.psm.ramp = some (k, e) ∧ st < k ∧ k ≤ 7) ∧
      ∀ prev reason src, s.psm.plan = some (prev, false, reason, src) → t.psm.ramp = none →
        t.psm.plan = none ∧ t.mode = .safe ∧ t.rd Obj.devPrevMode 0 = prev ∧ t.rd Obj.devModeReason 0 = reason
    (s.stageDone st = true → Next .safeStageEnd s (fun t => goes t ∧ t.now = s.now)) ∧
    (s.stageDone st = false → Next .safeStageEnd s (fun t => t = s)) ∧
    Next .safeStageTimeout s (fun t => goes t ∧ t.now = max s.now d ∧
      ∀ l ∈ s.stageLoops st, s.loopOn l = true → t.rd Obj.splState l = 0 ∧ t.active Ev.splSafeTimeout = true)) ∧
  (s.psm.ramp = none → Next .safeStageEnd s (fun t => t = s) ∧ Next .safeStageTimeout s (fun t => t = s))

/-- R607 to R612, R118, R119: the ride-through plan. -/
def Obligations.LineDisturbancesAreRidden : Prop :=
  ∀ s : State, s.Quiet →
  let counts := fun (t : State) (f : Fld) => t.fld Obj.psmCounts 0 f = counted 48 (s.fld Obj.psmCounts 0 f) 1
  (∀ bulk : Bool, s.psm.line = false → (if bulk = true then s.bulkLow = true else s.fld Obj.psmLineCfg 0 F.psmLineCfgLinewarnEn = 1) →
    ((s.mode = .cold ∨ s.mode = .boot ∨ s.mode = .safe ∨ s.mode = .dump) →
      Next (.linewarn bulk) s (fun t => t.psm.line = true ∧ t.mode = s.mode ∧ counts t F.psmCountsEvents ∧ counts t F.psmCountsIgnored ∧
        Keeps s t [(Obj.psmCounts, 0), (Obj.psmLineStatus, 0)] [.psm])) ∧
    (s.mode = .ridethru ∨ (s.mode ∉ [Mode.cold, .boot, .safe, .dump] ∧ s.safeGoing = true) → Next (.linewarn bulk) s (fun t => t.psm = { s.psm with line := true } ∧ Keeps s t [(Obj.psmLineStatus, 0)] [.psm])) ∧
    (s.mode ≠ .cold → s.mode ≠ .boot → s.mode ≠ .safe → s.mode ≠ .dump → s.mode ≠ .ridethru → s.safeGoing = false →
      Next (.linewarn bulk) s (fun t => t.mode = .ridethru ∧ t.rd Obj.devPrevMode 0 = s.leftMode ∧ t.rd Obj.devModeReason 0 = 11 ∧ t.trans = none ∧
        t.psm.ride = some (s.now : Int) ∧ t.fld Obj.psmLineStatus 0 F.psmLineStatusState = 1 ∧ t.fld Obj.psmLineStatus 0 F.psmLineStatusNext = 0 ∧
        counts t F.psmCountsEvents ∧ t.clk.startQ = none ∧ t.srcPending Ev.lineWarn = true))) ∧
  (∀ (r : Int) (k : Nat), s.psm.ride = some r →
    ((List.range 16).filter (fun k => decide (s.fld Obj.psmLineStatus 0 F.psmLineStatusNext ≤ k) && (s.planEntry k).2.1 != 0)).head? = some k →
    let (time, act, arg) := s.planEntry k
    Next .ridethruPlanEntry s (fun t => t.now = max s.now (rideAt r time) ∧ t.fld Obj.psmLineStatus 0 F.psmLineStatusNext = k + 1 ∧
      (act = 1 → ∀ m ∈ members 16 arg, t.busyNeedle m = false) ∧
      (act = 4 → s.fcr.entry = none → t.fcr.entry = some (t.now, false, 13, 0xFFFF)))) ∧
  (s.psm.ride = none → Next .ridethruPlanEntry s (fun t => t = s) ∧ Next .lineCommit s (fun t => t = s)) ∧
  (∀ r : Int, s.psm.ride = some r →
    let commit := rideAt r (s.fld Obj.psmRidethruPlan 0 F.psmRidethruPlanCommit)
    (s.fld Obj.psmLineStatus 0 F.psmLineStatusState = 1 →
      Next .lineCommit s (fun t => t.now = max s.now commit ∧ t.fld Obj.psmLineStatus 0 F.psmLineStatusState = 2 ∧ counts t F.psmCountsCommits ∧
        t.srcPending Ev.lineCommit = true ∧ Keeps s t [(Obj.psmLineStatus, 0), (Obj.psmCounts, 0)] (withSignals [.now]))) ∧
    (s.fld Obj.psmLineStatus 0 F.psmLineStatusState ≠ 1 → Next .lineCommit s (fun t => t.now = max s.now commit ∧ Keeps s t [] [.now])) ∧
    (s.now < commit → s.bulkLow = false → s.fld Obj.psmLineStatus 0 F.psmLineStatusState = 1 →
      Next .lineRecovered s (fun t => t.mode = s.rideReturn ∧ t.rd Obj.devPrevMode 0 = 10 ∧ t.rd Obj.devModeReason 0 = 12 ∧ t.psm.line = false ∧
        t.psm.ride = none ∧ counts t F.psmCountsRecoveries ∧ t.srcPending Ev.lineRecovered = true ∧ t.fld Obj.psmLineStatus 0 F.psmLineStatusState = 0))) ∧
  (s.bulkLow = true → Next .lineRecovered s (fun t => t.psm = s.psm ∧ t.fld Obj.psmLineStatus 0 F.psmLineStatusLinewarn = 0 ∧ Keeps s t [(Obj.psmLineStatus, 0)] [])) ∧
  (s.bulkLow = false → s.psm.ride = none ∨ s.fld Obj.psmLineStatus 0 F.psmLineStatusState ≠ 1 →
    Next .lineRecovered s (fun t => t.psm = { s.psm with line := false } ∧ t.mode = s.mode ∧ Keeps s t [(Obj.psmLineStatus, 0), (Obj.psmCounts, 0)] [.psm]))

/-- R840. -/
def Obligations.HeatIsWatched : Prop :=
  ∀ s : State, Next (.junctionReading []) s (fun t => t = s) ∧
  ∀ (a : Int) (rest : Ints),
    let h := rest.foldl max a
    Next (.junctionReading (a :: rest)) s (fun t =>
      (100 ≤ h → s.psm.warm = false → t.srcPending Ev.tempWarn = true) ∧ (110 ≤ h → s.psm.hot = false → Raised t Ev.tempLimit) ∧
      t.psm.warm = (if 100 ≤ h then true else if h < 95 then false else s.psm.warm) ∧
      t.psm.hot = (if 110 ≤ h then true else if h < 105 then false else s.psm.hot) ∧
      (h < 100 → Keeps s t [] [.psm]) ∧ Keeps s t [] (withFaults [.psm]))

/-- R61, R62, R71, R688: the READ and WRITE services. -/
def Obligations.ReadsAndWritesAreAnswered : Prop :=
  ∀ (s : State) (n ix el : Nat),
  (∀ v : Bytes, (s.session n = none ∨ ∃ x, s.session n = some x ∧ x.state ≠ 2) →
    Next (.read n ix el) s (fun t => t.out = s.out ++ [.item n (replyItem 0x01 rSeq 0xFFFF [])] ∧ Keeps s t [] [.out]) ∧
    Next (.write n ix el v) s (fun t => t.out = s.out ++ [wrote n rSeq 0xFFFF] ∧ Keeps s t [] [.out])) ∧
  (∀ x : Session, s.Opened n x →
    (∀ c els, c ≠ rOk → (s.touch n x).readCheck x.level ix el = (c, els) →
      Next (.read n ix el) s (fun t => t.out = s.out ++ [.item n (replyItem 0x01 c 0xFFFF [])] ∧ Keeps s t [] [.poa, .out])) ∧
    (∀ (r : ObjRow) (e0 : Nat) (rest : List Nat), objRow ix = some r → (s.touch n x).readCheck x.level ix el = (rOk, e0 :: rest) →
      let w := s.touch n x
      let reads := fun (b t : State) =>
        ((∀ e ∈ rest, b.readBytes ix e = b.readBytes ix e0) →
          t.out = b.out ++ [.item n (replyItem 0x01 rOk 0xFFFF (toBE 2 (b.readBytes ix e0).length ++ [0#8, 0#8] ++ b.readBytes ix e0))]) ∧
        ((∃ e ∈ rest, b.readBytes ix e ≠ b.readBytes ix e0) → t.out = b.out ++ [.item n (replyItem 0x01 rMixed 0xFFFF [])]) ∧ Keeps b t [] [.out, .freeCtr]
      (w.fwServed r = false → Next (.read n ix el) s (reads w)) ∧
      (w.fwServed r = true → (w.enqueue 88 0 3).1 = true → Next (.read n ix el) s (Posted s n x 0x01 ⟨s.ode.next, true, ix, el, e0 :: rest, 0⟩)) ∧
      (w.fwServed r = true → (w.enqueue 88 0 3).1 = false → Next (.read n ix el) s (fun t => t.out.getLast? = some (.item n (replyItem 0x01 rBusy 0xFFFF [])) ∧ t.waiters = [])) ∧
      (∀ (u : State) (k : Nat), u.Awaits ⟨.fw k, n, 0x01, false, 0, 0, none⟩ →
        reads { u with waiters := [] } (u.finish ⟨k, true, ix, el, e0 :: rest, 0⟩))) ∧
    (∀ (v : Bytes) (c : Nat) (els : List Nat), c ≠ rOk → (s.touch n x).writeCheck x.level ix el v = (c, els) →
      Next (.write n ix el v) s (fun t => t.out = s.out ++ [wrote n c (if isGroup el then els.headD 0xFFFF else 0xFFFF)] ∧ Keeps s t [] [.poa, .out])) ∧
    (∀ (r : ObjRow) (v : Bytes) (pre post : List Nat) (m c : Nat), objRow ix = some r → (s.touch n x).writeCheck x.level ix el v = (rOk, pre ++ m :: post) →
      let why := (s.touch n x).memberReason ⟨n, x.level, x.port⟩ r (pre ++ m :: post) (ofLE v)
      (∀ k ∈ pre, why k = rOk) → why m = c → c ≠ rOk →
      Next (.write n ix el v) s (fun t => t.out = s.out ++ [wrote n c (if isGroup el then m else 0xFFFF)] ∧ Keeps s t [] [.poa, .out])) ∧
    (∀ (r : ObjRow) (v : Bytes) (els : List Nat), Accepts s n x r ix el v els → unstored ix = false → isStaged ix = false →
      ix ∉ [Obj.devStore, Obj.devFactoryRestore, Obj.secSessionClose, Obj.clkStartAt, Obj.clkCancelStart, Obj.ptpCfg, Obj.ptpServoCfg, Obj.ptpNtSet, Obj.ptpNtAdj,
        Obj.cslAlign, Obj.cslLaneTest, Obj.botRollbackCommit, Obj.botKeyRevoke, Obj.splEnable, Obj.adcSyscal, Obj.adcOwTest, Obj.wdpStatsClear,
        Obj.fcrClear, Obj.fcrFirstClear, Obj.fcrInject, Obj.dmpClear, Obj.dmpSummaryClear, Obj.ndlChartDelete, Obj.ptfWaveDelete, Obj.strFlush,
        Obj.lvlHostCmd, Obj.rqpFlush, Obj.taeArm, Obj.taeForce, Obj.tmuCtrl, Obj.tmuXtalAgeing, Obj.calCtrl, Obj.plcMigrate, Obj.rasCommit,
        Obj.rasBufferRelease, Obj.wdpTraceCtrl, Obj.ptfPinCfg] → (r.ty = .command → ofLE v ≠ 0) →
      Effect (.write n ix el v) s n x r ix el v els (fun b t => (∀ m ∈ els, t.rd ix m = ofLE v) ∧ t.out = b.out ++ [wrote n rOk 0xFFFF] ∧
        Keeps b t (els.map (fun m => (ix, m))) [.out])))

/-- R706 to R709: bulk transfers. -/
def Obligations.TransfersCarryBytes : Prop :=
  ∀ (s : State) (n : Nat) (x : Session), s.Opened n x →
  let b := s.carried n x
  let answers := fun (svc : Nat) (bytes : Bytes) (t : State) => t.out.getLast? = some (.item n (replyItem svc rOk 0xFFFF bytes))
  let room := ((s.touch n x).post89).1 = true
  (∀ ix el total : Nat, (s.touch n x).domainCheck x.level false ix el = rOk → room → firstReason (b.xferCond n :: b.domainWriteCond ix el total) = rOk →
    Next (.domainBegin n ix el 0 total) s (fun t => t.xfer b.freeXfer = some ⟨n, ix, el, false, total, [], b.now, false, 0⟩ ∧
      (∀ k, k ≠ b.freeXfer → t.xfer k = b.xfer k) ∧ answers 0x03 (toBE 2 b.freeXfer ++ [0#8, 0#8] ++ toBE 8 total) t ∧
      Keeps b t [] [.bot, .chartLen, .images, .out, .poa, .obj Obj.ndlChartInfo, .obj Obj.ndlChartLabel, .obj Obj.ndlChartState,
        .obj Obj.ndlChartTsets, .obj Obj.ptfWaveInfo, .obj Obj.ptfWaveState, .obj Obj.rasBufferState])) ∧
  (∀ ix el total : Nat, (s.touch n x).domainCheck x.level true ix el = rOk → room → firstReason (b.xferCond n :: b.domainReadCond ix el) = rOk →
    Next (.domainBegin n ix el 1 total) s (fun t =>
      let d := b.domainBytes ix el
      t.xfer b.freeXfer = some ⟨n, ix, el, true, (if ix = Obj.taeData then ((b.taeRecord el).map TaeRecord.mark).getD 0 else d.length), d, b.now, false, 0⟩ ∧
      answers 0x03 (toBE 2 b.freeXfer ++ [0#8, 0#8] ++ toBE 8 d.length) t ∧ Keeps b t [] [.poa, .out, .csl, .freeCtr])) ∧
  (∀ (id dlen off : Nat) (d : Bytes), (s.xfer id = none ∨ ∃ y, s.xfer id = some y ∧ y.session ≠ n) →
    Next (.domainData n id dlen off d) s (fun t => t.out = s.out ++ [.item n (replyItem 0x04 rSeq 0xFFFF (dataHead dlen 0 off))] ∧ Keeps s t [] [.poa, .out]) ∧
    Next (.domainAbort n id) s (fun t => t.out = s.out ++ [.item n (replyItem 0x05 rSeq 0xFFFF [])] ∧ Keeps s t [] [.poa, .out])) ∧
  (∀ (id dlen off : Nat) (y : Xfer), s.xfer id = some y → y.session = n → room →
    (y.read = true → b.readEnded { y with last := s.now } = 0 →
      let d := slice y.data off (min dlen ((x.maxFrame - 44) / 4 * 4))
      Next (.domainData n id dlen off []) s (fun t => answers 0x04 (dataHead d.length 0 off ++ d) t ∧
        t.xfer id = some { y with last := s.now, ended := 0 } ∧ Keeps b t [] [.poa, .out])) ∧
    (∀ d : Bytes, d.length = dlen → y.read = false → y.validating = false →
      (off ≠ y.data.length ∨ y.total < off + dlen →
        Next (.domainData n id dlen off d) s (fun t => t.xfer id = some { y with last := s.now } ∧
          t.out = b.out ++ [.item n (replyItem 0x04 rSeq 0xFFFF (dataHead dlen 0 off))] ∧ Keeps b t [] [.poa, .out])) ∧
      (off = y.data.length → off + dlen < y.total →
        Next (.domainData n id dlen off d) s (fun t => t.xfer id = some { y with data := y.data ++ d, last := s.now } ∧
          answers 0x04 (dataHead dlen 0 off) t ∧ Keeps b t [] [.poa, .out])) ∧
      (off = y.data.length → off + dlen = y.total → validated y.ix = true →
        Next (.domainData n id dlen off d) s (fun t => t.xfer id = some { y with data := y.data ++ d, last := s.now, validating := true } ∧
          t.waiters = [⟨.xfer id, n, 0x04, false, dlen, off, none⟩] ∧ Keeps b t [] [.poa, .waiters])) ∧
      (off = y.data.length → off + dlen = y.total → y.ix ∉ [Obj.ndlChartImage, Obj.ptfWaveTable, Obj.botFwImage, Obj.botPatchImage, Obj.cslMsgSend,
          Obj.calFixture, Obj.rasBuffer] →
        Next (.domainData n id dlen off d) s (fun t => t.xfer id = none ∧ t.img y.ix y.el = y.data ++ d ∧
          answers 0x04 (dataHead dlen 0 off) t ∧ Keeps b t [] [.poa, .out, .images])))) ∧
  (∀ (id : Nat) (y : Xfer), s.xfer id = some y → y.session = n →
    Next (.domainAbort n id) s (fun t => t.xfer id = none ∧ (∀ k, k ≠ id → t.xfer k = s.xfer k) ∧ answers 0x05 [] t ∧ Keeps s t [] [.bot, .chartLen, .images, .out, .poa, .results, .obj Obj.ndlChartCounts, .obj Obj.ndlChartError, .obj Obj.ndlChartInfo,
        .obj Obj.ndlChartLabel, .obj Obj.ndlChartState, .obj Obj.ndlChartTsets, .obj Obj.ptfWaveError, .obj Obj.ptfWaveInfo,
        .obj Obj.ptfWaveState, .obj Obj.rasBufferState])) ∧
  (∀ (id : Nat) (y : Xfer), s.xfer id = some y → y.validating = false →
    Next (.transferTimeout id) s (fun t => t.now = max s.now (y.last + secFs) ∧ t.xfer id = none ∧ (∀ k, k ≠ id → t.xfer k = s.xfer k) ∧
      Keeps s t [] [.bot, .chartLen, .images, .now, .poa, .results, .obj Obj.ndlChartCounts, .obj Obj.ndlChartError, .obj Obj.ndlChartInfo,
        .obj Obj.ndlChartLabel, .obj Obj.ndlChartState, .obj Obj.ndlChartTsets, .obj Obj.ptfWaveError, .obj Obj.ptfWaveInfo,
        .obj Obj.ptfWaveState, .obj Obj.rasBufferState])) ∧
  (∀ id : Nat, s.xfer id = none → Next (.transferTimeout id) s (fun t => t = s))

/-- R263 to R271, R283, R710 to R712: skeins. -/
def Obligations.SkeinsAreStreamed : Prop :=
  (∀ (s : State) (n : Nat) (x : Session) (m skein off : Nat) (d : Bytes), s.Opened n x → 1 ≤ x.level → m < 16 → ((s.touch n x).post89).1 = true →
    let b := s.carried n x
    let reply := fun (r c : Nat) (t : State) => t.out.getLast? = some (.item n (replyItem 0x06 r 0xFFFF (t.streamReply m c)))
    let gives := fun (p : State → Prop) => Next (.streamData n m skein off d) s (fun t => p t ∧ Keeps b t [] (withFaults [.adc, .hms, .ndls, .now, .results, .waiters, .obj Obj.adcCounts, .obj Obj.adcValue, .obj Obj.hmsLoad,
        .obj Obj.splCounts, .obj Obj.splMeas, .obj Obj.splState, .obj Obj.strCounts, .obj Obj.strSkeinError]))
    let kept := fun t : State => Keeps b t [] [.ndls, .out, .waiters, .obj Obj.strSkeinError, .obj Obj.strCounts]
    let taken := fun (k : SkeinIn) (t : State) => (t.ndl m).skeinIn = some k ∧
      (k.due = none → reply rOk 0 t) ∧ (k.due ≠ none → t.waiters = [⟨.skein m, n, 0x06, false, 0, 0, none⟩])
    let dueOf := fun (courses len : Nat) => if courses * 64 ≤ len then some (b.edgeAt fclkFs b.now + 64 * fclkFs) else none
    let refused := fun (r c : Nat) (t : State) => (t.ndl m).skeinIn = (s.ndl m).skeinIn ∧ reply r c t ∧ kept t ∧
      t.rd Obj.strSkeinError m = r + c * 2 ^ 16 + (if c = 0 then skein else kSeq d) % 2 ^ 32 * 2 ^ 32 ∧
      t.fld Obj.strCounts m ⟨48, 48⟩ = counted 48 (s.fld Obj.strCounts m ⟨48, 48⟩) 1
    let placed := s.mode = .armed ∨ s.mode = .run ∨ s.mode = .hold
    let next := s.rd Obj.strNextSeq m
    let idle := ∀ k, (s.ndl m).skeinIn = some k → k.dead = true ∧ k.seq ≠ skein
    (idle → off = 0 →
      (d.length < 64 → gives (refused rFormat 0)) ∧
      (64 ≤ d.length → b.strState m = 0 ∨ ¬ placed → gives (refused rMode 1)) ∧
      (64 ≤ d.length → b.strState m ≠ 0 → placed → kSeq d ≠ next ∨ skein ≠ next → gives (refused rSeq 2)) ∧
      (64 ≤ d.length → b.strState m ≠ 0 → placed → kSeq d = next → skein = next →
        (kCourses d < 2 ∨ 16384 < kCourses d → gives (refused rFormat 3)) ∧
        (2 ≤ kCourses d → kCourses d ≤ 16384 → b.ringFree m < kCourses d → gives (refused rBusy 3)) ∧
        (2 ≤ kCourses d → kCourses d ≤ 16384 → kCourses d ≤ b.ringFree m →
          gives (taken ⟨n, skein, kCourses d, d, b.now, dueOf (kCourses d) d.length, false⟩)))) ∧
    (idle → off ≠ 0 → gives (fun t => (t.ndl m).skeinIn = (s.ndl m).skeinIn ∧ reply rSeq 0 t ∧ kept t)) ∧
    (∀ k : SkeinIn, (s.ndl m).skeinIn = some k →
      (k.dead = true → k.seq = skein → gives (fun t => (t.ndl m).skeinIn = none ∧ reply rSeq 0 t ∧ kept t)) ∧
      (k.dead = false → off = 0 ∨ k.session ≠ n → gives (fun t => (t.ndl m).skeinIn = some k ∧ reply rBusy 0 t ∧ kept t)) ∧
      (k.dead = false → off ≠ 0 → k.session = n → skein ≠ k.seq ∨ off ≠ k.data.length ∨ k.due ≠ none →
        gives (fun t => (t.ndl m).skeinIn = none ∧ reply rSeq 0 t ∧ kept t ∧ t.fld Obj.strCounts m ⟨48, 48⟩ = counted 48 (s.fld Obj.strCounts m ⟨48, 48⟩) 1)) ∧
      (k.dead = false → off ≠ 0 → k.session = n → skein = k.seq → off = k.data.length → k.due = none →
        gives (taken { k with data := k.data ++ d, last := b.now, due := dueOf k.courses (k.data ++ d).length })))) ∧
  (∀ (s : State) (m : Nat) (k : SkeinIn), s.Quiet → (s.ndl m).skeinIn = some k → k.due = none → k.dead = false →
    Next (.skeinTimeout m) s (fun t => t.now = max s.now (k.last + 10 * msFs) ∧ (t.ndl m).skeinIn = some { k with dead := true } ∧ (t.ndl m).ring = (s.ndl m).ring ∧
      t.fld Obj.strCounts m ⟨48, 48⟩ = counted 48 (s.fld Obj.strCounts m ⟨48, 48⟩) 1 ∧ Keeps s t [(Obj.strCounts, m)] [.now, .ndls])) ∧
  (∀ (s : State) (m : Nat), s.Quiet → (s.ndl m).skeinIn = none → Next (.skeinTimeout m) s (fun t => t = s) ∧ Next (.skeinValidated m) s (fun t => t = s)) ∧
  (∀ (s : State) (m d : Nat) (k : SkeinIn) (w : Waiter), (s.ndl m).skeinIn = some k → k.due = some d → s.Awaits w → w.token = .skein m →
    ((s.reach d).skeinChecks m k = none → Next (.skeinValidated m) s (fun t => t.now = max s.now d ∧ (t.ndl m).skeinIn = none ∧
      (t.ndl m).ring = (s.ndl m).ring ++ [⟨k.seq, k.data, d⟩] ∧ t.rd Obj.strNextSeq m = (k.seq + 1) % 2 ^ 32 ∧
      t.fld Obj.strCounts m ⟨0, 48⟩ = counted 48 (s.fld Obj.strCounts m ⟨0, 48⟩) 1 ∧ t.waiters = [] ∧
      t.out = s.out ++ [.item w.session (w.reply rOk (t.streamReply m 0))] ∧ Keeps s t [(Obj.strNextSeq, m), (Obj.strCounts, m)] [.now, .ndls, .out, .waiters])) ∧
    (∀ c r e : Nat, (s.reach d).skeinChecks m k = some (c, r, e) → Next (.skeinValidated m) s (fun t => t.now = max s.now d ∧ (t.ndl m).skeinIn = none ∧
      (t.ndl m).ring = (s.ndl m).ring ∧ t.rd Obj.strSkeinError m = r + c * 2 ^ 16 + k.seq % 2 ^ 32 * 2 ^ 32 + e % 2 ^ 32 * 2 ^ 64 ∧ t.waiters = [] ∧
      t.out = s.out ++ [.item w.session (w.reply r (t.streamReply m c))] ∧ Keeps s t [(Obj.strSkeinError, m), (Obj.strCounts, m)] [.now, .ndls, .out, .waiters]))) ∧
  (∀ (s : State) (n el : Nat) (x : Session) (r : ObjRow) (els : List Nat), Takes (.strFlush n el) s n x r Obj.strFlush el 1 els (fun b t => (∀ m ∈ els, (t.ndl m).ring = [] ∧ (t.ndl m).returned = 0 ∧ (t.ndl m).skeinIn = none ∧ t.rd Obj.strNextSeq m = 0) ∧
      t.out = b.out ++ [wrote n rOk 0xFFFF] ∧
      Keeps b t (els.map (fun m => (Obj.strFlush, m)) ++ els.map (fun m => (Obj.strNextSeq, m)) ++ els.map (fun m => (Obj.strCounts, m))) [.ndls, .out]))

/-- R713, R716: subscriptions. -/
def Obligations.SubscriptionsAreHeld : Prop :=
  ∀ (s : State) (n : Nat) (x : Session), s.Opened n x →
  let item := fun (svc r : Nat) (bytes : Bytes) => OutMsg.item n (replyItem svc r 0xFFFF bytes)
  let all := s.poa.subs.filterMap (fun (p : Nat × Option Sub) => p.2)
  let full := 256 ≤ all.length ∨ 64 ≤ (all.filter (fun y => y.session == n)).length
  (∀ k ix el iv win : Nat,
    let why := (s.touch n x).subReason ⟨n, x.level, x.port⟩ x.maxFrame k ix el iv win
    let b := s.carried n x
    (why ≠ rOk → Next (.subscribe n k ix el iv win) s (fun t => t.out = s.out ++ [item 0x07 why []] ∧ Keeps s t [] [.poa, .out] ∧ t.poa.subs = s.poa.subs)) ∧
    (why = rOk → full → Next (.subscribe n k ix el iv win) s (fun t => t.out = s.out ++ [item 0x07 rBusy []] ∧ Keeps s t [] [.poa, .out] ∧ t.poa.subs = s.poa.subs)) ∧
    (why = rOk → ¬ full → ((s.touch n x).post89).1 = true → Next (.subscribe n k ix el iv win) s (fun t =>
      t.sub b.freeSub = some { session := n, kind := k, ix := ix, el := el, interval := iv, window := win, next := b.periodEdge iv b.now } ∧
      (∀ j, j ≠ b.freeSub → t.sub j = b.sub j) ∧ t.out = b.out ++ [item 0x07 rOk (toBE 2 b.freeSub ++ [0#8, 0#8])] ∧ Keeps b t [] [.poa, .out]))) ∧
  (∀ k dseq : Nat, (s.sub k = none ∨ ∃ y, s.sub k = some y ∧ y.session ≠ n) →
    Next (.unsubscribe n k) s (fun t => t.out = s.out ++ [item 0x08 rSeq []] ∧ t.poa.subs = s.poa.subs ∧ Keeps s t [] [.poa, .out]) ∧
    Next (.ack n k dseq) s (fun t => t.out = s.out ++ [item 0x09 rSeq []] ∧ t.poa.subs = s.poa.subs ∧ Keeps s t [] [.poa, .out])) ∧
  (∀ (k dseq : Nat) (y : Sub), s.sub k = some y → y.session = n →
    Next (.unsubscribe n k) s (fun t => t.sub k = none ∧ (∀ j, j ≠ k → t.sub j = s.sub j) ∧ t.out = s.out ++ [item 0x08 rOk []] ∧ Keeps s t [] [.poa, .out]) ∧
    (y.kind = 3 →
      let left := y.unacked.filter (fun q => decide (2 ^ 31 ≤ (dseq + 2 ^ 32 - q.1) % 2 ^ 32))
      (y.waiting = [] → Next (.ack n k dseq) s (fun t => t.sub k = some { y with unacked := left } ∧ (∀ j, j ≠ k → t.sub j = s.sub j) ∧
        t.out = s.out ++ [item 0x09 rOk []] ∧ Keeps s t [] [.poa, .out])) ∧
      Next (.ack n k dseq) s (fun t => t.out.getLast? = some (item 0x09 rOk []) ∧ Keeps s t [] [.hlk, .out, .poa, .obj Obj.hlkCounts, .obj Obj.ptfDlogStatus, .obj Obj.secPoaCounts])))

/-- R713 to R718: reports. -/
def Obligations.ReportsAreSent : Prop :=
  ∀ (s : State) (k : Nat) (y : Sub) (z : Session), s.sub k = some y → s.session y.session = some z →
  s.fld Obj.hlkLinkStatus (subEl z.port z.sub) F.hlkLinkStatusState = 3 → s.routed z.port z.sub z.addr = true →
  Tbl.get (fun _ => none) s.hlk.paused (subEl z.port z.sub * 8 + s.txPcp z.port true) = none → s.reportsWaiting y.session < 256 →
  let frame := fun (i : Nat) (item : Bytes) => OutMsg.frame i z.port z.sub z.addr z.udp (s.txTag z.port z.sub (s.txPcp z.port true)) (tagFrame z.key (mkFrame 3 0 y.session z.rseq [item]))
  let sent := fun (item : Bytes) (t : State) => t.out = s.out ++ [frame t.now item] ∧ t.session y.session = some { z with rseq := (z.rseq + 1) % 2 ^ 32 }
  let frame1 := fun (els : List (Nat × Nat)) (t : State) => Keeps s t els [.now, .freeCtr, .out, .poa, .hlk, .obj Obj.hlkCounts, .obj Obj.secPoaCounts]
  let frame0 := frame1 []
  (∀ (els : List Nat) (v : Bytes), y.kind ≤ 1 →
    let u := s.reach (s.edgeAt fclkFs y.next)
    let y' := { y with next := u.periodEdge y.interval (max (y.next + 1) u.now) }
    let w := u.setSub k (some y')
    w.readCheck z.level y.ix y.el = (rOk, els) → w.sample y.ix els = some v → 24 + (valueItem k w.stamp v).length ≤ z.maxFrame →
    (y.kind = 0 ∨ y.lastVal ≠ some v → Next (.cyclicReport k) s (fun t => t.now = u.now ∧ sent (valueItem k w.stamp v) t ∧
      t.sub k = some { y' with lastVal := some v } ∧ frame0 t)) ∧
    (y.kind = 1 → y.lastVal = some v → Next (.cyclicReport k) s (fun t => t.now = u.now ∧ t.out = s.out ∧ t.sub k = some y' ∧ frame0 t))) ∧
  (∀ q : Nat, y.kind = 2 → (Tbl.get (fun _ => {}) y.evs q).count ≠ 0 →
    let h := Tbl.get (fun _ => {}) y.evs q
    Next (.eventReport k q) s (fun t => t.now = (match h.last with | some l => max s.now (l + y.interval) | none => s.now) ∧ sent (eventItem k q h) t ∧
      t.sub k = some { y with evs := Tbl.put (fun _ => {}) y.evs q { last := some t.now } } ∧ frame0 t)) ∧
  (∀ rec : Bytes, y.waiting = [rec] → s.dlogRoom y rec = true →
    Next (.datalogReport k) s (fun t => sent (dlogItem k y.dseq rec) t ∧ (∃ y', t.sub k = some y' ∧ y'.waiting = [] ∧ y'.dseq = (y.dseq + 1) % 2 ^ 32 ∧
      y'.unacked = y.unacked ++ [(y.dseq, s.reportFrame y.session (dlogItem k y.dseq rec), s.now)]) ∧ frame1 [(Obj.ptfDlogStatus, 0)] t)) ∧
  (y.waiting = [] → Next (.datalogReport k) s (fun t => t = s)) ∧
  (∀ q : Nat × Bytes × Nat, oldestSent y.unacked = some q →
    Next (.datalogRetransmit k) s (fun t => t.now = max s.now (q.2.2 + 2 * msFs) ∧ t.out = s.out ++ [.frame t.now z.port z.sub z.addr z.udp (s.txTag z.port z.sub (s.txPcp z.port true)) q.2.1] ∧
      t.session y.session = some z ∧ t.sub k = some { y with unacked := y.unacked.map (fun p => if p = q then (p.1, p.2.1, t.now) else p) } ∧ frame0 t)) ∧
  (y.unacked = [] → Next (.datalogRetransmit k) s (fun t => t = s))

/-- R691 to R698: sessions. -/
def Obligations.SessionsOpenAndClose : Prop :=
  ∀ s : State,
  let closed := fun (s : State) (n : Nat) (t : State) => t.session n = none ∧ (∀ k y, t.sub k = some y → y.session ≠ n) ∧
    (∀ k y, s.xfer k = some y → y.session = n → t.xfer k = none) ∧ ∀ k, k ≠ n → (t.session k).map (·.level) = (s.session k).map (·.level)
  (∀ (port sub addr udp level mf timeout : Nat) (nonce : Bytes),
    let why := s.openReason port addr level mf timeout
    let go := Instr.openCmd port sub addr udp level mf timeout nonce
    (s.linkUp port sub = false → Next go s (fun t => t = s)) ∧
    (s.linkUp port sub = true → why ≠ rOk → Next go s (fun t => t.out = s.out ++ [.item 0 (replyItem 0x10 why 0xFFFF [])] ∧ Keeps s t [] [.out])) ∧
    (∀ n : Nat, s.linkUp port sub = true → why = rOk → s.freeSession = some n → Next go s (fun t =>
      ∃ z : Session, t.session n = some z ∧ z.state = (if level = 0 then 2 else 1) ∧ z.level = level ∧ z.port = port ∧ z.sub = sub ∧ z.addr = addr ∧ z.udp = udp ∧
        z.maxFrame = mf ∧ z.timeout = timeout ∧ z.hostNonce = nonce ∧ z.next = 1 ∧ z.rseq = 0 ∧ z.lastRx = s.now ∧ z.engNonce.length = 16 ∧
        (level = 0 → z.engNonce = List.replicate 16 0#8 ∧ z.key = []) ∧ t.out = s.out ++ [.item n (replyItem 0x10 rOk 0xFFFF (toBE 2 n ++ [0#8, 0#8] ++ z.engNonce))] ∧
        (∀ k, k ≠ n → t.session k = s.session k) ∧ Keeps s t [] [.poa, .freeCtr, .out]))) ∧
  (∀ (n : Nat) (proof : Bytes), (s.session n = none ∨ ∃ x, s.session n = some x ∧ x.state ≠ 1) →
    Next (.auth n proof) s (fun t => t.out = s.out ++ [.item n (replyItem 0x11 rSeq 0xFFFF [])] ∧ Keeps s t [] [.out])) ∧
  (∀ (n : Nat) (x : Session) (proof : Bytes), s.Quiet → s.session n = some x → x.state = 1 →
    (proof = shakeMac x.key 0x48 x n → Next (.auth n proof) s (fun t =>
      t.session n = some { x with state := 2, key := shakeMac x.key 0x4B x n, lastRx := s.now } ∧ t.failsOf x.addr = (0, 0) ∧
      t.out = s.out ++ [.item n (replyItem 0x11 rOk 0xFFFF (shakeMac x.key 0x45 x n))] ∧ (∀ k, k ≠ n → t.session k = s.session k) ∧ Keeps s t [] [.poa, .out])) ∧
    (proof ≠ shakeMac x.key 0x48 x n → Next (.auth n proof) s (fun t => closed s n t ∧ t.srcPending Ev.poaAuthFail = true ∧
      t.out.getLast? = some (.item n (replyItem 0x11 rAuth 0xFFFF [])) ∧
      t.failsOf x.addr = (if 2 ≤ (s.failsOf x.addr).1 then (0, s.now + secFs) else ((s.failsOf x.addr).1 + 1, (s.failsOf x.addr).2)))) ∧
    Next (.authTimeout n) s (fun t => t.now = max s.now (x.lastRx + 100 * msFs) ∧ closed s n t)) ∧
  (∀ n : Nat, s.session n = none → Next (.authTimeout n) s (fun t => t = s) ∧ Next (.poaSessionExpired n) s (fun t => t = s)) ∧
  (∀ (n : Nat) (x : Session), s.Opened n x →
    Next (.heartbeat n) s (fun t => t.session n = some { x with lastRx := s.now } ∧ t.out = s.out ++ [.item n (replyItem 0x0A rOk 0xFFFF s.heartbeat)] ∧
      Keeps s t [] [.poa, .out]) ∧
    Next (.close n) s (fun t => closed s n t ∧ t.out.getLast? = some (.item n (replyItem 0x12 rOk 0xFFFF []))) ∧
    Next (.poaSessionExpired n) s (fun t => t.now = max s.now (x.lastRx + x.timeout * msFs) ∧ closed s n t ∧ t.srcPending Ev.poaSessionExpired = true) ∧
    (∀ (k : Nat) (r : ObjRow), Takes (.sessionClose n k) s n x r Obj.secSessionClose 0 k [0] (fun b t => b.session k ≠ none → closed b k t ∧ (k ≠ n → t.out.getLast? = some (wrote n rOk 0xFFFF)))))

/-- R685 to R702, R719: frames. -/
def Obligations.FramesAreSequenced : Prop :=
  ∀ (s : State) (port sub addr udp pcp : Nat) (f : Bytes), s.Quiet →
  let cls := s.rxClass port pcp
  let s0 := s.rxTake port cls
  let high := cls == 0 && !frBulk f
  let got := fun (p : State → Prop) => Next (.poaFrame port sub addr udp pcp f) s p
  let counted1 := fun (k : Fld) (t : State) => t.fld Obj.secPoaCounts 0 k = counted 48 (s0.fld Obj.secPoaCounts 0 k) 1
  (s.linkUp port sub = false → got (fun t => t = s)) ∧
  (s.linkUp port sub = true →
    (frameItems f = none → got (fun t => counted1 F.secPoaCountsBadFrames t ∧ Keeps s0 t [(Obj.secPoaCounts, 0)] [])) ∧
    (∀ (items : List Bytes) (x : Session), frameItems f = some items → (∀ it ∈ items, itemSvc it ≠ 0x10 ∧ itemSvc it ≠ 0x11) →
      s0.session (frSession f) = some x → x.state = 2 →
      (x.port ≠ port ∨ x.addr ≠ addr ∨ x.udp ≠ udp → got (fun t => counted1 F.secPoaCountsBadFrames t ∧ Keeps s0 t [(Obj.secPoaCounts, 0)] [])) ∧
      (x.port = port → x.addr = addr → x.udp = udp →
        (x.level ≠ 0 → frTag f ≠ tagOf x.key f → got (fun t => counted1 F.secPoaCountsBadTags t ∧ Keeps s0 t [(Obj.secPoaCounts, 0)] [])) ∧
        (x.level = 0 ∨ frTag f = tagOf x.key f →
          let n := frSession f
          let d := (frSeq f + 2 ^ 32 - x.next) % 2 ^ 32
          let y := { x with lastRx := s.now, sub := sub }
          let s1 := (s0.poaCount 0).setSession n (some y)
          (∀ (it : Bytes) (r m : Nat) (b : Bytes) (s2 : State), items = [it] → d = 0 → x.held = [] →
            ((s1.setSession n (some { y with next := (x.next + 1) % 2 ^ 32 })).runItem ⟨n, x.level, x.port⟩ x.maxFrame (frBulk f) (x.maxFrame - 24) it)
              = (.done r m b, s2) →
            got (fun t => t.out = (s2.sendReply n y (frSeq f) high true s.now [replyItem (itemSvc it) r m b]).out ∧ t.jobs = [] ∧
              ∀ o e, o < 65536 → t.rd o e = (s2.sendReply n y (frSeq f) high true s.now [replyItem (itemSvc it) r m b]).rd o e)) ∧
          (0 < d → d < 16 → (∀ h ∈ x.held, h.1 ≠ frSeq f) →
            got (fun t => t.session n = some { y with held := x.held ++ [(frSeq f, f, s.now, high)] } ∧ t.out = s0.out ∧ Keeps s0 t [(Obj.secPoaCounts, 0)] [.poa])) ∧
          (∀ reply : Bytes, 2 ^ 32 - 16 ≤ d → x.replies.find? (fun q => q.1 == frSeq f) = some (frSeq f, reply) →
            got (fun t => counted1 F.secPoaCountsDuplicates t ∧ t.session n = some y ∧
              t.out = (s1.transmit (s.now + 180 * fclkFs) x.port sub x.addr x.udp high 0 reply).out ∧ Keeps s0 t [] [.poa, .out, .hlk, .obj Obj.secPoaCounts, .obj Obj.hlkCounts])))))) ∧
  (∀ (n : Nat) (x : Session), s.session n = some x →
    (∀ h rest, x.held = h :: rest → Next (.holdTimeout n) s (fun t => t.now = max s.now (h.2.2.1 + 50 * usFs) ∧ t.session n = some { x with held := [] } ∧
      Keeps s t [] [.now, .freeCtr, .poa, .out, .hlk, .obj Obj.secPoaCounts, .obj Obj.hlkCounts])) ∧
    (x.held = [] → Next (.holdTimeout n) s (fun t => t = s))) ∧
  (∀ (group : Nat) (it : Bytes), s.linkUp port sub = true → group ∈ s.groups6 port → frameItems f = some [it] → frSession f = 0xFFFF → frBulk f = false →
    itemSvc it = 0x02 → 12 ≤ it.length → lenIs it (8 + beAt it 8 2) = true →
    let s0 := s.rxTake port (if (s.rxFill port 0).isEmpty then 1 else 0)
    let ix := beAt it 4 2
    let el := beAt it 6 2
    let refused := fun (r : Nat) (u t : State) => t.fld Obj.odeMcastStatus 0 F.odeMcastStatusRefused = counted 48 (u.fld Obj.odeMcastStatus 0 F.odeMcastStatusRefused) 1 ∧
      t.fld Obj.odeMcastStatus 0 F.odeMcastStatusLastReason = r ∧ t.fld Obj.odeMcastStatus 0 F.odeMcastStatusLastIndex = ix ∧
      t.fld Obj.odeMcastStatus 0 F.odeMcastStatusLastElement = el
    (s0.mcastDeny f ≠ 0 → Next (.multicastFrame port sub group f) s (fun t => refused (s0.mcastDeny f) s0 t ∧ Keeps s0 t [(Obj.odeMcastStatus, 0)] [])) ∧
    (s0.mcastDeny f = 0 → ∀ (r m : Nat) (b : Bytes) (u : State),
      ((s0.poaCount 0).wr Obj.secMcastSeq 0 (frSeq f)).writeItem ⟨0xFFFF, s0.fld Obj.secMcastCfg 0 ⟨0, 2⟩, port⟩ ix el (slice it 12 (beAt it 8 2)) = (.done r m b, u) →
      Next (.multicastFrame port sub group f) s (fun t =>
        (r = rOk → t.fld Obj.odeMcastStatus 0 F.odeMcastStatusAccepted = counted 48 (u.fld Obj.odeMcastStatus 0 F.odeMcastStatusAccepted) 1) ∧
        (r ≠ rOk → r < 2 ^ 16 → refused r u t) ∧ t.out = u.out ∧ ∀ o e, o < 65536 → o ≠ Obj.odeMcastStatus → t.rd o e = u.rd o e)) ∧
    (s0.mcastDeny f = 0 → ∀ (k : Token) (i j : Nat) (u : State),
      ((s0.poaCount 0).wr Obj.secMcastSeq 0 (frSeq f)).writeItem ⟨0xFFFF, s0.fld Obj.secMcastCfg 0 ⟨0, 2⟩, port⟩ ix el (slice it 12 (beAt it 8 2)) = (.wait k i j, u) →
      Next (.multicastFrame port sub group f) s (fun t => t.waiters = [⟨k, 0xFFFF, 0x02, false, i, j, some (ix, el)⟩] ∧
        t.rd Obj.odeMcastStatus 0 = u.rd Obj.odeMcastStatus 0 ∧ Keeps u t [] [.waiters])) ∧
    (∀ (u v : State) (k r : Nat) (row : ObjRow) (j : FwJob) (b : Bytes), u.waiters = [⟨.fw k, 0xFFFF, 0x02, false, 0, 0, some (ix, el)⟩] →
      u.jobs = [] → u.results = [] → u.ode.done = [] → j.id = k → j.read = false → objRow j.ix = some row → u.commitCommand row j.ix j.el j.value j.els = (.done r 0xFFFF b, v) →
      v.waiters = u.waiters → v.results = [] →
      (u.finish j).waiters = [] ∧ (u.finish j).out = v.out ∧
        (r = rOk → (u.finish j).fld Obj.odeMcastStatus 0 F.odeMcastStatusAccepted = counted 48 (v.fld Obj.odeMcastStatus 0 F.odeMcastStatusAccepted) 1) ∧
        (r ≠ rOk → r < 2 ^ 16 → refused r v (u.finish j)))) ∧
  (∀ group : Nat, s.linkUp port sub = false → Next (.multicastFrame port sub group f) s (fun t => t = s))

/-- R759, R756, R758, R750: work items. -/
def Obligations.WorkItems : Prop :=
  ∀ s : State,
  (∀ flow prio producer : Nat,
    let i : Item := ⟨flow, s.flowPrio flow prio, producer, s.now⟩
    (s.ready.length < 64512 ∨ (s.ready.length < 65536 ∧ 6 ≤ i.prio) →
      Next (.enqueue flow prio producer) s (fun t =>
        t.ready = s.ready ++ [i] ∧
        t.fld Obj.wdpCounts 0 ⟨0, 48⟩ = counted 48 (s.fld Obj.wdpCounts 0 ⟨0, 48⟩) 1 ∧
        Keeps s t [] (withSignals [.ready, .obj Obj.wdpCounts, .wdpFullAt, .wdpTrace, .wdpLost, .obj Obj.wdpTraceStatus]))) ∧
    (65536 ≤ s.ready.length ∨ (64512 ≤ s.ready.length ∧ i.prio < 6) →
      Next (.enqueue flow prio producer) s (fun t =>
        t.ready = s.ready ∧
        t.fld Obj.wdpCounts 0 ⟨96, 48⟩ = counted 48 (s.fld Obj.wdpCounts 0 ⟨96, 48⟩) 1 ∧
        Keeps s t [] (withSignals [.ready, .obj Obj.wdpCounts, .wdpFullAt, .wdpTrace, .wdpLost, .obj Obj.wdpTraceStatus])))) ∧
  (∀ (i : Item) (c : Nat),
    let u := s.reach s.dispatchEdge
    u.choice u.now = some (i, c) → (u.dispatchTo i c).choice (u.dispatchTo i c).now = none →
    Next .dispatch s (fun t =>
      t.ready = s.ready.erase i ∧ (t.core c).item = some (i, u.now) ∧ t.coreState c = 3 ∧ t.now = u.now ∧
      Keeps s t [] (withSignals [.now, .ready, .obj Obj.wdpQueue, .obj Obj.wdpCounts, .wdpTrace, .wdpLost, .obj Obj.wdpTraceStatus]))) ∧
  (∀ (c t0 : Nat) (i : Item),
    (s.core c).item = some (i, t0) → s.coreState c ≠ 5 → s.Quiet → (i.flow = 88 → s.ode.jobs = []) → (∀ g < 32, s.groupTimer g = none) → (bit (s.rd Obj.wdpTraceCtrl 0) 0 = true → s.hbmWritable = true) →
    Next (.complete c) s (fun t =>
      (t.core c).item = none ∧ t.coreState c = (if (s.core c).handlers = [] then 2 else 4) ∧
      (i.flow ≠ parallelFlow → Tbl.get (fun _ => 0) t.flowFree i.flow = s.edgeAt fclkFs s.now + fclkFs) ∧
      t.fld Obj.wdpStats c F.wdpStatsItems = counted 48 (s.fld Obj.wdpStats c F.wdpStatsItems) 1 ∧
      Keeps s t [] (withSignals [.obj Obj.wdpStats, .flowFree, .wdpTrace, .wdpLost, .obj Obj.wdpTraceStatus])) ∧
    Next (.yieldCmd c) s (fun t =>
      (t.core c).item = none ∧ t.coreState c = (if (s.core c).handlers = [] then 2 else 4) ∧
      t.ready = reinsert { i with enq := s.now } s.ready ∧
      t.fld Obj.wdpCounts 0 ⟨0, 48⟩ = counted 48 (s.fld Obj.wdpCounts 0 ⟨0, 48⟩) 1 ∧
      Keeps s t [] (withSignals [.ready, .obj Obj.wdpCounts, .obj Obj.wdpStats, .wdpTrace, .wdpLost, .obj Obj.wdpTraceStatus])))

/-- R751, R752, R761: cores that stop, and the dispatcher's time anchor. -/
def Obligations.CoresThatStop : Prop :=
  ∀ (s : State) (c : Nat),
  (∀ (i : Item) (t0 : Nat), (s.core c).item = some (i, t0) →
    Next (.cccHang c) s (fun t => t.now = max s.now (t0 + msFs) ∧ t.coreState c = 5 ∧ Raised t Ev.cccHang ∧
      Keeps s t [] (withFaults [.now]))) ∧
  (s.fcr.injLeft = 0 →
    Next (.cccEccU c) s (fun t => t.coreState c = 5 ∧ Raised t Ev.cccEccU ∧ Keeps s t [] (withFaults [.obj Obj.cccCounts]))) ∧
  ((s.checked Ev.cccEccU (0x10 + c)).1 = 1 →
    Next (.cccEccU c) s (fun t =>
      t.fld Obj.cccCounts c F.cccCountsEccCorrected = counted 48 (s.fld Obj.cccCounts c F.cccCountsEccCorrected) 1 ∧
      Raised t Ev.cccEccC ∧ Keeps s t [] (withFaults [.obj Obj.cccCounts]))) ∧
  (s.epochGrid ≤ s.now →
    let a := s.epochGrid + ((s.now - s.epochGrid) / (2 ^ 32 * fclkFs) + 1) * (2 ^ 32 * fclkFs)
    Next .dispatcherTimeAnchor s (fun t => t.now = a ∧
      (bit (s.rd Obj.wdpTraceCtrl 0) 0 = true → s.hbmWritable = true → 0 < s.fld Obj.wdpTraceCtrl 0 F.wdpTraceCtrlSize →
        t.wdpTrace.getLast? = some (15 * 2 ^ 20 + (((s.reach a).fclkCount / 2 ^ 32) % 2 ^ 32) * 2 ^ 32)) ∧
      (bit (s.rd Obj.wdpTraceCtrl 0) 0 = false → t.wdpTrace = s.wdpTrace) ∧
      Keeps s t [] (withSignals [.now, .wdpTrace, .wdpLost, .obj Obj.wdpTraceStatus])))

/-- R766, R768, R771: a source's latch, a group's hold-off, a claim. -/
def Obligations.SourcesLatchAndAreClaimed : Prop :=
  ∀ s : State,
  (∀ n : Nat, srcEnabled n = true → (s.src n).high = false →
    Next (.sourceLatch n true) s (fun t =>
      t.srcPending n = true ∧ (t.src n).high = true ∧ (t.src n).count = counted 32 (s.src n).count 1 ∧
      (t.src n).last = s.stampAt (s.edgeAt fclkFs s.now) ∧ (t.src n).first = (if (s.src n).count = 0 then s.stampAt (s.edgeAt fclkFs s.now) else (s.src n).first) ∧
      (∀ k, k ≠ n → t.srcPending k = s.srcPending k) ∧ Keeps s t [] signalParts)) ∧
  (∀ (n : Nat) (high : Bool), (high = false ∨ (s.src n).high = true ∨ srcEnabled n = false) →
    Next (.sourceLatch n high) s (fun t => (t.src n).high = high ∧ (t.src n).count = (s.src n).count ∧ Keeps s t [] [.srcs])) ∧
  (∀ (c n : Nat) (sp : Bool),
    Next (.claim c n sp) s (fun t =>
      (t.core c).claimed = some (n, (s.src n).count, (s.src n).first, (s.src n).last) ∧
      (t.src n).count = 0 ∧ (t.src n).first = 0 ∧ (t.src n).last = 0 ∧ t.srcPending n = false ∧ (∀ k, k ≠ n → t.srcPending k = s.srcPending k) ∧
      (sp = true → t.fld Obj.iecSpurious 0 ⟨0, 48⟩ = counted 48 (s.fld Obj.iecSpurious 0 ⟨0, 48⟩) 1) ∧
      Keeps s t [(Obj.iecPending, 0), (Obj.iecSpurious, 0)] [.srcs, .cores])) ∧
  (∀ (g d : Nat), g < 32 → s.groupTimer g = some d →
    Next (.holdoffExpiry g) s (fun t => t.now = max s.now d ∧ t.groupTimer g = none ∧
      t.fld Obj.iecCounts 0 F.iecCountsHeldOff = counted 48 (s.fld Obj.iecCounts 0 F.iecCountsHeldOff) (s.groupPending g).length ∧
      Keeps s t [] [.now, .groups, .cores, .obj Obj.iecCounts, .obj Obj.cccState]))

/-- R769, R770: a core's wait and its handler entry. -/
def Obligations.CoresWaitAndHandle : Prop :=
  ∀ (s : State) (c : Nat),
  (∀ m : Bool, s.coreState c ≠ 0 → s.coreState c ≠ 5 → ((s.core c).item ≠ none ∨ ∀ g < 32, s.groupTimer g = none) →
    Next (.coreWait c m) s (fun t =>
      t.coreState c = (if (s.core c).item = none then 2 else 3) ∧ (t.core c).handlers = [] ∧ (t.core c).mask = m ∧
      Keeps s t [] [.cores, .groups, .obj Obj.cccState, .obj Obj.iecCounts, .obj Obj.wdpStats])) ∧
  (∀ d : Delivery, (s.core c).nextDue = some d → s.coreState c ≠ 5 →
    Next (.handlerEntry c) s (fun t =>
      t.now = max s.now d.due ∧ (t.core c).handlers = (d.source, d.fast) :: (s.core c).handlers ∧ (t.core c).due = (s.core c).due.erase d ∧
      t.coreState c = 4 ∧ t.fld Obj.cccCounts c F.cccCountsHandlers = counted 48 (s.fld Obj.cccCounts c F.cccCountsHandlers) 1 ∧
      Keeps s t [(Obj.cccState, c), (Obj.cccCounts, c)] [.now, .cores]))

/-- R780. -/
def Obligations.FaultsAreCollected : Prop :=
  (∀ (s : State) (n inst master access addr c : Nat) (scope : Option Nat) (own : Bool), faultClass n = some c →
    let t := s.raise n inst master access addr scope own
    Raised t n ∧ (∃ e, t.fcr.log.getLast? = some e ∧ e % 2 ^ 16 = n) ∧
      t.fld Obj.fcrCounts 0 ⟨48 * c, 48⟩ = counted 48 (s.fld Obj.fcrCounts 0 ⟨48 * c, 48⟩) 1 ∧
      (c = 0 → t.rd Obj.fcrActive 0 = s.rd Obj.fcrActive 0) ∧ Keeps s t [] faultParts) ∧
  (∀ (s : State) (n inst master access addr c : Nat), faultClass n = some c → n ≠ Ev.fcrParity →
    let w := s.checkerActs n inst master
    ∃ u : State, Raised u n ∧ (∃ e, u.fcr.log.getLast? = some e ∧ e % 2 ^ 16 = n) ∧
      u.fld Obj.fcrCounts 0 ⟨48 * c, 48⟩ = counted 48 (w.fld Obj.fcrCounts 0 ⟨48 * c, 48⟩) 1 ∧
      (c = 0 → u.rd Obj.fcrActive 0 = w.rd Obj.fcrActive 0) ∧ Keeps w u [] faultParts ∧
      exec (.faultRaise n inst master access addr) s =
        .next (match frogsNeedle n inst master with | some m => (u.frogAt m u.now 1).alsoUnder u m u.now | none => u))

/-- R785, R786. -/
def Obligations.ReactionsReachTheirNeedles : Prop :=
  ∀ (s : State) (r : Reaction), s.fcr.reactions = [r] → s.Quiet →
  (r.invalid = true → r.stop = false →
    Next .faultReaction s (fun t => t.now = max s.now r.due ∧ t.fcr.reactions = [] ∧
      (∀ n < 16, s.busyNeedle n = true → (r.scope = none ∨ ∃ x, r.scope = some x ∧ bit x n = true) →
        ∀ i ∈ s.sitesOf n, bit (s.ndl n).active i = true → t.fld Obj.ptfSiteResult i F.ptfSiteResultResult = 3) ∧
      Keeps s t [] [.now, .fcr, .obj Obj.ptfSiteResult])) ∧
  (∀ n < 16, r.stop = true → r.invalid = false → r.scope = some (2 ^ n) → s.busyNeedle n = true → (s.ndl n).bound = none →
    Next .faultReaction s (fun t => t.now = max s.now r.due ∧ (t.fcr.reactions = [] ∨ t.active Ev.ucodeParity = true ∨ t.active Ev.streamUnderrun = true) ∧ t.ndlState n = 9 ∧
      t.status n F.ndlStatusFrogCause = 1 ∧ (t.ndl n).park = some (r.due + 6 * vclkFs) ∧ Keeps s t [] (withFaults [.cal, .freeCtr, .ndls, .now, .ras, .results, .tae, .trans, .wdpLost, .wdpTrace, .obj Obj.calNeedleAge,
        .obj Obj.clkSyncArm, .obj Obj.clkSyncStatus, .obj Obj.devMode, .obj Obj.devModeReason, .obj Obj.devModeStamp, .obj Obj.devPrevMode,
        .obj Obj.hmsLoad, .obj Obj.ndlCounts, .obj Obj.ndlJumpStatus, .obj Obj.ndlState, .obj Obj.ndlStatus, .obj Obj.ndlTraceStatus,
        .obj Obj.ptfSiteResult, .obj Obj.rasBufferState, .obj Obj.rasCommitPending, .obj Obj.rasLayerActive, .obj Obj.rasState,
        .obj Obj.rqpPoolStatus, .obj Obj.strCounts, .obj Obj.strNextSeq, .obj Obj.strState, .obj Obj.strUnderrun,
        .obj Obj.wdpTraceStatus])))

/-- R793, R794, R790. -/
def Obligations.FaultsAreCleared : Prop :=
  ∀ (s : State) (n : Nat) (x : Session) (r : ObjRow),
  (∀ src : Nat, src ≠ 0xFFFF → Takes (.faultClear n src) s n x r Obj.fcrClear 0 src [0] (fun b t =>
      t.active src = false ∧ (∀ k, k ≠ src → t.active k = b.active k) ∧ t.out = b.out ++ [wrote n rOk 0xFFFF] ∧
      (b.active src = true → t.fld Obj.fcrCounts 0 ⟨144, 48⟩ = counted 48 (b.fld Obj.fcrCounts 0 ⟨144, 48⟩) 1) ∧
      (b.active src = false → t.rd Obj.fcrActive 0 = b.rd Obj.fcrActive 0 ∧ t.rd Obj.fcrCounts 0 = b.rd Obj.fcrCounts 0) ∧
      Keeps b t [(Obj.fcrClear, 0), (Obj.fcrActive, 0), (Obj.fcrCounts, 0)] [.out, .fcr])) ∧
  Takes (.faultClearAll n) s n x r Obj.fcrClear 0 0xFFFF [0] (fun b t =>
      (∀ f ∈ b.actives, t.active f = b.causePresent f) ∧
      t.out = b.out ++ [wrote n (if t.actives = [] then rOk else rBusy) 0xFFFF] ∧
      Keeps b t [(Obj.fcrClear, 0), (Obj.fcrActive, 0), (Obj.fcrCounts, 0)] [.out, .fcr]) ∧
  Takes (.firstClear n) s n x r Obj.fcrFirstClear 0 1 [0] (fun b t =>
      (∀ c < 3, t.fld Obj.fcrFirst 0 ⟨256 * c + 18, 1⟩ = 0) ∧ t.out = b.out ++ [wrote n rOk 0xFFFF] ∧
      Keeps b t [(Obj.fcrFirstClear, 0), (Obj.fcrFirst, 0)] [.out]) ∧
  (∀ src : Nat, s.active src = true → s.causePresent src = false → (s.mode = .boot ∨ s.mode = .calibrate ∨ s.mode = .ridethru) →
    Next (.fcrRecovered src) s (fun t =>
      t.now = max s.now (Tbl.get (fun _ => 0) s.fcr.raised src + s.rd Obj.fcrQuiet 0) ∧ t.active src = false ∧
      t.fld Obj.fcrRecoveries 0 ⟨0, 16⟩ = counted 16 (s.fld Obj.fcrRecoveries 0 ⟨0, 16⟩) 1 ∧ t.srcPending Ev.fcrRecovered = true ∧
      Keeps s t [] (withSignals [.fcr, .now, .obj Obj.fcrActive, .obj Obj.fcrCounts, .obj Obj.fcrRecoveries]))) ∧
  (∀ src : Nat, (s.active src = false ∨ s.causePresent src = true ∨ (s.mode ≠ .boot ∧ s.mode ≠ .calibrate ∧ s.mode ≠ .ridethru)) →
    Next (.fcrRecovered src) s (fun t => t = s))

/-- R789, R795. -/
def Obligations.InjectionsAndParity : Prop :=
  (∀ (s : State) (n : Nat) (x : Session) (r : ObjRow),
  (∀ src bits m k : Nat, src ≠ 0xFFFF → src < 2 ^ 16 → bits < 256 → m < 256 → k < 2 ^ 16 →
    let v := src + bits * 2 ^ 16 + m * 2 ^ 24 + k * 2 ^ 32
    Takes (.inject n src bits m k) s n x r Obj.fcrInject 0 v [0] (fun b t =>
        t.rd Obj.fcrInject 0 = v ∧ t.fcr.injLeft = k ∧ t.out = b.out ++ [wrote n rOk 0xFFFF] ∧ Keeps b t [(Obj.fcrInject, 0)] [.out, .fcr])) ∧
  Takes (.injectCancel n) s n x r Obj.fcrInject 0 (0xFFFF + 2 ^ 16 + 0xFF * 2 ^ 24 + 2 ^ 32) [0] (fun b t =>
      t.fcr.injLeft = 0 ∧ t.out = b.out ++ [wrote n rOk 0xFFFF] ∧ Keeps b t [(Obj.fcrInject, 0)] [.out, .fcr])) ∧
  (∀ s : State,
    Next .fcrParity s (fun t =>
      t.rd Obj.fcrReaction 0 = objDflt Obj.fcrReaction ∧ Raised t Ev.fcrParity ∧
      (s.mode ≠ .cold → s.mode ≠ .boot → s.mode ≠ .dump → t.fcr.entry ≠ none) ∧
      (∀ inst master access addr : Nat, exec (.faultRaise Ev.fcrParity inst master access addr) s = .next t) ∧
      Keeps s t [(Obj.fcrReaction, 0)] faultParts))

/-- R191, R192, R305, R306. -/
def Obligations.ChartsAndWavesAreValidated : Prop :=
  ∀ (s : State) (h : Nat),
  (∀ (id : Nat) (x : Xfer) (w : Waiter), s.writing Obj.ndlChartImage h = some (id, x) → x.validating = true → s.Awaits w → w.token = .xfer id →
    let ends := fun (p : State → Prop) => Next (.chartValidation h) s (fun t => p t ∧ t.xfer id = none ∧ t.waiters = [] ∧
      Keeps s t [(Obj.ndlChartState, h), (Obj.ndlChartInfo, h), (Obj.ndlChartLabel, h), (Obj.ndlChartTsets, h), (Obj.ndlChartError, h), (Obj.ndlChartCounts, 0)]
        [.images, .chartLen, .poa, .out, .waiters])
    (chartChecks x.data = none → ends (fun t => t.chartState h = 2 ∧ t.img Obj.ndlChartImage h = x.data ∧
      t.rd Obj.ndlChartError h = s.rd Obj.ndlChartError h ∧ t.out = s.out ++ [.item w.session (w.reply rOk [0#8])])) ∧
    (∀ c e : Nat, chartChecks x.data = some (c, e) → ends (fun t => t.chartState h = 3 ∧ t.img Obj.ndlChartImage h = [] ∧
      t.rd Obj.ndlChartError h = rFormat + c * 2 ^ 16 + e % 2 ^ 32 * 2 ^ 24 ∧ t.out = s.out ++ [.item w.session (w.reply rFormat [BitVec.ofNat 8 c])]))) ∧
  (∀ (id : Nat) (x : Xfer) (w : Waiter), s.writing Obj.ptfWaveTable h = some (id, x) → x.validating = true → s.Awaits w → w.token = .xfer id →
    let ends := fun (p : State → Prop) => Next (.waveValidation h) s (fun t => p t ∧ t.xfer id = none ∧ t.waiters = [] ∧
      Keeps s t [(Obj.ptfWaveState, h), (Obj.ptfWaveInfo, h), (Obj.ptfWaveError, h)] [.images, .poa, .out, .waiters])
    (waveChecks x.data = none → ends (fun t => t.rd Obj.ptfWaveState h = 2 ∧ t.img Obj.ptfWaveTable h = x.data ∧ t.rd Obj.ptfWaveInfo h = waveInfo x.data ∧
      t.rd Obj.ptfWaveError h = s.rd Obj.ptfWaveError h ∧ t.out = s.out ++ [.item w.session (w.reply rOk [0#8])])) ∧
    (∀ c p v e : Nat, waveChecks x.data = some (c, p, v, e) → ends (fun t => t.rd Obj.ptfWaveState h = 3 ∧ t.img Obj.ptfWaveTable h = [] ∧
      t.rd Obj.ptfWaveInfo h = 0 ∧ t.rd Obj.ptfWaveError h = rFormat + c * 2 ^ 16 + p * 2 ^ 24 + v * 2 ^ 32 + e * 2 ^ 36 ∧
      t.out = s.out ++ [.item w.session (w.reply rFormat [BitVec.ofNat 8 c])]))) ∧
  (s.Quiet → (s.writing Obj.ndlChartImage h = none → Next (.chartValidation h) s (fun t => t = s)) ∧
    (s.writing Obj.ptfWaveTable h = none → Next (.waveValidation h) s (fun t => t = s)))

/-- R194, R198, R335. -/
def Obligations.ChartsAndWavesAreDeleted : Prop :=
  ∀ (s : State) (n el : Nat) (x : Session) (r : ObjRow) (els : List Nat),
  Takes (.chartDelete n el) s n x r Obj.ndlChartDelete el 1 els (fun b t =>
    (∀ h ∈ els, t.chartState h = 0 ∧ t.rd Obj.ndlChartInfo h = 0 ∧ t.img Obj.ndlChartImage h = [] ∧
      ∀ id y, b.writing Obj.ndlChartImage h = some (id, y) → t.xfer id = none) ∧
    (∀ h, h ∉ els → t.img Obj.ndlChartImage h = b.img Obj.ndlChartImage h) ∧ t.out = b.out ++ [wrote n rOk 0xFFFF] ∧
    Keeps b t ((els.flatMap (fun h => [(Obj.ndlChartDelete, h), (Obj.ndlChartState, h), (Obj.ndlChartInfo, h), (Obj.ndlChartLabel, h), (Obj.ndlChartTsets, h)])))
      [.images, .chartLen, .poa, .out]) ∧
  Takes (.waveDelete n el) s n x r Obj.ptfWaveDelete el 1 els (fun b t =>
    (∀ h ∈ els, t.rd Obj.ptfWaveState h = 0 ∧ t.rd Obj.ptfWaveInfo h = 0 ∧ t.img Obj.ptfWaveTable h = [] ∧
      ∀ id y, b.writing Obj.ptfWaveTable h = some (id, y) → t.xfer id = none) ∧
    (∀ h, h ∉ els → t.img Obj.ptfWaveTable h = b.img Obj.ptfWaveTable h) ∧ t.out = b.out ++ [wrote n rOk 0xFFFF] ∧
    Keeps b t ((els.flatMap (fun h => [(Obj.ptfWaveDelete, h), (Obj.ptfWaveState, h), (Obj.ptfWaveInfo, h)]))) [.images, .poa, .out])

/-- R57. -/
def Obligations.WritesAreStaged : Prop :=
  ∀ (s : State) (n el v : Nat) (x : Session) (r : ObjRow) (els : List Nat),
  let staged := fun (i : Instr) (o v : Nat) => Takes i s n x r o el v els (fun b t =>
      t.staged = b.staged ++ [⟨o, el, ofMembers els, v, b.edgeAt vclkFs (b.now + 16 * vclkFs)⟩] ∧ (∀ m ∈ els, t.rd o m = v) ∧
      t.out = b.out ++ [wrote n rOk 0xFFFF] ∧ Keeps b t (els.map (fun m => (o, m))) [.staged, .out])
  staged (.start n el) Obj.ndlStart 1 ∧ staged (.frog n el) Obj.ndlFrog 1 ∧ staged (.hostEvent n el v) Obj.ndlHostEvent v ∧
  staged (.jump n el v) Obj.ndlJump v ∧ staged (.measDrive n el v) Obj.ptfMeasDrive v

/-- R207, R852, R637 to R639. -/
def Obligations.NeedlesStart : Prop :=
  ∀ s : State,
  (∀ (n : Nat) (x : Staged), n < 16 → s.stagedFor Obj.ndlStart n = some x →
    let u := State.reach { s with staged := s.staged.erase x } x.due
    (u.qualifies (members 16 x.els) = true → members 16 x.els ≠ [] →
      Next (.startQualify n) s (fun t =>
        t.now = max s.now (x.due + vclkFs) ∧ t.staged = s.staged.erase x ∧ (∀ m ∈ members 16 x.els, (t.ndlState m = 3 ∨ t.ndlState m = 9) ∧ t.rd Obj.ndlStitchCount m = 0) ∧
        (s.mode = .armed → t.mode = .run) ∧ Keeps s t [] (withFaults [.cal, .freeCtr, .ndls, .now, .pins, .plc, .queues, .ras, .results, .sites, .staged, .tae, .trans, .wdpLost, .wdpTrace,
        .obj Obj.calCount, .obj Obj.calCounts, .obj Obj.calLastTime, .obj Obj.calNeedleAge, .obj Obj.calPinStatus, .obj Obj.clkSyncArm,
        .obj Obj.clkSyncStatus, .obj Obj.devMode, .obj Obj.devModeReason, .obj Obj.devModeStamp, .obj Obj.devPrevMode, .obj Obj.hmsLoad,
        .obj Obj.ndlCounts, .obj Obj.ndlJumpStatus, .obj Obj.ndlState, .obj Obj.ndlStatus, .obj Obj.ndlStitchCount,
        .obj Obj.ndlTraceStatus, .obj Obj.plcChartPlace, .obj Obj.plcCounts, .obj Obj.ptfCapStatus, .obj Obj.ptfDlogStatus,
        .obj Obj.ptfFailFifo, .obj Obj.ptfGaugeActive, .obj Obj.ptfPinFails, .obj Obj.ptfPinState, .obj Obj.ptfSiteResult,
        .obj Obj.rasBufferState, .obj Obj.rasCommitPending, .obj Obj.rasLayerActive, .obj Obj.rasState, .obj Obj.rqpCounts,
        .obj Obj.rqpNeedleQueue, .obj Obj.rqpPoolStatus, .obj Obj.rqpSiteQueue, .obj Obj.strCounts, .obj Obj.strNextSeq, .obj Obj.strState,
        .obj Obj.strUnderrun, .obj Obj.wdpTraceStatus]))) ∧
    (u.qualifies (members 16 x.els) = false → Next (.startQualify n) s (fun t => t = u))) ∧
  (∀ q : Nat, s.clk.startQ = some q →
    let u := s.reach q
    let ns := members 16 (s.fld Obj.clkStartStatus 0 F.clkStartStatusNeedles)
    (u.qualifies ns = true → ns ≠ [] →
      Next .timedStart s (fun t =>
        t.now = max s.now (q + vclkFs) ∧ t.clk.startQ = none ∧ t.fld Obj.clkStartStatus 0 F.clkStartStatusState = 2 ∧
        (∀ m ∈ ns, (t.ndlState m = 3 ∨ t.ndlState m = 9) ∧ t.rd Obj.ndlStitchCount m = 0) ∧ (s.mode = .armed → t.mode = .run) ∧ Keeps s t [] (withFaults [.cal, .freeCtr, .ndls, .now, .pins, .plc, .queues, .ras, .results, .sites, .tae, .trans, .wdpLost, .wdpTrace,
        .obj Obj.calCount, .obj Obj.calCounts, .obj Obj.calLastTime, .obj Obj.calNeedleAge, .obj Obj.calPinStatus, .obj Obj.clkSyncArm,
        .obj Obj.clkSyncStatus, .obj Obj.devMode, .obj Obj.devModeReason, .obj Obj.devModeStamp, .obj Obj.devPrevMode, .obj Obj.hmsLoad,
        .obj Obj.ndlCounts, .obj Obj.ndlJumpStatus, .obj Obj.ndlState, .obj Obj.ndlStatus, .obj Obj.ndlStitchCount,
        .obj Obj.ndlTraceStatus, .obj Obj.plcChartPlace, .obj Obj.plcCounts, .obj Obj.ptfCapStatus, .obj Obj.ptfDlogStatus,
        .obj Obj.ptfFailFifo, .obj Obj.ptfGaugeActive, .obj Obj.ptfPinFails, .obj Obj.ptfPinState, .obj Obj.ptfSiteResult,
        .obj Obj.rasBufferState, .obj Obj.rasCommitPending, .obj Obj.rasLayerActive, .obj Obj.rasState, .obj Obj.rqpCounts,
        .obj Obj.rqpNeedleQueue, .obj Obj.rqpPoolStatus, .obj Obj.rqpSiteQueue, .obj Obj.strCounts, .obj Obj.strNextSeq, .obj Obj.strState,
        .obj Obj.strUnderrun, .obj Obj.wdpTraceStatus]))) ∧
    (u.qualifies ns = false →
      Next .timedStart s (fun t =>
        t.now = max s.now q ∧ t.clk.startQ = none ∧ t.fld Obj.clkStartStatus 0 F.clkStartStatusState = 3 ∧ t.srcPending Ev.clkStartDropped = true ∧
        Keeps s t [(Obj.clkStartStatus, 0)] (withSignals [.now, .clk])))) ∧
  (∀ (n ns a : Nat) (x : Session) (r : ObjRow), ns < 2 ^ 16 → a < 2 ^ 64 → Takes (.startAt n ns a) s n x r Obj.clkStartAt 0 (ns + a * 2 ^ 64) [0] (fun b t =>
      t.clk.startQ = some (b.startEdge a) ∧ t.rd Obj.clkStartStatus 0 = 1 + ns * 2 ^ 16 + a * 2 ^ 64 ∧ t.out = b.out ++ [wrote n rOk 0xFFFF] ∧
      Keeps b t [(Obj.clkStartAt, 0), (Obj.clkStartStatus, 0)] [.out, .clk])) ∧
  (∀ (n : Nat) (x : Session) (r : ObjRow), Takes (.cancelStart n) s n x r Obj.clkCancelStart 0 1 [0] (fun b t =>
      t.clk.startQ = none ∧
      (b.clk.startQ ≠ none → t.fld Obj.clkStartStatus 0 F.clkStartStatusState = 3 ∧ t.srcPending Ev.clkStartDropped = true) ∧
      (b.clk.startQ = none → Keeps b t [(Obj.clkCancelStart, 0)] [.out]) ∧
      Keeps b t [(Obj.clkCancelStart, 0), (Obj.clkStartStatus, 0)] (withSignals [.clk])))

/-- R150, R158 to R164, R183, R217: the decoder. -/
def Obligations.BlocksAreDecoded : Prop :=
  ∀ (s : State) (n : Nat), s.Quiet →
  (s.busyNeedle n = false ∨ s.now < (s.ndl n).q + vclkFs ∨ ((s.ndl n).warm = true ∧ (s.ndl n).ahead = none ∧ ((s.ndl n).wait = true ∨ (s.ndl n).cursor = none)) → Next (.blockDecode n) s (fun t => t = s)) ∧
  (∀ (img : Img) (off : Nat), s.busyNeedle n = true → (s.ndl n).wait = false → ((s.ndl n).queue = [] ∨ (s.aheadTime n).1 < 64 * vclkFs) →
    (s.ndl n).q + vclkFs ≤ s.now → (s.ndl n).warm = true →
    (s.ndl n).cursor = some (img, off) → off * 64 < (s.imgBytes n img).length → s.fcr.injLeft = 0 →
    let r := s.ndl n
    let b := decodeBlock (courseAt (s.imgBytes n img) off)
    let nx := s.nextPlace n img (s.afterBlock n img off b)
    let sound := blockCrcOk (courseAt (s.imgBytes n img) off) = true ∧ s.uBad (s.trapped b.op) = false
    let goes := fun (p : NdlRt → Prop) => sound → Next (.blockDecode n) s (fun t => t.now = max s.now (r.decodedAt + vclkFs) ∧ p (t.ndl n) ∧
      r.decodedAt + vclkFs ≤ (t.ndl n).decodedAt ∧ t.ndlState n = s.ndlState n ∧ Keeps s t [] [.now, .ndls, .freeCtr, .obj Obj.ndlTraceStatus])
    let moves := fun (c : Option (Img × Nat)) (l : List (Img × Nat × Nat)) (k : List (Img × Nat)) =>
      goes (fun q => q.cursor = c ∧ q.loops = l ∧ q.calls = k ∧ q.queue = r.queue ∧ q.wait = false)
    let joins := fun (c : Option (Img × Nat)) (w : Bool) => goes (fun q => q.cursor = c ∧ q.loops = r.loops ∧ q.calls = r.calls ∧ q.wait = w ∧
      ∃ d : Dec, q.queue = r.queue ++ [d] ∧ d.img = img ∧ d.off = off ∧ d.blk = b ∧ d.loops = r.loops.length ∧ d.calls = r.calls.length)
    (b.op = 0x03 → b.count = 0 → moves (some (s.nextPlace n img (b.target + 1))) r.loops r.calls) ∧
    (b.op = 0x03 → b.count ≠ 0 → moves (some nx) (((img, off, b.count) :: r.loops).take 8) r.calls) ∧
    (∀ i o left rest, b.op = 0x04 → r.loops = (i, o, left) :: rest →
      (left ≤ 1 → moves (some nx) rest r.calls) ∧ (1 < left → moves (some (i, o + 1)) ((i, o, left - 1) :: rest) r.calls)) ∧
    (b.op = 0x05 → moves (some (if bit b.arg 15 then .chart (b.arg % 1024) else img, b.target)) r.loops ((nx :: r.calls).take 16)) ∧
    (∀ p rest, b.op = 0x06 → r.calls = p :: rest → moves (some p) r.loops rest) ∧
    (b.op = 0x07 → moves (some (img, b.target)) r.loops r.calls) ∧
    (b.op ∈ [0x08, 0x09, 0x0A] → joins (some nx) true ∧ goes (fun q => ∃ a c, q.ahead = some (a, c) ∧ a.cursor = some (img, b.target) ∧ c.cursor = some nx ∧ a.queue = [] ∧ c.queue = [])) ∧
    (b.op = 0xFF → joins none true) ∧
    (b.op ∈ [0x01, 0x02, 0x0B, 0x0C, 0x0D, 0x0E, 0x0F, 0x10, 0x11, 0x13, 0x14, 0xFE] → joins (some nx) false) ∧
    (∀ h, b.op = 0x12 → img = .chart h → joins (some (.skein r.ringSeq, r.ringOff)) false) ∧
    (blockCrcOk (courseAt (s.imgBytes n img) off) = false → r.bound = none → Next (.blockDecode n) s (fun t => Raised t Ev.chartCrc ∧ t.ndlState n = 9 ∧
      t.status n F.ndlStatusFrogCause = 1 ∧ t.now = max s.now (r.decodedAt + vclkFs))))

/-- R143, R153, R203, R212, R272, R278: issue. -/
def Obligations.StitchesAreIssued : Prop :=
  ∀ (s : State) (n : Nat), s.Quiet → n < 16 →
  let r := s.ndl n
  let parity := fun t : State => Raised t Ev.ucodeParity ∧ (t.ndlState n = 8 ∨ t.ndlState n = 9)
  (s.issuing n = false → (r.bound = none ∨ r.seam ≠ none ∨ s.busyNeedle n = false) → Next (.stitchIssue n) s (fun t => t = s)) ∧
  (∀ e i : Nat, r.bound = some (e, i) → r.seam = none → s.busyNeedle n = true →
    Next (.stitchIssue n) s (fun t => t.now = max s.now (s.edgeAt vclkFs e) ∧
      (parity t ∨ (t.ndlState n = 7 ∧ (t.ndl n).seam = some (e + 1024 * vclkFs, true) ∧ t.status n F.ndlStatusInSeam = 1)) ∧ t.fld Obj.ndlCounts n F.ndlCountsSeams = counted 48 (s.fld Obj.ndlCounts n F.ndlCountsSeams) 1)) ∧
  (∀ (d : Dec) (h t1 p e : Nat), s.issuing n = true → s.ndlState n ≠ 5 → r.flags = [] → r.queue = [d] → d.blk.op = 0x01 → d.blk.len = r.pos + 1 → r.reps = 0 →
    d.img = .chart h → r.brk = none → r.jump = none → r.freeze = none → r.streams = 0 → r.skeinIn = none → (∃ h' o, r.cursor = some (.chart h', o)) →
    s.slot n = (false, t1, p, e) → s.fcr.injLeft = 0 →
    r.held = [] → s.frogBy n e = false →
    Next (.stitchIssue n) s (fun t => t.now = max s.now e ∧ t.rd Obj.ndlStitchCount n = (s.rd Obj.ndlStitchCount n + 1) % 2 ^ 64 ∧ t.ndlState n = 4 ∧
      (t.ndl n).queue = [] ∧ (t.ndl n).t0 = t1 + p ∧ (t.ndl n).cursor = r.cursor ∧ (t.ndl n).fresh = false ∧
      (r.castOn = true → t.rd Obj.ndlCastonWait n = t1 - (r.q + 64 * vclkFs)) ∧ (d.off < 2 ^ 32 → t.status n F.ndlStatusCourse = d.off) ∧
      ∀ m, m ≠ n → t.ndlState m = s.ndlState m ∧ t.rd Obj.ndlStitchCount m = s.rd Obj.ndlStitchCount m)) ∧
  (∀ (t1 p e : Nat), s.issuing n = true → s.ndlState n ≠ 5 → r.flags = [] → r.brk = none → r.freeze = none → r.pause = false → s.slot n = (false, t1, p, e) →
    s.openArrival n e = false → s.missing n e false = true → s.frogBy n e = false →
    Next (.stitchIssue n) s (fun t => t.now = max s.now e ∧ t.ndlState n = 9 ∧ t.status n F.ndlStatusFrogCause = 1 ∧ (t.ndl n).park = some (e + 6 * vclkFs) ∧
      t.fld Obj.strUnderrun n F.strUnderrunFrogs = counted F.strUnderrunFrogs.w (s.fld Obj.strUnderrun n F.strUnderrunFrogs) 1 ∧
      t.fld Obj.strUnderrun n F.strUnderrunExpired = 0)) ∧
  (∀ x : Nat, s.ndlState n = 5 → r.bound = none → s.stallEdge n = some x →
    ¬ ((s.slot n).2.2.2 ≤ x ∧ (s.openArrival n (s.slot n).2.2.2 = true ∨ s.stallEnds n (s.slot n).2.2.2 = true)) →
    Next (.stallExpiry n) s (fun t => t.now = max s.now x ∧ t.ndlState n = 9 ∧ t.status n F.ndlStatusFrogCause = 1 ∧ (t.ndl n).park = some (x + 6 * vclkFs) ∧
      t.fld Obj.strUnderrun n F.strUnderrunFrogs = counted F.strUnderrunFrogs.w (s.fld Obj.strUnderrun n F.strUnderrunFrogs) 1 ∧
      t.fld Obj.strUnderrun n F.strUnderrunExpired = 1)) ∧
  (s.ndlState n ≠ 5 → Next (.stallExpiry n) s (fun t => t = s))

/-- R203, R221, R234 to R239, R113, R316. -/
def Obligations.NeedlesEndAndHold : Prop :=
  ∀ (s : State) (n : Nat), s.Quiet → n < 16 →
  let r := s.ndl n
  let parity := fun (m : Nat) (t : State) => t.active Ev.ucodeParity = true ∧ (t.ndlState m = 8 ∨ t.ndlState m = 9)
  (∀ e : Nat, r.seam = some (e, true) → Next (.seamEnd n) s (fun t => t.now = max s.now e ∧ t.ndlState n = 8 ∧ (t.ndl n).seam = none ∧
    (t.ndl n).final = some e ∧ t.srcPending Ev.ndlDone = true ∧ t.fld Obj.ndlCounts n F.ndlCountsDones = counted 48 (s.fld Obj.ndlCounts n F.ndlCountsDones) 1)) ∧
  (∀ e : Nat, r.seam = some (e, false) → Next (.seamEnd n) s (fun t => t.now = max s.now (s.issueEdge e) ∧ t.ndlState n = s.ndlState n ∧ (t.ndl n).seam = none ∧
    (t.ndl n).t0 = e ∧ (t.ndl n).fresh = true ∧ (t.ndl n).pause = true ∧ t.status n F.ndlStatusInSeam = 0 ∧
    Keeps s t [(Obj.ndlStatus, n), (Obj.calNeedleAge, n)] [.now, .ndls])) ∧
  (r.seam = none → r.bound = none → Next (.seamEnd n) s (fun t => t = s)) ∧
  (∀ f t1 p e : Nat, r.freeze = some f → s.issuing n = true → s.slot n = (false, t1, p, e) → f ≤ e → r.brk = none → (∀ d, r.queue.head? = some d → d.waits = false) →
    Next (.needleFreeze n) s (fun t => t.now = max s.now e ∧ (t.ndl n).freeze = none ∧ (parity n t ∨ (t.ndlState n = 6 ∧ (t.ndl n).queue = r.queue)) ∧
      t.fld Obj.ndlCounts n F.ndlCountsHolds = counted 48 (s.fld Obj.ndlCounts n F.ndlCountsHolds) 1 ∧
      (∀ x : Trans, s.trans = some x → x.target = 7 →
        ((∀ m < 16, m ≠ n → s.running m = false) → t.mode = .hold ∧ t.rd Obj.devPrevMode 0 = x.source ∧ t.rd Obj.devModeReason 0 = x.reason ∧ (parity n t ∨ t.trans = none)) ∧
        ((∃ m < 16, m ≠ n ∧ s.running m = true) → t.mode = s.mode ∧ t.trans = s.trans)) ∧ Keeps s t [] (withFaults [.cal, .freeCtr, .ndls, .now, .ras, .results, .tae, .trans, .wdpLost, .wdpTrace, .obj Obj.calNeedleAge,
        .obj Obj.clkSyncArm, .obj Obj.clkSyncStatus, .obj Obj.devMode, .obj Obj.devModeReason, .obj Obj.devModeStamp, .obj Obj.devPrevMode,
        .obj Obj.hmsLoad, .obj Obj.ndlCounts, .obj Obj.ndlJumpStatus, .obj Obj.ndlState, .obj Obj.ndlStatus, .obj Obj.ndlTraceStatus,
        .obj Obj.ptfSiteResult, .obj Obj.rasBufferState, .obj Obj.rasCommitPending, .obj Obj.rasLayerActive, .obj Obj.rasState,
        .obj Obj.rqpPoolStatus, .obj Obj.strCounts, .obj Obj.strNextSeq, .obj Obj.strState, .obj Obj.wdpTraceStatus]))) ∧
  (r.freeze = none ∨ s.issuing n = false → Next (.needleFreeze n) s (fun t => t = s)) ∧
  (∀ (x : Trans) (a : Nat), s.trans = some x → x.target = 6 → x.source = 7 → x.due = some a →
    Next .resume s (fun t => t.now = max s.now a ∧ t.mode = .run ∧ (t.trans = none ∨ t.active Ev.ucodeParity = true) ∧ t.rd Obj.devPrevMode 0 = 7 ∧ t.rd Obj.devModeReason 0 = x.reason ∧
      (∀ m < 16, s.ndlState m = 6 → (t.ndl m).t0 = a + 8 * vclkFs ∧ (t.ndl m).fresh = true ∧
        (parity m t ∨ t.ndlState m = 4 ∨ (s.strState m = 3 ∧ t.ndlState m = 5))) ∧
      (∀ m < 16, s.ndlState m ≠ 6 → t.ndlState m = s.ndlState m ∧ t.ndl m = s.ndl m) ∧ Keeps s t [] (withFaults [.cal, .freeCtr, .ndls, .now, .ras, .results, .tae, .trans, .wdpLost, .wdpTrace, .obj Obj.calNeedleAge,
        .obj Obj.clkSyncArm, .obj Obj.clkSyncStatus, .obj Obj.devMode, .obj Obj.devModeReason, .obj Obj.devModeStamp, .obj Obj.devPrevMode,
        .obj Obj.hmsLoad, .obj Obj.ndlCounts, .obj Obj.ndlJumpStatus, .obj Obj.ndlState, .obj Obj.ndlStatus, .obj Obj.ndlTraceStatus,
        .obj Obj.ptfSiteResult, .obj Obj.rasBufferState, .obj Obj.rasCommitPending, .obj Obj.rasLayerActive, .obj Obj.rasState,
        .obj Obj.rqpPoolStatus, .obj Obj.strCounts, .obj Obj.strNextSeq, .obj Obj.strState, .obj Obj.wdpTraceStatus]))) ∧
  (s.trans = none → Next .resume s (fun t => t = s)) ∧
  (∀ c cause : Nat, s.stagedFor Obj.ndlFrog n = none → r.frogs = [(c, cause)] → s.busyNeedle n = true → cause < 8 →
    Next (.frogCommit n) s (fun t => t.now = max s.now c ∧
      (t.status n F.ndlStatusFrogCause = cause ∨ (t.status n F.ndlStatusFrogCause = 1 ∧ (t.active Ev.ucodeParity = true ∨ t.active Ev.streamUnderrun = true))) ∧ (t.ndl n).park = some (c + 6 * vclkFs) ∧
      (t.ndl n).final = some (c + 14 * vclkFs) ∧ (t.ndl n).queue = [] ∧ (t.ndl n).frogs = [] ∧
      (∀ e i, r.bound = some (e, i) → i < c → t.ndlState n = 8 ∧ t.status n F.ndlStatusFrogLate = 1) ∧
      ((∀ e i, r.bound = some (e, i) → c ≤ i) → t.ndlState n = 9 ∧
        (cause ≠ 4 → ∀ i ∈ s.sitesOf n, bit r.active i = true → t.fld Obj.ptfSiteResult i F.ptfSiteResultResult = 3)))) ∧
  (s.stagedFor Obj.ndlFrog n = none → r.frogs = [] → Next (.frogCommit n) s (fun t => t = s)) ∧
  (∀ d : Nat, r.park = some d → (∀ e ∈ r.edges, e.pin ∈ s.chartPins n) → Next (.pinPark n) s (fun t => t.now = max s.now d ∧ (t.ndl n).park = none ∧
    (∀ p ∈ s.chartPins n, (t.pin p).den = false ∧ (t.pin p).drv = false ∧ t.rd Obj.ptfPinState p = (if s.rd Obj.ptfPinState p = 0 then 0 else 1)) ∧
    (∀ p, p ∉ s.chartPins n → t.pin p = s.pin p ∧ t.rd Obj.ptfPinState p = s.rd Obj.ptfPinState p) ∧ Keeps s t [] [.now, .ndls, .out, .freeCtr, .pins, .obj Obj.ptfPinState])) ∧
  (r.park = none → Next (.pinPark n) s (fun t => t = s))

/-- R227, R233, R317: staged writes. -/
def Obligations.StagedWritesReachTheirNeedles : Prop :=
  ∀ (s : State) (n : Nat),
  (∀ x : Staged, s.stagedFor Obj.ndlHostEvent n = some x →
    let k := 256 + x.value % 256
    Next (.hostEventLatch n) s (fun t => t.now = max s.now x.due ∧ t.staged = s.staged.erase x ∧
      (∀ m ∈ members 16 x.els, s.busyNeedle m = true → Tbl.get (fun _ => none) (t.ndl m).latches k =
        (match Tbl.get (fun _ => none) (s.ndl m).latches k with | some l => some l | none => some x.due)) ∧
      (∀ m, (m ∉ members 16 x.els ∨ s.busyNeedle m = false) → t.ndl m = s.ndl m) ∧ Keeps s t [] [.now, .staged, .ndls, .evts])) ∧
  (s.stagedFor Obj.ndlHostEvent n = none → Next (.hostEventLatch n) s (fun t => t = s)) ∧
  (∀ x : Staged, s.stagedFor Obj.ndlJump n = some x →
    Next (.jumpApply n) s (fun t => t.now = max s.now x.due ∧ t.staged = s.staged.erase x ∧
      (∀ m ∈ members 16 x.els, s.ndlState m ∈ [3, 4, 5, 6] → (s.ndl m).bound = none →
        (t.ndl m).jump = some (x.value % 8, x.due, false) ∧ t.status m F.ndlStatusJumpPending = 1 ∧ t.fld Obj.ndlJumpStatus m F.ndlJumpStatusState = 1 ∧
        t.fld Obj.ndlJumpStatus m F.ndlJumpStatusEntry = x.value % 8) ∧
      (∀ m ∈ members 16 x.els, s.ndlState m ∉ [3, 4, 5, 6] ∨ (s.ndl m).bound ≠ none →
        (t.ndl m).jump = none ∧ t.status m F.ndlStatusJumpPending = 0 ∧ t.fld Obj.ndlJumpStatus m F.ndlJumpStatusState = 3 ∧ t.srcPending Ev.ndlJump = true) ∧
      (∀ m, m ∉ members 16 x.els → t.ndl m = s.ndl m) ∧ Keeps s t [] (withSignals [.ndls, .now, .staged, .obj Obj.ndlJumpStatus, .obj Obj.ndlStatus]))) ∧
  (s.stagedFor Obj.ndlJump n = none → Next (.jumpApply n) s (fun t => t = s)) ∧
  (∀ x : Staged, s.staged.find? (fun y => y.obj == Obj.ptfMeasDrive) = some x →
    (s.mode = .measure → (s.reach x.due).safeGoing = false → Next .measDriveApply s (fun t => t.now = max s.now x.due ∧ t.staged = s.staged.erase x ∧
      (∀ p ∈ members 256 x.els, s.driven p = true → (t.pin p).den = decide (x.value ≠ 0) ∧ (t.pin p).drv = decide (x.value = 2)) ∧
      (∀ p, p ∉ members 256 x.els ∨ s.driven p = false → t.pin p = s.pin p) ∧ Keeps s t [] [.now, .staged, .pins, .out])) ∧
    (s.mode ≠ .measure ∨ (s.reach x.due).safeGoing = true → Next .measDriveApply s (fun t => t.now = max s.now x.due ∧ t.staged = s.staged.erase x ∧ Keeps s t [] [.now, .staged]))) ∧
  (s.staged.find? (fun y => y.obj == Obj.ptfMeasDrive) = none → Next .measDriveApply s (fun t => t = s))

/-- R313, R341 to R344, R348, R168, R350. -/
def Obligations.StrobesAreEvaluated : Prop :=
  ∀ (s : State) (n : Nat), n < 16 →
  (∀ (st : Stitch) (samples : Samples), (s.ndl n).strobes = [st] → st.strobes ≠ [] → (s.ndl n).streams = 0 → (∀ x ∈ st.strobes, x.act ≠ 4) →
    let d := st.strobes.foldl (fun a x => max a x.t) 0
    let hits := (s.seenOf st samples).filter (fun x => seenFails x && bit st.active x.1.site)
    (st.pass = 0 → (s.ndl n).parked = none → Next (.strobeResult n samples) s (fun t => t.now = max s.now d ∧ (t.ndl n).strobes = [] ∧
      (t.ndl n).flags = (s.ndl n).flags ++ hits.map (fun x => ⟨s.flagEdge x.1.t, x.1.t, true, x.1.site, st.active⟩) ∧
      (∀ i < 64, ((∃ x ∈ hits, x.1.site = i) → t.fld Obj.ptfSiteResult i F.ptfSiteResultFailStitches = counted 48 (s.fld Obj.ptfSiteResult i F.ptfSiteResultFailStitches) 1 ∧
          t.fld Obj.ptfSiteResult i F.ptfSiteResultResult = (if s.fld Obj.ptfSiteResult i F.ptfSiteResultResult = 3 then 3 else 2)) ∧
        ((∀ x ∈ hits, x.1.site ≠ i) → t.fld Obj.ptfSiteResult i F.ptfSiteResultFailStitches = s.fld Obj.ptfSiteResult i F.ptfSiteResultFailStitches ∧
          t.fld Obj.ptfSiteResult i F.ptfSiteResultResult = s.fld Obj.ptfSiteResult i F.ptfSiteResultResult)) ∧
      (∀ p < 256, ((∃ x ∈ hits, x.1.pin = p) → t.fld Obj.ptfPinFails p F.ptfPinFailsFails = counted 48 (s.fld Obj.ptfPinFails p F.ptfPinFailsFails) 1) ∧
        ((∀ x ∈ hits, x.1.pin ≠ p) → t.rd Obj.ptfPinFails p = s.rd Obj.ptfPinFails p)) ∧
      (∀ m, m ≠ n → t.ndl m = s.ndl m) ∧
      Keeps s t [] (withSignals [.ndls, .now, .queues, .sites, .tae, .obj Obj.ptfFailFifo, .obj Obj.ptfPinFails, .obj Obj.ptfSiteResult,
        .obj Obj.rqpCounts]))) ∧
    (st.pass ≠ 0 → Next (.strobeResult n samples) s (fun t => t.now = max s.now d ∧ (t.ndl n).strobes = [] ∧ (t.ndl n).flags = (s.ndl n).flags ∧
      (∀ p ∈ (t.ndl n).passes, p.n = st.pass → ∃ p0 ∈ (s.ndl n).passes, p0.n = st.pass ∧ p.waiting = p0.waiting - 1 ∧
        ∀ i, bit p.failed i = (bit p0.failed i || hits.any (fun x => x.1.site == i))) ∧ Keeps s t [] [.now, .ndls, .tae]))) ∧
  (∀ samples : Samples, (s.ndl n).strobes = [] → Next (.strobeResult n samples) s (fun t => t = s)) ∧
  (s.Quiet → ∀ f : Flag, (s.ndl n).flags = [f] →
    let u := s.setNdl n { s.ndl n with failed := (s.ndl n).failed ||| (if f.site < 64 then 2 ^ f.site else 0) }
    (u.stops n [f] = false → Next (.failFlag n) s (fun t => t.now = max s.now f.due ∧ (t.ndl n).flags = [] ∧
      (f.sticky = true → s.busyNeedle n = true → (t.ndl n).sticky = (s.ndl n).sticky ++ [f.t] ∧ t.status n F.ndlStatusStickyFail = 1) ∧
      Keeps s t [(Obj.ndlStatus, n)] [.now, .ndls])) ∧
    (s.rd Obj.ptfStopOnFail n = 1 → f.site < 64 → s.busyNeedle n = true → (s.ndl n).bound = none →
      Next (.failFlag n) s (fun t => t.now = max s.now f.due ∧ t.ndlState n = 9 ∧ (t.status n F.ndlStatusFrogCause = 4 ∨
          (t.status n F.ndlStatusFrogCause = 1 ∧ (t.active Ev.ucodeParity = true ∨ t.active Ev.streamUnderrun = true))) ∧
        (t.ndl n).park = some (f.due + 6 * vclkFs) ∧ t.fld Obj.ptfSiteResult f.site F.ptfSiteResultStopped = 1 ∧
        t.srcPending Ev.ptfStopped = true ∧ t.srcPending Ev.ndlFrogged = true ∧ Keeps s t [] (withFaults [.cal, .freeCtr, .ndls, .now, .ras, .results, .tae, .trans, .wdpLost, .wdpTrace, .obj Obj.calNeedleAge,
        .obj Obj.clkSyncArm, .obj Obj.clkSyncStatus, .obj Obj.devMode, .obj Obj.devModeReason, .obj Obj.devModeStamp, .obj Obj.devPrevMode,
        .obj Obj.hmsLoad, .obj Obj.ndlCounts, .obj Obj.ndlJumpStatus, .obj Obj.ndlState, .obj Obj.ndlStatus, .obj Obj.ndlTraceStatus,
        .obj Obj.ptfSiteResult, .obj Obj.rasBufferState, .obj Obj.rasCommitPending, .obj Obj.rasLayerActive, .obj Obj.rasState,
        .obj Obj.rqpPoolStatus, .obj Obj.strCounts, .obj Obj.strNextSeq, .obj Obj.strState, .obj Obj.strUnderrun,
        .obj Obj.wdpTraceStatus])))) ∧
  (s.Quiet → (s.ndl n).flags = [] → Next (.failFlag n) s (fun t => t = s))

/-- R353, R347, R356, R360, R361, R359, R368, R370. -/
def Obligations.LogsAreKept : Prop :=
  ∀ s : State,
  (∀ (n : Nat) (e : FailEntry) (l : List FailEntry) (qn : Nat) (q : Queue), (s.ndl n).fifo = e :: l → s.flowQueue e.site = some qn → s.queue qn = some q →
    let q' := q.push (q.record 0x01 (failPayload e (s.sitePins e.site).length) s.now e.stitch (s.runOf q.flow) false)
    (s.fld Obj.rqpPoolStatus 0 F.rqpPoolStatusExhausted = 0 → q.gap.1 = 0 → q'.cells ≤ s.fld Obj.rqpPoolCfg 0 F.rqpPoolCfgQueueCells →
      q'.cells - q.cells ≤ s.freeCells →
      Next (.failLoggerDrain n) s (fun t => (t.ndl n).fifo = l ∧ t.queue qn = some q' ∧
        Keeps s t [(Obj.rqpPoolStatus, 0), (Obj.rqpSiteQueue, q.flow), (Obj.rqpNeedleQueue, q.flow - 64)] [.ndls, .queues])) ∧
    (s.fld Obj.rqpPoolStatus 0 F.rqpPoolStatusExhausted = 1 → q.flow < 64 →
      Next (.failLoggerDrain n) s (fun t => (t.ndl n).fifo = l ∧
        t.fld Obj.ptfSiteResult q.flow F.ptfSiteResultDropped = counted 48 (s.fld Obj.ptfSiteResult q.flow F.ptfSiteResultDropped) 1 ∧
        t.fld Obj.ptfSiteResult q.flow F.ptfSiteResultLogIncomplete = 1 ∧ Keeps s t [(Obj.rqpCounts, 0), (Obj.ptfSiteResult, q.flow)] (withSignals [.ndls, .queues])))) ∧
  (∀ n : Nat, (s.ndl n).fifo = [] → Next (.failLoggerDrain n) s (fun t => t = s)) ∧
  (∀ n d : Nat, (s.ndl n).final = some d → (s.ndl n).fifo = [] →
    Next (.resultsFinal n) s (fun t => t.now = max s.now d ∧ (t.ndl n).final = none ∧ (∀ i ∈ s.sitesOf n, t.fld Obj.ptfSiteResult i F.ptfSiteResultFinal = 1) ∧
      (s.ndlState n ≠ 9 → ∀ i < 64, t.fld Obj.ptfSiteResult i F.ptfSiteResultResult = s.fld Obj.ptfSiteResult i F.ptfSiteResultResult) ∧
      (∀ (i qn : Nat) (q : Queue), s.sitesOf n = [i] → s.flowQueue i = some qn → s.queue qn = some q →
        ∃ (q' : Queue) (r : PoolRec), t.queue qn = some q' ∧ q'.recs.getLast? = some r ∧ recType r.bytes = 0x02 ∧ r.t = max s.now d ∧ r.inEnd = true) ∧
      Keeps s t [] (withSignals [.now, .ndls, .queues, .obj Obj.ptfSiteResult, .obj Obj.rqpPoolStatus, .obj Obj.rqpSiteQueue, .obj Obj.rqpNeedleQueue]))) ∧
  (∀ n : Nat, (s.ndl n).final = none → Next (.resultsFinal n) s (fun t => t = s)) ∧
  (∀ (k d : Nat) (q : Queue), s.queue k = some q → s.postEdge q = some d → s.ready.length < 64512 →
    (q.posted = false ∨ ∀ i ∈ s.ready, i.flow ≠ q.flow) →
    Next (.queuePost k) s (fun t => t.now = max s.now d ∧ t.queue k = some { q with posted := true } ∧
      t.ready = s.ready ++ [⟨q.flow, s.flowPrio q.flow 0, if q.flow < 64 then 0x20 else if q.flow < 80 then 0x21 else 0x22 + (q.flow - 80), t.now⟩] ∧
      Keeps s t [] (withSignals [.now, .queues, .ready, .wdpTrace, .wdpLost, .obj Obj.wdpCounts, .obj Obj.wdpTraceStatus]))) ∧
  (∀ (k : Nat) (q : Queue), s.queue k = some q → (s.postEdge q = none ∨ (q.posted = true ∧ ∃ i ∈ s.ready, i.flow = q.flow)) →
    Next (.queuePost k) s (fun t => t = s)) ∧
  (∀ (k n : Nat) (q : Queue) (r : PoolRec) (l : List PoolRec), s.queue k = some q → q.recs = r :: l →
    (∀ y ∈ l, y.bytes ≠ []) → q.part < r.bytes.length → 0 < n → s.fcr.injLeft = 0 →
    let after := fun (recs : List PoolRec) (part : Nat) =>
      let q' := { q with recs := recs, part := part, released := (q.released + n) % 2 ^ 32 }
      some { q' with pos := (q.pos + (q.held - q'.held)) % 256 }
    (s.releasable q n = n → n < r.bytes.length - q.part → Next (.poolRelease k n) s (fun t => t.queue k = after (r :: l) (q.part + n) ∧
      Keeps s t [(Obj.rqpPoolStatus, 0), (Obj.rqpSiteQueue, q.flow), (Obj.rqpNeedleQueue, q.flow - 64)] (withSignals [.queues]))) ∧
    (s.releasable q n = n → n = r.bytes.length - q.part → r.bad = false → Next (.poolRelease k n) s (fun t =>
      t.queue k = after l 0 ∧ Keeps s t [] (withFaults [.images, .ndls, .queues, .sites, .obj Obj.ptfDlogStatus, .obj Obj.ptfSiteResult, .obj Obj.rqpCounts,
        .obj Obj.rqpNeedleQueue, .obj Obj.rqpPoolStatus, .obj Obj.rqpSiteQueue, .obj Obj.taeLastRecord]))) ∧
    (s.releasable q n = 0 → Next (.poolRelease k n) s (fun t => t = s))) ∧
  (∀ (n el : Nat) (x : Session) (r : ObjRow) (qn : Nat) (q : Queue), Takes (.rqpFlush n el) s n x r Obj.rqpFlush el 1 [el] (fun b t =>
    b.flowQueue el = some qn → b.queue qn = some q → (∀ c < 16, ∀ p, (b.core c).item = some p → p.1.flow ≠ el) →
    (∃ (q' : Queue) (p : PoolRec), t.queue qn = some q' ∧ q'.recs = [p] ∧ recType p.bytes = 0x05 ∧ q'.part = 0) ∧
      t.fld Obj.rqpCounts 0 ⟨96, 48⟩ = counted 48 (b.fld Obj.rqpCounts 0 ⟨96, 48⟩) 1 ∧
      t.fld Obj.ptfSiteResult el F.ptfSiteResultLogIncomplete = 1 ∧ t.fld Obj.ptfSiteResult el ⟨19, 1⟩ = 1 ∧
      t.out.getLast? = some (wrote n rOk 0xFFFF) ∧ Keeps b t [(Obj.rqpFlush, el), (Obj.ptfSiteResult, el)]
        (withSignals [.queues, .obj Obj.rqpCounts, .obj Obj.rqpPoolStatus, .obj Obj.rqpSiteQueue, .obj Obj.rqpNeedleQueue])))

/-- R325, R331, R602, R429. -/
def Obligations.LevelsAndSuppliesAreSet : Prop :=
  (∀ (s : State) (k : Nat) (f : LevelFrame) (l : List LevelFrame), s.levelFrames k = f :: l →
    (f.open' = false → Next (.levelFrameStart k) s (fun t => t.now = max s.now f.start ∧ t.levelFrames k = { f with open' := true } :: l ∧
      t.out = s.out ++ [.level k f.word (if s.domOn (k + 1) then 2 ^ f.dev else 0)] ∧ (∀ j, j ≠ k → t.levelFrames j = s.levelFrames j) ∧ Keeps s t [] [.now, .levelBus, .out])) ∧
    (f.open' = true → Next (.levelFrameStart k) s (fun t => t = s)) ∧
    (∀ miso : Nat, f.open' = true → Next (.levelFrameEnd k miso) s (fun t => t.now = max s.now (f.start + 33 * s.sclk k) ∧ t.levelFrames k = l ∧
      t.levelFree = Tbl.put (fun _ => 0) s.levelFree k (f.start + 35 * s.sclk k) ∧
      (∀ j, j ≠ k → t.levelFrames j = s.levelFrames j) ∧
      (f.host = true → t.fld Obj.lvlHostResult 0 F.lvlHostResultState = 2 ∧
        t.fld Obj.lvlCounts 0 F.lvlCountsHostFrames = counted 48 (s.fld Obj.lvlCounts 0 F.lvlCountsHostFrames) 1 ∧
        t.fld Obj.lvlHostResult 0 F.lvlHostResultReadValue =
          (if bit f.word 31 then miso % 2 ^ 16 else s.fld Obj.lvlHostResult 0 F.lvlHostResultReadValue) ∧
        Keeps s t [(Obj.lvlHostResult, 0), (Obj.lvlCounts, 0)] [.now, .levelBus, .levelFree]) ∧
      (f.host = false → t.fld Obj.lvlCounts 0 F.lvlCountsChartFrames = counted 48 (s.fld Obj.lvlCounts 0 F.lvlCountsChartFrames) 1 ∧
        Keeps s t [(Obj.lvlCounts, 0)] [.now, .levelBus, .levelFree]))) ∧
    (∀ miso : Nat, f.open' = false → Next (.levelFrameEnd k miso) s (fun t => t = s))) ∧
  (∀ (s : State) (k miso : Nat), s.levelFrames k = [] → Next (.levelFrameStart k) s (fun t => t = s) ∧ Next (.levelFrameEnd k miso) s (fun t => t = s)) ∧
  (∀ (s : State) (n pin reg v : Nat) (bc rd : Bool) (x : Session) (r : ObjRow), pin < 2 ^ 8 → reg < 2 ^ 8 → v < 2 ^ 16 → (rd = true → v = 0 ∧ bc = false) →
    let k := pin / 32
    Takes (if rd then .lvlHostRead n pin reg else .lvlHostWrite n pin reg v bc) s n x r Obj.lvlHostCmd 0
      (v + reg * 2 ^ 16 + pin * 2 ^ 24 + rd.toNat * 2 ^ 32 + bc.toNat * 2 ^ 33) [0] (fun b t =>
      let first := match (b.levelFrames k).getLast? with | some f => max b.now (f.start + 35 * b.sclk k) | none => max b.now (Tbl.get (fun _ => 0) b.levelFree k)
      (∃ start : Nat, first ≤ start ∧ (first ≤ b.now + 70 * b.sclk k → start ≤ b.now + 70 * b.sclk k) ∧ t.levelFrames k = b.levelFrames k ++
        [⟨start, levelWord v reg (if bc then 0 else pin % 32 % b.ppd k) bc rd, pin % 32 / b.ppd k, true, false⟩]) ∧
      t.fld Obj.lvlHostResult 0 F.lvlHostResultState = 1 ∧ (∀ j, j ≠ k → t.levelFrames j = b.levelFrames j) ∧ t.out = b.out ++ [wrote n rOk 0xFFFF] ∧
      Keeps b t [(Obj.lvlHostCmd, 0), (Obj.lvlHostResult, 0)] [.levelBus, .freeCtr, .out])) ∧
  (∀ (s : State) (e : SupplyEntry), e ∈ s.psm.supply → (∀ y ∈ s.psm.supply, y ≠ e → e.due < y.due) → e.loop < 24 → e.kind < 2 →
    let v := min (max e.value (s.supplyLimits e.loop e.kind).1) (s.supplyLimits e.loop e.kind).2
    let more := fun (t : State) (i : Nat) => t.fld Obj.splCounts e.loop ⟨48 * i, 48⟩ = counted 48 (s.fld Obj.splCounts e.loop ⟨48 * i, 48⟩) 1
    Next .supplyApply s (fun t => t.now = max s.now e.due ∧ t.psm.supply = s.psm.supply.erase e ∧
      (s.loopState e.loop = 3 → more t 3 ∧ Keeps s t [(Obj.splCounts, e.loop)] [.now, .psm]) ∧
      (s.loopState e.loop ≠ 3 → t.rd (kindObj e.kind) e.loop = ofSigned 32 v ∧ more t 2 ∧
        (v ≠ e.value → more t 1 ∧ t.srcPending Ev.splClamp = true) ∧
        Keeps s t [(kindObj e.kind, e.loop), (Obj.splCounts, e.loop)] (withSignals [.now, .psm, .loops])))) ∧
  (∀ s : State, s.psm.supply = [] → Next .supplyApply s (fun t => t = s)) ∧
  (∀ (s : State) (n el : Nat) (v : Bytes) (x : Session) (r : ObjRow) (els : List Nat), Accepts s n x r Obj.ptfGauge el v els →
    Effect (.gaugeWrite n el v) s n x r Obj.ptfGauge el v els (fun b t => (∀ p ∈ els, t.rd Obj.ptfGauge p = ofLE v ∧ t.rd Obj.calBase p = ofLE v ∧ (∀ q < 6, t.anchor p q = none) ∧
        t.rd Obj.ptfGaugeActive p = (if b.pinFree p then ofLE v else b.rd Obj.ptfGaugeActive p)) ∧
      (∀ p q, p ∉ els → q < 6 → t.anchor p q = b.anchor p q) ∧
      t.out = b.out ++ [wrote n rOk 0xFFFF] ∧
      Keeps b t (els.flatMap (fun p => [(Obj.ptfGauge, p), (Obj.calBase, p), (Obj.ptfGaugeActive, p), (Obj.calPinStatus, p), (Obj.calLastSwatch, p)])) [.cal, .out]))

/-- R396, R404 to R412, R414, R399, R400. -/
def Obligations.TriggersAreTaken : Prop :=
  (∀ (s : State) (n el : Nat) (x : Session) (r : ObjRow) (els : List Nat),
    (Takes (.taeArm n el) s n x r Obj.taeArm el 1 els (fun s t =>
      (∀ u ∈ els, s.taeState u = 0 ∨ s.taeState u = 4 → t.taeState u = 1 ∧ (t.unit u).rearm = some (s.now + 64 * vclkFs) ∧ (t.unit u).trig = none ∧
        (t.unit u).next = 0 ∧ (t.unit u).gen = (s.unit u).gen + 1 ∧ (t.unit u).events = 0 ∧ (t.unit u).missed = false ∧ (t.unit u).waiting = (s.unit u).waiting ∧
        ∀ y ∈ (t.unit u).records, y ∈ (s.unit u).records) ∧
      (∀ u ∈ els, s.taeState u ≠ 0 → s.taeState u ≠ 4 → t.taeState u = s.taeState u ∧ t.unit u = s.unit u) ∧
      (∀ u, u ∉ els → t.taeState u = s.taeState u ∧ t.unit u = s.unit u) ∧ t.out = s.out ++ [wrote n rOk 0xFFFF] ∧
      Keeps s t (els.flatMap (fun u => [(Obj.taeArm, u), (Obj.taeState, u)])) [.tae, .out])) ∧
    (Takes (.taeDisarm n el) s n x r Obj.taeArm el 0 els (fun s t =>
      (∀ u ∈ els, t.taeState u = 0 ∧ (t.unit u).rearm = none ∧ (t.unit u).trig = none ∧ (t.unit u).armedAt = none ∧ (t.unit u).waiting = (s.unit u).waiting ∧
        (t.unit u).records = (s.unit u).records) ∧
      (∀ u ∈ els, s.taeState u = 3 → els.Nodup → t.fld Obj.taeCounts u ⟨288, 48⟩ = counted 48 (s.fld Obj.taeCounts u ⟨288, 48⟩) 1) ∧
      (∀ u, u ∉ els → t.unit u = s.unit u) ∧ t.out = s.out ++ [wrote n rOk 0xFFFF] ∧
      Keeps s t (els.flatMap (fun u => [(Obj.taeArm, u), (Obj.taeState, u), (Obj.taeCounts, u)])) [.tae, .out])) ∧
    (els.Nodup → Takes (.force n el) s n x r Obj.taeForce el 1 els (fun s t =>
      let e := s.edgeAt vclkFs (s.now + 1)
      (∀ u ∈ els, t.unit u = { s.unit u with waiting := (s.unit u).waiting ++ [⟨e, e, 4⟩] }) ∧ (∀ u, u ∉ els → t.unit u = s.unit u) ∧
      t.out = s.out ++ [wrote n rOk 0xFFFF] ∧ Keeps s t (els.map (fun u => (Obj.taeForce, u))) [.tae, .out]))) ∧
  (∀ (s : State) (k d : Nat) (falling : Bool), s.now ≤ d →
    Next (.triginEdge k falling d) s (fun t =>
      let e := s.edgeBefore vclkFs d
      t.now = d ∧ (∀ u < 8, (t.unit u).waiting = (s.unit u).waiting ++
        (if s.taeEnabled u 0 = true ∧ s.fld Obj.taeTrigCfg u F.taeTrigCfgTrigin = k ∧ (s.fld Obj.taeTrigCfg u F.taeTrigCfgFalling = 1 ↔ falling = true)
          then [⟨e + 3 * vclkFs, if bit (s.rd Obj.taeTriginCfg 0) k then e + (d - e) / 250 * 250 else e, 0⟩] else [])) ∧
      (falling = false → ∀ m < 16, s.busyNeedle m = true →
        Tbl.get (fun _ => none) (t.ndl m).latches (512 + k) = some ((Tbl.get (fun _ => none) (s.ndl m).latches (512 + k)).getD (e + 3 * vclkFs))) ∧
      (falling = true → Keeps s t [] [.now, .tae]) ∧ Keeps s t [] [.now, .tae, .ndls, .evts])) ∧
  (∀ (s : State) (u : Nat), u < 8 →
    let x := s.unit u
    let st := s.taeState u
    let more := fun (t : State) (i : Nat) => t.fld Obj.taeCounts u ⟨48 * i, 48⟩ = counted 48 (s.fld Obj.taeCounts u ⟨48 * i, 48⟩) 1
    (∀ d : Nat, x.rearm = some d → Next (.rearmEnd u) s (fun t => t.now = max s.now d ∧ t.taeState u = 2 ∧
      t.unit u = { x with rearm := none, armedAt := some (max s.now d), events := 0 } ∧ (∀ v, v ≠ u → t.unit v = s.unit v) ∧
      Keeps s t [(Obj.taeState, u)] [.now, .tae])) ∧
    (x.rearm = none → Next (.rearmEnd u) s (fun t => t = s)) ∧
    (∀ (g : Trig) (l : List Trig), x.waiting = g :: l → (∀ c ∈ l, g.edge < c.edge) → s.taeExpiry u ≠ some g.edge → (g.src = 1 → s.taeEnabled u 1 = true) →
      (st = 2 → s.taePaused = false → (4 ≤ g.src ∨ s.fld Obj.taeTrigCfg u F.taeTrigCfgCount ≤ x.events + 1) →
        Next (.triggerStamp u) s (fun t => t.now = max s.now g.edge ∧ t.taeState u = 3 ∧ (t.unit u).trig = some g ∧ (t.unit u).waiting = l ∧
          (4 ≤ g.src → more t 4) ∧ (x.replaces = true → more t 5) ∧ Keeps s t [(Obj.taeState, u), (Obj.taeCounts, u)] [.now, .tae])) ∧
      (st = 2 → s.taePaused = false → g.src < 4 → x.events + 1 < s.fld Obj.taeTrigCfg u F.taeTrigCfgCount →
        Next (.triggerStamp u) s (fun t => t.now = max s.now g.edge ∧ t.unit u = { x with waiting := l, events := x.events + 1 } ∧ Keeps s t [] [.now, .tae])) ∧
      (st = 1 → s.taePaused = false → Next (.triggerStamp u) s (fun t => t.now = max s.now g.edge ∧ more t 1 ∧ (t.unit u).waiting = l ∧ (t.unit u).missed = true ∧
        (x.missed = false → t.srcPending Ev.taeMissed = true) ∧ Keeps s t [(Obj.taeCounts, u)] (withSignals [.now, .tae]))) ∧
      ((st = 0 ∨ st = 4) → Next (.triggerStamp u) s (fun t => t.now = max s.now g.edge ∧ more t 3 ∧ t.unit u = { x with waiting := l } ∧
        Keeps s t [(Obj.taeCounts, u)] [.now, .tae]))) ∧
    (x.waiting = [] → Next (.triggerStamp u) s (fun t => t = s)) ∧
    (∀ a : Nat, x.armedAt = some a → s.fld Obj.taeTrigCfg u F.taeTrigCfgMode = 2 → st = 2 → s.taePaused = false →
      let e := s.edgeAt vclkFs (a + s.rd Obj.taeTimeout u)
      (∀ g ∈ x.waiting, g.edge ≠ e) →
      Next (.taeTimeout u) s (fun t => t.now = max s.now e ∧ t.taeState u = 3 ∧ (t.unit u).trig = some ⟨e, e, 5⟩ ∧ (t.unit u).armedAt = none ∧ more t 4 ∧
        Keeps s t [(Obj.taeState, u), (Obj.taeCounts, u)] [.now, .tae])) ∧
    (x.armedAt = none ∨ s.fld Obj.taeTrigCfg u F.taeTrigCfgMode ≠ 2 → Next (.taeTimeout u) s (fun t => t = s)) ∧
    (∀ (g : Trig) (changes : Changes) (js : List Nat) (pre skipped : Nat), x.trig = some g → s.recordSamples u g = some (js, pre, skipped) →
      let d := s.edgeAt vclkFs (s.clk.epoch + js.getLastD 0 * s.taeTs u)
      let e := s.edgeAt vclkFs (s.clk.epoch + js.getLastD 0 * s.taeTs u + 1)
      let single := s.fld Obj.taeTrigCfg u F.taeTrigCfgMode = 0
      let rec1 : TaeRecord := ⟨x.gen, x.next, s.taeSlot u, s.taeSpan u, skipped % max 1 (s.taeSpan u), js.length⟩
      Next (.recordComplete u changes) s (fun t => t.now = (if single then max s.now d else max (max s.now d) e) ∧ t.taeState u = (if single then 4 else 1) ∧
        (t.unit u).trig = none ∧ (t.unit u).next = (x.next + 1) % 2 ^ 32 ∧ more t 0 ∧
        (single → (t.unit u).records = x.records ++ [rec1]) ∧ (¬ single → (t.unit u).rearm = some (e + 64 * vclkFs)) ∧
        (s.taeBase u = none ∨ s.hbmWritable = false → t.mem = s.mem) ∧
        (∀ base a : Nat, s.taeBase u = some base → (∀ k < js.length, a < s.ringAt u base rec1.slot rec1.span (rec1.first + k) ∨
          s.ringAt u base rec1.slot rec1.span (rec1.first + k) + s.taeWidth u / 8 ≤ a) → Memory.read t.mem a = Memory.read s.mem a) ∧
        (∀ (qn : Nat) (q : Queue), s.flowQueue (80 + u) = some qn → s.queue qn = some q → s.fld Obj.rqpPoolStatus 0 F.rqpPoolStatusExhausted = 0 → q.gap.1 = 0 →
          let h := s.trigRecord u q.seq pre (s.spansHold u js) g
          let q' := q.push (q.record 0x10 (h.drop 8) (max s.now d) x.next (s.runOf q.flow) false)
          q'.cells ≤ s.fld Obj.rqpPoolCfg 0 F.rqpPoolCfgQueueCells → q'.cells - q.cells ≤ s.freeCells → t.queue qn = some q') ∧
        Keeps s t [] (withSignals [.freeCtr, .mem, .now, .queues, .tae, .obj Obj.ptfSiteResult, .obj Obj.rqpCounts, .obj Obj.rqpNeedleQueue,
        .obj Obj.rqpPoolStatus, .obj Obj.rqpSiteQueue, .obj Obj.taeCounts, .obj Obj.taeState]))) ∧
    (∀ changes : Changes, x.trig = none → Next (.recordComplete u changes) s (fun t => t = s)))

/-- R423 to R434, R441, R447 to R449. -/
def Obligations.CalibrationFollowsItsSwatches : Prop :=
  (∀ (s : State) (k : Nat) (v : Int), k < 8 → s.calOn = true →
    let x := s.calBank k
    let p := 32 * k + x.pin
    let d := max s.now x.ready
    s.rd Obj.ptfPinState p = 2 → x.q < 6 →
    (x.samples.length < 127 → (x.samples ≠ [] ∨ s.swatchOk k x.pin x.q = true) → Next (.calSample k v) s (fun t => t.now = d ∧
      t.calBank k = { x with samples := x.samples ++ [v], first := (if x.samples = [] then d else x.first), ready := s.edgeAt vclkFs d + 16 * vclkFs } ∧
      (∀ j, j ≠ k → t.calBank j = s.calBank j) ∧ t.rd Obj.calRejects 0 = s.rd Obj.calRejects 0 ∧ Keeps s t [(Obj.calCounts, 0)] [.now, .cal])) ∧
    (x.samples.length = 127 →
      let l := x.samples ++ [v]
      let sum : Int := l.foldl (· + ·) 0
      let ended := fun (t : State) (o : Nat) => t.now = d ∧ (t.calBank k).samples = [] ∧ t.fld Obj.calLastSwatch p F.calLastSwatchOutcome = o ∧
        (o ≠ 1 → t.rd Obj.ptfGauge p = s.rd Obj.ptfGauge p) ∧ (o ≠ 3 → t.anchor p x.q = s.anchor p x.q) ∧
        t.fld Obj.calRejects 0 ⟨0, 48⟩ = (if o = 4 ∨ o = 5 ∨ o = 6 then counted 48 (s.fld Obj.calRejects 0 ⟨0, 48⟩) 1 else s.fld Obj.calRejects 0 ⟨0, 48⟩) ∧
        Keeps s t [(Obj.ptfGauge, p), (Obj.calLastSwatch, p), (Obj.calPinStatus, p), (Obj.calCounts, 0), (Obj.calRejects, 0)] (withFaults [.now, .cal, .freeCtr])
      let w := (Tbl.get (fun _ => none) s.cal.host p).filter (fun w => s.sameFclk w.t d)
      let anchor := w.elim (s.anchor p x.q) (fun g => (g.anchors[x.q]?).join)
      let base := w.elim (s.gaugeOf Obj.calBase p x.q) (fun g => toSigned 16 (Fld.get (gaugeFld x.q) g.base))
      let committed := w.elim (s.gaugeOf Obj.ptfGauge p x.q) (fun g => toSigned 16 (Fld.get (gaugeFld x.q) g.gauge))
      (2 ^ 21 ≤ spreadSum l → Next (.calSample k v) s (fun t => ended t 4)) ∧
      (spreadSum l < 2 ^ 21 → anchor = none → Next (.calSample k v) s (fun t => ended t 3 ∧ t.anchor p x.q = some sum)) ∧
      (∀ a : Int, spreadSum l < 2 ^ 21 → anchor = some a →
        let c := base - roundDiv (sum - a) 256
        let far := s.rd Obj.calAbsLimit 0 < (c - s.gaugeOf Obj.ptfGaugeFactory p x.q).natAbs ∨ 2000 < c.natAbs
        let step := s.rd Obj.calStepLimit 0 < (c - s.gaugeOf Obj.ptfGaugeActive p x.q).natAbs
        (far → Next (.calSample k v) s (fun t => ended t 5)) ∧ (¬ far → step → Next (.calSample k v) s (fun t => ended t 6)) ∧
        (¬ far → ¬ step → c = committed → Next (.calSample k v) s (fun t => ended t 2)) ∧
        (¬ far → ¬ step → c ≠ committed → w ≠ none → Next (.calSample k v) s (fun t => ended t 8)) ∧
        (¬ far → ¬ step → c ≠ committed → w = none →
          Next (.calSample k v) s (fun t => ended t 1 ∧ t.gaugeOf Obj.ptfGauge p x.q = c ∧
            ∀ q < 6, q ≠ x.q → t.gaugeOf Obj.ptfGauge p q = s.gaugeOf Obj.ptfGauge p q)))) ∧
    (x.samples ≠ [] → Next (.swatchTimeout k) s (fun t => t.now = max s.now (x.first + s.rd Obj.calSwatchTimeout 0) ∧ (t.calBank k).samples = [] ∧
      t.fld Obj.calLastSwatch p F.calLastSwatchOutcome = 7 ∧ t.fld Obj.calCounts 0 ⟨96, 48⟩ = counted 48 (s.fld Obj.calCounts 0 ⟨96, 48⟩) 1 ∧
      Keeps s t [(Obj.calLastSwatch, p), (Obj.calCounts, 0)] [.now, .cal, .freeCtr]))) ∧
  (∀ (s : State) (k : Nat) (v : Int), s.calOn = false → ∀ i ∈ [Instr.calSample k v, .swatchTimeout k],
    Next i s (fun t => (∀ j, (t.calBank j).samples = []) ∧ (∀ j, (t.calBank j).ready = (s.calBank j).ready) ∧ Keeps s t [] [.cal])) ∧
  (∀ (s : State) (n d : Nat), (s.ndl n).ageFrom = some d → s.fld Obj.calNeedleAge n F.calNeedleAgeAged = 0 →
    Next (.calAged n) s (fun t => t.now = max s.now (d + s.rd Obj.calMaxAge 0 + 1) ∧ t.fld Obj.calNeedleAge n F.calNeedleAgeAged = 1 ∧
      t.srcPending Ev.calAged = true ∧ Keeps s t [(Obj.calNeedleAge, n)] (withSignals [.now]))) ∧
  (∀ (s : State) (n : Nat), (s.ndl n).ageFrom = none ∨ s.fld Obj.calNeedleAge n F.calNeedleAgeAged = 1 → Next (.calAged n) s (fun t => t = s)) ∧
  (∀ (s : State) (res : CalResults) (d : Nat), s.cal.full = some d →
    let ph := s.fld Obj.calFullStatus 0 F.calFullStatusPhase
    (ph < 3 → Next (.fullCalPhase res) s (fun t => t.now = max s.now (d + phaseEnd ph) ∧ t.fld Obj.calFullStatus 0 F.calFullStatusPhase = ph + 1 ∧
      t.cal.found = s.cal.found ++ (if ph = 0 then [] else res) ∧ t.cal.full = s.cal.full ∧ Keeps s t [(Obj.calFullStatus, 0)] [.cal, .now, .out, .pins])) ∧
    (ph = 3 → Next (.fullCalPhase res) s (fun t => t.now = max s.now (d + 180 * msFs) ∧ t.mode = .idle ∧ t.rd Obj.devPrevMode 0 = 9 ∧
      t.rd Obj.devModeReason 0 = 6 ∧ t.trans = none ∧ t.cal.full = none ∧ t.srcPending Ev.calFullDone = true ∧
      (∀ p < 256,
        let chosen := bit (s.fld Obj.calFullCfg 0 F.calFullCfgBanks) (p / 32) = true
        (¬ chosen → t.rd Obj.calFullPin p = 0 ∧ t.rd Obj.ptfGauge p = s.rd Obj.ptfGauge p) ∧
        (∀ q : Nat, chosen → (s.fullQuants p).find? (fun q => s.fullCheck p q != 0) = some q →
          t.rd Obj.calFullPin p = s.fullCheck p q + q * 2 ^ 8 ∧ t.rd Obj.ptfGauge p = s.rd Obj.ptfGauge p ∧ t.rd Obj.calBase p = s.rd Obj.calBase p) ∧
        (chosen → (∀ q ∈ s.fullQuants p, s.fullCheck p q = 0) → t.rd Obj.calFullPin p = 1 ∧ t.rd Obj.calBase p = t.rd Obj.ptfGauge p ∧
          ∀ q ∈ s.fullQuants p, ∀ y, calFound s.cal.found p q = some y → t.gaugeOf Obj.ptfGauge p q = y.1 ∧ t.anchor p q = some y.2.1)) ∧
      Keeps s t [] (withSignals [.cal, .now, .pins, .trans, .obj Obj.calBase, .obj Obj.calCount, .obj Obj.calFullPin, .obj Obj.calFullStatus,
        .obj Obj.calLastTime, .obj Obj.calPinStatus, .obj Obj.clkSyncArm, .obj Obj.clkSyncStatus, .obj Obj.devMode, .obj Obj.devModeReason,
        .obj Obj.devModeStamp, .obj Obj.devPrevMode, .obj Obj.hmsLoad, .obj Obj.ptfGauge, .obj Obj.ptfGaugeActive,
        .obj Obj.rqpPoolStatus])))) ∧
  (∀ (s : State) (res : CalResults), s.cal.full = none → Next (.fullCalPhase res) s (fun t => t = s))

/-- R459, R460, R467, R470 to R473. -/
def Obligations.IntervalsAreMeasured : Prop :=
  (∀ (s : State) (n el : Nat) (x : Session) (r : ObjRow) (els : List Nat),
    (Takes (.tmuStart n el) s n x r Obj.tmuCtrl el 1 els (fun s t =>
      (∀ d ∈ els, s.tmuState d ≠ 7 → t.tmuState d = 1 ∧ t.rd Obj.tmuResult d = s.fld Obj.tmuCfg d F.tmuCfgMode ∧ t.rd Obj.tmuCounts d = 0 ∧
        (t.tdcOf d).samples = [] ∧ (t.tdcOf d).from' = none ∧ (t.tdcOf d).since = s.now) ∧
      (∀ d ∈ els, s.tmuState d = 7 → t.tmuState d = 7 ∧ t.tdcOf d = s.tdcOf d ∧ t.rd Obj.tmuResult d = s.rd Obj.tmuResult d) ∧
      (∀ d, d ∉ els → t.tdcOf d = s.tdcOf d) ∧ t.out = s.out ++ [wrote n rOk 0xFFFF] ∧
      Keeps s t (els.flatMap (fun d => [(Obj.tmuCtrl, d), (Obj.tmuState, d), (Obj.tmuResult, d), (Obj.tmuCounts, d)])) [.tdc, .freeCtr, .out])) ∧
    (Takes (.tmuStop n el) s n x r Obj.tmuCtrl el 0 els (fun s t =>
      (∀ d ∈ els, s.tmuState d = 1 → t.tmuState d = 3 ∧ t.fld Obj.tmuResult d F.tmuResultStamp = s.stamp ∧ t.srcPending Ev.tmuDone = true) ∧
      (∀ d ∈ els, s.tmuState d ≠ 1 → t.tmuState d = s.tmuState d ∧ t.rd Obj.tmuResult d = s.rd Obj.tmuResult d) ∧
      t.out.getLast? = some (wrote n rOk 0xFFFF) ∧
      Keeps s t (els.flatMap (fun d => [(Obj.tmuCtrl, d), (Obj.tmuState, d), (Obj.tmuResult, d)])) signalParts))) ∧
  (∀ (s : State) (d source g : Nat) (falling : Bool), s.now ≤ g →
    let run := fun (p : State → Prop) => Next (.tdcStamp d source falling g) s p
    let x := s.tdcOf d
    let c := s.rd Obj.tmuCfg d
    let a := qualifies (Fld.get F.tmuCfgSrcA c) (Fld.get F.tmuCfgEdgeA c) source falling
    let st := s.stampFs g
    let more := fun (t : State) (i : Nat) => t.fld Obj.tmuCounts d ⟨48 * i, 48⟩ = counted 48 (s.fld Obj.tmuCounts d ⟨48 * i, 48⟩) 1
    let sampled := fun (t : State) => let k := counted 48 (s.fld Obj.tmuResult d F.tmuResultN) 1
      t.now = g ∧ t.fld Obj.tmuResult d F.tmuResultN = k ∧
      (s.rd Obj.tmuCount d ≠ 0 ∧ s.rd Obj.tmuCount d ≤ k → t.tmuState d = 2 ∧ t.srcPending Ev.tmuDone = true) ∧
      (s.rd Obj.tmuCount d = 0 ∨ k < s.rd Obj.tmuCount d → t.tmuState d = 1) ∧
      Keeps s t [(Obj.tmuResult, d), (Obj.tmuCounts, d), (Obj.tmuState, d)] (withSignals [.now, .tdc])
    (s.tmuState d ≠ 1 ∨ s.tapped source = false → run (fun t => t.now = g ∧ Keeps s t [] [.now])) ∧
    (s.tmuState d = 1 → d < 32 → s.tapped source = true → Fld.get F.tmuCfgMode c = 0 → a = true →
      (x.readyA ≤ g → run (fun t => sampled t ∧ more t 0 ∧ (t.tdcOf d).stamps = lastN 4096 (x.stamps ++ [⟨st, false, falling⟩]) ∧
        (t.tdcOf d).readyA = s.edgeAt vclkFs g + 16 * vclkFs ∧ (t.tdcOf d).since = g)) ∧
      (g < x.readyA → run (fun t => t.now = g ∧ more t 1 ∧ (t.tdcOf d).stamps = x.stamps ∧ Keeps s t [(Obj.tmuCounts, d)] [.now, .tdc]))) ∧
    (∀ p : Nat, s.tmuState d = 1 → d < 32 → s.tapped source = true → Fld.get F.tmuCfgMode c = 1 → a = false →
      qualifies (Fld.get F.tmuCfgSrcB c) (Fld.get F.tmuCfgEdgeB c) source falling = true → x.readyB ≤ g → x.from' = some p → p + s.rd Obj.tmuHoldoff d ≤ st →
      run (fun t => sampled t ∧ more t 0 ∧ (t.tdcOf d).samples = (((st : Int) - p, 1000) :: x.samples) ∧ (t.tdcOf d).from' = none ∧ (t.tdcOf d).since = g))) ∧
  (∀ s : State, ∀ d g : Nat,
    let x := s.tdcOf d
    let out := fun (t : State) => t.tmuState d = 4 ∧ t.srcPending Ev.tmuDone = true ∧ Keeps s t [(Obj.tmuState, d), (Obj.tmuResult, d)] (withSignals [.now, .tdc])
    (∀ o : Nat, s.tmuState d = 1 → s.fld Obj.tmuCfg d F.tmuCfgMode = 3 → x.gate = some o → o < g →
      (∀ a b : Nat, x.first = some a → x.last = some b → a < b → s.fld Obj.tmuCfg d F.tmuCfgTimebase = 0 →
        Next (.gateClose d g) s (fun t => t.now = max s.now g ∧ (t.tdcOf d).gate = some g ∧ (t.tdcOf d).first = none ∧ (t.tdcOf d).last = none ∧
          (t.tdcOf d).edges = 0 ∧ (t.tdcOf d).samples = ((x.edges : Int) * secFs, b - a) :: x.samples ∧
          t.fld Obj.tmuResult d F.tmuResultN = counted 48 (s.fld Obj.tmuResult d F.tmuResultN) 1 ∧
          Keeps s t [(Obj.tmuResult, d), (Obj.tmuState, d)] (withSignals [.now, .tdc]))) ∧
      (x.first = none ∨ x.last = none → Next (.gateClose d g) s (fun t => t.now = max s.now g ∧ out t))) ∧
    (s.tmuState d ≠ 1 ∨ s.fld Obj.tmuCfg d F.tmuCfgMode ≠ 3 ∨ x.gate = none ∨ (∃ o, x.gate = some o ∧ g ≤ o) → Next (.gateClose d g) s (fun t => t = s)) ∧
    (s.tmuState d = 1 → Next (.tmuTimeout d) s (fun t => t.now = max s.now (x.since + s.rd Obj.tmuTimeout d) ∧ out t)) ∧
    (s.tmuState d ≠ 1 → Next (.tmuTimeout d) s (fun t => t = s)))

/-- R518, R522, R524, R526, R528, R530 to R533, R535, R536, R538; the real-time request that a best-effort one holds back waits for it (notes/assumptions/66.md). -/
def Obligations.MemoryIsServedAndRefreshed : Prop :=
  ∀ s : State,
  let more := fun (t : State) (i n : Nat) => t.fld Obj.hmsCounts 0 ⟨48 * i, 48⟩ = counted 48 (s.fld Obj.hmsCounts 0 ⟨48 * i, 48⟩) n
  (s.hms.waiting = [] → ∀ (r : Request) (e : Nat), addrOk (r.addr + (r.data.length - 1)) = true → r.data ≠ [] →
    let k := addrStack r.addr
    let pc := addrPc r.addr
    let at' := fun (t : State) (i : Nat) => Memory.read t.mem (r.addr + i)
    let stored := fun (t : State) => t.hms.waiting = [] ∧ (∀ i < r.data.length, at' t i = r.data.getD i 0#8) ∧
      ∀ c, (c < r.addr ∨ r.addr + r.data.length ≤ c) → Memory.read t.mem c = Memory.read s.mem c
    let answered := fun (t : State) => t.hms.waiting = [] ∧ t.mem = s.mem ∧ ∃ d, s.now + 96 * vclkFs ≤ d ∧
      t.out.getLast? = some (.memory d r.master r.addr ((List.range r.data.length).map (at' s)))
    (r.write = true → s.stack k = 2 → Next (.memoryRequest pc r.master r.write r.addr r.data e) s (fun t => stored t ∧ t.now = s.now ∧ Keeps s t [(Obj.hmsLoad, 0), (Obj.hmsCounts, 0)] [.hms, .freeCtr, .mem])) ∧
    (r.write = true → s.stack k = 3 → Next (.memoryRequest pc r.master r.write r.addr r.data e) s (fun t => stored t ∧ t.stack k = 2 ∧
      t.fld Obj.hmsSrLate 0 F.hmsSrLateCount = counted 48 (s.fld Obj.hmsSrLate 0 F.hmsSrLateCount) 1)) ∧
    (s.stack k ≠ 2 → s.stack k ≠ 3 → ∀ c, Next (.memoryRequest c r.master r.write r.addr r.data e) s (fun t => t.mem = s.mem ∧ t.hms.waiting = [] ∧ Keeps s t [] [.hms])) ∧
    (s.stack k = 2 → ∀ c, c ≠ pc → Next (.memoryRequest c r.master r.write r.addr r.data e) s (fun t => t.hms.waiting = [(r, s.now)] ∧ t.mem = s.mem ∧ Keeps s t [] [.hms])) ∧
    (r.write = false → s.stack k = 2 → s.fcr.injLeft = 0 → (realTime r.master = true → s.hms.winBytes ≤ 1254400) →
      (e = 0 → Next (.memoryRequest pc r.master r.write r.addr r.data e) s (fun t => answered t ∧ Keeps s t [(Obj.hmsLoad, 0), (Obj.hmsCounts, 0)] [.hms, .freeCtr, .out])) ∧
      (e = 1 → Next (.memoryRequest pc r.master r.write r.addr r.data e) s (fun t => answered t ∧ more t 3 1 ∧ Raised t Ev.hmsEccC ∧
        Keeps s t [(Obj.hmsLoad, 0), (Obj.hmsCounts, 0)] (withFaults [.hms, .freeCtr]))) ∧
      (2 ≤ e → Next (.memoryRequest pc r.master r.write r.addr r.data e) s (fun t => t.hms.waiting = [] ∧ t.mem = s.mem ∧ more t 4 1 ∧ Raised t Ev.hmsEccU ∧
        Keeps s t [(Obj.hmsLoad, 0), (Obj.hmsCounts, 0)] (withFaults [.hms, .freeCtr]))))) ∧
  (∀ (b r : Request) (t1 t2 : Nat), s.hms.waiting = [(b, t1), (r, t2)] → addrPc b.addr = addrPc r.addr → realTime b.master = false → realTime r.master = true →
    s.fcr.injLeft = 0 → Next (.memoryRequest (addrPc r.addr) 0 false 0 [] 0) s (fun t => t.hms.waiting = (if s.behind b r = true then [(r, t2)] else [(b, t1)]))) ∧
  (∀ (pc : Nat) (temp : Int), pc < 64 → s.stack (pc / 32) = 2 →
    Next (.refreshInterval pc temp) s (fun t =>
      t.now = max s.now (Tbl.get (fun _ => 0) s.hms.boundary pc + s.trefi pc * vclkFs) ∧ Tbl.get (fun _ => 0) t.hms.boundary pc = t.now ∧
      Tbl.get (fun _ => false) t.hms.short pc = decide (85 < temp) ∧ Tbl.get (fun _ => false) t.hms.busy pc = false ∧
      Tbl.get (fun _ => 0) t.hms.deficit pc ≤ 8 ∧
      t.fldS Obj.hmsState 0 ⟨16 + 8 * (pc / 32), 8⟩ = clampSigned 8 temp ∧
      (Tbl.get (fun _ => false) s.hms.busy pc = false → (∀ x ∈ s.hms.waiting, addrPc x.1.addr ≠ pc ∨ realTime x.1.master = false) →
        Tbl.get (fun _ => 0) t.hms.deficit pc = 0 ∧ more t 0 (Tbl.get (fun _ => 0) s.hms.deficit pc)) ∧
      (85 < temp → s.fldS Obj.hmsState 0 ⟨16 + 8 * (pc / 32), 8⟩ ≤ 85 → t.srcPending Ev.hmsHot = true) ∧
      (∀ j, j ≠ pc → Tbl.get (fun _ => 0) t.hms.deficit j = Tbl.get (fun _ => 0) s.hms.deficit j) ∧
      Keeps s t [(Obj.hmsState, 0), (Obj.hmsCounts, 0)] (withSignals [.now, .hms, .freeCtr]))) ∧
  (∀ (pc : Nat) (temp : Int), s.stack (pc / 32) ≠ 2 → Next (.refreshInterval pc temp) s (fun t => t = s)) ∧
  (∀ pc : Nat, let d := Tbl.get (fun _ => 0) s.hms.deficit pc
    (8 ≤ d → s.stack (pc / 32) = 2 → Next (.forcedRefresh pc) s (fun t => Tbl.get (fun _ => 0) t.hms.deficit pc = d - 1 ∧ more t 1 1 ∧ Keeps s t [(Obj.hmsCounts, 0)] [.hms])) ∧
    (d < 8 ∨ s.stack (pc / 32) ≠ 2 → Next (.forcedRefresh pc) s (fun t => t = s))) ∧
  (∀ pc bank : Nat, (∀ x, Tbl.get (fun _ => none) s.hms.near (pc * 48 + bank) = some x → s.holdsRead pc = false →
      Next (.neighbourRefresh pc bank) s (fun t => t.now = max s.now (x.2 + 1024 * vclkFs) ∧
        Tbl.get (fun _ => none) t.hms.near (pc * 48 + bank) = none ∧ more t 2 1 ∧ Keeps s t [(Obj.hmsCounts, 0)] [.now, .hms])) ∧
    (Tbl.get (fun _ => none) s.hms.near (pc * 48 + bank) = none ∨ s.holdsRead pc = true → Next (.neighbourRefresh pc bank) s (fun t => t = s))) ∧
  (∀ k : Nat, k < 2 →
    let idle := ∀ x ∈ s.hms.waiting, addrStack x.1.addr ≠ k
    (s.autoSelfRefresh = true → s.stack k = 2 → idle → Next (.selfRefreshEntry k) s (fun t =>
      t.now = max s.now (Tbl.get (fun _ => 0) s.hms.lastReq k + s.fld Obj.hmsSrCfg 0 F.hmsSrCfgIdle * usFs) ∧ t.stack k = 3 ∧
      t.stack (1 - k) = s.stack (1 - k) ∧ more t 5 1)) ∧
    (s.autoSelfRefresh = false ∨ s.stack k ≠ 2 ∨ ¬ idle → Next (.selfRefreshEntry k) s (fun t => t = s))) ∧
  (∀ a e : Nat, addrOk a = true →
    let live := s.fld Obj.hmsScrubCfg 0 F.hmsScrubCfgEnable ≠ 0 ∧ s.stack (addrStack a) = 2
    (live → s.fcr.injLeft = 0 →
      (e = 0 → Next (.scrub a e) s (fun t => t = s)) ∧
      (e = 1 → Next (.scrub a e) s (fun t => t.mem = s.mem ∧ more t 3 1 ∧ Raised t Ev.hmsEccC ∧ Keeps s t [(Obj.hmsCounts, 0)] faultParts)) ∧
      (2 ≤ e → Next (.scrub a e) s (fun t => t.mem = s.mem ∧ more t 4 1 ∧ Raised t Ev.hmsEccU ∧ Keeps s t [(Obj.hmsCounts, 0)] faultParts))) ∧
    (¬ live → Next (.scrub a e) s (fun t => t = s)))

/-- R552, R562, R563, R565, R566. -/
def Obligations.LayersAreCommittedAndReleased : Prop :=
  (∀ (s : State) (i d : Nat) (falling : Bool), s.now ≤ d →
    let c := s.rd Obj.rasStreamCfg i
    let hit := Fld.get F.rasStreamCfgLock c = 1 ∧ (Fld.get F.rasStreamCfgPolarity c = 1 ↔ falling = true)
    Next (.rasSyncEdge i falling d) s (fun t => t.now = d ∧
      (hit → t.stream i = { s.stream i with syncs :=
        (if (s.stream i).on then (s.stream i).syncs else (s.stream i).syncs.filter (fun a => decide (d ≤ a))) ++ [s.edgeBefore vclkFs d + 3 * vclkFs] } ∧
        (∀ j, j ≠ i → t.stream j = s.stream j) ∧ Keeps s t [] [.now, .ras]) ∧
      (¬ hit → Keeps s t [] [.now]))) ∧
  (∀ (s : State) (n i : Nat) (x : Session) (r : ObjRow), i < 2 → Takes (.commit n i) s n x r Obj.rasCommit i 1 [i] (fun s t => t.out = s.out ++ [wrote n rOk 0xFFFF] ∧ (∀ j, j ≠ i → t.stream j = s.stream j) ∧
      ((s.stream i).on = true → t.rd Obj.rasCommitPending i = 1 ∧ t.stream i = { s.stream i with commitAt := s.now } ∧
        (∀ l ∈ layersOf i, t.rd Obj.rasLayerActive l = s.rd Obj.rasLayerActive l) ∧
        ∀ l ∈ layersOf i, ∀ k < 4, s.shows Obj.rasLayerShadow l k = true → s.bufferState l k = 2 → t.bufferState l k = 3) ∧
      ((s.stream i).on = false → t.rd Obj.rasCommitPending i = 0 ∧ (t.stream i).flip = true ∧ (t.stream i).commitAt = s.now ∧
        ∀ l ∈ layersOf i, t.rd Obj.rasLayerActive l = s.rd Obj.rasLayerShadow l ∧
          ∀ k < 4, s.shows Obj.rasLayerShadow l k = true → s.bufferState l k = 2 → t.bufferState l k = 3) ∧
      Keeps s t ([(Obj.rasCommit, i), (Obj.rasCommitPending, i)] ++ (layersOf i).map (fun l => (Obj.rasLayerActive, l)) ++
        (buffersOf i).map (fun p => (Obj.rasBufferState, bufEl p.1 p.2))) [.ras, .out])) ∧
  (∀ (s : State) (n el : Nat) (x : Session) (r : ObjRow), Takes (.bufferRelease n el) s n x r Obj.rasBufferRelease el 1 [el] (fun s t =>
      let held := s.attached (el / 256) (el % 256) = true
      t.out = s.out ++ [wrote n rOk 0xFFFF] ∧
      (held → t.rd Obj.rasBufferState el = 4 ∧ t.img Obj.rasBuffer el = s.img Obj.rasBuffer el) ∧
      (¬ held → t.rd Obj.rasBufferState el = 0 ∧ t.img Obj.rasBuffer el = [] ∧ ∀ id y, s.writing Obj.rasBuffer el = some (id, y) → t.xfer id = none) ∧
      (∀ k, k ≠ el → t.img Obj.rasBuffer k = s.img Obj.rasBuffer k) ∧
      Keeps s t [(Obj.rasBufferRelease, el), (Obj.rasBufferState, el)] [.images, .poa, .out]))

/-- R581, R583, R600. -/
def Obligations.DomainsAndLoopsSwitch : Prop :=
  (∀ (s : State) (n v : Nat) (x : Session) (r : ObjRow), Takes (.domainReq n v) s n x r Obj.psmDomainReq 0 v [0] (fun s t =>
      let old := s.rd Obj.psmDomainReq 0
      t.rd Obj.psmDomainReq 0 = v ∧
      (∀ d ∈ allDomains,
        (bit old d = false → bit v d = true → t.domain d = 1 ∧ Tbl.get (fun _ => none) t.psm.domDue d = some (s.now + domainTime d)) ∧
        (bit old d = true → bit v d = false → t.domain d = 3) ∧ (bit old d = bit v d → t.domain d = s.domain d)) ∧
      (∀ k < 2, bit old (11 + k) = false → bit v (11 + k) = true → t.stack k = 1) ∧
      (∀ k < 2, ∀ c < 8, bit old (16 + k) = false → bit v (16 + k) = true → t.coreState (8 * k + c) = 1) ∧
      t.out = s.out ++ [wrote n rOk 0xFFFF] ∧ Keeps s t [(Obj.psmDomainReq, 0), (Obj.psmDomainState, 0), (Obj.hmsState, 0)] [.psm, .out, .obj Obj.cccState])) ∧
  (∀ (s : State) (pd : Nat) (ok : Bool), s.Quiet → pd ∈ allDomains →
    let run := fun (p : State → Prop) => Next (.domainSwitchDone pd ok) s (fun t => p t ∧ (∀ d ∈ allDomains, d ≠ pd → t.domain d = s.domain d) ∧
      Keeps s t [] (withFaults [.adc, .cal, .chartLen, .csl, .flowFree, .freeCtr, .hms, .images, .mem, .ndls, .now, .ode, .pins, .plc, .psm, .queues,
        .ras, .results, .wdpLost, .wdpTrace, .obj Obj.calCount, .obj Obj.calCounts, .obj Obj.calLastTime, .obj Obj.calPinStatus,
        .obj Obj.cccRoles, .obj Obj.cslPortStatus, .obj Obj.hlkLinkStatus, .obj Obj.hlkModule, .obj Obj.hmsState, .obj Obj.ndlChartInfo,
        .obj Obj.ndlChartLabel, .obj Obj.ndlChartState, .obj Obj.ndlChartTsets, .obj Obj.ndlCounts, .obj Obj.ndlState, .obj Obj.ndlStatus,
        .obj Obj.plcChartPlace, .obj Obj.plcCounts, .obj Obj.psmDomainState, .obj Obj.ptfGaugeActive, .obj Obj.ptfPinState,
        .obj Obj.ptfSiteResult, .obj Obj.ptfWaveInfo, .obj Obj.ptfWaveState, .obj Obj.rasBufferState, .obj Obj.rasCommitPending,
        .obj Obj.rasLayerActive, .obj Obj.rasState, .obj Obj.rqpCounts, .obj Obj.rqpNeedleQueue, .obj Obj.rqpPoolStatus,
        .obj Obj.rqpSiteQueue, .obj Obj.splMeas, .obj Obj.splState, .obj Obj.tmuResult, .obj Obj.tmuState, .obj Obj.wdpStats,
        .obj Obj.wdpTraceStatus]))
    (s.domain pd = 1 → ok = true → run (fun t => t.domain pd = 2 ∧ t.now = s.now ∧
      (pd ≤ 8 → ∀ p < 32, let q := 32 * (pd - 1) + p
        t.rd Obj.ptfPinState q = (if s.mode = .measure then 4 else
          if (List.range 16).any (fun n => bit (s.rd Obj.ndlPinset n) q && s.busyNeedle n && !(s.ndl n).castOn) then 2 else 1)) ∧
      (pd = 9 ∨ pd = 10 → ∀ m < 8, t.ndlState (8 * (pd - 9) + m) = 1) ∧
      (pd = 16 ∨ pd = 17 → ∀ c < 8, t.coreState (8 * (pd - 16) + c) = 2) ∧ (pd = 19 → ∀ l < 32, t.loopState l = 0))) ∧
    (s.domain pd = 1 → ok = false → run (fun t => t.domain pd = 4 ∧ Raised t Ev.psmDomainFail ∧
      ∀ d, Tbl.get (fun _ => none) s.psm.domDue pd = some d → t.now = max s.now d)) ∧
    (s.domain pd = 3 → run (fun t => t.domain pd = 0 ∧ t.now = s.now ∧
      (pd ≤ 8 → ∀ p < 32, t.rd Obj.ptfPinState (32 * (pd - 1) + p) = 0 ∧ t.pin (32 * (pd - 1) + p) = {}) ∧
      (pd = 9 ∨ pd = 10 → ∀ m < 8, t.ndlState (8 * (pd - 9) + m) = 0) ∧
      (pd = 11 ∨ pd = 12 → t.stack (pd - 11) = 0 ∧ (∀ a, Memory.read t.mem a = (if addrStack a = pd - 11 then 0#8 else Memory.read s.mem a)) ∧
        (∀ h < 1024, t.chartState h = 0 ∧ t.img Obj.ndlChartImage h = []) ∧ ∀ m < 16, ∀ w < 64, t.img Obj.ptfWaveTable (waveEl m w) = []) ∧
      (pd = 19 → ∀ l < 32, t.loopState l = 5 ∧ t.fld Obj.splMeas l F.splMeasDuty = 0))) ∧
    (s.domain pd ≠ 1 → s.domain pd ≠ 3 → Next (.domainSwitchDone pd ok) s (fun t => t = s))) ∧
  (∀ (s : State) (n el : Nat) (x : Session) (r : ObjRow) (els : List Nat),
    let kept := fun (s t : State) => t.out = s.out ++ [wrote n rOk 0xFFFF] ∧
      Keeps s t (els.flatMap (fun l => [(Obj.splEnable, l), (Obj.splMeas, l), (Obj.splState, l)])) [.loops, .out]
    (Takes (.loopEnable n el) s n x r Obj.splEnable el 1 els (fun s t => kept s t ∧
      (∀ l ∈ els, s.loopState l = 0 ∨ s.loopState l = 4 → t.loopState l = 1 ∧
        t.fld Obj.splMeas l F.splMeasSetEff = s.fld Obj.splMeas l F.splMeasV ∧
        t.loop l = { s.loop l with e1 := 0, e2 := 0, y1 := 0, y2 := 0, rampFrom := s.fldS Obj.splMeas l F.splMeasV, rampAt := s.now, lastV := s.now, held := 0 }) ∧
      (∀ l ∈ els, s.loopState l ≠ 0 → s.loopState l ≠ 4 → t.loopState l = s.loopState l ∧ t.loop l = s.loop l ∧ t.rd Obj.splMeas l = s.rd Obj.splMeas l) ∧
      (∀ l, l ∉ els → t.loop l = s.loop l))) ∧
    (Takes (.loopDisable n el) s n x r Obj.splEnable el 0 els (fun s t => kept s t ∧ t.loops = s.loops ∧
      (∀ l ∈ els, s.loopState l ≠ 5 → t.loopState l = 0 ∧ t.fld Obj.splMeas l F.splMeasDuty = 0) ∧
      (∀ l ∈ els, s.loopState l = 5 → t.loopState l = 5)))) ∧
  (∀ (s : State) (l : Nat),
    (s.loopState l = 1 → Next (.softstartEnd l) s (fun t =>
      t.now = max s.now ((s.loop l).rampAt + s.fld Obj.splLimits l F.splLimitsSoftstart * usFs) ∧ t.loopState l = 2 ∧
      t.fld Obj.splMeas l F.splMeasSetEff = (if s.fld Obj.splLimits l F.splLimitsSlew = 0 then s.rd Obj.splSetpoint l % 2 ^ 32 else s.fld Obj.splMeas l F.splMeasSetEff) ∧ Keeps s t [(Obj.splState, l), (Obj.splMeas, l)] [.now])) ∧
    (s.loopState l ≠ 1 → Next (.softstartEnd l) s (fun t => t = s)))

/-- R588, R590 to R595. -/
def Obligations.RailsAndConvertersAreRead : Prop :=
  (∀ s : State, s.mode ≠ .cold → s.mode ≠ .boot → ∀ k : Nat,
    let frame := fun (t : State) => Keeps s t [(Obj.psmRailStatus, 0), (Obj.psmCounts, 0)] (withFaults [.psm])
    (∀ (rails : Rails) (x : Nat × Nat × Nat × Int), rails[k]? = some x → Next (.pmbusPoll rails) s (fun t => frame t ∧
      (s.railPresent k = true →
        let bad := statusFault x.2.2.1 || !withinPct (railNominal.getD k 0) x.1 5
        t.fld Obj.psmRailStatus 0 ⟨64 * k, 16⟩ = x.1 % 2 ^ 16 ∧ t.fld Obj.psmRailStatus 0 ⟨64 * k + 32, 16⟩ = x.2.2.1 % 2 ^ 16 ∧
        bit t.psm.badRails k = bad ∧ (bad = true → bit s.psm.badRails k = false → Raised t Ev.psmRailFault)) ∧
      (s.railPresent k = false → t.fld Obj.psmRailStatus 0 ⟨64 * k, 64⟩ = s.fld Obj.psmRailStatus 0 ⟨64 * k, 64⟩ ∧ bit t.psm.badRails k = bit s.psm.badRails k))) ∧
    (∀ (words : Nats) (w : Nat), words[k]? = some w → Next (.pmbAlert words) s (fun t => frame t ∧
      (s.railPresent k = true → t.fld Obj.psmRailStatus 0 ⟨64 * k + 32, 16⟩ = w % 2 ^ 16 ∧
        (statusFault w = true → bit t.psm.badRails k = true ∧ (bit s.psm.badRails k = false → Raised t Ev.psmRailFault)) ∧
        (statusFault w = false → bit t.psm.badRails k = bit s.psm.badRails k)) ∧
      (s.railPresent k = false → t.fld Obj.psmRailStatus 0 ⟨64 * k, 64⟩ = s.fld Obj.psmRailStatus 0 ⟨64 * k, 64⟩)))) ∧
  (∀ (s : State) (rails : Rails) (words : Nats), s.mode = .cold ∨ s.mode = .boot →
    Next (.pmbusPoll rails) s (fun t => t = s) ∧ Next (.pmbAlert words) s (fun t => t = s)) ∧
  (∀ (s : State) (cv : Nat) (code : Int) (ovr : Bool),
    let k := Tbl.get (fun _ => 0) s.adc.slot cv
    let seq := s.rd Obj.adcSeq 0
    let a := 16 * cv + seqSlot seq cv (k % max 1 (seqLen seq cv))
    let c : Int := if ovr then (if code < 0 then -32768 else 32767) else clampSigned 16 code
    let v := s.scale a c
    let fresh := ovr = true ∨ Tbl.get (fun _ => 0) s.adc.recover cv = 0
    let bad := ovr = true ∨ s.offBand a v = true
    let was := Tbl.get (fun _ => 0) s.adc.oob a
    (s.domOn 19 = true → Next (.conversion cv code ovr) s (fun t =>
      let d := max s.now (s.epochGrid + (k + 3) * 10 * tclkFs)
      d ≤ t.now ∧ (s.fld Obj.adcWindow a F.adcWindowAction ≠ 2 → (∀ l < 32, s.fld Obj.splCfg l F.splCfgVsenseAin ≠ a) → t.now = d) ∧ Tbl.get (fun _ => 0) t.adc.slot cv = (k + 1) % 2 ^ 64 ∧
      t.fld Obj.adcValue a F.adcValueCode = ofSigned 16 c ∧ t.fld Obj.adcValue a F.adcValueOvr = ovr.toNat ∧
      t.fldS Obj.adcValue a F.adcValueValue = v ∧ t.fld Obj.adcValue a F.adcValueSlot = k % 2 ^ 64 ∧
      (t.fld Obj.adcValue a F.adcValueRecovering = 0 ↔ fresh) ∧
      (fresh → Tbl.get (fun _ => none) s.adc.ow a = none →
        (t.fld Obj.adcValue a F.adcValueOutOfBand = 1 ↔ bad) ∧ (¬ bad → Tbl.get (fun _ => 0) t.adc.oob a = 0) ∧
        (bad → Tbl.get (fun _ => 0) t.adc.oob a = min 16 (was + 1) ∧
          (min 16 (was + 1) = s.fld Obj.adcWindow a F.adcWindowPersist → was ≠ s.fld Obj.adcWindow a F.adcWindowPersist →
            s.fld Obj.adcWindow a F.adcWindowAction = 1 → t.srcPending Ev.adcWindow = true))) ∧
      (fresh → ∀ l < 32, (s.fld Obj.splCfg l F.splCfgVsenseAin = a → t.fldS Obj.splMeas l F.splMeasV = v) ∧
        (s.fld Obj.splCfg l F.splCfgIsenseAin = a → t.fldS Obj.splMeas l F.splMeasI = v)) ∧
      Keeps s t [(Obj.adcValue, a), (Obj.adcCounts, a)] (withFaults [.adc, .loops, .now, .psm, .obj Obj.psmLineStatus, .obj Obj.splCounts, .obj Obj.splMeas, .obj Obj.splState]))) ∧
    (s.domOn 19 = false → Next (.conversion cv code ovr) s (fun t => t = s))) ∧
  (∀ (s : State) (n el v : Nat) (x : Session) (r : ObjRow),
    let kept := fun (s t : State) (els : List (Nat × Nat)) => t.out = s.out ++ [wrote n rOk 0xFFFF] ∧ Keeps s t els [.adc, .out]
    (Takes (.owTest n el) s n x r Obj.adcOwTest el 1 [el] (fun s t => Tbl.get (fun _ => none) t.adc.ow el = some s.now ∧
      t.fld Obj.adcOwResult el F.adcOwResultState = 1 ∧ kept s t [(Obj.adcOwTest, el), (Obj.adcOwResult, el)])) ∧
    (Takes (.syscalZero n el) s n x r Obj.adcSyscal el 1 [el] (fun s t => Tbl.get (fun _ => none) t.adc.c0 el = none ∧
      t.rd Obj.adcSyscalStatus el = 1 ∧ kept s t [(Obj.adcSyscal, el), (Obj.adcSyscalStatus, el)])) ∧
    (∀ fs : Int, v = 2 + ofSigned 32 fs * 2 ^ 32 → Takes (.syscalFull n el fs) s n x r Obj.adcSyscal el v [el] (fun s t =>
      t.rd Obj.adcSyscal el = v ∧ t.rd Obj.adcSyscalStatus el = 3 ∧ t.adc = s.adc ∧ kept s t [(Obj.adcSyscal, el), (Obj.adcSyscalStatus, el)]))) ∧
  (∀ (s : State) (a : Nat),
    (∀ (d : Nat) (up down : Int), Tbl.get (fun _ => none) s.adc.ow a = some d →
      let opened := toSigned 32 (s.rd Obj.adcOwCfg 0) < ((up - down).natAbs : Int)
      Next (.owTestDone a up down) s (fun t => t.now = max s.now (d + 60 * usFs) ∧ Tbl.get (fun _ => none) t.adc.ow a = none ∧
        (opened → t.fld Obj.adcOwResult a F.adcOwResultState = 3 ∧ t.fld Obj.adcValue a F.adcValueOpen = 1) ∧
        (¬ opened → t.fld Obj.adcOwResult a F.adcOwResultState = 2 ∧ t.fld Obj.adcValue a F.adcValueOpen = 0) ∧
        t.fldS Obj.adcOwResult a F.adcOwResultDelta = clampSigned 32 (up - down) ∧ Keeps s t [(Obj.adcOwResult, a), (Obj.adcValue, a)] [.now, .adc])) ∧
    (∀ up down : Int, Tbl.get (fun _ => none) s.adc.ow a = none → Next (.owTestDone a up down) s (fun t => t = s)) ∧
    (∀ (sum : Int) (ovr : Bool),
      let st := s.fld Obj.adcSyscalStatus a F.adcSyscalStatusState
      let run := fun (p : State → Prop) => Next (.syscalDone a sum ovr) s p
      let failed := fun (t : State) => t.fld Obj.adcSyscalStatus a F.adcSyscalStatusState = 5 ∧ Keeps s t [(Obj.adcSyscalStatus, a)] [.freeCtr]
      (st = 1 → ovr = false → run (fun t => t.rd Obj.adcSyscalStatus a = 2 ∧ Tbl.get (fun _ => none) t.adc.c0 a = some sum ∧
        Keeps s t [(Obj.adcSyscalStatus, a)] [.adc])) ∧
      (st = 1 → ovr = true → run failed) ∧
      (∀ c0 : Int, st = 3 → Tbl.get (fun _ => none) s.adc.c0 a = some c0 →
        let d := sum - c0
        let fs := s.fldS Obj.adcSyscal a F.adcSyscalFsValue
        (ovr = true ∨ d.natAbs < 1024 * 4096 → run failed) ∧
        (ovr = false → 1024 * 4096 ≤ d.natAbs → run (fun t => t.rd Obj.adcSyscalStatus a = 4 ∧
          t.fld Obj.adcCal a F.adcCalGain = toF32 (if d < 0 then -(fs * 4096) else fs * 4096, d.natAbs) % 2 ^ 32 ∧
          t.fld Obj.adcCal a F.adcCalOffset = toF32 (c0, 4096) % 2 ^ 32 ∧ Keeps s t [(Obj.adcCal, a), (Obj.adcSyscalStatus, a)] []))) ∧
      (st ≠ 1 → st ≠ 3 → run (fun t => t = s))))

/-- R624 to R626, R669: the root clock's reference. -/
def Obligations.ReferencesAreLostAndFound : Prop :=
  ∀ s : State,
  let source := fun t : State => t.fld Obj.clkState 0 F.clkStateSource
  let locked := fun t : State => t.fld Obj.clkState 0 F.clkStateLocked
  let aligned := fun t : State => t.fld Obj.clkState 0 F.clkStateAligned
  let present := fun t : State => t.fld Obj.clkState 0 F.clkStateRefPresent
  let lost := fun t : State => aligned t = 0 ∧ (aligned s = 1 → ∀ p < 4,
    s.fld Obj.cslPortStatus p F.cslPortStatusLatValid = 1 → t.fld Obj.cslPortStatus p F.cslPortStatusLatValid = 0 ∧ Raised t Ev.cslLatency)
  (∃ t, exec .refclkLoss s = .next t ∧ present t = 0 ∧
    (source s = 0 → locked s = 1 → source t = 2 ∧ lost t ∧ t.fld Obj.clkCounts 0 ⟨144, 48⟩ = counted 48 (s.fld Obj.clkCounts 0 ⟨144, 48⟩) 1 ∧
      Raised t Ev.clkRefLost) ∧
    (source s ≠ 0 ∨ locked s ≠ 1 → source t = source s ∧ aligned t = aligned s ∧ Keeps s t [(Obj.clkState, 0)] []) ∧
    Keeps s t [(Obj.clkState, 0), (Obj.clkCounts, 0)] (withFaults [.obj Obj.cslPortStatus])) ∧
  (∃ t, exec .refclkRelock s = .next t ∧ present t = 1 ∧ source t = (if source s = 2 then 0 else source s) ∧ aligned t = aligned s ∧
    Keeps s t [(Obj.clkState, 0)] []) ∧
  (∃ t, exec .clkPllUnlock s = .next t ∧ locked t = 0 ∧ lost t ∧ Raised t Ev.clkPllUnlock ∧
    Keeps s t [(Obj.clkState, 0), (Obj.clkCounts, 0)] (withFaults [.obj Obj.cslPortStatus]))

/-- R631, R633 to R635: the SYNC input. -/
def Obligations.SyncEdgesTakeTheEpoch : Prop :=
  (∀ (s : State) (d : Nat),
    let e := s.syncInstant d
    let armed := s.fld Obj.clkSyncStatus 0 F.clkSyncStatusArmed = 1
    let more := fun (t : State) (i : Nat) => t.fld Obj.clkCounts 0 ⟨48 * i, 48⟩ = counted 48 (s.fld Obj.clkCounts 0 ⟨48 * i, 48⟩) 1
    let dev := syncDev e s.clk.epoch (s.fld Obj.clkSyncCfg 0 F.clkSyncCfgPeriod)
    ∃ t, exec (.syncEdge d) s = .next t ∧ t.now = max s.now d ∧ more t 1 ∧
      (armed → t.clk = { s.clk with epoch := e } ∧ t.adc = { s.adc with slot := [] } ∧ more t 0 ∧
        t.fld Obj.clkSyncStatus 0 F.clkSyncStatusArmed = 0 ∧ t.rd Obj.clkSyncArm 0 = 0 ∧ t.fld Obj.clkEpoch 0 F.clkEpochSource = 1 ∧
        t.fld Obj.clkEpoch 0 F.clkEpochNt = s.stampAt e ∧ t.srcPending Ev.clkEpoch = true ∧ (∀ p < 4, (t.cport p).flight = none) ∧
        t.fld Obj.clkState 0 F.clkStateAligned = (if s.fld Obj.clkState 0 F.clkStateSource = 0 ∧ s.fld Obj.clkState 0 F.clkStateLocked = 1 then 1
          else s.fld Obj.clkState 0 F.clkStateAligned) ∧
        Keeps s t [(Obj.clkState, 0), (Obj.clkCounts, 0), (Obj.clkEpoch, 0), (Obj.clkSyncStatus, 0), (Obj.clkSyncArm, 0)] (withSignals [.now, .clk, .adc, .csl])) ∧
      (¬ armed → t.clk = s.clk ∧ t.fld Obj.clkCounts 0 ⟨0, 48⟩ = s.fld Obj.clkCounts 0 ⟨0, 48⟩ ∧
        (0 < s.fld Obj.clkSyncCfg 0 F.clkSyncCfgPeriod → s.fld Obj.clkSyncCfg 0 F.clkSyncCfgCheckLimit * 500 < dev.natAbs →
          more t 2 ∧ t.srcPending Ev.clkSyncDev = true) ∧
        (dev.natAbs ≤ s.fld Obj.clkSyncCfg 0 F.clkSyncCfgCheckLimit * 500 → t.fld Obj.clkCounts 0 ⟨96, 48⟩ = s.fld Obj.clkCounts 0 ⟨96, 48⟩) ∧
        Keeps s t [(Obj.clkCounts, 0), (Obj.clkSyncStatus, 0)] (withSignals [.now]))) ∧
  (∀ (s : State) (n : Nat) (x : Session) (r : ObjRow),
    let left := fun (v : Nat) (s t : State) => t.fld Obj.clkSyncStatus 0 F.clkSyncStatusArmed = v ∧ t.rd Obj.clkSyncArm 0 = v ∧
      t.out = s.out ++ [wrote n rOk 0xFFFF] ∧ Keeps s t [(Obj.clkSyncArm, 0), (Obj.clkSyncStatus, 0)] [.out]
    (Accepts s n x r Obj.clkSyncArm 0 [1#8] [0] → (s.touch n x).fwServed r = false → ∃ t, exec (.syncArm n) s = .next t ∧ left 1 (s.touch n x) t) ∧
    (Accepts s n x r Obj.clkSyncArm 0 [0#8] [0] → (s.touch n x).fwServed r = false → ∃ t, exec (.syncDisarm n) s = .next t ∧ left 0 (s.touch n x) t) ∧
    Takes (.syncArm n) s n x r Obj.clkSyncArm 0 1 [0] (left 1) ∧ Takes (.syncDisarm n) s n x r Obj.clkSyncArm 0 0 [0] (left 0))

/-- R644 to R648. -/
def Obligations.NetworkTimeIsDisciplined : Prop :=
  (∀ (s : State) (port : Nat),
    let q := Tbl.get (fun _ => []) s.clk.txq port
    let on := bit (s.fld Obj.ptpCfg 0 F.ptpCfgPorts) port
    let locked := fun (t : State) => t.fld Obj.ptpStatus 0 F.ptpStatusLocked
    let unlocked := fun (t : State) => locked t = 0 ∧ t.clk.lockRun = 0 ∧ (locked s = 1 → t.srcPending Ev.ptpUnlocked = true)
    (∀ (egress : Bool) (id typ : Nat), on = false → Next (.ptpEventMessage port egress id typ) s (fun t => t = s)) ∧
    (∀ id typ : Nat, on = true →
      Next (.ptpEventMessage port false id typ) s (fun t => t.fld Obj.ptpCounts port ⟨0, 48⟩ = counted 48 (s.fld Obj.ptpCounts port ⟨0, 48⟩) 1 ∧
        Keeps s t [(Obj.ptpCounts, port)] []) ∧
      Next (.ptpEventMessage port true id typ) s (fun t => t.fld Obj.ptpCounts port ⟨48, 48⟩ = counted 48 (s.fld Obj.ptpCounts port ⟨48, 48⟩) 1 ∧
        (q.length < 16 → (∃ st : Nat, Tbl.get (fun _ => []) t.clk.txq port = q ++ [(st, id % 2 ^ 16, typ % 16)]) ∧
          t.fld Obj.ptpTxqStatus port F.ptpTxqStatusFill = q.length + 1 ∧ Keeps s t [(Obj.ptpCounts, port), (Obj.ptpTxqStatus, port)] [.clk, .freeCtr]) ∧
        (16 ≤ q.length → t.clk = s.clk ∧ t.rd Obj.ptpTxqOvf port = 1 ∧
          t.fld Obj.ptpTxqStatus port F.ptpTxqStatusDropped = counted 48 (s.fld Obj.ptpTxqStatus port F.ptpTxqStatusDropped) 1 ∧
          t.srcPending Ev.ptpTxqOvf = true ∧ Keeps s t [(Obj.ptpCounts, port), (Obj.ptpTxqStatus, port), (Obj.ptpTxqOvf, port)] (withSignals [.freeCtr])))) ∧
    (∀ (off delay : Int) (gm : Nat),
      let run := fun (p : State → Prop) => Next (.ptpOffset off delay port gm) s (fun t => p t ∧ t.clk.syncAt = some s.now ∧ t.now = s.now ∧
        Tbl.get (fun _ => []) t.clk.txq port = q.drop 1 ∧ t.fld Obj.ptpStatus 0 F.ptpStatusState = 3 ∧
        t.fldS Obj.ptpStatus 0 F.ptpStatusOffset = clampSigned 64 off ∧ t.fldS Obj.ptpStatus 0 F.ptpStatusPathDelay = clampSigned 64 delay ∧
        Keeps s t [(Obj.ptpStatus, 0), (Obj.ptpTxqStatus, port), (Obj.ptpCounts, port), (Obj.ptpIncrement, 0)] (withSignals [.clk, .freeCtr]))
      let hw := s.fld Obj.ptpServoCfg 0 F.ptpServoCfgMode = 0
      let far := s.fld Obj.ptpServoCfg 0 F.ptpServoCfgStepLimit * 65536000 < off.natAbs
      let near := off.natAbs ≤ s.fld Obj.ptpServoCfg 0 F.ptpServoCfgLockLimit * 65536000
      (on = false → Next (.ptpOffset off delay port gm) s (fun t => t = s)) ∧
      (on = true → ¬ hw → run (fun t => t.rd Obj.ptpIncrement 0 = s.rd Obj.ptpIncrement 0 ∧ t.ntAt s.now = s.ntAt s.now ∧ locked t = locked s)) ∧
      (on = true → hw → far → run (fun t => (t.ntAt s.now : Int) = max 0 ((s.ntAt s.now : Int) - psToNt off) ∧ t.clk.servoSum = 0 ∧ unlocked t ∧
        t.srcPending Ev.ptpStep = true ∧ t.fld Obj.ptpCounts port ⟨96, 48⟩ = counted 48 (s.fld Obj.ptpCounts port ⟨96, 48⟩) 1)) ∧
      (on = true → hw → ¬ far → run (fun t => t.clk.servoSum = s.clk.servoSum + off ∧ t.ntAt s.now = s.ntAt s.now ∧
        (∃ up : Bool, t.rd Obj.ptpIncrement 0 = servoIncrement (servoPpb (s.fldS Obj.ptpServoCfg 0 F.ptpServoCfgKp)
          (s.fldS Obj.ptpServoCfg 0 F.ptpServoCfgKi) off (s.clk.servoSum + off)) up) ∧
        (near → t.clk.lockRun = min 16 (s.clk.lockRun + 1) ∧
          (15 ≤ s.clk.lockRun → locked s = 0 → locked t = 1 ∧ t.srcPending Ev.ptpLocked = true) ∧ (s.clk.lockRun < 15 → locked t = locked s)) ∧
        (¬ near → unlocked t)))) ∧
    (∀ d : Nat, s.clk.syncAt = some d → Next .ptpSyncTimeout s (fun t => t.now = max s.now (d + 3 * secFs) ∧ t.clk.syncAt = none ∧ unlocked t ∧
      Keeps s t [(Obj.ptpStatus, 0)] (withSignals [.now, .clk]))) ∧
    (s.clk.syncAt = none → Next .ptpSyncTimeout s (fun t => t = s))) ∧
  (∀ (s : State) (n : Nat) (x : Session) (r : ObjRow),
    let set := fun (s t : State) (nt : Int) (o : Nat) => (t.ntAt s.now : Int) = max 0 nt ∧ t.clk.servoSum = 0 ∧ t.fld Obj.ptpStatus 0 F.ptpStatusLocked = 0 ∧
      (s.fld Obj.ptpStatus 0 F.ptpStatusLocked = 1 → t.srcPending Ev.ptpUnlocked = true) ∧ t.out.getLast? = some (wrote n rOk 0xFFFF) ∧
      Keeps s t [(o, 0), (Obj.ptpStatus, 0)] (withSignals [.clk])
    (∀ v : Bytes, Accepts s n x r Obj.ptpNtSet 0 v [0] → Effect (.ntSet n v) s n x r Obj.ptpNtSet 0 v [0] (fun s t => set s t (ofStamp (ofLE v)) Obj.ptpNtSet)) ∧
    (∀ v : Int, -2 ^ 63 ≤ v → v < 2 ^ 63 → Takes (.ntAdj n v) s n x r Obj.ptpNtAdj 0 (ofSigned 64 v) [0] (fun s t => set s t (s.ntAt s.now + v * 2 ^ 32) Obj.ptpNtAdj)) ∧
    (∀ (el : Nat) (els : List Nat), Takes (.txqOvfClear n el) s n x r Obj.ptpTxqOvf el 0 els (fun s t => (∀ p ∈ els, t.rd Obj.ptpTxqOvf p = 0) ∧
      t.out = s.out ++ [wrote n rOk 0xFFFF] ∧ Keeps s t (els.map (fun p => (Obj.ptpTxqOvf, p))) [.out])))

/-- R659, R660, R662, R665, R668 to R670, R678. -/
def Obligations.CascadeCarriesEventsAndFrames : Prop :=
  ∀ (s : State) (p : Nat),
  let x := s.cport p
  let more := fun (t : State) (f : Fld) => t.fld Obj.cslCounts p f = counted 48 (s.fld Obj.cslCounts p f) 1
  let others := fun (t : State) => ∀ q, q ≠ p → t.cport q = s.cport q
  let valid := s.fld Obj.cslPortStatus p F.cslPortStatusLatValid
  (∀ (e c : Nat) (l : List (Nat × Nat)), x.tx = (e, c) :: l → Next (.eventSend p) s (fun t => t.now = max s.now (s.columnAt (e + 8 * vclkFs)) ∧
    t.cport p = { x with tx := l } ∧ others t ∧ t.out = s.out ++ [.cascade p 0 c []] ∧ more t F.cslCountsEventsTx ∧
    Keeps s t [(Obj.cslCounts, p)] [.now, .csl, .out])) ∧
  (x.tx = [] → Next (.eventSend p) s (fun t => t = s)) ∧
  (∀ (lanes : Lanes) (d : Nat),
    (s.cslState p ≠ 2 → Next (.eventReceive p lanes d) s (fun t => t = s)) ∧
    (s.cslState p = 2 → laneVote lanes = none → Next (.eventReceive p lanes d) s (fun t => more t F.cslCountsEventErrors ∧ Keeps s t [(Obj.cslCounts, p)] [])) ∧
    (∀ c : Nat, s.cslState p = 2 → laneVote lanes = some c →
      (valid = 0 → Next (.eventReceive p lanes d) s (fun t => more t F.cslCountsRxDropped ∧ Keeps s t [(Obj.cslCounts, p)] [])) ∧
      (valid = 1 → s.fld Obj.cslPortCfg p F.cslPortCfgRxEvents = 1 → Next (.eventReceive p lanes d) s (fun t =>
        t.cport p = { x with rx := x.rx ++ [⟨s.edgeAt vclkFs (d + (37 + s.fld Obj.cslPortStatus p F.cslPortStatusExtra) * vclkFs), c % 256⟩] } ∧ others t ∧
        Keeps s t [] [.csl])) ∧
      (valid = 1 → s.fld Obj.cslPortCfg p F.cslPortCfgRxEvents = 0 → Next (.eventReceive p lanes d) s (fun t => t = s)))) ∧
  (∀ (e : CslEvent) (l : List CslEvent), x.rx = e :: l → Next (.eventDelivery p) s (fun t => t.now = max s.now e.due ∧ t.cport p = { x with rx := l } ∧ others t ∧
    more t F.cslCountsEventsRx ∧
    (∀ m < 16, s.busyNeedle m = true →
      Tbl.get (fun _ => none) (t.ndl m).latches e.byte = some ((Tbl.get (fun _ => none) (s.ndl m).latches e.byte).getD e.due)) ∧
    (∀ m, s.busyNeedle m = false → t.ndl m = s.ndl m) ∧
    (∀ u < 8, (t.unit u).waiting = (s.unit u).waiting ++ (if s.taeEnabled u 3 = true ∧ s.fld Obj.taeTrigCfg u F.taeTrigCfgEvent = e.byte ∧
      bit (s.fld Obj.taeTrigCfg u F.taeTrigCfgPorts) p = true then [⟨e.due, e.due, 3⟩] else [])) ∧
    Keeps s t [(Obj.cslCounts, p)] [.now, .csl, .ndls, .evts, .tae])) ∧
  (x.rx = [] → Next (.eventDelivery p) s (fun t => t = s)) ∧
  (∀ f : Nat,
    let bad := fun (t : State) => t.fld Obj.cslPortStatus p F.cslPortStatusLatValid = 0 ∧ Raised t Ev.cslLatency ∧
      Keeps s t [(Obj.cslPortStatus, p)] (withFaults [.csl])
    (s.cslState p ≠ 2 → Next (.latencyMarker p f) s (fun t => t = s)) ∧
    (s.cslState p = 2 → x.flight = none → f ≤ 25000000 → s.fld Obj.clkState 0 F.clkStateAligned = 1 → Next (.latencyMarker p f) s (fun t =>
      t.cport p = { x with flight := some f } ∧ others t ∧ t.fld Obj.cslPortStatus p F.cslPortStatusLatValid = 1 ∧
      t.fld Obj.cslPortStatus p F.cslPortStatusExtra = extraOf f ∧ t.fld Obj.cslPortStatus p F.cslPortStatusFlight = f / 1000 ∧ t.cslState p = 2 ∧
      Keeps s t [(Obj.cslPortStatus, p)] [.csl])) ∧
    (s.cslState p = 2 → x.flight = none → (25000000 < f ∨ s.fld Obj.clkState 0 F.clkStateAligned = 0) →
      Next (.latencyMarker p f) s (fun t => bad t ∧ (t.cport p).flight = some f)) ∧
    (∀ g : Nat, s.cslState p = 2 → x.flight = some g →
      (valid = 1 → (g + 500000 < f ∨ f + 500000 < g ∨ 25000000 < f) → Next (.latencyMarker p f) s bad) ∧
      (valid = 0 ∨ (f ≤ g + 500000 ∧ g ≤ f + 500000 ∧ f ≤ 25000000) → Next (.latencyMarker p f) s (fun t => t = s)))) ∧
  (∀ (b : Bytes) (aborted : Bool),
    let n := leAt b 0 2
    let good := aborted = false ∧ 1 ≤ n ∧ n ≤ 1024 ∧ b.length = n + 8 ∧ crc32 (b.take (n + 4)) = leAt b (n + 4) 4
    (s.cslState p ≠ 2 → Next (.cascadeFrame p b aborted) s (fun t => t = s)) ∧
    (s.cslState p = 2 → ¬ good → Next (.cascadeFrame p b aborted) s (fun t => more t F.cslCountsFrameErrors ∧ Keeps s t [(Obj.cslCounts, p)] [])) ∧
    (s.cslState p = 2 → good → Next (.cascadeFrame p b aborted) s (fun t => others t ∧
      t.cport p = { x with inbox := lastN 16 (x.inbox ++ [toLE 2 n ++ slice b 4 n]) } ∧
      (16 ≤ x.inbox.length → more t F.cslCountsRxDropped ∧ Keeps s t [(Obj.cslCounts, p)] [.csl]) ∧
      (x.inbox.length < 16 → Keeps s t [] [.csl])))) ∧
  (∀ b : Bytes, x.frame = some b → Next (.cslFrameSent p) s (fun t => t.cport p = { x with frame := none } ∧ others t ∧
    t.out = s.out ++ [.cascade p 2 0 (cascadeFrame b)] ∧ Keeps s t [] [.csl, .out])) ∧
  (x.frame = none → Next (.cslFrameSent p) s (fun t => t = s))

/-- R672 to R675. -/
def Obligations.CascadePortsAlign : Prop :=
  (∀ (s : State) (p : Nat),
    (∀ l : Nat, s.cslState p = 2 → l < 256 → Next (.cslLinkDown p l) s (fun t =>
      t.cslState p = (if s.fld Obj.cslPortCfg p F.cslPortCfgAutoAlign = 1 then 1 else 3) ∧
      t.fld Obj.cslPortStatus p F.cslPortStatusLatValid = 0 ∧ t.fld Obj.cslLaneStatus (p * 256 + l) F.cslLaneStatusComma = 0 ∧
      t.cport p = { s.cport p with frame := none, tx := [], flight := some ((s.cport p).flight.getD 0) } ∧ (∀ q, q ≠ p → t.cport q = s.cport q) ∧ Raised t Ev.cslLinkDown ∧
      t.fld Obj.cslCounts p F.cslCountsLinkDowns = counted 48 (s.fld Obj.cslCounts p F.cslCountsLinkDowns) 1 ∧
      Keeps s t [(Obj.cslPortStatus, p), (Obj.cslLaneStatus, p * 256 + l), (Obj.cslCounts, p)] (withFaults [.csl]))) ∧
    (∀ l : Nat, s.cslState p ≠ 2 → Next (.cslLinkDown p l) s (fun t => t = s)) ∧
    (∀ fits : LaneFits,
      (s.cslState p = 1 → (s.cport p).manual = false → fits.length = 4 →
        ((∀ f ∈ fits, f ≠ none) → Next (.alignmentComplete p fits) s (fun t => t.cslState p = 2 ∧ t.srcPending Ev.cslLinkUp = true ∧
          (∀ (l a b c : Nat), fits[l]? = some (some (a, b, c)) → t.rd Obj.cslLaneCtrl (p * 256 + l) = a % 64 + b % 16 * 64 + c % 8 * 1024 ∧
            t.fld Obj.cslLaneStatus (p * 256 + l) F.cslLaneStatusComma = 1 ∧ t.fld Obj.cslLaneStatus (p * 256 + l) F.cslLaneStatusDeskewed = 1) ∧
          Keeps s t [] (withSignals [.obj Obj.cslPortStatus, .obj Obj.cslLaneCtrl, .obj Obj.cslLaneStatus]))) ∧
        ((∃ f ∈ fits, f = none) → Next (.alignmentComplete p fits) s (fun t => t.cslState p = 4 ∧ (s.mode = .boot → Raised t Ev.cslLinkDown) ∧
          Keeps s t [] (withFaults [.obj Obj.cslPortStatus, .obj Obj.cslLaneCtrl, .obj Obj.cslLaneStatus])))) ∧
      (s.cslState p ≠ 1 ∨ (s.cport p).manual = true → Next (.alignmentComplete p fits) s (fun t => t = s)))) ∧
  (∀ (s : State) (n p : Nat) (x : Session) (r : ObjRow),
    let done := fun (s t : State) => t.out.getLast? = some (wrote n rOk 0xFFFF) ∧ (∀ q, q ≠ p → t.cport q = s.cport q) ∧
      Keeps s t [(Obj.cslAlign, p), (Obj.cslPortStatus, p)] (withSignals [.csl])
    ((Takes (.alignAuto n p) s n x r Obj.cslAlign p 1 [p] (fun s t => s.domOn 15 = true → done s t ∧ t.cslState p = 1 ∧ t.cport p = { s.cport p with manual := false })) ∧
      (Takes (.alignManual n p) s n x r Obj.cslAlign p 2 [p] (fun s t => s.domOn 15 = true → done s t ∧ t.cslState p = 1 ∧ t.cport p = { s.cport p with manual := true })) ∧
      (Takes (.alignDone n p) s n x r Obj.cslAlign p 3 [p] (fun s t => s.domOn 15 = true → done s t ∧ t.cport p = { s.cport p with manual := false } ∧
        ((s.cport p).manual = true → s.lanesGood p = true → t.cslState p = 2 ∧ t.srcPending Ev.cslLinkUp = true) ∧
        ((s.cport p).manual = true → s.lanesGood p = false → t.cslState p = 4) ∧
        ((s.cport p).manual = false → t.cslState p = s.cslState p)))) ∧
    (∀ c ∈ [(Instr.alignAuto n p, 1), (.alignManual n p, 2), (.alignDone n p, 3)], Takes c.1 s n x r Obj.cslAlign p c.2 [p] (fun s t => s.domOn 15 = false → t.out = s.out ++ [wrote n rOk 0xFFFF] ∧ Keeps s t [(Obj.cslAlign, p)] [.out])) ∧
    (Takes (.laneTest n p) s n x r Obj.cslLaneTest p 1 [p] (fun s t => t.out = s.out ++ [wrote n rOk 0xFFFF] ∧
      Tbl.get (fun _ => none) (t.cport (p / 256)).test (p % 256) = some (s.now + 10 * usFs) ∧
      t.fld Obj.cslLaneStatus p F.cslLaneStatusTestDone = 0 ∧ Keeps s t [(Obj.cslLaneTest, p), (Obj.cslLaneStatus, p)] [.csl, .out]))) ∧
  (∀ (s : State) (el errors : Nat) (comma deskewed : Bool),
    (∀ d : Nat, Tbl.get (fun _ => none) (s.cport (el / 256)).test (el % 256) = some d → Next (.laneTestDone el errors comma deskewed) s (fun t =>
      t.now = max s.now d ∧ Tbl.get (fun _ => none) (t.cport (el / 256)).test (el % 256) = none ∧
      t.fld Obj.cslLaneStatus el F.cslLaneStatusTestErrors = min errors (2 ^ 48 - 1) ∧ t.fld Obj.cslLaneStatus el F.cslLaneStatusTestDone = 1 ∧
      t.fld Obj.cslLaneStatus el F.cslLaneStatusComma = comma.toNat ∧ t.fld Obj.cslLaneStatus el F.cslLaneStatusDeskewed = deskewed.toNat ∧
      t.fld Obj.cslLaneStatus el F.cslLaneStatusCodeErrors = counted 48 (s.fld Obj.cslLaneStatus el F.cslLaneStatusCodeErrors) errors ∧
      Keeps s t [(Obj.cslLaneStatus, el)] [.now, .csl])) ∧
    (Tbl.get (fun _ => none) (s.cport (el / 256)).test (el % 256) = none → Next (.laneTestDone el errors comma deskewed) s (fun t => t = s)))

/-- R729, R733 to R737. -/
def Obligations.PortsReceiveAndAnswer : Prop :=
  ∀ (s : State) (port sub : Nat),
  let el := subEl port sub
  let more := fun (t : State) (i : Nat) => t.fld Obj.hlkCounts el ⟨48 * i, 48⟩ = counted 48 (s.fld Obj.hlkCounts el ⟨48 * i, 48⟩) 1
  let answer := fun (t : State) (kind dst src : Nat) => t.out = s.out ++ [.ether port sub kind dst src (s.txTag port sub (s.txPcp port false))] ∧ more t 1
  (s.linkUp port sub = true →
    (∀ (typ vid pcp len k : Nat) (ok : Bool),
      let run := fun (p : State → Prop) => Next (.frameReceive port sub typ vid pcp len ok k) s p
      let long := s.fld Obj.hlkPortCfg port F.hlkPortCfgMaxFrame < len
      let good := s.vidOk port sub vid = true ∧ typ ∈ [0x0800, 0x0806, 0x86DD] ∧ 1 ≤ k ∧ k ≤ 3 ∧ 64 ≤ len ∧ (typ = 0x0800 → s.ip4 port sub ≠ 0)
      let c := s.rxClass port (if vid = 4096 then s.fld Obj.hlkPrioCfg port F.hlkPrioCfgDefaultPcp else pcp)
      let sum := (s.rxFill port c).foldl (· + ·) 0 + len
      let fits := sum ≤ (if c = 0 then 262144 else 4194304)
      (ok = false → run (fun t => more t 2 ∧ Keeps s t [(Obj.hlkCounts, el)] [])) ∧
      (ok = true → long → run (fun t => more t 3 ∧ Keeps s t [(Obj.hlkCounts, el)] [])) ∧
      (ok = true → ¬ long → ¬ good → run (fun t => more t 0 ∧ more t 4 ∧ Keeps s t [(Obj.hlkCounts, el)] [])) ∧
      (ok = true → ¬ long → good → k ≠ 1 → run (fun t => more t 0 ∧ Keeps s t [(Obj.hlkCounts, el)] [])) ∧
      (ok = true → ¬ long → good → k = 1 → fits → run (fun t => more t 0 ∧ t.rxFill port c = s.rxFill port c ++ [len] ∧ t.rxFill port (1 - c) = s.rxFill port (1 - c) ∧
        (c = 1 → s.pfcAt port = none → 3 * 4194304 < sum * 4 → t.pfcAt port = some (s.now + 20 * usFs)) ∧
        (c = 1 → s.pfcAt port = none → sum * 4 ≤ 3 * 4194304 → Keeps s t [(Obj.hlkCounts, el)] [.hlk]) ∧ Keeps s t [] [.hlk, .out, .obj Obj.hlkCounts])) ∧
      (ok = true → ¬ long → good → k = 1 → ¬ fits → run (fun t => more t 0 ∧ more t (if c = 0 then 5 else 6) ∧ t.rxFill port c = s.rxFill port c ∧
        (Tbl.get (fun _ => false) s.hlk.dropSeen el = false → t.srcPending Ev.hlkRxDrop = true) ∧ Tbl.get (fun _ => false) t.hlk.dropSeen el = true ∧
        Keeps s t [] signalParts))) ∧
    (∀ sip mac tip : Nat,
      (s.ip4 port sub ≠ 0 → tip = s.ip4 port sub → Next (.arpRequest port sub sip mac tip) s (fun t => answer t 1 sip tip ∧
        (Tbl.get (fun _ => []) t.hlk.arp el).getLast? = some (sip, mac, s.now) ∧ Keeps s t [(Obj.hlkCounts, el)] [.hlk, .out])) ∧
      (s.ip4 port sub = 0 ∨ tip ≠ s.ip4 port sub → Next (.arpRequest port sub sip mac tip) s (fun t => t = s))) ∧
    (∀ (v6 : Bool) (src dst len : Nat),
      let mine := if v6 then dst ∈ s.ip6 port sub else s.ip4 port sub ≠ 0 ∧ dst = s.ip4 port sub
      let recent := (Tbl.get (fun _ => []) s.hlk.echo el).filter (fun d => decide (s.now < d + secFs))
      let served := mine ∧ len ≤ s.fld Obj.hlkPortCfg port F.hlkPortCfgMaxFrame ∧ recent.length < 1000
      (served → Next (.echoRequest port sub v6 src dst len) s (fun t => answer t (if v6 then 3 else 2) src dst ∧
        Tbl.get (fun _ => []) t.hlk.echo el = recent ++ [s.now] ∧ Keeps s t [(Obj.hlkCounts, el)] [.hlk, .out])) ∧
      (¬ served → Next (.echoRequest port sub v6 src dst len) s (fun t => t = s))) ∧
    (∀ src target : Nat,
      (target ∈ s.ip6 port sub →
        Next (.neighbourSolicitation port sub src target false) s (fun t => answer t 4 src target ∧ Keeps s t [(Obj.hlkCounts, el)] [.out]) ∧
        Next (.neighbourSolicitation port sub src target true) s (fun t => target ∉ t.ip6 port sub ∧ t.fld Obj.hlkLinkStatus el F.hlkLinkStatusDuplicate = 1 ∧
          Keeps s t [(Obj.hlkLinkStatus, el)] [.hlk])) ∧
      (target ∉ s.ip6 port sub → ∀ dad : Bool, Next (.neighbourSolicitation port sub src target dad) s (fun t => t = s))) ∧
    (∀ (v6 : Bool) (g : Nat), Next (.membershipQuery port sub v6 g) s (fun t => t.out = s.out ++
      ((s.groups6 port).filter (fun a => (g == 0 || g == a) && v6 == !isV4 a)).map (fun a => .ether port sub (if isV4 a then 5 else 6) a 0 (s.txTag port sub (s.txPcp port false))) ∧
      Keeps s t [(Obj.hlkCounts, el)] [.out])) ∧
    (∀ (cs : Nat) (quanta : Nats), Next (.pfcReceive port sub cs quanta) s (fun t => more t 9 ∧
      (∀ c < 8, let key := subEl port sub * 8 + c
        let q := quanta.getD c 0 % 2 ^ 16
        let on := bit cs c = true ∧ bit (s.fld Obj.hlkPrioCfg port F.hlkPrioCfgPfcRx) c = true
        (on → Tbl.get (fun _ => none) t.hlk.paused key = (if q = 0 then none else some (s.now + q * s.quantum port)) ∧
          (q = 0 → ∀ h ∈ t.hlk.held, ¬ (h.port = port ∧ h.sub = sub ∧ h.pcp = c))) ∧
        (¬ on → Tbl.get (fun _ => none) t.hlk.paused key = Tbl.get (fun _ => none) s.hlk.paused key)) ∧
      Keeps s t [(Obj.hlkCounts, el)] [.hlk, .out, .obj Obj.secPoaCounts]))) ∧
  (s.linkUp port sub = false → ∀ (a b c d e f : Nat) (o : Bool) (l : Nats), ∀ i ∈ [Instr.frameReceive port sub a b c d o f, .arpRequest port sub a b c,
      .echoRequest port sub o a b c, .neighbourSolicitation port sub a b o, .membershipQuery port sub o e, .pfcReceive port sub a l],
    Next i s (fun t => t = s)) ∧
  (∀ d : Nat, s.pfcAt port = some d → Next (.pfcRepeat port) s (fun t => t.now = max s.now d ∧ t.pfcAt port = some (d + 20 * usFs) ∧
    (let c := s.fld Obj.hlkPrioCfg port F.hlkPrioCfgPfcTx
     t.out = s.out ++ List.replicate (if c = 0 then 0 else ((s.subs port).filter (s.linkUp port)).length) (.pfc port c 0xFFFF)) ∧
    Keeps s t [] [.now, .hlk, .out, .obj Obj.hlkCounts])) ∧
  (s.pfcAt port = none → Next (.pfcRepeat port) s (fun t => t = s)) ∧
  (∀ c : Nat, c < 8 → let key := subEl port sub * 8 + c
    (∀ d : Nat, Tbl.get (fun _ => none) s.hlk.paused key = some d → Next (.pauseQuantaExpiry port sub c) s (fun t => t.now = max s.now d ∧
      Tbl.get (fun _ => none) t.hlk.paused key = none ∧
      t.out = s.out ++ (s.hlk.held.filter (fun h => h.port == port && h.sub == sub && h.pcp == c)).map (·.msg) ∧
      t.hlk.held = s.hlk.held.filter (fun h => !(h.port == port && h.sub == sub && h.pcp == c)) ∧
      Keeps s t [(Obj.hlkCounts, el)] [.now, .hlk, .out, .obj Obj.secPoaCounts])) ∧
    (Tbl.get (fun _ => none) s.hlk.paused key = none → Next (.pauseQuantaExpiry port sub c) s (fun t => t = s))) ∧
  (∀ ip : Nat, let l := Tbl.get (fun _ => []) s.hlk.arp el
    (∀ e, l.find? (fun y => y.1 == ip) = some e → Next (.arpEntryExpiry port sub ip) s (fun t => t.now = max s.now (e.2.2 + 300 * secFs) ∧
      Tbl.get (fun _ => []) t.hlk.arp el = l.filter (fun y => y.1 != ip) ∧ Keeps s t [] [.now, .hlk])) ∧
    (l.find? (fun y => y.1 == ip) = none → Next (.arpEntryExpiry port sub ip) s (fun t => t = s)))

/-- R728, R729, R738, R739, R741. -/
def Obligations.LinksComeUpAndGoDown : Prop :=
  (∀ (s : State) (port : Nat), port < 2 →
    let trained := fun (t : State) (st : Nat) => (∀ sub < 4, t.linkState port sub = (if sub < t.subCount port then st else 0)) ∧
      ((∃ sub < 4, s.linkState port sub = 3) → Raised t Ev.hlkLinkDown)
    let off := fun (t : State) => s.domOn (13 + port) = false ∨ t.fld Obj.hlkPortCfg port F.hlkPortCfgEnable = 0
    (∀ id : Nat, Next (.moduleInsert port id) s (fun t =>
      t.rd Obj.hlkModule port = 1 + (if s.domOn (13 + port) then 2 else 0) + id % 256 * 256 ∧ (off s → trained t 0) ∧ (¬ off s → trained t 2) ∧
      Keeps s t [(Obj.hlkModule, port)] (withFaults [.obj Obj.hlkLinkStatus]))) ∧
    Next (.moduleRemoval port) s (fun t => t.rd Obj.hlkModule port = 0 ∧ (off s → trained t 0) ∧ (¬ off s → trained t 1) ∧
      Keeps s t [(Obj.hlkModule, port)] (withFaults [.obj Obj.hlkLinkStatus])) ∧
    (∀ (n v : Nat) (x : Session) (r : ObjRow), Takes (.portCfg n port (toLE ((tyLen r.ty).getD 0) v)) s n x r Obj.hlkPortCfg port v [port] (fun s t =>
      let trained := fun (st : Nat) => (∀ sub < 4, t.linkState port sub = (if sub < t.subCount port then st else 0)) ∧ ((∃ sub < 4, s.linkState port sub = 3) → Raised t Ev.hlkLinkDown)
      let off := s.domOn (13 + port) = false ∨ t.fld Obj.hlkPortCfg port F.hlkPortCfgEnable = 0
      t.rd Obj.hlkPortCfg port = v ∧ (off → trained 0) ∧ (¬ off → trained (if s.fld Obj.hlkModule port F.hlkModuleActive = 0 then 1 else 2)) ∧
        t.out.getLast? = some (wrote n rOk 0xFFFF) ∧ Keeps s t [(Obj.hlkPortCfg, port)] (withFaults [.obj Obj.hlkLinkStatus])))) ∧
  (∀ (s : State) (port sub : Nat),
    let el := subEl port sub
    (sub < s.subCount port → (s.linkState port sub = 2 ∨ s.linkState port sub = 4) → Next (.hlkLinkUp port sub) s (fun t =>
      t.linkState port sub = 3 ∧ t.srcPending Ev.hlkLinkUp = true ∧ t.fld Obj.hlkLinkStatus el F.hlkLinkStatusDuplicate = 0 ∧
      Tbl.get (fun _ => []) t.hlk.dups el = [] ∧ Tbl.get (fun _ => false) t.hlk.dropSeen el = false ∧
      ((if s.ip4 port sub = 0 then [] else [.ether port sub 7 (s.ip4 port sub) (s.ip4 port sub) (s.txTag port sub (s.txPcp port false))]) ++ (t.ip6 port sub).map (fun a => .ether port sub 8 a 0 (s.txTag port sub (s.txPcp port false))) ++
        (s.groups6 port).map (fun a => .ether port sub (if isV4 a then 5 else 6) a 0 (s.txTag port sub (s.txPcp port false)))) <:+ t.out ∧
      Keeps s t [(Obj.hlkLinkStatus, el)] signalParts)) ∧
    (s.subCount port ≤ sub ∨ (s.linkState port sub ≠ 2 ∧ s.linkState port sub ≠ 4) → Next (.hlkLinkUp port sub) s (fun t => t = s)) ∧
    (s.linkUp port sub = true → Next (.hlkLinkDown port sub) s (fun t => t.linkState port sub = 4 ∧ Raised t Ev.hlkLinkDown ∧
      (∀ h ∈ t.hlk.held, ¬ (h.port = port ∧ h.sub = sub)) ∧ Keeps s t [(Obj.hlkLinkStatus, el)] faultParts)) ∧
    (s.linkUp port sub = false → Next (.hlkLinkDown port sub) s (fun t => t = s)))

/-- R776, R797 to R799, R801, R802. -/
def Obligations.DumpsAreWrittenAndCleared : Prop :=
  (∀ s : State,
    let st := fun (t : State) (f : Fld) => t.fld Obj.dmpStatus 0 f
    let begins := s.mode = .dump ∧ s.psm.plan = none ∧ s.psm.ramp = none ∧ st s F.dmpStatusState = 0 ∧ s.trans = none
    (begins → (∀ c < 16, (c = s.system0 ∨ (s.coreState s.system0 = 5 ∧ ∀ d < c, s.coreState d = 5)) → s.coreState c ≠ 5 →
      Next .dumpEntry s (fun t => st t F.dmpStatusState = 1 ∧ st t F.dmpStatusWriter = c ∧
        (st t F.dmpStatusPartial = 1 ↔ (240 ≤ st s F.dmpStatusCause ∧ st s F.dmpStatusCause ≤ 243) ∨ ∃ k < 2, s.stack k ≠ 2 ∧ s.stack k ≠ 3) ∧
        Keeps s t [(Obj.dmpStatus, 0)] []))) ∧
    (begins → (∀ c < 16, s.coreState c = 5) → Next .dumpEntry s (fun t => st t F.dmpStatusState = 3 ∧ Keeps s t [(Obj.dmpStatus, 0)] [])) ∧
    (¬ begins → Next .dumpEntry s (fun t => t = s)) ∧
    (∀ body : Bytes,
      (st s F.dmpStatusState = 1 → Next (.dmpReady body) s (fun t => st t F.dmpStatusState = 2 ∧ t.srcPending Ev.dmpReady = true ∧
        leAt (t.img Obj.dmpImage 0) 0 4 = 0x31504D44 ∧ leAt (t.img Obj.dmpImage 0) 6 1 = st s F.dmpStatusPartial ∧
        leAt (t.img Obj.dmpImage 0) 16 2 = st s F.dmpStatusCause % 2 ^ 16 ∧
        (∃ b : Bytes, t.bot = { s.bot with summaries := (b :: s.bot.summaries).take 8 } ∧ leAt b 0 4 = 0x31504D44 ∧ leAt b 6 1 = st s F.dmpStatusPartial + 2) ∧
        Keeps s t [(Obj.dmpStatus, 0)] (withSignals [.images, .bot]))) ∧
      (st s F.dmpStatusState ≠ 1 → Next (.dmpReady body) s (fun t => t = s)))) ∧
  (∀ (s : State) (n : Nat) (x : Session) (r : ObjRow),
    (Takes (.dmpClear n) s n x r Obj.dmpClear 0 1 [0] (fun b t => t.fld Obj.dmpStatus 0 F.dmpStatusState = 0 ∧ t.img Obj.dmpImage 0 = [] ∧
      t.trans = some ⟨11, 1, 14, some b.now⟩ ∧ t.out = b.out ++ [wrote n rOk 0xFFFF] ∧
      Keeps b t [(Obj.dmpClear, 0), (Obj.dmpStatus, 0)] [.images, .trans, .out])) ∧
    (Takes (.summaryClear n) s n x r Obj.dmpSummaryClear 0 1 [0] (fun b t => t.bot = { b.bot with summaries := [] } ∧
      t.out = b.out ++ [wrote n rOk 0xFFFF] ∧ Keeps b t [(Obj.dmpSummaryClear, 0)] [.bot, .out])) ∧
    (Takes (.statsClear n) s n x r Obj.wdpStatsClear 0 1 [0] (fun b t => (∀ c < 16, t.rd Obj.wdpStats c = 0) ∧
      t.fld Obj.wdpQueue 0 ⟨256, 256⟩ = 0 ∧ t.fld Obj.wdpQueue 0 ⟨0, 256⟩ = b.fld Obj.wdpQueue 0 ⟨0, 256⟩ ∧
      (∀ c, (t.core c).item = (b.core c).item ∧ (t.core c).busy = [] ∧ (t.core c).since = (b.core c).since.map (fun _ => b.now)) ∧
      t.out = b.out ++ [wrote n rOk 0xFFFF] ∧
      Keeps b t ([(Obj.wdpStatsClear, 0), (Obj.wdpQueue, 0)] ++ (List.range 16).map (fun c => (Obj.wdpStats, c))) [.cores, .out])))
end

