-- ==== Sys2Proof/Laws/Tables.lean ====
section
/-! SUPPORT. Laws of the sparse tables and of record fields. -/
namespace Sys2Proof.Machine

theorem Tbl.find_set_self {α : Type} (t : Tbl α) (k : Nat) (v : α) : Tbl.find (Tbl.set t k v) k = some v := by
  induction t with
  | nil => simp [Tbl.set, Tbl.find]
  | cons p t ih =>
    obtain ⟨j, a⟩ := p
    simp only [Tbl.set]
    split
    · simp [Tbl.find]
    · split
      · simp [Tbl.find]
      · simp [Tbl.find, *]

theorem Tbl.find_set_ne {α : Type} (t : Tbl α) {k k' : Nat} (v : α) (h : k' ≠ k) : Tbl.find (Tbl.set t k v) k' = Tbl.find t k' := by
  induction t with
  | nil => simp [Tbl.set, Tbl.find, Ne.symm h]
  | cons p t ih =>
    obtain ⟨j, a⟩ := p
    simp only [Tbl.set]
    split
    · simp [Tbl.find, Ne.symm h]
    · split
      · subst_vars; simp [Tbl.find, Ne.symm h]
      · simp [Tbl.find, ih]

theorem Tbl.find_del_self {α : Type} (t : Tbl α) (k : Nat) : Tbl.find (Tbl.del t k) k = none := by
  induction t with
  | nil => rfl
  | cons p t ih =>
    obtain ⟨j, a⟩ := p
    simp only [Tbl.del]
    split
    · exact ih
    · simp [Tbl.find, *]

theorem Tbl.find_del_ne {α : Type} (t : Tbl α) {k k' : Nat} (h : k' ≠ k) : Tbl.find (Tbl.del t k) k' = Tbl.find t k' := by
  induction t with
  | nil => rfl
  | cons p t ih =>
    obtain ⟨j, a⟩ := p
    simp only [Tbl.del]
    split
    · subst_vars; simp [Tbl.find, Ne.symm h, ih]
    · simp [Tbl.find, ih]

/-- A key reads as what was last written to it. -/
@[simp] theorem Tbl.get_put_self {α : Type} [DecidableEq α] (d : Nat → α) (t : Tbl α) (k : Nat) (v : α) :
    Tbl.get d (Tbl.put d t k v) k = v := by
  unfold Tbl.get Tbl.put
  split
  · simp [Tbl.find_del_self, *]
  · simp [Tbl.find_set_self]

/-- A write leaves every other key alone. -/
theorem Tbl.get_put_ne {α : Type} [DecidableEq α] (d : Nat → α) (t : Tbl α) {k k' : Nat} (v : α) (h : k' ≠ k) :
    Tbl.get d (Tbl.put d t k v) k' = Tbl.get d t k' := by
  unfold Tbl.get Tbl.put
  split
  · simp [Tbl.find_del_ne t h]
  · simp [Tbl.find_set_ne t v h]

theorem Tbl.get_put {α : Type} [DecidableEq α] (d : Nat → α) (t : Tbl α) (k k' : Nat) (v : α) :
    Tbl.get d (Tbl.put d t k v) k' = if k' = k then v else Tbl.get d t k' := by
  split
  · subst_vars; simp
  · exact Tbl.get_put_ne d t v ‹_›

theorem Tbl.mem_set {α : Type} {t : Tbl α} {k : Nat} {v : α} {e : Nat × α} (h : e ∈ Tbl.set t k v) : e = (k, v) ∨ e ∈ t := by
  induction t with
  | nil => simp_all [Tbl.set]
  | cons p t ih =>
    obtain ⟨j, a⟩ := p
    simp only [Tbl.set] at h
    split at h
    · simpa using h
    · split at h
      · simp only [List.mem_cons] at h ⊢; tauto
      · simp only [List.mem_cons] at h ⊢
        rcases h with h | h
        · exact .inr (.inl h)
        · rcases ih h with h | h <;> tauto

theorem Tbl.mem_del {α : Type} {t : Tbl α} {k : Nat} {e : Nat × α} (h : e ∈ Tbl.del t k) : e ∈ t := by
  induction t with
  | nil => exact h
  | cons p t ih =>
    obtain ⟨j, a⟩ := p
    simp only [Tbl.del] at h
    split at h
    · exact List.mem_cons_of_mem _ (ih h)
    · simp only [List.mem_cons] at h ⊢
      exact h.imp id ih

theorem Tbl.pairwise_set {α : Type} {t : Tbl α} (k : Nat) (v : α) (h : t.Pairwise (fun x y => x.1 < y.1)) :
    (Tbl.set t k v).Pairwise (fun x y => x.1 < y.1) := by
  induction t with
  | nil => simp [Tbl.set]
  | cons p t ih =>
    obtain ⟨j, a⟩ := p
    rw [List.pairwise_cons] at h
    simp only [Tbl.set]
    split
    · rename_i hk
      refine List.pairwise_cons.2 ⟨fun e he => ?_, List.pairwise_cons.2 h⟩
      rcases List.mem_cons.1 he with rfl | he
      · exact hk
      · exact lt_trans hk (h.1 e he)
    · split
      · subst_vars; exact List.pairwise_cons.2 h
      · refine List.pairwise_cons.2 ⟨fun e he => ?_, ih h.2⟩
        rcases Tbl.mem_set he with rfl | he
        · simp only; omega
        · exact h.1 e he

theorem Tbl.pairwise_del {α : Type} {t : Tbl α} (k : Nat) (h : t.Pairwise (fun x y => x.1 < y.1)) :
    (Tbl.del t k).Pairwise (fun x y => x.1 < y.1) := by
  induction t with
  | nil => exact h
  | cons p t ih =>
    obtain ⟨j, a⟩ := p
    rw [List.pairwise_cons] at h
    simp only [Tbl.del]
    split
    · exact ih h.2
    · exact List.pairwise_cons.2 ⟨fun e he => h.1 e (Tbl.mem_del he), ih h.2⟩

/-- A write keeps the canonical form. -/
theorem Tbl.put_wf {α : Type} [DecidableEq α] {d : Nat → α} {t : Tbl α} (k : Nat) (v : α) (h : Tbl.Wf d t) : Tbl.Wf d (Tbl.put d t k v) := by
  unfold Tbl.put
  split
  · exact ⟨Tbl.pairwise_del k h.1, fun e he => h.2 e (Tbl.mem_del he)⟩
  · refine ⟨Tbl.pairwise_set k v h.1, fun e he => ?_⟩
    rcases Tbl.mem_set he with rfl | he
    · assumption
    · exact h.2 e he

/-- Two fields that do not overlap. -/
def Fld.Apart (f g : Fld) : Prop := f.lo + f.w ≤ g.lo ∨ g.lo + g.w ≤ f.lo

theorem Fld.get_testBit (f : Fld) (v i : Nat) : (f.get v).testBit i = (decide (i < f.w) && v.testBit (f.lo + i)) := by
  simp [Fld.get, Nat.testBit_mod_two_pow, Nat.testBit_shiftRight]

/-- A field reads as what was last put into it, in its width. -/
@[simp] theorem Fld.get_put_self (f : Fld) (v x : Nat) : f.get (f.put v x) = x % 2 ^ f.w := by
  apply Nat.eq_of_testBit_eq
  intro i
  rw [Fld.get_testBit, Fld.put, Nat.testBit_xor, Nat.testBit_shiftLeft]
  simp only [ge_iff_le, Nat.le_add_right, decide_true, Bool.true_and, Nat.add_sub_cancel_left, Nat.testBit_xor, Fld.get_testBit, Nat.testBit_mod_two_pow]
  cases decide (i < f.w) <;> simp

/-- Putting one field leaves a field apart from it alone. -/
theorem Fld.get_put_apart (f g : Fld) (v x : Nat) (h : f.Apart g) : g.get (f.put v x) = g.get v := by
  apply Nat.eq_of_testBit_eq
  intro i
  rw [Fld.get_testBit, Fld.get_testBit, Fld.put, Nat.testBit_xor, Nat.testBit_shiftLeft]
  by_cases hi : i < g.w
  · have hz : (decide (f.lo ≤ g.lo + i) && (f.get v ^^^ x % 2 ^ f.w).testBit (g.lo + i - f.lo)) = false := by
      by_cases h1 : f.lo ≤ g.lo + i
      · have h2 : ¬ (g.lo + i - f.lo < f.w) := by rcases h with h | h <;> omega
        simp [Nat.testBit_xor, Fld.get_testBit, Nat.testBit_mod_two_pow, h2]
      · simp [h1]
    simp only [ge_iff_le]
    rw [hz]; simp
  · simp [hi]

theorem odKey_inj {o o' e e' : Nat} (h : o < 65536) (h' : o' < 65536) : odKey o' e' = odKey o e ↔ o' = o ∧ e' = e := by
  unfold odKey; constructor
  · intro hh; omega
  · rintro ⟨rfl, rfl⟩; rfl

end Sys2Proof.Machine
end

