-- ==== Sys2Proof/Laws/Kept.lean ====
section
/-! SUPPORT. What an operation leaves alone: a relation between the state before and the state after, indexed by the set of parts that may differ, and its laws. Nothing is ever put into the queue or taken from it, time never goes back, both sparse stores keep their form, and fuses stay blown. -/
namespace Sys2Proof.Machine

/-- The bit that stands for a part in a set of parts. -/
def Part.num : Part → Nat
  | .obj o => o + 64
  | .now => 0
  | .freeCtr => 1
  | .images => 2
  | .out => 3
  | .trans => 4
  | .safeWanted => 5
  | .cores => 6
  | .ready => 7
  | .flowFree => 8
  | .homes => 9
  | .wdpFullAt => 10
  | .wdpTrace => 11
  | .wdpLost => 12
  | .srcs => 13
  | .groups => 14
  | .fcr => 15
  | .clk => 16
  | .poa => 17
  | .hlk => 18
  | .loops => 19
  | .adc => 20
  | .psm => 21
  | .ode => 22
  | .waiters => 23
  | .results => 24
  | .jobs => 25
  | .chartLen => 26
  | .mem => 27
  | .hms => 28
  | .staged => 29
  | .ndls => 30
  | .evts => 31
  | .ucode => 32
  | .ubase => 33
  | .traps => 34
  | .sites => 35
  | .queues => 36
  | .pins => 37
  | .levelBus => 38
  | .levelFree => 39
  | .ras => 40
  | .tae => 41
  | .csl => 42
  | .cal => 43
  | .tdc => 44
  | .plc => 45
  | .bot => 46

/-- The set of one object. -/
abbrev ob (o : Nat) : Nat := 2 ^ (o + 64)

/-- The set of the field now. -/
abbrev pt.now : Nat := 2 ^ 0
/-- The set of the field freeCtr. -/
abbrev pt.freeCtr : Nat := 2 ^ 1
/-- The set of the field images. -/
abbrev pt.images : Nat := 2 ^ 2
/-- The set of the field out. -/
abbrev pt.out : Nat := 2 ^ 3
/-- The set of the field trans. -/
abbrev pt.trans : Nat := 2 ^ 4
/-- The set of the field safeWanted. -/
abbrev pt.safeWanted : Nat := 2 ^ 5
/-- The set of the field cores. -/
abbrev pt.cores : Nat := 2 ^ 6
/-- The set of the field ready. -/
abbrev pt.ready : Nat := 2 ^ 7
/-- The set of the field flowFree. -/
abbrev pt.flowFree : Nat := 2 ^ 8
/-- The set of the field homes. -/
abbrev pt.homes : Nat := 2 ^ 9
/-- The set of the field wdpFullAt. -/
abbrev pt.wdpFullAt : Nat := 2 ^ 10
/-- The set of the field wdpTrace. -/
abbrev pt.wdpTrace : Nat := 2 ^ 11
/-- The set of the field wdpLost. -/
abbrev pt.wdpLost : Nat := 2 ^ 12
/-- The set of the field srcs. -/
abbrev pt.srcs : Nat := 2 ^ 13
/-- The set of the field groups. -/
abbrev pt.groups : Nat := 2 ^ 14
/-- The set of the field fcr. -/
abbrev pt.fcr : Nat := 2 ^ 15
/-- The set of the field clk. -/
abbrev pt.clk : Nat := 2 ^ 16
/-- The set of the field poa. -/
abbrev pt.poa : Nat := 2 ^ 17
/-- The set of the field hlk. -/
abbrev pt.hlk : Nat := 2 ^ 18
/-- The set of the field loops. -/
abbrev pt.loops : Nat := 2 ^ 19
/-- The set of the field adc. -/
abbrev pt.adc : Nat := 2 ^ 20
/-- The set of the field psm. -/
abbrev pt.psm : Nat := 2 ^ 21
/-- The set of the field ode. -/
abbrev pt.ode : Nat := 2 ^ 22
/-- The set of the field waiters. -/
abbrev pt.waiters : Nat := 2 ^ 23
/-- The set of the field results. -/
abbrev pt.results : Nat := 2 ^ 24
/-- The set of the field jobs. -/
abbrev pt.jobs : Nat := 2 ^ 25
/-- The set of the field chartLen. -/
abbrev pt.chartLen : Nat := 2 ^ 26
/-- The set of the field mem. -/
abbrev pt.mem : Nat := 2 ^ 27
/-- The set of the field hms. -/
abbrev pt.hms : Nat := 2 ^ 28
/-- The set of the field staged. -/
abbrev pt.staged : Nat := 2 ^ 29
/-- The set of the field ndls. -/
abbrev pt.ndls : Nat := 2 ^ 30
/-- The set of the field evts. -/
abbrev pt.evts : Nat := 2 ^ 31
/-- The set of the field ucode. -/
abbrev pt.ucode : Nat := 2 ^ 32
/-- The set of the field ubase. -/
abbrev pt.ubase : Nat := 2 ^ 33
/-- The set of the field traps. -/
abbrev pt.traps : Nat := 2 ^ 34
/-- The set of the field sites. -/
abbrev pt.sites : Nat := 2 ^ 35
/-- The set of the field queues. -/
abbrev pt.queues : Nat := 2 ^ 36
/-- The set of the field pins. -/
abbrev pt.pins : Nat := 2 ^ 37
/-- The set of the field levelBus. -/
abbrev pt.levelBus : Nat := 2 ^ 38
/-- The set of the field levelFree. -/
abbrev pt.levelFree : Nat := 2 ^ 39
/-- The set of the field ras. -/
abbrev pt.ras : Nat := 2 ^ 40
/-- The set of the field tae. -/
abbrev pt.tae : Nat := 2 ^ 41
/-- The set of the field csl. -/
abbrev pt.csl : Nat := 2 ^ 42
/-- The set of the field cal. -/
abbrev pt.cal : Nat := 2 ^ 43
/-- The set of the field tdc. -/
abbrev pt.tdc : Nat := 2 ^ 44
/-- The set of the field plc. -/
abbrev pt.plc : Nat := 2 ^ 45
/-- The set of the field bot. -/
abbrev pt.bot : Nat := 2 ^ 46

/-- The set of every object. -/
abbrev pt.objs : Nat := (2 ^ 65536 - 1) * 2 ^ 64

/-- The set of everything. -/
abbrev pt.all : Nat := 2 ^ 65600 - 1

/-- From s to t only parts of m may differ. -/
structure Kept (m : Nat) (s t : State) : Prop where
  same : ∀ p : Part, m.testBit p.num = false → p.Same s t
  pending : t.pending = s.pending
  now : s.now ≤ t.now
  mem : Memory.wf s.mem → Memory.wf t.mem
  od : Tbl.Wf odDflt s.od → Tbl.Wf odDflt t.od
  fused : s.bot.fused ≤ 64 → s.bot.fused ≤ t.bot.fused ∧ t.bot.fused ≤ 64
  revoked : ∀ k < 4, s.bot.revoked.testBit k = true → t.bot.revoked.testBit k = true

theorem Part.same_refl (p : Part) (s : State) : p.Same s s := by cases p <;> simp [Part.Same]

theorem Part.same_trans {p : Part} {s t u : State} (h : p.Same s t) (k : p.Same t u) : p.Same s u := by
  cases p <;> simp_all [Part.Same]

theorem Kept.refl (m : Nat) (s : State) : Kept m s s :=
  ⟨fun p _ => p.same_refl s, rfl, Nat.le_refl _, id, id, fun h => ⟨Nat.le_refl _, h⟩, fun _ _ h => h⟩

theorem Kept.trans {m : Nat} {s t u : State} (h : Kept m s t) (k : Kept m t u) : Kept m s u :=
  ⟨fun p hp => Part.same_trans (h.same p hp) (k.same p hp), k.pending.trans h.pending, h.now.trans k.now,
    k.mem ∘ h.mem, k.od ∘ h.od, fun a => ⟨(h.fused a).1.trans (k.fused (h.fused a).2).1, (k.fused (h.fused a).2).2⟩, fun i hi b => k.revoked i hi (h.revoked i hi b)⟩

/-- A subset of the parts: no bit of a is missing from b. -/
theorem Kept.mono {a b : Nat} {s t : State} (h : Kept a s t) (hab : a ||| b = b) : Kept b s t :=
  ⟨fun p hp => h.same p (by rw [← hab, Nat.testBit_or] at hp; simpa using (Bool.or_eq_false_iff.1 hp).1),
    h.pending, h.now, h.mem, h.od, h.fused, h.revoked⟩

/-- One more operation, whose parts lie within m. -/
theorem Kept.step {a m : Nat} {s t u : State} (k : Kept a t u) (ham : a ||| m = m) (h : Kept m s t) : Kept m s u :=
  h.trans (k.mono ham)

/-- The state after an outcome that carries a value as well. -/
theorem Kept.of_snd {α : Type} {m : Nat} {s t : State} {p : α × State} {a : α} (e : p = (a, t)) (h : Kept m s p.2) : Kept m s t := by
  subst e; exact h

/-- An operation repeated over a list. -/
theorem Kept.foldl {α : Type} {m : Nat} {s t : State} {f : State → α → State} {l : List α}
    (k : ∀ x a, Kept m s x → Kept m s (f x a)) (h : Kept m s t) : Kept m s (l.foldl f t) := by
  induction l generalizing t with
  | nil => exact h
  | cons a l ih => exact ih (k t a h)

/-- An operation repeated over a list, with a value carried along. -/
theorem Kept.foldl_snd {α β : Type} {m : Nat} {s : State} {f : β × State → α → β × State} {l : List α} {p : β × State}
    (k : ∀ (x : β × State) a, Kept m s x.2 → Kept m s (f x a).2) (h : Kept m s p.2) : Kept m s (l.foldl f p).2 := by
  induction l generalizing p with
  | nil => exact h
  | cons a l ih => exact ih (k p a h)

/-- What an outcome leaves alone, where it is a next state. -/
structure KeptR (m : Nat) (s : State) (r : Host.Outcome State Fault Refusal) : Prop where
  kept : ∀ t, r = .next t → Kept m s t

theorem KeptR.next {m : Nat} {s t : State} (h : Kept m s t) : KeptR m s (.next t) :=
  ⟨fun u e => by cases e; exact h⟩

theorem KeptR.fault {m : Nat} {s : State} {f : Fault} : KeptR m s (.fault f) := ⟨fun u e => by cases e⟩

theorem KeptR.step {a m : Nat} {s t : State} {r : Host.Outcome State Fault Refusal} (k : KeptR a t r) (ham : a ||| m = m) (h : Kept m s t) : KeptR m s r :=
  ⟨fun u e => h.trans ((k.kept u e).mono ham)⟩

theorem pt_ob_testBit {m o : Nat} (h : ob o ||| m = m) : m.testBit (o + 64) = true := by
  rw [← h, Nat.testBit_or, ob, Nat.testBit_two_pow_self]; rfl

theorem pt_testBit {m i : Nat} (h : 2 ^ i ||| m = m) : m.testBit i = true := by
  rw [← h, Nat.testBit_or, Nat.testBit_two_pow_self]; rfl

/-- Every object lies within the set of every object. -/
theorem ob_objs {o m : Nat} (h : pt.objs ||| m = m) : ob (o % 65536) ||| m = m := by
  apply Nat.eq_of_testBit_eq
  intro i
  rw [Nat.testBit_or, ob, Nat.testBit_two_pow]
  by_cases hi : o % 65536 + 64 = i
  · have k : m.testBit i = true := by
      rw [← h, Nat.testBit_or, pt.objs, Nat.testBit_mul_two_pow, Nat.testBit_two_pow_sub_one]
      have h1 : i ≥ 64 := by omega
      have h2 : i - 64 < 65536 := by omega
      simp [h1, h2]
    simp [k]
  · simp [hi]

/-- R79: a write changes its element and keeps the store's form. -/
theorem State.wr_kept (s : State) (o e v : Nat) : Kept (ob (o % 65536)) s (s.wr o e v) := by
  refine ⟨fun p hp => ?_, rfl, Nat.le_refl _, id, Tbl.put_wf _ _, fun h => ⟨Nat.le_refl _, h⟩, fun _ _ h => h⟩
  cases p with
  | obj q =>
    intro x hq
    have hne : q ≠ o % 65536 := by
      intro hq'
      rw [Part.num, hq', ob, Nat.testBit_two_pow_self] at hp
      cases hp
    refine Tbl.get_put_ne _ _ _ (fun hk => ?_)
    have hk' : x * 65536 + q = e * 65536 + o := hk
    omega
  | _ => rfl

theorem Kept.set_now {m : Nat} {s u : State} {x : Nat} (hm : pt.now ||| m = m) (hn : u.now ≤ x) (h : Kept m s u) : Kept m s { u with now := x } := by
  refine ⟨fun p hp => ?_, h.pending, h.now.trans hn, h.mem, h.od, h.fused, h.revoked⟩
  have k := h.same p hp
  cases p <;> first | exact k | (exfalso; rw [Part.num, pt_testBit hm] at hp; cases hp)

theorem Kept.set_freeCtr {m : Nat} {s u : State} {x : Nat} (hm : pt.freeCtr ||| m = m)  (h : Kept m s u) : Kept m s { u with freeCtr := x } := by
  refine ⟨fun p hp => ?_, h.pending, h.now, h.mem, h.od, h.fused, h.revoked⟩
  have k := h.same p hp
  cases p <;> first | exact k | (exfalso; rw [Part.num, pt_testBit hm] at hp; cases hp)

theorem Kept.set_images {m : Nat} {s u : State} {x : Tbl Bytes} (hm : pt.images ||| m = m)  (h : Kept m s u) : Kept m s { u with images := x } := by
  refine ⟨fun p hp => ?_, h.pending, h.now, h.mem, h.od, h.fused, h.revoked⟩
  have k := h.same p hp
  cases p <;> first | exact k | (exfalso; rw [Part.num, pt_testBit hm] at hp; cases hp)

theorem Kept.set_out {m : Nat} {s u : State} {x : List OutMsg} (hm : pt.out ||| m = m)  (h : Kept m s u) : Kept m s { u with out := x } := by
  refine ⟨fun p hp => ?_, h.pending, h.now, h.mem, h.od, h.fused, h.revoked⟩
  have k := h.same p hp
  cases p <;> first | exact k | (exfalso; rw [Part.num, pt_testBit hm] at hp; cases hp)

theorem Kept.set_trans {m : Nat} {s u : State} {x : Option Trans} (hm : pt.trans ||| m = m)  (h : Kept m s u) : Kept m s { u with trans := x } := by
  refine ⟨fun p hp => ?_, h.pending, h.now, h.mem, h.od, h.fused, h.revoked⟩
  have k := h.same p hp
  cases p <;> first | exact k | (exfalso; rw [Part.num, pt_testBit hm] at hp; cases hp)

theorem Kept.set_safeWanted {m : Nat} {s u : State} {x : Bool} (hm : pt.safeWanted ||| m = m)  (h : Kept m s u) : Kept m s { u with safeWanted := x } := by
  refine ⟨fun p hp => ?_, h.pending, h.now, h.mem, h.od, h.fused, h.revoked⟩
  have k := h.same p hp
  cases p <;> first | exact k | (exfalso; rw [Part.num, pt_testBit hm] at hp; cases hp)

theorem Kept.set_cores {m : Nat} {s u : State} {x : Tbl CoreRt} (hm : pt.cores ||| m = m)  (h : Kept m s u) : Kept m s { u with cores := x } := by
  refine ⟨fun p hp => ?_, h.pending, h.now, h.mem, h.od, h.fused, h.revoked⟩
  have k := h.same p hp
  cases p <;> first | exact k | (exfalso; rw [Part.num, pt_testBit hm] at hp; cases hp)

theorem Kept.set_ready {m : Nat} {s u : State} {x : List Item} (hm : pt.ready ||| m = m)  (h : Kept m s u) : Kept m s { u with ready := x } := by
  refine ⟨fun p hp => ?_, h.pending, h.now, h.mem, h.od, h.fused, h.revoked⟩
  have k := h.same p hp
  cases p <;> first | exact k | (exfalso; rw [Part.num, pt_testBit hm] at hp; cases hp)

theorem Kept.set_flowFree {m : Nat} {s u : State} {x : Tbl Nat} (hm : pt.flowFree ||| m = m)  (h : Kept m s u) : Kept m s { u with flowFree := x } := by
  refine ⟨fun p hp => ?_, h.pending, h.now, h.mem, h.od, h.fused, h.revoked⟩
  have k := h.same p hp
  cases p <;> first | exact k | (exfalso; rw [Part.num, pt_testBit hm] at hp; cases hp)

theorem Kept.set_homes {m : Nat} {s u : State} {x : Tbl Nat} (hm : pt.homes ||| m = m)  (h : Kept m s u) : Kept m s { u with homes := x } := by
  refine ⟨fun p hp => ?_, h.pending, h.now, h.mem, h.od, h.fused, h.revoked⟩
  have k := h.same p hp
  cases p <;> first | exact k | (exfalso; rw [Part.num, pt_testBit hm] at hp; cases hp)

theorem Kept.set_wdpFullAt {m : Nat} {s u : State} {x : Option Nat} (hm : pt.wdpFullAt ||| m = m)  (h : Kept m s u) : Kept m s { u with wdpFullAt := x } := by
  refine ⟨fun p hp => ?_, h.pending, h.now, h.mem, h.od, h.fused, h.revoked⟩
  have k := h.same p hp
  cases p <;> first | exact k | (exfalso; rw [Part.num, pt_testBit hm] at hp; cases hp)

theorem Kept.set_wdpTrace {m : Nat} {s u : State} {x : List Nat} (hm : pt.wdpTrace ||| m = m)  (h : Kept m s u) : Kept m s { u with wdpTrace := x } := by
  refine ⟨fun p hp => ?_, h.pending, h.now, h.mem, h.od, h.fused, h.revoked⟩
  have k := h.same p hp
  cases p <;> first | exact k | (exfalso; rw [Part.num, pt_testBit hm] at hp; cases hp)

theorem Kept.set_wdpLost {m : Nat} {s u : State} {x : Bool} (hm : pt.wdpLost ||| m = m)  (h : Kept m s u) : Kept m s { u with wdpLost := x } := by
  refine ⟨fun p hp => ?_, h.pending, h.now, h.mem, h.od, h.fused, h.revoked⟩
  have k := h.same p hp
  cases p <;> first | exact k | (exfalso; rw [Part.num, pt_testBit hm] at hp; cases hp)

theorem Kept.set_srcs {m : Nat} {s u : State} {x : Tbl SrcRt} (hm : pt.srcs ||| m = m)  (h : Kept m s u) : Kept m s { u with srcs := x } := by
  refine ⟨fun p hp => ?_, h.pending, h.now, h.mem, h.od, h.fused, h.revoked⟩
  have k := h.same p hp
  cases p <;> first | exact k | (exfalso; rw [Part.num, pt_testBit hm] at hp; cases hp)

theorem Kept.set_groups {m : Nat} {s u : State} {x : Tbl (Option Nat)} (hm : pt.groups ||| m = m)  (h : Kept m s u) : Kept m s { u with groups := x } := by
  refine ⟨fun p hp => ?_, h.pending, h.now, h.mem, h.od, h.fused, h.revoked⟩
  have k := h.same p hp
  cases p <;> first | exact k | (exfalso; rw [Part.num, pt_testBit hm] at hp; cases hp)

theorem Kept.set_fcr {m : Nat} {s u : State} {x : FcrRt} (hm : pt.fcr ||| m = m)  (h : Kept m s u) : Kept m s { u with fcr := x } := by
  refine ⟨fun p hp => ?_, h.pending, h.now, h.mem, h.od, h.fused, h.revoked⟩
  have k := h.same p hp
  cases p <;> first | exact k | (exfalso; rw [Part.num, pt_testBit hm] at hp; cases hp)

theorem Kept.set_clk {m : Nat} {s u : State} {x : ClkRt} (hm : pt.clk ||| m = m)  (h : Kept m s u) : Kept m s { u with clk := x } := by
  refine ⟨fun p hp => ?_, h.pending, h.now, h.mem, h.od, h.fused, h.revoked⟩
  have k := h.same p hp
  cases p <;> first | exact k | (exfalso; rw [Part.num, pt_testBit hm] at hp; cases hp)

theorem Kept.set_poa {m : Nat} {s u : State} {x : PoaRt} (hm : pt.poa ||| m = m)  (h : Kept m s u) : Kept m s { u with poa := x } := by
  refine ⟨fun p hp => ?_, h.pending, h.now, h.mem, h.od, h.fused, h.revoked⟩
  have k := h.same p hp
  cases p <;> first | exact k | (exfalso; rw [Part.num, pt_testBit hm] at hp; cases hp)

theorem Kept.set_hlk {m : Nat} {s u : State} {x : HlkRt} (hm : pt.hlk ||| m = m)  (h : Kept m s u) : Kept m s { u with hlk := x } := by
  refine ⟨fun p hp => ?_, h.pending, h.now, h.mem, h.od, h.fused, h.revoked⟩
  have k := h.same p hp
  cases p <;> first | exact k | (exfalso; rw [Part.num, pt_testBit hm] at hp; cases hp)

theorem Kept.set_loops {m : Nat} {s u : State} {x : Tbl LoopRt} (hm : pt.loops ||| m = m)  (h : Kept m s u) : Kept m s { u with loops := x } := by
  refine ⟨fun p hp => ?_, h.pending, h.now, h.mem, h.od, h.fused, h.revoked⟩
  have k := h.same p hp
  cases p <;> first | exact k | (exfalso; rw [Part.num, pt_testBit hm] at hp; cases hp)

theorem Kept.set_adc {m : Nat} {s u : State} {x : AdcRt} (hm : pt.adc ||| m = m)  (h : Kept m s u) : Kept m s { u with adc := x } := by
  refine ⟨fun p hp => ?_, h.pending, h.now, h.mem, h.od, h.fused, h.revoked⟩
  have k := h.same p hp
  cases p <;> first | exact k | (exfalso; rw [Part.num, pt_testBit hm] at hp; cases hp)

theorem Kept.set_psm {m : Nat} {s u : State} {x : PsmRt} (hm : pt.psm ||| m = m)  (h : Kept m s u) : Kept m s { u with psm := x } := by
  refine ⟨fun p hp => ?_, h.pending, h.now, h.mem, h.od, h.fused, h.revoked⟩
  have k := h.same p hp
  cases p <;> first | exact k | (exfalso; rw [Part.num, pt_testBit hm] at hp; cases hp)

theorem Kept.set_ode {m : Nat} {s u : State} {x : OdeRt} (hm : pt.ode ||| m = m)  (h : Kept m s u) : Kept m s { u with ode := x } := by
  refine ⟨fun p hp => ?_, h.pending, h.now, h.mem, h.od, h.fused, h.revoked⟩
  have k := h.same p hp
  cases p <;> first | exact k | (exfalso; rw [Part.num, pt_testBit hm] at hp; cases hp)

theorem Kept.set_waiters {m : Nat} {s u : State} {x : List Waiter} (hm : pt.waiters ||| m = m)  (h : Kept m s u) : Kept m s { u with waiters := x } := by
  refine ⟨fun p hp => ?_, h.pending, h.now, h.mem, h.od, h.fused, h.revoked⟩
  have k := h.same p hp
  cases p <;> first | exact k | (exfalso; rw [Part.num, pt_testBit hm] at hp; cases hp)

theorem Kept.set_results {m : Nat} {s u : State} {x : List (Token × Nat × Bytes)} (hm : pt.results ||| m = m)  (h : Kept m s u) : Kept m s { u with results := x } := by
  refine ⟨fun p hp => ?_, h.pending, h.now, h.mem, h.od, h.fused, h.revoked⟩
  have k := h.same p hp
  cases p <;> first | exact k | (exfalso; rw [Part.num, pt_testBit hm] at hp; cases hp)

theorem Kept.set_jobs {m : Nat} {s u : State} {x : List Job} (hm : pt.jobs ||| m = m)  (h : Kept m s u) : Kept m s { u with jobs := x } := by
  refine ⟨fun p hp => ?_, h.pending, h.now, h.mem, h.od, h.fused, h.revoked⟩
  have k := h.same p hp
  cases p <;> first | exact k | (exfalso; rw [Part.num, pt_testBit hm] at hp; cases hp)

theorem Kept.set_chartLen {m : Nat} {s u : State} {x : Tbl Nat} (hm : pt.chartLen ||| m = m)  (h : Kept m s u) : Kept m s { u with chartLen := x } := by
  refine ⟨fun p hp => ?_, h.pending, h.now, h.mem, h.od, h.fused, h.revoked⟩
  have k := h.same p hp
  cases p <;> first | exact k | (exfalso; rw [Part.num, pt_testBit hm] at hp; cases hp)

theorem Kept.set_mem {m : Nat} {s u : State} {x : List Host.Cell} (hm : pt.mem ||| m = m) (hn : Memory.wf u.mem → Memory.wf x) (h : Kept m s u) : Kept m s { u with mem := x } := by
  refine ⟨fun p hp => ?_, h.pending, h.now, hn ∘ h.mem, h.od, h.fused, h.revoked⟩
  have k := h.same p hp
  cases p <;> first | exact k | (exfalso; rw [Part.num, pt_testBit hm] at hp; cases hp)

theorem Kept.set_hms {m : Nat} {s u : State} {x : HmsRt} (hm : pt.hms ||| m = m)  (h : Kept m s u) : Kept m s { u with hms := x } := by
  refine ⟨fun p hp => ?_, h.pending, h.now, h.mem, h.od, h.fused, h.revoked⟩
  have k := h.same p hp
  cases p <;> first | exact k | (exfalso; rw [Part.num, pt_testBit hm] at hp; cases hp)

theorem Kept.set_staged {m : Nat} {s u : State} {x : List Staged} (hm : pt.staged ||| m = m)  (h : Kept m s u) : Kept m s { u with staged := x } := by
  refine ⟨fun p hp => ?_, h.pending, h.now, h.mem, h.od, h.fused, h.revoked⟩
  have k := h.same p hp
  cases p <;> first | exact k | (exfalso; rw [Part.num, pt_testBit hm] at hp; cases hp)

theorem Kept.set_ndls {m : Nat} {s u : State} {x : Tbl NdlRt} (hm : pt.ndls ||| m = m)  (h : Kept m s u) : Kept m s { u with ndls := x } := by
  refine ⟨fun p hp => ?_, h.pending, h.now, h.mem, h.od, h.fused, h.revoked⟩
  have k := h.same p hp
  cases p <;> first | exact k | (exfalso; rw [Part.num, pt_testBit hm] at hp; cases hp)

theorem Kept.set_evts {m : Nat} {s u : State} {x : List (Nat × Nat × Nat)} (hm : pt.evts ||| m = m)  (h : Kept m s u) : Kept m s { u with evts := x } := by
  refine ⟨fun p hp => ?_, h.pending, h.now, h.mem, h.od, h.fused, h.revoked⟩
  have k := h.same p hp
  cases p <;> first | exact k | (exfalso; rw [Part.num, pt_testBit hm] at hp; cases hp)

theorem Kept.set_ucode {m : Nat} {s u : State} {x : List Nat} (hm : pt.ucode ||| m = m)  (h : Kept m s u) : Kept m s { u with ucode := x } := by
  refine ⟨fun p hp => ?_, h.pending, h.now, h.mem, h.od, h.fused, h.revoked⟩
  have k := h.same p hp
  cases p <;> first | exact k | (exfalso; rw [Part.num, pt_testBit hm] at hp; cases hp)

theorem Kept.set_ubase {m : Nat} {s u : State} {x : Bool} (hm : pt.ubase ||| m = m)  (h : Kept m s u) : Kept m s { u with ubase := x } := by
  refine ⟨fun p hp => ?_, h.pending, h.now, h.mem, h.od, h.fused, h.revoked⟩
  have k := h.same p hp
  cases p <;> first | exact k | (exfalso; rw [Part.num, pt_testBit hm] at hp; cases hp)

theorem Kept.set_traps {m : Nat} {s u : State} {x : List (Nat × Nat)} (hm : pt.traps ||| m = m)  (h : Kept m s u) : Kept m s { u with traps := x } := by
  refine ⟨fun p hp => ?_, h.pending, h.now, h.mem, h.od, h.fused, h.revoked⟩
  have k := h.same p hp
  cases p <;> first | exact k | (exfalso; rw [Part.num, pt_testBit hm] at hp; cases hp)

theorem Kept.set_sites {m : Nat} {s u : State} {x : Tbl SiteRt} (hm : pt.sites ||| m = m)  (h : Kept m s u) : Kept m s { u with sites := x } := by
  refine ⟨fun p hp => ?_, h.pending, h.now, h.mem, h.od, h.fused, h.revoked⟩
  have k := h.same p hp
  cases p <;> first | exact k | (exfalso; rw [Part.num, pt_testBit hm] at hp; cases hp)

theorem Kept.set_queues {m : Nat} {s u : State} {x : Tbl (Option Queue)} (hm : pt.queues ||| m = m)  (h : Kept m s u) : Kept m s { u with queues := x } := by
  refine ⟨fun p hp => ?_, h.pending, h.now, h.mem, h.od, h.fused, h.revoked⟩
  have k := h.same p hp
  cases p <;> first | exact k | (exfalso; rw [Part.num, pt_testBit hm] at hp; cases hp)

theorem Kept.set_pins {m : Nat} {s u : State} {x : Tbl PinRt} (hm : pt.pins ||| m = m)  (h : Kept m s u) : Kept m s { u with pins := x } := by
  refine ⟨fun p hp => ?_, h.pending, h.now, h.mem, h.od, h.fused, h.revoked⟩
  have k := h.same p hp
  cases p <;> first | exact k | (exfalso; rw [Part.num, pt_testBit hm] at hp; cases hp)

theorem Kept.set_levelBus {m : Nat} {s u : State} {x : Tbl (List LevelFrame)} (hm : pt.levelBus ||| m = m)  (h : Kept m s u) : Kept m s { u with levelBus := x } := by
  refine ⟨fun p hp => ?_, h.pending, h.now, h.mem, h.od, h.fused, h.revoked⟩
  have k := h.same p hp
  cases p <;> first | exact k | (exfalso; rw [Part.num, pt_testBit hm] at hp; cases hp)

theorem Kept.set_levelFree {m : Nat} {s u : State} {x : Tbl Nat} (hm : pt.levelFree ||| m = m)  (h : Kept m s u) : Kept m s { u with levelFree := x } := by
  refine ⟨fun p hp => ?_, h.pending, h.now, h.mem, h.od, h.fused, h.revoked⟩
  have k := h.same p hp
  cases p <;> first | exact k | (exfalso; rw [Part.num, pt_testBit hm] at hp; cases hp)

theorem Kept.set_ras {m : Nat} {s u : State} {x : Tbl RasRt} (hm : pt.ras ||| m = m)  (h : Kept m s u) : Kept m s { u with ras := x } := by
  refine ⟨fun p hp => ?_, h.pending, h.now, h.mem, h.od, h.fused, h.revoked⟩
  have k := h.same p hp
  cases p <;> first | exact k | (exfalso; rw [Part.num, pt_testBit hm] at hp; cases hp)

theorem Kept.set_tae {m : Nat} {s u : State} {x : Tbl TaeRt} (hm : pt.tae ||| m = m)  (h : Kept m s u) : Kept m s { u with tae := x } := by
  refine ⟨fun p hp => ?_, h.pending, h.now, h.mem, h.od, h.fused, h.revoked⟩
  have k := h.same p hp
  cases p <;> first | exact k | (exfalso; rw [Part.num, pt_testBit hm] at hp; cases hp)

theorem Kept.set_csl {m : Nat} {s u : State} {x : Tbl CslRt} (hm : pt.csl ||| m = m)  (h : Kept m s u) : Kept m s { u with csl := x } := by
  refine ⟨fun p hp => ?_, h.pending, h.now, h.mem, h.od, h.fused, h.revoked⟩
  have k := h.same p hp
  cases p <;> first | exact k | (exfalso; rw [Part.num, pt_testBit hm] at hp; cases hp)

theorem Kept.set_cal {m : Nat} {s u : State} {x : CalRt} (hm : pt.cal ||| m = m)  (h : Kept m s u) : Kept m s { u with cal := x } := by
  refine ⟨fun p hp => ?_, h.pending, h.now, h.mem, h.od, h.fused, h.revoked⟩
  have k := h.same p hp
  cases p <;> first | exact k | (exfalso; rw [Part.num, pt_testBit hm] at hp; cases hp)

theorem Kept.set_tdc {m : Nat} {s u : State} {x : Tbl TdcRt} (hm : pt.tdc ||| m = m)  (h : Kept m s u) : Kept m s { u with tdc := x } := by
  refine ⟨fun p hp => ?_, h.pending, h.now, h.mem, h.od, h.fused, h.revoked⟩
  have k := h.same p hp
  cases p <;> first | exact k | (exfalso; rw [Part.num, pt_testBit hm] at hp; cases hp)

theorem Kept.set_plc {m : Nat} {s u : State} {x : PlcRt} (hm : pt.plc ||| m = m)  (h : Kept m s u) : Kept m s { u with plc := x } := by
  refine ⟨fun p hp => ?_, h.pending, h.now, h.mem, h.od, h.fused, h.revoked⟩
  have k := h.same p hp
  cases p <;> first | exact k | (exfalso; rw [Part.num, pt_testBit hm] at hp; cases hp)

theorem Kept.set_bot {m : Nat} {s u : State} {x : BotRt} (hm : pt.bot ||| m = m) (hf : u.bot.fused ≤ 64 → u.bot.fused ≤ x.fused ∧ x.fused ≤ 64) (hr : ∀ k < 4, u.bot.revoked.testBit k = true → x.revoked.testBit k = true) (h : Kept m s u) : Kept m s { u with bot := x } := by
  refine ⟨fun p hp => ?_, h.pending, h.now, h.mem, h.od, fun a => ⟨(h.fused a).1.trans (hf (h.fused a).2).1, (hf (h.fused a).2).2⟩, fun i hi b => hr i hi (h.revoked i hi b)⟩
  have k := h.same p hp
  cases p <;> first | exact k | (exfalso; rw [Part.num, pt_testBit hm] at hp; cases hp)

/-- A cut at a state on the way. -/
theorem cutK {m : Nat} {s x : State} {Q : Prop} (h : Kept m s x) (k : Kept m s x → Q) : Q := k h

theorem Kept.ite {m : Nat} {s a b : State} {c : Prop} [Decidable c] (h : c → Kept m s a) (k : ¬ c → Kept m s b) : Kept m s (if c then a else b) := by
  split
  · exact h ‹_›
  · exact k ‹_›

theorem Kept.ite2 {α : Type} {m : Nat} {s : State} {a b : α × State} {c : Prop} [Decidable c] (h : c → Kept m s a.2) (k : ¬ c → Kept m s b.2) :
    Kept m s (if c then a else b).2 := by
  split
  · exact h ‹_›
  · exact k ‹_›

theorem KeptR.ite {m : Nat} {s : State} {a b : Host.Outcome State Fault Refusal} {c : Prop} [Decidable c] (h : c → KeptR m s a) (k : ¬ c → KeptR m s b) :
    KeptR m s (if c then a else b) := by
  split
  · exact h ‹_›
  · exact k ‹_›

/-- As KeptR, for an operation that may not take place. -/
structure KeptO (m : Nat) (s : State) (r : Option State) : Prop where
  kept : ∀ t, r = some t → Kept m s t

theorem KeptO.some {m : Nat} {s t : State} (h : Kept m s t) : KeptO m s (some t) :=
  ⟨fun u e => by cases e; exact h⟩

theorem KeptO.none {m : Nat} {s : State} : KeptO m s none := ⟨fun u e => by cases e⟩

theorem KeptO.step {a m : Nat} {s t : State} {r : Option State} (k : KeptO a t r) (ham : a ||| m = m) (h : Kept m s t) : KeptO m s r :=
  ⟨fun u e => h.trans ((k.kept u e).mono ham)⟩

theorem KeptO.use {a m : Nat} {s t u : State} {r : Option State} (e : r = Option.some u) (k : KeptO a t r) (ham : a ||| m = m) (h : Kept m s t) : Kept m s u :=
  h.trans ((k.kept u e).mono ham)

theorem KeptO.ite {m : Nat} {s : State} {a b : Option State} {c : Prop} [Decidable c] (h : c → KeptO m s a) (k : ¬ c → KeptO m s b) :
    KeptO m s (if c then a else b) := by
  split
  · exact h ‹_›
  · exact k ‹_›

theorem Memory.writeAll_wf {m : List Host.Cell} (a : Nat) (b : Bytes) (h : Memory.wf m) : Memory.wf (Memory.writeAll m a b) := by
  induction b generalizing m a with
  | nil => exact h
  | cons x t ih => exact ih _ (Tbl.put_wf _ _ h)

theorem Memory.foldl_writeAll_wf {α : Type} (l : List α) (a : α → Nat) (b : α → Bytes) {m : List Host.Cell} (h : Memory.wf m) :
    Memory.wf (l.foldl (fun m x => Memory.writeAll m (a x) (b x)) m) := by
  induction l generalizing m with
  | nil => exact h
  | cons x t ih => exact ih (Memory.writeAll_wf _ _ h)

theorem Tbl.filter_wf {α : Type} {d : Nat → α} {t : Tbl α} (p : Nat × α → Bool) (h : Tbl.Wf d t) : Tbl.Wf d (t.filter p) :=
  ⟨h.1.filter p, fun e he => h.2 e (List.mem_filter.1 he).1⟩

/-- A list of writes keeps the store's form. -/
theorem putAll_wf {d : Nat → Nat} (l : List (Nat × Nat)) {t : Tbl Nat} (h : Tbl.Wf d t) : Tbl.Wf d (l.foldl (fun t p => Tbl.put d t p.1 p.2) t) := by
  induction l generalizing t with
  | nil => exact h
  | cons p l ih => exact ih (Tbl.put_wf _ _ h)

theorem Kept.set_mem_wdpTrace {m : Nat} {s u : State} {x : List Host.Cell} {y : List Nat} (ha : pt.mem ||| m = m) (hb : pt.wdpTrace ||| m = m)
    (hn : Memory.wf u.mem → Memory.wf x) (h : Kept m s u) : Kept m s { u with mem := x, wdpTrace := y } :=
  Kept.set_wdpTrace (x := y) hb (Kept.set_mem (x := x) ha hn h)

theorem Kept.set_mem_wdpTrace_hms {m : Nat} {s u : State} {x : List Host.Cell} {y : List Nat} {z : HmsRt} (ha : pt.mem ||| m = m) (hb : pt.wdpTrace ||| m = m) (hc : pt.hms ||| m = m)
    (hn : Memory.wf u.mem → Memory.wf x) (h : Kept m s u) : Kept m s { u with mem := x, wdpTrace := y, hms := z } :=
  Kept.set_hms (x := z) hc (Kept.set_wdpTrace (x := y) hb (Kept.set_mem (x := x) ha hn h))

theorem Kept.set_ubase_ucode_traps {m : Nat} {s u : State} {x : Bool} {y : List Nat} {z : List (Nat × Nat)} (ha : pt.ubase ||| m = m) (hb : pt.ucode ||| m = m) (hc : pt.traps ||| m = m)
    (h : Kept m s u) : Kept m s { u with ubase := x, ucode := y, traps := z } :=
  Kept.set_traps (x := z) hc (Kept.set_ucode (x := y) hb (Kept.set_ubase (x := x) ha h))

theorem Kept.set_psm_bot {m : Nat} {s u : State} {x : PsmRt} {y : BotRt} (ha : pt.psm ||| m = m) (hb : pt.bot ||| m = m)
    (hf : u.bot.fused ≤ 64 → u.bot.fused ≤ y.fused ∧ y.fused ≤ 64) (hr : ∀ k < 4, u.bot.revoked.testBit k = true → y.revoked.testBit k = true) (h : Kept m s u) :
    Kept m s { u with psm := x, bot := y } :=
  Kept.set_bot (u := { u with psm := x }) (x := y) hb hf hr (Kept.set_psm (x := x) ha h)

/-- The set of the listed parts. -/
def maskOf (l : List Part) : Nat := l.foldr (fun p m => 2 ^ p.num ||| m) 0

theorem Part.num_inj {p q : Part} (h : p.num = q.num) : p = q := by
  cases p <;> cases q <;> simp only [Part.num] at h <;> first | rfl | (congr 1; omega)

theorem maskOf_testBit {l : List Part} {p : Part} (h : p ∉ l) : (maskOf l).testBit p.num = false := by
  induction l with
  | nil => simp [maskOf]
  | cons q l ih =>
    have hq : q.num ≠ p.num := fun e => h (by rw [Part.num_inj e]; exact List.mem_cons_self ..)
    rw [maskOf, List.foldr_cons, Nat.testBit_or, Nat.testBit_two_pow_of_ne hq, Bool.false_or]
    exact ih (fun k => h (List.mem_cons_of_mem _ k))

/-- The frame that a set of parts gives. -/
theorem Kept.keeps {m : Nat} {s t : State} (h : Kept m s t) (els : List (Nat × Nat)) (ps : List Part) (hm : m ||| maskOf ps = maskOf ps) : Keeps s t els ps :=
  ⟨h.pending, fun o e ho _ hp => (h.mono hm).same (.obj o) (maskOf_testBit hp) e ho, fun p hp _ => (h.mono hm).same p (maskOf_testBit hp)⟩

theorem Part.Same_of_none {s t : State} (m : Nat) (h : pt.all ||| m = m) (p : Part) (hp : m.testBit p.num = false) : p.Same s t := by
  have hlt : p.num < 65600 ∨ ∃ o, p = .obj o ∧ 65536 ≤ o := by
    cases p <;> simp [Part.num]; omega
  rcases hlt with hlt | ⟨o, rfl, ho⟩
  · have : m.testBit p.num = true := by
      rw [← h, Nat.testBit_or, pt.all, Nat.testBit_two_pow_sub_one]; simp [hlt]
    rw [this] at hp; cases hp
  · intro e hq; omega

theorem Kept.set_two {m : Nat} {s u v w : State} (h : Kept m s v) (k : Kept m s v → Kept m s w) (e : w = u) : Kept m s u := e ▸ k h

theorem State.setFld_kept (s : State) (o e : Nat) (f : Fld) (v : Nat) : Kept (ob (o % 65536)) s (s.setFld o e f v) := State.wr_kept ..

theorem State.wrAll_kept (s : State) (o : Nat) (l : List Nat) (v : Nat) : Kept (ob (o % 65536)) s (s.wrAll o l v) :=
  Kept.foldl (fun _ _ h => h.trans (State.wr_kept ..)) (Kept.refl ..)

theorem State.count_kept (s : State) (o e : Nat) (f g : Fld) (n : Nat) : Kept (ob (o % 65536)) s (s.count o e f g n) := by
  unfold State.count
  extract_lets x
  split
  · exact State.setFld_kept ..
  · exact (State.setFld_kept ..).trans (State.setFld_kept ..)

theorem State.countNoSat_kept (s : State) (o e : Nat) (f : Fld) (n : Nat) : Kept (ob (o % 65536)) s (s.countNoSat o e f n) := State.wr_kept ..

theorem State.count64_kept (s : State) (o e n : Nat) : Kept (ob (o % 65536)) s (s.count64 o e n) := State.count_kept ..

theorem Kept.set_clk_adc {m : Nat} {s u : State} {x : ClkRt} {y : AdcRt} (ha : pt.clk ||| m = m) (hb : pt.adc ||| m = m) (h : Kept m s u) :
    Kept m s { u with clk := x, adc := y } :=
  Kept.set_adc (x := y) hb (Kept.set_clk (x := x) ha h)

theorem Kept.set_queues_ready {m : Nat} {s u : State} {x : Tbl (Option Queue)} {y : List Item} (ha : pt.queues ||| m = m) (hb : pt.ready ||| m = m) (h : Kept m s u) :
    Kept m s { u with queues := x, ready := y } :=
  Kept.set_ready (x := y) hb (Kept.set_queues (x := x) ha h)

theorem Kept.set_plc_homes {m : Nat} {s u : State} {x : PlcRt} {y : Tbl Nat} (ha : pt.plc ||| m = m) (hb : pt.homes ||| m = m) (h : Kept m s u) :
    Kept m s { u with plc := x, homes := y } :=
  Kept.set_homes (x := y) hb (Kept.set_plc (x := x) ha h)

theorem Kept.set_trans_plc {m : Nat} {s u : State} {x : Option Trans} {y : PlcRt} (ha : pt.trans ||| m = m) (hb : pt.plc ||| m = m) (h : Kept m s u) :
    Kept m s { u with trans := x, plc := y } :=
  Kept.set_plc (x := y) hb (Kept.set_trans (x := x) ha h)

theorem Kept.set_safeWanted_psm {m : Nat} {s u : State} {x : Bool} {y : PsmRt} (ha : pt.safeWanted ||| m = m) (hb : pt.psm ||| m = m) (h : Kept m s u) :
    Kept m s { u with safeWanted := x, psm := y } :=
  Kept.set_psm (x := y) hb (Kept.set_safeWanted (x := x) ha h)

theorem Kept.set_waiters_jobs {m : Nat} {s u : State} {x : List Waiter} {y : List Job} (ha : pt.waiters ||| m = m) (hb : pt.jobs ||| m = m) (h : Kept m s u) :
    Kept m s { u with waiters := x, jobs := y } :=
  Kept.set_jobs (x := y) hb (Kept.set_waiters (x := x) ha h)

theorem Kept.set_jobs_waiters {m : Nat} {s u : State} {x : List Job} {y : List Waiter} (ha : pt.jobs ||| m = m) (hb : pt.waiters ||| m = m) (h : Kept m s u) :
    Kept m s { u with jobs := x, waiters := y } :=
  Kept.set_waiters (x := y) hb (Kept.set_jobs (x := x) ha h)

end Sys2Proof.Machine
end

