-- ==== Sys2Proof/Laws/KeptOps.lean ====
section
/-! SUPPORT. For every operation of Machine/Ops.lean the parts of the state that it may change. -/
set_option linter.unusedTactic false
set_option linter.unreachableTactic false
set_option linter.unusedVariables false
set_option linter.tactic.unusedName false
set_option Elab.async false
namespace Sys2Proof.Machine

def km_setImg : Nat := pt.images

theorem State.setImg_kept (s : State) (o : Nat) (el : Nat) (b : Bytes) : Kept km_setImg s (State.setImg s o el b) := by
  unfold State.setImg
  repeat' (first
    | with_reducible assumption
    | decide +kernel
    | with_reducible exact Kept.refl ..
    | (extract_lets +onlyGivenNames x; refine cutK (m := km_setImg) (s := s) (x := x) ?_ ?_; on_goal 1 => (try unfold x); on_goal 2 => (intro hx; clear_value x))
    | extract_lets +onlyGivenNames x
    | split
    | refine Kept.of_snd ‹_› ?_
    | dsimp +zetaDelta only [id_eq]
    | with_reducible apply Kept.set_images)

def km_draw : Nat := pt.freeCtr

theorem State.draw_kept (s : State) : Kept km_draw s (State.draw s) := by
  unfold State.draw
  repeat' (first
    | with_reducible assumption
    | decide +kernel
    | with_reducible exact Kept.refl ..
    | (extract_lets +onlyGivenNames x; refine cutK (m := km_draw) (s := s) (x := x) ?_ ?_; on_goal 1 => (try unfold x); on_goal 2 => (intro hx; clear_value x))
    | extract_lets +onlyGivenNames x
    | split
    | refine Kept.of_snd ‹_› ?_
    | with_reducible apply Kept.set_freeCtr)

def km_emit : Nat := pt.out

theorem State.emit_kept (s : State) (m : OutMsg) : Kept km_emit s (State.emit s m) := by
  unfold State.emit
  repeat' (first
    | with_reducible assumption
    | decide +kernel
    | with_reducible exact Kept.refl ..
    | (extract_lets +onlyGivenNames x; refine cutK (m := km_emit) (s := s) (x := x) ?_ ?_; on_goal 1 => (try unfold x); on_goal 2 => (intro hx; clear_value x))
    | extract_lets +onlyGivenNames x
    | split
    | refine Kept.of_snd ‹_› ?_
    | with_reducible apply Kept.set_out)

def km_setClk : Nat := pt.clk

theorem State.setClk_kept (s : State) (c : ClkRt) : Kept km_setClk s (State.setClk s c) := by
  unfold State.setClk
  repeat' (first
    | with_reducible assumption
    | decide +kernel
    | with_reducible exact Kept.refl ..
    | (extract_lets +onlyGivenNames x; refine cutK (m := km_setClk) (s := s) (x := x) ?_ ?_; on_goal 1 => (try unfold x); on_goal 2 => (intro hx; clear_value x))
    | extract_lets +onlyGivenNames x
    | split
    | refine Kept.of_snd ‹_› ?_
    | with_reducible apply Kept.set_clk)

def km_setPlc : Nat := pt.plc

theorem State.setPlc_kept (s : State) (p : PlcRt) : Kept km_setPlc s (State.setPlc s p) := by
  unfold State.setPlc
  repeat' (first
    | with_reducible assumption
    | decide +kernel
    | with_reducible exact Kept.refl ..
    | (extract_lets +onlyGivenNames x; refine cutK (m := km_setPlc) (s := s) (x := x) ?_ ?_; on_goal 1 => (try unfold x); on_goal 2 => (intro hx; clear_value x))
    | extract_lets +onlyGivenNames x
    | split
    | refine Kept.of_snd ‹_› ?_
    | with_reducible apply Kept.set_plc)

def km_setTrans : Nat := pt.trans

theorem State.setTrans_kept (s : State) (t : Option Trans) : Kept km_setTrans s (State.setTrans s t) := by
  unfold State.setTrans
  repeat' (first
    | with_reducible assumption
    | decide +kernel
    | with_reducible exact Kept.refl ..
    | (extract_lets +onlyGivenNames x; refine cutK (m := km_setTrans) (s := s) (x := x) ?_ ?_; on_goal 1 => (try unfold x); on_goal 2 => (intro hx; clear_value x))
    | extract_lets +onlyGivenNames x
    | split
    | refine Kept.of_snd ‹_› ?_
    | with_reducible apply Kept.set_trans)

def km_reach : Nat := pt.now

theorem State.reach_kept (s : State) (t : Nat) : Kept km_reach s (State.reach s t) := by
  unfold State.reach
  repeat' (first
    | with_reducible assumption
    | decide +kernel
    | with_reducible exact Kept.refl ..
    | exact Nat.le_max_left _ _
    | (extract_lets +onlyGivenNames x; refine cutK (m := km_reach) (s := s) (x := x) ?_ ?_; on_goal 1 => (try unfold x); on_goal 2 => (intro hx; clear_value x))
    | extract_lets +onlyGivenNames x
    | split
    | refine Kept.of_snd ‹_› ?_
    | with_reducible apply Kept.set_now)

def km_rebaseNt : Nat := pt.clk

theorem State.rebaseNt_kept (s : State) : Kept km_rebaseNt s (State.rebaseNt s) := by
  unfold State.rebaseNt
  repeat' (first
    | with_reducible assumption
    | decide +kernel
    | with_reducible exact Kept.refl ..
    | (extract_lets +onlyGivenNames x; refine cutK (m := km_rebaseNt) (s := s) (x := x) ?_ ?_; on_goal 1 => (try unfold x); on_goal 2 => (intro hx; clear_value x))
    | extract_lets +onlyGivenNames x
    | split
    | refine Kept.of_snd ‹_› ?_
    | with_reducible apply Kept.set_clk)

def km_enter : Nat := ob Obj.clkSyncArm ||| ob Obj.clkSyncStatus ||| ob Obj.devMode ||| ob Obj.devModeReason ||| ob Obj.devModeStamp ||| ob Obj.devPrevMode ||| ob Obj.hmsLoad ||| ob Obj.rqpPoolStatus

theorem State.enter_kept (s : State) (m : Mode) (prev : Nat) (reason : Nat) : Kept km_enter s (State.enter s m prev reason) := by
  unfold State.enter
  repeat' (first
    | with_reducible assumption
    | decide +kernel
    | with_reducible exact Kept.refl ..
    | (with_reducible apply Kept.ite <;> intro _)
    | with_reducible apply Kept.step (State.wr_kept _ _ _ _)
    | with_reducible apply Kept.step (State.setFld_kept _ _ _ _ _)
    | (extract_lets +onlyGivenNames x; refine cutK (m := km_enter) (s := s) (x := x) ?_ ?_; on_goal 1 => (try unfold x); on_goal 2 => (intro hx; clear_value x))
    | extract_lets +onlyGivenNames x
    | split
    | refine Kept.of_snd ‹_› ?_
    | dsimp +zetaDelta only [id_eq])

end Sys2Proof.Machine
end

