-- ==== Sys2Proof/Laws/KeptLink.lean ====
section
/-! SUPPORT. For every operation of Machine/Link.lean the parts of the state that it may change. -/
set_option linter.unusedTactic false
set_option linter.unreachableTactic false
set_option linter.unusedVariables false
set_option linter.tactic.unusedName false
set_option Elab.async false
namespace Sys2Proof.Machine

def km_hlkCount : Nat := ob Obj.hlkCounts

theorem State.hlkCount_kept (s : State) (port : Nat) (sub : Nat) (i : Nat) : Kept km_hlkCount s (State.hlkCount s port sub i) := by
  unfold State.hlkCount
  repeat' (first
    | with_reducible assumption
    | decide +kernel
    | with_reducible exact Kept.refl ..
    | with_reducible apply Kept.step (State.count_kept _ _ _ _ _ _)
    | (extract_lets +onlyGivenNames x; refine cutK (m := km_hlkCount) (s := s) (x := x) ?_ ?_; on_goal 1 => (try unfold x); on_goal 2 => (intro hx; clear_value x))
    | extract_lets +onlyGivenNames x
    | split
    | refine Kept.of_snd ‹_› ?_)

def km_poaCount : Nat := ob Obj.secPoaCounts

theorem State.poaCount_kept (s : State) (i : Nat) : Kept km_poaCount s (State.poaCount s i) := by
  unfold State.poaCount
  repeat' (first
    | with_reducible assumption
    | decide +kernel
    | with_reducible exact Kept.refl ..
    | with_reducible apply Kept.step (State.count_kept _ _ _ _ _ _)
    | (extract_lets +onlyGivenNames x; refine cutK (m := km_poaCount) (s := s) (x := x) ?_ ?_; on_goal 1 => (try unfold x); on_goal 2 => (intro hx; clear_value x))
    | extract_lets +onlyGivenNames x
    | split
    | refine Kept.of_snd ‹_› ?_)

def km_transmit : Nat := pt.hlk ||| km_hlkCount ||| km_emit ||| km_poaCount

theorem State.transmit_kept (s : State) (t : Nat) (port : Nat) (sub : Nat) (addr : Nat) (udp : Nat) (high : Bool) (report : Nat) (b : Bytes) : Kept km_transmit s (State.transmit s t port sub addr udp high report b) := by
  unfold State.transmit
  repeat' (first
    | with_reducible assumption
    | decide +kernel
    | with_reducible exact Kept.refl ..
    | (with_reducible apply Kept.ite <;> intro _)
    | with_reducible apply Kept.step (State.hlkCount_kept _ _ _ _)
    | with_reducible apply Kept.step (State.emit_kept _ _)
    | with_reducible apply Kept.step (State.poaCount_kept _ _)
    | (extract_lets +onlyGivenNames x; refine cutK (m := km_transmit) (s := s) (x := x) ?_ ?_; on_goal 1 => (try unfold x); on_goal 2 => (intro hx; clear_value x))
    | extract_lets +onlyGivenNames x
    | split
    | refine Kept.of_snd ‹_› ?_
    | dsimp +zetaDelta only [id_eq]
    | with_reducible apply Kept.set_hlk)

def km_setSession : Nat := pt.poa

theorem State.setSession_kept (s : State) (n : Nat) (x : Option Session) : Kept km_setSession s (State.setSession s n x) := by
  unfold State.setSession
  repeat' (first
    | with_reducible assumption
    | decide +kernel
    | with_reducible exact Kept.refl ..
    | (extract_lets +onlyGivenNames x; refine cutK (m := km_setSession) (s := s) (x := x) ?_ ?_; on_goal 1 => (try unfold x); on_goal 2 => (intro hx; clear_value x))
    | extract_lets +onlyGivenNames x
    | split
    | refine Kept.of_snd ‹_› ?_
    | dsimp +zetaDelta only [id_eq]
    | with_reducible apply Kept.set_poa)

def km_sendReport : Nat := km_transmit

theorem State.sendReport_kept (s : State) (sess : Nat) (f : Bytes) : Kept km_sendReport s (State.sendReport s sess f) := by
  unfold State.sendReport
  repeat' (first
    | with_reducible assumption
    | decide +kernel
    | with_reducible exact Kept.refl ..
    | (with_reducible apply Kept.ite <;> intro _)
    | with_reducible apply Kept.step (State.transmit_kept _ _ _ _ _ _ _ _ _)
    | (extract_lets +onlyGivenNames x; refine cutK (m := km_sendReport) (s := s) (x := x) ?_ ?_; on_goal 1 => (try unfold x); on_goal 2 => (intro hx; clear_value x))
    | extract_lets +onlyGivenNames x
    | split
    | refine Kept.of_snd ‹_› ?_)

def km_report : Nat := km_setSession ||| km_sendReport

theorem State.report_kept (s : State) (sess : Nat) (item : Bytes) : Kept km_report s (State.report s sess item) := by
  unfold State.report
  repeat' (first
    | with_reducible assumption
    | decide +kernel
    | with_reducible exact Kept.refl ..
    | (with_reducible apply Kept.ite <;> intro _)
    | with_reducible apply Kept.step (State.setSession_kept _ _ _)
    | with_reducible apply Kept.step (State.sendReport_kept _ _ _)
    | (extract_lets +onlyGivenNames x; refine cutK (m := km_report) (s := s) (x := x) ?_ ?_; on_goal 1 => (try unfold x); on_goal 2 => (intro hx; clear_value x))
    | extract_lets +onlyGivenNames x
    | split
    | refine Kept.of_snd ‹_› ?_)

end Sys2Proof.Machine
end

