-- ==== Sys2Proof/Laws/KeptFlags.lean ====
section
/-! SUPPORT. For every operation of Machine/Flags.lean the parts of the state that it may change. -/
set_option linter.unusedTactic false
set_option linter.unreachableTactic false
set_option linter.unusedVariables false
set_option linter.tactic.unusedName false
set_option Elab.async false
namespace Sys2Proof.Machine

def km_setCore : Nat := pt.cores

theorem State.setCore_kept (s : State) (n : Nat) (c : CoreRt) : Kept km_setCore s (State.setCore s n c) := by
  unfold State.setCore
  repeat' (first
    | with_reducible assumption
    | decide +kernel
    | with_reducible exact Kept.refl ..
    | (extract_lets +onlyGivenNames x; refine cutK (m := km_setCore) (s := s) (x := x) ?_ ?_; on_goal 1 => (try unfold x); on_goal 2 => (intro hx; clear_value x))
    | extract_lets +onlyGivenNames x
    | split
    | refine Kept.of_snd ‹_› ?_
    | dsimp +zetaDelta only [id_eq]
    | with_reducible apply Kept.set_cores)

def km_setSrc : Nat := pt.srcs

theorem State.setSrc_kept (s : State) (n : Nat) (x : SrcRt) : Kept km_setSrc s (State.setSrc s n x) := by
  unfold State.setSrc
  repeat' (first
    | with_reducible assumption
    | decide +kernel
    | with_reducible exact Kept.refl ..
    | (extract_lets +onlyGivenNames x; refine cutK (m := km_setSrc) (s := s) (x := x) ?_ ?_; on_goal 1 => (try unfold x); on_goal 2 => (intro hx; clear_value x))
    | extract_lets +onlyGivenNames x
    | split
    | refine Kept.of_snd ‹_› ?_
    | dsimp +zetaDelta only [id_eq]
    | with_reducible apply Kept.set_srcs)

def km_iecCount : Nat := ob Obj.iecCounts

theorem State.iecCount_kept (s : State) (i : Nat) : Kept km_iecCount s (State.iecCount s i) := by
  unfold State.iecCount
  repeat' (first
    | with_reducible assumption
    | decide +kernel
    | with_reducible exact Kept.refl ..
    | with_reducible apply Kept.step (State.count_kept _ _ _ _ _ _)
    | (extract_lets +onlyGivenNames x; refine cutK (m := km_iecCount) (s := s) (x := x) ?_ ?_; on_goal 1 => (try unfold x); on_goal 2 => (intro hx; clear_value x))
    | extract_lets +onlyGivenNames x
    | split
    | refine Kept.of_snd ‹_› ?_)

def km_deliver : Nat := ob Obj.cccState ||| km_iecCount ||| km_setCore

theorem State.deliver_kept (s : State) (src : Nat) (t : Nat) : Kept km_deliver s (State.deliver s src t) := by
  unfold State.deliver
  repeat' (first
    | with_reducible assumption
    | decide +kernel
    | with_reducible exact Kept.refl ..
    | (with_reducible apply Kept.ite <;> intro _)
    | with_reducible apply Kept.step (State.wr_kept _ _ _ _)
    | with_reducible apply Kept.step (State.iecCount_kept _ _)
    | with_reducible apply Kept.step (State.setCore_kept _ _ _)
    | (extract_lets +onlyGivenNames x; refine cutK (m := km_deliver) (s := s) (x := x) ?_ ?_; on_goal 1 => (try unfold x); on_goal 2 => (intro hx; clear_value x))
    | extract_lets +onlyGivenNames x
    | split
    | refine Kept.of_snd ‹_› ?_
    | dsimp +zetaDelta only [id_eq])

def km_setGroup : Nat := pt.groups

theorem State.setGroup_kept (s : State) (g : Nat) (t : Option Nat) : Kept km_setGroup s (State.setGroup s g t) := by
  unfold State.setGroup
  repeat' (first
    | with_reducible assumption
    | decide +kernel
    | with_reducible exact Kept.refl ..
    | (extract_lets +onlyGivenNames x; refine cutK (m := km_setGroup) (s := s) (x := x) ?_ ?_; on_goal 1 => (try unfold x); on_goal 2 => (intro hx; clear_value x))
    | extract_lets +onlyGivenNames x
    | split
    | refine Kept.of_snd ‹_› ?_
    | dsimp +zetaDelta only [id_eq]
    | with_reducible apply Kept.set_groups)

def km_deliverGroup : Nat := km_deliver ||| km_setGroup

theorem State.deliverGroup_kept (s : State) (g : Nat) (t : Nat) : Kept km_deliverGroup s (State.deliverGroup s g t) := by
  unfold State.deliverGroup
  repeat' (first
    | with_reducible assumption
    | decide +kernel
    | with_reducible exact Kept.refl ..
    | with_reducible apply Kept.step (State.deliver_kept _ _ _)
    | with_reducible apply Kept.step (State.setGroup_kept _ _ _)
    | with_reducible apply Kept.foldl
    | with_reducible refine fun (x : State) a hx => ?_
    | (extract_lets +onlyGivenNames x; refine cutK (m := km_deliverGroup) (s := s) (x := x) ?_ ?_; on_goal 1 => (try unfold x); on_goal 2 => (intro hx; clear_value x))
    | extract_lets +onlyGivenNames x
    | split
    | refine Kept.of_snd ‹_› ?_
    | dsimp +zetaDelta only [id_eq])

def km_moderate : Nat := km_deliver ||| km_setGroup

theorem State.moderate_kept (s : State) (src : Nat) (t : Nat) : Kept km_moderate s (State.moderate s src t) := by
  unfold State.moderate
  repeat' (first
    | with_reducible assumption
    | decide +kernel
    | with_reducible exact Kept.refl ..
    | (with_reducible apply Kept.ite <;> intro _)
    | with_reducible apply Kept.step (State.deliver_kept _ _ _)
    | with_reducible apply Kept.step (State.setGroup_kept _ _ _)
    | (extract_lets +onlyGivenNames x; refine cutK (m := km_moderate) (s := s) (x := x) ?_ ?_; on_goal 1 => (try unfold x); on_goal 2 => (intro hx; clear_value x))
    | extract_lets +onlyGivenNames x
    | split
    | refine Kept.of_snd ‹_› ?_)

def km_setSub : Nat := pt.poa

theorem State.setSub_kept (s : State) (n : Nat) (x : Option Sub) : Kept km_setSub s (State.setSub s n x) := by
  unfold State.setSub
  repeat' (first
    | with_reducible assumption
    | decide +kernel
    | with_reducible exact Kept.refl ..
    | (extract_lets +onlyGivenNames x; refine cutK (m := km_setSub) (s := s) (x := x) ?_ ?_; on_goal 1 => (try unfold x); on_goal 2 => (intro hx; clear_value x))
    | extract_lets +onlyGivenNames x
    | split
    | refine Kept.of_snd ‹_› ?_
    | dsimp +zetaDelta only [id_eq]
    | with_reducible apply Kept.set_poa)

def km_formEvent : Nat := km_setSub ||| km_report

theorem State.formEvent_kept (s : State) (n : Nat) (src : Nat) (t : Nat) (x : Sub) : Kept km_formEvent s (State.formEvent s n src t x) := by
  unfold State.formEvent
  repeat' (first
    | with_reducible assumption
    | decide +kernel
    | with_reducible exact Kept.refl ..
    | (with_reducible apply Kept.ite <;> intro _)
    | with_reducible apply Kept.step (State.setSub_kept _ _ _)
    | with_reducible apply Kept.step (State.report_kept _ _ _)
    | (extract_lets +onlyGivenNames x; refine cutK (m := km_formEvent) (s := s) (x := x) ?_ ?_; on_goal 1 => (try unfold x); on_goal 2 => (intro hx; clear_value x))
    | extract_lets +onlyGivenNames x
    | split
    | refine Kept.of_snd ‹_› ?_
    | dsimp +zetaDelta only [id_eq])

def km_eventFor : Nat := km_setSub ||| km_formEvent

theorem State.eventFor_kept (s : State) (src : Nat) (t : Nat) (st : Nat) (n : Nat) : Kept km_eventFor s (State.eventFor s src t st n) := by
  unfold State.eventFor
  repeat' (first
    | with_reducible assumption
    | decide +kernel
    | with_reducible exact Kept.refl ..
    | (with_reducible apply Kept.ite <;> intro _)
    | with_reducible apply Kept.step (State.count_kept _ _ _ _ _ _)
    | with_reducible apply Kept.step (State.setSub_kept _ _ _)
    | with_reducible apply Kept.step (State.formEvent_kept _ _ _ _ _)
    | (extract_lets +onlyGivenNames x; refine cutK (m := km_eventFor) (s := s) (x := x) ?_ ?_; on_goal 1 => (try unfold x); on_goal 2 => (intro hx; clear_value x))
    | extract_lets +onlyGivenNames x
    | split
    | refine Kept.of_snd ‹_› ?_
    | dsimp +zetaDelta only [id_eq])

def km_eventSubs : Nat := km_eventFor

theorem State.eventSubs_kept (s : State) (src : Nat) (t : Nat) (st : Nat) : Kept km_eventSubs s (State.eventSubs s src t st) := by
  unfold State.eventSubs
  repeat' (first
    | with_reducible assumption
    | decide +kernel
    | with_reducible exact Kept.refl ..
    | (with_reducible apply Kept.ite <;> intro _)
    | with_reducible apply Kept.step (State.eventFor_kept _ _ _ _ _)
    | with_reducible apply Kept.foldl
    | with_reducible refine fun (x : State) a hx => ?_
    | (extract_lets +onlyGivenNames x; refine cutK (m := km_eventSubs) (s := s) (x := x) ?_ ?_; on_goal 1 => (try unfold x); on_goal 2 => (intro hx; clear_value x))
    | extract_lets +onlyGivenNames x
    | split
    | refine Kept.of_snd ‹_› ?_
    | dsimp +zetaDelta only [id_eq])

def km_latch : Nat := ob Obj.iecPending ||| km_setSrc ||| km_eventSubs ||| km_deliver ||| km_moderate

theorem State.latch_kept (s : State) (src : Nat) : Kept km_latch s (State.latch s src) := by
  unfold State.latch
  repeat' (first
    | with_reducible assumption
    | decide +kernel
    | with_reducible exact Kept.refl ..
    | (with_reducible apply Kept.ite <;> intro _)
    | with_reducible apply Kept.step (State.wr_kept _ _ _ _)
    | with_reducible apply Kept.step (State.count_kept _ _ _ _ _ _)
    | with_reducible apply Kept.step (State.setSrc_kept _ _ _)
    | with_reducible apply Kept.step (State.eventSubs_kept _ _ _ _)
    | with_reducible apply Kept.step (State.deliver_kept _ _ _)
    | with_reducible apply Kept.step (State.moderate_kept _ _ _)
    | (extract_lets +onlyGivenNames x; refine cutK (m := km_latch) (s := s) (x := x) ?_ ?_; on_goal 1 => (try unfold x); on_goal 2 => (intro hx; clear_value x))
    | extract_lets +onlyGivenNames x
    | split
    | refine Kept.of_snd ‹_› ?_)

def km_fcrCount : Nat := ob Obj.fcrCounts

theorem State.fcrCount_kept (s : State) (i : Nat) (n : Nat) : Kept km_fcrCount s (State.fcrCount s i n) := by
  unfold State.fcrCount
  repeat' (first
    | with_reducible assumption
    | decide +kernel
    | with_reducible exact Kept.refl ..
    | with_reducible apply Kept.step (State.count_kept _ _ _ _ _ _)
    | (extract_lets +onlyGivenNames x; refine cutK (m := km_fcrCount) (s := s) (x := x) ?_ ?_; on_goal 1 => (try unfold x); on_goal 2 => (intro hx; clear_value x))
    | extract_lets +onlyGivenNames x
    | split
    | refine Kept.of_snd ‹_› ?_)

def km_captureFirst : Nat := ob Obj.fcrFirst

theorem State.captureFirst_kept (s : State) (cls : Nat) (src : Nat) (st : Nat) (entry : Nat) : Kept km_captureFirst s (State.captureFirst s cls src st entry) := by
  unfold State.captureFirst
  repeat' (first
    | with_reducible assumption
    | decide +kernel
    | with_reducible exact Kept.refl ..
    | (with_reducible apply Kept.ite <;> intro _)
    | with_reducible apply Kept.step (State.setFld_kept _ _ _ _ _)
    | (extract_lets +onlyGivenNames x; refine cutK (m := km_captureFirst) (s := s) (x := x) ?_ ?_; on_goal 1 => (try unfold x); on_goal 2 => (intro hx; clear_value x))
    | extract_lets +onlyGivenNames x
    | split
    | refine Kept.of_snd ‹_› ?_)

def km_dropTimedStart : Nat := ob Obj.clkStartStatus ||| pt.clk ||| km_latch

theorem State.dropTimedStart_kept (s : State) : Kept km_dropTimedStart s (State.dropTimedStart s) := by
  unfold State.dropTimedStart
  repeat' (first
    | with_reducible assumption
    | decide +kernel
    | with_reducible exact Kept.refl ..
    | (with_reducible apply Kept.ite <;> intro _)
    | with_reducible apply Kept.step (State.setFld_kept _ _ _ _ _)
    | with_reducible apply Kept.step (State.latch_kept _ _)
    | (extract_lets +onlyGivenNames x; refine cutK (m := km_dropTimedStart) (s := s) (x := x) ?_ ?_; on_goal 1 => (try unfold x); on_goal 2 => (intro hx; clear_value x))
    | extract_lets +onlyGivenNames x
    | split
    | refine Kept.of_snd ‹_› ?_
    | with_reducible apply Kept.set_clk)

def km_scheduleEntry : Nat := pt.fcr

theorem State.scheduleEntry_kept (s : State) (t : Nat) (dump : Bool) (reason : Nat) (src : Nat) : Kept km_scheduleEntry s (State.scheduleEntry s t dump reason src) := by
  unfold State.scheduleEntry
  repeat' (first
    | with_reducible assumption
    | decide +kernel
    | with_reducible exact Kept.refl ..
    | (with_reducible apply Kept.ite <;> intro _)
    | (extract_lets +onlyGivenNames x; refine cutK (m := km_scheduleEntry) (s := s) (x := x) ?_ ?_; on_goal 1 => (try unfold x); on_goal 2 => (intro hx; clear_value x))
    | extract_lets +onlyGivenNames x
    | split
    | refine Kept.of_snd ‹_› ?_
    | with_reducible apply Kept.set_fcr)

def km_react : Nat := pt.fcr ||| km_scheduleEntry

theorem State.react_kept (s : State) (src : Nat) (b : Nat) (scope : Option Nat) (own : Bool) : Kept km_react s (State.react s src b scope own) := by
  unfold State.react
  repeat' (first
    | with_reducible assumption
    | decide +kernel
    | with_reducible exact Kept.refl ..
    | (with_reducible apply Kept.ite <;> intro _)
    | with_reducible apply Kept.step (State.scheduleEntry_kept _ _ _ _ _)
    | (extract_lets +onlyGivenNames x; refine cutK (m := km_react) (s := s) (x := x) ?_ ?_; on_goal 1 => (try unfold x); on_goal 2 => (intro hx; clear_value x))
    | extract_lets +onlyGivenNames x
    | split
    | refine Kept.of_snd ‹_› ?_
    | with_reducible apply Kept.set_fcr)

def km_raise : Nat := ob Obj.fcrActive ||| pt.fcr ||| km_latch ||| km_fcrCount ||| km_captureFirst ||| km_dropTimedStart ||| km_react

theorem State.raise_kept (s : State) (src : Nat) (inst : Nat) (master : Nat) (access : Nat) (addr : Nat) (scope : Option Nat) (own : Bool) : Kept km_raise s (State.raise s src inst master access addr scope own) := by
  unfold State.raise
  repeat' (first
    | with_reducible assumption
    | decide +kernel
    | with_reducible exact Kept.refl ..
    | (with_reducible apply Kept.ite <;> intro _)
    | with_reducible apply Kept.step (State.wr_kept _ _ _ _)
    | with_reducible apply Kept.step (State.latch_kept _ _)
    | with_reducible apply Kept.step (State.fcrCount_kept _ _ _)
    | with_reducible apply Kept.step (State.captureFirst_kept _ _ _ _ _)
    | with_reducible apply Kept.step (State.dropTimedStart_kept _)
    | with_reducible apply Kept.step (State.react_kept _ _ _ _ _)
    | (extract_lets +onlyGivenNames x; refine cutK (m := km_raise) (s := s) (x := x) ?_ ?_; on_goal 1 => (try unfold x); on_goal 2 => (intro hx; clear_value x))
    | extract_lets +onlyGivenNames x
    | split
    | refine Kept.of_snd ‹_› ?_
    | dsimp +zetaDelta only [id_eq]
    | with_reducible apply Kept.set_fcr)

def km_raiseAll : Nat := km_raise

theorem State.raiseAll_kept (s : State) (src : Nat) (inst : Nat) : Kept km_raiseAll s (State.raiseAll s src inst) := by
  unfold State.raiseAll
  repeat' (first
    | with_reducible assumption
    | decide +kernel
    | with_reducible exact Kept.refl ..
    | with_reducible apply Kept.step (State.raise_kept _ _ _ _ _ _ _ _)
    | (extract_lets +onlyGivenNames x; refine cutK (m := km_raiseAll) (s := s) (x := x) ?_ ?_; on_goal 1 => (try unfold x); on_goal 2 => (intro hx; clear_value x))
    | extract_lets +onlyGivenNames x
    | split
    | refine Kept.of_snd ‹_› ?_)

def km_noteInst : Nat := pt.fcr

theorem State.noteInst_kept (s : State) (src : Nat) (i : Nat) : Kept km_noteInst s (State.noteInst s src i) := by
  unfold State.noteInst
  repeat' (first
    | with_reducible assumption
    | decide +kernel
    | with_reducible exact Kept.refl ..
    | (with_reducible apply Kept.ite <;> intro _)
    | (extract_lets +onlyGivenNames x; refine cutK (m := km_noteInst) (s := s) (x := x) ?_ ?_; on_goal 1 => (try unfold x); on_goal 2 => (intro hx; clear_value x))
    | extract_lets +onlyGivenNames x
    | split
    | refine Kept.of_snd ‹_› ?_
    | dsimp +zetaDelta only [id_eq]
    | with_reducible apply Kept.set_fcr)

def km_checked : Nat := pt.fcr

theorem State.checked_kept (s : State) (src : Nat) (master : Nat) : Kept km_checked s (State.checked s src master).2 := by
  unfold State.checked
  repeat' (first
    | with_reducible assumption
    | decide +kernel
    | with_reducible exact Kept.refl ..
    | (with_reducible apply Kept.ite <;> intro _)
    | (with_reducible apply Kept.ite2 <;> intro _)
    | (extract_lets +onlyGivenNames x; refine cutK (m := km_checked) (s := s) (x := x) ?_ ?_; on_goal 1 => (try unfold x); on_goal 2 => (intro hx; clear_value x))
    | extract_lets +onlyGivenNames x
    | split
    | refine Kept.of_snd ‹_› ?_
    | with_reducible apply Kept.set_fcr)

end Sys2Proof.Machine
end

