-- ==== Sys2Proof/Laws/KeptDispatcher.lean ====
section
/-! SUPPORT. For every operation of Machine/Dispatcher.lean the parts of the state that it may change. -/
set_option linter.unusedTactic false
set_option linter.unreachableTactic false
set_option linter.unusedVariables false
set_option linter.tactic.unusedName false
set_option Elab.async false
namespace Sys2Proof.Machine

def km_wdpCount : Nat := ob Obj.wdpCounts

theorem State.wdpCount_kept (s : State) (i : Nat) : Kept km_wdpCount s (State.wdpCount s i) := by
  unfold State.wdpCount
  repeat' (first
    | with_reducible assumption
    | decide +kernel
    | with_reducible exact Kept.refl ..
    | with_reducible apply Kept.step (State.count_kept _ _ _ _ _ _)
    | (extract_lets +onlyGivenNames x; refine cutK (m := km_wdpCount) (s := s) (x := x) ?_ ?_; on_goal 1 => (try unfold x); on_goal 2 => (intro hx; clear_value x))
    | extract_lets +onlyGivenNames x
    | split
    | refine Kept.of_snd ‹_› ?_)

def km_traceWrite : Nat := ob Obj.wdpTraceStatus ||| pt.wdpTrace ||| pt.wdpLost ||| km_latch

theorem State.traceWrite_kept (s : State) (r : Nat) : Kept km_traceWrite s (State.traceWrite s r) := by
  unfold State.traceWrite
  repeat' (first
    | with_reducible assumption
    | decide +kernel
    | with_reducible exact Kept.refl ..
    | (with_reducible apply Kept.ite <;> intro _)
    | with_reducible apply Kept.step (State.count_kept _ _ _ _ _ _)
    | with_reducible apply Kept.step (State.latch_kept _ _)
    | (extract_lets +onlyGivenNames x; refine cutK (m := km_traceWrite) (s := s) (x := x) ?_ ?_; on_goal 1 => (try unfold x); on_goal 2 => (intro hx; clear_value x))
    | extract_lets +onlyGivenNames x
    | split
    | refine Kept.of_snd ‹_› ?_
    | with_reducible apply Kept.set_wdpTrace
    | with_reducible apply Kept.set_wdpLost)

def km_trace : Nat := km_traceWrite

theorem State.trace_kept (s : State) (kind : Nat) (i : Item) (core : Nat) : Kept km_trace s (State.trace s kind i core) := by
  unfold State.trace
  repeat' (first
    | with_reducible assumption
    | decide +kernel
    | with_reducible exact Kept.refl ..
    | (with_reducible apply Kept.ite <;> intro _)
    | with_reducible apply Kept.step (State.traceWrite_kept _ _)
    | (extract_lets +onlyGivenNames x; refine cutK (m := km_trace) (s := s) (x := x) ?_ ?_; on_goal 1 => (try unfold x); on_goal 2 => (intro hx; clear_value x))
    | extract_lets +onlyGivenNames x
    | split
    | refine Kept.of_snd ‹_› ?_)

def km_traceTime : Nat := km_traceWrite

theorem State.traceTime_kept (s : State) : Kept km_traceTime s (State.traceTime s) := by
  unfold State.traceTime
  repeat' (first
    | with_reducible assumption
    | decide +kernel
    | with_reducible exact Kept.refl ..
    | (with_reducible apply Kept.ite <;> intro _)
    | with_reducible apply Kept.step (State.traceWrite_kept _ _)
    | (extract_lets +onlyGivenNames x; refine cutK (m := km_traceTime) (s := s) (x := x) ?_ ?_; on_goal 1 => (try unfold x); on_goal 2 => (intro hx; clear_value x))
    | extract_lets +onlyGivenNames x
    | split
    | refine Kept.of_snd ‹_› ?_)

def km_enqueue : Nat := pt.wdpFullAt ||| pt.ready ||| km_wdpCount ||| km_trace ||| km_latch

theorem State.enqueue_kept (s : State) (flow : Nat) (prio : Nat) (producer : Nat) : Kept km_enqueue s (State.enqueue s flow prio producer).2 := by
  unfold State.enqueue
  repeat' (first
    | with_reducible assumption
    | decide +kernel
    | with_reducible exact Kept.refl ..
    | (with_reducible apply Kept.ite <;> intro _)
    | (with_reducible apply Kept.ite2 <;> intro _)
    | with_reducible apply Kept.step (State.wdpCount_kept _ _)
    | with_reducible apply Kept.step (State.trace_kept _ _ _ _)
    | with_reducible apply Kept.step (State.latch_kept _ _)
    | (extract_lets +onlyGivenNames x; refine cutK (m := km_enqueue) (s := s) (x := x) ?_ ?_; on_goal 1 => (try unfold x); on_goal 2 => (intro hx; clear_value x))
    | extract_lets +onlyGivenNames x
    | split
    | refine Kept.of_snd ‹_› ?_
    | dsimp +zetaDelta only [id_eq]
    | with_reducible apply Kept.set_wdpFullAt
    | with_reducible apply Kept.set_ready)

def km_dispatchTo : Nat := ob Obj.cccState ||| ob Obj.wdpQueue ||| pt.ready ||| km_setCore ||| km_wdpCount ||| km_trace

theorem State.dispatchTo_kept (s : State) (i : Item) (c : Nat) : Kept km_dispatchTo s (State.dispatchTo s i c) := by
  unfold State.dispatchTo
  repeat' (first
    | with_reducible assumption
    | decide +kernel
    | with_reducible exact Kept.refl ..
    | with_reducible apply Kept.step (State.wr_kept _ _ _ _)
    | with_reducible apply Kept.step (State.setFld_kept _ _ _ _ _)
    | with_reducible apply Kept.step (State.setCore_kept _ _ _)
    | with_reducible apply Kept.step (State.wdpCount_kept _ _)
    | with_reducible apply Kept.step (State.trace_kept _ _ _ _)
    | (extract_lets +onlyGivenNames x; refine cutK (m := km_dispatchTo) (s := s) (x := x) ?_ ?_; on_goal 1 => (try unfold x); on_goal 2 => (intro hx; clear_value x))
    | extract_lets +onlyGivenNames x
    | split
    | refine Kept.of_snd ‹_› ?_
    | with_reducible apply Kept.set_ready)

def km_dispatchAll : Nat := km_dispatchTo

theorem State.dispatchAll_kept (k : Nat) (s : State) : Kept km_dispatchAll s (State.dispatchAll k s) := by
  induction k generalizing s with
  | zero =>
    unfold State.dispatchAll
    repeat' (first
      | with_reducible assumption
      | decide +kernel
      | with_reducible exact Kept.refl ..
      | with_reducible apply Kept.step (ih _)
      | with_reducible apply Kept.step (State.dispatchTo_kept _ _ _)
      | (extract_lets +onlyGivenNames x; refine cutK (m := km_dispatchAll) (s := s) (x := x) ?_ ?_; on_goal 1 => (try unfold x); on_goal 2 => (intro hx; clear_value x))
      | extract_lets +onlyGivenNames x
      | split
      | refine Kept.of_snd ‹_› ?_)
  | succ k ih =>
    unfold State.dispatchAll
    repeat' (first
      | with_reducible assumption
      | decide +kernel
      | with_reducible exact Kept.refl ..
      | with_reducible apply Kept.step (ih _)
      | with_reducible apply Kept.step (State.dispatchTo_kept _ _ _)
      | (extract_lets +onlyGivenNames x; refine cutK (m := km_dispatchAll) (s := s) (x := x) ?_ ?_; on_goal 1 => (try unfold x); on_goal 2 => (intro hx; clear_value x))
      | extract_lets +onlyGivenNames x
      | split
      | refine Kept.of_snd ‹_› ?_)

def km_execDispatch : Nat := km_reach ||| km_dispatchAll

theorem execDispatch_kept (s : State) : KeptR km_execDispatch s (execDispatch s) := by
  unfold execDispatch
  repeat' (first
    | with_reducible assumption
    | decide +kernel
    | with_reducible exact Kept.refl ..
    | with_reducible refine KeptR.next ?_
    | with_reducible exact KeptR.fault
    | with_reducible apply Kept.step (State.reach_kept _ _)
    | with_reducible apply Kept.step (State.dispatchAll_kept _ _)
    | (extract_lets +onlyGivenNames x; refine cutK (m := km_execDispatch) (s := s) (x := x) ?_ ?_; on_goal 1 => (try unfold x); on_goal 2 => (intro hx; clear_value x))
    | extract_lets +onlyGivenNames x
    | split
    | refine Kept.of_snd ‹_› ?_)

def km_execEnqueue : Nat := km_enqueue

theorem execEnqueue_kept (flow : Nat) (prio : Nat) (producer : Nat) (s : State) : KeptR km_execEnqueue s (execEnqueue flow prio producer s) := by
  unfold execEnqueue
  repeat' (first
    | with_reducible assumption
    | decide +kernel
    | with_reducible exact Kept.refl ..
    | with_reducible refine KeptR.next ?_
    | with_reducible exact KeptR.fault
    | with_reducible apply Kept.step (State.enqueue_kept _ _ _ _)
    | (extract_lets +onlyGivenNames x; refine cutK (m := km_execEnqueue) (s := s) (x := x) ?_ ?_; on_goal 1 => (try unfold x); on_goal 2 => (intro hx; clear_value x))
    | (extract_lets +onlyGivenNames x; refine cutK (m := km_execEnqueue) (s := s) (x := x.2) ?_ ?_; on_goal 1 => (try unfold x); on_goal 2 => (intro hx; clear_value x))
    | extract_lets +onlyGivenNames x
    | split
    | refine Kept.of_snd ‹_› ?_)

def km_endBusy : Nat := ob Obj.wdpStats ||| km_setCore

theorem State.endBusy_kept (s : State) (n : Nat) : Kept km_endBusy s (State.endBusy s n) := by
  unfold State.endBusy
  repeat' (first
    | with_reducible assumption
    | decide +kernel
    | with_reducible exact Kept.refl ..
    | (with_reducible apply Kept.ite <;> intro _)
    | with_reducible apply Kept.step (State.count_kept _ _ _ _ _ _)
    | with_reducible apply Kept.step (State.setCore_kept _ _ _)
    | (extract_lets +onlyGivenNames x; refine cutK (m := km_endBusy) (s := s) (x := x) ?_ ?_; on_goal 1 => (try unfold x); on_goal 2 => (intro hx; clear_value x))
    | extract_lets +onlyGivenNames x
    | split
    | refine Kept.of_snd ‹_› ?_
    | dsimp +zetaDelta only [id_eq])

def km_takeHeld : Nat := km_deliverGroup

theorem State.takeHeld_kept (s : State) (n : Nat) : Kept km_takeHeld s (State.takeHeld s n) := by
  unfold State.takeHeld
  repeat' (first
    | with_reducible assumption
    | decide +kernel
    | with_reducible exact Kept.refl ..
    | (with_reducible apply Kept.ite <;> intro _)
    | with_reducible apply Kept.step (State.deliverGroup_kept _ _ _)
    | with_reducible apply Kept.foldl
    | with_reducible refine fun (x : State) a hx => ?_
    | (extract_lets +onlyGivenNames x; refine cutK (m := km_takeHeld) (s := s) (x := x) ?_ ?_; on_goal 1 => (try unfold x); on_goal 2 => (intro hx; clear_value x))
    | extract_lets +onlyGivenNames x
    | split
    | refine Kept.of_snd ‹_› ?_
    | dsimp +zetaDelta only [id_eq])

def km_fwComplete : Nat := pt.ode

theorem State.fwComplete_kept (s : State) (flow : Nat) : Kept km_fwComplete s (State.fwComplete s flow) := by
  unfold State.fwComplete
  repeat' (first
    | with_reducible assumption
    | decide +kernel
    | with_reducible exact Kept.refl ..
    | (with_reducible apply Kept.ite <;> intro _)
    | (extract_lets +onlyGivenNames x; refine cutK (m := km_fwComplete) (s := s) (x := x) ?_ ?_; on_goal 1 => (try unfold x); on_goal 2 => (intro hx; clear_value x))
    | extract_lets +onlyGivenNames x
    | split
    | refine Kept.of_snd ‹_› ?_
    | with_reducible apply Kept.set_ode)

def km_complete : Nat := ob Obj.cccState ||| ob Obj.wdpStats ||| pt.flowFree ||| km_fwComplete ||| km_setCore ||| km_trace ||| km_endBusy ||| km_takeHeld

theorem State.complete_kept (s : State) (n : Nat) : Kept km_complete s (State.complete s n) := by
  unfold State.complete
  repeat' (first
    | with_reducible assumption
    | decide +kernel
    | with_reducible exact Kept.refl ..
    | (with_reducible apply Kept.ite <;> intro _)
    | with_reducible apply Kept.step (State.wr_kept _ _ _ _)
    | with_reducible apply Kept.step (State.setFld_kept _ _ _ _ _)
    | with_reducible apply Kept.step (State.count_kept _ _ _ _ _ _)
    | with_reducible apply Kept.step (State.fwComplete_kept _ _)
    | with_reducible apply Kept.step (State.setCore_kept _ _ _)
    | with_reducible apply Kept.step (State.trace_kept _ _ _ _)
    | with_reducible apply Kept.step (State.endBusy_kept _ _)
    | with_reducible apply Kept.step (State.takeHeld_kept _ _)
    | (extract_lets +onlyGivenNames x; refine cutK (m := km_complete) (s := s) (x := x) ?_ ?_; on_goal 1 => (try unfold x); on_goal 2 => (intro hx; clear_value x))
    | extract_lets +onlyGivenNames x
    | split
    | refine Kept.of_snd ‹_› ?_
    | dsimp +zetaDelta only [id_eq]
    | with_reducible apply Kept.set_flowFree)

def km_execYield : Nat := ob Obj.cccState ||| pt.ready ||| km_wdpCount ||| km_setCore ||| km_trace ||| km_endBusy ||| km_takeHeld

theorem execYield_kept (core : Nat) (s : State) : KeptR km_execYield s (execYield core s) := by
  unfold execYield
  repeat' (first
    | with_reducible assumption
    | decide +kernel
    | with_reducible exact Kept.refl ..
    | (with_reducible apply KeptR.ite <;> intro _)
    | (with_reducible apply Kept.ite <;> intro _)
    | with_reducible refine KeptR.next ?_
    | with_reducible exact KeptR.fault
    | with_reducible apply Kept.step (State.wr_kept _ _ _ _)
    | with_reducible apply Kept.step (State.setCore_kept _ _ _)
    | with_reducible apply Kept.step (State.trace_kept _ _ _ _)
    | with_reducible apply Kept.step (State.wdpCount_kept _ _)
    | with_reducible apply Kept.step (State.endBusy_kept _ _)
    | with_reducible apply Kept.step (State.takeHeld_kept _ _)
    | (extract_lets +onlyGivenNames x; refine cutK (m := km_execYield) (s := s) (x := x) ?_ ?_; on_goal 1 => (try unfold x); on_goal 2 => (intro hx; clear_value x))
    | extract_lets +onlyGivenNames x
    | split
    | refine Kept.of_snd ‹_› ?_
    | dsimp +zetaDelta only [id_eq]
    | with_reducible apply Kept.set_ready)

def km_halt : Nat := ob Obj.cccState

theorem State.halt_kept (s : State) (n : Nat) : Kept km_halt s (State.halt s n) := by
  unfold State.halt
  repeat' (first
    | with_reducible assumption
    | decide +kernel
    | with_reducible exact Kept.refl ..
    | with_reducible apply Kept.step (State.wr_kept _ _ _ _)
    | (extract_lets +onlyGivenNames x; refine cutK (m := km_halt) (s := s) (x := x) ?_ ?_; on_goal 1 => (try unfold x); on_goal 2 => (intro hx; clear_value x))
    | extract_lets +onlyGivenNames x
    | split
    | refine Kept.of_snd ‹_› ?_)

def km_execCccHang : Nat := km_reach ||| km_halt ||| km_raise

theorem execCccHang_kept (core : Nat) (s : State) : KeptR km_execCccHang s (execCccHang core s) := by
  unfold execCccHang
  repeat' (first
    | with_reducible assumption
    | decide +kernel
    | with_reducible exact Kept.refl ..
    | with_reducible refine KeptR.next ?_
    | with_reducible exact KeptR.fault
    | with_reducible apply Kept.step (State.reach_kept _ _)
    | with_reducible apply Kept.step (State.halt_kept _ _)
    | with_reducible apply Kept.step (State.raise_kept _ _ _ _ _ _ _ _)
    | (extract_lets +onlyGivenNames x; refine cutK (m := km_execCccHang) (s := s) (x := x) ?_ ?_; on_goal 1 => (try unfold x); on_goal 2 => (intro hx; clear_value x))
    | extract_lets +onlyGivenNames x
    | split
    | refine Kept.of_snd ‹_› ?_)

def km_execCccEccU : Nat := ob Obj.cccCounts ||| km_checked ||| km_raise ||| km_halt

theorem execCccEccU_kept (core : Nat) (s : State) : KeptR km_execCccEccU s (execCccEccU core s) := by
  unfold execCccEccU
  repeat' (first
    | with_reducible assumption
    | decide +kernel
    | with_reducible exact Kept.refl ..
    | (with_reducible apply KeptR.ite <;> intro _)
    | (with_reducible apply Kept.ite <;> intro _)
    | with_reducible refine KeptR.next ?_
    | with_reducible exact KeptR.fault
    | with_reducible apply Kept.step (State.count_kept _ _ _ _ _ _)
    | with_reducible apply Kept.step (State.checked_kept _ _ _)
    | with_reducible apply Kept.step (State.raise_kept _ _ _ _ _ _ _ _)
    | with_reducible apply Kept.step (State.halt_kept _ _)
    | (extract_lets +onlyGivenNames x; refine cutK (m := km_execCccEccU) (s := s) (x := x) ?_ ?_; on_goal 1 => (try unfold x); on_goal 2 => (intro hx; clear_value x))
    | (extract_lets +onlyGivenNames x; refine cutK (m := km_execCccEccU) (s := s) (x := x.2) ?_ ?_; on_goal 1 => (try unfold x); on_goal 2 => (intro hx; clear_value x))
    | extract_lets +onlyGivenNames x
    | split
    | refine Kept.of_snd ‹_› ?_)

def km_statsClear : Nat := ob Obj.wdpQueue ||| ob Obj.wdpStats ||| pt.cores

theorem State.statsClear_kept (s : State) : Kept km_statsClear s (State.statsClear s) := by
  unfold State.statsClear
  repeat' (first
    | with_reducible assumption
    | decide +kernel
    | with_reducible exact Kept.refl ..
    | with_reducible apply Kept.step (State.setFld_kept _ _ _ _ _)
    | with_reducible apply Kept.step (State.wrAll_kept _ _ _ _)
    | (extract_lets +onlyGivenNames x; refine cutK (m := km_statsClear) (s := s) (x := x) ?_ ?_; on_goal 1 => (try unfold x); on_goal 2 => (intro hx; clear_value x))
    | extract_lets +onlyGivenNames x
    | split
    | refine Kept.of_snd ‹_› ?_
    | dsimp +zetaDelta only [id_eq]
    | with_reducible apply Kept.set_cores)

def km_execDispatcherTimeAnchor : Nat := km_reach ||| km_traceTime

theorem execDispatcherTimeAnchor_kept (s : State) : KeptR km_execDispatcherTimeAnchor s (execDispatcherTimeAnchor s) := by
  unfold execDispatcherTimeAnchor
  repeat' (first
    | with_reducible assumption
    | decide +kernel
    | with_reducible exact Kept.refl ..
    | with_reducible refine KeptR.next ?_
    | with_reducible exact KeptR.fault
    | with_reducible apply Kept.step (State.reach_kept _ _)
    | with_reducible apply Kept.step (State.traceTime_kept _)
    | (extract_lets +onlyGivenNames x; refine cutK (m := km_execDispatcherTimeAnchor) (s := s) (x := x) ?_ ?_; on_goal 1 => (try unfold x); on_goal 2 => (intro hx; clear_value x))
    | extract_lets +onlyGivenNames x
    | split
    | refine Kept.of_snd ‹_› ?_
    | dsimp +zetaDelta only [id_eq])

def km_execSourceLatch : Nat := km_setSrc ||| km_latch

theorem execSourceLatch_kept (source : Nat) (high : Bool) (s : State) : KeptR km_execSourceLatch s (execSourceLatch source high s) := by
  unfold execSourceLatch
  repeat' (first
    | with_reducible assumption
    | decide +kernel
    | with_reducible exact Kept.refl ..
    | (with_reducible apply KeptR.ite <;> intro _)
    | (with_reducible apply Kept.ite <;> intro _)
    | with_reducible refine KeptR.next ?_
    | with_reducible exact KeptR.fault
    | with_reducible apply Kept.step (State.setSrc_kept _ _ _)
    | with_reducible apply Kept.step (State.latch_kept _ _)
    | (extract_lets +onlyGivenNames x; refine cutK (m := km_execSourceLatch) (s := s) (x := x) ?_ ?_; on_goal 1 => (try unfold x); on_goal 2 => (intro hx; clear_value x))
    | extract_lets +onlyGivenNames x
    | split
    | refine Kept.of_snd ‹_› ?_)

def km_execHoldoffExpiry : Nat := km_reach ||| ob Obj.iecCounts ||| km_deliverGroup

theorem execHoldoffExpiry_kept (group : Nat) (s : State) : KeptR km_execHoldoffExpiry s (execHoldoffExpiry group s) := by
  unfold execHoldoffExpiry
  repeat' (first
    | with_reducible assumption
    | decide +kernel
    | with_reducible exact Kept.refl ..
    | with_reducible refine KeptR.next ?_
    | with_reducible exact KeptR.fault
    | with_reducible apply Kept.step (State.reach_kept _ _)
    | with_reducible apply Kept.step (State.count_kept _ _ _ _ _ _)
    | with_reducible apply Kept.step (State.deliverGroup_kept _ _ _)
    | (extract_lets +onlyGivenNames x; refine cutK (m := km_execHoldoffExpiry) (s := s) (x := x) ?_ ?_; on_goal 1 => (try unfold x); on_goal 2 => (intro hx; clear_value x))
    | extract_lets +onlyGivenNames x
    | split
    | refine Kept.of_snd ‹_› ?_)

def km_execCoreWait : Nat := ob Obj.cccState ||| km_setCore ||| km_endBusy ||| km_takeHeld

theorem execCoreWait_kept (core : Nat) (mask : Bool) (s : State) : KeptR km_execCoreWait s (execCoreWait core mask s) := by
  unfold execCoreWait
  repeat' (first
    | with_reducible assumption
    | decide +kernel
    | with_reducible exact Kept.refl ..
    | (with_reducible apply KeptR.ite <;> intro _)
    | (with_reducible apply Kept.ite <;> intro _)
    | with_reducible refine KeptR.next ?_
    | with_reducible exact KeptR.fault
    | with_reducible apply Kept.step (State.wr_kept _ _ _ _)
    | with_reducible apply Kept.step (State.setCore_kept _ _ _)
    | with_reducible apply Kept.step (State.endBusy_kept _ _)
    | with_reducible apply Kept.step (State.takeHeld_kept _ _)
    | (extract_lets +onlyGivenNames x; refine cutK (m := km_execCoreWait) (s := s) (x := x) ?_ ?_; on_goal 1 => (try unfold x); on_goal 2 => (intro hx; clear_value x))
    | extract_lets +onlyGivenNames x
    | split
    | refine Kept.of_snd ‹_› ?_)

def km_execHandlerEntry : Nat := ob Obj.cccCounts ||| ob Obj.cccState ||| km_reach ||| km_setCore

theorem execHandlerEntry_kept (core : Nat) (s : State) : KeptR km_execHandlerEntry s (execHandlerEntry core s) := by
  unfold execHandlerEntry
  repeat' (first
    | with_reducible assumption
    | decide +kernel
    | with_reducible exact Kept.refl ..
    | (with_reducible apply KeptR.ite <;> intro _)
    | with_reducible refine KeptR.next ?_
    | with_reducible exact KeptR.fault
    | with_reducible apply Kept.step (State.wr_kept _ _ _ _)
    | with_reducible apply Kept.step (State.count_kept _ _ _ _ _ _)
    | with_reducible apply Kept.step (State.reach_kept _ _)
    | with_reducible apply Kept.step (State.setCore_kept _ _ _)
    | (extract_lets +onlyGivenNames x; refine cutK (m := km_execHandlerEntry) (s := s) (x := x) ?_ ?_; on_goal 1 => (try unfold x); on_goal 2 => (intro hx; clear_value x))
    | extract_lets +onlyGivenNames x
    | split
    | refine Kept.of_snd ‹_› ?_)

def km_execClaim : Nat := ob Obj.iecPending ||| ob Obj.iecSpurious ||| km_setCore ||| km_setSrc

theorem execClaim_kept (core : Nat) (source : Nat) (spurious : Bool) (s : State) : KeptR km_execClaim s (execClaim core source spurious s) := by
  unfold execClaim
  repeat' (first
    | with_reducible assumption
    | decide +kernel
    | with_reducible exact Kept.refl ..
    | (with_reducible apply KeptR.ite <;> intro _)
    | (with_reducible apply Kept.ite <;> intro _)
    | with_reducible refine KeptR.next ?_
    | with_reducible exact KeptR.fault
    | with_reducible apply Kept.step (State.wr_kept _ _ _ _)
    | with_reducible apply Kept.step (State.count_kept _ _ _ _ _ _)
    | with_reducible apply Kept.step (State.count64_kept _ _ _ _)
    | with_reducible apply Kept.step (State.setCore_kept _ _ _)
    | with_reducible apply Kept.step (State.setSrc_kept _ _ _)
    | (extract_lets +onlyGivenNames x; refine cutK (m := km_execClaim) (s := s) (x := x) ?_ ?_; on_goal 1 => (try unfold x); on_goal 2 => (intro hx; clear_value x))
    | extract_lets +onlyGivenNames x
    | split
    | refine Kept.of_snd ‹_› ?_)

end Sys2Proof.Machine
end

