-- ==== Sys2Proof/Laws/KeptClocks.lean ====
section
/-! SUPPORT. For every operation of Machine/Clocks.lean the parts of the state that it may change. -/
set_option linter.unusedTactic false
set_option linter.unreachableTactic false
set_option linter.unusedVariables false
set_option linter.tactic.unusedName false
set_option Elab.async false
namespace Sys2Proof.Machine

def km_clkCount : Nat := ob Obj.clkCounts

theorem State.clkCount_kept (s : State) (i : Nat) : Kept km_clkCount s (State.clkCount s i) := by
  unfold State.clkCount
  repeat' (first
    | with_reducible assumption
    | decide +kernel
    | with_reducible exact Kept.refl ..
    | with_reducible apply Kept.step (State.count_kept _ _ _ _ _ _)
    | (extract_lets +onlyGivenNames x; refine cutK (m := km_clkCount) (s := s) (x := x) ?_ ?_; on_goal 1 => (try unfold x); on_goal 2 => (intro hx; clear_value x))
    | extract_lets +onlyGivenNames x
    | split
    | refine Kept.of_snd ‹_› ?_)

def km_unalign : Nat := ob Obj.clkState ||| ob Obj.cslPortStatus ||| km_raiseAll

theorem State.unalign_kept (s : State) : Kept km_unalign s (State.unalign s) := by
  unfold State.unalign
  repeat' (first
    | with_reducible assumption
    | decide +kernel
    | with_reducible exact Kept.refl ..
    | (with_reducible apply Kept.ite <;> intro _)
    | with_reducible apply Kept.step (State.setFld_kept _ _ _ _ _)
    | with_reducible apply Kept.step (State.raiseAll_kept _ _ _)
    | with_reducible apply Kept.foldl
    | with_reducible refine fun (x : State) a hx => ?_
    | (extract_lets +onlyGivenNames x; refine cutK (m := km_unalign) (s := s) (x := x) ?_ ?_; on_goal 1 => (try unfold x); on_goal 2 => (intro hx; clear_value x))
    | extract_lets +onlyGivenNames x
    | split
    | refine Kept.of_snd ‹_› ?_
    | dsimp +zetaDelta only [id_eq])

def km_execRefclkLoss : Nat := ob Obj.clkState ||| km_unalign ||| km_clkCount ||| km_raiseAll

theorem execRefclkLoss_kept (s : State) : KeptR km_execRefclkLoss s (execRefclkLoss s) := by
  unfold execRefclkLoss
  repeat' (first
    | with_reducible assumption
    | decide +kernel
    | with_reducible exact Kept.refl ..
    | (with_reducible apply KeptR.ite <;> intro _)
    | (with_reducible apply Kept.ite <;> intro _)
    | with_reducible refine KeptR.next ?_
    | with_reducible exact KeptR.fault
    | with_reducible apply Kept.step (State.setFld_kept _ _ _ _ _)
    | with_reducible apply Kept.step (State.unalign_kept _)
    | with_reducible apply Kept.step (State.clkCount_kept _ _)
    | with_reducible apply Kept.step (State.raiseAll_kept _ _ _)
    | (extract_lets +onlyGivenNames x; refine cutK (m := km_execRefclkLoss) (s := s) (x := x) ?_ ?_; on_goal 1 => (try unfold x); on_goal 2 => (intro hx; clear_value x))
    | extract_lets +onlyGivenNames x
    | split
    | refine Kept.of_snd ‹_› ?_)

def km_execRefclkRelock : Nat := ob Obj.clkState

theorem execRefclkRelock_kept (s : State) : KeptR km_execRefclkRelock s (execRefclkRelock s) := by
  unfold execRefclkRelock
  repeat' (first
    | with_reducible assumption
    | decide +kernel
    | with_reducible exact Kept.refl ..
    | (with_reducible apply KeptR.ite <;> intro _)
    | (with_reducible apply Kept.ite <;> intro _)
    | with_reducible refine KeptR.next ?_
    | with_reducible exact KeptR.fault
    | with_reducible apply Kept.step (State.setFld_kept _ _ _ _ _)
    | (extract_lets +onlyGivenNames x; refine cutK (m := km_execRefclkRelock) (s := s) (x := x) ?_ ?_; on_goal 1 => (try unfold x); on_goal 2 => (intro hx; clear_value x))
    | extract_lets +onlyGivenNames x
    | split
    | refine Kept.of_snd ‹_› ?_)

def km_execClkPllUnlock : Nat := ob Obj.clkState ||| km_unalign ||| km_raiseAll

theorem execClkPllUnlock_kept (s : State) : KeptR km_execClkPllUnlock s (execClkPllUnlock s) := by
  unfold execClkPllUnlock
  repeat' (first
    | with_reducible assumption
    | decide +kernel
    | with_reducible exact Kept.refl ..
    | with_reducible refine KeptR.next ?_
    | with_reducible exact KeptR.fault
    | with_reducible apply Kept.step (State.setFld_kept _ _ _ _ _)
    | with_reducible apply Kept.step (State.unalign_kept _)
    | with_reducible apply Kept.step (State.raiseAll_kept _ _ _)
    | (extract_lets +onlyGivenNames x; refine cutK (m := km_execClkPllUnlock) (s := s) (x := x) ?_ ?_; on_goal 1 => (try unfold x); on_goal 2 => (intro hx; clear_value x))
    | extract_lets +onlyGivenNames x
    | split
    | refine Kept.of_snd ‹_› ?_)

def km_setEpoch : Nat := ob Obj.clkEpoch ||| pt.clk ||| pt.adc

theorem State.setEpoch_kept (s : State) (e : Nat) (src : Nat) : Kept km_setEpoch s (State.setEpoch s e src) := by
  unfold State.setEpoch
  repeat' (first
    | with_reducible assumption
    | decide +kernel
    | with_reducible exact Kept.refl ..
    | with_reducible apply Kept.step (State.setFld_kept _ _ _ _ _)
    | (extract_lets +onlyGivenNames x; refine cutK (m := km_setEpoch) (s := s) (x := x) ?_ ?_; on_goal 1 => (try unfold x); on_goal 2 => (intro hx; clear_value x))
    | extract_lets +onlyGivenNames x
    | split
    | refine Kept.of_snd ‹_› ?_
    | with_reducible apply Kept.set_clk_adc)

def km_disarm : Nat := ob Obj.clkSyncArm ||| ob Obj.clkSyncStatus

theorem State.disarm_kept (s : State) : Kept km_disarm s (State.disarm s) := by
  unfold State.disarm
  repeat' (first
    | with_reducible assumption
    | decide +kernel
    | with_reducible exact Kept.refl ..
    | with_reducible apply Kept.step (State.wr_kept _ _ _ _)
    | with_reducible apply Kept.step (State.setFld_kept _ _ _ _ _)
    | (extract_lets +onlyGivenNames x; refine cutK (m := km_disarm) (s := s) (x := x) ?_ ?_; on_goal 1 => (try unfold x); on_goal 2 => (intro hx; clear_value x))
    | extract_lets +onlyGivenNames x
    | split
    | refine Kept.of_snd ‹_› ?_)

def km_execSyncEdge : Nat := ob Obj.clkState ||| ob Obj.clkSyncStatus ||| pt.csl ||| km_reach ||| km_clkCount ||| km_disarm ||| km_setEpoch ||| km_latch

theorem execSyncEdge_kept (t : Nat) (s : State) : KeptR km_execSyncEdge s (execSyncEdge t s) := by
  unfold execSyncEdge
  repeat' (first
    | with_reducible assumption
    | decide +kernel
    | with_reducible exact Kept.refl ..
    | (with_reducible apply KeptR.ite <;> intro _)
    | (with_reducible apply Kept.ite <;> intro _)
    | with_reducible refine KeptR.next ?_
    | with_reducible exact KeptR.fault
    | with_reducible apply Kept.step (State.setFld_kept _ _ _ _ _)
    | with_reducible apply Kept.step (State.reach_kept _ _)
    | with_reducible apply Kept.step (State.clkCount_kept _ _)
    | with_reducible apply Kept.step (State.disarm_kept _)
    | with_reducible apply Kept.step (State.setEpoch_kept _ _ _)
    | with_reducible apply Kept.step (State.latch_kept _ _)
    | (extract_lets +onlyGivenNames x; refine cutK (m := km_execSyncEdge) (s := s) (x := x) ?_ ?_; on_goal 1 => (try unfold x); on_goal 2 => (intro hx; clear_value x))
    | extract_lets +onlyGivenNames x
    | split
    | refine Kept.of_snd ‹_› ?_
    | dsimp +zetaDelta only [id_eq]
    | with_reducible apply Kept.set_csl)

def km_syncArm : Nat := ob Obj.clkSyncArm ||| ob Obj.clkSyncStatus ||| km_disarm

theorem State.syncArm_kept (s : State) (v : Nat) : Kept km_syncArm s (State.syncArm s v) := by
  unfold State.syncArm
  repeat' (first
    | with_reducible assumption
    | decide +kernel
    | with_reducible exact Kept.refl ..
    | (with_reducible apply Kept.ite <;> intro _)
    | with_reducible apply Kept.step (State.wr_kept _ _ _ _)
    | with_reducible apply Kept.step (State.setFld_kept _ _ _ _ _)
    | with_reducible apply Kept.step (State.disarm_kept _)
    | (extract_lets +onlyGivenNames x; refine cutK (m := km_syncArm) (s := s) (x := x) ?_ ?_; on_goal 1 => (try unfold x); on_goal 2 => (intro hx; clear_value x))
    | extract_lets +onlyGivenNames x
    | split
    | refine Kept.of_snd ‹_› ?_)

def km_stepNt : Nat := pt.clk ||| km_rebaseNt

theorem State.stepNt_kept (s : State) (d : Int) : Kept km_stepNt s (State.stepNt s d) := by
  unfold State.stepNt
  repeat' (first
    | with_reducible assumption
    | decide +kernel
    | with_reducible exact Kept.refl ..
    | with_reducible apply Kept.step (State.rebaseNt_kept _)
    | (extract_lets +onlyGivenNames x; refine cutK (m := km_stepNt) (s := s) (x := x) ?_ ?_; on_goal 1 => (try unfold x); on_goal 2 => (intro hx; clear_value x))
    | extract_lets +onlyGivenNames x
    | split
    | refine Kept.of_snd ‹_› ?_
    | with_reducible apply Kept.set_clk)

def km_ptpUnlock : Nat := ob Obj.ptpStatus ||| pt.clk ||| km_latch

theorem State.ptpUnlock_kept (s : State) : Kept km_ptpUnlock s (State.ptpUnlock s) := by
  unfold State.ptpUnlock
  repeat' (first
    | with_reducible assumption
    | decide +kernel
    | with_reducible exact Kept.refl ..
    | (with_reducible apply Kept.ite <;> intro _)
    | with_reducible apply Kept.step (State.setFld_kept _ _ _ _ _)
    | with_reducible apply Kept.step (State.latch_kept _ _)
    | (extract_lets +onlyGivenNames x; refine cutK (m := km_ptpUnlock) (s := s) (x := x) ?_ ?_; on_goal 1 => (try unfold x); on_goal 2 => (intro hx; clear_value x))
    | extract_lets +onlyGivenNames x
    | split
    | refine Kept.of_snd ‹_› ?_
    | with_reducible apply Kept.set_clk)

def km_ptpCount : Nat := ob Obj.ptpCounts

theorem State.ptpCount_kept (s : State) (port : Nat) (i : Nat) : Kept km_ptpCount s (State.ptpCount s port i) := by
  unfold State.ptpCount
  repeat' (first
    | with_reducible assumption
    | decide +kernel
    | with_reducible exact Kept.refl ..
    | with_reducible apply Kept.step (State.count_kept _ _ _ _ _ _)
    | (extract_lets +onlyGivenNames x; refine cutK (m := km_ptpCount) (s := s) (x := x) ?_ ?_; on_goal 1 => (try unfold x); on_goal 2 => (intro hx; clear_value x))
    | extract_lets +onlyGivenNames x
    | split
    | refine Kept.of_snd ‹_› ?_)

def km_setIncrement : Nat := ob Obj.ptpIncrement ||| km_rebaseNt

theorem State.setIncrement_kept (s : State) (v : Nat) : Kept km_setIncrement s (State.setIncrement s v) := by
  unfold State.setIncrement
  repeat' (first
    | with_reducible assumption
    | decide +kernel
    | with_reducible exact Kept.refl ..
    | with_reducible apply Kept.step (State.wr_kept _ _ _ _)
    | with_reducible apply Kept.step (State.rebaseNt_kept _)
    | (extract_lets +onlyGivenNames x; refine cutK (m := km_setIncrement) (s := s) (x := x) ?_ ?_; on_goal 1 => (try unfold x); on_goal 2 => (intro hx; clear_value x))
    | extract_lets +onlyGivenNames x
    | split
    | refine Kept.of_snd ‹_› ?_)

def km_execPtpOffset : Nat := ob Obj.ptpStatus ||| ob Obj.ptpTxqStatus ||| km_setClk ||| km_stepNt ||| km_ptpUnlock ||| km_ptpCount ||| km_latch ||| km_draw ||| km_setIncrement

theorem execPtpOffset_kept (offset : Int) (pathDelay : Int) (port : Nat) (master : Nat) (s : State) : KeptR km_execPtpOffset s (execPtpOffset offset pathDelay port master s) := by
  unfold execPtpOffset
  repeat' (first
    | with_reducible assumption
    | decide +kernel
    | with_reducible exact Kept.refl ..
    | (with_reducible apply KeptR.ite <;> intro _)
    | (with_reducible apply Kept.ite <;> intro _)
    | with_reducible refine KeptR.next ?_
    | with_reducible exact KeptR.fault
    | with_reducible apply Kept.step (State.setFld_kept _ _ _ _ _)
    | with_reducible apply Kept.step (State.setClk_kept _ _)
    | with_reducible apply Kept.step (State.stepNt_kept _ _)
    | with_reducible apply Kept.step (State.ptpUnlock_kept _)
    | with_reducible apply Kept.step (State.ptpCount_kept _ _ _)
    | with_reducible apply Kept.step (State.latch_kept _ _)
    | with_reducible apply Kept.step (State.draw_kept _)
    | with_reducible apply Kept.step (State.setIncrement_kept _ _)
    | (extract_lets +onlyGivenNames x; refine cutK (m := km_execPtpOffset) (s := s) (x := x) ?_ ?_; on_goal 1 => (try unfold x); on_goal 2 => (intro hx; clear_value x))
    | extract_lets +onlyGivenNames x
    | split
    | refine Kept.of_snd ‹_› ?_
    | dsimp +zetaDelta only [id_eq])

def km_execPtpSyncTimeout : Nat := pt.clk ||| km_reach ||| km_ptpUnlock

theorem execPtpSyncTimeout_kept (s : State) : KeptR km_execPtpSyncTimeout s (execPtpSyncTimeout s) := by
  unfold execPtpSyncTimeout
  repeat' (first
    | with_reducible assumption
    | decide +kernel
    | with_reducible exact Kept.refl ..
    | with_reducible refine KeptR.next ?_
    | with_reducible exact KeptR.fault
    | with_reducible apply Kept.step (State.reach_kept _ _)
    | with_reducible apply Kept.step (State.ptpUnlock_kept _)
    | (extract_lets +onlyGivenNames x; refine cutK (m := km_execPtpSyncTimeout) (s := s) (x := x) ?_ ?_; on_goal 1 => (try unfold x); on_goal 2 => (intro hx; clear_value x))
    | extract_lets +onlyGivenNames x
    | split
    | refine Kept.of_snd ‹_› ?_
    | with_reducible apply Kept.set_clk)

def km_execPtpEventMessage : Nat := ob Obj.ptpTxqOvf ||| ob Obj.ptpTxqStatus ||| pt.clk ||| km_ptpCount ||| km_draw ||| km_latch

theorem execPtpEventMessage_kept (port : Nat) (egress : Bool) (seqId : Nat) (msgType : Nat) (s : State) : KeptR km_execPtpEventMessage s (execPtpEventMessage port egress seqId msgType s) := by
  unfold execPtpEventMessage
  repeat' (first
    | with_reducible assumption
    | decide +kernel
    | with_reducible exact Kept.refl ..
    | (with_reducible apply KeptR.ite <;> intro _)
    | (with_reducible apply Kept.ite <;> intro _)
    | with_reducible refine KeptR.next ?_
    | with_reducible exact KeptR.fault
    | with_reducible apply Kept.step (State.wr_kept _ _ _ _)
    | with_reducible apply Kept.step (State.setFld_kept _ _ _ _ _)
    | with_reducible apply Kept.step (State.count_kept _ _ _ _ _ _)
    | with_reducible apply Kept.step (State.ptpCount_kept _ _ _)
    | with_reducible apply Kept.step (State.draw_kept _)
    | with_reducible apply Kept.step (State.latch_kept _ _)
    | (extract_lets +onlyGivenNames x; refine cutK (m := km_execPtpEventMessage) (s := s) (x := x) ?_ ?_; on_goal 1 => (try unfold x); on_goal 2 => (intro hx; clear_value x))
    | extract_lets +onlyGivenNames x
    | split
    | refine Kept.of_snd ‹_› ?_
    | dsimp +zetaDelta only [id_eq]
    | with_reducible apply Kept.set_clk)

def km_ntSet : Nat := pt.clk ||| km_rebaseNt ||| km_ptpUnlock

theorem State.ntSet_kept (s : State) (st : Nat) : Kept km_ntSet s (State.ntSet s st) := by
  unfold State.ntSet
  repeat' (first
    | with_reducible assumption
    | decide +kernel
    | with_reducible exact Kept.refl ..
    | with_reducible apply Kept.step (State.rebaseNt_kept _)
    | with_reducible apply Kept.step (State.ptpUnlock_kept _)
    | (extract_lets +onlyGivenNames x; refine cutK (m := km_ntSet) (s := s) (x := x) ?_ ?_; on_goal 1 => (try unfold x); on_goal 2 => (intro hx; clear_value x))
    | extract_lets +onlyGivenNames x
    | split
    | refine Kept.of_snd ‹_› ?_
    | with_reducible apply Kept.set_clk)

def km_ntAdj : Nat := pt.clk ||| km_stepNt ||| km_ptpUnlock

theorem State.ntAdj_kept (s : State) (ns : Int) : Kept km_ntAdj s (State.ntAdj s ns) := by
  unfold State.ntAdj
  repeat' (first
    | with_reducible assumption
    | decide +kernel
    | with_reducible exact Kept.refl ..
    | with_reducible apply Kept.step (State.stepNt_kept _ _)
    | with_reducible apply Kept.step (State.ptpUnlock_kept _)
    | (extract_lets +onlyGivenNames x; refine cutK (m := km_ntAdj) (s := s) (x := x) ?_ ?_; on_goal 1 => (try unfold x); on_goal 2 => (intro hx; clear_value x))
    | extract_lets +onlyGivenNames x
    | split
    | refine Kept.of_snd ‹_› ?_
    | with_reducible apply Kept.set_clk)

def km_servoWritten : Nat := km_setIncrement

theorem State.servoWritten_kept (s : State) : Kept km_servoWritten s (State.servoWritten s) := by
  unfold State.servoWritten
  repeat' (first
    | with_reducible assumption
    | decide +kernel
    | with_reducible exact Kept.refl ..
    | (with_reducible apply Kept.ite <;> intro _)
    | with_reducible apply Kept.step (State.setIncrement_kept _ _)
    | (extract_lets +onlyGivenNames x; refine cutK (m := km_servoWritten) (s := s) (x := x) ?_ ?_; on_goal 1 => (try unfold x); on_goal 2 => (intro hx; clear_value x))
    | extract_lets +onlyGivenNames x
    | split
    | refine Kept.of_snd ‹_› ?_)

def km_ptpCfgWritten : Nat := ob Obj.ptpStatus

theorem State.ptpCfgWritten_kept (s : State) : Kept km_ptpCfgWritten s (State.ptpCfgWritten s) := by
  unfold State.ptpCfgWritten
  repeat' (first
    | with_reducible assumption
    | decide +kernel
    | with_reducible exact Kept.refl ..
    | (with_reducible apply Kept.ite <;> intro _)
    | with_reducible apply Kept.step (State.setFld_kept _ _ _ _ _)
    | (extract_lets +onlyGivenNames x; refine cutK (m := km_ptpCfgWritten) (s := s) (x := x) ?_ ?_; on_goal 1 => (try unfold x); on_goal 2 => (intro hx; clear_value x))
    | extract_lets +onlyGivenNames x
    | split
    | refine Kept.of_snd ‹_› ?_)

end Sys2Proof.Machine
end

