-- ==== Sys2Proof/Laws/KeptPower.lean ====
section
/-! SUPPORT. For every operation of Machine/Power.lean the parts of the state that it may change. -/
set_option linter.unusedTactic false
set_option linter.unreachableTactic false
set_option linter.unusedVariables false
set_option linter.tactic.unusedName false
set_option Elab.async false
namespace Sys2Proof.Machine

def km_setLoop : Nat := pt.loops

theorem State.setLoop_kept (s : State) (n : Nat) (x : LoopRt) : Kept km_setLoop s (State.setLoop s n x) := by
  unfold State.setLoop
  repeat' (first
    | with_reducible assumption
    | decide +kernel
    | with_reducible exact Kept.refl ..
    | (extract_lets +onlyGivenNames x; refine cutK (m := km_setLoop) (s := s) (x := x) ?_ ?_; on_goal 1 => (try unfold x); on_goal 2 => (intro hx; clear_value x))
    | extract_lets +onlyGivenNames x
    | split
    | refine Kept.of_snd ‹_› ?_
    | dsimp +zetaDelta only [id_eq]
    | with_reducible apply Kept.set_loops)

def km_splCount : Nat := ob Obj.splCounts

theorem State.splCount_kept (s : State) (n : Nat) (i : Nat) : Kept km_splCount s (State.splCount s n i) := by
  unfold State.splCount
  repeat' (first
    | with_reducible assumption
    | decide +kernel
    | with_reducible exact Kept.refl ..
    | with_reducible apply Kept.step (State.count_kept _ _ _ _ _ _)
    | (extract_lets +onlyGivenNames x; refine cutK (m := km_splCount) (s := s) (x := x) ?_ ?_; on_goal 1 => (try unfold x); on_goal 2 => (intro hx; clear_value x))
    | extract_lets +onlyGivenNames x
    | split
    | refine Kept.of_snd ‹_› ?_)

def km_psmCount : Nat := ob Obj.psmCounts

theorem State.psmCount_kept (s : State) (i : Nat) : Kept km_psmCount s (State.psmCount s i) := by
  unfold State.psmCount
  repeat' (first
    | with_reducible assumption
    | decide +kernel
    | with_reducible exact Kept.refl ..
    | with_reducible apply Kept.step (State.count_kept _ _ _ _ _ _)
    | (extract_lets +onlyGivenNames x; refine cutK (m := km_psmCount) (s := s) (x := x) ?_ ?_; on_goal 1 => (try unfold x); on_goal 2 => (intro hx; clear_value x))
    | extract_lets +onlyGivenNames x
    | split
    | refine Kept.of_snd ‹_› ?_)

def km_setDomain : Nat := ob Obj.psmDomainState

theorem State.setDomain_kept (s : State) (pd : Nat) (v : Nat) : Kept km_setDomain s (State.setDomain s pd v) := by
  unfold State.setDomain
  repeat' (first
    | with_reducible assumption
    | decide +kernel
    | with_reducible exact Kept.refl ..
    | with_reducible apply Kept.step (State.setFld_kept _ _ _ _ _)
    | (extract_lets +onlyGivenNames x; refine cutK (m := km_setDomain) (s := s) (x := x) ?_ ?_; on_goal 1 => (try unfold x); on_goal 2 => (intro hx; clear_value x))
    | extract_lets +onlyGivenNames x
    | split
    | refine Kept.of_snd ‹_› ?_)

def km_trip : Nat := ob Obj.splMeas ||| ob Obj.splState ||| km_splCount ||| km_raiseAll

theorem State.trip_kept (s : State) (n : Nat) : Kept km_trip s (State.trip s n) := by
  unfold State.trip
  repeat' (first
    | with_reducible assumption
    | decide +kernel
    | with_reducible exact Kept.refl ..
    | (with_reducible apply Kept.ite <;> intro _)
    | with_reducible apply Kept.step (State.wr_kept _ _ _ _)
    | with_reducible apply Kept.step (State.setFld_kept _ _ _ _ _)
    | with_reducible apply Kept.step (State.splCount_kept _ _ _)
    | with_reducible apply Kept.step (State.raiseAll_kept _ _ _)
    | (extract_lets +onlyGivenNames x; refine cutK (m := km_trip) (s := s) (x := x) ?_ ?_; on_goal 1 => (try unfold x); on_goal 2 => (intro hx; clear_value x))
    | extract_lets +onlyGivenNames x
    | split
    | refine Kept.of_snd ‹_› ?_)

def km_loopOff : Nat := ob Obj.splMeas ||| ob Obj.splState

theorem State.loopOff_kept (s : State) (n : Nat) : Kept km_loopOff s (State.loopOff s n) := by
  unfold State.loopOff
  repeat' (first
    | with_reducible assumption
    | decide +kernel
    | with_reducible exact Kept.refl ..
    | with_reducible apply Kept.step (State.wr_kept _ _ _ _)
    | with_reducible apply Kept.step (State.setFld_kept _ _ _ _ _)
    | (extract_lets +onlyGivenNames x; refine cutK (m := km_loopOff) (s := s) (x := x) ?_ ?_; on_goal 1 => (try unfold x); on_goal 2 => (intro hx; clear_value x))
    | extract_lets +onlyGivenNames x
    | split
    | refine Kept.of_snd ‹_› ?_)

def km_compensate : Nat := ob Obj.splMeas ||| km_setLoop

theorem State.compensate_kept (s : State) (n : Nat) (t : Nat) (v : Int) : Kept km_compensate s (State.compensate s n t v) := by
  unfold State.compensate
  repeat' (first
    | with_reducible assumption
    | decide +kernel
    | with_reducible exact Kept.refl ..
    | (with_reducible apply Kept.ite <;> intro _)
    | with_reducible apply Kept.step (State.setFld_kept _ _ _ _ _)
    | with_reducible apply Kept.step (State.setLoop_kept _ _ _)
    | (extract_lets +onlyGivenNames x; refine cutK (m := km_compensate) (s := s) (x := x) ?_ ?_; on_goal 1 => (try unfold x); on_goal 2 => (intro hx; clear_value x))
    | extract_lets +onlyGivenNames x
    | split
    | refine Kept.of_snd ‹_› ?_
    | dsimp +zetaDelta only [id_eq])

def km_vsense : Nat := ob Obj.splMeas ||| km_compensate ||| km_loopOff

theorem State.vsense_kept (s : State) (n : Nat) (t : Nat) (v : Int) (fresh : Bool) : Kept km_vsense s (State.vsense s n t v fresh) := by
  unfold State.vsense
  repeat' (first
    | with_reducible assumption
    | decide +kernel
    | with_reducible exact Kept.refl ..
    | (with_reducible apply Kept.ite <;> intro _)
    | with_reducible apply Kept.step (State.setFld_kept _ _ _ _ _)
    | with_reducible apply Kept.step (State.compensate_kept _ _ _ _)
    | with_reducible apply Kept.step (State.loopOff_kept _ _)
    | (extract_lets +onlyGivenNames x; refine cutK (m := km_vsense) (s := s) (x := x) ?_ ?_; on_goal 1 => (try unfold x); on_goal 2 => (intro hx; clear_value x))
    | extract_lets +onlyGivenNames x
    | split
    | refine Kept.of_snd ‹_› ?_)

def km_isense : Nat := ob Obj.splMeas ||| km_setLoop

theorem State.isense_kept (s : State) (n : Nat) (v : Int) (fresh : Bool) : Kept km_isense s (State.isense s n v fresh) := by
  unfold State.isense
  repeat' (first
    | with_reducible assumption
    | decide +kernel
    | with_reducible exact Kept.refl ..
    | (with_reducible apply Kept.ite <;> intro _)
    | with_reducible apply Kept.step (State.setFld_kept _ _ _ _ _)
    | with_reducible apply Kept.step (State.setLoop_kept _ _ _)
    | (extract_lets +onlyGivenNames x; refine cutK (m := km_isense) (s := s) (x := x) ?_ ?_; on_goal 1 => (try unfold x); on_goal 2 => (intro hx; clear_value x))
    | extract_lets +onlyGivenNames x
    | split
    | refine Kept.of_snd ‹_› ?_)

def km_enableLoop : Nat := ob Obj.splEnable ||| ob Obj.splMeas ||| ob Obj.splState ||| km_loopOff ||| km_setLoop

theorem State.enableLoop_kept (s : State) (n : Nat) (v : Nat) : Kept km_enableLoop s (State.enableLoop s n v) := by
  unfold State.enableLoop
  repeat' (first
    | with_reducible assumption
    | decide +kernel
    | with_reducible exact Kept.refl ..
    | (with_reducible apply Kept.ite <;> intro _)
    | with_reducible apply Kept.step (State.wr_kept _ _ _ _)
    | with_reducible apply Kept.step (State.setFld_kept _ _ _ _ _)
    | with_reducible apply Kept.step (State.loopOff_kept _ _)
    | with_reducible apply Kept.step (State.setLoop_kept _ _ _)
    | (extract_lets +onlyGivenNames x; refine cutK (m := km_enableLoop) (s := s) (x := x) ?_ ?_; on_goal 1 => (try unfold x); on_goal 2 => (intro hx; clear_value x))
    | extract_lets +onlyGivenNames x
    | split
    | refine Kept.of_snd ‹_› ?_)

def km_execSoftstartEnd : Nat := ob Obj.splMeas ||| ob Obj.splState ||| km_reach

theorem execSoftstartEnd_kept (loop : Nat) (s : State) : KeptR km_execSoftstartEnd s (execSoftstartEnd loop s) := by
  unfold execSoftstartEnd
  repeat' (first
    | with_reducible assumption
    | decide +kernel
    | with_reducible exact Kept.refl ..
    | (with_reducible apply KeptR.ite <;> intro _)
    | (with_reducible apply Kept.ite <;> intro _)
    | with_reducible refine KeptR.next ?_
    | with_reducible exact KeptR.fault
    | with_reducible apply Kept.step (State.wr_kept _ _ _ _)
    | with_reducible apply Kept.step (State.setFld_kept _ _ _ _ _)
    | with_reducible apply Kept.step (State.reach_kept _ _)
    | (extract_lets +onlyGivenNames x; refine cutK (m := km_execSoftstartEnd) (s := s) (x := x) ?_ ?_; on_goal 1 => (try unfold x); on_goal 2 => (intro hx; clear_value x))
    | extract_lets +onlyGivenNames x
    | split
    | refine Kept.of_snd ‹_› ?_)

def km_rampLoop : Nat := ob Obj.splState ||| km_setLoop

theorem State.rampLoop_kept (s : State) (n : Nat) : Kept km_rampLoop s (State.rampLoop s n) := by
  unfold State.rampLoop
  repeat' (first
    | with_reducible assumption
    | decide +kernel
    | with_reducible exact Kept.refl ..
    | (with_reducible apply Kept.ite <;> intro _)
    | with_reducible apply Kept.step (State.wr_kept _ _ _ _)
    | with_reducible apply Kept.step (State.setLoop_kept _ _ _)
    | (extract_lets +onlyGivenNames x; refine cutK (m := km_rampLoop) (s := s) (x := x) ?_ ?_; on_goal 1 => (try unfold x); on_goal 2 => (intro hx; clear_value x))
    | extract_lets +onlyGivenNames x
    | split
    | refine Kept.of_snd ‹_› ?_)

def km_startStage : Nat := pt.psm ||| km_rampLoop

theorem State.startStage_kept (k st : Nat) (s : State) : Kept km_startStage s (State.startStage k st s) := by
  induction k generalizing st s with
  | zero =>
    unfold State.startStage
    repeat' (first
      | with_reducible assumption
      | decide +kernel
      | with_reducible exact Kept.refl ..
      | with_reducible apply Kept.step (ih _ _)
      | (with_reducible apply Kept.ite <;> intro _)
      | with_reducible apply Kept.step (State.rampLoop_kept _ _)
      | with_reducible apply Kept.foldl
      | with_reducible refine fun (x : State) a hx => ?_
      | (extract_lets +onlyGivenNames x; refine cutK (m := km_startStage) (s := s) (x := x) ?_ ?_; on_goal 1 => (try unfold x); on_goal 2 => (intro hx; clear_value x))
      | extract_lets +onlyGivenNames x
      | split
      | refine Kept.of_snd ‹_› ?_
      | with_reducible apply Kept.set_psm)
  | succ k ih =>
    unfold State.startStage
    repeat' (first
      | with_reducible assumption
      | decide +kernel
      | with_reducible exact Kept.refl ..
      | with_reducible apply Kept.step (ih _ _)
      | (with_reducible apply Kept.ite <;> intro _)
      | with_reducible apply Kept.step (State.rampLoop_kept _ _)
      | with_reducible apply Kept.foldl
      | with_reducible refine fun (x : State) a hx => ?_
      | (extract_lets +onlyGivenNames x; refine cutK (m := km_startStage) (s := s) (x := x) ?_ ?_; on_goal 1 => (try unfold x); on_goal 2 => (intro hx; clear_value x))
      | extract_lets +onlyGivenNames x
      | split
      | refine Kept.of_snd ‹_› ?_
      | with_reducible apply Kept.set_psm)

def km_rampDown : Nat := km_startStage

theorem State.rampDown_kept (s : State) : Kept km_rampDown s (State.rampDown s) :=
  Kept.ite (fun _ => Kept.refl ..) (fun _ => State.startStage_kept _ _ _)

def km_supply : Nat := km_splCount ||| km_setLoop ||| km_latch ||| pt.objs

theorem State.supply_kept (s : State) (x : SupplyEntry) : Kept km_supply s (State.supply s x) := by
  unfold State.supply
  repeat' (first
    | with_reducible assumption
    | decide +kernel
    | (with_reducible apply ob_objs; decide +kernel)
    | with_reducible exact Kept.refl ..
    | (with_reducible apply Kept.ite <;> intro _)
    | with_reducible apply Kept.step (State.wr_kept _ _ _ _)
    | with_reducible apply Kept.step (State.splCount_kept _ _ _)
    | with_reducible apply Kept.step (State.setLoop_kept _ _ _)
    | with_reducible apply Kept.step (State.latch_kept _ _)
    | (extract_lets +onlyGivenNames x; refine cutK (m := km_supply) (s := s) (x := x) ?_ ?_; on_goal 1 => (try unfold x); on_goal 2 => (intro hx; clear_value x))
    | extract_lets +onlyGivenNames x
    | split
    | refine Kept.of_snd ‹_› ?_)

def km_execSupplyApply : Nat := pt.psm ||| km_supply ||| km_reach

theorem execSupplyApply_kept (s : State) : KeptR km_execSupplyApply s (execSupplyApply s) := by
  unfold execSupplyApply
  repeat' (first
    | with_reducible assumption
    | decide +kernel
    | with_reducible exact Kept.refl ..
    | (with_reducible apply KeptR.ite <;> intro _)
    | (with_reducible apply Kept.ite <;> intro _)
    | with_reducible refine KeptR.next ?_
    | with_reducible exact KeptR.fault
    | with_reducible apply Kept.step (State.supply_kept _ _)
    | with_reducible apply Kept.step (State.reach_kept _ _)
    | with_reducible apply Kept.foldl
    | with_reducible refine fun (x : State) a hx => ?_
    | (extract_lets +onlyGivenNames x; refine cutK (m := km_execSupplyApply) (s := s) (x := x) ?_ ?_; on_goal 1 => (try unfold x); on_goal 2 => (intro hx; clear_value x))
    | extract_lets +onlyGivenNames x
    | split
    | refine Kept.of_snd ‹_› ?_
    | dsimp +zetaDelta only [id_eq]
    | with_reducible apply Kept.set_psm)

def km_hostSupply : Nat := pt.objs

theorem State.hostSupply_kept (s : State) (o : Nat) (n : Nat) (v : Nat) : Kept km_hostSupply s (State.hostSupply s o n v) := by
  unfold State.hostSupply
  repeat' (first
    | with_reducible assumption
    | decide +kernel
    | (with_reducible apply ob_objs; decide +kernel)
    | with_reducible exact Kept.refl ..
    | (with_reducible apply Kept.ite <;> intro _)
    | with_reducible apply Kept.step (State.wr_kept _ _ _ _)
    | (extract_lets +onlyGivenNames x; refine cutK (m := km_hostSupply) (s := s) (x := x) ?_ ?_; on_goal 1 => (try unfold x); on_goal 2 => (intro hx; clear_value x))
    | extract_lets +onlyGivenNames x
    | split
    | refine Kept.of_snd ‹_› ?_)

def km_windowTrip : Nat := km_latch ||| km_reach ||| km_trip

theorem State.windowTrip_kept (s : State) (ain : Nat) : Kept km_windowTrip s (State.windowTrip s ain) := by
  unfold State.windowTrip
  repeat' (first
    | with_reducible assumption
    | decide +kernel
    | with_reducible exact Kept.refl ..
    | with_reducible apply Kept.step (State.latch_kept _ _)
    | with_reducible apply Kept.step (State.reach_kept _ _)
    | with_reducible apply Kept.step (State.trip_kept _ _)
    | (extract_lets +onlyGivenNames x; refine cutK (m := km_windowTrip) (s := s) (x := x) ?_ ?_; on_goal 1 => (try unfold x); on_goal 2 => (intro hx; clear_value x))
    | extract_lets +onlyGivenNames x
    | split
    | refine Kept.of_snd ‹_› ?_)

def km_window : Nat := ob Obj.adcCounts ||| ob Obj.adcValue ||| pt.adc ||| km_windowTrip

theorem State.window_kept (s : State) (ain : Nat) (bad : Bool) : Kept km_window s (State.window s ain bad) := by
  unfold State.window
  repeat' (first
    | with_reducible assumption
    | decide +kernel
    | with_reducible exact Kept.refl ..
    | (with_reducible apply Kept.ite <;> intro _)
    | with_reducible apply Kept.step (State.setFld_kept _ _ _ _ _)
    | with_reducible apply Kept.step (State.count_kept _ _ _ _ _ _)
    | with_reducible apply Kept.step (State.windowTrip_kept _ _)
    | (extract_lets +onlyGivenNames x; refine cutK (m := km_window) (s := s) (x := x) ?_ ?_; on_goal 1 => (try unfold x); on_goal 2 => (intro hx; clear_value x))
    | extract_lets +onlyGivenNames x
    | split
    | refine Kept.of_snd ‹_› ?_
    | dsimp +zetaDelta only [id_eq]
    | with_reducible apply Kept.set_adc)

def km_bulkSample : Nat := ob Obj.psmLineStatus ||| pt.psm

theorem State.bulkSample_kept (s : State) (v : Int) : Kept km_bulkSample s (State.bulkSample s v) := by
  unfold State.bulkSample
  repeat' (first
    | with_reducible assumption
    | decide +kernel
    | with_reducible exact Kept.refl ..
    | (with_reducible apply Kept.ite <;> intro _)
    | with_reducible apply Kept.step (State.setFld_kept _ _ _ _ _)
    | (extract_lets +onlyGivenNames x; refine cutK (m := km_bulkSample) (s := s) (x := x) ?_ ?_; on_goal 1 => (try unfold x); on_goal 2 => (intro hx; clear_value x))
    | extract_lets +onlyGivenNames x
    | split
    | refine Kept.of_snd ‹_› ?_
    | dsimp +zetaDelta only [id_eq]
    | with_reducible apply Kept.set_psm)

def km_adcStart : Nat := pt.adc

theorem State.adcStart_kept (s : State) : Kept km_adcStart s (State.adcStart s) := by
  unfold State.adcStart
  repeat' (first
    | with_reducible assumption
    | decide +kernel
    | with_reducible exact Kept.refl ..
    | extract_lets +onlyGivenNames x
    | with_reducible apply Kept.set_adc)

def km_execConversion : Nat := ob Obj.adcCounts ||| ob Obj.adcValue ||| pt.adc ||| km_reach ||| km_isense ||| km_vsense ||| km_bulkSample ||| km_window

theorem execConversion_kept (conv : Nat) (code : Int) (ovr : Bool) (s : State) : KeptR km_execConversion s (execConversion conv code ovr s) := by
  unfold execConversion
  repeat' (first
    | with_reducible assumption
    | decide +kernel
    | with_reducible exact Kept.refl ..
    | (with_reducible apply KeptR.ite <;> intro _)
    | (with_reducible apply Kept.ite <;> intro _)
    | with_reducible refine KeptR.next ?_
    | with_reducible exact KeptR.fault
    | with_reducible apply Kept.step (State.wr_kept _ _ _ _)
    | with_reducible apply Kept.step (State.count_kept _ _ _ _ _ _)
    | with_reducible apply Kept.step (State.reach_kept _ _)
    | with_reducible apply Kept.step (State.isense_kept _ _ _ _)
    | with_reducible apply Kept.step (State.vsense_kept _ _ _ _ _)
    | with_reducible apply Kept.step (State.bulkSample_kept _ _)
    | with_reducible apply Kept.step (State.window_kept _ _ _)
    | with_reducible apply Kept.foldl
    | with_reducible refine fun (x : State) a hx => ?_
    | (extract_lets +onlyGivenNames x; refine cutK (m := km_execConversion) (s := s) (x := x) ?_ ?_; on_goal 1 => (try unfold x); on_goal 2 => (intro hx; clear_value x))
    | extract_lets +onlyGivenNames x
    | split
    | refine Kept.of_snd ‹_› ?_
    | dsimp +zetaDelta only [id_eq]
    | with_reducible apply Kept.set_adc)

def km_owTest : Nat := ob Obj.adcOwResult ||| pt.adc

theorem State.owTest_kept (s : State) (ain : Nat) : Kept km_owTest s (State.owTest s ain) := by
  unfold State.owTest
  repeat' (first
    | with_reducible assumption
    | decide +kernel
    | with_reducible exact Kept.refl ..
    | with_reducible apply Kept.step (State.setFld_kept _ _ _ _ _)
    | (extract_lets +onlyGivenNames x; refine cutK (m := km_owTest) (s := s) (x := x) ?_ ?_; on_goal 1 => (try unfold x); on_goal 2 => (intro hx; clear_value x))
    | extract_lets +onlyGivenNames x
    | split
    | refine Kept.of_snd ‹_› ?_
    | dsimp +zetaDelta only [id_eq]
    | with_reducible apply Kept.set_adc)

def km_execOwTestDone : Nat := ob Obj.adcOwResult ||| ob Obj.adcValue ||| pt.adc ||| km_reach

theorem execOwTestDone_kept (input : Nat) (vUp : Int) (vDown : Int) (s : State) : KeptR km_execOwTestDone s (execOwTestDone input vUp vDown s) := by
  unfold execOwTestDone
  repeat' (first
    | with_reducible assumption
    | decide +kernel
    | with_reducible exact Kept.refl ..
    | (with_reducible apply KeptR.ite <;> intro _)
    | (with_reducible apply Kept.ite <;> intro _)
    | with_reducible refine KeptR.next ?_
    | with_reducible exact KeptR.fault
    | with_reducible apply Kept.step (State.setFld_kept _ _ _ _ _)
    | with_reducible apply Kept.step (State.reach_kept _ _)
    | (extract_lets +onlyGivenNames x; refine cutK (m := km_execOwTestDone) (s := s) (x := x) ?_ ?_; on_goal 1 => (try unfold x); on_goal 2 => (intro hx; clear_value x))
    | extract_lets +onlyGivenNames x
    | split
    | refine Kept.of_snd ‹_› ?_
    | dsimp +zetaDelta only [id_eq]
    | with_reducible apply Kept.set_adc)

def km_syscal : Nat := ob Obj.adcSyscal ||| ob Obj.adcSyscalStatus ||| pt.adc

theorem State.syscal_kept (s : State) (ain : Nat) (v : Nat) : Kept km_syscal s (State.syscal s ain v) := by
  unfold State.syscal
  repeat' (first
    | with_reducible assumption
    | decide +kernel
    | with_reducible exact Kept.refl ..
    | (with_reducible apply Kept.ite <;> intro _)
    | with_reducible apply Kept.step (State.wr_kept _ _ _ _)
    | (extract_lets +onlyGivenNames x; refine cutK (m := km_syscal) (s := s) (x := x) ?_ ?_; on_goal 1 => (try unfold x); on_goal 2 => (intro hx; clear_value x))
    | extract_lets +onlyGivenNames x
    | split
    | refine Kept.of_snd ‹_› ?_
    | dsimp +zetaDelta only [id_eq]
    | with_reducible apply Kept.set_adc)

def km_syscalFail : Nat := ob Obj.adcSyscalStatus ||| km_draw

theorem State.syscalFail_kept (s : State) (ain : Nat) : Kept km_syscalFail s (State.syscalFail s ain) := by
  unfold State.syscalFail
  repeat' (first
    | with_reducible assumption
    | decide +kernel
    | with_reducible exact Kept.refl ..
    | with_reducible apply Kept.step (State.wr_kept _ _ _ _)
    | with_reducible apply Kept.step (State.draw_kept _)
    | (extract_lets +onlyGivenNames x; refine cutK (m := km_syscalFail) (s := s) (x := x) ?_ ?_; on_goal 1 => (try unfold x); on_goal 2 => (intro hx; clear_value x))
    | extract_lets +onlyGivenNames x
    | split
    | refine Kept.of_snd ‹_› ?_)

def km_execSyscalDone : Nat := ob Obj.adcCal ||| ob Obj.adcSyscalStatus ||| pt.adc ||| km_syscalFail

theorem execSyscalDone_kept (input : Nat) (codeSum : Int) (ovr : Bool) (s : State) : KeptR km_execSyscalDone s (execSyscalDone input codeSum ovr s) := by
  unfold execSyscalDone
  repeat' (first
    | with_reducible assumption
    | decide +kernel
    | with_reducible exact Kept.refl ..
    | (with_reducible apply KeptR.ite <;> intro _)
    | (with_reducible apply Kept.ite <;> intro _)
    | with_reducible refine KeptR.next ?_
    | with_reducible exact KeptR.fault
    | with_reducible apply Kept.step (State.wr_kept _ _ _ _)
    | with_reducible apply Kept.step (State.setFld_kept _ _ _ _ _)
    | with_reducible apply Kept.step (State.syscalFail_kept _ _)
    | (extract_lets +onlyGivenNames x; refine cutK (m := km_execSyscalDone) (s := s) (x := x) ?_ ?_; on_goal 1 => (try unfold x); on_goal 2 => (intro hx; clear_value x))
    | extract_lets +onlyGivenNames x
    | split
    | refine Kept.of_snd ‹_› ?_
    | dsimp +zetaDelta only [id_eq]
    | with_reducible apply Kept.set_adc)

def km_pollRail : Nat := ob Obj.psmRailStatus ||| pt.psm ||| km_psmCount ||| km_raiseAll

theorem State.pollRail_kept (s : State) (r : Nat) (x : Nat × Nat × Nat × Int) : Kept km_pollRail s (State.pollRail s r x) := by
  unfold State.pollRail
  repeat' (first
    | with_reducible assumption
    | decide +kernel
    | with_reducible exact Kept.refl ..
    | (with_reducible apply Kept.ite <;> intro _)
    | with_reducible apply Kept.step (State.setFld_kept _ _ _ _ _)
    | with_reducible apply Kept.step (State.psmCount_kept _ _)
    | with_reducible apply Kept.step (State.raiseAll_kept _ _ _)
    | (extract_lets +onlyGivenNames x; refine cutK (m := km_pollRail) (s := s) (x := x) ?_ ?_; on_goal 1 => (try unfold x); on_goal 2 => (intro hx; clear_value x))
    | extract_lets +onlyGivenNames x
    | split
    | refine Kept.of_snd ‹_› ?_
    | with_reducible apply Kept.set_psm)

def km_execPmbusPoll : Nat := km_pollRail

theorem execPmbusPoll_kept (readings : Rails) (s : State) : KeptR km_execPmbusPoll s (execPmbusPoll readings s) := by
  unfold execPmbusPoll
  repeat' (first
    | with_reducible assumption
    | decide +kernel
    | with_reducible exact Kept.refl ..
    | (with_reducible apply KeptR.ite <;> intro _)
    | (with_reducible apply Kept.ite <;> intro _)
    | with_reducible refine KeptR.next ?_
    | with_reducible exact KeptR.fault
    | with_reducible apply Kept.step (State.pollRail_kept _ _ _)
    | with_reducible apply Kept.foldl
    | with_reducible refine fun (x : State) a hx => ?_
    | (extract_lets +onlyGivenNames x; refine cutK (m := km_execPmbusPoll) (s := s) (x := x) ?_ ?_; on_goal 1 => (try unfold x); on_goal 2 => (intro hx; clear_value x))
    | extract_lets +onlyGivenNames x
    | split
    | refine Kept.of_snd ‹_› ?_
    | dsimp +zetaDelta only [id_eq])

def km_execPmbAlert : Nat := ob Obj.psmRailStatus ||| pt.psm ||| km_psmCount ||| km_raiseAll

theorem execPmbAlert_kept (words : Nats) (s : State) : KeptR km_execPmbAlert s (execPmbAlert words s) := by
  unfold execPmbAlert
  repeat' (first
    | with_reducible assumption
    | decide +kernel
    | with_reducible exact Kept.refl ..
    | (with_reducible apply KeptR.ite <;> intro _)
    | (with_reducible apply Kept.ite <;> intro _)
    | with_reducible refine KeptR.next ?_
    | with_reducible exact KeptR.fault
    | with_reducible apply Kept.step (State.setFld_kept _ _ _ _ _)
    | with_reducible apply Kept.step (State.psmCount_kept _ _)
    | with_reducible apply Kept.step (State.raiseAll_kept _ _ _)
    | with_reducible apply Kept.foldl
    | with_reducible refine fun (x : State) a hx => ?_
    | (extract_lets +onlyGivenNames x; refine cutK (m := km_execPmbAlert) (s := s) (x := x) ?_ ?_; on_goal 1 => (try unfold x); on_goal 2 => (intro hx; clear_value x))
    | extract_lets +onlyGivenNames x
    | split
    | refine Kept.of_snd ‹_› ?_
    | dsimp +zetaDelta only [id_eq]
    | with_reducible apply Kept.set_psm)

def km_execJunctionReading : Nat := pt.psm ||| km_latch ||| km_raiseAll

theorem execJunctionReading_kept (readings : Ints) (s : State) : KeptR km_execJunctionReading s (execJunctionReading readings s) := by
  unfold execJunctionReading
  repeat' (first
    | with_reducible assumption
    | decide +kernel
    | with_reducible exact Kept.refl ..
    | (with_reducible apply KeptR.ite <;> intro _)
    | (with_reducible apply Kept.ite <;> intro _)
    | with_reducible refine KeptR.next ?_
    | with_reducible exact KeptR.fault
    | with_reducible apply Kept.step (State.latch_kept _ _)
    | with_reducible apply Kept.step (State.raiseAll_kept _ _ _)
    | with_reducible apply Kept.foldl
    | with_reducible refine fun (x : State) a hx => ?_
    | (extract_lets +onlyGivenNames x; refine cutK (m := km_execJunctionReading) (s := s) (x := x) ?_ ?_; on_goal 1 => (try unfold x); on_goal 2 => (intro hx; clear_value x))
    | extract_lets +onlyGivenNames x
    | split
    | refine Kept.of_snd ‹_› ?_
    | dsimp +zetaDelta only [id_eq]
    | with_reducible apply Kept.set_psm)

end Sys2Proof.Machine
end

