-- ==== Sys2Proof/Laws/KeptMemory.lean ====
section
/-! SUPPORT. For every operation of Machine/Memory.lean the parts of the state that it may change. -/
set_option linter.unusedTactic false
set_option linter.unreachableTactic false
set_option linter.unusedVariables false
set_option linter.tactic.unusedName false
set_option Elab.async false
namespace Sys2Proof.Machine

def km_setStack : Nat := ob Obj.hmsState

theorem State.setStack_kept (s : State) (k : Nat) (v : Nat) : Kept km_setStack s (State.setStack s k v) := by
  unfold State.setStack
  repeat' (first
    | with_reducible assumption
    | decide +kernel
    | with_reducible exact Kept.refl ..
    | with_reducible apply Kept.step (State.setFld_kept _ _ _ _ _)
    | (extract_lets +onlyGivenNames x; refine cutK (m := km_setStack) (s := s) (x := x) ?_ ?_; on_goal 1 => (try unfold x); on_goal 2 => (intro hx; clear_value x))
    | extract_lets +onlyGivenNames x
    | split
    | refine Kept.of_snd ‹_› ?_)

def km_hmsCount : Nat := ob Obj.hmsCounts

theorem State.hmsCount_kept (s : State) (i : Nat) (n : Nat) : Kept km_hmsCount s (State.hmsCount s i n) := by
  unfold State.hmsCount
  repeat' (first
    | with_reducible assumption
    | decide +kernel
    | with_reducible exact Kept.refl ..
    | with_reducible apply Kept.step (State.count_kept _ _ _ _ _ _)
    | (extract_lets +onlyGivenNames x; refine cutK (m := km_hmsCount) (s := s) (x := x) ?_ ?_; on_goal 1 => (try unfold x); on_goal 2 => (intro hx; clear_value x))
    | extract_lets +onlyGivenNames x
    | split
    | refine Kept.of_snd ‹_› ?_)

def km_burst : Nat := km_hmsCount ||| km_raise

theorem State.burst_kept (s : State) (stack : Nat) (bits : Nat) (master : Nat) (access : Nat) (addr : Nat) : Kept km_burst s (State.burst s stack bits master access addr) := by
  unfold State.burst
  repeat' (first
    | with_reducible assumption
    | decide +kernel
    | with_reducible exact Kept.refl ..
    | (with_reducible apply Kept.ite <;> intro _)
    | with_reducible apply Kept.step (State.hmsCount_kept _ _ _)
    | with_reducible apply Kept.step (State.raise_kept _ _ _ _ _ _ _ _)
    | (extract_lets +onlyGivenNames x; refine cutK (m := km_burst) (s := s) (x := x) ?_ ?_; on_goal 1 => (try unfold x); on_goal 2 => (intro hx; clear_value x))
    | extract_lets +onlyGivenNames x
    | split
    | refine Kept.of_snd ‹_› ?_
    | dsimp +zetaDelta only [id_eq])

def km_activate : Nat := pt.hms ||| km_draw

theorem State.activate_kept (s : State) (bank : Nat) (row : Nat) : Kept km_activate s (State.activate s bank row) := by
  unfold State.activate
  repeat' (first
    | with_reducible assumption
    | decide +kernel
    | with_reducible exact Kept.refl ..
    | (with_reducible apply Kept.ite <;> intro _)
    | with_reducible apply Kept.step (State.draw_kept _)
    | (extract_lets +onlyGivenNames x; refine cutK (m := km_activate) (s := s) (x := x) ?_ ?_; on_goal 1 => (try unfold x); on_goal 2 => (intro hx; clear_value x))
    | extract_lets +onlyGivenNames x
    | split
    | refine Kept.of_snd ‹_› ?_
    | dsimp +zetaDelta only [id_eq]
    | with_reducible apply Kept.set_hms)

def km_wake : Nat := ob Obj.hmsSrLate ||| km_draw ||| km_setStack

theorem State.wake_kept (s : State) (k : Nat) (delay : Nat) : Kept km_wake s (State.wake s k delay) := by
  unfold State.wake
  repeat' (first
    | with_reducible assumption
    | decide +kernel
    | with_reducible exact Kept.refl ..
    | (with_reducible apply Kept.ite <;> intro _)
    | with_reducible apply Kept.step (State.setFld_kept _ _ _ _ _)
    | with_reducible apply Kept.step (State.count_kept _ _ _ _ _ _)
    | with_reducible apply Kept.step (State.draw_kept _)
    | with_reducible apply Kept.step (State.setStack_kept _ _ _)
    | (extract_lets +onlyGivenNames x; refine cutK (m := km_wake) (s := s) (x := x) ?_ ?_; on_goal 1 => (try unfold x); on_goal 2 => (intro hx; clear_value x))
    | extract_lets +onlyGivenNames x
    | split
    | refine Kept.of_snd ‹_› ?_)

def km_loadStats : Nat := ob Obj.hmsLoad ||| pt.hms ||| km_window

theorem State.loadStats_kept (s : State) (rt : Bool) (write : Bool) (bytes : Nat) (latency : Nat) : Kept km_loadStats s (State.loadStats s rt write bytes latency) := by
  unfold State.loadStats
  repeat' (first
    | with_reducible assumption
    | decide +kernel
    | with_reducible exact Kept.refl ..
    | (with_reducible apply Kept.ite <;> intro _)
    | with_reducible apply Kept.step (State.setFld_kept _ _ _ _ _)
    | with_reducible apply Kept.step (State.window_kept _ _ _)
    | (extract_lets +onlyGivenNames x; refine cutK (m := km_loadStats) (s := s) (x := x) ?_ ?_; on_goal 1 => (try unfold x); on_goal 2 => (intro hx; clear_value x))
    | extract_lets +onlyGivenNames x
    | split
    | refine Kept.of_snd ‹_› ?_
    | with_reducible apply Kept.set_hms)

def km_execRefreshInterval : Nat := ob Obj.hmsState ||| pt.hms ||| km_reach ||| km_draw ||| km_hmsCount ||| km_latch

theorem execRefreshInterval_kept (pc : Nat) (temp : Int) (s : State) : KeptR km_execRefreshInterval s (execRefreshInterval pc temp s) := by
  unfold execRefreshInterval
  repeat' (first
    | with_reducible assumption
    | decide +kernel
    | with_reducible exact Kept.refl ..
    | (with_reducible apply KeptR.ite <;> intro _)
    | (with_reducible apply Kept.ite <;> intro _)
    | with_reducible refine KeptR.next ?_
    | with_reducible exact KeptR.fault
    | with_reducible apply Kept.step (State.setFld_kept _ _ _ _ _)
    | with_reducible apply Kept.step (State.reach_kept _ _)
    | with_reducible apply Kept.step (State.draw_kept _)
    | with_reducible apply Kept.step (State.hmsCount_kept _ _ _)
    | with_reducible apply Kept.step (State.latch_kept _ _)
    | (extract_lets +onlyGivenNames x; refine cutK (m := km_execRefreshInterval) (s := s) (x := x) ?_ ?_; on_goal 1 => (try unfold x); on_goal 2 => (intro hx; clear_value x))
    | extract_lets +onlyGivenNames x
    | split
    | refine Kept.of_snd ‹_› ?_
    | dsimp +zetaDelta only [id_eq]
    | with_reducible apply Kept.set_hms)

def km_execForcedRefresh : Nat := pt.hms ||| km_hmsCount

theorem execForcedRefresh_kept (pc : Nat) (s : State) : KeptR km_execForcedRefresh s (execForcedRefresh pc s) := by
  unfold execForcedRefresh
  repeat' (first
    | with_reducible assumption
    | decide +kernel
    | with_reducible exact Kept.refl ..
    | (with_reducible apply KeptR.ite <;> intro _)
    | (with_reducible apply Kept.ite <;> intro _)
    | with_reducible refine KeptR.next ?_
    | with_reducible exact KeptR.fault
    | with_reducible apply Kept.step (State.hmsCount_kept _ _ _)
    | (extract_lets +onlyGivenNames x; refine cutK (m := km_execForcedRefresh) (s := s) (x := x) ?_ ?_; on_goal 1 => (try unfold x); on_goal 2 => (intro hx; clear_value x))
    | extract_lets +onlyGivenNames x
    | split
    | refine Kept.of_snd ‹_› ?_
    | dsimp +zetaDelta only [id_eq]
    | with_reducible apply Kept.set_hms)

def km_execNeighbourRefresh : Nat := pt.hms ||| km_reach ||| km_hmsCount

theorem execNeighbourRefresh_kept (pc : Nat) (bank : Nat) (s : State) : KeptR km_execNeighbourRefresh s (execNeighbourRefresh pc bank s) := by
  unfold execNeighbourRefresh
  repeat' (first
    | with_reducible assumption
    | decide +kernel
    | with_reducible exact Kept.refl ..
    | (with_reducible apply KeptR.ite <;> intro _)
    | (with_reducible apply Kept.ite <;> intro _)
    | with_reducible refine KeptR.next ?_
    | with_reducible exact KeptR.fault
    | with_reducible apply Kept.step (State.reach_kept _ _)
    | with_reducible apply Kept.step (State.hmsCount_kept _ _ _)
    | (extract_lets +onlyGivenNames x; refine cutK (m := km_execNeighbourRefresh) (s := s) (x := x) ?_ ?_; on_goal 1 => (try unfold x); on_goal 2 => (intro hx; clear_value x))
    | extract_lets +onlyGivenNames x
    | split
    | refine Kept.of_snd ‹_› ?_
    | dsimp +zetaDelta only [id_eq]
    | with_reducible apply Kept.set_hms)

def km_selfRefresh : Nat := km_setStack ||| km_hmsCount

theorem State.selfRefresh_kept (s : State) (k : Nat) : Kept km_selfRefresh s (State.selfRefresh s k) := by
  unfold State.selfRefresh
  repeat' (first
    | with_reducible assumption
    | decide +kernel
    | with_reducible exact Kept.refl ..
    | (with_reducible apply Kept.ite <;> intro _)
    | with_reducible apply Kept.step (State.setStack_kept _ _ _)
    | with_reducible apply Kept.step (State.hmsCount_kept _ _ _)
    | (extract_lets +onlyGivenNames x; refine cutK (m := km_selfRefresh) (s := s) (x := x) ?_ ?_; on_goal 1 => (try unfold x); on_goal 2 => (intro hx; clear_value x))
    | extract_lets +onlyGivenNames x
    | split
    | refine Kept.of_snd ‹_› ?_)

def km_execSelfRefreshEntry : Nat := km_reach ||| km_selfRefresh

theorem execSelfRefreshEntry_kept (stack : Nat) (s : State) : KeptR km_execSelfRefreshEntry s (execSelfRefreshEntry stack s) := by
  unfold execSelfRefreshEntry
  repeat' (first
    | with_reducible assumption
    | decide +kernel
    | with_reducible exact Kept.refl ..
    | (with_reducible apply KeptR.ite <;> intro _)
    | (with_reducible apply Kept.ite <;> intro _)
    | with_reducible refine KeptR.next ?_
    | with_reducible exact KeptR.fault
    | with_reducible apply Kept.step (State.reach_kept _ _)
    | with_reducible apply Kept.step (State.selfRefresh_kept _ _)
    | (extract_lets +onlyGivenNames x; refine cutK (m := km_execSelfRefreshEntry) (s := s) (x := x) ?_ ?_; on_goal 1 => (try unfold x); on_goal 2 => (intro hx; clear_value x))
    | extract_lets +onlyGivenNames x
    | split
    | refine Kept.of_snd ‹_› ?_
    | dsimp +zetaDelta only [id_eq])

def km_execScrub : Nat := km_checked ||| km_burst

theorem execScrub_kept (addr : Nat) (errorBits : Nat) (s : State) : KeptR km_execScrub s (execScrub addr errorBits s) := by
  unfold execScrub
  repeat' (first
    | with_reducible assumption
    | decide +kernel
    | with_reducible exact Kept.refl ..
    | (with_reducible apply KeptR.ite <;> intro _)
    | (with_reducible apply Kept.ite <;> intro _)
    | with_reducible refine KeptR.next ?_
    | with_reducible exact KeptR.fault
    | with_reducible apply Kept.step (State.checked_kept _ _ _)
    | with_reducible apply Kept.step (State.burst_kept _ _ _ _ _ _)
    | (extract_lets +onlyGivenNames x; refine cutK (m := km_execScrub) (s := s) (x := x) ?_ ?_; on_goal 1 => (try unfold x); on_goal 2 => (intro hx; clear_value x))
    | (extract_lets +onlyGivenNames x; refine cutK (m := km_execScrub) (s := s) (x := x.2) ?_ ?_; on_goal 1 => (try unfold x); on_goal 2 => (intro hx; clear_value x))
    | extract_lets +onlyGivenNames x
    | split
    | refine Kept.of_snd ‹_› ?_)

end Sys2Proof.Machine
end

