-- ==== Sys2Proof/Laws/KeptCharts.lean ====
section
/-! SUPPORT. For every operation of Machine/Charts.lean the parts of the state that it may change. -/
set_option linter.unusedTactic false
set_option linter.unreachableTactic false
set_option linter.unusedVariables false
set_option linter.tactic.unusedName false
set_option Elab.async false
namespace Sys2Proof.Machine

def km_setChartLen : Nat := pt.chartLen

theorem State.setChartLen_kept (s : State) (h : Nat) (n : Nat) : Kept km_setChartLen s (State.setChartLen s h n) := by
  unfold State.setChartLen
  repeat' (first
    | with_reducible assumption
    | decide +kernel
    | with_reducible exact Kept.refl ..
    | (extract_lets +onlyGivenNames x; refine cutK (m := km_setChartLen) (s := s) (x := x) ?_ ?_; on_goal 1 => (try unfold x); on_goal 2 => (intro hx; clear_value x))
    | extract_lets +onlyGivenNames x
    | split
    | refine Kept.of_snd ‹_› ?_
    | dsimp +zetaDelta only [id_eq]
    | with_reducible apply Kept.set_chartLen)

def km_chartCount : Nat := ob Obj.ndlChartCounts

theorem State.chartCount_kept (s : State) (i : Nat) : Kept km_chartCount s (State.chartCount s i) := by
  unfold State.chartCount
  repeat' (first
    | with_reducible assumption
    | decide +kernel
    | with_reducible exact Kept.refl ..
    | with_reducible apply Kept.step (State.count_kept _ _ _ _ _ _)
    | (extract_lets +onlyGivenNames x; refine cutK (m := km_chartCount) (s := s) (x := x) ?_ ?_; on_goal 1 => (try unfold x); on_goal 2 => (intro hx; clear_value x))
    | extract_lets +onlyGivenNames x
    | split
    | refine Kept.of_snd ‹_› ?_)

def km_chartClear : Nat := ob Obj.ndlChartInfo ||| ob Obj.ndlChartLabel ||| ob Obj.ndlChartState ||| ob Obj.ndlChartTsets ||| km_setImg ||| km_setChartLen

theorem State.chartClear_kept (s : State) (h : Nat) (st : Nat) : Kept km_chartClear s (State.chartClear s h st) := by
  unfold State.chartClear
  repeat' (first
    | with_reducible assumption
    | decide +kernel
    | with_reducible exact Kept.refl ..
    | with_reducible apply Kept.step (State.wr_kept _ _ _ _)
    | with_reducible apply Kept.step (State.setImg_kept _ _ _ _)
    | with_reducible apply Kept.step (State.setChartLen_kept _ _ _)
    | (extract_lets +onlyGivenNames x; refine cutK (m := km_chartClear) (s := s) (x := x) ?_ ?_; on_goal 1 => (try unfold x); on_goal 2 => (intro hx; clear_value x))
    | extract_lets +onlyGivenNames x
    | split
    | refine Kept.of_snd ‹_› ?_)

def km_chartError : Nat := ob Obj.ndlChartError ||| km_chartCount

theorem State.chartError_kept (s : State) (h : Nat) (reason : Nat) (check : Nat) (course : Nat) : Kept km_chartError s (State.chartError s h reason check course) := by
  unfold State.chartError
  repeat' (first
    | with_reducible assumption
    | decide +kernel
    | with_reducible exact Kept.refl ..
    | with_reducible apply Kept.step (State.wr_kept _ _ _ _)
    | with_reducible apply Kept.step (State.chartCount_kept _ _)
    | (extract_lets +onlyGivenNames x; refine cutK (m := km_chartError) (s := s) (x := x) ?_ ?_; on_goal 1 => (try unfold x); on_goal 2 => (intro hx; clear_value x))
    | extract_lets +onlyGivenNames x
    | split
    | refine Kept.of_snd ‹_› ?_)

def km_chartBegin : Nat := km_chartClear ||| km_setChartLen

theorem State.chartBegin_kept (s : State) (h : Nat) (total : Nat) : Kept km_chartBegin s (State.chartBegin s h total) := by
  unfold State.chartBegin
  repeat' (first
    | with_reducible assumption
    | decide +kernel
    | with_reducible exact Kept.refl ..
    | with_reducible apply Kept.step (State.chartClear_kept _ _ _)
    | with_reducible apply Kept.step (State.setChartLen_kept _ _ _)
    | (extract_lets +onlyGivenNames x; refine cutK (m := km_chartBegin) (s := s) (x := x) ?_ ?_; on_goal 1 => (try unfold x); on_goal 2 => (intro hx; clear_value x))
    | extract_lets +onlyGivenNames x
    | split
    | refine Kept.of_snd ‹_› ?_)

def km_chartFail : Nat := km_chartClear ||| km_chartError

theorem State.chartFail_kept (s : State) (h : Nat) (reason : Nat) (check : Nat) (course : Nat) : Kept km_chartFail s (State.chartFail s h reason check course) := by
  unfold State.chartFail
  repeat' (first
    | with_reducible assumption
    | decide +kernel
    | with_reducible exact Kept.refl ..
    | with_reducible apply Kept.step (State.chartClear_kept _ _ _)
    | with_reducible apply Kept.step (State.chartError_kept _ _ _ _ _)
    | (extract_lets +onlyGivenNames x; refine cutK (m := km_chartFail) (s := s) (x := x) ?_ ?_; on_goal 1 => (try unfold x); on_goal 2 => (intro hx; clear_value x))
    | extract_lets +onlyGivenNames x
    | split
    | refine Kept.of_snd ‹_› ?_)

def km_chartLoaded : Nat := ob Obj.ndlChartInfo ||| ob Obj.ndlChartLabel ||| ob Obj.ndlChartState ||| ob Obj.ndlChartTsets ||| km_setImg ||| km_chartCount

theorem State.chartLoaded_kept (s : State) (h : Nat) (img : Bytes) : Kept km_chartLoaded s (State.chartLoaded s h img) := by
  unfold State.chartLoaded
  repeat' (first
    | with_reducible assumption
    | decide +kernel
    | with_reducible exact Kept.refl ..
    | with_reducible apply Kept.step (State.wr_kept _ _ _ _)
    | with_reducible apply Kept.step (State.setImg_kept _ _ _ _)
    | with_reducible apply Kept.step (State.chartCount_kept _ _)
    | (extract_lets +onlyGivenNames x; refine cutK (m := km_chartLoaded) (s := s) (x := x) ?_ ?_; on_goal 1 => (try unfold x); on_goal 2 => (intro hx; clear_value x))
    | extract_lets +onlyGivenNames x
    | split
    | refine Kept.of_snd ‹_› ?_)

def km_setXfer : Nat := pt.poa

theorem State.setXfer_kept (s : State) (id : Nat) (x : Option Xfer) : Kept km_setXfer s (State.setXfer s id x) := by
  unfold State.setXfer
  repeat' (first
    | with_reducible assumption
    | decide +kernel
    | with_reducible exact Kept.refl ..
    | (extract_lets +onlyGivenNames x; refine cutK (m := km_setXfer) (s := s) (x := x) ?_ ?_; on_goal 1 => (try unfold x); on_goal 2 => (intro hx; clear_value x))
    | extract_lets +onlyGivenNames x
    | split
    | refine Kept.of_snd ‹_› ?_
    | dsimp +zetaDelta only [id_eq]
    | with_reducible apply Kept.set_poa)

def km_result : Nat := pt.results

theorem State.result_kept (s : State) (t : Token) (reason : Nat) (body : Bytes) : Kept km_result s (State.result s t reason body) := by
  unfold State.result
  repeat' (first
    | with_reducible assumption
    | decide +kernel
    | with_reducible exact Kept.refl ..
    | (extract_lets +onlyGivenNames x; refine cutK (m := km_result) (s := s) (x := x) ?_ ?_; on_goal 1 => (try unfold x); on_goal 2 => (intro hx; clear_value x))
    | extract_lets +onlyGivenNames x
    | split
    | refine Kept.of_snd ‹_› ?_
    | with_reducible apply Kept.set_results)

def km_validateChart : Nat := km_setXfer ||| km_chartLoaded ||| km_result ||| km_chartFail

theorem State.validateChart_kept (s : State) (h : Nat) : Kept km_validateChart s (State.validateChart s h) := by
  unfold State.validateChart
  repeat' (first
    | with_reducible assumption
    | decide +kernel
    | with_reducible exact Kept.refl ..
    | (with_reducible apply Kept.ite <;> intro _)
    | with_reducible apply Kept.step (State.setXfer_kept _ _ _)
    | with_reducible apply Kept.step (State.chartLoaded_kept _ _ _)
    | with_reducible apply Kept.step (State.result_kept _ _ _ _)
    | with_reducible apply Kept.step (State.chartFail_kept _ _ _ _ _)
    | (extract_lets +onlyGivenNames x; refine cutK (m := km_validateChart) (s := s) (x := x) ?_ ?_; on_goal 1 => (try unfold x); on_goal 2 => (intro hx; clear_value x))
    | extract_lets +onlyGivenNames x
    | split
    | refine Kept.of_snd ‹_› ?_
    | dsimp +zetaDelta only [id_eq])

def km_chartDelete : Nat := km_setXfer ||| km_result ||| km_chartClear

theorem State.chartDelete_kept (s : State) (h : Nat) : Kept km_chartDelete s (State.chartDelete s h) := by
  unfold State.chartDelete
  repeat' (first
    | with_reducible assumption
    | decide +kernel
    | with_reducible exact Kept.refl ..
    | (with_reducible apply Kept.ite <;> intro _)
    | with_reducible apply Kept.step (State.setXfer_kept _ _ _)
    | with_reducible apply Kept.step (State.result_kept _ _ _ _)
    | with_reducible apply Kept.step (State.chartClear_kept _ _ _)
    | (extract_lets +onlyGivenNames x; refine cutK (m := km_chartDelete) (s := s) (x := x) ?_ ?_; on_goal 1 => (try unfold x); on_goal 2 => (intro hx; clear_value x))
    | extract_lets +onlyGivenNames x
    | split
    | refine Kept.of_snd ‹_› ?_
    | dsimp +zetaDelta only [id_eq])

end Sys2Proof.Machine
end

