-- ==== Sys2Proof/Laws/KeptPool.lean ====
section
/-! SUPPORT. For every operation of Machine/Pool.lean the parts of the state that it may change. -/
set_option linter.unusedTactic false
set_option linter.unreachableTactic false
set_option linter.unusedVariables false
set_option linter.tactic.unusedName false
set_option Elab.async false
namespace Sys2Proof.Machine

def km_setNdl : Nat := pt.ndls

theorem State.setNdl_kept (s : State) (n : Nat) (x : NdlRt) : Kept km_setNdl s (State.setNdl s n x) := by
  unfold State.setNdl
  repeat' (first
    | with_reducible assumption
    | decide +kernel
    | with_reducible exact Kept.refl ..
    | (extract_lets +onlyGivenNames x; refine cutK (m := km_setNdl) (s := s) (x := x) ?_ ?_; on_goal 1 => (try unfold x); on_goal 2 => (intro hx; clear_value x))
    | extract_lets +onlyGivenNames x
    | split
    | refine Kept.of_snd ‹_› ?_
    | dsimp +zetaDelta only [id_eq]
    | with_reducible apply Kept.set_ndls)

def km_setSite : Nat := pt.sites

theorem State.setSite_kept (s : State) (n : Nat) (x : SiteRt) : Kept km_setSite s (State.setSite s n x) := by
  unfold State.setSite
  repeat' (first
    | with_reducible assumption
    | decide +kernel
    | with_reducible exact Kept.refl ..
    | (extract_lets +onlyGivenNames x; refine cutK (m := km_setSite) (s := s) (x := x) ?_ ?_; on_goal 1 => (try unfold x); on_goal 2 => (intro hx; clear_value x))
    | extract_lets +onlyGivenNames x
    | split
    | refine Kept.of_snd ‹_› ?_
    | dsimp +zetaDelta only [id_eq]
    | with_reducible apply Kept.set_sites)

def km_putQueue : Nat := pt.queues

theorem State.putQueue_kept (s : State) (q : Nat) (x : Option Queue) : Kept km_putQueue s (State.putQueue s q x) := by
  unfold State.putQueue
  repeat' (first
    | with_reducible assumption
    | decide +kernel
    | with_reducible exact Kept.refl ..
    | (extract_lets +onlyGivenNames x; refine cutK (m := km_putQueue) (s := s) (x := x) ?_ ?_; on_goal 1 => (try unfold x); on_goal 2 => (intro hx; clear_value x))
    | extract_lets +onlyGivenNames x
    | split
    | refine Kept.of_snd ‹_› ?_
    | dsimp +zetaDelta only [id_eq]
    | with_reducible apply Kept.set_queues)

def km_rqpCount : Nat := ob Obj.rqpCounts

theorem State.rqpCount_kept (s : State) (i : Nat) (n : Nat) : Kept km_rqpCount s (State.rqpCount s i n) := by
  unfold State.rqpCount
  repeat' (first
    | with_reducible assumption
    | decide +kernel
    | with_reducible exact Kept.refl ..
    | with_reducible apply Kept.step (State.count_kept _ _ _ _ _ _)
    | (extract_lets +onlyGivenNames x; refine cutK (m := km_rqpCount) (s := s) (x := x) ?_ ?_; on_goal 1 => (try unfold x); on_goal 2 => (intro hx; clear_value x))
    | extract_lets +onlyGivenNames x
    | split
    | refine Kept.of_snd ‹_› ?_)

def km_poolNote : Nat := ob Obj.rqpPoolStatus ||| km_latch

theorem State.poolNote_kept (s : State) : Kept km_poolNote s (State.poolNote s) := by
  unfold State.poolNote
  repeat' (first
    | with_reducible assumption
    | decide +kernel
    | with_reducible exact Kept.refl ..
    | (with_reducible apply Kept.ite <;> intro _)
    | with_reducible apply Kept.step (State.setFld_kept _ _ _ _ _)
    | with_reducible apply Kept.step (State.latch_kept _ _)
    | (extract_lets +onlyGivenNames x; refine cutK (m := km_poolNote) (s := s) (x := x) ?_ ?_; on_goal 1 => (try unfold x); on_goal 2 => (intro hx; clear_value x))
    | extract_lets +onlyGivenNames x
    | split
    | refine Kept.of_snd ‹_› ?_)

def km_queueNote : Nat := ob Obj.rqpNeedleQueue ||| ob Obj.rqpSiteQueue

theorem State.queueNote_kept (s : State) (qn : Nat) : Kept km_queueNote s (State.queueNote s qn) := by
  unfold State.queueNote
  repeat' (first
    | with_reducible assumption
    | decide +kernel
    | with_reducible exact Kept.refl ..
    | (with_reducible apply Kept.ite <;> intro _)
    | with_reducible apply Kept.step (State.wr_kept _ _ _ _)
    | (extract_lets +onlyGivenNames x; refine cutK (m := km_queueNote) (s := s) (x := x) ?_ ?_; on_goal 1 => (try unfold x); on_goal 2 => (intro hx; clear_value x))
    | extract_lets +onlyGivenNames x
    | split
    | refine Kept.of_snd ‹_› ?_)

def km_setQueue : Nat := km_putQueue ||| km_poolNote ||| km_queueNote

theorem State.setQueue_kept (s : State) (qn : Nat) (q : Queue) : Kept km_setQueue s (State.setQueue s qn q) := by
  unfold State.setQueue
  repeat' (first
    | with_reducible assumption
    | decide +kernel
    | with_reducible exact Kept.refl ..
    | with_reducible apply Kept.step (State.putQueue_kept _ _ _)
    | with_reducible apply Kept.step (State.poolNote_kept _)
    | with_reducible apply Kept.step (State.queueNote_kept _ _)
    | (extract_lets +onlyGivenNames x; refine cutK (m := km_setQueue) (s := s) (x := x) ?_ ?_; on_goal 1 => (try unfold x); on_goal 2 => (intro hx; clear_value x))
    | extract_lets +onlyGivenNames x
    | split
    | refine Kept.of_snd ‹_› ?_)

def km_setResult : Nat := ob Obj.ptfSiteResult

theorem State.setResult_kept (s : State) (site : Nat) (f : Fld) (v : Nat) : Kept km_setResult s (State.setResult s site f v) := by
  unfold State.setResult
  repeat' (first
    | with_reducible assumption
    | decide +kernel
    | with_reducible exact Kept.refl ..
    | with_reducible apply Kept.step (State.setFld_kept _ _ _ _ _)
    | (extract_lets +onlyGivenNames x; refine cutK (m := km_setResult) (s := s) (x := x) ?_ ?_; on_goal 1 => (try unfold x); on_goal 2 => (intro hx; clear_value x))
    | extract_lets +onlyGivenNames x
    | split
    | refine Kept.of_snd ‹_› ?_)

def km_dropRec : Nat := ob Obj.ptfSiteResult ||| km_putQueue ||| km_rqpCount ||| km_setResult ||| km_latch

theorem State.dropRec_kept (s : State) (qn : Nat) (cause : Nat) (stitch : Nat) (n : Nat) : Kept km_dropRec s (State.dropRec s qn cause stitch n) := by
  unfold State.dropRec
  repeat' (first
    | with_reducible assumption
    | decide +kernel
    | with_reducible exact Kept.refl ..
    | (with_reducible apply Kept.ite <;> intro _)
    | with_reducible apply Kept.step (State.setFld_kept _ _ _ _ _)
    | with_reducible apply Kept.step (State.count_kept _ _ _ _ _ _)
    | with_reducible apply Kept.step (State.putQueue_kept _ _ _)
    | with_reducible apply Kept.step (State.rqpCount_kept _ _ _)
    | with_reducible apply Kept.step (State.setResult_kept _ _ _ _)
    | with_reducible apply Kept.step (State.latch_kept _ _)
    | (extract_lets +onlyGivenNames x; refine cutK (m := km_dropRec) (s := s) (x := x) ?_ ?_; on_goal 1 => (try unfold x); on_goal 2 => (intro hx; clear_value x))
    | extract_lets +onlyGivenNames x
    | split
    | refine Kept.of_snd ‹_› ?_)

def km_incomplete : Nat := ob Obj.ptfSiteResult ||| km_setResult ||| km_latch

theorem State.incomplete_kept (s : State) (site : Nat) (cause : Nat) : Kept km_incomplete s (State.incomplete s site cause) := by
  unfold State.incomplete
  repeat' (first
    | with_reducible assumption
    | decide +kernel
    | with_reducible exact Kept.refl ..
    | (with_reducible apply Kept.ite <;> intro _)
    | with_reducible apply Kept.step (State.setFld_kept _ _ _ _ _)
    | with_reducible apply Kept.step (State.setResult_kept _ _ _ _)
    | with_reducible apply Kept.step (State.latch_kept _ _)
    | (extract_lets +onlyGivenNames x; refine cutK (m := km_incomplete) (s := s) (x := x) ?_ ?_; on_goal 1 => (try unfold x); on_goal 2 => (intro hx; clear_value x))
    | extract_lets +onlyGivenNames x
    | split
    | refine Kept.of_snd ‹_› ?_)

def km_produce : Nat := ob Obj.rqpPoolStatus ||| km_dropRec ||| km_rqpCount ||| km_latch ||| km_setQueue

theorem State.produce_kept (s : State) (qn : Nat) (typ : Nat) (payload : Bytes) (stitch : Nat) : Kept km_produce s (State.produce s qn typ payload stitch) := by
  unfold State.produce
  repeat' (first
    | with_reducible assumption
    | decide +kernel
    | with_reducible exact Kept.refl ..
    | (with_reducible apply Kept.ite <;> intro _)
    | with_reducible apply Kept.step (State.setFld_kept _ _ _ _ _)
    | with_reducible apply Kept.step (State.dropRec_kept _ _ _ _ _)
    | with_reducible apply Kept.step (State.rqpCount_kept _ _ _)
    | with_reducible apply Kept.step (State.latch_kept _ _)
    | with_reducible apply Kept.step (State.setQueue_kept _ _ _)
    | (extract_lets +onlyGivenNames x; refine cutK (m := km_produce) (s := s) (x := x) ?_ ?_; on_goal 1 => (try unfold x); on_goal 2 => (intro hx; clear_value x))
    | extract_lets +onlyGivenNames x
    | split
    | refine Kept.of_snd ‹_› ?_)

def km_produceEnd : Nat := km_setQueue

theorem State.produceEnd_kept (s : State) (qn : Nat) (payload : Bytes) : Kept km_produceEnd s (State.produceEnd s qn payload) := by
  unfold State.produceEnd
  repeat' (first
    | with_reducible assumption
    | decide +kernel
    | with_reducible exact Kept.refl ..
    | (with_reducible apply Kept.ite <;> intro _)
    | with_reducible apply Kept.step (State.setQueue_kept _ _ _)
    | (extract_lets +onlyGivenNames x; refine cutK (m := km_produceEnd) (s := s) (x := x) ?_ ?_; on_goal 1 => (try unfold x); on_goal 2 => (intro hx; clear_value x))
    | extract_lets +onlyGivenNames x
    | split
    | refine Kept.of_snd ‹_› ?_)

def km_produceFlow : Nat := km_produce

theorem State.produceFlow_kept (s : State) (flow : Nat) (typ : Nat) (payload : Bytes) (stitch : Nat) : Kept km_produceFlow s (State.produceFlow s flow typ payload stitch) := by
  unfold State.produceFlow
  repeat' (first
    | with_reducible assumption
    | decide +kernel
    | with_reducible exact Kept.refl ..
    | with_reducible apply Kept.step (State.produce_kept _ _ _ _ _)
    | (extract_lets +onlyGivenNames x; refine cutK (m := km_produceFlow) (s := s) (x := x) ?_ ?_; on_goal 1 => (try unfold x); on_goal 2 => (intro hx; clear_value x))
    | extract_lets +onlyGivenNames x
    | split
    | refine Kept.of_snd ‹_› ?_)

def km_logFail : Nat := ob Obj.ptfFailFifo ||| km_dropRec ||| km_setNdl ||| km_setSite ||| km_setResult

theorem State.logFail_kept (s : State) (n : Nat) (e : FailEntry) : Kept km_logFail s (State.logFail s n e) := by
  unfold State.logFail
  repeat' (first
    | with_reducible assumption
    | decide +kernel
    | with_reducible exact Kept.refl ..
    | (with_reducible apply Kept.ite <;> intro _)
    | with_reducible apply Kept.step (State.setFld_kept _ _ _ _ _)
    | with_reducible apply Kept.step (State.count_kept _ _ _ _ _ _)
    | with_reducible apply Kept.step (State.dropRec_kept _ _ _ _ _)
    | with_reducible apply Kept.step (State.setNdl_kept _ _ _)
    | with_reducible apply Kept.step (State.setSite_kept _ _ _)
    | with_reducible apply Kept.step (State.setResult_kept _ _ _ _)
    | (extract_lets +onlyGivenNames x; refine cutK (m := km_logFail) (s := s) (x := x) ?_ ?_; on_goal 1 => (try unfold x); on_goal 2 => (intro hx; clear_value x))
    | extract_lets +onlyGivenNames x
    | split
    | refine Kept.of_snd ‹_› ?_)

def km_drainOne : Nat := km_setNdl ||| km_produceFlow

theorem State.drainOne_kept (s : State) (n : Nat) : Kept km_drainOne s (State.drainOne s n) := by
  unfold State.drainOne
  repeat' (first
    | with_reducible assumption
    | decide +kernel
    | with_reducible exact Kept.refl ..
    | with_reducible apply Kept.step (State.setNdl_kept _ _ _)
    | with_reducible apply Kept.step (State.produceFlow_kept _ _ _ _ _)
    | (extract_lets +onlyGivenNames x; refine cutK (m := km_drainOne) (s := s) (x := x) ?_ ?_; on_goal 1 => (try unfold x); on_goal 2 => (intro hx; clear_value x))
    | extract_lets +onlyGivenNames x
    | split
    | refine Kept.of_snd ‹_› ?_)

def km_execFailLoggerDrain : Nat := km_drainOne

theorem execFailLoggerDrain_kept (needle : Nat) (s : State) : KeptR km_execFailLoggerDrain s (execFailLoggerDrain needle s) := by
  unfold execFailLoggerDrain
  repeat' (first
    | with_reducible assumption
    | decide +kernel
    | with_reducible exact Kept.refl ..
    | with_reducible refine KeptR.next ?_
    | with_reducible exact KeptR.fault
    | with_reducible apply Kept.step (State.drainOne_kept _ _)
    | (extract_lets +onlyGivenNames x; refine cutK (m := km_execFailLoggerDrain) (s := s) (x := x) ?_ ?_; on_goal 1 => (try unfold x); on_goal 2 => (intro hx; clear_value x))
    | extract_lets +onlyGivenNames x
    | split
    | refine Kept.of_snd ‹_› ?_)

def km_drainAll : Nat := km_drainOne

theorem State.drainAll_kept (k n : Nat) (s : State) : Kept km_drainAll s (State.drainAll k n s) := by
  induction k generalizing s with
  | zero =>
    unfold State.drainAll
    repeat' (first
      | with_reducible assumption
      | decide +kernel
      | with_reducible exact Kept.refl ..
      | with_reducible apply Kept.step (ih _)
      | (with_reducible apply Kept.ite <;> intro _)
      | with_reducible apply Kept.step (State.drainOne_kept _ _)
      | (extract_lets +onlyGivenNames x; refine cutK (m := km_drainAll) (s := s) (x := x) ?_ ?_; on_goal 1 => (try unfold x); on_goal 2 => (intro hx; clear_value x))
      | extract_lets +onlyGivenNames x
      | split
      | refine Kept.of_snd ‹_› ?_)
  | succ k ih =>
    unfold State.drainAll
    repeat' (first
      | with_reducible assumption
      | decide +kernel
      | with_reducible exact Kept.refl ..
      | with_reducible apply Kept.step (ih _)
      | (with_reducible apply Kept.ite <;> intro _)
      | with_reducible apply Kept.step (State.drainOne_kept _ _)
      | (extract_lets +onlyGivenNames x; refine cutK (m := km_drainAll) (s := s) (x := x) ?_ ?_; on_goal 1 => (try unfold x); on_goal 2 => (intro hx; clear_value x))
      | extract_lets +onlyGivenNames x
      | split
      | refine Kept.of_snd ‹_› ?_)

def km_finalize : Nat := km_drainAll ||| km_setNdl ||| km_setResult ||| km_produceEnd

theorem State.finalize_kept (s : State) (n : Nat) : Kept km_finalize s (State.finalize s n) := by
  unfold State.finalize
  repeat' (first
    | with_reducible assumption
    | decide +kernel
    | with_reducible exact Kept.refl ..
    | (with_reducible apply Kept.ite <;> intro _)
    | with_reducible apply Kept.step (State.drainAll_kept _ _ _)
    | with_reducible apply Kept.step (State.setNdl_kept _ _ _)
    | with_reducible apply Kept.step (State.setResult_kept _ _ _ _)
    | with_reducible apply Kept.step (State.produceEnd_kept _ _ _)
    | with_reducible apply Kept.foldl
    | with_reducible refine fun (x : State) a hx => ?_
    | (extract_lets +onlyGivenNames x; refine cutK (m := km_finalize) (s := s) (x := x) ?_ ?_; on_goal 1 => (try unfold x); on_goal 2 => (intro hx; clear_value x))
    | extract_lets +onlyGivenNames x
    | split
    | refine Kept.of_snd ‹_› ?_
    | dsimp +zetaDelta only [id_eq])

def km_execResultsFinal : Nat := km_reach ||| km_finalize

theorem execResultsFinal_kept (needle : Nat) (s : State) : KeptR km_execResultsFinal s (execResultsFinal needle s) := by
  unfold execResultsFinal
  repeat' (first
    | with_reducible assumption
    | decide +kernel
    | with_reducible exact Kept.refl ..
    | with_reducible refine KeptR.next ?_
    | with_reducible exact KeptR.fault
    | with_reducible apply Kept.step (State.reach_kept _ _)
    | with_reducible apply Kept.step (State.finalize_kept _ _)
    | (extract_lets +onlyGivenNames x; refine cutK (m := km_execResultsFinal) (s := s) (x := x) ?_ ?_; on_goal 1 => (try unfold x); on_goal 2 => (intro hx; clear_value x))
    | extract_lets +onlyGivenNames x
    | split
    | refine Kept.of_snd ‹_› ?_)

def km_clearRun : Nat := ob Obj.ptfCapStatus ||| ob Obj.ptfFailFifo ||| ob Obj.ptfPinFails ||| ob Obj.ptfSiteResult ||| km_setSite ||| km_putQueue ||| km_setNdl

theorem State.clearRun_kept (s : State) (n : Nat) : Kept km_clearRun s (State.clearRun s n) := by
  unfold State.clearRun
  repeat' (first
    | with_reducible assumption
    | decide +kernel
    | with_reducible exact Kept.refl ..
    | with_reducible apply Kept.step (State.wr_kept _ _ _ _)
    | with_reducible apply Kept.step (State.setFld_kept _ _ _ _ _)
    | with_reducible apply Kept.step (State.wrAll_kept _ _ _ _)
    | with_reducible apply Kept.step (State.setSite_kept _ _ _)
    | with_reducible apply Kept.step (State.putQueue_kept _ _ _)
    | with_reducible apply Kept.step (State.setNdl_kept _ _ _)
    | with_reducible apply Kept.foldl
    | with_reducible refine fun (x : State) a hx => ?_
    | (extract_lets +onlyGivenNames x; refine cutK (m := km_clearRun) (s := s) (x := x) ?_ ?_; on_goal 1 => (try unfold x); on_goal 2 => (intro hx; clear_value x))
    | extract_lets +onlyGivenNames x
    | split
    | refine Kept.of_snd ‹_› ?_
    | dsimp +zetaDelta only [id_eq])

def km_dlogNow : Nat := km_setSub ||| km_report

theorem State.dlogNow_kept (s : State) (n : Nat) (x : Sub) (b : Bytes) : Kept km_dlogNow s (State.dlogNow s n x b) := by
  unfold State.dlogNow
  repeat' (first
    | with_reducible assumption
    | decide +kernel
    | with_reducible exact Kept.refl ..
    | with_reducible apply Kept.step (State.setSub_kept _ _ _)
    | with_reducible apply Kept.step (State.report_kept _ _ _)
    | (extract_lets +onlyGivenNames x; refine cutK (m := km_dlogNow) (s := s) (x := x) ?_ ?_; on_goal 1 => (try unfold x); on_goal 2 => (intro hx; clear_value x))
    | extract_lets +onlyGivenNames x
    | split
    | refine Kept.of_snd ‹_› ?_)

def km_dlogSent : Nat := ob Obj.ptfDlogStatus

theorem State.dlogSent_kept (s : State) (b : Bytes) : Kept km_dlogSent s (State.dlogSent s b) := by
  unfold State.dlogSent
  repeat' (first
    | with_reducible assumption
    | decide +kernel
    | with_reducible exact Kept.refl ..
    | (with_reducible apply Kept.ite <;> intro _)
    | with_reducible apply Kept.step (State.count_kept _ _ _ _ _ _)
    | (extract_lets +onlyGivenNames x; refine cutK (m := km_dlogSent) (s := s) (x := x) ?_ ?_; on_goal 1 => (try unfold x); on_goal 2 => (intro hx; clear_value x))
    | extract_lets +onlyGivenNames x
    | split
    | refine Kept.of_snd ‹_› ?_)

def km_dlogSend : Nat := km_dlogNow ||| km_setSub

theorem State.dlogSend_kept (s : State) (n : Nat) (b : Bytes) : Kept km_dlogSend s (State.dlogSend s n b) := by
  unfold State.dlogSend
  repeat' (first
    | with_reducible assumption
    | decide +kernel
    | with_reducible exact Kept.refl ..
    | (with_reducible apply Kept.ite <;> intro _)
    | with_reducible apply Kept.step (State.dlogNow_kept _ _ _ _)
    | with_reducible apply Kept.step (State.setSub_kept _ _ _)
    | (extract_lets +onlyGivenNames x; refine cutK (m := km_dlogSend) (s := s) (x := x) ?_ ?_; on_goal 1 => (try unfold x); on_goal 2 => (intro hx; clear_value x))
    | extract_lets +onlyGivenNames x
    | split
    | refine Kept.of_snd ‹_› ?_)

def km_dlogPump : Nat := km_setSub ||| km_dlogNow ||| km_dlogSent

theorem State.dlogPump_kept (k n : Nat) (s : State) : Kept km_dlogPump s (State.dlogPump k n s) := by
  induction k generalizing s with
  | zero =>
    unfold State.dlogPump
    repeat' (first
      | with_reducible assumption
      | decide +kernel
      | with_reducible exact Kept.refl ..
      | with_reducible apply Kept.step (ih _)
      | (with_reducible apply Kept.ite <;> intro _)
      | with_reducible apply Kept.step (State.setSub_kept _ _ _)
      | with_reducible apply Kept.step (State.dlogNow_kept _ _ _ _)
      | with_reducible apply Kept.step (State.dlogSent_kept _ _)
      | (extract_lets +onlyGivenNames x; refine cutK (m := km_dlogPump) (s := s) (x := x) ?_ ?_; on_goal 1 => (try unfold x); on_goal 2 => (intro hx; clear_value x))
      | extract_lets +onlyGivenNames x
      | split
      | refine Kept.of_snd ‹_› ?_)
  | succ k ih =>
    unfold State.dlogPump
    repeat' (first
      | with_reducible assumption
      | decide +kernel
      | with_reducible exact Kept.refl ..
      | with_reducible apply Kept.step (ih _)
      | (with_reducible apply Kept.ite <;> intro _)
      | with_reducible apply Kept.step (State.setSub_kept _ _ _)
      | with_reducible apply Kept.step (State.dlogNow_kept _ _ _ _)
      | with_reducible apply Kept.step (State.dlogSent_kept _ _)
      | (extract_lets +onlyGivenNames x; refine cutK (m := km_dlogPump) (s := s) (x := x) ?_ ?_; on_goal 1 => (try unfold x); on_goal 2 => (intro hx; clear_value x))
      | extract_lets +onlyGivenNames x
      | split
      | refine Kept.of_snd ‹_› ?_)

def km_datalog : Nat := ob Obj.ptfDlogStatus ||| km_setSite ||| km_setNdl ||| km_dlogSend ||| km_dlogSent

theorem State.datalog_kept (s : State) (kind : Nat) (site : Nat) (needle : Nat) (run : Nat) (payload : Bytes) : Kept km_datalog s (State.datalog s kind site needle run payload) := by
  unfold State.datalog
  repeat' (first
    | with_reducible assumption
    | decide +kernel
    | with_reducible exact Kept.refl ..
    | (with_reducible apply Kept.ite <;> intro _)
    | with_reducible apply Kept.step (State.count_kept _ _ _ _ _ _)
    | with_reducible apply Kept.step (State.setSite_kept _ _ _)
    | with_reducible apply Kept.step (State.setNdl_kept _ _ _)
    | with_reducible apply Kept.step (State.dlogSend_kept _ _ _)
    | with_reducible apply Kept.step (State.dlogSent_kept _ _)
    | with_reducible apply Kept.foldl
    | with_reducible refine fun (x : State) a hx => ?_
    | (extract_lets +onlyGivenNames x; refine cutK (m := km_datalog) (s := s) (x := x) ?_ ?_; on_goal 1 => (try unfold x); on_goal 2 => (intro hx; clear_value x))
    | extract_lets +onlyGivenNames x
    | split
    | refine Kept.of_snd ‹_› ?_
    | dsimp +zetaDelta only [id_eq])

def km_dlogList : Nat := km_datalog

theorem State.dlogList_kept (s : State) (kind : Nat) (site : Nat) (needle : Nat) (run : Nat) (l : List Bytes) : Kept km_dlogList s (State.dlogList s kind site needle run l) := by
  unfold State.dlogList
  repeat' (first
    | with_reducible assumption
    | decide +kernel
    | with_reducible exact Kept.refl ..
    | with_reducible apply Kept.step (State.datalog_kept _ _ _ _ _ _)
    | with_reducible apply Kept.foldl
    | with_reducible refine fun (x : State) a hx => ?_
    | (extract_lets +onlyGivenNames x; refine cutK (m := km_dlogList) (s := s) (x := x) ?_ ?_; on_goal 1 => (try unfold x); on_goal 2 => (intro hx; clear_value x))
    | extract_lets +onlyGivenNames x
    | split
    | refine Kept.of_snd ‹_› ?_
    | dsimp +zetaDelta only [id_eq])

def km_unitRecord : Nat := ob Obj.taeLastRecord ||| km_setImg ||| km_latch

theorem State.unitRecord_kept (s : State) (unit : Nat) (b : Bytes) : Kept km_unitRecord s (State.unitRecord s unit b) := by
  unfold State.unitRecord
  repeat' (first
    | with_reducible assumption
    | decide +kernel
    | with_reducible exact Kept.refl ..
    | with_reducible apply Kept.step (State.wr_kept _ _ _ _)
    | with_reducible apply Kept.step (State.setImg_kept _ _ _ _)
    | with_reducible apply Kept.step (State.latch_kept _ _)
    | (extract_lets +onlyGivenNames x; refine cutK (m := km_unitRecord) (s := s) (x := x) ?_ ?_; on_goal 1 => (try unfold x); on_goal 2 => (intro hx; clear_value x))
    | extract_lets +onlyGivenNames x
    | split
    | refine Kept.of_snd ‹_› ?_)

def km_dlogRun : Nat := km_dlogList

theorem State.dlogRun_kept (s : State) (flow : Nat) (l : Nat × List Bytes) : Kept km_dlogRun s (State.dlogRun s flow l) := by
  unfold State.dlogRun
  repeat' (first
    | with_reducible assumption
    | decide +kernel
    | with_reducible exact Kept.refl ..
    | (with_reducible apply Kept.ite <;> intro _)
    | with_reducible apply Kept.step (State.dlogList_kept _ _ _ _ _ _)
    | (extract_lets +onlyGivenNames x; refine cutK (m := km_dlogRun) (s := s) (x := x) ?_ ?_; on_goal 1 => (try unfold x); on_goal 2 => (intro hx; clear_value x))
    | extract_lets +onlyGivenNames x
    | split
    | refine Kept.of_snd ‹_› ?_)

def km_consume : Nat := km_dlogRun ||| km_unitRecord ||| km_datalog

theorem State.consume_kept (s : State) (flow : Nat) (run : Nat × List Bytes) (l : List PoolRec) : Kept km_consume s (State.consume s flow run l) := by
  induction l generalizing s run with
  | nil =>
    unfold State.consume
    repeat' (first
      | with_reducible assumption
      | decide +kernel
      | with_reducible exact Kept.refl ..
      | with_reducible apply Kept.step (ih _ _)
      | (with_reducible apply Kept.ite <;> intro _)
      | with_reducible apply Kept.step (State.dlogRun_kept _ _ _)
      | with_reducible apply Kept.step (State.unitRecord_kept _ _ _)
      | with_reducible apply Kept.step (State.datalog_kept _ _ _ _ _ _)
      | (extract_lets +onlyGivenNames x; refine cutK (m := km_consume) (s := s) (x := x) ?_ ?_; on_goal 1 => (try unfold x); on_goal 2 => (intro hx; clear_value x))
      | extract_lets +onlyGivenNames x
      | split
      | refine Kept.of_snd ‹_› ?_)
  | cons b t ih =>
    unfold State.consume
    repeat' (first
      | with_reducible assumption
      | decide +kernel
      | with_reducible exact Kept.refl ..
      | with_reducible apply Kept.step (ih _ _)
      | (with_reducible apply Kept.ite <;> intro _)
      | with_reducible apply Kept.step (State.dlogRun_kept _ _ _)
      | with_reducible apply Kept.step (State.unitRecord_kept _ _ _)
      | with_reducible apply Kept.step (State.datalog_kept _ _ _ _ _ _)
      | (extract_lets +onlyGivenNames x; refine cutK (m := km_consume) (s := s) (x := x) ?_ ?_; on_goal 1 => (try unfold x); on_goal 2 => (intro hx; clear_value x))
      | extract_lets +onlyGivenNames x
      | split
      | refine Kept.of_snd ‹_› ?_)

def km_cellError : Nat := km_rqpCount ||| km_putQueue

theorem State.cellError_kept (s : State) (queue : Nat) (bits : Nat) : Kept km_cellError s (State.cellError s queue bits) := by
  unfold State.cellError
  repeat' (first
    | with_reducible assumption
    | decide +kernel
    | with_reducible exact Kept.refl ..
    | (with_reducible apply Kept.ite <;> intro _)
    | with_reducible apply Kept.step (State.rqpCount_kept _ _ _)
    | with_reducible apply Kept.step (State.putQueue_kept _ _ _)
    | (extract_lets +onlyGivenNames x; refine cutK (m := km_cellError) (s := s) (x := x) ?_ ?_; on_goal 1 => (try unfold x); on_goal 2 => (intro hx; clear_value x))
    | extract_lets +onlyGivenNames x
    | split
    | refine Kept.of_snd ‹_› ?_)

def km_poolEcc : Nat := km_cellError

theorem State.poolEcc_kept (s : State) (master : Nat) (bits : Nat) : Kept km_poolEcc s (State.poolEcc s master bits) := by
  unfold State.poolEcc
  repeat' (first
    | with_reducible assumption
    | decide +kernel
    | with_reducible exact Kept.refl ..
    | with_reducible apply Kept.step (State.cellError_kept _ _ _)
    | (extract_lets +onlyGivenNames x; refine cutK (m := km_poolEcc) (s := s) (x := x) ?_ ?_; on_goal 1 => (try unfold x); on_goal 2 => (intro hx; clear_value x))
    | extract_lets +onlyGivenNames x
    | split
    | refine Kept.of_snd ‹_› ?_
    | dsimp +zetaDelta only [id_eq])

def km_execPoolRelease : Nat := km_checked ||| km_cellError ||| km_raise ||| km_setQueue ||| km_dropRec ||| km_consume

theorem execPoolRelease_kept (queue : Nat) (bytes : Nat) (s : State) : KeptR km_execPoolRelease s (execPoolRelease queue bytes s) := by
  unfold execPoolRelease
  repeat' (first
    | with_reducible assumption
    | decide +kernel
    | with_reducible exact Kept.refl ..
    | (with_reducible apply KeptR.ite <;> intro _)
    | (with_reducible apply Kept.ite <;> intro _)
    | with_reducible refine KeptR.next ?_
    | with_reducible exact KeptR.fault
    | with_reducible apply Kept.step (State.checked_kept _ _ _)
    | with_reducible apply Kept.step (State.cellError_kept _ _ _)
    | with_reducible apply Kept.step (State.raise_kept _ _ _ _ _ _ _ _)
    | with_reducible apply Kept.step (State.setQueue_kept _ _ _)
    | with_reducible apply Kept.step (State.dropRec_kept _ _ _ _ _)
    | with_reducible apply Kept.step (State.consume_kept _ _ _ _)
    | with_reducible apply Kept.foldl
    | with_reducible refine fun (x : State) a hx => ?_
    | (extract_lets +onlyGivenNames x; refine cutK (m := km_execPoolRelease) (s := s) (x := x) ?_ ?_; on_goal 1 => (try unfold x); on_goal 2 => (intro hx; clear_value x))
    | (extract_lets +onlyGivenNames x; refine cutK (m := km_execPoolRelease) (s := s) (x := x.2) ?_ ?_; on_goal 1 => (try unfold x); on_goal 2 => (intro hx; clear_value x))
    | extract_lets +onlyGivenNames x
    | split
    | refine Kept.of_snd ‹_› ?_
    | dsimp +zetaDelta only [id_eq])

def km_execQueuePost : Nat := km_reach ||| km_enqueue ||| km_putQueue

theorem execQueuePost_kept (queue : Nat) (s : State) : KeptR km_execQueuePost s (execQueuePost queue s) := by
  unfold execQueuePost
  repeat' (first
    | with_reducible assumption
    | decide +kernel
    | with_reducible exact Kept.refl ..
    | (with_reducible apply KeptR.ite <;> intro _)
    | (with_reducible apply Kept.ite <;> intro _)
    | with_reducible refine KeptR.next ?_
    | with_reducible exact KeptR.fault
    | with_reducible apply Kept.step (State.reach_kept _ _)
    | with_reducible apply Kept.step (State.enqueue_kept _ _ _ _)
    | with_reducible apply Kept.step (State.putQueue_kept _ _ _)
    | (extract_lets +onlyGivenNames x; refine cutK (m := km_execQueuePost) (s := s) (x := x) ?_ ?_; on_goal 1 => (try unfold x); on_goal 2 => (intro hx; clear_value x))
    | (extract_lets +onlyGivenNames x; refine cutK (m := km_execQueuePost) (s := s) (x := x.2) ?_ ?_; on_goal 1 => (try unfold x); on_goal 2 => (intro hx; clear_value x))
    | extract_lets +onlyGivenNames x
    | split
    | refine Kept.of_snd ‹_› ?_
    | dsimp +zetaDelta only [id_eq])

def km_flushQueue : Nat := km_setQueue ||| km_rqpCount ||| km_incomplete

theorem State.flushQueue_kept (s : State) (site : Nat) : Kept km_flushQueue s (State.flushQueue s site) := by
  unfold State.flushQueue
  repeat' (first
    | with_reducible assumption
    | decide +kernel
    | with_reducible exact Kept.refl ..
    | (with_reducible apply Kept.ite <;> intro _)
    | with_reducible apply Kept.step (State.setQueue_kept _ _ _)
    | with_reducible apply Kept.step (State.rqpCount_kept _ _ _)
    | with_reducible apply Kept.step (State.incomplete_kept _ _ _)
    | with_reducible apply Kept.foldl
    | with_reducible refine fun (x : State) a hx => ?_
    | (extract_lets +onlyGivenNames x; refine cutK (m := km_flushQueue) (s := s) (x := x) ?_ ?_; on_goal 1 => (try unfold x); on_goal 2 => (intro hx; clear_value x))
    | extract_lets +onlyGivenNames x
    | split
    | refine Kept.of_snd ‹_› ?_
    | dsimp +zetaDelta only [id_eq])

def km_releaseQueues : Nat := ob Obj.rqpNeedleQueue ||| ob Obj.rqpPoolStatus ||| ob Obj.rqpSiteQueue ||| pt.queues ||| pt.ready ||| km_rqpCount ||| km_incomplete ||| km_poolNote

theorem State.releaseQueues_kept (s : State) : Kept km_releaseQueues s (State.releaseQueues s) := by
  unfold State.releaseQueues
  repeat' (first
    | with_reducible assumption
    | decide +kernel
    | with_reducible exact Kept.refl ..
    | (with_reducible apply Kept.ite <;> intro _)
    | with_reducible apply Kept.step (State.setFld_kept _ _ _ _ _)
    | with_reducible apply Kept.step (State.wrAll_kept _ _ _ _)
    | with_reducible apply Kept.step (State.rqpCount_kept _ _ _)
    | with_reducible apply Kept.step (State.incomplete_kept _ _ _)
    | with_reducible apply Kept.step (State.poolNote_kept _)
    | with_reducible apply Kept.foldl
    | with_reducible refine fun (x : State) a hx => ?_
    | (extract_lets +onlyGivenNames x; refine cutK (m := km_releaseQueues) (s := s) (x := x) ?_ ?_; on_goal 1 => (try unfold x); on_goal 2 => (intro hx; clear_value x))
    | extract_lets +onlyGivenNames x
    | split
    | refine Kept.of_snd ‹_› ?_
    | dsimp +zetaDelta only [id_eq]
    | with_reducible apply Kept.set_queues_ready)

end Sys2Proof.Machine
end

