-- ==== Sys2Proof/Laws/KeptAcquire.lean ====
section
/-! SUPPORT. For every operation of Machine/Acquire.lean the parts of the state that it may change. -/
set_option linter.unusedTactic false
set_option linter.unreachableTactic false
set_option linter.unusedVariables false
set_option linter.tactic.unusedName false
set_option Elab.async false
namespace Sys2Proof.Machine

def km_setUnit : Nat := pt.tae

theorem State.setUnit_kept (s : State) (u : Nat) (x : TaeRt) : Kept km_setUnit s (State.setUnit s u x) := by
  unfold State.setUnit
  repeat' (first
    | with_reducible assumption
    | decide +kernel
    | with_reducible exact Kept.refl ..
    | (extract_lets +onlyGivenNames x; refine cutK (m := km_setUnit) (s := s) (x := x) ?_ ?_; on_goal 1 => (try unfold x); on_goal 2 => (intro hx; clear_value x))
    | extract_lets +onlyGivenNames x
    | split
    | refine Kept.of_snd ‹_› ?_
    | dsimp +zetaDelta only [id_eq]
    | with_reducible apply Kept.set_tae)

def km_taeCount : Nat := ob Obj.taeCounts

theorem State.taeCount_kept (s : State) (u : Nat) (i : Nat) : Kept km_taeCount s (State.taeCount s u i) := by
  unfold State.taeCount
  repeat' (first
    | with_reducible assumption
    | decide +kernel
    | with_reducible exact Kept.refl ..
    | with_reducible apply Kept.step (State.count_kept _ _ _ _ _ _)
    | (extract_lets +onlyGivenNames x; refine cutK (m := km_taeCount) (s := s) (x := x) ?_ ?_; on_goal 1 => (try unfold x); on_goal 2 => (intro hx; clear_value x))
    | extract_lets +onlyGivenNames x
    | split
    | refine Kept.of_snd ‹_› ?_)

def km_rearmFrom : Nat := ob Obj.taeState ||| km_setUnit

theorem State.rearmFrom_kept (s : State) (u : Nat) (t : Nat) : Kept km_rearmFrom s (State.rearmFrom s u t) := by
  unfold State.rearmFrom
  repeat' (first
    | with_reducible assumption
    | decide +kernel
    | with_reducible exact Kept.refl ..
    | (with_reducible apply Kept.ite <;> intro _)
    | with_reducible apply Kept.step (State.wr_kept _ _ _ _)
    | with_reducible apply Kept.step (State.setUnit_kept _ _ _)
    | (extract_lets +onlyGivenNames x; refine cutK (m := km_rearmFrom) (s := s) (x := x) ?_ ?_; on_goal 1 => (try unfold x); on_goal 2 => (intro hx; clear_value x))
    | extract_lets +onlyGivenNames x
    | split
    | refine Kept.of_snd ‹_› ?_
    | dsimp +zetaDelta only [id_eq])

def km_disarmUnit : Nat := ob Obj.taeState ||| km_taeCount ||| km_setUnit

theorem State.disarmUnit_kept (s : State) (u : Nat) : Kept km_disarmUnit s (State.disarmUnit s u) := by
  unfold State.disarmUnit
  repeat' (first
    | with_reducible assumption
    | decide +kernel
    | with_reducible exact Kept.refl ..
    | (with_reducible apply Kept.ite <;> intro _)
    | with_reducible apply Kept.step (State.wr_kept _ _ _ _)
    | with_reducible apply Kept.step (State.taeCount_kept _ _ _)
    | with_reducible apply Kept.step (State.setUnit_kept _ _ _)
    | (extract_lets +onlyGivenNames x; refine cutK (m := km_disarmUnit) (s := s) (x := x) ?_ ?_; on_goal 1 => (try unfold x); on_goal 2 => (intro hx; clear_value x))
    | extract_lets +onlyGivenNames x
    | split
    | refine Kept.of_snd ‹_› ?_)

def km_taeArm : Nat := km_disarmUnit ||| km_setUnit ||| km_rearmFrom

theorem State.taeArm_kept (s : State) (u : Nat) (v : Nat) : Kept km_taeArm s (State.taeArm s u v) := by
  unfold State.taeArm
  repeat' (first
    | with_reducible assumption
    | decide +kernel
    | with_reducible exact Kept.refl ..
    | (with_reducible apply Kept.ite <;> intro _)
    | with_reducible apply Kept.step (State.disarmUnit_kept _ _)
    | with_reducible apply Kept.step (State.setUnit_kept _ _ _)
    | with_reducible apply Kept.step (State.rearmFrom_kept _ _ _)
    | (extract_lets +onlyGivenNames x; refine cutK (m := km_taeArm) (s := s) (x := x) ?_ ?_; on_goal 1 => (try unfold x); on_goal 2 => (intro hx; clear_value x))
    | extract_lets +onlyGivenNames x
    | split
    | refine Kept.of_snd ‹_› ?_)

def km_execRearmEnd : Nat := ob Obj.taeState ||| km_reach ||| km_setUnit

theorem execRearmEnd_kept (unit : Nat) (s : State) : KeptR km_execRearmEnd s (execRearmEnd unit s) := by
  unfold execRearmEnd
  repeat' (first
    | with_reducible assumption
    | decide +kernel
    | with_reducible exact Kept.refl ..
    | with_reducible refine KeptR.next ?_
    | with_reducible exact KeptR.fault
    | with_reducible apply Kept.step (State.wr_kept _ _ _ _)
    | with_reducible apply Kept.step (State.reach_kept _ _)
    | with_reducible apply Kept.step (State.setUnit_kept _ _ _)
    | (extract_lets +onlyGivenNames x; refine cutK (m := km_execRearmEnd) (s := s) (x := x) ?_ ?_; on_goal 1 => (try unfold x); on_goal 2 => (intro hx; clear_value x))
    | extract_lets +onlyGivenNames x
    | split
    | refine Kept.of_snd ‹_› ?_)

def km_taeEvent : Nat := km_setUnit

theorem State.taeEvent_kept (s : State) (u : Nat) (edge : Nat) (t : Nat) (src : Nat) : Kept km_taeEvent s (State.taeEvent s u edge t src) := by
  unfold State.taeEvent
  repeat' (first
    | with_reducible assumption
    | decide +kernel
    | with_reducible exact Kept.refl ..
    | with_reducible apply Kept.step (State.setUnit_kept _ _ _)
    | (extract_lets +onlyGivenNames x; refine cutK (m := km_taeEvent) (s := s) (x := x) ?_ ?_; on_goal 1 => (try unfold x); on_goal 2 => (intro hx; clear_value x))
    | extract_lets +onlyGivenNames x
    | split
    | refine Kept.of_snd ‹_› ?_)

def km_taeChart : Nat := km_taeEvent

theorem State.taeChart_kept (s : State) (units : Nat) (e : Nat) : Kept km_taeChart s (State.taeChart s units e) := by
  unfold State.taeChart
  repeat' (first
    | with_reducible assumption
    | decide +kernel
    | with_reducible exact Kept.refl ..
    | with_reducible apply Kept.step (State.taeEvent_kept _ _ _ _ _)
    | with_reducible apply Kept.foldl
    | with_reducible refine fun (x : State) a hx => ?_
    | (extract_lets +onlyGivenNames x; refine cutK (m := km_taeChart) (s := s) (x := x) ?_ ?_; on_goal 1 => (try unfold x); on_goal 2 => (intro hx; clear_value x))
    | extract_lets +onlyGivenNames x
    | split
    | refine Kept.of_snd ‹_› ?_
    | dsimp +zetaDelta only [id_eq])

def km_taeFail : Nat := km_taeEvent

theorem State.taeFail_kept (s : State) (pin : Nat) (e : Nat) (t : Nat) : Kept km_taeFail s (State.taeFail s pin e t) := by
  unfold State.taeFail
  repeat' (first
    | with_reducible assumption
    | decide +kernel
    | with_reducible exact Kept.refl ..
    | with_reducible apply Kept.step (State.taeEvent_kept _ _ _ _ _)
    | with_reducible apply Kept.foldl
    | with_reducible refine fun (x : State) a hx => ?_
    | (extract_lets +onlyGivenNames x; refine cutK (m := km_taeFail) (s := s) (x := x) ?_ ?_; on_goal 1 => (try unfold x); on_goal 2 => (intro hx; clear_value x))
    | extract_lets +onlyGivenNames x
    | split
    | refine Kept.of_snd ‹_› ?_
    | dsimp +zetaDelta only [id_eq])

def km_taeTrigin : Nat := km_taeEvent

theorem State.taeTrigin_kept (s : State) (k : Nat) (e : Nat) (t : Nat) (falling : Bool) : Kept km_taeTrigin s (State.taeTrigin s k e t falling) := by
  unfold State.taeTrigin
  repeat' (first
    | with_reducible assumption
    | decide +kernel
    | with_reducible exact Kept.refl ..
    | (with_reducible apply Kept.ite <;> intro _)
    | with_reducible apply Kept.step (State.taeEvent_kept _ _ _ _ _)
    | with_reducible apply Kept.foldl
    | with_reducible refine fun (x : State) a hx => ?_
    | (extract_lets +onlyGivenNames x; refine cutK (m := km_taeTrigin) (s := s) (x := x) ?_ ?_; on_goal 1 => (try unfold x); on_goal 2 => (intro hx; clear_value x))
    | extract_lets +onlyGivenNames x
    | split
    | refine Kept.of_snd ‹_› ?_
    | dsimp +zetaDelta only [id_eq])

def km_taeCascade : Nat := km_taeEvent

theorem State.taeCascade_kept (s : State) (port : Nat) (byte : Nat) (edge : Nat) : Kept km_taeCascade s (State.taeCascade s port byte edge) := by
  unfold State.taeCascade
  repeat' (first
    | with_reducible assumption
    | decide +kernel
    | with_reducible exact Kept.refl ..
    | with_reducible apply Kept.step (State.taeEvent_kept _ _ _ _ _)
    | with_reducible apply Kept.foldl
    | with_reducible refine fun (x : State) a hx => ?_
    | (extract_lets +onlyGivenNames x; refine cutK (m := km_taeCascade) (s := s) (x := x) ?_ ?_; on_goal 1 => (try unfold x); on_goal 2 => (intro hx; clear_value x))
    | extract_lets +onlyGivenNames x
    | split
    | refine Kept.of_snd ‹_› ?_
    | dsimp +zetaDelta only [id_eq])

def km_taeForce : Nat := km_taeEvent

theorem State.taeForce_kept (s : State) (u : Nat) : Kept km_taeForce s (State.taeForce s u) := by
  unfold State.taeForce
  repeat' (first
    | with_reducible assumption
    | decide +kernel
    | with_reducible exact Kept.refl ..
    | with_reducible apply Kept.step (State.taeEvent_kept _ _ _ _ _)
    | (extract_lets +onlyGivenNames x; refine cutK (m := km_taeForce) (s := s) (x := x) ?_ ?_; on_goal 1 => (try unfold x); on_goal 2 => (intro hx; clear_value x))
    | extract_lets +onlyGivenNames x
    | split
    | refine Kept.of_snd ‹_› ?_)

def km_taeTurned : Nat := km_taeCount ||| km_setUnit ||| km_latch

theorem State.taeTurned_kept (s : State) (u : Nat) : Kept km_taeTurned s (State.taeTurned s u) := by
  unfold State.taeTurned
  repeat' (first
    | with_reducible assumption
    | decide +kernel
    | with_reducible exact Kept.refl ..
    | (with_reducible apply Kept.ite <;> intro _)
    | with_reducible apply Kept.step (State.taeCount_kept _ _ _)
    | with_reducible apply Kept.step (State.setUnit_kept _ _ _)
    | with_reducible apply Kept.step (State.latch_kept _ _)
    | (extract_lets +onlyGivenNames x; refine cutK (m := km_taeTurned) (s := s) (x := x) ?_ ?_; on_goal 1 => (try unfold x); on_goal 2 => (intro hx; clear_value x))
    | extract_lets +onlyGivenNames x
    | split
    | refine Kept.of_snd ‹_› ?_)

def km_taeStamp : Nat := ob Obj.taeState ||| km_taeCount ||| km_setUnit ||| km_taeTurned

theorem State.taeStamp_kept (s : State) (u : Nat) (l : List Trig) : Kept km_taeStamp s (State.taeStamp s u l) := by
  unfold State.taeStamp
  repeat' (first
    | with_reducible assumption
    | decide +kernel
    | with_reducible exact Kept.refl ..
    | (with_reducible apply Kept.ite <;> intro _)
    | with_reducible apply Kept.step (State.wr_kept _ _ _ _)
    | with_reducible apply Kept.step (State.taeCount_kept _ _ _)
    | with_reducible apply Kept.step (State.setUnit_kept _ _ _)
    | with_reducible apply Kept.step (State.taeTurned_kept _ _)
    | with_reducible apply Kept.foldl
    | with_reducible refine fun (x : State) a hx => ?_
    | (extract_lets +onlyGivenNames x; refine cutK (m := km_taeStamp) (s := s) (x := x) ?_ ?_; on_goal 1 => (try unfold x); on_goal 2 => (intro hx; clear_value x))
    | extract_lets +onlyGivenNames x
    | split
    | refine Kept.of_snd ‹_› ?_
    | dsimp +zetaDelta only [id_eq])

def km_taeArrive : Nat := km_reach ||| km_setUnit ||| km_taeStamp

theorem State.taeArrive_kept (s : State) (u : Nat) (edge : Nat) : Kept km_taeArrive s (State.taeArrive s u edge) := by
  unfold State.taeArrive
  repeat' (first
    | with_reducible assumption
    | decide +kernel
    | with_reducible exact Kept.refl ..
    | (with_reducible apply Kept.ite <;> intro _)
    | with_reducible apply Kept.step (State.reach_kept _ _)
    | with_reducible apply Kept.step (State.setUnit_kept _ _ _)
    | with_reducible apply Kept.step (State.taeStamp_kept _ _ _)
    | (extract_lets +onlyGivenNames x; refine cutK (m := km_taeArrive) (s := s) (x := x) ?_ ?_; on_goal 1 => (try unfold x); on_goal 2 => (intro hx; clear_value x))
    | extract_lets +onlyGivenNames x
    | split
    | refine Kept.of_snd ‹_› ?_
    | dsimp +zetaDelta only [id_eq])

def km_execTriggerStamp : Nat := km_taeArrive

theorem execTriggerStamp_kept (unit : Nat) (s : State) : KeptR km_execTriggerStamp s (execTriggerStamp unit s) := by
  unfold execTriggerStamp
  repeat' (first
    | with_reducible assumption
    | decide +kernel
    | with_reducible exact Kept.refl ..
    | with_reducible refine KeptR.next ?_
    | with_reducible exact KeptR.fault
    | with_reducible apply Kept.step (State.taeArrive_kept _ _ _)
    | with_reducible apply Kept.foldl
    | with_reducible refine fun (x : State) a hx => ?_
    | (extract_lets +onlyGivenNames x; refine cutK (m := km_execTriggerStamp) (s := s) (x := x) ?_ ?_; on_goal 1 => (try unfold x); on_goal 2 => (intro hx; clear_value x))
    | extract_lets +onlyGivenNames x
    | split
    | refine Kept.of_snd ‹_› ?_
    | dsimp +zetaDelta only [id_eq])

def km_execTaeTimeout : Nat := km_taeArrive

theorem execTaeTimeout_kept (unit : Nat) (s : State) : KeptR km_execTaeTimeout s (execTaeTimeout unit s) := by
  unfold execTaeTimeout
  repeat' (first
    | with_reducible assumption
    | decide +kernel
    | with_reducible exact Kept.refl ..
    | with_reducible refine KeptR.next ?_
    | with_reducible exact KeptR.fault
    | with_reducible apply Kept.step (State.taeArrive_kept _ _ _)
    | (extract_lets +onlyGivenNames x; refine cutK (m := km_execTaeTimeout) (s := s) (x := x) ?_ ?_; on_goal 1 => (try unfold x); on_goal 2 => (intro hx; clear_value x))
    | extract_lets +onlyGivenNames x
    | split
    | refine Kept.of_snd ‹_› ?_)

def km_taeHold : Nat := km_setUnit

theorem State.taeHold_kept (s : State) (t : Nat) : Kept km_taeHold s (State.taeHold s t) := by
  unfold State.taeHold
  repeat' (first
    | with_reducible assumption
    | decide +kernel
    | with_reducible exact Kept.refl ..
    | (with_reducible apply Kept.ite <;> intro _)
    | with_reducible apply Kept.step (State.setUnit_kept _ _ _)
    | with_reducible apply Kept.foldl
    | with_reducible refine fun (x : State) a hx => ?_
    | (extract_lets +onlyGivenNames x; refine cutK (m := km_taeHold) (s := s) (x := x) ?_ ?_; on_goal 1 => (try unfold x); on_goal 2 => (intro hx; clear_value x))
    | extract_lets +onlyGivenNames x
    | split
    | refine Kept.of_snd ‹_› ?_
    | dsimp +zetaDelta only [id_eq])

def km_taeResume : Nat := km_setUnit

theorem State.taeResume_kept (s : State) (t : Nat) : Kept km_taeResume s (State.taeResume s t) := by
  unfold State.taeResume
  repeat' (first
    | with_reducible assumption
    | decide +kernel
    | with_reducible exact Kept.refl ..
    | with_reducible apply Kept.step (State.setUnit_kept _ _ _)
    | with_reducible apply Kept.foldl
    | with_reducible refine fun (x : State) a hx => ?_
    | (extract_lets +onlyGivenNames x; refine cutK (m := km_taeResume) (s := s) (x := x) ?_ ?_; on_goal 1 => (try unfold x); on_goal 2 => (intro hx; clear_value x))
    | extract_lets +onlyGivenNames x
    | split
    | refine Kept.of_snd ‹_› ?_
    | dsimp +zetaDelta only [id_eq])

def km_taeStop : Nat := km_disarmUnit

theorem State.taeStop_kept (s : State) : Kept km_taeStop s (State.taeStop s) := by
  unfold State.taeStop
  repeat' (first
    | with_reducible assumption
    | decide +kernel
    | with_reducible exact Kept.refl ..
    | with_reducible apply Kept.step (State.disarmUnit_kept _ _)
    | with_reducible apply Kept.foldl
    | with_reducible refine fun (x : State) a hx => ?_
    | (extract_lets +onlyGivenNames x; refine cutK (m := km_taeStop) (s := s) (x := x) ?_ ?_; on_goal 1 => (try unfold x); on_goal 2 => (intro hx; clear_value x))
    | extract_lets +onlyGivenNames x
    | split
    | refine Kept.of_snd ‹_› ?_
    | dsimp +zetaDelta only [id_eq])

def km_taeRelease : Nat := km_setUnit ||| km_setImg ||| km_taeStop

theorem State.taeRelease_kept (s : State) : Kept km_taeRelease s (State.taeRelease s) := by
  unfold State.taeRelease
  repeat' (first
    | with_reducible assumption
    | decide +kernel
    | with_reducible exact Kept.refl ..
    | with_reducible apply Kept.step (State.setUnit_kept _ _ _)
    | with_reducible apply Kept.step (State.setImg_kept _ _ _ _)
    | with_reducible apply Kept.step (State.taeStop_kept _)
    | with_reducible apply Kept.foldl
    | with_reducible refine fun (x : State) a hx => ?_
    | (extract_lets +onlyGivenNames x; refine cutK (m := km_taeRelease) (s := s) (x := x) ?_ ?_; on_goal 1 => (try unfold x); on_goal 2 => (intro hx; clear_value x))
    | extract_lets +onlyGivenNames x
    | split
    | refine Kept.of_snd ‹_› ?_
    | dsimp +zetaDelta only [id_eq])

end Sys2Proof.Machine
end

