-- ==== Sys2Proof/Laws/KeptCascade.lean ====
section
/-! SUPPORT. For every operation of Machine/Cascade.lean the parts of the state that it may change. -/
set_option linter.unusedTactic false
set_option linter.unreachableTactic false
set_option linter.unusedVariables false
set_option linter.tactic.unusedName false
set_option Elab.async false
namespace Sys2Proof.Machine

def km_setCport : Nat := pt.csl

theorem State.setCport_kept (s : State) (p : Nat) (x : CslRt) : Kept km_setCport s (State.setCport s p x) := by
  unfold State.setCport
  repeat' (first
    | with_reducible assumption
    | decide +kernel
    | with_reducible exact Kept.refl ..
    | (extract_lets +onlyGivenNames x; refine cutK (m := km_setCport) (s := s) (x := x) ?_ ?_; on_goal 1 => (try unfold x); on_goal 2 => (intro hx; clear_value x))
    | extract_lets +onlyGivenNames x
    | split
    | refine Kept.of_snd ‹_› ?_
    | dsimp +zetaDelta only [id_eq]
    | with_reducible apply Kept.set_csl)

def km_setCslState : Nat := ob Obj.cslPortStatus

theorem State.setCslState_kept (s : State) (p : Nat) (v : Nat) : Kept km_setCslState s (State.setCslState s p v) := by
  unfold State.setCslState
  repeat' (first
    | with_reducible assumption
    | decide +kernel
    | with_reducible exact Kept.refl ..
    | with_reducible apply Kept.step (State.setFld_kept _ _ _ _ _)
    | (extract_lets +onlyGivenNames x; refine cutK (m := km_setCslState) (s := s) (x := x) ?_ ?_; on_goal 1 => (try unfold x); on_goal 2 => (intro hx; clear_value x))
    | extract_lets +onlyGivenNames x
    | split
    | refine Kept.of_snd ‹_› ?_)

def km_cslCount : Nat := ob Obj.cslCounts

theorem State.cslCount_kept (s : State) (p : Nat) (i : Nat) : Kept km_cslCount s (State.cslCount s p i) := by
  unfold State.cslCount
  repeat' (first
    | with_reducible assumption
    | decide +kernel
    | with_reducible exact Kept.refl ..
    | with_reducible apply Kept.step (State.count_kept _ _ _ _ _ _)
    | (extract_lets +onlyGivenNames x; refine cutK (m := km_cslCount) (s := s) (x := x) ?_ ?_; on_goal 1 => (try unfold x); on_goal 2 => (intro hx; clear_value x))
    | extract_lets +onlyGivenNames x
    | split
    | refine Kept.of_snd ‹_› ?_)

def km_signal : Nat := km_setCport ||| km_cslCount

theorem State.signal_kept (s : State) (byte : Nat) (ports : Nat) (e : Nat) : Kept km_signal s (State.signal s byte ports e) := by
  unfold State.signal
  repeat' (first
    | with_reducible assumption
    | decide +kernel
    | with_reducible exact Kept.refl ..
    | (with_reducible apply Kept.ite <;> intro _)
    | with_reducible apply Kept.step (State.setCport_kept _ _ _)
    | with_reducible apply Kept.step (State.cslCount_kept _ _ _)
    | with_reducible apply Kept.foldl
    | with_reducible refine fun (x : State) a hx => ?_
    | (extract_lets +onlyGivenNames x; refine cutK (m := km_signal) (s := s) (x := x) ?_ ?_; on_goal 1 => (try unfold x); on_goal 2 => (intro hx; clear_value x))
    | extract_lets +onlyGivenNames x
    | split
    | refine Kept.of_snd ‹_› ?_
    | dsimp +zetaDelta only [id_eq])

def km_execEventSend : Nat := km_reach ||| km_setCport ||| km_emit ||| km_cslCount

theorem execEventSend_kept (port : Nat) (s : State) : KeptR km_execEventSend s (execEventSend port s) := by
  unfold execEventSend
  repeat' (first
    | with_reducible assumption
    | decide +kernel
    | with_reducible exact Kept.refl ..
    | with_reducible refine KeptR.next ?_
    | with_reducible exact KeptR.fault
    | with_reducible apply Kept.step (State.reach_kept _ _)
    | with_reducible apply Kept.step (State.setCport_kept _ _ _)
    | with_reducible apply Kept.step (State.emit_kept _ _)
    | with_reducible apply Kept.step (State.cslCount_kept _ _ _)
    | (extract_lets +onlyGivenNames x; refine cutK (m := km_execEventSend) (s := s) (x := x) ?_ ?_; on_goal 1 => (try unfold x); on_goal 2 => (intro hx; clear_value x))
    | extract_lets +onlyGivenNames x
    | split
    | refine Kept.of_snd ‹_› ?_)

def km_execEventReceive : Nat := km_cslCount ||| km_setCport

theorem execEventReceive_kept (port : Nat) (lanes : Lanes) (sentAt : Nat) (s : State) : KeptR km_execEventReceive s (execEventReceive port lanes sentAt s) := by
  unfold execEventReceive
  repeat' (first
    | with_reducible assumption
    | decide +kernel
    | with_reducible exact Kept.refl ..
    | (with_reducible apply KeptR.ite <;> intro _)
    | (with_reducible apply Kept.ite <;> intro _)
    | with_reducible refine KeptR.next ?_
    | with_reducible exact KeptR.fault
    | with_reducible apply Kept.step (State.cslCount_kept _ _ _)
    | with_reducible apply Kept.step (State.setCport_kept _ _ _)
    | (extract_lets +onlyGivenNames x; refine cutK (m := km_execEventReceive) (s := s) (x := x) ?_ ?_; on_goal 1 => (try unfold x); on_goal 2 => (intro hx; clear_value x))
    | extract_lets +onlyGivenNames x
    | split
    | refine Kept.of_snd ‹_› ?_
    | dsimp +zetaDelta only [id_eq])

def km_latchEvent : Nat := pt.evts ||| km_setNdl

theorem State.latchEvent_kept (s : State) (source : Nat) (select : Nat) (mask : Nat) (edge : Nat) : Kept km_latchEvent s (State.latchEvent s source select mask edge) := by
  unfold State.latchEvent
  repeat' (first
    | with_reducible assumption
    | decide +kernel
    | with_reducible exact Kept.refl ..
    | with_reducible apply Kept.step (State.setNdl_kept _ _ _)
    | with_reducible apply Kept.foldl
    | with_reducible refine fun (x : State) a hx => ?_
    | (extract_lets +onlyGivenNames x; refine cutK (m := km_latchEvent) (s := s) (x := x) ?_ ?_; on_goal 1 => (try unfold x); on_goal 2 => (intro hx; clear_value x))
    | extract_lets +onlyGivenNames x
    | split
    | refine Kept.of_snd ‹_› ?_
    | dsimp +zetaDelta only [id_eq]
    | with_reducible apply Kept.set_evts)

def km_execEventDelivery : Nat := km_reach ||| km_setCport ||| km_cslCount ||| km_latchEvent ||| km_taeCascade

theorem execEventDelivery_kept (port : Nat) (s : State) : KeptR km_execEventDelivery s (execEventDelivery port s) := by
  unfold execEventDelivery
  repeat' (first
    | with_reducible assumption
    | decide +kernel
    | with_reducible exact Kept.refl ..
    | with_reducible refine KeptR.next ?_
    | with_reducible exact KeptR.fault
    | with_reducible apply Kept.step (State.reach_kept _ _)
    | with_reducible apply Kept.step (State.setCport_kept _ _ _)
    | with_reducible apply Kept.step (State.cslCount_kept _ _ _)
    | with_reducible apply Kept.step (State.latchEvent_kept _ _ _ _ _)
    | with_reducible apply Kept.step (State.taeCascade_kept _ _ _ _)
    | (extract_lets +onlyGivenNames x; refine cutK (m := km_execEventDelivery) (s := s) (x := x) ?_ ?_; on_goal 1 => (try unfold x); on_goal 2 => (intro hx; clear_value x))
    | extract_lets +onlyGivenNames x
    | split
    | refine Kept.of_snd ‹_› ?_)

def km_execLatencyMarker : Nat := ob Obj.cslPortStatus ||| km_raiseAll ||| km_setCport

theorem execLatencyMarker_kept (port : Nat) (flight : Nat) (s : State) : KeptR km_execLatencyMarker s (execLatencyMarker port flight s) := by
  unfold execLatencyMarker
  repeat' (first
    | with_reducible assumption
    | decide +kernel
    | with_reducible exact Kept.refl ..
    | (with_reducible apply KeptR.ite <;> intro _)
    | (with_reducible apply Kept.ite <;> intro _)
    | with_reducible refine KeptR.next ?_
    | with_reducible exact KeptR.fault
    | with_reducible apply Kept.step (State.setFld_kept _ _ _ _ _)
    | with_reducible apply Kept.step (State.raiseAll_kept _ _ _)
    | with_reducible apply Kept.step (State.setCport_kept _ _ _)
    | (extract_lets +onlyGivenNames x; refine cutK (m := km_execLatencyMarker) (s := s) (x := x) ?_ ?_; on_goal 1 => (try unfold x); on_goal 2 => (intro hx; clear_value x))
    | extract_lets +onlyGivenNames x
    | split
    | refine Kept.of_snd ‹_› ?_
    | dsimp +zetaDelta only [id_eq])

def km_execCascadeFrame : Nat := km_cslCount ||| km_setCport

theorem execCascadeFrame_kept (port : Nat) (frame : Bytes) (aborted : Bool) (s : State) : KeptR km_execCascadeFrame s (execCascadeFrame port frame aborted s) := by
  unfold execCascadeFrame
  repeat' (first
    | with_reducible assumption
    | decide +kernel
    | with_reducible exact Kept.refl ..
    | (with_reducible apply KeptR.ite <;> intro _)
    | (with_reducible apply Kept.ite <;> intro _)
    | with_reducible refine KeptR.next ?_
    | with_reducible exact KeptR.fault
    | with_reducible apply Kept.step (State.cslCount_kept _ _ _)
    | with_reducible apply Kept.step (State.setCport_kept _ _ _)
    | (extract_lets +onlyGivenNames x; refine cutK (m := km_execCascadeFrame) (s := s) (x := x) ?_ ?_; on_goal 1 => (try unfold x); on_goal 2 => (intro hx; clear_value x))
    | extract_lets +onlyGivenNames x
    | split
    | refine Kept.of_snd ‹_› ?_)

def km_execCslLinkDown : Nat := ob Obj.cslLaneStatus ||| ob Obj.cslPortStatus ||| km_setCslState ||| km_setCport ||| km_cslCount ||| km_raiseAll

theorem execCslLinkDown_kept (port : Nat) (lane : Nat) (s : State) : KeptR km_execCslLinkDown s (execCslLinkDown port lane s) := by
  unfold execCslLinkDown
  repeat' (first
    | with_reducible assumption
    | decide +kernel
    | with_reducible exact Kept.refl ..
    | (with_reducible apply KeptR.ite <;> intro _)
    | (with_reducible apply Kept.ite <;> intro _)
    | with_reducible refine KeptR.next ?_
    | with_reducible exact KeptR.fault
    | with_reducible apply Kept.step (State.setFld_kept _ _ _ _ _)
    | with_reducible apply Kept.step (State.setCslState_kept _ _ _)
    | with_reducible apply Kept.step (State.setCport_kept _ _ _)
    | with_reducible apply Kept.step (State.cslCount_kept _ _ _)
    | with_reducible apply Kept.step (State.raiseAll_kept _ _ _)
    | (extract_lets +onlyGivenNames x; refine cutK (m := km_execCslLinkDown) (s := s) (x := x) ?_ ?_; on_goal 1 => (try unfold x); on_goal 2 => (intro hx; clear_value x))
    | extract_lets +onlyGivenNames x
    | split
    | refine Kept.of_snd ‹_› ?_
    | dsimp +zetaDelta only [id_eq])

def km_cslUp : Nat := km_setCslState ||| km_latch

theorem State.cslUp_kept (s : State) (port : Nat) : Kept km_cslUp s (State.cslUp s port) := by
  unfold State.cslUp
  repeat' (first
    | with_reducible assumption
    | decide +kernel
    | with_reducible exact Kept.refl ..
    | with_reducible apply Kept.step (State.setCslState_kept _ _ _)
    | with_reducible apply Kept.step (State.latch_kept _ _)
    | (extract_lets +onlyGivenNames x; refine cutK (m := km_cslUp) (s := s) (x := x) ?_ ?_; on_goal 1 => (try unfold x); on_goal 2 => (intro hx; clear_value x))
    | extract_lets +onlyGivenNames x
    | split
    | refine Kept.of_snd ‹_› ?_)

def km_align : Nat := km_setCport ||| km_setCslState ||| km_cslUp

theorem State.align_kept (s : State) (port : Nat) (v : Nat) : Kept km_align s (State.align s port v) := by
  unfold State.align
  repeat' (first
    | with_reducible assumption
    | decide +kernel
    | with_reducible exact Kept.refl ..
    | (with_reducible apply Kept.ite <;> intro _)
    | with_reducible apply Kept.step (State.setCport_kept _ _ _)
    | with_reducible apply Kept.step (State.setCslState_kept _ _ _)
    | with_reducible apply Kept.step (State.cslUp_kept _ _)
    | (extract_lets +onlyGivenNames x; refine cutK (m := km_align) (s := s) (x := x) ?_ ?_; on_goal 1 => (try unfold x); on_goal 2 => (intro hx; clear_value x))
    | extract_lets +onlyGivenNames x
    | split
    | refine Kept.of_snd ‹_› ?_)

def km_setLane : Nat := ob Obj.cslLaneCtrl ||| ob Obj.cslLaneStatus

theorem State.setLane_kept (s : State) (el : Nat) (f : Option (Nat × Nat × Nat)) : Kept km_setLane s (State.setLane s el f) := by
  unfold State.setLane
  repeat' (first
    | with_reducible assumption
    | decide +kernel
    | with_reducible exact Kept.refl ..
    | with_reducible apply Kept.step (State.wr_kept _ _ _ _)
    | with_reducible apply Kept.step (State.setFld_kept _ _ _ _ _)
    | (extract_lets +onlyGivenNames x; refine cutK (m := km_setLane) (s := s) (x := x) ?_ ?_; on_goal 1 => (try unfold x); on_goal 2 => (intro hx; clear_value x))
    | extract_lets +onlyGivenNames x
    | split
    | refine Kept.of_snd ‹_› ?_)

def km_execAlignmentComplete : Nat := km_setLane ||| km_cslUp ||| km_setCslState ||| km_raiseAll

theorem execAlignmentComplete_kept (port : Nat) (lanes : LaneFits) (s : State) : KeptR km_execAlignmentComplete s (execAlignmentComplete port lanes s) := by
  unfold execAlignmentComplete
  repeat' (first
    | with_reducible assumption
    | decide +kernel
    | with_reducible exact Kept.refl ..
    | (with_reducible apply KeptR.ite <;> intro _)
    | (with_reducible apply Kept.ite <;> intro _)
    | with_reducible refine KeptR.next ?_
    | with_reducible exact KeptR.fault
    | with_reducible apply Kept.step (State.setLane_kept _ _ _)
    | with_reducible apply Kept.step (State.cslUp_kept _ _)
    | with_reducible apply Kept.step (State.setCslState_kept _ _ _)
    | with_reducible apply Kept.step (State.raiseAll_kept _ _ _)
    | with_reducible apply Kept.foldl
    | with_reducible refine fun (x : State) a hx => ?_
    | (extract_lets +onlyGivenNames x; refine cutK (m := km_execAlignmentComplete) (s := s) (x := x) ?_ ?_; on_goal 1 => (try unfold x); on_goal 2 => (intro hx; clear_value x))
    | extract_lets +onlyGivenNames x
    | split
    | refine Kept.of_snd ‹_› ?_
    | dsimp +zetaDelta only [id_eq])

def km_laneTest : Nat := ob Obj.cslLaneStatus ||| km_setCport

theorem State.laneTest_kept (s : State) (el : Nat) : Kept km_laneTest s (State.laneTest s el) := by
  unfold State.laneTest
  repeat' (first
    | with_reducible assumption
    | decide +kernel
    | with_reducible exact Kept.refl ..
    | with_reducible apply Kept.step (State.setFld_kept _ _ _ _ _)
    | with_reducible apply Kept.step (State.setCport_kept _ _ _)
    | (extract_lets +onlyGivenNames x; refine cutK (m := km_laneTest) (s := s) (x := x) ?_ ?_; on_goal 1 => (try unfold x); on_goal 2 => (intro hx; clear_value x))
    | extract_lets +onlyGivenNames x
    | split
    | refine Kept.of_snd ‹_› ?_
    | dsimp +zetaDelta only [id_eq])

def km_execLaneTestDone : Nat := ob Obj.cslLaneStatus ||| km_reach ||| km_setCport

theorem execLaneTestDone_kept (el : Nat) (errors : Nat) (comma : Bool) (deskewed : Bool) (s : State) : KeptR km_execLaneTestDone s (execLaneTestDone el errors comma deskewed s) := by
  unfold execLaneTestDone
  repeat' (first
    | with_reducible assumption
    | decide +kernel
    | with_reducible exact Kept.refl ..
    | with_reducible refine KeptR.next ?_
    | with_reducible exact KeptR.fault
    | with_reducible apply Kept.step (State.setFld_kept _ _ _ _ _)
    | with_reducible apply Kept.step (State.count_kept _ _ _ _ _ _)
    | with_reducible apply Kept.step (State.reach_kept _ _)
    | with_reducible apply Kept.step (State.setCport_kept _ _ _)
    | (extract_lets +onlyGivenNames x; refine cutK (m := km_execLaneTestDone) (s := s) (x := x) ?_ ?_; on_goal 1 => (try unfold x); on_goal 2 => (intro hx; clear_value x))
    | extract_lets +onlyGivenNames x
    | split
    | refine Kept.of_snd ‹_› ?_
    | dsimp +zetaDelta only [id_eq])

def km_msgSend : Nat := km_setCport

theorem State.msgSend_kept (s : State) (port : Nat) (b : Bytes) : Kept km_msgSend s (State.msgSend s port b) := by
  unfold State.msgSend
  repeat' (first
    | with_reducible assumption
    | decide +kernel
    | with_reducible exact Kept.refl ..
    | with_reducible apply Kept.step (State.setCport_kept _ _ _)
    | (extract_lets +onlyGivenNames x; refine cutK (m := km_msgSend) (s := s) (x := x) ?_ ?_; on_goal 1 => (try unfold x); on_goal 2 => (intro hx; clear_value x))
    | extract_lets +onlyGivenNames x
    | split
    | refine Kept.of_snd ‹_› ?_)

def km_execCslFrameSent : Nat := km_setCport ||| km_emit

theorem execCslFrameSent_kept (port : Nat) (s : State) : KeptR km_execCslFrameSent s (execCslFrameSent port s) := by
  unfold execCslFrameSent
  repeat' (first
    | with_reducible assumption
    | decide +kernel
    | with_reducible exact Kept.refl ..
    | with_reducible refine KeptR.next ?_
    | with_reducible exact KeptR.fault
    | with_reducible apply Kept.step (State.setCport_kept _ _ _)
    | with_reducible apply Kept.step (State.emit_kept _ _)
    | (extract_lets +onlyGivenNames x; refine cutK (m := km_execCslFrameSent) (s := s) (x := x) ?_ ?_; on_goal 1 => (try unfold x); on_goal 2 => (intro hx; clear_value x))
    | extract_lets +onlyGivenNames x
    | split
    | refine Kept.of_snd ‹_› ?_)

def km_msgRecv : Nat := km_setCport

theorem State.msgRecv_kept (s : State) (port : Nat) : Kept km_msgRecv s (State.msgRecv s port).2 := by
  unfold State.msgRecv
  repeat' (first
    | with_reducible assumption
    | decide +kernel
    | with_reducible exact Kept.refl ..
    | with_reducible apply Kept.step (State.setCport_kept _ _ _)
    | (extract_lets +onlyGivenNames x; refine cutK (m := km_msgRecv) (s := s) (x := x) ?_ ?_; on_goal 1 => (try unfold x); on_goal 2 => (intro hx; clear_value x))
    | extract_lets +onlyGivenNames x
    | split
    | refine Kept.of_snd ‹_› ?_)

def km_cslOff : Nat := ob Obj.cslPortStatus ||| km_setCport

theorem State.cslOff_kept (s : State) : Kept km_cslOff s (State.cslOff s) := by
  unfold State.cslOff
  repeat' (first
    | with_reducible assumption
    | decide +kernel
    | with_reducible exact Kept.refl ..
    | with_reducible apply Kept.step (State.wr_kept _ _ _ _)
    | with_reducible apply Kept.step (State.setCport_kept _ _ _)
    | with_reducible apply Kept.foldl
    | with_reducible refine fun (x : State) a hx => ?_
    | (extract_lets +onlyGivenNames x; refine cutK (m := km_cslOff) (s := s) (x := x) ?_ ?_; on_goal 1 => (try unfold x); on_goal 2 => (intro hx; clear_value x))
    | extract_lets +onlyGivenNames x
    | split
    | refine Kept.of_snd ‹_› ?_
    | dsimp +zetaDelta only [id_eq])

def km_cslStart : Nat := km_align

theorem State.cslStart_kept (s : State) : Kept km_cslStart s (State.cslStart s) := by
  unfold State.cslStart
  repeat' (first
    | with_reducible assumption
    | decide +kernel
    | with_reducible exact Kept.refl ..
    | with_reducible apply Kept.step (State.align_kept _ _ _)
    | with_reducible apply Kept.foldl
    | with_reducible refine fun (x : State) a hx => ?_
    | (extract_lets +onlyGivenNames x; refine cutK (m := km_cslStart) (s := s) (x := x) ?_ ?_; on_goal 1 => (try unfold x); on_goal 2 => (intro hx; clear_value x))
    | extract_lets +onlyGivenNames x
    | split
    | refine Kept.of_snd ‹_› ?_
    | dsimp +zetaDelta only [id_eq])

end Sys2Proof.Machine
end

