-- ==== Sys2Proof/Laws/KeptWaves.lean ====
section
/-! SUPPORT. For every operation of Machine/Waves.lean the parts of the state that it may change. -/
set_option linter.unusedTactic false
set_option linter.unreachableTactic false
set_option linter.unusedVariables false
set_option linter.tactic.unusedName false
set_option Elab.async false
namespace Sys2Proof.Machine

def km_waveError : Nat := ob Obj.ptfWaveError

theorem State.waveError_kept (s : State) (el : Nat) (reason : Nat) (f : Nat × Nat × Nat × Nat) : Kept km_waveError s (State.waveError s el reason f) := by
  unfold State.waveError
  repeat' (first
    | with_reducible assumption
    | decide +kernel
    | with_reducible exact Kept.refl ..
    | with_reducible apply Kept.step (State.wr_kept _ _ _ _)
    | (extract_lets +onlyGivenNames x; refine cutK (m := km_waveError) (s := s) (x := x) ?_ ?_; on_goal 1 => (try unfold x); on_goal 2 => (intro hx; clear_value x))
    | extract_lets +onlyGivenNames x
    | split
    | refine Kept.of_snd ‹_› ?_)

def km_waveClear : Nat := ob Obj.ptfWaveInfo ||| ob Obj.ptfWaveState ||| km_setImg

theorem State.waveClear_kept (s : State) (el : Nat) (st : Nat) : Kept km_waveClear s (State.waveClear s el st) := by
  unfold State.waveClear
  repeat' (first
    | with_reducible assumption
    | decide +kernel
    | with_reducible exact Kept.refl ..
    | with_reducible apply Kept.step (State.wr_kept _ _ _ _)
    | with_reducible apply Kept.step (State.setImg_kept _ _ _ _)
    | (extract_lets +onlyGivenNames x; refine cutK (m := km_waveClear) (s := s) (x := x) ?_ ?_; on_goal 1 => (try unfold x); on_goal 2 => (intro hx; clear_value x))
    | extract_lets +onlyGivenNames x
    | split
    | refine Kept.of_snd ‹_› ?_)

def km_validateWave : Nat := ob Obj.ptfWaveInfo ||| ob Obj.ptfWaveState ||| km_setXfer ||| km_setImg ||| km_result ||| km_waveClear ||| km_waveError

theorem State.validateWave_kept (s : State) (el : Nat) : Kept km_validateWave s (State.validateWave s el) := by
  unfold State.validateWave
  repeat' (first
    | with_reducible assumption
    | decide +kernel
    | with_reducible exact Kept.refl ..
    | (with_reducible apply Kept.ite <;> intro _)
    | with_reducible apply Kept.step (State.wr_kept _ _ _ _)
    | with_reducible apply Kept.step (State.setXfer_kept _ _ _)
    | with_reducible apply Kept.step (State.setImg_kept _ _ _ _)
    | with_reducible apply Kept.step (State.result_kept _ _ _ _)
    | with_reducible apply Kept.step (State.waveClear_kept _ _ _)
    | with_reducible apply Kept.step (State.waveError_kept _ _ _ _)
    | (extract_lets +onlyGivenNames x; refine cutK (m := km_validateWave) (s := s) (x := x) ?_ ?_; on_goal 1 => (try unfold x); on_goal 2 => (intro hx; clear_value x))
    | extract_lets +onlyGivenNames x
    | split
    | refine Kept.of_snd ‹_› ?_
    | dsimp +zetaDelta only [id_eq])

def km_waveDelete : Nat := km_setXfer ||| km_result ||| km_waveClear

theorem State.waveDelete_kept (s : State) (el : Nat) : Kept km_waveDelete s (State.waveDelete s el) := by
  unfold State.waveDelete
  repeat' (first
    | with_reducible assumption
    | decide +kernel
    | with_reducible exact Kept.refl ..
    | (with_reducible apply Kept.ite <;> intro _)
    | with_reducible apply Kept.step (State.setXfer_kept _ _ _)
    | with_reducible apply Kept.step (State.result_kept _ _ _ _)
    | with_reducible apply Kept.step (State.waveClear_kept _ _ _)
    | (extract_lets +onlyGivenNames x; refine cutK (m := km_waveDelete) (s := s) (x := x) ?_ ?_; on_goal 1 => (try unfold x); on_goal 2 => (intro hx; clear_value x))
    | extract_lets +onlyGivenNames x
    | split
    | refine Kept.of_snd ‹_› ?_
    | dsimp +zetaDelta only [id_eq])

end Sys2Proof.Machine
end

