-- ==== Sys2Proof/Laws/KeptPins.lean ====
section
/-! SUPPORT. For every operation of Machine/Pins.lean the parts of the state that it may change. -/
set_option linter.unusedTactic false
set_option linter.unreachableTactic false
set_option linter.unusedVariables false
set_option linter.tactic.unusedName false
set_option Elab.async false
namespace Sys2Proof.Machine

def km_setPin : Nat := pt.pins

theorem State.setPin_kept (s : State) (p : Nat) (x : PinRt) : Kept km_setPin s (State.setPin s p x) := by
  unfold State.setPin
  repeat' (first
    | with_reducible assumption
    | decide +kernel
    | with_reducible exact Kept.refl ..
    | (extract_lets +onlyGivenNames x; refine cutK (m := km_setPin) (s := s) (x := x) ?_ ?_; on_goal 1 => (try unfold x); on_goal 2 => (intro hx; clear_value x))
    | extract_lets +onlyGivenNames x
    | split
    | refine Kept.of_snd ‹_› ?_
    | dsimp +zetaDelta only [id_eq]
    | with_reducible apply Kept.set_pins)

def km_collision : Nat := ob Obj.ptfCounts ||| km_setPin ||| km_latch

theorem State.collision_kept (s : State) (p : Nat) : Kept km_collision s (State.collision s p) := by
  unfold State.collision
  repeat' (first
    | with_reducible assumption
    | decide +kernel
    | with_reducible exact Kept.refl ..
    | (with_reducible apply Kept.ite <;> intro _)
    | with_reducible apply Kept.step (State.count_kept _ _ _ _ _ _)
    | with_reducible apply Kept.step (State.setPin_kept _ _ _)
    | with_reducible apply Kept.step (State.latch_kept _ _)
    | (extract_lets +onlyGivenNames x; refine cutK (m := km_collision) (s := s) (x := x) ?_ ?_; on_goal 1 => (try unfold x); on_goal 2 => (intro hx; clear_value x))
    | extract_lets +onlyGivenNames x
    | split
    | refine Kept.of_snd ‹_› ?_
    | dsimp +zetaDelta only [id_eq])

def km_drvEdge : Nat := km_setPin ||| km_setNdl ||| km_collision

theorem State.drvEdge_kept (s : State) (n : Nat) (p : Nat) (high : Bool) (t : Int) : Kept km_drvEdge s (State.drvEdge s n p high t) := by
  unfold State.drvEdge
  repeat' (first
    | with_reducible assumption
    | decide +kernel
    | with_reducible exact Kept.refl ..
    | (with_reducible apply Kept.ite <;> intro _)
    | with_reducible apply Kept.step (State.setPin_kept _ _ _)
    | with_reducible apply Kept.step (State.setNdl_kept _ _ _)
    | with_reducible apply Kept.step (State.collision_kept _ _)
    | (extract_lets +onlyGivenNames x; refine cutK (m := km_drvEdge) (s := s) (x := x) ?_ ?_; on_goal 1 => (try unfold x); on_goal 2 => (intro hx; clear_value x))
    | extract_lets +onlyGivenNames x
    | split
    | refine Kept.of_snd ‹_› ?_)

def km_denEdge : Nat := km_setPin ||| km_setNdl ||| km_collision

theorem State.denEdge_kept (s : State) (n : Nat) (p : Nat) (high : Bool) (t : Int) : Kept km_denEdge s (State.denEdge s n p high t) := by
  unfold State.denEdge
  repeat' (first
    | with_reducible assumption
    | decide +kernel
    | with_reducible exact Kept.refl ..
    | (with_reducible apply Kept.ite <;> intro _)
    | with_reducible apply Kept.step (State.setPin_kept _ _ _)
    | with_reducible apply Kept.step (State.setNdl_kept _ _ _)
    | with_reducible apply Kept.step (State.collision_kept _ _)
    | (extract_lets +onlyGivenNames x; refine cutK (m := km_denEdge) (s := s) (x := x) ?_ ?_; on_goal 1 => (try unfold x); on_goal 2 => (intro hx; clear_value x))
    | extract_lets +onlyGivenNames x
    | split
    | refine Kept.of_snd ‹_› ?_)

def km_driveEdge : Nat := km_drvEdge ||| km_setPin ||| km_denEdge

theorem State.driveEdge_kept (s : State) (n : Nat) (p : Nat) (start : Nat) (e : Nat × Nat × Nat) : Kept km_driveEdge s (State.driveEdge s n p start e) := by
  unfold State.driveEdge
  repeat' (first
    | with_reducible assumption
    | decide +kernel
    | with_reducible exact Kept.refl ..
    | (with_reducible apply Kept.ite <;> intro _)
    | with_reducible apply Kept.step (State.drvEdge_kept _ _ _ _ _)
    | with_reducible apply Kept.step (State.setPin_kept _ _ _)
    | with_reducible apply Kept.step (State.denEdge_kept _ _ _ _ _)
    | (extract_lets +onlyGivenNames x; refine cutK (m := km_driveEdge) (s := s) (x := x) ?_ ?_; on_goal 1 => (try unfold x); on_goal 2 => (intro hx; clear_value x))
    | extract_lets +onlyGivenNames x
    | split
    | refine Kept.of_snd ‹_› ?_)

def km_maskPin : Nat := km_setPin ||| km_denEdge

theorem State.maskPin_kept (s : State) (n : Nat) (p : Nat) (start : Nat) (m : Bool) : Kept km_maskPin s (State.maskPin s n p start m) := by
  unfold State.maskPin
  repeat' (first
    | with_reducible assumption
    | decide +kernel
    | with_reducible exact Kept.refl ..
    | (with_reducible apply Kept.ite <;> intro _)
    | with_reducible apply Kept.step (State.setPin_kept _ _ _)
    | with_reducible apply Kept.step (State.denEdge_kept _ _ _ _ _)
    | (extract_lets +onlyGivenNames x; refine cutK (m := km_maskPin) (s := s) (x := x) ?_ ?_; on_goal 1 => (try unfold x); on_goal 2 => (intro hx; clear_value x))
    | extract_lets +onlyGivenNames x
    | split
    | refine Kept.of_snd ‹_› ?_)

def km_pinStates : Nat := ob Obj.ptfPinState

theorem State.pinStates_kept (s : State) (ps : List Nat) (v : Nat) : Kept km_pinStates s (State.pinStates s ps v) := by
  unfold State.pinStates
  repeat' (first
    | with_reducible assumption
    | decide +kernel
    | with_reducible exact Kept.refl ..
    | with_reducible apply Kept.step (State.wrAll_kept _ _ _ _)
    | (extract_lets +onlyGivenNames x; refine cutK (m := km_pinStates) (s := s) (x := x) ?_ ?_; on_goal 1 => (try unfold x); on_goal 2 => (intro hx; clear_value x))
    | extract_lets +onlyGivenNames x
    | split
    | refine Kept.of_snd ‹_› ?_)

def km_passEdge : Nat := km_setPin ||| km_emit

theorem State.passEdge_kept (s : State) (p : Nat) (den : Bool) (high : Bool) (t : Nat) : Kept km_passEdge s (State.passEdge s p den high t) := by
  unfold State.passEdge
  repeat' (first
    | with_reducible assumption
    | decide +kernel
    | with_reducible exact Kept.refl ..
    | (with_reducible apply Kept.ite <;> intro _)
    | with_reducible apply Kept.step (State.setPin_kept _ _ _)
    | with_reducible apply Kept.step (State.emit_kept _ _)
    | (extract_lets +onlyGivenNames x; refine cutK (m := km_passEdge) (s := s) (x := x) ?_ ?_; on_goal 1 => (try unfold x); on_goal 2 => (intro hx; clear_value x))
    | extract_lets +onlyGivenNames x
    | split
    | refine Kept.of_snd ‹_› ?_)

def km_emitEdge : Nat := km_passEdge

theorem State.emitEdge_kept (s : State) (e : PinEdge) : Kept km_emitEdge s (State.emitEdge s e) := by
  unfold State.emitEdge
  repeat' (first
    | with_reducible assumption
    | decide +kernel
    | with_reducible exact Kept.refl ..
    | with_reducible apply Kept.step (State.passEdge_kept _ _ _ _ _)
    | (extract_lets +onlyGivenNames x; refine cutK (m := km_emitEdge) (s := s) (x := x) ?_ ?_; on_goal 1 => (try unfold x); on_goal 2 => (intro hx; clear_value x))
    | extract_lets +onlyGivenNames x
    | split
    | refine Kept.of_snd ‹_› ?_)

def km_pinCfg : Nat := ob Obj.ptfPinCfg ||| km_emit

theorem State.pinCfg_kept (s : State) (p : Nat) (v : Nat) : Kept km_pinCfg s (State.pinCfg s p v) := by
  unfold State.pinCfg
  repeat' (first
    | with_reducible assumption
    | decide +kernel
    | with_reducible exact Kept.refl ..
    | (with_reducible apply Kept.ite <;> intro _)
    | with_reducible apply Kept.step (State.wr_kept _ _ _ _)
    | with_reducible apply Kept.step (State.emit_kept _ _)
    | (extract_lets +onlyGivenNames x; refine cutK (m := km_pinCfg) (s := s) (x := x) ?_ ?_; on_goal 1 => (try unfold x); on_goal 2 => (intro hx; clear_value x))
    | extract_lets +onlyGivenNames x
    | split
    | refine Kept.of_snd ‹_› ?_
    | dsimp +zetaDelta only [id_eq])

def km_flushEdges : Nat := km_emitEdge ||| km_setNdl

theorem State.flushEdges_kept (s : State) (n : Nat) : Kept km_flushEdges s (State.flushEdges s n) := by
  unfold State.flushEdges
  repeat' (first
    | with_reducible assumption
    | decide +kernel
    | with_reducible exact Kept.refl ..
    | with_reducible apply Kept.step (State.emitEdge_kept _ _)
    | with_reducible apply Kept.step (State.setNdl_kept _ _ _)
    | with_reducible apply Kept.foldl
    | with_reducible refine fun (x : State) a hx => ?_
    | (extract_lets +onlyGivenNames x; refine cutK (m := km_flushEdges) (s := s) (x := x) ?_ ?_; on_goal 1 => (try unfold x); on_goal 2 => (intro hx; clear_value x))
    | extract_lets +onlyGivenNames x
    | split
    | refine Kept.of_snd ‹_› ?_
    | dsimp +zetaDelta only [id_eq])

def km_parkPin : Nat := ob Obj.ptfPinState ||| km_passEdge ||| km_draw ||| km_setPin

theorem State.parkPin_kept (s : State) (t : Nat) (p : Nat) : Kept km_parkPin s (State.parkPin s t p) := by
  unfold State.parkPin
  repeat' (first
    | with_reducible assumption
    | decide +kernel
    | with_reducible exact Kept.refl ..
    | (with_reducible apply Kept.ite <;> intro _)
    | with_reducible apply Kept.step (State.wr_kept _ _ _ _)
    | with_reducible apply Kept.step (State.passEdge_kept _ _ _ _ _)
    | with_reducible apply Kept.step (State.draw_kept _)
    | with_reducible apply Kept.step (State.setPin_kept _ _ _)
    | (extract_lets +onlyGivenNames x; refine cutK (m := km_parkPin) (s := s) (x := x) ?_ ?_; on_goal 1 => (try unfold x); on_goal 2 => (intro hx; clear_value x))
    | extract_lets +onlyGivenNames x
    | split
    | refine Kept.of_snd ‹_› ?_)

def km_parkNeedle : Nat := km_emitEdge ||| km_setNdl ||| km_parkPin

theorem State.parkNeedle_kept (s : State) (n : Nat) (t : Nat) : Kept km_parkNeedle s (State.parkNeedle s n t) := by
  unfold State.parkNeedle
  repeat' (first
    | with_reducible assumption
    | decide +kernel
    | with_reducible exact Kept.refl ..
    | with_reducible apply Kept.step (State.emitEdge_kept _ _)
    | with_reducible apply Kept.step (State.setNdl_kept _ _ _)
    | with_reducible apply Kept.step (State.parkPin_kept _ _ _)
    | with_reducible apply Kept.foldl
    | with_reducible refine fun (x : State) a hx => ?_
    | (extract_lets +onlyGivenNames x; refine cutK (m := km_parkNeedle) (s := s) (x := x) ?_ ?_; on_goal 1 => (try unfold x); on_goal 2 => (intro hx; clear_value x))
    | extract_lets +onlyGivenNames x
    | split
    | refine Kept.of_snd ‹_› ?_
    | dsimp +zetaDelta only [id_eq])

def km_execPinPark : Nat := km_reach ||| km_parkNeedle

theorem execPinPark_kept (needle : Nat) (s : State) : KeptR km_execPinPark s (execPinPark needle s) := by
  unfold execPinPark
  repeat' (first
    | with_reducible assumption
    | decide +kernel
    | with_reducible exact Kept.refl ..
    | with_reducible refine KeptR.next ?_
    | with_reducible exact KeptR.fault
    | with_reducible apply Kept.step (State.reach_kept _ _)
    | with_reducible apply Kept.step (State.parkNeedle_kept _ _ _)
    | (extract_lets +onlyGivenNames x; refine cutK (m := km_execPinPark) (s := s) (x := x) ?_ ?_; on_goal 1 => (try unfold x); on_goal 2 => (intro hx; clear_value x))
    | extract_lets +onlyGivenNames x
    | split
    | refine Kept.of_snd ‹_› ?_)

def km_measPin : Nat := km_passEdge ||| km_setPin

theorem State.measPin_kept (s : State) (a : Nat) (v : Nat) (p : Nat) : Kept km_measPin s (State.measPin s a v p) := by
  unfold State.measPin
  repeat' (first
    | with_reducible assumption
    | decide +kernel
    | with_reducible exact Kept.refl ..
    | (with_reducible apply Kept.ite <;> intro _)
    | with_reducible apply Kept.step (State.passEdge_kept _ _ _ _ _)
    | with_reducible apply Kept.step (State.setPin_kept _ _ _)
    | (extract_lets +onlyGivenNames x; refine cutK (m := km_measPin) (s := s) (x := x) ?_ ?_; on_goal 1 => (try unfold x); on_goal 2 => (intro hx; clear_value x))
    | extract_lets +onlyGivenNames x
    | split
    | refine Kept.of_snd ‹_› ?_
    | dsimp +zetaDelta only [id_eq])

def km_execMeasDriveApply : Nat := pt.staged ||| km_reach ||| km_measPin

theorem execMeasDriveApply_kept (s : State) : KeptR km_execMeasDriveApply s (execMeasDriveApply s) := by
  unfold execMeasDriveApply
  repeat' (first
    | with_reducible assumption
    | decide +kernel
    | with_reducible exact Kept.refl ..
    | (with_reducible apply KeptR.ite <;> intro _)
    | (with_reducible apply Kept.ite <;> intro _)
    | with_reducible refine KeptR.next ?_
    | with_reducible exact KeptR.fault
    | with_reducible apply Kept.step (State.reach_kept _ _)
    | with_reducible apply Kept.step (State.measPin_kept _ _ _ _)
    | with_reducible apply Kept.foldl
    | with_reducible refine fun (x : State) a hx => ?_
    | (extract_lets +onlyGivenNames x; refine cutK (m := km_execMeasDriveApply) (s := s) (x := x) ?_ ?_; on_goal 1 => (try unfold x); on_goal 2 => (intro hx; clear_value x))
    | extract_lets +onlyGivenNames x
    | split
    | refine Kept.of_snd ‹_› ?_
    | dsimp +zetaDelta only [id_eq]
    | with_reducible apply Kept.set_staged)

def km_parkRest : Nat := km_parkPin

theorem State.parkRest_kept (s : State) : Kept km_parkRest s (State.parkRest s) := by
  unfold State.parkRest
  repeat' (first
    | with_reducible assumption
    | decide +kernel
    | with_reducible exact Kept.refl ..
    | (with_reducible apply Kept.ite <;> intro _)
    | with_reducible apply Kept.step (State.parkPin_kept _ _ _)
    | with_reducible apply Kept.foldl
    | with_reducible refine fun (x : State) a hx => ?_
    | (extract_lets +onlyGivenNames x; refine cutK (m := km_parkRest) (s := s) (x := x) ?_ ?_; on_goal 1 => (try unfold x); on_goal 2 => (intro hx; clear_value x))
    | extract_lets +onlyGivenNames x
    | split
    | refine Kept.of_snd ‹_› ?_
    | dsimp +zetaDelta only [id_eq])

def km_leaveMeasure : Nat := ob Obj.ptfMeasDrive ||| pt.staged ||| km_parkRest

theorem State.leaveMeasure_kept (s : State) : Kept km_leaveMeasure s (State.leaveMeasure s) := by
  unfold State.leaveMeasure
  repeat' (first
    | with_reducible assumption
    | decide +kernel
    | with_reducible exact Kept.refl ..
    | with_reducible apply Kept.step (State.wrAll_kept _ _ _ _)
    | with_reducible apply Kept.step (State.parkRest_kept _)
    | (extract_lets +onlyGivenNames x; refine cutK (m := km_leaveMeasure) (s := s) (x := x) ?_ ?_; on_goal 1 => (try unfold x); on_goal 2 => (intro hx; clear_value x))
    | extract_lets +onlyGivenNames x
    | split
    | refine Kept.of_snd ‹_› ?_
    | dsimp +zetaDelta only [id_eq]
    | with_reducible apply Kept.set_staged)

def km_enterMeasure : Nat := ob Obj.ptfPinState

theorem State.enterMeasure_kept (s : State) : Kept km_enterMeasure s (State.enterMeasure s) := by
  unfold State.enterMeasure
  repeat' (first
    | with_reducible assumption
    | decide +kernel
    | with_reducible exact Kept.refl ..
    | (with_reducible apply Kept.ite <;> intro _)
    | with_reducible apply Kept.step (State.wr_kept _ _ _ _)
    | with_reducible apply Kept.foldl
    | with_reducible refine fun (x : State) a hx => ?_
    | (extract_lets +onlyGivenNames x; refine cutK (m := km_enterMeasure) (s := s) (x := x) ?_ ?_; on_goal 1 => (try unfold x); on_goal 2 => (intro hx; clear_value x))
    | extract_lets +onlyGivenNames x
    | split
    | refine Kept.of_snd ‹_› ?_
    | dsimp +zetaDelta only [id_eq])

def km_stage : Nat := pt.staged

theorem State.stage_kept (s : State) (o : Nat) (el : Nat) (els : Nat) (v : Nat) : Kept km_stage s (State.stage s o el els v) := by
  unfold State.stage
  repeat' (first
    | with_reducible assumption
    | decide +kernel
    | with_reducible exact Kept.refl ..
    | (extract_lets +onlyGivenNames x; refine cutK (m := km_stage) (s := s) (x := x) ?_ ?_; on_goal 1 => (try unfold x); on_goal 2 => (intro hx; clear_value x))
    | extract_lets +onlyGivenNames x
    | split
    | refine Kept.of_snd ‹_› ?_
    | with_reducible apply Kept.set_staged)

end Sys2Proof.Machine
end

