-- ==== Sys2Proof/Laws/KeptLevels.lean ====
section
/-! SUPPORT. For every operation of Machine/Levels.lean the parts of the state that it may change. -/
set_option linter.unusedTactic false
set_option linter.unreachableTactic false
set_option linter.unusedVariables false
set_option linter.tactic.unusedName false
set_option Elab.async false
namespace Sys2Proof.Machine

def km_setFrames : Nat := pt.levelBus

theorem State.setFrames_kept (s : State) (b : Nat) (l : List LevelFrame) : Kept km_setFrames s (State.setFrames s b l) := by
  unfold State.setFrames
  repeat' (first
    | with_reducible assumption
    | decide +kernel
    | with_reducible exact Kept.refl ..
    | (extract_lets +onlyGivenNames x; refine cutK (m := km_setFrames) (s := s) (x := x) ?_ ?_; on_goal 1 => (try unfold x); on_goal 2 => (intro hx; clear_value x))
    | extract_lets +onlyGivenNames x
    | split
    | refine Kept.of_snd ‹_› ?_
    | dsimp +zetaDelta only [id_eq]
    | with_reducible apply Kept.set_levelBus)

def km_levelBank : Nat := km_setFrames

theorem State.levelBank_kept (s : State) (n : Nat) (e : Nat) (b : Nat) (blk : Block) : Kept km_levelBank s (State.levelBank s n e b blk) := by
  unfold State.levelBank
  repeat' (first
    | with_reducible assumption
    | decide +kernel
    | with_reducible exact Kept.refl ..
    | with_reducible apply Kept.step (State.setFrames_kept _ _ _)
    | (extract_lets +onlyGivenNames x; refine cutK (m := km_levelBank) (s := s) (x := x) ?_ ?_; on_goal 1 => (try unfold x); on_goal 2 => (intro hx; clear_value x))
    | extract_lets +onlyGivenNames x
    | split
    | refine Kept.of_snd ‹_› ?_
    | dsimp +zetaDelta only [id_eq])

def km_levels : Nat := km_levelBank

theorem State.levels_kept (s : State) (n : Nat) (e : Nat) (blk : Block) : Kept km_levels s (State.levels s n e blk) := by
  unfold State.levels
  repeat' (first
    | with_reducible assumption
    | decide +kernel
    | with_reducible exact Kept.refl ..
    | with_reducible apply Kept.step (State.levelBank_kept _ _ _ _ _)
    | with_reducible apply Kept.foldl
    | with_reducible refine fun (x : State) a hx => ?_
    | (extract_lets +onlyGivenNames x; refine cutK (m := km_levels) (s := s) (x := x) ?_ ?_; on_goal 1 => (try unfold x); on_goal 2 => (intro hx; clear_value x))
    | extract_lets +onlyGivenNames x
    | split
    | refine Kept.of_snd ‹_› ?_
    | dsimp +zetaDelta only [id_eq])

def km_execLevelFrameStart : Nat := km_reach ||| km_setFrames ||| km_emit

theorem execLevelFrameStart_kept (bank : Nat) (s : State) : KeptR km_execLevelFrameStart s (execLevelFrameStart bank s) := by
  unfold execLevelFrameStart
  repeat' (first
    | with_reducible assumption
    | decide +kernel
    | with_reducible exact Kept.refl ..
    | (with_reducible apply KeptR.ite <;> intro _)
    | (with_reducible apply Kept.ite <;> intro _)
    | with_reducible refine KeptR.next ?_
    | with_reducible exact KeptR.fault
    | with_reducible apply Kept.step (State.reach_kept _ _)
    | with_reducible apply Kept.step (State.setFrames_kept _ _ _)
    | with_reducible apply Kept.step (State.emit_kept _ _)
    | (extract_lets +onlyGivenNames x; refine cutK (m := km_execLevelFrameStart) (s := s) (x := x) ?_ ?_; on_goal 1 => (try unfold x); on_goal 2 => (intro hx; clear_value x))
    | extract_lets +onlyGivenNames x
    | split
    | refine Kept.of_snd ‹_› ?_)

def km_execLevelFrameEnd : Nat := ob Obj.lvlCounts ||| ob Obj.lvlHostResult ||| pt.levelFree ||| km_reach ||| km_setFrames

theorem execLevelFrameEnd_kept (bank : Nat) (miso : Nat) (s : State) : KeptR km_execLevelFrameEnd s (execLevelFrameEnd bank miso s) := by
  unfold execLevelFrameEnd
  repeat' (first
    | with_reducible assumption
    | decide +kernel
    | with_reducible exact Kept.refl ..
    | (with_reducible apply KeptR.ite <;> intro _)
    | (with_reducible apply Kept.ite <;> intro _)
    | with_reducible refine KeptR.next ?_
    | with_reducible exact KeptR.fault
    | with_reducible apply Kept.step (State.setFld_kept _ _ _ _ _)
    | with_reducible apply Kept.step (State.count_kept _ _ _ _ _ _)
    | with_reducible apply Kept.step (State.reach_kept _ _)
    | with_reducible apply Kept.step (State.setFrames_kept _ _ _)
    | (extract_lets +onlyGivenNames x; refine cutK (m := km_execLevelFrameEnd) (s := s) (x := x) ?_ ?_; on_goal 1 => (try unfold x); on_goal 2 => (intro hx; clear_value x))
    | extract_lets +onlyGivenNames x
    | split
    | refine Kept.of_snd ‹_› ?_
    | dsimp +zetaDelta only [id_eq]
    | with_reducible apply Kept.set_levelFree)

def km_hostCmd : Nat := ob Obj.lvlHostResult ||| km_draw ||| km_setFrames

theorem State.hostCmd_kept (s : State) (v : Nat) : Kept km_hostCmd s (State.hostCmd s v) := by
  unfold State.hostCmd
  repeat' (first
    | with_reducible assumption
    | decide +kernel
    | with_reducible exact Kept.refl ..
    | (with_reducible apply Kept.ite <;> intro _)
    | with_reducible apply Kept.step (State.setFld_kept _ _ _ _ _)
    | with_reducible apply Kept.step (State.draw_kept _)
    | with_reducible apply Kept.step (State.setFrames_kept _ _ _)
    | (extract_lets +onlyGivenNames x; refine cutK (m := km_hostCmd) (s := s) (x := x) ?_ ?_; on_goal 1 => (try unfold x); on_goal 2 => (intro hx; clear_value x))
    | extract_lets +onlyGivenNames x
    | split
    | refine Kept.of_snd ‹_› ?_
    | dsimp +zetaDelta only [id_eq])

end Sys2Proof.Machine
end

