-- ==== Sys2Proof/Laws/KeptRaster.lean ====
section
/-! SUPPORT. For every operation of Machine/Raster.lean the parts of the state that it may change. -/
set_option linter.unusedTactic false
set_option linter.unreachableTactic false
set_option linter.unusedVariables false
set_option linter.tactic.unusedName false
set_option Elab.async false
namespace Sys2Proof.Machine

def km_setStream : Nat := pt.ras

theorem State.setStream_kept (s : State) (i : Nat) (x : RasRt) : Kept km_setStream s (State.setStream s i x) := by
  unfold State.setStream
  repeat' (first
    | with_reducible assumption
    | decide +kernel
    | with_reducible exact Kept.refl ..
    | (extract_lets +onlyGivenNames x; refine cutK (m := km_setStream) (s := s) (x := x) ?_ ?_; on_goal 1 => (try unfold x); on_goal 2 => (intro hx; clear_value x))
    | extract_lets +onlyGivenNames x
    | split
    | refine Kept.of_snd ‹_› ?_
    | dsimp +zetaDelta only [id_eq]
    | with_reducible apply Kept.set_ras)

def km_rasCount : Nat := ob Obj.rasCounts

theorem State.rasCount_kept (s : State) (i : Nat) (k : Nat) : Kept km_rasCount s (State.rasCount s i k) := by
  unfold State.rasCount
  repeat' (first
    | with_reducible assumption
    | decide +kernel
    | with_reducible exact Kept.refl ..
    | with_reducible apply Kept.step (State.count_kept _ _ _ _ _ _)
    | (extract_lets +onlyGivenNames x; refine cutK (m := km_rasCount) (s := s) (x := x) ?_ ?_; on_goal 1 => (try unfold x); on_goal 2 => (intro hx; clear_value x))
    | extract_lets +onlyGivenNames x
    | split
    | refine Kept.of_snd ‹_› ?_)

def km_bufferLoaded : Nat := ob Obj.rasBufferState ||| km_setImg

theorem State.bufferLoaded_kept (s : State) (el : Nat) (b : Bytes) : Kept km_bufferLoaded s (State.bufferLoaded s el b) := by
  unfold State.bufferLoaded
  repeat' (first
    | with_reducible assumption
    | decide +kernel
    | with_reducible exact Kept.refl ..
    | with_reducible apply Kept.step (State.wr_kept _ _ _ _)
    | with_reducible apply Kept.step (State.setImg_kept _ _ _ _)
    | (extract_lets +onlyGivenNames x; refine cutK (m := km_bufferLoaded) (s := s) (x := x) ?_ ?_; on_goal 1 => (try unfold x); on_goal 2 => (intro hx; clear_value x))
    | extract_lets +onlyGivenNames x
    | split
    | refine Kept.of_snd ‹_› ?_)

def km_bufferRelease : Nat := ob Obj.rasBufferState ||| km_setXfer ||| km_result ||| km_setImg

theorem State.bufferRelease_kept (s : State) (el : Nat) : Kept km_bufferRelease s (State.bufferRelease s el) := by
  unfold State.bufferRelease
  repeat' (first
    | with_reducible assumption
    | decide +kernel
    | with_reducible exact Kept.refl ..
    | (with_reducible apply Kept.ite <;> intro _)
    | with_reducible apply Kept.step (State.wr_kept _ _ _ _)
    | with_reducible apply Kept.step (State.setXfer_kept _ _ _)
    | with_reducible apply Kept.step (State.result_kept _ _ _ _)
    | with_reducible apply Kept.step (State.setImg_kept _ _ _ _)
    | (extract_lets +onlyGivenNames x; refine cutK (m := km_bufferRelease) (s := s) (x := x) ?_ ?_; on_goal 1 => (try unfold x); on_goal 2 => (intro hx; clear_value x))
    | extract_lets +onlyGivenNames x
    | split
    | refine Kept.of_snd ‹_› ?_
    | dsimp +zetaDelta only [id_eq])

def km_noteAttached : Nat := ob Obj.rasBufferState

theorem State.noteAttached_kept (s : State) (i : Nat) : Kept km_noteAttached s (State.noteAttached s i) := by
  unfold State.noteAttached
  repeat' (first
    | with_reducible assumption
    | decide +kernel
    | with_reducible exact Kept.refl ..
    | (with_reducible apply Kept.ite <;> intro _)
    | with_reducible apply Kept.step (State.wr_kept _ _ _ _)
    | with_reducible apply Kept.foldl
    | with_reducible refine fun (x : State) a hx => ?_
    | (extract_lets +onlyGivenNames x; refine cutK (m := km_noteAttached) (s := s) (x := x) ?_ ?_; on_goal 1 => (try unfold x); on_goal 2 => (intro hx; clear_value x))
    | extract_lets +onlyGivenNames x
    | split
    | refine Kept.of_snd ‹_› ?_
    | dsimp +zetaDelta only [id_eq])

def km_applyCommit : Nat := ob Obj.rasCommitPending ||| ob Obj.rasLayerActive ||| km_setStream ||| km_noteAttached

theorem State.applyCommit_kept (s : State) (i : Nat) : Kept km_applyCommit s (State.applyCommit s i) := by
  unfold State.applyCommit
  repeat' (first
    | with_reducible assumption
    | decide +kernel
    | with_reducible exact Kept.refl ..
    | with_reducible apply Kept.step (State.wr_kept _ _ _ _)
    | with_reducible apply Kept.step (State.setStream_kept _ _ _)
    | with_reducible apply Kept.step (State.noteAttached_kept _ _)
    | with_reducible apply Kept.foldl
    | with_reducible refine fun (x : State) a hx => ?_
    | (extract_lets +onlyGivenNames x; refine cutK (m := km_applyCommit) (s := s) (x := x) ?_ ?_; on_goal 1 => (try unfold x); on_goal 2 => (intro hx; clear_value x))
    | extract_lets +onlyGivenNames x
    | split
    | refine Kept.of_snd ‹_› ?_
    | dsimp +zetaDelta only [id_eq])

def km_rasCommit : Nat := ob Obj.rasCommitPending ||| km_setStream ||| km_noteAttached ||| km_applyCommit

theorem State.rasCommit_kept (s : State) (i : Nat) : Kept km_rasCommit s (State.rasCommit s i) := by
  unfold State.rasCommit
  repeat' (first
    | with_reducible assumption
    | decide +kernel
    | with_reducible exact Kept.refl ..
    | (with_reducible apply Kept.ite <;> intro _)
    | with_reducible apply Kept.step (State.wr_kept _ _ _ _)
    | with_reducible apply Kept.step (State.setStream_kept _ _ _)
    | with_reducible apply Kept.step (State.noteAttached_kept _ _)
    | with_reducible apply Kept.step (State.applyCommit_kept _ _)
    | (extract_lets +onlyGivenNames x; refine cutK (m := km_rasCommit) (s := s) (x := x) ?_ ?_; on_goal 1 => (try unfold x); on_goal 2 => (intro hx; clear_value x))
    | extract_lets +onlyGivenNames x
    | split
    | refine Kept.of_snd ‹_› ?_)

def km_retire : Nat := ob Obj.rasBufferState ||| km_setImg ||| km_rasCount ||| km_latch ||| km_setStream

theorem State.retire_kept (s : State) (i : Nat) : Kept km_retire s (State.retire s i) := by
  unfold State.retire
  repeat' (first
    | with_reducible assumption
    | decide +kernel
    | with_reducible exact Kept.refl ..
    | (with_reducible apply Kept.ite <;> intro _)
    | with_reducible apply Kept.step (State.wr_kept _ _ _ _)
    | with_reducible apply Kept.step (State.setImg_kept _ _ _ _)
    | with_reducible apply Kept.step (State.rasCount_kept _ _ _)
    | with_reducible apply Kept.step (State.latch_kept _ _)
    | with_reducible apply Kept.step (State.setStream_kept _ _ _)
    | with_reducible apply Kept.foldl
    | with_reducible refine fun (x : State) a hx => ?_
    | (extract_lets +onlyGivenNames x; refine cutK (m := km_retire) (s := s) (x := x) ?_ ?_; on_goal 1 => (try unfold x); on_goal 2 => (intro hx; clear_value x))
    | extract_lets +onlyGivenNames x
    | split
    | refine Kept.of_snd ‹_› ?_
    | dsimp +zetaDelta only [id_eq])

def km_rasRelease : Nat := ob Obj.rasBufferState ||| ob Obj.rasCommitPending ||| km_setStream ||| km_setImg

theorem State.rasRelease_kept (s : State) : Kept km_rasRelease s (State.rasRelease s) := by
  unfold State.rasRelease
  repeat' (first
    | with_reducible assumption
    | decide +kernel
    | with_reducible exact Kept.refl ..
    | with_reducible apply Kept.step (State.wr_kept _ _ _ _)
    | with_reducible apply Kept.step (State.setStream_kept _ _ _)
    | with_reducible apply Kept.step (State.setImg_kept _ _ _ _)
    | with_reducible apply Kept.foldl
    | with_reducible refine fun (x : State) a hx => ?_
    | (extract_lets +onlyGivenNames x; refine cutK (m := km_rasRelease) (s := s) (x := x) ?_ ?_; on_goal 1 => (try unfold x); on_goal 2 => (intro hx; clear_value x))
    | extract_lets +onlyGivenNames x
    | split
    | refine Kept.of_snd ‹_› ?_
    | dsimp +zetaDelta only [id_eq])

def km_rasAttach : Nat := ob Obj.rasState ||| km_setStream ||| km_setNdl

theorem State.rasAttach_kept (s : State) (n : Nat) (i : Nat) (e : Nat) : Kept km_rasAttach s (State.rasAttach s n i e) := by
  unfold State.rasAttach
  repeat' (first
    | with_reducible assumption
    | decide +kernel
    | with_reducible exact Kept.refl ..
    | (with_reducible apply Kept.ite <;> intro _)
    | with_reducible apply Kept.step (State.wr_kept _ _ _ _)
    | with_reducible apply Kept.step (State.setStream_kept _ _ _)
    | with_reducible apply Kept.step (State.setNdl_kept _ _ _)
    | (extract_lets +onlyGivenNames x; refine cutK (m := km_rasAttach) (s := s) (x := x) ?_ ?_; on_goal 1 => (try unfold x); on_goal 2 => (intro hx; clear_value x))
    | extract_lets +onlyGivenNames x
    | split
    | refine Kept.of_snd ‹_› ?_)

def km_rasStop : Nat := ob Obj.rasState ||| km_setStream ||| km_setNdl ||| km_applyCommit

theorem State.rasStop_kept (s : State) (n : Nat) (i : Nat) : Kept km_rasStop s (State.rasStop s n i) := by
  unfold State.rasStop
  repeat' (first
    | with_reducible assumption
    | decide +kernel
    | with_reducible exact Kept.refl ..
    | (with_reducible apply Kept.ite <;> intro _)
    | with_reducible apply Kept.step (State.wr_kept _ _ _ _)
    | with_reducible apply Kept.step (State.setStream_kept _ _ _)
    | with_reducible apply Kept.step (State.setNdl_kept _ _ _)
    | with_reducible apply Kept.step (State.applyCommit_kept _ _)
    | (extract_lets +onlyGivenNames x; refine cutK (m := km_rasStop) (s := s) (x := x) ?_ ?_; on_goal 1 => (try unfold x); on_goal 2 => (intro hx; clear_value x))
    | extract_lets +onlyGivenNames x
    | split
    | refine Kept.of_snd ‹_› ?_)

def km_rasStopNeedle : Nat := km_rasStop

theorem State.rasStopNeedle_kept (s : State) (n : Nat) : Kept km_rasStopNeedle s (State.rasStopNeedle s n) := by
  unfold State.rasStopNeedle
  repeat' (first
    | with_reducible assumption
    | decide +kernel
    | with_reducible exact Kept.refl ..
    | with_reducible apply Kept.step (State.rasStop_kept _ _ _)
    | with_reducible apply Kept.foldl
    | with_reducible refine fun (x : State) a hx => ?_
    | (extract_lets +onlyGivenNames x; refine cutK (m := km_rasStopNeedle) (s := s) (x := x) ?_ ?_; on_goal 1 => (try unfold x); on_goal 2 => (intro hx; clear_value x))
    | extract_lets +onlyGivenNames x
    | split
    | refine Kept.of_snd ‹_› ?_
    | dsimp +zetaDelta only [id_eq])

def km_rasFreeze : Nat := ob Obj.rasState

theorem State.rasFreeze_kept (s : State) (n : Nat) (frozen : Bool) : Kept km_rasFreeze s (State.rasFreeze s n frozen) := by
  unfold State.rasFreeze
  repeat' (first
    | with_reducible assumption
    | decide +kernel
    | with_reducible exact Kept.refl ..
    | (with_reducible apply Kept.ite <;> intro _)
    | with_reducible apply Kept.step (State.setFld_kept _ _ _ _ _)
    | with_reducible apply Kept.foldl
    | with_reducible refine fun (x : State) a hx => ?_
    | (extract_lets +onlyGivenNames x; refine cutK (m := km_rasFreeze) (s := s) (x := x) ?_ ?_; on_goal 1 => (try unfold x); on_goal 2 => (intro hx; clear_value x))
    | extract_lets +onlyGivenNames x
    | split
    | refine Kept.of_snd ‹_› ?_
    | dsimp +zetaDelta only [id_eq])

def km_execRasSyncEdge : Nat := km_reach ||| km_setStream

theorem execRasSyncEdge_kept (stream : Nat) (falling : Bool) (t : Nat) (s : State) : KeptR km_execRasSyncEdge s (execRasSyncEdge stream falling t s) := by
  unfold execRasSyncEdge
  repeat' (first
    | with_reducible assumption
    | decide +kernel
    | with_reducible exact Kept.refl ..
    | (with_reducible apply KeptR.ite <;> intro _)
    | (with_reducible apply Kept.ite <;> intro _)
    | with_reducible refine KeptR.next ?_
    | with_reducible exact KeptR.fault
    | with_reducible apply Kept.step (State.reach_kept _ _)
    | with_reducible apply Kept.step (State.setStream_kept _ _ _)
    | (extract_lets +onlyGivenNames x; refine cutK (m := km_execRasSyncEdge) (s := s) (x := x) ?_ ?_; on_goal 1 => (try unfold x); on_goal 2 => (intro hx; clear_value x))
    | extract_lets +onlyGivenNames x
    | split
    | refine Kept.of_snd ‹_› ?_)

def km_feedRects : Nat := km_setStream

theorem State.feedRects_kept (s : State) (i : Nat) (frame : Nat) (ret : Bool) (x : Nat) (y : Nat) (b : Bytes) : Kept km_feedRects s (State.feedRects s i frame ret x y b) := by
  unfold State.feedRects
  repeat' (first
    | with_reducible assumption
    | decide +kernel
    | with_reducible exact Kept.refl ..
    | (with_reducible apply Kept.ite <;> intro _)
    | with_reducible apply Kept.step (State.setStream_kept _ _ _)
    | with_reducible apply Kept.foldl
    | with_reducible refine fun (x : State) a hx => ?_
    | (extract_lets +onlyGivenNames x; refine cutK (m := km_feedRects) (s := s) (x := x) ?_ ?_; on_goal 1 => (try unfold x); on_goal 2 => (intro hx; clear_value x))
    | extract_lets +onlyGivenNames x
    | split
    | refine Kept.of_snd ‹_› ?_
    | dsimp +zetaDelta only [id_eq])

def km_latchRects : Nat := km_setStream ||| km_rasCount ||| km_latch ||| pt.objs

theorem State.latchRects_kept (s : State) (i : Nat) (frame : Nat) (ret : Bool) : Kept km_latchRects s (State.latchRects s i frame ret) := by
  unfold State.latchRects
  repeat' (first
    | with_reducible assumption
    | decide +kernel
    | (with_reducible apply ob_objs; decide +kernel)
    | with_reducible exact Kept.refl ..
    | (with_reducible apply Kept.ite <;> intro _)
    | with_reducible apply Kept.step (State.wr_kept _ _ _ _)
    | with_reducible apply Kept.step (State.setStream_kept _ _ _)
    | with_reducible apply Kept.step (State.rasCount_kept _ _ _)
    | with_reducible apply Kept.step (State.latch_kept _ _)
    | with_reducible apply Kept.foldl
    | with_reducible refine fun (x : State) a hx => ?_
    | (extract_lets +onlyGivenNames x; refine cutK (m := km_latchRects) (s := s) (x := x) ?_ ?_; on_goal 1 => (try unfold x); on_goal 2 => (intro hx; clear_value x))
    | extract_lets +onlyGivenNames x
    | split
    | refine Kept.of_snd ‹_› ?_
    | dsimp +zetaDelta only [id_eq])

def km_rasFrameStart : Nat := ob Obj.rasFlip ||| ob Obj.rasFrame ||| km_retire ||| km_setStream ||| km_latch

theorem State.rasFrameStart_kept (s : State) (i : Nat) (e : Nat) : Kept km_rasFrameStart s (State.rasFrameStart s i e) := by
  unfold State.rasFrameStart
  repeat' (first
    | with_reducible assumption
    | decide +kernel
    | with_reducible exact Kept.refl ..
    | (with_reducible apply Kept.ite <;> intro _)
    | with_reducible apply Kept.step (State.wr_kept _ _ _ _)
    | with_reducible apply Kept.step (State.retire_kept _ _)
    | with_reducible apply Kept.step (State.setStream_kept _ _ _)
    | with_reducible apply Kept.step (State.latch_kept _ _)
    | with_reducible apply Kept.foldl
    | with_reducible refine fun (x : State) a hx => ?_
    | (extract_lets +onlyGivenNames x; refine cutK (m := km_rasFrameStart) (s := s) (x := x) ?_ ?_; on_goal 1 => (try unfold x); on_goal 2 => (intro hx; clear_value x))
    | extract_lets +onlyGivenNames x
    | split
    | refine Kept.of_snd ‹_› ?_
    | dsimp +zetaDelta only [id_eq])

def km_rasSync : Nat := km_setStream ||| km_rasCount

theorem State.rasSync_kept (s : State) (i : Nat) (e : Nat) : Kept km_rasSync s (State.rasSync s i e) := by
  unfold State.rasSync
  repeat' (first
    | with_reducible assumption
    | decide +kernel
    | with_reducible exact Kept.refl ..
    | (with_reducible apply Kept.ite <;> intro _)
    | with_reducible apply Kept.step (State.setStream_kept _ _ _)
    | with_reducible apply Kept.step (State.rasCount_kept _ _ _)
    | with_reducible apply Kept.foldl
    | with_reducible refine fun (x : State) a hx => ?_
    | (extract_lets +onlyGivenNames x; refine cutK (m := km_rasSync) (s := s) (x := x) ?_ ?_; on_goal 1 => (try unfold x); on_goal 2 => (intro hx; clear_value x))
    | extract_lets +onlyGivenNames x
    | split
    | refine Kept.of_snd ‹_› ?_
    | dsimp +zetaDelta only [id_eq])

def km_rasUnder : Nat := km_draw ||| km_setStream ||| km_rasCount ||| km_latch

theorem State.rasUnder_kept (s : State) (i : Nat) (y : Nat) : Kept km_rasUnder s (State.rasUnder s i y) := by
  unfold State.rasUnder
  repeat' (first
    | with_reducible assumption
    | decide +kernel
    | with_reducible exact Kept.refl ..
    | (with_reducible apply Kept.ite <;> intro _)
    | with_reducible apply Kept.step (State.draw_kept _)
    | with_reducible apply Kept.step (State.setStream_kept _ _ _)
    | with_reducible apply Kept.step (State.rasCount_kept _ _ _)
    | with_reducible apply Kept.step (State.latch_kept _ _)
    | with_reducible apply Kept.foldl
    | with_reducible refine fun (x : State) a hx => ?_
    | (extract_lets +onlyGivenNames x; refine cutK (m := km_rasUnder) (s := s) (x := x) ?_ ?_; on_goal 1 => (try unfold x); on_goal 2 => (intro hx; clear_value x))
    | extract_lets +onlyGivenNames x
    | split
    | refine Kept.of_snd ‹_› ?_
    | dsimp +zetaDelta only [id_eq])

def km_rasAdvance : Nat := ob Obj.rasState ||| km_setStream ||| km_latch ||| km_rasCount

theorem State.rasAdvance_kept (s : State) (i : Nat) : Kept km_rasAdvance s (State.rasAdvance s i) := by
  unfold State.rasAdvance
  repeat' (first
    | with_reducible assumption
    | decide +kernel
    | with_reducible exact Kept.refl ..
    | (with_reducible apply Kept.ite <;> intro _)
    | with_reducible apply Kept.step (State.setFld_kept _ _ _ _ _)
    | with_reducible apply Kept.step (State.setStream_kept _ _ _)
    | with_reducible apply Kept.step (State.latch_kept _ _)
    | with_reducible apply Kept.step (State.rasCount_kept _ _ _)
    | (extract_lets +onlyGivenNames x; refine cutK (m := km_rasAdvance) (s := s) (x := x) ?_ ?_; on_goal 1 => (try unfold x); on_goal 2 => (intro hx; clear_value x))
    | extract_lets +onlyGivenNames x
    | split
    | refine Kept.of_snd ‹_› ?_)

def km_rasDot : Nat := ob Obj.rasState ||| km_rasFrameStart ||| km_rasSync ||| km_latchRects ||| km_setStream ||| km_applyCommit ||| km_rasUnder ||| km_feedRects ||| km_rasAdvance

theorem State.rasDot_kept (s : State) (i : Nat) (e : Nat) (idx : Nat) : Kept km_rasDot s (State.rasDot s i e idx).2 := by
  unfold State.rasDot
  repeat' (first
    | with_reducible assumption
    | decide +kernel
    | with_reducible exact Kept.refl ..
    | (with_reducible apply Kept.ite <;> intro _)
    | (with_reducible apply Kept.ite2 <;> intro _)
    | with_reducible apply Kept.step (State.setFld_kept _ _ _ _ _)
    | with_reducible apply Kept.step (State.rasFrameStart_kept _ _ _)
    | with_reducible apply Kept.step (State.rasSync_kept _ _ _)
    | with_reducible apply Kept.step (State.latchRects_kept _ _ _ _)
    | with_reducible apply Kept.step (State.setStream_kept _ _ _)
    | with_reducible apply Kept.step (State.applyCommit_kept _ _)
    | with_reducible apply Kept.step (State.rasUnder_kept _ _ _)
    | with_reducible apply Kept.step (State.feedRects_kept _ _ _ _ _ _ _)
    | with_reducible apply Kept.step (State.rasAdvance_kept _ _)
    | (extract_lets +onlyGivenNames x; refine cutK (m := km_rasDot) (s := s) (x := x) ?_ ?_; on_goal 1 => (try unfold x); on_goal 2 => (intro hx; clear_value x))
    | extract_lets +onlyGivenNames x
    | split
    | refine Kept.of_snd ‹_› ?_
    | dsimp +zetaDelta only [id_eq])

def km_rasReturn : Nat := pt.freeCtr ||| km_setStream ||| km_latchRects ||| km_feedRects

theorem State.rasReturn_kept (s : State) (i : Nat) (idx : Nat) (ss : List (Strobe × List Bool × List Bool)) : Kept km_rasReturn s (State.rasReturn s i idx ss) := by
  unfold State.rasReturn
  repeat' (first
    | with_reducible assumption
    | decide +kernel
    | with_reducible exact Kept.refl ..
    | (with_reducible apply Kept.ite <;> intro _)
    | with_reducible apply Kept.step (State.setStream_kept _ _ _)
    | with_reducible apply Kept.step (State.latchRects_kept _ _ _ _)
    | with_reducible apply Kept.step (State.feedRects_kept _ _ _ _ _ _ _)
    | with_reducible apply Kept.foldl
    | with_reducible refine fun (x : State) a hx => ?_
    | (extract_lets +onlyGivenNames x; refine cutK (m := km_rasReturn) (s := s) (x := x) ?_ ?_; on_goal 1 => (try unfold x); on_goal 2 => (intro hx; clear_value x))
    | extract_lets +onlyGivenNames x
    | split
    | refine Kept.of_snd ‹_› ?_
    | dsimp +zetaDelta only [id_eq]
    | with_reducible apply Kept.set_freeCtr)

end Sys2Proof.Machine
end

