-- ==== Sys2Proof/Laws/KeptCalibrate.lean ====
section
/-! SUPPORT. For every operation of Machine/Calibrate.lean the parts of the state that it may change. -/
set_option linter.unusedTactic false
set_option linter.unreachableTactic false
set_option linter.unusedVariables false
set_option linter.tactic.unusedName false
set_option Elab.async false
namespace Sys2Proof.Machine

def km_setCalBank : Nat := pt.cal

theorem State.setCalBank_kept (s : State) (b : Nat) (x : CalBank) : Kept km_setCalBank s (State.setCalBank s b x) := by
  unfold State.setCalBank
  repeat' (first
    | with_reducible assumption
    | decide +kernel
    | with_reducible exact Kept.refl ..
    | (extract_lets +onlyGivenNames x; refine cutK (m := km_setCalBank) (s := s) (x := x) ?_ ?_; on_goal 1 => (try unfold x); on_goal 2 => (intro hx; clear_value x))
    | extract_lets +onlyGivenNames x
    | split
    | refine Kept.of_snd ‹_› ?_
    | dsimp +zetaDelta only [id_eq]
    | with_reducible apply Kept.set_cal)

def km_setAnchor : Nat := pt.cal

theorem State.setAnchor_kept (s : State) (p : Nat) (q : Nat) (v : Option Int) : Kept km_setAnchor s (State.setAnchor s p q v) := by
  unfold State.setAnchor
  repeat' (first
    | with_reducible assumption
    | decide +kernel
    | with_reducible exact Kept.refl ..
    | (extract_lets +onlyGivenNames x; refine cutK (m := km_setAnchor) (s := s) (x := x) ?_ ?_; on_goal 1 => (try unfold x); on_goal 2 => (intro hx; clear_value x))
    | extract_lets +onlyGivenNames x
    | split
    | refine Kept.of_snd ‹_› ?_
    | dsimp +zetaDelta only [id_eq]
    | with_reducible apply Kept.set_cal)

def km_calCounts : Nat := ob Obj.calCounts

theorem State.calCounts_kept (s : State) (i : Nat) : Kept km_calCounts s (State.calCounts s i) := by
  unfold State.calCounts
  repeat' (first
    | with_reducible assumption
    | decide +kernel
    | with_reducible exact Kept.refl ..
    | with_reducible apply Kept.step (State.count_kept _ _ _ _ _ _)
    | (extract_lets +onlyGivenNames x; refine cutK (m := km_calCounts) (s := s) (x := x) ?_ ?_; on_goal 1 => (try unfold x); on_goal 2 => (intro hx; clear_value x))
    | extract_lets +onlyGivenNames x
    | split
    | refine Kept.of_snd ‹_› ?_)

def km_noteAge : Nat := pt.cal

theorem State.noteAge_kept (s : State) (p : Nat) (q : Nat) (v : Int) : Kept km_noteAge s (State.noteAge s p q v) := by
  unfold State.noteAge
  repeat' (first
    | with_reducible assumption
    | decide +kernel
    | with_reducible exact Kept.refl ..
    | (extract_lets +onlyGivenNames x; refine cutK (m := km_noteAge) (s := s) (x := x) ?_ ?_; on_goal 1 => (try unfold x); on_goal 2 => (intro hx; clear_value x))
    | extract_lets +onlyGivenNames x
    | split
    | refine Kept.of_snd ‹_› ?_
    | dsimp +zetaDelta only [id_eq]
    | with_reducible apply Kept.set_cal)

def km_calNote : Nat := ob Obj.calPinStatus

theorem State.calNote_kept (s : State) (p : Nat) : Kept km_calNote s (State.calNote s p) := by
  unfold State.calNote
  repeat' (first
    | with_reducible assumption
    | decide +kernel
    | with_reducible exact Kept.refl ..
    | with_reducible apply Kept.step (State.wr_kept _ _ _ _)
    | with_reducible apply Kept.foldl
    | with_reducible refine fun (x : State) a hx => ?_
    | (extract_lets +onlyGivenNames x; refine cutK (m := km_calNote) (s := s) (x := x) ?_ ?_; on_goal 1 => (try unfold x); on_goal 2 => (intro hx; clear_value x))
    | extract_lets +onlyGivenNames x
    | split
    | refine Kept.of_snd ‹_› ?_
    | dsimp +zetaDelta only [id_eq])

def km_commitGauge : Nat := ob Obj.ptfGauge ||| pt.cal

theorem State.commitGauge_kept (s : State) (p : Nat) (q : Nat) (v : Int) (live : Bool) : Kept km_commitGauge s (State.commitGauge s p q v live) := by
  unfold State.commitGauge
  repeat' (first
    | with_reducible assumption
    | decide +kernel
    | with_reducible exact Kept.refl ..
    | (with_reducible apply Kept.ite <;> intro _)
    | with_reducible apply Kept.step (State.setFld_kept _ _ _ _ _)
    | (extract_lets +onlyGivenNames x; refine cutK (m := km_commitGauge) (s := s) (x := x) ?_ ?_; on_goal 1 => (try unfold x); on_goal 2 => (intro hx; clear_value x))
    | extract_lets +onlyGivenNames x
    | split
    | refine Kept.of_snd ‹_› ?_
    | dsimp +zetaDelta only [id_eq]
    | with_reducible apply Kept.set_cal)

def km_calCount : Nat := ob Obj.calCount ||| ob Obj.calLastTime ||| pt.cal

theorem State.calCount_kept (s : State) (e : Nat) : Kept km_calCount s (State.calCount s e) := by
  unfold State.calCount
  repeat' (first
    | with_reducible assumption
    | decide +kernel
    | with_reducible exact Kept.refl ..
    | (with_reducible apply Kept.ite <;> intro _)
    | with_reducible apply Kept.step (State.wr_kept _ _ _ _)
    | with_reducible apply Kept.step (State.count64_kept _ _ _ _)
    | (extract_lets +onlyGivenNames x; refine cutK (m := km_calCount) (s := s) (x := x) ?_ ?_; on_goal 1 => (try unfold x); on_goal 2 => (intro hx; clear_value x))
    | extract_lets +onlyGivenNames x
    | split
    | refine Kept.of_snd ‹_› ?_
    | with_reducible apply Kept.set_cal)

def km_applyStep : Nat := ob Obj.ptfGaugeActive ||| km_calCounts ||| km_calCount

theorem State.applyStep_kept (s : State) (e : Nat) (p : Nat) (q : Nat) : Kept km_applyStep s (State.applyStep s e p q) := by
  unfold State.applyStep
  repeat' (first
    | with_reducible assumption
    | decide +kernel
    | with_reducible exact Kept.refl ..
    | (with_reducible apply Kept.ite <;> intro _)
    | with_reducible apply Kept.step (State.setFld_kept _ _ _ _ _)
    | with_reducible apply Kept.step (State.calCounts_kept _ _)
    | with_reducible apply Kept.step (State.calCount_kept _ _)
    | (extract_lets +onlyGivenNames x; refine cutK (m := km_applyStep) (s := s) (x := x) ?_ ?_; on_goal 1 => (try unfold x); on_goal 2 => (intro hx; clear_value x))
    | extract_lets +onlyGivenNames x
    | split
    | refine Kept.of_snd ‹_› ?_
    | dsimp +zetaDelta only [id_eq])

def km_applyGauges : Nat := km_applyStep ||| km_calNote

theorem State.applyGauges_kept (s : State) (n : Nat) (e : Nat) : Kept km_applyGauges s (State.applyGauges s n e) := by
  unfold State.applyGauges
  repeat' (first
    | with_reducible assumption
    | decide +kernel
    | with_reducible exact Kept.refl ..
    | with_reducible apply Kept.step (State.applyStep_kept _ _ _ _)
    | with_reducible apply Kept.step (State.calNote_kept _ _)
    | with_reducible apply Kept.foldl
    | with_reducible refine fun (x : State) a hx => ?_
    | (extract_lets +onlyGivenNames x; refine cutK (m := km_applyGauges) (s := s) (x := x) ?_ ?_; on_goal 1 => (try unfold x); on_goal 2 => (intro hx; clear_value x))
    | extract_lets +onlyGivenNames x
    | split
    | refine Kept.of_snd ‹_› ?_
    | dsimp +zetaDelta only [id_eq])

def km_applyNow : Nat := ob Obj.ptfGaugeActive ||| km_calNote

theorem State.applyNow_kept (s : State) (p : Nat) : Kept km_applyNow s (State.applyNow s p) := by
  unfold State.applyNow
  repeat' (first
    | with_reducible assumption
    | decide +kernel
    | with_reducible exact Kept.refl ..
    | with_reducible apply Kept.step (State.wr_kept _ _ _ _)
    | with_reducible apply Kept.step (State.calNote_kept _ _)
    | (extract_lets +onlyGivenNames x; refine cutK (m := km_applyNow) (s := s) (x := x) ?_ ?_; on_goal 1 => (try unfold x); on_goal 2 => (intro hx; clear_value x))
    | extract_lets +onlyGivenNames x
    | split
    | refine Kept.of_snd ‹_› ?_)

def km_supersede : Nat := pt.cal ||| ob Obj.calPinStatus ||| ob Obj.calLastSwatch

theorem State.supersede_kept (s : State) (p : Nat) : Kept km_supersede s (State.supersede s p) := by
  unfold State.supersede
  repeat' (first
    | with_reducible assumption
    | decide +kernel
    | with_reducible exact Kept.refl ..
    | (with_reducible apply Kept.ite <;> intro _)
    | with_reducible apply Kept.step (State.setFld_kept _ _ _ _ _)
    | with_reducible apply Kept.foldl
    | with_reducible refine fun (x : State) a hx => ?_
    | split
    | dsimp +zetaDelta only [id_eq]
    | with_reducible apply Kept.set_cal)

def km_hostGauge : Nat := ob Obj.calBase ||| ob Obj.ptfGauge ||| pt.cal ||| km_supersede ||| km_commitGauge ||| km_setAnchor ||| km_applyNow ||| km_calNote

theorem State.hostGauge_kept (s : State) (p : Nat) (v : Nat) : Kept km_hostGauge s (State.hostGauge s p v) := by
  unfold State.hostGauge
  repeat' (first
    | with_reducible assumption
    | decide +kernel
    | with_reducible exact Kept.refl ..
    | (with_reducible apply Kept.ite <;> intro _)
    | with_reducible apply Kept.step (State.supersede_kept _ _)
    | with_reducible apply Kept.step (State.wr_kept _ _ _ _)
    | with_reducible apply Kept.step (State.commitGauge_kept _ _ _ _ _)
    | with_reducible apply Kept.step (State.setAnchor_kept _ _ _ _)
    | with_reducible apply Kept.step (State.applyNow_kept _ _)
    | with_reducible apply Kept.step (State.calNote_kept _ _)
    | with_reducible apply Kept.foldl
    | with_reducible refine fun (x : State) a hx => ?_
    | (extract_lets +onlyGivenNames x; refine cutK (m := km_hostGauge) (s := s) (x := x) ?_ ?_; on_goal 1 => (try unfold x); on_goal 2 => (intro hx; clear_value x))
    | extract_lets +onlyGivenNames x
    | split
    | refine Kept.of_snd ‹_› ?_
    | dsimp +zetaDelta only [id_eq]
    | with_reducible apply Kept.set_cal)

def km_calPause : Nat := pt.cal

theorem State.calPause_kept (s : State) : Kept km_calPause s (State.calPause s) := by
  unfold State.calPause
  repeat' (first
    | with_reducible assumption
    | decide +kernel
    | with_reducible exact Kept.refl ..
    | (with_reducible apply Kept.ite <;> intro _)
    | (extract_lets +onlyGivenNames x; refine cutK (m := km_calPause) (s := s) (x := x) ?_ ?_; on_goal 1 => (try unfold x); on_goal 2 => (intro hx; clear_value x))
    | extract_lets +onlyGivenNames x
    | split
    | refine Kept.of_snd ‹_› ?_
    | dsimp +zetaDelta only [id_eq]
    | with_reducible apply Kept.set_cal)

def km_skipSwatches : Nat := ob Obj.calCounts ||| km_calCounts ||| km_setCalBank

theorem State.skipSwatches_kept (s : State) (b : Nat) : Kept km_skipSwatches s (State.skipSwatches s b) := by
  unfold State.skipSwatches
  repeat' (first
    | with_reducible assumption
    | decide +kernel
    | with_reducible exact Kept.refl ..
    | (with_reducible apply Kept.ite <;> intro _)
    | with_reducible apply Kept.step (State.count_kept _ _ _ _ _ _)
    | with_reducible apply Kept.step (State.calCounts_kept _ _)
    | with_reducible apply Kept.step (State.setCalBank_kept _ _ _)
    | (extract_lets +onlyGivenNames x; refine cutK (m := km_skipSwatches) (s := s) (x := x) ?_ ?_; on_goal 1 => (try unfold x); on_goal 2 => (intro hx; clear_value x))
    | extract_lets +onlyGivenNames x
    | split
    | refine Kept.of_snd ‹_› ?_)

def km_lastSwatch : Nat := ob Obj.calLastSwatch ||| pt.freeCtr ||| km_calCounts

theorem State.lastSwatch_kept (s : State) (p : Nat) (q : Nat) (outcome : Nat) (spread : Option Nat) (delta : Option Int) (cand : Option Int) : Kept km_lastSwatch s (State.lastSwatch s p q outcome spread delta cand) := by
  unfold State.lastSwatch
  repeat' (first
    | with_reducible assumption
    | decide +kernel
    | with_reducible exact Kept.refl ..
    | with_reducible apply Kept.step (State.wr_kept _ _ _ _)
    | with_reducible apply Kept.step (State.calCounts_kept _ _)
    | (extract_lets +onlyGivenNames x; refine cutK (m := km_lastSwatch) (s := s) (x := x) ?_ ?_; on_goal 1 => (try unfold x); on_goal 2 => (intro hx; clear_value x))
    | extract_lets +onlyGivenNames x
    | split
    | refine Kept.of_snd ‹_› ?_
    | dsimp +zetaDelta only [id_eq]
    | with_reducible apply Kept.set_freeCtr)

def km_endRun : Nat := ob Obj.calPinStatus ||| pt.cal

theorem State.endRun_kept (s : State) (p : Nat) (q : Nat) : Kept km_endRun s (State.endRun s p q) := by
  unfold State.endRun
  repeat' (first
    | with_reducible assumption
    | decide +kernel
    | with_reducible exact Kept.refl ..
    | with_reducible apply Kept.step (State.setFld_kept _ _ _ _ _)
    | (extract_lets +onlyGivenNames x; refine cutK (m := km_endRun) (s := s) (x := x) ?_ ?_; on_goal 1 => (try unfold x); on_goal 2 => (intro hx; clear_value x))
    | extract_lets +onlyGivenNames x
    | split
    | refine Kept.of_snd ‹_› ?_
    | dsimp +zetaDelta only [id_eq]
    | with_reducible apply Kept.set_cal)

def km_rejectSwatch : Nat := ob Obj.calPinStatus ||| ob Obj.calRejects ||| pt.cal ||| km_raise

theorem State.rejectSwatch_kept (s : State) (p : Nat) (q : Nat) : Kept km_rejectSwatch s (State.rejectSwatch s p q) := by
  unfold State.rejectSwatch
  repeat' (first
    | with_reducible assumption
    | decide +kernel
    | with_reducible exact Kept.refl ..
    | (with_reducible apply Kept.ite <;> intro _)
    | with_reducible apply Kept.step (State.setFld_kept _ _ _ _ _)
    | with_reducible apply Kept.step (State.count64_kept _ _ _ _)
    | with_reducible apply Kept.step (State.raise_kept _ _ _ _ _ _ _ _)
    | (extract_lets +onlyGivenNames x; refine cutK (m := km_rejectSwatch) (s := s) (x := x) ?_ ?_; on_goal 1 => (try unfold x); on_goal 2 => (intro hx; clear_value x))
    | extract_lets +onlyGivenNames x
    | split
    | refine Kept.of_snd ‹_› ?_
    | dsimp +zetaDelta only [id_eq]
    | with_reducible apply Kept.set_cal)

def km_evalSwatch : Nat := km_draw ||| km_lastSwatch ||| km_rejectSwatch ||| km_calNote ||| km_setAnchor ||| km_noteAge ||| km_endRun ||| km_commitGauge

theorem State.evalSwatch_kept (s : State) (p : Nat) (q : Nat) (l : List Int) : Kept km_evalSwatch s (State.evalSwatch s p q l) := by
  unfold State.evalSwatch
  repeat' (first
    | with_reducible assumption
    | decide +kernel
    | with_reducible exact Kept.refl ..
    | (with_reducible apply Kept.ite <;> intro _)
    | with_reducible apply Kept.step (State.draw_kept _)
    | with_reducible apply Kept.step (State.lastSwatch_kept _ _ _ _ _ _ _)
    | with_reducible apply Kept.step (State.rejectSwatch_kept _ _ _)
    | with_reducible apply Kept.step (State.calNote_kept _ _)
    | with_reducible apply Kept.step (State.setAnchor_kept _ _ _ _)
    | with_reducible apply Kept.step (State.noteAge_kept _ _ _ _)
    | with_reducible apply Kept.step (State.endRun_kept _ _ _)
    | with_reducible apply Kept.step (State.commitGauge_kept _ _ _ _ _)
    | with_reducible apply Kept.foldl
    | with_reducible refine fun (x : State) a hx => ?_
    | (extract_lets +onlyGivenNames x; refine cutK (m := km_evalSwatch) (s := s) (x := x) ?_ ?_; on_goal 1 => (try unfold x); on_goal 2 => (intro hx; clear_value x))
    | extract_lets +onlyGivenNames x
    | split
    | refine Kept.of_snd ‹_› ?_
    | dsimp +zetaDelta only [id_eq])

def km_swatchDone : Nat := km_setCalBank ||| km_skipSwatches

theorem State.swatchDone_kept (s : State) (b : Nat) : Kept km_swatchDone s (State.swatchDone s b) := by
  unfold State.swatchDone
  repeat' (first
    | with_reducible assumption
    | decide +kernel
    | with_reducible exact Kept.refl ..
    | with_reducible apply Kept.step (State.setCalBank_kept _ _ _)
    | with_reducible apply Kept.step (State.skipSwatches_kept _ _)
    | (extract_lets +onlyGivenNames x; refine cutK (m := km_swatchDone) (s := s) (x := x) ?_ ?_; on_goal 1 => (try unfold x); on_goal 2 => (intro hx; clear_value x))
    | extract_lets +onlyGivenNames x
    | split
    | refine Kept.of_snd ‹_› ?_)

def km_execCalSample : Nat := km_calPause ||| km_skipSwatches ||| km_reach ||| km_setCalBank ||| km_evalSwatch ||| km_swatchDone

theorem execCalSample_kept (bank : Nat) (value : Int) (s : State) : KeptR km_execCalSample s (execCalSample bank value s) := by
  unfold execCalSample
  repeat' (first
    | with_reducible assumption
    | decide +kernel
    | with_reducible exact Kept.refl ..
    | (with_reducible apply KeptR.ite <;> intro _)
    | (with_reducible apply Kept.ite <;> intro _)
    | with_reducible refine KeptR.next ?_
    | with_reducible exact KeptR.fault
    | with_reducible apply Kept.step (State.calPause_kept _)
    | with_reducible apply Kept.step (State.skipSwatches_kept _ _)
    | with_reducible apply Kept.step (State.reach_kept _ _)
    | with_reducible apply Kept.step (State.setCalBank_kept _ _ _)
    | with_reducible apply Kept.step (State.evalSwatch_kept _ _ _ _)
    | with_reducible apply Kept.step (State.swatchDone_kept _ _)
    | (extract_lets +onlyGivenNames x; refine cutK (m := km_execCalSample) (s := s) (x := x) ?_ ?_; on_goal 1 => (try unfold x); on_goal 2 => (intro hx; clear_value x))
    | extract_lets +onlyGivenNames x
    | split
    | refine Kept.of_snd ‹_› ?_)

def km_execSwatchTimeout : Nat := km_calPause ||| km_reach ||| km_lastSwatch ||| km_calCounts ||| km_swatchDone

theorem execSwatchTimeout_kept (bank : Nat) (s : State) : KeptR km_execSwatchTimeout s (execSwatchTimeout bank s) := by
  unfold execSwatchTimeout
  repeat' (first
    | with_reducible assumption
    | decide +kernel
    | with_reducible exact Kept.refl ..
    | (with_reducible apply KeptR.ite <;> intro _)
    | (with_reducible apply Kept.ite <;> intro _)
    | with_reducible refine KeptR.next ?_
    | with_reducible exact KeptR.fault
    | with_reducible apply Kept.step (State.calPause_kept _)
    | with_reducible apply Kept.step (State.reach_kept _ _)
    | with_reducible apply Kept.step (State.lastSwatch_kept _ _ _ _ _ _ _)
    | with_reducible apply Kept.step (State.calCounts_kept _ _)
    | with_reducible apply Kept.step (State.swatchDone_kept _ _)
    | (extract_lets +onlyGivenNames x; refine cutK (m := km_execSwatchTimeout) (s := s) (x := x) ?_ ?_; on_goal 1 => (try unfold x); on_goal 2 => (intro hx; clear_value x))
    | extract_lets +onlyGivenNames x
    | split
    | refine Kept.of_snd ‹_› ?_)

def km_ageFrom : Nat := ob Obj.calNeedleAge ||| km_setNdl

theorem State.ageFrom_kept (s : State) (n : Nat) (t : Option Nat) : Kept km_ageFrom s (State.ageFrom s n t) := by
  unfold State.ageFrom
  repeat' (first
    | with_reducible assumption
    | decide +kernel
    | with_reducible exact Kept.refl ..
    | with_reducible apply Kept.step (State.setFld_kept _ _ _ _ _)
    | with_reducible apply Kept.step (State.setNdl_kept _ _ _)
    | (extract_lets +onlyGivenNames x; refine cutK (m := km_ageFrom) (s := s) (x := x) ?_ ?_; on_goal 1 => (try unfold x); on_goal 2 => (intro hx; clear_value x))
    | extract_lets +onlyGivenNames x
    | split
    | refine Kept.of_snd ‹_› ?_)

def km_execCalAged : Nat := ob Obj.calNeedleAge ||| km_ageFrom ||| km_reach ||| km_latch

theorem execCalAged_kept (needle : Nat) (s : State) : KeptR km_execCalAged s (execCalAged needle s) := by
  unfold execCalAged
  repeat' (first
    | with_reducible assumption
    | decide +kernel
    | with_reducible exact Kept.refl ..
    | (with_reducible apply KeptR.ite <;> intro _)
    | (with_reducible apply Kept.ite <;> intro _)
    | with_reducible refine KeptR.next ?_
    | with_reducible exact KeptR.fault
    | with_reducible apply Kept.step (State.setFld_kept _ _ _ _ _)
    | with_reducible apply Kept.step (State.ageFrom_kept _ _ _)
    | with_reducible apply Kept.step (State.reach_kept _ _)
    | with_reducible apply Kept.step (State.latch_kept _ _)
    | (extract_lets +onlyGivenNames x; refine cutK (m := km_execCalAged) (s := s) (x := x) ?_ ?_; on_goal 1 => (try unfold x); on_goal 2 => (intro hx; clear_value x))
    | extract_lets +onlyGivenNames x
    | split
    | refine Kept.of_snd ‹_› ?_)

def km_calDrive : Nat := km_setPin

theorem State.calDrive_kept (s : State) (p : Nat) (on : Bool) : Kept km_calDrive s (State.calDrive s p on) := by
  unfold State.calDrive
  repeat' (first
    | with_reducible assumption
    | decide +kernel
    | with_reducible exact Kept.refl ..
    | with_reducible apply Kept.step (State.setPin_kept _ _ _)
    | (extract_lets +onlyGivenNames x; refine cutK (m := km_calDrive) (s := s) (x := x) ?_ ?_; on_goal 1 => (try unfold x); on_goal 2 => (intro hx; clear_value x))
    | extract_lets +onlyGivenNames x
    | split
    | refine Kept.of_snd ‹_› ?_)

def km_calWave : Nat := km_emit

theorem State.calWave_kept (s : State) (start : Nat) (stop : Nat) : Kept km_calWave s (State.calWave s start stop) := by
  unfold State.calWave
  repeat' (first
    | with_reducible assumption
    | decide +kernel
    | with_reducible exact Kept.refl ..
    | with_reducible apply Kept.step (State.emit_kept _ _)
    | (extract_lets +onlyGivenNames x; refine cutK (m := km_calWave) (s := s) (x := x) ?_ ?_; on_goal 1 => (try unfold x); on_goal 2 => (intro hx; clear_value x))
    | extract_lets +onlyGivenNames x
    | split
    | refine Kept.of_snd ‹_› ?_)

def km_calSlots : Nat := km_emit

theorem State.calSlots_kept (s : State) (start : Nat) (stop : Nat) : Kept km_calSlots s (State.calSlots s start stop) := by
  unfold State.calSlots
  repeat' (first
    | with_reducible assumption
    | decide +kernel
    | with_reducible exact Kept.refl ..
    | with_reducible apply Kept.step (State.emit_kept _ _)
    | with_reducible apply Kept.foldl
    | with_reducible refine fun (x : State) a hx => ?_
    | (extract_lets +onlyGivenNames x; refine cutK (m := km_calSlots) (s := s) (x := x) ?_ ?_; on_goal 1 => (try unfold x); on_goal 2 => (intro hx; clear_value x))
    | extract_lets +onlyGivenNames x
    | split
    | refine Kept.of_snd ‹_› ?_
    | dsimp +zetaDelta only [id_eq])

def km_fullStart : Nat := ob Obj.calFullStatus ||| pt.cal ||| km_calDrive

theorem State.fullStart_kept (s : State) : Kept km_fullStart s (State.fullStart s) := by
  unfold State.fullStart
  repeat' (first
    | with_reducible assumption
    | decide +kernel
    | with_reducible exact Kept.refl ..
    | with_reducible apply Kept.step (State.setFld_kept _ _ _ _ _)
    | with_reducible apply Kept.step (State.calDrive_kept _ _ _)
    | (extract_lets +onlyGivenNames x; refine cutK (m := km_fullStart) (s := s) (x := x) ?_ ?_; on_goal 1 => (try unfold x); on_goal 2 => (intro hx; clear_value x))
    | extract_lets +onlyGivenNames x
    | split
    | refine Kept.of_snd ‹_› ?_
    | with_reducible apply Kept.set_cal)

def km_fullAbandon : Nat := ob Obj.calFullStatus ||| pt.cal ||| km_calWave ||| km_calSlots ||| km_calDrive

theorem State.fullAbandon_kept (s : State) : Kept km_fullAbandon s (State.fullAbandon s) := by
  unfold State.fullAbandon
  repeat' (first
    | with_reducible assumption
    | decide +kernel
    | with_reducible exact Kept.refl ..
    | (with_reducible apply Kept.ite <;> intro _)
    | with_reducible apply Kept.step (State.setFld_kept _ _ _ _ _)
    | with_reducible apply Kept.step (State.calWave_kept _ _ _)
    | with_reducible apply Kept.step (State.calSlots_kept _ _ _)
    | with_reducible apply Kept.step (State.calDrive_kept _ _ _)
    | (extract_lets +onlyGivenNames x; refine cutK (m := km_fullAbandon) (s := s) (x := x) ?_ ?_; on_goal 1 => (try unfold x); on_goal 2 => (intro hx; clear_value x))
    | extract_lets +onlyGivenNames x
    | split
    | refine Kept.of_snd ‹_› ?_
    | with_reducible apply Kept.set_cal)

def km_fullPin : Nat := ob Obj.calBase ||| ob Obj.calFullPin ||| km_commitGauge ||| km_setAnchor ||| km_noteAge ||| km_applyNow ||| km_calNote

theorem State.fullPin_kept (x : State × Nat × Nat) (p : Nat) : Kept km_fullPin x.1 (State.fullPin x p).1 := by
  obtain ⟨s, pass, bad⟩ := x
  unfold State.fullPin
  dsimp only
  split
  · exact Kept.step (State.wr_kept ..) (by decide +kernel) (Kept.refl ..)
  · split
    · exact Kept.step (State.wr_kept ..) (by decide +kernel) (Kept.refl ..)
    · dsimp only
      have h : Kept km_fullPin s ((s.fullQuants p).foldl (fun s q =>
          match calFound s.cal.found p q with
          | some (g, a, _) => ((s.commitGauge p q g false).setAnchor p q (some a)).noteAge p q g
          | none => s) s) := by
        refine Kept.foldl (fun x q hx => ?_) (Kept.refl ..)
        split
        · exact Kept.step (State.noteAge_kept ..) (by decide +kernel) (Kept.step (State.setAnchor_kept ..) (by decide +kernel)
            (Kept.step (State.commitGauge_kept ..) (by decide +kernel) hx))
        · exact hx
      revert h
      generalize (s.fullQuants p).foldl _ s = u
      intro h
      have k : Kept km_fullPin s ((u.wr Obj.calFullPin p 1).wr Obj.calBase p (u.rd Obj.ptfGauge p)) :=
        Kept.step (State.wr_kept ..) (by decide +kernel) (Kept.step (State.wr_kept ..) (by decide +kernel) h)
      split
      · exact Kept.step (State.applyNow_kept ..) (by decide +kernel) k
      · exact Kept.step (State.calNote_kept ..) (by decide +kernel) k

theorem State.fullPins_kept (l : List Nat) (x : State × Nat × Nat) : Kept km_fullPin x.1 (l.foldl State.fullPin x).1 := by
  induction l generalizing x with
  | nil => exact Kept.refl ..
  | cons p l ih => exact (State.fullPin_kept x p).trans (ih _)


def km_fullDrive : Nat := km_calWave ||| km_calDrive ||| km_calSlots

theorem State.fullDrive_kept (s : State) (t : Nat) (ph : Nat) : Kept km_fullDrive s (State.fullDrive s t ph) := by
  unfold State.fullDrive
  repeat' (first
    | with_reducible assumption
    | decide +kernel
    | with_reducible exact Kept.refl ..
    | (with_reducible apply Kept.ite <;> intro _)
    | with_reducible apply Kept.step (State.calWave_kept _ _ _)
    | with_reducible apply Kept.step (State.calDrive_kept _ _ _)
    | with_reducible apply Kept.step (State.calSlots_kept _ _ _)
    | (extract_lets +onlyGivenNames x; refine cutK (m := km_fullDrive) (s := s) (x := x) ?_ ?_; on_goal 1 => (try unfold x); on_goal 2 => (intro hx; clear_value x))
    | extract_lets +onlyGivenNames x
    | split
    | refine Kept.of_snd ‹_› ?_)

def km_execFullCalPhase : Nat := ob Obj.calFullStatus ||| pt.cal ||| pt.trans ||| km_reach ||| km_fullDrive ||| km_fullPin ||| km_calCount ||| km_enter ||| km_latch

theorem execFullCalPhase_kept (results : CalResults) (s : State) : KeptR km_execFullCalPhase s (execFullCalPhase results s) := by
  unfold execFullCalPhase
  split
  · exact KeptR.next (Kept.refl ..)
  · extract_lets ph u
    have hu : Kept km_execFullCalPhase s u := Kept.step (State.reach_kept _ _) (by decide +kernel) (Kept.refl ..)
    clear_value u
    split
    · have hd : ∀ t, Kept km_execFullCalPhase s (u.fullDrive t ph) := fun t => Kept.step (State.fullDrive_kept _ _ _) (by decide +kernel) hu
      exact KeptR.next (Kept.step (State.setFld_kept _ _ _ _ _) (by decide +kernel) (Kept.set_cal (by decide +kernel) (hd _)))
    · have h : Kept km_execFullCalPhase s ((List.range 256).foldl State.fullPin (u, 0, 0)).1 :=
        Kept.step (State.fullPins_kept _ _) (by decide +kernel) hu
      revert h
      generalize (List.range 256).foldl State.fullPin (u, 0, 0) = r
      obtain ⟨v, pass, bad⟩ := r
      intro h
      refine KeptR.next ?_
      repeat' (first
        | with_reducible assumption
        | decide +kernel
        | (with_reducible apply Kept.ite <;> intro _)
        | with_reducible apply Kept.step (State.wr_kept _ _ _ _)
        | with_reducible apply Kept.step (State.calCount_kept _ _)
        | with_reducible apply Kept.step (State.enter_kept _ _ _ _)
        | with_reducible apply Kept.step (State.latch_kept _ _)
        | (extract_lets +onlyGivenNames x; refine cutK (m := km_execFullCalPhase) (s := s) (x := x) ?_ ?_; on_goal 1 => (try unfold x); on_goal 2 => (intro hx; clear_value x))
        | extract_lets +onlyGivenNames x
        | with_reducible apply Kept.set_trans
        | with_reducible apply Kept.set_cal)


end Sys2Proof.Machine
end

