-- ==== Sys2Proof/Laws/KeptMeasure.lean ====
section
/-! SUPPORT. For every operation of Machine/Measure.lean the parts of the state that it may change. -/
set_option linter.unusedTactic false
set_option linter.unreachableTactic false
set_option linter.unusedVariables false
set_option linter.tactic.unusedName false
set_option Elab.async false
namespace Sys2Proof.Machine

def km_setTdc : Nat := pt.tdc

theorem State.setTdc_kept (s : State) (d : Nat) (x : TdcRt) : Kept km_setTdc s (State.setTdc s d x) := by
  unfold State.setTdc
  repeat' (first
    | with_reducible assumption
    | decide +kernel
    | with_reducible exact Kept.refl ..
    | (extract_lets +onlyGivenNames x; refine cutK (m := km_setTdc) (s := s) (x := x) ?_ ?_; on_goal 1 => (try unfold x); on_goal 2 => (intro hx; clear_value x))
    | extract_lets +onlyGivenNames x
    | split
    | refine Kept.of_snd ‹_› ?_
    | dsimp +zetaDelta only [id_eq]
    | with_reducible apply Kept.set_tdc)

def km_tmuCount : Nat := ob Obj.tmuCounts

theorem State.tmuCount_kept (s : State) (d : Nat) (i : Nat) : Kept km_tmuCount s (State.tmuCount s d i) := by
  unfold State.tmuCount
  repeat' (first
    | with_reducible assumption
    | decide +kernel
    | with_reducible exact Kept.refl ..
    | with_reducible apply Kept.step (State.count_kept _ _ _ _ _ _)
    | (extract_lets +onlyGivenNames x; refine cutK (m := km_tmuCount) (s := s) (x := x) ?_ ?_; on_goal 1 => (try unfold x); on_goal 2 => (intro hx; clear_value x))
    | extract_lets +onlyGivenNames x
    | split
    | refine Kept.of_snd ‹_› ?_)

def km_tmuEnd : Nat := ob Obj.tmuResult ||| ob Obj.tmuState ||| km_latch

theorem State.tmuEnd_kept (s : State) (d : Nat) (code : Nat) : Kept km_tmuEnd s (State.tmuEnd s d code) := by
  unfold State.tmuEnd
  repeat' (first
    | with_reducible assumption
    | decide +kernel
    | with_reducible exact Kept.refl ..
    | (with_reducible apply Kept.ite <;> intro _)
    | with_reducible apply Kept.step (State.wr_kept _ _ _ _)
    | with_reducible apply Kept.step (State.setFld_kept _ _ _ _ _)
    | with_reducible apply Kept.step (State.latch_kept _ _)
    | (extract_lets +onlyGivenNames x; refine cutK (m := km_tmuEnd) (s := s) (x := x) ?_ ?_; on_goal 1 => (try unfold x); on_goal 2 => (intro hx; clear_value x))
    | extract_lets +onlyGivenNames x
    | split
    | refine Kept.of_snd ‹_› ?_)

def km_tmuSample : Nat := ob Obj.tmuResult ||| km_setTdc ||| km_tmuCount ||| km_tmuEnd

theorem State.tmuSample_kept (s : State) (d : Nat) (stat : Option Frac) : Kept km_tmuSample s (State.tmuSample s d stat) := by
  unfold State.tmuSample
  repeat' (first
    | with_reducible assumption
    | decide +kernel
    | with_reducible exact Kept.refl ..
    | (with_reducible apply Kept.ite <;> intro _)
    | with_reducible apply Kept.step (State.setFld_kept _ _ _ _ _)
    | with_reducible apply Kept.step (State.count_kept _ _ _ _ _ _)
    | with_reducible apply Kept.step (State.setTdc_kept _ _ _)
    | with_reducible apply Kept.step (State.tmuCount_kept _ _ _)
    | with_reducible apply Kept.step (State.tmuEnd_kept _ _ _)
    | (extract_lets +onlyGivenNames x; refine cutK (m := km_tmuSample) (s := s) (x := x) ?_ ?_; on_goal 1 => (try unfold x); on_goal 2 => (intro hx; clear_value x))
    | extract_lets +onlyGivenNames x
    | split
    | refine Kept.of_snd ‹_› ?_)

def km_tmuCtrl : Nat := ob Obj.tmuCounts ||| ob Obj.tmuCtrl ||| ob Obj.tmuResult ||| ob Obj.tmuState ||| km_tmuEnd ||| km_draw ||| km_setTdc

theorem State.tmuCtrl_kept (s : State) (d : Nat) (v : Nat) : Kept km_tmuCtrl s (State.tmuCtrl s d v) := by
  unfold State.tmuCtrl
  repeat' (first
    | with_reducible assumption
    | decide +kernel
    | with_reducible exact Kept.refl ..
    | (with_reducible apply Kept.ite <;> intro _)
    | with_reducible apply Kept.step (State.wr_kept _ _ _ _)
    | with_reducible apply Kept.step (State.tmuEnd_kept _ _ _)
    | with_reducible apply Kept.step (State.draw_kept _)
    | with_reducible apply Kept.step (State.setTdc_kept _ _ _)
    | (extract_lets +onlyGivenNames x; refine cutK (m := km_tmuCtrl) (s := s) (x := x) ?_ ?_; on_goal 1 => (try unfold x); on_goal 2 => (intro hx; clear_value x))
    | extract_lets +onlyGivenNames x
    | split
    | refine Kept.of_snd ‹_› ?_)

def km_tmuAbandon : Nat := km_tmuEnd

theorem State.tmuAbandon_kept (s : State) : Kept km_tmuAbandon s (State.tmuAbandon s) := by
  unfold State.tmuAbandon
  repeat' (first
    | with_reducible assumption
    | decide +kernel
    | with_reducible exact Kept.refl ..
    | with_reducible apply Kept.step (State.tmuEnd_kept _ _ _)
    | with_reducible apply Kept.foldl
    | with_reducible refine fun (x : State) a hx => ?_
    | (extract_lets +onlyGivenNames x; refine cutK (m := km_tmuAbandon) (s := s) (x := x) ?_ ?_; on_goal 1 => (try unfold x); on_goal 2 => (intro hx; clear_value x))
    | extract_lets +onlyGivenNames x
    | split
    | refine Kept.of_snd ‹_› ?_
    | dsimp +zetaDelta only [id_eq])

def km_takeStamp : Nat := km_setTdc ||| km_tmuCount

theorem State.takeStamp_kept (s : State) (d : Nat) (b : Bool) (falling : Bool) (st : Nat) : Kept km_takeStamp s (State.takeStamp s d b falling st) := by
  unfold State.takeStamp
  repeat' (first
    | with_reducible assumption
    | decide +kernel
    | with_reducible exact Kept.refl ..
    | (with_reducible apply Kept.ite <;> intro _)
    | with_reducible apply Kept.step (State.setTdc_kept _ _ _)
    | with_reducible apply Kept.step (State.tmuCount_kept _ _ _)
    | (extract_lets +onlyGivenNames x; refine cutK (m := km_takeStamp) (s := s) (x := x) ?_ ?_; on_goal 1 => (try unfold x); on_goal 2 => (intro hx; clear_value x))
    | extract_lets +onlyGivenNames x
    | split
    | refine Kept.of_snd ‹_› ?_)

def km_chainEdge : Nat := km_draw ||| km_tmuSample ||| km_takeStamp ||| km_setTdc ||| km_tmuCount

theorem State.chainEdge_kept (s : State) (d : Nat) (mode : Nat) (st : Nat) (ready : Bool) (falling : Bool) : Kept km_chainEdge s (State.chainEdge s d mode st ready falling) := by
  unfold State.chainEdge
  repeat' (first
    | with_reducible assumption
    | decide +kernel
    | with_reducible exact Kept.refl ..
    | (with_reducible apply Kept.ite <;> intro _)
    | with_reducible apply Kept.step (State.draw_kept _)
    | with_reducible apply Kept.step (State.tmuSample_kept _ _ _)
    | with_reducible apply Kept.step (State.takeStamp_kept _ _ _ _ _)
    | with_reducible apply Kept.step (State.setTdc_kept _ _ _)
    | with_reducible apply Kept.step (State.tmuCount_kept _ _ _)
    | (extract_lets +onlyGivenNames x; refine cutK (m := km_chainEdge) (s := s) (x := x) ?_ ?_; on_goal 1 => (try unfold x); on_goal 2 => (intro hx; clear_value x))
    | extract_lets +onlyGivenNames x
    | split
    | refine Kept.of_snd ‹_› ?_
    | dsimp +zetaDelta only [id_eq])

def km_intervalClose : Nat := km_setTdc ||| km_tmuSample

theorem State.intervalClose_kept (s : State) (d : Nat) (st : Nat) (a : Nat) : Kept km_intervalClose s (State.intervalClose s d st a) := by
  unfold State.intervalClose
  exact Kept.step (State.tmuSample_kept _ _ _) (by decide +kernel) (Kept.step (State.setTdc_kept _ _ _) (by decide +kernel) (Kept.refl ..))

def km_intervalStamp : Nat := km_setTdc ||| km_intervalClose

theorem State.intervalStamp_kept (s : State) (d : Nat) (st : Nat) (b : Bool) : Kept km_intervalStamp s (State.intervalStamp s d st b) := by
  unfold State.intervalStamp
  repeat' (first
    | with_reducible assumption
    | decide +kernel
    | with_reducible exact Kept.refl ..
    | (with_reducible apply Kept.ite <;> intro _)
    | with_reducible apply Kept.step (State.setTdc_kept _ _ _)
    | with_reducible apply Kept.step (State.intervalClose_kept _ _ _ _)
    | (extract_lets +onlyGivenNames x; refine cutK (m := km_intervalStamp) (s := s) (x := x) ?_ ?_; on_goal 1 => (try unfold x); on_goal 2 => (intro hx; clear_value x))
    | extract_lets +onlyGivenNames x
    | split
    | refine Kept.of_snd ‹_› ?_
    | dsimp +zetaDelta only [id_eq])

def km_execTdcStamp : Nat := km_reach ||| km_setTdc ||| km_chainEdge ||| km_tmuCount ||| km_takeStamp ||| km_tmuSample ||| km_intervalStamp

theorem execTdcStamp_kept (tdc : Nat) (source : Nat) (falling : Bool) (t : Nat) (s : State) : KeptR km_execTdcStamp s (execTdcStamp tdc source falling t s) := by
  unfold execTdcStamp
  repeat' (first
    | with_reducible assumption
    | decide +kernel
    | with_reducible exact Kept.refl ..
    | (with_reducible apply KeptR.ite <;> intro _)
    | (with_reducible apply Kept.ite <;> intro _)
    | with_reducible refine KeptR.next ?_
    | with_reducible exact KeptR.fault
    | with_reducible apply Kept.step (State.reach_kept _ _)
    | with_reducible apply Kept.step (State.setTdc_kept _ _ _)
    | with_reducible apply Kept.step (State.chainEdge_kept _ _ _ _ _ _)
    | with_reducible apply Kept.step (State.tmuCount_kept _ _ _)
    | with_reducible apply Kept.step (State.takeStamp_kept _ _ _ _ _)
    | with_reducible apply Kept.step (State.tmuSample_kept _ _ _)
    | with_reducible apply Kept.step (State.intervalStamp_kept _ _ _ _)
    | (extract_lets +onlyGivenNames x; refine cutK (m := km_execTdcStamp) (s := s) (x := x) ?_ ?_; on_goal 1 => (try unfold x); on_goal 2 => (intro hx; clear_value x))
    | extract_lets +onlyGivenNames x
    | split
    | refine Kept.of_snd ‹_› ?_
    | dsimp +zetaDelta only [id_eq])

def km_execGateClose : Nat := km_reach ||| km_setTdc ||| km_tmuEnd ||| km_tmuSample

theorem execGateClose_kept (tdc : Nat) (t : Nat) (s : State) : KeptR km_execGateClose s (execGateClose tdc t s) := by
  unfold execGateClose
  repeat' (first
    | with_reducible assumption
    | decide +kernel
    | with_reducible exact Kept.refl ..
    | (with_reducible apply KeptR.ite <;> intro _)
    | (with_reducible apply Kept.ite <;> intro _)
    | with_reducible refine KeptR.next ?_
    | with_reducible exact KeptR.fault
    | with_reducible apply Kept.step (State.reach_kept _ _)
    | with_reducible apply Kept.step (State.setTdc_kept _ _ _)
    | with_reducible apply Kept.step (State.tmuEnd_kept _ _ _)
    | with_reducible apply Kept.step (State.tmuSample_kept _ _ _)
    | (extract_lets +onlyGivenNames x; refine cutK (m := km_execGateClose) (s := s) (x := x) ?_ ?_; on_goal 1 => (try unfold x); on_goal 2 => (intro hx; clear_value x))
    | extract_lets +onlyGivenNames x
    | split
    | refine Kept.of_snd ‹_› ?_)

def km_execTmuTimeout : Nat := km_reach ||| km_tmuEnd

theorem execTmuTimeout_kept (tdc : Nat) (s : State) : KeptR km_execTmuTimeout s (execTmuTimeout tdc s) := by
  unfold execTmuTimeout
  repeat' (first
    | with_reducible assumption
    | decide +kernel
    | with_reducible exact Kept.refl ..
    | (with_reducible apply KeptR.ite <;> intro _)
    | (with_reducible apply Kept.ite <;> intro _)
    | with_reducible refine KeptR.next ?_
    | with_reducible exact KeptR.fault
    | with_reducible apply Kept.step (State.reach_kept _ _)
    | with_reducible apply Kept.step (State.tmuEnd_kept _ _ _)
    | (extract_lets +onlyGivenNames x; refine cutK (m := km_execTmuTimeout) (s := s) (x := x) ?_ ?_; on_goal 1 => (try unfold x); on_goal 2 => (intro hx; clear_value x))
    | extract_lets +onlyGivenNames x
    | split
    | refine Kept.of_snd ‹_› ?_)

def km_ageing : Nat := ob Obj.tmuXtalAgeing ||| pt.clk

theorem State.ageing_kept (s : State) (v : Nat) : Kept km_ageing s (State.ageing s v) := by
  unfold State.ageing
  repeat' (first
    | with_reducible assumption
    | decide +kernel
    | with_reducible exact Kept.refl ..
    | with_reducible apply Kept.step (State.wr_kept _ _ _ _)
    | (extract_lets +onlyGivenNames x; refine cutK (m := km_ageing) (s := s) (x := x) ?_ ?_; on_goal 1 => (try unfold x); on_goal 2 => (intro hx; clear_value x))
    | extract_lets +onlyGivenNames x
    | split
    | refine Kept.of_snd ‹_› ?_
    | with_reducible apply Kept.set_clk)

end Sys2Proof.Machine
end

