-- ==== Sys2Proof/Laws/KeptPlace.lean ====
section
/-! SUPPORT. For every operation of Machine/Place.lean the parts of the state that it may change. -/
set_option linter.unusedTactic false
set_option linter.unreachableTactic false
set_option linter.unusedVariables false
set_option linter.tactic.unusedName false
set_option Elab.async false
namespace Sys2Proof.Machine

def km_plcCount : Nat := ob Obj.plcCounts

theorem State.plcCount_kept (s : State) (i : Nat) : Kept km_plcCount s (State.plcCount s i) := by
  unfold State.plcCount
  repeat' (first
    | with_reducible assumption
    | decide +kernel
    | with_reducible exact Kept.refl ..
    | with_reducible apply Kept.step (State.count_kept _ _ _ _ _ _)
    | (extract_lets +onlyGivenNames x; refine cutK (m := km_plcCount) (s := s) (x := x) ?_ ?_; on_goal 1 => (try unfold x); on_goal 2 => (intro hx; clear_value x))
    | extract_lets +onlyGivenNames x
    | split
    | refine Kept.of_snd ‹_› ?_)

def km_plcLog : Nat := pt.plc

theorem State.plcLog_kept (s : State) (kind : Nat) (needle : Nat) (chart : Nat) (item : Nat) (value : Nat) : Kept km_plcLog s (State.plcLog s kind needle chart item value) := by
  unfold State.plcLog
  repeat' (first
    | with_reducible assumption
    | decide +kernel
    | with_reducible exact Kept.refl ..
    | (extract_lets +onlyGivenNames x; refine cutK (m := km_plcLog) (s := s) (x := x) ?_ ?_; on_goal 1 => (try unfold x); on_goal 2 => (intro hx; clear_value x))
    | extract_lets +onlyGivenNames x
    | split
    | refine Kept.of_snd ‹_› ?_
    | with_reducible apply Kept.set_plc)

def km_plcReport : Nat := ob Obj.plcReport

theorem State.plcReport_kept (s : State) (r : Report) : Kept km_plcReport s (State.plcReport s r) := by
  unfold State.plcReport
  repeat' (first
    | with_reducible assumption
    | decide +kernel
    | with_reducible exact Kept.refl ..
    | with_reducible apply Kept.step (State.wr_kept _ _ _ _)
    | (extract_lets +onlyGivenNames x; refine cutK (m := km_plcReport) (s := s) (x := x) ?_ ?_; on_goal 1 => (try unfold x); on_goal 2 => (intro hx; clear_value x))
    | extract_lets +onlyGivenNames x
    | split
    | refine Kept.of_snd ‹_› ?_)

def km_plcDemand : Nat := ob Obj.plcNeedleDemand ||| ob Obj.plcTotals

theorem State.plcDemand_kept (s : State) (res : List Nat) : Kept km_plcDemand s (State.plcDemand s res) := by
  unfold State.plcDemand
  repeat' (first
    | with_reducible assumption
    | decide +kernel
    | with_reducible exact Kept.refl ..
    | (with_reducible apply Kept.ite <;> intro _)
    | with_reducible apply Kept.step (State.wr_kept _ _ _ _)
    | with_reducible apply Kept.foldl
    | with_reducible refine fun (x : State) a hx => ?_
    | (extract_lets +onlyGivenNames x; refine cutK (m := km_plcDemand) (s := s) (x := x) ?_ ?_; on_goal 1 => (try unfold x); on_goal 2 => (intro hx; clear_value x))
    | extract_lets +onlyGivenNames x
    | split
    | refine Kept.of_snd ‹_› ?_
    | dsimp +zetaDelta only [id_eq])

def km_plcRefuse : Nat := ob Obj.plcState ||| pt.plc ||| km_plcReport ||| km_plcCount ||| km_plcLog ||| km_latch

theorem State.plcRefuse_kept (s : State) (r : Report) : Kept km_plcRefuse s (State.plcRefuse s r) := by
  unfold State.plcRefuse
  repeat' (first
    | with_reducible assumption
    | decide +kernel
    | with_reducible exact Kept.refl ..
    | with_reducible apply Kept.step (State.wr_kept _ _ _ _)
    | with_reducible apply Kept.step (State.plcReport_kept _ _)
    | with_reducible apply Kept.step (State.plcCount_kept _ _)
    | with_reducible apply Kept.step (State.plcLog_kept _ _ _ _ _ _)
    | with_reducible apply Kept.step (State.latch_kept _ _)
    | (extract_lets +onlyGivenNames x; refine cutK (m := km_plcRefuse) (s := s) (x := x) ?_ ?_; on_goal 1 => (try unfold x); on_goal 2 => (intro hx; clear_value x))
    | extract_lets +onlyGivenNames x
    | split
    | refine Kept.of_snd ‹_› ?_
    | with_reducible apply Kept.set_plc)

def km_placeNote : Nat := ob Obj.plcChartPlace

theorem State.placeNote_kept (s : State) (h : Nat) : Kept km_placeNote s (State.placeNote s h) := by
  unfold State.placeNote
  repeat' (first
    | with_reducible assumption
    | decide +kernel
    | with_reducible exact Kept.refl ..
    | with_reducible apply Kept.step (State.wr_kept _ _ _ _)
    | with_reducible apply Kept.foldl
    | with_reducible refine fun (x : State) a hx => ?_
    | (extract_lets +onlyGivenNames x; refine cutK (m := km_placeNote) (s := s) (x := x) ?_ ?_; on_goal 1 => (try unfold x); on_goal 2 => (intro hx; clear_value x))
    | extract_lets +onlyGivenNames x
    | split
    | refine Kept.of_snd ‹_› ?_
    | dsimp +zetaDelta only [id_eq])

def km_dealQueues : Nat := ob Obj.plcSiteCore ||| ob Obj.rqpPoolStatus ||| pt.homes ||| km_putQueue ||| km_poolNote ||| km_queueNote ||| km_plcLog

theorem State.dealQueues_kept (s : State) : Kept km_dealQueues s (State.dealQueues s) := by
  unfold State.dealQueues
  repeat' (first
    | with_reducible assumption
    | decide +kernel
    | with_reducible exact Kept.refl ..
    | (with_reducible apply Kept.ite <;> intro _)
    | with_reducible apply Kept.step (State.wr_kept _ _ _ _)
    | with_reducible apply Kept.step (State.setFld_kept _ _ _ _ _)
    | with_reducible apply Kept.step (State.putQueue_kept _ _ _)
    | with_reducible apply Kept.step (State.poolNote_kept _)
    | with_reducible apply Kept.step (State.queueNote_kept _ _)
    | with_reducible apply Kept.step (State.plcLog_kept _ _ _ _ _ _)
    | with_reducible apply Kept.foldl
    | with_reducible refine fun (x : State) a hx => ?_
    | (extract_lets +onlyGivenNames x; refine cutK (m := km_dealQueues) (s := s) (x := x) ?_ ?_; on_goal 1 => (try unfold x); on_goal 2 => (intro hx; clear_value x))
    | extract_lets +onlyGivenNames x
    | split
    | refine Kept.of_snd ‹_› ?_
    | dsimp +zetaDelta only [id_eq]
    | with_reducible apply Kept.set_homes)

def km_placeAll : Nat := ob Obj.lvlBankOwner ||| ob Obj.ndlChartState ||| ob Obj.ptfWaveState ||| pt.plc ||| km_plcCount ||| km_plcReport ||| km_plcLog ||| km_placeNote ||| km_dealQueues

theorem State.placeAll_kept (s : State) (res : List Nat) : Kept km_placeAll s (State.placeAll s res) := by
  unfold State.placeAll
  repeat' (first
    | with_reducible assumption
    | decide +kernel
    | with_reducible exact Kept.refl ..
    | (with_reducible apply Kept.ite <;> intro _)
    | with_reducible apply Kept.step (State.wr_kept _ _ _ _)
    | with_reducible apply Kept.step (State.setFld_kept _ _ _ _ _)
    | with_reducible apply Kept.step (State.plcCount_kept _ _)
    | with_reducible apply Kept.step (State.plcReport_kept _ _)
    | with_reducible apply Kept.step (State.plcLog_kept _ _ _ _ _ _)
    | with_reducible apply Kept.step (State.placeNote_kept _ _)
    | with_reducible apply Kept.step (State.dealQueues_kept _)
    | with_reducible apply Kept.foldl
    | with_reducible refine fun (x : State) a hx => ?_
    | (extract_lets +onlyGivenNames x; refine cutK (m := km_placeAll) (s := s) (x := x) ?_ ?_; on_goal 1 => (try unfold x); on_goal 2 => (intro hx; clear_value x))
    | extract_lets +onlyGivenNames x
    | split
    | refine Kept.of_snd ‹_› ?_
    | dsimp +zetaDelta only [id_eq]
    | with_reducible apply Kept.set_plc)

def km_startCopy : Nat := pt.plc

theorem State.startCopy_kept (s : State) : Kept km_startCopy s (State.startCopy s) := by
  unfold State.startCopy
  repeat' (first
    | with_reducible assumption
    | decide +kernel
    | with_reducible exact Kept.refl ..
    | (with_reducible apply Kept.ite <;> intro _)
    | (extract_lets +onlyGivenNames x; refine cutK (m := km_startCopy) (s := s) (x := x) ?_ ?_; on_goal 1 => (try unfold x); on_goal 2 => (intro hx; clear_value x))
    | extract_lets +onlyGivenNames x
    | split
    | refine Kept.of_snd ‹_› ?_
    | with_reducible apply Kept.set_plc)

def km_switchNote : Nat := ob Obj.ndlStatus

theorem State.switchNote_kept (s : State) (n : Nat) : Kept km_switchNote s (State.switchNote s n) := by
  unfold State.switchNote
  repeat' (first
    | with_reducible assumption
    | decide +kernel
    | with_reducible exact Kept.refl ..
    | with_reducible apply Kept.step (State.setFld_kept _ _ _ _ _)
    | (extract_lets +onlyGivenNames x; refine cutK (m := km_switchNote) (s := s) (x := x) ?_ ?_; on_goal 1 => (try unfold x); on_goal 2 => (intro hx; clear_value x))
    | extract_lets +onlyGivenNames x
    | split
    | refine Kept.of_snd ‹_› ?_
    | dsimp +zetaDelta only [id_eq])

def km_execMigrationCopyDone : Nat := pt.plc ||| km_plcCount ||| km_plcLog ||| km_switchNote ||| km_placeNote ||| km_startCopy

theorem execMigrationCopyDone_kept (handle : Nat) (seg : Nat) (s : State) : KeptR km_execMigrationCopyDone s (execMigrationCopyDone handle seg s) := by
  unfold execMigrationCopyDone
  repeat' (first
    | with_reducible assumption
    | decide +kernel
    | with_reducible exact Kept.refl ..
    | (with_reducible apply KeptR.ite <;> intro _)
    | (with_reducible apply Kept.ite <;> intro _)
    | with_reducible refine KeptR.next ?_
    | with_reducible exact KeptR.fault
    | with_reducible apply Kept.step (State.plcCount_kept _ _)
    | with_reducible apply Kept.step (State.plcLog_kept _ _ _ _ _ _)
    | with_reducible apply Kept.step (State.switchNote_kept _ _)
    | with_reducible apply Kept.step (State.placeNote_kept _ _)
    | with_reducible apply Kept.step (State.startCopy_kept _)
    | with_reducible apply Kept.foldl
    | with_reducible refine fun (x : State) a hx => ?_
    | (extract_lets +onlyGivenNames x; refine cutK (m := km_execMigrationCopyDone) (s := s) (x := x) ?_ ?_; on_goal 1 => (try unfold x); on_goal 2 => (intro hx; clear_value x))
    | extract_lets +onlyGivenNames x
    | split
    | refine Kept.of_snd ‹_› ?_
    | dsimp +zetaDelta only [id_eq]
    | with_reducible apply Kept.set_plc)

def km_applySwitches : Nat := pt.plc ||| km_plcCount ||| km_plcLog ||| km_placeNote ||| km_latch ||| km_switchNote

theorem State.applySwitches_kept (s : State) (n : Nat) (e : Nat) : Kept km_applySwitches s (State.applySwitches s n e) := by
  unfold State.applySwitches
  repeat' (first
    | with_reducible assumption
    | decide +kernel
    | with_reducible exact Kept.refl ..
    | (with_reducible apply Kept.ite <;> intro _)
    | with_reducible apply Kept.step (State.plcCount_kept _ _)
    | with_reducible apply Kept.step (State.plcLog_kept _ _ _ _ _ _)
    | with_reducible apply Kept.step (State.placeNote_kept _ _)
    | with_reducible apply Kept.step (State.latch_kept _ _)
    | with_reducible apply Kept.step (State.switchNote_kept _ _)
    | with_reducible apply Kept.foldl
    | with_reducible refine fun (x : State) a hx => ?_
    | (extract_lets +onlyGivenNames x; refine cutK (m := km_applySwitches) (s := s) (x := x) ?_ ?_; on_goal 1 => (try unfold x); on_goal 2 => (intro hx; clear_value x))
    | extract_lets +onlyGivenNames x
    | split
    | refine Kept.of_snd ‹_› ?_
    | dsimp +zetaDelta only [id_eq]
    | with_reducible apply Kept.set_plc)

def km_plcNone : Nat := ob Obj.plcState ||| km_plcLog

theorem State.plcNone_kept (s : State) : Kept km_plcNone s (State.plcNone s) := by
  unfold State.plcNone
  repeat' (first
    | with_reducible assumption
    | decide +kernel
    | with_reducible exact Kept.refl ..
    | (with_reducible apply Kept.ite <;> intro _)
    | with_reducible apply Kept.step (State.wr_kept _ _ _ _)
    | with_reducible apply Kept.step (State.plcLog_kept _ _ _ _ _ _)
    | (extract_lets +onlyGivenNames x; refine cutK (m := km_plcNone) (s := s) (x := x) ?_ ?_; on_goal 1 => (try unfold x); on_goal 2 => (intro hx; clear_value x))
    | extract_lets +onlyGivenNames x
    | split
    | refine Kept.of_snd ‹_› ?_)

def km_freeCharts : Nat := ob Obj.ndlChartState ||| ob Obj.plcChartPlace

theorem State.freeCharts_kept (s : State) : Kept km_freeCharts s (State.freeCharts s) := by
  unfold State.freeCharts
  repeat' (first
    | with_reducible assumption
    | decide +kernel
    | with_reducible exact Kept.refl ..
    | (with_reducible apply Kept.ite <;> intro _)
    | with_reducible apply Kept.step (State.wr_kept _ _ _ _)
    | with_reducible apply Kept.foldl
    | with_reducible refine fun (x : State) a hx => ?_
    | (extract_lets +onlyGivenNames x; refine cutK (m := km_freeCharts) (s := s) (x := x) ?_ ?_; on_goal 1 => (try unfold x); on_goal 2 => (intro hx; clear_value x))
    | extract_lets +onlyGivenNames x
    | split
    | refine Kept.of_snd ‹_› ?_
    | dsimp +zetaDelta only [id_eq])

def km_freeWaves : Nat := ob Obj.ptfWaveState ||| km_switchNote

theorem State.freeWaves_kept (s : State) (n : Nat) : Kept km_freeWaves s (State.freeWaves s n) := by
  unfold State.freeWaves
  repeat' (first
    | with_reducible assumption
    | decide +kernel
    | with_reducible exact Kept.refl ..
    | (with_reducible apply Kept.ite <;> intro _)
    | with_reducible apply Kept.step (State.wr_kept _ _ _ _)
    | with_reducible apply Kept.step (State.switchNote_kept _ _)
    | with_reducible apply Kept.foldl
    | with_reducible refine fun (x : State) a hx => ?_
    | (extract_lets +onlyGivenNames x; refine cutK (m := km_freeWaves) (s := s) (x := x) ?_ ?_; on_goal 1 => (try unfold x); on_goal 2 => (intro hx; clear_value x))
    | extract_lets +onlyGivenNames x
    | split
    | refine Kept.of_snd ‹_› ?_
    | dsimp +zetaDelta only [id_eq])

def km_releasePlacement : Nat := ob Obj.lvlBankOwner ||| ob Obj.plcSiteCore ||| pt.plc ||| pt.homes ||| km_freeWaves ||| km_freeCharts ||| km_setNdl ||| km_plcNone ||| km_releaseQueues ||| km_taeRelease ||| km_rasRelease

theorem State.releasePlacement_kept (s : State) : Kept km_releasePlacement s (State.releasePlacement s) := by
  unfold State.releasePlacement
  repeat' (first
    | with_reducible assumption
    | decide +kernel
    | with_reducible exact Kept.refl ..
    | with_reducible apply Kept.step (State.wr_kept _ _ _ _)
    | with_reducible apply Kept.step (State.wrAll_kept _ _ _ _)
    | with_reducible apply Kept.step (State.freeWaves_kept _ _)
    | with_reducible apply Kept.step (State.freeCharts_kept _)
    | with_reducible apply Kept.step (State.setNdl_kept _ _ _)
    | with_reducible apply Kept.step (State.plcNone_kept _)
    | with_reducible apply Kept.step (State.releaseQueues_kept _)
    | with_reducible apply Kept.step (State.taeRelease_kept _)
    | with_reducible apply Kept.step (State.rasRelease_kept _)
    | with_reducible apply Kept.foldl
    | with_reducible refine fun (x : State) a hx => ?_
    | (extract_lets +onlyGivenNames x; refine cutK (m := km_releasePlacement) (s := s) (x := x) ?_ ?_; on_goal 1 => (try unfold x); on_goal 2 => (intro hx; clear_value x))
    | extract_lets +onlyGivenNames x
    | split
    | refine Kept.of_snd ‹_› ?_
    | dsimp +zetaDelta only [id_eq]
    | with_reducible apply Kept.set_plc_homes)

end Sys2Proof.Machine
end

