-- ==== Sys2Proof/Laws/KeptHbm.lean ====
section
/-! SUPPORT. For every operation of Machine/Hbm.lean the parts of the state that it may change. -/
set_option linter.unusedTactic false
set_option linter.unreachableTactic false
set_option linter.unusedVariables false
set_option linter.tactic.unusedName false
set_option Elab.async false
namespace Sys2Proof.Machine

def km_readBursts : Nat := km_checked ||| km_burst

theorem State.readBursts_kept (s : State) (x : Request) (errorBits : Nat) : Kept km_readBursts s (State.readBursts s x errorBits).2 := by
  unfold State.readBursts
  repeat' (first
    | with_reducible assumption
    | decide +kernel
    | with_reducible exact Kept.refl ..
    | (with_reducible apply Kept.ite <;> intro _)
    | (with_reducible apply Kept.ite2 <;> intro _)
    | with_reducible apply Kept.step (State.checked_kept _ _ _)
    | with_reducible apply Kept.step (State.burst_kept _ _ _ _ _ _)
    | with_reducible apply Kept.foldl_snd
    | with_reducible refine fun (x : _ × State) a hx => ?_
    | with_reducible apply Kept.foldl
    | with_reducible refine fun (x : State) a hx => ?_
    | (extract_lets +onlyGivenNames x; refine cutK (m := km_readBursts) (s := s) (x := x) ?_ ?_; on_goal 1 => (try unfold x); on_goal 2 => (intro hx; clear_value x))
    | (extract_lets +onlyGivenNames x; refine cutK (m := km_readBursts) (s := s) (x := x.2) ?_ ?_; on_goal 1 => (try unfold x); on_goal 2 => (intro hx; clear_value x))
    | extract_lets +onlyGivenNames x
    | split
    | refine Kept.of_snd ‹_› ?_
    | dsimp +zetaDelta only [id_eq])

def km_nearIssue : Nat := pt.hms ||| km_hmsCount

theorem State.nearIssue_kept (s : State) (pc : Nat) : Kept km_nearIssue s (State.nearIssue s pc) := by
  unfold State.nearIssue
  repeat' (first
    | with_reducible assumption
    | decide +kernel
    | with_reducible exact Kept.refl ..
    | (with_reducible apply Kept.ite <;> intro _)
    | with_reducible apply Kept.step (State.hmsCount_kept _ _ _)
    | with_reducible apply Kept.foldl
    | with_reducible refine fun (x : State) a hx => ?_
    | (extract_lets +onlyGivenNames x; refine cutK (m := km_nearIssue) (s := s) (x := x) ?_ ?_; on_goal 1 => (try unfold x); on_goal 2 => (intro hx; clear_value x))
    | extract_lets +onlyGivenNames x
    | dsimp +zetaDelta only [id_eq]
    | with_reducible apply Kept.set_hms)

def km_memServe : Nat := pt.hms ||| pt.mem ||| km_activate ||| km_nearIssue ||| km_loadStats ||| km_draw ||| km_raise ||| km_readBursts ||| km_emit

theorem State.memServe_kept (s : State) (x : Request × Nat) (errorBits : Nat) : Kept km_memServe s (State.memServe s x errorBits) := by
  unfold State.memServe
  repeat' (first
    | with_reducible assumption
    | decide +kernel
    | with_reducible exact Kept.refl ..
    | (with_reducible apply Kept.ite <;> intro _)
    | with_reducible apply Kept.step (State.nearIssue_kept _ _)
    | with_reducible apply Kept.step (State.activate_kept _ _ _)
    | with_reducible apply Kept.step (State.loadStats_kept _ _ _ _ _)
    | with_reducible apply Kept.step (State.draw_kept _)
    | with_reducible apply Kept.step (State.raise_kept _ _ _ _ _ _ _ _)
    | with_reducible apply Kept.step (State.readBursts_kept _ _ _)
    | with_reducible apply Kept.step (State.emit_kept _ _)
    | exact Memory.writeAll_wf _ _
    | exact Tbl.filter_wf _
    | (extract_lets +onlyGivenNames x; refine cutK (m := km_memServe) (s := s) (x := x) ?_ ?_; on_goal 1 => (try unfold x); on_goal 2 => (intro hx; clear_value x))
    | (extract_lets +onlyGivenNames x; refine cutK (m := km_memServe) (s := s) (x := x.2) ?_ ?_; on_goal 1 => (try unfold x); on_goal 2 => (intro hx; clear_value x))
    | extract_lets +onlyGivenNames x
    | split
    | refine Kept.of_snd ‹_› ?_
    | dsimp +zetaDelta only [id_eq]
    | with_reducible apply Kept.set_hms
    | with_reducible apply Kept.set_mem)

def km_memArrive : Nat := pt.hms ||| km_wake

theorem State.memArrive_kept (s : State) (r : Request) : Kept km_memArrive s (State.memArrive s r) := by
  unfold State.memArrive
  repeat' (first
    | with_reducible assumption
    | decide +kernel
    | with_reducible exact Kept.refl ..
    | (with_reducible apply Kept.ite <;> intro _)
    | with_reducible apply Kept.step (State.wake_kept _ _ _)
    | (extract_lets +onlyGivenNames x; refine cutK (m := km_memArrive) (s := s) (x := x) ?_ ?_; on_goal 1 => (try unfold x); on_goal 2 => (intro hx; clear_value x))
    | extract_lets +onlyGivenNames x
    | split
    | refine Kept.of_snd ‹_› ?_
    | dsimp +zetaDelta only [id_eq]
    | with_reducible apply Kept.set_hms)

def km_execMemoryRequest : Nat := km_memArrive ||| km_memServe

theorem execMemoryRequest_kept (channel master : Nat) (write : Bool) (addr : Nat) (data : Bytes) (errorBits : Nat) (s : State) :
    KeptR km_execMemoryRequest s (execMemoryRequest channel master write addr data errorBits s) := by
  unfold execMemoryRequest
  repeat' (first
    | with_reducible assumption
    | decide +kernel
    | with_reducible exact Kept.refl ..
    | with_reducible refine KeptR.next ?_
    | with_reducible exact KeptR.fault
    | with_reducible apply Kept.step (State.memArrive_kept _ _)
    | with_reducible apply Kept.step (State.memServe_kept _ _ _)
    | (with_reducible apply KeptR.ite <;> intro _)
    | (with_reducible apply Kept.ite <;> intro _)
    | (extract_lets +onlyGivenNames x; refine cutK (m := km_execMemoryRequest) (s := s) (x := x) ?_ ?_; on_goal 1 => (try unfold x); on_goal 2 => (intro hx; clear_value x))
    | extract_lets +onlyGivenNames x
    | split
    | refine Kept.of_snd ‹_› ?_
    | dsimp +zetaDelta only [id_eq])

def km_captureWord : Nat := ob Obj.ptfCapStatus ||| pt.mem ||| km_produceFlow ||| km_setNdl ||| km_latch

theorem State.captureWord_kept (s : State) (n : Nat) (idx : Nat) (word : Nat) : Kept km_captureWord s (State.captureWord s n idx word) := by
  unfold State.captureWord
  repeat' (first
    | with_reducible assumption
    | decide +kernel
    | with_reducible exact Kept.refl ..
    | (with_reducible apply Kept.ite <;> intro _)
    | with_reducible apply Kept.step (State.setFld_kept _ _ _ _ _)
    | with_reducible apply Kept.step (State.count_kept _ _ _ _ _ _)
    | with_reducible apply Kept.step (State.produceFlow_kept _ _ _ _ _)
    | with_reducible apply Kept.step (State.setNdl_kept _ _ _)
    | with_reducible apply Kept.step (State.latch_kept _ _)
    | exact Memory.writeAll_wf _ _
    | exact Tbl.filter_wf _
    | (extract_lets +onlyGivenNames x; refine cutK (m := km_captureWord) (s := s) (x := x) ?_ ?_; on_goal 1 => (try unfold x); on_goal 2 => (intro hx; clear_value x))
    | extract_lets +onlyGivenNames x
    | split
    | refine Kept.of_snd ‹_› ?_
    | dsimp +zetaDelta only [id_eq]
    | with_reducible apply Kept.set_mem)

def km_writeSamples : Nat := pt.mem

theorem State.writeSamples_kept (s : State) (u : Nat) (slot : Nat) (span : Nat) (first : Nat) (words : List Nat) : Kept km_writeSamples s (State.writeSamples s u slot span first words) := by
  unfold State.writeSamples
  repeat' (first
    | with_reducible assumption
    | decide +kernel
    | with_reducible exact Kept.refl ..
    | (with_reducible apply Kept.ite <;> intro _)
    | exact Memory.writeAll_wf _ _
    | exact Tbl.filter_wf _
    | with_reducible apply Kept.foldl
    | with_reducible refine fun (x : State) a hx => ?_
    | (extract_lets +onlyGivenNames x; refine cutK (m := km_writeSamples) (s := s) (x := x) ?_ ?_; on_goal 1 => (try unfold x); on_goal 2 => (intro hx; clear_value x))
    | extract_lets +onlyGivenNames x
    | split
    | refine Kept.of_snd ‹_› ?_
    | dsimp +zetaDelta only [id_eq]
    | with_reducible apply Kept.set_mem
    | exact Memory.foldl_writeAll_wf _ _ _)

def km_execRecordComplete : Nat := ob Obj.taeState ||| pt.freeCtr ||| km_reach ||| km_writeSamples ||| km_setUnit ||| km_produceFlow ||| km_taeCount ||| km_rearmFrom

theorem execRecordComplete_kept (unit : Nat) (changes : Changes) (s : State) : KeptR km_execRecordComplete s (execRecordComplete unit changes s) := by
  unfold execRecordComplete
  repeat' (first
    | with_reducible assumption
    | decide +kernel
    | with_reducible exact Kept.refl ..
    | (with_reducible apply KeptR.ite <;> intro _)
    | (with_reducible apply Kept.ite <;> intro _)
    | with_reducible refine KeptR.next ?_
    | with_reducible exact KeptR.fault
    | with_reducible apply Kept.step (State.wr_kept _ _ _ _)
    | with_reducible apply Kept.step (State.reach_kept _ _)
    | with_reducible apply Kept.step (State.writeSamples_kept _ _ _ _ _ _)
    | with_reducible apply Kept.step (State.setUnit_kept _ _ _)
    | with_reducible apply Kept.step (State.produceFlow_kept _ _ _ _ _)
    | with_reducible apply Kept.step (State.taeCount_kept _ _ _)
    | with_reducible apply Kept.step (State.rearmFrom_kept _ _ _)
    | (extract_lets +onlyGivenNames x; refine cutK (m := km_execRecordComplete) (s := s) (x := x) ?_ ?_; on_goal 1 => (try unfold x); on_goal 2 => (intro hx; clear_value x))
    | extract_lets +onlyGivenNames x
    | split
    | refine Kept.of_snd ‹_› ?_
    | dsimp +zetaDelta only [id_eq]
    | with_reducible apply Kept.set_freeCtr)

end Sys2Proof.Machine
end

