-- ==== Sys2Proof/Laws/KeptStream.lean ====
section
/-! SUPPORT. For every operation of Machine/Stream.lean the parts of the state that it may change. -/
set_option linter.unusedTactic false
set_option linter.unreachableTactic false
set_option linter.unusedVariables false
set_option linter.tactic.unusedName false
set_option Elab.async false
namespace Sys2Proof.Machine

def km_strCount : Nat := ob Obj.strCounts

theorem State.strCount_kept (s : State) (n : Nat) (i : Nat) (k : Nat) : Kept km_strCount s (State.strCount s n i k) := by
  unfold State.strCount
  repeat' (first
    | with_reducible assumption
    | decide +kernel
    | with_reducible exact Kept.refl ..
    | with_reducible apply Kept.step (State.count_kept _ _ _ _ _ _)
    | (extract_lets +onlyGivenNames x; refine cutK (m := km_strCount) (s := s) (x := x) ?_ ?_; on_goal 1 => (try unfold x); on_goal 2 => (intro hx; clear_value x))
    | extract_lets +onlyGivenNames x
    | split
    | refine Kept.of_snd ‹_› ?_)

def km_skeinError : Nat := ob Obj.strSkeinError ||| km_strCount

theorem State.skeinError_kept (s : State) (n : Nat) (reason : Nat) (check : Nat) (seq : Nat) (course : Nat) : Kept km_skeinError s (State.skeinError s n reason check seq course) := by
  unfold State.skeinError
  repeat' (first
    | with_reducible assumption
    | decide +kernel
    | with_reducible exact Kept.refl ..
    | with_reducible apply Kept.step (State.wr_kept _ _ _ _)
    | with_reducible apply Kept.step (State.strCount_kept _ _ _ _)
    | (extract_lets +onlyGivenNames x; refine cutK (m := km_skeinError) (s := s) (x := x) ?_ ?_; on_goal 1 => (try unfold x); on_goal 2 => (intro hx; clear_value x))
    | extract_lets +onlyGivenNames x
    | split
    | refine Kept.of_snd ‹_› ?_)

def km_discardSkein : Nat := km_setNdl ||| km_strCount ||| km_result

theorem State.discardSkein_kept (s : State) (n : Nat) : Kept km_discardSkein s (State.discardSkein s n) := by
  unfold State.discardSkein
  repeat' (first
    | with_reducible assumption
    | decide +kernel
    | with_reducible exact Kept.refl ..
    | (with_reducible apply Kept.ite <;> intro _)
    | with_reducible apply Kept.step (State.setNdl_kept _ _ _)
    | with_reducible apply Kept.step (State.strCount_kept _ _ _ _)
    | with_reducible apply Kept.step (State.result_kept _ _ _ _)
    | (extract_lets +onlyGivenNames x; refine cutK (m := km_discardSkein) (s := s) (x := x) ?_ ?_; on_goal 1 => (try unfold x); on_goal 2 => (intro hx; clear_value x))
    | extract_lets +onlyGivenNames x
    | split
    | refine Kept.of_snd ‹_› ?_)

def km_flushRing : Nat := ob Obj.strNextSeq ||| km_setNdl ||| km_discardSkein

theorem State.flushRing_kept (s : State) (n : Nat) : Kept km_flushRing s (State.flushRing s n) := by
  unfold State.flushRing
  repeat' (first
    | with_reducible assumption
    | decide +kernel
    | with_reducible exact Kept.refl ..
    | with_reducible apply Kept.step (State.wr_kept _ _ _ _)
    | with_reducible apply Kept.step (State.setNdl_kept _ _ _)
    | with_reducible apply Kept.step (State.discardSkein_kept _ _)
    | (extract_lets +onlyGivenNames x; refine cutK (m := km_flushRing) (s := s) (x := x) ?_ ?_; on_goal 1 => (try unfold x); on_goal 2 => (intro hx; clear_value x))
    | extract_lets +onlyGivenNames x
    | split
    | refine Kept.of_snd ‹_› ?_)

def km_ringWritten : Nat := km_loadStats ||| km_setNdl

theorem State.ringWritten_kept (s : State) (n : Nat) (len : Nat) : Kept km_ringWritten s (State.ringWritten s n len) := by
  unfold State.ringWritten
  repeat' (first
    | with_reducible assumption
    | decide +kernel
    | with_reducible exact Kept.refl ..
    | (with_reducible apply Kept.ite <;> intro _)
    | with_reducible apply Kept.step (State.loadStats_kept _ _ _ _ _)
    | with_reducible apply Kept.step (State.setNdl_kept _ _ _)
    | (extract_lets +onlyGivenNames x; refine cutK (m := km_ringWritten) (s := s) (x := x) ?_ ?_; on_goal 1 => (try unfold x); on_goal 2 => (intro hx; clear_value x))
    | extract_lets +onlyGivenNames x
    | split
    | refine Kept.of_snd ‹_› ?_)

def km_skeinGot : Nat := km_setNdl

theorem State.skeinGot_kept (s : State) (n : Nat) (k : SkeinIn) : Kept km_skeinGot s (State.skeinGot s n k) := by
  unfold State.skeinGot
  repeat' (first
    | with_reducible assumption
    | decide +kernel
    | with_reducible exact Kept.refl ..
    | (with_reducible apply Kept.ite <;> intro _)
    | with_reducible apply Kept.step (State.setNdl_kept _ _ _)
    | (extract_lets +onlyGivenNames x; refine cutK (m := km_skeinGot) (s := s) (x := x) ?_ ?_; on_goal 1 => (try unfold x); on_goal 2 => (intro hx; clear_value x))
    | extract_lets +onlyGivenNames x
    | split
    | refine Kept.of_snd ‹_› ?_)

def km_streamData : Nat := km_discardSkein ||| km_ringWritten ||| km_skeinGot ||| km_skeinError

theorem State.streamData_kept (s : State) (session : Nat) (n : Nat) (skein : Nat) (off : Nat) (data : Bytes) : Kept km_streamData s (State.streamData s session n skein off data).2 := by
  unfold State.streamData
  repeat' (first
    | with_reducible assumption
    | decide +kernel
    | with_reducible exact Kept.refl ..
    | (with_reducible apply Kept.ite <;> intro _)
    | (with_reducible apply Kept.ite2 <;> intro _)
    | with_reducible apply Kept.step (State.discardSkein_kept _ _)
    | with_reducible apply Kept.step (State.ringWritten_kept _ _ _)
    | with_reducible apply Kept.step (State.skeinGot_kept _ _ _)
    | with_reducible apply Kept.step (State.skeinError_kept _ _ _ _ _ _)
    | (extract_lets +onlyGivenNames x; refine cutK (m := km_streamData) (s := s) (x := x) ?_ ?_; on_goal 1 => (try unfold x); on_goal 2 => (intro hx; clear_value x))
    | extract_lets +onlyGivenNames x
    | split
    | refine Kept.of_snd ‹_› ?_
    | dsimp +zetaDelta only [id_eq])

def km_runSkeinTimeout : Nat := km_reach ||| km_setNdl ||| km_strCount

theorem runSkeinTimeout_kept (needle : Nat) (s : State) : KeptR km_runSkeinTimeout s (runSkeinTimeout needle s) := by
  unfold runSkeinTimeout
  repeat' (first
    | with_reducible assumption
    | decide +kernel
    | with_reducible exact Kept.refl ..
    | (with_reducible apply KeptR.ite <;> intro _)
    | (with_reducible apply Kept.ite <;> intro _)
    | with_reducible refine KeptR.next ?_
    | with_reducible exact KeptR.fault
    | with_reducible apply Kept.step (State.reach_kept _ _)
    | with_reducible apply Kept.step (State.setNdl_kept _ _ _)
    | with_reducible apply Kept.step (State.strCount_kept _ _ _ _)
    | (extract_lets +onlyGivenNames x; refine cutK (m := km_runSkeinTimeout) (s := s) (x := x) ?_ ?_; on_goal 1 => (try unfold x); on_goal 2 => (intro hx; clear_value x))
    | extract_lets +onlyGivenNames x
    | split
    | refine Kept.of_snd ‹_› ?_)

def km_skeinValidated : Nat := ob Obj.strNextSeq ||| km_reach ||| km_setNdl ||| km_skeinError ||| km_result ||| km_strCount

theorem State.skeinValidated_kept (s : State) (n : Nat) : Kept km_skeinValidated s (State.skeinValidated s n) := by
  unfold State.skeinValidated
  repeat' (first
    | with_reducible assumption
    | decide +kernel
    | with_reducible exact Kept.refl ..
    | with_reducible apply Kept.step (State.wr_kept _ _ _ _)
    | with_reducible apply Kept.step (State.reach_kept _ _)
    | with_reducible apply Kept.step (State.setNdl_kept _ _ _)
    | with_reducible apply Kept.step (State.skeinError_kept _ _ _ _ _ _)
    | with_reducible apply Kept.step (State.result_kept _ _ _ _)
    | with_reducible apply Kept.step (State.strCount_kept _ _ _ _)
    | (extract_lets +onlyGivenNames x; refine cutK (m := km_skeinValidated) (s := s) (x := x) ?_ ?_; on_goal 1 => (try unfold x); on_goal 2 => (intro hx; clear_value x))
    | extract_lets +onlyGivenNames x
    | split
    | refine Kept.of_snd ‹_› ?_)

def km_ringReturn : Nat := km_setNdl

theorem State.ringReturn_kept (s : State) (n : Nat) (seq : Nat) (off : Nat) : Kept km_ringReturn s (State.ringReturn s n seq off) := by
  unfold State.ringReturn
  repeat' (first
    | with_reducible assumption
    | decide +kernel
    | with_reducible exact Kept.refl ..
    | (with_reducible apply Kept.ite <;> intro _)
    | with_reducible apply Kept.step (State.setNdl_kept _ _ _)
    | (extract_lets +onlyGivenNames x; refine cutK (m := km_ringReturn) (s := s) (x := x) ?_ ?_; on_goal 1 => (try unfold x); on_goal 2 => (intro hx; clear_value x))
    | extract_lets +onlyGivenNames x
    | split
    | refine Kept.of_snd ‹_› ?_
    | dsimp +zetaDelta only [id_eq])

def km_ringIssue : Nat := km_setNdl ||| km_latch

theorem State.ringIssue_kept (s : State) (n : Nat) (seq : Nat) (off : Nat) : Kept km_ringIssue s (State.ringIssue s n seq off) := by
  unfold State.ringIssue
  repeat' (first
    | with_reducible assumption
    | decide +kernel
    | with_reducible exact Kept.refl ..
    | (with_reducible apply Kept.ite <;> intro _)
    | with_reducible apply Kept.step (State.setNdl_kept _ _ _)
    | with_reducible apply Kept.step (State.latch_kept _ _)
    | (extract_lets +onlyGivenNames x; refine cutK (m := km_ringIssue) (s := s) (x := x) ?_ ?_; on_goal 1 => (try unfold x); on_goal 2 => (intro hx; clear_value x))
    | extract_lets +onlyGivenNames x
    | split
    | refine Kept.of_snd ‹_› ?_)

end Sys2Proof.Machine
end

