-- ==== Sys2Proof/Laws/KeptMicro.lean ====
section
/-! SUPPORT. For every operation of Machine/Micro.lean the parts of the state that it may change. -/
set_option linter.unusedTactic false
set_option linter.unreachableTactic false
set_option linter.unusedVariables false
set_option linter.tactic.unusedName false
set_option Elab.async false
namespace Sys2Proof.Machine

def km_checkedMany : Nat := pt.fcr ||| km_checked

theorem State.checkedMany_kept (s : State) (src : Nat) (master : Nat) (count : Nat) : Kept km_checkedMany s (State.checkedMany s src master count).2 := by
  unfold State.checkedMany
  repeat' (first
    | with_reducible assumption
    | decide +kernel
    | with_reducible exact Kept.refl ..
    | (with_reducible apply Kept.ite <;> intro _)
    | (with_reducible apply Kept.ite2 <;> intro _)
    | with_reducible apply Kept.step (State.checked_kept _ _ _)
    | (extract_lets +onlyGivenNames x; refine cutK (m := km_checkedMany) (s := s) (x := x) ?_ ?_; on_goal 1 => (try unfold x); on_goal 2 => (intro hx; clear_value x))
    | (extract_lets +onlyGivenNames x; refine cutK (m := km_checkedMany) (s := s) (x := x.2) ?_ ?_; on_goal 1 => (try unfold x); on_goal 2 => (intro hx; clear_value x))
    | extract_lets +onlyGivenNames x
    | split
    | refine Kept.of_snd ‹_› ?_
    | with_reducible apply Kept.set_fcr)

end Sys2Proof.Machine
end

