-- ==== Sys2Proof/Laws/KeptNeedles.lean ====
section
/-! SUPPORT. For every operation of Machine/Needles.lean the parts of the state that it may change. -/
set_option linter.unusedTactic false
set_option linter.unreachableTactic false
set_option linter.unusedVariables false
set_option linter.tactic.unusedName false
set_option Elab.async false
namespace Sys2Proof.Machine

def km_ndlCount : Nat := ob Obj.ndlCounts

theorem State.ndlCount_kept (s : State) (n : Nat) (i : Nat) : Kept km_ndlCount s (State.ndlCount s n i) := by
  unfold State.ndlCount
  repeat' (first
    | with_reducible assumption
    | decide +kernel
    | with_reducible exact Kept.refl ..
    | with_reducible apply Kept.step (State.count_kept _ _ _ _ _ _)
    | (extract_lets +onlyGivenNames x; refine cutK (m := km_ndlCount) (s := s) (x := x) ?_ ?_; on_goal 1 => (try unfold x); on_goal 2 => (intro hx; clear_value x))
    | extract_lets +onlyGivenNames x
    | split
    | refine Kept.of_snd ‹_› ?_)

def km_setStatus : Nat := ob Obj.ndlStatus

theorem State.setStatus_kept (s : State) (n : Nat) (f : Fld) (v : Nat) : Kept km_setStatus s (State.setStatus s n f v) := by
  unfold State.setStatus
  repeat' (first
    | with_reducible assumption
    | decide +kernel
    | with_reducible exact Kept.refl ..
    | with_reducible apply Kept.step (State.setFld_kept _ _ _ _ _)
    | (extract_lets +onlyGivenNames x; refine cutK (m := km_setStatus) (s := s) (x := x) ?_ ?_; on_goal 1 => (try unfold x); on_goal 2 => (intro hx; clear_value x))
    | extract_lets +onlyGivenNames x
    | split
    | refine Kept.of_snd ‹_› ?_)

def km_ndlTraceWrite : Nat := ob Obj.ndlTraceStatus ||| km_setNdl ||| km_trace

theorem State.ndlTraceWrite_kept (s : State) (n : Nat) (r : Nat) : Kept km_ndlTraceWrite s (State.ndlTraceWrite s n r) := by
  unfold State.ndlTraceWrite
  repeat' (first
    | with_reducible assumption
    | decide +kernel
    | with_reducible exact Kept.refl ..
    | (with_reducible apply Kept.ite <;> intro _)
    | with_reducible apply Kept.step (State.count_kept _ _ _ _ _ _)
    | with_reducible apply Kept.step (State.setNdl_kept _ _ _)
    | with_reducible apply Kept.step (State.trace_kept _ _ _ _)
    | (extract_lets +onlyGivenNames x; refine cutK (m := km_ndlTraceWrite) (s := s) (x := x) ?_ ?_; on_goal 1 => (try unfold x); on_goal 2 => (intro hx; clear_value x))
    | extract_lets +onlyGivenNames x
    | split
    | refine Kept.of_snd ‹_› ?_)

def km_ndlTraceTime : Nat := km_ndlTraceWrite ||| km_setNdl

theorem State.ndlTraceTime_kept (s : State) (n : Nat) : Kept km_ndlTraceTime s (State.ndlTraceTime s n) := by
  unfold State.ndlTraceTime
  repeat' (first
    | with_reducible assumption
    | decide +kernel
    | with_reducible exact Kept.refl ..
    | (with_reducible apply Kept.ite <;> intro _)
    | with_reducible apply Kept.step (State.ndlTraceWrite_kept _ _ _)
    | with_reducible apply Kept.step (State.setNdl_kept _ _ _)
    | (extract_lets +onlyGivenNames x; refine cutK (m := km_ndlTraceTime) (s := s) (x := x) ?_ ?_; on_goal 1 => (try unfold x); on_goal 2 => (intro hx; clear_value x))
    | extract_lets +onlyGivenNames x
    | split
    | refine Kept.of_snd ‹_› ?_)

def km_ndlTraceAt : Nat := km_ndlTraceWrite ||| km_ndlTraceTime

theorem State.ndlTraceAt_kept (s : State) (n : Nat) (kind : Nat) (uaddr : Nat) (op : Nat) (course : Nat) : Kept km_ndlTraceAt s (State.ndlTraceAt s n kind uaddr op course) := by
  unfold State.ndlTraceAt
  repeat' (first
    | with_reducible assumption
    | decide +kernel
    | with_reducible exact Kept.refl ..
    | (with_reducible apply Kept.ite <;> intro _)
    | with_reducible apply Kept.step (State.ndlTraceWrite_kept _ _ _)
    | with_reducible apply Kept.step (State.ndlTraceTime_kept _ _)
    | (extract_lets +onlyGivenNames x; refine cutK (m := km_ndlTraceAt) (s := s) (x := x) ?_ ?_; on_goal 1 => (try unfold x); on_goal 2 => (intro hx; clear_value x))
    | extract_lets +onlyGivenNames x
    | split
    | refine Kept.of_snd ‹_› ?_)

def km_ndlTrace : Nat := km_draw ||| km_ndlTraceAt

theorem State.ndlTrace_kept (s : State) (n : Nat) (kind : Nat) (op : Nat) (course : Nat) : Kept km_ndlTrace s (State.ndlTrace s n kind op course) := by
  unfold State.ndlTrace
  repeat' (first
    | with_reducible assumption
    | decide +kernel
    | with_reducible exact Kept.refl ..
    | with_reducible apply Kept.step (State.draw_kept _)
    | with_reducible apply Kept.step (State.ndlTraceAt_kept _ _ _ _ _ _)
    | (extract_lets +onlyGivenNames x; refine cutK (m := km_ndlTrace) (s := s) (x := x) ?_ ?_; on_goal 1 => (try unfold x); on_goal 2 => (intro hx; clear_value x))
    | extract_lets +onlyGivenNames x
    | split
    | refine Kept.of_snd ‹_› ?_)

def km_routine : Nat := km_draw ||| km_setNdl ||| km_ndlTraceAt ||| km_checkedMany

theorem State.routine_kept (s : State) (n : Nat) (cycles : Nat) : Kept km_routine s (State.routine s n cycles).2 := by
  unfold State.routine
  repeat' (first
    | with_reducible assumption
    | decide +kernel
    | with_reducible exact Kept.refl ..
    | (with_reducible apply Kept.ite <;> intro _)
    | (with_reducible apply Kept.ite2 <;> intro _)
    | with_reducible apply Kept.step (State.draw_kept _)
    | with_reducible apply Kept.step (State.setNdl_kept _ _ _)
    | with_reducible apply Kept.step (State.ndlTraceAt_kept _ _ _ _ _ _)
    | with_reducible apply Kept.step (State.checkedMany_kept _ _ _ _)
    | with_reducible apply Kept.foldl
    | with_reducible refine fun (x : State) a hx => ?_
    | (extract_lets +onlyGivenNames x; refine cutK (m := km_routine) (s := s) (x := x) ?_ ?_; on_goal 1 => (try unfold x); on_goal 2 => (intro hx; clear_value x))
    | (extract_lets +onlyGivenNames x; refine cutK (m := km_routine) (s := s) (x := x.2) ?_ ?_; on_goal 1 => (try unfold x); on_goal 2 => (intro hx; clear_value x))
    | extract_lets +onlyGivenNames x
    | split
    | refine Kept.of_snd ‹_› ?_
    | dsimp +zetaDelta only [id_eq])

def km_timedCheck : Nat := km_dropTimedStart

theorem State.timedCheck_kept (s : State) : Kept km_timedCheck s (State.timedCheck s) := by
  unfold State.timedCheck
  repeat' (first
    | with_reducible assumption
    | decide +kernel
    | with_reducible exact Kept.refl ..
    | (with_reducible apply Kept.ite <;> intro _)
    | with_reducible apply Kept.step (State.dropTimedStart_kept _)
    | (extract_lets +onlyGivenNames x; refine cutK (m := km_timedCheck) (s := s) (x := x) ?_ ?_; on_goal 1 => (try unfold x); on_goal 2 => (intro hx; clear_value x))
    | extract_lets +onlyGivenNames x
    | split
    | refine Kept.of_snd ‹_› ?_
    | dsimp +zetaDelta only [id_eq])

def km_rasStopAll : Nat := km_rasStopNeedle

theorem State.rasStopAll_kept (s : State) : Kept km_rasStopAll s (State.rasStopAll s) := by
  unfold State.rasStopAll
  repeat' (first
    | with_reducible assumption
    | decide +kernel
    | with_reducible exact Kept.refl ..
    | with_reducible apply Kept.step (State.rasStopNeedle_kept _ _)
    | with_reducible apply Kept.foldl
    | with_reducible refine fun (x : State) a hx => ?_
    | (extract_lets +onlyGivenNames x; refine cutK (m := km_rasStopAll) (s := s) (x := x) ?_ ?_; on_goal 1 => (try unfold x); on_goal 2 => (intro hx; clear_value x))
    | extract_lets +onlyGivenNames x
    | split
    | refine Kept.of_snd ‹_› ?_)

def km_arriveArmed : Nat := pt.trans ||| km_enter ||| km_rasStopAll ||| km_taeResume ||| km_calPause

theorem State.arriveArmed_kept (s : State) (prev : Nat) (reason : Nat) : Kept km_arriveArmed s (State.arriveArmed s prev reason) := by
  unfold State.arriveArmed
  repeat' (first
    | with_reducible assumption
    | decide +kernel
    | with_reducible exact Kept.refl ..
    | with_reducible apply Kept.step (State.enter_kept _ _ _ _)
    | with_reducible apply Kept.step (State.rasStopAll_kept _)
    | with_reducible apply Kept.step (State.taeResume_kept _ _)
    | with_reducible apply Kept.step (State.calPause_kept _)
    | (extract_lets +onlyGivenNames x; refine cutK (m := km_arriveArmed) (s := s) (x := x) ?_ ?_; on_goal 1 => (try unfold x); on_goal 2 => (intro hx; clear_value x))
    | extract_lets +onlyGivenNames x
    | split
    | refine Kept.of_snd ‹_› ?_
    | with_reducible apply Kept.set_trans)

def km_arriveHold : Nat := pt.trans ||| km_enter ||| km_taeHold ||| km_calPause ||| km_timedCheck

theorem State.arriveHold_kept (s : State) (prev : Nat) (reason : Nat) : Kept km_arriveHold s (State.arriveHold s prev reason) := by
  unfold State.arriveHold
  repeat' (first
    | with_reducible assumption
    | decide +kernel
    | with_reducible exact Kept.refl ..
    | with_reducible apply Kept.step (State.enter_kept _ _ _ _)
    | with_reducible apply Kept.step (State.taeHold_kept _ _)
    | with_reducible apply Kept.step (State.calPause_kept _)
    | with_reducible apply Kept.step (State.timedCheck_kept _)
    | (extract_lets +onlyGivenNames x; refine cutK (m := km_arriveHold) (s := s) (x := x) ?_ ?_; on_goal 1 => (try unfold x); on_goal 2 => (intro hx; clear_value x))
    | extract_lets +onlyGivenNames x
    | split
    | refine Kept.of_snd ‹_› ?_
    | with_reducible apply Kept.set_trans)

def km_holdCheck : Nat := km_arriveHold

theorem State.holdCheck_kept (s : State) : Kept km_holdCheck s (State.holdCheck s) := by
  unfold State.holdCheck
  repeat' (first
    | with_reducible assumption
    | decide +kernel
    | with_reducible exact Kept.refl ..
    | (with_reducible apply Kept.ite <;> intro _)
    | with_reducible apply Kept.step (State.arriveHold_kept _ _ _)
    | (extract_lets +onlyGivenNames x; refine cutK (m := km_holdCheck) (s := s) (x := x) ?_ ?_; on_goal 1 => (try unfold x); on_goal 2 => (intro hx; clear_value x))
    | extract_lets +onlyGivenNames x
    | split
    | refine Kept.of_snd ‹_› ?_)

def km_needlesEnded : Nat := pt.trans ||| km_arriveArmed ||| km_timedCheck ||| km_holdCheck

theorem State.needlesEnded_kept (s : State) (t : Nat) : Kept km_needlesEnded s (State.needlesEnded s t) := by
  unfold State.needlesEnded
  repeat' (first
    | with_reducible assumption
    | decide +kernel
    | with_reducible exact Kept.refl ..
    | (with_reducible apply Kept.ite <;> intro _)
    | with_reducible apply Kept.step (State.arriveArmed_kept _ _ _)
    | with_reducible apply Kept.step (State.timedCheck_kept _)
    | with_reducible apply Kept.step (State.holdCheck_kept _)
    | (extract_lets +onlyGivenNames x; refine cutK (m := km_needlesEnded) (s := s) (x := x) ?_ ?_; on_goal 1 => (try unfold x); on_goal 2 => (intro hx; clear_value x))
    | extract_lets +onlyGivenNames x
    | split
    | refine Kept.of_snd ‹_› ?_
    | with_reducible apply Kept.set_trans)

def km_stopNeedle : Nat := ob Obj.strState ||| km_rasStopNeedle ||| km_setNdl ||| km_setStatus ||| km_flushRing ||| km_ageFrom

theorem State.stopNeedle_kept (s : State) (n : Nat) : Kept km_stopNeedle s (State.stopNeedle s n) := by
  unfold State.stopNeedle
  repeat' (first
    | with_reducible assumption
    | decide +kernel
    | with_reducible exact Kept.refl ..
    | (with_reducible apply Kept.ite <;> intro _)
    | with_reducible apply Kept.step (State.wr_kept _ _ _ _)
    | with_reducible apply Kept.step (State.rasStopNeedle_kept _ _)
    | with_reducible apply Kept.step (State.setNdl_kept _ _ _)
    | with_reducible apply Kept.step (State.setStatus_kept _ _ _ _)
    | with_reducible apply Kept.step (State.flushRing_kept _ _)
    | with_reducible apply Kept.step (State.ageFrom_kept _ _ _)
    | (extract_lets +onlyGivenNames x; refine cutK (m := km_stopNeedle) (s := s) (x := x) ?_ ?_; on_goal 1 => (try unfold x); on_goal 2 => (intro hx; clear_value x))
    | extract_lets +onlyGivenNames x
    | split
    | refine Kept.of_snd ‹_› ?_)

def km_dropJump : Nat := ob Obj.ndlJumpStatus ||| km_setNdl ||| km_setStatus ||| km_latch

theorem State.dropJump_kept (s : State) (n : Nat) : Kept km_dropJump s (State.dropJump s n) := by
  unfold State.dropJump
  repeat' (first
    | with_reducible assumption
    | decide +kernel
    | with_reducible exact Kept.refl ..
    | with_reducible apply Kept.step (State.setFld_kept _ _ _ _ _)
    | with_reducible apply Kept.step (State.setNdl_kept _ _ _)
    | with_reducible apply Kept.step (State.setStatus_kept _ _ _ _)
    | with_reducible apply Kept.step (State.latch_kept _ _)
    | (extract_lets +onlyGivenNames x; refine cutK (m := km_dropJump) (s := s) (x := x) ?_ ?_; on_goal 1 => (try unfold x); on_goal 2 => (intro hx; clear_value x))
    | extract_lets +onlyGivenNames x
    | split
    | refine Kept.of_snd ‹_› ?_)

def km_frogResults : Nat := km_setNdl ||| km_setResult

theorem State.frogResults_kept (s : State) (n : Nat) (cause : Nat) : Kept km_frogResults s (State.frogResults s n cause) := by
  unfold State.frogResults
  repeat' (first
    | with_reducible assumption
    | decide +kernel
    | with_reducible exact Kept.refl ..
    | (with_reducible apply Kept.ite <;> intro _)
    | with_reducible apply Kept.step (State.setNdl_kept _ _ _)
    | with_reducible apply Kept.step (State.setResult_kept _ _ _ _)
    | with_reducible apply Kept.foldl
    | with_reducible refine fun (x : State) a hx => ?_
    | (extract_lets +onlyGivenNames x; refine cutK (m := km_frogResults) (s := s) (x := x) ?_ ?_; on_goal 1 => (try unfold x); on_goal 2 => (intro hx; clear_value x))
    | extract_lets +onlyGivenNames x
    | split
    | refine Kept.of_snd ‹_› ?_
    | dsimp +zetaDelta only [id_eq])

def km_frogAt : Nat := ob Obj.ndlState ||| km_setNdl ||| km_setStatus ||| km_frogResults ||| km_dropJump ||| km_ndlTrace ||| km_routine ||| km_raise ||| km_stopNeedle ||| km_ndlCount ||| km_latch ||| km_needlesEnded

theorem State.frogAt_kept (s : State) (n : Nat) (c : Nat) (cause : Nat) : Kept km_frogAt s (State.frogAt s n c cause) := by
  unfold State.frogAt
  repeat' (first
    | with_reducible assumption
    | decide +kernel
    | with_reducible exact Kept.refl ..
    | (with_reducible apply Kept.ite <;> intro _)
    | with_reducible apply Kept.step (State.wr_kept _ _ _ _)
    | with_reducible apply Kept.step (State.setNdl_kept _ _ _)
    | with_reducible apply Kept.step (State.setStatus_kept _ _ _ _)
    | with_reducible apply Kept.step (State.frogResults_kept _ _ _)
    | with_reducible apply Kept.step (State.dropJump_kept _ _)
    | with_reducible apply Kept.step (State.ndlTrace_kept _ _ _ _ _)
    | with_reducible apply Kept.step (State.routine_kept _ _ _)
    | with_reducible apply Kept.step (State.raise_kept _ _ _ _ _ _ _ _)
    | with_reducible apply Kept.step (State.stopNeedle_kept _ _)
    | with_reducible apply Kept.step (State.ndlCount_kept _ _ _)
    | with_reducible apply Kept.step (State.latch_kept _ _)
    | with_reducible apply Kept.step (State.needlesEnded_kept _ _)
    | (extract_lets +onlyGivenNames x; refine cutK (m := km_frogAt) (s := s) (x := x) ?_ ?_; on_goal 1 => (try unfold x); on_goal 2 => (intro hx; clear_value x))
    | (extract_lets +onlyGivenNames x; refine cutK (m := km_frogAt) (s := s) (x := x.2) ?_ ?_; on_goal 1 => (try unfold x); on_goal 2 => (intro hx; clear_value x))
    | extract_lets +onlyGivenNames x
    | split
    | refine Kept.of_snd ‹_› ?_
    | dsimp +zetaDelta only [id_eq])

def km_doneAt : Nat := ob Obj.ndlState ||| km_stopNeedle ||| km_parkNeedle ||| km_setNdl ||| km_ndlCount ||| km_latch ||| km_needlesEnded

theorem State.doneAt_kept (s : State) (n : Nat) (t : Nat) : Kept km_doneAt s (State.doneAt s n t) := by
  unfold State.doneAt
  repeat' (first
    | with_reducible assumption
    | decide +kernel
    | with_reducible exact Kept.refl ..
    | with_reducible apply Kept.step (State.wr_kept _ _ _ _)
    | with_reducible apply Kept.step (State.stopNeedle_kept _ _)
    | with_reducible apply Kept.step (State.parkNeedle_kept _ _ _)
    | with_reducible apply Kept.step (State.setNdl_kept _ _ _)
    | with_reducible apply Kept.step (State.ndlCount_kept _ _ _)
    | with_reducible apply Kept.step (State.latch_kept _ _)
    | with_reducible apply Kept.step (State.needlesEnded_kept _ _)
    | (extract_lets +onlyGivenNames x; refine cutK (m := km_doneAt) (s := s) (x := x) ?_ ?_; on_goal 1 => (try unfold x); on_goal 2 => (intro hx; clear_value x))
    | extract_lets +onlyGivenNames x
    | split
    | refine Kept.of_snd ‹_› ?_)

def km_frogFault : Nat := km_raise ||| km_frogAt

theorem State.frogFault_kept (s : State) (n : Nat) (src : Nat) (access : Nat) (addr : Nat) : Kept km_frogFault s (State.frogFault s n src access addr) := by
  unfold State.frogFault
  repeat' (first
    | with_reducible assumption
    | decide +kernel
    | with_reducible exact Kept.refl ..
    | with_reducible apply Kept.step (State.raise_kept _ _ _ _ _ _ _ _)
    | with_reducible apply Kept.step (State.frogAt_kept _ _ _ _)
    | (extract_lets +onlyGivenNames x; refine cutK (m := km_frogFault) (s := s) (x := x) ?_ ?_; on_goal 1 => (try unfold x); on_goal 2 => (intro hx; clear_value x))
    | extract_lets +onlyGivenNames x
    | split
    | refine Kept.of_snd ‹_› ?_)

def km_runRoutine : Nat := km_routine ||| km_frogFault

theorem State.runRoutine_kept (s : State) (n : Nat) (cycles : Nat) : Kept km_runRoutine s (State.runRoutine s n cycles) := by
  unfold State.runRoutine
  repeat' (first
    | with_reducible assumption
    | decide +kernel
    | with_reducible exact Kept.refl ..
    | with_reducible apply Kept.step (State.routine_kept _ _ _)
    | with_reducible apply Kept.step (State.frogFault_kept _ _ _ _ _)
    | (extract_lets +onlyGivenNames x; refine cutK (m := km_runRoutine) (s := s) (x := x) ?_ ?_; on_goal 1 => (try unfold x); on_goal 2 => (intro hx; clear_value x))
    | (extract_lets +onlyGivenNames x; refine cutK (m := km_runRoutine) (s := s) (x := x.2) ?_ ?_; on_goal 1 => (try unfold x); on_goal 2 => (intro hx; clear_value x))
    | extract_lets +onlyGivenNames x
    | split
    | refine Kept.of_snd ‹_› ?_)

def km_castOn : Nat := ob Obj.ndlState ||| km_parkNeedle ||| km_finalize ||| km_rasStopNeedle ||| km_applyGauges ||| km_applySwitches ||| km_ndlCount

theorem State.castOn_kept (s : State) (q : Nat) (n : Nat) : Kept km_castOn s (State.castOn s q n) := by
  unfold State.castOn
  repeat' (first
    | with_reducible assumption
    | decide +kernel
    | with_reducible exact Kept.refl ..
    | (with_reducible apply Kept.ite <;> intro _)
    | with_reducible apply Kept.step (State.wr_kept _ _ _ _)
    | with_reducible apply Kept.step (State.parkNeedle_kept _ _ _)
    | with_reducible apply Kept.step (State.finalize_kept _ _)
    | with_reducible apply Kept.step (State.rasStopNeedle_kept _ _)
    | with_reducible apply Kept.step (State.applyGauges_kept _ _ _)
    | with_reducible apply Kept.step (State.applySwitches_kept _ _ _)
    | with_reducible apply Kept.step (State.ndlCount_kept _ _ _)
    | (extract_lets +onlyGivenNames x; refine cutK (m := km_castOn) (s := s) (x := x) ?_ ?_; on_goal 1 => (try unfold x); on_goal 2 => (intro hx; clear_value x))
    | extract_lets +onlyGivenNames x
    | split
    | refine Kept.of_snd ‹_› ?_)

def km_castReset : Nat := ob Obj.ndlStatus ||| ob Obj.ndlStitchCount ||| ob Obj.strUnderrun ||| km_trace ||| km_dlogRun ||| km_setNdl ||| km_clearRun ||| km_setPin ||| km_runRoutine

theorem State.castReset_kept (s : State) (q : Nat) (t0 : Nat) (n : Nat) : Kept km_castReset s (State.castReset s q t0 n) := by
  unfold State.castReset
  repeat' (first
    | with_reducible assumption
    | decide +kernel
    | with_reducible exact Kept.refl ..
    | with_reducible apply Kept.step (State.wr_kept _ _ _ _)
    | with_reducible apply Kept.step (State.setFld_kept _ _ _ _ _)
    | with_reducible apply Kept.step (State.trace_kept _ _ _ _)
    | with_reducible apply Kept.step (State.dlogRun_kept _ _ _)
    | with_reducible apply Kept.step (State.setNdl_kept _ _ _)
    | with_reducible apply Kept.step (State.clearRun_kept _ _)
    | with_reducible apply Kept.step (State.setPin_kept _ _ _)
    | with_reducible apply Kept.step (State.runRoutine_kept _ _ _)
    | with_reducible apply Kept.foldl
    | with_reducible refine fun (x : State) a hx => ?_
    | (extract_lets +onlyGivenNames x; refine cutK (m := km_castReset) (s := s) (x := x) ?_ ?_; on_goal 1 => (try unfold x); on_goal 2 => (intro hx; clear_value x))
    | extract_lets +onlyGivenNames x
    | split
    | refine Kept.of_snd ‹_› ?_
    | dsimp +zetaDelta only [id_eq])

def km_enterRun : Nat := km_enter

theorem State.enterRun_kept (s : State) (reason : Nat) : Kept km_enterRun s (State.enterRun s reason) := by
  unfold State.enterRun
  repeat' (first
    | with_reducible assumption
    | decide +kernel
    | with_reducible exact Kept.refl ..
    | (with_reducible apply Kept.ite <;> intro _)
    | with_reducible apply Kept.step (State.enter_kept _ _ _ _)
    | (extract_lets +onlyGivenNames x; refine cutK (m := km_enterRun) (s := s) (x := x) ?_ ?_; on_goal 1 => (try unfold x); on_goal 2 => (intro hx; clear_value x))
    | extract_lets +onlyGivenNames x
    | split
    | refine Kept.of_snd ‹_› ?_)

def km_qualify : Nat := km_castOn ||| km_enterRun ||| km_timedCheck ||| km_reach ||| km_castReset

theorem State.qualify_kept (s : State) (ns : List Nat) (q : Nat) (reason : Nat) (t0 : Nat) : Kept km_qualify s (State.qualify s ns q reason t0) := by
  unfold State.qualify
  repeat' (first
    | with_reducible assumption
    | decide +kernel
    | with_reducible exact Kept.refl ..
    | (with_reducible apply Kept.ite <;> intro _)
    | with_reducible apply Kept.step (State.castOn_kept _ _ _)
    | with_reducible apply Kept.step (State.enterRun_kept _ _)
    | with_reducible apply Kept.step (State.timedCheck_kept _)
    | with_reducible apply Kept.step (State.reach_kept _ _)
    | with_reducible apply Kept.step (State.castReset_kept _ _ _ _)
    | with_reducible apply Kept.foldl
    | with_reducible refine fun (x : State) a hx => ?_
    | (extract_lets +onlyGivenNames x; refine cutK (m := km_qualify) (s := s) (x := x) ?_ ?_; on_goal 1 => (try unfold x); on_goal 2 => (intro hx; clear_value x))
    | extract_lets +onlyGivenNames x
    | split
    | refine Kept.of_snd ‹_› ?_)

def km_runQualify : Nat := pt.trans ||| km_reach ||| km_qualify

theorem State.runQualify_kept (s : State) : Kept km_runQualify s (State.runQualify s) := by
  unfold State.runQualify
  repeat' (first
    | with_reducible assumption
    | decide +kernel
    | with_reducible exact Kept.refl ..
    | (with_reducible apply Kept.ite <;> intro _)
    | with_reducible apply Kept.step (State.reach_kept _ _)
    | with_reducible apply Kept.step (State.qualify_kept _ _ _ _ _)
    | (extract_lets +onlyGivenNames x; refine cutK (m := km_runQualify) (s := s) (x := x) ?_ ?_; on_goal 1 => (try unfold x); on_goal 2 => (intro hx; clear_value x))
    | extract_lets +onlyGivenNames x
    | split
    | refine Kept.of_snd ‹_› ?_
    | with_reducible apply Kept.set_trans)

def km_execStartQualify : Nat := pt.staged ||| km_reach ||| km_qualify ||| km_runQualify

theorem execStartQualify_kept (needle : Nat) (s : State) : KeptR km_execStartQualify s (execStartQualify needle s) := by
  unfold execStartQualify
  repeat' (first
    | with_reducible assumption
    | decide +kernel
    | with_reducible exact Kept.refl ..
    | with_reducible refine KeptR.next ?_
    | with_reducible exact KeptR.fault
    | with_reducible apply Kept.step (State.reach_kept _ _)
    | with_reducible apply Kept.step (State.qualify_kept _ _ _ _ _)
    | with_reducible apply Kept.step (State.runQualify_kept _)
    | (extract_lets +onlyGivenNames x; refine cutK (m := km_execStartQualify) (s := s) (x := x) ?_ ?_; on_goal 1 => (try unfold x); on_goal 2 => (intro hx; clear_value x))
    | extract_lets +onlyGivenNames x
    | split
    | refine Kept.of_snd ‹_› ?_
    | with_reducible apply Kept.set_staged)

def km_execTimedStart : Nat := ob Obj.clkStartStatus ||| pt.clk ||| km_reach ||| km_qualify ||| km_dropTimedStart

theorem execTimedStart_kept (s : State) : KeptR km_execTimedStart s (execTimedStart s) := by
  unfold execTimedStart
  repeat' (first
    | with_reducible assumption
    | decide +kernel
    | with_reducible exact Kept.refl ..
    | (with_reducible apply KeptR.ite <;> intro _)
    | (with_reducible apply Kept.ite <;> intro _)
    | with_reducible refine KeptR.next ?_
    | with_reducible exact KeptR.fault
    | with_reducible apply Kept.step (State.setFld_kept _ _ _ _ _)
    | with_reducible apply Kept.step (State.reach_kept _ _)
    | with_reducible apply Kept.step (State.qualify_kept _ _ _ _ _)
    | with_reducible apply Kept.step (State.dropTimedStart_kept _)
    | (extract_lets +onlyGivenNames x; refine cutK (m := km_execTimedStart) (s := s) (x := x) ?_ ?_; on_goal 1 => (try unfold x); on_goal 2 => (intro hx; clear_value x))
    | extract_lets +onlyGivenNames x
    | split
    | refine Kept.of_snd ‹_› ?_
    | with_reducible apply Kept.set_clk)

def km_startAt : Nat := ob Obj.clkStartStatus ||| pt.clk

theorem State.startAt_kept (s : State) (ns : Nat) (atNs : Nat) : Kept km_startAt s (State.startAt s ns atNs) := by
  unfold State.startAt
  repeat' (first
    | with_reducible assumption
    | decide +kernel
    | with_reducible exact Kept.refl ..
    | with_reducible apply Kept.step (State.wr_kept _ _ _ _)
    | (extract_lets +onlyGivenNames x; refine cutK (m := km_startAt) (s := s) (x := x) ?_ ?_; on_goal 1 => (try unfold x); on_goal 2 => (intro hx; clear_value x))
    | extract_lets +onlyGivenNames x
    | split
    | refine Kept.of_snd ‹_› ?_
    | with_reducible apply Kept.set_clk)

def km_freezeAt : Nat := ob Obj.ndlState ||| km_setNdl ||| km_ndlCount ||| km_ndlTrace ||| km_rasFreeze ||| km_holdCheck ||| km_runRoutine

theorem State.freezeAt_kept (s : State) (n : Nat) (e : Nat) : Kept km_freezeAt s (State.freezeAt s n e) := by
  unfold State.freezeAt
  repeat' (first
    | with_reducible assumption
    | decide +kernel
    | with_reducible exact Kept.refl ..
    | with_reducible apply Kept.step (State.wr_kept _ _ _ _)
    | with_reducible apply Kept.step (State.setNdl_kept _ _ _)
    | with_reducible apply Kept.step (State.ndlCount_kept _ _ _)
    | with_reducible apply Kept.step (State.ndlTrace_kept _ _ _ _ _)
    | with_reducible apply Kept.step (State.rasFreeze_kept _ _ _)
    | with_reducible apply Kept.step (State.holdCheck_kept _)
    | with_reducible apply Kept.step (State.runRoutine_kept _ _ _)
    | (extract_lets +onlyGivenNames x; refine cutK (m := km_freezeAt) (s := s) (x := x) ?_ ?_; on_goal 1 => (try unfold x); on_goal 2 => (intro hx; clear_value x))
    | extract_lets +onlyGivenNames x
    | split
    | refine Kept.of_snd ‹_› ?_)

def km_breakAt : Nat := pt.trans ||| km_setStatus ||| km_latch ||| km_timedCheck ||| km_setNdl ||| km_freezeAt

theorem State.breakAt_kept (s : State) (n : Nat) (e : Nat) (mark : Nat) : Kept km_breakAt s (State.breakAt s n e mark) := by
  unfold State.breakAt
  repeat' (first
    | with_reducible assumption
    | decide +kernel
    | with_reducible exact Kept.refl ..
    | (with_reducible apply Kept.ite <;> intro _)
    | with_reducible apply Kept.step (State.setStatus_kept _ _ _ _)
    | with_reducible apply Kept.step (State.latch_kept _ _)
    | with_reducible apply Kept.step (State.timedCheck_kept _)
    | with_reducible apply Kept.step (State.setNdl_kept _ _ _)
    | with_reducible apply Kept.step (State.freezeAt_kept _ _ _)
    | with_reducible apply Kept.foldl
    | with_reducible refine fun (x : State) a hx => ?_
    | (extract_lets +onlyGivenNames x; refine cutK (m := km_breakAt) (s := s) (x := x) ?_ ?_; on_goal 1 => (try unfold x); on_goal 2 => (intro hx; clear_value x))
    | extract_lets +onlyGivenNames x
    | split
    | refine Kept.of_snd ‹_› ?_
    | dsimp +zetaDelta only [id_eq]
    | with_reducible apply Kept.set_trans)

def km_execHostEventLatch : Nat := pt.staged ||| km_reach ||| km_latchEvent

theorem execHostEventLatch_kept (needle : Nat) (s : State) : KeptR km_execHostEventLatch s (execHostEventLatch needle s) := by
  unfold execHostEventLatch
  repeat' (first
    | with_reducible assumption
    | decide +kernel
    | with_reducible exact Kept.refl ..
    | with_reducible refine KeptR.next ?_
    | with_reducible exact KeptR.fault
    | with_reducible apply Kept.step (State.reach_kept _ _)
    | with_reducible apply Kept.step (State.latchEvent_kept _ _ _ _ _)
    | (extract_lets +onlyGivenNames x; refine cutK (m := km_execHostEventLatch) (s := s) (x := x) ?_ ?_; on_goal 1 => (try unfold x); on_goal 2 => (intro hx; clear_value x))
    | extract_lets +onlyGivenNames x
    | split
    | refine Kept.of_snd ‹_› ?_
    | with_reducible apply Kept.set_staged)

def km_execTriginEdge : Nat := km_reach ||| km_latchEvent ||| km_taeTrigin

theorem execTriginEdge_kept (input : Nat) (falling : Bool) (t : Nat) (s : State) : KeptR km_execTriginEdge s (execTriginEdge input falling t s) := by
  unfold execTriginEdge
  repeat' (first
    | with_reducible assumption
    | decide +kernel
    | with_reducible exact Kept.refl ..
    | (with_reducible apply KeptR.ite <;> intro _)
    | (with_reducible apply Kept.ite <;> intro _)
    | with_reducible refine KeptR.next ?_
    | with_reducible exact KeptR.fault
    | with_reducible apply Kept.step (State.reach_kept _ _)
    | with_reducible apply Kept.step (State.latchEvent_kept _ _ _ _ _)
    | with_reducible apply Kept.step (State.taeTrigin_kept _ _ _ _ _)
    | (extract_lets +onlyGivenNames x; refine cutK (m := km_execTriginEdge) (s := s) (x := x) ?_ ?_; on_goal 1 => (try unfold x); on_goal 2 => (intro hx; clear_value x))
    | extract_lets +onlyGivenNames x
    | split
    | refine Kept.of_snd ‹_› ?_)

def km_jumpNow : Nat := ob Obj.ndlJumpStatus ||| km_setNdl ||| km_setStatus ||| km_dropJump

theorem State.jumpNow_kept (s : State) (n : Nat) (entry : Nat) (a : Nat) : Kept km_jumpNow s (State.jumpNow s n entry a) := by
  unfold State.jumpNow
  repeat' (first
    | with_reducible assumption
    | decide +kernel
    | with_reducible exact Kept.refl ..
    | (with_reducible apply Kept.ite <;> intro _)
    | with_reducible apply Kept.step (State.setFld_kept _ _ _ _ _)
    | with_reducible apply Kept.step (State.setNdl_kept _ _ _)
    | with_reducible apply Kept.step (State.setStatus_kept _ _ _ _)
    | with_reducible apply Kept.step (State.dropJump_kept _ _)
    | (extract_lets +onlyGivenNames x; refine cutK (m := km_jumpNow) (s := s) (x := x) ?_ ?_; on_goal 1 => (try unfold x); on_goal 2 => (intro hx; clear_value x))
    | extract_lets +onlyGivenNames x
    | split
    | refine Kept.of_snd ‹_› ?_)

def km_execJumpApply : Nat := pt.staged ||| km_reach ||| km_jumpNow

theorem execJumpApply_kept (needle : Nat) (s : State) : KeptR km_execJumpApply s (execJumpApply needle s) := by
  unfold execJumpApply
  repeat' (first
    | with_reducible assumption
    | decide +kernel
    | with_reducible exact Kept.refl ..
    | with_reducible refine KeptR.next ?_
    | with_reducible exact KeptR.fault
    | with_reducible apply Kept.step (State.reach_kept _ _)
    | with_reducible apply Kept.step (State.jumpNow_kept _ _ _ _)
    | with_reducible apply Kept.foldl
    | with_reducible refine fun (x : State) a hx => ?_
    | (extract_lets +onlyGivenNames x; refine cutK (m := km_execJumpApply) (s := s) (x := x) ?_ ?_; on_goal 1 => (try unfold x); on_goal 2 => (intro hx; clear_value x))
    | extract_lets +onlyGivenNames x
    | split
    | refine Kept.of_snd ‹_› ?_
    | dsimp +zetaDelta only [id_eq]
    | with_reducible apply Kept.set_staged)

end Sys2Proof.Machine
end

