-- ==== Sys2Proof/Laws/KeptCompare.lean ====
section
/-! SUPPORT. For every operation of Machine/Compare.lean the parts of the state that it may change. -/
set_option linter.unusedTactic false
set_option linter.unreachableTactic false
set_option linter.unusedVariables false
set_option linter.tactic.unusedName false
set_option Elab.async false
namespace Sys2Proof.Machine

def km_flagGroup : Nat := km_setNdl ||| km_setStatus ||| km_setResult ||| km_latch ||| km_frogAt

theorem State.flagGroup_kept (s : State) (n : Nat) (t : Nat) : Kept km_flagGroup s (State.flagGroup s n t) := by
  unfold State.flagGroup
  repeat' (first
    | with_reducible assumption
    | decide +kernel
    | with_reducible exact Kept.refl ..
    | (with_reducible apply Kept.ite <;> intro _)
    | with_reducible apply Kept.step (State.setNdl_kept _ _ _)
    | with_reducible apply Kept.step (State.setStatus_kept _ _ _ _)
    | with_reducible apply Kept.step (State.setResult_kept _ _ _ _)
    | with_reducible apply Kept.step (State.latch_kept _ _)
    | with_reducible apply Kept.step (State.frogAt_kept _ _ _ _)
    | with_reducible apply Kept.foldl
    | with_reducible refine fun (x : State) a hx => ?_
    | (extract_lets +onlyGivenNames x; refine cutK (m := km_flagGroup) (s := s) (x := x) ?_ ?_; on_goal 1 => (try unfold x); on_goal 2 => (intro hx; clear_value x))
    | extract_lets +onlyGivenNames x
    | split
    | refine Kept.of_snd ‹_› ?_
    | dsimp +zetaDelta only [id_eq])

def km_deliverFlags : Nat := km_reach ||| km_flagGroup

theorem State.deliverFlags_kept (k n e : Nat) (s : State) : Kept km_deliverFlags s (State.deliverFlags k n e s) := by
  induction k generalizing s with
  | zero =>
    unfold State.deliverFlags
    repeat' (first
      | with_reducible assumption
      | decide +kernel
      | with_reducible exact Kept.refl ..
      | with_reducible apply Kept.step (ih _)
      | with_reducible apply Kept.step (State.reach_kept _ _)
      | with_reducible apply Kept.step (State.flagGroup_kept _ _ _)
      | with_reducible apply Kept.foldl
      | with_reducible refine fun (x : State) a hx => ?_
      | (extract_lets +onlyGivenNames x; refine cutK (m := km_deliverFlags) (s := s) (x := x) ?_ ?_; on_goal 1 => (try unfold x); on_goal 2 => (intro hx; clear_value x))
      | extract_lets +onlyGivenNames x
      | split
      | refine Kept.of_snd ‹_› ?_
      | dsimp +zetaDelta only [id_eq])
  | succ k ih =>
    unfold State.deliverFlags
    repeat' (first
      | with_reducible assumption
      | decide +kernel
      | with_reducible exact Kept.refl ..
      | with_reducible apply Kept.step (ih _)
      | with_reducible apply Kept.step (State.reach_kept _ _)
      | with_reducible apply Kept.step (State.flagGroup_kept _ _ _)
      | with_reducible apply Kept.foldl
      | with_reducible refine fun (x : State) a hx => ?_
      | (extract_lets +onlyGivenNames x; refine cutK (m := km_deliverFlags) (s := s) (x := x) ?_ ?_; on_goal 1 => (try unfold x); on_goal 2 => (intro hx; clear_value x))
      | extract_lets +onlyGivenNames x
      | split
      | refine Kept.of_snd ‹_› ?_
      | dsimp +zetaDelta only [id_eq])

def km_siteFail : Nat := ob Obj.ptfSiteResult ||| km_setResult ||| km_setNdl ||| km_logFail

theorem State.siteFail_kept (s : State) (n : Nat) (st : Stitch) (bad : List Seen) (site : Nat) : Kept km_siteFail s (State.siteFail s n st bad site) := by
  unfold State.siteFail
  repeat' (first
    | with_reducible assumption
    | decide +kernel
    | with_reducible exact Kept.refl ..
    | (with_reducible apply Kept.ite <;> intro _)
    | with_reducible apply Kept.step (State.count_kept _ _ _ _ _ _)
    | with_reducible apply Kept.step (State.setResult_kept _ _ _ _)
    | with_reducible apply Kept.step (State.setNdl_kept _ _ _)
    | with_reducible apply Kept.step (State.logFail_kept _ _ _)
    | with_reducible apply Kept.foldl
    | with_reducible refine fun (x : State) a hx => ?_
    | (extract_lets +onlyGivenNames x; refine cutK (m := km_siteFail) (s := s) (x := x) ?_ ?_; on_goal 1 => (try unfold x); on_goal 2 => (intro hx; clear_value x))
    | extract_lets +onlyGivenNames x
    | split
    | refine Kept.of_snd ‹_› ?_
    | dsimp +zetaDelta only [id_eq])

def km_pinFail : Nat := ob Obj.ptfPinFails

theorem State.pinFail_kept (s : State) (idx : Nat) (p : Nat) : Kept km_pinFail s (State.pinFail s idx p) := by
  unfold State.pinFail
  repeat' (first
    | with_reducible assumption
    | decide +kernel
    | with_reducible exact Kept.refl ..
    | (with_reducible apply Kept.ite <;> intro _)
    | with_reducible apply Kept.step (State.setFld_kept _ _ _ _ _)
    | with_reducible apply Kept.step (State.count_kept _ _ _ _ _ _)
    | (extract_lets +onlyGivenNames x; refine cutK (m := km_pinFail) (s := s) (x := x) ?_ ?_; on_goal 1 => (try unfold x); on_goal 2 => (intro hx; clear_value x))
    | extract_lets +onlyGivenNames x
    | split
    | refine Kept.of_snd ‹_› ?_
    | dsimp +zetaDelta only [id_eq])

def km_evalStitch : Nat := km_taeFail ||| km_setNdl ||| km_siteFail ||| km_pinFail ||| km_captureWord ||| km_rasReturn

theorem State.evalStitch_kept (s : State) (n : Nat) (st : Stitch) (seen : List Seen) : Kept km_evalStitch s (State.evalStitch s n st seen) := by
  unfold State.evalStitch
  repeat' (first
    | with_reducible assumption
    | decide +kernel
    | with_reducible exact Kept.refl ..
    | (with_reducible apply Kept.ite <;> intro _)
    | with_reducible apply Kept.step (State.taeFail_kept _ _ _ _)
    | with_reducible apply Kept.step (State.setNdl_kept _ _ _)
    | with_reducible apply Kept.step (State.siteFail_kept _ _ _ _ _)
    | with_reducible apply Kept.step (State.pinFail_kept _ _ _)
    | with_reducible apply Kept.step (State.captureWord_kept _ _ _ _)
    | with_reducible apply Kept.step (State.rasReturn_kept _ _ _ _)
    | with_reducible apply Kept.foldl
    | with_reducible refine fun (x : State) a hx => ?_
    | (extract_lets +onlyGivenNames x; refine cutK (m := km_evalStitch) (s := s) (x := x) ?_ ?_; on_goal 1 => (try unfold x); on_goal 2 => (intro hx; clear_value x))
    | extract_lets +onlyGivenNames x
    | split
    | refine Kept.of_snd ‹_› ?_
    | dsimp +zetaDelta only [id_eq])

def km_popEmpty : Nat := km_setNdl ||| km_evalStitch

theorem State.popEmpty_kept (k n : Nat) (s : State) : Kept km_popEmpty s (State.popEmpty k n s) := by
  induction k generalizing s with
  | zero =>
    unfold State.popEmpty
    repeat' (first
      | with_reducible assumption
      | decide +kernel
      | with_reducible exact Kept.refl ..
      | with_reducible apply Kept.step (ih _)
      | (with_reducible apply Kept.ite <;> intro _)
      | with_reducible apply Kept.step (State.setNdl_kept _ _ _)
      | with_reducible apply Kept.step (State.evalStitch_kept _ _ _ _)
      | (extract_lets +onlyGivenNames x; refine cutK (m := km_popEmpty) (s := s) (x := x) ?_ ?_; on_goal 1 => (try unfold x); on_goal 2 => (intro hx; clear_value x))
      | extract_lets +onlyGivenNames x
      | split
      | refine Kept.of_snd ‹_› ?_)
  | succ k ih =>
    unfold State.popEmpty
    repeat' (first
      | with_reducible assumption
      | decide +kernel
      | with_reducible exact Kept.refl ..
      | with_reducible apply Kept.step (ih _)
      | (with_reducible apply Kept.ite <;> intro _)
      | with_reducible apply Kept.step (State.setNdl_kept _ _ _)
      | with_reducible apply Kept.step (State.evalStitch_kept _ _ _ _)
      | (extract_lets +onlyGivenNames x; refine cutK (m := km_popEmpty) (s := s) (x := x) ?_ ?_; on_goal 1 => (try unfold x); on_goal 2 => (intro hx; clear_value x))
      | extract_lets +onlyGivenNames x
      | split
      | refine Kept.of_snd ‹_› ?_)

def km_execStrobeResult : Nat := km_popEmpty ||| km_reach ||| km_setNdl ||| km_evalStitch

theorem execStrobeResult_kept (needle : Nat) (samples : Samples) (s : State) : KeptR km_execStrobeResult s (execStrobeResult needle samples s) := by
  unfold execStrobeResult
  repeat' (first
    | with_reducible assumption
    | decide +kernel
    | with_reducible exact Kept.refl ..
    | with_reducible refine KeptR.next ?_
    | with_reducible exact KeptR.fault
    | with_reducible apply Kept.step (State.popEmpty_kept _ _ _)
    | with_reducible apply Kept.step (State.reach_kept _ _)
    | with_reducible apply Kept.step (State.setNdl_kept _ _ _)
    | with_reducible apply Kept.step (State.evalStitch_kept _ _ _ _)
    | with_reducible apply Kept.foldl
    | with_reducible refine fun (x : State) a hx => ?_
    | (extract_lets +onlyGivenNames x; refine cutK (m := km_execStrobeResult) (s := s) (x := x) ?_ ?_; on_goal 1 => (try unfold x); on_goal 2 => (intro hx; clear_value x))
    | extract_lets +onlyGivenNames x
    | split
    | refine Kept.of_snd ‹_› ?_
    | dsimp +zetaDelta only [id_eq])

end Sys2Proof.Machine
end

