-- ==== Sys2Proof/Laws/KeptDecoder.lean ====
section
/-! SUPPORT. For every operation of Machine/Decoder.lean the parts of the state that it may change. -/
set_option linter.unusedTactic false
set_option linter.unreachableTactic false
set_option linter.unusedVariables false
set_option linter.tactic.unusedName false
set_option Elab.async false
namespace Sys2Proof.Machine

def km_ringSettle : Nat := km_ringReturn

theorem State.ringSettle_kept (s : State) (n : Nat) : Kept km_ringSettle s (State.ringSettle s n) := by
  unfold State.ringSettle
  repeat' (first
    | with_reducible assumption
    | decide +kernel
    | with_reducible exact Kept.refl ..
    | (with_reducible apply Kept.ite <;> intro _)
    | with_reducible apply Kept.step (State.ringReturn_kept _ _ _ _)
    | (extract_lets +onlyGivenNames x; refine cutK (m := km_ringSettle) (s := s) (x := x) ?_ ?_; on_goal 1 => (try unfold x); on_goal 2 => (intro hx; clear_value x))
    | extract_lets +onlyGivenNames x
    | split
    | refine Kept.of_snd ‹_› ?_
    | dsimp +zetaDelta only [id_eq])

def km_decodeMove : Nat := km_setNdl

theorem State.decodeMove_kept (s : State) (n : Nat) (img : Img) (off : Nat) (b : Block) : Kept km_decodeMove s (State.decodeMove s n img off b) := by
  unfold State.decodeMove
  repeat' (first
    | with_reducible assumption
    | decide +kernel
    | with_reducible exact Kept.refl ..
    | (with_reducible apply Kept.ite <;> intro _)
    | with_reducible apply Kept.step (State.count_kept _ _ _ _ _ _)
    | with_reducible apply Kept.step (State.setNdl_kept _ _ _)
    | (extract_lets +onlyGivenNames x; refine cutK (m := km_decodeMove) (s := s) (x := x) ?_ ?_; on_goal 1 => (try unfold x); on_goal 2 => (intro hx; clear_value x))
    | extract_lets +onlyGivenNames x
    | split
    | refine Kept.of_snd ‹_› ?_
    | dsimp +zetaDelta only [id_eq])

def km_cacheRead : Nat := km_checked ||| km_draw ||| km_raise ||| km_frogFault

theorem State.cacheRead_kept (s : State) (n : Nat) (img : Img) (course : Nat) : Kept km_cacheRead s (State.cacheRead s n img course).2 := by
  unfold State.cacheRead
  repeat' (first
    | with_reducible assumption
    | decide +kernel
    | with_reducible exact Kept.refl ..
    | (with_reducible apply Kept.ite <;> intro _)
    | (with_reducible apply Kept.ite2 <;> intro _)
    | with_reducible apply Kept.step (State.checked_kept _ _ _)
    | with_reducible apply Kept.step (State.draw_kept _)
    | with_reducible apply Kept.step (State.raise_kept _ _ _ _ _ _ _ _)
    | with_reducible apply Kept.step (State.frogFault_kept _ _ _ _ _)
    | (extract_lets +onlyGivenNames x; refine cutK (m := km_cacheRead) (s := s) (x := x) ?_ ?_; on_goal 1 => (try unfold x); on_goal 2 => (intro hx; clear_value x))
    | (extract_lets +onlyGivenNames x; refine cutK (m := km_cacheRead) (s := s) (x := x.2) ?_ ?_; on_goal 1 => (try unfold x); on_goal 2 => (intro hx; clear_value x))
    | extract_lets +onlyGivenNames x
    | split
    | refine Kept.of_snd ‹_› ?_)

def km_takeCourse : Nat := km_cacheRead ||| km_setNdl

theorem State.takeCourse_kept (s : State) (n : Nat) (img : Img) (course : Nat) (replay : Bool) (used : Bool) : Kept km_takeCourse s (State.takeCourse s n img course replay used).2 := by
  unfold State.takeCourse
  repeat' (first
    | with_reducible assumption
    | decide +kernel
    | with_reducible exact Kept.refl ..
    | (with_reducible apply Kept.ite <;> intro _)
    | (with_reducible apply Kept.ite2 <;> intro _)
    | with_reducible apply Kept.step (State.cacheRead_kept _ _ _ _)
    | with_reducible apply Kept.step (State.setNdl_kept _ _ _)
    | (extract_lets +onlyGivenNames x; refine cutK (m := km_takeCourse) (s := s) (x := x) ?_ ?_; on_goal 1 => (try unfold x); on_goal 2 => (intro hx; clear_value x))
    | (extract_lets +onlyGivenNames x; refine cutK (m := km_takeCourse) (s := s) (x := x.2) ?_ ?_; on_goal 1 => (try unfold x); on_goal 2 => (intro hx; clear_value x))
    | extract_lets +onlyGivenNames x
    | split
    | refine Kept.of_snd ‹_› ?_
    | dsimp +zetaDelta only [id_eq])

def km_castRead : Nat := km_reach ||| km_takeCourse ||| km_setNdl

theorem State.castRead_kept (s : State) (n : Nat) : Kept km_castRead s (State.castRead s n).2 := by
  unfold State.castRead
  repeat' (first
    | with_reducible assumption
    | decide +kernel
    | with_reducible exact Kept.refl ..
    | (with_reducible apply Kept.ite <;> intro _)
    | (with_reducible apply Kept.ite2 <;> intro _)
    | with_reducible apply Kept.step (State.reach_kept _ _)
    | with_reducible apply Kept.step (State.takeCourse_kept _ _ _ _ _ _)
    | with_reducible apply Kept.step (State.setNdl_kept _ _ _)
    | with_reducible apply Kept.foldl_snd
    | with_reducible refine fun (x : _ × State) a hx => ?_
    | with_reducible apply Kept.foldl
    | with_reducible refine fun (x : State) a hx => ?_
    | (extract_lets +onlyGivenNames x; refine cutK (m := km_castRead) (s := s) (x := x) ?_ ?_; on_goal 1 => (try unfold x); on_goal 2 => (intro hx; clear_value x))
    | (extract_lets +onlyGivenNames x; refine cutK (m := km_castRead) (s := s) (x := x.2) ?_ ?_; on_goal 1 => (try unfold x); on_goal 2 => (intro hx; clear_value x))
    | extract_lets +onlyGivenNames x
    | split
    | refine Kept.of_snd ‹_› ?_
    | dsimp +zetaDelta only [id_eq])

def km_decodeAt : Nat := km_takeCourse ||| km_checked ||| km_frogFault ||| km_setNdl ||| km_ndlTraceAt ||| km_decodeMove

theorem State.decodeAt_kept (s : State) (n : Nat) (img : Img) (off : Nat) : Kept km_decodeAt s (State.decodeAt s n img off) := by
  unfold State.decodeAt
  repeat' (first
    | with_reducible assumption
    | decide +kernel
    | with_reducible exact Kept.refl ..
    | (with_reducible apply Kept.ite <;> intro _)
    | with_reducible apply Kept.step (State.takeCourse_kept _ _ _ _ _ _)
    | with_reducible apply Kept.step (State.checked_kept _ _ _)
    | with_reducible apply Kept.step (State.frogFault_kept _ _ _ _ _)
    | with_reducible apply Kept.step (State.setNdl_kept _ _ _)
    | with_reducible apply Kept.step (State.ndlTraceAt_kept _ _ _ _ _ _)
    | with_reducible apply Kept.step (State.decodeMove_kept _ _ _ _ _)
    | (extract_lets +onlyGivenNames x; refine cutK (m := km_decodeAt) (s := s) (x := x) ?_ ?_; on_goal 1 => (try unfold x); on_goal 2 => (intro hx; clear_value x))
    | (extract_lets +onlyGivenNames x; refine cutK (m := km_decodeAt) (s := s) (x := x.2) ?_ ?_; on_goal 1 => (try unfold x); on_goal 2 => (intro hx; clear_value x))
    | extract_lets +onlyGivenNames x
    | split
    | refine Kept.of_snd ‹_› ?_)

def km_decodeAhead : Nat := km_setNdl ||| km_decodeAt

theorem State.decodeAhead_kept (s : State) (n : Nat) (target : Bool) (a : Ahead) (b : Ahead) (place : Img × Nat) : Kept km_decodeAhead s (State.decodeAhead s n target a b place) := by
  unfold State.decodeAhead
  repeat' (first
    | with_reducible assumption
    | decide +kernel
    | with_reducible exact Kept.refl ..
    | (with_reducible apply Kept.ite <;> intro _)
    | with_reducible apply Kept.step (State.setNdl_kept _ _ _)
    | with_reducible apply Kept.step (State.decodeAt_kept _ _ _ _)
    | (extract_lets +onlyGivenNames x; refine cutK (m := km_decodeAhead) (s := s) (x := x) ?_ ?_; on_goal 1 => (try unfold x); on_goal 2 => (intro hx; clear_value x))
    | extract_lets +onlyGivenNames x
    | split
    | refine Kept.of_snd ‹_› ?_)

def km_runBlockDecode : Nat := km_castRead ||| km_reach ||| km_setNdl ||| km_decodeAt ||| km_ringSettle ||| km_decodeAhead

theorem runBlockDecode_kept (needle : Nat) (s : State) : KeptR km_runBlockDecode s (runBlockDecode needle s) := by
  unfold runBlockDecode
  repeat' (first
    | with_reducible assumption
    | decide +kernel
    | with_reducible exact Kept.refl ..
    | (with_reducible apply KeptR.ite <;> intro _)
    | (with_reducible apply Kept.ite <;> intro _)
    | with_reducible refine KeptR.next ?_
    | with_reducible exact KeptR.fault
    | with_reducible apply Kept.step (State.castRead_kept _ _)
    | with_reducible apply Kept.step (State.reach_kept _ _)
    | with_reducible apply Kept.step (State.setNdl_kept _ _ _)
    | with_reducible apply Kept.step (State.decodeAt_kept _ _ _ _)
    | with_reducible apply Kept.step (State.ringSettle_kept _ _)
    | with_reducible apply Kept.step (State.decodeAhead_kept _ _ _ _ _ _)
    | (extract_lets +onlyGivenNames x; refine cutK (m := km_runBlockDecode) (s := s) (x := x) ?_ ?_; on_goal 1 => (try unfold x); on_goal 2 => (intro hx; clear_value x))
    | (extract_lets +onlyGivenNames x; refine cutK (m := km_runBlockDecode) (s := s) (x := x.2) ?_ ?_; on_goal 1 => (try unfold x); on_goal 2 => (intro hx; clear_value x))
    | extract_lets +onlyGivenNames x
    | split
    | refine Kept.of_snd ‹_› ?_
    | dsimp +zetaDelta only [id_eq])

end Sys2Proof.Machine
end

