-- ==== Sys2Proof/Laws/KeptIssue.lean ====
section
/-! SUPPORT. For every operation of Machine/Issue.lean the parts of the state that it may change. -/
set_option linter.unusedTactic false
set_option linter.unreachableTactic false
set_option linter.unusedVariables false
set_option linter.tactic.unusedName false
set_option Elab.async false
namespace Sys2Proof.Machine

def km_holdFront : Nat := km_setNdl

theorem State.holdFront_kept (s : State) (n : Nat) (d : Dec) : Kept km_holdFront s (State.holdFront s n d) := by
  unfold State.holdFront
  repeat' (first
    | with_reducible assumption
    | decide +kernel
    | with_reducible exact Kept.refl ..
    | (with_reducible apply Kept.ite <;> intro _)
    | with_reducible apply Kept.step (State.setNdl_kept _ _ _)
    | (extract_lets +onlyGivenNames x; refine cutK (m := km_holdFront) (s := s) (x := x) ?_ ?_; on_goal 1 => (try unfold x); on_goal 2 => (intro hx; clear_value x))
    | extract_lets +onlyGivenNames x
    | split
    | refine Kept.of_snd ‹_› ?_)

def km_holdAll : Nat := km_holdFront

theorem State.holdAll_kept (k n : Nat) (s : State) : Kept km_holdAll s (State.holdAll k n s) := by
  induction k generalizing s with
  | zero =>
    unfold State.holdAll
    repeat' (first
      | with_reducible assumption
      | decide +kernel
      | with_reducible exact Kept.refl ..
      | with_reducible apply Kept.step (ih _)
      | (with_reducible apply Kept.ite <;> intro _)
      | with_reducible apply Kept.step (State.holdFront_kept _ _ _)
      | (extract_lets +onlyGivenNames x; refine cutK (m := km_holdAll) (s := s) (x := x) ?_ ?_; on_goal 1 => (try unfold x); on_goal 2 => (intro hx; clear_value x))
      | extract_lets +onlyGivenNames x
      | split
      | refine Kept.of_snd ‹_› ?_)
  | succ k ih =>
    unfold State.holdAll
    repeat' (first
      | with_reducible assumption
      | decide +kernel
      | with_reducible exact Kept.refl ..
      | with_reducible apply Kept.step (ih _)
      | (with_reducible apply Kept.ite <;> intro _)
      | with_reducible apply Kept.step (State.holdFront_kept _ _ _)
      | (extract_lets +onlyGivenNames x; refine cutK (m := km_holdAll) (s := s) (x := x) ?_ ?_; on_goal 1 => (try unfold x); on_goal 2 => (intro hx; clear_value x))
      | extract_lets +onlyGivenNames x
      | split
      | refine Kept.of_snd ‹_› ?_)

def km_pinStitch : Nat := km_driveEdge

theorem State.pinStitch_kept (s : State) (n : Nat) (t1 : Nat) (p : Nat) (c : Nat) (masked : Bool) : Kept km_pinStitch s (State.pinStitch s n t1 p c masked).2 := by
  unfold State.pinStitch
  repeat' (first
    | with_reducible assumption
    | decide +kernel
    | with_reducible exact Kept.refl ..
    | (with_reducible apply Kept.ite <;> intro _)
    | (with_reducible apply Kept.ite2 <;> intro _)
    | with_reducible apply Kept.step (State.driveEdge_kept _ _ _ _ _)
    | with_reducible apply Kept.foldl
    | with_reducible refine fun (x : State) a hx => ?_
    | (extract_lets +onlyGivenNames x; refine cutK (m := km_pinStitch) (s := s) (x := x) ?_ ?_; on_goal 1 => (try unfold x); on_goal 2 => (intro hx; clear_value x))
    | extract_lets +onlyGivenNames x
    | split
    | refine Kept.of_snd ‹_› ?_
    | dsimp +zetaDelta only [id_eq])

def km_firstStitch : Nat := ob Obj.ndlCastonWait ||| ob Obj.ndlState ||| ob Obj.ptfPinState ||| km_castOn ||| km_ageFrom ||| km_ndlTrace ||| km_setNdl

theorem State.firstStitch_kept (s : State) (n : Nat) (t1 : Nat) (op : Nat) (course : Nat) : Kept km_firstStitch s (State.firstStitch s n t1 op course) := by
  unfold State.firstStitch
  repeat' (first
    | with_reducible assumption
    | decide +kernel
    | with_reducible exact Kept.refl ..
    | (with_reducible apply Kept.ite <;> intro _)
    | with_reducible apply Kept.step (State.wr_kept _ _ _ _)
    | with_reducible apply Kept.step (State.castOn_kept _ _ _)
    | with_reducible apply Kept.step (State.ageFrom_kept _ _ _)
    | with_reducible apply Kept.step (State.ndlTrace_kept _ _ _ _ _)
    | with_reducible apply Kept.step (State.setNdl_kept _ _ _)
    | with_reducible apply Kept.foldl
    | with_reducible refine fun (x : State) a hx => ?_
    | (extract_lets +onlyGivenNames x; refine cutK (m := km_firstStitch) (s := s) (x := x) ?_ ?_; on_goal 1 => (try unfold x); on_goal 2 => (intro hx; clear_value x))
    | extract_lets +onlyGivenNames x
    | split
    | refine Kept.of_snd ‹_› ?_
    | dsimp +zetaDelta only [id_eq])

def km_noteBlock : Nat := km_setStatus ||| km_setNdl

theorem State.noteBlock_kept (s : State) (n : Nat) (d : Dec) : Kept km_noteBlock s (State.noteBlock s n d) := by
  unfold State.noteBlock
  repeat' (first
    | with_reducible assumption
    | decide +kernel
    | with_reducible exact Kept.refl ..
    | with_reducible apply Kept.step (State.setStatus_kept _ _ _ _)
    | with_reducible apply Kept.step (State.setNdl_kept _ _ _)
    | (extract_lets +onlyGivenNames x; refine cutK (m := km_noteBlock) (s := s) (x := x) ?_ ?_; on_goal 1 => (try unfold x); on_goal 2 => (intro hx; clear_value x))
    | extract_lets +onlyGivenNames x
    | split
    | refine Kept.of_snd ‹_› ?_)

def km_noteStitch : Nat := km_noteBlock ||| km_setStatus ||| km_setNdl

theorem State.noteStitch_kept (s : State) (n : Nat) (course : Nat) (d : Dec) : Kept km_noteStitch s (State.noteStitch s n course d) := by
  unfold State.noteStitch
  repeat' (first
    | with_reducible assumption
    | decide +kernel
    | with_reducible exact Kept.refl ..
    | (with_reducible apply Kept.ite <;> intro _)
    | with_reducible apply Kept.step (State.noteBlock_kept _ _ _)
    | with_reducible apply Kept.step (State.setStatus_kept _ _ _ _)
    | with_reducible apply Kept.step (State.setNdl_kept _ _ _)
    | (extract_lets +onlyGivenNames x; refine cutK (m := km_noteStitch) (s := s) (x := x) ?_ ?_; on_goal 1 => (try unfold x); on_goal 2 => (intro hx; clear_value x))
    | extract_lets +onlyGivenNames x
    | split
    | refine Kept.of_snd ‹_› ?_)

def km_ringStitch : Nat := km_ringIssue ||| km_ringReturn

theorem State.ringStitch_kept (s : State) (n : Nat) (k : Nat) (d : Dec) (npins : Nat) : Kept km_ringStitch s (State.ringStitch s n k d npins) := by
  unfold State.ringStitch
  repeat' (first
    | with_reducible assumption
    | decide +kernel
    | with_reducible exact Kept.refl ..
    | (with_reducible apply Kept.ite <;> intro _)
    | with_reducible apply Kept.step (State.ringIssue_kept _ _ _ _)
    | with_reducible apply Kept.step (State.ringReturn_kept _ _ _ _)
    | (extract_lets +onlyGivenNames x; refine cutK (m := km_ringStitch) (s := s) (x := x) ?_ ?_; on_goal 1 => (try unfold x); on_goal 2 => (intro hx; clear_value x))
    | extract_lets +onlyGivenNames x
    | split
    | refine Kept.of_snd ‹_› ?_
    | dsimp +zetaDelta only [id_eq])

def km_ringBlock : Nat := km_ringIssue ||| km_ringReturn

theorem State.ringBlock_kept (s : State) (n : Nat) (d : Dec) : Kept km_ringBlock s (State.ringBlock s n d) := by
  unfold State.ringBlock
  repeat' (first
    | with_reducible assumption
    | decide +kernel
    | with_reducible exact Kept.refl ..
    | (with_reducible apply Kept.ite <;> intro _)
    | with_reducible apply Kept.step (State.ringIssue_kept _ _ _ _)
    | with_reducible apply Kept.step (State.ringReturn_kept _ _ _ _)
    | (extract_lets +onlyGivenNames x; refine cutK (m := km_ringBlock) (s := s) (x := x) ?_ ?_; on_goal 1 => (try unfold x); on_goal 2 => (intro hx; clear_value x))
    | extract_lets +onlyGivenNames x
    | split
    | refine Kept.of_snd ‹_› ?_)

def km_popFront : Nat := km_setNdl ||| km_ringBlock ||| km_ringSettle

theorem State.popFront_kept (s : State) (n : Nat) (d : Dec) : Kept km_popFront s (State.popFront s n d) := by
  unfold State.popFront
  repeat' (first
    | with_reducible assumption
    | decide +kernel
    | with_reducible exact Kept.refl ..
    | with_reducible apply Kept.step (State.setNdl_kept _ _ _)
    | with_reducible apply Kept.step (State.ringBlock_kept _ _ _)
    | with_reducible apply Kept.step (State.ringSettle_kept _ _)
    | (extract_lets +onlyGivenNames x; refine cutK (m := km_popFront) (s := s) (x := x) ?_ ?_; on_goal 1 => (try unfold x); on_goal 2 => (intro hx; clear_value x))
    | extract_lets +onlyGivenNames x
    | split
    | refine Kept.of_snd ‹_› ?_)

def km_advance : Nat := km_setNdl ||| km_popFront ||| km_ndlTrace ||| km_dropJump

theorem State.advance_kept (s : State) (n : Nat) (e : Nat) (t1 : Nat) (p : Nat) (d : Dec) : Kept km_advance s (State.advance s n e t1 p d) := by
  unfold State.advance
  repeat' (first
    | with_reducible assumption
    | decide +kernel
    | with_reducible exact Kept.refl ..
    | (with_reducible apply Kept.ite <;> intro _)
    | with_reducible apply Kept.step (State.count_kept _ _ _ _ _ _)
    | with_reducible apply Kept.step (State.setNdl_kept _ _ _)
    | with_reducible apply Kept.step (State.popFront_kept _ _ _)
    | with_reducible apply Kept.step (State.ndlTrace_kept _ _ _ _ _)
    | with_reducible apply Kept.step (State.dropJump_kept _ _)
    | (extract_lets +onlyGivenNames x; refine cutK (m := km_advance) (s := s) (x := x) ?_ ?_; on_goal 1 => (try unfold x); on_goal 2 => (intro hx; clear_value x))
    | extract_lets +onlyGivenNames x
    | split
    | refine Kept.of_snd ‹_› ?_)

def km_allPins : Nat := km_pinStitch

theorem State.allPins_kept (s : State) (n : Nat) (t1 : Nat) (wave : Nat → Nat → Nat) (masked : Nat → Bool) : Kept km_allPins s (State.allPins s n t1 wave masked).2 := by
  unfold State.allPins
  repeat' (first
    | with_reducible assumption
    | decide +kernel
    | with_reducible exact Kept.refl ..
    | with_reducible apply Kept.step (State.pinStitch_kept _ _ _ _ _ _)
    | with_reducible apply Kept.foldl_snd
    | with_reducible refine fun (x : _ × State) a hx => ?_
    | with_reducible apply Kept.foldl
    | with_reducible refine fun (x : State) a hx => ?_
    | (extract_lets +onlyGivenNames x; refine cutK (m := km_allPins) (s := s) (x := x) ?_ ?_; on_goal 1 => (try unfold x); on_goal 2 => (intro hx; clear_value x))
    | (extract_lets +onlyGivenNames x; refine cutK (m := km_allPins) (s := s) (x := x.2) ?_ ?_; on_goal 1 => (try unfold x); on_goal 2 => (intro hx; clear_value x))
    | extract_lets +onlyGivenNames x
    | split
    | refine Kept.of_snd ‹_› ?_
    | dsimp +zetaDelta only [id_eq])

def km_loadStitch : Nat := km_takeCourse

theorem State.loadStitch_kept (s : State) (n : Nat) (d : Dec) : Kept km_loadStitch s (State.loadStitch s n d).2 := by
  unfold State.loadStitch
  repeat' (first
    | with_reducible assumption
    | decide +kernel
    | with_reducible exact Kept.refl ..
    | (with_reducible apply Kept.ite <;> intro _)
    | (with_reducible apply Kept.ite2 <;> intro _)
    | with_reducible apply Kept.step (State.takeCourse_kept _ _ _ _ _ _)
    | with_reducible apply Kept.foldl_snd
    | with_reducible refine fun (x : _ × State) a hx => ?_
    | with_reducible apply Kept.foldl
    | with_reducible refine fun (x : State) a hx => ?_
    | (extract_lets +onlyGivenNames x; refine cutK (m := km_loadStitch) (s := s) (x := x) ?_ ?_; on_goal 1 => (try unfold x); on_goal 2 => (intro hx; clear_value x))
    | (extract_lets +onlyGivenNames x; refine cutK (m := km_loadStitch) (s := s) (x := x.2) ?_ ?_; on_goal 1 => (try unfold x); on_goal 2 => (intro hx; clear_value x))
    | extract_lets +onlyGivenNames x
    | split
    | refine Kept.of_snd ‹_› ?_
    | dsimp +zetaDelta only [id_eq])

def km_waveRead : Nat := km_checkedMany ||| km_frogFault

theorem State.waveRead_kept (s : State) (n : Nat) (bpp : Nat) : Kept km_waveRead s (State.waveRead s n bpp).2 := by
  unfold State.waveRead
  repeat' (first
    | with_reducible assumption
    | decide +kernel
    | with_reducible exact Kept.refl ..
    | (with_reducible apply Kept.ite <;> intro _)
    | (with_reducible apply Kept.ite2 <;> intro _)
    | with_reducible apply Kept.step (State.checkedMany_kept _ _ _ _)
    | with_reducible apply Kept.step (State.frogFault_kept _ _ _ _ _)
    | (extract_lets +onlyGivenNames x; refine cutK (m := km_waveRead) (s := s) (x := x) ?_ ?_; on_goal 1 => (try unfold x); on_goal 2 => (intro hx; clear_value x))
    | (extract_lets +onlyGivenNames x; refine cutK (m := km_waveRead) (s := s) (x := x.2) ?_ ?_; on_goal 1 => (try unfold x); on_goal 2 => (intro hx; clear_value x))
    | extract_lets +onlyGivenNames x
    | split
    | refine Kept.of_snd ‹_› ?_
    | dsimp +zetaDelta only [id_eq])

def km_issueStitch : Nat := ob Obj.ndlStitchCount ||| km_firstStitch ||| km_rasDot ||| km_allPins ||| km_setNdl ||| km_noteStitch ||| km_ringStitch ||| km_advance ||| km_popEmpty ||| km_flushEdges

theorem State.issueStitch_kept (s : State) (n : Nat) (e : Nat) (t1 : Nat) (p : Nat) (d : Dec) : Kept km_issueStitch s (State.issueStitch s n e t1 p d) := by
  unfold State.issueStitch
  repeat' (first
    | with_reducible assumption
    | decide +kernel
    | with_reducible exact Kept.refl ..
    | (with_reducible apply Kept.ite <;> intro _)
    | with_reducible apply Kept.step (State.wr_kept _ _ _ _)
    | with_reducible apply Kept.step (State.firstStitch_kept _ _ _ _ _)
    | with_reducible apply Kept.step (State.rasDot_kept _ _ _ _)
    | with_reducible apply Kept.step (State.allPins_kept _ _ _ _ _)
    | with_reducible apply Kept.step (State.setNdl_kept _ _ _)
    | with_reducible apply Kept.step (State.noteStitch_kept _ _ _ _)
    | with_reducible apply Kept.step (State.ringStitch_kept _ _ _ _ _)
    | with_reducible apply Kept.step (State.advance_kept _ _ _ _ _ _)
    | with_reducible apply Kept.step (State.popEmpty_kept _ _ _)
    | with_reducible apply Kept.step (State.flushEdges_kept _ _)
    | with_reducible apply Kept.foldl_snd
    | with_reducible refine fun (x : _ × State) a hx => ?_
    | with_reducible apply Kept.foldl
    | with_reducible refine fun (x : State) a hx => ?_
    | (extract_lets +onlyGivenNames x; refine cutK (m := km_issueStitch) (s := s) (x := x) ?_ ?_; on_goal 1 => (try unfold x); on_goal 2 => (intro hx; clear_value x))
    | (extract_lets +onlyGivenNames x; refine cutK (m := km_issueStitch) (s := s) (x := x.2) ?_ ?_; on_goal 1 => (try unfold x); on_goal 2 => (intro hx; clear_value x))
    | extract_lets +onlyGivenNames x
    | split
    | refine Kept.of_snd ‹_› ?_
    | dsimp +zetaDelta only [id_eq])

def km_idleStitch : Nat := km_waveRead ||| km_firstStitch ||| km_allPins ||| km_setNdl ||| km_strCount ||| km_flushEdges

theorem State.idleStitch_kept (s : State) (n : Nat) (t1 : Nat) (p : Nat) : Kept km_idleStitch s (State.idleStitch s n t1 p) := by
  unfold State.idleStitch
  repeat' (first
    | with_reducible assumption
    | decide +kernel
    | with_reducible exact Kept.refl ..
    | (with_reducible apply Kept.ite <;> intro _)
    | with_reducible apply Kept.step (State.waveRead_kept _ _ _)
    | with_reducible apply Kept.step (State.firstStitch_kept _ _ _ _ _)
    | with_reducible apply Kept.step (State.allPins_kept _ _ _ _ _)
    | with_reducible apply Kept.step (State.setNdl_kept _ _ _)
    | with_reducible apply Kept.step (State.strCount_kept _ _ _ _)
    | with_reducible apply Kept.step (State.flushEdges_kept _ _)
    | (extract_lets +onlyGivenNames x; refine cutK (m := km_idleStitch) (s := s) (x := x) ?_ ?_; on_goal 1 => (try unfold x); on_goal 2 => (intro hx; clear_value x))
    | (extract_lets +onlyGivenNames x; refine cutK (m := km_idleStitch) (s := s) (x := x.2) ?_ ?_; on_goal 1 => (try unfold x); on_goal 2 => (intro hx; clear_value x))
    | extract_lets +onlyGivenNames x
    | split
    | refine Kept.of_snd ‹_› ?_
    | dsimp +zetaDelta only [id_eq])

def km_setTset : Nat := ob Obj.ndlTsetGap ||| km_setStatus ||| km_ndlCount ||| km_ndlTrace ||| km_popFront ||| km_setNdl

theorem State.setTset_kept (s : State) (n : Nat) (d : Dec) : Kept km_setTset s (State.setTset s n d) := by
  unfold State.setTset
  repeat' (first
    | with_reducible assumption
    | decide +kernel
    | with_reducible exact Kept.refl ..
    | (with_reducible apply Kept.ite <;> intro _)
    | with_reducible apply Kept.step (State.wr_kept _ _ _ _)
    | with_reducible apply Kept.step (State.setStatus_kept _ _ _ _)
    | with_reducible apply Kept.step (State.ndlCount_kept _ _ _)
    | with_reducible apply Kept.step (State.ndlTrace_kept _ _ _ _ _)
    | with_reducible apply Kept.step (State.popFront_kept _ _ _)
    | with_reducible apply Kept.step (State.setNdl_kept _ _ _)
    | (extract_lets +onlyGivenNames x; refine cutK (m := km_setTset) (s := s) (x := x) ?_ ?_; on_goal 1 => (try unfold x); on_goal 2 => (intro hx; clear_value x))
    | extract_lets +onlyGivenNames x
    | split
    | refine Kept.of_snd ‹_› ?_
    | dsimp +zetaDelta only [id_eq])

def km_supplyBlock : Nat := pt.psm ||| km_supply

theorem State.supplyBlock_kept (s : State) (n : Nat) (e : Nat) (b : Block) : Kept km_supplyBlock s (State.supplyBlock s n e b) := by
  unfold State.supplyBlock
  repeat' (first
    | with_reducible assumption
    | decide +kernel
    | with_reducible exact Kept.refl ..
    | with_reducible apply Kept.step (State.supply_kept _ _)
    | (extract_lets +onlyGivenNames x; refine cutK (m := km_supplyBlock) (s := s) (x := x) ?_ ?_; on_goal 1 => (try unfold x); on_goal 2 => (intro hx; clear_value x))
    | extract_lets +onlyGivenNames x
    | split
    | refine Kept.of_snd ‹_› ?_
    | dsimp +zetaDelta only [id_eq]
    | with_reducible apply Kept.set_psm)

def km_siteMask : Nat := km_setNdl ||| km_maskPin

theorem State.siteMask_kept (s : State) (n : Nat) (t1 : Nat) (b : Block) : Kept km_siteMask s (State.siteMask s n t1 b) := by
  unfold State.siteMask
  repeat' (first
    | with_reducible assumption
    | decide +kernel
    | with_reducible exact Kept.refl ..
    | with_reducible apply Kept.step (State.setNdl_kept _ _ _)
    | with_reducible apply Kept.step (State.maskPin_kept _ _ _ _ _)
    | with_reducible apply Kept.foldl
    | with_reducible refine fun (x : State) a hx => ?_
    | (extract_lets +onlyGivenNames x; refine cutK (m := km_siteMask) (s := s) (x := x) ?_ ?_; on_goal 1 => (try unfold x); on_goal 2 => (intro hx; clear_value x))
    | extract_lets +onlyGivenNames x
    | split
    | refine Kept.of_snd ‹_› ?_
    | dsimp +zetaDelta only [id_eq])

def km_rasterBlock : Nat := km_rasAttach ||| km_rasStop ||| km_setStatus

theorem State.rasterBlock_kept (s : State) (n : Nat) (e : Nat) (b : Block) : Kept km_rasterBlock s (State.rasterBlock s n e b) := by
  unfold State.rasterBlock
  repeat' (first
    | with_reducible assumption
    | decide +kernel
    | with_reducible exact Kept.refl ..
    | (with_reducible apply Kept.ite <;> intro _)
    | with_reducible apply Kept.step (State.rasAttach_kept _ _ _ _)
    | with_reducible apply Kept.step (State.rasStop_kept _ _ _)
    | with_reducible apply Kept.step (State.setStatus_kept _ _ _ _)
    | (extract_lets +onlyGivenNames x; refine cutK (m := km_rasterBlock) (s := s) (x := x) ?_ ?_; on_goal 1 => (try unfold x); on_goal 2 => (intro hx; clear_value x))
    | extract_lets +onlyGivenNames x
    | split
    | refine Kept.of_snd ‹_› ?_
    | dsimp +zetaDelta only [id_eq])

def km_act : Nat := km_levels ||| km_supplyBlock ||| km_taeChart ||| km_siteMask ||| km_signal ||| km_rasterBlock ||| km_setStatus

theorem State.act_kept (s : State) (n : Nat) (e : Nat) (t1 : Nat) (b : Block) : Kept km_act s (State.act s n e t1 b) := by
  unfold State.act
  repeat' (first
    | with_reducible assumption
    | decide +kernel
    | with_reducible exact Kept.refl ..
    | with_reducible apply Kept.step (State.levels_kept _ _ _ _)
    | with_reducible apply Kept.step (State.supplyBlock_kept _ _ _ _)
    | with_reducible apply Kept.step (State.taeChart_kept _ _ _)
    | with_reducible apply Kept.step (State.siteMask_kept _ _ _ _)
    | with_reducible apply Kept.step (State.signal_kept _ _ _ _)
    | with_reducible apply Kept.step (State.rasterBlock_kept _ _ _ _)
    | with_reducible apply Kept.step (State.setStatus_kept _ _ _ _)
    | (extract_lets +onlyGivenNames x; refine cutK (m := km_act) (s := s) (x := x) ?_ ?_; on_goal 1 => (try unfold x); on_goal 2 => (intro hx; clear_value x))
    | extract_lets +onlyGivenNames x
    | split
    | refine Kept.of_snd ‹_› ?_)

def km_actHeld : Nat := km_act ||| km_setNdl

theorem State.actHeld_kept (s : State) (n : Nat) (e : Nat) (t1 : Nat) : Kept km_actHeld s (State.actHeld s n e t1) := by
  unfold State.actHeld
  repeat' (first
    | with_reducible assumption
    | decide +kernel
    | with_reducible exact Kept.refl ..
    | with_reducible apply Kept.step (State.act_kept _ _ _ _ _)
    | with_reducible apply Kept.step (State.setNdl_kept _ _ _)
    | with_reducible apply Kept.foldl
    | with_reducible refine fun (x : State) a hx => ?_
    | (extract_lets +onlyGivenNames x; refine cutK (m := km_actHeld) (s := s) (x := x) ?_ ?_; on_goal 1 => (try unfold x); on_goal 2 => (intro hx; clear_value x))
    | extract_lets +onlyGivenNames x
    | split
    | refine Kept.of_snd ‹_› ?_
    | dsimp +zetaDelta only [id_eq])

def km_passJoin : Nat := ob Obj.strState ||| km_setNdl ||| km_popFront

theorem State.passJoin_kept (s : State) (n : Nat) (d : Dec) : Kept km_passJoin s (State.passJoin s n d) := by
  unfold State.passJoin
  repeat' (first
    | with_reducible assumption
    | decide +kernel
    | with_reducible exact Kept.refl ..
    | (with_reducible apply Kept.ite <;> intro _)
    | with_reducible apply Kept.step (State.wr_kept _ _ _ _)
    | with_reducible apply Kept.step (State.setNdl_kept _ _ _)
    | with_reducible apply Kept.step (State.popFront_kept _ _ _)
    | (extract_lets +onlyGivenNames x; refine cutK (m := km_passJoin) (s := s) (x := x) ?_ ?_; on_goal 1 => (try unfold x); on_goal 2 => (intro hx; clear_value x))
    | extract_lets +onlyGivenNames x
    | split
    | refine Kept.of_snd ‹_› ?_)

def km_leave : Nat := km_ndlTrace ||| km_setNdl

theorem State.leave_kept (s : State) (n : Nat) (d : Dec) (taken : Bool) : Kept km_leave s (State.leave s n d taken) := by
  unfold State.leave
  repeat' (first
    | with_reducible assumption
    | decide +kernel
    | with_reducible exact Kept.refl ..
    | (with_reducible apply Kept.ite <;> intro _)
    | with_reducible apply Kept.step (State.ndlTrace_kept _ _ _ _ _)
    | with_reducible apply Kept.step (State.setNdl_kept _ _ _)
    | (extract_lets +onlyGivenNames x; refine cutK (m := km_leave) (s := s) (x := x) ?_ ?_; on_goal 1 => (try unfold x); on_goal 2 => (intro hx; clear_value x))
    | extract_lets +onlyGivenNames x
    | split
    | refine Kept.of_snd ‹_› ?_)

def km_branch : Nat := km_setNdl ||| km_setStatus ||| km_leave

theorem State.branch_kept (s : State) (n : Nat) (t1 : Nat) (d : Dec) : KeptO km_branch s (State.branch s n t1 d) := by
  unfold State.branch
  repeat' (first
    | with_reducible assumption
    | decide +kernel
    | with_reducible exact Kept.refl ..
    | (with_reducible apply Kept.ite <;> intro _)
    | with_reducible apply KeptO.some
    | with_reducible exact KeptO.none
    | (with_reducible apply KeptO.ite <;> intro _)
    | with_reducible apply Kept.step (State.setNdl_kept _ _ _)
    | with_reducible apply Kept.step (State.setStatus_kept _ _ _ _)
    | with_reducible apply Kept.step (State.leave_kept _ _ _ _)
    | (extract_lets +onlyGivenNames x; refine cutK (m := km_branch) (s := s) (x := x) ?_ ?_; on_goal 1 => (try unfold x); on_goal 2 => (intro hx; clear_value x))
    | extract_lets +onlyGivenNames x
    | split
    | refine Kept.of_snd ‹_› ?_
    | dsimp +zetaDelta only [id_eq])

def km_underFrog : Nat := ob Obj.strUnderrun ||| km_raise ||| km_frogAt

theorem State.underFrog_kept (s : State) (n : Nat) (e : Nat) (expired : Bool) : Kept km_underFrog s (State.underFrog s n e expired) := by
  unfold State.underFrog
  repeat' (first
    | with_reducible assumption
    | decide +kernel
    | with_reducible exact Kept.refl ..
    | with_reducible apply Kept.step (State.setFld_kept _ _ _ _ _)
    | with_reducible apply Kept.step (State.count_kept _ _ _ _ _ _)
    | with_reducible apply Kept.step (State.raise_kept _ _ _ _ _ _ _ _)
    | with_reducible apply Kept.step (State.frogAt_kept _ _ _ _)
    | (extract_lets +onlyGivenNames x; refine cutK (m := km_underFrog) (s := s) (x := x) ?_ ?_; on_goal 1 => (try unfold x); on_goal 2 => (intro hx; clear_value x))
    | extract_lets +onlyGivenNames x
    | split
    | refine Kept.of_snd ‹_› ?_)

def km_stallStart : Nat := ob Obj.ndlState ||| ob Obj.strState ||| ob Obj.strUnderrun ||| km_latch ||| km_ndlTrace ||| km_setNdl

theorem State.stallStart_kept (s : State) (n : Nat) (e : Nat) : Kept km_stallStart s (State.stallStart s n e) := by
  unfold State.stallStart
  repeat' (first
    | with_reducible assumption
    | decide +kernel
    | with_reducible exact Kept.refl ..
    | with_reducible apply Kept.step (State.wr_kept _ _ _ _)
    | with_reducible apply Kept.step (State.setFld_kept _ _ _ _ _)
    | with_reducible apply Kept.step (State.count_kept _ _ _ _ _ _)
    | with_reducible apply Kept.step (State.latch_kept _ _)
    | with_reducible apply Kept.step (State.ndlTrace_kept _ _ _ _ _)
    | with_reducible apply Kept.step (State.setNdl_kept _ _ _)
    | (extract_lets +onlyGivenNames x; refine cutK (m := km_stallStart) (s := s) (x := x) ?_ ?_; on_goal 1 => (try unfold x); on_goal 2 => (intro hx; clear_value x))
    | extract_lets +onlyGivenNames x
    | split
    | refine Kept.of_snd ‹_› ?_)

def km_stallEnd : Nat := ob Obj.ndlState ||| ob Obj.strState ||| km_latch ||| km_setNdl

theorem State.stallEnd_kept (s : State) (n : Nat) : Kept km_stallEnd s (State.stallEnd s n) := by
  unfold State.stallEnd
  repeat' (first
    | with_reducible assumption
    | decide +kernel
    | with_reducible exact Kept.refl ..
    | with_reducible apply Kept.step (State.wr_kept _ _ _ _)
    | with_reducible apply Kept.step (State.latch_kept _ _)
    | with_reducible apply Kept.step (State.setNdl_kept _ _ _)
    | (extract_lets +onlyGivenNames x; refine cutK (m := km_stallEnd) (s := s) (x := x) ?_ ?_; on_goal 1 => (try unfold x); on_goal 2 => (intro hx; clear_value x))
    | extract_lets +onlyGivenNames x
    | split
    | refine Kept.of_snd ‹_› ?_)

def km_underRun : Nat := km_stallStart ||| km_underFrog ||| km_idleStitch

theorem State.underRun_kept (s : State) (n : Nat) (e : Nat) (t1 : Nat) (p : Nat) : Kept km_underRun s (State.underRun s n e t1 p) := by
  unfold State.underRun
  repeat' (first
    | with_reducible assumption
    | decide +kernel
    | with_reducible exact Kept.refl ..
    | (with_reducible apply Kept.ite <;> intro _)
    | with_reducible apply Kept.step (State.stallStart_kept _ _ _)
    | with_reducible apply Kept.step (State.underFrog_kept _ _ _ _)
    | with_reducible apply Kept.step (State.idleStitch_kept _ _ _ _)
    | (extract_lets +onlyGivenNames x; refine cutK (m := km_underRun) (s := s) (x := x) ?_ ?_; on_goal 1 => (try unfold x); on_goal 2 => (intro hx; clear_value x))
    | extract_lets +onlyGivenNames x
    | split
    | refine Kept.of_snd ‹_› ?_
    | dsimp +zetaDelta only [id_eq])

def km_takeJump : Nat := ob Obj.ndlJumpStatus ||| km_setStatus ||| km_latch ||| km_ndlTrace ||| km_setNdl

theorem State.takeJump_kept (s : State) (n : Nat) (entry : Nat) (deferred : Bool) (op : Nat) : Kept km_takeJump s (State.takeJump s n entry deferred op) := by
  unfold State.takeJump
  repeat' (first
    | with_reducible assumption
    | decide +kernel
    | with_reducible exact Kept.refl ..
    | with_reducible apply Kept.step (State.wr_kept _ _ _ _)
    | with_reducible apply Kept.step (State.setStatus_kept _ _ _ _)
    | with_reducible apply Kept.step (State.latch_kept _ _)
    | with_reducible apply Kept.step (State.ndlTrace_kept _ _ _ _ _)
    | with_reducible apply Kept.step (State.setNdl_kept _ _ _)
    | (extract_lets +onlyGivenNames x; refine cutK (m := km_takeJump) (s := s) (x := x) ?_ ?_; on_goal 1 => (try unfold x); on_goal 2 => (intro hx; clear_value x))
    | extract_lets +onlyGivenNames x
    | split
    | refine Kept.of_snd ‹_› ?_
    | dsimp +zetaDelta only [id_eq])

def km_slotStitch : Nat := km_takeJump ||| km_setNdl ||| km_loadStitch ||| km_waveRead ||| km_actHeld ||| km_act ||| km_issueStitch

theorem State.slotStitch_kept (s : State) (n : Nat) (e : Nat) (t1 : Nat) (p : Nat) (d : Dec) : Kept km_slotStitch s (State.slotStitch s n e t1 p d) := by
  unfold State.slotStitch
  repeat' (first
    | with_reducible assumption
    | decide +kernel
    | with_reducible exact Kept.refl ..
    | (with_reducible apply Kept.ite <;> intro _)
    | with_reducible apply Kept.step (State.takeJump_kept _ _ _ _ _)
    | with_reducible apply Kept.step (State.setNdl_kept _ _ _)
    | with_reducible apply Kept.step (State.loadStitch_kept _ _ _)
    | with_reducible apply Kept.step (State.waveRead_kept _ _ _)
    | with_reducible apply Kept.step (State.actHeld_kept _ _ _ _)
    | with_reducible apply Kept.step (State.act_kept _ _ _ _ _)
    | with_reducible apply Kept.step (State.issueStitch_kept _ _ _ _ _ _)
    | (extract_lets +onlyGivenNames x; refine cutK (m := km_slotStitch) (s := s) (x := x) ?_ ?_; on_goal 1 => (try unfold x); on_goal 2 => (intro hx; clear_value x))
    | (extract_lets +onlyGivenNames x; refine cutK (m := km_slotStitch) (s := s) (x := x.2) ?_ ?_; on_goal 1 => (try unfold x); on_goal 2 => (intro hx; clear_value x))
    | extract_lets +onlyGivenNames x
    | split
    | refine Kept.of_snd ‹_› ?_
    | dsimp +zetaDelta only [id_eq])

def km_slotStall : Nat := km_stallEnd ||| km_idleStitch

theorem State.slotStall_kept (s : State) (n : Nat) (e : Nat) (t1 : Nat) (p : Nat) : KeptO km_slotStall s (State.slotStall s n e t1 p) := by
  unfold State.slotStall
  repeat' (first
    | with_reducible assumption
    | decide +kernel
    | with_reducible exact Kept.refl ..
    | (with_reducible apply Kept.ite <;> intro _)
    | with_reducible apply KeptO.some
    | with_reducible exact KeptO.none
    | (with_reducible apply KeptO.ite <;> intro _)
    | with_reducible apply Kept.step (State.stallEnd_kept _ _)
    | with_reducible apply Kept.step (State.idleStitch_kept _ _ _ _)
    | (extract_lets +onlyGivenNames x; refine cutK (m := km_slotStall) (s := s) (x := x) ?_ ?_; on_goal 1 => (try unfold x); on_goal 2 => (intro hx; clear_value x))
    | extract_lets +onlyGivenNames x
    | split
    | refine Kept.of_snd ‹_› ?_
    | dsimp +zetaDelta only [id_eq])

def km_slotStep : Nat := km_breakAt ||| km_slotStall ||| km_underRun ||| km_setTset ||| km_holdFront ||| km_passJoin ||| km_branch ||| km_leave ||| km_slotStitch ||| km_setNdl

theorem State.slotStep_kept (s : State) (n : Nat) (e : Nat) (t1 : Nat) (p : Nat) : KeptO km_slotStep s (State.slotStep s n e t1 p) := by
  unfold State.slotStep
  repeat' (first
    | with_reducible assumption
    | decide +kernel
    | with_reducible exact Kept.refl ..
    | (with_reducible apply Kept.ite <;> intro _)
    | with_reducible apply KeptO.some
    | with_reducible exact KeptO.none
    | (with_reducible apply KeptO.ite <;> intro _)
    | with_reducible apply Kept.step (State.breakAt_kept _ _ _ _)
    | with_reducible apply KeptO.step (State.slotStall_kept _ _ _ _ _)
    | with_reducible apply Kept.step (State.underRun_kept _ _ _ _ _)
    | with_reducible apply Kept.step (State.setTset_kept _ _ _)
    | with_reducible apply Kept.step (State.holdFront_kept _ _ _)
    | with_reducible apply Kept.step (State.passJoin_kept _ _ _)
    | with_reducible apply KeptO.step (State.branch_kept _ _ _ _)
    | with_reducible apply Kept.step (State.leave_kept _ _ _ _)
    | with_reducible apply Kept.step (State.slotStitch_kept _ _ _ _ _ _)
    | with_reducible apply Kept.step (State.setNdl_kept _ _ _)
    | (extract_lets +onlyGivenNames x; refine cutK (m := km_slotStep) (s := s) (x := x) ?_ ?_; on_goal 1 => (try unfold x); on_goal 2 => (intro hx; clear_value x))
    | extract_lets +onlyGivenNames x
    | split
    | refine Kept.of_snd ‹_› ?_
    | dsimp +zetaDelta only [id_eq])

def km_issueAll : Nat := km_slotStep

theorem State.issueAll_kept (k n e : Nat) (s : State) : Kept km_issueAll s (State.issueAll k n e s) := by
  induction k generalizing s with
  | zero =>
    unfold State.issueAll
    repeat' (first
      | with_reducible assumption
      | decide +kernel
      | with_reducible exact Kept.refl ..
      | with_reducible apply Kept.step (ih _)
      | (with_reducible apply Kept.ite <;> intro _)
      | with_reducible apply KeptO.use ‹_› (State.slotStep_kept _ _ _ _ _)
      | (extract_lets +onlyGivenNames x; refine cutK (m := km_issueAll) (s := s) (x := x) ?_ ?_; on_goal 1 => (try unfold x); on_goal 2 => (intro hx; clear_value x))
      | extract_lets +onlyGivenNames x
      | split
      | refine Kept.of_snd ‹_› ?_)
  | succ k ih =>
    unfold State.issueAll
    repeat' (first
      | with_reducible assumption
      | decide +kernel
      | with_reducible exact Kept.refl ..
      | with_reducible apply Kept.step (ih _)
      | (with_reducible apply Kept.ite <;> intro _)
      | with_reducible apply KeptO.use ‹_› (State.slotStep_kept _ _ _ _ _)
      | (extract_lets +onlyGivenNames x; refine cutK (m := km_issueAll) (s := s) (x := x) ?_ ?_; on_goal 1 => (try unfold x); on_goal 2 => (intro hx; clear_value x))
      | extract_lets +onlyGivenNames x
      | split
      | refine Kept.of_snd ‹_› ?_)

def km_seamBegin : Nat := km_reach ||| km_flushEdges ||| km_setStatus ||| km_ndlCount ||| km_ndlTrace ||| km_applyGauges ||| km_applySwitches ||| km_setNdl ||| km_runRoutine

theorem State.seamBegin_kept (s : State) (n : Nat) (t : Nat) (bind : Bool) (op : Nat) (course : Nat) : Kept km_seamBegin s (State.seamBegin s n t bind op course) := by
  unfold State.seamBegin
  repeat' (first
    | with_reducible assumption
    | decide +kernel
    | with_reducible exact Kept.refl ..
    | (with_reducible apply Kept.ite <;> intro _)
    | with_reducible apply Kept.step (State.reach_kept _ _)
    | with_reducible apply Kept.step (State.flushEdges_kept _ _)
    | with_reducible apply Kept.step (State.setStatus_kept _ _ _ _)
    | with_reducible apply Kept.step (State.ndlCount_kept _ _ _)
    | with_reducible apply Kept.step (State.ndlTrace_kept _ _ _ _ _)
    | with_reducible apply Kept.step (State.applyGauges_kept _ _ _)
    | with_reducible apply Kept.step (State.applySwitches_kept _ _ _)
    | with_reducible apply Kept.step (State.setNdl_kept _ _ _)
    | with_reducible apply Kept.step (State.runRoutine_kept _ _ _)
    | (extract_lets +onlyGivenNames x; refine cutK (m := km_seamBegin) (s := s) (x := x) ?_ ?_; on_goal 1 => (try unfold x); on_goal 2 => (intro hx; clear_value x))
    | extract_lets +onlyGivenNames x
    | split
    | refine Kept.of_snd ‹_› ?_)

def km_reachSeam : Nat := km_popFront ||| km_noteBlock ||| km_setTset ||| km_passJoin ||| km_holdFront

theorem State.reachSeam_kept (k n : Nat) (s : State) : Kept km_reachSeam s (State.reachSeam k n s).2 := by
  induction k generalizing s with
  | zero => exact Kept.refl ..
  | succ k ih =>
    unfold State.reachSeam
    split
    · exact Kept.refl ..
    · split
      · exact Kept.step (State.noteBlock_kept _ _ _) (by decide +kernel) (Kept.step (State.popFront_kept _ _ _) (by decide +kernel) (Kept.refl ..))
      · split
        · exact Kept.trans (Kept.step (State.setTset_kept _ _ _) (by decide +kernel) (Kept.refl ..)) (ih _)
        · split
          · exact Kept.trans (Kept.step (State.passJoin_kept _ _ _) (by decide +kernel) (Kept.refl ..)) (ih _)
          · exact Kept.trans (Kept.step (State.holdFront_kept _ _ _) (by decide +kernel) (Kept.refl ..)) (ih _)


def km_bindBegin : Nat := ob Obj.ndlState ||| km_seamBegin

theorem State.bindBegin_kept (s : State) (n : Nat) : Kept km_bindBegin s (State.bindBegin s n) := by
  unfold State.bindBegin
  repeat' (first
    | with_reducible assumption
    | decide +kernel
    | with_reducible exact Kept.refl ..
    | with_reducible apply Kept.step (State.wr_kept _ _ _ _)
    | with_reducible apply Kept.step (State.seamBegin_kept _ _ _ _ _ _)
    | (extract_lets +onlyGivenNames x; refine cutK (m := km_bindBegin) (s := s) (x := x) ?_ ?_; on_goal 1 => (try unfold x); on_goal 2 => (intro hx; clear_value x))
    | extract_lets +onlyGivenNames x
    | split
    | refine Kept.of_snd ‹_› ?_)

def km_alsoUnder : Nat := km_underFrog

theorem State.alsoUnder_kept (s : State) (before : State) (n : Nat) (c : Nat) : Kept km_alsoUnder s (State.alsoUnder s before n c) := by
  unfold State.alsoUnder
  repeat' (first
    | with_reducible assumption
    | decide +kernel
    | with_reducible exact Kept.refl ..
    | (with_reducible apply Kept.ite <;> intro _)
    | with_reducible apply Kept.step (State.underFrog_kept _ _ _ _)
    | (extract_lets +onlyGivenNames x; refine cutK (m := km_alsoUnder) (s := s) (x := x) ?_ ?_; on_goal 1 => (try unfold x); on_goal 2 => (intro hx; clear_value x))
    | extract_lets +onlyGivenNames x
    | split
    | refine Kept.of_snd ‹_› ?_)

def km_runFrogCommit : Nat := pt.staged ||| km_reach ||| km_frogAt ||| km_alsoUnder

theorem runFrogCommit_kept (needle : Nat) (s : State) : KeptR km_runFrogCommit s (runFrogCommit needle s) := by
  unfold runFrogCommit
  repeat' (first
    | with_reducible assumption
    | decide +kernel
    | with_reducible exact Kept.refl ..
    | (with_reducible apply KeptR.ite <;> intro _)
    | (with_reducible apply Kept.ite <;> intro _)
    | with_reducible refine KeptR.next ?_
    | with_reducible exact KeptR.fault
    | with_reducible apply Kept.step (State.reach_kept _ _)
    | with_reducible apply Kept.step (State.frogAt_kept _ _ _ _)
    | with_reducible apply Kept.step (State.alsoUnder_kept _ _ _ _)
    | with_reducible apply Kept.foldl
    | with_reducible refine fun (x : State) a hx => ?_
    | (extract_lets +onlyGivenNames x; refine cutK (m := km_runFrogCommit) (s := s) (x := x) ?_ ?_; on_goal 1 => (try unfold x); on_goal 2 => (intro hx; clear_value x))
    | extract_lets +onlyGivenNames x
    | split
    | refine Kept.of_snd ‹_› ?_
    | dsimp +zetaDelta only [id_eq]
    | with_reducible apply Kept.set_staged)

def km_runFailFlag : Nat := km_reach ||| km_flagGroup ||| km_alsoUnder

theorem runFailFlag_kept (needle : Nat) (s : State) : KeptR km_runFailFlag s (runFailFlag needle s) := by
  unfold runFailFlag
  repeat' (first
    | with_reducible assumption
    | decide +kernel
    | with_reducible exact Kept.refl ..
    | with_reducible refine KeptR.next ?_
    | with_reducible exact KeptR.fault
    | with_reducible apply Kept.step (State.reach_kept _ _)
    | with_reducible apply Kept.step (State.flagGroup_kept _ _ _)
    | with_reducible apply Kept.step (State.alsoUnder_kept _ _ _ _)
    | with_reducible apply Kept.foldl
    | with_reducible refine fun (x : State) a hx => ?_
    | (extract_lets +onlyGivenNames x; refine cutK (m := km_runFailFlag) (s := s) (x := x) ?_ ?_; on_goal 1 => (try unfold x); on_goal 2 => (intro hx; clear_value x))
    | extract_lets +onlyGivenNames x
    | split
    | refine Kept.of_snd ‹_› ?_
    | dsimp +zetaDelta only [id_eq])

def km_runStitchIssue : Nat := km_bindBegin ||| km_deliverFlags ||| km_alsoUnder ||| km_reachSeam ||| km_seamBegin ||| km_reach ||| km_issueAll

theorem runStitchIssue_kept (needle : Nat) (s : State) : KeptR km_runStitchIssue s (runStitchIssue needle s) := by
  unfold runStitchIssue
  repeat' (first
    | with_reducible assumption
    | decide +kernel
    | with_reducible exact Kept.refl ..
    | (with_reducible apply KeptR.ite <;> intro _)
    | (with_reducible apply Kept.ite <;> intro _)
    | with_reducible refine KeptR.next ?_
    | with_reducible exact KeptR.fault
    | with_reducible apply Kept.step (State.bindBegin_kept _ _)
    | with_reducible apply Kept.step (State.deliverFlags_kept _ _ _ _)
    | with_reducible apply Kept.step (State.alsoUnder_kept _ _ _ _)
    | with_reducible apply Kept.step (State.reachSeam_kept _ _ _)
    | with_reducible apply Kept.step (State.seamBegin_kept _ _ _ _ _ _)
    | with_reducible apply Kept.step (State.reach_kept _ _)
    | with_reducible apply Kept.step (State.issueAll_kept _ _ _ _)
    | (extract_lets +onlyGivenNames x; refine cutK (m := km_runStitchIssue) (s := s) (x := x) ?_ ?_; on_goal 1 => (try unfold x); on_goal 2 => (intro hx; clear_value x))
    | (extract_lets +onlyGivenNames x; refine cutK (m := km_runStitchIssue) (s := s) (x := x.2) ?_ ?_; on_goal 1 => (try unfold x); on_goal 2 => (intro hx; clear_value x))
    | extract_lets +onlyGivenNames x
    | split
    | refine Kept.of_snd ‹_› ?_
    | dsimp +zetaDelta only [id_eq])

def km_runSeamEnd : Nat := km_bindBegin ||| km_reach ||| km_doneAt ||| km_setNdl ||| km_setStatus ||| km_ageFrom

theorem runSeamEnd_kept (needle : Nat) (s : State) : KeptR km_runSeamEnd s (runSeamEnd needle s) := by
  unfold runSeamEnd
  repeat' (first
    | with_reducible assumption
    | decide +kernel
    | with_reducible exact Kept.refl ..
    | (with_reducible apply KeptR.ite <;> intro _)
    | (with_reducible apply Kept.ite <;> intro _)
    | with_reducible refine KeptR.next ?_
    | with_reducible exact KeptR.fault
    | with_reducible apply Kept.step (State.bindBegin_kept _ _)
    | with_reducible apply Kept.step (State.reach_kept _ _)
    | with_reducible apply Kept.step (State.doneAt_kept _ _ _)
    | with_reducible apply Kept.step (State.setNdl_kept _ _ _)
    | with_reducible apply Kept.step (State.setStatus_kept _ _ _ _)
    | with_reducible apply Kept.step (State.ageFrom_kept _ _ _)
    | (extract_lets +onlyGivenNames x; refine cutK (m := km_runSeamEnd) (s := s) (x := x) ?_ ?_; on_goal 1 => (try unfold x); on_goal 2 => (intro hx; clear_value x))
    | extract_lets +onlyGivenNames x
    | split
    | refine Kept.of_snd ‹_› ?_)

def km_execNeedleFreeze : Nat := km_reach ||| km_holdAll ||| km_breakAt ||| km_freezeAt

theorem execNeedleFreeze_kept (needle : Nat) (s : State) : KeptR km_execNeedleFreeze s (execNeedleFreeze needle s) := by
  unfold execNeedleFreeze
  repeat' (first
    | with_reducible assumption
    | decide +kernel
    | with_reducible exact Kept.refl ..
    | (with_reducible apply KeptR.ite <;> intro _)
    | (with_reducible apply Kept.ite <;> intro _)
    | with_reducible refine KeptR.next ?_
    | with_reducible exact KeptR.fault
    | with_reducible apply Kept.step (State.reach_kept _ _)
    | with_reducible apply Kept.step (State.holdAll_kept _ _ _)
    | with_reducible apply Kept.step (State.breakAt_kept _ _ _ _)
    | with_reducible apply Kept.step (State.freezeAt_kept _ _ _)
    | (extract_lets +onlyGivenNames x; refine cutK (m := km_execNeedleFreeze) (s := s) (x := x) ?_ ?_; on_goal 1 => (try unfold x); on_goal 2 => (intro hx; clear_value x))
    | extract_lets +onlyGivenNames x
    | split
    | refine Kept.of_snd ‹_› ?_)

def km_runStallExpiry : Nat := km_reach ||| km_underFrog

theorem runStallExpiry_kept (needle : Nat) (s : State) : KeptR km_runStallExpiry s (runStallExpiry needle s) := by
  unfold runStallExpiry
  repeat' (first
    | with_reducible assumption
    | decide +kernel
    | with_reducible exact Kept.refl ..
    | (with_reducible apply KeptR.ite <;> intro _)
    | (with_reducible apply Kept.ite <;> intro _)
    | with_reducible refine KeptR.next ?_
    | with_reducible exact KeptR.fault
    | with_reducible apply Kept.step (State.reach_kept _ _)
    | with_reducible apply Kept.step (State.underFrog_kept _ _ _ _)
    | (extract_lets +onlyGivenNames x; refine cutK (m := km_runStallExpiry) (s := s) (x := x) ?_ ?_; on_goal 1 => (try unfold x); on_goal 2 => (intro hx; clear_value x))
    | extract_lets +onlyGivenNames x
    | split
    | refine Kept.of_snd ‹_› ?_)

def km_resumeNeedle : Nat := ob Obj.ndlState ||| km_setNdl ||| km_setStatus ||| km_rasFreeze ||| km_stallEnd ||| km_runRoutine

theorem State.resumeNeedle_kept (s : State) (n : Nat) (a : Nat) : Kept km_resumeNeedle s (State.resumeNeedle s n a) := by
  unfold State.resumeNeedle
  repeat' (first
    | with_reducible assumption
    | decide +kernel
    | with_reducible exact Kept.refl ..
    | (with_reducible apply Kept.ite <;> intro _)
    | with_reducible apply Kept.step (State.wr_kept _ _ _ _)
    | with_reducible apply Kept.step (State.setNdl_kept _ _ _)
    | with_reducible apply Kept.step (State.setStatus_kept _ _ _ _)
    | with_reducible apply Kept.step (State.rasFreeze_kept _ _ _)
    | with_reducible apply Kept.step (State.stallEnd_kept _ _)
    | with_reducible apply Kept.step (State.runRoutine_kept _ _ _)
    | (extract_lets +onlyGivenNames x; refine cutK (m := km_resumeNeedle) (s := s) (x := x) ?_ ?_; on_goal 1 => (try unfold x); on_goal 2 => (intro hx; clear_value x))
    | extract_lets +onlyGivenNames x
    | split
    | refine Kept.of_snd ‹_› ?_)

def km_resumeAll : Nat := pt.trans ||| km_resumeNeedle ||| km_reach ||| km_enter ||| km_taeResume

theorem State.resumeAll_kept (s : State) : Kept km_resumeAll s (State.resumeAll s) := by
  unfold State.resumeAll
  repeat' (first
    | with_reducible assumption
    | decide +kernel
    | with_reducible exact Kept.refl ..
    | (with_reducible apply Kept.ite <;> intro _)
    | with_reducible apply Kept.step (State.resumeNeedle_kept _ _ _)
    | with_reducible apply Kept.step (State.reach_kept _ _)
    | with_reducible apply Kept.step (State.enter_kept _ _ _ _)
    | with_reducible apply Kept.step (State.taeResume_kept _ _)
    | with_reducible apply Kept.foldl
    | with_reducible refine fun (x : State) a hx => ?_
    | (extract_lets +onlyGivenNames x; refine cutK (m := km_resumeAll) (s := s) (x := x) ?_ ?_; on_goal 1 => (try unfold x); on_goal 2 => (intro hx; clear_value x))
    | extract_lets +onlyGivenNames x
    | split
    | refine Kept.of_snd ‹_› ?_
    | with_reducible apply Kept.set_trans)

def km_execResume : Nat := km_resumeAll

theorem execResume_kept (s : State) : KeptR km_execResume s (execResume s) := by
  unfold execResume
  repeat' (first
    | with_reducible assumption
    | decide +kernel
    | with_reducible exact Kept.refl ..
    | with_reducible refine KeptR.next ?_
    | with_reducible exact KeptR.fault
    | with_reducible apply Kept.step (State.resumeAll_kept _)
    | (extract_lets +onlyGivenNames x; refine cutK (m := km_execResume) (s := s) (x := x) ?_ ?_; on_goal 1 => (try unfold x); on_goal 2 => (intro hx; clear_value x))
    | extract_lets +onlyGivenNames x
    | split
    | refine Kept.of_snd ‹_› ?_)

end Sys2Proof.Machine
end

