-- ==== Sys2Proof/Laws/KeptPorts.lean ====
section
/-! SUPPORT. For every operation of Machine/Ports.lean the parts of the state that it may change. -/
set_option linter.unusedTactic false
set_option linter.unreachableTactic false
set_option linter.unusedVariables false
set_option linter.tactic.unusedName false
set_option Elab.async false
namespace Sys2Proof.Machine

def km_ether : Nat := km_emit ||| km_hlkCount

theorem State.ether_kept (s : State) (port : Nat) (sub : Nat) (kind : Nat) (dst : Nat) (src : Nat) : Kept km_ether s (State.ether s port sub kind dst src) := by
  unfold State.ether
  repeat' (first
    | with_reducible assumption
    | decide +kernel
    | with_reducible exact Kept.refl ..
    | with_reducible apply Kept.step (State.emit_kept _ _)
    | with_reducible apply Kept.step (State.hlkCount_kept _ _ _ _)
    | (extract_lets +onlyGivenNames x; refine cutK (m := km_ether) (s := s) (x := x) ?_ ?_; on_goal 1 => (try unfold x); on_goal 2 => (intro hx; clear_value x))
    | extract_lets +onlyGivenNames x
    | split
    | refine Kept.of_snd ‹_› ?_)

def km_memberReports : Nat := km_ether

theorem State.memberReports_kept (s : State) (port : Nat) (sub : Nat) (v6 : Option Bool) (group : Nat) : Kept km_memberReports s (State.memberReports s port sub v6 group) := by
  unfold State.memberReports
  repeat' (first
    | with_reducible assumption
    | decide +kernel
    | with_reducible exact Kept.refl ..
    | (with_reducible apply Kept.ite <;> intro _)
    | with_reducible apply Kept.step (State.ether_kept _ _ _ _ _ _)
    | with_reducible apply Kept.foldl
    | with_reducible refine fun (x : State) a hx => ?_
    | (extract_lets +onlyGivenNames x; refine cutK (m := km_memberReports) (s := s) (x := x) ?_ ?_; on_goal 1 => (try unfold x); on_goal 2 => (intro hx; clear_value x))
    | extract_lets +onlyGivenNames x
    | split
    | refine Kept.of_snd ‹_› ?_
    | dsimp +zetaDelta only [id_eq])

def km_setRx : Nat := pt.hlk

theorem State.setRx_kept (s : State) (port : Nat) (cls : Nat) (l : List Nat) : Kept km_setRx s (State.setRx s port cls l) := by
  unfold State.setRx
  repeat' (first
    | with_reducible assumption
    | decide +kernel
    | with_reducible exact Kept.refl ..
    | (extract_lets +onlyGivenNames x; refine cutK (m := km_setRx) (s := s) (x := x) ?_ ?_; on_goal 1 => (try unfold x); on_goal 2 => (intro hx; clear_value x))
    | extract_lets +onlyGivenNames x
    | split
    | refine Kept.of_snd ‹_› ?_
    | dsimp +zetaDelta only [id_eq]
    | with_reducible apply Kept.set_hlk)

def km_setPfc : Nat := pt.hlk

theorem State.setPfc_kept (s : State) (port : Nat) (t : Option Nat) : Kept km_setPfc s (State.setPfc s port t) := by
  unfold State.setPfc
  repeat' (first
    | with_reducible assumption
    | decide +kernel
    | with_reducible exact Kept.refl ..
    | (extract_lets +onlyGivenNames x; refine cutK (m := km_setPfc) (s := s) (x := x) ?_ ?_; on_goal 1 => (try unfold x); on_goal 2 => (intro hx; clear_value x))
    | extract_lets +onlyGivenNames x
    | split
    | refine Kept.of_snd ‹_› ?_
    | dsimp +zetaDelta only [id_eq]
    | with_reducible apply Kept.set_hlk)

def km_sendPfc : Nat := km_emit ||| km_hlkCount

theorem State.sendPfc_kept (s : State) (port : Nat) (quanta : Nat) : Kept km_sendPfc s (State.sendPfc s port quanta) := by
  unfold State.sendPfc
  repeat' (first
    | with_reducible assumption
    | decide +kernel
    | with_reducible exact Kept.refl ..
    | (with_reducible apply Kept.ite <;> intro _)
    | with_reducible apply Kept.step (State.emit_kept _ _)
    | with_reducible apply Kept.step (State.hlkCount_kept _ _ _ _)
    | with_reducible apply Kept.foldl
    | with_reducible refine fun (x : State) a hx => ?_
    | (extract_lets +onlyGivenNames x; refine cutK (m := km_sendPfc) (s := s) (x := x) ?_ ?_; on_goal 1 => (try unfold x); on_goal 2 => (intro hx; clear_value x))
    | extract_lets +onlyGivenNames x
    | split
    | refine Kept.of_snd ‹_› ?_
    | dsimp +zetaDelta only [id_eq])

def km_pfcCheck : Nat := km_sendPfc ||| km_setPfc

theorem State.pfcCheck_kept (s : State) (port : Nat) : Kept km_pfcCheck s (State.pfcCheck s port) := by
  unfold State.pfcCheck
  repeat' (first
    | with_reducible assumption
    | decide +kernel
    | with_reducible exact Kept.refl ..
    | (with_reducible apply Kept.ite <;> intro _)
    | with_reducible apply Kept.step (State.sendPfc_kept _ _ _)
    | with_reducible apply Kept.step (State.setPfc_kept _ _ _)
    | with_reducible apply Kept.foldl
    | with_reducible refine fun (x : State) a hx => ?_
    | (extract_lets +onlyGivenNames x; refine cutK (m := km_pfcCheck) (s := s) (x := x) ?_ ?_; on_goal 1 => (try unfold x); on_goal 2 => (intro hx; clear_value x))
    | extract_lets +onlyGivenNames x
    | split
    | refine Kept.of_snd ‹_› ?_)

def km_rxQueue : Nat := pt.hlk ||| km_hlkCount ||| km_latch ||| km_setRx ||| km_pfcCheck

theorem State.rxQueue_kept (s : State) (port : Nat) (sub : Nat) (cls : Nat) (len : Nat) : Kept km_rxQueue s (State.rxQueue s port sub cls len) := by
  unfold State.rxQueue
  repeat' (first
    | with_reducible assumption
    | decide +kernel
    | with_reducible exact Kept.refl ..
    | (with_reducible apply Kept.ite <;> intro _)
    | with_reducible apply Kept.step (State.hlkCount_kept _ _ _ _)
    | with_reducible apply Kept.step (State.latch_kept _ _)
    | with_reducible apply Kept.step (State.setRx_kept _ _ _ _)
    | with_reducible apply Kept.step (State.pfcCheck_kept _ _)
    | with_reducible apply Kept.foldl
    | with_reducible refine fun (x : State) a hx => ?_
    | (extract_lets +onlyGivenNames x; refine cutK (m := km_rxQueue) (s := s) (x := x) ?_ ?_; on_goal 1 => (try unfold x); on_goal 2 => (intro hx; clear_value x))
    | extract_lets +onlyGivenNames x
    | split
    | refine Kept.of_snd ‹_› ?_
    | dsimp +zetaDelta only [id_eq]
    | with_reducible apply Kept.set_hlk)

def km_rxTake : Nat := km_setRx ||| km_pfcCheck

theorem State.rxTake_kept (s : State) (port : Nat) (cls : Nat) : Kept km_rxTake s (State.rxTake s port cls) := by
  unfold State.rxTake
  repeat' (first
    | with_reducible assumption
    | decide +kernel
    | with_reducible exact Kept.refl ..
    | with_reducible apply Kept.step (State.setRx_kept _ _ _ _)
    | with_reducible apply Kept.step (State.pfcCheck_kept _ _)
    | (extract_lets +onlyGivenNames x; refine cutK (m := km_rxTake) (s := s) (x := x) ?_ ?_; on_goal 1 => (try unfold x); on_goal 2 => (intro hx; clear_value x))
    | extract_lets +onlyGivenNames x
    | split
    | refine Kept.of_snd ‹_› ?_)

def km_execFrameReceive : Nat := km_hlkCount ||| km_rxQueue

theorem execFrameReceive_kept (port : Nat) (sub : Nat) (etherType : Nat) (vid : Nat) (pcp : Nat) (len : Nat) (fcsOk : Bool) (cls : Nat) (s : State) : KeptR km_execFrameReceive s (execFrameReceive port sub etherType vid pcp len fcsOk cls s) := by
  unfold execFrameReceive
  repeat' (first
    | with_reducible assumption
    | decide +kernel
    | with_reducible exact Kept.refl ..
    | (with_reducible apply KeptR.ite <;> intro _)
    | (with_reducible apply Kept.ite <;> intro _)
    | with_reducible refine KeptR.next ?_
    | with_reducible exact KeptR.fault
    | with_reducible apply Kept.step (State.hlkCount_kept _ _ _ _)
    | with_reducible apply Kept.step (State.rxQueue_kept _ _ _ _ _)
    | (extract_lets +onlyGivenNames x; refine cutK (m := km_execFrameReceive) (s := s) (x := x) ?_ ?_; on_goal 1 => (try unfold x); on_goal 2 => (intro hx; clear_value x))
    | extract_lets +onlyGivenNames x
    | split
    | refine Kept.of_snd ‹_› ?_
    | dsimp +zetaDelta only [id_eq])

def km_arpLearn : Nat := pt.hlk

theorem State.arpLearn_kept (s : State) (port : Nat) (sub : Nat) (ip : Nat) (mac : Nat) : Kept km_arpLearn s (State.arpLearn s port sub ip mac) := by
  unfold State.arpLearn
  repeat' (first
    | with_reducible assumption
    | decide +kernel
    | with_reducible exact Kept.refl ..
    | (extract_lets +onlyGivenNames x; refine cutK (m := km_arpLearn) (s := s) (x := x) ?_ ?_; on_goal 1 => (try unfold x); on_goal 2 => (intro hx; clear_value x))
    | extract_lets +onlyGivenNames x
    | split
    | refine Kept.of_snd ‹_› ?_
    | dsimp +zetaDelta only [id_eq]
    | with_reducible apply Kept.set_hlk)

def km_execArpRequest : Nat := km_arpLearn ||| km_ether

theorem execArpRequest_kept (port : Nat) (sub : Nat) (senderIp : Nat) (senderMac : Nat) (targetIp : Nat) (s : State) : KeptR km_execArpRequest s (execArpRequest port sub senderIp senderMac targetIp s) := by
  unfold execArpRequest
  repeat' (first
    | with_reducible assumption
    | decide +kernel
    | with_reducible exact Kept.refl ..
    | (with_reducible apply KeptR.ite <;> intro _)
    | (with_reducible apply Kept.ite <;> intro _)
    | with_reducible refine KeptR.next ?_
    | with_reducible exact KeptR.fault
    | with_reducible apply Kept.step (State.arpLearn_kept _ _ _ _ _)
    | with_reducible apply Kept.step (State.ether_kept _ _ _ _ _ _)
    | (extract_lets +onlyGivenNames x; refine cutK (m := km_execArpRequest) (s := s) (x := x) ?_ ?_; on_goal 1 => (try unfold x); on_goal 2 => (intro hx; clear_value x))
    | extract_lets +onlyGivenNames x
    | split
    | refine Kept.of_snd ‹_› ?_)

def km_execArpEntryExpiry : Nat := pt.hlk ||| km_reach

theorem execArpEntryExpiry_kept (port : Nat) (sub : Nat) (ip : Nat) (s : State) : KeptR km_execArpEntryExpiry s (execArpEntryExpiry port sub ip s) := by
  unfold execArpEntryExpiry
  repeat' (first
    | with_reducible assumption
    | decide +kernel
    | with_reducible exact Kept.refl ..
    | with_reducible refine KeptR.next ?_
    | with_reducible exact KeptR.fault
    | with_reducible apply Kept.step (State.reach_kept _ _)
    | (extract_lets +onlyGivenNames x; refine cutK (m := km_execArpEntryExpiry) (s := s) (x := x) ?_ ?_; on_goal 1 => (try unfold x); on_goal 2 => (intro hx; clear_value x))
    | extract_lets +onlyGivenNames x
    | split
    | refine Kept.of_snd ‹_› ?_
    | dsimp +zetaDelta only [id_eq]
    | with_reducible apply Kept.set_hlk)

def km_execEchoRequest : Nat := pt.hlk ||| km_ether

theorem execEchoRequest_kept (port : Nat) (sub : Nat) (v6 : Bool) (src : Nat) (dst : Nat) (len : Nat) (s : State) : KeptR km_execEchoRequest s (execEchoRequest port sub v6 src dst len s) := by
  unfold execEchoRequest
  repeat' (first
    | with_reducible assumption
    | decide +kernel
    | with_reducible exact Kept.refl ..
    | (with_reducible apply KeptR.ite <;> intro _)
    | (with_reducible apply Kept.ite <;> intro _)
    | with_reducible refine KeptR.next ?_
    | with_reducible exact KeptR.fault
    | with_reducible apply Kept.step (State.ether_kept _ _ _ _ _ _)
    | (extract_lets +onlyGivenNames x; refine cutK (m := km_execEchoRequest) (s := s) (x := x) ?_ ?_; on_goal 1 => (try unfold x); on_goal 2 => (intro hx; clear_value x))
    | extract_lets +onlyGivenNames x
    | split
    | refine Kept.of_snd ‹_› ?_
    | dsimp +zetaDelta only [id_eq]
    | with_reducible apply Kept.set_hlk)

def km_execNeighbourSolicitation : Nat := ob Obj.hlkLinkStatus ||| pt.hlk ||| km_ether

theorem execNeighbourSolicitation_kept (port : Nat) (sub : Nat) (src : Nat) (target : Nat) (dad : Bool) (s : State) : KeptR km_execNeighbourSolicitation s (execNeighbourSolicitation port sub src target dad s) := by
  unfold execNeighbourSolicitation
  repeat' (first
    | with_reducible assumption
    | decide +kernel
    | with_reducible exact Kept.refl ..
    | (with_reducible apply KeptR.ite <;> intro _)
    | (with_reducible apply Kept.ite <;> intro _)
    | with_reducible refine KeptR.next ?_
    | with_reducible exact KeptR.fault
    | with_reducible apply Kept.step (State.setFld_kept _ _ _ _ _)
    | with_reducible apply Kept.step (State.ether_kept _ _ _ _ _ _)
    | (extract_lets +onlyGivenNames x; refine cutK (m := km_execNeighbourSolicitation) (s := s) (x := x) ?_ ?_; on_goal 1 => (try unfold x); on_goal 2 => (intro hx; clear_value x))
    | extract_lets +onlyGivenNames x
    | split
    | refine Kept.of_snd ‹_› ?_
    | dsimp +zetaDelta only [id_eq]
    | with_reducible apply Kept.set_hlk)

def km_execMembershipQuery : Nat := km_memberReports

theorem execMembershipQuery_kept (port : Nat) (sub : Nat) (v6 : Bool) (group : Nat) (s : State) : KeptR km_execMembershipQuery s (execMembershipQuery port sub v6 group s) := by
  unfold execMembershipQuery
  repeat' (first
    | with_reducible assumption
    | decide +kernel
    | with_reducible exact Kept.refl ..
    | (with_reducible apply KeptR.ite <;> intro _)
    | (with_reducible apply Kept.ite <;> intro _)
    | with_reducible refine KeptR.next ?_
    | with_reducible exact KeptR.fault
    | with_reducible apply Kept.step (State.memberReports_kept _ _ _ _ _)
    | (extract_lets +onlyGivenNames x; refine cutK (m := km_execMembershipQuery) (s := s) (x := x) ?_ ?_; on_goal 1 => (try unfold x); on_goal 2 => (intro hx; clear_value x))
    | extract_lets +onlyGivenNames x
    | split
    | refine Kept.of_snd ‹_› ?_)

def km_unpause : Nat := pt.hlk ||| km_emit ||| km_hlkCount ||| km_poaCount

theorem State.unpause_kept (s : State) (port : Nat) (sub : Nat) (pcp : Nat) : Kept km_unpause s (State.unpause s port sub pcp) := by
  unfold State.unpause
  repeat' (first
    | with_reducible assumption
    | decide +kernel
    | with_reducible exact Kept.refl ..
    | with_reducible apply Kept.step (State.emit_kept _ _)
    | with_reducible apply Kept.step (State.hlkCount_kept _ _ _ _)
    | with_reducible apply Kept.step (State.poaCount_kept _ _)
    | with_reducible apply Kept.foldl
    | with_reducible refine fun (x : State) a hx => ?_
    | (extract_lets +onlyGivenNames x; refine cutK (m := km_unpause) (s := s) (x := x) ?_ ?_; on_goal 1 => (try unfold x); on_goal 2 => (intro hx; clear_value x))
    | extract_lets +onlyGivenNames x
    | split
    | refine Kept.of_snd ‹_› ?_
    | dsimp +zetaDelta only [id_eq]
    | with_reducible apply Kept.set_hlk)

def km_pauseClass : Nat := pt.hlk ||| km_unpause

theorem State.pauseClass_kept (s : State) (port : Nat) (sub : Nat) (pcp : Nat) (quanta : Nat) : Kept km_pauseClass s (State.pauseClass s port sub pcp quanta) := by
  unfold State.pauseClass
  repeat' (first
    | with_reducible assumption
    | decide +kernel
    | with_reducible exact Kept.refl ..
    | (with_reducible apply Kept.ite <;> intro _)
    | with_reducible apply Kept.step (State.unpause_kept _ _ _ _)
    | (extract_lets +onlyGivenNames x; refine cutK (m := km_pauseClass) (s := s) (x := x) ?_ ?_; on_goal 1 => (try unfold x); on_goal 2 => (intro hx; clear_value x))
    | extract_lets +onlyGivenNames x
    | split
    | refine Kept.of_snd ‹_› ?_
    | dsimp +zetaDelta only [id_eq]
    | with_reducible apply Kept.set_hlk)

def km_execPfcReceive : Nat := km_pauseClass ||| km_hlkCount

theorem execPfcReceive_kept (port : Nat) (sub : Nat) (classes : Nat) (quanta : Nats) (s : State) : KeptR km_execPfcReceive s (execPfcReceive port sub classes quanta s) := by
  unfold execPfcReceive
  repeat' (first
    | with_reducible assumption
    | decide +kernel
    | with_reducible exact Kept.refl ..
    | (with_reducible apply KeptR.ite <;> intro _)
    | (with_reducible apply Kept.ite <;> intro _)
    | with_reducible refine KeptR.next ?_
    | with_reducible exact KeptR.fault
    | with_reducible apply Kept.step (State.pauseClass_kept _ _ _ _ _)
    | with_reducible apply Kept.step (State.hlkCount_kept _ _ _ _)
    | with_reducible apply Kept.foldl
    | with_reducible refine fun (x : State) a hx => ?_
    | (extract_lets +onlyGivenNames x; refine cutK (m := km_execPfcReceive) (s := s) (x := x) ?_ ?_; on_goal 1 => (try unfold x); on_goal 2 => (intro hx; clear_value x))
    | extract_lets +onlyGivenNames x
    | split
    | refine Kept.of_snd ‹_› ?_
    | dsimp +zetaDelta only [id_eq])

def km_execPauseQuantaExpiry : Nat := km_reach ||| km_unpause

theorem execPauseQuantaExpiry_kept (port : Nat) (sub : Nat) (pcp : Nat) (s : State) : KeptR km_execPauseQuantaExpiry s (execPauseQuantaExpiry port sub pcp s) := by
  unfold execPauseQuantaExpiry
  repeat' (first
    | with_reducible assumption
    | decide +kernel
    | with_reducible exact Kept.refl ..
    | with_reducible refine KeptR.next ?_
    | with_reducible exact KeptR.fault
    | with_reducible apply Kept.step (State.reach_kept _ _)
    | with_reducible apply Kept.step (State.unpause_kept _ _ _ _)
    | (extract_lets +onlyGivenNames x; refine cutK (m := km_execPauseQuantaExpiry) (s := s) (x := x) ?_ ?_; on_goal 1 => (try unfold x); on_goal 2 => (intro hx; clear_value x))
    | extract_lets +onlyGivenNames x
    | split
    | refine Kept.of_snd ‹_› ?_
    | dsimp +zetaDelta only [id_eq])

def km_execPfcRepeat : Nat := km_reach ||| km_sendPfc ||| km_setPfc

theorem execPfcRepeat_kept (port : Nat) (s : State) : KeptR km_execPfcRepeat s (execPfcRepeat port s) := by
  unfold execPfcRepeat
  repeat' (first
    | with_reducible assumption
    | decide +kernel
    | with_reducible exact Kept.refl ..
    | with_reducible refine KeptR.next ?_
    | with_reducible exact KeptR.fault
    | with_reducible apply Kept.step (State.reach_kept _ _)
    | with_reducible apply Kept.step (State.sendPfc_kept _ _ _)
    | with_reducible apply Kept.step (State.setPfc_kept _ _ _)
    | (extract_lets +onlyGivenNames x; refine cutK (m := km_execPfcRepeat) (s := s) (x := x) ?_ ?_; on_goal 1 => (try unfold x); on_goal 2 => (intro hx; clear_value x))
    | extract_lets +onlyGivenNames x
    | split
    | refine Kept.of_snd ‹_› ?_)

def km_linkTo : Nat := ob Obj.hlkCounts ||| ob Obj.hlkLinkStatus ||| pt.hlk ||| km_raiseAll ||| km_noteInst

theorem State.linkTo_kept (s : State) (port : Nat) (sub : Nat) (st : Nat) : Kept km_linkTo s (State.linkTo s port sub st) := by
  unfold State.linkTo
  repeat' (first
    | with_reducible assumption
    | decide +kernel
    | with_reducible exact Kept.refl ..
    | (with_reducible apply Kept.ite <;> intro _)
    | with_reducible apply Kept.step (State.setFld_kept _ _ _ _ _)
    | with_reducible apply Kept.step (State.count_kept _ _ _ _ _ _)
    | with_reducible apply Kept.step (State.raiseAll_kept _ _ _)
    | with_reducible apply Kept.step (State.noteInst_kept _ _ _)
    | (extract_lets +onlyGivenNames x; refine cutK (m := km_linkTo) (s := s) (x := x) ?_ ?_; on_goal 1 => (try unfold x); on_goal 2 => (intro hx; clear_value x))
    | extract_lets +onlyGivenNames x
    | split
    | refine Kept.of_snd ‹_› ?_
    | dsimp +zetaDelta only [id_eq]
    | with_reducible apply Kept.set_hlk)

def km_portTrain : Nat := km_linkTo

theorem State.portTrain_kept (s : State) (port : Nat) : Kept km_portTrain s (State.portTrain s port) := by
  unfold State.portTrain
  repeat' (first
    | with_reducible assumption
    | decide +kernel
    | with_reducible exact Kept.refl ..
    | (with_reducible apply Kept.ite <;> intro _)
    | with_reducible apply Kept.step (State.linkTo_kept _ _ _ _)
    | with_reducible apply Kept.foldl
    | with_reducible refine fun (x : State) a hx => ?_
    | (extract_lets +onlyGivenNames x; refine cutK (m := km_portTrain) (s := s) (x := x) ?_ ?_; on_goal 1 => (try unfold x); on_goal 2 => (intro hx; clear_value x))
    | extract_lets +onlyGivenNames x
    | split
    | refine Kept.of_snd ‹_› ?_
    | dsimp +zetaDelta only [id_eq])

def km_execModuleInsert : Nat := ob Obj.hlkModule ||| km_portTrain

theorem execModuleInsert_kept (port : Nat) (id : Nat) (s : State) : KeptR km_execModuleInsert s (execModuleInsert port id s) := by
  unfold execModuleInsert
  repeat' (first
    | with_reducible assumption
    | decide +kernel
    | with_reducible exact Kept.refl ..
    | with_reducible refine KeptR.next ?_
    | with_reducible exact KeptR.fault
    | with_reducible apply Kept.step (State.wr_kept _ _ _ _)
    | with_reducible apply Kept.step (State.portTrain_kept _ _)
    | (extract_lets +onlyGivenNames x; refine cutK (m := km_execModuleInsert) (s := s) (x := x) ?_ ?_; on_goal 1 => (try unfold x); on_goal 2 => (intro hx; clear_value x))
    | extract_lets +onlyGivenNames x
    | split
    | refine Kept.of_snd ‹_› ?_
    | dsimp +zetaDelta only [id_eq])

def km_execModuleRemoval : Nat := ob Obj.hlkModule ||| km_portTrain

theorem execModuleRemoval_kept (port : Nat) (s : State) : KeptR km_execModuleRemoval s (execModuleRemoval port s) := by
  unfold execModuleRemoval
  repeat' (first
    | with_reducible assumption
    | decide +kernel
    | with_reducible exact Kept.refl ..
    | with_reducible refine KeptR.next ?_
    | with_reducible exact KeptR.fault
    | with_reducible apply Kept.step (State.wr_kept _ _ _ _)
    | with_reducible apply Kept.step (State.portTrain_kept _ _)
    | (extract_lets +onlyGivenNames x; refine cutK (m := km_execModuleRemoval) (s := s) (x := x) ?_ ?_; on_goal 1 => (try unfold x); on_goal 2 => (intro hx; clear_value x))
    | extract_lets +onlyGivenNames x
    | split
    | refine Kept.of_snd ‹_› ?_)

def km_execHlkLinkUp : Nat := ob Obj.hlkLinkStatus ||| pt.hlk ||| km_linkTo ||| km_latch ||| km_ether ||| km_memberReports

theorem execHlkLinkUp_kept (port : Nat) (sub : Nat) (s : State) : KeptR km_execHlkLinkUp s (execHlkLinkUp port sub s) := by
  unfold execHlkLinkUp
  repeat' (first
    | with_reducible assumption
    | decide +kernel
    | with_reducible exact Kept.refl ..
    | (with_reducible apply KeptR.ite <;> intro _)
    | (with_reducible apply Kept.ite <;> intro _)
    | with_reducible refine KeptR.next ?_
    | with_reducible exact KeptR.fault
    | with_reducible apply Kept.step (State.setFld_kept _ _ _ _ _)
    | with_reducible apply Kept.step (State.linkTo_kept _ _ _ _)
    | with_reducible apply Kept.step (State.latch_kept _ _)
    | with_reducible apply Kept.step (State.ether_kept _ _ _ _ _ _)
    | with_reducible apply Kept.step (State.memberReports_kept _ _ _ _ _)
    | with_reducible apply Kept.foldl
    | with_reducible refine fun (x : State) a hx => ?_
    | (extract_lets +onlyGivenNames x; refine cutK (m := km_execHlkLinkUp) (s := s) (x := x) ?_ ?_; on_goal 1 => (try unfold x); on_goal 2 => (intro hx; clear_value x))
    | extract_lets +onlyGivenNames x
    | split
    | refine Kept.of_snd ‹_› ?_
    | dsimp +zetaDelta only [id_eq]
    | with_reducible apply Kept.set_hlk)

def km_execHlkLinkDown : Nat := km_linkTo

theorem execHlkLinkDown_kept (port : Nat) (sub : Nat) (s : State) : KeptR km_execHlkLinkDown s (execHlkLinkDown port sub s) := by
  unfold execHlkLinkDown
  repeat' (first
    | with_reducible assumption
    | decide +kernel
    | with_reducible exact Kept.refl ..
    | (with_reducible apply KeptR.ite <;> intro _)
    | (with_reducible apply Kept.ite <;> intro _)
    | with_reducible refine KeptR.next ?_
    | with_reducible exact KeptR.fault
    | with_reducible apply Kept.step (State.linkTo_kept _ _ _ _)
    | (extract_lets +onlyGivenNames x; refine cutK (m := km_execHlkLinkDown) (s := s) (x := x) ?_ ?_; on_goal 1 => (try unfold x); on_goal 2 => (intro hx; clear_value x))
    | extract_lets +onlyGivenNames x
    | split
    | refine Kept.of_snd ‹_› ?_)

def km_portCfg : Nat := ob Obj.hlkPortCfg ||| km_portTrain

theorem State.portCfg_kept (s : State) (port : Nat) (v : Nat) : Kept km_portCfg s (State.portCfg s port v) := by
  unfold State.portCfg
  repeat' (first
    | with_reducible assumption
    | decide +kernel
    | with_reducible exact Kept.refl ..
    | with_reducible apply Kept.step (State.wr_kept _ _ _ _)
    | with_reducible apply Kept.step (State.portTrain_kept _ _)
    | (extract_lets +onlyGivenNames x; refine cutK (m := km_portCfg) (s := s) (x := x) ?_ ?_; on_goal 1 => (try unfold x); on_goal 2 => (intro hx; clear_value x))
    | extract_lets +onlyGivenNames x
    | split
    | refine Kept.of_snd ‹_› ?_)

end Sys2Proof.Machine
end

