-- ==== Sys2Proof/Laws/KeptBoot.lean ====
section
/-! SUPPORT. For every operation of Machine/Boot.lean the parts of the state that it may change. -/
set_option linter.unusedTactic false
set_option linter.unreachableTactic false
set_option linter.unusedVariables false
set_option linter.tactic.unusedName false
set_option Elab.async false
namespace Sys2Proof.Machine

def km_putAll : Nat := pt.objs

theorem State.putAll_kept (s : State) (l : List (Nat × Nat)) : Kept km_putAll s (s.putAll l) := by
  refine ⟨fun p hp => ?_, rfl, Nat.le_refl _, id, putAll_wf l, fun h => ⟨Nat.le_refl _, h⟩, fun _ _ h => h⟩
  cases p with
  | obj q =>
    intro e hq
    have h : ob (q % 65536) ||| km_putAll = km_putAll := ob_objs (by decide +kernel)
    rw [Nat.mod_eq_of_lt hq] at h
    rw [Part.num, pt_ob_testBit h] at hp
    cases hp
  | _ => rfl


def km_loadStore : Nat := ob Obj.devStoreStatus ||| km_putAll ||| km_setImg

theorem State.loadStore_kept (s : State) (bad : List Nat) (want : Nat → Bool) : Kept km_loadStore s (State.loadStore s bad want) := by
  unfold State.loadStore
  repeat' (first
    | with_reducible assumption
    | decide +kernel
    | with_reducible exact Kept.refl ..
    | with_reducible apply Kept.step (State.count_kept _ _ _ _ _ _)
    | with_reducible apply Kept.step (State.putAll_kept _ _)
    | with_reducible apply Kept.step (State.setImg_kept _ _ _ _)
    | with_reducible apply Kept.foldl
    | with_reducible refine fun (x : State) a hx => ?_
    | (extract_lets +onlyGivenNames x; refine cutK (m := km_loadStore) (s := s) (x := x) ?_ ?_; on_goal 1 => (try unfold x); on_goal 2 => (intro hx; clear_value x))
    | extract_lets +onlyGivenNames x
    | split
    | refine Kept.of_snd ‹_› ?_
    | dsimp +zetaDelta only [id_eq])

def km_saveStart : Nat := ob Obj.devStoreStatus ||| pt.bot ||| pt.freeCtr

theorem State.saveStart_kept (s : State) : Kept km_saveStart s (State.saveStart s) := by
  unfold State.saveStart
  repeat' (first
    | with_reducible assumption
    | decide +kernel
    | with_reducible exact Kept.refl ..
    | with_reducible apply Kept.step (State.draw_kept _)
    | with_reducible apply Kept.step (State.setFld_kept _ _ _ _ _)
    | exact fun h => ⟨Nat.le_refl _, h⟩
    | exact fun _ _ h => h
    | (extract_lets +onlyGivenNames x; refine cutK (m := km_saveStart) (s := s) (x := x) ?_ ?_; on_goal 1 => (try unfold x); on_goal 2 => (intro hx; clear_value x))
    | extract_lets +onlyGivenNames x
    | split
    | refine Kept.of_snd ‹_› ?_
    | with_reducible apply Kept.set_bot)

def km_restoreStart : Nat := ob Obj.devStoreStatus ||| pt.bot ||| pt.freeCtr

theorem State.restoreStart_kept (s : State) : Kept km_restoreStart s (State.restoreStart s) := by
  unfold State.restoreStart
  repeat' (first
    | with_reducible assumption
    | decide +kernel
    | with_reducible exact Kept.refl ..
    | with_reducible apply Kept.step (State.draw_kept _)
    | with_reducible apply Kept.step (State.setFld_kept _ _ _ _ _)
    | exact fun h => ⟨Nat.le_refl _, h⟩
    | exact fun _ _ h => h
    | (extract_lets +onlyGivenNames x; refine cutK (m := km_restoreStart) (s := s) (x := x) ?_ ?_; on_goal 1 => (try unfold x); on_goal 2 => (intro hx; clear_value x))
    | extract_lets +onlyGivenNames x
    | split
    | refine Kept.of_snd ‹_› ?_
    | with_reducible apply Kept.set_bot)

def km_execStoreComplete : Nat := ob Obj.devStoreCount ||| ob Obj.devStoreStatus ||| pt.bot

theorem execStoreComplete_kept (s : State) : KeptR km_execStoreComplete s (execStoreComplete s) := by
  unfold execStoreComplete
  repeat' (first
    | with_reducible assumption
    | decide +kernel
    | with_reducible exact Kept.refl ..
    | (with_reducible apply KeptR.ite <;> intro _)
    | (with_reducible apply Kept.ite <;> intro _)
    | with_reducible refine KeptR.next ?_
    | with_reducible exact KeptR.fault
    | with_reducible apply Kept.step (State.setFld_kept _ _ _ _ _)
    | with_reducible apply Kept.step (State.count64_kept _ _ _ _)
    | exact fun h => ⟨Nat.le_refl _, h⟩
    | exact fun _ _ h => h
    | (extract_lets +onlyGivenNames x; refine cutK (m := km_execStoreComplete) (s := s) (x := x) ?_ ?_; on_goal 1 => (try unfold x); on_goal 2 => (intro hx; clear_value x))
    | extract_lets +onlyGivenNames x
    | split
    | refine Kept.of_snd ‹_› ?_
    | with_reducible apply Kept.set_bot)

def km_setSlot : Nat := pt.bot

theorem State.setSlot_kept (s : State) (patch : Bool) (slot : Nat) (b : Bytes) : Kept km_setSlot s (State.setSlot s patch slot b) := by
  unfold State.setSlot
  repeat' (first
    | with_reducible assumption
    | decide +kernel
    | with_reducible exact Kept.refl ..
    | (with_reducible apply Kept.ite <;> intro _)
    | exact fun h => ⟨Nat.le_refl _, h⟩
    | exact fun _ _ h => h
    | (extract_lets +onlyGivenNames x; refine cutK (m := km_setSlot) (s := s) (x := x) ?_ ?_; on_goal 1 => (try unfold x); on_goal 2 => (intro hx; clear_value x))
    | extract_lets +onlyGivenNames x
    | split
    | refine Kept.of_snd ‹_› ?_
    | dsimp +zetaDelta only [id_eq]
    | with_reducible apply Kept.set_bot)

def km_bootBase : Nat := pt.all

theorem State.bootBase_kept (s : State) : Kept km_bootBase s s.bootBase := by
  unfold State.bootBase
  extract_lets s0 b c q s1 r0
  have h0 : Kept km_bootBase s r0 :=
    ⟨Part.Same_of_none _ (by decide +kernel), rfl, Nat.le_refl _, id, fun _ => ⟨List.Pairwise.nil, fun _ h => by cases h⟩, fun h => ⟨Nat.le_refl _, h⟩, fun _ _ h => h⟩
  clear_value r0
  repeat' (first | with_reducible assumption | decide +kernel | with_reducible apply Kept.step (State.wr_kept _ _ _ _))


def km_bootEntry : Nat := ob Obj.botCounts ||| ob Obj.botStatus ||| pt.bot ||| km_bootBase ||| km_enter ||| km_raiseAll

theorem State.bootEntry_kept (s : State) (prev : Nat) (reason : Nat) (warm : Bool) : Kept km_bootEntry s (State.bootEntry s prev reason warm) := by
  unfold State.bootEntry
  repeat' (first
    | with_reducible assumption
    | decide +kernel
    | with_reducible exact Kept.refl ..
    | (with_reducible apply Kept.ite <;> intro _)
    | with_reducible apply Kept.step (State.setFld_kept _ _ _ _ _)
    | with_reducible apply Kept.step (State.count_kept _ _ _ _ _ _)
    | with_reducible apply Kept.step (State.bootBase_kept _)
    | with_reducible apply Kept.step (State.enter_kept _ _ _ _)
    | with_reducible apply Kept.step (State.raiseAll_kept _ _ _)
    | exact fun h => ⟨Nat.le_refl _, h⟩
    | exact fun _ _ h => h
    | (extract_lets +onlyGivenNames x; refine cutK (m := km_bootEntry) (s := s) (x := x) ?_ ?_; on_goal 1 => (try unfold x); on_goal 2 => (intro hx; clear_value x))
    | extract_lets +onlyGivenNames x
    | split
    | refine Kept.of_snd ‹_› ?_
    | with_reducible apply Kept.set_bot)

def km_bootAsked : Nat := pt.bot ||| km_bootEntry

theorem State.bootAsked_kept (s : State) (prev reason asked : Nat) : Kept km_bootAsked s (State.bootAsked s prev reason asked) := by
  unfold State.bootAsked
  repeat' (first
    | with_reducible assumption
    | decide +kernel
    | with_reducible exact Kept.refl ..
    | with_reducible apply Kept.step (State.bootEntry_kept _ _ _ _)
    | exact fun h => ⟨Nat.le_refl _, h⟩
    | exact fun _ _ h => h
    | (extract_lets +onlyGivenNames x; refine cutK (m := km_bootAsked) (s := s) (x := x) ?_ ?_; on_goal 1 => (try unfold x); on_goal 2 => (intro hx; clear_value x))
    | extract_lets +onlyGivenNames x
    | dsimp +zetaDelta only [id_eq]
    | with_reducible apply Kept.set_bot)

def km_execPowerOn : Nat := km_bootEntry

theorem execPowerOn_kept (s : State) : KeptR km_execPowerOn s (execPowerOn s) := by
  unfold execPowerOn
  repeat' (first
    | with_reducible assumption
    | decide +kernel
    | with_reducible exact Kept.refl ..
    | (with_reducible apply KeptR.ite <;> intro _)
    | (with_reducible apply Kept.ite <;> intro _)
    | with_reducible refine KeptR.next ?_
    | with_reducible exact KeptR.fault
    | with_reducible apply Kept.step (State.bootEntry_kept _ _ _ _)
    | (extract_lets +onlyGivenNames x; refine cutK (m := km_execPowerOn) (s := s) (x := x) ?_ ?_; on_goal 1 => (try unfold x); on_goal 2 => (intro hx; clear_value x))
    | extract_lets +onlyGivenNames x
    | split
    | refine Kept.of_snd ‹_› ?_)

def km_execExtReset : Nat := km_bootEntry

theorem execExtReset_kept (s : State) : KeptR km_execExtReset s (execExtReset s) := by
  unfold execExtReset
  repeat' (first
    | with_reducible assumption
    | decide +kernel
    | with_reducible exact Kept.refl ..
    | (with_reducible apply KeptR.ite <;> intro _)
    | (with_reducible apply Kept.ite <;> intro _)
    | with_reducible refine KeptR.next ?_
    | with_reducible exact KeptR.fault
    | with_reducible apply Kept.step (State.bootEntry_kept _ _ _ _)
    | (extract_lets +onlyGivenNames x; refine cutK (m := km_execExtReset) (s := s) (x := x) ?_ ?_; on_goal 1 => (try unfold x); on_goal 2 => (intro hx; clear_value x))
    | extract_lets +onlyGivenNames x
    | split
    | refine Kept.of_snd ‹_› ?_)

def km_execColdEntry : Nat := pt.all

theorem execColdEntry_kept (s : State) : KeptR km_execColdEntry s (execColdEntry s) :=
  KeptR.next ⟨Part.Same_of_none _ (by decide +kernel), rfl, Nat.le_refl _, fun _ => ⟨List.Pairwise.nil, fun _ h => by cases h⟩,
    fun _ => ⟨List.Pairwise.nil, fun _ h => by cases h⟩, fun h => ⟨Nat.le_refl _, h⟩, fun _ _ h => h⟩


def km_capsHbm : Nat := ob Obj.devCaps

theorem State.capsHbm_kept (s : State) : Kept km_capsHbm s (State.capsHbm s) := by
  unfold State.capsHbm
  repeat' (first
    | with_reducible assumption
    | decide +kernel
    | with_reducible exact Kept.refl ..
    | (with_reducible apply Kept.ite <;> intro _)
    | with_reducible apply Kept.step (State.wr_kept _ _ _ _)
    | (extract_lets +onlyGivenNames x; refine cutK (m := km_capsHbm) (s := s) (x := x) ?_ ?_; on_goal 1 => (try unfold x); on_goal 2 => (intro hx; clear_value x))
    | extract_lets +onlyGivenNames x
    | split
    | refine Kept.of_snd ‹_› ?_)

def km_toStage : Nat := ob Obj.botStatus

theorem State.toStage_kept (s : State) (n : Nat) : Kept km_toStage s (State.toStage s n) := by
  unfold State.toStage
  repeat' (first
    | with_reducible assumption
    | decide +kernel
    | with_reducible exact Kept.refl ..
    | with_reducible apply Kept.step (State.setFld_kept _ _ _ _ _)
    | (extract_lets +onlyGivenNames x; refine cutK (m := km_toStage) (s := s) (x := x) ?_ ?_; on_goal 1 => (try unfold x); on_goal 2 => (intro hx; clear_value x))
    | extract_lets +onlyGivenNames x
    | split
    | refine Kept.of_snd ‹_› ?_)

def km_stage1 : Nat := ob Obj.botKeys ||| ob Obj.botRollback ||| ob Obj.botSlotSelect ||| km_loadStore ||| km_toStage

theorem State.stage1_kept (s : State) (bad : List Nat) : Kept km_stage1 s (State.stage1 s bad) := by
  unfold State.stage1
  repeat' (first
    | with_reducible assumption
    | decide +kernel
    | with_reducible exact Kept.refl ..
    | (with_reducible apply Kept.ite <;> intro _)
    | with_reducible apply Kept.step (State.wr_kept _ _ _ _)
    | with_reducible apply Kept.step (State.loadStore_kept _ _ _)
    | with_reducible apply Kept.step (State.toStage_kept _ _)
    | (extract_lets +onlyGivenNames x; refine cutK (m := km_stage1) (s := s) (x := x) ?_ ?_; on_goal 1 => (try unfold x); on_goal 2 => (intro hx; clear_value x))
    | extract_lets +onlyGivenNames x
    | split
    | refine Kept.of_snd ‹_› ?_)

def km_enableRails : Nat := km_emit

theorem State.enableRails_kept (s : State) (last : Nat) : Kept km_enableRails s (State.enableRails s last) := by
  unfold State.enableRails
  repeat' (first
    | with_reducible assumption
    | decide +kernel
    | with_reducible exact Kept.refl ..
    | with_reducible apply Kept.step (State.emit_kept _ _)
    | with_reducible apply Kept.foldl
    | with_reducible refine fun (x : State) a hx => ?_
    | (extract_lets +onlyGivenNames x; refine cutK (m := km_enableRails) (s := s) (x := x) ?_ ?_; on_goal 1 => (try unfold x); on_goal 2 => (intro hx; clear_value x))
    | extract_lets +onlyGivenNames x
    | split
    | refine Kept.of_snd ‹_› ?_
    | dsimp +zetaDelta only [id_eq])

def km_stage2 : Nat := pt.psm ||| pt.bot ||| km_enableRails ||| km_toStage ||| km_psmCount ||| km_raiseAll

theorem State.stage2_kept (s : State) (rail : Nat) : Kept km_stage2 s (State.stage2 s rail) := by
  unfold State.stage2
  repeat' (first
    | with_reducible assumption
    | decide +kernel
    | with_reducible exact Kept.refl ..
    | (with_reducible apply Kept.ite <;> intro _)
    | with_reducible apply Kept.step (State.enableRails_kept _ _)
    | with_reducible apply Kept.step (State.toStage_kept _ _)
    | with_reducible apply Kept.step (State.psmCount_kept _ _)
    | with_reducible apply Kept.step (State.raiseAll_kept _ _ _)
    | exact fun h => ⟨Nat.le_refl _, h⟩
    | exact fun _ _ h => h
    | (extract_lets +onlyGivenNames x; refine cutK (m := km_stage2) (s := s) (x := x) ?_ ?_; on_goal 1 => (try unfold x); on_goal 2 => (intro hx; clear_value x))
    | extract_lets +onlyGivenNames x
    | split
    | refine Kept.of_snd ‹_› ?_
    | with_reducible apply Kept.set_psm_bot)

def km_lockRoot : Nat := ob Obj.cccState ||| ob Obj.clkState ||| pt.clk ||| km_toStage

theorem State.lockRoot_kept (s : State) (present : Bool) : Kept km_lockRoot s (State.lockRoot s present) := by
  unfold State.lockRoot
  repeat' (first
    | with_reducible assumption
    | decide +kernel
    | with_reducible exact Kept.refl ..
    | with_reducible apply Kept.step (State.setFld_kept _ _ _ _ _)
    | with_reducible apply Kept.step (State.wrAll_kept _ _ _ _)
    | with_reducible apply Kept.step (State.toStage_kept _ _)
    | (extract_lets +onlyGivenNames x; refine cutK (m := km_lockRoot) (s := s) (x := x) ?_ ?_; on_goal 1 => (try unfold x); on_goal 2 => (intro hx; clear_value x))
    | extract_lets +onlyGivenNames x
    | split
    | refine Kept.of_snd ‹_› ?_
    | with_reducible apply Kept.set_clk)

def km_stage3 : Nat := ob Obj.clkState ||| km_raiseAll ||| km_lockRoot

theorem State.stage3_kept (s : State) (present : Bool) : Kept km_stage3 s (State.stage3 s present) := by
  unfold State.stage3
  repeat' (first
    | with_reducible assumption
    | decide +kernel
    | with_reducible exact Kept.refl ..
    | (with_reducible apply Kept.ite <;> intro _)
    | with_reducible apply Kept.step (State.setFld_kept _ _ _ _ _)
    | with_reducible apply Kept.step (State.raiseAll_kept _ _ _)
    | with_reducible apply Kept.step (State.lockRoot_kept _ _)
    | (extract_lets +onlyGivenNames x; refine cutK (m := km_stage3) (s := s) (x := x) ?_ ?_; on_goal 1 => (try unfold x); on_goal 2 => (intro hx; clear_value x))
    | extract_lets +onlyGivenNames x
    | split
    | refine Kept.of_snd ‹_› ?_)

def km_execRefclkRetry : Nat := pt.bot ||| km_reach ||| km_lockRoot

theorem execRefclkRetry_kept (present : Bool) (s : State) : KeptR km_execRefclkRetry s (execRefclkRetry present s) := by
  unfold execRefclkRetry
  repeat' (first
    | with_reducible assumption
    | decide +kernel
    | with_reducible exact Kept.refl ..
    | (with_reducible apply KeptR.ite <;> intro _)
    | (with_reducible apply Kept.ite <;> intro _)
    | with_reducible refine KeptR.next ?_
    | with_reducible exact KeptR.fault
    | with_reducible apply Kept.step (State.reach_kept _ _)
    | with_reducible apply Kept.step (State.lockRoot_kept _ _)
    | exact fun h => ⟨Nat.le_refl _, h⟩
    | exact fun _ _ h => h
    | (extract_lets +onlyGivenNames x; refine cutK (m := km_execRefclkRetry) (s := s) (x := x) ?_ ?_; on_goal 1 => (try unfold x); on_goal 2 => (intro hx; clear_value x))
    | extract_lets +onlyGivenNames x
    | split
    | refine Kept.of_snd ‹_› ?_
    | with_reducible apply Kept.set_bot)

def km_bootFw : Nat := ob Obj.botStatus ||| ob Obj.cccState ||| ob Obj.devFwVersion ||| km_toStage

theorem State.bootFw_kept (s : State) (slot : Nat) : Kept km_bootFw s (State.bootFw s slot) := by
  unfold State.bootFw
  repeat' (first
    | with_reducible assumption
    | decide +kernel
    | with_reducible exact Kept.refl ..
    | with_reducible apply Kept.step (State.wr_kept _ _ _ _)
    | with_reducible apply Kept.step (State.setFld_kept _ _ _ _ _)
    | with_reducible apply Kept.step (State.wrAll_kept _ _ _ _)
    | with_reducible apply Kept.step (State.toStage_kept _ _)
    | (extract_lets +onlyGivenNames x; refine cutK (m := km_bootFw) (s := s) (x := x) ?_ ?_; on_goal 1 => (try unfold x); on_goal 2 => (intro hx; clear_value x))
    | extract_lets +onlyGivenNames x
    | split
    | refine Kept.of_snd ‹_› ?_)

def km_stage4 : Nat := ob Obj.botCounts ||| ob Obj.botStatus ||| pt.bot ||| km_bootFw ||| km_raiseAll

theorem State.stage4_kept (s : State) : Kept km_stage4 s (State.stage4 s) := by
  unfold State.stage4
  repeat' (first
    | with_reducible assumption
    | decide +kernel
    | with_reducible exact Kept.refl ..
    | (with_reducible apply Kept.ite <;> intro _)
    | with_reducible apply Kept.step (State.setFld_kept _ _ _ _ _)
    | with_reducible apply Kept.step (State.count_kept _ _ _ _ _ _)
    | with_reducible apply Kept.step (State.bootFw_kept _ _)
    | with_reducible apply Kept.step (State.raiseAll_kept _ _ _)
    | exact fun h => ⟨Nat.le_refl _, h⟩
    | exact fun _ _ h => h
    | (extract_lets +onlyGivenNames x; refine cutK (m := km_stage4) (s := s) (x := x) ?_ ?_; on_goal 1 => (try unfold x); on_goal 2 => (intro hx; clear_value x))
    | extract_lets +onlyGivenNames x
    | split
    | refine Kept.of_snd ‹_› ?_
    | with_reducible apply Kept.set_bot)

def km_stage5 : Nat := ob Obj.botStatus ||| ob Obj.devUcodeVersion ||| ob Obj.ndlUcodeInfo ||| pt.ubase ||| pt.ucode ||| pt.traps ||| km_toStage ||| km_raiseAll

theorem State.stage5_kept (s : State) : Kept km_stage5 s (State.stage5 s) := by
  unfold State.stage5
  repeat' (first
    | with_reducible assumption
    | decide +kernel
    | with_reducible exact Kept.refl ..
    | (with_reducible apply Kept.ite <;> intro _)
    | with_reducible apply Kept.step (State.wr_kept _ _ _ _)
    | with_reducible apply Kept.step (State.setFld_kept _ _ _ _ _)
    | with_reducible apply Kept.step (State.toStage_kept _ _)
    | with_reducible apply Kept.step (State.raiseAll_kept _ _ _)
    | (extract_lets +onlyGivenNames x; refine cutK (m := km_stage5) (s := s) (x := x) ?_ ?_; on_goal 1 => (try unfold x); on_goal 2 => (intro hx; clear_value x))
    | extract_lets +onlyGivenNames x
    | split
    | refine Kept.of_snd ‹_› ?_
    | dsimp +zetaDelta only [id_eq]
    | with_reducible apply Kept.set_ubase_ucode_traps)

def km_stage6 : Nat := ob Obj.devCaps ||| ob Obj.tmuState ||| km_raiseAll ||| km_toStage

theorem State.stage6_kept (s : State) (bad : Nat) (tdcs : Nats) : Kept km_stage6 s (State.stage6 s bad tdcs) := by
  unfold State.stage6
  repeat' (first
    | with_reducible assumption
    | decide +kernel
    | with_reducible exact Kept.refl ..
    | (with_reducible apply Kept.ite <;> intro _)
    | with_reducible apply Kept.step (State.wr_kept _ _ _ _)
    | with_reducible apply Kept.step (State.wrAll_kept _ _ _ _)
    | with_reducible apply Kept.step (State.raiseAll_kept _ _ _)
    | with_reducible apply Kept.step (State.toStage_kept _ _)
    | with_reducible apply Kept.foldl
    | with_reducible refine fun (x : State) a hx => ?_
    | (extract_lets +onlyGivenNames x; refine cutK (m := km_stage6) (s := s) (x := x) ?_ ?_; on_goal 1 => (try unfold x); on_goal 2 => (intro hx; clear_value x))
    | extract_lets +onlyGivenNames x
    | split
    | refine Kept.of_snd ‹_› ?_
    | dsimp +zetaDelta only [id_eq])

def km_applyStored : Nat := ob Obj.calBase ||| ob Obj.ptfGaugeActive ||| pt.poa

theorem State.applyStored_kept (s : State) : Kept km_applyStored s s.applyStored := by
  have h : Kept km_applyStored s ((List.range 256).foldl
      (fun s p => (s.wr Obj.ptfGaugeActive p (s.rd Obj.ptfGauge p)).wr Obj.calBase p (s.rd Obj.ptfGauge p)) s) := by
    refine Kept.foldl (fun x a hx => ?_) (Kept.refl ..)
    exact Kept.step (State.wr_kept _ _ _ _) (by decide +kernel) (Kept.step (State.wr_kept _ _ _ _) (by decide +kernel) hx)
  unfold State.applyStored
  revert h
  generalize (List.range 256).foldl _ s = u
  intro h
  exact Kept.set_poa (by decide +kernel) h


def km_loadKeys : Nat := ob Obj.secKey ||| ob Obj.secKeyStatus ||| km_raiseAll

theorem State.loadKeys_kept (s : State) (ok : Bool) : Kept km_loadKeys s (State.loadKeys s ok) := by
  unfold State.loadKeys
  repeat' (first
    | with_reducible assumption
    | decide +kernel
    | with_reducible exact Kept.refl ..
    | (with_reducible apply Kept.ite <;> intro _)
    | with_reducible apply Kept.step (State.wr_kept _ _ _ _)
    | with_reducible apply Kept.step (State.raiseAll_kept _ _ _)
    | with_reducible apply Kept.foldl
    | with_reducible refine fun (x : State) a hx => ?_
    | (extract_lets +onlyGivenNames x; refine cutK (m := km_loadKeys) (s := s) (x := x) ?_ ?_; on_goal 1 => (try unfold x); on_goal 2 => (intro hx; clear_value x))
    | extract_lets +onlyGivenNames x
    | split
    | refine Kept.of_snd ‹_› ?_
    | dsimp +zetaDelta only [id_eq])

def km_startLinks : Nat := ob Obj.hlkModule ||| km_setStack ||| km_portTrain ||| km_cslStart

theorem State.startLinks_kept (s : State) : Kept km_startLinks s (State.startLinks s) := by
  unfold State.startLinks
  repeat' (first
    | with_reducible assumption
    | decide +kernel
    | with_reducible exact Kept.refl ..
    | (with_reducible apply Kept.ite <;> intro _)
    | with_reducible apply Kept.step (State.setFld_kept _ _ _ _ _)
    | with_reducible apply Kept.step (State.setStack_kept _ _ _)
    | with_reducible apply Kept.step (State.portTrain_kept _ _)
    | with_reducible apply Kept.step (State.cslStart_kept _)
    | with_reducible apply Kept.foldl
    | with_reducible refine fun (x : State) a hx => ?_
    | (extract_lets +onlyGivenNames x; refine cutK (m := km_startLinks) (s := s) (x := x) ?_ ?_; on_goal 1 => (try unfold x); on_goal 2 => (intro hx; clear_value x))
    | extract_lets +onlyGivenNames x
    | split
    | refine Kept.of_snd ‹_› ?_
    | dsimp +zetaDelta only [id_eq])

def km_stage7 : Nat := ob Obj.devStoreCount ||| km_loadStore ||| km_applyStored ||| km_loadKeys ||| km_toStage ||| km_startLinks

theorem State.stage7_kept (s : State) (keysBad : Bool) (bad : List Nat) : Kept km_stage7 s (State.stage7 s keysBad bad) := by
  unfold State.stage7
  repeat' (first
    | with_reducible assumption
    | decide +kernel
    | with_reducible exact Kept.refl ..
    | with_reducible apply Kept.step (State.wr_kept _ _ _ _)
    | with_reducible apply Kept.step (State.loadStore_kept _ _ _)
    | with_reducible apply Kept.step (State.applyStored_kept _)
    | with_reducible apply Kept.step (State.loadKeys_kept _ _)
    | with_reducible apply Kept.step (State.toStage_kept _ _)
    | with_reducible apply Kept.step (State.startLinks_kept _)
    | (extract_lets +onlyGivenNames x; refine cutK (m := km_stage7) (s := s) (x := x) ?_ ?_; on_goal 1 => (try unfold x); on_goal 2 => (intro hx; clear_value x))
    | extract_lets +onlyGivenNames x
    | split
    | refine Kept.of_snd ‹_› ?_
    | dsimp +zetaDelta only [id_eq])

def km_stage8 : Nat := km_capsHbm ||| km_toStage

theorem State.stage8_kept (s : State) : Kept km_stage8 s (State.stage8 s) := by
  unfold State.stage8
  repeat' (first
    | with_reducible assumption
    | decide +kernel
    | with_reducible exact Kept.refl ..
    | (with_reducible apply Kept.ite <;> intro _)
    | with_reducible apply Kept.step (State.capsHbm_kept _)
    | with_reducible apply Kept.step (State.toStage_kept _ _)
    | (extract_lets +onlyGivenNames x; refine cutK (m := km_stage8) (s := s) (x := x) ?_ ?_; on_goal 1 => (try unfold x); on_goal 2 => (intro hx; clear_value x))
    | extract_lets +onlyGivenNames x
    | split
    | refine Kept.of_snd ‹_› ?_
    | dsimp +zetaDelta only [id_eq])

def km_bootDone : Nat := ob Obj.botStatus ||| pt.safeWanted ||| km_enter ||| km_latch

theorem State.bootDone_kept (s : State) : Kept km_bootDone s (State.bootDone s) := by
  unfold State.bootDone
  repeat' (first
    | with_reducible assumption
    | decide +kernel
    | with_reducible exact Kept.refl ..
    | (with_reducible apply Kept.ite <;> intro _)
    | with_reducible apply Kept.step (State.setFld_kept _ _ _ _ _)
    | with_reducible apply Kept.step (State.enter_kept _ _ _ _)
    | with_reducible apply Kept.step (State.latch_kept _ _)
    | (extract_lets +onlyGivenNames x; refine cutK (m := km_bootDone) (s := s) (x := x) ?_ ?_; on_goal 1 => (try unfold x); on_goal 2 => (intro hx; clear_value x))
    | extract_lets +onlyGivenNames x
    | split
    | refine Kept.of_snd ‹_› ?_
    | dsimp +zetaDelta only [id_eq]
    | with_reducible apply Kept.set_safeWanted)

def km_execHbmTrainingDone : Nat := ob Obj.hmsInfo ||| pt.hms ||| km_setStack ||| km_capsHbm ||| km_raiseAll

theorem execHbmTrainingDone_kept (stack : Nat) (ok : Bool) (id : Nat) (ms : Nat) (s : State) : KeptR km_execHbmTrainingDone s (execHbmTrainingDone stack ok id ms s) := by
  unfold execHbmTrainingDone
  repeat' (first
    | with_reducible assumption
    | decide +kernel
    | with_reducible exact Kept.refl ..
    | (with_reducible apply KeptR.ite <;> intro _)
    | (with_reducible apply Kept.ite <;> intro _)
    | with_reducible refine KeptR.next ?_
    | with_reducible exact KeptR.fault
    | with_reducible apply Kept.step (State.setFld_kept _ _ _ _ _)
    | with_reducible apply Kept.step (State.setStack_kept _ _ _)
    | with_reducible apply Kept.step (State.capsHbm_kept _)
    | with_reducible apply Kept.step (State.raiseAll_kept _ _ _)
    | (extract_lets +onlyGivenNames x; refine cutK (m := km_execHbmTrainingDone) (s := s) (x := x) ?_ ?_; on_goal 1 => (try unfold x); on_goal 2 => (intro hx; clear_value x))
    | extract_lets +onlyGivenNames x
    | split
    | refine Kept.of_snd ‹_› ?_
    | dsimp +zetaDelta only [id_eq]
    | with_reducible apply Kept.set_hms)

def km_runImageValidation : Nat := km_setXfer ||| km_setSlot ||| km_result

theorem runImageValidation_kept (patch : Bool) (slot : Nat) (s : State) : KeptR km_runImageValidation s (runImageValidation patch slot s) := by
  unfold runImageValidation
  repeat' (first
    | with_reducible assumption
    | decide +kernel
    | with_reducible exact Kept.refl ..
    | (with_reducible apply KeptR.ite <;> intro _)
    | (with_reducible apply Kept.ite <;> intro _)
    | with_reducible refine KeptR.next ?_
    | with_reducible exact KeptR.fault
    | with_reducible apply Kept.step (State.setXfer_kept _ _ _)
    | with_reducible apply Kept.step (State.setSlot_kept _ _ _ _)
    | with_reducible apply Kept.step (State.result_kept _ _ _ _)
    | (extract_lets +onlyGivenNames x; refine cutK (m := km_runImageValidation) (s := s) (x := x) ?_ ?_; on_goal 1 => (try unfold x); on_goal 2 => (intro hx; clear_value x))
    | extract_lets +onlyGivenNames x
    | split
    | refine Kept.of_snd ‹_› ?_
    | dsimp +zetaDelta only [id_eq])

def km_selectSlot : Nat := ob Obj.botSlotSelect ||| pt.bot

theorem State.selectSlot_kept (s : State) (slot : Nat) : Kept km_selectSlot s (State.selectSlot s slot) := by
  unfold State.selectSlot
  repeat' (first
    | with_reducible assumption
    | decide +kernel
    | with_reducible exact Kept.refl ..
    | with_reducible apply Kept.step (State.wr_kept _ _ _ _)
    | exact fun h => ⟨Nat.le_refl _, h⟩
    | exact fun _ _ h => h
    | (extract_lets +onlyGivenNames x; refine cutK (m := km_selectSlot) (s := s) (x := x) ?_ ?_; on_goal 1 => (try unfold x); on_goal 2 => (intro hx; clear_value x))
    | extract_lets +onlyGivenNames x
    | split
    | refine Kept.of_snd ‹_› ?_
    | with_reducible apply Kept.set_bot)

def km_rollbackCommit : Nat := ob Obj.botRollback ||| pt.bot

theorem State.rollbackCommit_kept (s : State) : Kept km_rollbackCommit s s.rollbackCommit := by
  unfold State.rollbackCommit
  extract_lets v
  refine Kept.step (State.wr_kept _ _ _ _) (by decide +kernel) (Kept.set_bot (by decide +kernel) (fun h => ?_) (fun _ _ h => h) (Kept.refl ..))
  simp only [v]
  omega


def km_revokeKey : Nat := ob Obj.botKeys ||| pt.bot

theorem State.revokeKey_kept (s : State) (k : Nat) : Kept km_revokeKey s (s.revokeKey k) := by
  unfold State.revokeKey
  extract_lets v
  refine Kept.step (State.wr_kept _ _ _ _) (by decide +kernel) (Kept.set_bot (by decide +kernel) (fun h => ⟨Nat.le_refl _, h⟩) (fun i hi h => ?_) (Kept.refl ..))
  show ((s.bot.revoked ||| 2 ^ k) % 2 ^ 4).testBit i = true
  rw [Nat.testBit_mod_two_pow, Nat.testBit_or, h]
  simp [hi]


def km_writeKey : Nat := ob Obj.secKey ||| ob Obj.secKeyStatus ||| pt.bot

theorem State.writeKey_kept (s : State) (k : Nat) (v : Nat) : Kept km_writeKey s (State.writeKey s k v) := by
  unfold State.writeKey
  repeat' (first
    | with_reducible assumption
    | decide +kernel
    | with_reducible exact Kept.refl ..
    | with_reducible apply Kept.step (State.wr_kept _ _ _ _)
    | with_reducible apply Kept.step (State.setFld_kept _ _ _ _ _)
    | exact fun h => ⟨Nat.le_refl _, h⟩
    | exact fun _ _ h => h
    | (extract_lets +onlyGivenNames x; refine cutK (m := km_writeKey) (s := s) (x := x) ?_ ?_; on_goal 1 => (try unfold x); on_goal 2 => (intro hx; clear_value x))
    | extract_lets +onlyGivenNames x
    | split
    | refine Kept.of_snd ‹_› ?_
    | dsimp +zetaDelta only [id_eq]
    | with_reducible apply Kept.set_bot)

end Sys2Proof.Machine
end

