-- ==== Sys2Proof/Laws/KeptReads.lean ====
section
/-! SUPPORT. For every operation of Machine/Reads.lean the parts of the state that it may change. -/
set_option linter.unusedTactic false
set_option linter.unreachableTactic false
set_option linter.unusedVariables false
set_option linter.tactic.unusedName false
set_option Elab.async false
namespace Sys2Proof.Machine

def km_domainTaken : Nat := km_msgRecv ||| km_draw

theorem State.domainTaken_kept (s : State) (o : Nat) (el : Nat) : Kept km_domainTaken s (State.domainTaken s o el) := by
  unfold State.domainTaken
  repeat' (first
    | with_reducible assumption
    | decide +kernel
    | with_reducible exact Kept.refl ..
    | (with_reducible apply Kept.ite <;> intro _)
    | with_reducible apply Kept.step (State.msgRecv_kept _ _)
    | with_reducible apply Kept.step (State.draw_kept _)
    | (extract_lets +onlyGivenNames x; refine cutK (m := km_domainTaken) (s := s) (x := x) ?_ ?_; on_goal 1 => (try unfold x); on_goal 2 => (intro hx; clear_value x))
    | (extract_lets +onlyGivenNames x; refine cutK (m := km_domainTaken) (s := s) (x := x.2) ?_ ?_; on_goal 1 => (try unfold x); on_goal 2 => (intro hx; clear_value x))
    | extract_lets +onlyGivenNames x
    | split
    | refine Kept.of_snd ‹_› ?_)

end Sys2Proof.Machine
end

