-- ==== Sys2Proof/Laws/KeptCollector.lean ====
section
/-! SUPPORT. For every operation of Machine/Collector.lean the parts of the state that it may change. -/
set_option linter.unusedTactic false
set_option linter.unreachableTactic false
set_option linter.unusedVariables false
set_option linter.tactic.unusedName false
set_option Elab.async false
namespace Sys2Proof.Machine

def km_fcrParity : Nat := ob Obj.fcrReaction ||| km_checked ||| km_raiseAll

theorem State.fcrParity_kept (s : State) : Kept km_fcrParity s (State.fcrParity s) := by
  unfold State.fcrParity
  repeat' (first
    | with_reducible assumption
    | decide +kernel
    | with_reducible exact Kept.refl ..
    | with_reducible apply Kept.step (State.wr_kept _ _ _ _)
    | with_reducible apply Kept.step (State.checked_kept _ _ _)
    | with_reducible apply Kept.step (State.raiseAll_kept _ _ _)
    | (extract_lets +onlyGivenNames x; refine cutK (m := km_fcrParity) (s := s) (x := x) ?_ ?_; on_goal 1 => (try unfold x); on_goal 2 => (intro hx; clear_value x))
    | (extract_lets +onlyGivenNames x; refine cutK (m := km_fcrParity) (s := s) (x := x.2) ?_ ?_; on_goal 1 => (try unfold x); on_goal 2 => (intro hx; clear_value x))
    | extract_lets +onlyGivenNames x
    | split
    | refine Kept.of_snd ‹_› ?_)

def km_checkerActs : Nat := ob Obj.cccCounts ||| km_poolEcc ||| km_halt

theorem State.checkerActs_kept (s : State) (source inst master : Nat) : Kept km_checkerActs s (State.checkerActs s source inst master) := by
  unfold State.checkerActs
  repeat' (first
    | with_reducible assumption
    | decide +kernel
    | with_reducible exact Kept.refl ..
    | (with_reducible apply Kept.ite <;> intro _)
    | with_reducible apply Kept.step (State.poolEcc_kept _ _ _)
    | with_reducible apply Kept.step (State.count_kept _ _ _ _ _ _)
    | with_reducible apply Kept.step (State.halt_kept _ _)
    | split)

def km_execFaultRaise : Nat := km_fcrParity ||| km_checked ||| km_checkerActs ||| km_raise ||| km_frogAt ||| km_alsoUnder

theorem execFaultRaise_kept (source : Nat) (inst : Nat) (master : Nat) (access : Nat) (addr : Nat) (s : State) : KeptR km_execFaultRaise s (execFaultRaise source inst master access addr s) := by
  unfold execFaultRaise
  repeat' (first
    | with_reducible assumption
    | decide +kernel
    | with_reducible exact Kept.refl ..
    | (with_reducible apply KeptR.ite <;> intro _)
    | (with_reducible apply Kept.ite <;> intro _)
    | with_reducible refine KeptR.next ?_
    | with_reducible exact KeptR.fault
    | with_reducible apply Kept.step (State.fcrParity_kept _)
    | with_reducible apply Kept.step (State.checked_kept _ _ _)
    | with_reducible apply Kept.step (State.checkerActs_kept _ _ _ _)
    | with_reducible apply Kept.step (State.raise_kept _ _ _ _ _ _ _ _)
    | with_reducible apply Kept.step (State.frogAt_kept _ _ _ _)
    | with_reducible apply Kept.step (State.alsoUnder_kept _ _ _ _)
    | (extract_lets +onlyGivenNames x; refine cutK (m := km_execFaultRaise) (s := s) (x := x) ?_ ?_; on_goal 1 => (try unfold x); on_goal 2 => (intro hx; clear_value x))
    | (extract_lets +onlyGivenNames x; refine cutK (m := km_execFaultRaise) (s := s) (x := x.2) ?_ ?_; on_goal 1 => (try unfold x); on_goal 2 => (intro hx; clear_value x))
    | extract_lets +onlyGivenNames x
    | split
    | refine Kept.of_snd ‹_› ?_)

def km_execFcrParity : Nat := km_fcrParity

theorem execFcrParity_kept (s : State) : KeptR km_execFcrParity s (execFcrParity s) := by
  unfold execFcrParity
  repeat' (first
    | with_reducible assumption
    | decide +kernel
    | with_reducible exact Kept.refl ..
    | with_reducible refine KeptR.next ?_
    | with_reducible exact KeptR.fault
    | with_reducible apply Kept.step (State.fcrParity_kept _)
    | (extract_lets +onlyGivenNames x; refine cutK (m := km_execFcrParity) (s := s) (x := x) ?_ ?_; on_goal 1 => (try unfold x); on_goal 2 => (intro hx; clear_value x))
    | extract_lets +onlyGivenNames x
    | split
    | refine Kept.of_snd ‹_› ?_)

def km_invalidate : Nat := km_setResult

theorem State.invalidate_kept (s : State) (n : Nat) : Kept km_invalidate s (State.invalidate s n) := by
  unfold State.invalidate
  repeat' (first
    | with_reducible assumption
    | decide +kernel
    | with_reducible exact Kept.refl ..
    | with_reducible apply Kept.step (State.setResult_kept _ _ _ _)
    | with_reducible apply Kept.foldl
    | with_reducible refine fun (x : State) a hx => ?_
    | (extract_lets +onlyGivenNames x; refine cutK (m := km_invalidate) (s := s) (x := x) ?_ ?_; on_goal 1 => (try unfold x); on_goal 2 => (intro hx; clear_value x))
    | extract_lets +onlyGivenNames x
    | split
    | refine Kept.of_snd ‹_› ?_
    | dsimp +zetaDelta only [id_eq])

def km_reactNow : Nat := km_invalidate ||| km_frogAt ||| km_alsoUnder

theorem State.reactNow_kept (s : State) (r : Reaction) : Kept km_reactNow s (State.reactNow s r) := by
  unfold State.reactNow
  repeat' (first
    | with_reducible assumption
    | decide +kernel
    | with_reducible exact Kept.refl ..
    | (with_reducible apply Kept.ite <;> intro _)
    | with_reducible apply Kept.step (State.invalidate_kept _ _)
    | with_reducible apply Kept.step (State.frogAt_kept _ _ _ _)
    | with_reducible apply Kept.step (State.alsoUnder_kept _ _ _ _)
    | with_reducible apply Kept.foldl
    | with_reducible refine fun (x : State) a hx => ?_
    | (extract_lets +onlyGivenNames x; refine cutK (m := km_reactNow) (s := s) (x := x) ?_ ?_; on_goal 1 => (try unfold x); on_goal 2 => (intro hx; clear_value x))
    | extract_lets +onlyGivenNames x
    | split
    | refine Kept.of_snd ‹_› ?_
    | dsimp +zetaDelta only [id_eq])

def km_runFaultReaction : Nat := pt.fcr ||| km_reach ||| km_reactNow

theorem runFaultReaction_kept (s : State) : KeptR km_runFaultReaction s (runFaultReaction s) := by
  unfold runFaultReaction
  repeat' (first
    | with_reducible assumption
    | decide +kernel
    | with_reducible exact Kept.refl ..
    | (with_reducible apply KeptR.ite <;> intro _)
    | (with_reducible apply Kept.ite <;> intro _)
    | with_reducible refine KeptR.next ?_
    | with_reducible exact KeptR.fault
    | with_reducible apply Kept.step (State.reach_kept _ _)
    | with_reducible apply Kept.step (State.reactNow_kept _ _)
    | with_reducible apply Kept.foldl
    | with_reducible refine fun (x : State) a hx => ?_
    | (extract_lets +onlyGivenNames x; refine cutK (m := km_runFaultReaction) (s := s) (x := x) ?_ ?_; on_goal 1 => (try unfold x); on_goal 2 => (intro hx; clear_value x))
    | extract_lets +onlyGivenNames x
    | split
    | refine Kept.of_snd ‹_› ?_
    | dsimp +zetaDelta only [id_eq]
    | with_reducible apply Kept.set_fcr)

def km_clearFault : Nat := ob Obj.fcrActive ||| pt.fcr ||| km_fcrCount

theorem State.clearFault_kept (s : State) (src : Nat) : Kept km_clearFault s (State.clearFault s src) := by
  unfold State.clearFault
  repeat' (first
    | with_reducible assumption
    | decide +kernel
    | with_reducible exact Kept.refl ..
    | (with_reducible apply Kept.ite <;> intro _)
    | with_reducible apply Kept.step (State.wr_kept _ _ _ _)
    | with_reducible apply Kept.step (State.fcrCount_kept _ _ _)
    | (extract_lets +onlyGivenNames x; refine cutK (m := km_clearFault) (s := s) (x := x) ?_ ?_; on_goal 1 => (try unfold x); on_goal 2 => (intro hx; clear_value x))
    | extract_lets +onlyGivenNames x
    | split
    | refine Kept.of_snd ‹_› ?_
    | dsimp +zetaDelta only [id_eq]
    | with_reducible apply Kept.set_fcr)

def km_clearAll : Nat := km_clearFault

theorem State.clearAll_kept (s : State) : Kept km_clearAll s (State.clearAll s).2 := by
  unfold State.clearAll
  repeat' (first
    | with_reducible assumption
    | decide +kernel
    | with_reducible exact Kept.refl ..
    | (with_reducible apply Kept.ite <;> intro _)
    | (with_reducible apply Kept.ite2 <;> intro _)
    | with_reducible apply Kept.step (State.clearFault_kept _ _)
    | with_reducible apply Kept.foldl
    | with_reducible refine fun (x : State) a hx => ?_
    | (extract_lets +onlyGivenNames x; refine cutK (m := km_clearAll) (s := s) (x := x) ?_ ?_; on_goal 1 => (try unfold x); on_goal 2 => (intro hx; clear_value x))
    | extract_lets +onlyGivenNames x
    | split
    | refine Kept.of_snd ‹_› ?_
    | dsimp +zetaDelta only [id_eq])

def km_execFcrRecovered : Nat := ob Obj.fcrRecoveries ||| km_reach ||| km_clearFault ||| km_latch

theorem execFcrRecovered_kept (source : Nat) (s : State) : KeptR km_execFcrRecovered s (execFcrRecovered source s) := by
  unfold execFcrRecovered
  repeat' (first
    | with_reducible assumption
    | decide +kernel
    | with_reducible exact Kept.refl ..
    | (with_reducible apply KeptR.ite <;> intro _)
    | (with_reducible apply Kept.ite <;> intro _)
    | with_reducible refine KeptR.next ?_
    | with_reducible exact KeptR.fault
    | with_reducible apply Kept.step (State.count_kept _ _ _ _ _ _)
    | with_reducible apply Kept.step (State.reach_kept _ _)
    | with_reducible apply Kept.step (State.clearFault_kept _ _)
    | with_reducible apply Kept.step (State.latch_kept _ _)
    | (extract_lets +onlyGivenNames x; refine cutK (m := km_execFcrRecovered) (s := s) (x := x) ?_ ?_; on_goal 1 => (try unfold x); on_goal 2 => (intro hx; clear_value x))
    | extract_lets +onlyGivenNames x
    | split
    | refine Kept.of_snd ‹_› ?_
    | dsimp +zetaDelta only [id_eq])

def km_firstClear : Nat := ob Obj.fcrFirst

theorem State.firstClear_kept (s : State) : Kept km_firstClear s (State.firstClear s) := by
  unfold State.firstClear
  repeat' (first
    | with_reducible assumption
    | decide +kernel
    | with_reducible exact Kept.refl ..
    | with_reducible apply Kept.step (State.setFld_kept _ _ _ _ _)
    | with_reducible apply Kept.foldl
    | with_reducible refine fun (x : State) a hx => ?_
    | (extract_lets +onlyGivenNames x; refine cutK (m := km_firstClear) (s := s) (x := x) ?_ ?_; on_goal 1 => (try unfold x); on_goal 2 => (intro hx; clear_value x))
    | extract_lets +onlyGivenNames x
    | split
    | refine Kept.of_snd ‹_› ?_
    | dsimp +zetaDelta only [id_eq])

def km_inject : Nat := ob Obj.fcrInject ||| pt.fcr

theorem State.inject_kept (s : State) (v : Nat) : Kept km_inject s (State.inject s v) := by
  unfold State.inject
  repeat' (first
    | with_reducible assumption
    | decide +kernel
    | with_reducible exact Kept.refl ..
    | (with_reducible apply Kept.ite <;> intro _)
    | with_reducible apply Kept.step (State.wr_kept _ _ _ _)
    | (extract_lets +onlyGivenNames x; refine cutK (m := km_inject) (s := s) (x := x) ?_ ?_; on_goal 1 => (try unfold x); on_goal 2 => (intro hx; clear_value x))
    | extract_lets +onlyGivenNames x
    | split
    | refine Kept.of_snd ‹_› ?_
    | with_reducible apply Kept.set_fcr)

def km_addSummary : Nat := pt.bot

theorem State.addSummary_kept (s : State) (b : Bytes) : Kept km_addSummary s (State.addSummary s b) := by
  unfold State.addSummary
  repeat' (first
    | with_reducible assumption
    | decide +kernel
    | with_reducible exact Kept.refl ..
    | exact fun h => ⟨Nat.le_refl _, h⟩
    | exact fun _ _ h => h
    | (extract_lets +onlyGivenNames x; refine cutK (m := km_addSummary) (s := s) (x := x) ?_ ?_; on_goal 1 => (try unfold x); on_goal 2 => (intro hx; clear_value x))
    | extract_lets +onlyGivenNames x
    | split
    | refine Kept.of_snd ‹_› ?_
    | with_reducible apply Kept.set_bot)

def km_execDumpEntry : Nat := ob Obj.dmpStatus

theorem execDumpEntry_kept (s : State) : KeptR km_execDumpEntry s (execDumpEntry s) := by
  unfold execDumpEntry
  repeat' (first
    | with_reducible assumption
    | decide +kernel
    | with_reducible exact Kept.refl ..
    | (with_reducible apply KeptR.ite <;> intro _)
    | (with_reducible apply Kept.ite <;> intro _)
    | with_reducible refine KeptR.next ?_
    | with_reducible exact KeptR.fault
    | with_reducible apply Kept.step (State.setFld_kept _ _ _ _ _)
    | (extract_lets +onlyGivenNames x; refine cutK (m := km_execDumpEntry) (s := s) (x := x) ?_ ?_; on_goal 1 => (try unfold x); on_goal 2 => (intro hx; clear_value x))
    | extract_lets +onlyGivenNames x
    | split
    | refine Kept.of_snd ‹_› ?_
    | dsimp +zetaDelta only [id_eq])

def km_execDmpReady : Nat := ob Obj.dmpStatus ||| km_setImg ||| km_addSummary ||| km_latch

theorem execDmpReady_kept (body : Bytes) (s : State) : KeptR km_execDmpReady s (execDmpReady body s) := by
  unfold execDmpReady
  repeat' (first
    | with_reducible assumption
    | decide +kernel
    | with_reducible exact Kept.refl ..
    | (with_reducible apply KeptR.ite <;> intro _)
    | (with_reducible apply Kept.ite <;> intro _)
    | with_reducible refine KeptR.next ?_
    | with_reducible exact KeptR.fault
    | with_reducible apply Kept.step (State.setFld_kept _ _ _ _ _)
    | with_reducible apply Kept.step (State.setImg_kept _ _ _ _)
    | with_reducible apply Kept.step (State.addSummary_kept _ _)
    | with_reducible apply Kept.step (State.latch_kept _ _)
    | (extract_lets +onlyGivenNames x; refine cutK (m := km_execDmpReady) (s := s) (x := x) ?_ ?_; on_goal 1 => (try unfold x); on_goal 2 => (intro hx; clear_value x))
    | extract_lets +onlyGivenNames x
    | split
    | refine Kept.of_snd ‹_› ?_)

def km_dmpClear : Nat := ob Obj.dmpStatus ||| pt.trans ||| km_setImg

theorem State.dmpClear_kept (s : State) : Kept km_dmpClear s (State.dmpClear s) := by
  unfold State.dmpClear
  repeat' (first
    | with_reducible assumption
    | decide +kernel
    | with_reducible exact Kept.refl ..
    | with_reducible apply Kept.step (State.setFld_kept _ _ _ _ _)
    | with_reducible apply Kept.step (State.setImg_kept _ _ _ _)
    | (extract_lets +onlyGivenNames x; refine cutK (m := km_dmpClear) (s := s) (x := x) ?_ ?_; on_goal 1 => (try unfold x); on_goal 2 => (intro hx; clear_value x))
    | extract_lets +onlyGivenNames x
    | split
    | refine Kept.of_snd ‹_› ?_
    | with_reducible apply Kept.set_trans)

def km_summaryClear : Nat := pt.bot

theorem State.summaryClear_kept (s : State) : Kept km_summaryClear s (State.summaryClear s) := by
  unfold State.summaryClear
  repeat' (first
    | with_reducible assumption
    | decide +kernel
    | with_reducible exact Kept.refl ..
    | exact fun h => ⟨Nat.le_refl _, h⟩
    | exact fun _ _ h => h
    | (extract_lets +onlyGivenNames x; refine cutK (m := km_summaryClear) (s := s) (x := x) ?_ ?_; on_goal 1 => (try unfold x); on_goal 2 => (intro hx; clear_value x))
    | extract_lets +onlyGivenNames x
    | split
    | refine Kept.of_snd ‹_› ?_
    | with_reducible apply Kept.set_bot)

end Sys2Proof.Machine
end

