-- ==== Sys2Proof/Laws/KeptDomains.lean ====
section
/-! SUPPORT. For every operation of Machine/Domains.lean the parts of the state that it may change. -/
set_option linter.unusedTactic false
set_option linter.unreachableTactic false
set_option linter.unusedVariables false
set_option linter.tactic.unusedName false
set_option Elab.async false
namespace Sys2Proof.Machine

def km_setRoles : Nat := ob Obj.cccRoles

theorem State.setRoles_kept (s : State) : Kept km_setRoles s (State.setRoles s) := by
  unfold State.setRoles
  repeat' (first
    | with_reducible assumption
    | decide +kernel
    | with_reducible exact Kept.refl ..
    | (with_reducible apply Kept.ite <;> intro _)
    | with_reducible apply Kept.step (State.setFld_kept _ _ _ _ _)
    | (extract_lets +onlyGivenNames x; refine cutK (m := km_setRoles) (s := s) (x := x) ?_ ?_; on_goal 1 => (try unfold x); on_goal 2 => (intro hx; clear_value x))
    | extract_lets +onlyGivenNames x
    | split
    | refine Kept.of_snd ‹_› ?_)

def km_coreOff : Nat := ob Obj.cccState ||| km_complete ||| km_setCore

theorem State.coreOff_kept (s : State) (c : Nat) : Kept km_coreOff s (State.coreOff s c) := by
  unfold State.coreOff
  repeat' (first
    | with_reducible assumption
    | decide +kernel
    | with_reducible exact Kept.refl ..
    | with_reducible apply Kept.step (State.wr_kept _ _ _ _)
    | with_reducible apply Kept.step (State.complete_kept _ _)
    | with_reducible apply Kept.step (State.setCore_kept _ _ _)
    | (extract_lets +onlyGivenNames x; refine cutK (m := km_coreOff) (s := s) (x := x) ?_ ?_; on_goal 1 => (try unfold x); on_goal 2 => (intro hx; clear_value x))
    | extract_lets +onlyGivenNames x
    | split
    | refine Kept.of_snd ‹_› ?_)

def km_stackOff : Nat := pt.mem ||| pt.wdpTrace ||| pt.hms ||| km_chartDelete ||| km_waveDelete ||| km_setNdl ||| km_setStack

theorem State.stackOff_kept (s : State) (k : Nat) : Kept km_stackOff s (State.stackOff s k) := by
  unfold State.stackOff
  repeat' (first
    | with_reducible assumption
    | decide +kernel
    | with_reducible exact Kept.refl ..
    | with_reducible apply Kept.step (State.chartDelete_kept _ _)
    | with_reducible apply Kept.step (State.waveDelete_kept _ _)
    | with_reducible apply Kept.step (State.setNdl_kept _ _ _)
    | with_reducible apply Kept.step (State.setStack_kept _ _ _)
    | exact Memory.writeAll_wf _ _
    | exact Tbl.filter_wf _
    | with_reducible apply Kept.foldl
    | with_reducible refine fun (x : State) a hx => ?_
    | (extract_lets +onlyGivenNames x; refine cutK (m := km_stackOff) (s := s) (x := x) ?_ ?_; on_goal 1 => (try unfold x); on_goal 2 => (intro hx; clear_value x))
    | extract_lets +onlyGivenNames x
    | split
    | refine Kept.of_snd ‹_› ?_
    | dsimp +zetaDelta only [id_eq]
    | with_reducible apply Kept.set_mem_wdpTrace_hms)

def km_pinOff : Nat := ob Obj.ptfPinState ||| km_setPin

theorem State.pinOff_kept (s : State) (p : Nat) : Kept km_pinOff s (State.pinOff s p) := by
  unfold State.pinOff
  repeat' (first
    | with_reducible assumption
    | decide +kernel
    | with_reducible exact Kept.refl ..
    | with_reducible apply Kept.step (State.wr_kept _ _ _ _)
    | with_reducible apply Kept.step (State.setPin_kept _ _ _)
    | (extract_lets +onlyGivenNames x; refine cutK (m := km_pinOff) (s := s) (x := x) ?_ ?_; on_goal 1 => (try unfold x); on_goal 2 => (intro hx; clear_value x))
    | extract_lets +onlyGivenNames x
    | split
    | refine Kept.of_snd ‹_› ?_)

def km_domainOff : Nat := ob Obj.ndlState ||| ob Obj.splState ||| pt.psm ||| km_setDomain ||| km_pinOff ||| km_emit ||| km_stackOff ||| km_portTrain ||| km_cslOff ||| km_coreOff ||| km_setRoles ||| km_rasStopAll ||| km_loopOff ||| km_tmuAbandon ||| km_calPause

theorem State.domainOff_kept (s : State) (pd : Nat) : Kept km_domainOff s (State.domainOff s pd) := by
  unfold State.domainOff
  repeat' (first
    | with_reducible assumption
    | decide +kernel
    | with_reducible exact Kept.refl ..
    | (with_reducible apply Kept.ite <;> intro _)
    | with_reducible apply Kept.step (State.wr_kept _ _ _ _)
    | with_reducible apply Kept.step (State.wrAll_kept _ _ _ _)
    | with_reducible apply Kept.step (State.setDomain_kept _ _ _)
    | with_reducible apply Kept.step (State.pinOff_kept _ _)
    | with_reducible apply Kept.step (State.emit_kept _ _)
    | with_reducible apply Kept.step (State.stackOff_kept _ _)
    | with_reducible apply Kept.step (State.portTrain_kept _ _)
    | with_reducible apply Kept.step (State.cslOff_kept _)
    | with_reducible apply Kept.step (State.coreOff_kept _ _)
    | with_reducible apply Kept.step (State.setRoles_kept _)
    | with_reducible apply Kept.step (State.rasStopAll_kept _)
    | with_reducible apply Kept.step (State.loopOff_kept _ _)
    | with_reducible apply Kept.step (State.tmuAbandon_kept _)
    | with_reducible apply Kept.step (State.calPause_kept _)
    | with_reducible apply Kept.foldl
    | with_reducible refine fun (x : State) a hx => ?_
    | (extract_lets +onlyGivenNames x; refine cutK (m := km_domainOff) (s := s) (x := x) ?_ ?_; on_goal 1 => (try unfold x); on_goal 2 => (intro hx; clear_value x))
    | extract_lets +onlyGivenNames x
    | split
    | refine Kept.of_snd ‹_› ?_
    | dsimp +zetaDelta only [id_eq]
    | with_reducible apply Kept.set_psm)

def km_domainPower : Nat := ob Obj.cccState ||| pt.psm ||| km_setDomain ||| km_setStack

theorem State.domainPower_kept (s : State) (pd : Nat) : Kept km_domainPower s (State.domainPower s pd) := by
  unfold State.domainPower
  repeat' (first
    | with_reducible assumption
    | decide +kernel
    | with_reducible exact Kept.refl ..
    | (with_reducible apply Kept.ite <;> intro _)
    | with_reducible apply Kept.step (State.wrAll_kept _ _ _ _)
    | with_reducible apply Kept.step (State.setDomain_kept _ _ _)
    | with_reducible apply Kept.step (State.setStack_kept _ _ _)
    | (extract_lets +onlyGivenNames x; refine cutK (m := km_domainPower) (s := s) (x := x) ?_ ?_; on_goal 1 => (try unfold x); on_goal 2 => (intro hx; clear_value x))
    | extract_lets +onlyGivenNames x
    | split
    | refine Kept.of_snd ‹_› ?_
    | dsimp +zetaDelta only [id_eq]
    | with_reducible apply Kept.set_psm)

def km_pinUp : Nat := ob Obj.ptfPinState ||| km_measPin ||| km_castOn

theorem State.pinUp_kept (s : State) (p : Nat) : Kept km_pinUp s (State.pinUp s p) := by
  unfold State.pinUp
  repeat' (first
    | with_reducible assumption
    | decide +kernel
    | with_reducible exact Kept.refl ..
    | (with_reducible apply Kept.ite <;> intro _)
    | with_reducible apply Kept.step (State.wr_kept _ _ _ _)
    | with_reducible apply Kept.step (State.measPin_kept _ _ _ _)
    | with_reducible apply Kept.step (State.castOn_kept _ _ _)
    | (extract_lets +onlyGivenNames x; refine cutK (m := km_pinUp) (s := s) (x := x) ?_ ?_; on_goal 1 => (try unfold x); on_goal 2 => (intro hx; clear_value x))
    | extract_lets +onlyGivenNames x
    | split
    | refine Kept.of_snd ‹_› ?_
    | dsimp +zetaDelta only [id_eq])

def km_domainUp : Nat := ob Obj.cccState ||| ob Obj.hlkModule ||| ob Obj.ndlState ||| ob Obj.splState ||| pt.psm ||| km_setDomain ||| km_pinUp ||| km_emit ||| km_portTrain ||| km_cslStart ||| km_setRoles ||| km_adcStart

theorem State.domainUp_kept (s : State) (pd : Nat) : Kept km_domainUp s (State.domainUp s pd) := by
  unfold State.domainUp
  repeat' (first
    | with_reducible assumption
    | decide +kernel
    | with_reducible exact Kept.refl ..
    | (with_reducible apply Kept.ite <;> intro _)
    | with_reducible apply Kept.step (State.setFld_kept _ _ _ _ _)
    | with_reducible apply Kept.step (State.wrAll_kept _ _ _ _)
    | with_reducible apply Kept.step (State.setDomain_kept _ _ _)
    | with_reducible apply Kept.step (State.pinUp_kept _ _)
    | with_reducible apply Kept.step (State.emit_kept _ _)
    | with_reducible apply Kept.step (State.adcStart_kept _)
    | with_reducible apply Kept.step (State.portTrain_kept _ _)
    | with_reducible apply Kept.step (State.cslStart_kept _)
    | with_reducible apply Kept.step (State.setRoles_kept _)
    | with_reducible apply Kept.foldl
    | with_reducible refine fun (x : State) a hx => ?_
    | (extract_lets +onlyGivenNames x; refine cutK (m := km_domainUp) (s := s) (x := x) ?_ ?_; on_goal 1 => (try unfold x); on_goal 2 => (intro hx; clear_value x))
    | extract_lets +onlyGivenNames x
    | split
    | refine Kept.of_snd ‹_› ?_
    | dsimp +zetaDelta only [id_eq]
    | with_reducible apply Kept.set_psm)

def km_domainReq : Nat := ob Obj.psmDomainReq ||| km_setDomain ||| km_domainPower

theorem State.domainReq_kept (s : State) (v : Nat) : Kept km_domainReq s (State.domainReq s v) := by
  unfold State.domainReq
  repeat' (first
    | with_reducible assumption
    | decide +kernel
    | with_reducible exact Kept.refl ..
    | with_reducible apply Kept.step (State.wr_kept _ _ _ _)
    | with_reducible apply Kept.step (State.setDomain_kept _ _ _)
    | with_reducible apply Kept.step (State.domainPower_kept _ _)
    | with_reducible apply Kept.foldl
    | with_reducible refine fun (x : State) a hx => ?_
    | (extract_lets +onlyGivenNames x; refine cutK (m := km_domainReq) (s := s) (x := x) ?_ ?_; on_goal 1 => (try unfold x); on_goal 2 => (intro hx; clear_value x))
    | extract_lets +onlyGivenNames x
    | split
    | refine Kept.of_snd ‹_› ?_
    | dsimp +zetaDelta only [id_eq])

def km_runDomainSwitchDone : Nat := pt.psm ||| km_domainUp ||| km_reach ||| km_setDomain ||| km_raiseAll ||| km_domainOff

theorem runDomainSwitchDone_kept (pd : Nat) (ok : Bool) (s : State) : KeptR km_runDomainSwitchDone s (runDomainSwitchDone pd ok s) := by
  unfold runDomainSwitchDone
  repeat' (first
    | with_reducible assumption
    | decide +kernel
    | with_reducible exact Kept.refl ..
    | (with_reducible apply KeptR.ite <;> intro _)
    | (with_reducible apply Kept.ite <;> intro _)
    | with_reducible refine KeptR.next ?_
    | with_reducible exact KeptR.fault
    | with_reducible apply Kept.step (State.domainUp_kept _ _)
    | with_reducible apply Kept.step (State.reach_kept _ _)
    | with_reducible apply Kept.step (State.setDomain_kept _ _ _)
    | with_reducible apply Kept.step (State.raiseAll_kept _ _ _)
    | with_reducible apply Kept.step (State.domainOff_kept _ _)
    | (extract_lets +onlyGivenNames x; refine cutK (m := km_runDomainSwitchDone) (s := s) (x := x) ?_ ?_; on_goal 1 => (try unfold x); on_goal 2 => (intro hx; clear_value x))
    | extract_lets +onlyGivenNames x
    | split
    | refine Kept.of_snd ‹_› ?_
    | dsimp +zetaDelta only [id_eq]
    | with_reducible apply Kept.set_psm)

def km_enterDoze : Nat := km_domainOff ||| km_tmuAbandon ||| km_selfRefresh

theorem State.enterDoze_kept (s : State) : Kept km_enterDoze s (State.enterDoze s) := by
  unfold State.enterDoze
  repeat' (first
    | with_reducible assumption
    | decide +kernel
    | with_reducible exact Kept.refl ..
    | with_reducible apply Kept.step (State.domainOff_kept _ _)
    | with_reducible apply Kept.step (State.tmuAbandon_kept _)
    | with_reducible apply Kept.step (State.selfRefresh_kept _ _)
    | with_reducible apply Kept.foldl
    | with_reducible refine fun (x : State) a hx => ?_
    | (extract_lets +onlyGivenNames x; refine cutK (m := km_enterDoze) (s := s) (x := x) ?_ ?_; on_goal 1 => (try unfold x); on_goal 2 => (intro hx; clear_value x))
    | extract_lets +onlyGivenNames x
    | split
    | refine Kept.of_snd ‹_› ?_)

def km_leaveDoze : Nat := km_domainPower

theorem State.leaveDoze_kept (s : State) : Kept km_leaveDoze s (State.leaveDoze s) := by
  unfold State.leaveDoze
  repeat' (first
    | with_reducible assumption
    | decide +kernel
    | with_reducible exact Kept.refl ..
    | (with_reducible apply Kept.ite <;> intro _)
    | with_reducible apply Kept.step (State.domainPower_kept _ _)
    | with_reducible apply Kept.foldl
    | with_reducible refine fun (x : State) a hx => ?_
    | (extract_lets +onlyGivenNames x; refine cutK (m := km_leaveDoze) (s := s) (x := x) ?_ ?_; on_goal 1 => (try unfold x); on_goal 2 => (intro hx; clear_value x))
    | extract_lets +onlyGivenNames x
    | split
    | refine Kept.of_snd ‹_› ?_
    | dsimp +zetaDelta only [id_eq])

end Sys2Proof.Machine
end

