-- ==== Sys2Proof/Laws/KeptModes.lean ====
section
/-! SUPPORT. For every operation of Machine/Modes.lean the parts of the state that it may change. -/
set_option linter.unusedTactic false
set_option linter.unreachableTactic false
set_option linter.unusedVariables false
set_option linter.tactic.unusedName false
set_option Elab.async false
namespace Sys2Proof.Machine

def km_frogAll : Nat := km_setNdl

theorem State.frogAll_kept (s : State) (a : Nat) : Kept km_frogAll s (State.frogAll s a) := by
  unfold State.frogAll
  repeat' (first
    | with_reducible assumption
    | decide +kernel
    | with_reducible exact Kept.refl ..
    | with_reducible apply Kept.step (State.setNdl_kept _ _ _)
    | with_reducible apply Kept.foldl
    | with_reducible refine fun (x : State) a hx => ?_
    | (extract_lets +onlyGivenNames x; refine cutK (m := km_frogAll) (s := s) (x := x) ?_ ?_; on_goal 1 => (try unfold x); on_goal 2 => (intro hx; clear_value x))
    | extract_lets +onlyGivenNames x
    | split
    | refine Kept.of_snd ‹_› ?_
    | dsimp +zetaDelta only [id_eq])

def km_freezeAll : Nat := km_setNdl

theorem State.freezeAll_kept (s : State) (a : Nat) : Kept km_freezeAll s (State.freezeAll s a) := by
  unfold State.freezeAll
  repeat' (first
    | with_reducible assumption
    | decide +kernel
    | with_reducible exact Kept.refl ..
    | with_reducible apply Kept.step (State.setNdl_kept _ _ _)
    | with_reducible apply Kept.foldl
    | with_reducible refine fun (x : State) a hx => ?_
    | (extract_lets +onlyGivenNames x; refine cutK (m := km_freezeAll) (s := s) (x := x) ?_ ?_; on_goal 1 => (try unfold x); on_goal 2 => (intro hx; clear_value x))
    | extract_lets +onlyGivenNames x
    | split
    | refine Kept.of_snd ‹_› ?_
    | dsimp +zetaDelta only [id_eq])

def km_safeNow : Nat := pt.fcr ||| km_scheduleEntry

theorem State.safeNow_kept (s : State) (reason : Nat) : Kept km_safeNow s (State.safeNow s reason) := by
  unfold State.safeNow
  repeat' (first
    | with_reducible assumption
    | decide +kernel
    | with_reducible exact Kept.refl ..
    | (with_reducible apply Kept.ite <;> intro _)
    | with_reducible apply Kept.step (State.scheduleEntry_kept _ _ _ _ _)
    | (extract_lets +onlyGivenNames x; refine cutK (m := km_safeNow) (s := s) (x := x) ?_ ?_; on_goal 1 => (try unfold x); on_goal 2 => (intro hx; clear_value x))
    | extract_lets +onlyGivenNames x
    | split
    | refine Kept.of_snd ‹_› ?_
    | with_reducible apply Kept.set_fcr)

def km_pend : Nat := km_setTrans ||| km_timedCheck

theorem State.pend_kept (s : State) (m : Mode) (v : Nat) (due : Option Nat) : Kept km_pend s (State.pend s m v due) := by
  unfold State.pend
  repeat' (first
    | with_reducible assumption
    | decide +kernel
    | with_reducible exact Kept.refl ..
    | with_reducible apply Kept.step (State.setTrans_kept _ _)
    | with_reducible apply Kept.step (State.timedCheck_kept _)
    | (extract_lets +onlyGivenNames x; refine cutK (m := km_pend) (s := s) (x := x) ?_ ?_; on_goal 1 => (try unfold x); on_goal 2 => (intro hx; clear_value x))
    | extract_lets +onlyGivenNames x
    | split
    | refine Kept.of_snd ‹_› ?_)

def km_requestMode : Nat := ob Obj.plcState ||| pt.safeWanted ||| km_safeNow ||| km_freezeAll ||| km_pend ||| km_holdCheck ||| km_frogAll ||| km_dropTimedStart ||| km_setPlc ||| km_leaveDoze

theorem State.requestMode_kept (s : State) (v : Nat) : Kept km_requestMode s (State.requestMode s v) := by
  unfold State.requestMode
  repeat' (first
    | with_reducible assumption
    | decide +kernel
    | with_reducible exact Kept.refl ..
    | (with_reducible apply Kept.ite <;> intro _)
    | with_reducible apply Kept.step (State.wr_kept _ _ _ _)
    | with_reducible apply Kept.step (State.safeNow_kept _ _)
    | with_reducible apply Kept.step (State.freezeAll_kept _ _)
    | with_reducible apply Kept.step (State.pend_kept _ _ _ _)
    | with_reducible apply Kept.step (State.holdCheck_kept _)
    | with_reducible apply Kept.step (State.frogAll_kept _ _)
    | with_reducible apply Kept.step (State.dropTimedStart_kept _)
    | with_reducible apply Kept.step (State.setPlc_kept _ _)
    | with_reducible apply Kept.step (State.leaveDoze_kept _)
    | (extract_lets +onlyGivenNames x; refine cutK (m := km_requestMode) (s := s) (x := x) ?_ ?_; on_goal 1 => (try unfold x); on_goal 2 => (intro hx; clear_value x))
    | extract_lets +onlyGivenNames x
    | split
    | refine Kept.of_snd ‹_› ?_
    | with_reducible apply Kept.set_safeWanted)

def km_needlesIdle : Nat := ob Obj.ndlState

theorem State.needlesIdle_kept (s : State) : Kept km_needlesIdle s (State.needlesIdle s) := by
  unfold State.needlesIdle
  repeat' (first
    | with_reducible assumption
    | decide +kernel
    | with_reducible exact Kept.refl ..
    | (with_reducible apply Kept.ite <;> intro _)
    | with_reducible apply Kept.step (State.wr_kept _ _ _ _)
    | with_reducible apply Kept.foldl
    | with_reducible refine fun (x : State) a hx => ?_
    | (extract_lets +onlyGivenNames x; refine cutK (m := km_needlesIdle) (s := s) (x := x) ?_ ?_; on_goal 1 => (try unfold x); on_goal 2 => (intro hx; clear_value x))
    | extract_lets +onlyGivenNames x
    | split
    | refine Kept.of_snd ‹_› ?_
    | dsimp +zetaDelta only [id_eq])

def km_unplace : Nat := ob Obj.strState ||| km_flushRing ||| km_rasStopAll ||| km_calPause ||| km_releasePlacement ||| km_needlesIdle

theorem State.unplace_kept (s : State) : Kept km_unplace s (State.unplace s) := by
  unfold State.unplace
  repeat' (first
    | with_reducible assumption
    | decide +kernel
    | with_reducible exact Kept.refl ..
    | (with_reducible apply Kept.ite <;> intro _)
    | with_reducible apply Kept.step (State.wr_kept _ _ _ _)
    | with_reducible apply Kept.step (State.flushRing_kept _ _)
    | with_reducible apply Kept.step (State.rasStopAll_kept _)
    | with_reducible apply Kept.step (State.calPause_kept _)
    | with_reducible apply Kept.step (State.releasePlacement_kept _)
    | with_reducible apply Kept.step (State.needlesIdle_kept _)
    | with_reducible apply Kept.foldl
    | with_reducible refine fun (x : State) a hx => ?_
    | (extract_lets +onlyGivenNames x; refine cutK (m := km_unplace) (s := s) (x := x) ?_ ?_; on_goal 1 => (try unfold x); on_goal 2 => (intro hx; clear_value x))
    | extract_lets +onlyGivenNames x
    | split
    | refine Kept.of_snd ‹_› ?_
    | dsimp +zetaDelta only [id_eq])

def km_frogsDue : Nat := km_frogAt ||| km_alsoUnder

theorem State.frogsDue_kept (s : State) (t : Nat) : Kept km_frogsDue s (State.frogsDue s t) := by
  unfold State.frogsDue
  repeat' (first
    | with_reducible assumption
    | decide +kernel
    | with_reducible exact Kept.refl ..
    | (with_reducible apply Kept.ite <;> intro _)
    | with_reducible apply Kept.step (State.frogAt_kept _ _ _ _)
    | with_reducible apply Kept.step (State.alsoUnder_kept _ _ _ _)
    | with_reducible apply Kept.foldl
    | with_reducible refine fun (x : State) a hx => ?_
    | (extract_lets +onlyGivenNames x; refine cutK (m := km_frogsDue) (s := s) (x := x) ?_ ?_; on_goal 1 => (try unfold x); on_goal 2 => (intro hx; clear_value x))
    | extract_lets +onlyGivenNames x
    | split
    | refine Kept.of_snd ‹_› ?_
    | dsimp +zetaDelta only [id_eq])

def km_wakeStacks : Nat := km_setStack

theorem State.wakeStacks_kept (s : State) : Kept km_wakeStacks s (State.wakeStacks s) := by
  unfold State.wakeStacks
  repeat' (first
    | with_reducible assumption
    | decide +kernel
    | with_reducible exact Kept.refl ..
    | (with_reducible apply Kept.ite <;> intro _)
    | with_reducible apply Kept.step (State.setStack_kept _ _ _)
    | with_reducible apply Kept.foldl
    | with_reducible refine fun (x : State) a hx => ?_
    | (extract_lets +onlyGivenNames x; refine cutK (m := km_wakeStacks) (s := s) (x := x) ?_ ?_; on_goal 1 => (try unfold x); on_goal 2 => (intro hx; clear_value x))
    | extract_lets +onlyGivenNames x
    | split
    | refine Kept.of_snd ‹_› ?_
    | dsimp +zetaDelta only [id_eq])

def km_arrive : Nat := pt.trans ||| km_bootAsked ||| km_wakeStacks ||| km_leaveMeasure ||| km_tmuAbandon ||| km_fullAbandon ||| km_parkRest ||| km_enter ||| km_unplace ||| km_enterDoze ||| km_enterMeasure ||| km_needlesIdle ||| km_fullStart ||| km_arriveArmed

theorem State.arrive_kept (s : State) (x : Trans) : Kept km_arrive s (State.arrive s x) := by
  unfold State.arrive
  repeat' (first
    | with_reducible assumption
    | decide +kernel
    | with_reducible exact Kept.refl ..
    | (with_reducible apply Kept.ite <;> intro _)
    | with_reducible apply Kept.step (State.bootAsked_kept _ _ _ _)
    | with_reducible apply Kept.step (State.wakeStacks_kept _)
    | with_reducible apply Kept.step (State.leaveMeasure_kept _)
    | with_reducible apply Kept.step (State.tmuAbandon_kept _)
    | with_reducible apply Kept.step (State.fullAbandon_kept _)
    | with_reducible apply Kept.step (State.parkRest_kept _)
    | with_reducible apply Kept.step (State.enter_kept _ _ _ _)
    | with_reducible apply Kept.step (State.unplace_kept _)
    | with_reducible apply Kept.step (State.enterDoze_kept _)
    | with_reducible apply Kept.step (State.enterMeasure_kept _)
    | with_reducible apply Kept.step (State.needlesIdle_kept _)
    | with_reducible apply Kept.step (State.fullStart_kept _)
    | with_reducible apply Kept.step (State.arriveArmed_kept _ _ _)
    | (extract_lets +onlyGivenNames x; refine cutK (m := km_arrive) (s := s) (x := x) ?_ ?_; on_goal 1 => (try unfold x); on_goal 2 => (intro hx; clear_value x))
    | extract_lets +onlyGivenNames x
    | split
    | refine Kept.of_snd ‹_› ?_
    | dsimp +zetaDelta only [id_eq]
    | with_reducible apply Kept.set_trans)

def km_runModeTransitionComplete : Nat := km_resumeAll ||| km_runQualify ||| km_reach ||| km_frogsDue ||| km_arrive

theorem runModeTransitionComplete_kept (s : State) : KeptR km_runModeTransitionComplete s (runModeTransitionComplete s) := by
  unfold runModeTransitionComplete
  repeat' (first
    | with_reducible assumption
    | decide +kernel
    | with_reducible exact Kept.refl ..
    | (with_reducible apply KeptR.ite <;> intro _)
    | (with_reducible apply Kept.ite <;> intro _)
    | with_reducible refine KeptR.next ?_
    | with_reducible exact KeptR.fault
    | with_reducible apply Kept.step (State.resumeAll_kept _)
    | with_reducible apply Kept.step (State.runQualify_kept _)
    | with_reducible apply Kept.step (State.reach_kept _ _)
    | with_reducible apply Kept.step (State.frogsDue_kept _ _)
    | with_reducible apply Kept.step (State.arrive_kept _ _)
    | (extract_lets +onlyGivenNames x; refine cutK (m := km_runModeTransitionComplete) (s := s) (x := x) ?_ ?_; on_goal 1 => (try unfold x); on_goal 2 => (intro hx; clear_value x))
    | extract_lets +onlyGivenNames x
    | split
    | refine Kept.of_snd ‹_› ?_)

def km_runAdmissionEnd : Nat := ob Obj.cccRoles ||| km_plcDemand ||| km_plcRefuse ||| km_setTrans ||| km_setPlc ||| km_result ||| km_placeAll

theorem runAdmissionEnd_kept (s : State) : KeptR km_runAdmissionEnd s (runAdmissionEnd s) := by
  unfold runAdmissionEnd
  repeat' (first
    | with_reducible assumption
    | decide +kernel
    | with_reducible exact Kept.refl ..
    | with_reducible refine KeptR.next ?_
    | with_reducible exact KeptR.fault
    | with_reducible apply Kept.step (State.setFld_kept _ _ _ _ _)
    | with_reducible apply Kept.step (State.plcDemand_kept _ _)
    | with_reducible apply Kept.step (State.plcRefuse_kept _ _)
    | with_reducible apply Kept.step (State.setTrans_kept _ _)
    | with_reducible apply Kept.step (State.setPlc_kept _ _)
    | with_reducible apply Kept.step (State.result_kept _ _ _ _)
    | with_reducible apply Kept.step (State.placeAll_kept _ _)
    | (extract_lets +onlyGivenNames x; refine cutK (m := km_runAdmissionEnd) (s := s) (x := x) ?_ ?_; on_goal 1 => (try unfold x); on_goal 2 => (intro hx; clear_value x))
    | extract_lets +onlyGivenNames x
    | split
    | refine Kept.of_snd ‹_› ?_
    | dsimp +zetaDelta only [id_eq])

def km_armNeedle : Nat := ob Obj.ndlState ||| ob Obj.strState ||| km_setNdl ||| km_flushRing ||| km_ndlTraceTime

theorem State.armNeedle_kept (s : State) (n : Nat) : Kept km_armNeedle s (State.armNeedle s n) := by
  unfold State.armNeedle
  repeat' (first
    | with_reducible assumption
    | decide +kernel
    | with_reducible exact Kept.refl ..
    | (with_reducible apply Kept.ite <;> intro _)
    | with_reducible apply Kept.step (State.wr_kept _ _ _ _)
    | with_reducible apply Kept.step (State.setNdl_kept _ _ _)
    | with_reducible apply Kept.step (State.flushRing_kept _ _)
    | with_reducible apply Kept.step (State.ndlTraceTime_kept _ _)
    | (extract_lets +onlyGivenNames x; refine cutK (m := km_armNeedle) (s := s) (x := x) ?_ ?_; on_goal 1 => (try unfold x); on_goal 2 => (intro hx; clear_value x))
    | extract_lets +onlyGivenNames x
    | split
    | refine Kept.of_snd ‹_› ?_)

def km_runPlacementCopiesDone : Nat := ob Obj.plcState ||| pt.trans ||| km_armNeedle ||| km_enter ||| km_startCopy

theorem runPlacementCopiesDone_kept (s : State) : KeptR km_runPlacementCopiesDone s (runPlacementCopiesDone s) := by
  unfold runPlacementCopiesDone
  repeat' (first
    | with_reducible assumption
    | decide +kernel
    | with_reducible exact Kept.refl ..
    | (with_reducible apply KeptR.ite <;> intro _)
    | (with_reducible apply Kept.ite <;> intro _)
    | with_reducible refine KeptR.next ?_
    | with_reducible exact KeptR.fault
    | with_reducible apply Kept.step (State.wr_kept _ _ _ _)
    | with_reducible apply Kept.step (State.armNeedle_kept _ _)
    | with_reducible apply Kept.step (State.enter_kept _ _ _ _)
    | with_reducible apply Kept.step (State.startCopy_kept _)
    | with_reducible apply Kept.foldl
    | with_reducible refine fun (x : State) a hx => ?_
    | (extract_lets +onlyGivenNames x; refine cutK (m := km_runPlacementCopiesDone) (s := s) (x := x) ?_ ?_; on_goal 1 => (try unfold x); on_goal 2 => (intro hx; clear_value x))
    | extract_lets +onlyGivenNames x
    | split
    | refine Kept.of_snd ‹_› ?_
    | with_reducible apply Kept.set_trans)

def km_abandon : Nat := pt.trans ||| km_releasePlacement ||| km_result ||| km_setNdl

theorem State.abandon_kept (s : State) : Kept km_abandon s (State.abandon s) := by
  unfold State.abandon
  repeat' (first
    | with_reducible assumption
    | decide +kernel
    | with_reducible exact Kept.refl ..
    | (with_reducible apply Kept.ite <;> intro _)
    | with_reducible apply Kept.step (State.releasePlacement_kept _)
    | with_reducible apply Kept.step (State.result_kept _ _ _ _)
    | with_reducible apply Kept.step (State.setNdl_kept _ _ _)
    | with_reducible apply Kept.foldl
    | with_reducible refine fun (x : State) a hx => ?_
    | (extract_lets +onlyGivenNames x; refine cutK (m := km_abandon) (s := s) (x := x) ?_ ?_; on_goal 1 => (try unfold x); on_goal 2 => (intro hx; clear_value x))
    | extract_lets +onlyGivenNames x
    | split
    | refine Kept.of_snd ‹_› ?_
    | dsimp +zetaDelta only [id_eq]
    | with_reducible apply Kept.set_trans)

def km_planCheck : Nat := pt.psm ||| km_wakeStacks ||| km_enter ||| km_unplace

theorem State.planCheck_kept (s : State) : Kept km_planCheck s (State.planCheck s) := by
  unfold State.planCheck
  repeat' (first
    | with_reducible assumption
    | decide +kernel
    | with_reducible exact Kept.refl ..
    | (with_reducible apply Kept.ite <;> intro _)
    | with_reducible apply Kept.step (State.wakeStacks_kept _)
    | with_reducible apply Kept.step (State.enter_kept _ _ _ _)
    | with_reducible apply Kept.step (State.unplace_kept _)
    | (extract_lets +onlyGivenNames x; refine cutK (m := km_planCheck) (s := s) (x := x) ?_ ?_; on_goal 1 => (try unfold x); on_goal 2 => (intro hx; clear_value x))
    | extract_lets +onlyGivenNames x
    | split
    | refine Kept.of_snd ‹_› ?_
    | with_reducible apply Kept.set_psm)

def km_safeEnter : Nat := ob Obj.dmpStatus ||| ob Obj.psmLineStatus ||| ob Obj.strState ||| pt.safeWanted ||| pt.psm ||| km_dropTimedStart ||| km_abandon ||| km_frogAt ||| km_alsoUnder ||| km_taeStop ||| km_rasStopAll ||| km_fullAbandon ||| km_leaveDoze ||| km_calPause ||| km_leaveMeasure ||| km_tmuAbandon ||| km_flushRing ||| km_rampDown ||| km_enter ||| km_wakeStacks ||| km_unplace ||| km_planCheck

theorem State.safeEnter_kept (s : State) (dump : Bool) (reason : Nat) (src : Nat) : Kept km_safeEnter s (State.safeEnter s dump reason src) := by
  unfold State.safeEnter
  repeat' (first
    | with_reducible assumption
    | decide +kernel
    | with_reducible exact Kept.refl ..
    | (with_reducible apply Kept.ite <;> intro _)
    | with_reducible apply Kept.step (State.wr_kept _ _ _ _)
    | with_reducible apply Kept.step (State.setFld_kept _ _ _ _ _)
    | with_reducible apply Kept.step (State.dropTimedStart_kept _)
    | with_reducible apply Kept.step (State.abandon_kept _)
    | with_reducible apply Kept.step (State.frogAt_kept _ _ _ _)
    | with_reducible apply Kept.step (State.alsoUnder_kept _ _ _ _)
    | with_reducible apply Kept.step (State.taeStop_kept _)
    | with_reducible apply Kept.step (State.rasStopAll_kept _)
    | with_reducible apply Kept.step (State.fullAbandon_kept _)
    | with_reducible apply Kept.step (State.leaveDoze_kept _)
    | with_reducible apply Kept.step (State.calPause_kept _)
    | with_reducible apply Kept.step (State.leaveMeasure_kept _)
    | with_reducible apply Kept.step (State.tmuAbandon_kept _)
    | with_reducible apply Kept.step (State.flushRing_kept _ _)
    | with_reducible apply Kept.step (State.rampDown_kept _)
    | with_reducible apply Kept.step (State.enter_kept _ _ _ _)
    | with_reducible apply Kept.step (State.wakeStacks_kept _)
    | with_reducible apply Kept.step (State.unplace_kept _)
    | with_reducible apply Kept.step (State.planCheck_kept _)
    | with_reducible apply Kept.foldl
    | with_reducible refine fun (x : State) a hx => ?_
    | (extract_lets +onlyGivenNames x; refine cutK (m := km_safeEnter) (s := s) (x := x) ?_ ?_; on_goal 1 => (try unfold x); on_goal 2 => (intro hx; clear_value x))
    | extract_lets +onlyGivenNames x
    | split
    | refine Kept.of_snd ‹_› ?_
    | dsimp +zetaDelta only [id_eq]
    | with_reducible apply Kept.set_safeWanted_psm)

def km_runSafeEntry : Nat := pt.fcr ||| km_reach ||| km_safeEnter

theorem runSafeEntry_kept (s : State) : KeptR km_runSafeEntry s (runSafeEntry s) := by
  unfold runSafeEntry
  repeat' (first
    | with_reducible assumption
    | decide +kernel
    | with_reducible exact Kept.refl ..
    | with_reducible refine KeptR.next ?_
    | with_reducible exact KeptR.fault
    | with_reducible apply Kept.step (State.reach_kept _ _)
    | with_reducible apply Kept.step (State.safeEnter_kept _ _ _ _)
    | (extract_lets +onlyGivenNames x; refine cutK (m := km_runSafeEntry) (s := s) (x := x) ?_ ?_; on_goal 1 => (try unfold x); on_goal 2 => (intro hx; clear_value x))
    | extract_lets +onlyGivenNames x
    | split
    | refine Kept.of_snd ‹_› ?_
    | with_reducible apply Kept.set_fcr)

def km_nextStage : Nat := km_startStage ||| km_planCheck

theorem State.nextStage_kept (s : State) (st : Nat) : Kept km_nextStage s (State.nextStage s st) := by
  unfold State.nextStage
  repeat' (first
    | with_reducible assumption
    | decide +kernel
    | with_reducible exact Kept.refl ..
    | with_reducible apply Kept.step (State.startStage_kept _ _ _)
    | with_reducible apply Kept.step (State.planCheck_kept _)
    | (extract_lets +onlyGivenNames x; refine cutK (m := km_nextStage) (s := s) (x := x) ?_ ?_; on_goal 1 => (try unfold x); on_goal 2 => (intro hx; clear_value x))
    | extract_lets +onlyGivenNames x
    | split
    | refine Kept.of_snd ‹_› ?_)

def km_runSafeStageEnd : Nat := km_nextStage

theorem runSafeStageEnd_kept (s : State) : KeptR km_runSafeStageEnd s (runSafeStageEnd s) := by
  unfold runSafeStageEnd
  repeat' (first
    | with_reducible assumption
    | decide +kernel
    | with_reducible exact Kept.refl ..
    | (with_reducible apply KeptR.ite <;> intro _)
    | (with_reducible apply Kept.ite <;> intro _)
    | with_reducible refine KeptR.next ?_
    | with_reducible exact KeptR.fault
    | with_reducible apply Kept.step (State.nextStage_kept _ _)
    | (extract_lets +onlyGivenNames x; refine cutK (m := km_runSafeStageEnd) (s := s) (x := x) ?_ ?_; on_goal 1 => (try unfold x); on_goal 2 => (intro hx; clear_value x))
    | extract_lets +onlyGivenNames x
    | split
    | refine Kept.of_snd ‹_› ?_)

def km_runSafeStageTimeout : Nat := km_reach ||| km_loopOff ||| km_splCount ||| km_raiseAll ||| km_nextStage

theorem runSafeStageTimeout_kept (s : State) : KeptR km_runSafeStageTimeout s (runSafeStageTimeout s) := by
  unfold runSafeStageTimeout
  repeat' (first
    | with_reducible assumption
    | decide +kernel
    | with_reducible exact Kept.refl ..
    | with_reducible refine KeptR.next ?_
    | with_reducible exact KeptR.fault
    | with_reducible apply Kept.step (State.reach_kept _ _)
    | with_reducible apply Kept.step (State.loopOff_kept _ _)
    | with_reducible apply Kept.step (State.splCount_kept _ _ _)
    | with_reducible apply Kept.step (State.raiseAll_kept _ _ _)
    | with_reducible apply Kept.step (State.nextStage_kept _ _)
    | with_reducible apply Kept.foldl
    | with_reducible refine fun (x : State) a hx => ?_
    | (extract_lets +onlyGivenNames x; refine cutK (m := km_runSafeStageTimeout) (s := s) (x := x) ?_ ?_; on_goal 1 => (try unfold x); on_goal 2 => (intro hx; clear_value x))
    | extract_lets +onlyGivenNames x
    | split
    | refine Kept.of_snd ‹_› ?_
    | dsimp +zetaDelta only [id_eq])

def km_rideEnter : Nat := ob Obj.psmLineStatus ||| pt.psm ||| km_dropTimedStart ||| km_abandon ||| km_leaveDoze ||| km_wakeStacks ||| km_fullAbandon ||| km_rasStopAll ||| km_taeHold ||| km_enter

theorem State.rideEnter_kept (s : State) : Kept km_rideEnter s (State.rideEnter s) := by
  unfold State.rideEnter
  repeat' (first
    | with_reducible assumption
    | decide +kernel
    | with_reducible exact Kept.refl ..
    | (with_reducible apply Kept.ite <;> intro _)
    | with_reducible apply Kept.step (State.wr_kept _ _ _ _)
    | with_reducible apply Kept.step (State.dropTimedStart_kept _)
    | with_reducible apply Kept.step (State.abandon_kept _)
    | with_reducible apply Kept.step (State.leaveDoze_kept _)
    | with_reducible apply Kept.step (State.wakeStacks_kept _)
    | with_reducible apply Kept.step (State.fullAbandon_kept _)
    | with_reducible apply Kept.step (State.rasStopAll_kept _)
    | with_reducible apply Kept.step (State.taeHold_kept _ _)
    | with_reducible apply Kept.step (State.enter_kept _ _ _ _)
    | (extract_lets +onlyGivenNames x; refine cutK (m := km_rideEnter) (s := s) (x := x) ?_ ?_; on_goal 1 => (try unfold x); on_goal 2 => (intro hx; clear_value x))
    | extract_lets +onlyGivenNames x
    | split
    | refine Kept.of_snd ‹_› ?_
    | dsimp +zetaDelta only [id_eq]
    | with_reducible apply Kept.set_psm)

def km_runLinewarn : Nat := ob Obj.psmLineStatus ||| pt.psm ||| km_psmCount ||| km_rideEnter ||| km_latch

theorem runLinewarn_kept (bulk : Bool) (s : State) : KeptR km_runLinewarn s (runLinewarn bulk s) := by
  unfold runLinewarn
  repeat' (first
    | with_reducible assumption
    | decide +kernel
    | with_reducible exact Kept.refl ..
    | (with_reducible apply KeptR.ite <;> intro _)
    | (with_reducible apply Kept.ite <;> intro _)
    | with_reducible refine KeptR.next ?_
    | with_reducible exact KeptR.fault
    | with_reducible apply Kept.step (State.setFld_kept _ _ _ _ _)
    | with_reducible apply Kept.step (State.psmCount_kept _ _)
    | with_reducible apply Kept.step (State.rideEnter_kept _)
    | with_reducible apply Kept.step (State.latch_kept _ _)
    | (extract_lets +onlyGivenNames x; refine cutK (m := km_runLinewarn) (s := s) (x := x) ?_ ?_; on_goal 1 => (try unfold x); on_goal 2 => (intro hx; clear_value x))
    | extract_lets +onlyGivenNames x
    | split
    | refine Kept.of_snd ‹_› ?_
    | dsimp +zetaDelta only [id_eq]
    | with_reducible apply Kept.set_psm)

def km_lineCommit : Nat := ob Obj.psmLineStatus ||| km_psmCount ||| km_latch

theorem State.lineCommit_kept (s : State) : Kept km_lineCommit s (State.lineCommit s) := by
  unfold State.lineCommit
  repeat' (first
    | with_reducible assumption
    | decide +kernel
    | with_reducible exact Kept.refl ..
    | (with_reducible apply Kept.ite <;> intro _)
    | with_reducible apply Kept.step (State.setFld_kept _ _ _ _ _)
    | with_reducible apply Kept.step (State.psmCount_kept _ _)
    | with_reducible apply Kept.step (State.latch_kept _ _)
    | (extract_lets +onlyGivenNames x; refine cutK (m := km_lineCommit) (s := s) (x := x) ?_ ?_; on_goal 1 => (try unfold x); on_goal 2 => (intro hx; clear_value x))
    | extract_lets +onlyGivenNames x
    | split
    | refine Kept.of_snd ‹_› ?_)

def km_planAction : Nat := km_frogAt ||| km_alsoUnder ||| km_startStage ||| km_addSummary ||| km_draw ||| km_scheduleEntry

theorem State.planAction_kept (s : State) (act : Nat) (arg : Nat) : Kept km_planAction s (State.planAction s act arg) := by
  unfold State.planAction
  repeat' (first
    | with_reducible assumption
    | decide +kernel
    | with_reducible exact Kept.refl ..
    | with_reducible apply Kept.step (State.frogAt_kept _ _ _ _)
    | with_reducible apply Kept.step (State.alsoUnder_kept _ _ _ _)
    | with_reducible apply Kept.step (State.startStage_kept _ _ _)
    | with_reducible apply Kept.step (State.addSummary_kept _ _)
    | with_reducible apply Kept.step (State.draw_kept _)
    | with_reducible apply Kept.step (State.scheduleEntry_kept _ _ _ _ _)
    | with_reducible apply Kept.foldl
    | with_reducible refine fun (x : State) a hx => ?_
    | (extract_lets +onlyGivenNames x; refine cutK (m := km_planAction) (s := s) (x := x) ?_ ?_; on_goal 1 => (try unfold x); on_goal 2 => (intro hx; clear_value x))
    | extract_lets +onlyGivenNames x
    | split
    | refine Kept.of_snd ‹_› ?_
    | dsimp +zetaDelta only [id_eq])

def km_runRidethruPlanEntry : Nat := ob Obj.psmLineStatus ||| km_reach ||| km_lineCommit ||| km_planAction

theorem runRidethruPlanEntry_kept (s : State) : KeptR km_runRidethruPlanEntry s (runRidethruPlanEntry s) := by
  unfold runRidethruPlanEntry
  repeat' (first
    | with_reducible assumption
    | decide +kernel
    | with_reducible exact Kept.refl ..
    | (with_reducible apply KeptR.ite <;> intro _)
    | (with_reducible apply Kept.ite <;> intro _)
    | with_reducible refine KeptR.next ?_
    | with_reducible exact KeptR.fault
    | with_reducible apply Kept.step (State.setFld_kept _ _ _ _ _)
    | with_reducible apply Kept.step (State.reach_kept _ _)
    | with_reducible apply Kept.step (State.lineCommit_kept _)
    | with_reducible apply Kept.step (State.planAction_kept _ _ _)
    | (extract_lets +onlyGivenNames x; refine cutK (m := km_runRidethruPlanEntry) (s := s) (x := x) ?_ ?_; on_goal 1 => (try unfold x); on_goal 2 => (intro hx; clear_value x))
    | extract_lets +onlyGivenNames x
    | split
    | refine Kept.of_snd ‹_› ?_
    | dsimp +zetaDelta only [id_eq])

def km_execLineCommit : Nat := km_reach ||| km_lineCommit

theorem execLineCommit_kept (s : State) : KeptR km_execLineCommit s (execLineCommit s) := by
  unfold execLineCommit
  repeat' (first
    | with_reducible assumption
    | decide +kernel
    | with_reducible exact Kept.refl ..
    | with_reducible refine KeptR.next ?_
    | with_reducible exact KeptR.fault
    | with_reducible apply Kept.step (State.reach_kept _ _)
    | with_reducible apply Kept.step (State.lineCommit_kept _)
    | (extract_lets +onlyGivenNames x; refine cutK (m := km_execLineCommit) (s := s) (x := x) ?_ ?_; on_goal 1 => (try unfold x); on_goal 2 => (intro hx; clear_value x))
    | extract_lets +onlyGivenNames x
    | split
    | refine Kept.of_snd ‹_› ?_
    | dsimp +zetaDelta only [id_eq])

def km_runLineRecovered : Nat := ob Obj.psmLineStatus ||| pt.psm ||| km_lineCommit ||| km_enter ||| km_psmCount ||| km_latch ||| km_taeResume ||| km_calPause ||| km_fullStart ||| km_enterDoze

theorem runLineRecovered_kept (s : State) : KeptR km_runLineRecovered s (runLineRecovered s) := by
  unfold runLineRecovered
  repeat' (first
    | with_reducible assumption
    | decide +kernel
    | with_reducible exact Kept.refl ..
    | (with_reducible apply KeptR.ite <;> intro _)
    | (with_reducible apply Kept.ite <;> intro _)
    | with_reducible refine KeptR.next ?_
    | with_reducible exact KeptR.fault
    | with_reducible apply Kept.step (State.setFld_kept _ _ _ _ _)
    | with_reducible apply Kept.step (State.lineCommit_kept _)
    | with_reducible apply Kept.step (State.enter_kept _ _ _ _)
    | with_reducible apply Kept.step (State.psmCount_kept _ _)
    | with_reducible apply Kept.step (State.latch_kept _ _)
    | with_reducible apply Kept.step (State.taeResume_kept _ _)
    | with_reducible apply Kept.step (State.calPause_kept _)
    | with_reducible apply Kept.step (State.fullStart_kept _)
    | with_reducible apply Kept.step (State.enterDoze_kept _)
    | (extract_lets +onlyGivenNames x; refine cutK (m := km_runLineRecovered) (s := s) (x := x) ?_ ?_; on_goal 1 => (try unfold x); on_goal 2 => (intro hx; clear_value x))
    | extract_lets +onlyGivenNames x
    | split
    | refine Kept.of_snd ‹_› ?_
    | dsimp +zetaDelta only [id_eq]
    | with_reducible apply Kept.set_psm)

def km_stage9 : Nat := km_domainOff ||| km_bootDone

theorem State.stage9_kept (s : State) : Kept km_stage9 s (State.stage9 s) := by
  unfold State.stage9
  repeat' (first
    | with_reducible assumption
    | decide +kernel
    | with_reducible exact Kept.refl ..
    | with_reducible apply Kept.step (State.domainOff_kept _ _)
    | with_reducible apply Kept.step (State.bootDone_kept _)
    | with_reducible apply Kept.foldl
    | with_reducible refine fun (x : State) a hx => ?_
    | (extract_lets +onlyGivenNames x; refine cutK (m := km_stage9) (s := s) (x := x) ?_ ?_; on_goal 1 => (try unfold x); on_goal 2 => (intro hx; clear_value x))
    | extract_lets +onlyGivenNames x
    | split
    | refine Kept.of_snd ‹_› ?_
    | dsimp +zetaDelta only [id_eq])

def km_runBootStageEnd : Nat := km_stage1 ||| km_stage2 ||| km_stage3 ||| km_stage4 ||| km_stage5 ||| km_stage6 ||| km_stage7 ||| km_stage8 ||| km_stage9

theorem runBootStageEnd_kept (a : Nat) (b : Nats) (s : State) : KeptR km_runBootStageEnd s (runBootStageEnd a b s) := by
  unfold runBootStageEnd
  repeat' (first
    | with_reducible assumption
    | decide +kernel
    | with_reducible exact Kept.refl ..
    | (with_reducible apply KeptR.ite <;> intro _)
    | (with_reducible apply Kept.ite <;> intro _)
    | with_reducible refine KeptR.next ?_
    | with_reducible exact KeptR.fault
    | with_reducible apply Kept.step (State.stage1_kept _ _)
    | with_reducible apply Kept.step (State.stage2_kept _ _)
    | with_reducible apply Kept.step (State.stage3_kept _ _)
    | with_reducible apply Kept.step (State.stage4_kept _)
    | with_reducible apply Kept.step (State.stage5_kept _)
    | with_reducible apply Kept.step (State.stage6_kept _ _ _)
    | with_reducible apply Kept.step (State.stage7_kept _ _ _)
    | with_reducible apply Kept.step (State.stage8_kept _)
    | with_reducible apply Kept.step (State.stage9_kept _)
    | (extract_lets +onlyGivenNames x; refine cutK (m := km_runBootStageEnd) (s := s) (x := x) ?_ ?_; on_goal 1 => (try unfold x); on_goal 2 => (intro hx; clear_value x))
    | extract_lets +onlyGivenNames x
    | split
    | refine Kept.of_snd ‹_› ?_
    | dsimp +zetaDelta only [id_eq])

end Sys2Proof.Machine
end

