-- ==== Sys2Proof/Laws/KeptSessions.lean ====
section
/-! SUPPORT. For every operation of Machine/Sessions.lean the parts of the state that it may change. -/
set_option linter.unusedTactic false
set_option linter.unreachableTactic false
set_option linter.unusedVariables false
set_option linter.tactic.unusedName false
set_option Elab.async false
namespace Sys2Proof.Machine

def km_sendReply : Nat := km_draw ||| km_setSession ||| km_transmit

theorem State.sendReply_kept (s : State) (n : Nat) (who : Session) (seq : Nat) (high : Bool) (keep : Bool) (came : Nat) (items : List Bytes) : Kept km_sendReply s (State.sendReply s n who seq high keep came items) := by
  unfold State.sendReply
  repeat' (first
    | with_reducible assumption
    | decide +kernel
    | with_reducible exact Kept.refl ..
    | (with_reducible apply Kept.ite <;> intro _)
    | with_reducible apply Kept.step (State.draw_kept _)
    | with_reducible apply Kept.step (State.setSession_kept _ _ _)
    | with_reducible apply Kept.step (State.transmit_kept _ _ _ _ _ _ _ _ _)
    | (extract_lets +onlyGivenNames x; refine cutK (m := km_sendReply) (s := s) (x := x) ?_ ?_; on_goal 1 => (try unfold x); on_goal 2 => (intro hx; clear_value x))
    | extract_lets +onlyGivenNames x
    | split
    | refine Kept.of_snd ‹_› ?_)

def km_loadFailed : Nat := ob Obj.rasBufferState ||| km_chartFail ||| km_waveClear ||| km_waveError ||| km_setSlot

theorem State.loadFailed_kept (s : State) (ix : Nat) (el : Nat) : Kept km_loadFailed s (State.loadFailed s ix el) := by
  unfold State.loadFailed
  repeat' (first
    | with_reducible assumption
    | decide +kernel
    | with_reducible exact Kept.refl ..
    | (with_reducible apply Kept.ite <;> intro _)
    | with_reducible apply Kept.step (State.wr_kept _ _ _ _)
    | with_reducible apply Kept.step (State.chartFail_kept _ _ _ _ _)
    | with_reducible apply Kept.step (State.waveClear_kept _ _ _)
    | with_reducible apply Kept.step (State.waveError_kept _ _ _ _)
    | with_reducible apply Kept.step (State.setSlot_kept _ _ _ _)
    | (extract_lets +onlyGivenNames x; refine cutK (m := km_loadFailed) (s := s) (x := x) ?_ ?_; on_goal 1 => (try unfold x); on_goal 2 => (intro hx; clear_value x))
    | extract_lets +onlyGivenNames x
    | split
    | refine Kept.of_snd ‹_› ?_)

def km_endXfer : Nat := km_setXfer ||| km_result ||| km_loadFailed

theorem State.endXfer_kept (s : State) (id : Nat) (x : Xfer) : Kept km_endXfer s (State.endXfer s id x) := by
  unfold State.endXfer
  repeat' (first
    | with_reducible assumption
    | decide +kernel
    | with_reducible exact Kept.refl ..
    | (with_reducible apply Kept.ite <;> intro _)
    | with_reducible apply Kept.step (State.setXfer_kept _ _ _)
    | with_reducible apply Kept.step (State.result_kept _ _ _ _)
    | with_reducible apply Kept.step (State.loadFailed_kept _ _ _)
    | (extract_lets +onlyGivenNames x; refine cutK (m := km_endXfer) (s := s) (x := x) ?_ ?_; on_goal 1 => (try unfold x); on_goal 2 => (intro hx; clear_value x))
    | extract_lets +onlyGivenNames x
    | split
    | refine Kept.of_snd ‹_› ?_
    | dsimp +zetaDelta only [id_eq])

def km_dropJob : Nat := km_sendReply

theorem State.dropJob_kept (s : State) (j : Job) : Kept km_dropJob s (State.dropJob s j) := by
  unfold State.dropJob
  repeat' (first
    | with_reducible assumption
    | decide +kernel
    | with_reducible exact Kept.refl ..
    | with_reducible apply Kept.step (State.sendReply_kept _ _ _ _ _ _ _ _)
    | (extract_lets +onlyGivenNames x; refine cutK (m := km_dropJob) (s := s) (x := x) ?_ ?_; on_goal 1 => (try unfold x); on_goal 2 => (intro hx; clear_value x))
    | extract_lets +onlyGivenNames x
    | split
    | refine Kept.of_snd ‹_› ?_)

def km_dropWaiter : Nat := km_emit

theorem State.dropWaiter_kept (s : State) (w : Waiter) : Kept km_dropWaiter s (State.dropWaiter s w) := by
  unfold State.dropWaiter
  repeat' (first
    | with_reducible assumption
    | decide +kernel
    | with_reducible exact Kept.refl ..
    | (with_reducible apply Kept.ite <;> intro _)
    | with_reducible apply Kept.step (State.emit_kept _ _)
    | (extract_lets +onlyGivenNames x; refine cutK (m := km_dropWaiter) (s := s) (x := x) ?_ ?_; on_goal 1 => (try unfold x); on_goal 2 => (intro hx; clear_value x))
    | extract_lets +onlyGivenNames x
    | split
    | refine Kept.of_snd ‹_› ?_)

def km_closeSession : Nat := pt.poa ||| pt.waiters ||| pt.jobs ||| km_endXfer ||| km_dropWaiter ||| km_dropJob ||| km_setSession

theorem State.closeSession_kept (s : State) (n : Nat) : Kept km_closeSession s (State.closeSession s n) := by
  unfold State.closeSession
  repeat' (first
    | with_reducible assumption
    | decide +kernel
    | with_reducible exact Kept.refl ..
    | (with_reducible apply Kept.ite <;> intro _)
    | with_reducible apply Kept.step (State.endXfer_kept _ _ _)
    | with_reducible apply Kept.step (State.dropWaiter_kept _ _)
    | with_reducible apply Kept.step (State.dropJob_kept _ _)
    | with_reducible apply Kept.step (State.setSession_kept _ _ _)
    | with_reducible apply Kept.foldl
    | with_reducible refine fun (x : State) a hx => ?_
    | (extract_lets +onlyGivenNames x; refine cutK (m := km_closeSession) (s := s) (x := x) ?_ ?_; on_goal 1 => (try unfold x); on_goal 2 => (intro hx; clear_value x))
    | extract_lets +onlyGivenNames x
    | split
    | refine Kept.of_snd ‹_› ?_
    | dsimp +zetaDelta only [id_eq]
    | with_reducible apply Kept.set_waiters_jobs
    | with_reducible apply Kept.set_poa)

end Sys2Proof.Machine
end

