-- ==== Sys2Proof/Laws/KeptOde.lean ====
section
/-! SUPPORT. For every operation of Machine/Ode.lean the parts of the state that it may change. -/
set_option linter.unusedTactic false
set_option linter.unreachableTactic false
set_option linter.unusedVariables false
set_option linter.tactic.unusedName false
set_option Elab.async false
namespace Sys2Proof.Machine

def km_firmware : Nat := pt.ode ||| km_enqueue

theorem State.firmware_kept (s : State) (read : Bool) (ix : Nat) (el : Nat) (els : List Nat) (v : Nat) : Kept km_firmware s (State.firmware s read ix el els v).2 := by
  unfold State.firmware
  repeat' (first
    | with_reducible assumption
    | decide +kernel
    | with_reducible exact Kept.refl ..
    | with_reducible apply Kept.step (State.enqueue_kept _ _ _ _)
    | (extract_lets +onlyGivenNames x; refine cutK (m := km_firmware) (s := s) (x := x) ?_ ?_; on_goal 1 => (try unfold x); on_goal 2 => (intro hx; clear_value x))
    | (extract_lets +onlyGivenNames x; refine cutK (m := km_firmware) (s := s) (x := x.2) ?_ ?_; on_goal 1 => (try unfold x); on_goal 2 => (intro hx; clear_value x))
    | extract_lets +onlyGivenNames x
    | split
    | refine Kept.of_snd ‹_› ?_
    | dsimp +zetaDelta only [id_eq]
    | with_reducible apply Kept.set_ode)

def km_post89 : Nat := km_enqueue

theorem State.post89_kept (s : State) : Kept km_post89 s (State.post89 s).2 := by
  unfold State.post89
  repeat' (first
    | with_reducible assumption
    | decide +kernel
    | with_reducible exact Kept.refl ..
    | with_reducible apply Kept.step (State.enqueue_kept _ _ _ _)
    | (extract_lets +onlyGivenNames x; refine cutK (m := km_post89) (s := s) (x := x) ?_ ?_; on_goal 1 => (try unfold x); on_goal 2 => (intro hx; clear_value x))
    | (extract_lets +onlyGivenNames x; refine cutK (m := km_post89) (s := s) (x := x.2) ?_ ?_; on_goal 1 => (try unfold x); on_goal 2 => (intro hx; clear_value x))
    | extract_lets +onlyGivenNames x
    | split
    | refine Kept.of_snd ‹_› ?_)

def km_readDone : Nat := km_draw

theorem State.readDone_kept (s : State) (ix : Nat) : Kept km_readDone s (State.readDone s ix) := by
  unfold State.readDone
  repeat' (first
    | with_reducible assumption
    | decide +kernel
    | with_reducible exact Kept.refl ..
    | (with_reducible apply Kept.ite <;> intro _)
    | with_reducible apply Kept.step (State.draw_kept _)
    | (extract_lets +onlyGivenNames x; refine cutK (m := km_readDone) (s := s) (x := x) ?_ ?_; on_goal 1 => (try unfold x); on_goal 2 => (intro hx; clear_value x))
    | extract_lets +onlyGivenNames x
    | split
    | refine Kept.of_snd ‹_› ?_)

def km_readNow : Nat := km_readDone

theorem State.readNow_kept (s : State) (ix : Nat) (els : List Nat) : Kept km_readNow s (State.readNow s ix els).2.2 := by
  unfold State.readNow
  repeat' (first
    | with_reducible assumption
    | decide +kernel
    | with_reducible exact Kept.refl ..
    | with_reducible apply Kept.step (State.readDone_kept _ _)
    | (extract_lets +onlyGivenNames x; refine cutK (m := km_readNow) (s := s) (x := x) ?_ ?_; on_goal 1 => (try unfold x); on_goal 2 => (intro hx; clear_value x))
    | extract_lets +onlyGivenNames x
    | split
    | refine Kept.of_snd ‹_› ?_)

def km_readItem : Nat := km_firmware ||| km_readNow

theorem State.readItem_kept (s : State) (w : Who) (ix : Nat) (el : Nat) : Kept km_readItem s (State.readItem s w ix el).2 := by
  unfold State.readItem
  repeat' (first
    | with_reducible assumption
    | decide +kernel
    | with_reducible exact Kept.refl ..
    | (with_reducible apply Kept.ite <;> intro _)
    | (with_reducible apply Kept.ite2 <;> intro _)
    | with_reducible apply Kept.step (State.firmware_kept _ _ _ _ _ _)
    | with_reducible apply Kept.step (State.readNow_kept _ _ _)
    | (extract_lets +onlyGivenNames x; refine cutK (m := km_readItem) (s := s) (x := x) ?_ ?_; on_goal 1 => (try unfold x); on_goal 2 => (intro hx; clear_value x))
    | (extract_lets +onlyGivenNames x; refine cutK (m := km_readItem) (s := s) (x := x.2) ?_ ?_; on_goal 1 => (try unfold x); on_goal 2 => (intro hx; clear_value x))
    | extract_lets +onlyGivenNames x
    | split
    | refine Kept.of_snd ‹_› ?_)

def km_effectSys : Nat := km_saveStart ||| km_restoreStart ||| km_closeSession ||| km_writeKey ||| km_portCfg ||| km_syncArm ||| km_startAt ||| km_dropTimedStart ||| km_servoWritten ||| km_ptpCfgWritten ||| km_setIncrement ||| km_ntSet ||| km_ntAdj ||| km_align ||| km_laneTest ||| km_selectSlot ||| km_rollbackCommit ||| km_revokeKey ||| km_domainReq ||| km_hostSupply ||| km_enableLoop ||| km_syscal ||| km_owTest ||| km_statsClear ||| km_clearFault ||| km_firstClear ||| km_inject ||| km_dmpClear ||| km_summaryClear

theorem State.effectSys_kept (s : State) (ix : Nat) (el : Nat) (v : Nat) : Kept km_effectSys s (State.effectSys s ix el v) := by
  unfold State.effectSys
  repeat' (first
    | with_reducible assumption
    | decide +kernel
    | with_reducible exact Kept.refl ..
    | (with_reducible apply Kept.ite <;> intro _)
    | with_reducible apply Kept.step (State.saveStart_kept _)
    | with_reducible apply Kept.step (State.restoreStart_kept _)
    | with_reducible apply Kept.step (State.closeSession_kept _ _)
    | with_reducible apply Kept.step (State.writeKey_kept _ _ _)
    | with_reducible apply Kept.step (State.portCfg_kept _ _ _)
    | with_reducible apply Kept.step (State.syncArm_kept _ _)
    | with_reducible apply Kept.step (State.startAt_kept _ _ _)
    | with_reducible apply Kept.step (State.dropTimedStart_kept _)
    | with_reducible apply Kept.step (State.servoWritten_kept _)
    | with_reducible apply Kept.step (State.ptpCfgWritten_kept _)
    | with_reducible apply Kept.step (State.setIncrement_kept _ _)
    | with_reducible apply Kept.step (State.ntSet_kept _ _)
    | with_reducible apply Kept.step (State.ntAdj_kept _ _)
    | with_reducible apply Kept.step (State.align_kept _ _ _)
    | with_reducible apply Kept.step (State.laneTest_kept _ _)
    | with_reducible apply Kept.step (State.selectSlot_kept _ _)
    | with_reducible apply Kept.step (State.rollbackCommit_kept _)
    | with_reducible apply Kept.step (State.revokeKey_kept _ _)
    | with_reducible apply Kept.step (State.domainReq_kept _ _)
    | with_reducible apply Kept.step (State.hostSupply_kept _ _ _ _)
    | with_reducible apply Kept.step (State.enableLoop_kept _ _ _)
    | with_reducible apply Kept.step (State.syscal_kept _ _ _)
    | with_reducible apply Kept.step (State.owTest_kept _ _)
    | with_reducible apply Kept.step (State.statsClear_kept _)
    | with_reducible apply Kept.step (State.clearFault_kept _ _)
    | with_reducible apply Kept.step (State.firstClear_kept _)
    | with_reducible apply Kept.step (State.inject_kept _ _)
    | with_reducible apply Kept.step (State.dmpClear_kept _)
    | with_reducible apply Kept.step (State.summaryClear_kept _)
    | (extract_lets +onlyGivenNames x; refine cutK (m := km_effectSys) (s := s) (x := x) ?_ ?_; on_goal 1 => (try unfold x); on_goal 2 => (intro hx; clear_value x))
    | extract_lets +onlyGivenNames x
    | split
    | refine Kept.of_snd ‹_› ?_)

def km_effectTest : Nat := km_chartDelete ||| km_waveDelete ||| km_flushRing ||| km_hostCmd ||| km_hostGauge ||| km_flushQueue ||| km_taeArm ||| km_taeForce ||| km_tmuCtrl ||| km_ageing ||| km_calPause ||| km_startCopy ||| km_rasCommit ||| km_bufferRelease

theorem State.effectTest_kept (s : State) (ix : Nat) (el : Nat) (v : Nat) : Kept km_effectTest s (State.effectTest s ix el v) := by
  unfold State.effectTest
  repeat' (first
    | with_reducible assumption
    | decide +kernel
    | with_reducible exact Kept.refl ..
    | (with_reducible apply Kept.ite <;> intro _)
    | with_reducible apply Kept.step (State.chartDelete_kept _ _)
    | with_reducible apply Kept.step (State.waveDelete_kept _ _)
    | with_reducible apply Kept.step (State.flushRing_kept _ _)
    | with_reducible apply Kept.step (State.hostCmd_kept _ _)
    | with_reducible apply Kept.step (State.hostGauge_kept _ _ _)
    | with_reducible apply Kept.step (State.flushQueue_kept _ _)
    | with_reducible apply Kept.step (State.taeArm_kept _ _ _)
    | with_reducible apply Kept.step (State.taeForce_kept _ _)
    | with_reducible apply Kept.step (State.tmuCtrl_kept _ _ _)
    | with_reducible apply Kept.step (State.ageing_kept _ _)
    | with_reducible apply Kept.step (State.calPause_kept _)
    | with_reducible apply Kept.step (State.startCopy_kept _)
    | with_reducible apply Kept.step (State.rasCommit_kept _ _)
    | with_reducible apply Kept.step (State.bufferRelease_kept _ _)
    | (extract_lets +onlyGivenNames x; refine cutK (m := km_effectTest) (s := s) (x := x) ?_ ?_; on_goal 1 => (try unfold x); on_goal 2 => (intro hx; clear_value x))
    | extract_lets +onlyGivenNames x
    | split
    | refine Kept.of_snd ‹_› ?_)

def km_traceEnabled : Nat := pt.wdpLost ||| km_traceTime

theorem State.traceEnabled_kept (s : State) (old : Nat) (v : Nat) : Kept km_traceEnabled s (State.traceEnabled s old v) := by
  unfold State.traceEnabled
  repeat' (first
    | with_reducible assumption
    | decide +kernel
    | with_reducible exact Kept.refl ..
    | (with_reducible apply Kept.ite <;> intro _)
    | with_reducible apply Kept.step (State.traceTime_kept _)
    | (extract_lets +onlyGivenNames x; refine cutK (m := km_traceEnabled) (s := s) (x := x) ?_ ?_; on_goal 1 => (try unfold x); on_goal 2 => (intro hx; clear_value x))
    | extract_lets +onlyGivenNames x
    | split
    | refine Kept.of_snd ‹_› ?_
    | with_reducible apply Kept.set_wdpLost)

def km_commitWrite : Nat := km_pinCfg ||| km_requestMode ||| km_clearAll ||| km_stage ||| km_traceEnabled ||| km_draw ||| km_effectSys ||| km_effectTest ||| pt.objs

theorem State.commitWrite_kept (s : State) (ix : Nat) (el : Nat) (v : Nat) (els : List Nat) : Kept km_commitWrite s (State.commitWrite s ix el v els).2 := by
  unfold State.commitWrite
  repeat' (first
    | with_reducible assumption
    | decide +kernel
    | (with_reducible apply ob_objs; decide +kernel)
    | with_reducible exact Kept.refl ..
    | (with_reducible apply Kept.ite <;> intro _)
    | (with_reducible apply Kept.ite2 <;> intro _)
    | with_reducible apply Kept.step (State.wrAll_kept _ _ _ _)
    | with_reducible apply Kept.step (State.pinCfg_kept _ _ _)
    | with_reducible apply Kept.step (State.requestMode_kept _ _)
    | with_reducible apply Kept.step (State.clearAll_kept _)
    | with_reducible apply Kept.step (State.stage_kept _ _ _ _ _)
    | with_reducible apply Kept.step (State.traceEnabled_kept _ _ _)
    | with_reducible apply Kept.step (State.draw_kept _)
    | with_reducible apply Kept.step (State.effectSys_kept _ _ _ _)
    | with_reducible apply Kept.step (State.effectTest_kept _ _ _ _)
    | with_reducible apply Kept.foldl
    | with_reducible refine fun (x : State) a hx => ?_
    | (extract_lets +onlyGivenNames x; refine cutK (m := km_commitWrite) (s := s) (x := x) ?_ ?_; on_goal 1 => (try unfold x); on_goal 2 => (intro hx; clear_value x))
    | (extract_lets +onlyGivenNames x; refine cutK (m := km_commitWrite) (s := s) (x := x.2) ?_ ?_; on_goal 1 => (try unfold x); on_goal 2 => (intro hx; clear_value x))
    | extract_lets +onlyGivenNames x
    | split
    | refine Kept.of_snd ‹_› ?_
    | dsimp +zetaDelta only [id_eq])

def km_commitCommand : Nat := km_commitWrite

theorem State.commitCommand_kept (s : State) (r : ObjRow) (ix : Nat) (el : Nat) (v : Nat) (els : List Nat) : Kept km_commitCommand s (State.commitCommand s r ix el v els).2 := by
  unfold State.commitCommand
  repeat' (first
    | with_reducible assumption
    | decide +kernel
    | with_reducible exact Kept.refl ..
    | (with_reducible apply Kept.ite <;> intro _)
    | (with_reducible apply Kept.ite2 <;> intro _)
    | with_reducible apply Kept.step (State.commitWrite_kept _ _ _ _ _)
    | (extract_lets +onlyGivenNames x; refine cutK (m := km_commitCommand) (s := s) (x := x) ?_ ?_; on_goal 1 => (try unfold x); on_goal 2 => (intro hx; clear_value x))
    | (extract_lets +onlyGivenNames x; refine cutK (m := km_commitCommand) (s := s) (x := x.2) ?_ ?_; on_goal 1 => (try unfold x); on_goal 2 => (intro hx; clear_value x))
    | extract_lets +onlyGivenNames x
    | split
    | refine Kept.of_snd ‹_› ?_)

def km_writeItem : Nat := km_firmware ||| km_commitCommand

theorem State.writeItem_kept (s : State) (w : Who) (ix : Nat) (el : Nat) (b : Bytes) : Kept km_writeItem s (State.writeItem s w ix el b).2 := by
  unfold State.writeItem
  repeat' (first
    | with_reducible assumption
    | decide +kernel
    | with_reducible exact Kept.refl ..
    | (with_reducible apply Kept.ite <;> intro _)
    | (with_reducible apply Kept.ite2 <;> intro _)
    | with_reducible apply Kept.step (State.firmware_kept _ _ _ _ _ _)
    | with_reducible apply Kept.step (State.commitCommand_kept _ _ _ _ _ _)
    | (extract_lets +onlyGivenNames x; refine cutK (m := km_writeItem) (s := s) (x := x) ?_ ?_; on_goal 1 => (try unfold x); on_goal 2 => (intro hx; clear_value x))
    | (extract_lets +onlyGivenNames x; refine cutK (m := km_writeItem) (s := s) (x := x.2) ?_ ?_; on_goal 1 => (try unfold x); on_goal 2 => (intro hx; clear_value x))
    | extract_lets +onlyGivenNames x
    | split
    | refine Kept.of_snd ‹_› ?_
    | dsimp +zetaDelta only [id_eq])

def km_fwRun : Nat := pt.waiters ||| km_readNow ||| km_result ||| km_commitCommand

theorem State.fwRun_kept (s : State) (j : FwJob) : Kept km_fwRun s (State.fwRun s j) := by
  unfold State.fwRun
  repeat' (first
    | with_reducible assumption
    | decide +kernel
    | with_reducible exact Kept.refl ..
    | (with_reducible apply Kept.ite <;> intro _)
    | with_reducible apply Kept.step (State.readNow_kept _ _ _)
    | with_reducible apply Kept.step (State.result_kept _ _ _ _)
    | with_reducible apply Kept.step (State.commitCommand_kept _ _ _ _ _ _)
    | (extract_lets +onlyGivenNames x; refine cutK (m := km_fwRun) (s := s) (x := x) ?_ ?_; on_goal 1 => (try unfold x); on_goal 2 => (intro hx; clear_value x))
    | (extract_lets +onlyGivenNames x; refine cutK (m := km_fwRun) (s := s) (x := x.2) ?_ ?_; on_goal 1 => (try unfold x); on_goal 2 => (intro hx; clear_value x))
    | extract_lets +onlyGivenNames x
    | split
    | refine Kept.of_snd ‹_› ?_
    | dsimp +zetaDelta only [id_eq]
    | with_reducible apply Kept.set_waiters)

end Sys2Proof.Machine
end

