-- ==== Sys2Proof/Laws/KeptServices.lean ====
section
/-! SUPPORT. For every operation of Machine/Services.lean the parts of the state that it may change. -/
set_option linter.unusedTactic false
set_option linter.unreachableTactic false
set_option linter.unusedVariables false
set_option linter.tactic.unusedName false
set_option Elab.async false
namespace Sys2Proof.Machine

def km_beginRefused : Nat := km_chartError ||| km_waveError

theorem State.beginRefused_kept (s : State) (ix : Nat) (el : Nat) (reason : Nat) : Kept km_beginRefused s (State.beginRefused s ix el reason) := by
  unfold State.beginRefused
  repeat' (first
    | with_reducible assumption
    | decide +kernel
    | with_reducible exact Kept.refl ..
    | (with_reducible apply Kept.ite <;> intro _)
    | with_reducible apply Kept.step (State.chartError_kept _ _ _ _ _)
    | with_reducible apply Kept.step (State.waveError_kept _ _ _ _)
    | (extract_lets +onlyGivenNames x; refine cutK (m := km_beginRefused) (s := s) (x := x) ?_ ?_; on_goal 1 => (try unfold x); on_goal 2 => (intro hx; clear_value x))
    | extract_lets +onlyGivenNames x
    | split
    | refine Kept.of_snd ‹_› ?_)

def km_beginWrite : Nat := ob Obj.rasBufferState ||| km_chartBegin ||| km_waveClear ||| km_setSlot ||| km_setImg

theorem State.beginWrite_kept (s : State) (ix : Nat) (el : Nat) (total : Nat) : Kept km_beginWrite s (State.beginWrite s ix el total) := by
  unfold State.beginWrite
  repeat' (first
    | with_reducible assumption
    | decide +kernel
    | with_reducible exact Kept.refl ..
    | (with_reducible apply Kept.ite <;> intro _)
    | with_reducible apply Kept.step (State.wr_kept _ _ _ _)
    | with_reducible apply Kept.step (State.chartBegin_kept _ _ _)
    | with_reducible apply Kept.step (State.waveClear_kept _ _ _)
    | with_reducible apply Kept.step (State.setSlot_kept _ _ _ _)
    | with_reducible apply Kept.step (State.setImg_kept _ _ _ _)
    | (extract_lets +onlyGivenNames x; refine cutK (m := km_beginWrite) (s := s) (x := x) ?_ ?_; on_goal 1 => (try unfold x); on_goal 2 => (intro hx; clear_value x))
    | extract_lets +onlyGivenNames x
    | split
    | refine Kept.of_snd ‹_› ?_)

def km_domainBegin : Nat := pt.poa ||| km_post89 ||| km_beginRefused ||| km_domainTaken ||| km_beginWrite ||| km_setXfer

theorem State.domainBegin_kept (s : State) (w : Who) (ix : Nat) (el : Nat) (dir : Nat) (total : Nat) : Kept km_domainBegin s (State.domainBegin s w ix el dir total).2 := by
  unfold State.domainBegin
  repeat' (first
    | with_reducible assumption
    | decide +kernel
    | with_reducible exact Kept.refl ..
    | (with_reducible apply Kept.ite <;> intro _)
    | (with_reducible apply Kept.ite2 <;> intro _)
    | with_reducible apply Kept.step (State.post89_kept _)
    | with_reducible apply Kept.step (State.beginRefused_kept _ _ _ _)
    | with_reducible apply Kept.step (State.domainTaken_kept _ _ _)
    | with_reducible apply Kept.step (State.beginWrite_kept _ _ _ _)
    | with_reducible apply Kept.step (State.setXfer_kept _ _ _)
    | (extract_lets +onlyGivenNames x; refine cutK (m := km_domainBegin) (s := s) (x := x) ?_ ?_; on_goal 1 => (try unfold x); on_goal 2 => (intro hx; clear_value x))
    | (extract_lets +onlyGivenNames x; refine cutK (m := km_domainBegin) (s := s) (x := x.2) ?_ ?_; on_goal 1 => (try unfold x); on_goal 2 => (intro hx; clear_value x))
    | extract_lets +onlyGivenNames x
    | split
    | refine Kept.of_snd ‹_› ?_
    | dsimp +zetaDelta only [id_eq]
    | with_reducible apply Kept.set_poa)

def km_finishWrite : Nat := km_msgSend ||| km_setImg ||| km_bufferLoaded

theorem State.finishWrite_kept (s : State) (x : Xfer) : Kept km_finishWrite s (State.finishWrite s x).2 := by
  unfold State.finishWrite
  repeat' (first
    | with_reducible assumption
    | decide +kernel
    | with_reducible exact Kept.refl ..
    | (with_reducible apply Kept.ite <;> intro _)
    | (with_reducible apply Kept.ite2 <;> intro _)
    | with_reducible apply Kept.step (State.msgSend_kept _ _ _)
    | with_reducible apply Kept.step (State.setImg_kept _ _ _ _)
    | with_reducible apply Kept.step (State.bufferLoaded_kept _ _ _)
    | (extract_lets +onlyGivenNames x; refine cutK (m := km_finishWrite) (s := s) (x := x) ?_ ?_; on_goal 1 => (try unfold x); on_goal 2 => (intro hx; clear_value x))
    | extract_lets +onlyGivenNames x
    | split
    | refine Kept.of_snd ‹_› ?_)

def km_domainData : Nat := km_post89 ||| km_setXfer ||| km_finishWrite

theorem State.domainData_kept (s : State) (w : Who) (id : Nat) (dlen : Nat) (off : Nat) (data : Bytes) (room : Nat) : Kept km_domainData s (State.domainData s w id dlen off data room).2 := by
  unfold State.domainData
  repeat' (first
    | with_reducible assumption
    | decide +kernel
    | with_reducible exact Kept.refl ..
    | (with_reducible apply Kept.ite <;> intro _)
    | (with_reducible apply Kept.ite2 <;> intro _)
    | with_reducible apply Kept.step (State.post89_kept _)
    | with_reducible apply Kept.step (State.setXfer_kept _ _ _)
    | with_reducible apply Kept.step (State.finishWrite_kept _ _)
    | (extract_lets +onlyGivenNames x; refine cutK (m := km_domainData) (s := s) (x := x) ?_ ?_; on_goal 1 => (try unfold x); on_goal 2 => (intro hx; clear_value x))
    | (extract_lets +onlyGivenNames x; refine cutK (m := km_domainData) (s := s) (x := x.2) ?_ ?_; on_goal 1 => (try unfold x); on_goal 2 => (intro hx; clear_value x))
    | extract_lets +onlyGivenNames x
    | split
    | refine Kept.of_snd ‹_› ?_
    | dsimp +zetaDelta only [id_eq])

def km_domainAbort : Nat := km_endXfer

theorem State.domainAbort_kept (s : State) (w : Who) (id : Nat) : Kept km_domainAbort s (State.domainAbort s w id).2 := by
  unfold State.domainAbort
  repeat' (first
    | with_reducible assumption
    | decide +kernel
    | with_reducible exact Kept.refl ..
    | (with_reducible apply Kept.ite <;> intro _)
    | (with_reducible apply Kept.ite2 <;> intro _)
    | with_reducible apply Kept.step (State.endXfer_kept _ _ _)
    | (extract_lets +onlyGivenNames x; refine cutK (m := km_domainAbort) (s := s) (x := x) ?_ ?_; on_goal 1 => (try unfold x); on_goal 2 => (intro hx; clear_value x))
    | extract_lets +onlyGivenNames x
    | split
    | refine Kept.of_snd ‹_› ?_
    | dsimp +zetaDelta only [id_eq])

def km_streamItem : Nat := km_post89 ||| km_streamData

theorem State.streamItem_kept (s : State) (w : Who) (n : Nat) (skein : Nat) (off : Nat) (data : Bytes) : Kept km_streamItem s (State.streamItem s w n skein off data).2 := by
  unfold State.streamItem
  repeat' (first
    | with_reducible assumption
    | decide +kernel
    | with_reducible exact Kept.refl ..
    | (with_reducible apply Kept.ite <;> intro _)
    | (with_reducible apply Kept.ite2 <;> intro _)
    | with_reducible apply Kept.step (State.post89_kept _)
    | with_reducible apply Kept.step (State.streamData_kept _ _ _ _ _ _)
    | (extract_lets +onlyGivenNames x; refine cutK (m := km_streamItem) (s := s) (x := x) ?_ ?_; on_goal 1 => (try unfold x); on_goal 2 => (intro hx; clear_value x))
    | (extract_lets +onlyGivenNames x; refine cutK (m := km_streamItem) (s := s) (x := x.2) ?_ ?_; on_goal 1 => (try unfold x); on_goal 2 => (intro hx; clear_value x))
    | extract_lets +onlyGivenNames x
    | split
    | refine Kept.of_snd ‹_› ?_)

def km_subscribe : Nat := pt.poa ||| km_post89 ||| km_setSub

theorem State.subscribe_kept (s : State) (w : Who) (maxFrame : Nat) (kind : Nat) (ix : Nat) (el : Nat) (interval : Nat) (window : Nat) : Kept km_subscribe s (State.subscribe s w maxFrame kind ix el interval window).2 := by
  unfold State.subscribe
  repeat' (first
    | with_reducible assumption
    | decide +kernel
    | with_reducible exact Kept.refl ..
    | (with_reducible apply Kept.ite <;> intro _)
    | (with_reducible apply Kept.ite2 <;> intro _)
    | with_reducible apply Kept.step (State.post89_kept _)
    | with_reducible apply Kept.step (State.setSub_kept _ _ _)
    | (extract_lets +onlyGivenNames x; refine cutK (m := km_subscribe) (s := s) (x := x) ?_ ?_; on_goal 1 => (try unfold x); on_goal 2 => (intro hx; clear_value x))
    | (extract_lets +onlyGivenNames x; refine cutK (m := km_subscribe) (s := s) (x := x.2) ?_ ?_; on_goal 1 => (try unfold x); on_goal 2 => (intro hx; clear_value x))
    | extract_lets +onlyGivenNames x
    | split
    | refine Kept.of_snd ‹_› ?_
    | dsimp +zetaDelta only [id_eq]
    | with_reducible apply Kept.set_poa)

def km_unsubscribe : Nat := km_setSub

theorem State.unsubscribe_kept (s : State) (w : Who) (id : Nat) : Kept km_unsubscribe s (State.unsubscribe s w id).2 := by
  unfold State.unsubscribe
  repeat' (first
    | with_reducible assumption
    | decide +kernel
    | with_reducible exact Kept.refl ..
    | (with_reducible apply Kept.ite <;> intro _)
    | (with_reducible apply Kept.ite2 <;> intro _)
    | with_reducible apply Kept.step (State.setSub_kept _ _ _)
    | (extract_lets +onlyGivenNames x; refine cutK (m := km_unsubscribe) (s := s) (x := x) ?_ ?_; on_goal 1 => (try unfold x); on_goal 2 => (intro hx; clear_value x))
    | extract_lets +onlyGivenNames x
    | split
    | refine Kept.of_snd ‹_› ?_
    | dsimp +zetaDelta only [id_eq])

def km_ackItem : Nat := km_setSub ||| km_dlogPump

theorem State.ackItem_kept (s : State) (w : Who) (id : Nat) (dseq : Nat) : Kept km_ackItem s (State.ackItem s w id dseq).2 := by
  unfold State.ackItem
  repeat' (first
    | with_reducible assumption
    | decide +kernel
    | with_reducible exact Kept.refl ..
    | (with_reducible apply Kept.ite <;> intro _)
    | (with_reducible apply Kept.ite2 <;> intro _)
    | with_reducible apply Kept.step (State.setSub_kept _ _ _)
    | with_reducible apply Kept.step (State.dlogPump_kept _ _ _)
    | (extract_lets +onlyGivenNames x; refine cutK (m := km_ackItem) (s := s) (x := x) ?_ ?_; on_goal 1 => (try unfold x); on_goal 2 => (intro hx; clear_value x))
    | extract_lets +onlyGivenNames x
    | split
    | refine Kept.of_snd ‹_› ?_
    | dsimp +zetaDelta only [id_eq])

def km_runItem : Nat := km_readItem ||| km_writeItem ||| km_domainBegin ||| km_domainData ||| km_domainAbort ||| km_streamItem ||| km_subscribe ||| km_unsubscribe ||| km_ackItem ||| km_closeSession

theorem State.runItem_kept (s : State) (w : Who) (maxFrame : Nat) (bulk : Bool) (room : Nat) (it : Bytes) : Kept km_runItem s (State.runItem s w maxFrame bulk room it).2 := by
  unfold State.runItem
  repeat' (first
    | with_reducible assumption
    | decide +kernel
    | with_reducible exact Kept.refl ..
    | (with_reducible apply Kept.ite <;> intro _)
    | (with_reducible apply Kept.ite2 <;> intro _)
    | with_reducible apply Kept.step (State.readItem_kept _ _ _ _)
    | with_reducible apply Kept.step (State.writeItem_kept _ _ _ _ _)
    | with_reducible apply Kept.step (State.domainBegin_kept _ _ _ _ _ _)
    | with_reducible apply Kept.step (State.domainData_kept _ _ _ _ _ _ _)
    | with_reducible apply Kept.step (State.domainAbort_kept _ _ _)
    | with_reducible apply Kept.step (State.streamItem_kept _ _ _ _ _ _)
    | with_reducible apply Kept.step (State.subscribe_kept _ _ _ _ _ _ _ _)
    | with_reducible apply Kept.step (State.unsubscribe_kept _ _ _)
    | with_reducible apply Kept.step (State.ackItem_kept _ _ _ _)
    | with_reducible apply Kept.step (State.closeSession_kept _ _)
    | (extract_lets +onlyGivenNames x; refine cutK (m := km_runItem) (s := s) (x := x) ?_ ?_; on_goal 1 => (try unfold x); on_goal 2 => (intro hx; clear_value x))
    | (extract_lets +onlyGivenNames x; refine cutK (m := km_runItem) (s := s) (x := x.2) ?_ ?_; on_goal 1 => (try unfold x); on_goal 2 => (intro hx; clear_value x))
    | extract_lets +onlyGivenNames x
    | split
    | refine Kept.of_snd ‹_› ?_)

end Sys2Proof.Machine
end

