-- ==== Sys2Proof/Laws/KeptPoa.lean ====
section
/-! SUPPORT. For every operation of Machine/Poa.lean the parts of the state that it may change. -/
set_option linter.unusedTactic false
set_option linter.unreachableTactic false
set_option linter.unusedVariables false
set_option linter.tactic.unusedName false
set_option Elab.async false
namespace Sys2Proof.Machine

def km_jobItem : Nat := km_runItem

theorem State.jobItem_kept (s : State) (j : Job) (used : Nat) (it : Bytes) : Kept km_jobItem s (State.jobItem s j used it).2 := by
  unfold State.jobItem
  repeat' (first
    | with_reducible assumption
    | decide +kernel
    | with_reducible exact Kept.refl ..
    | with_reducible apply Kept.step (State.runItem_kept _ _ _ _ _ _)
    | (extract_lets +onlyGivenNames x; refine cutK (m := km_jobItem) (s := s) (x := x) ?_ ?_; on_goal 1 => (try unfold x); on_goal 2 => (intro hx; clear_value x))
    | (extract_lets +onlyGivenNames x; refine cutK (m := km_jobItem) (s := s) (x := x.2) ?_ ?_; on_goal 1 => (try unfold x); on_goal 2 => (intro hx; clear_value x))
    | extract_lets +onlyGivenNames x
    | split
    | refine Kept.of_snd ‹_› ?_)

def km_runJob : Nat := pt.jobs ||| pt.waiters ||| km_sendReply ||| km_jobItem

theorem State.runJob_kept (s : State) (j : Job) (l reps : List Bytes) : Kept km_runJob s (State.runJob s j l reps) := by
  induction l generalizing s reps with
  | nil =>
    unfold State.runJob
    repeat' (first
      | with_reducible assumption
      | decide +kernel
      | with_reducible exact Kept.refl ..
      | with_reducible apply Kept.step (ih _ _)
      | with_reducible apply Kept.step (State.sendReply_kept _ _ _ _ _ _ _ _)
      | with_reducible apply Kept.step (State.jobItem_kept _ _ _ _)
      | (extract_lets +onlyGivenNames x; refine cutK (m := km_runJob) (s := s) (x := x) ?_ ?_; on_goal 1 => (try unfold x); on_goal 2 => (intro hx; clear_value x))
      | (extract_lets +onlyGivenNames x; refine cutK (m := km_runJob) (s := s) (x := x.2) ?_ ?_; on_goal 1 => (try unfold x); on_goal 2 => (intro hx; clear_value x))
      | extract_lets +onlyGivenNames x
      | split
      | refine Kept.of_snd ‹_› ?_
      | with_reducible apply Kept.set_jobs_waiters)
  | cons b t ih =>
    unfold State.runJob
    repeat' (first
      | with_reducible assumption
      | decide +kernel
      | with_reducible exact Kept.refl ..
      | with_reducible apply Kept.step (ih _ _)
      | with_reducible apply Kept.step (State.sendReply_kept _ _ _ _ _ _ _ _)
      | with_reducible apply Kept.step (State.jobItem_kept _ _ _ _)
      | (extract_lets +onlyGivenNames x; refine cutK (m := km_runJob) (s := s) (x := x) ?_ ?_; on_goal 1 => (try unfold x); on_goal 2 => (intro hx; clear_value x))
      | (extract_lets +onlyGivenNames x; refine cutK (m := km_runJob) (s := s) (x := x.2) ?_ ?_; on_goal 1 => (try unfold x); on_goal 2 => (intro hx; clear_value x))
      | extract_lets +onlyGivenNames x
      | split
      | refine Kept.of_snd ‹_› ?_
      | with_reducible apply Kept.set_jobs_waiters)

def km_mcastRefused : Nat := ob Obj.odeMcastStatus

theorem State.mcastRefused_kept (s : State) (reason : Nat) (ix : Nat) (el : Nat) : Kept km_mcastRefused s (State.mcastRefused s reason ix el) := by
  unfold State.mcastRefused
  repeat' (first
    | with_reducible assumption
    | decide +kernel
    | with_reducible exact Kept.refl ..
    | with_reducible apply Kept.step (State.setFld_kept _ _ _ _ _)
    | with_reducible apply Kept.step (State.count_kept _ _ _ _ _ _)
    | (extract_lets +onlyGivenNames x; refine cutK (m := km_mcastRefused) (s := s) (x := x) ?_ ?_; on_goal 1 => (try unfold x); on_goal 2 => (intro hx; clear_value x))
    | extract_lets +onlyGivenNames x
    | split
    | refine Kept.of_snd ‹_› ?_)

def km_mcastDone : Nat := ob Obj.odeMcastStatus ||| km_mcastRefused

theorem State.mcastDone_kept (s : State) (reason : Nat) (ix : Nat) (el : Nat) : Kept km_mcastDone s (State.mcastDone s reason ix el) := by
  unfold State.mcastDone
  repeat' (first
    | with_reducible assumption
    | decide +kernel
    | with_reducible exact Kept.refl ..
    | (with_reducible apply Kept.ite <;> intro _)
    | with_reducible apply Kept.step (State.count_kept _ _ _ _ _ _)
    | with_reducible apply Kept.step (State.mcastRefused_kept _ _ _ _)
    | (extract_lets +onlyGivenNames x; refine cutK (m := km_mcastDone) (s := s) (x := x) ?_ ?_; on_goal 1 => (try unfold x); on_goal 2 => (intro hx; clear_value x))
    | extract_lets +onlyGivenNames x
    | split
    | refine Kept.of_snd ‹_› ?_)

def km_deliverResult : Nat := pt.waiters ||| pt.jobs ||| km_mcastDone ||| km_emit ||| km_runJob

theorem State.deliverResult_kept (s : State) (k : Token) (reason : Nat) (body : Bytes) : Kept km_deliverResult s (State.deliverResult s k reason body) := by
  unfold State.deliverResult
  repeat' (first
    | with_reducible assumption
    | decide +kernel
    | with_reducible exact Kept.refl ..
    | (with_reducible apply Kept.ite <;> intro _)
    | with_reducible apply Kept.step (State.mcastDone_kept _ _ _ _)
    | with_reducible apply Kept.step (State.emit_kept _ _)
    | with_reducible apply Kept.step (State.runJob_kept _ _ _ _)
    | (extract_lets +onlyGivenNames x; refine cutK (m := km_deliverResult) (s := s) (x := x) ?_ ?_; on_goal 1 => (try unfold x); on_goal 2 => (intro hx; clear_value x))
    | extract_lets +onlyGivenNames x
    | split
    | refine Kept.of_snd ‹_› ?_
    | dsimp +zetaDelta only [id_eq]
    | with_reducible apply Kept.set_waiters
    | with_reducible apply Kept.set_jobs
    | with_reducible apply Kept.set_waiters_jobs)

def km_settleLoop : Nat := pt.ode ||| pt.results ||| pt.jobs ||| km_fwRun ||| km_deliverResult ||| km_runJob

theorem State.settleLoop_kept (k : Nat) (s : State) : Kept km_settleLoop s (State.settleLoop k s) := by
  induction k generalizing s with
  | zero =>
    unfold State.settleLoop
    repeat' (first
      | with_reducible assumption
      | decide +kernel
      | with_reducible exact Kept.refl ..
      | with_reducible apply Kept.step (ih _)
      | with_reducible apply Kept.step (State.fwRun_kept _ _)
      | with_reducible apply Kept.step (State.deliverResult_kept _ _ _ _)
      | with_reducible apply Kept.step (State.runJob_kept _ _ _ _)
      | (extract_lets +onlyGivenNames x; refine cutK (m := km_settleLoop) (s := s) (x := x) ?_ ?_; on_goal 1 => (try unfold x); on_goal 2 => (intro hx; clear_value x))
      | extract_lets +onlyGivenNames x
      | split
      | refine Kept.of_snd ‹_› ?_
      | with_reducible apply Kept.set_ode
      | with_reducible apply Kept.set_results
      | with_reducible apply Kept.set_jobs)
  | succ k ih =>
    unfold State.settleLoop
    repeat' (first
      | with_reducible assumption
      | decide +kernel
      | with_reducible exact Kept.refl ..
      | with_reducible apply Kept.step (ih _)
      | with_reducible apply Kept.step (State.fwRun_kept _ _)
      | with_reducible apply Kept.step (State.deliverResult_kept _ _ _ _)
      | with_reducible apply Kept.step (State.runJob_kept _ _ _ _)
      | (extract_lets +onlyGivenNames x; refine cutK (m := km_settleLoop) (s := s) (x := x) ?_ ?_; on_goal 1 => (try unfold x); on_goal 2 => (intro hx; clear_value x))
      | extract_lets +onlyGivenNames x
      | split
      | refine Kept.of_snd ‹_› ?_
      | with_reducible apply Kept.set_ode
      | with_reducible apply Kept.set_results
      | with_reducible apply Kept.set_jobs)

def km_settle : Nat := km_settleLoop

theorem State.settle_kept (s : State) : Kept km_settle s (State.settle s) := by
  unfold State.settle
  repeat' (first
    | with_reducible assumption
    | decide +kernel
    | with_reducible exact Kept.refl ..
    | with_reducible apply Kept.step (State.settleLoop_kept _ _)
    | (extract_lets +onlyGivenNames x; refine cutK (m := km_settle) (s := s) (x := x) ?_ ?_; on_goal 1 => (try unfold x); on_goal 2 => (intro hx; clear_value x))
    | extract_lets +onlyGivenNames x
    | split
    | refine Kept.of_snd ‹_› ?_)

def km_seqAnswer : Nat := km_poaCount ||| km_sendReply

theorem State.seqAnswer_kept (s : State) (n : Nat) (x : Session) (seq : Nat) (high : Bool) (items : List Bytes) : Kept km_seqAnswer s (State.seqAnswer s n x seq high items) := by
  unfold State.seqAnswer
  repeat' (first
    | with_reducible assumption
    | decide +kernel
    | with_reducible exact Kept.refl ..
    | with_reducible apply Kept.step (State.poaCount_kept _ _)
    | with_reducible apply Kept.step (State.sendReply_kept _ _ _ _ _ _ _ _)
    | (extract_lets +onlyGivenNames x; refine cutK (m := km_seqAnswer) (s := s) (x := x) ?_ ?_; on_goal 1 => (try unfold x); on_goal 2 => (intro hx; clear_value x))
    | extract_lets +onlyGivenNames x
    | split
    | refine Kept.of_snd ‹_› ?_)

def km_setFails : Nat := pt.poa

theorem State.setFails_kept (s : State) (addr : Nat) (v : Nat × Nat) : Kept km_setFails s (State.setFails s addr v) := by
  unfold State.setFails
  repeat' (first
    | with_reducible assumption
    | decide +kernel
    | with_reducible exact Kept.refl ..
    | (with_reducible apply Kept.ite <;> intro _)
    | (extract_lets +onlyGivenNames x; refine cutK (m := km_setFails) (s := s) (x := x) ?_ ?_; on_goal 1 => (try unfold x); on_goal 2 => (intro hx; clear_value x))
    | extract_lets +onlyGivenNames x
    | split
    | refine Kept.of_snd ‹_› ?_
    | dsimp +zetaDelta only [id_eq]
    | with_reducible apply Kept.set_poa)

def km_openSession : Nat := km_draw ||| km_setSession

theorem State.openSession_kept (s : State) (port : Nat) (sub : Nat) (addr : Nat) (udp : Nat) (level : Nat) (maxFrame : Nat) (timeout : Nat) (nonce : Bytes) : Kept km_openSession s (State.openSession s port sub addr udp level maxFrame timeout nonce).2.2 := by
  unfold State.openSession
  repeat' (first
    | with_reducible assumption
    | decide +kernel
    | with_reducible exact Kept.refl ..
    | (with_reducible apply Kept.ite <;> intro _)
    | with_reducible apply Kept.step (State.draw_kept _)
    | with_reducible apply Kept.step (State.setSession_kept _ _ _)
    | (extract_lets +onlyGivenNames x; refine cutK (m := km_openSession) (s := s) (x := x) ?_ ?_; on_goal 1 => (try unfold x); on_goal 2 => (intro hx; clear_value x))
    | extract_lets +onlyGivenNames x
    | split
    | refine Kept.of_snd ‹_› ?_)

def km_authSession : Nat := km_setSession ||| km_setFails ||| km_closeSession ||| km_poaCount ||| km_latch

theorem State.authSession_kept (s : State) (n : Nat) (x : Session) (proof : Bytes) : Kept km_authSession s (State.authSession s n x proof).2.2 := by
  unfold State.authSession
  repeat' (first
    | with_reducible assumption
    | decide +kernel
    | with_reducible exact Kept.refl ..
    | (with_reducible apply Kept.ite <;> intro _)
    | with_reducible apply Kept.step (State.setSession_kept _ _ _)
    | with_reducible apply Kept.step (State.setFails_kept _ _ _)
    | with_reducible apply Kept.step (State.closeSession_kept _ _)
    | with_reducible apply Kept.step (State.poaCount_kept _ _)
    | with_reducible apply Kept.step (State.latch_kept _ _)
    | (extract_lets +onlyGivenNames x; refine cutK (m := km_authSession) (s := s) (x := x) ?_ ?_; on_goal 1 => (try unfold x); on_goal 2 => (intro hx; clear_value x))
    | extract_lets +onlyGivenNames x
    | split
    | refine Kept.of_snd ‹_› ?_)

def km_acceptFrame : Nat := pt.jobs ||| km_setSession

theorem State.acceptFrame_kept (s : State) (n : Nat) (x : Session) (f : Bytes) (high : Bool) (came : Nat) : Kept km_acceptFrame s (State.acceptFrame s n x f high came) := by
  unfold State.acceptFrame
  repeat' (first
    | with_reducible assumption
    | decide +kernel
    | with_reducible exact Kept.refl ..
    | with_reducible apply Kept.step (State.setSession_kept _ _ _)
    | (extract_lets +onlyGivenNames x; refine cutK (m := km_acceptFrame) (s := s) (x := x) ?_ ?_; on_goal 1 => (try unfold x); on_goal 2 => (intro hx; clear_value x))
    | extract_lets +onlyGivenNames x
    | split
    | refine Kept.of_snd ‹_› ?_
    | with_reducible apply Kept.set_jobs)

def km_acceptHeld : Nat := km_setSession ||| km_acceptFrame

theorem State.acceptHeld_kept (k n : Nat) (x : Session) (s : State) : Kept km_acceptHeld s (State.acceptHeld k n x s) := by
  induction k generalizing s with
  | zero =>
    unfold State.acceptHeld
    repeat' (first
      | with_reducible assumption
      | decide +kernel
      | with_reducible exact Kept.refl ..
      | with_reducible apply Kept.step (ih _)
      | with_reducible apply Kept.step (State.setSession_kept _ _ _)
      | with_reducible apply Kept.step (State.acceptFrame_kept _ _ _ _ _ _)
      | (extract_lets +onlyGivenNames x; refine cutK (m := km_acceptHeld) (s := s) (x := x) ?_ ?_; on_goal 1 => (try unfold x); on_goal 2 => (intro hx; clear_value x))
      | extract_lets +onlyGivenNames x
      | split
      | refine Kept.of_snd ‹_› ?_
      | dsimp +zetaDelta only [id_eq])
  | succ k ih =>
    unfold State.acceptHeld
    repeat' (first
      | with_reducible assumption
      | decide +kernel
      | with_reducible exact Kept.refl ..
      | with_reducible apply Kept.step (ih _)
      | with_reducible apply Kept.step (State.setSession_kept _ _ _)
      | with_reducible apply Kept.step (State.acceptFrame_kept _ _ _ _ _ _)
      | (extract_lets +onlyGivenNames x; refine cutK (m := km_acceptHeld) (s := s) (x := x) ?_ ?_; on_goal 1 => (try unfold x); on_goal 2 => (intro hx; clear_value x))
      | extract_lets +onlyGivenNames x
      | split
      | refine Kept.of_snd ‹_› ?_
      | dsimp +zetaDelta only [id_eq])

def km_sequence : Nat := km_acceptHeld ||| km_acceptFrame ||| km_setSession ||| km_poaCount ||| km_transmit ||| km_seqAnswer

theorem State.sequence_kept (s : State) (n : Nat) (x : Session) (f : Bytes) (high : Bool) (items : List Bytes) : Kept km_sequence s (State.sequence s n x f high items) := by
  unfold State.sequence
  repeat' (first
    | with_reducible assumption
    | decide +kernel
    | with_reducible exact Kept.refl ..
    | (with_reducible apply Kept.ite <;> intro _)
    | with_reducible apply Kept.step (State.acceptHeld_kept _ _ _ _)
    | with_reducible apply Kept.step (State.acceptFrame_kept _ _ _ _ _ _)
    | with_reducible apply Kept.step (State.setSession_kept _ _ _)
    | with_reducible apply Kept.step (State.poaCount_kept _ _)
    | with_reducible apply Kept.step (State.transmit_kept _ _ _ _ _ _ _ _ _)
    | with_reducible apply Kept.step (State.seqAnswer_kept _ _ _ _ _ _)
    | (extract_lets +onlyGivenNames x; refine cutK (m := km_sequence) (s := s) (x := x) ?_ ?_; on_goal 1 => (try unfold x); on_goal 2 => (intro hx; clear_value x))
    | extract_lets +onlyGivenNames x
    | split
    | refine Kept.of_snd ‹_› ?_
    | dsimp +zetaDelta only [id_eq])

def km_shakeFrame : Nat := km_sendReply ||| km_poaCount ||| km_openSession ||| km_seqAnswer ||| km_authSession

theorem State.shakeFrame_kept (s : State) (port : Nat) (sub : Nat) (addr : Nat) (udp : Nat) (high : Bool) (f : Bytes) (it : Bytes) : Kept km_shakeFrame s (State.shakeFrame s port sub addr udp high f it) := by
  unfold State.shakeFrame
  repeat' (first
    | with_reducible assumption
    | decide +kernel
    | with_reducible exact Kept.refl ..
    | (with_reducible apply Kept.ite <;> intro _)
    | with_reducible apply Kept.step (State.sendReply_kept _ _ _ _ _ _ _ _)
    | with_reducible apply Kept.step (State.poaCount_kept _ _)
    | with_reducible apply Kept.step (State.openSession_kept _ _ _ _ _ _ _ _ _)
    | with_reducible apply Kept.step (State.seqAnswer_kept _ _ _ _ _ _)
    | with_reducible apply Kept.step (State.authSession_kept _ _ _ _)
    | (extract_lets +onlyGivenNames x; refine cutK (m := km_shakeFrame) (s := s) (x := x) ?_ ?_; on_goal 1 => (try unfold x); on_goal 2 => (intro hx; clear_value x))
    | (extract_lets +onlyGivenNames x; refine cutK (m := km_shakeFrame) (s := s) (x := x.2) ?_ ?_; on_goal 1 => (try unfold x); on_goal 2 => (intro hx; clear_value x))
    | extract_lets +onlyGivenNames x
    | split
    | refine Kept.of_snd ‹_› ?_
    | dsimp +zetaDelta only [id_eq])

def km_frameIn : Nat := km_poaCount ||| km_shakeFrame ||| km_seqAnswer ||| km_setSession ||| km_sequence

theorem State.frameIn_kept (s : State) (port : Nat) (sub : Nat) (addr : Nat) (udp : Nat) (high : Bool) (f : Bytes) : Kept km_frameIn s (State.frameIn s port sub addr udp high f) := by
  unfold State.frameIn
  repeat' (first
    | with_reducible assumption
    | decide +kernel
    | with_reducible exact Kept.refl ..
    | (with_reducible apply Kept.ite <;> intro _)
    | with_reducible apply Kept.step (State.poaCount_kept _ _)
    | with_reducible apply Kept.step (State.shakeFrame_kept _ _ _ _ _ _ _ _)
    | with_reducible apply Kept.step (State.seqAnswer_kept _ _ _ _ _ _)
    | with_reducible apply Kept.step (State.setSession_kept _ _ _)
    | with_reducible apply Kept.step (State.sequence_kept _ _ _ _ _ _)
    | (extract_lets +onlyGivenNames x; refine cutK (m := km_frameIn) (s := s) (x := x) ?_ ?_; on_goal 1 => (try unfold x); on_goal 2 => (intro hx; clear_value x))
    | extract_lets +onlyGivenNames x
    | split
    | refine Kept.of_snd ‹_› ?_
    | dsimp +zetaDelta only [id_eq])

def km_execPoaFrame : Nat := km_rxTake ||| km_frameIn ||| km_settle

theorem execPoaFrame_kept (port : Nat) (sub : Nat) (addr : Nat) (udp : Nat) (pcp : Nat) (frame : Bytes) (s : State) : KeptR km_execPoaFrame s (execPoaFrame port sub addr udp pcp frame s) := by
  unfold execPoaFrame
  repeat' (first
    | with_reducible assumption
    | decide +kernel
    | with_reducible exact Kept.refl ..
    | (with_reducible apply KeptR.ite <;> intro _)
    | (with_reducible apply Kept.ite <;> intro _)
    | with_reducible refine KeptR.next ?_
    | with_reducible exact KeptR.fault
    | with_reducible apply Kept.step (State.rxTake_kept _ _ _)
    | with_reducible apply Kept.step (State.frameIn_kept _ _ _ _ _ _ _)
    | with_reducible apply Kept.step (State.settle_kept _)
    | (extract_lets +onlyGivenNames x; refine cutK (m := km_execPoaFrame) (s := s) (x := x) ?_ ?_; on_goal 1 => (try unfold x); on_goal 2 => (intro hx; clear_value x))
    | extract_lets +onlyGivenNames x
    | split
    | refine Kept.of_snd ‹_› ?_)

def km_execHoldTimeout : Nat := km_reach ||| km_setSession ||| km_seqAnswer

theorem execHoldTimeout_kept (session : Nat) (s : State) : KeptR km_execHoldTimeout s (execHoldTimeout session s) := by
  unfold execHoldTimeout
  repeat' (first
    | with_reducible assumption
    | decide +kernel
    | with_reducible exact Kept.refl ..
    | with_reducible refine KeptR.next ?_
    | with_reducible exact KeptR.fault
    | with_reducible apply Kept.step (State.reach_kept _ _)
    | with_reducible apply Kept.step (State.setSession_kept _ _ _)
    | with_reducible apply Kept.step (State.seqAnswer_kept _ _ _ _ _ _)
    | with_reducible apply Kept.foldl
    | with_reducible refine fun (x : State) a hx => ?_
    | (extract_lets +onlyGivenNames x; refine cutK (m := km_execHoldTimeout) (s := s) (x := x) ?_ ?_; on_goal 1 => (try unfold x); on_goal 2 => (intro hx; clear_value x))
    | extract_lets +onlyGivenNames x
    | split
    | refine Kept.of_snd ‹_› ?_
    | dsimp +zetaDelta only [id_eq])

def km_mcastItem : Nat := ob Obj.odeMcastStatus ||| pt.waiters ||| km_mcastRefused ||| km_writeItem ||| km_mcastDone

theorem State.mcastItem_kept (s : State) (w : Who) (deny : Nat) (it : Bytes) : Kept km_mcastItem s (State.mcastItem s w deny it) := by
  unfold State.mcastItem
  repeat' (first
    | with_reducible assumption
    | decide +kernel
    | with_reducible exact Kept.refl ..
    | (with_reducible apply Kept.ite <;> intro _)
    | with_reducible apply Kept.step (State.count_kept _ _ _ _ _ _)
    | with_reducible apply Kept.step (State.mcastRefused_kept _ _ _ _)
    | with_reducible apply Kept.step (State.writeItem_kept _ _ _ _ _)
    | with_reducible apply Kept.step (State.mcastDone_kept _ _ _ _)
    | (extract_lets +onlyGivenNames x; refine cutK (m := km_mcastItem) (s := s) (x := x) ?_ ?_; on_goal 1 => (try unfold x); on_goal 2 => (intro hx; clear_value x))
    | (extract_lets +onlyGivenNames x; refine cutK (m := km_mcastItem) (s := s) (x := x.2) ?_ ?_; on_goal 1 => (try unfold x); on_goal 2 => (intro hx; clear_value x))
    | extract_lets +onlyGivenNames x
    | split
    | refine Kept.of_snd ‹_› ?_
    | with_reducible apply Kept.set_waiters)

def km_execMulticastFrame : Nat := ob Obj.secMcastSeq ||| km_rxTake ||| km_poaCount ||| km_mcastItem ||| km_settle

theorem execMulticastFrame_kept (port : Nat) (sub : Nat) (group : Nat) (frame : Bytes) (s : State) : KeptR km_execMulticastFrame s (execMulticastFrame port sub group frame s) := by
  unfold execMulticastFrame
  repeat' (first
    | with_reducible assumption
    | decide +kernel
    | with_reducible exact Kept.refl ..
    | (with_reducible apply KeptR.ite <;> intro _)
    | (with_reducible apply Kept.ite <;> intro _)
    | with_reducible refine KeptR.next ?_
    | with_reducible exact KeptR.fault
    | with_reducible apply Kept.step (State.wr_kept _ _ _ _)
    | with_reducible apply Kept.step (State.rxTake_kept _ _ _)
    | with_reducible apply Kept.step (State.poaCount_kept _ _)
    | with_reducible apply Kept.step (State.mcastItem_kept _ _ _ _)
    | with_reducible apply Kept.step (State.settle_kept _)
    | with_reducible apply Kept.foldl
    | with_reducible refine fun (x : State) a hx => ?_
    | (extract_lets +onlyGivenNames x; refine cutK (m := km_execMulticastFrame) (s := s) (x := x) ?_ ?_; on_goal 1 => (try unfold x); on_goal 2 => (intro hx; clear_value x))
    | extract_lets +onlyGivenNames x
    | split
    | refine Kept.of_snd ‹_› ?_
    | dsimp +zetaDelta only [id_eq])

def km_execTransferTimeout : Nat := km_reach ||| km_endXfer ||| km_settle

theorem execTransferTimeout_kept (xfer : Nat) (s : State) : KeptR km_execTransferTimeout s (execTransferTimeout xfer s) := by
  unfold execTransferTimeout
  repeat' (first
    | with_reducible assumption
    | decide +kernel
    | with_reducible exact Kept.refl ..
    | (with_reducible apply KeptR.ite <;> intro _)
    | (with_reducible apply Kept.ite <;> intro _)
    | with_reducible refine KeptR.next ?_
    | with_reducible exact KeptR.fault
    | with_reducible apply Kept.step (State.reach_kept _ _)
    | with_reducible apply Kept.step (State.endXfer_kept _ _ _)
    | with_reducible apply Kept.step (State.settle_kept _)
    | (extract_lets +onlyGivenNames x; refine cutK (m := km_execTransferTimeout) (s := s) (x := x) ?_ ?_; on_goal 1 => (try unfold x); on_goal 2 => (intro hx; clear_value x))
    | extract_lets +onlyGivenNames x
    | split
    | refine Kept.of_snd ‹_› ?_
    | dsimp +zetaDelta only [id_eq])

def km_execAuthTimeout : Nat := km_reach ||| km_closeSession ||| km_settle

theorem execAuthTimeout_kept (session : Nat) (s : State) : KeptR km_execAuthTimeout s (execAuthTimeout session s) := by
  unfold execAuthTimeout
  repeat' (first
    | with_reducible assumption
    | decide +kernel
    | with_reducible exact Kept.refl ..
    | (with_reducible apply KeptR.ite <;> intro _)
    | (with_reducible apply Kept.ite <;> intro _)
    | with_reducible refine KeptR.next ?_
    | with_reducible exact KeptR.fault
    | with_reducible apply Kept.step (State.reach_kept _ _)
    | with_reducible apply Kept.step (State.closeSession_kept _ _)
    | with_reducible apply Kept.step (State.settle_kept _)
    | (extract_lets +onlyGivenNames x; refine cutK (m := km_execAuthTimeout) (s := s) (x := x) ?_ ?_; on_goal 1 => (try unfold x); on_goal 2 => (intro hx; clear_value x))
    | extract_lets +onlyGivenNames x
    | split
    | refine Kept.of_snd ‹_› ?_)

def km_execPoaSessionExpired : Nat := km_reach ||| km_closeSession ||| km_latch ||| km_settle

theorem execPoaSessionExpired_kept (session : Nat) (s : State) : KeptR km_execPoaSessionExpired s (execPoaSessionExpired session s) := by
  unfold execPoaSessionExpired
  repeat' (first
    | with_reducible assumption
    | decide +kernel
    | with_reducible exact Kept.refl ..
    | (with_reducible apply KeptR.ite <;> intro _)
    | (with_reducible apply Kept.ite <;> intro _)
    | with_reducible refine KeptR.next ?_
    | with_reducible exact KeptR.fault
    | with_reducible apply Kept.step (State.reach_kept _ _)
    | with_reducible apply Kept.step (State.closeSession_kept _ _)
    | with_reducible apply Kept.step (State.latch_kept _ _)
    | with_reducible apply Kept.step (State.settle_kept _)
    | (extract_lets +onlyGivenNames x; refine cutK (m := km_execPoaSessionExpired) (s := s) (x := x) ?_ ?_; on_goal 1 => (try unfold x); on_goal 2 => (intro hx; clear_value x))
    | extract_lets +onlyGivenNames x
    | split
    | refine Kept.of_snd ‹_› ?_)

def km_sampleSub : Nat := km_readDone ||| km_poaCount ||| km_setSub ||| km_report

theorem State.sampleSub_kept (s : State) (n : Nat) (x : Sub) (level maxFrame : Nat) : Kept km_sampleSub s (State.sampleSub s n x level maxFrame) := by
  unfold State.sampleSub
  repeat' (first
    | with_reducible assumption
    | decide +kernel
    | with_reducible exact Kept.refl ..
    | (with_reducible apply Kept.ite <;> intro _)
    | with_reducible apply Kept.step (State.readDone_kept _ _)
    | with_reducible apply Kept.step (State.poaCount_kept _ _)
    | with_reducible apply Kept.step (State.setSub_kept _ _ _)
    | with_reducible apply Kept.step (State.report_kept _ _ _)
    | (extract_lets +onlyGivenNames x; refine cutK (m := km_sampleSub) (s := s) (x := x) ?_ ?_; on_goal 1 => (try unfold x); on_goal 2 => (intro hx; clear_value x))
    | extract_lets +onlyGivenNames x
    | split
    | refine Kept.of_snd ‹_› ?_)

def km_execCyclicReport : Nat := km_reach ||| km_setSub ||| km_sampleSub

theorem execCyclicReport_kept (sub : Nat) (s : State) : KeptR km_execCyclicReport s (execCyclicReport sub s) := by
  unfold execCyclicReport
  repeat' (first
    | with_reducible assumption
    | decide +kernel
    | with_reducible exact Kept.refl ..
    | (with_reducible apply KeptR.ite <;> intro _)
    | (with_reducible apply Kept.ite <;> intro _)
    | with_reducible refine KeptR.next ?_
    | with_reducible exact KeptR.fault
    | with_reducible apply Kept.step (State.reach_kept _ _)
    | with_reducible apply Kept.step (State.setSub_kept _ _ _)
    | with_reducible apply Kept.step (State.sampleSub_kept _ _ _ _ _)
    | (extract_lets +onlyGivenNames x; refine cutK (m := km_execCyclicReport) (s := s) (x := x) ?_ ?_; on_goal 1 => (try unfold x); on_goal 2 => (intro hx; clear_value x))
    | extract_lets +onlyGivenNames x
    | split
    | refine Kept.of_snd ‹_› ?_)

def km_execEventReport : Nat := km_reach ||| km_formEvent

theorem execEventReport_kept (sub : Nat) (source : Nat) (s : State) : KeptR km_execEventReport s (execEventReport sub source s) := by
  unfold execEventReport
  repeat' (first
    | with_reducible assumption
    | decide +kernel
    | with_reducible exact Kept.refl ..
    | (with_reducible apply KeptR.ite <;> intro _)
    | (with_reducible apply Kept.ite <;> intro _)
    | with_reducible refine KeptR.next ?_
    | with_reducible exact KeptR.fault
    | with_reducible apply Kept.step (State.count_kept _ _ _ _ _ _)
    | with_reducible apply Kept.step (State.reach_kept _ _)
    | with_reducible apply Kept.step (State.formEvent_kept _ _ _ _ _)
    | (extract_lets +onlyGivenNames x; refine cutK (m := km_execEventReport) (s := s) (x := x) ?_ ?_; on_goal 1 => (try unfold x); on_goal 2 => (intro hx; clear_value x))
    | extract_lets +onlyGivenNames x
    | split
    | refine Kept.of_snd ‹_› ?_
    | dsimp +zetaDelta only [id_eq])

def km_execDatalogReport : Nat := km_dlogPump

theorem execDatalogReport_kept (sub : Nat) (s : State) : KeptR km_execDatalogReport s (execDatalogReport sub s) := by
  unfold execDatalogReport
  repeat' (first
    | with_reducible assumption
    | decide +kernel
    | with_reducible exact Kept.refl ..
    | with_reducible refine KeptR.next ?_
    | with_reducible exact KeptR.fault
    | with_reducible apply Kept.step (State.dlogPump_kept _ _ _)
    | (extract_lets +onlyGivenNames x; refine cutK (m := km_execDatalogReport) (s := s) (x := x) ?_ ?_; on_goal 1 => (try unfold x); on_goal 2 => (intro hx; clear_value x))
    | extract_lets +onlyGivenNames x
    | split
    | refine Kept.of_snd ‹_› ?_)

def km_execDatalogRetransmit : Nat := km_reach ||| km_setSub ||| km_sendReport

theorem execDatalogRetransmit_kept (sub : Nat) (s : State) : KeptR km_execDatalogRetransmit s (execDatalogRetransmit sub s) := by
  unfold execDatalogRetransmit
  repeat' (first
    | with_reducible assumption
    | decide +kernel
    | with_reducible exact Kept.refl ..
    | (with_reducible apply KeptR.ite <;> intro _)
    | (with_reducible apply Kept.ite <;> intro _)
    | with_reducible refine KeptR.next ?_
    | with_reducible exact KeptR.fault
    | with_reducible apply Kept.step (State.reach_kept _ _)
    | with_reducible apply Kept.step (State.setSub_kept _ _ _)
    | with_reducible apply Kept.step (State.sendReport_kept _ _ _)
    | (extract_lets +onlyGivenNames x; refine cutK (m := km_execDatalogRetransmit) (s := s) (x := x) ?_ ?_; on_goal 1 => (try unfold x); on_goal 2 => (intro hx; clear_value x))
    | extract_lets +onlyGivenNames x
    | split
    | refine Kept.of_snd ‹_› ?_
    | dsimp +zetaDelta only [id_eq])

def km_execChartValidation : Nat := km_validateChart ||| km_settle

theorem execChartValidation_kept (handle : Nat) (s : State) : KeptR km_execChartValidation s (execChartValidation handle s) := by
  unfold execChartValidation
  repeat' (first
    | with_reducible assumption
    | decide +kernel
    | with_reducible exact Kept.refl ..
    | with_reducible refine KeptR.next ?_
    | with_reducible exact KeptR.fault
    | with_reducible apply Kept.step (State.validateChart_kept _ _)
    | with_reducible apply Kept.step (State.settle_kept _)
    | (extract_lets +onlyGivenNames x; refine cutK (m := km_execChartValidation) (s := s) (x := x) ?_ ?_; on_goal 1 => (try unfold x); on_goal 2 => (intro hx; clear_value x))
    | extract_lets +onlyGivenNames x
    | split
    | refine Kept.of_snd ‹_› ?_
    | dsimp +zetaDelta only [id_eq])

def km_execWaveValidation : Nat := km_validateWave ||| km_settle

theorem execWaveValidation_kept (el : Nat) (s : State) : KeptR km_execWaveValidation s (execWaveValidation el s) := by
  unfold execWaveValidation
  repeat' (first
    | with_reducible assumption
    | decide +kernel
    | with_reducible exact Kept.refl ..
    | with_reducible refine KeptR.next ?_
    | with_reducible exact KeptR.fault
    | with_reducible apply Kept.step (State.validateWave_kept _ _)
    | with_reducible apply Kept.step (State.settle_kept _)
    | (extract_lets +onlyGivenNames x; refine cutK (m := km_execWaveValidation) (s := s) (x := x) ?_ ?_; on_goal 1 => (try unfold x); on_goal 2 => (intro hx; clear_value x))
    | extract_lets +onlyGivenNames x
    | split
    | refine Kept.of_snd ‹_› ?_
    | dsimp +zetaDelta only [id_eq])

def km_execSkeinValidated : Nat := km_skeinValidated ||| km_settle

theorem execSkeinValidated_kept (needle : Nat) (s : State) : KeptR km_execSkeinValidated s (execSkeinValidated needle s) := by
  unfold execSkeinValidated
  repeat' (first
    | with_reducible assumption
    | decide +kernel
    | with_reducible exact Kept.refl ..
    | with_reducible refine KeptR.next ?_
    | with_reducible exact KeptR.fault
    | with_reducible apply Kept.step (State.skeinValidated_kept _ _)
    | with_reducible apply Kept.step (State.settle_kept _)
    | (extract_lets +onlyGivenNames x; refine cutK (m := km_execSkeinValidated) (s := s) (x := x) ?_ ?_; on_goal 1 => (try unfold x); on_goal 2 => (intro hx; clear_value x))
    | extract_lets +onlyGivenNames x
    | split
    | refine Kept.of_snd ‹_› ?_
    | dsimp +zetaDelta only [id_eq])

end Sys2Proof.Machine
end

