-- ==== Sys2Proof/Laws/KeptStep.lean ====
section
/-! SUPPORT. What the commands of Machine/HostRows.lean, every command and a step may change; pt.all where a waiting frame may run. -/
namespace Sys2Proof.Machine

theorem Kept.all {a : Nat} {s t : State} (h : Kept a s t) : Kept pt.all s t :=
  ⟨fun p hp => Part.Same_of_none _ (Nat.or_self _) p hp, h.pending, h.now, h.mem, h.od, h.fused, h.revoked⟩

theorem KeptR.all {a : Nat} {s : State} {r : Host.Outcome State Fault Refusal} (h : KeptR a s r) : KeptR pt.all s r :=
  ⟨fun t e => (h.kept t e).all⟩

theorem Kept.trans_all {a b : Nat} {s t u : State} (h : Kept a s t) (k : Kept b t u) : Kept pt.all s u := h.all.trans k.all

theorem settled_kept {a : Nat} {s : State} {r : Host.Outcome State Fault Refusal} (h : KeptR a s r) : KeptR pt.all s (settled r) := by
  refine ⟨fun t e => ?_⟩
  cases r with
  | next u => cases e; exact (h.kept u rfl).trans_all (State.settle_kept u)
  | fault => cases e
  | refused => cases e

theorem State.direct_kept (s : State) (n svc : Nat) (f : Session → Who → State → Ans × State)
    (k : ∀ x w u, Kept pt.all u (f x w u).2) : Kept pt.all s (s.direct n svc f) := by
  unfold State.direct
  split
  · exact (State.emit_kept ..).all
  · rename_i x _
    split
    · exact (State.emit_kept ..).all
    · dsimp only
      have h := k { x with lastRx := s.now } ⟨n, x.level, x.port⟩ (s.setSession n (some { x with lastRx := s.now }))
      have h0 := (State.setSession_kept s n (some { x with lastRx := s.now })).all.trans h
      revert h0
      generalize f _ _ _ = r
      obtain ⟨a, u⟩ := r
      intro h0
      cases a with
      | done => exact (h0.trans (State.emit_kept ..).all).trans (State.settle_kept _).all
      | bad => exact (h0.trans (State.emit_kept ..).all).trans (State.settle_kept _).all
      | wait => exact Kept.trans (Kept.set_waiters (by decide +kernel) h0) (State.settle_kept _).all

theorem State.hostWrite_kept (s : State) (n ix el : Nat) (b : Bytes) : Kept pt.all s (s.hostWrite n ix el b) :=
  State.direct_kept _ _ _ _ (fun _ _ _ => (State.writeItem_kept ..).all)

theorem State.hostPut_kept (s : State) (n ix el v : Nat) : Kept pt.all s (s.hostPut n ix el v) := State.hostWrite_kept ..

theorem execRead_kept (session : Nat) (ix : Nat) (el : Nat) (s : State) : KeptR pt.all s (execRead session ix el s) := KeptR.next (State.direct_kept _ _ _ _ (fun _ _ _ => (State.readItem_kept ..).all))

theorem execWrite_kept (session : Nat) (ix : Nat) (el : Nat) (value : Bytes) (s : State) : KeptR pt.all s (execWrite session ix el value s) := KeptR.next (State.hostWrite_kept ..)

theorem execDomainBegin_kept (session : Nat) (ix : Nat) (el : Nat) (dir : Nat) (total : Nat) (s : State) : KeptR pt.all s (execDomainBegin session ix el dir total s) := KeptR.next (State.direct_kept _ _ _ _ (fun _ _ _ => (State.domainBegin_kept ..).all))

theorem execDomainData_kept (session : Nat) (xfer : Nat) (dlen : Nat) (offset : Nat) (data : Bytes) (s : State) : KeptR pt.all s (execDomainData session xfer dlen offset data s) := KeptR.next (State.direct_kept _ _ _ _ (fun _ _ _ => (State.domainData_kept ..).all))

theorem execDomainAbort_kept (session : Nat) (xfer : Nat) (s : State) : KeptR pt.all s (execDomainAbort session xfer s) := KeptR.next (State.direct_kept _ _ _ _ (fun _ _ _ => (State.domainAbort_kept ..).all))

theorem execStreamData_kept (session : Nat) (needle : Nat) (skein : Nat) (offset : Nat) (data : Bytes) (s : State) : KeptR pt.all s (execStreamData session needle skein offset data s) := KeptR.next (State.direct_kept _ _ _ _ (fun _ _ _ => (State.streamItem_kept ..).all))

theorem execSubscribe_kept (session : Nat) (skind : Nat) (ix : Nat) (el : Nat) (interval : Nat) (window : Nat) (s : State) : KeptR pt.all s (execSubscribe session skind ix el interval window s) := KeptR.next (State.direct_kept _ _ _ _ (fun _ _ _ => (State.subscribe_kept ..).all))

theorem execUnsubscribe_kept (session : Nat) (sub : Nat) (s : State) : KeptR pt.all s (execUnsubscribe session sub s) := KeptR.next (State.direct_kept _ _ _ _ (fun _ _ _ => (State.unsubscribe_kept ..).all))

theorem execAck_kept (session : Nat) (sub : Nat) (dseq : Nat) (s : State) : KeptR pt.all s (execAck session sub dseq s) := KeptR.next (State.direct_kept _ _ _ _ (fun _ _ _ => (State.ackItem_kept ..).all))

theorem execHeartbeat_kept (session : Nat) (s : State) : KeptR pt.all s (execHeartbeat session s) := KeptR.next (State.direct_kept _ _ _ _ (fun _ _ _ => Kept.refl ..))

theorem execOpen_kept (port : Nat) (sub : Nat) (addr : Nat) (udp : Nat) (level : Nat) (maxFrame : Nat) (timeout : Nat) (nonce : Bytes) (s : State) : KeptR pt.all s (execOpen port sub addr udp level maxFrame timeout nonce s) := by
  unfold execOpen
  split
  · exact KeptR.next (Kept.refl ..)
  · have h := (State.openSession_kept s port sub addr udp level maxFrame timeout nonce).all
    revert h
    generalize s.openSession port sub addr udp level maxFrame timeout nonce = r
    obtain ⟨n, a, u⟩ := r
    exact fun h => KeptR.next (h.trans (State.emit_kept ..).all)

theorem execAuth_kept (session : Nat) (proof : Bytes) (s : State) : KeptR pt.all s (execAuth session proof s) := by
  unfold execAuth
  split
  · exact KeptR.next (State.emit_kept ..).all
  · rename_i x _
    split
    · exact KeptR.next (State.emit_kept ..).all
    · have h := (State.authSession_kept s session x proof).all
      revert h
      generalize s.authSession session x proof = r
      obtain ⟨a, y, u⟩ := r
      exact fun h => KeptR.next ((h.trans (State.emit_kept ..).all).trans (State.settle_kept _).all)

theorem execClose_kept (session : Nat) (s : State) : KeptR pt.all s (execClose session s) := KeptR.next (State.direct_kept _ _ _ _ (fun _ _ _ => (State.closeSession_kept ..).all))

theorem execComplete_kept (core : Nat) (s : State) : KeptR pt.all s (execComplete core s) := by
  unfold execComplete
  split
  · exact KeptR.next (Kept.refl ..)
  · exact KeptR.next ((State.complete_kept ..).all.trans (State.settle_kept _).all)

theorem execSessionClose_kept (session : Nat) (target : Nat) (s : State) : KeptR pt.all s (execSessionClose session target s) := KeptR.next (State.hostPut_kept ..)

theorem execRequestBoot_kept (session : Nat) (s : State) : KeptR pt.all s (execRequestBoot session s) := KeptR.next (State.hostPut_kept ..)

theorem execRequestSafe_kept (session : Nat) (s : State) : KeptR pt.all s (execRequestSafe session s) := KeptR.next (State.hostPut_kept ..)

theorem execRequestIdle_kept (session : Nat) (s : State) : KeptR pt.all s (execRequestIdle session s) := KeptR.next (State.hostPut_kept ..)

theorem execRequestDoze_kept (session : Nat) (s : State) : KeptR pt.all s (execRequestDoze session s) := KeptR.next (State.hostPut_kept ..)

theorem execRequestArmed_kept (session : Nat) (s : State) : KeptR pt.all s (execRequestArmed session s) := KeptR.next (State.hostPut_kept ..)

theorem execRequestRun_kept (session : Nat) (s : State) : KeptR pt.all s (execRequestRun session s) := KeptR.next (State.hostPut_kept ..)

theorem execRequestHold_kept (session : Nat) (s : State) : KeptR pt.all s (execRequestHold session s) := KeptR.next (State.hostPut_kept ..)

theorem execRequestMeasure_kept (session : Nat) (s : State) : KeptR pt.all s (execRequestMeasure session s) := KeptR.next (State.hostPut_kept ..)

theorem execRequestCalibrate_kept (session : Nat) (s : State) : KeptR pt.all s (execRequestCalibrate session s) := KeptR.next (State.hostPut_kept ..)

theorem execSave_kept (session : Nat) (s : State) : KeptR pt.all s (execSave session s) := KeptR.next (State.hostPut_kept ..)

theorem execRestore_kept (session : Nat) (s : State) : KeptR pt.all s (execRestore session s) := KeptR.next (State.hostPut_kept ..)

theorem execChartDelete_kept (session : Nat) (el : Nat) (s : State) : KeptR pt.all s (execChartDelete session el s) := KeptR.next (State.hostPut_kept ..)

theorem execWaveDelete_kept (session : Nat) (el : Nat) (s : State) : KeptR pt.all s (execWaveDelete session el s) := KeptR.next (State.hostPut_kept ..)

theorem execStart_kept (session : Nat) (el : Nat) (s : State) : KeptR pt.all s (execStart session el s) := KeptR.next (State.hostPut_kept ..)

theorem execStartAt_kept (session : Nat) (needles : Nat) (atNs : Nat) (s : State) : KeptR pt.all s (execStartAt session needles atNs s) := KeptR.next (State.hostPut_kept ..)

theorem execCancelStart_kept (session : Nat) (s : State) : KeptR pt.all s (execCancelStart session s) := KeptR.next (State.hostPut_kept ..)

theorem execFrog_kept (session : Nat) (el : Nat) (s : State) : KeptR pt.all s (execFrog session el s) := KeptR.next (State.hostPut_kept ..)

theorem execHostEvent_kept (session : Nat) (el : Nat) (value : Nat) (s : State) : KeptR pt.all s (execHostEvent session el value s) := KeptR.next (State.hostPut_kept ..)

theorem execJump_kept (session : Nat) (el : Nat) (value : Nat) (s : State) : KeptR pt.all s (execJump session el value s) := KeptR.next (State.hostPut_kept ..)

theorem execRqpFlush_kept (session : Nat) (el : Nat) (s : State) : KeptR pt.all s (execRqpFlush session el s) := KeptR.next (State.hostPut_kept ..)

theorem execStrFlush_kept (session : Nat) (el : Nat) (s : State) : KeptR pt.all s (execStrFlush session el s) := KeptR.next (State.hostPut_kept ..)

theorem execLvlHostRead_kept (session : Nat) (pin : Nat) (reg : Nat) (s : State) : KeptR pt.all s (execLvlHostRead session pin reg s) := KeptR.next (State.hostPut_kept ..)

theorem execMeasDrive_kept (session : Nat) (el : Nat) (value : Nat) (s : State) : KeptR pt.all s (execMeasDrive session el value s) := KeptR.next (State.hostPut_kept ..)

theorem execTaeArm_kept (session : Nat) (el : Nat) (s : State) : KeptR pt.all s (execTaeArm session el s) := KeptR.next (State.hostPut_kept ..)

theorem execTaeDisarm_kept (session : Nat) (el : Nat) (s : State) : KeptR pt.all s (execTaeDisarm session el s) := KeptR.next (State.hostPut_kept ..)

theorem execForce_kept (session : Nat) (el : Nat) (s : State) : KeptR pt.all s (execForce session el s) := KeptR.next (State.hostPut_kept ..)

theorem execTmuStart_kept (session : Nat) (el : Nat) (s : State) : KeptR pt.all s (execTmuStart session el s) := KeptR.next (State.hostPut_kept ..)

theorem execTmuStop_kept (session : Nat) (el : Nat) (s : State) : KeptR pt.all s (execTmuStop session el s) := KeptR.next (State.hostPut_kept ..)

theorem execCommit_kept (session : Nat) (el : Nat) (s : State) : KeptR pt.all s (execCommit session el s) := KeptR.next (State.hostPut_kept ..)

theorem execBufferRelease_kept (session : Nat) (el : Nat) (s : State) : KeptR pt.all s (execBufferRelease session el s) := KeptR.next (State.hostPut_kept ..)

theorem execDomainReq_kept (session : Nat) (value : Nat) (s : State) : KeptR pt.all s (execDomainReq session value s) := KeptR.next (State.hostPut_kept ..)

theorem execLoopEnable_kept (session : Nat) (el : Nat) (s : State) : KeptR pt.all s (execLoopEnable session el s) := KeptR.next (State.hostPut_kept ..)

theorem execLoopDisable_kept (session : Nat) (el : Nat) (s : State) : KeptR pt.all s (execLoopDisable session el s) := KeptR.next (State.hostPut_kept ..)

theorem execOwTest_kept (session : Nat) (el : Nat) (s : State) : KeptR pt.all s (execOwTest session el s) := KeptR.next (State.hostPut_kept ..)

theorem execSyscalZero_kept (session : Nat) (el : Nat) (s : State) : KeptR pt.all s (execSyscalZero session el s) := KeptR.next (State.hostPut_kept ..)

theorem execSyncArm_kept (session : Nat) (s : State) : KeptR pt.all s (execSyncArm session s) := KeptR.next (State.hostPut_kept ..)

theorem execSyncDisarm_kept (session : Nat) (s : State) : KeptR pt.all s (execSyncDisarm session s) := KeptR.next (State.hostPut_kept ..)

theorem execTxqOvfClear_kept (session : Nat) (el : Nat) (s : State) : KeptR pt.all s (execTxqOvfClear session el s) := KeptR.next (State.hostPut_kept ..)

theorem execAlignAuto_kept (session : Nat) (el : Nat) (s : State) : KeptR pt.all s (execAlignAuto session el s) := KeptR.next (State.hostPut_kept ..)

theorem execAlignManual_kept (session : Nat) (el : Nat) (s : State) : KeptR pt.all s (execAlignManual session el s) := KeptR.next (State.hostPut_kept ..)

theorem execAlignDone_kept (session : Nat) (el : Nat) (s : State) : KeptR pt.all s (execAlignDone session el s) := KeptR.next (State.hostPut_kept ..)

theorem execLaneTest_kept (session : Nat) (el : Nat) (s : State) : KeptR pt.all s (execLaneTest session el s) := KeptR.next (State.hostPut_kept ..)

theorem execStatsClear_kept (session : Nat) (s : State) : KeptR pt.all s (execStatsClear session s) := KeptR.next (State.hostPut_kept ..)

theorem execFaultClear_kept (session : Nat) (source : Nat) (s : State) : KeptR pt.all s (execFaultClear session source s) := KeptR.next (State.hostPut_kept ..)

theorem execFaultClearAll_kept (session : Nat) (s : State) : KeptR pt.all s (execFaultClearAll session s) := KeptR.next (State.hostPut_kept ..)

theorem execFirstClear_kept (session : Nat) (s : State) : KeptR pt.all s (execFirstClear session s) := KeptR.next (State.hostPut_kept ..)

theorem execInject_kept (session : Nat) (source : Nat) (bits : Nat) (master : Nat) (count : Nat) (s : State) : KeptR pt.all s (execInject session source bits master count s) := KeptR.next (State.hostPut_kept ..)

theorem execInjectCancel_kept (session : Nat) (s : State) : KeptR pt.all s (execInjectCancel session s) := KeptR.next (State.hostPut_kept ..)

theorem execDmpClear_kept (session : Nat) (s : State) : KeptR pt.all s (execDmpClear session s) := KeptR.next (State.hostPut_kept ..)

theorem execSummaryClear_kept (session : Nat) (s : State) : KeptR pt.all s (execSummaryClear session s) := KeptR.next (State.hostPut_kept ..)

theorem execSlotSelect_kept (session : Nat) (slot : Nat) (s : State) : KeptR pt.all s (execSlotSelect session slot s) := KeptR.next (State.hostPut_kept ..)

theorem execRollbackCommit_kept (session : Nat) (s : State) : KeptR pt.all s (execRollbackCommit session s) := KeptR.next (State.hostPut_kept ..)

theorem execKeyRevoke_kept (session : Nat) (key : Nat) (s : State) : KeptR pt.all s (execKeyRevoke session key s) := KeptR.next (State.hostPut_kept ..)

theorem execLvlHostWrite_kept (session : Nat) (pin : Nat) (reg : Nat) (value : Nat) (bcast : Bool) (s : State) : KeptR pt.all s (execLvlHostWrite session pin reg value bcast s) := KeptR.next (State.hostPut_kept ..)

theorem execGaugeWrite_kept (session : Nat) (el : Nat) (value : Bytes) (s : State) : KeptR pt.all s (execGaugeWrite session el value s) := KeptR.next (State.hostWrite_kept ..)

theorem execSyscalFull_kept (session : Nat) (el : Nat) (fs : Int) (s : State) : KeptR pt.all s (execSyscalFull session el fs s) := KeptR.next (State.hostPut_kept ..)

theorem execNtSet_kept (session : Nat) (value : Bytes) (s : State) : KeptR pt.all s (execNtSet session value s) := KeptR.next (State.hostWrite_kept ..)

theorem execNtAdj_kept (session : Nat) (value : Int) (s : State) : KeptR pt.all s (execNtAdj session value s) := KeptR.next (State.hostPut_kept ..)

theorem execPortCfg_kept (session : Nat) (el : Nat) (value : Bytes) (s : State) : KeptR pt.all s (execPortCfg session el value s) := KeptR.next (State.hostWrite_kept ..)

theorem execKeyWrite_kept (session : Nat) (el : Nat) (value : Bytes) (s : State) : KeptR pt.all s (execKeyWrite session el value s) := KeptR.next (State.hostWrite_kept ..)

theorem execAdmissionEnd_kept (s : State) : KeptR pt.all s (execAdmissionEnd s) := settled_kept (runAdmissionEnd_kept ..)

theorem execBlockDecode_kept (needle : Nat) (s : State) : KeptR pt.all s (execBlockDecode needle s) := settled_kept (runBlockDecode_kept ..)

theorem execBootStageEnd_kept (a : Nat) (b : Nats) (s : State) : KeptR pt.all s (execBootStageEnd a b s) := settled_kept (runBootStageEnd_kept ..)

theorem execDomainSwitchDone_kept (pd : Nat) (ok : Bool) (s : State) : KeptR pt.all s (execDomainSwitchDone pd ok s) := settled_kept (runDomainSwitchDone_kept ..)

theorem execFailFlag_kept (needle : Nat) (s : State) : KeptR pt.all s (execFailFlag needle s) := settled_kept (runFailFlag_kept ..)

theorem execFaultReaction_kept (s : State) : KeptR pt.all s (execFaultReaction s) := settled_kept (runFaultReaction_kept ..)

theorem execFrogCommit_kept (needle : Nat) (s : State) : KeptR pt.all s (execFrogCommit needle s) := settled_kept (runFrogCommit_kept ..)

theorem execImageValidation_kept (patch : Bool) (slot : Nat) (s : State) : KeptR pt.all s (execImageValidation patch slot s) := settled_kept (runImageValidation_kept ..)

theorem execLineRecovered_kept (s : State) : KeptR pt.all s (execLineRecovered s) := settled_kept (runLineRecovered_kept ..)

theorem execLinewarn_kept (bulk : Bool) (s : State) : KeptR pt.all s (execLinewarn bulk s) := settled_kept (runLinewarn_kept ..)

theorem execModeTransitionComplete_kept (s : State) : KeptR pt.all s (execModeTransitionComplete s) := settled_kept (runModeTransitionComplete_kept ..)

theorem execPlacementCopiesDone_kept (s : State) : KeptR pt.all s (execPlacementCopiesDone s) := settled_kept (runPlacementCopiesDone_kept ..)

theorem execRidethruPlanEntry_kept (s : State) : KeptR pt.all s (execRidethruPlanEntry s) := settled_kept (runRidethruPlanEntry_kept ..)

theorem execSafeEntry_kept (s : State) : KeptR pt.all s (execSafeEntry s) := settled_kept (runSafeEntry_kept ..)

theorem execSafeStageEnd_kept (s : State) : KeptR pt.all s (execSafeStageEnd s) := settled_kept (runSafeStageEnd_kept ..)

theorem execSafeStageTimeout_kept (s : State) : KeptR pt.all s (execSafeStageTimeout s) := settled_kept (runSafeStageTimeout_kept ..)

theorem execSeamEnd_kept (needle : Nat) (s : State) : KeptR pt.all s (execSeamEnd needle s) := settled_kept (runSeamEnd_kept ..)

theorem execSkeinTimeout_kept (needle : Nat) (s : State) : KeptR pt.all s (execSkeinTimeout needle s) := settled_kept (runSkeinTimeout_kept ..)

theorem execStallExpiry_kept (needle : Nat) (s : State) : KeptR pt.all s (execStallExpiry needle s) := settled_kept (runStallExpiry_kept ..)

theorem execStitchIssue_kept (needle : Nat) (s : State) : KeptR pt.all s (execStitchIssue needle s) := settled_kept (runStitchIssue_kept ..)

/-- No command puts anything into the queue, takes anything from it, turns time back, breaks a store or clears a fuse. -/
theorem exec_kept (i : Instr) (s : State) : KeptR pt.all s (exec i s) := by
  cases i with
  | powerOn => exact (execPowerOn_kept ..).all
  | extReset => exact (execExtReset_kept ..).all
  | coldEntry => exact (execColdEntry_kept ..).all
  | bootStageEnd _ _ => exact execBootStageEnd_kept ..
  | refclkRetry _ => exact (execRefclkRetry_kept ..).all
  | hbmTrainingDone _ _ _ _ => exact (execHbmTrainingDone_kept ..).all
  | poaFrame _ _ _ _ _ _ => exact (execPoaFrame_kept ..).all
  | holdTimeout _ => exact (execHoldTimeout_kept ..).all
  | multicastFrame _ _ _ _ => exact (execMulticastFrame_kept ..).all
  | read _ _ _ => exact execRead_kept ..
  | write _ _ _ _ => exact execWrite_kept ..
  | domainBegin _ _ _ _ _ => exact execDomainBegin_kept ..
  | domainData _ _ _ _ _ => exact execDomainData_kept ..
  | domainAbort _ _ => exact execDomainAbort_kept ..
  | transferTimeout _ => exact (execTransferTimeout_kept ..).all
  | streamData _ _ _ _ _ => exact execStreamData_kept ..
  | skeinTimeout _ => exact execSkeinTimeout_kept ..
  | subscribe _ _ _ _ _ _ => exact execSubscribe_kept ..
  | unsubscribe _ _ => exact execUnsubscribe_kept ..
  | ack _ _ _ => exact execAck_kept ..
  | heartbeat _ => exact execHeartbeat_kept ..
  | openCmd _ _ _ _ _ _ _ _ => exact execOpen_kept ..
  | auth _ _ => exact execAuth_kept ..
  | authTimeout _ => exact (execAuthTimeout_kept ..).all
  | close _ => exact execClose_kept ..
  | poaSessionExpired _ => exact (execPoaSessionExpired_kept ..).all
  | sessionClose _ _ => exact execSessionClose_kept ..
  | cyclicReport _ => exact (execCyclicReport_kept ..).all
  | eventReport _ _ => exact (execEventReport_kept ..).all
  | datalogReport _ => exact (execDatalogReport_kept ..).all
  | datalogRetransmit _ => exact (execDatalogRetransmit_kept ..).all
  | requestBoot _ => exact execRequestBoot_kept ..
  | requestSafe _ => exact execRequestSafe_kept ..
  | requestIdle _ => exact execRequestIdle_kept ..
  | requestDoze _ => exact execRequestDoze_kept ..
  | requestArmed _ => exact execRequestArmed_kept ..
  | requestRun _ => exact execRequestRun_kept ..
  | requestHold _ => exact execRequestHold_kept ..
  | requestMeasure _ => exact execRequestMeasure_kept ..
  | requestCalibrate _ => exact execRequestCalibrate_kept ..
  | modeTransitionComplete => exact execModeTransitionComplete_kept ..
  | admissionEnd => exact execAdmissionEnd_kept ..
  | placementCopiesDone => exact execPlacementCopiesDone_kept ..
  | migrationCopyDone _ _ => exact (execMigrationCopyDone_kept ..).all
  | safeEntry => exact execSafeEntry_kept ..
  | safeStageEnd => exact execSafeStageEnd_kept ..
  | safeStageTimeout => exact execSafeStageTimeout_kept ..
  | linewarn _ => exact execLinewarn_kept ..
  | ridethruPlanEntry => exact execRidethruPlanEntry_kept ..
  | lineCommit => exact (execLineCommit_kept ..).all
  | lineRecovered => exact execLineRecovered_kept ..
  | junctionReading _ => exact (execJunctionReading_kept ..).all
  | save _ => exact execSave_kept ..
  | restore _ => exact execRestore_kept ..
  | storeComplete => exact (execStoreComplete_kept ..).all
  | chartValidation _ => exact (execChartValidation_kept ..).all
  | chartDelete _ _ => exact execChartDelete_kept ..
  | waveValidation _ => exact (execWaveValidation_kept ..).all
  | waveDelete _ _ => exact execWaveDelete_kept ..
  | start _ _ => exact execStart_kept ..
  | startQualify _ => exact (execStartQualify_kept ..).all
  | timedStart => exact (execTimedStart_kept ..).all
  | startAt _ _ _ => exact execStartAt_kept ..
  | cancelStart _ => exact execCancelStart_kept ..
  | blockDecode _ => exact execBlockDecode_kept ..
  | stitchIssue _ => exact execStitchIssue_kept ..
  | rasSyncEdge _ _ _ => exact (execRasSyncEdge_kept ..).all
  | frog _ _ => exact execFrog_kept ..
  | frogCommit _ => exact execFrogCommit_kept ..
  | pinPark _ => exact (execPinPark_kept ..).all
  | seamEnd _ => exact execSeamEnd_kept ..
  | needleFreeze _ => exact (execNeedleFreeze_kept ..).all
  | resume => exact (execResume_kept ..).all
  | hostEvent _ _ _ => exact execHostEvent_kept ..
  | hostEventLatch _ => exact (execHostEventLatch_kept ..).all
  | jump _ _ _ => exact execJump_kept ..
  | jumpApply _ => exact (execJumpApply_kept ..).all
  | triginEdge _ _ _ => exact (execTriginEdge_kept ..).all
  | strobeResult _ _ => exact (execStrobeResult_kept ..).all
  | failFlag _ => exact execFailFlag_kept ..
  | failLoggerDrain _ => exact (execFailLoggerDrain_kept ..).all
  | resultsFinal _ => exact (execResultsFinal_kept ..).all
  | queuePost _ => exact (execQueuePost_kept ..).all
  | poolRelease _ _ => exact (execPoolRelease_kept ..).all
  | rqpFlush _ _ => exact execRqpFlush_kept ..
  | strFlush _ _ => exact execStrFlush_kept ..
  | skeinValidated _ => exact (execSkeinValidated_kept ..).all
  | stallExpiry _ => exact execStallExpiry_kept ..
  | levelFrameStart _ => exact (execLevelFrameStart_kept ..).all
  | levelFrameEnd _ _ => exact (execLevelFrameEnd_kept ..).all
  | lvlHostWrite _ _ _ _ _ => exact execLvlHostWrite_kept ..
  | lvlHostRead _ _ _ => exact execLvlHostRead_kept ..
  | supplyApply => exact (execSupplyApply_kept ..).all
  | gaugeWrite _ _ _ => exact execGaugeWrite_kept ..
  | measDrive _ _ _ => exact execMeasDrive_kept ..
  | measDriveApply => exact (execMeasDriveApply_kept ..).all
  | taeArm _ _ => exact execTaeArm_kept ..
  | taeDisarm _ _ => exact execTaeDisarm_kept ..
  | rearmEnd _ => exact (execRearmEnd_kept ..).all
  | triggerStamp _ => exact (execTriggerStamp_kept ..).all
  | force _ _ => exact execForce_kept ..
  | taeTimeout _ => exact (execTaeTimeout_kept ..).all
  | recordComplete _ _ => exact (execRecordComplete_kept ..).all
  | calSample _ _ => exact (execCalSample_kept ..).all
  | swatchTimeout _ => exact (execSwatchTimeout_kept ..).all
  | calAged _ => exact (execCalAged_kept ..).all
  | fullCalPhase _ => exact (execFullCalPhase_kept ..).all
  | tmuStart _ _ => exact execTmuStart_kept ..
  | tmuStop _ _ => exact execTmuStop_kept ..
  | tdcStamp _ _ _ _ => exact (execTdcStamp_kept ..).all
  | gateClose _ _ => exact (execGateClose_kept ..).all
  | tmuTimeout _ => exact (execTmuTimeout_kept ..).all
  | memoryRequest _ _ _ _ _ _ => exact (execMemoryRequest_kept ..).all
  | refreshInterval _ _ => exact (execRefreshInterval_kept ..).all
  | forcedRefresh _ => exact (execForcedRefresh_kept ..).all
  | neighbourRefresh _ _ => exact (execNeighbourRefresh_kept ..).all
  | selfRefreshEntry _ => exact (execSelfRefreshEntry_kept ..).all
  | scrub _ _ => exact (execScrub_kept ..).all
  | commit _ _ => exact execCommit_kept ..
  | bufferRelease _ _ => exact execBufferRelease_kept ..
  | domainReq _ _ => exact execDomainReq_kept ..
  | domainSwitchDone _ _ => exact execDomainSwitchDone_kept ..
  | pmbusPoll _ => exact (execPmbusPoll_kept ..).all
  | pmbAlert _ => exact (execPmbAlert_kept ..).all
  | conversion _ _ _ => exact (execConversion_kept ..).all
  | loopEnable _ _ => exact execLoopEnable_kept ..
  | loopDisable _ _ => exact execLoopDisable_kept ..
  | owTest _ _ => exact execOwTest_kept ..
  | owTestDone _ _ _ => exact (execOwTestDone_kept ..).all
  | syscalZero _ _ => exact execSyscalZero_kept ..
  | syscalFull _ _ _ => exact execSyscalFull_kept ..
  | syscalDone _ _ _ => exact (execSyscalDone_kept ..).all
  | refclkLoss => exact (execRefclkLoss_kept ..).all
  | refclkRelock => exact (execRefclkRelock_kept ..).all
  | clkPllUnlock => exact (execClkPllUnlock_kept ..).all
  | syncEdge _ => exact (execSyncEdge_kept ..).all
  | syncArm _ => exact execSyncArm_kept ..
  | syncDisarm _ => exact execSyncDisarm_kept ..
  | ptpEventMessage _ _ _ _ => exact (execPtpEventMessage_kept ..).all
  | ptpOffset _ _ _ _ => exact (execPtpOffset_kept ..).all
  | ptpSyncTimeout => exact (execPtpSyncTimeout_kept ..).all
  | ntSet _ _ => exact execNtSet_kept ..
  | ntAdj _ _ => exact execNtAdj_kept ..
  | txqOvfClear _ _ => exact execTxqOvfClear_kept ..
  | eventSend _ => exact (execEventSend_kept ..).all
  | eventReceive _ _ _ => exact (execEventReceive_kept ..).all
  | eventDelivery _ => exact (execEventDelivery_kept ..).all
  | latencyMarker _ _ => exact (execLatencyMarker_kept ..).all
  | cascadeFrame _ _ _ => exact (execCascadeFrame_kept ..).all
  | cslLinkDown _ _ => exact (execCslLinkDown_kept ..).all
  | alignAuto _ _ => exact execAlignAuto_kept ..
  | alignManual _ _ => exact execAlignManual_kept ..
  | alignDone _ _ => exact execAlignDone_kept ..
  | alignmentComplete _ _ => exact (execAlignmentComplete_kept ..).all
  | laneTest _ _ => exact execLaneTest_kept ..
  | laneTestDone _ _ _ _ => exact (execLaneTestDone_kept ..).all
  | frameReceive _ _ _ _ _ _ _ _ => exact (execFrameReceive_kept ..).all
  | arpRequest _ _ _ _ _ => exact (execArpRequest_kept ..).all
  | echoRequest _ _ _ _ _ _ => exact (execEchoRequest_kept ..).all
  | neighbourSolicitation _ _ _ _ _ => exact (execNeighbourSolicitation_kept ..).all
  | membershipQuery _ _ _ _ => exact (execMembershipQuery_kept ..).all
  | pfcReceive _ _ _ _ => exact (execPfcReceive_kept ..).all
  | pfcRepeat _ => exact (execPfcRepeat_kept ..).all
  | moduleInsert _ _ => exact (execModuleInsert_kept ..).all
  | hlkLinkUp _ _ => exact (execHlkLinkUp_kept ..).all
  | hlkLinkDown _ _ => exact (execHlkLinkDown_kept ..).all
  | portCfg _ _ _ => exact execPortCfg_kept ..
  | enqueue _ _ _ => exact (execEnqueue_kept ..).all
  | dispatch => exact (execDispatch_kept ..).all
  | complete _ => exact execComplete_kept ..
  | yieldCmd _ => exact (execYield_kept ..).all
  | cccHang _ => exact (execCccHang_kept ..).all
  | cccEccU _ => exact (execCccEccU_kept ..).all
  | statsClear _ => exact execStatsClear_kept ..
  | sourceLatch _ _ => exact (execSourceLatch_kept ..).all
  | holdoffExpiry _ => exact (execHoldoffExpiry_kept ..).all
  | coreWait _ _ => exact (execCoreWait_kept ..).all
  | handlerEntry _ => exact (execHandlerEntry_kept ..).all
  | claim _ _ _ => exact (execClaim_kept ..).all
  | faultRaise _ _ _ _ _ => exact (execFaultRaise_kept ..).all
  | faultReaction => exact execFaultReaction_kept ..
  | fcrParity => exact (execFcrParity_kept ..).all
  | faultClear _ _ => exact execFaultClear_kept ..
  | faultClearAll _ => exact execFaultClearAll_kept ..
  | fcrRecovered _ => exact (execFcrRecovered_kept ..).all
  | firstClear _ => exact execFirstClear_kept ..
  | inject _ _ _ _ _ => exact execInject_kept ..
  | injectCancel _ => exact execInjectCancel_kept ..
  | dumpEntry => exact (execDumpEntry_kept ..).all
  | dmpReady _ => exact (execDmpReady_kept ..).all
  | dmpClear _ => exact execDmpClear_kept ..
  | summaryClear _ => exact execSummaryClear_kept ..
  | imageValidation _ _ => exact execImageValidation_kept ..
  | slotSelect _ _ => exact execSlotSelect_kept ..
  | rollbackCommit _ => exact execRollbackCommit_kept ..
  | keyRevoke _ _ => exact execKeyRevoke_kept ..
  | keyWrite _ _ _ => exact execKeyWrite_kept ..
  | pauseQuantaExpiry _ _ _ => exact (execPauseQuantaExpiry_kept ..).all
  | moduleRemoval _ => exact (execModuleRemoval_kept ..).all
  | cslFrameSent _ => exact (execCslFrameSent_kept ..).all
  | arpEntryExpiry _ _ _ => exact (execArpEntryExpiry_kept ..).all
  | dispatcherTimeAnchor => exact (execDispatcherTimeAnchor_kept ..).all
  | softstartEnd _ => exact (execSoftstartEnd_kept ..).all

/-- What a step does to the queue, to time, to the stores and to the fuses. -/
theorem step_kept {s t : State} (h : step s = .next t) : Kept pt.all { s with pending := s.pending.tail } t := by
  unfold step at h
  split at h
  · rename_i e
    cases h
    refine ⟨fun p hp => Part.Same_of_none _ (Nat.or_self _) p hp, by simp [e], Nat.le_add_right _ _, id, id, fun h => ⟨Nat.le_refl _, h⟩, fun _ _ h => h⟩
  · rename_i c r e
    have k := (exec_kept c { s with pending := r }).kept t h
    rwa [e]

end Sys2Proof.Machine
end

