-- ==== Sys2Proof/Laws/Host.lean ====
section
/-! SUPPORT. Laws of a service commanded alone: the little-endian value of a number's bytes, what the end of a service does while nothing else waits, an accepted write. -/
namespace Sys2Proof.Machine

theorem ofLE_toLE (n v : Nat) : ofLE (toLE n v) = v % 256 ^ n := by
  induction n generalizing v with
  | zero => simp [toLE, ofLE, Nat.mod_one]
  | succ n ih =>
    rw [toLE, ofLE, ih, Nat.pow_succ, Nat.mul_comm (256 ^ n) 256, Nat.mod_mul]
    simp

theorem toLE_length (n v : Nat) : (toLE n v).length = n := by
  induction n generalizing v with
  | zero => rfl
  | succ n ih => simp [toLE, ih]

theorem State.deliverResult_none (s : State) (k : Token) (reason : Nat) (b : Bytes) (hw : s.waiters = []) : s.deliverResult k reason b = s := by
  simp [State.deliverResult, hw]

theorem State.nextJob_none (s : State) (hj : s.jobs = []) : s.nextJob = none := by
  simp [State.nextJob, hj]

theorem State.settleLoop_quiet (n : Nat) (s : State) (hd : s.ode.done = []) (hj : s.jobs = []) (hw : s.waiters = []) (hr : s.results.length ≤ n) :
    State.settleLoop n s = { s with results := [] } := by
  induction n generalizing s with
  | zero =>
    have : s.results = [] := List.length_eq_zero_iff.1 (Nat.le_zero.1 hr)
    rw [State.settleLoop, ← this]
  | succ n ih =>
    rw [State.settleLoop, hd]
    dsimp only
    split
    · rename_i r t e
      rw [State.deliverResult_none _ _ _ _ (by exact hw), ih _ (by exact hd) (by exact hj) (by exact hw) (by simp [e] at hr ⊢; omega)]
    · rename_i e
      rw [State.nextJob_none s hj, ← e]

/-- Where nothing waits, the end of a service only drops results that no request awaits. -/
theorem State.settle_quiet (s : State) (hd : s.ode.done = []) (hj : s.jobs = []) (hw : s.waiters = []) (hr : s.results.length ≤ 20000) :
    s.settle = { s with results := [] } := State.settleLoop_quiet _ s hd hj hw hr

/-- An accepted write that its hardware serves commits at once. -/
theorem State.writeItem_direct {s : State} {n : Nat} {x : Session} {r : ObjRow} {ix el : Nat} {b : Bytes} {els : List Nat} (h : Accepts s n x r ix el b els)
    (hs : (s.touch n x).fwServed r = false) :
    (s.touch n x).writeItem ⟨n, x.level, x.port⟩ ix el b = (s.touch n x).commitCommand r ix el (ofLE b) els := by
  have hf : els.find? (fun m => (s.touch n x).memberReason ⟨n, x.level, x.port⟩ r els (ofLE b) m != 0) = none := by
    rw [List.find?_eq_none]
    intro m hm
    rw [h.member m hm]; decide
  unfold State.writeItem
  rw [h.check]
  simp only [rOk, h.row, hf, hs, Bool.false_eq_true, if_false]

/-- An accepted write that a core serves waits for the item that it posts. -/
theorem State.writeItem_posted {s : State} {n : Nat} {x : Session} {r : ObjRow} {ix el : Nat} {b : Bytes} {els : List Nat} (h : Accepts s n x r ix el b els)
    (hs : (s.touch n x).fwServed r = true) :
    (s.touch n x).writeItem ⟨n, x.level, x.port⟩ ix el b =
      let u := ((s.touch n x).enqueue 88 0 3).2
      (.wait (.fw u.ode.next) 0 0, { u with ode := { u.ode with jobs := u.ode.jobs ++ [⟨u.ode.next, false, ix, el, els, ofLE b⟩], next := u.ode.next + 1 } }) := by
  have hf : els.find? (fun m => (s.touch n x).memberReason ⟨n, x.level, x.port⟩ r els (ofLE b) m != 0) = none := by
    rw [List.find?_eq_none]
    intro m hm
    rw [h.member m hm]; decide
  have hr := h.room hs
  unfold State.writeItem
  rw [h.check]
  simp only [rOk, h.row, hf, hs, if_true]
  unfold State.firmware
  revert hr
  generalize (s.touch n x).enqueue 88 0 3 = e
  obtain ⟨c, u⟩ := e
  intro hr
  cases hr
  rfl

/-- An accepted write that its hardware serves and whose answer is formed at once. -/
theorem State.hostWrite_direct {s : State} {n : Nat} {x : Session} {r : ObjRow} {ix el : Nat} {b : Bytes} {els : List Nat} {a : Nat} {t : State}
    (h : Accepts s n x r ix el b els) (hs : (s.touch n x).fwServed r = false) (hc : (s.touch n x).commitCommand r ix el (ofLE b) els = (.of a, t)) :
    s.hostWrite n ix el b = (t.emit (wrote n a 0xFFFF)).settle := by
  unfold State.hostWrite State.direct
  rw [h.sess]
  dsimp only
  rw [if_neg (fun k => k h.level)]
  have e := State.writeItem_direct h hs
  rw [hc] at e
  unfold State.touch at e
  rw [e]
  rfl

end Sys2Proof.Machine
end

