-- ==== Sys2Proof/Laws/Signals.lean ====
section
/-! SUPPORT. Reading back what was written to the dictionary's store; counters; what a latched source and a raised fault leave behind. -/
namespace Sys2Proof.Machine

@[simp] theorem State.rd_wr_self (s : State) (o e v : Nat) : (s.wr o e v).rd o e = v := Tbl.get_put_self ..

theorem State.rd_wr_ne (s : State) {o e o' e' : Nat} (v : Nat) (ho : o < 65536) (ho' : o' < 65536) (h : ¬ (o' = o ∧ e' = e)) :
    (s.wr o e v).rd o' e' = s.rd o' e' :=
  Tbl.get_put_ne _ _ _ (fun k => h ((odKey_inj ho ho').1 k))

/-- A write to another object. -/
theorem State.rd_wr_obj (s : State) {o e o' e' : Nat} (v : Nat) (ho : o < 65536) (ho' : o' < 65536) (h : o' ≠ o) :
    (s.wr o e v).rd o' e' = s.rd o' e' := State.rd_wr_ne s v ho ho' (fun k => h k.1)

@[simp] theorem State.fld_setFld_self (s : State) (o e : Nat) (f : Fld) (x : Nat) : (s.setFld o e f x).fld o e f = x % 2 ^ f.w := by
  simp [State.fld, State.setFld]

theorem State.fld_setFld_apart (s : State) (o e : Nat) (f g : Fld) (x : Nat) (h : f.Apart g) : (s.setFld o e f x).fld o e g = s.fld o e g := by
  simp [State.fld, State.setFld, Fld.get_put_apart f g _ _ h]

/-- R11: a counter after n more. -/
theorem State.fld_count (s : State) (o e : Nat) (f sat : Fld) (n : Nat) (h : sat.Apart f) :
    (s.count o e f sat n).fld o e f = min (s.fld o e f + n) (2 ^ f.w - 1) := by
  unfold State.count
  extract_lets x
  split
  · rename_i hx
    rw [State.fld_setFld_self, Nat.mod_eq_of_lt hx]
    simp only [x] at hx ⊢
    omega
  · rename_i hx
    have hp : 0 < 2 ^ f.w := Nat.two_pow_pos _
    rw [State.fld_setFld_apart _ _ _ _ _ _ h, State.fld_setFld_self, Nat.mod_eq_of_lt (by omega)]
    simp only [x] at hx
    omega

theorem State.rd_count_ne (s : State) {o o' e e' : Nat} (f sat : Fld) (n : Nat) (ho : o < 65536) (ho' : o' < 65536) (h : o' ≠ o) :
    (s.count o e f sat n).rd o' e' = s.rd o' e' := by
  unfold State.count State.setFld
  extract_lets x
  split
  · exact State.rd_wr_obj _ _ ho ho' h
  · rw [State.rd_wr_obj _ _ ho ho' h, State.rd_wr_obj _ _ ho ho' h]

/-- A part that an operation leaves alone. -/
theorem Kept.rd {m : Nat} {s t : State} (h : Kept m s t) {o : Nat} (e : Nat) (ho : o < 65536) (hm : m.testBit (o + 64) = false) : t.rd o e = s.rd o e :=
  h.same (.obj o) hm e ho

theorem testBit_setBit (v i j : Nat) (b : Bool) : (setBit v i b).testBit j = if j = i then b else v.testBit j := by
  have h1 : (Fld.get ⟨i, 1⟩ v) = (v.testBit i).toNat := by
    simp [Fld.get, Nat.testBit, Nat.one_and_eq_mod_two]
    rcases Nat.mod_two_eq_zero_or_one (v >>> i) with h | h <;> simp [h]
  unfold setBit Fld.put
  rw [Nat.testBit_xor, Nat.testBit_shiftLeft, h1]
  by_cases hj : j = i
  · subst hj
    cases hv : v.testBit j <;> cases b <;> simp
  · by_cases hlt : i ≤ j
    · have : j - i ≠ 0 := by omega
      obtain ⟨k, hk⟩ := Nat.exists_eq_succ_of_ne_zero this
      cases v.testBit i <;> cases b <;> simp [hj, hlt, hk, Nat.testBit_succ]
    · simp [hj, hlt]

/-- R766: a latched source is pending. -/
theorem State.latch_pending (s : State) (src : Nat) : (s.latch src).srcPending src = true := by
  have hk : ∀ (u : State) (x t : Nat), Kept km_deliver u (u.deliver x t) := State.deliver_kept
  have key : ∀ u : State, u.srcPending src = true → ∀ t st : Nat,
      ((if (u.eventSubs src t st).isFast src then (u.eventSubs src t st).deliver src t else (u.eventSubs src t st).moderate src t)).srcPending src = true := by
    intro u hu t st
    have h1 := (State.eventSubs_kept u src t st).rd (o := Obj.iecPending) 0 (by decide) (by decide +kernel)
    split
    · have h2 := (State.deliver_kept (u.eventSubs src t st) src t).rd (o := Obj.iecPending) 0 (by decide) (by decide +kernel)
      simp only [State.srcPending] at hu ⊢
      rw [h2, h1]; exact hu
    · have h2 := (State.moderate_kept (u.eventSubs src t st) src t).rd (o := Obj.iecPending) 0 (by decide) (by decide +kernel)
      simp only [State.srcPending] at hu ⊢
      rw [h2, h1]; exact hu
  unfold State.latch
  apply key
  simp [State.srcPending, bit, testBit_setBit]

/-- R766: other sources stay as they are. -/
theorem State.latch_pending_mono (s : State) (src n : Nat) (h : s.srcPending n = true) : (s.latch src).srcPending n = true := by
  unfold State.latch
  extract_lets t st x x' u v
  have hu : u.srcPending n = true := by
    change bit ((s.setSrc src x').rd Obj.iecPending 0) n = true at h
    simp only [u, State.srcPending, bit, State.rd_wr_self, testBit_setBit] at h ⊢
    split
    · rfl
    · exact h
  have hv : v.srcPending n = true := by
    have h1 := (State.eventSubs_kept u src t st).rd (o := Obj.iecPending) 0 (by decide) (by decide +kernel)
    simp only [v, State.srcPending] at hu ⊢
    rw [h1]; exact hu
  clear_value v
  split
  · have h2 := (State.deliver_kept v src t).rd (o := Obj.iecPending) 0 (by decide) (by decide +kernel)
    simp only [State.srcPending] at hv ⊢
    rw [h2]; exact hv
  · have h2 := (State.moderate_kept v src t).rd (o := Obj.iecPending) 0 (by decide) (by decide +kernel)
    simp only [State.srcPending] at hv ⊢
    rw [h2]; exact hv

theorem Kept.pending_src {m : Nat} {s t : State} (h : Kept m s t) (hm : m.testBit (Obj.iecPending + 64) = false) (n : Nat) : t.srcPending n = s.srcPending n := by
  simp only [State.srcPending]
  rw [h.rd (o := Obj.iecPending) 0 (by decide) hm]

theorem Kept.active_src {m : Nat} {s t : State} (h : Kept m s t) (hm : m.testBit (Obj.fcrActive + 64) = false) (n : Nat) : t.active n = s.active n := by
  simp only [State.active]
  rw [h.rd (o := Obj.fcrActive) 0 (by decide) hm]

theorem State.dropTimedStart_pending (s : State) (n : Nat) (h : s.srcPending n = true) : s.dropTimedStart.srcPending n = true := by
  unfold State.dropTimedStart
  split
  · refine State.latch_pending_mono _ _ _ ?_
    rw [(State.setFld_kept _ Obj.clkStartStatus 0 F.clkStartStatusState 3).pending_src (by decide +kernel)]
    exact h
  · exact h

/-- R780: a raised fault is pending and, in class U or F, active. -/
theorem State.raise_raised (s : State) (src inst master access addr : Nat) (scope : Option Nat) (own : Bool) :
    (s.raise src inst master access addr scope own).srcPending src = true ∧
    ∀ c, faultClass src = some c → c ≠ 0 → (s.raise src inst master access addr scope own).active src = true := by
  unfold State.raise
  split
  · rename_i h
    exact ⟨State.latch_pending s src, fun c hc => by rw [h] at hc; cases hc⟩
  · rename_i cls h
    extract_lets st e s1 f1 s2 s3 s4 seen f2 s5 s6
    have p1 : s1.srcPending src = true := State.latch_pending s src
    have p3 : s3.srcPending src = true := by
      have k : Kept (km_fcrCount ||| km_captureFirst) s2 s3 :=
        Kept.step (State.captureFirst_kept _ _ _ _ _) (by decide +kernel) (Kept.step (State.fcrCount_kept _ _ _) (by decide +kernel) (Kept.refl ..))
      have k2 : Kept pt.fcr s1 s2 := Kept.set_fcr (Nat.or_self _) (Kept.refl ..)
      rw [k.pending_src (by decide +kernel), k2.pending_src (by decide +kernel)]
      exact p1
    clear_value s3
    have p5 : s5.srcPending src = true ∧ (cls ≠ 0 → s5.active src = true) := by
      simp only [s5]
      split
      · rename_i h0
        exact ⟨p3, fun k => absurd (by simpa using h0) k⟩
      · refine ⟨?_, fun _ => ?_⟩
        · have k := (State.wr_kept s3 Obj.fcrActive 0 (setBit (s3.rd Obj.fcrActive 0) src true)).pending_src (by decide +kernel) src
          exact k.trans p3
        · show bit (s4.rd Obj.fcrActive 0) src = true
          simp [s4, bit, testBit_setBit]
    clear_value s5
    have p6 : s6.srcPending src = true ∧ (cls ≠ 0 → s6.active src = true) := by
      simp only [s6]
      split
      · refine ⟨State.dropTimedStart_pending _ _ p5.1, fun k => ?_⟩
        rw [(State.dropTimedStart_kept s5).active_src (by decide +kernel)]
        exact p5.2 k
      · exact p5
    clear_value s6
    have k := State.react_kept s6 src (s6.reactionByte src) scope own
    refine ⟨by rw [k.pending_src (by decide +kernel)]; exact p6.1, fun c hc h0 => ?_⟩
    rw [h] at hc
    cases hc
    rw [k.active_src (by decide +kernel)]
    exact p6.2 h0

end Sys2Proof.Machine
end

