-- ==== Sys2Proof/Laws/State.lean ====
section
/-! SUPPORT. For each plain update of State, one lemma per field that it leaves alone, and what its own reader reads after it. -/
namespace Sys2Proof.Machine

/-! reach -/
@[simp] theorem State.reach_pending (s : State) (t : Nat) : (s.reach t).pending = s.pending := rfl
@[simp] theorem State.reach_freeCtr (s : State) (t : Nat) : (s.reach t).freeCtr = s.freeCtr := rfl
@[simp] theorem State.reach_od (s : State) (t : Nat) : (s.reach t).od = s.od := rfl
@[simp] theorem State.reach_images (s : State) (t : Nat) : (s.reach t).images = s.images := rfl
@[simp] theorem State.reach_out (s : State) (t : Nat) : (s.reach t).out = s.out := rfl
@[simp] theorem State.reach_trans (s : State) (t : Nat) : (s.reach t).trans = s.trans := rfl
@[simp] theorem State.reach_safeWanted (s : State) (t : Nat) : (s.reach t).safeWanted = s.safeWanted := rfl
@[simp] theorem State.reach_cores (s : State) (t : Nat) : (s.reach t).cores = s.cores := rfl
@[simp] theorem State.reach_ready (s : State) (t : Nat) : (s.reach t).ready = s.ready := rfl
@[simp] theorem State.reach_flowFree (s : State) (t : Nat) : (s.reach t).flowFree = s.flowFree := rfl
@[simp] theorem State.reach_homes (s : State) (t : Nat) : (s.reach t).homes = s.homes := rfl
@[simp] theorem State.reach_wdpFullAt (s : State) (t : Nat) : (s.reach t).wdpFullAt = s.wdpFullAt := rfl
@[simp] theorem State.reach_wdpTrace (s : State) (t : Nat) : (s.reach t).wdpTrace = s.wdpTrace := rfl
@[simp] theorem State.reach_wdpLost (s : State) (t : Nat) : (s.reach t).wdpLost = s.wdpLost := rfl
@[simp] theorem State.reach_srcs (s : State) (t : Nat) : (s.reach t).srcs = s.srcs := rfl
@[simp] theorem State.reach_groups (s : State) (t : Nat) : (s.reach t).groups = s.groups := rfl
@[simp] theorem State.reach_fcr (s : State) (t : Nat) : (s.reach t).fcr = s.fcr := rfl
@[simp] theorem State.reach_clk (s : State) (t : Nat) : (s.reach t).clk = s.clk := rfl
@[simp] theorem State.reach_poa (s : State) (t : Nat) : (s.reach t).poa = s.poa := rfl
@[simp] theorem State.reach_hlk (s : State) (t : Nat) : (s.reach t).hlk = s.hlk := rfl
@[simp] theorem State.reach_loops (s : State) (t : Nat) : (s.reach t).loops = s.loops := rfl
@[simp] theorem State.reach_adc (s : State) (t : Nat) : (s.reach t).adc = s.adc := rfl
@[simp] theorem State.reach_psm (s : State) (t : Nat) : (s.reach t).psm = s.psm := rfl
@[simp] theorem State.reach_ode (s : State) (t : Nat) : (s.reach t).ode = s.ode := rfl
@[simp] theorem State.reach_waiters (s : State) (t : Nat) : (s.reach t).waiters = s.waiters := rfl
@[simp] theorem State.reach_results (s : State) (t : Nat) : (s.reach t).results = s.results := rfl
@[simp] theorem State.reach_jobs (s : State) (t : Nat) : (s.reach t).jobs = s.jobs := rfl
@[simp] theorem State.reach_chartLen (s : State) (t : Nat) : (s.reach t).chartLen = s.chartLen := rfl
@[simp] theorem State.reach_mem (s : State) (t : Nat) : (s.reach t).mem = s.mem := rfl
@[simp] theorem State.reach_hms (s : State) (t : Nat) : (s.reach t).hms = s.hms := rfl
@[simp] theorem State.reach_staged (s : State) (t : Nat) : (s.reach t).staged = s.staged := rfl
@[simp] theorem State.reach_ndls (s : State) (t : Nat) : (s.reach t).ndls = s.ndls := rfl
@[simp] theorem State.reach_evts (s : State) (t : Nat) : (s.reach t).evts = s.evts := rfl
@[simp] theorem State.reach_ucode (s : State) (t : Nat) : (s.reach t).ucode = s.ucode := rfl
@[simp] theorem State.reach_ubase (s : State) (t : Nat) : (s.reach t).ubase = s.ubase := rfl
@[simp] theorem State.reach_traps (s : State) (t : Nat) : (s.reach t).traps = s.traps := rfl
@[simp] theorem State.reach_sites (s : State) (t : Nat) : (s.reach t).sites = s.sites := rfl
@[simp] theorem State.reach_queues (s : State) (t : Nat) : (s.reach t).queues = s.queues := rfl
@[simp] theorem State.reach_pins (s : State) (t : Nat) : (s.reach t).pins = s.pins := rfl
@[simp] theorem State.reach_levelBus (s : State) (t : Nat) : (s.reach t).levelBus = s.levelBus := rfl
@[simp] theorem State.reach_levelFree (s : State) (t : Nat) : (s.reach t).levelFree = s.levelFree := rfl
@[simp] theorem State.reach_ras (s : State) (t : Nat) : (s.reach t).ras = s.ras := rfl
@[simp] theorem State.reach_tae (s : State) (t : Nat) : (s.reach t).tae = s.tae := rfl
@[simp] theorem State.reach_csl (s : State) (t : Nat) : (s.reach t).csl = s.csl := rfl
@[simp] theorem State.reach_cal (s : State) (t : Nat) : (s.reach t).cal = s.cal := rfl
@[simp] theorem State.reach_tdc (s : State) (t : Nat) : (s.reach t).tdc = s.tdc := rfl
@[simp] theorem State.reach_plc (s : State) (t : Nat) : (s.reach t).plc = s.plc := rfl
@[simp] theorem State.reach_bot (s : State) (t : Nat) : (s.reach t).bot = s.bot := rfl
@[simp] theorem State.reach_rd (s : State) (t : Nat) (o' e' : Nat) : (s.reach t).rd o' e' = s.rd o' e' := rfl

/-! draw -/
@[simp] theorem State.draw_pending (s : State) : (s.draw).pending = s.pending := rfl
@[simp] theorem State.draw_now (s : State) : (s.draw).now = s.now := rfl
@[simp] theorem State.draw_od (s : State) : (s.draw).od = s.od := rfl
@[simp] theorem State.draw_images (s : State) : (s.draw).images = s.images := rfl
@[simp] theorem State.draw_out (s : State) : (s.draw).out = s.out := rfl
@[simp] theorem State.draw_trans (s : State) : (s.draw).trans = s.trans := rfl
@[simp] theorem State.draw_safeWanted (s : State) : (s.draw).safeWanted = s.safeWanted := rfl
@[simp] theorem State.draw_cores (s : State) : (s.draw).cores = s.cores := rfl
@[simp] theorem State.draw_ready (s : State) : (s.draw).ready = s.ready := rfl
@[simp] theorem State.draw_flowFree (s : State) : (s.draw).flowFree = s.flowFree := rfl
@[simp] theorem State.draw_homes (s : State) : (s.draw).homes = s.homes := rfl
@[simp] theorem State.draw_wdpFullAt (s : State) : (s.draw).wdpFullAt = s.wdpFullAt := rfl
@[simp] theorem State.draw_wdpTrace (s : State) : (s.draw).wdpTrace = s.wdpTrace := rfl
@[simp] theorem State.draw_wdpLost (s : State) : (s.draw).wdpLost = s.wdpLost := rfl
@[simp] theorem State.draw_srcs (s : State) : (s.draw).srcs = s.srcs := rfl
@[simp] theorem State.draw_groups (s : State) : (s.draw).groups = s.groups := rfl
@[simp] theorem State.draw_fcr (s : State) : (s.draw).fcr = s.fcr := rfl
@[simp] theorem State.draw_clk (s : State) : (s.draw).clk = s.clk := rfl
@[simp] theorem State.draw_poa (s : State) : (s.draw).poa = s.poa := rfl
@[simp] theorem State.draw_hlk (s : State) : (s.draw).hlk = s.hlk := rfl
@[simp] theorem State.draw_loops (s : State) : (s.draw).loops = s.loops := rfl
@[simp] theorem State.draw_adc (s : State) : (s.draw).adc = s.adc := rfl
@[simp] theorem State.draw_psm (s : State) : (s.draw).psm = s.psm := rfl
@[simp] theorem State.draw_ode (s : State) : (s.draw).ode = s.ode := rfl
@[simp] theorem State.draw_waiters (s : State) : (s.draw).waiters = s.waiters := rfl
@[simp] theorem State.draw_results (s : State) : (s.draw).results = s.results := rfl
@[simp] theorem State.draw_jobs (s : State) : (s.draw).jobs = s.jobs := rfl
@[simp] theorem State.draw_chartLen (s : State) : (s.draw).chartLen = s.chartLen := rfl
@[simp] theorem State.draw_mem (s : State) : (s.draw).mem = s.mem := rfl
@[simp] theorem State.draw_hms (s : State) : (s.draw).hms = s.hms := rfl
@[simp] theorem State.draw_staged (s : State) : (s.draw).staged = s.staged := rfl
@[simp] theorem State.draw_ndls (s : State) : (s.draw).ndls = s.ndls := rfl
@[simp] theorem State.draw_evts (s : State) : (s.draw).evts = s.evts := rfl
@[simp] theorem State.draw_ucode (s : State) : (s.draw).ucode = s.ucode := rfl
@[simp] theorem State.draw_ubase (s : State) : (s.draw).ubase = s.ubase := rfl
@[simp] theorem State.draw_traps (s : State) : (s.draw).traps = s.traps := rfl
@[simp] theorem State.draw_sites (s : State) : (s.draw).sites = s.sites := rfl
@[simp] theorem State.draw_queues (s : State) : (s.draw).queues = s.queues := rfl
@[simp] theorem State.draw_pins (s : State) : (s.draw).pins = s.pins := rfl
@[simp] theorem State.draw_levelBus (s : State) : (s.draw).levelBus = s.levelBus := rfl
@[simp] theorem State.draw_levelFree (s : State) : (s.draw).levelFree = s.levelFree := rfl
@[simp] theorem State.draw_ras (s : State) : (s.draw).ras = s.ras := rfl
@[simp] theorem State.draw_tae (s : State) : (s.draw).tae = s.tae := rfl
@[simp] theorem State.draw_csl (s : State) : (s.draw).csl = s.csl := rfl
@[simp] theorem State.draw_cal (s : State) : (s.draw).cal = s.cal := rfl
@[simp] theorem State.draw_tdc (s : State) : (s.draw).tdc = s.tdc := rfl
@[simp] theorem State.draw_plc (s : State) : (s.draw).plc = s.plc := rfl
@[simp] theorem State.draw_bot (s : State) : (s.draw).bot = s.bot := rfl
@[simp] theorem State.draw_rd (s : State) (o' e' : Nat) : (s.draw).rd o' e' = s.rd o' e' := rfl

/-! emit -/
@[simp] theorem State.emit_pending (s : State) (m : OutMsg) : (s.emit m).pending = s.pending := rfl
@[simp] theorem State.emit_now (s : State) (m : OutMsg) : (s.emit m).now = s.now := rfl
@[simp] theorem State.emit_freeCtr (s : State) (m : OutMsg) : (s.emit m).freeCtr = s.freeCtr := rfl
@[simp] theorem State.emit_od (s : State) (m : OutMsg) : (s.emit m).od = s.od := rfl
@[simp] theorem State.emit_images (s : State) (m : OutMsg) : (s.emit m).images = s.images := rfl
@[simp] theorem State.emit_trans (s : State) (m : OutMsg) : (s.emit m).trans = s.trans := rfl
@[simp] theorem State.emit_safeWanted (s : State) (m : OutMsg) : (s.emit m).safeWanted = s.safeWanted := rfl
@[simp] theorem State.emit_cores (s : State) (m : OutMsg) : (s.emit m).cores = s.cores := rfl
@[simp] theorem State.emit_ready (s : State) (m : OutMsg) : (s.emit m).ready = s.ready := rfl
@[simp] theorem State.emit_flowFree (s : State) (m : OutMsg) : (s.emit m).flowFree = s.flowFree := rfl
@[simp] theorem State.emit_homes (s : State) (m : OutMsg) : (s.emit m).homes = s.homes := rfl
@[simp] theorem State.emit_wdpFullAt (s : State) (m : OutMsg) : (s.emit m).wdpFullAt = s.wdpFullAt := rfl
@[simp] theorem State.emit_wdpTrace (s : State) (m : OutMsg) : (s.emit m).wdpTrace = s.wdpTrace := rfl
@[simp] theorem State.emit_wdpLost (s : State) (m : OutMsg) : (s.emit m).wdpLost = s.wdpLost := rfl
@[simp] theorem State.emit_srcs (s : State) (m : OutMsg) : (s.emit m).srcs = s.srcs := rfl
@[simp] theorem State.emit_groups (s : State) (m : OutMsg) : (s.emit m).groups = s.groups := rfl
@[simp] theorem State.emit_fcr (s : State) (m : OutMsg) : (s.emit m).fcr = s.fcr := rfl
@[simp] theorem State.emit_clk (s : State) (m : OutMsg) : (s.emit m).clk = s.clk := rfl
@[simp] theorem State.emit_poa (s : State) (m : OutMsg) : (s.emit m).poa = s.poa := rfl
@[simp] theorem State.emit_hlk (s : State) (m : OutMsg) : (s.emit m).hlk = s.hlk := rfl
@[simp] theorem State.emit_loops (s : State) (m : OutMsg) : (s.emit m).loops = s.loops := rfl
@[simp] theorem State.emit_adc (s : State) (m : OutMsg) : (s.emit m).adc = s.adc := rfl
@[simp] theorem State.emit_psm (s : State) (m : OutMsg) : (s.emit m).psm = s.psm := rfl
@[simp] theorem State.emit_ode (s : State) (m : OutMsg) : (s.emit m).ode = s.ode := rfl
@[simp] theorem State.emit_waiters (s : State) (m : OutMsg) : (s.emit m).waiters = s.waiters := rfl
@[simp] theorem State.emit_results (s : State) (m : OutMsg) : (s.emit m).results = s.results := rfl
@[simp] theorem State.emit_jobs (s : State) (m : OutMsg) : (s.emit m).jobs = s.jobs := rfl
@[simp] theorem State.emit_chartLen (s : State) (m : OutMsg) : (s.emit m).chartLen = s.chartLen := rfl
@[simp] theorem State.emit_mem (s : State) (m : OutMsg) : (s.emit m).mem = s.mem := rfl
@[simp] theorem State.emit_hms (s : State) (m : OutMsg) : (s.emit m).hms = s.hms := rfl
@[simp] theorem State.emit_staged (s : State) (m : OutMsg) : (s.emit m).staged = s.staged := rfl
@[simp] theorem State.emit_ndls (s : State) (m : OutMsg) : (s.emit m).ndls = s.ndls := rfl
@[simp] theorem State.emit_evts (s : State) (m : OutMsg) : (s.emit m).evts = s.evts := rfl
@[simp] theorem State.emit_ucode (s : State) (m : OutMsg) : (s.emit m).ucode = s.ucode := rfl
@[simp] theorem State.emit_ubase (s : State) (m : OutMsg) : (s.emit m).ubase = s.ubase := rfl
@[simp] theorem State.emit_traps (s : State) (m : OutMsg) : (s.emit m).traps = s.traps := rfl
@[simp] theorem State.emit_sites (s : State) (m : OutMsg) : (s.emit m).sites = s.sites := rfl
@[simp] theorem State.emit_queues (s : State) (m : OutMsg) : (s.emit m).queues = s.queues := rfl
@[simp] theorem State.emit_pins (s : State) (m : OutMsg) : (s.emit m).pins = s.pins := rfl
@[simp] theorem State.emit_levelBus (s : State) (m : OutMsg) : (s.emit m).levelBus = s.levelBus := rfl
@[simp] theorem State.emit_levelFree (s : State) (m : OutMsg) : (s.emit m).levelFree = s.levelFree := rfl
@[simp] theorem State.emit_ras (s : State) (m : OutMsg) : (s.emit m).ras = s.ras := rfl
@[simp] theorem State.emit_tae (s : State) (m : OutMsg) : (s.emit m).tae = s.tae := rfl
@[simp] theorem State.emit_csl (s : State) (m : OutMsg) : (s.emit m).csl = s.csl := rfl
@[simp] theorem State.emit_cal (s : State) (m : OutMsg) : (s.emit m).cal = s.cal := rfl
@[simp] theorem State.emit_tdc (s : State) (m : OutMsg) : (s.emit m).tdc = s.tdc := rfl
@[simp] theorem State.emit_plc (s : State) (m : OutMsg) : (s.emit m).plc = s.plc := rfl
@[simp] theorem State.emit_bot (s : State) (m : OutMsg) : (s.emit m).bot = s.bot := rfl
@[simp] theorem State.emit_rd (s : State) (m : OutMsg) (o' e' : Nat) : (s.emit m).rd o' e' = s.rd o' e' := rfl

/-! result -/
@[simp] theorem State.result_pending (s : State) (t : Token) (r : Nat) (b : Bytes) : (s.result t r b).pending = s.pending := rfl
@[simp] theorem State.result_now (s : State) (t : Token) (r : Nat) (b : Bytes) : (s.result t r b).now = s.now := rfl
@[simp] theorem State.result_freeCtr (s : State) (t : Token) (r : Nat) (b : Bytes) : (s.result t r b).freeCtr = s.freeCtr := rfl
@[simp] theorem State.result_od (s : State) (t : Token) (r : Nat) (b : Bytes) : (s.result t r b).od = s.od := rfl
@[simp] theorem State.result_images (s : State) (t : Token) (r : Nat) (b : Bytes) : (s.result t r b).images = s.images := rfl
@[simp] theorem State.result_out (s : State) (t : Token) (r : Nat) (b : Bytes) : (s.result t r b).out = s.out := rfl
@[simp] theorem State.result_trans (s : State) (t : Token) (r : Nat) (b : Bytes) : (s.result t r b).trans = s.trans := rfl
@[simp] theorem State.result_safeWanted (s : State) (t : Token) (r : Nat) (b : Bytes) : (s.result t r b).safeWanted = s.safeWanted := rfl
@[simp] theorem State.result_cores (s : State) (t : Token) (r : Nat) (b : Bytes) : (s.result t r b).cores = s.cores := rfl
@[simp] theorem State.result_ready (s : State) (t : Token) (r : Nat) (b : Bytes) : (s.result t r b).ready = s.ready := rfl
@[simp] theorem State.result_flowFree (s : State) (t : Token) (r : Nat) (b : Bytes) : (s.result t r b).flowFree = s.flowFree := rfl
@[simp] theorem State.result_homes (s : State) (t : Token) (r : Nat) (b : Bytes) : (s.result t r b).homes = s.homes := rfl
@[simp] theorem State.result_wdpFullAt (s : State) (t : Token) (r : Nat) (b : Bytes) : (s.result t r b).wdpFullAt = s.wdpFullAt := rfl
@[simp] theorem State.result_wdpTrace (s : State) (t : Token) (r : Nat) (b : Bytes) : (s.result t r b).wdpTrace = s.wdpTrace := rfl
@[simp] theorem State.result_wdpLost (s : State) (t : Token) (r : Nat) (b : Bytes) : (s.result t r b).wdpLost = s.wdpLost := rfl
@[simp] theorem State.result_srcs (s : State) (t : Token) (r : Nat) (b : Bytes) : (s.result t r b).srcs = s.srcs := rfl
@[simp] theorem State.result_groups (s : State) (t : Token) (r : Nat) (b : Bytes) : (s.result t r b).groups = s.groups := rfl
@[simp] theorem State.result_fcr (s : State) (t : Token) (r : Nat) (b : Bytes) : (s.result t r b).fcr = s.fcr := rfl
@[simp] theorem State.result_clk (s : State) (t : Token) (r : Nat) (b : Bytes) : (s.result t r b).clk = s.clk := rfl
@[simp] theorem State.result_poa (s : State) (t : Token) (r : Nat) (b : Bytes) : (s.result t r b).poa = s.poa := rfl
@[simp] theorem State.result_hlk (s : State) (t : Token) (r : Nat) (b : Bytes) : (s.result t r b).hlk = s.hlk := rfl
@[simp] theorem State.result_loops (s : State) (t : Token) (r : Nat) (b : Bytes) : (s.result t r b).loops = s.loops := rfl
@[simp] theorem State.result_adc (s : State) (t : Token) (r : Nat) (b : Bytes) : (s.result t r b).adc = s.adc := rfl
@[simp] theorem State.result_psm (s : State) (t : Token) (r : Nat) (b : Bytes) : (s.result t r b).psm = s.psm := rfl
@[simp] theorem State.result_ode (s : State) (t : Token) (r : Nat) (b : Bytes) : (s.result t r b).ode = s.ode := rfl
@[simp] theorem State.result_waiters (s : State) (t : Token) (r : Nat) (b : Bytes) : (s.result t r b).waiters = s.waiters := rfl
@[simp] theorem State.result_jobs (s : State) (t : Token) (r : Nat) (b : Bytes) : (s.result t r b).jobs = s.jobs := rfl
@[simp] theorem State.result_chartLen (s : State) (t : Token) (r : Nat) (b : Bytes) : (s.result t r b).chartLen = s.chartLen := rfl
@[simp] theorem State.result_mem (s : State) (t : Token) (r : Nat) (b : Bytes) : (s.result t r b).mem = s.mem := rfl
@[simp] theorem State.result_hms (s : State) (t : Token) (r : Nat) (b : Bytes) : (s.result t r b).hms = s.hms := rfl
@[simp] theorem State.result_staged (s : State) (t : Token) (r : Nat) (b : Bytes) : (s.result t r b).staged = s.staged := rfl
@[simp] theorem State.result_ndls (s : State) (t : Token) (r : Nat) (b : Bytes) : (s.result t r b).ndls = s.ndls := rfl
@[simp] theorem State.result_evts (s : State) (t : Token) (r : Nat) (b : Bytes) : (s.result t r b).evts = s.evts := rfl
@[simp] theorem State.result_ucode (s : State) (t : Token) (r : Nat) (b : Bytes) : (s.result t r b).ucode = s.ucode := rfl
@[simp] theorem State.result_ubase (s : State) (t : Token) (r : Nat) (b : Bytes) : (s.result t r b).ubase = s.ubase := rfl
@[simp] theorem State.result_traps (s : State) (t : Token) (r : Nat) (b : Bytes) : (s.result t r b).traps = s.traps := rfl
@[simp] theorem State.result_sites (s : State) (t : Token) (r : Nat) (b : Bytes) : (s.result t r b).sites = s.sites := rfl
@[simp] theorem State.result_queues (s : State) (t : Token) (r : Nat) (b : Bytes) : (s.result t r b).queues = s.queues := rfl
@[simp] theorem State.result_pins (s : State) (t : Token) (r : Nat) (b : Bytes) : (s.result t r b).pins = s.pins := rfl
@[simp] theorem State.result_levelBus (s : State) (t : Token) (r : Nat) (b : Bytes) : (s.result t r b).levelBus = s.levelBus := rfl
@[simp] theorem State.result_levelFree (s : State) (t : Token) (r : Nat) (b : Bytes) : (s.result t r b).levelFree = s.levelFree := rfl
@[simp] theorem State.result_ras (s : State) (t : Token) (r : Nat) (b : Bytes) : (s.result t r b).ras = s.ras := rfl
@[simp] theorem State.result_tae (s : State) (t : Token) (r : Nat) (b : Bytes) : (s.result t r b).tae = s.tae := rfl
@[simp] theorem State.result_csl (s : State) (t : Token) (r : Nat) (b : Bytes) : (s.result t r b).csl = s.csl := rfl
@[simp] theorem State.result_cal (s : State) (t : Token) (r : Nat) (b : Bytes) : (s.result t r b).cal = s.cal := rfl
@[simp] theorem State.result_tdc (s : State) (t : Token) (r : Nat) (b : Bytes) : (s.result t r b).tdc = s.tdc := rfl
@[simp] theorem State.result_plc (s : State) (t : Token) (r : Nat) (b : Bytes) : (s.result t r b).plc = s.plc := rfl
@[simp] theorem State.result_bot (s : State) (t : Token) (r : Nat) (b : Bytes) : (s.result t r b).bot = s.bot := rfl
@[simp] theorem State.result_rd (s : State) (t : Token) (r : Nat) (b : Bytes) (o' e' : Nat) : (s.result t r b).rd o' e' = s.rd o' e' := rfl

/-! wr -/
@[simp] theorem State.wr_pending (s : State) (o e v : Nat) : (s.wr o e v).pending = s.pending := rfl
@[simp] theorem State.wr_now (s : State) (o e v : Nat) : (s.wr o e v).now = s.now := rfl
@[simp] theorem State.wr_freeCtr (s : State) (o e v : Nat) : (s.wr o e v).freeCtr = s.freeCtr := rfl
@[simp] theorem State.wr_images (s : State) (o e v : Nat) : (s.wr o e v).images = s.images := rfl
@[simp] theorem State.wr_out (s : State) (o e v : Nat) : (s.wr o e v).out = s.out := rfl
@[simp] theorem State.wr_trans (s : State) (o e v : Nat) : (s.wr o e v).trans = s.trans := rfl
@[simp] theorem State.wr_safeWanted (s : State) (o e v : Nat) : (s.wr o e v).safeWanted = s.safeWanted := rfl
@[simp] theorem State.wr_cores (s : State) (o e v : Nat) : (s.wr o e v).cores = s.cores := rfl
@[simp] theorem State.wr_ready (s : State) (o e v : Nat) : (s.wr o e v).ready = s.ready := rfl
@[simp] theorem State.wr_flowFree (s : State) (o e v : Nat) : (s.wr o e v).flowFree = s.flowFree := rfl
@[simp] theorem State.wr_homes (s : State) (o e v : Nat) : (s.wr o e v).homes = s.homes := rfl
@[simp] theorem State.wr_wdpFullAt (s : State) (o e v : Nat) : (s.wr o e v).wdpFullAt = s.wdpFullAt := rfl
@[simp] theorem State.wr_wdpTrace (s : State) (o e v : Nat) : (s.wr o e v).wdpTrace = s.wdpTrace := rfl
@[simp] theorem State.wr_wdpLost (s : State) (o e v : Nat) : (s.wr o e v).wdpLost = s.wdpLost := rfl
@[simp] theorem State.wr_srcs (s : State) (o e v : Nat) : (s.wr o e v).srcs = s.srcs := rfl
@[simp] theorem State.wr_groups (s : State) (o e v : Nat) : (s.wr o e v).groups = s.groups := rfl
@[simp] theorem State.wr_fcr (s : State) (o e v : Nat) : (s.wr o e v).fcr = s.fcr := rfl
@[simp] theorem State.wr_clk (s : State) (o e v : Nat) : (s.wr o e v).clk = s.clk := rfl
@[simp] theorem State.wr_poa (s : State) (o e v : Nat) : (s.wr o e v).poa = s.poa := rfl
@[simp] theorem State.wr_hlk (s : State) (o e v : Nat) : (s.wr o e v).hlk = s.hlk := rfl
@[simp] theorem State.wr_loops (s : State) (o e v : Nat) : (s.wr o e v).loops = s.loops := rfl
@[simp] theorem State.wr_adc (s : State) (o e v : Nat) : (s.wr o e v).adc = s.adc := rfl
@[simp] theorem State.wr_psm (s : State) (o e v : Nat) : (s.wr o e v).psm = s.psm := rfl
@[simp] theorem State.wr_ode (s : State) (o e v : Nat) : (s.wr o e v).ode = s.ode := rfl
@[simp] theorem State.wr_waiters (s : State) (o e v : Nat) : (s.wr o e v).waiters = s.waiters := rfl
@[simp] theorem State.wr_results (s : State) (o e v : Nat) : (s.wr o e v).results = s.results := rfl
@[simp] theorem State.wr_jobs (s : State) (o e v : Nat) : (s.wr o e v).jobs = s.jobs := rfl
@[simp] theorem State.wr_chartLen (s : State) (o e v : Nat) : (s.wr o e v).chartLen = s.chartLen := rfl
@[simp] theorem State.wr_mem (s : State) (o e v : Nat) : (s.wr o e v).mem = s.mem := rfl
@[simp] theorem State.wr_hms (s : State) (o e v : Nat) : (s.wr o e v).hms = s.hms := rfl
@[simp] theorem State.wr_staged (s : State) (o e v : Nat) : (s.wr o e v).staged = s.staged := rfl
@[simp] theorem State.wr_ndls (s : State) (o e v : Nat) : (s.wr o e v).ndls = s.ndls := rfl
@[simp] theorem State.wr_evts (s : State) (o e v : Nat) : (s.wr o e v).evts = s.evts := rfl
@[simp] theorem State.wr_ucode (s : State) (o e v : Nat) : (s.wr o e v).ucode = s.ucode := rfl
@[simp] theorem State.wr_ubase (s : State) (o e v : Nat) : (s.wr o e v).ubase = s.ubase := rfl
@[simp] theorem State.wr_traps (s : State) (o e v : Nat) : (s.wr o e v).traps = s.traps := rfl
@[simp] theorem State.wr_sites (s : State) (o e v : Nat) : (s.wr o e v).sites = s.sites := rfl
@[simp] theorem State.wr_queues (s : State) (o e v : Nat) : (s.wr o e v).queues = s.queues := rfl
@[simp] theorem State.wr_pins (s : State) (o e v : Nat) : (s.wr o e v).pins = s.pins := rfl
@[simp] theorem State.wr_levelBus (s : State) (o e v : Nat) : (s.wr o e v).levelBus = s.levelBus := rfl
@[simp] theorem State.wr_levelFree (s : State) (o e v : Nat) : (s.wr o e v).levelFree = s.levelFree := rfl
@[simp] theorem State.wr_ras (s : State) (o e v : Nat) : (s.wr o e v).ras = s.ras := rfl
@[simp] theorem State.wr_tae (s : State) (o e v : Nat) : (s.wr o e v).tae = s.tae := rfl
@[simp] theorem State.wr_csl (s : State) (o e v : Nat) : (s.wr o e v).csl = s.csl := rfl
@[simp] theorem State.wr_cal (s : State) (o e v : Nat) : (s.wr o e v).cal = s.cal := rfl
@[simp] theorem State.wr_tdc (s : State) (o e v : Nat) : (s.wr o e v).tdc = s.tdc := rfl
@[simp] theorem State.wr_plc (s : State) (o e v : Nat) : (s.wr o e v).plc = s.plc := rfl
@[simp] theorem State.wr_bot (s : State) (o e v : Nat) : (s.wr o e v).bot = s.bot := rfl

/-! setFld -/
@[simp] theorem State.setFld_pending (s : State) (o e : Nat) (f : Fld) (v : Nat) : (s.setFld o e f v).pending = s.pending := rfl
@[simp] theorem State.setFld_now (s : State) (o e : Nat) (f : Fld) (v : Nat) : (s.setFld o e f v).now = s.now := rfl
@[simp] theorem State.setFld_freeCtr (s : State) (o e : Nat) (f : Fld) (v : Nat) : (s.setFld o e f v).freeCtr = s.freeCtr := rfl
@[simp] theorem State.setFld_images (s : State) (o e : Nat) (f : Fld) (v : Nat) : (s.setFld o e f v).images = s.images := rfl
@[simp] theorem State.setFld_out (s : State) (o e : Nat) (f : Fld) (v : Nat) : (s.setFld o e f v).out = s.out := rfl
@[simp] theorem State.setFld_trans (s : State) (o e : Nat) (f : Fld) (v : Nat) : (s.setFld o e f v).trans = s.trans := rfl
@[simp] theorem State.setFld_safeWanted (s : State) (o e : Nat) (f : Fld) (v : Nat) : (s.setFld o e f v).safeWanted = s.safeWanted := rfl
@[simp] theorem State.setFld_cores (s : State) (o e : Nat) (f : Fld) (v : Nat) : (s.setFld o e f v).cores = s.cores := rfl
@[simp] theorem State.setFld_ready (s : State) (o e : Nat) (f : Fld) (v : Nat) : (s.setFld o e f v).ready = s.ready := rfl
@[simp] theorem State.setFld_flowFree (s : State) (o e : Nat) (f : Fld) (v : Nat) : (s.setFld o e f v).flowFree = s.flowFree := rfl
@[simp] theorem State.setFld_homes (s : State) (o e : Nat) (f : Fld) (v : Nat) : (s.setFld o e f v).homes = s.homes := rfl
@[simp] theorem State.setFld_wdpFullAt (s : State) (o e : Nat) (f : Fld) (v : Nat) : (s.setFld o e f v).wdpFullAt = s.wdpFullAt := rfl
@[simp] theorem State.setFld_wdpTrace (s : State) (o e : Nat) (f : Fld) (v : Nat) : (s.setFld o e f v).wdpTrace = s.wdpTrace := rfl
@[simp] theorem State.setFld_wdpLost (s : State) (o e : Nat) (f : Fld) (v : Nat) : (s.setFld o e f v).wdpLost = s.wdpLost := rfl
@[simp] theorem State.setFld_srcs (s : State) (o e : Nat) (f : Fld) (v : Nat) : (s.setFld o e f v).srcs = s.srcs := rfl
@[simp] theorem State.setFld_groups (s : State) (o e : Nat) (f : Fld) (v : Nat) : (s.setFld o e f v).groups = s.groups := rfl
@[simp] theorem State.setFld_fcr (s : State) (o e : Nat) (f : Fld) (v : Nat) : (s.setFld o e f v).fcr = s.fcr := rfl
@[simp] theorem State.setFld_clk (s : State) (o e : Nat) (f : Fld) (v : Nat) : (s.setFld o e f v).clk = s.clk := rfl
@[simp] theorem State.setFld_poa (s : State) (o e : Nat) (f : Fld) (v : Nat) : (s.setFld o e f v).poa = s.poa := rfl
@[simp] theorem State.setFld_hlk (s : State) (o e : Nat) (f : Fld) (v : Nat) : (s.setFld o e f v).hlk = s.hlk := rfl
@[simp] theorem State.setFld_loops (s : State) (o e : Nat) (f : Fld) (v : Nat) : (s.setFld o e f v).loops = s.loops := rfl
@[simp] theorem State.setFld_adc (s : State) (o e : Nat) (f : Fld) (v : Nat) : (s.setFld o e f v).adc = s.adc := rfl
@[simp] theorem State.setFld_psm (s : State) (o e : Nat) (f : Fld) (v : Nat) : (s.setFld o e f v).psm = s.psm := rfl
@[simp] theorem State.setFld_ode (s : State) (o e : Nat) (f : Fld) (v : Nat) : (s.setFld o e f v).ode = s.ode := rfl
@[simp] theorem State.setFld_waiters (s : State) (o e : Nat) (f : Fld) (v : Nat) : (s.setFld o e f v).waiters = s.waiters := rfl
@[simp] theorem State.setFld_results (s : State) (o e : Nat) (f : Fld) (v : Nat) : (s.setFld o e f v).results = s.results := rfl
@[simp] theorem State.setFld_jobs (s : State) (o e : Nat) (f : Fld) (v : Nat) : (s.setFld o e f v).jobs = s.jobs := rfl
@[simp] theorem State.setFld_chartLen (s : State) (o e : Nat) (f : Fld) (v : Nat) : (s.setFld o e f v).chartLen = s.chartLen := rfl
@[simp] theorem State.setFld_mem (s : State) (o e : Nat) (f : Fld) (v : Nat) : (s.setFld o e f v).mem = s.mem := rfl
@[simp] theorem State.setFld_hms (s : State) (o e : Nat) (f : Fld) (v : Nat) : (s.setFld o e f v).hms = s.hms := rfl
@[simp] theorem State.setFld_staged (s : State) (o e : Nat) (f : Fld) (v : Nat) : (s.setFld o e f v).staged = s.staged := rfl
@[simp] theorem State.setFld_ndls (s : State) (o e : Nat) (f : Fld) (v : Nat) : (s.setFld o e f v).ndls = s.ndls := rfl
@[simp] theorem State.setFld_evts (s : State) (o e : Nat) (f : Fld) (v : Nat) : (s.setFld o e f v).evts = s.evts := rfl
@[simp] theorem State.setFld_ucode (s : State) (o e : Nat) (f : Fld) (v : Nat) : (s.setFld o e f v).ucode = s.ucode := rfl
@[simp] theorem State.setFld_ubase (s : State) (o e : Nat) (f : Fld) (v : Nat) : (s.setFld o e f v).ubase = s.ubase := rfl
@[simp] theorem State.setFld_traps (s : State) (o e : Nat) (f : Fld) (v : Nat) : (s.setFld o e f v).traps = s.traps := rfl
@[simp] theorem State.setFld_sites (s : State) (o e : Nat) (f : Fld) (v : Nat) : (s.setFld o e f v).sites = s.sites := rfl
@[simp] theorem State.setFld_queues (s : State) (o e : Nat) (f : Fld) (v : Nat) : (s.setFld o e f v).queues = s.queues := rfl
@[simp] theorem State.setFld_pins (s : State) (o e : Nat) (f : Fld) (v : Nat) : (s.setFld o e f v).pins = s.pins := rfl
@[simp] theorem State.setFld_levelBus (s : State) (o e : Nat) (f : Fld) (v : Nat) : (s.setFld o e f v).levelBus = s.levelBus := rfl
@[simp] theorem State.setFld_levelFree (s : State) (o e : Nat) (f : Fld) (v : Nat) : (s.setFld o e f v).levelFree = s.levelFree := rfl
@[simp] theorem State.setFld_ras (s : State) (o e : Nat) (f : Fld) (v : Nat) : (s.setFld o e f v).ras = s.ras := rfl
@[simp] theorem State.setFld_tae (s : State) (o e : Nat) (f : Fld) (v : Nat) : (s.setFld o e f v).tae = s.tae := rfl
@[simp] theorem State.setFld_csl (s : State) (o e : Nat) (f : Fld) (v : Nat) : (s.setFld o e f v).csl = s.csl := rfl
@[simp] theorem State.setFld_cal (s : State) (o e : Nat) (f : Fld) (v : Nat) : (s.setFld o e f v).cal = s.cal := rfl
@[simp] theorem State.setFld_tdc (s : State) (o e : Nat) (f : Fld) (v : Nat) : (s.setFld o e f v).tdc = s.tdc := rfl
@[simp] theorem State.setFld_plc (s : State) (o e : Nat) (f : Fld) (v : Nat) : (s.setFld o e f v).plc = s.plc := rfl
@[simp] theorem State.setFld_bot (s : State) (o e : Nat) (f : Fld) (v : Nat) : (s.setFld o e f v).bot = s.bot := rfl

/-! setImg -/
@[simp] theorem State.setImg_pending (s : State) (o e : Nat) (b : Bytes) : (s.setImg o e b).pending = s.pending := rfl
@[simp] theorem State.setImg_now (s : State) (o e : Nat) (b : Bytes) : (s.setImg o e b).now = s.now := rfl
@[simp] theorem State.setImg_freeCtr (s : State) (o e : Nat) (b : Bytes) : (s.setImg o e b).freeCtr = s.freeCtr := rfl
@[simp] theorem State.setImg_od (s : State) (o e : Nat) (b : Bytes) : (s.setImg o e b).od = s.od := rfl
@[simp] theorem State.setImg_out (s : State) (o e : Nat) (b : Bytes) : (s.setImg o e b).out = s.out := rfl
@[simp] theorem State.setImg_trans (s : State) (o e : Nat) (b : Bytes) : (s.setImg o e b).trans = s.trans := rfl
@[simp] theorem State.setImg_safeWanted (s : State) (o e : Nat) (b : Bytes) : (s.setImg o e b).safeWanted = s.safeWanted := rfl
@[simp] theorem State.setImg_cores (s : State) (o e : Nat) (b : Bytes) : (s.setImg o e b).cores = s.cores := rfl
@[simp] theorem State.setImg_ready (s : State) (o e : Nat) (b : Bytes) : (s.setImg o e b).ready = s.ready := rfl
@[simp] theorem State.setImg_flowFree (s : State) (o e : Nat) (b : Bytes) : (s.setImg o e b).flowFree = s.flowFree := rfl
@[simp] theorem State.setImg_homes (s : State) (o e : Nat) (b : Bytes) : (s.setImg o e b).homes = s.homes := rfl
@[simp] theorem State.setImg_wdpFullAt (s : State) (o e : Nat) (b : Bytes) : (s.setImg o e b).wdpFullAt = s.wdpFullAt := rfl
@[simp] theorem State.setImg_wdpTrace (s : State) (o e : Nat) (b : Bytes) : (s.setImg o e b).wdpTrace = s.wdpTrace := rfl
@[simp] theorem State.setImg_wdpLost (s : State) (o e : Nat) (b : Bytes) : (s.setImg o e b).wdpLost = s.wdpLost := rfl
@[simp] theorem State.setImg_srcs (s : State) (o e : Nat) (b : Bytes) : (s.setImg o e b).srcs = s.srcs := rfl
@[simp] theorem State.setImg_groups (s : State) (o e : Nat) (b : Bytes) : (s.setImg o e b).groups = s.groups := rfl
@[simp] theorem State.setImg_fcr (s : State) (o e : Nat) (b : Bytes) : (s.setImg o e b).fcr = s.fcr := rfl
@[simp] theorem State.setImg_clk (s : State) (o e : Nat) (b : Bytes) : (s.setImg o e b).clk = s.clk := rfl
@[simp] theorem State.setImg_poa (s : State) (o e : Nat) (b : Bytes) : (s.setImg o e b).poa = s.poa := rfl
@[simp] theorem State.setImg_hlk (s : State) (o e : Nat) (b : Bytes) : (s.setImg o e b).hlk = s.hlk := rfl
@[simp] theorem State.setImg_loops (s : State) (o e : Nat) (b : Bytes) : (s.setImg o e b).loops = s.loops := rfl
@[simp] theorem State.setImg_adc (s : State) (o e : Nat) (b : Bytes) : (s.setImg o e b).adc = s.adc := rfl
@[simp] theorem State.setImg_psm (s : State) (o e : Nat) (b : Bytes) : (s.setImg o e b).psm = s.psm := rfl
@[simp] theorem State.setImg_ode (s : State) (o e : Nat) (b : Bytes) : (s.setImg o e b).ode = s.ode := rfl
@[simp] theorem State.setImg_waiters (s : State) (o e : Nat) (b : Bytes) : (s.setImg o e b).waiters = s.waiters := rfl
@[simp] theorem State.setImg_results (s : State) (o e : Nat) (b : Bytes) : (s.setImg o e b).results = s.results := rfl
@[simp] theorem State.setImg_jobs (s : State) (o e : Nat) (b : Bytes) : (s.setImg o e b).jobs = s.jobs := rfl
@[simp] theorem State.setImg_chartLen (s : State) (o e : Nat) (b : Bytes) : (s.setImg o e b).chartLen = s.chartLen := rfl
@[simp] theorem State.setImg_mem (s : State) (o e : Nat) (b : Bytes) : (s.setImg o e b).mem = s.mem := rfl
@[simp] theorem State.setImg_hms (s : State) (o e : Nat) (b : Bytes) : (s.setImg o e b).hms = s.hms := rfl
@[simp] theorem State.setImg_staged (s : State) (o e : Nat) (b : Bytes) : (s.setImg o e b).staged = s.staged := rfl
@[simp] theorem State.setImg_ndls (s : State) (o e : Nat) (b : Bytes) : (s.setImg o e b).ndls = s.ndls := rfl
@[simp] theorem State.setImg_evts (s : State) (o e : Nat) (b : Bytes) : (s.setImg o e b).evts = s.evts := rfl
@[simp] theorem State.setImg_ucode (s : State) (o e : Nat) (b : Bytes) : (s.setImg o e b).ucode = s.ucode := rfl
@[simp] theorem State.setImg_ubase (s : State) (o e : Nat) (b : Bytes) : (s.setImg o e b).ubase = s.ubase := rfl
@[simp] theorem State.setImg_traps (s : State) (o e : Nat) (b : Bytes) : (s.setImg o e b).traps = s.traps := rfl
@[simp] theorem State.setImg_sites (s : State) (o e : Nat) (b : Bytes) : (s.setImg o e b).sites = s.sites := rfl
@[simp] theorem State.setImg_queues (s : State) (o e : Nat) (b : Bytes) : (s.setImg o e b).queues = s.queues := rfl
@[simp] theorem State.setImg_pins (s : State) (o e : Nat) (b : Bytes) : (s.setImg o e b).pins = s.pins := rfl
@[simp] theorem State.setImg_levelBus (s : State) (o e : Nat) (b : Bytes) : (s.setImg o e b).levelBus = s.levelBus := rfl
@[simp] theorem State.setImg_levelFree (s : State) (o e : Nat) (b : Bytes) : (s.setImg o e b).levelFree = s.levelFree := rfl
@[simp] theorem State.setImg_ras (s : State) (o e : Nat) (b : Bytes) : (s.setImg o e b).ras = s.ras := rfl
@[simp] theorem State.setImg_tae (s : State) (o e : Nat) (b : Bytes) : (s.setImg o e b).tae = s.tae := rfl
@[simp] theorem State.setImg_csl (s : State) (o e : Nat) (b : Bytes) : (s.setImg o e b).csl = s.csl := rfl
@[simp] theorem State.setImg_cal (s : State) (o e : Nat) (b : Bytes) : (s.setImg o e b).cal = s.cal := rfl
@[simp] theorem State.setImg_tdc (s : State) (o e : Nat) (b : Bytes) : (s.setImg o e b).tdc = s.tdc := rfl
@[simp] theorem State.setImg_plc (s : State) (o e : Nat) (b : Bytes) : (s.setImg o e b).plc = s.plc := rfl
@[simp] theorem State.setImg_bot (s : State) (o e : Nat) (b : Bytes) : (s.setImg o e b).bot = s.bot := rfl
@[simp] theorem State.setImg_rd (s : State) (o e : Nat) (b : Bytes) (o' e' : Nat) : (s.setImg o e b).rd o' e' = s.rd o' e' := rfl

/-! setClk -/
@[simp] theorem State.setClk_pending (s : State) (c : ClkRt) : (s.setClk c).pending = s.pending := rfl
@[simp] theorem State.setClk_now (s : State) (c : ClkRt) : (s.setClk c).now = s.now := rfl
@[simp] theorem State.setClk_freeCtr (s : State) (c : ClkRt) : (s.setClk c).freeCtr = s.freeCtr := rfl
@[simp] theorem State.setClk_od (s : State) (c : ClkRt) : (s.setClk c).od = s.od := rfl
@[simp] theorem State.setClk_images (s : State) (c : ClkRt) : (s.setClk c).images = s.images := rfl
@[simp] theorem State.setClk_out (s : State) (c : ClkRt) : (s.setClk c).out = s.out := rfl
@[simp] theorem State.setClk_trans (s : State) (c : ClkRt) : (s.setClk c).trans = s.trans := rfl
@[simp] theorem State.setClk_safeWanted (s : State) (c : ClkRt) : (s.setClk c).safeWanted = s.safeWanted := rfl
@[simp] theorem State.setClk_cores (s : State) (c : ClkRt) : (s.setClk c).cores = s.cores := rfl
@[simp] theorem State.setClk_ready (s : State) (c : ClkRt) : (s.setClk c).ready = s.ready := rfl
@[simp] theorem State.setClk_flowFree (s : State) (c : ClkRt) : (s.setClk c).flowFree = s.flowFree := rfl
@[simp] theorem State.setClk_homes (s : State) (c : ClkRt) : (s.setClk c).homes = s.homes := rfl
@[simp] theorem State.setClk_wdpFullAt (s : State) (c : ClkRt) : (s.setClk c).wdpFullAt = s.wdpFullAt := rfl
@[simp] theorem State.setClk_wdpTrace (s : State) (c : ClkRt) : (s.setClk c).wdpTrace = s.wdpTrace := rfl
@[simp] theorem State.setClk_wdpLost (s : State) (c : ClkRt) : (s.setClk c).wdpLost = s.wdpLost := rfl
@[simp] theorem State.setClk_srcs (s : State) (c : ClkRt) : (s.setClk c).srcs = s.srcs := rfl
@[simp] theorem State.setClk_groups (s : State) (c : ClkRt) : (s.setClk c).groups = s.groups := rfl
@[simp] theorem State.setClk_fcr (s : State) (c : ClkRt) : (s.setClk c).fcr = s.fcr := rfl
@[simp] theorem State.setClk_poa (s : State) (c : ClkRt) : (s.setClk c).poa = s.poa := rfl
@[simp] theorem State.setClk_hlk (s : State) (c : ClkRt) : (s.setClk c).hlk = s.hlk := rfl
@[simp] theorem State.setClk_loops (s : State) (c : ClkRt) : (s.setClk c).loops = s.loops := rfl
@[simp] theorem State.setClk_adc (s : State) (c : ClkRt) : (s.setClk c).adc = s.adc := rfl
@[simp] theorem State.setClk_psm (s : State) (c : ClkRt) : (s.setClk c).psm = s.psm := rfl
@[simp] theorem State.setClk_ode (s : State) (c : ClkRt) : (s.setClk c).ode = s.ode := rfl
@[simp] theorem State.setClk_waiters (s : State) (c : ClkRt) : (s.setClk c).waiters = s.waiters := rfl
@[simp] theorem State.setClk_results (s : State) (c : ClkRt) : (s.setClk c).results = s.results := rfl
@[simp] theorem State.setClk_jobs (s : State) (c : ClkRt) : (s.setClk c).jobs = s.jobs := rfl
@[simp] theorem State.setClk_chartLen (s : State) (c : ClkRt) : (s.setClk c).chartLen = s.chartLen := rfl
@[simp] theorem State.setClk_mem (s : State) (c : ClkRt) : (s.setClk c).mem = s.mem := rfl
@[simp] theorem State.setClk_hms (s : State) (c : ClkRt) : (s.setClk c).hms = s.hms := rfl
@[simp] theorem State.setClk_staged (s : State) (c : ClkRt) : (s.setClk c).staged = s.staged := rfl
@[simp] theorem State.setClk_ndls (s : State) (c : ClkRt) : (s.setClk c).ndls = s.ndls := rfl
@[simp] theorem State.setClk_evts (s : State) (c : ClkRt) : (s.setClk c).evts = s.evts := rfl
@[simp] theorem State.setClk_ucode (s : State) (c : ClkRt) : (s.setClk c).ucode = s.ucode := rfl
@[simp] theorem State.setClk_ubase (s : State) (c : ClkRt) : (s.setClk c).ubase = s.ubase := rfl
@[simp] theorem State.setClk_traps (s : State) (c : ClkRt) : (s.setClk c).traps = s.traps := rfl
@[simp] theorem State.setClk_sites (s : State) (c : ClkRt) : (s.setClk c).sites = s.sites := rfl
@[simp] theorem State.setClk_queues (s : State) (c : ClkRt) : (s.setClk c).queues = s.queues := rfl
@[simp] theorem State.setClk_pins (s : State) (c : ClkRt) : (s.setClk c).pins = s.pins := rfl
@[simp] theorem State.setClk_levelBus (s : State) (c : ClkRt) : (s.setClk c).levelBus = s.levelBus := rfl
@[simp] theorem State.setClk_levelFree (s : State) (c : ClkRt) : (s.setClk c).levelFree = s.levelFree := rfl
@[simp] theorem State.setClk_ras (s : State) (c : ClkRt) : (s.setClk c).ras = s.ras := rfl
@[simp] theorem State.setClk_tae (s : State) (c : ClkRt) : (s.setClk c).tae = s.tae := rfl
@[simp] theorem State.setClk_csl (s : State) (c : ClkRt) : (s.setClk c).csl = s.csl := rfl
@[simp] theorem State.setClk_cal (s : State) (c : ClkRt) : (s.setClk c).cal = s.cal := rfl
@[simp] theorem State.setClk_tdc (s : State) (c : ClkRt) : (s.setClk c).tdc = s.tdc := rfl
@[simp] theorem State.setClk_plc (s : State) (c : ClkRt) : (s.setClk c).plc = s.plc := rfl
@[simp] theorem State.setClk_bot (s : State) (c : ClkRt) : (s.setClk c).bot = s.bot := rfl
@[simp] theorem State.setClk_rd (s : State) (c : ClkRt) (o' e' : Nat) : (s.setClk c).rd o' e' = s.rd o' e' := rfl

/-! setCore -/
@[simp] theorem State.setCore_pending (s : State) (n : Nat) (x : CoreRt) : (s.setCore n x).pending = s.pending := rfl
@[simp] theorem State.setCore_now (s : State) (n : Nat) (x : CoreRt) : (s.setCore n x).now = s.now := rfl
@[simp] theorem State.setCore_freeCtr (s : State) (n : Nat) (x : CoreRt) : (s.setCore n x).freeCtr = s.freeCtr := rfl
@[simp] theorem State.setCore_od (s : State) (n : Nat) (x : CoreRt) : (s.setCore n x).od = s.od := rfl
@[simp] theorem State.setCore_images (s : State) (n : Nat) (x : CoreRt) : (s.setCore n x).images = s.images := rfl
@[simp] theorem State.setCore_out (s : State) (n : Nat) (x : CoreRt) : (s.setCore n x).out = s.out := rfl
@[simp] theorem State.setCore_trans (s : State) (n : Nat) (x : CoreRt) : (s.setCore n x).trans = s.trans := rfl
@[simp] theorem State.setCore_safeWanted (s : State) (n : Nat) (x : CoreRt) : (s.setCore n x).safeWanted = s.safeWanted := rfl
@[simp] theorem State.setCore_ready (s : State) (n : Nat) (x : CoreRt) : (s.setCore n x).ready = s.ready := rfl
@[simp] theorem State.setCore_flowFree (s : State) (n : Nat) (x : CoreRt) : (s.setCore n x).flowFree = s.flowFree := rfl
@[simp] theorem State.setCore_homes (s : State) (n : Nat) (x : CoreRt) : (s.setCore n x).homes = s.homes := rfl
@[simp] theorem State.setCore_wdpFullAt (s : State) (n : Nat) (x : CoreRt) : (s.setCore n x).wdpFullAt = s.wdpFullAt := rfl
@[simp] theorem State.setCore_wdpTrace (s : State) (n : Nat) (x : CoreRt) : (s.setCore n x).wdpTrace = s.wdpTrace := rfl
@[simp] theorem State.setCore_wdpLost (s : State) (n : Nat) (x : CoreRt) : (s.setCore n x).wdpLost = s.wdpLost := rfl
@[simp] theorem State.setCore_srcs (s : State) (n : Nat) (x : CoreRt) : (s.setCore n x).srcs = s.srcs := rfl
@[simp] theorem State.setCore_groups (s : State) (n : Nat) (x : CoreRt) : (s.setCore n x).groups = s.groups := rfl
@[simp] theorem State.setCore_fcr (s : State) (n : Nat) (x : CoreRt) : (s.setCore n x).fcr = s.fcr := rfl
@[simp] theorem State.setCore_clk (s : State) (n : Nat) (x : CoreRt) : (s.setCore n x).clk = s.clk := rfl
@[simp] theorem State.setCore_poa (s : State) (n : Nat) (x : CoreRt) : (s.setCore n x).poa = s.poa := rfl
@[simp] theorem State.setCore_hlk (s : State) (n : Nat) (x : CoreRt) : (s.setCore n x).hlk = s.hlk := rfl
@[simp] theorem State.setCore_loops (s : State) (n : Nat) (x : CoreRt) : (s.setCore n x).loops = s.loops := rfl
@[simp] theorem State.setCore_adc (s : State) (n : Nat) (x : CoreRt) : (s.setCore n x).adc = s.adc := rfl
@[simp] theorem State.setCore_psm (s : State) (n : Nat) (x : CoreRt) : (s.setCore n x).psm = s.psm := rfl
@[simp] theorem State.setCore_ode (s : State) (n : Nat) (x : CoreRt) : (s.setCore n x).ode = s.ode := rfl
@[simp] theorem State.setCore_waiters (s : State) (n : Nat) (x : CoreRt) : (s.setCore n x).waiters = s.waiters := rfl
@[simp] theorem State.setCore_results (s : State) (n : Nat) (x : CoreRt) : (s.setCore n x).results = s.results := rfl
@[simp] theorem State.setCore_jobs (s : State) (n : Nat) (x : CoreRt) : (s.setCore n x).jobs = s.jobs := rfl
@[simp] theorem State.setCore_chartLen (s : State) (n : Nat) (x : CoreRt) : (s.setCore n x).chartLen = s.chartLen := rfl
@[simp] theorem State.setCore_mem (s : State) (n : Nat) (x : CoreRt) : (s.setCore n x).mem = s.mem := rfl
@[simp] theorem State.setCore_hms (s : State) (n : Nat) (x : CoreRt) : (s.setCore n x).hms = s.hms := rfl
@[simp] theorem State.setCore_staged (s : State) (n : Nat) (x : CoreRt) : (s.setCore n x).staged = s.staged := rfl
@[simp] theorem State.setCore_ndls (s : State) (n : Nat) (x : CoreRt) : (s.setCore n x).ndls = s.ndls := rfl
@[simp] theorem State.setCore_evts (s : State) (n : Nat) (x : CoreRt) : (s.setCore n x).evts = s.evts := rfl
@[simp] theorem State.setCore_ucode (s : State) (n : Nat) (x : CoreRt) : (s.setCore n x).ucode = s.ucode := rfl
@[simp] theorem State.setCore_ubase (s : State) (n : Nat) (x : CoreRt) : (s.setCore n x).ubase = s.ubase := rfl
@[simp] theorem State.setCore_traps (s : State) (n : Nat) (x : CoreRt) : (s.setCore n x).traps = s.traps := rfl
@[simp] theorem State.setCore_sites (s : State) (n : Nat) (x : CoreRt) : (s.setCore n x).sites = s.sites := rfl
@[simp] theorem State.setCore_queues (s : State) (n : Nat) (x : CoreRt) : (s.setCore n x).queues = s.queues := rfl
@[simp] theorem State.setCore_pins (s : State) (n : Nat) (x : CoreRt) : (s.setCore n x).pins = s.pins := rfl
@[simp] theorem State.setCore_levelBus (s : State) (n : Nat) (x : CoreRt) : (s.setCore n x).levelBus = s.levelBus := rfl
@[simp] theorem State.setCore_levelFree (s : State) (n : Nat) (x : CoreRt) : (s.setCore n x).levelFree = s.levelFree := rfl
@[simp] theorem State.setCore_ras (s : State) (n : Nat) (x : CoreRt) : (s.setCore n x).ras = s.ras := rfl
@[simp] theorem State.setCore_tae (s : State) (n : Nat) (x : CoreRt) : (s.setCore n x).tae = s.tae := rfl
@[simp] theorem State.setCore_csl (s : State) (n : Nat) (x : CoreRt) : (s.setCore n x).csl = s.csl := rfl
@[simp] theorem State.setCore_cal (s : State) (n : Nat) (x : CoreRt) : (s.setCore n x).cal = s.cal := rfl
@[simp] theorem State.setCore_tdc (s : State) (n : Nat) (x : CoreRt) : (s.setCore n x).tdc = s.tdc := rfl
@[simp] theorem State.setCore_plc (s : State) (n : Nat) (x : CoreRt) : (s.setCore n x).plc = s.plc := rfl
@[simp] theorem State.setCore_bot (s : State) (n : Nat) (x : CoreRt) : (s.setCore n x).bot = s.bot := rfl
@[simp] theorem State.setCore_rd (s : State) (n : Nat) (x : CoreRt) (o' e' : Nat) : (s.setCore n x).rd o' e' = s.rd o' e' := rfl
@[simp] theorem State.setCore_self (s : State) (n : Nat) (x : CoreRt) : (s.setCore n x).core n = x := Tbl.get_put_self ..
theorem State.setCore_ne (s : State) (n : Nat) (x : CoreRt) (m : Nat) (h : m ≠ n) : (s.setCore n x).core m = s.core m := Tbl.get_put_ne _ _ _ h

/-! setSrc -/
@[simp] theorem State.setSrc_pending (s : State) (n : Nat) (x : SrcRt) : (s.setSrc n x).pending = s.pending := rfl
@[simp] theorem State.setSrc_now (s : State) (n : Nat) (x : SrcRt) : (s.setSrc n x).now = s.now := rfl
@[simp] theorem State.setSrc_freeCtr (s : State) (n : Nat) (x : SrcRt) : (s.setSrc n x).freeCtr = s.freeCtr := rfl
@[simp] theorem State.setSrc_od (s : State) (n : Nat) (x : SrcRt) : (s.setSrc n x).od = s.od := rfl
@[simp] theorem State.setSrc_images (s : State) (n : Nat) (x : SrcRt) : (s.setSrc n x).images = s.images := rfl
@[simp] theorem State.setSrc_out (s : State) (n : Nat) (x : SrcRt) : (s.setSrc n x).out = s.out := rfl
@[simp] theorem State.setSrc_trans (s : State) (n : Nat) (x : SrcRt) : (s.setSrc n x).trans = s.trans := rfl
@[simp] theorem State.setSrc_safeWanted (s : State) (n : Nat) (x : SrcRt) : (s.setSrc n x).safeWanted = s.safeWanted := rfl
@[simp] theorem State.setSrc_cores (s : State) (n : Nat) (x : SrcRt) : (s.setSrc n x).cores = s.cores := rfl
@[simp] theorem State.setSrc_ready (s : State) (n : Nat) (x : SrcRt) : (s.setSrc n x).ready = s.ready := rfl
@[simp] theorem State.setSrc_flowFree (s : State) (n : Nat) (x : SrcRt) : (s.setSrc n x).flowFree = s.flowFree := rfl
@[simp] theorem State.setSrc_homes (s : State) (n : Nat) (x : SrcRt) : (s.setSrc n x).homes = s.homes := rfl
@[simp] theorem State.setSrc_wdpFullAt (s : State) (n : Nat) (x : SrcRt) : (s.setSrc n x).wdpFullAt = s.wdpFullAt := rfl
@[simp] theorem State.setSrc_wdpTrace (s : State) (n : Nat) (x : SrcRt) : (s.setSrc n x).wdpTrace = s.wdpTrace := rfl
@[simp] theorem State.setSrc_wdpLost (s : State) (n : Nat) (x : SrcRt) : (s.setSrc n x).wdpLost = s.wdpLost := rfl
@[simp] theorem State.setSrc_groups (s : State) (n : Nat) (x : SrcRt) : (s.setSrc n x).groups = s.groups := rfl
@[simp] theorem State.setSrc_fcr (s : State) (n : Nat) (x : SrcRt) : (s.setSrc n x).fcr = s.fcr := rfl
@[simp] theorem State.setSrc_clk (s : State) (n : Nat) (x : SrcRt) : (s.setSrc n x).clk = s.clk := rfl
@[simp] theorem State.setSrc_poa (s : State) (n : Nat) (x : SrcRt) : (s.setSrc n x).poa = s.poa := rfl
@[simp] theorem State.setSrc_hlk (s : State) (n : Nat) (x : SrcRt) : (s.setSrc n x).hlk = s.hlk := rfl
@[simp] theorem State.setSrc_loops (s : State) (n : Nat) (x : SrcRt) : (s.setSrc n x).loops = s.loops := rfl
@[simp] theorem State.setSrc_adc (s : State) (n : Nat) (x : SrcRt) : (s.setSrc n x).adc = s.adc := rfl
@[simp] theorem State.setSrc_psm (s : State) (n : Nat) (x : SrcRt) : (s.setSrc n x).psm = s.psm := rfl
@[simp] theorem State.setSrc_ode (s : State) (n : Nat) (x : SrcRt) : (s.setSrc n x).ode = s.ode := rfl
@[simp] theorem State.setSrc_waiters (s : State) (n : Nat) (x : SrcRt) : (s.setSrc n x).waiters = s.waiters := rfl
@[simp] theorem State.setSrc_results (s : State) (n : Nat) (x : SrcRt) : (s.setSrc n x).results = s.results := rfl
@[simp] theorem State.setSrc_jobs (s : State) (n : Nat) (x : SrcRt) : (s.setSrc n x).jobs = s.jobs := rfl
@[simp] theorem State.setSrc_chartLen (s : State) (n : Nat) (x : SrcRt) : (s.setSrc n x).chartLen = s.chartLen := rfl
@[simp] theorem State.setSrc_mem (s : State) (n : Nat) (x : SrcRt) : (s.setSrc n x).mem = s.mem := rfl
@[simp] theorem State.setSrc_hms (s : State) (n : Nat) (x : SrcRt) : (s.setSrc n x).hms = s.hms := rfl
@[simp] theorem State.setSrc_staged (s : State) (n : Nat) (x : SrcRt) : (s.setSrc n x).staged = s.staged := rfl
@[simp] theorem State.setSrc_ndls (s : State) (n : Nat) (x : SrcRt) : (s.setSrc n x).ndls = s.ndls := rfl
@[simp] theorem State.setSrc_evts (s : State) (n : Nat) (x : SrcRt) : (s.setSrc n x).evts = s.evts := rfl
@[simp] theorem State.setSrc_ucode (s : State) (n : Nat) (x : SrcRt) : (s.setSrc n x).ucode = s.ucode := rfl
@[simp] theorem State.setSrc_ubase (s : State) (n : Nat) (x : SrcRt) : (s.setSrc n x).ubase = s.ubase := rfl
@[simp] theorem State.setSrc_traps (s : State) (n : Nat) (x : SrcRt) : (s.setSrc n x).traps = s.traps := rfl
@[simp] theorem State.setSrc_sites (s : State) (n : Nat) (x : SrcRt) : (s.setSrc n x).sites = s.sites := rfl
@[simp] theorem State.setSrc_queues (s : State) (n : Nat) (x : SrcRt) : (s.setSrc n x).queues = s.queues := rfl
@[simp] theorem State.setSrc_pins (s : State) (n : Nat) (x : SrcRt) : (s.setSrc n x).pins = s.pins := rfl
@[simp] theorem State.setSrc_levelBus (s : State) (n : Nat) (x : SrcRt) : (s.setSrc n x).levelBus = s.levelBus := rfl
@[simp] theorem State.setSrc_levelFree (s : State) (n : Nat) (x : SrcRt) : (s.setSrc n x).levelFree = s.levelFree := rfl
@[simp] theorem State.setSrc_ras (s : State) (n : Nat) (x : SrcRt) : (s.setSrc n x).ras = s.ras := rfl
@[simp] theorem State.setSrc_tae (s : State) (n : Nat) (x : SrcRt) : (s.setSrc n x).tae = s.tae := rfl
@[simp] theorem State.setSrc_csl (s : State) (n : Nat) (x : SrcRt) : (s.setSrc n x).csl = s.csl := rfl
@[simp] theorem State.setSrc_cal (s : State) (n : Nat) (x : SrcRt) : (s.setSrc n x).cal = s.cal := rfl
@[simp] theorem State.setSrc_tdc (s : State) (n : Nat) (x : SrcRt) : (s.setSrc n x).tdc = s.tdc := rfl
@[simp] theorem State.setSrc_plc (s : State) (n : Nat) (x : SrcRt) : (s.setSrc n x).plc = s.plc := rfl
@[simp] theorem State.setSrc_bot (s : State) (n : Nat) (x : SrcRt) : (s.setSrc n x).bot = s.bot := rfl
@[simp] theorem State.setSrc_rd (s : State) (n : Nat) (x : SrcRt) (o' e' : Nat) : (s.setSrc n x).rd o' e' = s.rd o' e' := rfl
@[simp] theorem State.setSrc_self (s : State) (n : Nat) (x : SrcRt) : (s.setSrc n x).src n = x := Tbl.get_put_self ..
theorem State.setSrc_ne (s : State) (n : Nat) (x : SrcRt) (m : Nat) (h : m ≠ n) : (s.setSrc n x).src m = s.src m := Tbl.get_put_ne _ _ _ h

/-! setSession -/
@[simp] theorem State.setSession_pending (s : State) (n : Nat) (x : Option Session) : (s.setSession n x).pending = s.pending := rfl
@[simp] theorem State.setSession_now (s : State) (n : Nat) (x : Option Session) : (s.setSession n x).now = s.now := rfl
@[simp] theorem State.setSession_freeCtr (s : State) (n : Nat) (x : Option Session) : (s.setSession n x).freeCtr = s.freeCtr := rfl
@[simp] theorem State.setSession_od (s : State) (n : Nat) (x : Option Session) : (s.setSession n x).od = s.od := rfl
@[simp] theorem State.setSession_images (s : State) (n : Nat) (x : Option Session) : (s.setSession n x).images = s.images := rfl
@[simp] theorem State.setSession_out (s : State) (n : Nat) (x : Option Session) : (s.setSession n x).out = s.out := rfl
@[simp] theorem State.setSession_trans (s : State) (n : Nat) (x : Option Session) : (s.setSession n x).trans = s.trans := rfl
@[simp] theorem State.setSession_safeWanted (s : State) (n : Nat) (x : Option Session) : (s.setSession n x).safeWanted = s.safeWanted := rfl
@[simp] theorem State.setSession_cores (s : State) (n : Nat) (x : Option Session) : (s.setSession n x).cores = s.cores := rfl
@[simp] theorem State.setSession_ready (s : State) (n : Nat) (x : Option Session) : (s.setSession n x).ready = s.ready := rfl
@[simp] theorem State.setSession_flowFree (s : State) (n : Nat) (x : Option Session) : (s.setSession n x).flowFree = s.flowFree := rfl
@[simp] theorem State.setSession_homes (s : State) (n : Nat) (x : Option Session) : (s.setSession n x).homes = s.homes := rfl
@[simp] theorem State.setSession_wdpFullAt (s : State) (n : Nat) (x : Option Session) : (s.setSession n x).wdpFullAt = s.wdpFullAt := rfl
@[simp] theorem State.setSession_wdpTrace (s : State) (n : Nat) (x : Option Session) : (s.setSession n x).wdpTrace = s.wdpTrace := rfl
@[simp] theorem State.setSession_wdpLost (s : State) (n : Nat) (x : Option Session) : (s.setSession n x).wdpLost = s.wdpLost := rfl
@[simp] theorem State.setSession_srcs (s : State) (n : Nat) (x : Option Session) : (s.setSession n x).srcs = s.srcs := rfl
@[simp] theorem State.setSession_groups (s : State) (n : Nat) (x : Option Session) : (s.setSession n x).groups = s.groups := rfl
@[simp] theorem State.setSession_fcr (s : State) (n : Nat) (x : Option Session) : (s.setSession n x).fcr = s.fcr := rfl
@[simp] theorem State.setSession_clk (s : State) (n : Nat) (x : Option Session) : (s.setSession n x).clk = s.clk := rfl
@[simp] theorem State.setSession_hlk (s : State) (n : Nat) (x : Option Session) : (s.setSession n x).hlk = s.hlk := rfl
@[simp] theorem State.setSession_loops (s : State) (n : Nat) (x : Option Session) : (s.setSession n x).loops = s.loops := rfl
@[simp] theorem State.setSession_adc (s : State) (n : Nat) (x : Option Session) : (s.setSession n x).adc = s.adc := rfl
@[simp] theorem State.setSession_psm (s : State) (n : Nat) (x : Option Session) : (s.setSession n x).psm = s.psm := rfl
@[simp] theorem State.setSession_ode (s : State) (n : Nat) (x : Option Session) : (s.setSession n x).ode = s.ode := rfl
@[simp] theorem State.setSession_waiters (s : State) (n : Nat) (x : Option Session) : (s.setSession n x).waiters = s.waiters := rfl
@[simp] theorem State.setSession_results (s : State) (n : Nat) (x : Option Session) : (s.setSession n x).results = s.results := rfl
@[simp] theorem State.setSession_jobs (s : State) (n : Nat) (x : Option Session) : (s.setSession n x).jobs = s.jobs := rfl
@[simp] theorem State.setSession_chartLen (s : State) (n : Nat) (x : Option Session) : (s.setSession n x).chartLen = s.chartLen := rfl
@[simp] theorem State.setSession_mem (s : State) (n : Nat) (x : Option Session) : (s.setSession n x).mem = s.mem := rfl
@[simp] theorem State.setSession_hms (s : State) (n : Nat) (x : Option Session) : (s.setSession n x).hms = s.hms := rfl
@[simp] theorem State.setSession_staged (s : State) (n : Nat) (x : Option Session) : (s.setSession n x).staged = s.staged := rfl
@[simp] theorem State.setSession_ndls (s : State) (n : Nat) (x : Option Session) : (s.setSession n x).ndls = s.ndls := rfl
@[simp] theorem State.setSession_evts (s : State) (n : Nat) (x : Option Session) : (s.setSession n x).evts = s.evts := rfl
@[simp] theorem State.setSession_ucode (s : State) (n : Nat) (x : Option Session) : (s.setSession n x).ucode = s.ucode := rfl
@[simp] theorem State.setSession_ubase (s : State) (n : Nat) (x : Option Session) : (s.setSession n x).ubase = s.ubase := rfl
@[simp] theorem State.setSession_traps (s : State) (n : Nat) (x : Option Session) : (s.setSession n x).traps = s.traps := rfl
@[simp] theorem State.setSession_sites (s : State) (n : Nat) (x : Option Session) : (s.setSession n x).sites = s.sites := rfl
@[simp] theorem State.setSession_queues (s : State) (n : Nat) (x : Option Session) : (s.setSession n x).queues = s.queues := rfl
@[simp] theorem State.setSession_pins (s : State) (n : Nat) (x : Option Session) : (s.setSession n x).pins = s.pins := rfl
@[simp] theorem State.setSession_levelBus (s : State) (n : Nat) (x : Option Session) : (s.setSession n x).levelBus = s.levelBus := rfl
@[simp] theorem State.setSession_levelFree (s : State) (n : Nat) (x : Option Session) : (s.setSession n x).levelFree = s.levelFree := rfl
@[simp] theorem State.setSession_ras (s : State) (n : Nat) (x : Option Session) : (s.setSession n x).ras = s.ras := rfl
@[simp] theorem State.setSession_tae (s : State) (n : Nat) (x : Option Session) : (s.setSession n x).tae = s.tae := rfl
@[simp] theorem State.setSession_csl (s : State) (n : Nat) (x : Option Session) : (s.setSession n x).csl = s.csl := rfl
@[simp] theorem State.setSession_cal (s : State) (n : Nat) (x : Option Session) : (s.setSession n x).cal = s.cal := rfl
@[simp] theorem State.setSession_tdc (s : State) (n : Nat) (x : Option Session) : (s.setSession n x).tdc = s.tdc := rfl
@[simp] theorem State.setSession_plc (s : State) (n : Nat) (x : Option Session) : (s.setSession n x).plc = s.plc := rfl
@[simp] theorem State.setSession_bot (s : State) (n : Nat) (x : Option Session) : (s.setSession n x).bot = s.bot := rfl
@[simp] theorem State.setSession_rd (s : State) (n : Nat) (x : Option Session) (o' e' : Nat) : (s.setSession n x).rd o' e' = s.rd o' e' := rfl
@[simp] theorem State.setSession_self (s : State) (n : Nat) (x : Option Session) : (s.setSession n x).session n = x := Tbl.get_put_self ..
theorem State.setSession_ne (s : State) (n : Nat) (x : Option Session) (m : Nat) (h : m ≠ n) : (s.setSession n x).session m = s.session m := Tbl.get_put_ne _ _ _ h

/-! setXfer -/
@[simp] theorem State.setXfer_pending (s : State) (n : Nat) (x : Option Xfer) : (s.setXfer n x).pending = s.pending := rfl
@[simp] theorem State.setXfer_now (s : State) (n : Nat) (x : Option Xfer) : (s.setXfer n x).now = s.now := rfl
@[simp] theorem State.setXfer_freeCtr (s : State) (n : Nat) (x : Option Xfer) : (s.setXfer n x).freeCtr = s.freeCtr := rfl
@[simp] theorem State.setXfer_od (s : State) (n : Nat) (x : Option Xfer) : (s.setXfer n x).od = s.od := rfl
@[simp] theorem State.setXfer_images (s : State) (n : Nat) (x : Option Xfer) : (s.setXfer n x).images = s.images := rfl
@[simp] theorem State.setXfer_out (s : State) (n : Nat) (x : Option Xfer) : (s.setXfer n x).out = s.out := rfl
@[simp] theorem State.setXfer_trans (s : State) (n : Nat) (x : Option Xfer) : (s.setXfer n x).trans = s.trans := rfl
@[simp] theorem State.setXfer_safeWanted (s : State) (n : Nat) (x : Option Xfer) : (s.setXfer n x).safeWanted = s.safeWanted := rfl
@[simp] theorem State.setXfer_cores (s : State) (n : Nat) (x : Option Xfer) : (s.setXfer n x).cores = s.cores := rfl
@[simp] theorem State.setXfer_ready (s : State) (n : Nat) (x : Option Xfer) : (s.setXfer n x).ready = s.ready := rfl
@[simp] theorem State.setXfer_flowFree (s : State) (n : Nat) (x : Option Xfer) : (s.setXfer n x).flowFree = s.flowFree := rfl
@[simp] theorem State.setXfer_homes (s : State) (n : Nat) (x : Option Xfer) : (s.setXfer n x).homes = s.homes := rfl
@[simp] theorem State.setXfer_wdpFullAt (s : State) (n : Nat) (x : Option Xfer) : (s.setXfer n x).wdpFullAt = s.wdpFullAt := rfl
@[simp] theorem State.setXfer_wdpTrace (s : State) (n : Nat) (x : Option Xfer) : (s.setXfer n x).wdpTrace = s.wdpTrace := rfl
@[simp] theorem State.setXfer_wdpLost (s : State) (n : Nat) (x : Option Xfer) : (s.setXfer n x).wdpLost = s.wdpLost := rfl
@[simp] theorem State.setXfer_srcs (s : State) (n : Nat) (x : Option Xfer) : (s.setXfer n x).srcs = s.srcs := rfl
@[simp] theorem State.setXfer_groups (s : State) (n : Nat) (x : Option Xfer) : (s.setXfer n x).groups = s.groups := rfl
@[simp] theorem State.setXfer_fcr (s : State) (n : Nat) (x : Option Xfer) : (s.setXfer n x).fcr = s.fcr := rfl
@[simp] theorem State.setXfer_clk (s : State) (n : Nat) (x : Option Xfer) : (s.setXfer n x).clk = s.clk := rfl
@[simp] theorem State.setXfer_hlk (s : State) (n : Nat) (x : Option Xfer) : (s.setXfer n x).hlk = s.hlk := rfl
@[simp] theorem State.setXfer_loops (s : State) (n : Nat) (x : Option Xfer) : (s.setXfer n x).loops = s.loops := rfl
@[simp] theorem State.setXfer_adc (s : State) (n : Nat) (x : Option Xfer) : (s.setXfer n x).adc = s.adc := rfl
@[simp] theorem State.setXfer_psm (s : State) (n : Nat) (x : Option Xfer) : (s.setXfer n x).psm = s.psm := rfl
@[simp] theorem State.setXfer_ode (s : State) (n : Nat) (x : Option Xfer) : (s.setXfer n x).ode = s.ode := rfl
@[simp] theorem State.setXfer_waiters (s : State) (n : Nat) (x : Option Xfer) : (s.setXfer n x).waiters = s.waiters := rfl
@[simp] theorem State.setXfer_results (s : State) (n : Nat) (x : Option Xfer) : (s.setXfer n x).results = s.results := rfl
@[simp] theorem State.setXfer_jobs (s : State) (n : Nat) (x : Option Xfer) : (s.setXfer n x).jobs = s.jobs := rfl
@[simp] theorem State.setXfer_chartLen (s : State) (n : Nat) (x : Option Xfer) : (s.setXfer n x).chartLen = s.chartLen := rfl
@[simp] theorem State.setXfer_mem (s : State) (n : Nat) (x : Option Xfer) : (s.setXfer n x).mem = s.mem := rfl
@[simp] theorem State.setXfer_hms (s : State) (n : Nat) (x : Option Xfer) : (s.setXfer n x).hms = s.hms := rfl
@[simp] theorem State.setXfer_staged (s : State) (n : Nat) (x : Option Xfer) : (s.setXfer n x).staged = s.staged := rfl
@[simp] theorem State.setXfer_ndls (s : State) (n : Nat) (x : Option Xfer) : (s.setXfer n x).ndls = s.ndls := rfl
@[simp] theorem State.setXfer_evts (s : State) (n : Nat) (x : Option Xfer) : (s.setXfer n x).evts = s.evts := rfl
@[simp] theorem State.setXfer_ucode (s : State) (n : Nat) (x : Option Xfer) : (s.setXfer n x).ucode = s.ucode := rfl
@[simp] theorem State.setXfer_ubase (s : State) (n : Nat) (x : Option Xfer) : (s.setXfer n x).ubase = s.ubase := rfl
@[simp] theorem State.setXfer_traps (s : State) (n : Nat) (x : Option Xfer) : (s.setXfer n x).traps = s.traps := rfl
@[simp] theorem State.setXfer_sites (s : State) (n : Nat) (x : Option Xfer) : (s.setXfer n x).sites = s.sites := rfl
@[simp] theorem State.setXfer_queues (s : State) (n : Nat) (x : Option Xfer) : (s.setXfer n x).queues = s.queues := rfl
@[simp] theorem State.setXfer_pins (s : State) (n : Nat) (x : Option Xfer) : (s.setXfer n x).pins = s.pins := rfl
@[simp] theorem State.setXfer_levelBus (s : State) (n : Nat) (x : Option Xfer) : (s.setXfer n x).levelBus = s.levelBus := rfl
@[simp] theorem State.setXfer_levelFree (s : State) (n : Nat) (x : Option Xfer) : (s.setXfer n x).levelFree = s.levelFree := rfl
@[simp] theorem State.setXfer_ras (s : State) (n : Nat) (x : Option Xfer) : (s.setXfer n x).ras = s.ras := rfl
@[simp] theorem State.setXfer_tae (s : State) (n : Nat) (x : Option Xfer) : (s.setXfer n x).tae = s.tae := rfl
@[simp] theorem State.setXfer_csl (s : State) (n : Nat) (x : Option Xfer) : (s.setXfer n x).csl = s.csl := rfl
@[simp] theorem State.setXfer_cal (s : State) (n : Nat) (x : Option Xfer) : (s.setXfer n x).cal = s.cal := rfl
@[simp] theorem State.setXfer_tdc (s : State) (n : Nat) (x : Option Xfer) : (s.setXfer n x).tdc = s.tdc := rfl
@[simp] theorem State.setXfer_plc (s : State) (n : Nat) (x : Option Xfer) : (s.setXfer n x).plc = s.plc := rfl
@[simp] theorem State.setXfer_bot (s : State) (n : Nat) (x : Option Xfer) : (s.setXfer n x).bot = s.bot := rfl
@[simp] theorem State.setXfer_rd (s : State) (n : Nat) (x : Option Xfer) (o' e' : Nat) : (s.setXfer n x).rd o' e' = s.rd o' e' := rfl
@[simp] theorem State.setXfer_self (s : State) (n : Nat) (x : Option Xfer) : (s.setXfer n x).xfer n = x := Tbl.get_put_self ..
theorem State.setXfer_ne (s : State) (n : Nat) (x : Option Xfer) (m : Nat) (h : m ≠ n) : (s.setXfer n x).xfer m = s.xfer m := Tbl.get_put_ne _ _ _ h

/-! setSub -/
@[simp] theorem State.setSub_pending (s : State) (n : Nat) (x : Option Sub) : (s.setSub n x).pending = s.pending := rfl
@[simp] theorem State.setSub_now (s : State) (n : Nat) (x : Option Sub) : (s.setSub n x).now = s.now := rfl
@[simp] theorem State.setSub_freeCtr (s : State) (n : Nat) (x : Option Sub) : (s.setSub n x).freeCtr = s.freeCtr := rfl
@[simp] theorem State.setSub_od (s : State) (n : Nat) (x : Option Sub) : (s.setSub n x).od = s.od := rfl
@[simp] theorem State.setSub_images (s : State) (n : Nat) (x : Option Sub) : (s.setSub n x).images = s.images := rfl
@[simp] theorem State.setSub_out (s : State) (n : Nat) (x : Option Sub) : (s.setSub n x).out = s.out := rfl
@[simp] theorem State.setSub_trans (s : State) (n : Nat) (x : Option Sub) : (s.setSub n x).trans = s.trans := rfl
@[simp] theorem State.setSub_safeWanted (s : State) (n : Nat) (x : Option Sub) : (s.setSub n x).safeWanted = s.safeWanted := rfl
@[simp] theorem State.setSub_cores (s : State) (n : Nat) (x : Option Sub) : (s.setSub n x).cores = s.cores := rfl
@[simp] theorem State.setSub_ready (s : State) (n : Nat) (x : Option Sub) : (s.setSub n x).ready = s.ready := rfl
@[simp] theorem State.setSub_flowFree (s : State) (n : Nat) (x : Option Sub) : (s.setSub n x).flowFree = s.flowFree := rfl
@[simp] theorem State.setSub_homes (s : State) (n : Nat) (x : Option Sub) : (s.setSub n x).homes = s.homes := rfl
@[simp] theorem State.setSub_wdpFullAt (s : State) (n : Nat) (x : Option Sub) : (s.setSub n x).wdpFullAt = s.wdpFullAt := rfl
@[simp] theorem State.setSub_wdpTrace (s : State) (n : Nat) (x : Option Sub) : (s.setSub n x).wdpTrace = s.wdpTrace := rfl
@[simp] theorem State.setSub_wdpLost (s : State) (n : Nat) (x : Option Sub) : (s.setSub n x).wdpLost = s.wdpLost := rfl
@[simp] theorem State.setSub_srcs (s : State) (n : Nat) (x : Option Sub) : (s.setSub n x).srcs = s.srcs := rfl
@[simp] theorem State.setSub_groups (s : State) (n : Nat) (x : Option Sub) : (s.setSub n x).groups = s.groups := rfl
@[simp] theorem State.setSub_fcr (s : State) (n : Nat) (x : Option Sub) : (s.setSub n x).fcr = s.fcr := rfl
@[simp] theorem State.setSub_clk (s : State) (n : Nat) (x : Option Sub) : (s.setSub n x).clk = s.clk := rfl
@[simp] theorem State.setSub_hlk (s : State) (n : Nat) (x : Option Sub) : (s.setSub n x).hlk = s.hlk := rfl
@[simp] theorem State.setSub_loops (s : State) (n : Nat) (x : Option Sub) : (s.setSub n x).loops = s.loops := rfl
@[simp] theorem State.setSub_adc (s : State) (n : Nat) (x : Option Sub) : (s.setSub n x).adc = s.adc := rfl
@[simp] theorem State.setSub_psm (s : State) (n : Nat) (x : Option Sub) : (s.setSub n x).psm = s.psm := rfl
@[simp] theorem State.setSub_ode (s : State) (n : Nat) (x : Option Sub) : (s.setSub n x).ode = s.ode := rfl
@[simp] theorem State.setSub_waiters (s : State) (n : Nat) (x : Option Sub) : (s.setSub n x).waiters = s.waiters := rfl
@[simp] theorem State.setSub_results (s : State) (n : Nat) (x : Option Sub) : (s.setSub n x).results = s.results := rfl
@[simp] theorem State.setSub_jobs (s : State) (n : Nat) (x : Option Sub) : (s.setSub n x).jobs = s.jobs := rfl
@[simp] theorem State.setSub_chartLen (s : State) (n : Nat) (x : Option Sub) : (s.setSub n x).chartLen = s.chartLen := rfl
@[simp] theorem State.setSub_mem (s : State) (n : Nat) (x : Option Sub) : (s.setSub n x).mem = s.mem := rfl
@[simp] theorem State.setSub_hms (s : State) (n : Nat) (x : Option Sub) : (s.setSub n x).hms = s.hms := rfl
@[simp] theorem State.setSub_staged (s : State) (n : Nat) (x : Option Sub) : (s.setSub n x).staged = s.staged := rfl
@[simp] theorem State.setSub_ndls (s : State) (n : Nat) (x : Option Sub) : (s.setSub n x).ndls = s.ndls := rfl
@[simp] theorem State.setSub_evts (s : State) (n : Nat) (x : Option Sub) : (s.setSub n x).evts = s.evts := rfl
@[simp] theorem State.setSub_ucode (s : State) (n : Nat) (x : Option Sub) : (s.setSub n x).ucode = s.ucode := rfl
@[simp] theorem State.setSub_ubase (s : State) (n : Nat) (x : Option Sub) : (s.setSub n x).ubase = s.ubase := rfl
@[simp] theorem State.setSub_traps (s : State) (n : Nat) (x : Option Sub) : (s.setSub n x).traps = s.traps := rfl
@[simp] theorem State.setSub_sites (s : State) (n : Nat) (x : Option Sub) : (s.setSub n x).sites = s.sites := rfl
@[simp] theorem State.setSub_queues (s : State) (n : Nat) (x : Option Sub) : (s.setSub n x).queues = s.queues := rfl
@[simp] theorem State.setSub_pins (s : State) (n : Nat) (x : Option Sub) : (s.setSub n x).pins = s.pins := rfl
@[simp] theorem State.setSub_levelBus (s : State) (n : Nat) (x : Option Sub) : (s.setSub n x).levelBus = s.levelBus := rfl
@[simp] theorem State.setSub_levelFree (s : State) (n : Nat) (x : Option Sub) : (s.setSub n x).levelFree = s.levelFree := rfl
@[simp] theorem State.setSub_ras (s : State) (n : Nat) (x : Option Sub) : (s.setSub n x).ras = s.ras := rfl
@[simp] theorem State.setSub_tae (s : State) (n : Nat) (x : Option Sub) : (s.setSub n x).tae = s.tae := rfl
@[simp] theorem State.setSub_csl (s : State) (n : Nat) (x : Option Sub) : (s.setSub n x).csl = s.csl := rfl
@[simp] theorem State.setSub_cal (s : State) (n : Nat) (x : Option Sub) : (s.setSub n x).cal = s.cal := rfl
@[simp] theorem State.setSub_tdc (s : State) (n : Nat) (x : Option Sub) : (s.setSub n x).tdc = s.tdc := rfl
@[simp] theorem State.setSub_plc (s : State) (n : Nat) (x : Option Sub) : (s.setSub n x).plc = s.plc := rfl
@[simp] theorem State.setSub_bot (s : State) (n : Nat) (x : Option Sub) : (s.setSub n x).bot = s.bot := rfl
@[simp] theorem State.setSub_rd (s : State) (n : Nat) (x : Option Sub) (o' e' : Nat) : (s.setSub n x).rd o' e' = s.rd o' e' := rfl

/-! setNdl -/
@[simp] theorem State.setNdl_pending (s : State) (n : Nat) (x : NdlRt) : (s.setNdl n x).pending = s.pending := rfl
@[simp] theorem State.setNdl_now (s : State) (n : Nat) (x : NdlRt) : (s.setNdl n x).now = s.now := rfl
@[simp] theorem State.setNdl_freeCtr (s : State) (n : Nat) (x : NdlRt) : (s.setNdl n x).freeCtr = s.freeCtr := rfl
@[simp] theorem State.setNdl_od (s : State) (n : Nat) (x : NdlRt) : (s.setNdl n x).od = s.od := rfl
@[simp] theorem State.setNdl_images (s : State) (n : Nat) (x : NdlRt) : (s.setNdl n x).images = s.images := rfl
@[simp] theorem State.setNdl_out (s : State) (n : Nat) (x : NdlRt) : (s.setNdl n x).out = s.out := rfl
@[simp] theorem State.setNdl_trans (s : State) (n : Nat) (x : NdlRt) : (s.setNdl n x).trans = s.trans := rfl
@[simp] theorem State.setNdl_safeWanted (s : State) (n : Nat) (x : NdlRt) : (s.setNdl n x).safeWanted = s.safeWanted := rfl
@[simp] theorem State.setNdl_cores (s : State) (n : Nat) (x : NdlRt) : (s.setNdl n x).cores = s.cores := rfl
@[simp] theorem State.setNdl_ready (s : State) (n : Nat) (x : NdlRt) : (s.setNdl n x).ready = s.ready := rfl
@[simp] theorem State.setNdl_flowFree (s : State) (n : Nat) (x : NdlRt) : (s.setNdl n x).flowFree = s.flowFree := rfl
@[simp] theorem State.setNdl_homes (s : State) (n : Nat) (x : NdlRt) : (s.setNdl n x).homes = s.homes := rfl
@[simp] theorem State.setNdl_wdpFullAt (s : State) (n : Nat) (x : NdlRt) : (s.setNdl n x).wdpFullAt = s.wdpFullAt := rfl
@[simp] theorem State.setNdl_wdpTrace (s : State) (n : Nat) (x : NdlRt) : (s.setNdl n x).wdpTrace = s.wdpTrace := rfl
@[simp] theorem State.setNdl_wdpLost (s : State) (n : Nat) (x : NdlRt) : (s.setNdl n x).wdpLost = s.wdpLost := rfl
@[simp] theorem State.setNdl_srcs (s : State) (n : Nat) (x : NdlRt) : (s.setNdl n x).srcs = s.srcs := rfl
@[simp] theorem State.setNdl_groups (s : State) (n : Nat) (x : NdlRt) : (s.setNdl n x).groups = s.groups := rfl
@[simp] theorem State.setNdl_fcr (s : State) (n : Nat) (x : NdlRt) : (s.setNdl n x).fcr = s.fcr := rfl
@[simp] theorem State.setNdl_clk (s : State) (n : Nat) (x : NdlRt) : (s.setNdl n x).clk = s.clk := rfl
@[simp] theorem State.setNdl_poa (s : State) (n : Nat) (x : NdlRt) : (s.setNdl n x).poa = s.poa := rfl
@[simp] theorem State.setNdl_hlk (s : State) (n : Nat) (x : NdlRt) : (s.setNdl n x).hlk = s.hlk := rfl
@[simp] theorem State.setNdl_loops (s : State) (n : Nat) (x : NdlRt) : (s.setNdl n x).loops = s.loops := rfl
@[simp] theorem State.setNdl_adc (s : State) (n : Nat) (x : NdlRt) : (s.setNdl n x).adc = s.adc := rfl
@[simp] theorem State.setNdl_psm (s : State) (n : Nat) (x : NdlRt) : (s.setNdl n x).psm = s.psm := rfl
@[simp] theorem State.setNdl_ode (s : State) (n : Nat) (x : NdlRt) : (s.setNdl n x).ode = s.ode := rfl
@[simp] theorem State.setNdl_waiters (s : State) (n : Nat) (x : NdlRt) : (s.setNdl n x).waiters = s.waiters := rfl
@[simp] theorem State.setNdl_results (s : State) (n : Nat) (x : NdlRt) : (s.setNdl n x).results = s.results := rfl
@[simp] theorem State.setNdl_jobs (s : State) (n : Nat) (x : NdlRt) : (s.setNdl n x).jobs = s.jobs := rfl
@[simp] theorem State.setNdl_chartLen (s : State) (n : Nat) (x : NdlRt) : (s.setNdl n x).chartLen = s.chartLen := rfl
@[simp] theorem State.setNdl_mem (s : State) (n : Nat) (x : NdlRt) : (s.setNdl n x).mem = s.mem := rfl
@[simp] theorem State.setNdl_hms (s : State) (n : Nat) (x : NdlRt) : (s.setNdl n x).hms = s.hms := rfl
@[simp] theorem State.setNdl_staged (s : State) (n : Nat) (x : NdlRt) : (s.setNdl n x).staged = s.staged := rfl
@[simp] theorem State.setNdl_evts (s : State) (n : Nat) (x : NdlRt) : (s.setNdl n x).evts = s.evts := rfl
@[simp] theorem State.setNdl_ucode (s : State) (n : Nat) (x : NdlRt) : (s.setNdl n x).ucode = s.ucode := rfl
@[simp] theorem State.setNdl_ubase (s : State) (n : Nat) (x : NdlRt) : (s.setNdl n x).ubase = s.ubase := rfl
@[simp] theorem State.setNdl_traps (s : State) (n : Nat) (x : NdlRt) : (s.setNdl n x).traps = s.traps := rfl
@[simp] theorem State.setNdl_sites (s : State) (n : Nat) (x : NdlRt) : (s.setNdl n x).sites = s.sites := rfl
@[simp] theorem State.setNdl_queues (s : State) (n : Nat) (x : NdlRt) : (s.setNdl n x).queues = s.queues := rfl
@[simp] theorem State.setNdl_pins (s : State) (n : Nat) (x : NdlRt) : (s.setNdl n x).pins = s.pins := rfl
@[simp] theorem State.setNdl_levelBus (s : State) (n : Nat) (x : NdlRt) : (s.setNdl n x).levelBus = s.levelBus := rfl
@[simp] theorem State.setNdl_levelFree (s : State) (n : Nat) (x : NdlRt) : (s.setNdl n x).levelFree = s.levelFree := rfl
@[simp] theorem State.setNdl_ras (s : State) (n : Nat) (x : NdlRt) : (s.setNdl n x).ras = s.ras := rfl
@[simp] theorem State.setNdl_tae (s : State) (n : Nat) (x : NdlRt) : (s.setNdl n x).tae = s.tae := rfl
@[simp] theorem State.setNdl_csl (s : State) (n : Nat) (x : NdlRt) : (s.setNdl n x).csl = s.csl := rfl
@[simp] theorem State.setNdl_cal (s : State) (n : Nat) (x : NdlRt) : (s.setNdl n x).cal = s.cal := rfl
@[simp] theorem State.setNdl_tdc (s : State) (n : Nat) (x : NdlRt) : (s.setNdl n x).tdc = s.tdc := rfl
@[simp] theorem State.setNdl_plc (s : State) (n : Nat) (x : NdlRt) : (s.setNdl n x).plc = s.plc := rfl
@[simp] theorem State.setNdl_bot (s : State) (n : Nat) (x : NdlRt) : (s.setNdl n x).bot = s.bot := rfl
@[simp] theorem State.setNdl_rd (s : State) (n : Nat) (x : NdlRt) (o' e' : Nat) : (s.setNdl n x).rd o' e' = s.rd o' e' := rfl
@[simp] theorem State.setNdl_self (s : State) (n : Nat) (x : NdlRt) : (s.setNdl n x).ndl n = x := Tbl.get_put_self ..
theorem State.setNdl_ne (s : State) (n : Nat) (x : NdlRt) (m : Nat) (h : m ≠ n) : (s.setNdl n x).ndl m = s.ndl m := Tbl.get_put_ne _ _ _ h

/-! setSite -/
@[simp] theorem State.setSite_pending (s : State) (n : Nat) (x : SiteRt) : (s.setSite n x).pending = s.pending := rfl
@[simp] theorem State.setSite_now (s : State) (n : Nat) (x : SiteRt) : (s.setSite n x).now = s.now := rfl
@[simp] theorem State.setSite_freeCtr (s : State) (n : Nat) (x : SiteRt) : (s.setSite n x).freeCtr = s.freeCtr := rfl
@[simp] theorem State.setSite_od (s : State) (n : Nat) (x : SiteRt) : (s.setSite n x).od = s.od := rfl
@[simp] theorem State.setSite_images (s : State) (n : Nat) (x : SiteRt) : (s.setSite n x).images = s.images := rfl
@[simp] theorem State.setSite_out (s : State) (n : Nat) (x : SiteRt) : (s.setSite n x).out = s.out := rfl
@[simp] theorem State.setSite_trans (s : State) (n : Nat) (x : SiteRt) : (s.setSite n x).trans = s.trans := rfl
@[simp] theorem State.setSite_safeWanted (s : State) (n : Nat) (x : SiteRt) : (s.setSite n x).safeWanted = s.safeWanted := rfl
@[simp] theorem State.setSite_cores (s : State) (n : Nat) (x : SiteRt) : (s.setSite n x).cores = s.cores := rfl
@[simp] theorem State.setSite_ready (s : State) (n : Nat) (x : SiteRt) : (s.setSite n x).ready = s.ready := rfl
@[simp] theorem State.setSite_flowFree (s : State) (n : Nat) (x : SiteRt) : (s.setSite n x).flowFree = s.flowFree := rfl
@[simp] theorem State.setSite_homes (s : State) (n : Nat) (x : SiteRt) : (s.setSite n x).homes = s.homes := rfl
@[simp] theorem State.setSite_wdpFullAt (s : State) (n : Nat) (x : SiteRt) : (s.setSite n x).wdpFullAt = s.wdpFullAt := rfl
@[simp] theorem State.setSite_wdpTrace (s : State) (n : Nat) (x : SiteRt) : (s.setSite n x).wdpTrace = s.wdpTrace := rfl
@[simp] theorem State.setSite_wdpLost (s : State) (n : Nat) (x : SiteRt) : (s.setSite n x).wdpLost = s.wdpLost := rfl
@[simp] theorem State.setSite_srcs (s : State) (n : Nat) (x : SiteRt) : (s.setSite n x).srcs = s.srcs := rfl
@[simp] theorem State.setSite_groups (s : State) (n : Nat) (x : SiteRt) : (s.setSite n x).groups = s.groups := rfl
@[simp] theorem State.setSite_fcr (s : State) (n : Nat) (x : SiteRt) : (s.setSite n x).fcr = s.fcr := rfl
@[simp] theorem State.setSite_clk (s : State) (n : Nat) (x : SiteRt) : (s.setSite n x).clk = s.clk := rfl
@[simp] theorem State.setSite_poa (s : State) (n : Nat) (x : SiteRt) : (s.setSite n x).poa = s.poa := rfl
@[simp] theorem State.setSite_hlk (s : State) (n : Nat) (x : SiteRt) : (s.setSite n x).hlk = s.hlk := rfl
@[simp] theorem State.setSite_loops (s : State) (n : Nat) (x : SiteRt) : (s.setSite n x).loops = s.loops := rfl
@[simp] theorem State.setSite_adc (s : State) (n : Nat) (x : SiteRt) : (s.setSite n x).adc = s.adc := rfl
@[simp] theorem State.setSite_psm (s : State) (n : Nat) (x : SiteRt) : (s.setSite n x).psm = s.psm := rfl
@[simp] theorem State.setSite_ode (s : State) (n : Nat) (x : SiteRt) : (s.setSite n x).ode = s.ode := rfl
@[simp] theorem State.setSite_waiters (s : State) (n : Nat) (x : SiteRt) : (s.setSite n x).waiters = s.waiters := rfl
@[simp] theorem State.setSite_results (s : State) (n : Nat) (x : SiteRt) : (s.setSite n x).results = s.results := rfl
@[simp] theorem State.setSite_jobs (s : State) (n : Nat) (x : SiteRt) : (s.setSite n x).jobs = s.jobs := rfl
@[simp] theorem State.setSite_chartLen (s : State) (n : Nat) (x : SiteRt) : (s.setSite n x).chartLen = s.chartLen := rfl
@[simp] theorem State.setSite_mem (s : State) (n : Nat) (x : SiteRt) : (s.setSite n x).mem = s.mem := rfl
@[simp] theorem State.setSite_hms (s : State) (n : Nat) (x : SiteRt) : (s.setSite n x).hms = s.hms := rfl
@[simp] theorem State.setSite_staged (s : State) (n : Nat) (x : SiteRt) : (s.setSite n x).staged = s.staged := rfl
@[simp] theorem State.setSite_ndls (s : State) (n : Nat) (x : SiteRt) : (s.setSite n x).ndls = s.ndls := rfl
@[simp] theorem State.setSite_evts (s : State) (n : Nat) (x : SiteRt) : (s.setSite n x).evts = s.evts := rfl
@[simp] theorem State.setSite_ucode (s : State) (n : Nat) (x : SiteRt) : (s.setSite n x).ucode = s.ucode := rfl
@[simp] theorem State.setSite_ubase (s : State) (n : Nat) (x : SiteRt) : (s.setSite n x).ubase = s.ubase := rfl
@[simp] theorem State.setSite_traps (s : State) (n : Nat) (x : SiteRt) : (s.setSite n x).traps = s.traps := rfl
@[simp] theorem State.setSite_queues (s : State) (n : Nat) (x : SiteRt) : (s.setSite n x).queues = s.queues := rfl
@[simp] theorem State.setSite_pins (s : State) (n : Nat) (x : SiteRt) : (s.setSite n x).pins = s.pins := rfl
@[simp] theorem State.setSite_levelBus (s : State) (n : Nat) (x : SiteRt) : (s.setSite n x).levelBus = s.levelBus := rfl
@[simp] theorem State.setSite_levelFree (s : State) (n : Nat) (x : SiteRt) : (s.setSite n x).levelFree = s.levelFree := rfl
@[simp] theorem State.setSite_ras (s : State) (n : Nat) (x : SiteRt) : (s.setSite n x).ras = s.ras := rfl
@[simp] theorem State.setSite_tae (s : State) (n : Nat) (x : SiteRt) : (s.setSite n x).tae = s.tae := rfl
@[simp] theorem State.setSite_csl (s : State) (n : Nat) (x : SiteRt) : (s.setSite n x).csl = s.csl := rfl
@[simp] theorem State.setSite_cal (s : State) (n : Nat) (x : SiteRt) : (s.setSite n x).cal = s.cal := rfl
@[simp] theorem State.setSite_tdc (s : State) (n : Nat) (x : SiteRt) : (s.setSite n x).tdc = s.tdc := rfl
@[simp] theorem State.setSite_plc (s : State) (n : Nat) (x : SiteRt) : (s.setSite n x).plc = s.plc := rfl
@[simp] theorem State.setSite_bot (s : State) (n : Nat) (x : SiteRt) : (s.setSite n x).bot = s.bot := rfl
@[simp] theorem State.setSite_rd (s : State) (n : Nat) (x : SiteRt) (o' e' : Nat) : (s.setSite n x).rd o' e' = s.rd o' e' := rfl
@[simp] theorem State.setSite_self (s : State) (n : Nat) (x : SiteRt) : (s.setSite n x).site n = x := Tbl.get_put_self ..
theorem State.setSite_ne (s : State) (n : Nat) (x : SiteRt) (m : Nat) (h : m ≠ n) : (s.setSite n x).site m = s.site m := Tbl.get_put_ne _ _ _ h

/-! putQueue -/
@[simp] theorem State.putQueue_pending (s : State) (n : Nat) (x : Option Queue) : (s.putQueue n x).pending = s.pending := rfl
@[simp] theorem State.putQueue_now (s : State) (n : Nat) (x : Option Queue) : (s.putQueue n x).now = s.now := rfl
@[simp] theorem State.putQueue_freeCtr (s : State) (n : Nat) (x : Option Queue) : (s.putQueue n x).freeCtr = s.freeCtr := rfl
@[simp] theorem State.putQueue_od (s : State) (n : Nat) (x : Option Queue) : (s.putQueue n x).od = s.od := rfl
@[simp] theorem State.putQueue_images (s : State) (n : Nat) (x : Option Queue) : (s.putQueue n x).images = s.images := rfl
@[simp] theorem State.putQueue_out (s : State) (n : Nat) (x : Option Queue) : (s.putQueue n x).out = s.out := rfl
@[simp] theorem State.putQueue_trans (s : State) (n : Nat) (x : Option Queue) : (s.putQueue n x).trans = s.trans := rfl
@[simp] theorem State.putQueue_safeWanted (s : State) (n : Nat) (x : Option Queue) : (s.putQueue n x).safeWanted = s.safeWanted := rfl
@[simp] theorem State.putQueue_cores (s : State) (n : Nat) (x : Option Queue) : (s.putQueue n x).cores = s.cores := rfl
@[simp] theorem State.putQueue_ready (s : State) (n : Nat) (x : Option Queue) : (s.putQueue n x).ready = s.ready := rfl
@[simp] theorem State.putQueue_flowFree (s : State) (n : Nat) (x : Option Queue) : (s.putQueue n x).flowFree = s.flowFree := rfl
@[simp] theorem State.putQueue_homes (s : State) (n : Nat) (x : Option Queue) : (s.putQueue n x).homes = s.homes := rfl
@[simp] theorem State.putQueue_wdpFullAt (s : State) (n : Nat) (x : Option Queue) : (s.putQueue n x).wdpFullAt = s.wdpFullAt := rfl
@[simp] theorem State.putQueue_wdpTrace (s : State) (n : Nat) (x : Option Queue) : (s.putQueue n x).wdpTrace = s.wdpTrace := rfl
@[simp] theorem State.putQueue_wdpLost (s : State) (n : Nat) (x : Option Queue) : (s.putQueue n x).wdpLost = s.wdpLost := rfl
@[simp] theorem State.putQueue_srcs (s : State) (n : Nat) (x : Option Queue) : (s.putQueue n x).srcs = s.srcs := rfl
@[simp] theorem State.putQueue_groups (s : State) (n : Nat) (x : Option Queue) : (s.putQueue n x).groups = s.groups := rfl
@[simp] theorem State.putQueue_fcr (s : State) (n : Nat) (x : Option Queue) : (s.putQueue n x).fcr = s.fcr := rfl
@[simp] theorem State.putQueue_clk (s : State) (n : Nat) (x : Option Queue) : (s.putQueue n x).clk = s.clk := rfl
@[simp] theorem State.putQueue_poa (s : State) (n : Nat) (x : Option Queue) : (s.putQueue n x).poa = s.poa := rfl
@[simp] theorem State.putQueue_hlk (s : State) (n : Nat) (x : Option Queue) : (s.putQueue n x).hlk = s.hlk := rfl
@[simp] theorem State.putQueue_loops (s : State) (n : Nat) (x : Option Queue) : (s.putQueue n x).loops = s.loops := rfl
@[simp] theorem State.putQueue_adc (s : State) (n : Nat) (x : Option Queue) : (s.putQueue n x).adc = s.adc := rfl
@[simp] theorem State.putQueue_psm (s : State) (n : Nat) (x : Option Queue) : (s.putQueue n x).psm = s.psm := rfl
@[simp] theorem State.putQueue_ode (s : State) (n : Nat) (x : Option Queue) : (s.putQueue n x).ode = s.ode := rfl
@[simp] theorem State.putQueue_waiters (s : State) (n : Nat) (x : Option Queue) : (s.putQueue n x).waiters = s.waiters := rfl
@[simp] theorem State.putQueue_results (s : State) (n : Nat) (x : Option Queue) : (s.putQueue n x).results = s.results := rfl
@[simp] theorem State.putQueue_jobs (s : State) (n : Nat) (x : Option Queue) : (s.putQueue n x).jobs = s.jobs := rfl
@[simp] theorem State.putQueue_chartLen (s : State) (n : Nat) (x : Option Queue) : (s.putQueue n x).chartLen = s.chartLen := rfl
@[simp] theorem State.putQueue_mem (s : State) (n : Nat) (x : Option Queue) : (s.putQueue n x).mem = s.mem := rfl
@[simp] theorem State.putQueue_hms (s : State) (n : Nat) (x : Option Queue) : (s.putQueue n x).hms = s.hms := rfl
@[simp] theorem State.putQueue_staged (s : State) (n : Nat) (x : Option Queue) : (s.putQueue n x).staged = s.staged := rfl
@[simp] theorem State.putQueue_ndls (s : State) (n : Nat) (x : Option Queue) : (s.putQueue n x).ndls = s.ndls := rfl
@[simp] theorem State.putQueue_evts (s : State) (n : Nat) (x : Option Queue) : (s.putQueue n x).evts = s.evts := rfl
@[simp] theorem State.putQueue_ucode (s : State) (n : Nat) (x : Option Queue) : (s.putQueue n x).ucode = s.ucode := rfl
@[simp] theorem State.putQueue_ubase (s : State) (n : Nat) (x : Option Queue) : (s.putQueue n x).ubase = s.ubase := rfl
@[simp] theorem State.putQueue_traps (s : State) (n : Nat) (x : Option Queue) : (s.putQueue n x).traps = s.traps := rfl
@[simp] theorem State.putQueue_sites (s : State) (n : Nat) (x : Option Queue) : (s.putQueue n x).sites = s.sites := rfl
@[simp] theorem State.putQueue_pins (s : State) (n : Nat) (x : Option Queue) : (s.putQueue n x).pins = s.pins := rfl
@[simp] theorem State.putQueue_levelBus (s : State) (n : Nat) (x : Option Queue) : (s.putQueue n x).levelBus = s.levelBus := rfl
@[simp] theorem State.putQueue_levelFree (s : State) (n : Nat) (x : Option Queue) : (s.putQueue n x).levelFree = s.levelFree := rfl
@[simp] theorem State.putQueue_ras (s : State) (n : Nat) (x : Option Queue) : (s.putQueue n x).ras = s.ras := rfl
@[simp] theorem State.putQueue_tae (s : State) (n : Nat) (x : Option Queue) : (s.putQueue n x).tae = s.tae := rfl
@[simp] theorem State.putQueue_csl (s : State) (n : Nat) (x : Option Queue) : (s.putQueue n x).csl = s.csl := rfl
@[simp] theorem State.putQueue_cal (s : State) (n : Nat) (x : Option Queue) : (s.putQueue n x).cal = s.cal := rfl
@[simp] theorem State.putQueue_tdc (s : State) (n : Nat) (x : Option Queue) : (s.putQueue n x).tdc = s.tdc := rfl
@[simp] theorem State.putQueue_plc (s : State) (n : Nat) (x : Option Queue) : (s.putQueue n x).plc = s.plc := rfl
@[simp] theorem State.putQueue_bot (s : State) (n : Nat) (x : Option Queue) : (s.putQueue n x).bot = s.bot := rfl
@[simp] theorem State.putQueue_rd (s : State) (n : Nat) (x : Option Queue) (o' e' : Nat) : (s.putQueue n x).rd o' e' = s.rd o' e' := rfl
@[simp] theorem State.putQueue_self (s : State) (n : Nat) (x : Option Queue) : (s.putQueue n x).queue n = x := Tbl.get_put_self ..
theorem State.putQueue_ne (s : State) (n : Nat) (x : Option Queue) (m : Nat) (h : m ≠ n) : (s.putQueue n x).queue m = s.queue m := Tbl.get_put_ne _ _ _ h

/-! setPin -/
@[simp] theorem State.setPin_pending (s : State) (n : Nat) (x : PinRt) : (s.setPin n x).pending = s.pending := rfl
@[simp] theorem State.setPin_now (s : State) (n : Nat) (x : PinRt) : (s.setPin n x).now = s.now := rfl
@[simp] theorem State.setPin_freeCtr (s : State) (n : Nat) (x : PinRt) : (s.setPin n x).freeCtr = s.freeCtr := rfl
@[simp] theorem State.setPin_od (s : State) (n : Nat) (x : PinRt) : (s.setPin n x).od = s.od := rfl
@[simp] theorem State.setPin_images (s : State) (n : Nat) (x : PinRt) : (s.setPin n x).images = s.images := rfl
@[simp] theorem State.setPin_out (s : State) (n : Nat) (x : PinRt) : (s.setPin n x).out = s.out := rfl
@[simp] theorem State.setPin_trans (s : State) (n : Nat) (x : PinRt) : (s.setPin n x).trans = s.trans := rfl
@[simp] theorem State.setPin_safeWanted (s : State) (n : Nat) (x : PinRt) : (s.setPin n x).safeWanted = s.safeWanted := rfl
@[simp] theorem State.setPin_cores (s : State) (n : Nat) (x : PinRt) : (s.setPin n x).cores = s.cores := rfl
@[simp] theorem State.setPin_ready (s : State) (n : Nat) (x : PinRt) : (s.setPin n x).ready = s.ready := rfl
@[simp] theorem State.setPin_flowFree (s : State) (n : Nat) (x : PinRt) : (s.setPin n x).flowFree = s.flowFree := rfl
@[simp] theorem State.setPin_homes (s : State) (n : Nat) (x : PinRt) : (s.setPin n x).homes = s.homes := rfl
@[simp] theorem State.setPin_wdpFullAt (s : State) (n : Nat) (x : PinRt) : (s.setPin n x).wdpFullAt = s.wdpFullAt := rfl
@[simp] theorem State.setPin_wdpTrace (s : State) (n : Nat) (x : PinRt) : (s.setPin n x).wdpTrace = s.wdpTrace := rfl
@[simp] theorem State.setPin_wdpLost (s : State) (n : Nat) (x : PinRt) : (s.setPin n x).wdpLost = s.wdpLost := rfl
@[simp] theorem State.setPin_srcs (s : State) (n : Nat) (x : PinRt) : (s.setPin n x).srcs = s.srcs := rfl
@[simp] theorem State.setPin_groups (s : State) (n : Nat) (x : PinRt) : (s.setPin n x).groups = s.groups := rfl
@[simp] theorem State.setPin_fcr (s : State) (n : Nat) (x : PinRt) : (s.setPin n x).fcr = s.fcr := rfl
@[simp] theorem State.setPin_clk (s : State) (n : Nat) (x : PinRt) : (s.setPin n x).clk = s.clk := rfl
@[simp] theorem State.setPin_poa (s : State) (n : Nat) (x : PinRt) : (s.setPin n x).poa = s.poa := rfl
@[simp] theorem State.setPin_hlk (s : State) (n : Nat) (x : PinRt) : (s.setPin n x).hlk = s.hlk := rfl
@[simp] theorem State.setPin_loops (s : State) (n : Nat) (x : PinRt) : (s.setPin n x).loops = s.loops := rfl
@[simp] theorem State.setPin_adc (s : State) (n : Nat) (x : PinRt) : (s.setPin n x).adc = s.adc := rfl
@[simp] theorem State.setPin_psm (s : State) (n : Nat) (x : PinRt) : (s.setPin n x).psm = s.psm := rfl
@[simp] theorem State.setPin_ode (s : State) (n : Nat) (x : PinRt) : (s.setPin n x).ode = s.ode := rfl
@[simp] theorem State.setPin_waiters (s : State) (n : Nat) (x : PinRt) : (s.setPin n x).waiters = s.waiters := rfl
@[simp] theorem State.setPin_results (s : State) (n : Nat) (x : PinRt) : (s.setPin n x).results = s.results := rfl
@[simp] theorem State.setPin_jobs (s : State) (n : Nat) (x : PinRt) : (s.setPin n x).jobs = s.jobs := rfl
@[simp] theorem State.setPin_chartLen (s : State) (n : Nat) (x : PinRt) : (s.setPin n x).chartLen = s.chartLen := rfl
@[simp] theorem State.setPin_mem (s : State) (n : Nat) (x : PinRt) : (s.setPin n x).mem = s.mem := rfl
@[simp] theorem State.setPin_hms (s : State) (n : Nat) (x : PinRt) : (s.setPin n x).hms = s.hms := rfl
@[simp] theorem State.setPin_staged (s : State) (n : Nat) (x : PinRt) : (s.setPin n x).staged = s.staged := rfl
@[simp] theorem State.setPin_ndls (s : State) (n : Nat) (x : PinRt) : (s.setPin n x).ndls = s.ndls := rfl
@[simp] theorem State.setPin_evts (s : State) (n : Nat) (x : PinRt) : (s.setPin n x).evts = s.evts := rfl
@[simp] theorem State.setPin_ucode (s : State) (n : Nat) (x : PinRt) : (s.setPin n x).ucode = s.ucode := rfl
@[simp] theorem State.setPin_ubase (s : State) (n : Nat) (x : PinRt) : (s.setPin n x).ubase = s.ubase := rfl
@[simp] theorem State.setPin_traps (s : State) (n : Nat) (x : PinRt) : (s.setPin n x).traps = s.traps := rfl
@[simp] theorem State.setPin_sites (s : State) (n : Nat) (x : PinRt) : (s.setPin n x).sites = s.sites := rfl
@[simp] theorem State.setPin_queues (s : State) (n : Nat) (x : PinRt) : (s.setPin n x).queues = s.queues := rfl
@[simp] theorem State.setPin_levelBus (s : State) (n : Nat) (x : PinRt) : (s.setPin n x).levelBus = s.levelBus := rfl
@[simp] theorem State.setPin_levelFree (s : State) (n : Nat) (x : PinRt) : (s.setPin n x).levelFree = s.levelFree := rfl
@[simp] theorem State.setPin_ras (s : State) (n : Nat) (x : PinRt) : (s.setPin n x).ras = s.ras := rfl
@[simp] theorem State.setPin_tae (s : State) (n : Nat) (x : PinRt) : (s.setPin n x).tae = s.tae := rfl
@[simp] theorem State.setPin_csl (s : State) (n : Nat) (x : PinRt) : (s.setPin n x).csl = s.csl := rfl
@[simp] theorem State.setPin_cal (s : State) (n : Nat) (x : PinRt) : (s.setPin n x).cal = s.cal := rfl
@[simp] theorem State.setPin_tdc (s : State) (n : Nat) (x : PinRt) : (s.setPin n x).tdc = s.tdc := rfl
@[simp] theorem State.setPin_plc (s : State) (n : Nat) (x : PinRt) : (s.setPin n x).plc = s.plc := rfl
@[simp] theorem State.setPin_bot (s : State) (n : Nat) (x : PinRt) : (s.setPin n x).bot = s.bot := rfl
@[simp] theorem State.setPin_rd (s : State) (n : Nat) (x : PinRt) (o' e' : Nat) : (s.setPin n x).rd o' e' = s.rd o' e' := rfl
@[simp] theorem State.setPin_self (s : State) (n : Nat) (x : PinRt) : (s.setPin n x).pin n = x := Tbl.get_put_self ..
theorem State.setPin_ne (s : State) (n : Nat) (x : PinRt) (m : Nat) (h : m ≠ n) : (s.setPin n x).pin m = s.pin m := Tbl.get_put_ne _ _ _ h

/-! setFrames -/
@[simp] theorem State.setFrames_pending (s : State) (n : Nat) (x : List LevelFrame) : (s.setFrames n x).pending = s.pending := rfl
@[simp] theorem State.setFrames_now (s : State) (n : Nat) (x : List LevelFrame) : (s.setFrames n x).now = s.now := rfl
@[simp] theorem State.setFrames_freeCtr (s : State) (n : Nat) (x : List LevelFrame) : (s.setFrames n x).freeCtr = s.freeCtr := rfl
@[simp] theorem State.setFrames_od (s : State) (n : Nat) (x : List LevelFrame) : (s.setFrames n x).od = s.od := rfl
@[simp] theorem State.setFrames_images (s : State) (n : Nat) (x : List LevelFrame) : (s.setFrames n x).images = s.images := rfl
@[simp] theorem State.setFrames_out (s : State) (n : Nat) (x : List LevelFrame) : (s.setFrames n x).out = s.out := rfl
@[simp] theorem State.setFrames_trans (s : State) (n : Nat) (x : List LevelFrame) : (s.setFrames n x).trans = s.trans := rfl
@[simp] theorem State.setFrames_safeWanted (s : State) (n : Nat) (x : List LevelFrame) : (s.setFrames n x).safeWanted = s.safeWanted := rfl
@[simp] theorem State.setFrames_cores (s : State) (n : Nat) (x : List LevelFrame) : (s.setFrames n x).cores = s.cores := rfl
@[simp] theorem State.setFrames_ready (s : State) (n : Nat) (x : List LevelFrame) : (s.setFrames n x).ready = s.ready := rfl
@[simp] theorem State.setFrames_flowFree (s : State) (n : Nat) (x : List LevelFrame) : (s.setFrames n x).flowFree = s.flowFree := rfl
@[simp] theorem State.setFrames_homes (s : State) (n : Nat) (x : List LevelFrame) : (s.setFrames n x).homes = s.homes := rfl
@[simp] theorem State.setFrames_wdpFullAt (s : State) (n : Nat) (x : List LevelFrame) : (s.setFrames n x).wdpFullAt = s.wdpFullAt := rfl
@[simp] theorem State.setFrames_wdpTrace (s : State) (n : Nat) (x : List LevelFrame) : (s.setFrames n x).wdpTrace = s.wdpTrace := rfl
@[simp] theorem State.setFrames_wdpLost (s : State) (n : Nat) (x : List LevelFrame) : (s.setFrames n x).wdpLost = s.wdpLost := rfl
@[simp] theorem State.setFrames_srcs (s : State) (n : Nat) (x : List LevelFrame) : (s.setFrames n x).srcs = s.srcs := rfl
@[simp] theorem State.setFrames_groups (s : State) (n : Nat) (x : List LevelFrame) : (s.setFrames n x).groups = s.groups := rfl
@[simp] theorem State.setFrames_fcr (s : State) (n : Nat) (x : List LevelFrame) : (s.setFrames n x).fcr = s.fcr := rfl
@[simp] theorem State.setFrames_clk (s : State) (n : Nat) (x : List LevelFrame) : (s.setFrames n x).clk = s.clk := rfl
@[simp] theorem State.setFrames_poa (s : State) (n : Nat) (x : List LevelFrame) : (s.setFrames n x).poa = s.poa := rfl
@[simp] theorem State.setFrames_hlk (s : State) (n : Nat) (x : List LevelFrame) : (s.setFrames n x).hlk = s.hlk := rfl
@[simp] theorem State.setFrames_loops (s : State) (n : Nat) (x : List LevelFrame) : (s.setFrames n x).loops = s.loops := rfl
@[simp] theorem State.setFrames_adc (s : State) (n : Nat) (x : List LevelFrame) : (s.setFrames n x).adc = s.adc := rfl
@[simp] theorem State.setFrames_psm (s : State) (n : Nat) (x : List LevelFrame) : (s.setFrames n x).psm = s.psm := rfl
@[simp] theorem State.setFrames_ode (s : State) (n : Nat) (x : List LevelFrame) : (s.setFrames n x).ode = s.ode := rfl
@[simp] theorem State.setFrames_waiters (s : State) (n : Nat) (x : List LevelFrame) : (s.setFrames n x).waiters = s.waiters := rfl
@[simp] theorem State.setFrames_results (s : State) (n : Nat) (x : List LevelFrame) : (s.setFrames n x).results = s.results := rfl
@[simp] theorem State.setFrames_jobs (s : State) (n : Nat) (x : List LevelFrame) : (s.setFrames n x).jobs = s.jobs := rfl
@[simp] theorem State.setFrames_chartLen (s : State) (n : Nat) (x : List LevelFrame) : (s.setFrames n x).chartLen = s.chartLen := rfl
@[simp] theorem State.setFrames_mem (s : State) (n : Nat) (x : List LevelFrame) : (s.setFrames n x).mem = s.mem := rfl
@[simp] theorem State.setFrames_hms (s : State) (n : Nat) (x : List LevelFrame) : (s.setFrames n x).hms = s.hms := rfl
@[simp] theorem State.setFrames_staged (s : State) (n : Nat) (x : List LevelFrame) : (s.setFrames n x).staged = s.staged := rfl
@[simp] theorem State.setFrames_ndls (s : State) (n : Nat) (x : List LevelFrame) : (s.setFrames n x).ndls = s.ndls := rfl
@[simp] theorem State.setFrames_evts (s : State) (n : Nat) (x : List LevelFrame) : (s.setFrames n x).evts = s.evts := rfl
@[simp] theorem State.setFrames_ucode (s : State) (n : Nat) (x : List LevelFrame) : (s.setFrames n x).ucode = s.ucode := rfl
@[simp] theorem State.setFrames_ubase (s : State) (n : Nat) (x : List LevelFrame) : (s.setFrames n x).ubase = s.ubase := rfl
@[simp] theorem State.setFrames_traps (s : State) (n : Nat) (x : List LevelFrame) : (s.setFrames n x).traps = s.traps := rfl
@[simp] theorem State.setFrames_sites (s : State) (n : Nat) (x : List LevelFrame) : (s.setFrames n x).sites = s.sites := rfl
@[simp] theorem State.setFrames_queues (s : State) (n : Nat) (x : List LevelFrame) : (s.setFrames n x).queues = s.queues := rfl
@[simp] theorem State.setFrames_pins (s : State) (n : Nat) (x : List LevelFrame) : (s.setFrames n x).pins = s.pins := rfl
@[simp] theorem State.setFrames_levelFree (s : State) (n : Nat) (x : List LevelFrame) : (s.setFrames n x).levelFree = s.levelFree := rfl
@[simp] theorem State.setFrames_ras (s : State) (n : Nat) (x : List LevelFrame) : (s.setFrames n x).ras = s.ras := rfl
@[simp] theorem State.setFrames_tae (s : State) (n : Nat) (x : List LevelFrame) : (s.setFrames n x).tae = s.tae := rfl
@[simp] theorem State.setFrames_csl (s : State) (n : Nat) (x : List LevelFrame) : (s.setFrames n x).csl = s.csl := rfl
@[simp] theorem State.setFrames_cal (s : State) (n : Nat) (x : List LevelFrame) : (s.setFrames n x).cal = s.cal := rfl
@[simp] theorem State.setFrames_tdc (s : State) (n : Nat) (x : List LevelFrame) : (s.setFrames n x).tdc = s.tdc := rfl
@[simp] theorem State.setFrames_plc (s : State) (n : Nat) (x : List LevelFrame) : (s.setFrames n x).plc = s.plc := rfl
@[simp] theorem State.setFrames_bot (s : State) (n : Nat) (x : List LevelFrame) : (s.setFrames n x).bot = s.bot := rfl
@[simp] theorem State.setFrames_rd (s : State) (n : Nat) (x : List LevelFrame) (o' e' : Nat) : (s.setFrames n x).rd o' e' = s.rd o' e' := rfl
@[simp] theorem State.setFrames_self (s : State) (n : Nat) (x : List LevelFrame) : (s.setFrames n x).levelFrames n = x := Tbl.get_put_self ..
theorem State.setFrames_ne (s : State) (n : Nat) (x : List LevelFrame) (m : Nat) (h : m ≠ n) : (s.setFrames n x).levelFrames m = s.levelFrames m := Tbl.get_put_ne _ _ _ h

/-! setStream -/
@[simp] theorem State.setStream_pending (s : State) (n : Nat) (x : RasRt) : (s.setStream n x).pending = s.pending := rfl
@[simp] theorem State.setStream_now (s : State) (n : Nat) (x : RasRt) : (s.setStream n x).now = s.now := rfl
@[simp] theorem State.setStream_freeCtr (s : State) (n : Nat) (x : RasRt) : (s.setStream n x).freeCtr = s.freeCtr := rfl
@[simp] theorem State.setStream_od (s : State) (n : Nat) (x : RasRt) : (s.setStream n x).od = s.od := rfl
@[simp] theorem State.setStream_images (s : State) (n : Nat) (x : RasRt) : (s.setStream n x).images = s.images := rfl
@[simp] theorem State.setStream_out (s : State) (n : Nat) (x : RasRt) : (s.setStream n x).out = s.out := rfl
@[simp] theorem State.setStream_trans (s : State) (n : Nat) (x : RasRt) : (s.setStream n x).trans = s.trans := rfl
@[simp] theorem State.setStream_safeWanted (s : State) (n : Nat) (x : RasRt) : (s.setStream n x).safeWanted = s.safeWanted := rfl
@[simp] theorem State.setStream_cores (s : State) (n : Nat) (x : RasRt) : (s.setStream n x).cores = s.cores := rfl
@[simp] theorem State.setStream_ready (s : State) (n : Nat) (x : RasRt) : (s.setStream n x).ready = s.ready := rfl
@[simp] theorem State.setStream_flowFree (s : State) (n : Nat) (x : RasRt) : (s.setStream n x).flowFree = s.flowFree := rfl
@[simp] theorem State.setStream_homes (s : State) (n : Nat) (x : RasRt) : (s.setStream n x).homes = s.homes := rfl
@[simp] theorem State.setStream_wdpFullAt (s : State) (n : Nat) (x : RasRt) : (s.setStream n x).wdpFullAt = s.wdpFullAt := rfl
@[simp] theorem State.setStream_wdpTrace (s : State) (n : Nat) (x : RasRt) : (s.setStream n x).wdpTrace = s.wdpTrace := rfl
@[simp] theorem State.setStream_wdpLost (s : State) (n : Nat) (x : RasRt) : (s.setStream n x).wdpLost = s.wdpLost := rfl
@[simp] theorem State.setStream_srcs (s : State) (n : Nat) (x : RasRt) : (s.setStream n x).srcs = s.srcs := rfl
@[simp] theorem State.setStream_groups (s : State) (n : Nat) (x : RasRt) : (s.setStream n x).groups = s.groups := rfl
@[simp] theorem State.setStream_fcr (s : State) (n : Nat) (x : RasRt) : (s.setStream n x).fcr = s.fcr := rfl
@[simp] theorem State.setStream_clk (s : State) (n : Nat) (x : RasRt) : (s.setStream n x).clk = s.clk := rfl
@[simp] theorem State.setStream_poa (s : State) (n : Nat) (x : RasRt) : (s.setStream n x).poa = s.poa := rfl
@[simp] theorem State.setStream_hlk (s : State) (n : Nat) (x : RasRt) : (s.setStream n x).hlk = s.hlk := rfl
@[simp] theorem State.setStream_loops (s : State) (n : Nat) (x : RasRt) : (s.setStream n x).loops = s.loops := rfl
@[simp] theorem State.setStream_adc (s : State) (n : Nat) (x : RasRt) : (s.setStream n x).adc = s.adc := rfl
@[simp] theorem State.setStream_psm (s : State) (n : Nat) (x : RasRt) : (s.setStream n x).psm = s.psm := rfl
@[simp] theorem State.setStream_ode (s : State) (n : Nat) (x : RasRt) : (s.setStream n x).ode = s.ode := rfl
@[simp] theorem State.setStream_waiters (s : State) (n : Nat) (x : RasRt) : (s.setStream n x).waiters = s.waiters := rfl
@[simp] theorem State.setStream_results (s : State) (n : Nat) (x : RasRt) : (s.setStream n x).results = s.results := rfl
@[simp] theorem State.setStream_jobs (s : State) (n : Nat) (x : RasRt) : (s.setStream n x).jobs = s.jobs := rfl
@[simp] theorem State.setStream_chartLen (s : State) (n : Nat) (x : RasRt) : (s.setStream n x).chartLen = s.chartLen := rfl
@[simp] theorem State.setStream_mem (s : State) (n : Nat) (x : RasRt) : (s.setStream n x).mem = s.mem := rfl
@[simp] theorem State.setStream_hms (s : State) (n : Nat) (x : RasRt) : (s.setStream n x).hms = s.hms := rfl
@[simp] theorem State.setStream_staged (s : State) (n : Nat) (x : RasRt) : (s.setStream n x).staged = s.staged := rfl
@[simp] theorem State.setStream_ndls (s : State) (n : Nat) (x : RasRt) : (s.setStream n x).ndls = s.ndls := rfl
@[simp] theorem State.setStream_evts (s : State) (n : Nat) (x : RasRt) : (s.setStream n x).evts = s.evts := rfl
@[simp] theorem State.setStream_ucode (s : State) (n : Nat) (x : RasRt) : (s.setStream n x).ucode = s.ucode := rfl
@[simp] theorem State.setStream_ubase (s : State) (n : Nat) (x : RasRt) : (s.setStream n x).ubase = s.ubase := rfl
@[simp] theorem State.setStream_traps (s : State) (n : Nat) (x : RasRt) : (s.setStream n x).traps = s.traps := rfl
@[simp] theorem State.setStream_sites (s : State) (n : Nat) (x : RasRt) : (s.setStream n x).sites = s.sites := rfl
@[simp] theorem State.setStream_queues (s : State) (n : Nat) (x : RasRt) : (s.setStream n x).queues = s.queues := rfl
@[simp] theorem State.setStream_pins (s : State) (n : Nat) (x : RasRt) : (s.setStream n x).pins = s.pins := rfl
@[simp] theorem State.setStream_levelBus (s : State) (n : Nat) (x : RasRt) : (s.setStream n x).levelBus = s.levelBus := rfl
@[simp] theorem State.setStream_levelFree (s : State) (n : Nat) (x : RasRt) : (s.setStream n x).levelFree = s.levelFree := rfl
@[simp] theorem State.setStream_tae (s : State) (n : Nat) (x : RasRt) : (s.setStream n x).tae = s.tae := rfl
@[simp] theorem State.setStream_csl (s : State) (n : Nat) (x : RasRt) : (s.setStream n x).csl = s.csl := rfl
@[simp] theorem State.setStream_cal (s : State) (n : Nat) (x : RasRt) : (s.setStream n x).cal = s.cal := rfl
@[simp] theorem State.setStream_tdc (s : State) (n : Nat) (x : RasRt) : (s.setStream n x).tdc = s.tdc := rfl
@[simp] theorem State.setStream_plc (s : State) (n : Nat) (x : RasRt) : (s.setStream n x).plc = s.plc := rfl
@[simp] theorem State.setStream_bot (s : State) (n : Nat) (x : RasRt) : (s.setStream n x).bot = s.bot := rfl
@[simp] theorem State.setStream_rd (s : State) (n : Nat) (x : RasRt) (o' e' : Nat) : (s.setStream n x).rd o' e' = s.rd o' e' := rfl
@[simp] theorem State.setStream_self (s : State) (n : Nat) (x : RasRt) : (s.setStream n x).stream n = x := Tbl.get_put_self ..
theorem State.setStream_ne (s : State) (n : Nat) (x : RasRt) (m : Nat) (h : m ≠ n) : (s.setStream n x).stream m = s.stream m := Tbl.get_put_ne _ _ _ h

/-! setUnit -/
@[simp] theorem State.setUnit_pending (s : State) (n : Nat) (x : TaeRt) : (s.setUnit n x).pending = s.pending := rfl
@[simp] theorem State.setUnit_now (s : State) (n : Nat) (x : TaeRt) : (s.setUnit n x).now = s.now := rfl
@[simp] theorem State.setUnit_freeCtr (s : State) (n : Nat) (x : TaeRt) : (s.setUnit n x).freeCtr = s.freeCtr := rfl
@[simp] theorem State.setUnit_od (s : State) (n : Nat) (x : TaeRt) : (s.setUnit n x).od = s.od := rfl
@[simp] theorem State.setUnit_images (s : State) (n : Nat) (x : TaeRt) : (s.setUnit n x).images = s.images := rfl
@[simp] theorem State.setUnit_out (s : State) (n : Nat) (x : TaeRt) : (s.setUnit n x).out = s.out := rfl
@[simp] theorem State.setUnit_trans (s : State) (n : Nat) (x : TaeRt) : (s.setUnit n x).trans = s.trans := rfl
@[simp] theorem State.setUnit_safeWanted (s : State) (n : Nat) (x : TaeRt) : (s.setUnit n x).safeWanted = s.safeWanted := rfl
@[simp] theorem State.setUnit_cores (s : State) (n : Nat) (x : TaeRt) : (s.setUnit n x).cores = s.cores := rfl
@[simp] theorem State.setUnit_ready (s : State) (n : Nat) (x : TaeRt) : (s.setUnit n x).ready = s.ready := rfl
@[simp] theorem State.setUnit_flowFree (s : State) (n : Nat) (x : TaeRt) : (s.setUnit n x).flowFree = s.flowFree := rfl
@[simp] theorem State.setUnit_homes (s : State) (n : Nat) (x : TaeRt) : (s.setUnit n x).homes = s.homes := rfl
@[simp] theorem State.setUnit_wdpFullAt (s : State) (n : Nat) (x : TaeRt) : (s.setUnit n x).wdpFullAt = s.wdpFullAt := rfl
@[simp] theorem State.setUnit_wdpTrace (s : State) (n : Nat) (x : TaeRt) : (s.setUnit n x).wdpTrace = s.wdpTrace := rfl
@[simp] theorem State.setUnit_wdpLost (s : State) (n : Nat) (x : TaeRt) : (s.setUnit n x).wdpLost = s.wdpLost := rfl
@[simp] theorem State.setUnit_srcs (s : State) (n : Nat) (x : TaeRt) : (s.setUnit n x).srcs = s.srcs := rfl
@[simp] theorem State.setUnit_groups (s : State) (n : Nat) (x : TaeRt) : (s.setUnit n x).groups = s.groups := rfl
@[simp] theorem State.setUnit_fcr (s : State) (n : Nat) (x : TaeRt) : (s.setUnit n x).fcr = s.fcr := rfl
@[simp] theorem State.setUnit_clk (s : State) (n : Nat) (x : TaeRt) : (s.setUnit n x).clk = s.clk := rfl
@[simp] theorem State.setUnit_poa (s : State) (n : Nat) (x : TaeRt) : (s.setUnit n x).poa = s.poa := rfl
@[simp] theorem State.setUnit_hlk (s : State) (n : Nat) (x : TaeRt) : (s.setUnit n x).hlk = s.hlk := rfl
@[simp] theorem State.setUnit_loops (s : State) (n : Nat) (x : TaeRt) : (s.setUnit n x).loops = s.loops := rfl
@[simp] theorem State.setUnit_adc (s : State) (n : Nat) (x : TaeRt) : (s.setUnit n x).adc = s.adc := rfl
@[simp] theorem State.setUnit_psm (s : State) (n : Nat) (x : TaeRt) : (s.setUnit n x).psm = s.psm := rfl
@[simp] theorem State.setUnit_ode (s : State) (n : Nat) (x : TaeRt) : (s.setUnit n x).ode = s.ode := rfl
@[simp] theorem State.setUnit_waiters (s : State) (n : Nat) (x : TaeRt) : (s.setUnit n x).waiters = s.waiters := rfl
@[simp] theorem State.setUnit_results (s : State) (n : Nat) (x : TaeRt) : (s.setUnit n x).results = s.results := rfl
@[simp] theorem State.setUnit_jobs (s : State) (n : Nat) (x : TaeRt) : (s.setUnit n x).jobs = s.jobs := rfl
@[simp] theorem State.setUnit_chartLen (s : State) (n : Nat) (x : TaeRt) : (s.setUnit n x).chartLen = s.chartLen := rfl
@[simp] theorem State.setUnit_mem (s : State) (n : Nat) (x : TaeRt) : (s.setUnit n x).mem = s.mem := rfl
@[simp] theorem State.setUnit_hms (s : State) (n : Nat) (x : TaeRt) : (s.setUnit n x).hms = s.hms := rfl
@[simp] theorem State.setUnit_staged (s : State) (n : Nat) (x : TaeRt) : (s.setUnit n x).staged = s.staged := rfl
@[simp] theorem State.setUnit_ndls (s : State) (n : Nat) (x : TaeRt) : (s.setUnit n x).ndls = s.ndls := rfl
@[simp] theorem State.setUnit_evts (s : State) (n : Nat) (x : TaeRt) : (s.setUnit n x).evts = s.evts := rfl
@[simp] theorem State.setUnit_ucode (s : State) (n : Nat) (x : TaeRt) : (s.setUnit n x).ucode = s.ucode := rfl
@[simp] theorem State.setUnit_ubase (s : State) (n : Nat) (x : TaeRt) : (s.setUnit n x).ubase = s.ubase := rfl
@[simp] theorem State.setUnit_traps (s : State) (n : Nat) (x : TaeRt) : (s.setUnit n x).traps = s.traps := rfl
@[simp] theorem State.setUnit_sites (s : State) (n : Nat) (x : TaeRt) : (s.setUnit n x).sites = s.sites := rfl
@[simp] theorem State.setUnit_queues (s : State) (n : Nat) (x : TaeRt) : (s.setUnit n x).queues = s.queues := rfl
@[simp] theorem State.setUnit_pins (s : State) (n : Nat) (x : TaeRt) : (s.setUnit n x).pins = s.pins := rfl
@[simp] theorem State.setUnit_levelBus (s : State) (n : Nat) (x : TaeRt) : (s.setUnit n x).levelBus = s.levelBus := rfl
@[simp] theorem State.setUnit_levelFree (s : State) (n : Nat) (x : TaeRt) : (s.setUnit n x).levelFree = s.levelFree := rfl
@[simp] theorem State.setUnit_ras (s : State) (n : Nat) (x : TaeRt) : (s.setUnit n x).ras = s.ras := rfl
@[simp] theorem State.setUnit_csl (s : State) (n : Nat) (x : TaeRt) : (s.setUnit n x).csl = s.csl := rfl
@[simp] theorem State.setUnit_cal (s : State) (n : Nat) (x : TaeRt) : (s.setUnit n x).cal = s.cal := rfl
@[simp] theorem State.setUnit_tdc (s : State) (n : Nat) (x : TaeRt) : (s.setUnit n x).tdc = s.tdc := rfl
@[simp] theorem State.setUnit_plc (s : State) (n : Nat) (x : TaeRt) : (s.setUnit n x).plc = s.plc := rfl
@[simp] theorem State.setUnit_bot (s : State) (n : Nat) (x : TaeRt) : (s.setUnit n x).bot = s.bot := rfl
@[simp] theorem State.setUnit_rd (s : State) (n : Nat) (x : TaeRt) (o' e' : Nat) : (s.setUnit n x).rd o' e' = s.rd o' e' := rfl
@[simp] theorem State.setUnit_self (s : State) (n : Nat) (x : TaeRt) : (s.setUnit n x).unit n = x := Tbl.get_put_self ..
theorem State.setUnit_ne (s : State) (n : Nat) (x : TaeRt) (m : Nat) (h : m ≠ n) : (s.setUnit n x).unit m = s.unit m := Tbl.get_put_ne _ _ _ h

/-! setCport -/
@[simp] theorem State.setCport_pending (s : State) (n : Nat) (x : CslRt) : (s.setCport n x).pending = s.pending := rfl
@[simp] theorem State.setCport_now (s : State) (n : Nat) (x : CslRt) : (s.setCport n x).now = s.now := rfl
@[simp] theorem State.setCport_freeCtr (s : State) (n : Nat) (x : CslRt) : (s.setCport n x).freeCtr = s.freeCtr := rfl
@[simp] theorem State.setCport_od (s : State) (n : Nat) (x : CslRt) : (s.setCport n x).od = s.od := rfl
@[simp] theorem State.setCport_images (s : State) (n : Nat) (x : CslRt) : (s.setCport n x).images = s.images := rfl
@[simp] theorem State.setCport_out (s : State) (n : Nat) (x : CslRt) : (s.setCport n x).out = s.out := rfl
@[simp] theorem State.setCport_trans (s : State) (n : Nat) (x : CslRt) : (s.setCport n x).trans = s.trans := rfl
@[simp] theorem State.setCport_safeWanted (s : State) (n : Nat) (x : CslRt) : (s.setCport n x).safeWanted = s.safeWanted := rfl
@[simp] theorem State.setCport_cores (s : State) (n : Nat) (x : CslRt) : (s.setCport n x).cores = s.cores := rfl
@[simp] theorem State.setCport_ready (s : State) (n : Nat) (x : CslRt) : (s.setCport n x).ready = s.ready := rfl
@[simp] theorem State.setCport_flowFree (s : State) (n : Nat) (x : CslRt) : (s.setCport n x).flowFree = s.flowFree := rfl
@[simp] theorem State.setCport_homes (s : State) (n : Nat) (x : CslRt) : (s.setCport n x).homes = s.homes := rfl
@[simp] theorem State.setCport_wdpFullAt (s : State) (n : Nat) (x : CslRt) : (s.setCport n x).wdpFullAt = s.wdpFullAt := rfl
@[simp] theorem State.setCport_wdpTrace (s : State) (n : Nat) (x : CslRt) : (s.setCport n x).wdpTrace = s.wdpTrace := rfl
@[simp] theorem State.setCport_wdpLost (s : State) (n : Nat) (x : CslRt) : (s.setCport n x).wdpLost = s.wdpLost := rfl
@[simp] theorem State.setCport_srcs (s : State) (n : Nat) (x : CslRt) : (s.setCport n x).srcs = s.srcs := rfl
@[simp] theorem State.setCport_groups (s : State) (n : Nat) (x : CslRt) : (s.setCport n x).groups = s.groups := rfl
@[simp] theorem State.setCport_fcr (s : State) (n : Nat) (x : CslRt) : (s.setCport n x).fcr = s.fcr := rfl
@[simp] theorem State.setCport_clk (s : State) (n : Nat) (x : CslRt) : (s.setCport n x).clk = s.clk := rfl
@[simp] theorem State.setCport_poa (s : State) (n : Nat) (x : CslRt) : (s.setCport n x).poa = s.poa := rfl
@[simp] theorem State.setCport_hlk (s : State) (n : Nat) (x : CslRt) : (s.setCport n x).hlk = s.hlk := rfl
@[simp] theorem State.setCport_loops (s : State) (n : Nat) (x : CslRt) : (s.setCport n x).loops = s.loops := rfl
@[simp] theorem State.setCport_adc (s : State) (n : Nat) (x : CslRt) : (s.setCport n x).adc = s.adc := rfl
@[simp] theorem State.setCport_psm (s : State) (n : Nat) (x : CslRt) : (s.setCport n x).psm = s.psm := rfl
@[simp] theorem State.setCport_ode (s : State) (n : Nat) (x : CslRt) : (s.setCport n x).ode = s.ode := rfl
@[simp] theorem State.setCport_waiters (s : State) (n : Nat) (x : CslRt) : (s.setCport n x).waiters = s.waiters := rfl
@[simp] theorem State.setCport_results (s : State) (n : Nat) (x : CslRt) : (s.setCport n x).results = s.results := rfl
@[simp] theorem State.setCport_jobs (s : State) (n : Nat) (x : CslRt) : (s.setCport n x).jobs = s.jobs := rfl
@[simp] theorem State.setCport_chartLen (s : State) (n : Nat) (x : CslRt) : (s.setCport n x).chartLen = s.chartLen := rfl
@[simp] theorem State.setCport_mem (s : State) (n : Nat) (x : CslRt) : (s.setCport n x).mem = s.mem := rfl
@[simp] theorem State.setCport_hms (s : State) (n : Nat) (x : CslRt) : (s.setCport n x).hms = s.hms := rfl
@[simp] theorem State.setCport_staged (s : State) (n : Nat) (x : CslRt) : (s.setCport n x).staged = s.staged := rfl
@[simp] theorem State.setCport_ndls (s : State) (n : Nat) (x : CslRt) : (s.setCport n x).ndls = s.ndls := rfl
@[simp] theorem State.setCport_evts (s : State) (n : Nat) (x : CslRt) : (s.setCport n x).evts = s.evts := rfl
@[simp] theorem State.setCport_ucode (s : State) (n : Nat) (x : CslRt) : (s.setCport n x).ucode = s.ucode := rfl
@[simp] theorem State.setCport_ubase (s : State) (n : Nat) (x : CslRt) : (s.setCport n x).ubase = s.ubase := rfl
@[simp] theorem State.setCport_traps (s : State) (n : Nat) (x : CslRt) : (s.setCport n x).traps = s.traps := rfl
@[simp] theorem State.setCport_sites (s : State) (n : Nat) (x : CslRt) : (s.setCport n x).sites = s.sites := rfl
@[simp] theorem State.setCport_queues (s : State) (n : Nat) (x : CslRt) : (s.setCport n x).queues = s.queues := rfl
@[simp] theorem State.setCport_pins (s : State) (n : Nat) (x : CslRt) : (s.setCport n x).pins = s.pins := rfl
@[simp] theorem State.setCport_levelBus (s : State) (n : Nat) (x : CslRt) : (s.setCport n x).levelBus = s.levelBus := rfl
@[simp] theorem State.setCport_levelFree (s : State) (n : Nat) (x : CslRt) : (s.setCport n x).levelFree = s.levelFree := rfl
@[simp] theorem State.setCport_ras (s : State) (n : Nat) (x : CslRt) : (s.setCport n x).ras = s.ras := rfl
@[simp] theorem State.setCport_tae (s : State) (n : Nat) (x : CslRt) : (s.setCport n x).tae = s.tae := rfl
@[simp] theorem State.setCport_cal (s : State) (n : Nat) (x : CslRt) : (s.setCport n x).cal = s.cal := rfl
@[simp] theorem State.setCport_tdc (s : State) (n : Nat) (x : CslRt) : (s.setCport n x).tdc = s.tdc := rfl
@[simp] theorem State.setCport_plc (s : State) (n : Nat) (x : CslRt) : (s.setCport n x).plc = s.plc := rfl
@[simp] theorem State.setCport_bot (s : State) (n : Nat) (x : CslRt) : (s.setCport n x).bot = s.bot := rfl
@[simp] theorem State.setCport_rd (s : State) (n : Nat) (x : CslRt) (o' e' : Nat) : (s.setCport n x).rd o' e' = s.rd o' e' := rfl
@[simp] theorem State.setCport_self (s : State) (n : Nat) (x : CslRt) : (s.setCport n x).cport n = x := Tbl.get_put_self ..
theorem State.setCport_ne (s : State) (n : Nat) (x : CslRt) (m : Nat) (h : m ≠ n) : (s.setCport n x).cport m = s.cport m := Tbl.get_put_ne _ _ _ h

/-! setTdc -/
@[simp] theorem State.setTdc_pending (s : State) (n : Nat) (x : TdcRt) : (s.setTdc n x).pending = s.pending := rfl
@[simp] theorem State.setTdc_now (s : State) (n : Nat) (x : TdcRt) : (s.setTdc n x).now = s.now := rfl
@[simp] theorem State.setTdc_freeCtr (s : State) (n : Nat) (x : TdcRt) : (s.setTdc n x).freeCtr = s.freeCtr := rfl
@[simp] theorem State.setTdc_od (s : State) (n : Nat) (x : TdcRt) : (s.setTdc n x).od = s.od := rfl
@[simp] theorem State.setTdc_images (s : State) (n : Nat) (x : TdcRt) : (s.setTdc n x).images = s.images := rfl
@[simp] theorem State.setTdc_out (s : State) (n : Nat) (x : TdcRt) : (s.setTdc n x).out = s.out := rfl
@[simp] theorem State.setTdc_trans (s : State) (n : Nat) (x : TdcRt) : (s.setTdc n x).trans = s.trans := rfl
@[simp] theorem State.setTdc_safeWanted (s : State) (n : Nat) (x : TdcRt) : (s.setTdc n x).safeWanted = s.safeWanted := rfl
@[simp] theorem State.setTdc_cores (s : State) (n : Nat) (x : TdcRt) : (s.setTdc n x).cores = s.cores := rfl
@[simp] theorem State.setTdc_ready (s : State) (n : Nat) (x : TdcRt) : (s.setTdc n x).ready = s.ready := rfl
@[simp] theorem State.setTdc_flowFree (s : State) (n : Nat) (x : TdcRt) : (s.setTdc n x).flowFree = s.flowFree := rfl
@[simp] theorem State.setTdc_homes (s : State) (n : Nat) (x : TdcRt) : (s.setTdc n x).homes = s.homes := rfl
@[simp] theorem State.setTdc_wdpFullAt (s : State) (n : Nat) (x : TdcRt) : (s.setTdc n x).wdpFullAt = s.wdpFullAt := rfl
@[simp] theorem State.setTdc_wdpTrace (s : State) (n : Nat) (x : TdcRt) : (s.setTdc n x).wdpTrace = s.wdpTrace := rfl
@[simp] theorem State.setTdc_wdpLost (s : State) (n : Nat) (x : TdcRt) : (s.setTdc n x).wdpLost = s.wdpLost := rfl
@[simp] theorem State.setTdc_srcs (s : State) (n : Nat) (x : TdcRt) : (s.setTdc n x).srcs = s.srcs := rfl
@[simp] theorem State.setTdc_groups (s : State) (n : Nat) (x : TdcRt) : (s.setTdc n x).groups = s.groups := rfl
@[simp] theorem State.setTdc_fcr (s : State) (n : Nat) (x : TdcRt) : (s.setTdc n x).fcr = s.fcr := rfl
@[simp] theorem State.setTdc_clk (s : State) (n : Nat) (x : TdcRt) : (s.setTdc n x).clk = s.clk := rfl
@[simp] theorem State.setTdc_poa (s : State) (n : Nat) (x : TdcRt) : (s.setTdc n x).poa = s.poa := rfl
@[simp] theorem State.setTdc_hlk (s : State) (n : Nat) (x : TdcRt) : (s.setTdc n x).hlk = s.hlk := rfl
@[simp] theorem State.setTdc_loops (s : State) (n : Nat) (x : TdcRt) : (s.setTdc n x).loops = s.loops := rfl
@[simp] theorem State.setTdc_adc (s : State) (n : Nat) (x : TdcRt) : (s.setTdc n x).adc = s.adc := rfl
@[simp] theorem State.setTdc_psm (s : State) (n : Nat) (x : TdcRt) : (s.setTdc n x).psm = s.psm := rfl
@[simp] theorem State.setTdc_ode (s : State) (n : Nat) (x : TdcRt) : (s.setTdc n x).ode = s.ode := rfl
@[simp] theorem State.setTdc_waiters (s : State) (n : Nat) (x : TdcRt) : (s.setTdc n x).waiters = s.waiters := rfl
@[simp] theorem State.setTdc_results (s : State) (n : Nat) (x : TdcRt) : (s.setTdc n x).results = s.results := rfl
@[simp] theorem State.setTdc_jobs (s : State) (n : Nat) (x : TdcRt) : (s.setTdc n x).jobs = s.jobs := rfl
@[simp] theorem State.setTdc_chartLen (s : State) (n : Nat) (x : TdcRt) : (s.setTdc n x).chartLen = s.chartLen := rfl
@[simp] theorem State.setTdc_mem (s : State) (n : Nat) (x : TdcRt) : (s.setTdc n x).mem = s.mem := rfl
@[simp] theorem State.setTdc_hms (s : State) (n : Nat) (x : TdcRt) : (s.setTdc n x).hms = s.hms := rfl
@[simp] theorem State.setTdc_staged (s : State) (n : Nat) (x : TdcRt) : (s.setTdc n x).staged = s.staged := rfl
@[simp] theorem State.setTdc_ndls (s : State) (n : Nat) (x : TdcRt) : (s.setTdc n x).ndls = s.ndls := rfl
@[simp] theorem State.setTdc_evts (s : State) (n : Nat) (x : TdcRt) : (s.setTdc n x).evts = s.evts := rfl
@[simp] theorem State.setTdc_ucode (s : State) (n : Nat) (x : TdcRt) : (s.setTdc n x).ucode = s.ucode := rfl
@[simp] theorem State.setTdc_ubase (s : State) (n : Nat) (x : TdcRt) : (s.setTdc n x).ubase = s.ubase := rfl
@[simp] theorem State.setTdc_traps (s : State) (n : Nat) (x : TdcRt) : (s.setTdc n x).traps = s.traps := rfl
@[simp] theorem State.setTdc_sites (s : State) (n : Nat) (x : TdcRt) : (s.setTdc n x).sites = s.sites := rfl
@[simp] theorem State.setTdc_queues (s : State) (n : Nat) (x : TdcRt) : (s.setTdc n x).queues = s.queues := rfl
@[simp] theorem State.setTdc_pins (s : State) (n : Nat) (x : TdcRt) : (s.setTdc n x).pins = s.pins := rfl
@[simp] theorem State.setTdc_levelBus (s : State) (n : Nat) (x : TdcRt) : (s.setTdc n x).levelBus = s.levelBus := rfl
@[simp] theorem State.setTdc_levelFree (s : State) (n : Nat) (x : TdcRt) : (s.setTdc n x).levelFree = s.levelFree := rfl
@[simp] theorem State.setTdc_ras (s : State) (n : Nat) (x : TdcRt) : (s.setTdc n x).ras = s.ras := rfl
@[simp] theorem State.setTdc_tae (s : State) (n : Nat) (x : TdcRt) : (s.setTdc n x).tae = s.tae := rfl
@[simp] theorem State.setTdc_csl (s : State) (n : Nat) (x : TdcRt) : (s.setTdc n x).csl = s.csl := rfl
@[simp] theorem State.setTdc_cal (s : State) (n : Nat) (x : TdcRt) : (s.setTdc n x).cal = s.cal := rfl
@[simp] theorem State.setTdc_plc (s : State) (n : Nat) (x : TdcRt) : (s.setTdc n x).plc = s.plc := rfl
@[simp] theorem State.setTdc_bot (s : State) (n : Nat) (x : TdcRt) : (s.setTdc n x).bot = s.bot := rfl
@[simp] theorem State.setTdc_rd (s : State) (n : Nat) (x : TdcRt) (o' e' : Nat) : (s.setTdc n x).rd o' e' = s.rd o' e' := rfl
@[simp] theorem State.setTdc_self (s : State) (n : Nat) (x : TdcRt) : (s.setTdc n x).tdcOf n = x := Tbl.get_put_self ..
theorem State.setTdc_ne (s : State) (n : Nat) (x : TdcRt) (m : Nat) (h : m ≠ n) : (s.setTdc n x).tdcOf m = s.tdcOf m := Tbl.get_put_ne _ _ _ h

/-! setLoop -/
@[simp] theorem State.setLoop_pending (s : State) (n : Nat) (x : LoopRt) : (s.setLoop n x).pending = s.pending := rfl
@[simp] theorem State.setLoop_now (s : State) (n : Nat) (x : LoopRt) : (s.setLoop n x).now = s.now := rfl
@[simp] theorem State.setLoop_freeCtr (s : State) (n : Nat) (x : LoopRt) : (s.setLoop n x).freeCtr = s.freeCtr := rfl
@[simp] theorem State.setLoop_od (s : State) (n : Nat) (x : LoopRt) : (s.setLoop n x).od = s.od := rfl
@[simp] theorem State.setLoop_images (s : State) (n : Nat) (x : LoopRt) : (s.setLoop n x).images = s.images := rfl
@[simp] theorem State.setLoop_out (s : State) (n : Nat) (x : LoopRt) : (s.setLoop n x).out = s.out := rfl
@[simp] theorem State.setLoop_trans (s : State) (n : Nat) (x : LoopRt) : (s.setLoop n x).trans = s.trans := rfl
@[simp] theorem State.setLoop_safeWanted (s : State) (n : Nat) (x : LoopRt) : (s.setLoop n x).safeWanted = s.safeWanted := rfl
@[simp] theorem State.setLoop_cores (s : State) (n : Nat) (x : LoopRt) : (s.setLoop n x).cores = s.cores := rfl
@[simp] theorem State.setLoop_ready (s : State) (n : Nat) (x : LoopRt) : (s.setLoop n x).ready = s.ready := rfl
@[simp] theorem State.setLoop_flowFree (s : State) (n : Nat) (x : LoopRt) : (s.setLoop n x).flowFree = s.flowFree := rfl
@[simp] theorem State.setLoop_homes (s : State) (n : Nat) (x : LoopRt) : (s.setLoop n x).homes = s.homes := rfl
@[simp] theorem State.setLoop_wdpFullAt (s : State) (n : Nat) (x : LoopRt) : (s.setLoop n x).wdpFullAt = s.wdpFullAt := rfl
@[simp] theorem State.setLoop_wdpTrace (s : State) (n : Nat) (x : LoopRt) : (s.setLoop n x).wdpTrace = s.wdpTrace := rfl
@[simp] theorem State.setLoop_wdpLost (s : State) (n : Nat) (x : LoopRt) : (s.setLoop n x).wdpLost = s.wdpLost := rfl
@[simp] theorem State.setLoop_srcs (s : State) (n : Nat) (x : LoopRt) : (s.setLoop n x).srcs = s.srcs := rfl
@[simp] theorem State.setLoop_groups (s : State) (n : Nat) (x : LoopRt) : (s.setLoop n x).groups = s.groups := rfl
@[simp] theorem State.setLoop_fcr (s : State) (n : Nat) (x : LoopRt) : (s.setLoop n x).fcr = s.fcr := rfl
@[simp] theorem State.setLoop_clk (s : State) (n : Nat) (x : LoopRt) : (s.setLoop n x).clk = s.clk := rfl
@[simp] theorem State.setLoop_poa (s : State) (n : Nat) (x : LoopRt) : (s.setLoop n x).poa = s.poa := rfl
@[simp] theorem State.setLoop_hlk (s : State) (n : Nat) (x : LoopRt) : (s.setLoop n x).hlk = s.hlk := rfl
@[simp] theorem State.setLoop_adc (s : State) (n : Nat) (x : LoopRt) : (s.setLoop n x).adc = s.adc := rfl
@[simp] theorem State.setLoop_psm (s : State) (n : Nat) (x : LoopRt) : (s.setLoop n x).psm = s.psm := rfl
@[simp] theorem State.setLoop_ode (s : State) (n : Nat) (x : LoopRt) : (s.setLoop n x).ode = s.ode := rfl
@[simp] theorem State.setLoop_waiters (s : State) (n : Nat) (x : LoopRt) : (s.setLoop n x).waiters = s.waiters := rfl
@[simp] theorem State.setLoop_results (s : State) (n : Nat) (x : LoopRt) : (s.setLoop n x).results = s.results := rfl
@[simp] theorem State.setLoop_jobs (s : State) (n : Nat) (x : LoopRt) : (s.setLoop n x).jobs = s.jobs := rfl
@[simp] theorem State.setLoop_chartLen (s : State) (n : Nat) (x : LoopRt) : (s.setLoop n x).chartLen = s.chartLen := rfl
@[simp] theorem State.setLoop_mem (s : State) (n : Nat) (x : LoopRt) : (s.setLoop n x).mem = s.mem := rfl
@[simp] theorem State.setLoop_hms (s : State) (n : Nat) (x : LoopRt) : (s.setLoop n x).hms = s.hms := rfl
@[simp] theorem State.setLoop_staged (s : State) (n : Nat) (x : LoopRt) : (s.setLoop n x).staged = s.staged := rfl
@[simp] theorem State.setLoop_ndls (s : State) (n : Nat) (x : LoopRt) : (s.setLoop n x).ndls = s.ndls := rfl
@[simp] theorem State.setLoop_evts (s : State) (n : Nat) (x : LoopRt) : (s.setLoop n x).evts = s.evts := rfl
@[simp] theorem State.setLoop_ucode (s : State) (n : Nat) (x : LoopRt) : (s.setLoop n x).ucode = s.ucode := rfl
@[simp] theorem State.setLoop_ubase (s : State) (n : Nat) (x : LoopRt) : (s.setLoop n x).ubase = s.ubase := rfl
@[simp] theorem State.setLoop_traps (s : State) (n : Nat) (x : LoopRt) : (s.setLoop n x).traps = s.traps := rfl
@[simp] theorem State.setLoop_sites (s : State) (n : Nat) (x : LoopRt) : (s.setLoop n x).sites = s.sites := rfl
@[simp] theorem State.setLoop_queues (s : State) (n : Nat) (x : LoopRt) : (s.setLoop n x).queues = s.queues := rfl
@[simp] theorem State.setLoop_pins (s : State) (n : Nat) (x : LoopRt) : (s.setLoop n x).pins = s.pins := rfl
@[simp] theorem State.setLoop_levelBus (s : State) (n : Nat) (x : LoopRt) : (s.setLoop n x).levelBus = s.levelBus := rfl
@[simp] theorem State.setLoop_levelFree (s : State) (n : Nat) (x : LoopRt) : (s.setLoop n x).levelFree = s.levelFree := rfl
@[simp] theorem State.setLoop_ras (s : State) (n : Nat) (x : LoopRt) : (s.setLoop n x).ras = s.ras := rfl
@[simp] theorem State.setLoop_tae (s : State) (n : Nat) (x : LoopRt) : (s.setLoop n x).tae = s.tae := rfl
@[simp] theorem State.setLoop_csl (s : State) (n : Nat) (x : LoopRt) : (s.setLoop n x).csl = s.csl := rfl
@[simp] theorem State.setLoop_cal (s : State) (n : Nat) (x : LoopRt) : (s.setLoop n x).cal = s.cal := rfl
@[simp] theorem State.setLoop_tdc (s : State) (n : Nat) (x : LoopRt) : (s.setLoop n x).tdc = s.tdc := rfl
@[simp] theorem State.setLoop_plc (s : State) (n : Nat) (x : LoopRt) : (s.setLoop n x).plc = s.plc := rfl
@[simp] theorem State.setLoop_bot (s : State) (n : Nat) (x : LoopRt) : (s.setLoop n x).bot = s.bot := rfl
@[simp] theorem State.setLoop_rd (s : State) (n : Nat) (x : LoopRt) (o' e' : Nat) : (s.setLoop n x).rd o' e' = s.rd o' e' := rfl
@[simp] theorem State.setLoop_self (s : State) (n : Nat) (x : LoopRt) : (s.setLoop n x).loop n = x := Tbl.get_put_self ..
theorem State.setLoop_ne (s : State) (n : Nat) (x : LoopRt) (m : Nat) (h : m ≠ n) : (s.setLoop n x).loop m = s.loop m := Tbl.get_put_ne _ _ _ h

end Sys2Proof.Machine
end

