-- ==== Sys2Proof/WellFormed.lean ====
section
/-! DEFINITION. Which commands are well-formed: every operand fits the field that carries it and names something that the engine has (R45 to R50, R689 and the owning chapters). -/
namespace Sys2Proof

/-- A number below a bound. -/
def below (v n : Nat) : Bool := decide (v < n)

/-- R691: a session number. -/
def sess (n : Nat) : Bool := decide (1 ≤ n ∧ n ≤ 16)

/-- A signed number of w bits. -/
def fits (w : Nat) (v : Int) : Bool := decide (-(2 ^ (w - 1)) ≤ v ∧ v < 2 ^ (w - 1))

/-- A command whose operands are all in range. -/
def Instr.wf : Instr → Bool
  | .powerOn => true
  | .extReset => true
  | .coldEntry => true
  | .bootStageEnd _ b => b.all (fun o => below o (2 ^ 16))
  | .refclkRetry _ => true
  | .hbmTrainingDone stack _ id _ => below stack 2 && below id (2 ^ 32)
  | .poaFrame port sub addr udp pcp frame => below port 2 && below sub 4 && below addr (2 ^ 128) && below udp 65536 && below pcp 8 && decide (frame.length ≤ 9216)
  | .holdTimeout session => sess session
  | .multicastFrame port sub group frame => below port 2 && below sub 4 && below group (2 ^ 128) && decide (frame.length ≤ 9216)
  | .read session ix el => sess session && below ix 65536 && below el 65536
  | .write session ix el value => sess session && below ix 65536 && below el 65536 && decide (value.length < 65536)
  | .domainBegin session ix el dir total => sess session && below ix 65536 && below el 65536 && below dir 256 && below total (2 ^ 64)
  | .domainData session xfer dlen offset data => sess session && below xfer 65536 && below dlen 65536 && below offset (2 ^ 64) && decide (data.length < 65536)
  | .domainAbort session xfer => sess session && below xfer 65536
  | .transferTimeout xfer => below xfer 65536
  | .streamData session needle skein offset data => sess session && below needle 65536 && below skein (2 ^ 32) && below offset (2 ^ 64) && decide (data.length < 65536)
  | .skeinTimeout needle => below needle 16
  | .subscribe session skind ix el interval window => sess session && below skind 256 && below ix 65536 && below el 65536 && below interval (2 ^ 64) && below window (2 ^ 32)
  | .unsubscribe session sub => sess session && below sub 65536
  | .ack session sub dseq => sess session && below sub 65536 && below dseq (2 ^ 32)
  | .heartbeat session => sess session
  | .openCmd port sub addr udp level maxFrame timeout nonce => below port 2 && below sub 4 && below addr (2 ^ 128) && below udp 65536 && below level 256 && below maxFrame 65536 && below timeout (2 ^ 32) && nonce.length == 16
  | .auth session proof => sess session && proof.length == 32
  | .authTimeout session => sess session
  | .close session => sess session
  | .poaSessionExpired session => sess session
  | .sessionClose session target => sess session && below target 256
  | .cyclicReport sub => below sub 65536
  | .eventReport sub source => below sub 65536 && below source 512
  | .datalogReport sub => below sub 65536
  | .datalogRetransmit sub => below sub 65536
  | .requestBoot session => sess session
  | .requestSafe session => sess session
  | .requestIdle session => sess session
  | .requestDoze session => sess session
  | .requestArmed session => sess session
  | .requestRun session => sess session
  | .requestHold session => sess session
  | .requestMeasure session => sess session
  | .requestCalibrate session => sess session
  | .modeTransitionComplete => true
  | .admissionEnd => true
  | .placementCopiesDone => true
  | .migrationCopyDone handle seg => below handle 1024 && below seg (2 ^ 20)
  | .safeEntry => true
  | .safeStageEnd => true
  | .safeStageTimeout => true
  | .linewarn _ => true
  | .ridethruPlanEntry => true
  | .lineCommit => true
  | .lineRecovered => true
  | .junctionReading readings => readings.length == 16
  | .save session => sess session
  | .restore session => sess session
  | .storeComplete => true
  | .chartValidation handle => below handle 1024
  | .chartDelete session el => sess session && below el 65536
  | .waveValidation el => below el 65536
  | .waveDelete session el => sess session && below el 65536
  | .start session el => sess session && below el 65536
  | .startQualify needle => below needle 16
  | .timedStart => true
  | .startAt session needles atNs => sess session && below needles 65536 && below atNs (2 ^ 64)
  | .cancelStart session => sess session
  | .blockDecode needle => below needle 16
  | .stitchIssue needle => below needle 16
  | .rasSyncEdge stream _ _ => below stream 2
  | .frog session el => sess session && below el 65536
  | .frogCommit needle => below needle 16
  | .pinPark needle => below needle 16
  | .seamEnd needle => below needle 16
  | .needleFreeze needle => below needle 16
  | .resume => true
  | .hostEvent session el value => sess session && below el 65536 && below value 256
  | .hostEventLatch needle => below needle 16
  | .jump session el value => sess session && below el 65536 && below value 256
  | .jumpApply needle => below needle 16
  | .triginEdge input _ _ => below input 4
  | .strobeResult needle _ => below needle 16
  | .failFlag needle => below needle 16
  | .failLoggerDrain needle => below needle 16
  | .resultsFinal needle => below needle 16
  | .queuePost queue => below queue 88
  | .poolRelease queue _ => below queue 88
  | .rqpFlush session el => sess session && below el 65536
  | .strFlush session el => sess session && below el 65536
  | .skeinValidated needle => below needle 16
  | .stallExpiry needle => below needle 16
  | .levelFrameStart bank => below bank 8
  | .levelFrameEnd bank miso => below bank 8 && below miso 65536
  | .lvlHostWrite session pin reg value _ => sess session && below pin 256 && below reg 256 && below value 65536
  | .lvlHostRead session pin reg => sess session && below pin 256 && below reg 256
  | .supplyApply => true
  | .gaugeWrite session el value => sess session && below el 65536 && decide (value.length < 65536)
  | .measDrive session el value => sess session && below el 65536 && below value 256
  | .measDriveApply => true
  | .taeArm session el => sess session && below el 65536
  | .taeDisarm session el => sess session && below el 65536
  | .rearmEnd unit => below unit 8
  | .triggerStamp unit => below unit 8
  | .force session el => sess session && below el 65536
  | .taeTimeout unit => below unit 8
  | .recordComplete unit changes => below unit 8 && changes.all (fun c => below c.pin 256)
  | .calSample bank _ => below bank 8
  | .swatchTimeout bank => below bank 8
  | .calAged needle => below needle 16
  | .fullCalPhase _ => true
  | .tmuStart session el => sess session && below el 65536
  | .tmuStop session el => sess session && below el 65536
  | .tdcStamp tdc source _ _ => below tdc 40 && below source 512
  | .gateClose tdc _ => below tdc 40
  | .tmuTimeout tdc => below tdc 40
  | .memoryRequest channel master _ addr data errorBits => below channel 64 && below master 256 && below addr (2 ^ 36) && below errorBits 3 &&
    decide (addr % 64 + data.length ≤ 64)
  | .refreshInterval pc _ => below pc 64
  | .forcedRefresh pc => below pc 64
  | .neighbourRefresh pc bank => below pc 64 && below bank 48
  | .selfRefreshEntry stack => below stack 2
  | .scrub addr errorBits => below addr (2 ^ 36) && below errorBits 3
  | .commit session el => sess session && below el 65536
  | .bufferRelease session el => sess session && below el 65536
  | .domainReq session value => sess session && below value (2 ^ 32)
  | .domainSwitchDone pd _ => (1 ≤ pd && below pd 21)
  | .pmbusPoll readings => readings.length == 10
  | .pmbAlert _ => true
  | .conversion conv code _ => below conv 8 && fits 32 code
  | .loopEnable session el => sess session && below el 65536
  | .loopDisable session el => sess session && below el 65536
  | .owTest session el => sess session && below el 65536
  | .owTestDone input _ _ => below input 128
  | .syscalZero session el => sess session && below el 65536
  | .syscalFull session el fs => sess session && below el 65536 && fits 32 fs
  | .syscalDone input _ _ => below input 128
  | .refclkLoss => true
  | .refclkRelock => true
  | .clkPllUnlock => true
  | .syncEdge _ => true
  | .syncArm session => sess session
  | .syncDisarm session => sess session
  | .ptpEventMessage port _ seqId msgType => below port 2 && below seqId 65536 && below msgType 16
  | .ptpOffset _ _ port master => below port 2 && below master (2 ^ 80)
  | .ptpSyncTimeout => true
  | .ntSet session value => sess session && decide (value.length < 65536)
  | .ntAdj session value => sess session && fits 64 value
  | .txqOvfClear session el => sess session && below el 65536
  | .eventSend port => below port 4
  | .eventReceive port lanes _ => below port 4 && lanes.length == 4
  | .eventDelivery port => below port 4
  | .latencyMarker port _ => below port 4
  | .cascadeFrame port frame _ => below port 4 && decide (frame.length ≤ 9216)
  | .cslLinkDown port lane => below port 4 && below lane 4
  | .alignAuto session el => sess session && below el 65536
  | .alignManual session el => sess session && below el 65536
  | .alignDone session el => sess session && below el 65536
  | .alignmentComplete port lanes => below port 4 && lanes.length == 4
  | .laneTest session el => sess session && below el 65536
  | .laneTestDone el errors _ _ => below el 65536 && below errors (2 ^ 48)
  | .frameReceive port sub etherType vid pcp _ _ cls => below port 2 && below sub 4 && below etherType 65536 && below vid 4097 && below pcp 8 && below cls 256
  | .arpRequest port sub _ _ _ => below port 2 && below sub 4
  | .echoRequest port sub _ _ _ _ => below port 2 && below sub 4
  | .neighbourSolicitation port sub _ target _ => below port 2 && below sub 4 && below target (2 ^ 128)
  | .membershipQuery port sub _ group => below port 2 && below sub 4 && below group (2 ^ 128)
  | .pfcReceive port sub classes _ => below port 2 && below sub 4 && below classes 256
  | .pfcRepeat port => below port 2
  | .moduleInsert port id => below port 2 && below id (2 ^ 32)
  | .hlkLinkUp port sub => below port 2 && below sub 4
  | .hlkLinkDown port sub => below port 2 && below sub 4
  | .portCfg session el value => sess session && below el 65536 && decide (value.length < 65536)
  | .enqueue flow prio producer => below flow 4097 && below prio 8 && below producer 16
  | .dispatch => true
  | .complete core => below core 16
  | .yieldCmd core => below core 16
  | .cccHang core => below core 16
  | .cccEccU core => below core 16
  | .statsClear session => sess session
  | .sourceLatch source _ => below source 512
  | .holdoffExpiry group => below group 32
  | .coreWait core _ => below core 16
  | .handlerEntry core => below core 16
  | .claim core source _ => below core 16 && below source 512
  | .faultRaise source inst master access addr => below source 512 && below inst 65536 && below master 256 && below access 65536 && below addr (2 ^ 64)
  | .faultReaction => true
  | .fcrParity => true
  | .faultClear session source => sess session && below source 65536
  | .faultClearAll session => sess session
  | .fcrRecovered source => below source 512
  | .firstClear session => sess session
  | .inject session source bits master count => sess session && below source 65536 && below bits 4 && below master 256 && below count 65536
  | .injectCancel session => sess session
  | .dumpEntry => true
  | .dmpReady _ => true
  | .dmpClear session => sess session
  | .summaryClear session => sess session
  | .imageValidation _ slot => below slot 2
  | .slotSelect session slot => sess session && below slot 256
  | .rollbackCommit session => sess session
  | .keyRevoke session key => sess session && below key 256
  | .keyWrite session el value => sess session && below el 65536 && decide (value.length < 65536)
  | .pauseQuantaExpiry port sub pcp => below port 2 && below sub 4 && below pcp 8
  | .moduleRemoval port => below port 2
  | .cslFrameSent port => below port 4
  | .arpEntryExpiry port sub ip => below port 2 && below sub 4 && below ip (2 ^ 128)
  | .dispatcherTimeAnchor => true
  | .softstartEnd loop => below loop 32

end Sys2Proof
end

