-- ==== Sys2Proof/Tests/Slice0.lean ====
section
/-! SUPPORT. Tests of the model: ill-formed commands refused, single commands and operations against the worked examples of the spec, and witnesses that the
hypotheses of the statements can be met. -/
namespace Sys2Proof
set_option Elab.async false
set_option maxRecDepth 65536

/-- Commands with one operand out of range, group 1 of 13: none is well-formed. -/
theorem test_wf_refuses_1 : ([
    .hbmTrainingDone 2 false 1 1, .hbmTrainingDone 1 false (2 ^ 32) 1, .poaFrame 2 1 1 1 1 [], .poaFrame 1 4 1 1 1 [], .poaFrame 1 1 (2 ^ 128) 1 1 [],
    .poaFrame 1 1 1 65536 1 [], .poaFrame 1 1 1 1 8 [], .holdTimeout 17, .multicastFrame 2 1 1 [], .multicastFrame 1 4 1 [],
    .multicastFrame 1 1 (2 ^ 128) [], .read 17 1 1, .read 1 65536 1, .read 1 1 65536, .write 17 1 1 [], .write 1 65536 1 [], .write 1 1 65536 [],
    .domainBegin 17 1 1 1 1, .domainBegin 1 65536 1 1 1, .domainBegin 1 1 65536 1 1, .domainBegin 1 1 1 256 1, .domainBegin 1 1 1 1 (2 ^ 64),
    .domainData 17 1 1 1 [], .domainData 1 65536 1 1 []] : List Instr).all (fun i => !i.wf) = true := by decide +kernel

/-- Commands with one operand out of range, group 2 of 13: none is well-formed. -/
theorem test_wf_refuses_2 : ([
    .domainData 1 1 65536 1 [], .domainData 1 1 1 (2 ^ 64) [], .domainAbort 17 1, .domainAbort 1 65536, .transferTimeout 65536, .streamData 17 1 1 1 [],
    .streamData 1 65536 1 1 [], .streamData 1 1 (2 ^ 32) 1 [], .streamData 1 1 1 (2 ^ 64) [], .skeinTimeout 16, .subscribe 17 1 1 1 1 1,
    .subscribe 1 256 1 1 1 1, .subscribe 1 1 65536 1 1 1, .subscribe 1 1 1 65536 1 1, .subscribe 1 1 1 1 (2 ^ 64) 1, .subscribe 1 1 1 1 1 (2 ^ 32),
    .unsubscribe 17 1, .unsubscribe 1 65536, .ack 17 1 1, .ack 1 65536 1, .ack 1 1 (2 ^ 32), .heartbeat 17,
    .openCmd 2 1 1 1 1 1 1 (List.replicate 16 0), .openCmd 1 4 1 1 1 1 1 (List.replicate 16 0)] : List Instr).all (fun i => !i.wf) = true := by decide +kernel

/-- Commands with one operand out of range, group 3 of 13: none is well-formed. -/
theorem test_wf_refuses_3 : ([
    .openCmd 1 1 (2 ^ 128) 1 1 1 1 (List.replicate 16 0), .openCmd 1 1 1 65536 1 1 1 (List.replicate 16 0),
    .openCmd 1 1 1 1 256 1 1 (List.replicate 16 0), .openCmd 1 1 1 1 1 65536 1 (List.replicate 16 0),
    .openCmd 1 1 1 1 1 1 (2 ^ 32) (List.replicate 16 0), .openCmd 1 1 1 1 1 1 1 [], .auth 17 (List.replicate 32 0), .auth 1 [], .authTimeout 17,
    .close 17, .poaSessionExpired 17, .sessionClose 17 1, .sessionClose 1 256, .cyclicReport 65536, .eventReport 65536 1, .eventReport 1 512,
    .datalogReport 65536, .datalogRetransmit 65536, .requestBoot 17, .requestSafe 17, .requestIdle 17, .requestDoze 17, .requestArmed 17,
    .requestRun 17] : List Instr).all (fun i => !i.wf) = true := by decide +kernel

/-- Commands with one operand out of range, group 4 of 13: none is well-formed. -/
theorem test_wf_refuses_4 : ([
    .requestHold 17, .requestMeasure 17, .requestCalibrate 17, .migrationCopyDone 1024 1, .migrationCopyDone 1 (2 ^ 20), .junctionReading [], .save 17,
    .restore 17, .chartValidation 1024, .chartDelete 17 1, .chartDelete 1 65536, .waveValidation 65536, .waveDelete 17 1,
    .waveDelete 1 65536, .start 17 1, .start 1 65536, .startQualify 16, .startAt 17 1 1, .startAt 1 65536 1, .startAt 1 1 (2 ^ 64), .cancelStart 17,
    .blockDecode 16, .stitchIssue 16] : List Instr).all (fun i => !i.wf) = true := by decide +kernel

/-- Commands with one operand out of range, group 5 of 13: none is well-formed. -/
theorem test_wf_refuses_5 : ([
    .rasSyncEdge 2 false 1, .frog 17 1, .frog 1 65536, .frogCommit 16, .pinPark 16, .seamEnd 16, .needleFreeze 16, .hostEvent 17 1 1,
    .hostEvent 1 65536 1, .hostEvent 1 1 256, .hostEventLatch 16, .jump 17 1 1, .jump 1 65536 1, .jump 1 1 256, .jumpApply 16, .triginEdge 4 false 1,
    .strobeResult 16 [], .failFlag 16, .failLoggerDrain 16, .resultsFinal 16, .queuePost 88, .poolRelease 88 1, .rqpFlush 17 1, .rqpFlush 1 65536] : List Instr).all (fun i => !i.wf) = true := by decide +kernel

/-- Commands with one operand out of range, group 6 of 13: none is well-formed. -/
theorem test_wf_refuses_6 : ([
    .strFlush 17 1, .strFlush 1 65536, .skeinValidated 16, .stallExpiry 16, .levelFrameStart 8, .levelFrameEnd 8 1, .levelFrameEnd 1 65536,
    .lvlHostWrite 17 1 1 1 false, .lvlHostWrite 1 256 1 1 false, .lvlHostWrite 1 1 256 1 false, .lvlHostWrite 1 1 1 65536 false, .lvlHostRead 17 1 1,
    .lvlHostRead 1 256 1, .lvlHostRead 1 1 256, .gaugeWrite 17 1 [], .gaugeWrite 1 65536 [], .measDrive 17 1 1, .measDrive 1 65536 1,
    .measDrive 1 1 256, .taeArm 17 1, .taeArm 1 65536, .taeDisarm 17 1, .taeDisarm 1 65536, .rearmEnd 8] : List Instr).all (fun i => !i.wf) = true := by decide +kernel

/-- Commands with one operand out of range, group 7 of 13: none is well-formed. -/
theorem test_wf_refuses_7 : ([
    .triggerStamp 8, .force 17 1, .force 1 65536, .taeTimeout 8, .recordComplete 8 [], .calSample 8 0, .swatchTimeout 8, .calAged 16, .tmuStart 17 1,
    .tmuStart 1 65536, .tmuStop 17 1, .tmuStop 1 65536, .tdcStamp 40 1 false 1, .tdcStamp 1 512 false 1, .gateClose 40 1, .tmuTimeout 40,
    .memoryRequest 64 0 true 0 [] 1, .memoryRequest 1 0 true 0 [] 3, .memoryRequest 0 256 true 0 [] 1, .memoryRequest 0 0 true (2 ^ 36) [] 1, .refreshInterval 64 0, .forcedRefresh 64, .neighbourRefresh 64 1, .neighbourRefresh 1 48,
    .selfRefreshEntry 2, .scrub (2 ^ 36) 1] : List Instr).all (fun i => !i.wf) = true := by decide +kernel

/-- Commands with one operand out of range, group 8 of 13: none is well-formed. -/
theorem test_wf_refuses_8 : ([
    .scrub 1 3, .commit 17 1, .commit 1 65536, .bufferRelease 17 1, .bufferRelease 1 65536, .domainReq 17 1, .domainReq 1 (2 ^ 32),
    .domainSwitchDone 0 false, .domainSwitchDone 21 false, .pmbusPoll [], .conversion 8 0 false, .conversion 1 (2 ^ 31) false, .loopEnable 17 1,
    .loopEnable 1 65536, .loopDisable 17 1, .loopDisable 1 65536, .owTest 17 1, .owTest 1 65536, .owTestDone 128 0 0, .syscalZero 17 1,
    .syscalZero 1 65536, .syscalFull 17 1 0, .syscalFull 1 65536 0, .syscalFull 1 1 (2 ^ 31)] : List Instr).all (fun i => !i.wf) = true := by decide +kernel

/-- Commands with one operand out of range, group 9 of 13: none is well-formed. -/
theorem test_wf_refuses_9 : ([
    .syscalDone 128 0 false, .syncArm 17, .syncDisarm 17, .ptpEventMessage 2 false 1 1, .ptpEventMessage 1 false 65536 1, .ptpEventMessage 1 false 1 16,
    .ptpOffset 0 0 2 1, .ptpOffset 0 0 1 (2 ^ 80), .ntSet 17 [], .ntAdj 17 0, .ntAdj 1 (2 ^ 63), .txqOvfClear 17 1, .txqOvfClear 1 65536, .eventSend 4,
    .eventReceive 4 (List.replicate 4 0) 1, .eventReceive 1 [] 1, .eventDelivery 4, .latencyMarker 4 1, .cascadeFrame 4 [] false, .cslLinkDown 4 1,
    .cslLinkDown 1 4, .alignAuto 17 1, .alignAuto 1 65536, .alignManual 17 1] : List Instr).all (fun i => !i.wf) = true := by decide +kernel

/-- Commands with one operand out of range, group 10 of 13: none is well-formed. -/
theorem test_wf_refuses_10 : ([
    .alignManual 1 65536, .alignDone 17 1, .alignDone 1 65536, .alignmentComplete 4 (List.replicate 4 none), .alignmentComplete 1 [], .laneTest 17 1,
    .laneTest 1 65536, .laneTestDone 65536 1 false false, .laneTestDone 1 (2 ^ 48) false false, .frameReceive 2 1 1 1 1 1 false 1,
    .frameReceive 1 4 1 1 1 1 false 1, .frameReceive 1 1 65536 1 1 1 false 1, .frameReceive 1 1 1 4097 1 1 false 1, .frameReceive 1 1 1 1 8 1 false 1,
    .frameReceive 1 1 1 1 1 1 false 256, .arpRequest 2 1 1 1 1, .arpRequest 1 4 1 1 1, .echoRequest 2 1 false 1 1 1, .echoRequest 1 4 false 1 1 1,
    .neighbourSolicitation 2 1 1 1 false, .neighbourSolicitation 1 4 1 1 false, .neighbourSolicitation 1 1 1 (2 ^ 128) false,
    .membershipQuery 2 1 false 1, .membershipQuery 1 4 false 1] : List Instr).all (fun i => !i.wf) = true := by decide +kernel

/-- Commands with one operand out of range, group 11 of 13: none is well-formed. -/
theorem test_wf_refuses_11 : ([
    .membershipQuery 1 1 false (2 ^ 128), .pfcReceive 2 1 1 [], .pfcReceive 1 4 1 [], .pfcReceive 1 1 256 [], .pfcRepeat 2, .moduleInsert 2 1,
    .moduleInsert 1 (2 ^ 32), .hlkLinkUp 2 1, .hlkLinkUp 1 4, .hlkLinkDown 2 1, .hlkLinkDown 1 4, .portCfg 17 1 [], .portCfg 1 65536 [],
    .enqueue 4097 1 1, .enqueue 1 8 1, .enqueue 1 1 16, .complete 16, .yieldCmd 16, .cccHang 16, .cccEccU 16, .statsClear 17, .sourceLatch 512 false,
    .holdoffExpiry 32, .coreWait 16 false] : List Instr).all (fun i => !i.wf) = true := by decide +kernel

/-- Commands with one operand out of range, group 12 of 13: none is well-formed. -/
theorem test_wf_refuses_12 : ([
    .handlerEntry 16, .claim 16 1 false, .claim 1 512 false, .faultRaise 512 1 1 1 1, .faultRaise 1 65536 1 1 1, .faultRaise 1 1 256 1 1,
    .faultRaise 1 1 1 65536 1, .faultRaise 1 1 1 1 (2 ^ 64), .faultClear 17 1, .faultClear 1 65536, .faultClearAll 17, .fcrRecovered 512,
    .firstClear 17, .inject 17 1 1 1 1, .inject 1 65536 1 1 1, .inject 1 1 4 1 1, .inject 1 1 1 256 1, .inject 1 1 1 1 65536, .injectCancel 17,
    .dmpClear 17, .summaryClear 17, .imageValidation false 2, .slotSelect 17 1, .slotSelect 1 256] : List Instr).all (fun i => !i.wf) = true := by decide +kernel

/-- Commands with one operand out of range, group 13 of 13: none is well-formed. -/
theorem test_wf_refuses_13 : ([
    .rollbackCommit 17, .keyRevoke 17 1, .keyRevoke 1 256, .keyWrite 17 1 [], .keyWrite 1 65536 [], .pauseQuantaExpiry 2 1 1, .pauseQuantaExpiry 1 4 1,
    .pauseQuantaExpiry 1 1 8, .moduleRemoval 2, .cslFrameSent 4, .arpEntryExpiry 2 1 1, .arpEntryExpiry 1 4 1, .arpEntryExpiry 1 1 (2 ^ 128),
    .softstartEnd 32] : List Instr).all (fun i => !i.wf) = true := by decide +kernel

/-- Commands whose data exceed what a frame or an item carries: none is well-formed. -/
theorem test_wf_refuses_lengths (v : Bytes) (h : v.length = 65536) :
    Instr.wf (.poaFrame 1 1 1 1 1 v) = false ∧
    Instr.wf (.multicastFrame 1 1 1 v) = false ∧
    Instr.wf (.write 1 1 1 v) = false ∧
    Instr.wf (.domainData 1 1 1 1 v) = false ∧
    Instr.wf (.streamData 1 1 1 1 v) = false ∧
    Instr.wf (.gaugeWrite 1 1 v) = false ∧
    Instr.wf (.ntSet 1 v) = false ∧
    Instr.wf (.cascadeFrame 1 v false) = false ∧
    Instr.wf (.portCfg 1 1 v) = false ∧
    Instr.wf (.keyWrite 1 1 v) = false := by
  simp [Instr.wf, h, below]

/-- Commands with an ill-formed entry in a list: none is well-formed. -/
theorem test_wf_refuses_entries : ([
    .bootStageEnd 0 [65536], .recordComplete 0 [⟨256, false, 0, false⟩], .memoryRequest 0 0 false 63 [0, 0] 0] : List Instr).all (fun i => !i.wf) = true := by decide +kernel

namespace Machine

/-- A session of level S, open on sub-port 0 of port 0. -/
def wX : Session := { state := 2, level := 3, port := 0, sub := 0, addr := 0xFFFF0A000002, udp := 50000, maxFrame := 1464, timeout := 1000, hostNonce := [], engNonce := [], key := [], next := 1, held := [], replies := [], rseq := 0, lastRx := 0 }
/-- The row of an object. -/
def wRow (o : Nat) : ObjRow := (objRow o).getD ⟨0, .single, .command, none, none, 0, 0, false, false⟩
/-- After reset, with session 1 open. -/
def wS : State := State.reset.setSession 1 (some wX)
/-- As wS, in a mode. -/
def wIn (m : Mode) : State := wS.wr Obj.devMode 0 m.code
/-- After reset, in a mode. -/
def rIn (m : Mode) : State := State.reset.wr Obj.devMode 0 m.code
/-- In BOOT, at a stage. -/
def wBoot (k : Nat) : State := (rIn .boot).setFld Obj.botStatus 0 F.botStatusStage k

/-- A stack in a state of R521. -/
def State.wStack (s : State) (k v : Nat) : State := s.setFld Obj.hmsState 0 ⟨8 * k, 4⟩ v
/-- A reference wanted and missing in BOOT's stage 3. -/
def wNoRef : State := (wBoot 3).setFld Obj.clkState 0 F.clkStateSource 3
/-- A write transfer of an image, complete and being validated, and the request that waits for it. -/
def wVal (ix el : Nat) (d : Bytes) (svc : Nat) : State :=
  { wS.setXfer 5 (some ⟨1, ix, el, false, d.length, d, 0, true, 0⟩) with waiters := [⟨.xfer 5, 1, svc, false, 0, 0, none⟩] }
/-- A SAVE under way. -/
def wSaving : State := { wIn .idle with bot := { saving := some ⟨false, some ⟨[], []⟩, 0⟩ } }

/-- Every power domain on. -/
def State.wOn (s : State) : State := allDomains.foldl (fun s d => (s.setFld Obj.psmDomainState 0 ⟨4 * d, 4⟩ 2).setFld Obj.psmDomainReq 0 ⟨d, 1⟩ 1) s
/-- Needle 0 with a chart loaded, sites 0 and pins 0 to 3, in a state of R204. -/
def State.wNdl (s : State) (st : Nat) : State :=
  (((((s.wr Obj.ndlChart 0 7).wr Obj.ndlChartState 7 4).wr Obj.ndlSites 0 1).wr Obj.ndlSitePins 0 15).wr Obj.ndlPinset 0 15).wr Obj.ndlState 0 st
/-- Every power domain on, session 1 open, in a mode. -/
def wOnIn (m : Mode) : State := (wIn m).wOn
/-- As wOnIn, with needle 0 placed in a state. -/
def wNdlIn (m : Mode) (st : Nat) : State := (wOnIn m).wNdl st
/-- A transition in progress. -/
def State.wTrans (s : State) (source target reason : Nat) (due : Option Nat) : State := s.setTrans (some ⟨source, target, reason, due⟩)
/-- Arming, its admission checks under way. -/
def wArming : State :=
  { (((wOnIn .idle).wTrans 3 5 1 none).wr Obj.plcState 0 1) with plc := { arming := some (4 * msFs) }, waiters := [⟨.arming, 1, 2, false, 0, 0, none⟩] }
/-- The port's link up, with a gateway, in IDLE. -/
def wUp : State := ((wIn .idle).setFld Obj.hlkLinkStatus 0 F.hlkLinkStatusState 3).setFld Obj.hlkIpv4 0 F.hlkIpv4Gateway 1

/-- A block header from its control word and its extension area, with the CRC of R147. -/
def wHead (v ext : Nat) : Bytes :=
  let c := (toLE 16 v).drop 1
  BitVec.ofNat 8 (crc8 c.reverse) :: c ++ toLE 48 ext
/-- A block of R146 without flags. -/
def wBlk (op len count target arg : Nat) : Bytes := wHead (op * 2 ^ 120 + len * 2 ^ 88 + count * 2 ^ 56 + target * 2 ^ 24 + arg * 2 ^ 8) 0
/-- An image with its CRC-32 put at an offset (R138). -/
def wSeal (b : Bytes) (at4 : Nat) : Bytes := b.take at4 ++ toLE 4 (crc32 b) ++ b.drop (at4 + 4)
/-- A chart image over 4 pins: one segment, the given courses of blocks. -/
def wChartOf (blocks : Bytes) : Bytes :=
  let k := blocks.length / 64
  wSeal (toLE 64 (0x54484357 + 0x0100 * 2 ^ 32 + 4 * 2 ^ 48 + (2 + k) * 2 ^ 96 + 2 * 2 ^ 128 + 2 ^ 160) ++ toLE 64 (2 + k * 2 ^ 32) ++ blocks) 24
/-- A chart of one BIND_OFF stitch. -/
def wChart : Bytes := wChartOf (wBlk 0xFF 1 0 0 0 ++ toLE 64 0)
/-- A skein of two courses for needles of 4 pins, its one block a STREAM_JOIN. -/
def wSkein (npins : Nat) : Bytes := wSeal (toLE 64 (0x314E4B53 + 0x0100 * 2 ^ 32 + npins * 2 ^ 48 + 2 * 2 ^ 96) ++ wBlk 0x12 0 0 0 0) 16
/-- A wave table of one pin, every wave empty, period 1 microsecond. -/
def wWave : Bytes := wSeal (toLE 64 (0x45564157 + 0x0100 * 2 ^ 32 + 1 * 2 ^ 48 + 1000000000 * 2 ^ 64 + 18 * 2 ^ 128) ++ List.replicate 1088 0#8) 20

/-- As wX, in another state, port or the like is written out where it is used; this one awaits its proof. -/
def wChal : Session := { wX with state := 1 }
/-- A read transfer of chart 7's image and a write transfer of wave table 1, both of session 1, in IDLE. -/
def wXfers : State :=
  ((wOnIn .idle).setXfer 5 (some ⟨1, Obj.ndlChartImage, 7, true, 8, toLE 8 5, 0, false, 0⟩)).setXfer 6 (some ⟨1, Obj.ptfWaveTable, 1, false, 8, toLE 4 1, 0, false, 0⟩)
/-- A write transfer of the calibration table's kind, whose bytes are only kept. -/
def wKept : State := (wOnIn .idle).setXfer 6 (some ⟨1, Obj.ptfDatalog, 0, false, 8, toLE 4 1, 0, false, 0⟩)
/-- Needle 0 placed with an empty ring of 1 MiB, expecting skein 0. -/
def wRing (m : Mode) : State := ((wNdlIn m 2).wr Obj.strState 0 1).wr Obj.strRingSize 0 1
/-- As wRing, with a skein in transfer. -/
def wSkeinIn (k : SkeinIn) : State := (wRing .armed).setNdl 0 { skeinIn := some k }
/-- As wSkeinIn, with its request waiting. -/
def wSkeinWait (k : SkeinIn) : State := { wSkeinIn k with waiters := [⟨.skein 0, 1, 6, false, 0, 0, none⟩] }
/-- Subscription 3 of session 1 and a session 2 with none. -/
def wSub (y : Sub) : State := (wUp.wOn.setSession 2 (some wX)).setSub 3 (some y)

/-- A service item of R688. -/
def wItem (svc : Nat) (body : Bytes) : Bytes := [BitVec.ofNat 8 svc, 0#8] ++ toBE 2 (4 + body.length) ++ body
/-- A READ of DEV.MODE in a frame of session 1 with a sequence number. -/
def wFrame (seq : Nat) : Bytes := mkFrame 1 0 1 seq [wItem 1 (toBE 2 Obj.devMode ++ toBE 2 0)]
/-- A multicast WRITE of DEV.HEAD_POSITION with a sequence number. -/
def wCast (seq : Nat) : Bytes := mkFrame 1 0 0xFFFF seq [wItem 2 (toBE 2 Obj.devHeadPosition ++ toBE 2 0 ++ toBE 2 1 ++ [0#8, 0#8] ++ [6#8, 0#8, 0#8, 0#8])]
/-- As wUp, with another session 1. -/
def wUpWith (x : Session) : State := wUp.setSession 1 (some x)
/-- As wUp, in multicast group 239.0.0.1. -/
def wGroup : State := wUp.wr Obj.hlkMcastGroups 0 (2 ^ 1024 + ofLE (toBE 16 0xFFFFEF000001))

/-- As wGroup, in IDLE, the group's writes at level S with a key. -/
def wGroupE : State := { wGroup.setFld Obj.secMcastCfg 0 ⟨0, 2⟩ 3 with bot := { keys := [(3, 5)] } }
/-- A multicast WRITE of DEV.STORE with a sequence number, tagged with that key. -/
def wCastE (seq : Nat) : Bytes := tagFrame ((wGroupE.secKey 3).getD []) (mkFrame 1 0 0xFFFF seq [wItem 2 (toBE 2 Obj.devStore ++ toBE 2 0 ++ toBE 2 1 ++ [0#8, 0#8] ++ [1#8, 0#8, 0#8, 0#8])])
/-- The engine in IDLE while a multicast write of an object waits for its core. -/
def wCastWait (o : Nat) : State := { wOnIn .idle with waiters := [⟨.fw 3, 0xFFFF, 0x02, false, 0, 0, some (o, 0)⟩] }
/-- The engine hot, TEMP_LIMIT active, while a multicast write of FCR.CLEAR waits for its core. -/
def wCastHot : State := { (wOnIn .idle).wr Obj.fcrActive 0 (2 ^ Ev.tempLimit) with psm := { hot := true }, waiters := [⟨.fw 3, 0xFFFF, 0x02, false, 0, 0, some (Obj.fcrClear, 0)⟩] }
/-- Core 2 idle, with items in the ready lists. -/
def wReady (l : List Item) : State := { (wOnIn .idle).wr Obj.cccState 2 2 with ready := l }
/-- Core 2 with an item in service. -/
def wBusyCore : State := ((wOnIn .idle).wr Obj.cccState 2 3).setCore 2 { item := some (⟨7, 3, 0, 0⟩, 5) }
/-- Core 2 with an item of flow 88 in service, whose access is a SAVE. -/
def wJob88 : State := { ((wOnIn .idle).wr Obj.cccState 2 3).setCore 2 { item := some (⟨88, 3, 3, 0⟩, 5) } with ode := { jobs := [⟨0, false, Obj.devStore, 0, [0], 1⟩] } }
/-- An injection pending for one access: source, wrong bits. -/
def wInject (src bits : Nat) : State :=
  { (wOnIn .idle).wr Obj.fcrInject 0 (src + bits * 2 ^ 16 + 0xFF * 2 ^ 24 + 2 ^ 32) with fcr := { injLeft := 1 } }
/-- A reaction under way while needle 0 runs. -/
def wReact (r : Reaction) : State := { (wNdlIn .run 4).setNdl 0 { active := 1 } with fcr := { reactions := [r] } }

/-- A place in chart 7. -/
def w7 (off : Nat) : Option (Img × Nat) := some (.chart 7, off)
/-- Needle 0 running chart 7 with one block, the decoder before it. -/
def wDec (b : Bytes) (r : NdlRt) : State := { ((wNdlIn .run 4).setImg Obj.ndlChartImage 7 (wChartOf b)).setNdl 0 { r with cursor := w7 2, warm := true } with now := 1000000000 }
/-- A VECTOR block of one stitch in chart 7, decoded. -/
def wStitch : Dec := ⟨.chart 7, 2, decodeBlock (wBlk 1 1 0 0 0), 0, 0, 0, 0, (0, 1), false, 0⟩
/-- Needle 0 in a state, as its issue unit sees it. -/
def wIss (st : Nat) (r : NdlRt) : State := (((wNdlIn .run st).setImg Obj.ndlChartImage 7 wChart).setImg Obj.ptfWaveTable 0 wWave).setNdl 0 r
/-- A staged write for needle 0. -/
def wStaged (st o v : Nat) : State := { wNdlIn .run st with staged := [⟨o, 0, 1, v, 99⟩] }
/-- A timed start of needle 0. -/
def wTimed (m : Mode) (st : Nat) : State :=
  { (wNdlIn m st).setFld Obj.clkStartStatus 0 F.clkStartStatusNeedles 1 with clk := { startQ := some 99 } }

/-- A stitch with one strobe of pin 1 in site 0, comparing low, in a MATCH pass or in none. -/
def wEval (pass : Nat) : Stitch := ⟨5, [⟨1, 0, 0, 0, 100, 1, 1⟩], 1, pass, false, 0, 3⟩
/-- Needle 0 running with site 0's queue, number 3, placed. -/
def wQueue (r : NdlRt) (q : Queue) : State := ((wNdlIn .run 4).putQueue 3 (some q)).setNdl 0 r
/-- A record of four bytes in a queue. -/
def wRec : PoolRec := ⟨[1#8, 2#8, 3#8, 4#8], 0, false, 0, 0, false⟩
/-- A level-bus frame. -/
def wLev (host opened : Bool) : LevelFrame := ⟨99, 0x80000007, 1, host, opened⟩
/-- Bank 0 with one frame on its way. -/
def wBus (f : LevelFrame) : State := (wOnIn .run).setFrames 0 [f]
/-- One SUPPLY entry on its way, for loop 1 in a state. -/
def wSupply (st : Nat) (v : Int) : State :=
  { ((wOnIn .run).wr Obj.splState 1 st).setFld Obj.splLimits 1 F.splLimitsVsetMax 500 with psm := { supply := [⟨99, 0, 1, 0, v⟩] } }
/-- An acquisition unit's queue placed, its POST at 4 samples, its buffer of 1 MiB; the unit in a state. -/
def wTae (st : Nat) (x : TaeRt) : State :=
  (((((wOnIn .run).putQueue 3 (some { flow := 80 })).wr Obj.taePost 0 4).wr Obj.taeBuffer 0 1).wr Obj.taeState 0 st).setUnit 0 x
/-- Continuous calibration on in RUN, bank 0's TDC as given. -/
def wCal (x : CalBank) : State :=
  (((((wOnIn .run).setFld Obj.calCtrl 0 F.calCtrlEnable 1).setFld Obj.calCtrl 0 F.calCtrlBanks 255).setFld Obj.calCtrl 0 F.calCtrlQuants 63).wr Obj.ptfPinState 0 2).setCalBank 0 x
/-- A swatch of bank 0 one sample short, while the host writes the pin's gauge on the same edge. -/
def wCalHost : State :=
  let s := (wCal { samples := List.replicate 127 3 }).wr Obj.calStepLimit 0 300
  { s with cal := { s.cal with host := [(0, some ⟨0, 0, 0, [some 10000]⟩)] } }
/-- Full calibration under way, in a phase. -/
def wFull (ph : Nat) (found : CalResults) : State :=
  { (((wOnIn .calibrate).setFld Obj.calFullStatus 0 F.calFullStatusPhase ph).setFld Obj.calFullCfg 0 F.calFullCfgBanks 1).wr Obj.calAbsLimit 0 500 with cal := { full := some 99, found := found } }
/-- User TDC 0 running in a mode, its input A at source 0x1000 rising, its input B at source 0x1001 rising. -/
def wTdc (mode : Nat) (x : TdcRt) : State :=
  (((((wOnIn .idle).wr Obj.tmuState 0 1).setFld Obj.tmuCfg 0 F.tmuCfgMode mode).setFld Obj.tmuCfg 0 F.tmuCfgSrcA 0x1000).setFld Obj.tmuCfg 0 F.tmuCfgSrcB 0x1001).setTdc 0 x

/-- A cascade port 1 up, aligned, latency valid, with the given runtime state. -/
def wCas (x : CslRt) : State :=
  ((((wOnIn .run).setFld Obj.clkState 0 F.clkStateAligned 1).setFld Obj.cslPortStatus 1 F.cslPortStatusState 2).setFld Obj.cslPortStatus 1 F.cslPortStatusLatValid 1).setCport 1 x
/-- A cascade data frame with a payload of two bytes. -/
def wCasFrame : Bytes := let b := toLE 4 2 ++ toLE 2 7; b ++ toLE 4 (crc32 b)
/-- A port up with an IPv4 address, in no group. -/
def wPort : State := wUp.setFld Obj.hlkIpv4 0 F.hlkIpv4Address (ofLE (toBE 4 0x0A000001))
/-- In DUMP, no domain ramping, core 0 awake. -/
def wDump : State := (wOnIn .dump).wr Obj.cccState 0 2
/-- A state whose latest bulk sample lies below BULK_LOW. -/
def wBulk (s : State) : State := (s.setFld Obj.psmLineCfg 0 F.psmLineCfgBulkAin 3).setFld Obj.psmLineCfg 0 F.psmLineCfgBulkLow 5


/-- The structures of the statements from the conjunctions that the kernel decides. -/
theorem quiet_of {s : State} (h : s.jobs = [] ∧ s.waiters = [] ∧ s.results = [] ∧ s.ode.done = []) : s.Quiet :=
  ⟨h.1, h.2.1, h.2.2.1, h.2.2.2⟩
theorem awaits_of {s : State} {w : Waiter}
    (h : s.waiters = [w] ∧ w.inFrame = false ∧ s.jobs = [] ∧ s.results = [] ∧ s.ode.done = [] ∧ w.mcast = none) : s.Awaits w :=
  ⟨h.1, h.2.1, h.2.2.1, h.2.2.2.1, h.2.2.2.2.1, h.2.2.2.2.2⟩
theorem opened_of {s : State} {n : Nat} {x : Session}
    (h : (s.jobs = [] ∧ s.waiters = [] ∧ s.results = [] ∧ s.ode.done = []) ∧ s.session n = some x ∧ x.state = 2) : s.Opened n x :=
  ⟨quiet_of h.1, h.2.1, h.2.2⟩
theorem accepts_of {s : State} {n : Nat} {x : Session} {r : ObjRow} {ix el : Nat} {b : Bytes} {els : List Nat}
    (h : (s.jobs = [] ∧ s.waiters = [] ∧ s.results = [] ∧ s.ode.done = []) ∧ s.session n = some x ∧ x.state = 2 ∧ objRow ix = some r ∧
      (s.touch n x).writeCheck x.level ix el b = (rOk, els) ∧
      (∀ m ∈ els, (s.touch n x).memberReason ⟨n, x.level, x.port⟩ r els (ofLE b) m = rOk) ∧
      ((s.touch n x).fwServed r = true → ((s.touch n x).enqueue 88 0 3).1 = true)) : Accepts s n x r ix el b els :=
  ⟨quiet_of h.1, h.2.1, h.2.2.1, h.2.2.2.1, h.2.2.2.2.1, h.2.2.2.2.2.1, h.2.2.2.2.2.2⟩

/-! Single operations and commands against the worked examples of the spec. -/

/-- 04_charts, the chart example: the block header of course 5 is a LOOP_BEGIN with COUNT 1,000 and TARGET 8, and its CRC agrees (R146, R147). -/
theorem test_block_header :
    let c := toLE 16 0x0300000000000003E800000008000038 ++ List.replicate 48 0#8
    blockCrcOk c = true ∧ (decodeBlock c).op = 3 ∧ (decodeBlock c).len = 0 ∧ (decodeBlock c).count = 1000 ∧ (decodeBlock c).target = 8 := by decide +kernel

/-- 04_charts, the chart example: the first 28 bytes of the header name 11 courses, ENTRY 2 and 16 pins (R137). -/
theorem test_chart_header :
    let h : Bytes := [0x57, 0x43, 0x48, 0x54, 0x00, 0x01, 0x10, 0x00, 0x00, 0x00, 0x00, 0x00, 0x0B, 0x00, 0x00, 0x00, 0x02, 0x00, 0x00, 0x00, 0x01, 0x00, 0x00, 0x00].map (BitVec.ofNat 8)
    hNpins h = 16 ∧ hInitTset h = 0 ∧ hCourses h = 11 ∧ hEntry h = 2 ∧ hNseg h = 1 := by decide +kernel

/-- 08_capture, the FAIL example: site 3, stitch 1,000, course 6, pins 2 and 7, the queue's eighteenth record (R364, R365). -/
theorem test_fail_record :
    poolRec 1 3 17 (failPayload ⟨3, 1000, 6, 0, 0x8010⟩ 16) =
      [0x20, 0x00, 0x01, 0x03, 0x11, 0x00, 0x00, 0x00, 0xE8, 0x03, 0x00, 0x00, 0x00, 0x00, 0x00, 0x00,
       0x06, 0x00, 0x00, 0x00, 0x00, 0x00, 0x00, 0x00, 0x10, 0x80, 0x00, 0x00, 0x00, 0x00, 0x00, 0x00].map (BitVec.ofNat 8) := by decide +kernel

/-- 09_acquisition, the record example: TRIGIN[0] rises 250.400 ns after the epoch; with INTERP_0 set the event waits for edge 203 with its instant kept (R404, R405). -/
theorem test_trigin_edge :
    let s := (((rIn .armed).setFld Obj.taeTrigCfg 2 F.taeTrigCfgSources 1).wr Obj.taeTriginCfg 0 1)
    (match exec (.triginEdge 0 false 250400000) s with | .next t => (t.unit 2).waiting.map (fun x => (x.edge, x.t)) | _ => []) = [(203 * 1250000, 250400000)] := by decide +kernel

/-- 15_power_supplies, the calibration example: with the GAIN that 4,096 samples of each point give, code 13,127 reads 500,000 microvolts (R590, R591). -/
theorem test_full_scale :
    let s := { ((rIn .idle).wr Obj.adcSyscalStatus 40 3).setFld Obj.adcSyscal 40 F.adcSyscalFsValue 1000000 with adc := { c0 := [(40, some (20 * 4096))] } }
    (match exec (.syscalDone 40 (26234 * 4096) false) s with | .next t => (t.rd Obj.adcSyscalStatus 40, t.scale 40 13127) | _ => (0, 0)) = (4, 500000) := by decide +kernel

/-- 13_memory, the address example: 0x2_1C0A_E340 under hash 3 and under hash 0 (R518, R527). -/
theorem test_address :
    addrStack 0x21C0AE340 = 1 ∧ addrPc 0x21C0AE340 = 32 + 17 ∧ addrRow 0x21C0AE340 = 0x21C0 ∧ addrSid 0x21C0AE340 = 0 ∧
    State.reset.addrBank 3 0x21C0AE340 = 0 + 3 * 4 ∧ State.reset.addrBank 0 0x21C0AE340 = 2 + 2 * 4 := by decide +kernel

/-- 05_needles, the SET_TSET example: from 10,001.25 ns the next edge of a 3.2 ns period is 10,003.2 ns (R218). -/
theorem test_period_edge : State.reset.periodEdge 3200000 10001250000 = 10003200000 := by decide +kernel

/-- 17_cascade, the latency example: a cable of 8.2 ns takes 3 VCLK more (R664). -/
theorem test_extra : extraOf 8200000 = 3 := by decide

/-- 20_cores_dispatch: source numbers (R763). -/
theorem test_sources : Ev.clkPllUnlock = 81 ∧ Ev.ptpUnlocked = 86 ∧ Ev.taeRecord = 176 ∧ Ev.siteLogIncomplete = 164 ∧ Ev.hmsEccU = 241 := by decide

/-- 02_object_dictionary, the wave-table example: element 0x0F3F exists and 0x0F40 does not (R48). -/
theorem test_composite_element :
    State.reset.elems (wRow Obj.ptfWaveTable).cls 0x0F3F = [0x0F3F] ∧ State.reset.elems (wRow Obj.ptfWaveTable).cls 0x0F40 = [] := by decide +kernel

/-- 18_poa_protocol, the session example: the frame with SEQ 1 of session 3, level V, in ARMED, and its reply (R684 to R689). -/
theorem test_poa_frame :
    let f : Bytes := [0x50, 0x4F, 0x01, 0x01, 0x00, 0x02, 0x00, 0x03, 0x00, 0x00, 0x00, 0x01, 0x00, 0x30, 0x00, 0x00, 0, 0, 0, 0, 0, 0, 0, 0,
      0x01, 0x00, 0x00, 0x08, 0x10, 0x11, 0x00, 0x00, 0x02, 0x00, 0x00, 0x10, 0x40, 0x01, 0x00, 0x04, 0x00, 0x01, 0x00, 0x00, 0x01, 0x00, 0x00, 0x00].map (BitVec.ofNat 8)
    let g : Bytes := [0x50, 0x4F, 0x01, 0x02, 0x00, 0x02, 0x00, 0x03, 0x00, 0x00, 0x00, 0x01, 0x00, 0x30, 0x00, 0x00, 0, 0, 0, 0, 0, 0, 0, 0,
      0x81, 0x00, 0x00, 0x10, 0x00, 0x00, 0xFF, 0xFF, 0x00, 0x01, 0x00, 0x00, 0x05, 0x00, 0x00, 0x00, 0x82, 0x00, 0x00, 0x08, 0x00, 0x03, 0xFF, 0xFF].map (BitVec.ofNat 8)
    let s := (wUp.wr Obj.devMode 0 5).setSession 3 (some { wX with level := 0 })
    (match exec (.poaFrame 0 0 wX.addr wX.udp 7 f) s with
      | .next t => t.out.map (fun m => match m with | .frame _ _ _ _ _ _ b => b | _ => []) | _ => []) = [g] := by decide +kernel

/-! Conditions that rest on an image which the opaque checks of R812 accept: given such an image, they are met. -/

/-- BootStagesFollow, stage 4 with an image that is accepted in the slot selected. -/
theorem witness_BootStagesFollow_image (img : Bytes) (h : State.reset.imageReason false img = 0) :
    ∃ s : State, s.Quiet ∧ s.mode = .boot ∧ s.bot.held = false ∧ s.bootStage = 4 ∧ s.imageReason false (s.fwImg s.bot.slot) = 0 ∧ s.bot.slot < 2 :=
  ⟨{ wBoot 4 with bot := { fw := [(0, img)] } }, quiet_of ⟨rfl, rfl, rfl, rfl⟩, (by decide +kernel : (wBoot 4).mode = .boot), rfl, (by decide +kernel : (wBoot 4).bootStage = 4), h, (by decide : 0 < 2)⟩

/-- BootStagesFollow, stage 4 with an image that is accepted in the other slot only. -/
theorem witness_BootStagesFollow_fallback (img : Bytes) (h : State.reset.imageReason false img = 0) :
    ∃ s : State, s.Quiet ∧ s.mode = .boot ∧ s.bot.held = false ∧ s.bootStage = 4 ∧ s.imageReason false (s.fwImg s.bot.slot) ≠ 0 ∧
      s.imageReason false (s.fwImg (1 - s.bot.slot)) = 0 :=
  ⟨{ wBoot 4 with bot := { fw := [(1, img)] } }, quiet_of ⟨rfl, rfl, rfl, rfl⟩, (by decide +kernel : (wBoot 4).mode = .boot), rfl, (by decide +kernel : (wBoot 4).bootStage = 4),
    (by decide +kernel : State.reset.imageReason false [] ≠ 0), h⟩

/-- ImagesAndKeysAreKept, a slot whose image is accepted is selected. -/
theorem witness_ImagesAndKeysAreKept_slot (img : Bytes) (h : State.reset.imageReason false img = 0) :
    ∃ s : State, Accepts s 1 wX (wRow Obj.botSlotSelect) Obj.botSlotSelect 0 (toLE 1 0) [0] := by
  let s : State := { wIn .idle with bot := { fw := [(0, img)] } }
  have hs : (s.touch 1 wX).slotCond 0 = [(false, rRange)] := by
    simp [State.slotCond, show (s.touch 1 wX).imageReason false ((s.touch 1 wX).fwImg 0) = 0 from h]
  have hm : (s.touch 1 wX).memberReason ⟨1, wX.level, wX.port⟩ (wRow Obj.botSlotSelect) [0] 0 0 = firstReason ((false, rBusy) :: ((s.touch 1 wX).slotCond 0 ++ [])) := rfl
  have hc : (s.touch 1 wX).writeCheck wX.level Obj.botSlotSelect 0 (toLE 1 0) = ((wIn .idle).touch 1 wX).writeCheck wX.level Obj.botSlotSelect 0 (toLE 1 0) := rfl
  refine ⟨s, accepts_of ⟨⟨rfl, rfl, rfl, rfl⟩, (by decide +kernel : (wIn .idle).session 1 = some wX), rfl, by decide +kernel, hc.trans (by decide +kernel), ?_, fun _ => ?_⟩⟩
  · intro m hm'
    obtain rfl : m = 0 := by simpa using hm'
    exact hm.trans (by rw [hs]; rfl)
  · exact (by decide +kernel : (((wIn .idle).touch 1 wX).enqueue 88 0 3).1 = true)

/-! Conditions on a step. -/

/-- The hypotheses of EveryStepKeepsTheStores, StepsTakeOneCommandAndNoTimeBack and FusesStayBlown can be met, by a step that runs a command. -/
theorem witness_EveryStepKeepsTheStores :
    ∃ s t : State, (Memory.wf s.mem ∧ Tbl.Wf odDflt s.od ∧ s.bot.fused ≤ 64) ∧ s.pending = [.powerOn] ∧ step s = .next t :=
  ⟨{ State.reset with pending := [.powerOn] }, State.reset.bootEntry 0 0 false, by decide +kernel, rfl, by rfl⟩
theorem witness_StepsTakeOneCommandAndNoTimeBack : ∃ s t : State, s.pending = [.powerOn] ∧ step s = .next t :=
  let ⟨s, t, _, h⟩ := witness_EveryStepKeepsTheStores
  ⟨s, t, h⟩
theorem witness_FusesStayBlown : ∃ s t : State, s.bot.fused ≤ 64 ∧ s.pending = [.powerOn] ∧ step s = .next t :=
  let ⟨s, t, w, h⟩ := witness_EveryStepKeepsTheStores
  ⟨s, t, w.2.2, h⟩

/-! The hypotheses of the statements, clause by clause. -/

/-- The hypotheses of each clause of StepRunsTheFrontCommand can be met (clauses of the same hypotheses together). -/
theorem witness_StepRunsTheFrontCommand :
    (∃ (s : State) (c : Instr) (rest : List Instr), (s.pending = c :: rest)) ∧
    (∃ (s : State), (s.pending = [])) :=
  ⟨⟨{ State.reset with pending := [.powerOn] }, .powerOn, [], by decide +kernel⟩,
   ⟨State.reset, by decide +kernel⟩⟩

/-- The hypotheses of ResetHoldsTheDefaults can be met. -/
theorem witness_ResetHoldsTheDefaults :
    (∃ (o : Nat) (e : Nat), (o < 65536)) :=
  ⟨0x5207, 3, by decide +kernel⟩

/-- The hypotheses of each clause of AcceptedWritesAreServed can be met (clauses of the same hypotheses together). -/
theorem witness_AcceptedWritesAreServed :
    (∃ (s : State) (n : Nat) (x : Session), (s.session n = some x)) ∧
    (∃ (s : State) (n : Nat) (x : Session) (k : Nat), (s.session n = some x) ∧ (k ≠ n)) ∧
    (∃ (s : State) (n : Nat) (x : Session) (r : ObjRow) (ix : Nat) (el : Nat) (b : Bytes) (els : List Nat) (a : Nat) (t : State), (Accepts s n x r ix el b els) ∧ ((s.touch n x).fwServed r = false) ∧ ((s.touch n x).commitCommand r ix el (ofLE b) els = (Ans.done a 65535 [], t))) ∧
    (∃ (s : State) (n : Nat) (x : Session) (r : ObjRow) (ix : Nat) (el : Nat) (b : Bytes) (els : List Nat), (Accepts s n x r ix el b els) ∧ ((s.touch n x).fwServed r = true)) ∧
    (∃ (u : State) (core : Nat) (start : Nat) (i : Item) (j : FwJob) (l : List FwJob), ((u.core core).item = some (i, start)) ∧ (i.flow = 88) ∧ (u.ode.jobs = j :: l) ∧ (u.ode.done = [])) :=
  ⟨⟨wIn .idle, 1, wX, by decide +kernel⟩,
   ⟨wIn .idle, 1, wX, 3, by decide +kernel, by decide +kernel⟩,
   ⟨wIn .idle, 1, wX, wRow Obj.devModeReq, Obj.devModeReq, 0, [8#8], [0], 0, (((wIn .idle).touch 1 wX).commitCommand (wRow Obj.devModeReq) Obj.devModeReq 0 8 [0]).2, accepts_of (by decide +kernel), by decide +kernel, by decide +kernel⟩,
   ⟨wIn .idle, 1, wX, wRow Obj.devStore, Obj.devStore, 0, [1#8], [0], accepts_of (by decide +kernel), by decide +kernel⟩,
   ⟨wJob88, 2, 5, ⟨88, 3, 3, 0⟩, ⟨0, false, Obj.devStore, 0, [0], 1⟩, [], by decide +kernel, by decide +kernel, by decide +kernel, by decide +kernel⟩⟩

/-- The hypotheses of each clause of BootBegins can be met (clauses of the same hypotheses together). -/
theorem witness_BootBegins :
    (∃ (s : State), (s.mode = Mode.cold) ∧ (s.bot.testMode = false)) ∧
    (∃ (s : State), (s.mode ≠ Mode.cold)) ∧
    (∃ (s : State), (s.mode ≠ Mode.cold) ∧ (s.psm.plan = none) ∧ (s.trans = none)) ∧
    (∃ (s : State), (s.mode = Mode.cold)) :=
  ⟨⟨State.reset, by decide +kernel, by decide +kernel⟩,
   ⟨wIn .idle, by decide +kernel⟩,
   ⟨wIn .idle, by decide +kernel, by decide +kernel, by decide +kernel⟩,
   ⟨State.reset, by decide +kernel⟩⟩

/-- The hypotheses of each clause of BootStagesFollow can be met (clauses of the same hypotheses together). -/
theorem witness_BootStagesFollow :
    (∃ (s : State) (a : Nat) (b : Nats), (s.Quiet) ∧ (s.mode = Mode.boot) ∧ (s.bot.held = true)) ∧
    (∃ (s : State) (a : Nat) (b : Nats), (s.Quiet) ∧ (s.mode = Mode.boot) ∧ (s.bot.held = false) ∧ (s.bootStage = 1)) ∧
    (∃ (s : State) (a : Nat) (b : Nats), (s.Quiet) ∧ (s.mode = Mode.boot) ∧ (s.bot.held = false) ∧ (s.bootStage = 2) ∧ (a = 0)) ∧
    (∃ (s : State) (a : Nat) (b : Nats), (s.Quiet) ∧ (s.mode = Mode.boot) ∧ (s.bot.held = false) ∧ (s.bootStage = 2) ∧ (a ≠ 0) ∧ (s.railPresent a = true)) ∧
    (∃ (s : State) (a : Nat) (b : Nats), (s.Quiet) ∧ (s.mode = Mode.boot) ∧ (s.bot.held = false) ∧ (s.bootStage = 3) ∧ (s.fld Obj.clkState 0 F.clkStateSource ≠ 3) ∧ (¬(s.fld Obj.clkCfg 0 { lo := 0, w := 2 } = 1 ∧ a = 0))) ∧
    (∃ (s : State) (a : Nat) (b : Nats), (s.Quiet) ∧ (s.mode = Mode.boot) ∧ (s.bot.held = false) ∧ (s.bootStage = 3) ∧ (s.fld Obj.clkState 0 F.clkStateSource ≠ 3) ∧ (s.fld Obj.clkCfg 0 { lo := 0, w := 2 } = 1) ∧ (a = 0)) ∧
    (∃ (s : State) (a : Nat) (b : Nats), (s.Quiet) ∧ (s.mode = Mode.boot) ∧ (s.bot.held = false) ∧ (s.bootStage = 4) ∧ (s.imageReason false (s.fwImg s.bot.slot) ≠ 0) ∧ (s.imageReason false (s.fwImg (1 - s.bot.slot)) ≠ 0)) ∧
    (∃ (s : State) (a : Nat) (b : Nats), (s.Quiet) ∧ (s.mode = Mode.boot) ∧ (s.bot.held = false) ∧ (s.bootStage = 5)) ∧
    (∃ (s : State) (a : Nat) (b : Nats), (s.Quiet) ∧ (s.mode = Mode.boot) ∧ (s.bot.held = false) ∧ (s.bootStage = 6)) ∧
    (∃ (s : State) (a : Nat) (b : Nats), (s.Quiet) ∧ (s.mode = Mode.boot) ∧ (s.bot.held = false) ∧ (s.bootStage = 7)) ∧
    (∃ (s : State) (a : Nat) (b : Nats), (s.Quiet) ∧ (s.mode = Mode.boot) ∧ (s.bot.held = false) ∧ (s.bootStage = 8) ∧ (∀ k < 2, s.stack k = 2 ∨ s.stack k = 4)) ∧
    (∃ (s : State) (a : Nat) (b : Nats), (s.Quiet) ∧ (s.mode = Mode.boot) ∧ (s.bot.held = false) ∧ (s.bootStage = 8) ∧ (∃ k < 2, s.stack k ≠ 2 ∧ s.stack k ≠ 4)) ∧
    (∃ (s : State) (a : Nat) (b : Nats), (s.Quiet) ∧ (s.mode = Mode.boot) ∧ (s.bot.held = false) ∧ (s.bootStage = 9)) :=
  ⟨⟨{ wBoot 1 with bot := {held := true} }, 0, [], quiet_of (by decide +kernel), by decide +kernel, by decide +kernel⟩,
   ⟨wBoot 1, 0, [], quiet_of (by decide +kernel), by decide +kernel, by decide +kernel, by decide +kernel⟩,
   ⟨wBoot 2, 0, [], quiet_of (by decide +kernel), by decide +kernel, by decide +kernel, by decide +kernel, by decide +kernel⟩,
   ⟨(wBoot 2).wr Obj.psmPmbusMap 0 (2^39), 1, [], quiet_of (by decide +kernel), by decide +kernel, by decide +kernel, by decide +kernel, by decide +kernel, by decide +kernel⟩,
   ⟨wBoot 3, 0, [], quiet_of (by decide +kernel), by decide +kernel, by decide +kernel, by decide +kernel, by decide +kernel, by decide +kernel⟩,
   ⟨(wBoot 3).wr Obj.clkCfg 0 1, 0, [], quiet_of (by decide +kernel), by decide +kernel, by decide +kernel, by decide +kernel, by decide +kernel, by decide +kernel, by decide +kernel⟩,
   ⟨wBoot 4, 0, [], quiet_of (by decide +kernel), by decide +kernel, by decide +kernel, by decide +kernel, by decide +kernel, by decide +kernel⟩,
   ⟨wBoot 5, 0, [], quiet_of (by decide +kernel), by decide +kernel, by decide +kernel, by decide +kernel⟩,
   ⟨wBoot 6, 5, [], quiet_of (by decide +kernel), by decide +kernel, by decide +kernel, by decide +kernel⟩,
   ⟨wBoot 7, 0, [], quiet_of (by decide +kernel), by decide +kernel, by decide +kernel, by decide +kernel⟩,
   ⟨((wBoot 8).wStack 0 2).wStack 1 2, 0, [], quiet_of (by decide +kernel), by decide +kernel, by decide +kernel, by decide +kernel, by decide +kernel⟩,
   ⟨wBoot 8, 0, [], quiet_of (by decide +kernel), by decide +kernel, by decide +kernel, by decide +kernel, by decide +kernel⟩,
   ⟨wBoot 9, 0, [], quiet_of (by decide +kernel), by decide +kernel, by decide +kernel, by decide +kernel⟩⟩

/-- The hypotheses of each clause of BootWaitsAreServed can be met (clauses of the same hypotheses together). -/
theorem witness_BootWaitsAreServed :
    (∃ (s : State), (s.mode = Mode.boot) ∧ (s.bootStage = 3) ∧ (s.fld Obj.clkState 0 F.clkStateSource = 3)) ∧
    (∃ (s : State) (present : Bool), (s.mode ≠ Mode.boot)) ∧
    (∃ (s : State) (k : Nat) (id : Nat) (ms : Nat), (k < 2) ∧ (id < 2 ^ 16) ∧ (ms < 2 ^ 16) ∧ (s.stack k = 1)) ∧
    (∃ (s : State) (k : Nat) (id : Nat) (ms : Nat) (ok : Bool), (s.stack k ≠ 1)) :=
  ⟨⟨wNoRef, by decide +kernel, by decide +kernel, by decide +kernel⟩,
   ⟨State.reset, true, by decide +kernel⟩,
   ⟨State.reset.wStack 0 1, 0, 7, 16, by decide +kernel, by decide +kernel, by decide +kernel, by decide +kernel⟩,
   ⟨State.reset, 0, 7, 16, true, by decide +kernel⟩⟩

/-- The hypotheses of each clause of ImagesAndKeysAreKept can be met (clauses of the same hypotheses together). -/
theorem witness_ImagesAndKeysAreKept :
    (∃ (s : State) (patch : Bool) (slot : Nat) (id : Nat) (x : Xfer) (w : Waiter), (s.writing (if patch = true then Obj.botPatchImage else Obj.botFwImage) slot = some (id, x)) ∧ (x.validating = true) ∧ (s.Awaits w) ∧ (w.token = Token.xfer id)) ∧
    (∃ (s : State) (n : Nat) (x : Session) (r : ObjRow), (1 < 256 ^ (tyLen r.ty).getD 0) ∧ (Accepts s n x r Obj.botRollbackCommit 0 (toLE ((tyLen r.ty).getD 0) 1) [0])) ∧
    (∃ (s : State) (n : Nat) (x : Session) (r : ObjRow) (k : Nat), (k < 256 ^ (tyLen r.ty).getD 0) ∧ (Accepts s n x r Obj.botKeyRevoke 0 (toLE ((tyLen r.ty).getD 0) k) [0])) ∧
    (∃ (s : State) (n : Nat) (x : Session) (r : ObjRow) (el : Nat) (v : Bytes) (els : List Nat), (Accepts s n x r Obj.secKey el v els)) :=
  ⟨⟨wVal Obj.botPatchImage 1 [] 4, true, 1, 5, ⟨1, Obj.botPatchImage, 1, false, 0, [], 0, true, 0⟩, ⟨.xfer 5, 1, 4, false, 0, 0, none⟩, by decide +kernel, by decide +kernel, awaits_of (by decide +kernel), by decide +kernel⟩,
   ⟨(wIn .idle).setFld Obj.ndlUcodeInfo 0 F.ndlUcodeInfoPatchState 1, 1, wX, wRow Obj.botRollbackCommit, by decide +kernel, accepts_of (by decide +kernel)⟩,
   ⟨wIn .idle, 1, wX, wRow Obj.botKeyRevoke, 2, by decide +kernel, accepts_of (by decide +kernel)⟩,
   ⟨wIn .idle, 1, wX, wRow Obj.secKey, 1, List.replicate 32 7#8, [1], accepts_of (by decide +kernel)⟩⟩

/-- The hypotheses of each clause of TheStoreIsSavedAndRestored can be met (clauses of the same hypotheses together). -/
theorem witness_TheStoreIsSavedAndRestored :
    (∃ (s : State) (n : Nat) (x : Session) (r : ObjRow), (1 < 256 ^ (tyLen r.ty).getD 0) ∧ (Accepts s n x r Obj.devStore 0 (toLE ((tyLen r.ty).getD 0) 1) [0])) ∧
    (∃ (s : State) (n : Nat) (x : Session) (r : ObjRow), (1 < 256 ^ (tyLen r.ty).getD 0) ∧ (Accepts s n x r Obj.devFactoryRestore 0 (toLE ((tyLen r.ty).getD 0) 1) [0])) ∧
    (∃ (s : State) (w : Saving), (s.bot.saving = some w) ∧ (w.ending = rOk)) ∧
    (∃ (s : State) (w : Saving), (s.bot.saving = some w) ∧ (w.ending ≠ rOk) ∧ (w.ending < 65536)) ∧
    (∃ (s : State), (s.bot.saving = none)) :=
  ⟨⟨wIn .idle, 1, wX, wRow Obj.devStore, by decide +kernel, accepts_of (by decide +kernel)⟩,
   ⟨wIn .idle, 1, wX, wRow Obj.devFactoryRestore, by decide +kernel, accepts_of (by decide +kernel)⟩,
   ⟨wSaving, ⟨false, some ⟨[], []⟩, 0⟩, by decide +kernel, by decide +kernel⟩,
   ⟨{ wSaving with bot := { saving := some ⟨false, some ⟨[], []⟩, 9⟩ } }, ⟨false, some ⟨[], []⟩, 9⟩, by decide +kernel, by decide +kernel, by decide +kernel⟩,
   ⟨wS, by decide +kernel⟩⟩

/-- The hypotheses of each clause of ModeRequestsStartTransitions can be met (clauses of the same hypotheses together). -/
theorem witness_ModeRequestsStartTransitions :
    (∃ (s : State) (n : Nat) (x : Session) (r : ObjRow) (p : Nat × Instr), (p ∈ [(1, Instr.requestBoot n), (2, Instr.requestSafe n), (3, Instr.requestIdle n), (4, Instr.requestDoze n), (5, Instr.requestArmed n), (6, Instr.requestRun n), (7, Instr.requestHold n), (8, Instr.requestMeasure n), (9, Instr.requestCalibrate n)]) ∧ (p.1 < 256 ^ (tyLen r.ty).getD 0) ∧ (Accepts s n x r Obj.devModeReq 0 (toLE ((tyLen r.ty).getD 0) p.1) [0]) ∧ ((s.touch n x).inTransition = false) ∧ (p.1 = (s.touch n x).mode.code)) ∧
    (∃ (s : State) (n : Nat) (x : Session) (r : ObjRow) (p : Nat × Instr), (p ∈ [(1, Instr.requestBoot n), (3, Instr.requestIdle n), (4, Instr.requestDoze n), (8, Instr.requestMeasure n), (9, Instr.requestCalibrate n)]) ∧ (p.1 < 256 ^ (tyLen r.ty).getD 0) ∧ (Accepts s n x r Obj.devModeReq 0 (toLE ((tyLen r.ty).getD 0) p.1) [0]) ∧ ((s.touch n x).inTransition = false) ∧ (p.1 ≠ (s.touch n x).mode.code) ∧ (¬((s.touch n x).mode = Mode.run ∨ (s.touch n x).mode = Mode.hold))) ∧
    (∃ (s : State) (n : Nat) (x : Session) (r : ObjRow) (p : Nat × Instr), (p ∈ [(3, Instr.requestIdle n), (5, Instr.requestArmed n)]) ∧ (p.1 < 256 ^ (tyLen r.ty).getD 0) ∧ (Accepts s n x r Obj.devModeReq 0 (toLE ((tyLen r.ty).getD 0) p.1) [0]) ∧ ((s.touch n x).inTransition = false) ∧ ((s.touch n x).mode = Mode.run)) ∧
    (∃ (s : State) (n : Nat) (x : Session) (r : ObjRow), (6 < 256 ^ (tyLen r.ty).getD 0) ∧ (Accepts s n x r Obj.devModeReq 0 (toLE ((tyLen r.ty).getD 0) 6) [0]) ∧ ((s.touch n x).inTransition = false) ∧ ((s.touch n x).mode ≠ Mode.run)) ∧
    (∃ (s : State) (n : Nat) (x : Session) (r : ObjRow), (7 < 256 ^ (tyLen r.ty).getD 0) ∧ (Accepts s n x r Obj.devModeReq 0 (toLE ((tyLen r.ty).getD 0) 7) [0]) ∧ ((s.touch n x).inTransition = false) ∧ ((s.touch n x).mode = Mode.run) ∧ ((s.touch n x).anyRunning = true)) ∧
    (∃ (s : State) (n : Nat) (x : Session) (r : ObjRow), (5 < 256 ^ (tyLen r.ty).getD 0) ∧ (Accepts s n x r Obj.devModeReq 0 (toLE ((tyLen r.ty).getD 0) 5) [0]) ∧ ((s.touch n x).inTransition = false) ∧ ((s.touch n x).mode = Mode.idle) ∧ ((s.touch n x).plc.arming = none)) ∧
    (∃ (s : State) (n : Nat) (x : Session) (r : ObjRow), (2 < 256 ^ (tyLen r.ty).getD 0) ∧ (Accepts s n x r Obj.devModeReq 0 (toLE ((tyLen r.ty).getD 0) 2) [0]) ∧ ((s.touch n x).mode = Mode.boot) ∧ ((s.touch n x).safeWanted = false)) ∧
    (∃ (s : State) (n : Nat) (x : Session) (r : ObjRow), (2 < 256 ^ (tyLen r.ty).getD 0) ∧ (Accepts s n x r Obj.devModeReq 0 (toLE ((tyLen r.ty).getD 0) 2) [0]) ∧ ((s.touch n x).mode ≠ Mode.boot) ∧ ((s.touch n x).mode ≠ Mode.safe) ∧ ((s.touch n x).psm.plan = none) ∧ ((s.touch n x).fcr.entry = none)) ∧
    (∃ (s : State) (n : Nat) (x : Session) (r : ObjRow), (2 < 256 ^ (tyLen r.ty).getD 0) ∧ (Accepts s n x r Obj.devModeReq 0 (toLE ((tyLen r.ty).getD 0) 2) [0]) ∧ ((s.touch n x).mode ≠ Mode.boot) ∧ ((s.touch n x).mode ≠ Mode.safe) ∧ ((s.touch n x).psm.plan ≠ none)) :=
  ⟨⟨wIn .idle, 1, wX, wRow Obj.devModeReq, (3, .requestIdle 1), by decide +kernel, by decide +kernel, accepts_of (by decide +kernel), by decide +kernel, by decide +kernel⟩,
   ⟨wIn .idle, 1, wX, wRow Obj.devModeReq, (4, .requestDoze 1), by decide +kernel, by decide +kernel, accepts_of (by decide +kernel), by decide +kernel, by decide +kernel, by decide +kernel⟩,
   ⟨wNdlIn .run 4, 1, wX, wRow Obj.devModeReq, (3, .requestIdle 1), by decide +kernel, by decide +kernel, accepts_of (by decide +kernel), by decide +kernel, by decide +kernel⟩,
   ⟨wNdlIn .armed 2, 1, wX, wRow Obj.devModeReq, by decide +kernel, accepts_of (by decide +kernel), by decide +kernel, by decide +kernel⟩,
   ⟨wNdlIn .run 4, 1, wX, wRow Obj.devModeReq, by decide +kernel, accepts_of (by decide +kernel), by decide +kernel, by decide +kernel, by decide +kernel⟩,
   ⟨wOnIn .idle, 1, wX, wRow Obj.devModeReq, by decide +kernel, accepts_of (by decide +kernel), by decide +kernel, by decide +kernel, by decide +kernel⟩,
   ⟨wUp.wr Obj.devMode 0 1, 1, wX, wRow Obj.devModeReq, by decide +kernel, accepts_of (by decide +kernel), by decide +kernel, by decide +kernel⟩,
   ⟨wIn .idle, 1, wX, wRow Obj.devModeReq, by decide +kernel, accepts_of (by decide +kernel), by decide +kernel, by decide +kernel, by decide +kernel, by decide +kernel⟩,
   ⟨{ wIn .idle with psm := { plan := some (3, false, 1, 0xFFFF) } }, 1, wX, wRow Obj.devModeReq, by decide +kernel, accepts_of (by decide +kernel), by decide +kernel, by decide +kernel, by decide +kernel⟩⟩

/-- The hypotheses of each clause of TransitionsComplete can be met (clauses of the same hypotheses together). -/
theorem witness_TransitionsComplete :
    (∃ (s : State), (s.Quiet) ∧ (s.trans = none)) ∧
    (∃ (s : State) (x : Machine.Trans) (d : Nat), (s.Quiet) ∧ (s.trans = some x) ∧ (x.due = some d) ∧ (x.target = Mode.boot.code)) ∧
    (∃ (s : State) (x : Machine.Trans) (d : Nat), (s.Quiet) ∧ (s.trans = some x) ∧ (x.due = some d) ∧ (x.target = Mode.idle.code)) ∧
    (∃ (s : State) (x : Machine.Trans) (d : Nat), (s.Quiet) ∧ (s.trans = some x) ∧ (x.due = some d) ∧ (x.target = Mode.doze.code)) ∧
    (∃ (s : State) (x : Machine.Trans) (d : Nat), (s.Quiet) ∧ (s.trans = some x) ∧ (x.due = some d) ∧ (x.target = Mode.measure.code)) ∧
    (∃ (s : State) (x : Machine.Trans) (d : Nat), (s.Quiet) ∧ (s.trans = some x) ∧ (x.due = some d) ∧ (x.target = Mode.calibrate.code)) ∧
    (∃ (s : State) (x : Machine.Trans) (d : Nat), (s.Quiet) ∧ (s.trans = some x) ∧ (x.due = some d) ∧ (x.target = Mode.armed.code)) ∧
    (∃ (s : State) (x : Machine.Trans) (d : Nat), (s.Quiet) ∧ (s.trans = some x) ∧ (x.due = some d) ∧ (x.target = 6) ∧ (x.source = 7)) ∧
    (∃ (s : State) (x : Machine.Trans) (d : Nat), (s.Quiet) ∧ (s.trans = some x) ∧ (x.due = some d) ∧ (x.target = 6) ∧ (x.source = 5) ∧ ((s.reach d).qualifies (needles s.hasChart) = true) ∧ (needles s.hasChart ≠ [])) ∧
    (∃ (s : State) (x : Machine.Trans) (d : Nat), (s.Quiet) ∧ (s.trans = some x) ∧ (x.due = some d) ∧ (x.target = 6) ∧ (x.source = 5) ∧ ((s.reach d).qualifies (needles s.hasChart) = false)) :=
  ⟨⟨wIn .idle, quiet_of (by decide +kernel), by decide +kernel⟩,
   ⟨(wIn .safe).wTrans 2 1 1 (some 0), ⟨2, 1, 1, some 0⟩, 0, quiet_of (by decide +kernel), by decide +kernel, by decide +kernel, by decide +kernel⟩,
   ⟨(wOnIn .safe).wTrans 2 3 1 (some 9), ⟨2, 3, 1, some 9⟩, 9, quiet_of (by decide +kernel), by decide +kernel, by decide +kernel, by decide +kernel⟩,
   ⟨((wOnIn .idle).wStack 0 2).wTrans 3 4 1 (some 9), ⟨3, 4, 1, some 9⟩, 9, quiet_of (by decide +kernel), by decide +kernel, by decide +kernel, by decide +kernel⟩,
   ⟨(wOnIn .idle).wTrans 3 8 1 (some 9), ⟨3, 8, 1, some 9⟩, 9, quiet_of (by decide +kernel), by decide +kernel, by decide +kernel, by decide +kernel⟩,
   ⟨(wOnIn .idle).wTrans 3 9 1 (some 9), ⟨3, 9, 1, some 9⟩, 9, quiet_of (by decide +kernel), by decide +kernel, by decide +kernel, by decide +kernel⟩,
   ⟨(wNdlIn .run 8).wTrans 6 5 1 (some 9), ⟨6, 5, 1, some 9⟩, 9, quiet_of (by decide +kernel), by decide +kernel, by decide +kernel, by decide +kernel⟩,
   ⟨(wNdlIn .hold 6).wTrans 7 6 1 (some 9), ⟨7, 6, 1, some 9⟩, 9, quiet_of (by decide +kernel), by decide +kernel, by decide +kernel, by decide +kernel, by decide +kernel⟩,
   ⟨(wNdlIn .armed 2).wTrans 5 6 1 (some 9), ⟨5, 6, 1, some 9⟩, 9, quiet_of (by decide +kernel), by decide +kernel, by decide +kernel, by decide +kernel, by decide +kernel, by decide +kernel, by decide +kernel⟩,
   ⟨(wNdlIn .armed 3).wTrans 5 6 1 (some 9), ⟨5, 6, 1, some 9⟩, 9, quiet_of (by decide +kernel), by decide +kernel, by decide +kernel, by decide +kernel, by decide +kernel, by decide +kernel⟩⟩

/-- The hypotheses of each clause of ArmingEnds can be met (clauses of the same hypotheses together). -/
theorem witness_ArmingEnds :
    (∃ (s : State) (w : Waiter) (q : Report), (s.plc.arming ≠ none) ∧ (s.Awaits w) ∧ (w.token = Token.arming) ∧ (s.admission s.residence = some q)) ∧
    (∃ (s : State) (w : Waiter), (s.plc.arming ≠ none) ∧ (s.Awaits w) ∧ (w.token = Token.arming) ∧ (s.admission s.residence = none)) ∧
    (∃ (s : State), (s.Quiet) ∧ (s.plc.arming = none)) ∧
    (∃ (s : State) (x : Machine.Trans), (s.Quiet) ∧ (s.trans = some x) ∧ (x.target = 5) ∧ (s.rd Obj.plcState 0 = 1) ∧ (s.plc.arming = none)) ∧
    (∃ (s : State), (s.Quiet) ∧ (s.trans = none)) ∧
    (∃ (s : State) (h : Nat) (k : Nat), (s.plc.copying = some (segKey h k))) ∧
    (∃ (s : State) (h : Nat) (k : Nat), (s.plc.copying ≠ some (segKey h k))) :=
  ⟨⟨wArming.wNdl 1, ⟨.arming, 1, 2, false, 0, 0, none⟩, { cond := 1, needle := 0, chart := 7 }, by decide +kernel, awaits_of (by decide +kernel), by decide +kernel, by decide +kernel⟩,
   ⟨wArming.wr Obj.cccState 2 2, ⟨.arming, 1, 2, false, 0, 0, none⟩, by decide +kernel, awaits_of (by decide +kernel), by decide +kernel, by decide +kernel⟩,
   ⟨wS, quiet_of (by decide +kernel), by decide +kernel⟩,
   ⟨{ wArming.wNdl 1 with waiters := [], plc := {} }, ⟨3, 5, 1, none⟩, quiet_of (by decide +kernel), by decide +kernel, by decide +kernel, by decide +kernel, by decide +kernel⟩,
   ⟨wS, quiet_of (by decide +kernel), by decide +kernel⟩,
   ⟨{ wNdlIn .run 4 with plc := { copying := some (segKey 7 1) } }, 7, 1, by decide +kernel⟩,
   ⟨wS, 7, 1, by decide +kernel⟩⟩

/-- The hypotheses of each clause of SafeAndDumpAreEntered can be met (clauses of the same hypotheses together). -/
theorem witness_SafeAndDumpAreEntered :
    (∃ (s : State) (e : Nat) (dump : Bool) (reason : Nat) (src : Nat), (s.Quiet) ∧ (s.fcr.entry = some (e, dump, reason, src)) ∧ (dump = false) ∧ (s.mode ≠ Mode.cold) ∧ (s.mode ≠ Mode.dump) ∧ (s.mode ≠ Mode.boot) ∧ (s.mode ≠ Mode.safe) ∧ (s.psm.plan = none)) ∧
    (∃ (s : State) (e : Nat) (dump : Bool) (reason : Nat) (src : Nat), (s.Quiet) ∧ (s.fcr.entry = some (e, dump, reason, src)) ∧ (dump = true) ∧ (s.mode ≠ Mode.cold) ∧ (s.mode ≠ Mode.dump) ∧ (src < 2 ^ 16)) ∧
    (∃ (s : State) (e : Nat) (dump : Bool) (reason : Nat) (src : Nat), (s.Quiet) ∧ (s.fcr.entry = some (e, dump, reason, src)) ∧ (s.mode = Mode.dump)) ∧
    (∃ (s : State), (s.Quiet) ∧ (s.fcr.entry = none)) ∧
    (∃ (s : State) (st : Nat) (d : Nat), (s.Quiet) ∧ (s.psm.ramp = some (st, d)) ∧ (s.stageDone st = true)) ∧
    (∃ (s : State) (st : Nat) (d : Nat), (s.Quiet) ∧ (s.psm.ramp = some (st, d)) ∧ (s.stageDone st = false)) ∧
    (∃ (s : State) (st : Nat) (d : Nat), (s.Quiet) ∧ (s.psm.ramp = some (st, d))) ∧
    (∃ (s : State), (s.Quiet) ∧ (s.psm.ramp = none)) :=
  ⟨⟨{ wNdlIn .run 4 with fcr := { entry := some (9, false, 1, 0xFFFF) } }, 9, false, 1, 0xFFFF, quiet_of (by decide +kernel), by decide +kernel, by decide +kernel, by decide +kernel, by decide +kernel, by decide +kernel, by decide +kernel, by decide +kernel⟩,
   ⟨{ wNdlIn .run 4 with fcr := { entry := some (9, true, 8, 240) } }, 9, true, 8, 240, quiet_of (by decide +kernel), by decide +kernel, by decide +kernel, by decide +kernel, by decide +kernel, by decide +kernel⟩,
   ⟨{ wIn .dump with fcr := { entry := some (9, true, 8, 240) } }, 9, true, 8, 240, quiet_of (by decide +kernel), by decide +kernel, by decide +kernel⟩,
   ⟨wS, quiet_of (by decide +kernel), by decide +kernel⟩,
   ⟨{ wOnIn .idle with psm := { plan := some (6, false, 1, 0xFFFF), ramp := some (0, 100) } }, 0, 100, quiet_of (by decide +kernel), by decide +kernel, by decide +kernel⟩,
   ⟨{ (wOnIn .idle).wr Obj.splState 1 3 with psm := { plan := some (6, false, 1, 0xFFFF), ramp := some (0, 100) } }, 0, 100, quiet_of (by decide +kernel), by decide +kernel, by decide +kernel⟩,
   ⟨{ wOnIn .idle with psm := { plan := some (6, false, 1, 0xFFFF), ramp := some (0, 100) } }, 0, 100, quiet_of (by decide +kernel), by decide +kernel⟩,
   ⟨wS, quiet_of (by decide +kernel), by decide +kernel⟩⟩

/-- The hypotheses of each clause of LineDisturbancesAreRidden can be met (clauses of the same hypotheses together). -/
theorem witness_LineDisturbancesAreRidden :
    (∃ (s : State) (bulk : Bool), (s.Quiet) ∧ (s.psm.line = false) ∧ (if bulk = true then s.bulkLow = true else s.fld Obj.psmLineCfg 0 F.psmLineCfgLinewarnEn = 1) ∧ (s.mode = Mode.safe)) ∧
    (∃ (s : State) (bulk : Bool), (s.Quiet) ∧ (s.psm.line = false) ∧ (if bulk = true then s.bulkLow = true else s.fld Obj.psmLineCfg 0 F.psmLineCfgLinewarnEn = 1) ∧ (s.mode = Mode.ridethru)) ∧
    (∃ (s : State) (bulk : Bool), (s.Quiet) ∧ (s.psm.line = false) ∧ (if bulk = true then s.bulkLow = true else s.fld Obj.psmLineCfg 0 F.psmLineCfgLinewarnEn = 1) ∧ (s.mode ≠ Mode.cold) ∧ (s.mode ≠ Mode.boot) ∧ (s.mode ≠ Mode.safe) ∧ (s.mode ≠ Mode.dump) ∧ (s.mode ≠ Mode.ridethru) ∧ (s.safeGoing = false)) ∧
    (∃ (s : State) (r : Int) (k : Nat), (s.Quiet) ∧ (s.psm.ride = some r) ∧ ((List.filter (fun k => decide (s.fld Obj.psmLineStatus 0 F.psmLineStatusNext ≤ k) && (s.planEntry k).2.1 != 0) (List.range 16)).head? = some k)) ∧
    (∃ (s : State), (s.Quiet) ∧ (s.psm.ride = none)) ∧
    (∃ (s : State) (r : Int), (s.Quiet) ∧ (s.psm.ride = some r) ∧ (s.fld Obj.psmLineStatus 0 F.psmLineStatusState = 1)) ∧
    (∃ (s : State) (r : Int), (s.Quiet) ∧ (s.psm.ride = some r) ∧ (s.fld Obj.psmLineStatus 0 F.psmLineStatusState ≠ 1)) ∧
    (∃ (s : State) (r : Int), (s.Quiet) ∧ (s.psm.ride = some r) ∧ (s.now < rideAt r (s.fld Obj.psmRidethruPlan 0 F.psmRidethruPlanCommit)) ∧ (s.bulkLow = false) ∧ (s.fld Obj.psmLineStatus 0 F.psmLineStatusState = 1)) ∧
    (∃ (s : State), (s.Quiet) ∧ (s.bulkLow = true)) ∧
    (∃ (s : State), (s.Quiet) ∧ (s.bulkLow = false) ∧ (s.psm.ride = none)) :=
  ⟨⟨wBulk (wIn .safe), true, quiet_of (by decide +kernel), by decide +kernel, by decide +kernel, by decide +kernel⟩,
   ⟨wBulk (wIn .ridethru), true, quiet_of (by decide +kernel), by decide +kernel, by decide +kernel, by decide +kernel⟩,
   ⟨wBulk (wNdlIn .run 4), true, quiet_of (by decide +kernel), by decide +kernel, by decide +kernel, by decide +kernel, by decide +kernel, by decide +kernel, by decide +kernel, by decide +kernel, by decide +kernel⟩,
   ⟨{ (wNdlIn .ridethru 4).setFld Obj.psmRidethruPlan 0 ⟨64, 64⟩ (10 + 2^32 + 2^48) with psm := { ride := some 0, line := true } }, 0, 0, quiet_of (by decide +kernel), by decide +kernel, by decide +kernel⟩,
   ⟨wS, quiet_of (by decide +kernel), by decide +kernel⟩,
   ⟨({ (wNdlIn .ridethru 4).setFld Obj.psmRidethruPlan 0 F.psmRidethruPlanCommit 10 with psm := { ride := some 0, line := true } } : State).setFld Obj.psmLineStatus 0 F.psmLineStatusState 1, 0, quiet_of (by decide +kernel), by decide +kernel, by decide +kernel⟩,
   ⟨{ wNdlIn .ridethru 4 with psm := { ride := some 0, line := true } }, 0, quiet_of (by decide +kernel), by decide +kernel, by decide +kernel⟩,
   ⟨({ (wNdlIn .ridethru 4).setFld Obj.psmRidethruPlan 0 F.psmRidethruPlanCommit 10 with psm := { ride := some 0, line := true } } : State).setFld Obj.psmLineStatus 0 F.psmLineStatusState 1, 0, quiet_of (by decide +kernel), by decide +kernel, by decide +kernel, by decide +kernel, by decide +kernel⟩,
   ⟨wBulk (wIn .safe), quiet_of (by decide +kernel), by decide +kernel⟩,
   ⟨{ wIn .safe with psm := { line := true } }, quiet_of (by decide +kernel), by decide +kernel, by decide +kernel⟩⟩

/-- The hypotheses of each clause of ReadsAndWritesAreAnswered can be met (clauses of the same hypotheses together). -/
theorem witness_ReadsAndWritesAreAnswered :
    (∃ (s : State) (n : Nat) (ix : Nat) (el : Nat) (v : Bytes), (s.session n = none)) ∧
    (∃ (s : State) (n : Nat) (ix : Nat) (el : Nat) (x : Session) (c : Nat) (els : List Nat), (s.Opened n x) ∧ (c ≠ rOk) ∧ ((s.touch n x).readCheck x.level ix el = (c, els))) ∧
    (∃ (s : State) (n : Nat) (ix : Nat) (el : Nat) (x : Session) (r : ObjRow) (e0 : Nat) (rest : List Nat), (s.Opened n x) ∧ (objRow ix = some r) ∧ ((s.touch n x).readCheck x.level ix el = (rOk, e0 :: rest)) ∧ ((s.touch n x).fwServed r = false)) ∧
    (∃ (s : State) (n : Nat) (ix : Nat) (el : Nat) (x : Session) (r : ObjRow) (e0 : Nat) (rest : List Nat), (s.Opened n x) ∧ (objRow ix = some r) ∧ ((s.touch n x).readCheck x.level ix el = (rOk, e0 :: rest)) ∧ ((s.touch n x).fwServed r = true) ∧ (((s.touch n x).enqueue 88 0 3).1 = true)) ∧
    (∃ (s : State) (n : Nat) (ix : Nat) (el : Nat) (x : Session) (r : ObjRow) (e0 : Nat) (rest : List Nat), (s.Opened n x) ∧ (objRow ix = some r) ∧ ((s.touch n x).readCheck x.level ix el = (rOk, e0 :: rest)) ∧ ((s.touch n x).fwServed r = true) ∧ (((s.touch n x).enqueue 88 0 3).1 = false)) ∧
    (∃ (s : State) (n : Nat) (ix : Nat) (el : Nat) (x : Session) (r : ObjRow) (e0 : Nat) (rest : List Nat) (u : State) (k : Nat), (s.Opened n x) ∧ (objRow ix = some r) ∧ ((s.touch n x).readCheck x.level ix el = (rOk, e0 :: rest)) ∧ (u.Awaits { token := Token.fw k, session := n, service := 1, inFrame := false, dlen := 0, off := 0, mcast := none }) ∧ (∀ e ∈ rest, { u with waiters := [] }.readBytes ix e = { u with waiters := [] }.readBytes ix e0)) ∧
    (∃ (s : State) (n : Nat) (ix : Nat) (el : Nat) (x : Session) (r : ObjRow) (e0 : Nat) (rest : List Nat) (u : State) (k : Nat), (s.Opened n x) ∧ (objRow ix = some r) ∧ ((s.touch n x).readCheck x.level ix el = (rOk, e0 :: rest)) ∧ (u.Awaits { token := Token.fw k, session := n, service := 1, inFrame := false, dlen := 0, off := 0, mcast := none }) ∧ (∃ e ∈ rest, { u with waiters := [] }.readBytes ix e ≠ { u with waiters := [] }.readBytes ix e0)) ∧
    (∃ (s : State) (n : Nat) (ix : Nat) (el : Nat) (x : Session) (r : ObjRow) (e0 : Nat) (rest : List Nat) (u : State) (k : Nat), (s.Opened n x) ∧ (objRow ix = some r) ∧ ((s.touch n x).readCheck x.level ix el = (rOk, e0 :: rest)) ∧ (u.Awaits { token := Token.fw k, session := n, service := 1, inFrame := false, dlen := 0, off := 0, mcast := none })) ∧
    (∃ (s : State) (n : Nat) (ix : Nat) (el : Nat) (x : Session) (v : Bytes) (c : Nat) (els : List Nat), (s.Opened n x) ∧ (c ≠ rOk) ∧ ((s.touch n x).writeCheck x.level ix el v = (c, els))) ∧
    (∃ (s : State) (n : Nat) (ix : Nat) (el : Nat) (x : Session) (r : ObjRow) (v : Bytes) (pre : List Nat) (post : List Nat) (m : Nat) (c : Nat), (s.Opened n x) ∧ (objRow ix = some r) ∧ ((s.touch n x).writeCheck x.level ix el v = (rOk, pre ++ m :: post)) ∧ (∀ k ∈ pre, (s.touch n x).memberReason { session := n, level := x.level, port := x.port } r (pre ++ m :: post) (ofLE v) k = rOk) ∧ ((s.touch n x).memberReason { session := n, level := x.level, port := x.port } r (pre ++ m :: post) (ofLE v) m = c) ∧ (c ≠ rOk)) ∧
    (∃ (s : State) (n : Nat) (ix : Nat) (el : Nat) (x : Session) (r : ObjRow) (v : Bytes) (els : List Nat), (s.Opened n x) ∧ (Accepts s n x r ix el v els) ∧ (unstored ix = false) ∧ (isStaged ix = false) ∧ (ix ∉ [Obj.devStore, Obj.devFactoryRestore, Obj.secSessionClose, Obj.clkStartAt, Obj.clkCancelStart, Obj.ptpCfg, Obj.ptpServoCfg, Obj.ptpNtSet, Obj.ptpNtAdj, Obj.cslAlign, Obj.cslLaneTest, Obj.botRollbackCommit, Obj.botKeyRevoke, Obj.splEnable, Obj.adcSyscal, Obj.adcOwTest, Obj.wdpStatsClear, Obj.fcrClear, Obj.fcrFirstClear, Obj.fcrInject, Obj.dmpClear, Obj.dmpSummaryClear, Obj.ndlChartDelete, Obj.ptfWaveDelete, Obj.strFlush, Obj.lvlHostCmd, Obj.rqpFlush, Obj.taeArm, Obj.taeForce, Obj.tmuCtrl, Obj.tmuXtalAgeing, Obj.calCtrl, Obj.plcMigrate, Obj.rasCommit, Obj.rasBufferRelease, Obj.wdpTraceCtrl, Obj.ptfPinCfg]) ∧ (r.ty = ObjTy.command → ofLE v ≠ 0)) :=
  ⟨⟨wS, 2, Obj.devMode, 0, [], by decide +kernel⟩,
   ⟨wIn .idle, 1, Obj.devMode, 7, wX, rNoElem, [], opened_of (by decide +kernel), by decide +kernel, by decide +kernel⟩,
   ⟨wIn .idle, 1, Obj.devMode, 0, wX, wRow Obj.devMode, 0, [], opened_of (by decide +kernel), by decide +kernel, by decide +kernel, by decide +kernel⟩,
   ⟨wIn .doze, 1, Obj.devMode, 0, wX, wRow Obj.devMode, 0, [], opened_of (by decide +kernel), by decide +kernel, by decide +kernel, by decide +kernel, by decide +kernel⟩,
   ⟨{ wIn .doze with ready := List.replicate 65536 ⟨7, 3, 0, 0⟩ }, 1, Obj.devMode, 0, wX, wRow Obj.devMode, 0, [], opened_of (by decide +kernel), by decide +kernel, by decide +kernel, by decide +kernel, by decide +kernel⟩,
   ⟨wIn .doze, 1, Obj.devMode, 0, wX, wRow Obj.devMode, 0, [], { wIn .doze with waiters := [⟨.fw 3, 1, 1, false, 0, 0, none⟩] }, 3, opened_of (by decide +kernel), by decide +kernel, by decide +kernel, awaits_of (by decide +kernel), by decide +kernel⟩,
   ⟨(wIn .idle).wr Obj.odeGroupNeedle 0 3, 1, Obj.ndlChart, 0xFE00, wX, wRow Obj.ndlChart, 0, [1], { (wOnIn .idle).wr Obj.ndlChart 1 7 with waiters := [⟨.fw 3, 1, 1, false, 0, 0, none⟩] }, 3, opened_of (by decide +kernel), by decide +kernel, by decide +kernel, awaits_of (by decide +kernel), by decide +kernel⟩,
   ⟨wIn .doze, 1, Obj.devMode, 0, wX, wRow Obj.devMode, 0, [], { wIn .doze with waiters := [⟨.fw 3, 1, 1, false, 0, 0, none⟩] }, 3, opened_of (by decide +kernel), by decide +kernel, by decide +kernel, awaits_of (by decide +kernel)⟩,
   ⟨wIn .idle, 1, Obj.devMode, 0, wX, [], rAccess, [0], opened_of (by decide +kernel), by decide +kernel, by decide +kernel⟩,
   ⟨wIn .idle, 1, Obj.devModeReq, 0, wX, wRow Obj.devModeReq, [6#8], [], [], 0, rMode, opened_of (by decide +kernel), by decide +kernel, by decide +kernel, by decide +kernel, by decide +kernel, by decide +kernel⟩,
   ⟨wIn .idle, 1, Obj.devHeadPosition, 0, wX, wRow Obj.devHeadPosition, [6#8], [0], opened_of (by decide +kernel), accepts_of (by decide +kernel), by decide +kernel, by decide +kernel, by decide +kernel, by decide +kernel⟩⟩

/-- The hypotheses of each clause of TransfersCarryBytes can be met (clauses of the same hypotheses together). -/
theorem witness_TransfersCarryBytes :
    (∃ (s : State) (n : Nat) (x : Session) (ix : Nat) (el : Nat) (total : Nat), (s.Opened n x) ∧ ((s.touch n x).domainCheck x.level false ix el = rOk) ∧ ((s.touch n x).post89.1 = true) ∧ (firstReason ((s.carried n x).xferCond n :: (s.carried n x).domainWriteCond ix el total) = rOk)) ∧
    (∃ (s : State) (n : Nat) (x : Session) (ix : Nat) (el : Nat) (total : Nat), (s.Opened n x) ∧ ((s.touch n x).domainCheck x.level true ix el = rOk) ∧ ((s.touch n x).post89.1 = true) ∧ (firstReason ((s.carried n x).xferCond n :: (s.carried n x).domainReadCond ix el) = rOk)) ∧
    (∃ (s : State) (n : Nat) (x : Session) (id : Nat) (dlen : Nat) (off : Nat) (d : Bytes), (s.Opened n x) ∧ (s.xfer id = none)) ∧
    (∃ (s : State) (n : Nat) (x : Session) (id : Nat) (dlen : Nat) (off : Nat) (y : Xfer), (s.Opened n x) ∧ (s.xfer id = some y) ∧ (y.session = n) ∧ ((s.touch n x).post89.1 = true) ∧ (y.read = true) ∧ ((s.carried n x).readEnded { session := y.session, ix := y.ix, el := y.el, read := y.read, total := y.total, data := y.data, last := s.now, validating := y.validating, ended := y.ended } = 0)) ∧
    (∃ (s : State) (n : Nat) (x : Session) (id : Nat) (dlen : Nat) (off : Nat) (y : Xfer) (d : Bytes), (s.Opened n x) ∧ (s.xfer id = some y) ∧ (y.session = n) ∧ ((s.touch n x).post89.1 = true) ∧ (List.length d = dlen) ∧ (y.read = false) ∧ (y.validating = false) ∧ (off ≠ List.length y.data)) ∧
    (∃ (s : State) (n : Nat) (x : Session) (id : Nat) (dlen : Nat) (off : Nat) (y : Xfer) (d : Bytes), (s.Opened n x) ∧ (s.xfer id = some y) ∧ (y.session = n) ∧ ((s.touch n x).post89.1 = true) ∧ (List.length d = dlen) ∧ (y.read = false) ∧ (y.validating = false) ∧ (off = List.length y.data) ∧ (off + dlen < y.total)) ∧
    (∃ (s : State) (n : Nat) (x : Session) (id : Nat) (dlen : Nat) (off : Nat) (y : Xfer) (d : Bytes), (s.Opened n x) ∧ (s.xfer id = some y) ∧ (y.session = n) ∧ ((s.touch n x).post89.1 = true) ∧ (List.length d = dlen) ∧ (y.read = false) ∧ (y.validating = false) ∧ (off = List.length y.data) ∧ (off + dlen = y.total) ∧ (validated y.ix = true)) ∧
    (∃ (s : State) (n : Nat) (x : Session) (id : Nat) (dlen : Nat) (off : Nat) (y : Xfer) (d : Bytes), (s.Opened n x) ∧ (s.xfer id = some y) ∧ (y.session = n) ∧ ((s.touch n x).post89.1 = true) ∧ (List.length d = dlen) ∧ (y.read = false) ∧ (y.validating = false) ∧ (off = List.length y.data) ∧ (off + dlen = y.total) ∧ (y.ix ∉ [Obj.ndlChartImage, Obj.ptfWaveTable, Obj.botFwImage, Obj.botPatchImage, Obj.cslMsgSend, Obj.calFixture, Obj.rasBuffer])) ∧
    (∃ (s : State) (n : Nat) (x : Session) (id : Nat) (y : Xfer), (s.Opened n x) ∧ (s.xfer id = some y) ∧ (y.session = n)) ∧
    (∃ (s : State) (n : Nat) (x : Session) (id : Nat) (y : Xfer), (s.Opened n x) ∧ (s.xfer id = some y) ∧ (y.validating = false)) ∧
    (∃ (s : State) (n : Nat) (x : Session) (id : Nat), (s.Opened n x) ∧ (s.xfer id = none)) :=
  ⟨⟨wOnIn .idle, 1, wX, Obj.ndlChartImage, 7, 256, opened_of (by decide +kernel), by decide +kernel, by decide +kernel, by decide +kernel⟩,
   ⟨wNdlIn .idle 1, 1, wX, Obj.ndlChartImage, 7, 0, opened_of (by decide +kernel), by decide +kernel, by decide +kernel, by decide +kernel⟩,
   ⟨wS, 1, wX, 5, 4, 0, [], opened_of (by decide +kernel), by decide +kernel⟩,
   ⟨wXfers, 1, wX, 5, 8, 0, ⟨1, Obj.ndlChartImage, 7, true, 8, toLE 8 5, 0, false, 0⟩, opened_of (by decide +kernel), by decide +kernel, by decide +kernel, by decide +kernel, by decide +kernel, by decide +kernel⟩,
   ⟨wXfers, 1, wX, 6, 4, 0, ⟨1, Obj.ptfWaveTable, 1, false, 8, toLE 4 1, 0, false, 0⟩, toLE 4 2, opened_of (by decide +kernel), by decide +kernel, by decide +kernel, by decide +kernel, by decide +kernel, by decide +kernel, by decide +kernel, by decide +kernel⟩,
   ⟨wXfers, 1, wX, 6, 2, 4, ⟨1, Obj.ptfWaveTable, 1, false, 8, toLE 4 1, 0, false, 0⟩, toLE 2 2, opened_of (by decide +kernel), by decide +kernel, by decide +kernel, by decide +kernel, by decide +kernel, by decide +kernel, by decide +kernel, by decide +kernel, by decide +kernel⟩,
   ⟨wXfers, 1, wX, 6, 4, 4, ⟨1, Obj.ptfWaveTable, 1, false, 8, toLE 4 1, 0, false, 0⟩, toLE 4 2, opened_of (by decide +kernel), by decide +kernel, by decide +kernel, by decide +kernel, by decide +kernel, by decide +kernel, by decide +kernel, by decide +kernel, by decide +kernel, by decide +kernel⟩,
   ⟨wKept, 1, wX, 6, 4, 4, ⟨1, Obj.ptfDatalog, 0, false, 8, toLE 4 1, 0, false, 0⟩, toLE 4 2, opened_of (by decide +kernel), by decide +kernel, by decide +kernel, by decide +kernel, by decide +kernel, by decide +kernel, by decide +kernel, by decide +kernel, by decide +kernel, by decide +kernel⟩,
   ⟨wXfers, 1, wX, 5, ⟨1, Obj.ndlChartImage, 7, true, 8, toLE 8 5, 0, false, 0⟩, opened_of (by decide +kernel), by decide +kernel, by decide +kernel⟩,
   ⟨wXfers, 1, wX, 5, ⟨1, Obj.ndlChartImage, 7, true, 8, toLE 8 5, 0, false, 0⟩, opened_of (by decide +kernel), by decide +kernel, by decide +kernel⟩,
   ⟨wS, 1, wX, 5, opened_of (by decide +kernel), by decide +kernel⟩⟩

/-- The hypotheses of each clause of SkeinsAreStreamed can be met (clauses of the same hypotheses together). -/
theorem witness_SkeinsAreStreamed :
    (∃ (s : State) (n : Nat) (x : Session) (m : Nat) (skein : Nat) (off : Nat) (d : Bytes), (s.Opened n x) ∧ (1 ≤ x.level) ∧ (m < 16) ∧ ((s.touch n x).post89.1 = true) ∧ (∀ (k : SkeinIn), (s.ndl m).skeinIn = some k → k.dead = true ∧ k.seq ≠ skein) ∧ (off = 0) ∧ (List.length d < 64)) ∧
    (∃ (s : State) (n : Nat) (x : Session) (m : Nat) (skein : Nat) (off : Nat) (d : Bytes), (s.Opened n x) ∧ (1 ≤ x.level) ∧ (m < 16) ∧ ((s.touch n x).post89.1 = true) ∧ (∀ (k : SkeinIn), (s.ndl m).skeinIn = some k → k.dead = true ∧ k.seq ≠ skein) ∧ (off = 0) ∧ (64 ≤ List.length d) ∧ (¬(s.mode = Mode.armed ∨ s.mode = Mode.run ∨ s.mode = Mode.hold))) ∧
    (∃ (s : State) (n : Nat) (x : Session) (m : Nat) (skein : Nat) (off : Nat) (d : Bytes), (s.Opened n x) ∧ (1 ≤ x.level) ∧ (m < 16) ∧ ((s.touch n x).post89.1 = true) ∧ (∀ (k : SkeinIn), (s.ndl m).skeinIn = some k → k.dead = true ∧ k.seq ≠ skein) ∧ (off = 0) ∧ (64 ≤ List.length d) ∧ ((s.carried n x).strState m ≠ 0) ∧ (s.mode = Mode.armed) ∧ (skein ≠ s.rd Obj.strNextSeq m)) ∧
    (∃ (s : State) (n : Nat) (x : Session) (m : Nat) (skein : Nat) (off : Nat) (d : Bytes), (s.Opened n x) ∧ (1 ≤ x.level) ∧ (m < 16) ∧ ((s.touch n x).post89.1 = true) ∧ (∀ (k : SkeinIn), (s.ndl m).skeinIn = some k → k.dead = true ∧ k.seq ≠ skein) ∧ (off = 0) ∧ (64 ≤ List.length d) ∧ ((s.carried n x).strState m ≠ 0) ∧ (s.mode = Mode.armed) ∧ (kSeq d = s.rd Obj.strNextSeq m) ∧ (skein = s.rd Obj.strNextSeq m) ∧ (kCourses d < 2)) ∧
    (∃ (s : State) (n : Nat) (x : Session) (m : Nat) (skein : Nat) (off : Nat) (d : Bytes), (s.Opened n x) ∧ (1 ≤ x.level) ∧ (m < 16) ∧ ((s.touch n x).post89.1 = true) ∧ (∀ (k : SkeinIn), (s.ndl m).skeinIn = some k → k.dead = true ∧ k.seq ≠ skein) ∧ (off = 0) ∧ (64 ≤ List.length d) ∧ ((s.carried n x).strState m ≠ 0) ∧ (s.mode = Mode.armed) ∧ (kSeq d = s.rd Obj.strNextSeq m) ∧ (skein = s.rd Obj.strNextSeq m) ∧ (2 ≤ kCourses d) ∧ (kCourses d ≤ 16384) ∧ ((s.carried n x).ringFree m < kCourses d)) ∧
    (∃ (s : State) (n : Nat) (x : Session) (m : Nat) (skein : Nat) (off : Nat) (d : Bytes), (s.Opened n x) ∧ (1 ≤ x.level) ∧ (m < 16) ∧ ((s.touch n x).post89.1 = true) ∧ (∀ (k : SkeinIn), (s.ndl m).skeinIn = some k → k.dead = true ∧ k.seq ≠ skein) ∧ (off = 0) ∧ (64 ≤ List.length d) ∧ ((s.carried n x).strState m ≠ 0) ∧ (s.mode = Mode.armed) ∧ (kSeq d = s.rd Obj.strNextSeq m) ∧ (skein = s.rd Obj.strNextSeq m) ∧ (2 ≤ kCourses d) ∧ (kCourses d ≤ 16384) ∧ (kCourses d ≤ (s.carried n x).ringFree m)) ∧
    (∃ (s : State) (n : Nat) (x : Session) (m : Nat) (skein : Nat) (off : Nat) (d : Bytes), (s.Opened n x) ∧ (1 ≤ x.level) ∧ (m < 16) ∧ ((s.touch n x).post89.1 = true) ∧ (∀ (k : SkeinIn), (s.ndl m).skeinIn = some k → k.dead = true ∧ k.seq ≠ skein) ∧ (off ≠ 0)) ∧
    (∃ (s : State) (n : Nat) (x : Session) (m : Nat) (skein : Nat) (off : Nat) (d : Bytes) (k : SkeinIn), (s.Opened n x) ∧ (1 ≤ x.level) ∧ (m < 16) ∧ ((s.touch n x).post89.1 = true) ∧ ((s.ndl m).skeinIn = some k) ∧ (k.dead = true) ∧ (k.seq = skein)) ∧
    (∃ (s : State) (n : Nat) (x : Session) (m : Nat) (skein : Nat) (off : Nat) (d : Bytes) (k : SkeinIn), (s.Opened n x) ∧ (1 ≤ x.level) ∧ (m < 16) ∧ ((s.touch n x).post89.1 = true) ∧ ((s.ndl m).skeinIn = some k) ∧ (k.dead = false) ∧ (off = 0)) ∧
    (∃ (s : State) (n : Nat) (x : Session) (m : Nat) (skein : Nat) (off : Nat) (d : Bytes) (k : SkeinIn), (s.Opened n x) ∧ (1 ≤ x.level) ∧ (m < 16) ∧ ((s.touch n x).post89.1 = true) ∧ ((s.ndl m).skeinIn = some k) ∧ (k.dead = false) ∧ (off ≠ 0) ∧ (k.session = n) ∧ (off ≠ List.length k.data)) ∧
    (∃ (s : State) (n : Nat) (x : Session) (m : Nat) (skein : Nat) (off : Nat) (d : Bytes) (k : SkeinIn), (s.Opened n x) ∧ (1 ≤ x.level) ∧ (m < 16) ∧ ((s.touch n x).post89.1 = true) ∧ ((s.ndl m).skeinIn = some k) ∧ (k.dead = false) ∧ (off ≠ 0) ∧ (k.session = n) ∧ (skein = k.seq) ∧ (off = List.length k.data) ∧ (k.due = none)) ∧
    (∃ (s : State) (m : Nat) (k : SkeinIn), (s.Quiet) ∧ ((s.ndl m).skeinIn = some k) ∧ (k.due = none) ∧ (k.dead = false)) ∧
    (∃ (s : State) (m : Nat), (s.Quiet) ∧ ((s.ndl m).skeinIn = none)) ∧
    (∃ (s : State) (m : Nat) (d : Nat) (k : SkeinIn) (w : Waiter), ((s.ndl m).skeinIn = some k) ∧ (k.due = some d) ∧ (s.Awaits w) ∧ (w.token = Token.skein m) ∧ ((s.reach d).skeinChecks m k = none)) ∧
    (∃ (s : State) (m : Nat) (d : Nat) (k : SkeinIn) (w : Waiter) (c : Nat) (r : Nat) (e : Nat), ((s.ndl m).skeinIn = some k) ∧ (k.due = some d) ∧ (s.Awaits w) ∧ (w.token = Token.skein m) ∧ ((s.reach d).skeinChecks m k = some (c, r, e))) ∧
    (∃ (s : State) (n : Nat) (el : Nat) (x : Session) (r : ObjRow) (els : List Nat), (1 < 256 ^ (tyLen r.ty).getD 0) ∧ (Accepts s n x r Obj.strFlush el (toLE ((tyLen r.ty).getD 0) 1) els)) :=
  ⟨⟨wRing .armed, 1, wX, 0, 0, 0, [], opened_of (by decide +kernel), by decide +kernel, by decide +kernel, by decide +kernel, by decide +kernel, by decide +kernel, by decide +kernel⟩,
   ⟨wRing .idle, 1, wX, 0, 0, 0, wSkein 4, opened_of (by decide +kernel), by decide +kernel, by decide +kernel, by decide +kernel, by decide +kernel, by decide +kernel, by decide +kernel, by decide +kernel⟩,
   ⟨wRing .armed, 1, wX, 0, 1, 0, wSkein 4, opened_of (by decide +kernel), by decide +kernel, by decide +kernel, by decide +kernel, by decide +kernel, by decide +kernel, by decide +kernel, by decide +kernel, by decide +kernel, by decide +kernel⟩,
   ⟨wRing .armed, 1, wX, 0, 0, 0, toLE 64 0, opened_of (by decide +kernel), by decide +kernel, by decide +kernel, by decide +kernel, by decide +kernel, by decide +kernel, by decide +kernel, by decide +kernel, by decide +kernel, by decide +kernel, by decide +kernel, by decide +kernel⟩,
   ⟨(wRing .armed).wr Obj.strRingSize 0 0, 1, wX, 0, 0, 0, wSkein 4, opened_of (by decide +kernel), by decide +kernel, by decide +kernel, by decide +kernel, by decide +kernel, by decide +kernel, by decide +kernel, by decide +kernel, by decide +kernel, by decide +kernel, by decide +kernel, by decide +kernel, by decide +kernel, by decide +kernel⟩,
   ⟨wRing .armed, 1, wX, 0, 0, 0, wSkein 4, opened_of (by decide +kernel), by decide +kernel, by decide +kernel, by decide +kernel, by decide +kernel, by decide +kernel, by decide +kernel, by decide +kernel, by decide +kernel, by decide +kernel, by decide +kernel, by decide +kernel, by decide +kernel, by decide +kernel⟩,
   ⟨wRing .armed, 1, wX, 0, 0, 64, wSkein 4, opened_of (by decide +kernel), by decide +kernel, by decide +kernel, by decide +kernel, by decide +kernel, by decide +kernel⟩,
   ⟨wSkeinIn ⟨1, 0, 2, (wSkein 4).take 64, 0, none, true⟩, 1, wX, 0, 0, 64, (wSkein 4).drop 64, ⟨1, 0, 2, (wSkein 4).take 64, 0, none, true⟩, opened_of (by decide +kernel), by decide +kernel, by decide +kernel, by decide +kernel, by decide +kernel, by decide +kernel, by decide +kernel⟩,
   ⟨wSkeinIn ⟨1, 0, 2, (wSkein 4).take 64, 0, none, false⟩, 1, wX, 0, 0, 0, wSkein 4, ⟨1, 0, 2, (wSkein 4).take 64, 0, none, false⟩, opened_of (by decide +kernel), by decide +kernel, by decide +kernel, by decide +kernel, by decide +kernel, by decide +kernel, by decide +kernel⟩,
   ⟨wSkeinIn ⟨1, 0, 2, (wSkein 4).take 64, 0, none, false⟩, 1, wX, 0, 0, 60, wSkein 4, ⟨1, 0, 2, (wSkein 4).take 64, 0, none, false⟩, opened_of (by decide +kernel), by decide +kernel, by decide +kernel, by decide +kernel, by decide +kernel, by decide +kernel, by decide +kernel, by decide +kernel, by decide +kernel⟩,
   ⟨wSkeinIn ⟨1, 0, 2, (wSkein 4).take 64, 0, none, false⟩, 1, wX, 0, 0, 64, (wSkein 4).drop 64, ⟨1, 0, 2, (wSkein 4).take 64, 0, none, false⟩, opened_of (by decide +kernel), by decide +kernel, by decide +kernel, by decide +kernel, by decide +kernel, by decide +kernel, by decide +kernel, by decide +kernel, by decide +kernel, by decide +kernel, by decide +kernel⟩,
   ⟨wSkeinIn ⟨1, 0, 2, (wSkein 4).take 64, 0, none, false⟩, 0, ⟨1, 0, 2, (wSkein 4).take 64, 0, none, false⟩, quiet_of (by decide +kernel), by decide +kernel, by decide +kernel, by decide +kernel⟩,
   ⟨wS, 0, quiet_of (by decide +kernel), by decide +kernel⟩,
   ⟨wSkeinWait ⟨1, 0, 2, wSkein 0, 0, some 9, false⟩, 0, 9, ⟨1, 0, 2, wSkein 0, 0, some 9, false⟩, ⟨.skein 0, 1, 6, false, 0, 0, none⟩, by decide +kernel, by decide +kernel, awaits_of (by decide +kernel), by decide +kernel, by decide +kernel⟩,
   ⟨wSkeinWait ⟨1, 0, 2, wSkein 9, 0, some 9, false⟩, 0, 9, ⟨1, 0, 2, wSkein 9, 0, some 9, false⟩, ⟨.skein 0, 1, 6, false, 0, 0, none⟩, 5, rFormat, 0, by decide +kernel, by decide +kernel, awaits_of (by decide +kernel), by decide +kernel, by decide +kernel⟩,
   ⟨wRing .armed, 1, 0, wX, wRow Obj.strFlush, [0], by decide +kernel, accepts_of (by decide +kernel)⟩⟩

/-- The hypotheses of each clause of SubscriptionsAreHeld can be met (clauses of the same hypotheses together). -/
theorem witness_SubscriptionsAreHeld :
    (∃ (s : State) (n : Nat) (x : Session) (k : Nat) (ix : Nat) (el : Nat) (iv : Nat) (win : Nat), (s.Opened n x) ∧ ((s.touch n x).subReason { session := n, level := x.level, port := x.port } x.maxFrame k ix el iv win ≠ rOk)) ∧
    (∃ (s : State) (n : Nat) (x : Session) (k : Nat) (ix : Nat) (el : Nat) (iv : Nat) (win : Nat), (s.Opened n x) ∧ ((s.touch n x).subReason { session := n, level := x.level, port := x.port } x.maxFrame k ix el iv win = rOk) ∧ (64 ≤ (List.filter (fun y => y.session == n) (List.filterMap (fun p => p.2) s.poa.subs)).length)) ∧
    (∃ (s : State) (n : Nat) (x : Session) (k : Nat) (ix : Nat) (el : Nat) (iv : Nat) (win : Nat), (s.Opened n x) ∧ ((s.touch n x).subReason { session := n, level := x.level, port := x.port } x.maxFrame k ix el iv win = rOk) ∧ (¬(256 ≤ (List.filterMap (fun p => p.2) s.poa.subs).length ∨ 64 ≤ (List.filter (fun y => y.session == n) (List.filterMap (fun p => p.2) s.poa.subs)).length)) ∧ ((s.touch n x).post89.1 = true)) ∧
    (∃ (s : State) (n : Nat) (x : Session) (k : Nat) (dseq : Nat), (s.Opened n x) ∧ (s.sub k = none)) ∧
    (∃ (s : State) (n : Nat) (x : Session) (k : Nat) (dseq : Nat) (y : Machine.Sub), (s.Opened n x) ∧ (s.sub k = some y) ∧ (y.session = n)) ∧
    (∃ (s : State) (n : Nat) (x : Session) (k : Nat) (dseq : Nat) (y : Machine.Sub), (s.Opened n x) ∧ (s.sub k = some y) ∧ (y.session = n) ∧ (y.kind = 3) ∧ (y.waiting = [])) ∧
    (∃ (s : State) (n : Nat) (x : Session) (k : Nat) (dseq : Nat) (y : Machine.Sub), (s.Opened n x) ∧ (s.sub k = some y) ∧ (y.session = n) ∧ (y.kind = 3)) :=
  ⟨⟨wIn .idle, 1, wX, 0, Obj.devMode, 0, 1, 0, opened_of (by decide +kernel), by decide +kernel⟩,
   ⟨(List.range 64).foldl (fun s k => s.setSub (k + 1) (some ⟨1, 0, Obj.devMode, 0, msFs, 0, 0, none, [], 0, [], []⟩)) (wIn .idle), 1, wX, 0, Obj.devMode, 0, msFs, 0, opened_of (by decide +kernel), by decide +kernel, by decide +kernel⟩,
   ⟨wIn .idle, 1, wX, 0, Obj.devMode, 0, msFs, 0, opened_of (by decide +kernel), by decide +kernel, by decide +kernel, by decide +kernel⟩,
   ⟨wS, 1, wX, 3, 0, opened_of (by decide +kernel), by decide +kernel⟩,
   ⟨wSub ⟨1, 3, Obj.ptfDatalog, 0, 0, 8448, 0, none, [], 1, [(0, [], 0)], []⟩, 1, wX, 3, 0, ⟨1, 3, Obj.ptfDatalog, 0, 0, 8448, 0, none, [], 1, [(0, [], 0)], []⟩, opened_of (by decide +kernel), by decide +kernel, by decide +kernel⟩,
   ⟨wSub ⟨1, 3, Obj.ptfDatalog, 0, 0, 8448, 0, none, [], 1, [(0, [], 0)], []⟩, 1, wX, 3, 0, ⟨1, 3, Obj.ptfDatalog, 0, 0, 8448, 0, none, [], 1, [(0, [], 0)], []⟩, opened_of (by decide +kernel), by decide +kernel, by decide +kernel, by decide +kernel, by decide +kernel⟩,
   ⟨wSub ⟨1, 3, Obj.ptfDatalog, 0, 0, 8448, 0, none, [], 1, [(0, [], 0)], []⟩, 1, wX, 3, 0, ⟨1, 3, Obj.ptfDatalog, 0, 0, 8448, 0, none, [], 1, [(0, [], 0)], []⟩, opened_of (by decide +kernel), by decide +kernel, by decide +kernel, by decide +kernel⟩⟩

/-- The hypotheses of each clause of ReportsAreSent can be met (clauses of the same hypotheses together). -/
theorem witness_ReportsAreSent :
    (∃ (s : State) (k : Nat) (y : Machine.Sub) (z : Session) (els : List Nat) (v : Bytes), (s.sub k = some y) ∧ (s.session y.session = some z) ∧ (s.fld Obj.hlkLinkStatus (subEl z.port z.sub) F.hlkLinkStatusState = 3) ∧ (s.routed z.port z.sub z.addr = true) ∧ (Tbl.get (fun x => none) s.hlk.paused (subEl z.port z.sub * 8 + s.txPcp z.port true) = none) ∧ (s.reportsWaiting y.session < 256) ∧ (y.kind ≤ 1) ∧ (((s.reach (s.edgeAt fclkFs y.next)).setSub k (some { session := y.session, kind := y.kind, ix := y.ix, el := y.el, interval := y.interval, window := y.window, next := (s.reach (s.edgeAt fclkFs y.next)).periodEdge y.interval (max (y.next + 1) (s.reach (s.edgeAt fclkFs y.next)).now), lastVal := y.lastVal, evs := y.evs, dseq := y.dseq, unacked := y.unacked, waiting := y.waiting })).readCheck z.level y.ix y.el = (rOk, els)) ∧ (((s.reach (s.edgeAt fclkFs y.next)).setSub k (some { session := y.session, kind := y.kind, ix := y.ix, el := y.el, interval := y.interval, window := y.window, next := (s.reach (s.edgeAt fclkFs y.next)).periodEdge y.interval (max (y.next + 1) (s.reach (s.edgeAt fclkFs y.next)).now), lastVal := y.lastVal, evs := y.evs, dseq := y.dseq, unacked := y.unacked, waiting := y.waiting })).sample y.ix els = some v) ∧ (24 + List.length (valueItem k ((s.reach (s.edgeAt fclkFs y.next)).setSub k (some { session := y.session, kind := y.kind, ix := y.ix, el := y.el, interval := y.interval, window := y.window, next := (s.reach (s.edgeAt fclkFs y.next)).periodEdge y.interval (max (y.next + 1) (s.reach (s.edgeAt fclkFs y.next)).now), lastVal := y.lastVal, evs := y.evs, dseq := y.dseq, unacked := y.unacked, waiting := y.waiting })).stamp v) ≤ z.maxFrame) ∧ (y.lastVal ≠ some v)) ∧
    (∃ (s : State) (k : Nat) (y : Machine.Sub) (z : Session) (els : List Nat) (v : Bytes), (s.sub k = some y) ∧ (s.session y.session = some z) ∧ (s.fld Obj.hlkLinkStatus (subEl z.port z.sub) F.hlkLinkStatusState = 3) ∧ (s.routed z.port z.sub z.addr = true) ∧ (Tbl.get (fun x => none) s.hlk.paused (subEl z.port z.sub * 8 + s.txPcp z.port true) = none) ∧ (s.reportsWaiting y.session < 256) ∧ (y.kind ≤ 1) ∧ (((s.reach (s.edgeAt fclkFs y.next)).setSub k (some { session := y.session, kind := y.kind, ix := y.ix, el := y.el, interval := y.interval, window := y.window, next := (s.reach (s.edgeAt fclkFs y.next)).periodEdge y.interval (max (y.next + 1) (s.reach (s.edgeAt fclkFs y.next)).now), lastVal := y.lastVal, evs := y.evs, dseq := y.dseq, unacked := y.unacked, waiting := y.waiting })).readCheck z.level y.ix y.el = (rOk, els)) ∧ (((s.reach (s.edgeAt fclkFs y.next)).setSub k (some { session := y.session, kind := y.kind, ix := y.ix, el := y.el, interval := y.interval, window := y.window, next := (s.reach (s.edgeAt fclkFs y.next)).periodEdge y.interval (max (y.next + 1) (s.reach (s.edgeAt fclkFs y.next)).now), lastVal := y.lastVal, evs := y.evs, dseq := y.dseq, unacked := y.unacked, waiting := y.waiting })).sample y.ix els = some v) ∧ (24 + List.length (valueItem k ((s.reach (s.edgeAt fclkFs y.next)).setSub k (some { session := y.session, kind := y.kind, ix := y.ix, el := y.el, interval := y.interval, window := y.window, next := (s.reach (s.edgeAt fclkFs y.next)).periodEdge y.interval (max (y.next + 1) (s.reach (s.edgeAt fclkFs y.next)).now), lastVal := y.lastVal, evs := y.evs, dseq := y.dseq, unacked := y.unacked, waiting := y.waiting })).stamp v) ≤ z.maxFrame) ∧ (y.kind = 1) ∧ (y.lastVal = some v)) ∧
    (∃ (s : State) (k : Nat) (y : Machine.Sub) (z : Session) (q : Nat), (s.sub k = some y) ∧ (s.session y.session = some z) ∧ (s.fld Obj.hlkLinkStatus (subEl z.port z.sub) F.hlkLinkStatusState = 3) ∧ (s.routed z.port z.sub z.addr = true) ∧ (Tbl.get (fun x => none) s.hlk.paused (subEl z.port z.sub * 8 + s.txPcp z.port true) = none) ∧ (s.reportsWaiting y.session < 256) ∧ (y.kind = 2) ∧ ((Tbl.get (fun x => {  }) y.evs q).count ≠ 0)) ∧
    (∃ (s : State) (k : Nat) (y : Machine.Sub) (z : Session) (rec : Bytes), (s.sub k = some y) ∧ (s.session y.session = some z) ∧ (s.fld Obj.hlkLinkStatus (subEl z.port z.sub) F.hlkLinkStatusState = 3) ∧ (s.routed z.port z.sub z.addr = true) ∧ (Tbl.get (fun x => none) s.hlk.paused (subEl z.port z.sub * 8 + s.txPcp z.port true) = none) ∧ (s.reportsWaiting y.session < 256) ∧ (y.waiting = [rec]) ∧ (s.dlogRoom y rec = true)) ∧
    (∃ (s : State) (k : Nat) (y : Machine.Sub) (z : Session), (s.sub k = some y) ∧ (s.session y.session = some z) ∧ (s.fld Obj.hlkLinkStatus (subEl z.port z.sub) F.hlkLinkStatusState = 3) ∧ (s.routed z.port z.sub z.addr = true) ∧ (Tbl.get (fun x => none) s.hlk.paused (subEl z.port z.sub * 8 + s.txPcp z.port true) = none) ∧ (s.reportsWaiting y.session < 256) ∧ (y.waiting = [])) ∧
    (∃ (s : State) (k : Nat) (y : Machine.Sub) (z : Session) (q : Nat × Bytes × Nat), (s.sub k = some y) ∧ (s.session y.session = some z) ∧ (s.fld Obj.hlkLinkStatus (subEl z.port z.sub) F.hlkLinkStatusState = 3) ∧ (s.routed z.port z.sub z.addr = true) ∧ (Tbl.get (fun x => none) s.hlk.paused (subEl z.port z.sub * 8 + s.txPcp z.port true) = none) ∧ (s.reportsWaiting y.session < 256) ∧ (oldestSent y.unacked = some q)) ∧
    (∃ (s : State) (k : Nat) (y : Machine.Sub) (z : Session), (s.sub k = some y) ∧ (s.session y.session = some z) ∧ (s.fld Obj.hlkLinkStatus (subEl z.port z.sub) F.hlkLinkStatusState = 3) ∧ (s.routed z.port z.sub z.addr = true) ∧ (Tbl.get (fun x => none) s.hlk.paused (subEl z.port z.sub * 8 + s.txPcp z.port true) = none) ∧ (s.reportsWaiting y.session < 256) ∧ (y.unacked = [])) :=
  ⟨⟨wSub ⟨1, 1, Obj.devMode, 0, msFs, 0, 0, none, [], 0, [], []⟩, 3, ⟨1, 1, Obj.devMode, 0, msFs, 0, 0, none, [], 0, [], []⟩, wX, [0], [3#8], by decide +kernel, by decide +kernel, by decide +kernel, by decide +kernel, by decide +kernel, by decide +kernel, by decide +kernel, by decide +kernel, by decide +kernel, by decide +kernel, by decide +kernel⟩,
   ⟨wSub ⟨1, 1, Obj.devMode, 0, msFs, 0, 0, some [3#8], [], 0, [], []⟩, 3, ⟨1, 1, Obj.devMode, 0, msFs, 0, 0, some [3#8], [], 0, [], []⟩, wX, [0], [3#8], by decide +kernel, by decide +kernel, by decide +kernel, by decide +kernel, by decide +kernel, by decide +kernel, by decide +kernel, by decide +kernel, by decide +kernel, by decide +kernel, by decide +kernel, by decide +kernel⟩,
   ⟨wSub ⟨1, 2, 0, 511, msFs, 0, 0, none, [(5, { count := 2 })], 0, [], []⟩, 3, ⟨1, 2, 0, 511, msFs, 0, 0, none, [(5, { count := 2 })], 0, [], []⟩, wX, 5, by decide +kernel, by decide +kernel, by decide +kernel, by decide +kernel, by decide +kernel, by decide +kernel, by decide +kernel, by decide +kernel⟩,
   ⟨wSub ⟨1, 3, Obj.ptfDatalog, 0, 0, 8448, 0, none, [], 1, [], [toLE 8 3]⟩, 3, ⟨1, 3, Obj.ptfDatalog, 0, 0, 8448, 0, none, [], 1, [], [toLE 8 3]⟩, wX, toLE 8 3, by decide +kernel, by decide +kernel, by decide +kernel, by decide +kernel, by decide +kernel, by decide +kernel, by decide +kernel, by decide +kernel⟩,
   ⟨wSub ⟨1, 3, Obj.ptfDatalog, 0, 0, 8448, 0, none, [], 1, [], []⟩, 3, ⟨1, 3, Obj.ptfDatalog, 0, 0, 8448, 0, none, [], 1, [], []⟩, wX, by decide +kernel, by decide +kernel, by decide +kernel, by decide +kernel, by decide +kernel, by decide +kernel, by decide +kernel⟩,
   ⟨wSub ⟨1, 3, Obj.ptfDatalog, 0, 0, 8448, 0, none, [], 1, [(0, toLE 8 3, 0)], []⟩, 3, ⟨1, 3, Obj.ptfDatalog, 0, 0, 8448, 0, none, [], 1, [(0, toLE 8 3, 0)], []⟩, wX, (0, toLE 8 3, 0), by decide +kernel, by decide +kernel, by decide +kernel, by decide +kernel, by decide +kernel, by decide +kernel, by decide +kernel⟩,
   ⟨wSub ⟨1, 3, Obj.ptfDatalog, 0, 0, 8448, 0, none, [], 1, [], []⟩, 3, ⟨1, 3, Obj.ptfDatalog, 0, 0, 8448, 0, none, [], 1, [], []⟩, wX, by decide +kernel, by decide +kernel, by decide +kernel, by decide +kernel, by decide +kernel, by decide +kernel, by decide +kernel⟩⟩

/-- The hypotheses of each clause of SessionsOpenAndClose can be met (clauses of the same hypotheses together). -/
theorem witness_SessionsOpenAndClose :
    (∃ (s : State) (port : Nat) (sub : Nat) (addr : Nat) (udp : Nat) (level : Nat) (mf : Nat) (timeout : Nat) (nonce : Bytes), (s.linkUp port sub = false)) ∧
    (∃ (s : State) (port : Nat) (sub : Nat) (addr : Nat) (udp : Nat) (level : Nat) (mf : Nat) (timeout : Nat) (nonce : Bytes), (s.linkUp port sub = true) ∧ (s.openReason port addr level mf timeout ≠ rOk)) ∧
    (∃ (s : State) (port : Nat) (sub : Nat) (addr : Nat) (udp : Nat) (level : Nat) (mf : Nat) (timeout : Nat) (nonce : Bytes) (n : Nat), (s.linkUp port sub = true) ∧ (s.openReason port addr level mf timeout = rOk) ∧ (s.freeSession = some n)) ∧
    (∃ (s : State) (n : Nat) (proof : Bytes), (∃ x, s.session n = some x ∧ x.state ≠ 1)) ∧
    (∃ (s : State) (n : Nat) (x : Session) (proof : Bytes), (s.Quiet) ∧ (s.session n = some x) ∧ (x.state = 1) ∧ (proof = shakeMac x.key 72 x n)) ∧
    (∃ (s : State) (n : Nat) (x : Session) (proof : Bytes), (s.Quiet) ∧ (s.session n = some x) ∧ (x.state = 1) ∧ (proof ≠ shakeMac x.key 72 x n)) ∧
    (∃ (s : State) (n : Nat) (x : Session) (proof : Bytes), (s.Quiet) ∧ (s.session n = some x) ∧ (x.state = 1)) ∧
    (∃ (s : State) (n : Nat), (s.session n = none)) ∧
    (∃ (s : State) (n : Nat) (x : Session), (s.Opened n x)) ∧
    (∃ (s : State) (n : Nat) (x : Session) (k : Nat) (r : ObjRow), (s.Opened n x) ∧ (k < 256 ^ (tyLen r.ty).getD 0) ∧ (Accepts s n x r Obj.secSessionClose 0 (toLE ((tyLen r.ty).getD 0) k) [0]) ∧ ((s.touch n x).session k ≠ none)) :=
  ⟨⟨wIn .idle, 0, 0, 0xFFFF0A000002, 50000, 0, 1400, 1000, List.replicate 16 1#8, by decide +kernel⟩,
   ⟨wUp, 0, 0, 0xFFFF0A000002, 50000, 1, 1400, 1000, List.replicate 16 1#8, by decide +kernel, by decide +kernel⟩,
   ⟨wUp, 0, 0, 0xFFFF0A000002, 50000, 0, 1400, 1000, List.replicate 16 1#8, 2, by decide +kernel, by decide +kernel, by decide +kernel⟩,
   ⟨wS, 1, List.replicate 32 0#8, by decide +kernel⟩,
   ⟨wS.setSession 1 (some wChal), 1, wChal, shakeMac wChal.key 0x48 wChal 1, quiet_of (by decide +kernel), by decide +kernel, by decide +kernel, by decide +kernel⟩,
   ⟨wS.setSession 1 (some wChal), 1, wChal, List.replicate 32 0#8, quiet_of (by decide +kernel), by decide +kernel, by decide +kernel, by decide +kernel⟩,
   ⟨wS.setSession 1 (some wChal), 1, wChal, List.replicate 32 0#8, quiet_of (by decide +kernel), by decide +kernel, by decide +kernel⟩,
   ⟨wS, 2, by decide +kernel⟩,
   ⟨wSub ⟨2, 1, Obj.devMode, 0, msFs, 0, 0, none, [], 0, [], []⟩, 1, wX, opened_of (by decide +kernel)⟩,
   ⟨wSub ⟨2, 1, Obj.devMode, 0, msFs, 0, 0, none, [], 0, [], []⟩, 1, wX, 2, wRow Obj.secSessionClose, opened_of (by decide +kernel), by decide +kernel, accepts_of (by decide +kernel), by decide +kernel⟩⟩

/-- The hypotheses of each clause of FramesAreSequenced can be met (clauses of the same hypotheses together). -/
theorem witness_FramesAreSequenced :
    (∃ (s : State) (port : Nat) (sub : Nat) (addr : Nat) (udp : Nat) (pcp : Nat) (f : Bytes), (s.Quiet) ∧ (s.linkUp port sub = false)) ∧
    (∃ (s : State) (port : Nat) (sub : Nat) (addr : Nat) (udp : Nat) (pcp : Nat) (f : Bytes), (s.Quiet) ∧ (s.linkUp port sub = true) ∧ (frameItems f = none)) ∧
    (∃ (s : State) (port : Nat) (sub : Nat) (addr : Nat) (udp : Nat) (pcp : Nat) (f : Bytes) (items : List Bytes) (x : Session), (s.Quiet) ∧ (s.linkUp port sub = true) ∧ (frameItems f = some items) ∧ (∀ it ∈ items, itemSvc it ≠ 16 ∧ itemSvc it ≠ 17) ∧ ((s.rxTake port (s.rxClass port pcp)).session (frSession f) = some x) ∧ (x.state = 2) ∧ (x.udp ≠ udp)) ∧
    (∃ (s : State) (port : Nat) (sub : Nat) (addr : Nat) (udp : Nat) (pcp : Nat) (f : Bytes) (items : List Bytes) (x : Session), (s.Quiet) ∧ (s.linkUp port sub = true) ∧ (frameItems f = some items) ∧ (∀ it ∈ items, itemSvc it ≠ 16 ∧ itemSvc it ≠ 17) ∧ ((s.rxTake port (s.rxClass port pcp)).session (frSession f) = some x) ∧ (x.state = 2) ∧ (x.port = port) ∧ (x.addr = addr) ∧ (x.udp = udp) ∧ (x.level ≠ 0) ∧ (frTag f ≠ tagOf x.key f)) ∧
    (∃ (s : State) (port : Nat) (sub : Nat) (addr : Nat) (udp : Nat) (pcp : Nat) (f : Bytes) (items : List Bytes) (x : Session) (it : Bytes) (r : Nat) (m : Nat) (b : Bytes) (s2 : State), (s.Quiet) ∧ (s.linkUp port sub = true) ∧ (frameItems f = some items) ∧ (∀ it ∈ items, itemSvc it ≠ 16 ∧ itemSvc it ≠ 17) ∧ ((s.rxTake port (s.rxClass port pcp)).session (frSession f) = some x) ∧ (x.state = 2) ∧ (x.port = port) ∧ (x.addr = addr) ∧ (x.udp = udp) ∧ (x.level = 0) ∧ (items = [it]) ∧ ((frSeq f + 2 ^ 32 - x.next) % 2 ^ 32 = 0) ∧ (x.held = []) ∧ (((((s.rxTake port (s.rxClass port pcp)).poaCount 0).setSession (frSession f) (some { x with sub := sub, lastRx := s.now })).setSession (frSession f) (some { { x with sub := sub, lastRx := s.now } with next := (x.next + 1) % 2 ^ 32 })).runItem { session := frSession f, level := x.level, port := x.port } x.maxFrame (frBulk f) (x.maxFrame - 24) it = (Ans.done r m b, s2))) ∧
    (∃ (s : State) (port : Nat) (sub : Nat) (addr : Nat) (udp : Nat) (pcp : Nat) (f : Bytes) (items : List Bytes) (x : Session), (s.Quiet) ∧ (s.linkUp port sub = true) ∧ (frameItems f = some items) ∧ (∀ it ∈ items, itemSvc it ≠ 16 ∧ itemSvc it ≠ 17) ∧ ((s.rxTake port (s.rxClass port pcp)).session (frSession f) = some x) ∧ (x.state = 2) ∧ (x.port = port) ∧ (x.addr = addr) ∧ (x.udp = udp) ∧ (x.level = 0) ∧ (0 < (frSeq f + 2 ^ 32 - x.next) % 2 ^ 32) ∧ ((frSeq f + 2 ^ 32 - x.next) % 2 ^ 32 < 16) ∧ (∀ h ∈ x.held, h.1 ≠ frSeq f)) ∧
    (∃ (s : State) (port : Nat) (sub : Nat) (addr : Nat) (udp : Nat) (pcp : Nat) (f : Bytes) (items : List Bytes) (x : Session) (reply : Bytes), (s.Quiet) ∧ (s.linkUp port sub = true) ∧ (frameItems f = some items) ∧ (∀ it ∈ items, itemSvc it ≠ 16 ∧ itemSvc it ≠ 17) ∧ ((s.rxTake port (s.rxClass port pcp)).session (frSession f) = some x) ∧ (x.state = 2) ∧ (x.port = port) ∧ (x.addr = addr) ∧ (x.udp = udp) ∧ (x.level = 0) ∧ (2 ^ 32 - 16 ≤ (frSeq f + 2 ^ 32 - x.next) % 2 ^ 32) ∧ (List.find? (fun q => q.1 == frSeq f) x.replies = some (frSeq f, reply))) ∧
    (∃ (s : State) (port : Nat) (sub : Nat) (addr : Nat) (udp : Nat) (pcp : Nat) (f : Bytes) (n : Nat) (x : Session) (h : Nat × Bytes × Nat × Bool) (rest : List (Nat × Bytes × Nat × Bool)), (s.Quiet) ∧ (s.session n = some x) ∧ (x.held = h :: rest)) ∧
    (∃ (s : State) (port : Nat) (sub : Nat) (addr : Nat) (udp : Nat) (pcp : Nat) (f : Bytes) (n : Nat) (x : Session), (s.Quiet) ∧ (s.session n = some x) ∧ (x.held = [])) ∧
    (∃ (s : State) (port : Nat) (sub : Nat) (addr : Nat) (udp : Nat) (pcp : Nat) (f : Bytes) (group : Nat) (it : Bytes), (s.Quiet) ∧ (s.linkUp port sub = true) ∧ (group ∈ s.groups6 port) ∧ (frameItems f = some [it]) ∧ (frSession f = 65535) ∧ (frBulk f = false) ∧ (itemSvc it = 2) ∧ (12 ≤ List.length it) ∧ (lenIs it (8 + beAt it 8 2) = true) ∧ ((s.rxTake port (if (s.rxFill port 0).isEmpty = true then 1 else 0)).mcastDeny f ≠ 0)) ∧
    (∃ (s : State) (port : Nat) (sub : Nat) (addr : Nat) (udp : Nat) (pcp : Nat) (f : Bytes) (group : Nat) (it : Bytes) (r : Nat) (m : Nat) (b : Bytes) (u : State), (s.Quiet) ∧ (s.linkUp port sub = true) ∧ (group ∈ s.groups6 port) ∧ (frameItems f = some [it]) ∧ (frSession f = 65535) ∧ (frBulk f = false) ∧ (itemSvc it = 2) ∧ (12 ≤ List.length it) ∧ (lenIs it (8 + beAt it 8 2) = true) ∧ ((s.rxTake port (if (s.rxFill port 0).isEmpty = true then 1 else 0)).mcastDeny f = 0) ∧ ((((s.rxTake port (if (s.rxFill port 0).isEmpty = true then 1 else 0)).poaCount 0).wr Obj.secMcastSeq 0 (frSeq f)).writeItem { session := 65535, level := (s.rxTake port (if (s.rxFill port 0).isEmpty = true then 1 else 0)).fld Obj.secMcastCfg 0 { lo := 0, w := 2 }, port := port } (beAt it 4 2) (beAt it 6 2) (slice it 12 (beAt it 8 2)) = (Ans.done r m b, u))) ∧
    (∃ (s : State) (port : Nat) (sub : Nat) (addr : Nat) (udp : Nat) (pcp : Nat) (f : Bytes) (group : Nat) (it : Bytes) (k : Token) (i : Nat) (j : Nat) (u : State), (s.Quiet) ∧ (s.linkUp port sub = true) ∧ (group ∈ s.groups6 port) ∧ (frameItems f = some [it]) ∧ (frSession f = 65535) ∧ (frBulk f = false) ∧ (itemSvc it = 2) ∧ (12 ≤ List.length it) ∧ (lenIs it (8 + beAt it 8 2) = true) ∧ ((s.rxTake port (if (s.rxFill port 0).isEmpty = true then 1 else 0)).mcastDeny f = 0) ∧ ((((s.rxTake port (if (s.rxFill port 0).isEmpty = true then 1 else 0)).poaCount 0).wr Obj.secMcastSeq 0 (frSeq f)).writeItem { session := 65535, level := (s.rxTake port (if (s.rxFill port 0).isEmpty = true then 1 else 0)).fld Obj.secMcastCfg 0 { lo := 0, w := 2 }, port := port } (beAt it 4 2) (beAt it 6 2) (slice it 12 (beAt it 8 2)) = (Ans.wait k i j, u))) ∧
    (∃ (s : State) (port : Nat) (sub : Nat) (addr : Nat) (udp : Nat) (pcp : Nat) (f : Bytes) (group : Nat) (it : Bytes) (u : State) (v : State) (k : Nat) (r : Nat) (row : ObjRow) (j : FwJob) (b : Bytes), (s.Quiet) ∧ (s.linkUp port sub = true) ∧ (group ∈ s.groups6 port) ∧ (frameItems f = some [it]) ∧ (frSession f = 65535) ∧ (frBulk f = false) ∧ (itemSvc it = 2) ∧ (12 ≤ List.length it) ∧ (lenIs it (8 + beAt it 8 2) = true) ∧ (u.waiters = [{ token := Token.fw k, session := 65535, service := 2, inFrame := false, dlen := 0, off := 0, mcast := some (beAt it 4 2, beAt it 6 2) }]) ∧ (u.jobs = []) ∧ (u.results = []) ∧ (u.ode.done = []) ∧ (j.id = k) ∧ (j.read = false) ∧ (objRow j.ix = some row) ∧ (u.commitCommand row j.ix j.el j.value j.els = (Ans.done r 65535 b, v)) ∧ (v.waiters = u.waiters) ∧ (v.results = [])) ∧
    (∃ (s : State) (port : Nat) (sub : Nat) (addr : Nat) (udp : Nat) (pcp : Nat) (f : Bytes) (group : Nat) (it : Bytes) (u : State) (v : State) (k : Nat) (r : Nat) (row : ObjRow) (j : FwJob) (b : Bytes), (s.Quiet) ∧ (s.linkUp port sub = true) ∧ (group ∈ s.groups6 port) ∧ (frameItems f = some [it]) ∧ (frSession f = 65535) ∧ (frBulk f = false) ∧ (itemSvc it = 2) ∧ (12 ≤ List.length it) ∧ (lenIs it (8 + beAt it 8 2) = true) ∧ (u.waiters = [{ token := Token.fw k, session := 65535, service := 2, inFrame := false, dlen := 0, off := 0, mcast := some (beAt it 4 2, beAt it 6 2) }]) ∧ (u.jobs = []) ∧ (u.results = []) ∧ (u.ode.done = []) ∧ (j.id = k) ∧ (j.read = false) ∧ (objRow j.ix = some row) ∧ (u.commitCommand row j.ix j.el j.value j.els = (Ans.done r 65535 b, v)) ∧ (v.waiters = u.waiters) ∧ (v.results = []) ∧ (r = rOk)) ∧
    (∃ (s : State) (port : Nat) (sub : Nat) (addr : Nat) (udp : Nat) (pcp : Nat) (f : Bytes) (group : Nat) (it : Bytes) (u : State) (v : State) (k : Nat) (r : Nat) (row : ObjRow) (j : FwJob) (b : Bytes), (s.Quiet) ∧ (s.linkUp port sub = true) ∧ (group ∈ s.groups6 port) ∧ (frameItems f = some [it]) ∧ (frSession f = 65535) ∧ (frBulk f = false) ∧ (itemSvc it = 2) ∧ (12 ≤ List.length it) ∧ (lenIs it (8 + beAt it 8 2) = true) ∧ (u.waiters = [{ token := Token.fw k, session := 65535, service := 2, inFrame := false, dlen := 0, off := 0, mcast := some (beAt it 4 2, beAt it 6 2) }]) ∧ (u.jobs = []) ∧ (u.results = []) ∧ (u.ode.done = []) ∧ (j.id = k) ∧ (j.read = false) ∧ (objRow j.ix = some row) ∧ (u.commitCommand row j.ix j.el j.value j.els = (Ans.done r 65535 b, v)) ∧ (v.waiters = u.waiters) ∧ (v.results = []) ∧ (r ≠ rOk) ∧ (r < 2 ^ 16)) ∧
    (∃ (s : State) (port : Nat) (sub : Nat) (addr : Nat) (udp : Nat) (pcp : Nat) (f : Bytes) (group : Nat), (s.Quiet) ∧ (s.linkUp port sub = false)) :=
  ⟨⟨wS, 0, 0, 0, 0, 0, [], quiet_of (by decide +kernel), by decide +kernel⟩,
   ⟨wUp, 0, 0, wX.addr, wX.udp, 0, [], quiet_of (by decide +kernel), by decide +kernel, by decide +kernel⟩,
   ⟨wUp, 0, 0, wX.addr, 7, 0, wFrame 1, [wItem 1 (toBE 2 Obj.devMode ++ toBE 2 0)], wX, quiet_of (by decide +kernel), by decide +kernel, by decide +kernel, by decide +kernel, by decide +kernel, by decide +kernel, by decide +kernel⟩,
   ⟨wUpWith { wX with key := [1#8] }, 0, 0, wX.addr, wX.udp, 0, wFrame 1, [wItem 1 (toBE 2 Obj.devMode ++ toBE 2 0)], { wX with key := [1#8] }, quiet_of (by decide +kernel), by decide +kernel, by decide +kernel, by decide +kernel, by decide +kernel, by decide +kernel, by decide +kernel, by decide +kernel, by decide +kernel, by decide +kernel, by decide +kernel⟩,
   ⟨wUpWith { wX with level := 0 }, 0, 0, wX.addr, wX.udp, 0, wFrame 1, [wItem 1 (toBE 2 Obj.devMode ++ toBE 2 0)], { wX with level := 0 }, wItem 1 (toBE 2 Obj.devMode ++ toBE 2 0), 0, 0xFFFF, toBE 2 1 ++ [0#8, 0#8] ++ [3#8], (((wUpWith { wX with level := 0 }).rxTake 0 ((wUpWith { wX with level := 0 }).rxClass 0 0)).poaCount 0).setSession 1 (some { wX with level := 0, next := 2 }), quiet_of (by decide +kernel), by decide +kernel, by decide +kernel, by decide +kernel, by decide +kernel, by decide +kernel, by decide +kernel, by decide +kernel, by decide +kernel, by decide +kernel, by decide +kernel, by decide +kernel, by decide +kernel, by decide +kernel⟩,
   ⟨wUpWith { wX with level := 0 }, 0, 0, wX.addr, wX.udp, 0, wFrame 2, [wItem 1 (toBE 2 Obj.devMode ++ toBE 2 0)], { wX with level := 0 }, quiet_of (by decide +kernel), by decide +kernel, by decide +kernel, by decide +kernel, by decide +kernel, by decide +kernel, by decide +kernel, by decide +kernel, by decide +kernel, by decide +kernel, by decide +kernel, by decide +kernel, by decide +kernel⟩,
   ⟨wUpWith { wX with level := 0, replies := [(0, [7#8])] }, 0, 0, wX.addr, wX.udp, 0, wFrame 0, [wItem 1 (toBE 2 Obj.devMode ++ toBE 2 0)], { wX with level := 0, replies := [(0, [7#8])] }, [7#8], quiet_of (by decide +kernel), by decide +kernel, by decide +kernel, by decide +kernel, by decide +kernel, by decide +kernel, by decide +kernel, by decide +kernel, by decide +kernel, by decide +kernel, by decide +kernel, by decide +kernel⟩,
   ⟨wUpWith { wX with held := [(5, wFrame 5, 3, false)] }, 0, 0, 0, 0, 0, [], 1, { wX with held := [(5, wFrame 5, 3, false)] }, (5, wFrame 5, 3, false), [], quiet_of (by decide +kernel), by decide +kernel, by decide +kernel⟩,
   ⟨wUpWith wX, 0, 0, 0, 0, 0, [], 1, wX, quiet_of (by decide +kernel), by decide +kernel, by decide +kernel⟩,
   ⟨wGroup, 0, 0, 0, 0, 0, wCast 0, 0xFFFFEF000001, wItem 2 (toBE 2 Obj.devHeadPosition ++ toBE 2 0 ++ toBE 2 1 ++ [0#8, 0#8] ++ [6#8, 0#8, 0#8, 0#8]), quiet_of (by decide +kernel), by decide +kernel, by decide +kernel, by decide +kernel, by decide +kernel, by decide +kernel, by decide +kernel, by decide +kernel, by decide +kernel, by decide +kernel⟩,
   ⟨wGroup, 0, 0, 0, 0, 0, wCast 1, 0xFFFFEF000001, wItem 2 (toBE 2 Obj.devHeadPosition ++ toBE 2 0 ++ toBE 2 1 ++ [0#8, 0#8] ++ [6#8, 0#8, 0#8, 0#8]), rAccess, 0xFFFF, [], ((wGroup.rxTake 0 1).poaCount 0).wr Obj.secMcastSeq 0 1, quiet_of (by decide +kernel), by decide +kernel, by decide +kernel, by decide +kernel, by decide +kernel, by decide +kernel, by decide +kernel, by decide +kernel, by decide +kernel, by decide +kernel, by decide +kernel⟩,
   ⟨wGroupE, 0, 0, 0, 0, 0, wCastE 1, 0xFFFFEF000001, wItem 2 (toBE 2 Obj.devStore ++ toBE 2 0 ++ toBE 2 1 ++ [0#8, 0#8] ++ [1#8, 0#8, 0#8, 0#8]), .fw 0, 0, 0, ((((wGroupE.rxTake 0 1).poaCount 0).wr Obj.secMcastSeq 0 1).writeItem ⟨0xFFFF, 3, 0⟩ Obj.devStore 0 [1#8]).2, quiet_of (by decide +kernel), by decide +kernel, by decide +kernel, by decide +kernel, by decide +kernel, by decide +kernel, by decide +kernel, by decide +kernel, by decide +kernel, by decide +kernel, by decide +kernel⟩,
   ⟨wGroup, 0, 0, 0, 0, 0, wCast 0, 0xFFFFEF000001, wItem 2 (toBE 2 Obj.devHeadPosition ++ toBE 2 0 ++ toBE 2 1 ++ [0#8, 0#8] ++ [6#8, 0#8, 0#8, 0#8]), wCastWait Obj.devHeadPosition, ((wCastWait Obj.devHeadPosition).commitCommand (wRow Obj.devHeadPosition) Obj.devHeadPosition 0 6 [0]).2, 3, 0, wRow Obj.devHeadPosition, ⟨3, false, Obj.devHeadPosition, 0, [0], 6⟩, [], quiet_of (by decide +kernel), by decide +kernel, by decide +kernel, by decide +kernel, by decide +kernel, by decide +kernel, by decide +kernel, by decide +kernel, by decide +kernel, by decide +kernel, by decide +kernel, by decide +kernel, by decide +kernel, by decide +kernel, by decide +kernel, by decide +kernel, by decide +kernel, by decide +kernel, by decide +kernel⟩,
   ⟨wGroup, 0, 0, 0, 0, 0, wCast 0, 0xFFFFEF000001, wItem 2 (toBE 2 Obj.devHeadPosition ++ toBE 2 0 ++ toBE 2 1 ++ [0#8, 0#8] ++ [6#8, 0#8, 0#8, 0#8]), wCastWait Obj.devHeadPosition, ((wCastWait Obj.devHeadPosition).commitCommand (wRow Obj.devHeadPosition) Obj.devHeadPosition 0 6 [0]).2, 3, 0, wRow Obj.devHeadPosition, ⟨3, false, Obj.devHeadPosition, 0, [0], 6⟩, [], quiet_of (by decide +kernel), by decide +kernel, by decide +kernel, by decide +kernel, by decide +kernel, by decide +kernel, by decide +kernel, by decide +kernel, by decide +kernel, by decide +kernel, by decide +kernel, by decide +kernel, by decide +kernel, by decide +kernel, by decide +kernel, by decide +kernel, by decide +kernel, by decide +kernel, by decide +kernel, by decide +kernel⟩,
   ⟨wGroup, 0, 0, 0, 0, 0, mkFrame 1 0 0xFFFF 0 [wItem 2 (toBE 2 Obj.fcrClear ++ toBE 2 0 ++ toBE 2 2 ++ [0#8, 0#8] ++ [255#8, 255#8, 0#8, 0#8])], 0xFFFFEF000001, wItem 2 (toBE 2 Obj.fcrClear ++ toBE 2 0 ++ toBE 2 2 ++ [0#8, 0#8] ++ [255#8, 255#8, 0#8, 0#8]), wCastHot, (wCastHot.commitCommand (wRow Obj.fcrClear) Obj.fcrClear 0 0xFFFF [0]).2, 3, rBusy, wRow Obj.fcrClear, ⟨3, false, Obj.fcrClear, 0, [0], 0xFFFF⟩, [], quiet_of (by decide +kernel), by decide +kernel, by decide +kernel, by decide +kernel, by decide +kernel, by decide +kernel, by decide +kernel, by decide +kernel, by decide +kernel, by decide +kernel, by decide +kernel, by decide +kernel, by decide +kernel, by decide +kernel, by decide +kernel, by decide +kernel, by decide +kernel, by decide +kernel, by decide +kernel, by decide +kernel, by decide +kernel⟩,
   ⟨wS, 0, 0, 0, 0, 0, [], 0xFFFFEF000001, quiet_of (by decide +kernel), by decide +kernel⟩⟩

/-- The hypotheses of each clause of WorkItems can be met (clauses of the same hypotheses together). -/
theorem witness_WorkItems :
    (∃ (s : State) (flow : Nat) (prio : Nat) (producer : Nat), (s.ready.length < 64512)) ∧
    (∃ (s : State) (flow : Nat) (prio : Nat) (producer : Nat), (64512 ≤ s.ready.length) ∧ (({ flow := flow, prio := s.flowPrio flow prio, producer := producer, enq := s.now } : Item).prio < 6)) ∧
    (∃ (s : State) (i : Item) (c : Nat), ((s.reach s.dispatchEdge).choice (s.reach s.dispatchEdge).now = some (i, c)) ∧ (((s.reach s.dispatchEdge).dispatchTo i c).choice ((s.reach s.dispatchEdge).dispatchTo i c).now = none)) ∧
    (∃ (s : State) (c : Nat) (t0 : Nat) (i : Item), ((s.core c).item = some (i, t0)) ∧ (s.coreState c ≠ 5) ∧ (s.Quiet) ∧ (i.flow = 88 → s.ode.jobs = []) ∧ (∀ g < 32, s.groupTimer g = none) ∧ (bit (s.rd Obj.wdpTraceCtrl 0) 0 = true → s.hbmWritable = true)) :=
  ⟨⟨wS, 7, 3, 0, by decide +kernel⟩,
   ⟨{ wS with ready := List.replicate 64512 ⟨7, 3, 0, 0⟩ }, 7, 3, 0, by decide +kernel, by decide +kernel⟩,
   ⟨wReady [⟨4096, 3, 0, 0⟩], ⟨4096, 3, 0, 0⟩, 2, by decide +kernel, by decide +kernel⟩,
   ⟨wBusyCore, 2, 5, ⟨7, 3, 0, 0⟩, by decide +kernel, by decide +kernel, quiet_of (by decide +kernel), by decide +kernel, by decide +kernel, by decide +kernel⟩⟩

/-- The hypotheses of each clause of CoresThatStop can be met (clauses of the same hypotheses together). -/
theorem witness_CoresThatStop :
    (∃ (s : State) (c : Nat) (i : Item) (t0 : Nat), ((s.core c).item = some (i, t0))) ∧
    (∃ (s : State) (c : Nat), (s.fcr.injLeft = 0)) ∧
    (∃ (s : State) (c : Nat), ((s.checked Ev.cccEccU (16 + c)).1 = 1)) ∧
    (∃ (s : State) (c : Nat), (s.epochGrid ≤ s.now)) :=
  ⟨⟨wBusyCore, 2, ⟨7, 3, 0, 0⟩, 5, by decide +kernel⟩,
   ⟨wBusyCore, 2, by decide +kernel⟩,
   ⟨wInject Ev.cccEccU 1, 2, by decide +kernel⟩,
   ⟨wS, 2, by decide +kernel⟩⟩

/-- The hypotheses of each clause of SourcesLatchAndAreClaimed can be met (clauses of the same hypotheses together). -/
theorem witness_SourcesLatchAndAreClaimed :
    (∃ (s : State) (n : Nat), (srcEnabled n = true) ∧ ((s.src n).high = false)) ∧
    (∃ (s : State) (n : Nat) (high : Bool), (high = false)) ∧
    (∃ (s : State) (g : Nat) (d : Nat), (g < 32) ∧ (s.groupTimer g = some d)) :=
  ⟨⟨wS, 80, by decide +kernel, by decide +kernel⟩,
   ⟨wS, 80, false, by decide +kernel⟩,
   ⟨wS.setGroup 3 (some 9), 3, 9, by decide +kernel, by decide +kernel⟩⟩

/-- The hypotheses of each clause of CoresWaitAndHandle can be met (clauses of the same hypotheses together). -/
theorem witness_CoresWaitAndHandle :
    (∃ (s : State) (c : Nat) (m : Bool), (s.coreState c ≠ 0) ∧ (s.coreState c ≠ 5) ∧ ((s.core c).item ≠ none)) ∧
    (∃ (s : State) (c : Nat) (d : Delivery), ((s.core c).nextDue = some d) ∧ (s.coreState c ≠ 5)) :=
  ⟨⟨wBusyCore, 2, true, by decide +kernel, by decide +kernel, by decide +kernel⟩,
   ⟨wS.setCore 2 { due := [⟨80, false, 9⟩] }, 2, ⟨80, false, 9⟩, by decide +kernel, by decide +kernel⟩⟩

/-- The hypotheses of each clause of FaultsAreCollected can be met (clauses of the same hypotheses together). -/
theorem witness_FaultsAreCollected :
    (∃ (s : State) (n : Nat) (inst : Nat) (master : Nat) (access : Nat) (addr : Nat) (c : Nat) (scope : Option Nat) (own : Bool), (faultClass n = some c)) ∧
    (∃ (s : State) (n : Nat) (inst : Nat) (master : Nat) (access : Nat) (addr : Nat) (c : Nat) (scope : Option Nat) (own : Bool), (faultClass n = some c) ∧ (c = 0)) ∧
    (∃ (s : State) (n : Nat) (inst : Nat) (master : Nat) (access : Nat) (addr : Nat) (c : Nat), (faultClass n = some c) ∧ (n ≠ Ev.fcrParity)) :=
  ⟨⟨wNdlIn .run 4, Ev.fcrParity, 0xFFFF, 0, 0, 0, 2, none, false, by decide +kernel⟩,
   ⟨wNdlIn .run 4, Ev.hmsEccC, 0, 0, 0, 0, 0, some 1, false, by decide +kernel, by decide +kernel⟩,
   ⟨wNdlIn .run 4, Ev.clkRefLost, 0, 0, 0, 0, 1, by decide +kernel, by decide +kernel⟩⟩

/-- The hypotheses of each clause of ReactionsReachTheirNeedles can be met (clauses of the same hypotheses together). -/
theorem witness_ReactionsReachTheirNeedles :
    (∃ (s : State) (r : Reaction), (s.fcr.reactions = [r]) ∧ (s.Quiet) ∧ (r.invalid = true) ∧ (r.stop = false)) ∧
    (∃ (s : State) (r : Reaction) (n : Nat), (s.fcr.reactions = [r]) ∧ (s.Quiet) ∧ (n < 16) ∧ (r.stop = true) ∧ (r.invalid = false) ∧ (r.scope = some (2 ^ n)) ∧ (s.busyNeedle n = true) ∧ ((s.ndl n).bound = none)) :=
  ⟨⟨wReact ⟨Ev.hmsEccU, none, true, false, 9⟩, ⟨Ev.hmsEccU, none, true, false, 9⟩, by decide +kernel, quiet_of (by decide +kernel), by decide +kernel, by decide +kernel⟩,
   ⟨wReact ⟨Ev.hmsEccU, some 1, false, true, 9⟩, ⟨Ev.hmsEccU, some 1, false, true, 9⟩, 0, by decide +kernel, quiet_of (by decide +kernel), by decide +kernel, by decide +kernel, by decide +kernel, by decide +kernel, by decide +kernel, by decide +kernel⟩⟩

/-- The hypotheses of each clause of FaultsAreCleared can be met (clauses of the same hypotheses together). -/
theorem witness_FaultsAreCleared :
    (∃ (s : State) (n : Nat) (x : Session) (r : ObjRow) (src : Nat), (src ≠ 65535) ∧ (src < 256 ^ (tyLen r.ty).getD 0) ∧ (Accepts s n x r Obj.fcrClear 0 (toLE ((tyLen r.ty).getD 0) src) [0])) ∧
    (∃ (s : State) (n : Nat) (x : Session) (r : ObjRow), (65535 < 256 ^ (tyLen r.ty).getD 0) ∧ (Accepts s n x r Obj.fcrClear 0 (toLE ((tyLen r.ty).getD 0) 65535) [0])) ∧
    (∃ (s : State) (n : Nat) (x : Session) (r : ObjRow), (1 < 256 ^ (tyLen r.ty).getD 0) ∧ (Accepts s n x r Obj.fcrFirstClear 0 (toLE ((tyLen r.ty).getD 0) 1) [0])) ∧
    (∃ (s : State) (n : Nat) (x : Session) (r : ObjRow) (src : Nat), (s.active src = true) ∧ (s.causePresent src = false) ∧ (s.mode = Mode.calibrate)) ∧
    (∃ (s : State) (n : Nat) (x : Session) (r : ObjRow) (src : Nat), (s.active src = false)) :=
  ⟨⟨(wOnIn .idle).wr Obj.fcrActive 0 (2 ^ Ev.hmsEccU), 1, wX, wRow Obj.fcrClear, Ev.hmsEccU, by decide +kernel, by decide +kernel, accepts_of (by decide +kernel)⟩,
   ⟨(wOnIn .idle).wr Obj.fcrActive 0 (2 ^ Ev.hmsEccU + 2 ^ Ev.bootSelftest), 1, wX, wRow Obj.fcrClear, by decide +kernel, accepts_of (by decide +kernel)⟩,
   ⟨wOnIn .idle, 1, wX, wRow Obj.fcrFirstClear, by decide +kernel, accepts_of (by decide +kernel)⟩,
   ⟨(wOnIn .calibrate).wr Obj.fcrActive 0 (2 ^ Ev.hmsEccU), 1, wX, wRow Obj.fcrFirstClear, Ev.hmsEccU, by decide +kernel, by decide +kernel, by decide +kernel⟩,
   ⟨wS, 1, wX, wRow Obj.fcrFirstClear, Ev.hmsEccU, by decide +kernel⟩⟩

/-- The hypotheses of each clause of InjectionsAndParity can be met (clauses of the same hypotheses together). -/
theorem witness_InjectionsAndParity :
    (∃ (s : State) (n : Nat) (x : Session) (r : ObjRow) (src : Nat) (bits : Nat) (m : Nat) (k : Nat), (src ≠ 65535) ∧ (src < 2 ^ 16) ∧ (bits < 256) ∧ (m < 256) ∧ (k < 2 ^ 16) ∧ (src + bits * 2 ^ 16 + m * 2 ^ 24 + k * 2 ^ 32 < 256 ^ (tyLen r.ty).getD 0) ∧ (Accepts s n x r Obj.fcrInject 0 (toLE ((tyLen r.ty).getD 0) (src + bits * 2 ^ 16 + m * 2 ^ 24 + k * 2 ^ 32)) [0])) ∧
    (∃ (s : State) (n : Nat) (x : Session) (r : ObjRow), (65535 + 2 ^ 16 + 255 * 2 ^ 24 + 2 ^ 32 < 256 ^ (tyLen r.ty).getD 0) ∧ (Accepts s n x r Obj.fcrInject 0 (toLE ((tyLen r.ty).getD 0) (65535 + 2 ^ 16 + 255 * 2 ^ 24 + 2 ^ 32)) [0])) :=
  ⟨⟨wOnIn .idle, 1, wX, wRow Obj.fcrInject, Ev.hmsEccU, 1, 0xFF, 2, by decide +kernel, by decide +kernel, by decide +kernel, by decide +kernel, by decide +kernel, by decide +kernel, accepts_of (by decide +kernel)⟩,
   ⟨wOnIn .idle, 1, wX, wRow Obj.fcrInject, by decide +kernel, accepts_of (by decide +kernel)⟩⟩

/-- The hypotheses of each clause of ChartsAndWavesAreValidated can be met (clauses of the same hypotheses together). -/
theorem witness_ChartsAndWavesAreValidated :
    (∃ (s : State) (h : Nat) (id : Nat) (x : Xfer) (w : Waiter), (s.writing Obj.ndlChartImage h = some (id, x)) ∧ (x.validating = true) ∧ (s.Awaits w) ∧ (w.token = Token.xfer id) ∧ (chartChecks x.data = none)) ∧
    (∃ (s : State) (h : Nat) (id : Nat) (x : Xfer) (w : Waiter) (c : Nat) (e : Nat), (s.writing Obj.ndlChartImage h = some (id, x)) ∧ (x.validating = true) ∧ (s.Awaits w) ∧ (w.token = Token.xfer id) ∧ (chartChecks x.data = some (c, e))) ∧
    (∃ (s : State) (h : Nat) (id : Nat) (x : Xfer) (w : Waiter), (s.writing Obj.ptfWaveTable h = some (id, x)) ∧ (x.validating = true) ∧ (s.Awaits w) ∧ (w.token = Token.xfer id) ∧ (waveChecks x.data = none)) ∧
    (∃ (s : State) (h : Nat) (id : Nat) (x : Xfer) (w : Waiter) (c : Nat) (p : Nat) (v : Nat) (e : Nat), (s.writing Obj.ptfWaveTable h = some (id, x)) ∧ (x.validating = true) ∧ (s.Awaits w) ∧ (w.token = Token.xfer id) ∧ (waveChecks x.data = some (c, p, v, e))) ∧
    (∃ (s : State) (h : Nat), (s.Quiet) ∧ (s.writing Obj.ndlChartImage h = none)) ∧
    (∃ (s : State) (h : Nat), (s.Quiet) ∧ (s.writing Obj.ptfWaveTable h = none)) :=
  ⟨⟨wVal Obj.ndlChartImage 7 wChart 4, 7, 5, ⟨1, Obj.ndlChartImage, 7, false, 256, wChart, 0, true, 0⟩, ⟨.xfer 5, 1, 4, false, 0, 0, none⟩, by decide +kernel, by decide +kernel, awaits_of (by decide +kernel), by decide +kernel, by decide +kernel⟩,
   ⟨wVal Obj.ndlChartImage 7 [] 4, 7, 5, ⟨1, Obj.ndlChartImage, 7, false, 0, [], 0, true, 0⟩, ⟨.xfer 5, 1, 4, false, 0, 0, none⟩, 1, 0, by decide +kernel, by decide +kernel, awaits_of (by decide +kernel), by decide +kernel, by decide +kernel⟩,
   ⟨wVal Obj.ptfWaveTable 7 wWave 4, 7, 5, ⟨1, Obj.ptfWaveTable, 7, false, 1152, wWave, 0, true, 0⟩, ⟨.xfer 5, 1, 4, false, 0, 0, none⟩, by decide +kernel, by decide +kernel, awaits_of (by decide +kernel), by decide +kernel, by decide +kernel⟩,
   ⟨wVal Obj.ptfWaveTable 7 [] 4, 7, 5, ⟨1, Obj.ptfWaveTable, 7, false, 0, [], 0, true, 0⟩, ⟨.xfer 5, 1, 4, false, 0, 0, none⟩, 1, 0, 0, 7, by decide +kernel, by decide +kernel, awaits_of (by decide +kernel), by decide +kernel, by decide +kernel⟩,
   ⟨wS, 7, quiet_of (by decide +kernel), by decide +kernel⟩,
   ⟨wS, 7, quiet_of (by decide +kernel), by decide +kernel⟩⟩

/-- The hypotheses of each clause of ChartsAndWavesAreDeleted can be met (clauses of the same hypotheses together). -/
theorem witness_ChartsAndWavesAreDeleted :
    (∃ (s : State) (n : Nat) (el : Nat) (x : Session) (r : ObjRow) (els : List Nat), (1 < 256 ^ (tyLen r.ty).getD 0) ∧ (Accepts s n x r Obj.ndlChartDelete el (toLE ((tyLen r.ty).getD 0) 1) els)) ∧
    (∃ (s : State) (n : Nat) (el : Nat) (x : Session) (r : ObjRow) (els : List Nat), (1 < 256 ^ (tyLen r.ty).getD 0) ∧ (Accepts s n x r Obj.ptfWaveDelete el (toLE ((tyLen r.ty).getD 0) 1) els)) :=
  ⟨⟨((wOnIn .idle).wr Obj.ndlChartState 7 2).setImg Obj.ndlChartImage 7 wChart, 1, 7, wX, wRow Obj.ndlChartDelete, [7], by decide +kernel, accepts_of (by decide +kernel)⟩,
   ⟨((wOnIn .idle).wr Obj.ptfWaveState 7 2).setImg Obj.ptfWaveTable 7 wWave, 1, 7, wX, wRow Obj.ptfWaveDelete, [7], by decide +kernel, accepts_of (by decide +kernel)⟩⟩

/-- The hypotheses of each clause of WritesAreStaged can be met (clauses of the same hypotheses together). -/
theorem witness_WritesAreStaged :
    (∃ (s : State) (n : Nat) (el : Nat) (v : Nat) (x : Session) (r : ObjRow) (els : List Nat), (1 < 256 ^ (tyLen r.ty).getD 0) ∧ (Accepts s n x r Obj.ndlStart el (toLE ((tyLen r.ty).getD 0) 1) els)) ∧
    (∃ (s : State) (n : Nat) (el : Nat) (v : Nat) (x : Session) (r : ObjRow) (els : List Nat), (1 < 256 ^ (tyLen r.ty).getD 0) ∧ (Accepts s n x r Obj.ndlFrog el (toLE ((tyLen r.ty).getD 0) 1) els)) ∧
    (∃ (s : State) (n : Nat) (el : Nat) (v : Nat) (x : Session) (r : ObjRow) (els : List Nat), (v < 256 ^ (tyLen r.ty).getD 0) ∧ (Accepts s n x r Obj.ndlHostEvent el (toLE ((tyLen r.ty).getD 0) v) els)) ∧
    (∃ (s : State) (n : Nat) (el : Nat) (v : Nat) (x : Session) (r : ObjRow) (els : List Nat), (v < 256 ^ (tyLen r.ty).getD 0) ∧ (Accepts s n x r Obj.ndlJump el (toLE ((tyLen r.ty).getD 0) v) els)) ∧
    (∃ (s : State) (n : Nat) (el : Nat) (v : Nat) (x : Session) (r : ObjRow) (els : List Nat), (v < 256 ^ (tyLen r.ty).getD 0) ∧ (Accepts s n x r Obj.ptfMeasDrive el (toLE ((tyLen r.ty).getD 0) v) els)) :=
  ⟨⟨wNdlIn .armed 2, 1, 0, 1, wX, wRow Obj.ndlStart, [0], by decide +kernel, accepts_of (by decide +kernel)⟩,
   ⟨wNdlIn .run 4, 1, 0, 1, wX, wRow Obj.ndlFrog, [0], by decide +kernel, accepts_of (by decide +kernel)⟩,
   ⟨wNdlIn .run 4, 1, 0, 9, wX, wRow Obj.ndlHostEvent, [0], by decide +kernel, accepts_of (by decide +kernel)⟩,
   ⟨(wNdlIn .run 4).setFld Obj.ndlJumpTable 0 F.ndlJumpTableValid 255, 1, 0, 3, wX, wRow Obj.ndlJump, [0], by decide +kernel, accepts_of (by decide +kernel)⟩,
   ⟨wOnIn .measure, 1, 4, 2, wX, wRow Obj.ptfMeasDrive, [4], by decide +kernel, accepts_of (by decide +kernel)⟩⟩

/-- The hypotheses of each clause of NeedlesStart can be met (clauses of the same hypotheses together). -/
theorem witness_NeedlesStart :
    (∃ (s : State) (n : Nat) (x : Staged), (n < 16) ∧ (s.stagedFor Obj.ndlStart n = some x) ∧ (({ s with staged := s.staged.erase x }.reach x.due).qualifies (members 16 x.els) = true) ∧ (members 16 x.els ≠ [])) ∧
    (∃ (s : State) (n : Nat) (x : Staged), (n < 16) ∧ (s.stagedFor Obj.ndlStart n = some x) ∧ (({ s with staged := s.staged.erase x }.reach x.due).qualifies (members 16 x.els) = false)) ∧
    (∃ (s : State) (q : Nat), (s.clk.startQ = some q) ∧ ((s.reach q).qualifies (members 16 (s.fld Obj.clkStartStatus 0 F.clkStartStatusNeedles)) = true) ∧ (members 16 (s.fld Obj.clkStartStatus 0 F.clkStartStatusNeedles) ≠ [])) ∧
    (∃ (s : State) (q : Nat), (s.clk.startQ = some q) ∧ ((s.reach q).qualifies (members 16 (s.fld Obj.clkStartStatus 0 F.clkStartStatusNeedles)) = false)) ∧
    (∃ (s : State) (n : Nat) (ns : Nat) (a : Nat) (x : Session) (r : ObjRow), (ns < 2 ^ 16) ∧ (a < 2 ^ 64) ∧ (ns + a * 2 ^ 64 < 256 ^ (tyLen r.ty).getD 0) ∧ (Accepts s n x r Obj.clkStartAt 0 (toLE ((tyLen r.ty).getD 0) (ns + a * 2 ^ 64)) [0])) ∧
    (∃ (s : State) (n : Nat) (x : Session) (r : ObjRow), (1 < 256 ^ (tyLen r.ty).getD 0) ∧ (Accepts s n x r Obj.clkCancelStart 0 (toLE ((tyLen r.ty).getD 0) 1) [0])) :=
  ⟨⟨{ wNdlIn .armed 2 with staged := [⟨Obj.ndlStart, 0, 1, 1, 99⟩] }, 0, ⟨Obj.ndlStart, 0, 1, 1, 99⟩, by decide +kernel, by decide +kernel, by decide +kernel, by decide +kernel⟩,
   ⟨wStaged 4 Obj.ndlStart 1, 0, ⟨Obj.ndlStart, 0, 1, 1, 99⟩, by decide +kernel, by decide +kernel, by decide +kernel⟩,
   ⟨wTimed .armed 2, 99, by decide +kernel, by decide +kernel, by decide +kernel⟩,
   ⟨wTimed .armed 3, 99, by decide +kernel, by decide +kernel⟩,
   ⟨wNdlIn .armed 2, 1, 1, 10^9, wX, wRow Obj.clkStartAt, by decide +kernel, by decide +kernel, by decide +kernel, accepts_of (by decide +kernel)⟩,
   ⟨wTimed .armed 2, 1, wX, wRow Obj.clkCancelStart, by decide +kernel, accepts_of (by decide +kernel)⟩⟩

/-- The hypotheses of each clause of BlocksAreDecoded can be met (clauses of the same hypotheses together). -/
theorem witness_BlocksAreDecoded :
    (∃ (s : State) (n : Nat), (s.Quiet) ∧ (s.busyNeedle n = false)) ∧
    (∃ (s : State) (n : Nat) (img : Img) (off : Nat), (s.Quiet) ∧ (s.busyNeedle n = true) ∧ ((s.ndl n).wait = false) ∧ ((s.ndl n).queue = []) ∧ ((s.ndl n).q + vclkFs ≤ s.now) ∧ ((s.ndl n).warm = true) ∧ ((s.ndl n).cursor = some (img, off)) ∧ (off * 64 < List.length (s.imgBytes n img)) ∧ (s.fcr.injLeft = 0) ∧ ((decodeBlock (courseAt (s.imgBytes n img) off)).op = 3) ∧ ((decodeBlock (courseAt (s.imgBytes n img) off)).count = 0) ∧ (blockCrcOk (courseAt (s.imgBytes n img) off) = true) ∧ (s.uBad (s.trapped (decodeBlock (courseAt (s.imgBytes n img) off)).op) = false)) ∧
    (∃ (s : State) (n : Nat) (img : Img) (off : Nat), (s.Quiet) ∧ (s.busyNeedle n = true) ∧ ((s.ndl n).wait = false) ∧ ((s.ndl n).queue = []) ∧ ((s.ndl n).q + vclkFs ≤ s.now) ∧ ((s.ndl n).warm = true) ∧ ((s.ndl n).cursor = some (img, off)) ∧ (off * 64 < List.length (s.imgBytes n img)) ∧ (s.fcr.injLeft = 0) ∧ ((decodeBlock (courseAt (s.imgBytes n img) off)).op = 3) ∧ ((decodeBlock (courseAt (s.imgBytes n img) off)).count ≠ 0) ∧ (blockCrcOk (courseAt (s.imgBytes n img) off) = true) ∧ (s.uBad (s.trapped (decodeBlock (courseAt (s.imgBytes n img) off)).op) = false)) ∧
    (∃ (s : State) (n : Nat) (img : Img) (off : Nat) (i : Img) (o : Nat) (left : Nat) (rest : List (Img × Nat × Nat)), (s.Quiet) ∧ (s.busyNeedle n = true) ∧ ((s.ndl n).wait = false) ∧ ((s.ndl n).queue = []) ∧ ((s.ndl n).q + vclkFs ≤ s.now) ∧ ((s.ndl n).warm = true) ∧ ((s.ndl n).cursor = some (img, off)) ∧ (off * 64 < List.length (s.imgBytes n img)) ∧ (s.fcr.injLeft = 0) ∧ ((decodeBlock (courseAt (s.imgBytes n img) off)).op = 4) ∧ ((s.ndl n).loops = (i, o, left) :: rest) ∧ (left ≤ 1) ∧ (blockCrcOk (courseAt (s.imgBytes n img) off) = true) ∧ (s.uBad (s.trapped (decodeBlock (courseAt (s.imgBytes n img) off)).op) = false)) ∧
    (∃ (s : State) (n : Nat) (img : Img) (off : Nat) (i : Img) (o : Nat) (left : Nat) (rest : List (Img × Nat × Nat)), (s.Quiet) ∧ (s.busyNeedle n = true) ∧ ((s.ndl n).wait = false) ∧ ((s.ndl n).queue = []) ∧ ((s.ndl n).q + vclkFs ≤ s.now) ∧ ((s.ndl n).warm = true) ∧ ((s.ndl n).cursor = some (img, off)) ∧ (off * 64 < List.length (s.imgBytes n img)) ∧ (s.fcr.injLeft = 0) ∧ ((decodeBlock (courseAt (s.imgBytes n img) off)).op = 4) ∧ ((s.ndl n).loops = (i, o, left) :: rest) ∧ (1 < left) ∧ (blockCrcOk (courseAt (s.imgBytes n img) off) = true) ∧ (s.uBad (s.trapped (decodeBlock (courseAt (s.imgBytes n img) off)).op) = false)) ∧
    (∃ (s : State) (n : Nat) (img : Img) (off : Nat), (s.Quiet) ∧ (s.busyNeedle n = true) ∧ ((s.ndl n).wait = false) ∧ ((s.ndl n).queue = []) ∧ ((s.ndl n).q + vclkFs ≤ s.now) ∧ ((s.ndl n).warm = true) ∧ ((s.ndl n).cursor = some (img, off)) ∧ (off * 64 < List.length (s.imgBytes n img)) ∧ (s.fcr.injLeft = 0) ∧ ((decodeBlock (courseAt (s.imgBytes n img) off)).op = 5) ∧ (blockCrcOk (courseAt (s.imgBytes n img) off) = true) ∧ (s.uBad (s.trapped (decodeBlock (courseAt (s.imgBytes n img) off)).op) = false)) ∧
    (∃ (s : State) (n : Nat) (img : Img) (off : Nat) (p : Img × Nat) (rest : List (Img × Nat)), (s.Quiet) ∧ (s.busyNeedle n = true) ∧ ((s.ndl n).wait = false) ∧ ((s.ndl n).queue = []) ∧ ((s.ndl n).q + vclkFs ≤ s.now) ∧ ((s.ndl n).warm = true) ∧ ((s.ndl n).cursor = some (img, off)) ∧ (off * 64 < List.length (s.imgBytes n img)) ∧ (s.fcr.injLeft = 0) ∧ ((decodeBlock (courseAt (s.imgBytes n img) off)).op = 6) ∧ ((s.ndl n).calls = p :: rest) ∧ (blockCrcOk (courseAt (s.imgBytes n img) off) = true) ∧ (s.uBad (s.trapped (decodeBlock (courseAt (s.imgBytes n img) off)).op) = false)) ∧
    (∃ (s : State) (n : Nat) (img : Img) (off : Nat), (s.Quiet) ∧ (s.busyNeedle n = true) ∧ ((s.ndl n).wait = false) ∧ ((s.ndl n).queue = []) ∧ ((s.ndl n).q + vclkFs ≤ s.now) ∧ ((s.ndl n).warm = true) ∧ ((s.ndl n).cursor = some (img, off)) ∧ (off * 64 < List.length (s.imgBytes n img)) ∧ (s.fcr.injLeft = 0) ∧ ((decodeBlock (courseAt (s.imgBytes n img) off)).op = 7) ∧ (blockCrcOk (courseAt (s.imgBytes n img) off) = true) ∧ (s.uBad (s.trapped (decodeBlock (courseAt (s.imgBytes n img) off)).op) = false)) ∧
    (∃ (s : State) (n : Nat) (img : Img) (off : Nat), (s.Quiet) ∧ (s.busyNeedle n = true) ∧ ((s.ndl n).wait = false) ∧ ((s.ndl n).queue = []) ∧ ((s.ndl n).q + vclkFs ≤ s.now) ∧ ((s.ndl n).warm = true) ∧ ((s.ndl n).cursor = some (img, off)) ∧ (off * 64 < List.length (s.imgBytes n img)) ∧ (s.fcr.injLeft = 0) ∧ ((decodeBlock (courseAt (s.imgBytes n img) off)).op ∈ [8, 9, 10]) ∧ (blockCrcOk (courseAt (s.imgBytes n img) off) = true) ∧ (s.uBad (s.trapped (decodeBlock (courseAt (s.imgBytes n img) off)).op) = false)) ∧
    (∃ (s : State) (n : Nat) (img : Img) (off : Nat), (s.Quiet) ∧ (s.busyNeedle n = true) ∧ ((s.ndl n).wait = false) ∧ ((s.ndl n).queue = []) ∧ ((s.ndl n).q + vclkFs ≤ s.now) ∧ ((s.ndl n).warm = true) ∧ ((s.ndl n).cursor = some (img, off)) ∧ (off * 64 < List.length (s.imgBytes n img)) ∧ (s.fcr.injLeft = 0) ∧ ((decodeBlock (courseAt (s.imgBytes n img) off)).op = 255) ∧ (blockCrcOk (courseAt (s.imgBytes n img) off) = true) ∧ (s.uBad (s.trapped (decodeBlock (courseAt (s.imgBytes n img) off)).op) = false)) ∧
    (∃ (s : State) (n : Nat) (img : Img) (off : Nat), (s.Quiet) ∧ (s.busyNeedle n = true) ∧ ((s.ndl n).wait = false) ∧ ((s.ndl n).queue = []) ∧ ((s.ndl n).q + vclkFs ≤ s.now) ∧ ((s.ndl n).warm = true) ∧ ((s.ndl n).cursor = some (img, off)) ∧ (off * 64 < List.length (s.imgBytes n img)) ∧ (s.fcr.injLeft = 0) ∧ ((decodeBlock (courseAt (s.imgBytes n img) off)).op ∈ [1, 2, 11, 12, 13, 14, 15, 16, 17, 19, 20, 254]) ∧ (blockCrcOk (courseAt (s.imgBytes n img) off) = true) ∧ (s.uBad (s.trapped (decodeBlock (courseAt (s.imgBytes n img) off)).op) = false)) ∧
    (∃ (s : State) (n : Nat) (img : Img) (off : Nat) (h : Nat), (s.Quiet) ∧ (s.busyNeedle n = true) ∧ ((s.ndl n).wait = false) ∧ ((s.ndl n).queue = []) ∧ ((s.ndl n).q + vclkFs ≤ s.now) ∧ ((s.ndl n).warm = true) ∧ ((s.ndl n).cursor = some (img, off)) ∧ (off * 64 < List.length (s.imgBytes n img)) ∧ (s.fcr.injLeft = 0) ∧ ((decodeBlock (courseAt (s.imgBytes n img) off)).op = 18) ∧ (img = Img.chart h) ∧ (blockCrcOk (courseAt (s.imgBytes n img) off) = true) ∧ (s.uBad (s.trapped (decodeBlock (courseAt (s.imgBytes n img) off)).op) = false)) ∧
    (∃ (s : State) (n : Nat) (img : Img) (off : Nat), (s.Quiet) ∧ (s.busyNeedle n = true) ∧ ((s.ndl n).wait = false) ∧ ((s.ndl n).queue = []) ∧ ((s.ndl n).q + vclkFs ≤ s.now) ∧ ((s.ndl n).warm = true) ∧ ((s.ndl n).cursor = some (img, off)) ∧ (off * 64 < List.length (s.imgBytes n img)) ∧ (s.fcr.injLeft = 0) ∧ (blockCrcOk (courseAt (s.imgBytes n img) off) = false) ∧ ((s.ndl n).bound = none)) :=
  ⟨⟨wNdlIn .run 1, 0, quiet_of (by decide +kernel), by decide +kernel⟩,
   ⟨wDec (wBlk 3 0 0 3 0 ++ wBlk 4 0 0 2 0) {}, 0, .chart 7, 2, quiet_of (by decide +kernel), by decide +kernel, by decide +kernel, by decide +kernel, by decide +kernel, by decide +kernel, by decide +kernel, by decide +kernel, by decide +kernel, by decide +kernel, by decide +kernel, by decide +kernel, by decide +kernel⟩,
   ⟨wDec (wBlk 3 0 4 3 0 ++ wBlk 4 0 0 2 0) {}, 0, .chart 7, 2, quiet_of (by decide +kernel), by decide +kernel, by decide +kernel, by decide +kernel, by decide +kernel, by decide +kernel, by decide +kernel, by decide +kernel, by decide +kernel, by decide +kernel, by decide +kernel, by decide +kernel, by decide +kernel⟩,
   ⟨wDec (wBlk 4 0 0 2 0) { loops := [(.chart 7, 1, 1)] }, 0, .chart 7, 2, .chart 7, 1, 1, [], quiet_of (by decide +kernel), by decide +kernel, by decide +kernel, by decide +kernel, by decide +kernel, by decide +kernel, by decide +kernel, by decide +kernel, by decide +kernel, by decide +kernel, by decide +kernel, by decide +kernel, by decide +kernel, by decide +kernel⟩,
   ⟨wDec (wBlk 4 0 0 2 0) { loops := [(.chart 7, 1, 3)] }, 0, .chart 7, 2, .chart 7, 1, 3, [], quiet_of (by decide +kernel), by decide +kernel, by decide +kernel, by decide +kernel, by decide +kernel, by decide +kernel, by decide +kernel, by decide +kernel, by decide +kernel, by decide +kernel, by decide +kernel, by decide +kernel, by decide +kernel, by decide +kernel⟩,
   ⟨wDec (wBlk 5 0 0 9 (2^15 + 8)) {}, 0, .chart 7, 2, quiet_of (by decide +kernel), by decide +kernel, by decide +kernel, by decide +kernel, by decide +kernel, by decide +kernel, by decide +kernel, by decide +kernel, by decide +kernel, by decide +kernel, by decide +kernel, by decide +kernel⟩,
   ⟨wDec (wBlk 6 0 0 0 0) { calls := [(.chart 7, 5)] }, 0, .chart 7, 2, (.chart 7, 5), [], quiet_of (by decide +kernel), by decide +kernel, by decide +kernel, by decide +kernel, by decide +kernel, by decide +kernel, by decide +kernel, by decide +kernel, by decide +kernel, by decide +kernel, by decide +kernel, by decide +kernel, by decide +kernel⟩,
   ⟨wDec (wBlk 7 0 0 2 0) {}, 0, .chart 7, 2, quiet_of (by decide +kernel), by decide +kernel, by decide +kernel, by decide +kernel, by decide +kernel, by decide +kernel, by decide +kernel, by decide +kernel, by decide +kernel, by decide +kernel, by decide +kernel, by decide +kernel⟩,
   ⟨wDec (wBlk 9 0 0 2 0) {}, 0, .chart 7, 2, quiet_of (by decide +kernel), by decide +kernel, by decide +kernel, by decide +kernel, by decide +kernel, by decide +kernel, by decide +kernel, by decide +kernel, by decide +kernel, by decide +kernel, by decide +kernel, by decide +kernel⟩,
   ⟨wDec (wBlk 0xFF 1 0 0 0) {}, 0, .chart 7, 2, quiet_of (by decide +kernel), by decide +kernel, by decide +kernel, by decide +kernel, by decide +kernel, by decide +kernel, by decide +kernel, by decide +kernel, by decide +kernel, by decide +kernel, by decide +kernel, by decide +kernel⟩,
   ⟨wDec (wBlk 1 3 0 0 0) {}, 0, .chart 7, 2, quiet_of (by decide +kernel), by decide +kernel, by decide +kernel, by decide +kernel, by decide +kernel, by decide +kernel, by decide +kernel, by decide +kernel, by decide +kernel, by decide +kernel, by decide +kernel, by decide +kernel⟩,
   ⟨wDec (wBlk 0x12 0 0 0 0) {}, 0, .chart 7, 2, 7, quiet_of (by decide +kernel), by decide +kernel, by decide +kernel, by decide +kernel, by decide +kernel, by decide +kernel, by decide +kernel, by decide +kernel, by decide +kernel, by decide +kernel, by decide +kernel, by decide +kernel, by decide +kernel⟩,
   ⟨wDec ((wBlk 1 1 0 0 0).set 5 1#8) {}, 0, .chart 7, 2, quiet_of (by decide +kernel), by decide +kernel, by decide +kernel, by decide +kernel, by decide +kernel, by decide +kernel, by decide +kernel, by decide +kernel, by decide +kernel, by decide +kernel, by decide +kernel⟩⟩

/-- The hypotheses of each clause of StitchesAreIssued can be met (clauses of the same hypotheses together). -/
theorem witness_StitchesAreIssued :
    (∃ (s : State) (n : Nat), (s.Quiet) ∧ (n < 16) ∧ (s.issuing n = false) ∧ ((s.ndl n).bound = none)) ∧
    (∃ (s : State) (n : Nat) (e : Nat) (i : Nat), (s.Quiet) ∧ (n < 16) ∧ ((s.ndl n).bound = some (e, i)) ∧ ((s.ndl n).seam = none) ∧ (s.busyNeedle n = true)) ∧
    (∃ (s : State) (n : Nat) (d : Dec) (h : Nat) (t1 : Nat) (p : Nat) (e : Nat), (s.Quiet) ∧ (n < 16) ∧ (s.issuing n = true) ∧ (s.ndlState n ≠ 5) ∧ ((s.ndl n).flags = []) ∧ ((s.ndl n).queue = [d]) ∧ (d.blk.op = 1) ∧ (d.blk.len = (s.ndl n).pos + 1) ∧ ((s.ndl n).reps = 0) ∧ (d.img = Img.chart h) ∧ ((s.ndl n).brk = none) ∧ ((s.ndl n).jump = none) ∧ ((s.ndl n).freeze = none) ∧ ((s.ndl n).streams = 0) ∧ ((s.ndl n).skeinIn = none) ∧ (∃ h' o, (s.ndl n).cursor = some (Img.chart h', o)) ∧ (s.slot n = (false, t1, p, e)) ∧ (s.fcr.injLeft = 0) ∧ ((s.ndl n).held = []) ∧ (s.frogBy n e = false)) ∧
    (∃ (s : State) (n : Nat) (t1 : Nat) (p : Nat) (e : Nat), (s.Quiet) ∧ (n < 16) ∧ (s.issuing n = true) ∧ (s.ndlState n ≠ 5) ∧ ((s.ndl n).flags = []) ∧ ((s.ndl n).brk = none) ∧ ((s.ndl n).freeze = none) ∧ ((s.ndl n).pause = false) ∧ (s.slot n = (false, t1, p, e)) ∧ (s.openArrival n e = false) ∧ (s.missing n e false = true) ∧ (s.frogBy n e = false)) ∧
    (∃ (s : State) (n : Nat) (x : Nat), (s.Quiet) ∧ (n < 16) ∧ (s.ndlState n = 5) ∧ ((s.ndl n).bound = none) ∧ (s.stallEdge n = some x) ∧ (¬((s.slot n).2.2.2 ≤ x ∧ (s.openArrival n (s.slot n).2.2.2 = true ∨ s.stallEnds n (s.slot n).2.2.2 = true)))) ∧
    (∃ (s : State) (n : Nat), (s.Quiet) ∧ (n < 16) ∧ (s.ndlState n ≠ 5)) :=
  ⟨⟨wNdlIn .run 1, 0, quiet_of (by decide +kernel), by decide +kernel, by decide +kernel, by decide +kernel⟩,
   ⟨wIss 4 { bound := some (100, 50) }, 0, 100, 50, quiet_of (by decide +kernel), by decide +kernel, by decide +kernel, by decide +kernel, by decide +kernel⟩,
   ⟨wIss 4 { queue := [wStitch], cursor := w7 5, t0 := 10^9, castOn := false }, 0, wStitch, 7, 10^9, 10^9, 995000000, quiet_of (by decide +kernel), by decide +kernel, by decide +kernel, by decide +kernel, by decide +kernel, by decide +kernel, by decide +kernel, by decide +kernel, by decide +kernel, by decide +kernel, by decide +kernel, by decide +kernel, by decide +kernel, by decide +kernel, by decide +kernel, ⟨_, _, rfl⟩, by decide +kernel, by decide +kernel, by decide +kernel, by decide +kernel⟩,
   ⟨wIss 4 { cursor := some (.skein 0, 1), t0 := 10^9 }, 0, 10^9, 10^9, 995000000, quiet_of (by decide +kernel), by decide +kernel, by decide +kernel, by decide +kernel, by decide +kernel, by decide +kernel, by decide +kernel, by decide +kernel, by decide +kernel, by decide +kernel, by decide +kernel, by decide +kernel⟩,
   ⟨wIss 5 { cursor := some (.skein 0, 1), t0 := 10^9, stallFrom := some 8 }, 0, 10000001250000, quiet_of (by decide +kernel), by decide +kernel, by decide +kernel, by decide +kernel, by decide +kernel, by decide +kernel⟩,
   ⟨wNdlIn .run 1, 0, quiet_of (by decide +kernel), by decide +kernel, by decide +kernel⟩⟩

/-- The hypotheses of each clause of NeedlesEndAndHold can be met (clauses of the same hypotheses together). -/
theorem witness_NeedlesEndAndHold :
    (∃ (s : State) (n : Nat) (e : Nat), (s.Quiet) ∧ (n < 16) ∧ ((s.ndl n).seam = some (e, true))) ∧
    (∃ (s : State) (n : Nat) (e : Nat), (s.Quiet) ∧ (n < 16) ∧ ((s.ndl n).seam = some (e, false))) ∧
    (∃ (s : State) (n : Nat), (s.Quiet) ∧ (n < 16) ∧ ((s.ndl n).seam = none) ∧ ((s.ndl n).bound = none)) ∧
    (∃ (s : State) (n : Nat) (f : Nat) (t1 : Nat) (p : Nat) (e : Nat), (s.Quiet) ∧ (n < 16) ∧ ((s.ndl n).freeze = some f) ∧ (s.issuing n = true) ∧ (s.slot n = (false, t1, p, e)) ∧ (f ≤ e) ∧ ((s.ndl n).brk = none) ∧ (∀ (d : Dec), (s.ndl n).queue.head? = some d → d.waits = false)) ∧
    (∃ (s : State) (n : Nat), (s.Quiet) ∧ (n < 16) ∧ ((s.ndl n).freeze = none)) ∧
    (∃ (s : State) (n : Nat) (x : Machine.Trans) (a : Nat), (s.Quiet) ∧ (n < 16) ∧ (s.trans = some x) ∧ (x.target = 6) ∧ (x.source = 7) ∧ (x.due = some a)) ∧
    (∃ (s : State) (n : Nat), (s.Quiet) ∧ (n < 16) ∧ (s.trans = none)) ∧
    (∃ (s : State) (n : Nat) (c : Nat) (cause : Nat), (s.Quiet) ∧ (n < 16) ∧ (s.stagedFor Obj.ndlFrog n = none) ∧ ((s.ndl n).frogs = [(c, cause)]) ∧ (s.busyNeedle n = true) ∧ (cause < 8)) ∧
    (∃ (s : State) (n : Nat), (s.Quiet) ∧ (n < 16) ∧ (s.stagedFor Obj.ndlFrog n = none) ∧ ((s.ndl n).frogs = [])) ∧
    (∃ (s : State) (n : Nat) (d : Nat), (s.Quiet) ∧ (n < 16) ∧ ((s.ndl n).park = some d) ∧ (∀ e ∈ (s.ndl n).edges, e.pin ∈ s.chartPins n)) ∧
    (∃ (s : State) (n : Nat), (s.Quiet) ∧ (n < 16) ∧ ((s.ndl n).park = none)) :=
  ⟨⟨wIss 7 { seam := some (99, true) }, 0, 99, quiet_of (by decide +kernel), by decide +kernel, by decide +kernel⟩,
   ⟨wIss 4 { seam := some (10^9, false) }, 0, 10^9, quiet_of (by decide +kernel), by decide +kernel, by decide +kernel⟩,
   ⟨wNdlIn .run 8, 0, quiet_of (by decide +kernel), by decide +kernel, by decide +kernel, by decide +kernel⟩,
   ⟨wIss 4 { freeze := some 99, queue := [wStitch], cursor := w7 5, t0 := 10^9 }, 0, 99, 10^9, 10^9, 995000000, quiet_of (by decide +kernel), by decide +kernel, by decide +kernel, by decide +kernel, by decide +kernel, by decide +kernel, by decide +kernel, by decide +kernel⟩,
   ⟨wNdlIn .run 8, 0, quiet_of (by decide +kernel), by decide +kernel, by decide +kernel⟩,
   ⟨(wNdlIn .hold 6).wTrans 7 6 1 (some 99), 0, ⟨7, 6, 1, some 99⟩, 99, quiet_of (by decide +kernel), by decide +kernel, by decide +kernel, by decide +kernel, by decide +kernel, by decide +kernel⟩,
   ⟨wNdlIn .run 8, 0, quiet_of (by decide +kernel), by decide +kernel, by decide +kernel⟩,
   ⟨wIss 4 { frogs := [(99, 3)], active := 1 }, 0, 99, 3, quiet_of (by decide +kernel), by decide +kernel, by decide +kernel, by decide +kernel, by decide +kernel, by decide +kernel⟩,
   ⟨wNdlIn .run 8, 0, quiet_of (by decide +kernel), by decide +kernel, by decide +kernel, by decide +kernel⟩,
   ⟨wIss 9 { park := some 99 }, 0, 99, quiet_of (by decide +kernel), by decide +kernel, by decide +kernel, by decide +kernel⟩,
   ⟨wNdlIn .run 8, 0, quiet_of (by decide +kernel), by decide +kernel, by decide +kernel⟩⟩

/-- The hypotheses of each clause of StagedWritesReachTheirNeedles can be met (clauses of the same hypotheses together). -/
theorem witness_StagedWritesReachTheirNeedles :
    (∃ (s : State) (n : Nat) (x : Staged), (s.stagedFor Obj.ndlHostEvent n = some x)) ∧
    (∃ (s : State) (n : Nat), (s.stagedFor Obj.ndlHostEvent n = none)) ∧
    (∃ (s : State) (n : Nat) (x : Staged), (s.stagedFor Obj.ndlJump n = some x)) ∧
    (∃ (s : State) (n : Nat), (s.stagedFor Obj.ndlJump n = none)) ∧
    (∃ (s : State) (n : Nat) (x : Staged), (List.find? (fun y => y.obj == Obj.ptfMeasDrive) s.staged = some x) ∧ (s.mode = Mode.measure) ∧ ((s.reach x.due).safeGoing = false)) ∧
    (∃ (s : State) (n : Nat) (x : Staged), (List.find? (fun y => y.obj == Obj.ptfMeasDrive) s.staged = some x) ∧ (s.mode ≠ Mode.measure)) ∧
    (∃ (s : State) (n : Nat), (List.find? (fun y => y.obj == Obj.ptfMeasDrive) s.staged = none)) :=
  ⟨⟨wStaged 4 Obj.ndlHostEvent 9, 0, ⟨Obj.ndlHostEvent, 0, 1, 9, 99⟩, by decide +kernel⟩,
   ⟨wS, 0, by decide +kernel⟩,
   ⟨wStaged 4 Obj.ndlJump 3, 0, ⟨Obj.ndlJump, 0, 1, 3, 99⟩, by decide +kernel⟩,
   ⟨wS, 0, by decide +kernel⟩,
   ⟨{ wOnIn .measure with staged := [⟨Obj.ptfMeasDrive, 4, 2^4, 2, 99⟩] }, 0, ⟨Obj.ptfMeasDrive, 4, 2^4, 2, 99⟩, by decide +kernel, by decide +kernel, by decide +kernel⟩,
   ⟨{ wOnIn .idle with staged := [⟨Obj.ptfMeasDrive, 4, 2^4, 2, 99⟩] }, 0, ⟨Obj.ptfMeasDrive, 4, 2^4, 2, 99⟩, by decide +kernel, by decide +kernel⟩,
   ⟨wS, 0, by decide +kernel⟩⟩

/-- The hypotheses of each clause of StrobesAreEvaluated can be met (clauses of the same hypotheses together). -/
theorem witness_StrobesAreEvaluated :
    (∃ (s : State) (n : Nat) (st : Stitch) (samples : Samples), (n < 16) ∧ ((s.ndl n).strobes = [st]) ∧ (st.strobes ≠ []) ∧ ((s.ndl n).streams = 0) ∧ (∀ x ∈ st.strobes, x.act ≠ 4) ∧ (st.pass = 0) ∧ ((s.ndl n).parked = none)) ∧
    (∃ (s : State) (n : Nat) (st : Stitch) (samples : Samples), (n < 16) ∧ ((s.ndl n).strobes = [st]) ∧ (st.strobes ≠ []) ∧ ((s.ndl n).streams = 0) ∧ (∀ x ∈ st.strobes, x.act ≠ 4) ∧ (st.pass ≠ 0)) ∧
    (∃ (s : State) (n : Nat) (samples : Samples), (n < 16) ∧ ((s.ndl n).strobes = [])) ∧
    (∃ (s : State) (n : Nat) (f : Machine.Flag), (n < 16) ∧ (s.Quiet) ∧ ((s.ndl n).flags = [f]) ∧ ((s.setNdl n { q := (s.ndl n).q, fresh := (s.ndl n).fresh, castOn := (s.ndl n).castOn, gap := (s.ndl n).gap, resumed := (s.ndl n).resumed, t0 := (s.ndl n).t0, cursor := (s.ndl n).cursor, resume := (s.ndl n).resume, ringSeq := (s.ndl n).ringSeq, ringOff := (s.ndl n).ringOff, loops := (s.ndl n).loops, calls := (s.ndl n).calls, wait := (s.ndl n).wait, decodedAt := (s.ndl n).decodedAt, past := (s.ndl n).past, queue := (s.ndl n).queue, held := (s.ndl n).held, ahead := (s.ndl n).ahead, pre := (s.ndl n).pre, warm := (s.ndl n).warm, uaddr := (s.ndl n).uaddr, ustack := (s.ndl n).ustack, last := (s.ndl n).last, failed := (s.ndl n).failed ||| if f.site < 64 then 2 ^ f.site else 0, before := (s.ndl n).before, acted := (s.ndl n).acted, pos := (s.ndl n).pos, reps := (s.ndl n).reps, passes := (s.ndl n).passes, active := (s.ndl n).active, maskDrive := (s.ndl n).maskDrive, maskCmp := (s.ndl n).maskCmp, streams := (s.ndl n).streams, latches := (s.ndl n).latches, sticky := (s.ndl n).sticky, strobes := (s.ndl n).strobes, flags := (s.ndl n).flags, seam := (s.ndl n).seam, bound := (s.ndl n).bound, freeze := (s.ndl n).freeze, brk := (s.ndl n).brk, pause := (s.ndl n).pause, stallFrom := (s.ndl n).stallFrom, stallUsed := (s.ndl n).stallUsed, frogs := (s.ndl n).frogs, park := (s.ndl n).park, parked := (s.ndl n).parked, final := (s.ndl n).final, jump := (s.ndl n).jump, lastSeg := (s.ndl n).lastSeg, edges := (s.ndl n).edges, trace := (s.ndl n).trace, traceRun := (s.ndl n).traceRun, ring := (s.ndl n).ring, skeinIn := (s.ndl n).skeinIn, returned := (s.ndl n).returned, aheadSeq := (s.ndl n).aheadSeq, aheadOff := (s.ndl n).aheadOff, ringWindow := (s.ndl n).ringWindow, ringBytes := (s.ndl n).ringBytes, fifo := (s.ndl n).fifo, capLive := (s.ndl n).capLive, capNext := (s.ndl n).capNext, dlog := (s.ndl n).dlog, dlogRun := (s.ndl n).dlogRun, ageFrom := (s.ndl n).ageFrom }).stops n [f] = false)) ∧
    (∃ (s : State) (n : Nat) (f : Machine.Flag), (n < 16) ∧ (s.Quiet) ∧ ((s.ndl n).flags = [f]) ∧ (s.rd Obj.ptfStopOnFail n = 1) ∧ (f.site < 64) ∧ (s.busyNeedle n = true) ∧ ((s.ndl n).bound = none)) ∧
    (∃ (s : State) (n : Nat), (n < 16) ∧ (s.Quiet) ∧ ((s.ndl n).flags = [])) :=
  ⟨⟨wIss 4 { strobes := [wEval 0] }, 0, wEval 0, [([true], [true])], by decide +kernel, by decide +kernel, by decide +kernel, by decide +kernel, by decide +kernel, by decide +kernel, by decide +kernel⟩,
   ⟨wIss 4 { strobes := [wEval 2], passes := [⟨2, 100, true, 1, 0⟩] }, 0, wEval 2, [([true], [true])], by decide +kernel, by decide +kernel, by decide +kernel, by decide +kernel, by decide +kernel, by decide +kernel⟩,
   ⟨wIss 4 {}, 0, [], by decide +kernel, by decide +kernel⟩,
   ⟨wIss 4 { flags := [⟨99, 50, true, 0, 1⟩] }, 0, ⟨99, 50, true, 0, 1⟩, by decide +kernel, quiet_of (by decide +kernel), by decide +kernel, by decide +kernel⟩,
   ⟨(wIss 4 { flags := [⟨99, 50, true, 0, 1⟩] }).wr Obj.ptfStopOnFail 0 1, 0, ⟨99, 50, true, 0, 1⟩, by decide +kernel, quiet_of (by decide +kernel), by decide +kernel, by decide +kernel, by decide +kernel, by decide +kernel, by decide +kernel⟩,
   ⟨wIss 4 {}, 0, by decide +kernel, quiet_of (by decide +kernel), by decide +kernel⟩⟩

/-- The hypotheses of each clause of LogsAreKept can be met (clauses of the same hypotheses together). -/
theorem witness_LogsAreKept :
    (∃ (s : State) (n : Nat) (e : FailEntry) (l : List FailEntry) (qn : Nat) (q : Queue), ((s.ndl n).fifo = e :: l) ∧ (s.flowQueue e.site = some qn) ∧ (s.queue qn = some q) ∧ (s.fld Obj.rqpPoolStatus 0 F.rqpPoolStatusExhausted = 0) ∧ (q.gap.1 = 0) ∧ ((q.push (q.record 1 (failPayload e (s.sitePins e.site).length) s.now e.stitch (s.runOf q.flow) false)).cells ≤ s.fld Obj.rqpPoolCfg 0 F.rqpPoolCfgQueueCells) ∧ ((q.push (q.record 1 (failPayload e (s.sitePins e.site).length) s.now e.stitch (s.runOf q.flow) false)).cells - q.cells ≤ s.freeCells)) ∧
    (∃ (s : State) (n : Nat) (e : FailEntry) (l : List FailEntry) (qn : Nat) (q : Queue), ((s.ndl n).fifo = e :: l) ∧ (s.flowQueue e.site = some qn) ∧ (s.queue qn = some q) ∧ (s.fld Obj.rqpPoolStatus 0 F.rqpPoolStatusExhausted = 1) ∧ (q.flow < 64)) ∧
    (∃ (s : State) (n : Nat), ((s.ndl n).fifo = [])) ∧
    (∃ (s : State) (n : Nat) (d : Nat), ((s.ndl n).final = some d) ∧ ((s.ndl n).fifo = [])) ∧
    (∃ (s : State) (n : Nat), ((s.ndl n).final = none)) ∧
    (∃ (s : State) (k : Nat) (d : Nat) (q : Queue), (s.queue k = some q) ∧ (s.postEdge q = some d) ∧ (s.ready.length < 64512) ∧ (q.posted = false)) ∧
    (∃ (s : State) (k : Nat) (q : Queue), (s.queue k = some q) ∧ (s.postEdge q = none)) ∧
    (∃ (s : State) (k : Nat) (n : Nat) (q : Queue) (r : PoolRec) (l : List PoolRec), (s.queue k = some q) ∧ (q.recs = r :: l) ∧ (∀ y ∈ l, y.bytes ≠ []) ∧ (q.part < List.length r.bytes) ∧ (0 < n) ∧ (s.fcr.injLeft = 0) ∧ (s.releasable q n = n) ∧ (n < List.length r.bytes - q.part)) ∧
    (∃ (s : State) (k : Nat) (n : Nat) (q : Queue) (r : PoolRec) (l : List PoolRec), (s.queue k = some q) ∧ (q.recs = r :: l) ∧ (∀ y ∈ l, y.bytes ≠ []) ∧ (q.part < List.length r.bytes) ∧ (0 < n) ∧ (s.fcr.injLeft = 0) ∧ (s.releasable q n = n) ∧ (n = List.length r.bytes - q.part) ∧ (r.bad = false)) ∧
    (∃ (s : State) (k : Nat) (n : Nat) (q : Queue) (r : PoolRec) (l : List PoolRec), (s.queue k = some q) ∧ (q.recs = r :: l) ∧ (∀ y ∈ l, y.bytes ≠ []) ∧ (q.part < List.length r.bytes) ∧ (0 < n) ∧ (s.fcr.injLeft = 0) ∧ (s.releasable q n = 0)) ∧
    (∃ (s : State) (n : Nat) (el : Nat) (x : Session) (r : ObjRow) (qn : Nat) (q : Queue), (1 < 256 ^ (tyLen r.ty).getD 0) ∧ (Accepts s n x r Obj.rqpFlush el (toLE ((tyLen r.ty).getD 0) 1) [el]) ∧ ((s.touch n x).flowQueue el = some qn) ∧ ((s.touch n x).queue qn = some q) ∧ (∀ c < 16, ∀ (p : Item × Nat), ((s.touch n x).core c).item = some p → p.1.flow ≠ el)) :=
  ⟨⟨wQueue { fifo := [⟨0, 5, 3, 0, 6⟩] } { flow := 0 }, 0, ⟨0, 5, 3, 0, 6⟩, [], 3, { flow := 0 }, by decide +kernel, by decide +kernel, by decide +kernel, by decide +kernel, by decide +kernel, by decide +kernel, by decide +kernel⟩,
   ⟨(wQueue { fifo := [⟨0, 5, 3, 0, 6⟩] } { flow := 0 }).setFld Obj.rqpPoolStatus 0 F.rqpPoolStatusExhausted 1, 0, ⟨0, 5, 3, 0, 6⟩, [], 3, { flow := 0 }, by decide +kernel, by decide +kernel, by decide +kernel, by decide +kernel, by decide +kernel⟩,
   ⟨wS, 0, by decide +kernel⟩,
   ⟨(wQueue { final := some 99 } { flow := 0 }).wr Obj.ndlState 0 8, 0, 99, by decide +kernel, by decide +kernel⟩,
   ⟨wS, 0, by decide +kernel⟩,
   ⟨wQueue {} { flow := 64, recs := [wRec] }, 3, 2500000, { flow := 64, recs := [wRec] }, by decide +kernel, by decide +kernel, by decide +kernel, by decide +kernel⟩,
   ⟨wQueue {} { flow := 64 }, 3, { flow := 64 }, by decide +kernel, by decide +kernel⟩,
   ⟨wQueue {} { flow := 0, recs := [wRec] }, 3, 2, { flow := 0, recs := [wRec] }, wRec, [], by decide +kernel, by decide +kernel, by decide +kernel, by decide +kernel, by decide +kernel, by decide +kernel, by decide +kernel, by decide +kernel⟩,
   ⟨wQueue {} { flow := 0, recs := [wRec] }, 3, 4, { flow := 0, recs := [wRec] }, wRec, [], by decide +kernel, by decide +kernel, by decide +kernel, by decide +kernel, by decide +kernel, by decide +kernel, by decide +kernel, by decide +kernel, by decide +kernel⟩,
   ⟨(wQueue {} { flow := 0, recs := [wRec] }).setSub 3 (some ⟨1, 3, Obj.ptfDatalog, 0, 0, 8448, 0, none, [], 1, [], [toLE 8 3]⟩), 3, 2, { flow := 0, recs := [wRec] }, wRec, [], by decide +kernel, by decide +kernel, by decide +kernel, by decide +kernel, by decide +kernel, by decide +kernel, by decide +kernel⟩,
   ⟨wQueue {} { flow := 0, recs := [wRec] }, 1, 0, wX, wRow Obj.rqpFlush, 3, { flow := 0, recs := [wRec] }, by decide +kernel, accepts_of (by decide +kernel), by decide +kernel, by decide +kernel, by decide +kernel⟩⟩

/-- The hypotheses of each clause of LevelsAndSuppliesAreSet can be met (clauses of the same hypotheses together). -/
theorem witness_LevelsAndSuppliesAreSet :
    (∃ (s : State) (k : Nat) (f : LevelFrame) (l : List LevelFrame), (s.levelFrames k = f :: l) ∧ (f.open' = false)) ∧
    (∃ (s : State) (k : Nat) (f : LevelFrame) (l : List LevelFrame), (s.levelFrames k = f :: l) ∧ (f.open' = true)) ∧
    (∃ (s : State) (k : Nat) (f : LevelFrame) (l : List LevelFrame) (miso : Nat), (s.levelFrames k = f :: l) ∧ (f.open' = true)) ∧
    (∃ (s : State) (k : Nat) (f : LevelFrame) (l : List LevelFrame) (miso : Nat), (s.levelFrames k = f :: l) ∧ (f.open' = false)) ∧
    (∃ (s : State) (k : Nat) (miso : Nat), (s.levelFrames k = [])) ∧
    (∃ (s : State) (n : Nat) (pin : Nat) (reg : Nat) (v : Nat) (bc : Bool) (rd : Bool) (x : Session) (r : ObjRow), (pin < 2 ^ 8) ∧ (reg < 2 ^ 8) ∧ (v < 2 ^ 16) ∧ (rd = true → v = 0 ∧ bc = false) ∧ (v + reg * 2 ^ 16 + pin * 2 ^ 24 + rd.toNat * 2 ^ 32 + bc.toNat * 2 ^ 33 < 256 ^ (tyLen r.ty).getD 0) ∧ (Accepts s n x r Obj.lvlHostCmd 0 (toLE ((tyLen r.ty).getD 0) (v + reg * 2 ^ 16 + pin * 2 ^ 24 + rd.toNat * 2 ^ 32 + bc.toNat * 2 ^ 33)) [0])) ∧
    (∃ (s : State) (e : SupplyEntry), (e ∈ s.psm.supply) ∧ (∀ y ∈ s.psm.supply, y ≠ e → e.due < y.due) ∧ (e.loop < 24) ∧ (e.kind < 2)) ∧
    (∃ (s : State), (s.psm.supply = [])) ∧
    (∃ (s : State) (n : Nat) (el : Nat) (v : Bytes) (x : Session) (r : ObjRow) (els : List Nat), (Accepts s n x r Obj.ptfGauge el v els)) :=
  ⟨⟨wBus (wLev true false), 0, wLev true false, [], by decide +kernel, by decide +kernel⟩,
   ⟨wBus (wLev true true), 0, wLev true true, [], by decide +kernel, by decide +kernel⟩,
   ⟨wBus (wLev true true), 0, wLev true true, [], 77, by decide +kernel, by decide +kernel⟩,
   ⟨wBus (wLev true false), 0, wLev true false, [], 77, by decide +kernel, by decide +kernel⟩,
   ⟨wS, 0, 77, by decide +kernel⟩,
   ⟨wOnIn .idle, 1, 33, 2, 0x1234, false, false, wX, wRow Obj.lvlHostCmd, by decide +kernel, by decide +kernel, by decide +kernel, by decide +kernel, by decide +kernel, accepts_of (by decide +kernel)⟩,
   ⟨wSupply 2 700, ⟨99, 0, 1, 0, 700⟩, by decide +kernel, by decide +kernel, by decide +kernel, by decide +kernel⟩,
   ⟨wS, by decide +kernel⟩,
   ⟨wOnIn .idle, 1, 33, List.replicate 12 1#8, wX, wRow Obj.ptfGauge, [33], accepts_of (by decide +kernel)⟩⟩

/-- The hypotheses of each clause of TriggersAreTaken can be met (clauses of the same hypotheses together). -/
theorem witness_TriggersAreTaken :
    (∃ (s : State) (n : Nat) (el : Nat) (x : Session) (r : ObjRow) (els : List Nat), (1 < 256 ^ (tyLen r.ty).getD 0) ∧ (Accepts s n x r Obj.taeArm el (toLE ((tyLen r.ty).getD 0) 1) els)) ∧
    (∃ (s : State) (n : Nat) (el : Nat) (x : Session) (r : ObjRow) (els : List Nat), (0 < 256 ^ (tyLen r.ty).getD 0) ∧ (Accepts s n x r Obj.taeArm el (toLE ((tyLen r.ty).getD 0) 0) els)) ∧
    (∃ (s : State) (n : Nat) (el : Nat) (x : Session) (r : ObjRow) (els : List Nat), (els.Nodup) ∧ (1 < 256 ^ (tyLen r.ty).getD 0) ∧ (Accepts s n x r Obj.taeForce el (toLE ((tyLen r.ty).getD 0) 1) els)) ∧
    (∃ (s : State) (k : Nat) (d : Nat) (falling : Bool), (s.now ≤ d)) ∧
    (∃ (s : State) (u : Nat) (d : Nat), (u < 8) ∧ ((s.unit u).rearm = some d)) ∧
    (∃ (s : State) (u : Nat), (u < 8) ∧ ((s.unit u).rearm = none)) ∧
    (∃ (s : State) (u : Nat) (g : Trig) (l : List Trig), (u < 8) ∧ ((s.unit u).waiting = g :: l) ∧ (∀ c ∈ l, g.edge < c.edge) ∧ (s.taeExpiry u ≠ some g.edge) ∧ (g.src = 1 → s.taeEnabled u 1 = true) ∧ (s.taeState u = 2) ∧ (s.taePaused = false) ∧ (s.fld Obj.taeTrigCfg u F.taeTrigCfgCount ≤ (s.unit u).events + 1)) ∧
    (∃ (s : State) (u : Nat) (g : Trig) (l : List Trig), (u < 8) ∧ ((s.unit u).waiting = g :: l) ∧ (∀ c ∈ l, g.edge < c.edge) ∧ (s.taeExpiry u ≠ some g.edge) ∧ (g.src = 1 → s.taeEnabled u 1 = true) ∧ (s.taeState u = 2) ∧ (s.taePaused = false) ∧ (g.src < 4) ∧ ((s.unit u).events + 1 < s.fld Obj.taeTrigCfg u F.taeTrigCfgCount)) ∧
    (∃ (s : State) (u : Nat) (g : Trig) (l : List Trig), (u < 8) ∧ ((s.unit u).waiting = g :: l) ∧ (∀ c ∈ l, g.edge < c.edge) ∧ (s.taeExpiry u ≠ some g.edge) ∧ (g.src = 1 → s.taeEnabled u 1 = true) ∧ (s.taeState u = 1) ∧ (s.taePaused = false)) ∧
    (∃ (s : State) (u : Nat) (g : Trig) (l : List Trig), (u < 8) ∧ ((s.unit u).waiting = g :: l) ∧ (∀ c ∈ l, g.edge < c.edge) ∧ (s.taeExpiry u ≠ some g.edge) ∧ (g.src = 1 → s.taeEnabled u 1 = true) ∧ (s.taeState u = 4)) ∧
    (∃ (s : State) (u : Nat), (u < 8) ∧ ((s.unit u).waiting = [])) ∧
    (∃ (s : State) (u : Nat) (a : Nat), (u < 8) ∧ ((s.unit u).armedAt = some a) ∧ (s.fld Obj.taeTrigCfg u F.taeTrigCfgMode = 2) ∧ (s.taeState u = 2) ∧ (s.taePaused = false) ∧ (∀ g ∈ (s.unit u).waiting, g.edge ≠ s.edgeAt vclkFs (a + s.rd Obj.taeTimeout u))) ∧
    (∃ (s : State) (u : Nat), (u < 8) ∧ ((s.unit u).armedAt = none)) ∧
    (∃ (s : State) (u : Nat) (g : Trig) (changes : Changes) (js : List Nat) (pre : Nat) (skipped : Nat), (u < 8) ∧ ((s.unit u).trig = some g) ∧ (s.recordSamples u g = some (js, pre, skipped))) ∧
    (∃ (s : State) (u : Nat) (changes : Changes), (u < 8) ∧ ((s.unit u).trig = none)) :=
  ⟨⟨wTae 0 {}, 1, 0, wX, wRow Obj.taeArm, [0], by decide +kernel, accepts_of (by decide +kernel)⟩,
   ⟨wTae 0 {}, 1, 0, wX, wRow Obj.taeArm, [0], by decide +kernel, accepts_of (by decide +kernel)⟩,
   ⟨wTae 2 {}, 1, 0, wX, wRow Obj.taeForce, [0], by decide +kernel, by decide +kernel, accepts_of (by decide +kernel)⟩,
   ⟨(wTae 2 {}).wr Obj.taeTrigCfg 0 0xFFFF, 0, 10^9, true, by decide +kernel⟩,
   ⟨wTae 1 { rearm := some 99 }, 0, 99, by decide +kernel, by decide +kernel⟩,
   ⟨wTae 2 {}, 0, by decide +kernel, by decide +kernel⟩,
   ⟨(wTae 2 { waiting := [⟨99, 99, 0⟩] }).setFld Obj.taeTrigCfg 0 F.taeTrigCfgCount 1, 0, ⟨99, 99, 0⟩, [], by decide +kernel, by decide +kernel, by decide +kernel, by decide +kernel, by decide +kernel, by decide +kernel, by decide +kernel, by decide +kernel⟩,
   ⟨(wTae 2 { waiting := [⟨99, 99, 0⟩] }).setFld Obj.taeTrigCfg 0 F.taeTrigCfgCount 3, 0, ⟨99, 99, 0⟩, [], by decide +kernel, by decide +kernel, by decide +kernel, by decide +kernel, by decide +kernel, by decide +kernel, by decide +kernel, by decide +kernel, by decide +kernel⟩,
   ⟨wTae 1 { waiting := [⟨99, 99, 0⟩] }, 0, ⟨99, 99, 0⟩, [], by decide +kernel, by decide +kernel, by decide +kernel, by decide +kernel, by decide +kernel, by decide +kernel, by decide +kernel⟩,
   ⟨wTae 4 { waiting := [⟨99, 99, 0⟩] }, 0, ⟨99, 99, 0⟩, [], by decide +kernel, by decide +kernel, by decide +kernel, by decide +kernel, by decide +kernel, by decide +kernel⟩,
   ⟨wTae 2 {}, 0, by decide +kernel, by decide +kernel⟩,
   ⟨(wTae 2 { armedAt := some 99 }).setFld Obj.taeTrigCfg 0 F.taeTrigCfgMode 2, 0, 99, by decide +kernel, by decide +kernel, by decide +kernel, by decide +kernel, by decide +kernel, by decide +kernel⟩,
   ⟨wTae 2 {}, 0, by decide +kernel, by decide +kernel⟩,
   ⟨wTae 3 { trig := some ⟨99, 99, 0⟩ }, 0, ⟨99, 99, 0⟩, [⟨0, false, 5, true⟩], [1, 2, 3, 4], 0, 1, by decide +kernel, by decide +kernel, by decide +kernel⟩,
   ⟨wTae 2 {}, 0, [], by decide +kernel, by decide +kernel⟩⟩

/-- The hypotheses of each clause of CalibrationFollowsItsSwatches can be met (clauses of the same hypotheses together). -/
theorem witness_CalibrationFollowsItsSwatches :
    (∃ (s : State) (k : Nat) (v : Int), (k < 8) ∧ (s.calOn = true) ∧ (s.rd Obj.ptfPinState (32 * k + (s.calBank k).pin) = 2) ∧ ((s.calBank k).q < 6) ∧ ((s.calBank k).samples.length < 127) ∧ (s.swatchOk k (s.calBank k).pin (s.calBank k).q = true)) ∧
    (∃ (s : State) (k : Nat) (v : Int), (k < 8) ∧ (s.calOn = true) ∧ (s.rd Obj.ptfPinState (32 * k + (s.calBank k).pin) = 2) ∧ ((s.calBank k).q < 6) ∧ ((s.calBank k).samples.length = 127) ∧ (2 ^ 21 ≤ spreadSum ((s.calBank k).samples ++ [v]))) ∧
    (∃ (s : State) (k : Nat) (v : Int), (k < 8) ∧ (s.calOn = true) ∧ (s.rd Obj.ptfPinState (32 * k + (s.calBank k).pin) = 2) ∧ ((s.calBank k).q < 6) ∧ ((s.calBank k).samples.length = 127) ∧ (spreadSum ((s.calBank k).samples ++ [v]) < 2 ^ 21) ∧ (((Option.filter (fun w => s.sameFclk w.t (max s.now (s.calBank k).ready)) (Tbl.get (fun x => none) s.cal.host (32 * k + (s.calBank k).pin))).elim (s.anchor (32 * k + (s.calBank k).pin) (s.calBank k).q) fun g => g.anchors[(s.calBank k).q]?.join) = none)) ∧
    (∃ (s : State) (k : Nat) (v : Int) (a : Int), (k < 8) ∧ (s.calOn = true) ∧ (s.rd Obj.ptfPinState (32 * k + (s.calBank k).pin) = 2) ∧ ((s.calBank k).q < 6) ∧ ((s.calBank k).samples.length = 127) ∧ (spreadSum ((s.calBank k).samples ++ [v]) < 2 ^ 21) ∧ (((Option.filter (fun w => s.sameFclk w.t (max s.now (s.calBank k).ready)) (Tbl.get (fun x => none) s.cal.host (32 * k + (s.calBank k).pin))).elim (s.anchor (32 * k + (s.calBank k).pin) (s.calBank k).q) fun g => g.anchors[(s.calBank k).q]?.join) = some a) ∧ (s.rd Obj.calAbsLimit 0 < (((Option.filter (fun w => s.sameFclk w.t (max s.now (s.calBank k).ready)) (Tbl.get (fun x => none) s.cal.host (32 * k + (s.calBank k).pin))).elim (s.gaugeOf Obj.calBase (32 * k + (s.calBank k).pin) (s.calBank k).q) fun g => toSigned 16 ((gaugeFld (s.calBank k).q).get g.base)) - roundDiv (List.foldl (fun x1 x2 => x1 + x2) 0 ((s.calBank k).samples ++ [v]) - a) 256 - s.gaugeOf Obj.ptfGaugeFactory (32 * k + (s.calBank k).pin) (s.calBank k).q).natAbs)) ∧
    (∃ (s : State) (k : Nat) (v : Int) (a : Int), (k < 8) ∧ (s.calOn = true) ∧ (s.rd Obj.ptfPinState (32 * k + (s.calBank k).pin) = 2) ∧ ((s.calBank k).q < 6) ∧ ((s.calBank k).samples.length = 127) ∧ (spreadSum ((s.calBank k).samples ++ [v]) < 2 ^ 21) ∧ (((Option.filter (fun w => s.sameFclk w.t (max s.now (s.calBank k).ready)) (Tbl.get (fun x => none) s.cal.host (32 * k + (s.calBank k).pin))).elim (s.anchor (32 * k + (s.calBank k).pin) (s.calBank k).q) fun g => g.anchors[(s.calBank k).q]?.join) = some a) ∧ (¬(s.rd Obj.calAbsLimit 0 < (((Option.filter (fun w => s.sameFclk w.t (max s.now (s.calBank k).ready)) (Tbl.get (fun x => none) s.cal.host (32 * k + (s.calBank k).pin))).elim (s.gaugeOf Obj.calBase (32 * k + (s.calBank k).pin) (s.calBank k).q) fun g => toSigned 16 ((gaugeFld (s.calBank k).q).get g.base)) - roundDiv (List.foldl (fun x1 x2 => x1 + x2) 0 ((s.calBank k).samples ++ [v]) - a) 256 - s.gaugeOf Obj.ptfGaugeFactory (32 * k + (s.calBank k).pin) (s.calBank k).q).natAbs ∨ 2000 < (((Option.filter (fun w => s.sameFclk w.t (max s.now (s.calBank k).ready)) (Tbl.get (fun x => none) s.cal.host (32 * k + (s.calBank k).pin))).elim (s.gaugeOf Obj.calBase (32 * k + (s.calBank k).pin) (s.calBank k).q) fun g => toSigned 16 ((gaugeFld (s.calBank k).q).get g.base)) - roundDiv (List.foldl (fun x1 x2 => x1 + x2) 0 ((s.calBank k).samples ++ [v]) - a) 256).natAbs)) ∧ (s.rd Obj.calStepLimit 0 < (((Option.filter (fun w => s.sameFclk w.t (max s.now (s.calBank k).ready)) (Tbl.get (fun x => none) s.cal.host (32 * k + (s.calBank k).pin))).elim (s.gaugeOf Obj.calBase (32 * k + (s.calBank k).pin) (s.calBank k).q) fun g => toSigned 16 ((gaugeFld (s.calBank k).q).get g.base)) - roundDiv (List.foldl (fun x1 x2 => x1 + x2) 0 ((s.calBank k).samples ++ [v]) - a) 256 - s.gaugeOf Obj.ptfGaugeActive (32 * k + (s.calBank k).pin) (s.calBank k).q).natAbs)) ∧
    (∃ (s : State) (k : Nat) (v : Int) (a : Int), (k < 8) ∧ (s.calOn = true) ∧ (s.rd Obj.ptfPinState (32 * k + (s.calBank k).pin) = 2) ∧ ((s.calBank k).q < 6) ∧ ((s.calBank k).samples.length = 127) ∧ (spreadSum ((s.calBank k).samples ++ [v]) < 2 ^ 21) ∧ (((Option.filter (fun w => s.sameFclk w.t (max s.now (s.calBank k).ready)) (Tbl.get (fun x => none) s.cal.host (32 * k + (s.calBank k).pin))).elim (s.anchor (32 * k + (s.calBank k).pin) (s.calBank k).q) fun g => g.anchors[(s.calBank k).q]?.join) = some a) ∧ (¬(s.rd Obj.calAbsLimit 0 < (((Option.filter (fun w => s.sameFclk w.t (max s.now (s.calBank k).ready)) (Tbl.get (fun x => none) s.cal.host (32 * k + (s.calBank k).pin))).elim (s.gaugeOf Obj.calBase (32 * k + (s.calBank k).pin) (s.calBank k).q) fun g => toSigned 16 ((gaugeFld (s.calBank k).q).get g.base)) - roundDiv (List.foldl (fun x1 x2 => x1 + x2) 0 ((s.calBank k).samples ++ [v]) - a) 256 - s.gaugeOf Obj.ptfGaugeFactory (32 * k + (s.calBank k).pin) (s.calBank k).q).natAbs ∨ 2000 < (((Option.filter (fun w => s.sameFclk w.t (max s.now (s.calBank k).ready)) (Tbl.get (fun x => none) s.cal.host (32 * k + (s.calBank k).pin))).elim (s.gaugeOf Obj.calBase (32 * k + (s.calBank k).pin) (s.calBank k).q) fun g => toSigned 16 ((gaugeFld (s.calBank k).q).get g.base)) - roundDiv (List.foldl (fun x1 x2 => x1 + x2) 0 ((s.calBank k).samples ++ [v]) - a) 256).natAbs)) ∧ (¬s.rd Obj.calStepLimit 0 < (((Option.filter (fun w => s.sameFclk w.t (max s.now (s.calBank k).ready)) (Tbl.get (fun x => none) s.cal.host (32 * k + (s.calBank k).pin))).elim (s.gaugeOf Obj.calBase (32 * k + (s.calBank k).pin) (s.calBank k).q) fun g => toSigned 16 ((gaugeFld (s.calBank k).q).get g.base)) - roundDiv (List.foldl (fun x1 x2 => x1 + x2) 0 ((s.calBank k).samples ++ [v]) - a) 256 - s.gaugeOf Obj.ptfGaugeActive (32 * k + (s.calBank k).pin) (s.calBank k).q).natAbs) ∧ (((Option.filter (fun w => s.sameFclk w.t (max s.now (s.calBank k).ready)) (Tbl.get (fun x => none) s.cal.host (32 * k + (s.calBank k).pin))).elim (s.gaugeOf Obj.calBase (32 * k + (s.calBank k).pin) (s.calBank k).q) fun g => toSigned 16 ((gaugeFld (s.calBank k).q).get g.base)) - roundDiv (List.foldl (fun x1 x2 => x1 + x2) 0 ((s.calBank k).samples ++ [v]) - a) 256 = (Option.filter (fun w => s.sameFclk w.t (max s.now (s.calBank k).ready)) (Tbl.get (fun x => none) s.cal.host (32 * k + (s.calBank k).pin))).elim (s.gaugeOf Obj.ptfGauge (32 * k + (s.calBank k).pin) (s.calBank k).q) fun g => toSigned 16 ((gaugeFld (s.calBank k).q).get g.gauge))) ∧
    (∃ (s : State) (k : Nat) (v : Int) (a : Int), (k < 8) ∧ (s.calOn = true) ∧ (s.rd Obj.ptfPinState (32 * k + (s.calBank k).pin) = 2) ∧ ((s.calBank k).q < 6) ∧ ((s.calBank k).samples.length = 127) ∧ (spreadSum ((s.calBank k).samples ++ [v]) < 2 ^ 21) ∧ (((Option.filter (fun w => s.sameFclk w.t (max s.now (s.calBank k).ready)) (Tbl.get (fun x => none) s.cal.host (32 * k + (s.calBank k).pin))).elim (s.anchor (32 * k + (s.calBank k).pin) (s.calBank k).q) fun g => g.anchors[(s.calBank k).q]?.join) = some a) ∧ (¬(s.rd Obj.calAbsLimit 0 < (((Option.filter (fun w => s.sameFclk w.t (max s.now (s.calBank k).ready)) (Tbl.get (fun x => none) s.cal.host (32 * k + (s.calBank k).pin))).elim (s.gaugeOf Obj.calBase (32 * k + (s.calBank k).pin) (s.calBank k).q) fun g => toSigned 16 ((gaugeFld (s.calBank k).q).get g.base)) - roundDiv (List.foldl (fun x1 x2 => x1 + x2) 0 ((s.calBank k).samples ++ [v]) - a) 256 - s.gaugeOf Obj.ptfGaugeFactory (32 * k + (s.calBank k).pin) (s.calBank k).q).natAbs ∨ 2000 < (((Option.filter (fun w => s.sameFclk w.t (max s.now (s.calBank k).ready)) (Tbl.get (fun x => none) s.cal.host (32 * k + (s.calBank k).pin))).elim (s.gaugeOf Obj.calBase (32 * k + (s.calBank k).pin) (s.calBank k).q) fun g => toSigned 16 ((gaugeFld (s.calBank k).q).get g.base)) - roundDiv (List.foldl (fun x1 x2 => x1 + x2) 0 ((s.calBank k).samples ++ [v]) - a) 256).natAbs)) ∧ (¬s.rd Obj.calStepLimit 0 < (((Option.filter (fun w => s.sameFclk w.t (max s.now (s.calBank k).ready)) (Tbl.get (fun x => none) s.cal.host (32 * k + (s.calBank k).pin))).elim (s.gaugeOf Obj.calBase (32 * k + (s.calBank k).pin) (s.calBank k).q) fun g => toSigned 16 ((gaugeFld (s.calBank k).q).get g.base)) - roundDiv (List.foldl (fun x1 x2 => x1 + x2) 0 ((s.calBank k).samples ++ [v]) - a) 256 - s.gaugeOf Obj.ptfGaugeActive (32 * k + (s.calBank k).pin) (s.calBank k).q).natAbs) ∧ (((Option.filter (fun w => s.sameFclk w.t (max s.now (s.calBank k).ready)) (Tbl.get (fun x => none) s.cal.host (32 * k + (s.calBank k).pin))).elim (s.gaugeOf Obj.calBase (32 * k + (s.calBank k).pin) (s.calBank k).q) fun g => toSigned 16 ((gaugeFld (s.calBank k).q).get g.base)) - roundDiv (List.foldl (fun x1 x2 => x1 + x2) 0 ((s.calBank k).samples ++ [v]) - a) 256 ≠ (Option.filter (fun w => s.sameFclk w.t (max s.now (s.calBank k).ready)) (Tbl.get (fun x => none) s.cal.host (32 * k + (s.calBank k).pin))).elim (s.gaugeOf Obj.ptfGauge (32 * k + (s.calBank k).pin) (s.calBank k).q) fun g => toSigned 16 ((gaugeFld (s.calBank k).q).get g.gauge)) ∧ (Option.filter (fun w => s.sameFclk w.t (max s.now (s.calBank k).ready)) (Tbl.get (fun x => none) s.cal.host (32 * k + (s.calBank k).pin)) ≠ none)) ∧
    (∃ (s : State) (k : Nat) (v : Int) (a : Int), (k < 8) ∧ (s.calOn = true) ∧ (s.rd Obj.ptfPinState (32 * k + (s.calBank k).pin) = 2) ∧ ((s.calBank k).q < 6) ∧ ((s.calBank k).samples.length = 127) ∧ (spreadSum ((s.calBank k).samples ++ [v]) < 2 ^ 21) ∧ (((Option.filter (fun w => s.sameFclk w.t (max s.now (s.calBank k).ready)) (Tbl.get (fun x => none) s.cal.host (32 * k + (s.calBank k).pin))).elim (s.anchor (32 * k + (s.calBank k).pin) (s.calBank k).q) fun g => g.anchors[(s.calBank k).q]?.join) = some a) ∧ (¬(s.rd Obj.calAbsLimit 0 < (((Option.filter (fun w => s.sameFclk w.t (max s.now (s.calBank k).ready)) (Tbl.get (fun x => none) s.cal.host (32 * k + (s.calBank k).pin))).elim (s.gaugeOf Obj.calBase (32 * k + (s.calBank k).pin) (s.calBank k).q) fun g => toSigned 16 ((gaugeFld (s.calBank k).q).get g.base)) - roundDiv (List.foldl (fun x1 x2 => x1 + x2) 0 ((s.calBank k).samples ++ [v]) - a) 256 - s.gaugeOf Obj.ptfGaugeFactory (32 * k + (s.calBank k).pin) (s.calBank k).q).natAbs ∨ 2000 < (((Option.filter (fun w => s.sameFclk w.t (max s.now (s.calBank k).ready)) (Tbl.get (fun x => none) s.cal.host (32 * k + (s.calBank k).pin))).elim (s.gaugeOf Obj.calBase (32 * k + (s.calBank k).pin) (s.calBank k).q) fun g => toSigned 16 ((gaugeFld (s.calBank k).q).get g.base)) - roundDiv (List.foldl (fun x1 x2 => x1 + x2) 0 ((s.calBank k).samples ++ [v]) - a) 256).natAbs)) ∧ (¬s.rd Obj.calStepLimit 0 < (((Option.filter (fun w => s.sameFclk w.t (max s.now (s.calBank k).ready)) (Tbl.get (fun x => none) s.cal.host (32 * k + (s.calBank k).pin))).elim (s.gaugeOf Obj.calBase (32 * k + (s.calBank k).pin) (s.calBank k).q) fun g => toSigned 16 ((gaugeFld (s.calBank k).q).get g.base)) - roundDiv (List.foldl (fun x1 x2 => x1 + x2) 0 ((s.calBank k).samples ++ [v]) - a) 256 - s.gaugeOf Obj.ptfGaugeActive (32 * k + (s.calBank k).pin) (s.calBank k).q).natAbs) ∧ (((Option.filter (fun w => s.sameFclk w.t (max s.now (s.calBank k).ready)) (Tbl.get (fun x => none) s.cal.host (32 * k + (s.calBank k).pin))).elim (s.gaugeOf Obj.calBase (32 * k + (s.calBank k).pin) (s.calBank k).q) fun g => toSigned 16 ((gaugeFld (s.calBank k).q).get g.base)) - roundDiv (List.foldl (fun x1 x2 => x1 + x2) 0 ((s.calBank k).samples ++ [v]) - a) 256 ≠ (Option.filter (fun w => s.sameFclk w.t (max s.now (s.calBank k).ready)) (Tbl.get (fun x => none) s.cal.host (32 * k + (s.calBank k).pin))).elim (s.gaugeOf Obj.ptfGauge (32 * k + (s.calBank k).pin) (s.calBank k).q) fun g => toSigned 16 ((gaugeFld (s.calBank k).q).get g.gauge)) ∧ (Option.filter (fun w => s.sameFclk w.t (max s.now (s.calBank k).ready)) (Tbl.get (fun x => none) s.cal.host (32 * k + (s.calBank k).pin)) = none)) ∧
    (∃ (s : State) (k : Nat) (v : Int), (k < 8) ∧ (s.calOn = true) ∧ (s.rd Obj.ptfPinState (32 * k + (s.calBank k).pin) = 2) ∧ ((s.calBank k).q < 6) ∧ ((s.calBank k).samples ≠ [])) ∧
    (∃ (s : State) (k : Nat) (v : Int) (i : Instr), (s.calOn = false) ∧ (i ∈ [Instr.calSample k v, Instr.swatchTimeout k])) ∧
    (∃ (s : State) (n : Nat) (d : Nat), ((s.ndl n).ageFrom = some d) ∧ (s.fld Obj.calNeedleAge n F.calNeedleAgeAged = 0)) ∧
    (∃ (s : State) (n : Nat), ((s.ndl n).ageFrom = none)) ∧
    (∃ (s : State) (res : CalResults) (d : Nat), (s.cal.full = some d) ∧ (s.fld Obj.calFullStatus 0 F.calFullStatusPhase < 3)) ∧
    (∃ (s : State) (res : CalResults) (d : Nat), (s.cal.full = some d) ∧ (s.fld Obj.calFullStatus 0 F.calFullStatusPhase = 3)) ∧
    (∃ (s : State) (res : CalResults), (s.cal.full = none)) :=
  ⟨⟨wCal {}, 0, 5, by decide +kernel, by decide +kernel, by decide +kernel, by decide +kernel, by decide +kernel, by decide +kernel⟩,
   ⟨wCal { samples := (List.range 127).map (fun i => (i * 1000 : Nat)) }, 0, 5, by decide +kernel, by decide +kernel, by decide +kernel, by decide +kernel, by decide +kernel, by decide +kernel⟩,
   ⟨wCal { samples := List.replicate 127 3 }, 0, 5, by decide +kernel, by decide +kernel, by decide +kernel, by decide +kernel, by decide +kernel, by decide +kernel, by decide +kernel⟩,
   ⟨(wCal { samples := List.replicate 127 3 }).setAnchor 0 0 (some (10^6)), 0, 3, 10^6, by decide +kernel, by decide +kernel, by decide +kernel, by decide +kernel, by decide +kernel, by decide +kernel, by decide +kernel, by decide +kernel⟩,
   ⟨((wCal { samples := List.replicate 127 3 }).setAnchor 0 0 (some 10000)).wr Obj.calStepLimit 0 3, 0, 3, 10000, by decide +kernel, by decide +kernel, by decide +kernel, by decide +kernel, by decide +kernel, by decide +kernel, by decide +kernel, by decide +kernel, by decide +kernel⟩,
   ⟨((wCal { samples := List.replicate 127 3 }).setAnchor 0 0 (some 384)).wr Obj.calStepLimit 0 300, 0, 3, 384, by decide +kernel, by decide +kernel, by decide +kernel, by decide +kernel, by decide +kernel, by decide +kernel, by decide +kernel, by decide +kernel, by decide +kernel, by decide +kernel⟩,
   ⟨wCalHost, 0, 3, 10000, by decide +kernel, by decide +kernel, by decide +kernel, by decide +kernel, by decide +kernel, by decide +kernel, by decide +kernel, by decide +kernel, by decide +kernel, by decide +kernel, by decide +kernel⟩,
   ⟨((wCal { samples := List.replicate 127 3 }).setAnchor 0 0 (some 10000)).wr Obj.calStepLimit 0 300, 0, 3, 10000, by decide +kernel, by decide +kernel, by decide +kernel, by decide +kernel, by decide +kernel, by decide +kernel, by decide +kernel, by decide +kernel, by decide +kernel, by decide +kernel, by decide +kernel⟩,
   ⟨wCal { samples := [3], first := 7 }, 0, 5, by decide +kernel, by decide +kernel, by decide +kernel, by decide +kernel, by decide +kernel⟩,
   ⟨wS, 0, 5, .calSample 0 5, by decide +kernel, by decide +kernel⟩,
   ⟨(wNdlIn .run 4).setNdl 0 { ageFrom := some 99 }, 0, 99, by decide +kernel, by decide +kernel⟩,
   ⟨wS, 0, by decide +kernel⟩,
   ⟨wFull 1 [], [(0, 0, some (10, 100, true))], 99, by decide +kernel, by decide +kernel⟩,
   ⟨wFull 3 ((List.range 32).flatMap (fun p => (List.range 6).map (fun q => (p, q, some ((10 : Int), (100 : Int), true))))), [(5, 2, none)], 99, by decide +kernel, by decide +kernel⟩,
   ⟨wS, [], by decide +kernel⟩⟩

/-- The hypotheses of each clause of IntervalsAreMeasured can be met (clauses of the same hypotheses together). -/
theorem witness_IntervalsAreMeasured :
    (∃ (s : State) (n : Nat) (el : Nat) (x : Session) (r : ObjRow) (els : List Nat), (1 < 256 ^ (tyLen r.ty).getD 0) ∧ (Accepts s n x r Obj.tmuCtrl el (toLE ((tyLen r.ty).getD 0) 1) els)) ∧
    (∃ (s : State) (n : Nat) (el : Nat) (x : Session) (r : ObjRow) (els : List Nat), (0 < 256 ^ (tyLen r.ty).getD 0) ∧ (Accepts s n x r Obj.tmuCtrl el (toLE ((tyLen r.ty).getD 0) 0) els)) ∧
    (∃ (s : State) (d : Nat) (source : Nat) (g : Nat) (falling : Bool), (s.now ≤ g) ∧ (s.tmuState d ≠ 1)) ∧
    (∃ (s : State) (d : Nat) (source : Nat) (g : Nat) (falling : Bool), (s.now ≤ g) ∧ (s.tmuState d = 1) ∧ (d < 32) ∧ (s.tapped source = true) ∧ (F.tmuCfgMode.get (s.rd Obj.tmuCfg d) = 0) ∧ (qualifies (F.tmuCfgSrcA.get (s.rd Obj.tmuCfg d)) (F.tmuCfgEdgeA.get (s.rd Obj.tmuCfg d)) source falling = true) ∧ ((s.tdcOf d).readyA ≤ g)) ∧
    (∃ (s : State) (d : Nat) (source : Nat) (g : Nat) (falling : Bool), (s.now ≤ g) ∧ (s.tmuState d = 1) ∧ (d < 32) ∧ (s.tapped source = true) ∧ (F.tmuCfgMode.get (s.rd Obj.tmuCfg d) = 0) ∧ (qualifies (F.tmuCfgSrcA.get (s.rd Obj.tmuCfg d)) (F.tmuCfgEdgeA.get (s.rd Obj.tmuCfg d)) source falling = true) ∧ (g < (s.tdcOf d).readyA)) ∧
    (∃ (s : State) (d : Nat) (source : Nat) (g : Nat) (falling : Bool) (p : Nat), (s.now ≤ g) ∧ (s.tmuState d = 1) ∧ (d < 32) ∧ (s.tapped source = true) ∧ (F.tmuCfgMode.get (s.rd Obj.tmuCfg d) = 1) ∧ (qualifies (F.tmuCfgSrcA.get (s.rd Obj.tmuCfg d)) (F.tmuCfgEdgeA.get (s.rd Obj.tmuCfg d)) source falling = false) ∧ (qualifies (F.tmuCfgSrcB.get (s.rd Obj.tmuCfg d)) (F.tmuCfgEdgeB.get (s.rd Obj.tmuCfg d)) source falling = true) ∧ ((s.tdcOf d).readyB ≤ g) ∧ ((s.tdcOf d).from' = some p) ∧ (p + s.rd Obj.tmuHoldoff d ≤ s.stampFs g)) ∧
    (∃ (s : State) (d : Nat) (g : Nat) (o : Nat) (a : Nat) (b : Nat), (s.tmuState d = 1) ∧ (s.fld Obj.tmuCfg d F.tmuCfgMode = 3) ∧ ((s.tdcOf d).gate = some o) ∧ (o < g) ∧ ((s.tdcOf d).first = some a) ∧ ((s.tdcOf d).last = some b) ∧ (a < b) ∧ (s.fld Obj.tmuCfg d F.tmuCfgTimebase = 0)) ∧
    (∃ (s : State) (d : Nat) (g : Nat) (o : Nat), (s.tmuState d = 1) ∧ (s.fld Obj.tmuCfg d F.tmuCfgMode = 3) ∧ ((s.tdcOf d).gate = some o) ∧ (o < g) ∧ ((s.tdcOf d).first = none)) ∧
    (∃ (s : State) (d : Nat) (g : Nat), (s.tmuState d ≠ 1)) ∧
    (∃ (s : State) (d : Nat) (g : Nat), (s.tmuState d = 1)) :=
  ⟨⟨(wTdc 0 {}).wr Obj.tmuState 0 2, 1, 0, wX, wRow Obj.tmuCtrl, [0], by decide +kernel, accepts_of (by decide +kernel)⟩,
   ⟨(wTdc 0 {}).wr Obj.tmuState 0 2, 1, 0, wX, wRow Obj.tmuCtrl, [0], by decide +kernel, accepts_of (by decide +kernel)⟩,
   ⟨wS, 0, 0x1000, 10^9, false, by decide +kernel, by decide +kernel⟩,
   ⟨wTdc 0 {}, 0, 0x1000, 10^9, false, by decide +kernel, by decide +kernel, by decide +kernel, by decide +kernel, by decide +kernel, by decide +kernel, by decide +kernel⟩,
   ⟨wTdc 0 { readyA := 10^10 }, 0, 0x1000, 10^9, false, by decide +kernel, by decide +kernel, by decide +kernel, by decide +kernel, by decide +kernel, by decide +kernel, by decide +kernel⟩,
   ⟨wTdc 1 { from' := some 1000 }, 0, 0x1001, 10^9, false, 1000, by decide +kernel, by decide +kernel, by decide +kernel, by decide +kernel, by decide +kernel, by decide +kernel, by decide +kernel, by decide +kernel, by decide +kernel, by decide +kernel⟩,
   ⟨wTdc 3 { gate := some 5, first := some 6, last := some 90, edges := 3 }, 0, 100, 5, 6, 90, by decide +kernel, by decide +kernel, by decide +kernel, by decide +kernel, by decide +kernel, by decide +kernel, by decide +kernel, by decide +kernel⟩,
   ⟨wTdc 3 { gate := some 5 }, 0, 100, 5, by decide +kernel, by decide +kernel, by decide +kernel, by decide +kernel, by decide +kernel⟩,
   ⟨wS, 0, 100, by decide +kernel⟩,
   ⟨wTdc 0 {}, 0, 100, by decide +kernel⟩⟩

/-- The hypotheses of each clause of MemoryIsServedAndRefreshed can be met (clauses of the same hypotheses together). -/
theorem witness_MemoryIsServedAndRefreshed :
    (∃ (s : State) (r : Request) (e : Nat), (s.hms.waiting = []) ∧ (addrOk (r.addr + (List.length r.data - 1)) = true) ∧ (r.data ≠ []) ∧ (r.write = true) ∧ (s.stack (addrStack r.addr) = 2)) ∧
    (∃ (s : State) (r : Request) (e : Nat), (s.hms.waiting = []) ∧ (addrOk (r.addr + (List.length r.data - 1)) = true) ∧ (r.data ≠ []) ∧ (r.write = true) ∧ (s.stack (addrStack r.addr) = 3)) ∧
    (∃ (s : State) (r : Request) (e : Nat) (c : Nat), (s.hms.waiting = []) ∧ (addrOk (r.addr + (List.length r.data - 1)) = true) ∧ (r.data ≠ []) ∧ (s.stack (addrStack r.addr) ≠ 2) ∧ (s.stack (addrStack r.addr) ≠ 3)) ∧
    (∃ (s : State) (r : Request) (e : Nat) (c : Nat), (s.hms.waiting = []) ∧ (addrOk (r.addr + (List.length r.data - 1)) = true) ∧ (r.data ≠ []) ∧ (s.stack (addrStack r.addr) = 2) ∧ (c ≠ addrPc r.addr)) ∧
    (∃ (s : State) (r : Request) (e : Nat), (s.hms.waiting = []) ∧ (addrOk (r.addr + (List.length r.data - 1)) = true) ∧ (r.data ≠ []) ∧ (r.write = false) ∧ (s.stack (addrStack r.addr) = 2) ∧ (s.fcr.injLeft = 0) ∧ (realTime r.master = true → s.hms.winBytes ≤ 1254400) ∧ (e = 0)) ∧
    (∃ (s : State) (r : Request) (e : Nat), (s.hms.waiting = []) ∧ (addrOk (r.addr + (List.length r.data - 1)) = true) ∧ (r.data ≠ []) ∧ (r.write = false) ∧ (s.stack (addrStack r.addr) = 2) ∧ (s.fcr.injLeft = 0) ∧ (realTime r.master = true → s.hms.winBytes ≤ 1254400) ∧ (e = 1)) ∧
    (∃ (s : State) (r : Request) (e : Nat), (s.hms.waiting = []) ∧ (addrOk (r.addr + (List.length r.data - 1)) = true) ∧ (r.data ≠ []) ∧ (r.write = false) ∧ (s.stack (addrStack r.addr) = 2) ∧ (s.fcr.injLeft = 0) ∧ (realTime r.master = true → s.hms.winBytes ≤ 1254400) ∧ (2 ≤ e)) ∧
    (∃ (s : State) (b : Request) (r : Request) (t1 : Nat) (t2 : Nat), (s.hms.waiting = [(b, t1), (r, t2)]) ∧ (addrPc b.addr = addrPc r.addr) ∧ (realTime b.master = false) ∧ (realTime r.master = true) ∧ (s.fcr.injLeft = 0)) ∧
    (∃ (s : State) (pc : Nat) (temp : Int), (pc < 64) ∧ (s.stack (pc / 32) = 2)) ∧
    (∃ (s : State) (pc : Nat) (temp : Int), (s.stack (pc / 32) ≠ 2)) ∧
    (∃ (s : State) (pc : Nat), (8 ≤ Tbl.get (fun x => 0) s.hms.deficit pc) ∧ (s.stack (pc / 32) = 2)) ∧
    (∃ (s : State) (pc : Nat), (Tbl.get (fun x => 0) s.hms.deficit pc < 8)) ∧
    (∃ (s : State) (pc : Nat) (bank : Nat) (x : Nat × Nat), (Tbl.get (fun x => none) s.hms.near (pc * 48 + bank) = some x) ∧ (s.holdsRead pc = false)) ∧
    (∃ (s : State) (pc : Nat) (bank : Nat), (Tbl.get (fun x => none) s.hms.near (pc * 48 + bank) = none)) ∧
    (∃ (s : State) (k : Nat), (k < 2) ∧ (s.autoSelfRefresh = true) ∧ (s.stack k = 2) ∧ (∀ x ∈ s.hms.waiting, addrStack x.1.addr ≠ k)) ∧
    (∃ (s : State) (k : Nat), (k < 2) ∧ (s.autoSelfRefresh = false)) ∧
    (∃ (s : State) (a : Nat) (e : Nat), (addrOk a = true) ∧ (s.fld Obj.hmsScrubCfg 0 F.hmsScrubCfgEnable ≠ 0) ∧ (s.stack (addrStack a) = 2) ∧ (s.fcr.injLeft = 0) ∧ (e = 0)) ∧
    (∃ (s : State) (a : Nat) (e : Nat), (addrOk a = true) ∧ (s.fld Obj.hmsScrubCfg 0 F.hmsScrubCfgEnable ≠ 0) ∧ (s.stack (addrStack a) = 2) ∧ (s.fcr.injLeft = 0) ∧ (e = 1)) ∧
    (∃ (s : State) (a : Nat) (e : Nat), (addrOk a = true) ∧ (s.fld Obj.hmsScrubCfg 0 F.hmsScrubCfgEnable ≠ 0) ∧ (s.stack (addrStack a) = 2) ∧ (s.fcr.injLeft = 0) ∧ (2 ≤ e)) ∧
    (∃ (s : State) (a : Nat) (e : Nat), (addrOk a = true) ∧ (¬(s.fld Obj.hmsScrubCfg 0 F.hmsScrubCfgEnable ≠ 0 ∧ s.stack (addrStack a) = 2))) :=
  ⟨⟨(wOnIn .run).wStack 0 2, ⟨1, true, 4096, [1#8, 2#8]⟩, 0, by decide +kernel, by decide +kernel, by decide +kernel, by decide +kernel, by decide +kernel⟩,
   ⟨(wOnIn .run).wStack 0 3, ⟨1, true, 4096, [1#8, 2#8]⟩, 0, by decide +kernel, by decide +kernel, by decide +kernel, by decide +kernel, by decide +kernel⟩,
   ⟨(wOnIn .run).wStack 0 1, ⟨1, true, 4096, [1#8, 2#8]⟩, 0, 3, by decide +kernel, by decide +kernel, by decide +kernel, by decide +kernel, by decide +kernel⟩,
   ⟨(wOnIn .run).wStack 0 2, ⟨1, true, 4096, [1#8, 2#8]⟩, 0, 3, by decide +kernel, by decide +kernel, by decide +kernel, by decide +kernel, by decide +kernel⟩,
   ⟨(wOnIn .run).wStack 0 2, ⟨1, false, 4096, [1#8, 2#8]⟩, 0, by decide +kernel, by decide +kernel, by decide +kernel, by decide +kernel, by decide +kernel, by decide +kernel, by decide +kernel, by decide +kernel⟩,
   ⟨(wOnIn .run).wStack 0 2, ⟨1, false, 4096, [1#8, 2#8]⟩, 1, by decide +kernel, by decide +kernel, by decide +kernel, by decide +kernel, by decide +kernel, by decide +kernel, by decide +kernel, by decide +kernel⟩,
   ⟨(wOnIn .run).wStack 0 2, ⟨1, false, 4096, [1#8, 2#8]⟩, 2, by decide +kernel, by decide +kernel, by decide +kernel, by decide +kernel, by decide +kernel, by decide +kernel, by decide +kernel, by decide +kernel⟩,
   ⟨{ ((wOnIn .run).wStack 0 2) with hms := { waiting := [(⟨0x40, false, 4096, [1#8]⟩, 3), (⟨1, false, 4224, [1#8]⟩, 5)] } }, ⟨0x40, false, 4096, [1#8]⟩, ⟨1, false, 4224, [1#8]⟩, 3, 5, by decide +kernel, by decide +kernel, by decide +kernel, by decide +kernel, by decide +kernel⟩,
   ⟨(wOnIn .run).wStack 0 2, 3, 90, by decide +kernel, by decide +kernel⟩,
   ⟨wS, 3, 90, by decide +kernel⟩,
   ⟨{ (wOnIn .run).wStack 0 2 with hms := { deficit := [(3, 8)] } }, 3, by decide +kernel, by decide +kernel⟩,
   ⟨(wOnIn .run).wStack 0 2, 3, by decide +kernel⟩,
   ⟨{ (wOnIn .run).wStack 0 2 with hms := { near := [(147, some (5, 99))] } }, 3, 3, (5, 99), by decide +kernel, by decide +kernel⟩,
   ⟨wS, 3, 3, by decide +kernel⟩,
   ⟨((wOnIn .idle).wStack 0 2).setFld Obj.hmsSrCfg 0 F.hmsSrCfgIdle 10, 0, by decide +kernel, by decide +kernel, by decide +kernel, by decide +kernel⟩,
   ⟨wS, 0, by decide +kernel, by decide +kernel⟩,
   ⟨((wOnIn .run).wStack 0 2).setFld Obj.hmsScrubCfg 0 F.hmsScrubCfgEnable 1, 4096, 0, by decide +kernel, by decide +kernel, by decide +kernel, by decide +kernel, by decide +kernel⟩,
   ⟨((wOnIn .run).wStack 0 2).setFld Obj.hmsScrubCfg 0 F.hmsScrubCfgEnable 1, 4096, 1, by decide +kernel, by decide +kernel, by decide +kernel, by decide +kernel, by decide +kernel⟩,
   ⟨((wOnIn .run).wStack 0 2).setFld Obj.hmsScrubCfg 0 F.hmsScrubCfgEnable 1, 4096, 2, by decide +kernel, by decide +kernel, by decide +kernel, by decide +kernel, by decide +kernel⟩,
   ⟨wS, 4096, 2, by decide +kernel, by decide +kernel⟩⟩

/-- The hypotheses of each clause of LayersAreCommittedAndReleased can be met (clauses of the same hypotheses together). -/
theorem witness_LayersAreCommittedAndReleased :
    (∃ (s : State) (i : Nat) (d : Nat) (falling : Bool), (s.now ≤ d)) ∧
    (∃ (s : State) (n : Nat) (i : Nat) (x : Session) (r : ObjRow), (i < 2) ∧ (1 < 256 ^ (tyLen r.ty).getD 0) ∧ (Accepts s n x r Obj.rasCommit i (toLE ((tyLen r.ty).getD 0) 1) [i])) ∧
    (∃ (s : State) (n : Nat) (el : Nat) (x : Session) (r : ObjRow), (1 < 256 ^ (tyLen r.ty).getD 0) ∧ (Accepts s n x r Obj.rasBufferRelease el (toLE ((tyLen r.ty).getD 0) 1) [el])) :=
  ⟨⟨((wOnIn .run).setFld Obj.rasStreamCfg 0 F.rasStreamCfgLock 1).setStream 0 { on := true }, 0, 10^9, false, by decide +kernel⟩,
   ⟨((wOnIn .run).setFld Obj.rasLayerShadow 0 F.rasLayerActiveShow 1).wr Obj.rasBufferState 0 2, 1, 0, wX, wRow Obj.rasCommit, by decide +kernel, by decide +kernel, accepts_of (by decide +kernel)⟩,
   ⟨(((wOnIn .armed).setFld Obj.rasLayerCfg 0 F.rasLayerCfgBuffers 2).wr Obj.rasBufferState 0 2).wr Obj.plcState 0 2, 1, 0, wX, wRow Obj.rasBufferRelease, by decide +kernel, accepts_of (by decide +kernel)⟩⟩

/-- The hypotheses of each clause of DomainsAndLoopsSwitch can be met (clauses of the same hypotheses together). -/
theorem witness_DomainsAndLoopsSwitch :
    (∃ (s : State) (n : Nat) (v : Nat) (x : Session) (r : ObjRow), (v < 256 ^ (tyLen r.ty).getD 0) ∧ (Accepts s n x r Obj.psmDomainReq 0 (toLE ((tyLen r.ty).getD 0) v) [0])) ∧
    (∃ (s : State) (pd : Nat) (ok : Bool), (s.Quiet) ∧ (pd ∈ allDomains) ∧ (s.domain pd = 1) ∧ (ok = true)) ∧
    (∃ (s : State) (pd : Nat) (ok : Bool), (s.Quiet) ∧ (pd ∈ allDomains) ∧ (s.domain pd = 1) ∧ (ok = false)) ∧
    (∃ (s : State) (pd : Nat) (ok : Bool), (s.Quiet) ∧ (pd ∈ allDomains) ∧ (s.domain pd = 3)) ∧
    (∃ (s : State) (pd : Nat) (ok : Bool), (s.Quiet) ∧ (pd ∈ allDomains) ∧ (s.domain pd ≠ 1) ∧ (s.domain pd ≠ 3)) ∧
    (∃ (s : State) (n : Nat) (el : Nat) (x : Session) (r : ObjRow) (els : List Nat), (1 < 256 ^ (tyLen r.ty).getD 0) ∧ (Accepts s n x r Obj.splEnable el (toLE ((tyLen r.ty).getD 0) 1) els)) ∧
    (∃ (s : State) (n : Nat) (el : Nat) (x : Session) (r : ObjRow) (els : List Nat), (0 < 256 ^ (tyLen r.ty).getD 0) ∧ (Accepts s n x r Obj.splEnable el (toLE ((tyLen r.ty).getD 0) 0) els)) ∧
    (∃ (s : State) (l : Nat), (s.loopState l = 1)) ∧
    (∃ (s : State) (l : Nat), (s.loopState l ≠ 1)) :=
  ⟨⟨wOnIn .idle, 1, 2^21 - 2 - 2^18, wX, wRow Obj.psmDomainReq, by decide +kernel, accepts_of (by decide +kernel)⟩,
   ⟨(wOnIn .idle).setFld Obj.psmDomainState 0 ⟨4 * 9, 4⟩ 1, 9, true, quiet_of (by decide +kernel), by decide +kernel, by decide +kernel, by decide +kernel⟩,
   ⟨(wOnIn .idle).setFld Obj.psmDomainState 0 ⟨4 * 9, 4⟩ 1, 9, false, quiet_of (by decide +kernel), by decide +kernel, by decide +kernel, by decide +kernel⟩,
   ⟨(wOnIn .idle).setFld Obj.psmDomainState 0 ⟨4 * 3, 4⟩ 3, 3, true, quiet_of (by decide +kernel), by decide +kernel, by decide +kernel⟩,
   ⟨wOnIn .idle, 16, true, quiet_of (by decide +kernel), by decide +kernel, by decide +kernel, by decide +kernel⟩,
   ⟨(wOnIn .idle).setFld Obj.splCfg 1 F.splCfgVsenseAin 0, 1, 1, wX, wRow Obj.splEnable, [1], by decide +kernel, accepts_of (by decide +kernel)⟩,
   ⟨(wOnIn .idle).setFld Obj.splCfg 1 F.splCfgVsenseAin 0, 1, 1, wX, wRow Obj.splEnable, [1], by decide +kernel, accepts_of (by decide +kernel)⟩,
   ⟨(wOnIn .idle).wr Obj.splState 1 1, 1, by decide +kernel⟩,
   ⟨(wOnIn .idle).wr Obj.splState 1 2, 1, by decide +kernel⟩⟩

/-- The hypotheses of each clause of RailsAndConvertersAreRead can be met (clauses of the same hypotheses together). -/
theorem witness_RailsAndConvertersAreRead :
    (∃ (s : State) (k : Nat) (rails : Rails) (x : Nat × Nat × Nat × Int), (s.mode ≠ Mode.cold) ∧ (s.mode ≠ Mode.boot) ∧ (rails[k]? = some x)) ∧
    (∃ (s : State) (k : Nat) (words : Nats) (w : Nat), (s.mode ≠ Mode.cold) ∧ (s.mode ≠ Mode.boot) ∧ (words[k]? = some w)) ∧
    (∃ (s : State) (rails : Rails) (words : Nats), (s.mode = Mode.boot)) ∧
    (∃ (s : State) (cv : Nat) (code : Int) (ovr : Bool), (s.domOn 19 = true)) ∧
    (∃ (s : State) (cv : Nat) (code : Int) (ovr : Bool), (s.domOn 19 = false)) ∧
    (∃ (s : State) (n : Nat) (el : Nat) (v : Nat) (x : Session) (r : ObjRow), (1 < 256 ^ (tyLen r.ty).getD 0) ∧ (Accepts s n x r Obj.adcOwTest el (toLE ((tyLen r.ty).getD 0) 1) [el])) ∧
    (∃ (s : State) (n : Nat) (el : Nat) (v : Nat) (x : Session) (r : ObjRow), (1 < 256 ^ (tyLen r.ty).getD 0) ∧ (Accepts s n x r Obj.adcSyscal el (toLE ((tyLen r.ty).getD 0) 1) [el])) ∧
    (∃ (s : State) (n : Nat) (el : Nat) (v : Nat) (x : Session) (r : ObjRow) (fs : Int), (v = 2 + ofSigned 32 fs * 2 ^ 32) ∧ (v < 256 ^ (tyLen r.ty).getD 0) ∧ (Accepts s n x r Obj.adcSyscal el (toLE ((tyLen r.ty).getD 0) v) [el])) ∧
    (∃ (s : State) (a : Nat) (d : Nat) (up : Int) (down : Int), (Tbl.get (fun x => none) s.adc.ow a = some d)) ∧
    (∃ (s : State) (a : Nat) (up : Int) (down : Int), (Tbl.get (fun x => none) s.adc.ow a = none)) ∧
    (∃ (s : State) (a : Nat) (sum : Int) (ovr : Bool), (s.fld Obj.adcSyscalStatus a F.adcSyscalStatusState = 1) ∧ (ovr = false)) ∧
    (∃ (s : State) (a : Nat) (sum : Int) (ovr : Bool), (s.fld Obj.adcSyscalStatus a F.adcSyscalStatusState = 1) ∧ (ovr = true)) ∧
    (∃ (s : State) (a : Nat) (sum : Int) (ovr : Bool) (c0 : Int), (s.fld Obj.adcSyscalStatus a F.adcSyscalStatusState = 3) ∧ (Tbl.get (fun x => none) s.adc.c0 a = some c0) ∧ ((sum - c0).natAbs < 1024 * 4096)) ∧
    (∃ (s : State) (a : Nat) (sum : Int) (ovr : Bool) (c0 : Int), (s.fld Obj.adcSyscalStatus a F.adcSyscalStatusState = 3) ∧ (Tbl.get (fun x => none) s.adc.c0 a = some c0) ∧ (ovr = false) ∧ (1024 * 4096 ≤ (sum - c0).natAbs)) ∧
    (∃ (s : State) (a : Nat) (sum : Int) (ovr : Bool), (s.fld Obj.adcSyscalStatus a F.adcSyscalStatusState ≠ 1) ∧ (s.fld Obj.adcSyscalStatus a F.adcSyscalStatusState ≠ 3)) :=
  ⟨⟨(wOnIn .idle).wr Obj.psmPmbusMap 0 (2 ^ 7), 0, [(1, 2, 3, 4)], (1, 2, 3, 4), by decide +kernel, by decide +kernel, by decide +kernel⟩,
   ⟨(wOnIn .idle).wr Obj.psmPmbusMap 0 (2 ^ 7), 0, [2 ^ 15], 2 ^ 15, by decide +kernel, by decide +kernel, by decide +kernel⟩,
   ⟨wBoot 3, [], [], by decide +kernel⟩,
   ⟨(wOnIn .idle).setFld Obj.adcWindow 0 F.adcWindowHigh 7, 0, 100, false, by decide +kernel⟩,
   ⟨wS.setFld Obj.psmDomainState 0 ⟨76, 4⟩ 0, 0, 100, true, by decide +kernel⟩,
   ⟨wOnIn .idle, 1, 0, 1, wX, wRow Obj.adcOwTest, by decide +kernel, accepts_of (by decide +kernel)⟩,
   ⟨wOnIn .idle, 1, 0, 1, wX, wRow Obj.adcSyscal, by decide +kernel, accepts_of (by decide +kernel)⟩,
   ⟨{ wOnIn .idle with adc := { c0 := [(0, some 4096)] } }, 1, 0, 2 + 1000 * 2 ^ 32, wX, wRow Obj.adcSyscal, 1000, by decide +kernel, by decide +kernel, accepts_of (by decide +kernel)⟩,
   ⟨{ wOnIn .idle with adc := { ow := [(0, some 99)] } }, 0, 99, 500, -500, by decide +kernel⟩,
   ⟨wS, 0, 500, -500, by decide +kernel⟩,
   ⟨wS.wr Obj.adcSyscalStatus 0 1, 0, 500, false, by decide +kernel, by decide +kernel⟩,
   ⟨wS.wr Obj.adcSyscalStatus 0 1, 0, 500, true, by decide +kernel, by decide +kernel⟩,
   ⟨({ wS with adc := { c0 := [(0, some 4096)] } } : State).wr Obj.adcSyscalStatus 0 3, 0, 500, false, 4096, by decide +kernel, by decide +kernel, by decide +kernel⟩,
   ⟨(({ wS with adc := { c0 := [(0, some 4096)] } } : State).wr Obj.adcSyscalStatus 0 3).setFld Obj.adcSyscal 0 F.adcSyscalFsValue 1000, 0, 50000000, false, 4096, by decide +kernel, by decide +kernel, by decide +kernel, by decide +kernel⟩,
   ⟨wS, 0, 500, false, by decide +kernel, by decide +kernel⟩⟩

/-- The hypotheses of each clause of SyncEdgesTakeTheEpoch can be met (clauses of the same hypotheses together). -/
theorem witness_SyncEdgesTakeTheEpoch :
    (∃ (s : State) (n : Nat) (x : Session) (r : ObjRow), (Accepts s n x r Obj.clkSyncArm 0 [1#8] [0]) ∧ ((s.touch n x).fwServed r = false)) ∧
    (∃ (s : State) (n : Nat) (x : Session) (r : ObjRow), (Accepts s n x r Obj.clkSyncArm 0 [0#8] [0]) ∧ ((s.touch n x).fwServed r = false)) ∧
    (∃ (s : State) (n : Nat) (x : Session) (r : ObjRow), (1 < 256 ^ (tyLen r.ty).getD 0) ∧ (Accepts s n x r Obj.clkSyncArm 0 (toLE ((tyLen r.ty).getD 0) 1) [0])) ∧
    (∃ (s : State) (n : Nat) (x : Session) (r : ObjRow), (0 < 256 ^ (tyLen r.ty).getD 0) ∧ (Accepts s n x r Obj.clkSyncArm 0 (toLE ((tyLen r.ty).getD 0) 0) [0])) :=
  ⟨⟨wOnIn .idle, 1, wX, wRow Obj.clkSyncArm, accepts_of (by decide +kernel), by decide +kernel⟩,
   ⟨wOnIn .idle, 1, wX, wRow Obj.clkSyncArm, accepts_of (by decide +kernel), by decide +kernel⟩,
   ⟨wOnIn .idle, 1, wX, wRow Obj.clkSyncArm, by decide +kernel, accepts_of (by decide +kernel)⟩,
   ⟨wOnIn .idle, 1, wX, wRow Obj.clkSyncArm, by decide +kernel, accepts_of (by decide +kernel)⟩⟩

/-- The hypotheses of each clause of NetworkTimeIsDisciplined can be met (clauses of the same hypotheses together). -/
theorem witness_NetworkTimeIsDisciplined :
    (∃ (s : State) (port : Nat) (egress : Bool) (id : Nat) (typ : Nat), (bit (s.fld Obj.ptpCfg 0 F.ptpCfgPorts) port = false)) ∧
    (∃ (s : State) (port : Nat) (id : Nat) (typ : Nat), (bit (s.fld Obj.ptpCfg 0 F.ptpCfgPorts) port = true)) ∧
    (∃ (s : State) (port : Nat) (off : Int) (delay : Int) (gm : Nat), (bit (s.fld Obj.ptpCfg 0 F.ptpCfgPorts) port = false)) ∧
    (∃ (s : State) (port : Nat) (off : Int) (delay : Int) (gm : Nat), (bit (s.fld Obj.ptpCfg 0 F.ptpCfgPorts) port = true) ∧ (¬s.fld Obj.ptpServoCfg 0 F.ptpServoCfgMode = 0)) ∧
    (∃ (s : State) (port : Nat) (off : Int) (delay : Int) (gm : Nat), (bit (s.fld Obj.ptpCfg 0 F.ptpCfgPorts) port = true) ∧ (s.fld Obj.ptpServoCfg 0 F.ptpServoCfgMode = 0) ∧ (s.fld Obj.ptpServoCfg 0 F.ptpServoCfgStepLimit * 65536000 < off.natAbs)) ∧
    (∃ (s : State) (port : Nat) (off : Int) (delay : Int) (gm : Nat), (bit (s.fld Obj.ptpCfg 0 F.ptpCfgPorts) port = true) ∧ (s.fld Obj.ptpServoCfg 0 F.ptpServoCfgMode = 0) ∧ (¬s.fld Obj.ptpServoCfg 0 F.ptpServoCfgStepLimit * 65536000 < off.natAbs)) ∧
    (∃ (s : State) (port : Nat) (d : Nat), (s.clk.syncAt = some d)) ∧
    (∃ (s : State) (port : Nat), (s.clk.syncAt = none)) ∧
    (∃ (s : State) (n : Nat) (x : Session) (r : ObjRow) (v : Bytes), (Accepts s n x r Obj.ptpNtSet 0 v [0])) ∧
    (∃ (s : State) (n : Nat) (x : Session) (r : ObjRow) (v : Int), (-2 ^ 63 ≤ v) ∧ (v < 2 ^ 63) ∧ (ofSigned 64 v < 256 ^ (tyLen r.ty).getD 0) ∧ (Accepts s n x r Obj.ptpNtAdj 0 (toLE ((tyLen r.ty).getD 0) (ofSigned 64 v)) [0])) ∧
    (∃ (s : State) (n : Nat) (x : Session) (r : ObjRow) (el : Nat) (els : List Nat), (0 < 256 ^ (tyLen r.ty).getD 0) ∧ (Accepts s n x r Obj.ptpTxqOvf el (toLE ((tyLen r.ty).getD 0) 0) els)) :=
  ⟨⟨wOnIn .idle, 0, false, 3, 0, by decide +kernel⟩,
   ⟨(wOnIn .idle).setFld Obj.ptpCfg 0 F.ptpCfgPorts 3, 0, 3, 0, by decide +kernel⟩,
   ⟨(wOnIn .idle).setFld Obj.ptpCfg 0 F.ptpCfgPorts 0, 0, 10^9, 5, 7, by decide +kernel⟩,
   ⟨((wOnIn .idle).setFld Obj.ptpCfg 0 F.ptpCfgPorts 3).setFld Obj.ptpServoCfg 0 F.ptpServoCfgMode 1, 0, 10^9, 5, 7, by decide +kernel, by decide +kernel⟩,
   ⟨((wOnIn .idle).setFld Obj.ptpCfg 0 F.ptpCfgPorts 3).setFld Obj.ptpStatus 0 F.ptpStatusLocked 1, 0, 10^15, 5, 7, by decide +kernel, by decide +kernel, by decide +kernel⟩,
   ⟨(wOnIn .idle).setFld Obj.ptpCfg 0 F.ptpCfgPorts 3, 0, 10^9, 5, 7, by decide +kernel, by decide +kernel, by decide +kernel⟩,
   ⟨{ ((wOnIn .idle).setFld Obj.ptpCfg 0 F.ptpCfgPorts 3).setFld Obj.ptpStatus 0 F.ptpStatusLocked 1 with clk := { syncAt := some 7 } }, 0, 7, by decide +kernel⟩,
   ⟨wS, 0, by decide +kernel⟩,
   ⟨(wOnIn .idle).setFld Obj.ptpServoCfg 0 F.ptpServoCfgMode 2, 1, wX, wRow Obj.ptpNtSet, toLE 12 (2^48 * 5 + 2^16 * 7), accepts_of (by decide +kernel)⟩,
   ⟨(wOnIn .idle).setFld Obj.ptpServoCfg 0 F.ptpServoCfgMode 2, 1, wX, wRow Obj.ptpNtAdj, -5, by decide +kernel, by decide +kernel, by decide +kernel, accepts_of (by decide +kernel)⟩,
   ⟨(wOnIn .idle).wr Obj.ptpTxqOvf 1 1, 1, wX, wRow Obj.ptpTxqOvf, 1, [1], by decide +kernel, accepts_of (by decide +kernel)⟩⟩

/-- The hypotheses of each clause of CascadeCarriesEventsAndFrames can be met (clauses of the same hypotheses together). -/
theorem witness_CascadeCarriesEventsAndFrames :
    (∃ (s : State) (p : Nat) (e : Nat) (c : Nat) (l : List (Nat × Nat)), ((s.cport p).tx = (e, c) :: l)) ∧
    (∃ (s : State) (p : Nat), ((s.cport p).tx = [])) ∧
    (∃ (s : State) (p : Nat) (lanes : Lanes) (d : Nat), (s.cslState p ≠ 2)) ∧
    (∃ (s : State) (p : Nat) (lanes : Lanes) (d : Nat), (s.cslState p = 2) ∧ (laneVote lanes = none)) ∧
    (∃ (s : State) (p : Nat) (lanes : Lanes) (d : Nat) (c : Nat), (s.cslState p = 2) ∧ (laneVote lanes = some c) ∧ (s.fld Obj.cslPortStatus p F.cslPortStatusLatValid = 0)) ∧
    (∃ (s : State) (p : Nat) (lanes : Lanes) (d : Nat) (c : Nat), (s.cslState p = 2) ∧ (laneVote lanes = some c) ∧ (s.fld Obj.cslPortStatus p F.cslPortStatusLatValid = 1) ∧ (s.fld Obj.cslPortCfg p F.cslPortCfgRxEvents = 1)) ∧
    (∃ (s : State) (p : Nat) (lanes : Lanes) (d : Nat) (c : Nat), (s.cslState p = 2) ∧ (laneVote lanes = some c) ∧ (s.fld Obj.cslPortStatus p F.cslPortStatusLatValid = 1) ∧ (s.fld Obj.cslPortCfg p F.cslPortCfgRxEvents = 0)) ∧
    (∃ (s : State) (p : Nat) (e : CslEvent) (l : List CslEvent), ((s.cport p).rx = e :: l)) ∧
    (∃ (s : State) (p : Nat), ((s.cport p).rx = [])) ∧
    (∃ (s : State) (p : Nat) (f : Nat), (s.cslState p ≠ 2)) ∧
    (∃ (s : State) (p : Nat) (f : Nat), (s.cslState p = 2) ∧ ((s.cport p).flight = none) ∧ (f ≤ 25000000) ∧ (s.fld Obj.clkState 0 F.clkStateAligned = 1)) ∧
    (∃ (s : State) (p : Nat) (f : Nat), (s.cslState p = 2) ∧ ((s.cport p).flight = none) ∧ (25000000 < f)) ∧
    (∃ (s : State) (p : Nat) (f : Nat) (g : Nat), (s.cslState p = 2) ∧ ((s.cport p).flight = some g) ∧ (s.fld Obj.cslPortStatus p F.cslPortStatusLatValid = 1) ∧ (g + 500000 < f)) ∧
    (∃ (s : State) (p : Nat) (f : Nat) (g : Nat), (s.cslState p = 2) ∧ ((s.cport p).flight = some g) ∧ (f ≤ g + 500000) ∧ (g ≤ f + 500000) ∧ (f ≤ 25000000)) ∧
    (∃ (s : State) (p : Nat) (b : Bytes) (aborted : Bool), (s.cslState p ≠ 2)) ∧
    (∃ (s : State) (p : Nat) (b : Bytes) (aborted : Bool), (s.cslState p = 2) ∧ (¬(aborted = false ∧ 1 ≤ leAt b 0 2 ∧ leAt b 0 2 ≤ 1024 ∧ List.length b = leAt b 0 2 + 8 ∧ crc32 (List.take (leAt b 0 2 + 4) b) = leAt b (leAt b 0 2 + 4) 4))) ∧
    (∃ (s : State) (p : Nat) (b : Bytes) (aborted : Bool), (s.cslState p = 2) ∧ (aborted = false) ∧ (1 ≤ leAt b 0 2) ∧ (leAt b 0 2 ≤ 1024) ∧ (List.length b = leAt b 0 2 + 8) ∧ (crc32 (List.take (leAt b 0 2 + 4) b) = leAt b (leAt b 0 2 + 4) 4)) ∧
    (∃ (s : State) (p : Nat) (b : Bytes), ((s.cport p).frame = some b)) ∧
    (∃ (s : State) (p : Nat), ((s.cport p).frame = none)) :=
  ⟨⟨wCas { tx := [(99, 5)] }, 1, 99, 5, [], by decide +kernel⟩,
   ⟨wS, 1, by decide +kernel⟩,
   ⟨wS, 1, [], 99, by decide +kernel⟩,
   ⟨wCas {}, 1, [], 99, by decide +kernel, by decide +kernel⟩,
   ⟨(wCas {}).setFld Obj.cslPortStatus 1 F.cslPortStatusLatValid 0, 1, [(5, true), (5, true), (5, true), (6, true)], 99, 5, by decide +kernel, by decide +kernel, by decide +kernel⟩,
   ⟨(wCas {}).setFld Obj.cslPortCfg 1 F.cslPortCfgRxEvents 1, 1, [(5, true), (5, true), (5, true), (6, true)], 99, 5, by decide +kernel, by decide +kernel, by decide +kernel, by decide +kernel⟩,
   ⟨(wCas {}).setFld Obj.cslPortCfg 1 F.cslPortCfgRxEvents 0, 1, [(5, true), (5, true), (5, true), (6, true)], 99, 5, by decide +kernel, by decide +kernel, by decide +kernel, by decide +kernel⟩,
   ⟨(wCas { rx := [⟨99, 5⟩] }).wNdl 4, 1, ⟨99, 5⟩, [], by decide +kernel⟩,
   ⟨wS, 1, by decide +kernel⟩,
   ⟨wS, 1, 7000000, by decide +kernel⟩,
   ⟨wCas {}, 1, 7000000, by decide +kernel, by decide +kernel, by decide +kernel, by decide +kernel⟩,
   ⟨wCas {}, 1, 70000000, by decide +kernel, by decide +kernel, by decide +kernel⟩,
   ⟨wCas { flight := some 7000000 }, 1, 8000000, 7000000, by decide +kernel, by decide +kernel, by decide +kernel, by decide +kernel⟩,
   ⟨wCas { flight := some 7000000 }, 1, 7000000, 7000000, by decide +kernel, by decide +kernel, by decide +kernel, by decide +kernel, by decide +kernel⟩,
   ⟨wS, 1, [], false, by decide +kernel⟩,
   ⟨wCas {}, 1, [], false, by decide +kernel, by decide +kernel⟩,
   ⟨wCas {}, 1, wCasFrame, false, by decide +kernel, by decide +kernel, by decide +kernel, by decide +kernel, by decide +kernel, by decide +kernel⟩,
   ⟨wCas { frame := some [1#8] }, 1, [1#8], by decide +kernel⟩,
   ⟨wS, 1, by decide +kernel⟩⟩

/-- The hypotheses of each clause of CascadePortsAlign can be met (clauses of the same hypotheses together). -/
theorem witness_CascadePortsAlign :
    (∃ (s : State) (p : Nat) (l : Nat), (s.cslState p = 2) ∧ (l < 256)) ∧
    (∃ (s : State) (p : Nat) (l : Nat), (s.cslState p ≠ 2)) ∧
    (∃ (s : State) (p : Nat) (fits : LaneFits), (s.cslState p = 1) ∧ ((s.cport p).manual = false) ∧ (List.length fits = 4) ∧ (∀ f ∈ fits, f ≠ none)) ∧
    (∃ (s : State) (p : Nat) (fits : LaneFits), (s.cslState p = 1) ∧ ((s.cport p).manual = false) ∧ (List.length fits = 4) ∧ (∃ f ∈ fits, f = none)) ∧
    (∃ (s : State) (p : Nat) (fits : LaneFits), (s.cslState p ≠ 1)) ∧
    (∃ (s : State) (n : Nat) (p : Nat) (x : Session) (r : ObjRow), (1 < 256 ^ (tyLen r.ty).getD 0) ∧ (Accepts s n x r Obj.cslAlign p (toLE ((tyLen r.ty).getD 0) 1) [p]) ∧ ((s.touch n x).domOn 15 = true)) ∧
    (∃ (s : State) (n : Nat) (p : Nat) (x : Session) (r : ObjRow), (2 < 256 ^ (tyLen r.ty).getD 0) ∧ (Accepts s n x r Obj.cslAlign p (toLE ((tyLen r.ty).getD 0) 2) [p]) ∧ ((s.touch n x).domOn 15 = true)) ∧
    (∃ (s : State) (n : Nat) (p : Nat) (x : Session) (r : ObjRow), (3 < 256 ^ (tyLen r.ty).getD 0) ∧ (Accepts s n x r Obj.cslAlign p (toLE ((tyLen r.ty).getD 0) 3) [p]) ∧ ((s.touch n x).domOn 15 = true)) ∧
    (∃ (s : State) (n : Nat) (p : Nat) (x : Session) (r : ObjRow) (c : Instr × Nat), (c ∈ [(Instr.alignAuto n p, 1), (Instr.alignManual n p, 2), (Instr.alignDone n p, 3)]) ∧ (c.2 < 256 ^ (tyLen r.ty).getD 0) ∧ (Accepts s n x r Obj.cslAlign p (toLE ((tyLen r.ty).getD 0) c.2) [p]) ∧ ((s.touch n x).domOn 15 = false)) ∧
    (∃ (s : State) (n : Nat) (p : Nat) (x : Session) (r : ObjRow), (1 < 256 ^ (tyLen r.ty).getD 0) ∧ (Accepts s n x r Obj.cslLaneTest p (toLE ((tyLen r.ty).getD 0) 1) [p])) ∧
    (∃ (s : State) (el : Nat) (errors : Nat) (comma : Bool) (deskewed : Bool) (d : Nat), (Tbl.get (fun x => none) (s.cport (el / 256)).test (el % 256) = some d)) ∧
    (∃ (s : State) (el : Nat) (errors : Nat) (comma : Bool) (deskewed : Bool), (Tbl.get (fun x => none) (s.cport (el / 256)).test (el % 256) = none)) :=
  ⟨⟨wCas { tx := [(99, 5)] }, 1, 2, by decide +kernel, by decide +kernel⟩,
   ⟨wS, 1, 2, by decide +kernel⟩,
   ⟨(wCas {}).setFld Obj.cslPortStatus 1 F.cslPortStatusState 1, 1, [some (1, 2, 3), some (1, 2, 3), some (1, 2, 3), some (4, 5, 6)], by decide +kernel, by decide +kernel, by decide +kernel, by decide +kernel⟩,
   ⟨(wCas {}).setFld Obj.cslPortStatus 1 F.cslPortStatusState 1, 1, [some (1, 2, 3), some (1, 2, 3), some (1, 2, 3), none], by decide +kernel, by decide +kernel, by decide +kernel, by decide +kernel⟩,
   ⟨wS, 1, [], by decide +kernel⟩,
   ⟨wOnIn .idle, 1, 1, wX, wRow Obj.cslAlign, by decide +kernel, accepts_of (by decide +kernel), by decide +kernel⟩,
   ⟨wOnIn .idle, 1, 1, wX, wRow Obj.cslAlign, by decide +kernel, accepts_of (by decide +kernel), by decide +kernel⟩,
   ⟨wOnIn .idle, 1, 1, wX, wRow Obj.cslAlign, by decide +kernel, accepts_of (by decide +kernel), by decide +kernel⟩,
   ⟨(wOnIn .idle).setFld Obj.psmDomainState 0 ⟨60, 4⟩ 0, 1, 1, wX, wRow Obj.cslAlign, (.alignAuto 1 1, 1), by decide +kernel, by decide +kernel, accepts_of (by decide +kernel), by decide +kernel⟩,
   ⟨(wOnIn .idle).setFld Obj.cslPortStatus 1 F.cslPortStatusState 1, 1, 256 + 2, wX, wRow Obj.cslLaneTest, by decide +kernel, accepts_of (by decide +kernel)⟩,
   ⟨wCas { test := [(2, some 99)] }, 256 + 2, 5, true, true, 99, by decide +kernel⟩,
   ⟨wS, 256 + 2, 5, true, true, by decide +kernel⟩⟩

/-- The hypotheses of each clause of PortsReceiveAndAnswer can be met (clauses of the same hypotheses together). -/
theorem witness_PortsReceiveAndAnswer :
    (∃ (s : State) (port : Nat) (sub : Nat) (typ : Nat) (vid : Nat) (pcp : Nat) (len : Nat) (k : Nat) (ok : Bool), (s.linkUp port sub = true) ∧ (ok = false)) ∧
    (∃ (s : State) (port : Nat) (sub : Nat) (typ : Nat) (vid : Nat) (pcp : Nat) (len : Nat) (k : Nat) (ok : Bool), (s.linkUp port sub = true) ∧ (ok = true) ∧ (s.fld Obj.hlkPortCfg port F.hlkPortCfgMaxFrame < len)) ∧
    (∃ (s : State) (port : Nat) (sub : Nat) (typ : Nat) (vid : Nat) (pcp : Nat) (len : Nat) (k : Nat) (ok : Bool), (s.linkUp port sub = true) ∧ (ok = true) ∧ (¬s.fld Obj.hlkPortCfg port F.hlkPortCfgMaxFrame < len) ∧ (¬(s.vidOk port sub vid = true ∧ typ ∈ [2048, 2054, 34525] ∧ 1 ≤ k ∧ k ≤ 3 ∧ 64 ≤ len ∧ (typ = 2048 → s.ip4 port sub ≠ 0)))) ∧
    (∃ (s : State) (port : Nat) (sub : Nat) (typ : Nat) (vid : Nat) (pcp : Nat) (len : Nat) (k : Nat) (ok : Bool), (s.linkUp port sub = true) ∧ (ok = true) ∧ (¬s.fld Obj.hlkPortCfg port F.hlkPortCfgMaxFrame < len) ∧ (s.vidOk port sub vid = true) ∧ (typ ∈ [2048, 2054, 34525]) ∧ (1 ≤ k) ∧ (k ≤ 3) ∧ (64 ≤ len) ∧ (typ = 2048 → s.ip4 port sub ≠ 0) ∧ (k ≠ 1)) ∧
    (∃ (s : State) (port : Nat) (sub : Nat) (typ : Nat) (vid : Nat) (pcp : Nat) (len : Nat) (k : Nat) (ok : Bool), (s.linkUp port sub = true) ∧ (ok = true) ∧ (¬s.fld Obj.hlkPortCfg port F.hlkPortCfgMaxFrame < len) ∧ (s.vidOk port sub vid = true) ∧ (typ ∈ [2048, 2054, 34525]) ∧ (1 ≤ k) ∧ (k ≤ 3) ∧ (64 ≤ len) ∧ (typ = 2048 → s.ip4 port sub ≠ 0) ∧ (k = 1) ∧ (List.foldl (fun x1 x2 => x1 + x2) 0 (s.rxFill port (s.rxClass port (if vid = 4096 then s.fld Obj.hlkPrioCfg port F.hlkPrioCfgDefaultPcp else pcp))) + len ≤ if s.rxClass port (if vid = 4096 then s.fld Obj.hlkPrioCfg port F.hlkPrioCfgDefaultPcp else pcp) = 0 then 262144 else 4194304)) ∧
    (∃ (s : State) (port : Nat) (sub : Nat) (typ : Nat) (vid : Nat) (pcp : Nat) (len : Nat) (k : Nat) (ok : Bool), (s.linkUp port sub = true) ∧ (ok = true) ∧ (¬s.fld Obj.hlkPortCfg port F.hlkPortCfgMaxFrame < len) ∧ (s.vidOk port sub vid = true) ∧ (typ ∈ [2048, 2054, 34525]) ∧ (1 ≤ k) ∧ (k ≤ 3) ∧ (64 ≤ len) ∧ (typ = 2048 → s.ip4 port sub ≠ 0) ∧ (k = 1) ∧ (¬List.foldl (fun x1 x2 => x1 + x2) 0 (s.rxFill port (s.rxClass port (if vid = 4096 then s.fld Obj.hlkPrioCfg port F.hlkPrioCfgDefaultPcp else pcp))) + len ≤ if s.rxClass port (if vid = 4096 then s.fld Obj.hlkPrioCfg port F.hlkPrioCfgDefaultPcp else pcp) = 0 then 262144 else 4194304)) ∧
    (∃ (s : State) (port : Nat) (sub : Nat) (sip : Nat) (mac : Nat) (tip : Nat), (s.linkUp port sub = true) ∧ (s.ip4 port sub ≠ 0) ∧ (tip = s.ip4 port sub)) ∧
    (∃ (s : State) (port : Nat) (sub : Nat) (sip : Nat) (mac : Nat) (tip : Nat), (s.linkUp port sub = true) ∧ (tip ≠ s.ip4 port sub)) ∧
    (∃ (s : State) (port : Nat) (sub : Nat) (v6 : Bool) (src : Nat) (dst : Nat) (len : Nat), (s.linkUp port sub = true) ∧ (if v6 = true then dst ∈ s.ip6 port sub else s.ip4 port sub ≠ 0 ∧ dst = s.ip4 port sub) ∧ (len ≤ s.fld Obj.hlkPortCfg port F.hlkPortCfgMaxFrame) ∧ ((List.filter (fun d => decide (s.now < d + secFs)) (Tbl.get (fun x => []) s.hlk.echo (subEl port sub))).length < 1000)) ∧
    (∃ (s : State) (port : Nat) (sub : Nat) (v6 : Bool) (src : Nat) (dst : Nat) (len : Nat), (s.linkUp port sub = true) ∧ (¬((if v6 = true then dst ∈ s.ip6 port sub else s.ip4 port sub ≠ 0 ∧ dst = s.ip4 port sub) ∧ len ≤ s.fld Obj.hlkPortCfg port F.hlkPortCfgMaxFrame ∧ (List.filter (fun d => decide (s.now < d + secFs)) (Tbl.get (fun x => []) s.hlk.echo (subEl port sub))).length < 1000))) ∧
    (∃ (s : State) (port : Nat) (sub : Nat) (src : Nat) (target : Nat), (s.linkUp port sub = true) ∧ (target ∈ s.ip6 port sub)) ∧
    (∃ (s : State) (port : Nat) (sub : Nat) (src : Nat) (target : Nat) (dad : Bool), (s.linkUp port sub = true) ∧ (target ∉ s.ip6 port sub)) ∧
    (∃ (s : State) (port : Nat) (sub : Nat) (v6 : Bool) (g : Nat), (s.linkUp port sub = true)) ∧
    (∃ (s : State) (port : Nat) (sub : Nat) (cs : Nat) (quanta : Nats), (s.linkUp port sub = true)) ∧
    (∃ (s : State) (port : Nat) (sub : Nat) (a : Nat) (b : Nat) (c : Nat) (d : Nat) (e : Nat) (f : Nat) (o : Bool) (l : Nats) (i : Instr), (s.linkUp port sub = false) ∧ (i ∈ [Instr.frameReceive port sub a b c d o f, Instr.arpRequest port sub a b c, Instr.echoRequest port sub o a b c, Instr.neighbourSolicitation port sub a b o, Instr.membershipQuery port sub o e, Instr.pfcReceive port sub a l])) ∧
    (∃ (s : State) (port : Nat) (sub : Nat) (d : Nat), (s.pfcAt port = some d)) ∧
    (∃ (s : State) (port : Nat) (sub : Nat), (s.pfcAt port = none)) ∧
    (∃ (s : State) (port : Nat) (sub : Nat) (c : Nat) (d : Nat), (c < 8) ∧ (Tbl.get (fun x => none) s.hlk.paused (subEl port sub * 8 + c) = some d)) ∧
    (∃ (s : State) (port : Nat) (sub : Nat) (c : Nat), (c < 8) ∧ (Tbl.get (fun x => none) s.hlk.paused (subEl port sub * 8 + c) = none)) ∧
    (∃ (s : State) (port : Nat) (sub : Nat) (ip : Nat) (e : Nat × Nat × Nat), (List.find? (fun y => y.1 == ip) (Tbl.get (fun x => []) s.hlk.arp (subEl port sub)) = some e)) ∧
    (∃ (s : State) (port : Nat) (sub : Nat) (ip : Nat), (List.find? (fun y => y.1 == ip) (Tbl.get (fun x => []) s.hlk.arp (subEl port sub)) = none)) :=
  ⟨⟨wPort, 0, 0, 0x0800, 4096, 0, 100, 1, false, by decide +kernel, by decide +kernel⟩,
   ⟨wPort, 0, 0, 0x0800, 4096, 0, 100000, 1, true, by decide +kernel, by decide +kernel, by decide +kernel⟩,
   ⟨wPort, 0, 0, 0x0900, 4096, 0, 100, 1, true, by decide +kernel, by decide +kernel, by decide +kernel, by decide +kernel⟩,
   ⟨wPort, 0, 0, 0x0800, 4096, 0, 100, 2, true, by decide +kernel, by decide +kernel, by decide +kernel, by decide +kernel, by decide +kernel, by decide +kernel, by decide +kernel, by decide +kernel, by decide +kernel, by decide +kernel⟩,
   ⟨wPort, 0, 0, 0x0800, 4096, 0, 100, 1, true, by decide +kernel, by decide +kernel, by decide +kernel, by decide +kernel, by decide +kernel, by decide +kernel, by decide +kernel, by decide +kernel, by decide +kernel, by decide +kernel, by decide +kernel⟩,
   ⟨wPort.setRx 0 1 [4194304], 0, 0, 0x0800, 4096, 0, 100, 1, true, by decide +kernel, by decide +kernel, by decide +kernel, by decide +kernel, by decide +kernel, by decide +kernel, by decide +kernel, by decide +kernel, by decide +kernel, by decide +kernel, by decide +kernel⟩,
   ⟨wPort, 0, 0, 5, 6, wPort.ip4 0 0, by decide +kernel, by decide +kernel, by decide +kernel⟩,
   ⟨wPort, 0, 0, 5, 6, 7, by decide +kernel, by decide +kernel⟩,
   ⟨wPort, 0, 0, false, 5, wPort.ip4 0 0, 100, by decide +kernel, by decide +kernel, by decide +kernel, by decide +kernel⟩,
   ⟨wPort, 0, 0, false, 5, 6, 100, by decide +kernel, by decide +kernel⟩,
   ⟨wPort, 0, 0, 5, linkLocal (wPort.mac 0 0), by decide +kernel, by decide +kernel⟩,
   ⟨wPort, 0, 0, 5, 6, true, by decide +kernel, by decide +kernel⟩,
   ⟨wGroup, 0, 0, false, 0, by decide +kernel⟩,
   ⟨{ wPort with hlk := { held := [⟨0, 0, 2, 0, .pfc 0 0 0⟩] } }, 0, 0, 5, [9, 0, 0], by decide +kernel⟩,
   ⟨wS, 0, 0, 1, 2, 3, 4, 5, 6, true, [], .arpRequest 0 0 1 2 3, by decide +kernel, by decide +kernel⟩,
   ⟨(wPort.setPfc 0 (some 99)).setFld Obj.hlkPrioCfg 0 F.hlkPrioCfgPfcTx 1, 0, 0, 99, by decide +kernel⟩,
   ⟨wS, 0, 0, by decide +kernel⟩,
   ⟨{ wPort with hlk := { held := [⟨0, 0, 2, 0, .pfc 0 0 0⟩], paused := [(2, some 5)] } }, 0, 0, 2, 5, by decide +kernel, by decide +kernel⟩,
   ⟨wS, 0, 0, 2, by decide +kernel, by decide +kernel⟩,
   ⟨{ wPort with hlk := { arp := [(0, [(5, 6, 7)])] } }, 0, 0, 5, (5, 6, 7), by decide +kernel⟩,
   ⟨wS, 0, 0, 5, by decide +kernel⟩⟩

/-- The hypotheses of each clause of LinksComeUpAndGoDown can be met (clauses of the same hypotheses together). -/
theorem witness_LinksComeUpAndGoDown :
    (∃ (s : State) (port : Nat) (id : Nat), (port < 2)) ∧
    (∃ (s : State) (port : Nat), (port < 2)) ∧
    (∃ (s : State) (port : Nat) (n : Nat) (v : Nat) (x : Session) (r : ObjRow), (port < 2) ∧ (v < 256 ^ (tyLen r.ty).getD 0) ∧ (Accepts s n x r Obj.hlkPortCfg port (toLE ((tyLen r.ty).getD 0) v) [port])) ∧
    (∃ (s : State) (port : Nat) (sub : Nat), (sub < s.subCount port) ∧ (s.linkState port sub = 2)) ∧
    (∃ (s : State) (port : Nat) (sub : Nat), (s.linkState port sub ≠ 2) ∧ (s.linkState port sub ≠ 4)) ∧
    (∃ (s : State) (port : Nat) (sub : Nat), (s.linkUp port sub = true)) ∧
    (∃ (s : State) (port : Nat) (sub : Nat), (s.linkUp port sub = false)) :=
  ⟨⟨wOnIn .idle, 0, 17, by decide +kernel⟩,
   ⟨wOnIn .idle, 0, by decide +kernel⟩,
   ⟨wOnIn .idle, 1, 1, 603979777, wX, wRow Obj.hlkPortCfg, by decide +kernel, by decide +kernel, accepts_of (by decide +kernel)⟩,
   ⟨(wOnIn .idle).setFld Obj.hlkLinkStatus 0 F.hlkLinkStatusState 2, 0, 0, by decide +kernel, by decide +kernel⟩,
   ⟨wUp, 0, 0, by decide +kernel, by decide +kernel⟩,
   ⟨wUp, 0, 0, by decide +kernel⟩,
   ⟨(wOnIn .idle).setFld Obj.hlkLinkStatus 0 F.hlkLinkStatusState 2, 0, 0, by decide +kernel⟩⟩

/-- The hypotheses of each clause of DumpsAreWrittenAndCleared can be met (clauses of the same hypotheses together). -/
theorem witness_DumpsAreWrittenAndCleared :
    (∃ (s : State) (c : Nat), (s.mode = Mode.dump) ∧ (s.psm.plan = none) ∧ (s.psm.ramp = none) ∧ (s.fld Obj.dmpStatus 0 F.dmpStatusState = 0) ∧ (s.trans = none) ∧ (c < 16) ∧ (c = s.system0) ∧ (s.coreState c ≠ 5)) ∧
    (∃ (s : State), (s.mode = Mode.dump) ∧ (s.psm.plan = none) ∧ (s.psm.ramp = none) ∧ (s.fld Obj.dmpStatus 0 F.dmpStatusState = 0) ∧ (s.trans = none) ∧ (∀ c < 16, s.coreState c = 5)) ∧
    (∃ (s : State), (¬(s.mode = Mode.dump ∧ s.psm.plan = none ∧ s.psm.ramp = none ∧ s.fld Obj.dmpStatus 0 F.dmpStatusState = 0 ∧ s.trans = none))) ∧
    (∃ (s : State) (body : Bytes), (s.fld Obj.dmpStatus 0 F.dmpStatusState = 1)) ∧
    (∃ (s : State) (body : Bytes), (s.fld Obj.dmpStatus 0 F.dmpStatusState ≠ 1)) ∧
    (∃ (s : State) (n : Nat) (x : Session) (r : ObjRow), (1 < 256 ^ (tyLen r.ty).getD 0) ∧ (Accepts s n x r Obj.dmpClear 0 (toLE ((tyLen r.ty).getD 0) 1) [0])) ∧
    (∃ (s : State) (n : Nat) (x : Session) (r : ObjRow), (1 < 256 ^ (tyLen r.ty).getD 0) ∧ (Accepts s n x r Obj.dmpSummaryClear 0 (toLE ((tyLen r.ty).getD 0) 1) [0])) ∧
    (∃ (s : State) (n : Nat) (x : Session) (r : ObjRow), (1 < 256 ^ (tyLen r.ty).getD 0) ∧ (Accepts s n x r Obj.wdpStatsClear 0 (toLE ((tyLen r.ty).getD 0) 1) [0])) :=
  ⟨⟨wDump, 0, by decide +kernel, by decide +kernel, by decide +kernel, by decide +kernel, by decide +kernel, by decide +kernel, by decide +kernel, by decide +kernel⟩,
   ⟨(List.range 16).foldl (fun s c => s.wr Obj.cccState c 5) wDump, by decide +kernel, by decide +kernel, by decide +kernel, by decide +kernel, by decide +kernel, by decide +kernel⟩,
   ⟨wS, by decide +kernel⟩,
   ⟨wDump.setFld Obj.dmpStatus 0 F.dmpStatusState 1, [1#8], by decide +kernel⟩,
   ⟨wS, [1#8], by decide +kernel⟩,
   ⟨wDump.setFld Obj.dmpStatus 0 F.dmpStatusState 2, 1, wX, wRow Obj.dmpClear, by decide +kernel, accepts_of (by decide +kernel)⟩,
   ⟨wOnIn .idle, 1, wX, wRow Obj.dmpSummaryClear, by decide +kernel, accepts_of (by decide +kernel)⟩,
   ⟨wOnIn .idle, 1, wX, wRow Obj.wdpStatsClear, by decide +kernel, accepts_of (by decide +kernel)⟩⟩

end Machine
end Sys2Proof
end

section
namespace Sys2Proof.Machine
-- one declaration at a time, as in the laws: each `decide +kernel` waits for the declarations before it
set_option Elab.async false

/-! ### What an operation leaves readable -/

theorem testBit_off_of_land {m k i : Nat} (h : m &&& k = 0) (hk : k.testBit i = true) : m.testBit i = false := by
  have e := congrArg (·.testBit i) h
  simpa [hk] using e

theorem Kept.now_eq {m : Nat} {s t : State} (h : Kept m s t) (hm : m.testBit 0 = false) : t.now = s.now := h.same .now hm

theorem Kept.trans_eq {m : Nat} {s t : State} (h : Kept m s t) (hm : m.testBit 4 = false) : t.trans = s.trans := h.same .trans hm

theorem Kept.ndl_eq {m : Nat} {s t : State} (h : Kept m s t) (hm : m.testBit 30 = false) (n : Nat) : t.ndl n = s.ndl n := by
  rw [State.ndl, show t.ndls = s.ndls from h.same .ndls hm, State.ndl]

theorem Kept.fld_eq {m : Nat} {s t : State} (h : Kept m s t) {o : Nat} (e : Nat) (f : Fld) (ho : o < 65536) (hm : m.testBit (o + 64) = false) :
    t.fld o e f = s.fld o e f := by
  rw [State.fld, h.rd e ho hm, State.fld]

theorem Kept.mode_eq {m : Nat} {s t : State} (h : Kept m s t) (hm : m.testBit (Obj.devMode + 64) = false) : t.mode = s.mode := by
  rw [State.mode, h.rd 0 (by decide) hm, State.mode]

theorem State.fld_setFld_ne (s : State) {o e o' e' : Nat} (f g : Fld) (v : Nat) (ho : o < 65536) (ho' : o' < 65536) (h : ¬ (o' = o ∧ e' = e)) :
    (s.setFld o e f v).fld o' e' g = s.fld o' e' g := by
  rw [State.fld, State.setFld, State.rd_wr_ne s _ ho ho' h, State.fld]

/-- A counter's field and its SAT bit leave the record's other fields alone. -/
theorem State.fld_count_apart (s : State) (o e : Nat) (f sat g : Fld) (k : Nat) (hf : f.Apart g) (hs : sat.Apart g) :
    (s.count o e f sat k).fld o e g = s.fld o e g := by
  unfold State.count
  extract_lets x
  split
  · exact State.fld_setFld_apart _ _ _ _ _ _ hf
  · rw [State.fld_setFld_apart _ _ _ _ _ _ hs, State.fld_setFld_apart _ _ _ _ _ _ hf]

/-! ### Active faults only grow -/

/-- Every fault that was active still is. -/
def State.ActiveGrows (s t : State) : Prop := ∀ src, s.active src = true → t.active src = true

theorem State.ActiveGrows.trans {s t u : State} (h : s.ActiveGrows t) (k : t.ActiveGrows u) : s.ActiveGrows u := fun x hx => k x (h x hx)

theorem Kept.activeGrows {m : Nat} {s t : State} (h : Kept m s t) (hm : m.testBit (Obj.fcrActive + 64) = false) : s.ActiveGrows t :=
  fun src hs => (h.active_src hm src).trans hs

theorem State.raise_activeGrows (s : State) (src inst master access addr : Nat) (scope : Option Nat) (own : Bool) :
    s.ActiveGrows (s.raise src inst master access addr scope own) := by
  unfold State.raise
  split
  · exact (State.latch_kept ..).activeGrows (by decide +kernel)
  · rename_i cls _
    extract_lets st e s1 f1 s2 s3 s4 seen f2 s5 s6
    have k3 : Kept (pt.fcr ||| km_latch ||| km_fcrCount ||| km_captureFirst) s s3 :=
      (State.captureFirst_kept _ _ _ _ _).step (by decide +kernel) <| (State.fcrCount_kept _ _ _).step (by decide +kernel) <|
        Kept.set_fcr (by decide +kernel) <| (State.latch_kept s src).step (by decide +kernel) (.refl ..)
    have g3 : s.ActiveGrows s3 := k3.activeGrows (by decide +kernel)
    clear_value s3
    have g5 : s3.ActiveGrows s5 := by
      intro x hx
      simp only [s5]
      split
      · exact hx
      · show bit (s4.rd Obj.fcrActive 0) x = true
        simp only [s4, bit, State.rd_wr_self, testBit_setBit]
        split
        · rfl
        · exact hx
    clear_value s5
    have g6 : s5.ActiveGrows s6 := by
      simp only [s6]
      split
      · exact (State.dropTimedStart_kept _).activeGrows (by decide +kernel)
      · exact fun _ h => h
    exact (g3.trans g5).trans (g6.trans ((State.react_kept ..).activeGrows (by decide +kernel)))

/-! ### Operations on one needle -/

/-- The part of a needle's runtime state that says where its run stands; what it has traced, fetched, streamed and jumped is left out. -/
def NdlRt.standing (r : NdlRt) : NdlRt :=
  { fresh := r.fresh, t0 := r.t0, queue := r.queue, active := r.active, seam := r.seam, bound := r.bound, freeze := r.freeze, frogs := r.frogs,
    park := r.park, parked := r.parked, final := r.final }

@[simp] theorem NdlRt.standing_fresh (r : NdlRt) : r.standing.fresh = r.fresh := rfl
@[simp] theorem NdlRt.standing_t0 (r : NdlRt) : r.standing.t0 = r.t0 := rfl
@[simp] theorem NdlRt.standing_queue (r : NdlRt) : r.standing.queue = r.queue := rfl
@[simp] theorem NdlRt.standing_active (r : NdlRt) : r.standing.active = r.active := rfl
@[simp] theorem NdlRt.standing_seam (r : NdlRt) : r.standing.seam = r.seam := rfl
@[simp] theorem NdlRt.standing_freeze (r : NdlRt) : r.standing.freeze = r.freeze := rfl
@[simp] theorem NdlRt.standing_frogs (r : NdlRt) : r.standing.frogs = r.frogs := rfl
@[simp] theorem NdlRt.standing_park (r : NdlRt) : r.standing.park = r.park := rfl
@[simp] theorem NdlRt.standing_final (r : NdlRt) : r.standing.final = r.final := rfl

/-- What the needles' own facts are made of: their runtime state, NDL.STATE and STR.STATE. -/
def needleParts : Nat := pt.ndls ||| ob Obj.ndlState ||| ob Obj.strState

/-- An operation on needle n leaves the other needles alone. -/
structure OnlyNeedle (n : Nat) (s t : State) : Prop where
  ndl : ∀ m, m ≠ n → t.ndl m = s.ndl m
  state : ∀ m, m ≠ n → t.ndlState m = s.ndlState m
  str : ∀ m, m ≠ n → t.strState m = s.strState m

/-- Moreover the run of needle n stands where it stood. -/
structure Beside (n : Nat) (s t : State) : Prop where
  ndl : ∀ m, m ≠ n → t.ndl m = s.ndl m
  standing : (t.ndl n).standing = (s.ndl n).standing
  state : ∀ m, t.ndlState m = s.ndlState m
  str : ∀ m, t.strState m = s.strState m

theorem OnlyNeedle.refl (n : Nat) (s : State) : OnlyNeedle n s s := ⟨fun _ _ => rfl, fun _ _ => rfl, fun _ _ => rfl⟩

theorem OnlyNeedle.trans {n : Nat} {s t u : State} (h : OnlyNeedle n s t) (k : OnlyNeedle n t u) : OnlyNeedle n s u :=
  ⟨fun m hm => (k.ndl m hm).trans (h.ndl m hm), fun m hm => (k.state m hm).trans (h.state m hm), fun m hm => (k.str m hm).trans (h.str m hm)⟩

theorem Beside.only {n : Nat} {s t : State} (h : Beside n s t) : OnlyNeedle n s t := ⟨h.ndl, fun m _ => h.state m, fun m _ => h.str m⟩

theorem Beside.refl (n : Nat) (s : State) : Beside n s s := ⟨fun _ _ => rfl, rfl, fun _ => rfl, fun _ => rfl⟩

theorem Beside.trans {n : Nat} {s t u : State} (h : Beside n s t) (k : Beside n t u) : Beside n s u :=
  ⟨fun m hm => (k.ndl m hm).trans (h.ndl m hm), k.standing.trans h.standing, fun m => (k.state m).trans (h.state m), fun m => (k.str m).trans (h.str m)⟩

theorem Beside.standing_all {n : Nat} {s t : State} (h : Beside n s t) (m : Nat) : (t.ndl m).standing = (s.ndl m).standing := by
  by_cases hm : m = n
  · rw [hm]; exact h.standing
  · rw [h.ndl m hm]

theorem Kept.beside {m : Nat} {s t : State} (h : Kept m s t) (n : Nat) (hm : m &&& needleParts = 0) : Beside n s t :=
  have bit {i : Nat} (hi : needleParts.testBit i = true) := testBit_off_of_land hm hi
  ⟨fun k _ => h.ndl_eq (bit (by decide +kernel)) k, by rw [h.ndl_eq (bit (by decide +kernel))],
    fun k => h.rd k (by decide) (bit (by decide +kernel)), fun k => h.rd k (by decide) (bit (by decide +kernel))⟩

/-- After an operation whose parts are none of the needles' own. -/
theorem Beside.kept {k n : Nat} {s t u : State} (h : Kept k t u) (hk : k &&& needleParts = 0) (b : Beside n s t) : Beside n s u := b.trans (h.beside n hk)

/-- After an update of the needle's runtime state that leaves its run where it stood. -/
theorem Beside.setNdl {n : Nat} {s t : State} {x : NdlRt} (b : Beside n s t) (h : x.standing = (t.ndl n).standing) : Beside n s (t.setNdl n x) :=
  ⟨fun m hm => (t.setNdl_ne n x m hm).trans (b.ndl m hm), by rw [t.setNdl_self]; exact h.trans b.standing, b.state, b.str⟩

theorem Beside.foldl {α : Type} {n : Nat} {f : State → α → State} (hf : ∀ u a, Beside n u (f u a)) (l : List α) (s : State) : Beside n s (l.foldl f s) := by
  induction l generalizing s with
  | nil => exact .refl n s
  | cons a l ih => exact (hf s a).trans (ih (f s a))

theorem OnlyNeedle.setNdl (n : Nat) (s : State) (x : NdlRt) : OnlyNeedle n s (s.setNdl n x) :=
  ⟨fun m hm => s.setNdl_ne n x m hm, fun _ _ => rfl, fun _ _ => rfl⟩

theorem OnlyNeedle.wr_state (n : Nat) (s : State) (v : Nat) : OnlyNeedle n s (s.wr Obj.ndlState n v) :=
  ⟨fun _ _ => rfl, fun _ hm => s.rd_wr_ne v (by decide) (by decide) (fun h => hm h.2), fun _ _ => s.rd_wr_obj v (by decide) (by decide) (by decide)⟩

theorem OnlyNeedle.wr_str (n : Nat) (s : State) (v : Nat) : OnlyNeedle n s (s.wr Obj.strState n v) :=
  ⟨fun _ _ => rfl, fun _ _ => s.rd_wr_obj v (by decide) (by decide) (by decide), fun _ hm => s.rd_wr_ne v (by decide) (by decide) (fun h => hm h.2)⟩

@[simp] theorem State.wr_ndl (s : State) (o e v n : Nat) : (s.wr o e v).ndl n = s.ndl n := rfl

/-! Trace, microroutine, streams, ring, age. -/

theorem State.ndlTraceWrite_beside (s : State) (n r : Nat) : Beside n s (s.ndlTraceWrite n r) := by
  unfold State.ndlTraceWrite
  split
  · exact .kept (State.count_kept ..) (by decide +kernel) (.setNdl (.refl n s) rfl)
  · exact .kept (State.count_kept ..) (by decide +kernel) (.refl n s)

theorem State.ndlTraceTime_beside (s : State) (n : Nat) : Beside n s (s.ndlTraceTime n) := by
  unfold State.ndlTraceTime
  split
  · exact .refl n s
  · exact .setNdl (State.ndlTraceWrite_beside ..) rfl

theorem State.ndlTraceAt_beside (s : State) (n kind uaddr op course : Nat) : Beside n s (s.ndlTraceAt n kind uaddr op course) := by
  unfold State.ndlTraceAt
  extract_lets c u
  split
  · split
    · exact (State.ndlTraceWrite_beside ..).trans (State.ndlTraceTime_beside ..)
    · exact State.ndlTraceWrite_beside ..
  · exact .refl n s

theorem State.ndlTrace_beside (s : State) (n kind op course : Nat) : Beside n s (s.ndlTrace n kind op course) :=
  ((State.draw_kept s).beside n (by decide +kernel)).trans (State.ndlTraceAt_beside ..)

theorem State.routine_beside (s : State) (n cycles : Nat) : Beside n s (s.routine n cycles).2 := by
  unfold State.routine
  extract_lets entry
  obtain ⟨op, course⟩ := s.blockOf n
  dsimp -zeta only
  extract_lets u s1 s2
  have h1 : Beside n s s1 := .setNdl ((State.draw_kept s).beside n (by decide +kernel)) rfl
  have h2 : Beside n s1 s2 := by
    simp only [s2]
    split
    · exact .refl n s1
    · exact .foldl (fun v a => State.ndlTraceAt_beside ..) ..
  exact (h1.trans h2).trans ((State.checkedMany_kept ..).beside n (by decide +kernel))

theorem State.rasStop_beside (s : State) (n i : Nat) : Beside n s (s.rasStop n i) := by
  unfold State.rasStop
  extract_lets x _ u _ v
  have hv : Beside n s v := .setNdl (.kept (State.wr_kept u Obj.rasState i 0) (by decide +kernel) ((State.setStream_kept ..).beside n (by decide +kernel))) rfl
  split
  · exact .kept (State.applyCommit_kept ..) (by decide +kernel) hv
  · exact hv

theorem State.rasStopNeedle_beside (s : State) (n : Nat) : Beside n s (s.rasStopNeedle n) := .foldl (fun u i => u.rasStop_beside n i) ..

theorem State.rasFreeze_beside (s : State) (n : Nat) (frozen : Bool) : Beside n s (s.rasFreeze n frozen) :=
  (State.rasFreeze_kept ..).beside n (by decide +kernel)

theorem State.discardSkein_beside (s : State) (n : Nat) : Beside n s (s.discardSkein n) := by
  unfold State.discardSkein
  split
  · exact .refl n s
  · split
    · exact .setNdl (.refl n s) rfl
    · extract_lets _ u
      have h : Beside n s u := .kept (State.strCount_kept ..) (by decide +kernel) (.setNdl (.refl n s) rfl)
      split
      · exact .kept (State.result_kept ..) (by decide +kernel) h
      · exact h

theorem State.flushRing_beside (s : State) (n : Nat) : Beside n s (s.flushRing n) := by
  unfold State.flushRing
  extract_lets _ u
  have h : Beside n s u := .setNdl ((State.wr_kept s Obj.strNextSeq n 0).beside n (by decide +kernel)) rfl
  exact h.trans (State.discardSkein_beside ..)

theorem State.ageFrom_beside (s : State) (n : Nat) (t : Option Nat) : Beside n s (s.ageFrom n t) :=
  .kept (State.setFld_kept _ Obj.calNeedleAge n F.calNeedleAgeAged 0) (by decide +kernel) (.setNdl (.refl n s) rfl)

theorem State.dropJump_beside (s : State) (n : Nat) : Beside n s (s.dropJump n) := by
  unfold State.dropJump
  split
  · exact .refl n s
  · extract_lets _ u
    have hu : Beside n s u := .setNdl (.refl n s) rfl
    exact .kept (State.latch_kept ..) (by decide +kernel) <| .kept (State.setFld_kept ..) (by decide +kernel) <|
      .kept (State.setFld_kept ..) (by decide +kernel) <| .kept (State.setStatus_kept ..) (by decide +kernel) hu

theorem State.frogResults_beside (s : State) (n cause : Nat) : Beside n s (s.frogResults n cause) := by
  unfold State.frogResults
  extract_lets act old now _ u
  have hu : Beside n s u := .setNdl (.refl n s) rfl
  refine hu.trans (.foldl (fun v i => ?_) ..)
  have h (f : Fld) (x : Nat) : Beside n v (v.setResult i f x) := (State.setResult_kept ..).beside n (by decide +kernel)
  split
  · split
    · split
      · exact h ..
      · exact .refl n v
    · exact h ..
  · exact h ..

end Sys2Proof.Machine
end

section
namespace Sys2Proof.Machine
-- one declaration at a time, as in the laws: each `decide +kernel` waits for the declarations before it
set_option Elab.async false

/-! ### The end of a needle (R203, R235) -/

/-- Where the run of a needle stands once it has ended: no blocks, no seam, no stitch bound off, no freeze. -/
def NdlRt.ended (r : NdlRt) : NdlRt := { r with queue := [], seam := none, bound := none, freeze := none }

theorem State.stopNeedle_only (s : State) (n : Nat) : OnlyNeedle n s (s.stopNeedle n) := by
  unfold State.stopNeedle
  extract_lets s1 _ s2 s3 s4 s5 s6
  have h5 : OnlyNeedle n s s5 := (State.rasStopNeedle_beside s n).only.trans <| (OnlyNeedle.setNdl n s1 _).trans
    (Beside.only <| .kept (State.setStatus_kept ..) (by decide +kernel) <| .kept (State.setStatus_kept ..) (by decide +kernel) <|
      (State.setStatus_kept s2 ..).beside n (by decide +kernel))
  have h6 : OnlyNeedle n s5 s6 := by
    simp only [s6]
    split
    · exact .refl n s5
    · exact (OnlyNeedle.wr_str n s5 1).trans (State.flushRing_beside ..).only
  exact h5.trans (h6.trans (State.ageFrom_beside ..).only)

theorem State.stopNeedle_standing (s : State) (n : Nat) : ((s.stopNeedle n).ndl n).standing = (s.ndl n).standing.ended := by
  unfold State.stopNeedle
  extract_lets s1 _ s2 s3 s4 s5 s6
  have h2 : (s2.ndl n).standing = (s.ndl n).standing.ended := by
    rw [State.setNdl_self, ← (State.rasStopNeedle_beside s n).standing]; rfl
  have h5 : Beside n s2 s5 := .kept (State.setStatus_kept ..) (by decide +kernel) <| .kept (State.setStatus_kept ..) (by decide +kernel) <|
    (State.setStatus_kept s2 ..).beside n (by decide +kernel)
  have h6 : (s6.ndl n).standing = (s5.ndl n).standing := by
    simp only [s6]
    split
    · rfl
    · exact (State.flushRing_beside ..).standing
  rw [(State.ageFrom_beside s6 n none).standing, h6, h5.standing, h2]

/-! ### The engine after an end (R110, R111, R639) -/

theorem State.anyBusy_of_running {s : State} (h : s.anyRunning = true) : s.anyBusy = true := by
  simp only [State.anyRunning, State.anyBusy, List.any_eq_true] at h ⊢
  obtain ⟨m, hm, hr⟩ := h
  refine ⟨m, hm, ?_⟩
  simp only [State.running, State.busyNeedle, List.contains_iff_mem, List.mem_cons] at hr ⊢
  tauto

/-- R111: a HOLD does not complete while a needle is running. -/
theorem State.holdCheck_of_waits {s : State} (h : ∀ x, s.trans = some x → x.target = 7 → s.anyRunning = true) : s.holdCheck = s := by
  unfold State.holdCheck
  split
  · rename_i x hx
    rw [if_neg]
    rintro ⟨ht, hr, _⟩
    rw [h x hx ht] at hr
    cases hr
  · rfl

/-- R110: while a needle is running the end of another changes nothing of the engine. -/
theorem State.needlesEnded_of_running {s : State} (t : Nat) (h : s.anyRunning = true) : s.needlesEnded t = s := by
  unfold State.needlesEnded
  rw [if_neg, State.holdCheck_of_waits (fun _ _ _ => h)]
  rintro ⟨_, hb, _⟩
  rw [State.anyBusy_of_running h] at hb
  cases hb

/-- R224, R111: the engine in HOLD, before a pending timed start is dropped. -/
def State.toHold (s : State) (prev reason : Nat) : State := ((({ s with trans := none }).enter .hold prev reason).taeHold s.now).calPause

theorem State.arriveHold_eq (s : State) (prev reason : Nat) : s.arriveHold prev reason = (s.toHold prev reason).timedCheck := rfl

theorem State.toHold_kept (s : State) (prev reason : Nat) : Kept (pt.trans ||| km_enter ||| km_taeHold ||| km_calPause) s (s.toHold prev reason) :=
  (State.calPause_kept _).step (by decide +kernel) <| (State.taeHold_kept ..).step (by decide +kernel) <|
    (State.enter_kept ..).step (by decide +kernel) <| .set_trans (by decide +kernel) (.refl ..)

/-- The transition back to ARMED that waits for the pins of the last needle (R110, R116). -/
def State.backToArmed (s : State) (t : Nat) : State := ({ s with trans := some ⟨s.mode.code, Mode.armed.code, 4, some t⟩ }).timedCheck

theorem State.backToArmed_kept (s : State) (t : Nat) : Kept (pt.trans ||| km_timedCheck) s (s.backToArmed t) :=
  (State.timedCheck_kept _).step (by decide +kernel) (.set_trans (by decide +kernel) (.refl ..))

theorem State.backToArmed_trans (s : State) (t : Nat) : (s.backToArmed t).trans = some ⟨s.mode.code, 5, 4, some t⟩ :=
  (State.timedCheck_kept { s with trans := some ⟨s.mode.code, Mode.armed.code, 4, some t⟩ }).trans_eq (by decide +kernel)

/-- Before the pins have parked and with no HOLD that could complete, the end of a needle at most starts the way back to ARMED. -/
theorem State.needlesEnded_waiting {s : State} {t : Nat} (ht : s.now < t) (h : ∀ x, s.trans = some x → x.target = 7 → s.anyRunning = true) :
    s.needlesEnded t = s ∨ s.needlesEnded t = s.backToArmed t := by
  unfold State.needlesEnded
  split
  · rw [if_neg (by omega)]; exact .inr rfl
  · exact .inl (State.holdCheck_of_waits h)

theorem State.needlesEnded_standing (s : State) (t m : Nat) : ((s.needlesEnded t).ndl m).standing = (s.ndl m).standing := by
  have hold : ((s.holdCheck).ndl m).standing = (s.ndl m).standing := by rw [(State.holdCheck_kept s).ndl_eq (by decide +kernel)]
  have armed : ((s.arriveArmed s.mode.code 4).ndl m).standing = (s.ndl m).standing := by
    have ras (u : State) (l : List Nat) : ((l.foldl State.rasStopNeedle u).ndl m).standing = (u.ndl m).standing := by
      induction l generalizing u with
      | nil => rfl
      | cons k l ih => exact (ih _).trans ((State.rasStopNeedle_beside u k).standing_all m)
    unfold State.arriveArmed
    rw [(State.calPause_kept _).ndl_eq (by decide +kernel), (State.taeResume_kept ..).ndl_eq (by decide +kernel), State.rasStopAll, ras,
      (State.enter_kept ..).ndl_eq (by decide +kernel)]
    rfl
  unfold State.needlesEnded
  split
  · split
    · exact armed
    · exact congrArg NdlRt.standing ((State.backToArmed_kept s t).ndl_eq (by decide +kernel) m)
  · exact hold

/-- A pending source stays pending when a needle has ended. -/
theorem State.needlesEnded_pending (s : State) (t src : Nat) (h : s.srcPending src = true) : (s.needlesEnded t).srcPending src = true := by
  have timed (u : State) (hu : u.srcPending src = true) : u.timedCheck.srcPending src = true := by
    unfold State.timedCheck
    extract_lets ns other
    split
    · exact State.dropTimedStart_pending u src hu
    · exact hu
  have hold : s.holdCheck.srcPending src = true := by
    unfold State.holdCheck
    split
    · split
      · rw [State.arriveHold_eq]
        exact timed _ (((State.toHold_kept ..).pending_src (by decide +kernel) src).trans h)
      · exact h
    · exact h
  unfold State.needlesEnded
  split
  · split
    · exact ((State.arriveArmed_kept ..).pending_src (by decide +kernel) src).trans h
    · exact timed _ h
  · exact hold

end Sys2Proof.Machine
end

section
namespace Sys2Proof.Machine
-- one declaration at a time, as in the laws: each `decide +kernel` waits for the declarations before it
set_option Elab.async false

/-! ### A frog of a busy needle, part by part (R234 to R239) -/

/-- The BIND_OFF stitch was issued before an edge (R236). -/
def NdlRt.boundBefore (r : NdlRt) (c : Nat) : Bool := match r.bound with | some (_, i) => decide (i < c) | none => false

/-- The frogs whose commit edge has come are on their way no longer. -/
def State.passFrogs (s : State) (n c : Nat) : State := s.setNdl n { s.ndl n with frogs := (s.ndl n).frogs.filter (fun f => decide (c < f.1)) }

/-- The frog's microroutine: where a word had a parity mismatch, and the state after it. -/
def State.frogRoutine (s : State) (n : Nat) : Option Nat × State :=
  let s := s.dropJump n
  (s.ndlTrace n 7 (s.blockOf n).1 (s.blockOf n).2).routine n 6

/-- A parity mismatch of the frog's microroutine is a fault (R245). -/
def State.frogParity (p : Option Nat × State) (n : Nat) : State := match p.1 with | some a => p.2.raise Ev.ucodeParity n n 4 a (some (2 ^ n)) true | none => p.2

/-- The needle stops with a cause; its pins park 6 VCLK after c, its results are final 14 VCLK after c. -/
def State.frogStop (s : State) (n c cause : Nat) : State :=
  let s := (s.stopNeedle n).setStatus n F.ndlStatusFrogCause cause
  s.setNdl n { s.ndl n with park := some (c + 6 * vclkFs), parked := some (c + 6 * vclkFs), final := some (c + 14 * vclkFs), frogs := [] }

/-- The needle's last state, its counts and its event. -/
def State.frogMark (s : State) (n cause : Nat) (late : Bool) : State :=
  if late then ((((s.wr Obj.ndlState n 8).setStatus n F.ndlStatusFrogLate 1).ndlCount n 1).ndlCount n 3).latch Ev.ndlDone
  else (((s.wr Obj.ndlState n 9).frogResults n cause).ndlCount n 2).latch Ev.ndlFrogged

/-- The cause with which a frog ends: FAULT where its microroutine had a parity mismatch. -/
def frogCause (bad : Option Nat) (cause : Nat) : Nat := if bad.isSome then 1 else cause

/-- What a frog does to its needle, before the engine looks whether a needle is left. -/
def State.frogBody (s : State) (n c cause : Nat) : State :=
  let p := (s.passFrogs n c).frogRoutine n
  ((State.frogParity p n).frogStop n c (frogCause p.1 cause)).frogMark n (frogCause p.1 cause) ((s.ndl n).boundBefore c)

theorem State.frogAt_busy {s : State} {n : Nat} (c cause : Nat) (h : s.busyNeedle n = true) :
    s.frogAt n c cause = (s.frogBody n c cause).needlesEnded (c + 6 * vclkFs) := by
  have e : (s.passFrogs n c).ndl n = { s.ndl n with frogs := (s.ndl n).frogs.filter (fun f => decide (c < f.1)) } := State.setNdl_self ..
  have hb : (s.ndl n).boundBefore c = ((s.passFrogs n c).ndl n).boundBefore c := by rw [e]; rfl
  have hn : ¬ (!(s.passFrogs n c).busyNeedle n) = true := by
    rw [show (s.passFrogs n c).busyNeedle n = true from h]; decide
  unfold State.frogBody
  rw [hb]
  exact if_neg hn

/-! What each part keeps. -/

/-- The parts that a frog of a needle may change, the engine's apart. -/
def frogParts : Nat := ob Obj.ndlState ||| km_setNdl ||| km_setStatus ||| km_frogResults ||| km_dropJump ||| km_ndlTrace ||| km_routine ||| km_raise |||
  km_stopNeedle ||| km_ndlCount ||| km_latch

theorem State.frogRoutine_kept (s : State) (n : Nat) : Kept (km_dropJump ||| km_ndlTrace ||| km_routine) s (s.frogRoutine n).2 :=
  (State.routine_kept ..).step (by decide +kernel) <| (State.ndlTrace_kept ..).step (by decide +kernel) <|
    (State.dropJump_kept ..).step (by decide +kernel) (.refl ..)

theorem State.frogParity_kept (p : Option Nat × State) (n : Nat) : Kept km_raise p.2 (State.frogParity p n) := by
  unfold State.frogParity
  split
  · exact State.raise_kept ..
  · exact .refl ..

theorem State.frogStop_kept (s : State) (n c cause : Nat) : Kept (km_stopNeedle ||| km_setStatus ||| km_setNdl) s (s.frogStop n c cause) :=
  (State.setNdl_kept ..).step (by decide +kernel) <| (State.setStatus_kept ..).step (by decide +kernel) <|
    (State.stopNeedle_kept ..).step (by decide +kernel) (.refl ..)

theorem State.frogMark_kept (s : State) (n cause : Nat) (late : Bool) :
    Kept (ob Obj.ndlState ||| km_setStatus ||| km_ndlCount ||| km_frogResults ||| km_latch) s (s.frogMark n cause late) := by
  unfold State.frogMark
  split
  · exact (State.latch_kept ..).step (by decide +kernel) <| (State.ndlCount_kept ..).step (by decide +kernel) <|
      (State.ndlCount_kept ..).step (by decide +kernel) <| (State.setStatus_kept ..).step (by decide +kernel) <|
      (State.wr_kept s Obj.ndlState n 8).step (by decide +kernel) (.refl ..)
  · exact (State.latch_kept ..).step (by decide +kernel) <| (State.ndlCount_kept ..).step (by decide +kernel) <|
      (State.frogResults_kept ..).step (by decide +kernel) <| (State.wr_kept s Obj.ndlState n 9).step (by decide +kernel) (.refl ..)

theorem State.frogBody_kept (s : State) (n c cause : Nat) : Kept frogParts s (s.frogBody n c cause) :=
  (State.frogMark_kept ..).step (by decide +kernel) <| (State.frogStop_kept ..).step (by decide +kernel) <|
    (State.frogParity_kept ..).step (by decide +kernel) <| (State.frogRoutine_kept ..).step (by decide +kernel) <|
    (State.setNdl_kept ..).step (by decide +kernel) (.refl ..)

theorem State.frogRoutine_beside (s : State) (n : Nat) : Beside n s (s.frogRoutine n).2 :=
  ((State.dropJump_beside ..).trans (State.ndlTrace_beside ..)).trans (State.routine_beside ..)

theorem State.frogParity_beside (p : Option Nat × State) (n : Nat) : Beside n p.2 (State.frogParity p n) :=
  (State.frogParity_kept p n).beside n (by decide +kernel)

/-- A frog has nothing to do with the other needles. -/
theorem State.frogBody_only (s : State) (n c cause : Nat) : OnlyNeedle n s (s.frogBody n c cause) := by
  have mark (u : State) (k : Nat) (late : Bool) : OnlyNeedle n u (u.frogMark n k late) := by
    unfold State.frogMark
    split
    · exact (OnlyNeedle.wr_state n u 8).trans <| Beside.only <| .kept (State.latch_kept ..) (by decide +kernel) <|
        .kept (State.ndlCount_kept ..) (by decide +kernel) <| .kept (State.ndlCount_kept ..) (by decide +kernel) <|
        .kept (State.setStatus_kept ..) (by decide +kernel) (.refl ..)
    · exact (OnlyNeedle.wr_state n u 9).trans <| Beside.only <| .kept (State.latch_kept ..) (by decide +kernel) <|
        .kept (State.ndlCount_kept ..) (by decide +kernel) (State.frogResults_beside ..)
  have stop (u : State) (k : Nat) : OnlyNeedle n u (u.frogStop n c k) :=
    (u.stopNeedle_only n).trans <| (Beside.only <| (State.setStatus_kept ..).beside n (by decide +kernel)).trans (OnlyNeedle.setNdl ..)
  exact (OnlyNeedle.setNdl n s _).trans <| (State.frogRoutine_beside ..).only.trans <| (State.frogParity_beside ..).only.trans <| (stop ..).trans (mark ..)

/-- Where the run of a needle stands after a frog with commit edge c. -/
def NdlRt.frogged (r : NdlRt) (c : Nat) : NdlRt :=
  { r.ended with park := some (c + 6 * vclkFs), parked := some (c + 6 * vclkFs), final := some (c + 14 * vclkFs), frogs := [] }

theorem State.frogStop_standing (s : State) (n c cause : Nat) : ((s.frogStop n c cause).ndl n).standing = (s.ndl n).standing.frogged c := by
  rw [State.frogStop, State.setNdl_self, NdlRt.frogged, ← s.stopNeedle_standing n,
    ← (Kept.beside ((s.stopNeedle n).setStatus_kept n F.ndlStatusFrogCause cause) n (by decide +kernel)).standing]
  rfl

theorem State.frogMark_standing (s : State) (n cause : Nat) (late : Bool) : ((s.frogMark n cause late).ndl n).standing = (s.ndl n).standing := by
  unfold State.frogMark
  split
  · rw [(State.latch_kept ..).ndl_eq (by decide +kernel), (State.ndlCount_kept ..).ndl_eq (by decide +kernel),
      (State.ndlCount_kept ..).ndl_eq (by decide +kernel), (State.setStatus_kept ..).ndl_eq (by decide +kernel), State.wr_ndl]
  · rw [(State.latch_kept ..).ndl_eq (by decide +kernel), (State.ndlCount_kept ..).ndl_eq (by decide +kernel), (State.frogResults_beside ..).standing, State.wr_ndl]

/-- R235, R316, R347: a frog leaves no blocks, and fixes when pins park and results are final. -/
theorem State.frogBody_standing (s : State) (n c cause : Nat) : ((s.frogBody n c cause).ndl n).standing = (s.ndl n).standing.frogged c := by
  have e : ((s.passFrogs n c).ndl n).standing.frogged c = (s.ndl n).standing.frogged c := by rw [State.passFrogs, State.setNdl_self]; rfl
  rw [State.frogBody, State.frogMark_standing, State.frogStop_standing, (State.frogParity_beside ..).standing, (State.frogRoutine_beside ..).standing, e]

theorem State.frogBody_activeGrows (s : State) (n c cause : Nat) : s.ActiveGrows (s.frogBody n c cause) := by
  have parity (p : Option Nat × State) : p.2.ActiveGrows (State.frogParity p n) := by
    unfold State.frogParity
    split
    · exact State.raise_activeGrows _ _ _ _ _ _ _ _
    · exact fun _ h => h
  have start : s.ActiveGrows ((s.passFrogs n c).frogRoutine n).2 := Kept.activeGrows (m := km_setNdl ||| km_dropJump ||| km_ndlTrace ||| km_routine)
    ((State.frogRoutine_kept ..).step (by decide +kernel) <| (State.setNdl_kept ..).step (by decide +kernel) (.refl ..)) (by decide +kernel)
  exact start.trans <| (parity _).trans <| ((State.frogStop_kept ..).activeGrows (by decide +kernel)).trans ((State.frogMark_kept ..).activeGrows (by decide +kernel))

end Sys2Proof.Machine
end

section
namespace Sys2Proof.Machine
-- one declaration at a time, as in the laws: each `decide +kernel` waits for the declarations before it
set_option Elab.async false

/-! What a frog leaves in NDL.STATE, NDL.STATUS, NDL.COUNTS and the results of the sites. -/

theorem State.wr_state_fld (s : State) (n v e : Nat) (f : Fld) {o : Nat} (ho : o < 65536) (h : o ≠ Obj.ndlState) :
    (s.wr Obj.ndlState n v).fld o e f = s.fld o e f := by
  rw [State.fld, State.rd_wr_obj _ _ (by decide) ho h, State.fld]

theorem Beside.active {n : Nat} {s t : State} (h : Beside n s t) : (t.ndl n).active = (s.ndl n).active := by
  rw [← NdlRt.standing_active, h.standing, NdlRt.standing_active]

theorem State.frogStop_active (s : State) (n c cause : Nat) : ((s.frogStop n c cause).ndl n).active = (s.ndl n).active := by
  rw [← NdlRt.standing_active, State.frogStop_standing]
  rfl

theorem State.frogStop_cause (s : State) (n c : Nat) {cause : Nat} (h : cause < 8) : (s.frogStop n c cause).status n F.ndlStatusFrogCause = cause := by
  rw [State.status, State.frogStop, State.fld, State.setNdl_rd]
  exact (State.fld_setFld_self (s.stopNeedle n) Obj.ndlStatus n F.ndlStatusFrogCause cause).trans (Nat.mod_eq_of_lt h)

theorem frogCause_lt {bad : Option Nat} {cause : Nat} (h : cause < 8) : frogCause bad cause < 8 := by
  unfold frogCause
  split
  · decide
  · exact h

theorem State.frogMark_state (s : State) (n cause : Nat) (late : Bool) : (s.frogMark n cause late).ndlState n = if late then 8 else 9 := by
  unfold State.frogMark State.ndlState
  split
  · rw [(State.latch_kept ..).rd n (by decide) (by decide +kernel), (State.ndlCount_kept ..).rd n (by decide) (by decide +kernel),
      (State.ndlCount_kept ..).rd n (by decide) (by decide +kernel), (State.setStatus_kept ..).rd n (by decide) (by decide +kernel), State.rd_wr_self]
  · rw [(State.latch_kept ..).rd n (by decide) (by decide +kernel), (State.ndlCount_kept ..).rd n (by decide) (by decide +kernel),
      (State.frogResults_kept ..).rd n (by decide) (by decide +kernel), State.rd_wr_self]

theorem State.frogMark_cause (s : State) (n cause : Nat) (late : Bool) :
    (s.frogMark n cause late).status n F.ndlStatusFrogCause = s.status n F.ndlStatusFrogCause := by
  unfold State.frogMark State.status
  split
  · rw [(State.latch_kept ..).fld_eq n _ (by decide) (by decide +kernel), (State.ndlCount_kept ..).fld_eq n _ (by decide) (by decide +kernel),
      (State.ndlCount_kept ..).fld_eq n _ (by decide) (by decide +kernel), State.setStatus, State.fld_setFld_apart _ _ _ _ _ _ (.inl (by decide)),
      State.wr_state_fld _ _ _ _ _ (by decide) (by decide)]
  · rw [(State.latch_kept ..).fld_eq n _ (by decide) (by decide +kernel), (State.ndlCount_kept ..).fld_eq n _ (by decide) (by decide +kernel),
      (State.frogResults_kept ..).fld_eq n _ (by decide) (by decide +kernel), State.wr_state_fld _ _ _ _ _ (by decide) (by decide)]

theorem State.frogMark_late (s : State) (n cause : Nat) : (s.frogMark n cause true).status n F.ndlStatusFrogLate = 1 := by
  unfold State.frogMark State.status
  rw [if_pos rfl, (State.latch_kept ..).fld_eq n _ (by decide) (by decide +kernel), (State.ndlCount_kept ..).fld_eq n _ (by decide) (by decide +kernel),
    (State.ndlCount_kept ..).fld_eq n _ (by decide) (by decide +kernel), State.setStatus, State.fld_setFld_self]
  rfl

/-- R11: a counter of NDL.COUNTS leaves another one alone. -/
theorem State.ndlCount_fld_ne (s : State) (n : Nat) {i j : Nat} (hi : i < 7) (hj : j < 7) (h : i ≠ j) :
    (s.ndlCount n i).fld Obj.ndlCounts n ⟨48 * j, 48⟩ = s.fld Obj.ndlCounts n ⟨48 * j, 48⟩ :=
  State.fld_count_apart _ _ _ _ _ _ _ (by simp only [Fld.Apart]; omega) (by simp only [Fld.Apart]; omega)

theorem State.frogMark_holds (s : State) (n cause : Nat) (late : Bool) :
    (s.frogMark n cause late).fld Obj.ndlCounts n F.ndlCountsHolds = s.fld Obj.ndlCounts n F.ndlCountsHolds := by
  have ne (u : State) {i : Nat} (hi : i < 6) : (u.ndlCount n i).fld Obj.ndlCounts n F.ndlCountsHolds = u.fld Obj.ndlCounts n F.ndlCountsHolds :=
    u.ndlCount_fld_ne n (j := 6) (by omega) (by decide) (by omega)
  unfold State.frogMark
  split
  · rw [(State.latch_kept ..).fld_eq n _ (by decide) (by decide +kernel), ne _ (by decide), ne _ (by decide),
      (State.setStatus_kept ..).fld_eq n _ (by decide) (by decide +kernel), State.wr_state_fld _ _ _ _ _ (by decide) (by decide)]
  · rw [(State.latch_kept ..).fld_eq n _ (by decide) (by decide +kernel), ne _ (by decide),
      (State.frogResults_kept ..).fld_eq n _ (by decide) (by decide +kernel), State.wr_state_fld _ _ _ _ _ (by decide) (by decide)]

/-- R346: a frog of a cause other than STOP_ON_FAIL makes the results of the active sites INVALID. -/
theorem State.frogResults_invalid (s : State) (n : Nat) {cause i : Nat} (hc : cause ≠ 4) (hi : i ∈ s.sitesOf n) (ha : bit (s.ndl n).active i = true) :
    (s.frogResults n cause).fld Obj.ptfSiteResult i F.ptfSiteResultResult = 3 := by
  unfold State.frogResults
  extract_lets act old now _ u
  have hu : u.sitesOf n = s.sitesOf n := rfl
  rw [hu]
  clear_value u
  have step (v : State) (j : Nat) (hv : j = i ∨ v.fld Obj.ptfSiteResult i F.ptfSiteResultResult = 3) :
      (if bit act j = true then v.setResult j F.ptfSiteResultResult 3 else v.setResult j F.ptfSiteResultNeedleFrogged 1).fld Obj.ptfSiteResult i
        F.ptfSiteResultResult = 3 := by
    unfold State.setResult
    by_cases hj : j = i
    · subst hj
      rw [if_pos ha, State.fld_setFld_self]
      rfl
    · have h3 := hv.resolve_left hj
      split <;> rw [State.fld_setFld_ne _ _ _ _ (by decide) (by decide) (fun h => hj h.2.symm), h3]
  have last (l : List Nat) (v : State) (hv : i ∈ l ∨ v.fld Obj.ptfSiteResult i F.ptfSiteResultResult = 3) :
      (l.foldl (fun v j => if bit act j = true then v.setResult j F.ptfSiteResultResult 3 else v.setResult j F.ptfSiteResultNeedleFrogged 1) v).fld
        Obj.ptfSiteResult i F.ptfSiteResultResult = 3 := by
    induction l generalizing v with
    | nil => simpa using hv
    | cons j l ih =>
      by_cases hl : i ∈ l
      · exact ih _ (.inl hl)
      · refine ih _ (.inr (step v j ?_))
        simpa [hl, eq_comm] using hv
  simp only [hc, if_false]
  exact last _ u (.inl hi)

theorem State.frogMark_invalid (s : State) (n : Nat) {cause i : Nat} (hc : cause ≠ 4) (hi : i ∈ s.sitesOf n) (ha : bit (s.ndl n).active i = true) :
    (s.frogMark n cause false).fld Obj.ptfSiteResult i F.ptfSiteResultResult = 3 := by
  have sites : (s.wr Obj.ndlState n 9).sitesOf n = s.sitesOf n := by
    rw [State.sitesOf, State.rd_wr_obj _ _ (by decide) (by decide) (by decide), State.sitesOf]
  unfold State.frogMark
  rw [if_neg (by decide), (State.latch_kept ..).fld_eq i _ (by decide) (by decide +kernel), (State.ndlCount_kept ..).fld_eq i _ (by decide) (by decide +kernel)]
  refine State.frogResults_invalid _ n hc ?_ ?_
  · rw [sites]; exact hi
  · rw [State.wr_ndl]; exact ha

theorem State.frogParity_active {p : Option Nat × State} (n : Nat) (h : p.1.isSome = true) : (State.frogParity p n).active Ev.ucodeParity = true := by
  obtain ⟨a, ha⟩ := Option.isSome_iff_exists.1 h
  unfold State.frogParity
  rw [ha]
  exact (State.raise_raised _ Ev.ucodeParity ..).2 1 (by decide +kernel) (by decide)

theorem State.frogBody_state (s : State) (n c cause : Nat) : (s.frogBody n c cause).ndlState n = if (s.ndl n).boundBefore c then 8 else 9 :=
  State.frogMark_state ..

theorem State.frogBody_late (s : State) {n c : Nat} (cause : Nat) (h : (s.ndl n).boundBefore c = true) :
    (s.frogBody n c cause).status n F.ndlStatusFrogLate = 1 := by
  rw [State.frogBody, h]
  exact State.frogMark_late ..

/-- R239, R245: the cause that stands. -/
theorem State.frogBody_cause (s : State) (n c : Nat) {cause : Nat} (hc : cause < 8) :
    (s.frogBody n c cause).status n F.ndlStatusFrogCause = cause ∨
    ((s.frogBody n c cause).status n F.ndlStatusFrogCause = 1 ∧ (s.frogBody n c cause).active Ev.ucodeParity = true) := by
  have st : (s.frogBody n c cause).status n F.ndlStatusFrogCause = frogCause ((s.passFrogs n c).frogRoutine n).1 cause := by
    rw [State.frogBody, State.frogMark_cause, State.frogStop_cause _ _ _ (frogCause_lt hc)]
  rw [st, frogCause]
  split
  · rename_i hp
    exact .inr ⟨rfl, ((State.frogStop_kept _ n c _).activeGrows (by decide +kernel)).trans ((State.frogMark_kept _ n _ _).activeGrows (by decide +kernel)) _
      (State.frogParity_active n hp)⟩
  · exact .inl rfl

theorem State.frogBody_holds (s : State) (n c cause : Nat) :
    (s.frogBody n c cause).fld Obj.ndlCounts n F.ndlCountsHolds = s.fld Obj.ndlCounts n F.ndlCountsHolds := by
  rw [State.frogBody, State.frogMark_holds, (State.frogStop_kept ..).fld_eq n _ (by decide) (by decide +kernel),
    (State.frogParity_kept ..).fld_eq n _ (by decide) (by decide +kernel), (State.frogRoutine_kept ..).fld_eq n _ (by decide) (by decide +kernel)]
  rfl

theorem State.frogBody_invalid (s : State) {n c cause i : Nat} (hl : (s.ndl n).boundBefore c = false) (hc : cause ≠ 4) (hi : i ∈ s.sitesOf n)
    (ha : bit (s.ndl n).active i = true) : (s.frogBody n c cause).fld Obj.ptfSiteResult i F.ptfSiteResultResult = 3 := by
  rw [State.frogBody, hl]
  refine State.frogMark_invalid _ n ?_ ?_ ?_
  · unfold frogCause
    split
    · decide
    · exact hc
  · rw [State.sitesOf, (State.frogStop_kept ..).rd n (by decide) (by decide +kernel), (State.frogParity_kept ..).rd n (by decide) (by decide +kernel),
      (State.frogRoutine_kept ..).rd n (by decide) (by decide +kernel)]
    exact hi
  · rw [State.frogStop_active, (State.frogParity_beside ..).active, (State.frogRoutine_beside ..).active, State.passFrogs, State.setNdl_self]
    exact ha

end Sys2Proof.Machine
end

section
namespace Sys2Proof.Machine
-- one declaration at a time, as in the laws: each `decide +kernel` waits for the declarations before it
set_option Elab.async false

/-! ### A frog as the engine sees it -/

/-- A needle other than n is running. -/
def State.OtherRuns (s : State) (n : Nat) : Prop := ∃ m < 16, m ≠ n ∧ s.running m = true

/-- A HOLD in progress, if any, waits for a needle other than n. -/
def State.HoldWaits (s : State) (n : Nat) : Prop := ∀ x, s.trans = some x → x.target = 7 → s.OtherRuns n

theorem OnlyNeedle.running {n m : Nat} {s t : State} (h : OnlyNeedle n s t) (hm : m ≠ n) : t.running m = s.running m := by
  rw [State.running, h.state m hm, State.running]

theorem OnlyNeedle.otherRuns {n : Nat} {s t : State} (h : OnlyNeedle n s t) (k : s.OtherRuns n) : t.OtherRuns n := by
  obtain ⟨m, hm, hn, hr⟩ := k
  exact ⟨m, hm, hn, (h.running hn).trans hr⟩

theorem State.OtherRuns.anyRunning {s : State} {n : Nat} (h : s.OtherRuns n) : s.anyRunning = true := by
  obtain ⟨m, hm, _, hr⟩ := h
  exact List.any_eq_true.2 ⟨m, List.mem_range.2 hm, hr⟩

theorem State.frogBody_trans (s : State) (n c cause : Nat) : (s.frogBody n c cause).trans = s.trans := (State.frogBody_kept ..).trans_eq (by decide +kernel)

/-- A frog while another needle runs concerns its needle alone. -/
theorem State.frogAt_of_otherRuns {s : State} {n : Nat} (c cause : Nat) (hb : s.busyNeedle n = true) (h : s.OtherRuns n) :
    s.frogAt n c cause = s.frogBody n c cause := by
  rw [State.frogAt_busy c cause hb, State.needlesEnded_of_running _ ((State.frogBody_only ..).otherRuns h).anyRunning]

/-- A frog whose pins have not parked, with no HOLD that could complete, at most starts the way back to ARMED. -/
theorem State.frogAt_waiting {s : State} {n c : Nat} (cause : Nat) (hb : s.busyNeedle n = true) (hc : s.now < c + 6 * vclkFs) (hh : s.HoldWaits n) :
    s.frogAt n c cause = s.frogBody n c cause ∨ s.frogAt n c cause = (s.frogBody n c cause).backToArmed (c + 6 * vclkFs) := by
  rw [State.frogAt_busy c cause hb]
  refine State.needlesEnded_waiting ?_ (fun x hx ht => ?_)
  · rw [(State.frogBody_kept ..).now_eq (by decide +kernel)]; exact hc
  · rw [State.frogBody_trans] at hx
    exact ((State.frogBody_only ..).otherRuns (hh x hx ht)).anyRunning

/-! ### Microroutines of a needle (R244, R245) -/

/-- The parts that a frog may change before its pins have parked. -/
def frogEngineParts : Nat := frogParts ||| pt.trans ||| km_timedCheck

/-- A parity mismatch of its microroutine has frogged needle n. -/
structure ParityFrog (n : Nat) (s t : State) : Prop where
  kept : Kept frogEngineParts s t
  only : OnlyNeedle n s t
  active : t.active Ev.ucodeParity = true
  grows : s.ActiveGrows t
  state : t.ndlState n = 8 ∨ t.ndlState n = 9
  fresh : (t.ndl n).fresh = (s.ndl n).fresh
  t0 : (t.ndl n).t0 = (s.ndl n).t0
  freeze : (t.ndl n).freeze = none
  holds : t.fld Obj.ndlCounts n F.ndlCountsHolds = s.fld Obj.ndlCounts n F.ndlCountsHolds
  trans : t.trans = s.trans ∨ ∃ x, t.trans = some x ∧ x.target = 5
  otherRuns : s.OtherRuns n → t.trans = s.trans

/-- A parity mismatch of a microroutine has ended needle n. -/
def ParityEnd (n : Nat) (t : State) : Prop := t.active Ev.ucodeParity = true ∧ (t.ndlState n = 8 ∨ t.ndlState n = 9)

theorem ParityEnd.mono {n : Nat} {t u : State} (h : ParityEnd n t) (g : t.ActiveGrows u) (e : u.ndlState n = t.ndlState n) : ParityEnd n u :=
  ⟨g _ h.1, by rw [e]; exact h.2⟩

theorem ParityFrog.ended {n : Nat} {s t : State} (h : ParityFrog n s t) : ParityEnd n t := ⟨h.active, h.state⟩

/-- What the body of a frog with cause FAULT after a parity fault makes of the state before the fault. -/
theorem ParityFrog.of_body {n : Nat} {s u : State} (c cause : Nat) (hk : Kept km_raise s u) (hg : s.ActiveGrows u) (ha : u.active Ev.ucodeParity = true) :
    ParityFrog n s (u.frogBody n c cause) := by
  have hu : Beside n s u := hk.beside n (by decide +kernel)
  have st : ((u.frogBody n c cause).ndl n).standing = (s.ndl n).standing.frogged c := by rw [State.frogBody_standing, hu.standing]
  refine ⟨(State.frogBody_kept ..).step (by decide +kernel) (hk.mono (by decide +kernel)), hu.only.trans (State.frogBody_only ..),
    State.frogBody_activeGrows u n c cause _ ha, hg.trans (u.frogBody_activeGrows n c cause), ?_, ?_, ?_, ?_, ?_, .inl ?_, fun _ => ?_⟩
  · rw [State.frogBody_state]
    split
    · exact .inl rfl
    · exact .inr rfl
  · rw [← NdlRt.standing_fresh, st]; rfl
  · rw [← NdlRt.standing_t0, st]; rfl
  · rw [← NdlRt.standing_freeze, st]; rfl
  · rw [State.frogBody_holds, hk.fld_eq n _ (by decide) (by decide +kernel)]
  · rw [State.frogBody_trans, hk.trans_eq (by decide +kernel)]
  · rw [State.frogBody_trans, hk.trans_eq (by decide +kernel)]

/-- The way back to ARMED adds a transition to what a parity frog has done. -/
theorem ParityFrog.backToArmed {n : Nat} {s u : State} (h : ParityFrog n s u) (t : Nat) (ho : ¬ s.OtherRuns n) : ParityFrog n s (u.backToArmed t) := by
  have k : Kept (pt.trans ||| km_timedCheck) u (u.backToArmed t) := State.backToArmed_kept ..
  have b : Beside n u (u.backToArmed t) := k.beside n (by decide +kernel)
  have e : (u.backToArmed t).ndl n = u.ndl n := k.ndl_eq (by decide +kernel) n
  have g : u.ActiveGrows (u.backToArmed t) := k.activeGrows (by decide +kernel)
  exact ⟨k.step (by decide +kernel) h.kept, h.only.trans b.only, g _ h.active, h.grows.trans g, by rw [b.state]; exact h.state,
    by rw [e, h.fresh], by rw [e, h.t0], by rw [e, h.freeze], by rw [k.fld_eq n _ (by decide) (by decide +kernel), h.holds],
    .inr ⟨_, State.backToArmed_trans .., rfl⟩, fun hs => absurd hs ho⟩

/-- R245: a parity fault on the edge on which it is found frogs a busy needle. -/
theorem State.frogFault_parity {s : State} {n : Nat} (access addr : Nat) (hb : s.busyNeedle n = true) (hh : s.HoldWaits n) :
    ParityFrog n s (s.frogFault n Ev.ucodeParity access addr) := by
  let u := s.raise Ev.ucodeParity n n access addr (some (2 ^ n)) true
  have hk : Kept km_raise s u := State.raise_kept ..
  have hu : Beside n s u := hk.beside n (by decide +kernel)
  have body : ParityFrog n s (u.frogBody n s.now 1) :=
    .of_body _ _ hk (State.raise_activeGrows _ _ _ _ _ _ _ _) ((State.raise_raised s Ev.ucodeParity ..).2 1 (by decide +kernel) (by decide))
  have hbu : u.busyNeedle n = true := by rw [State.busyNeedle, hu.state]; exact hb
  change ParityFrog n s (u.frogAt n s.now 1)
  by_cases ho : s.OtherRuns n
  · rw [State.frogAt_of_otherRuns _ _ hbu (hu.only.otherRuns ho)]
    exact body
  · have hn : u.now < s.now + 6 * vclkFs := by
      rw [hk.now_eq (by decide +kernel)]
      exact Nat.lt_add_of_pos_right (by decide)
    have hhu : u.HoldWaits n := fun x hx ht => hu.only.otherRuns (hh x (by rw [← hk.trans_eq (by decide +kernel)]; exact hx) ht)
    rcases State.frogAt_waiting 1 hbu hn hhu with e | e <;> rw [e]
    · exact body
    · exact body.backToArmed _ ho

/-- A microroutine of a busy needle ends, or a parity mismatch frogs the needle. -/
theorem State.runRoutine_cases {s : State} {n : Nat} (cycles : Nat) (hb : s.busyNeedle n = true) (hh : s.HoldWaits n) :
    (Beside n s (s.runRoutine n cycles) ∧ Kept km_routine s (s.runRoutine n cycles)) ∨ ParityFrog n s (s.runRoutine n cycles) := by
  have hr : Beside n s (s.routine n cycles).2 := State.routine_beside ..
  have hk : Kept km_routine s (s.routine n cycles).2 := State.routine_kept ..
  unfold State.runRoutine
  revert hr hk
  obtain ⟨bad, u⟩ := s.routine n cycles
  intro hr hk
  cases bad with
  | none => exact .inl ⟨hr, hk⟩
  | some a =>
    have hbu : u.busyNeedle n = true := by rw [State.busyNeedle, hr.state]; exact hb
    have tr : u.trans = s.trans := hk.trans_eq (by decide +kernel)
    have f : ParityFrog n u (u.frogFault n Ev.ucodeParity 4 a) :=
      State.frogFault_parity 4 a hbu (fun x hx ht => hr.only.otherRuns (hh x (tr ▸ hx) ht))
    refine .inr ⟨f.kept.step (by decide +kernel) (hk.mono (by decide +kernel)), hr.only.trans f.only, f.active, (hk.activeGrows (by decide +kernel)).trans f.grows, f.state, ?_, ?_, f.freeze, ?_, ?_, ?_⟩
    · rw [f.fresh, ← NdlRt.standing_fresh, hr.standing, NdlRt.standing_fresh]
    · rw [f.t0, ← NdlRt.standing_t0, hr.standing, NdlRt.standing_t0]
    · rw [f.holds, hk.fld_eq n _ (by decide) (by decide +kernel)]
    · rw [← tr]; exact f.trans
    · rw [← tr]; exact fun ho => f.otherRuns (hr.only.otherRuns ho)

end Sys2Proof.Machine
end

section
namespace Sys2Proof.Machine
-- one declaration at a time, as in the laws: each `decide +kernel` waits for the declarations before it
set_option Elab.async false

/-! ### Freezing (R111, R203, R221) -/

/-- R96: what a mode other than ARMED records when it is entered. -/
theorem State.enter_reads (s : State) {m : Mode} (prev reason : Nat) (hm : m ≠ .armed) :
    (s.enter m prev reason).rd Obj.devMode 0 = m.code ∧ (s.enter m prev reason).rd Obj.devPrevMode 0 = prev ∧
    (s.enter m prev reason).rd Obj.devModeReason 0 = reason := by
  unfold State.enter
  rw [if_neg hm]
  refine ⟨?_, ?_, State.rd_wr_self ..⟩
  · rw [State.rd_wr_obj _ _ (by decide) (by decide) (by decide), State.rd_wr_obj _ _ (by decide) (by decide) (by decide),
      State.rd_wr_obj _ _ (by decide) (by decide) (by decide), State.rd_wr_self]
  · rw [State.rd_wr_obj _ _ (by decide) (by decide) (by decide), State.rd_wr_self]

theorem Mode.ofCode_code (m : Mode) : Mode.ofCode m.code = m := by cases m <;> rfl

theorem State.mode_of_rd {s : State} {m : Mode} (h : s.rd Obj.devMode 0 = m.code) : s.mode = m := by rw [State.mode, h, Mode.ofCode_code]

/-- R111, R224: the engine is in HOLD, and the transition has ended. -/
theorem State.arriveHold_reads (s : State) (prev reason : Nat) :
    (s.arriveHold prev reason).mode = .hold ∧ (s.arriveHold prev reason).rd Obj.devPrevMode 0 = prev ∧
    (s.arriveHold prev reason).rd Obj.devModeReason 0 = reason ∧ (s.arriveHold prev reason).trans = none := by
  let u := ({ s with trans := none } : State).enter .hold prev reason
  obtain ⟨hm, hp, hr⟩ := ({ s with trans := none } : State).enter_reads prev reason (m := .hold) (by decide)
  have k : Kept (km_taeHold ||| km_calPause ||| km_timedCheck) u (s.arriveHold prev reason) :=
    (State.timedCheck_kept _).step (by decide +kernel) <| (State.calPause_kept _).step (by decide +kernel) <|
      (State.taeHold_kept ..).step (by decide +kernel) (.refl ..)
  refine ⟨State.mode_of_rd ?_, ?_, ?_, ?_⟩
  · rw [k.rd 0 (by decide) (by decide +kernel)]; exact hm
  · rw [k.rd 0 (by decide) (by decide +kernel)]; exact hp
  · rw [k.rd 0 (by decide) (by decide +kernel)]; exact hr
  · rw [k.trans_eq (by decide +kernel)]
    exact (State.enter_kept { s with trans := none } .hold prev reason).trans_eq (by decide +kernel)

theorem State.anyRunning_eq_false {s : State} {n : Nat} (hn : s.running n = false) (h : ¬ s.OtherRuns n) : s.anyRunning = false := by
  rw [State.anyRunning, List.any_eq_false]
  intro m hm hr
  by_cases e : m = n
  · rw [e, hn] at hr; cases hr
  · exact h ⟨m, List.mem_range.1 hm, e, hr⟩

theorem State.anyBusy_of {s : State} {n : Nat} (hn : n < 16) (h : s.busyNeedle n = true) : s.anyBusy = true :=
  List.any_eq_true.2 ⟨n, List.mem_range.2 hn, h⟩

/-- R111: the HOLD in progress completes once a needle is held and none runs. -/
theorem State.holdCheck_completes {s : State} {x : Trans} (hx : s.trans = some x) (ht : x.target = 7) (hr : s.anyRunning = false) (hb : s.anyBusy = true) :
    s.holdCheck = s.arriveHold x.source x.reason := by
  unfold State.holdCheck
  rw [hx]
  exact if_pos ⟨ht, hr, hb⟩

theorem State.holdCheck_of_otherRuns {s : State} {n : Nat} (h : s.OtherRuns n) : s.holdCheck = s := State.holdCheck_of_waits (fun _ _ _ => h.anyRunning)

theorem State.holdCheck_beside (s : State) (n : Nat) : Beside n s s.holdCheck := (State.holdCheck_kept s).beside n (by decide +kernel)

/-- After the check, a HOLD that is still in progress waits for a needle other than the held one. -/
theorem State.holdCheck_holdWaits {s : State} {n : Nat} (hn : n < 16) (hs : s.ndlState n = 6) : s.holdCheck.HoldWaits n := by
  have run : s.running n = false := by rw [State.running, hs]; rfl
  have busy : s.anyBusy = true := State.anyBusy_of hn (by rw [State.busyNeedle, hs]; rfl)
  intro y hy ht
  refine (State.holdCheck_beside s n).only.otherRuns ?_
  by_contra ho
  have idle := State.anyRunning_eq_false run ho
  cases hx : s.trans with
  | none =>
    rw [State.holdCheck_of_waits (fun x e => by rw [hx] at e; cases e), hx] at hy
    cases hy
  | some x =>
    by_cases h7 : x.target = 7
    · rw [State.holdCheck_completes hx h7 idle busy, (State.arriveHold_reads ..).2.2.2] at hy
      cases hy
    · rw [State.holdCheck_of_waits (fun z e h => by rw [hx] at e; cases e; exact absurd h h7), hx] at hy
      cases hy
      exact h7 ht

/-- A needle that freezes on an edge, before the engine looks whether a needle still runs. -/
def State.freezeHeld (s : State) (n e : Nat) : State :=
  let r := s.ndl n
  let s := s.setNdl n { r with freeze := none, brk := none, stallFrom := none,
                               stallUsed := match r.stallFrom with | some t => r.stallUsed + (e - t) | none => r.stallUsed }
  let s := (s.wr Obj.ndlState n 6).ndlCount n 6
  (s.ndlTrace n 4 (s.blockOf n).1 (s.blockOf n).2).rasFreeze n true

theorem State.freezeAt_eq (s : State) (n e : Nat) : s.freezeAt n e = (s.freezeHeld n e).holdCheck.runRoutine n 8 := rfl

theorem State.freezeHeld_kept (s : State) (n e : Nat) :
    Kept (ob Obj.ndlState ||| km_setNdl ||| km_ndlCount ||| km_ndlTrace ||| km_rasFreeze) s (s.freezeHeld n e) := by
  unfold State.freezeHeld
  extract_lets r u v
  have hu : Kept km_setNdl s u := State.setNdl_kept ..
  exact (State.rasFreeze_kept ..).step (by decide +kernel) <| (State.ndlTrace_kept ..).step (by decide +kernel) <|
    (State.ndlCount_kept ..).step (by decide +kernel) <| (State.wr_kept u Obj.ndlState n 6).step (by decide +kernel) (hu.mono (by decide +kernel))

/-- What a freeze does to its needle. -/
structure Freezes (n : Nat) (s t : State) : Prop where
  only : OnlyNeedle n s t
  state : t.ndlState n = 6
  standing : (t.ndl n).standing = { (s.ndl n).standing with freeze := none }
  holds : t.fld Obj.ndlCounts n F.ndlCountsHolds = counted 48 (s.fld Obj.ndlCounts n F.ndlCountsHolds) 1

theorem State.freezeHeld_freezes (s : State) (n e : Nat) : Freezes n s (s.freezeHeld n e) := by
  unfold State.freezeHeld
  extract_lets r u v
  have b : Beside n v _ := ((v.ndlTrace_beside n 4 (v.blockOf n).1 (v.blockOf n).2).trans (State.rasFreeze_beside _ n true))
  have c : Beside n (u.wr Obj.ndlState n 6) v := (State.ndlCount_kept ..).beside n (by decide +kernel)
  have hu : (u.ndl n).standing = { (s.ndl n).standing with freeze := none } := by
    simp only [u, State.setNdl_self]
    rfl
  refine ⟨((OnlyNeedle.setNdl n s _).trans (OnlyNeedle.wr_state n u 6)).trans (c.only.trans b.only), ?_, ?_, ?_⟩
  · rw [b.state, c.state]
    exact State.rd_wr_self ..
  · rw [b.standing, c.standing, State.wr_ndl, hu]
  · rw [(State.rasFreeze_kept ..).fld_eq n _ (by decide) (by decide +kernel), (State.ndlTrace_kept ..).fld_eq n _ (by decide) (by decide +kernel)]
    exact (State.fld_count _ _ _ _ _ _ (.inr (by decide))).trans (by rw [State.wr_state_fld _ _ _ _ _ (by decide) (by decide)]; rfl)

/-- R203, R245: the needle is held, or a parity mismatch of the freeze's microroutine frogs it. -/
theorem State.freezeAt_cases (s : State) {n : Nat} (hn : n < 16) (e : Nat) :
    (Beside n (s.freezeHeld n e).holdCheck (s.freezeAt n e) ∧ Kept km_routine (s.freezeHeld n e).holdCheck (s.freezeAt n e)) ∨
    ParityFrog n (s.freezeHeld n e).holdCheck (s.freezeAt n e) := by
  have st : (s.freezeHeld n e).ndlState n = 6 := (State.freezeHeld_freezes ..).state
  rw [State.freezeAt_eq]
  refine State.runRoutine_cases 8 ?_ (State.holdCheck_holdWaits hn st)
  rw [State.busyNeedle, (State.holdCheck_beside _ n).state, st]
  rfl

theorem State.freezeAt_holds (s : State) {n : Nat} (hn : n < 16) (e : Nat) :
    (s.freezeAt n e).fld Obj.ndlCounts n F.ndlCountsHolds = counted 48 (s.fld Obj.ndlCounts n F.ndlCountsHolds) 1 := by
  rw [← (State.freezeHeld_freezes s n e).holds, ← (State.holdCheck_kept (s.freezeHeld n e)).fld_eq n _ (by decide) (by decide +kernel)]
  rcases s.freezeAt_cases hn e with ⟨_, k⟩ | p
  · exact k.fld_eq n _ (by decide) (by decide +kernel)
  · exact p.holds

theorem State.freezeAt_freeze (s : State) {n : Nat} (hn : n < 16) (e : Nat) : ((s.freezeAt n e).ndl n).freeze = none := by
  rcases s.freezeAt_cases hn e with ⟨b, _⟩ | p
  · rw [← NdlRt.standing_freeze, b.standing, (State.holdCheck_beside _ n).standing, (State.freezeHeld_freezes ..).standing]
  · exact p.freeze

theorem State.freezeAt_outcome (s : State) {n : Nat} (hn : n < 16) (e : Nat) :
    ParityEnd n (s.freezeAt n e) ∨ ((s.freezeAt n e).ndlState n = 6 ∧ ((s.freezeAt n e).ndl n).queue = (s.ndl n).queue) := by
  rcases s.freezeAt_cases hn e with ⟨b, _⟩ | p
  · refine .inr ⟨?_, ?_⟩
    · rw [b.state, (State.holdCheck_beside _ n).state, (State.freezeHeld_freezes ..).state]
    · rw [← NdlRt.standing_queue, b.standing, (State.holdCheck_beside _ n).standing, (State.freezeHeld_freezes ..).standing]
      rfl
  · exact .inl p.ended

/-- R111: the last needle's freeze completes the HOLD in progress. -/
theorem State.freezeAt_last {s : State} {n : Nat} (hn : n < 16) (e : Nat) {x : Trans} (hx : s.trans = some x) (ht : x.target = 7)
    (ho : ∀ m < 16, m ≠ n → s.running m = false) :
    (s.freezeAt n e).mode = .hold ∧ (s.freezeAt n e).rd Obj.devPrevMode 0 = x.source ∧ (s.freezeAt n e).rd Obj.devModeReason 0 = x.reason ∧
    (ParityEnd n (s.freezeAt n e) ∨ (s.freezeAt n e).trans = none) := by
  let h := s.freezeHeld n e
  have fr : Freezes n s h := State.freezeHeld_freezes ..
  have ht' : h.trans = some x := (State.freezeHeld_kept s n e).trans_eq (by decide +kernel) ▸ hx
  have idle : h.anyRunning = false := by
    refine State.anyRunning_eq_false (n := n) (by rw [State.running, fr.state]; rfl) ?_
    rintro ⟨m, hm, hne, hr⟩
    rw [fr.only.running hne, ho m hm hne] at hr
    cases hr
  have done := State.holdCheck_completes ht' ht idle (State.anyBusy_of hn (by rw [State.busyNeedle, fr.state]; rfl))
  obtain ⟨am, ap, ar, at'⟩ := h.arriveHold_reads x.source x.reason
  rw [← done] at am ap ar at'
  rcases s.freezeAt_cases hn e with ⟨_, k⟩ | p
  · exact ⟨(k.mode_eq (by decide +kernel)).trans am, (k.rd 0 (by decide) (by decide +kernel)).trans ap, (k.rd 0 (by decide) (by decide +kernel)).trans ar,
      .inr ((k.trans_eq (by decide +kernel)).trans at')⟩
  · exact ⟨(p.kept.mode_eq (by decide +kernel)).trans am, (p.kept.rd 0 (by decide) (by decide +kernel)).trans ap,
      (p.kept.rd 0 (by decide) (by decide +kernel)).trans ar, .inl p.ended⟩

/-- R111: while another needle runs the HOLD goes on. -/
theorem State.freezeAt_goesOn {s : State} {n : Nat} (hn : n < 16) (e : Nat) (ho : s.OtherRuns n) :
    (s.freezeAt n e).mode = s.mode ∧ (s.freezeAt n e).trans = s.trans := by
  have hk := State.freezeHeld_kept s n e
  have hr : (s.freezeHeld n e).OtherRuns n := (State.freezeHeld_freezes s n e).only.otherRuns ho
  have cases := s.freezeAt_cases hn e
  rw [State.holdCheck_of_otherRuns hr] at cases
  rw [← hk.mode_eq (by decide +kernel), ← hk.trans_eq (by decide +kernel)]
  rcases cases with ⟨_, k⟩ | p
  · exact ⟨k.mode_eq (by decide +kernel), k.trans_eq (by decide +kernel)⟩
  · exact ⟨p.kept.mode_eq (by decide +kernel), p.otherRuns hr⟩

end Sys2Proof.Machine
end

section
namespace Sys2Proof.Machine
-- one declaration at a time, as in the laws: each `decide +kernel` waits for the declarations before it
set_option Elab.async false

/-! ### Resuming (R113, R203, R226, R279) -/

theorem State.stallEnd_only (s : State) (n : Nat) : OnlyNeedle n s (s.stallEnd n) := by
  have k : Beside n ((s.wr Obj.ndlState n 4).wr Obj.strState n 2) (((s.wr Obj.ndlState n 4).wr Obj.strState n 2).latch Ev.strResume) :=
    (State.latch_kept ..).beside n (by decide +kernel)
  exact (OnlyNeedle.wr_state n s 4).trans <| (OnlyNeedle.wr_str n _ 2).trans <| k.only.trans (OnlyNeedle.setNdl ..)

theorem State.stallEnd_state (s : State) (n : Nat) : (s.stallEnd n).ndlState n = 4 := by
  unfold State.stallEnd State.ndlState
  rw [State.setNdl_rd, (State.latch_kept ..).rd n (by decide) (by decide +kernel), State.rd_wr_obj _ _ (by decide) (by decide) (by decide), State.rd_wr_self]

theorem State.stallEnd_standing (s : State) (n : Nat) : ((s.stallEnd n).ndl n).standing = (s.ndl n).standing := by
  unfold State.stallEnd
  rw [State.setNdl_self]
  rfl

/-- A held needle that is to go on after a resume with apply edge a: its next stitch lies at least 8 VCLK later. -/
def State.unfreeze (s : State) (n a : Nat) : State :=
  (((s.setNdl n { s.ndl n with fresh := true, resumed := true, t0 := a + 8 * vclkFs, brk := none, stallFrom := none }).wr Obj.ndlState n 4).setStatus n
    F.ndlStatusBreakHit 0).rasFreeze n false

/-- The needle is STALLED again from the slot on edge e. -/
def State.restall (s : State) (n e : Nat) : State := (s.wr Obj.ndlState n 5).setNdl n { s.ndl n with stallFrom := some e }

/-- The needle at the end of its resume, before the microroutine: a stall is over, or goes on. -/
def State.goOn (s : State) (n a : Nat) : State :=
  let stalled := s.strState n = 3
  let s := s.unfreeze n a
  let e := s.issueEdge (s.periodEdge (s.period n (s.status n F.ndlStatusTset)) (a + 8 * vclkFs))
  if !stalled then s else if s.stallEnds n e && !s.openArrival n e then s.stallEnd n else s.restall n e

theorem State.resumeNeedle_held {s : State} {n : Nat} (a : Nat) (h : s.ndlState n = 6) : s.resumeNeedle n a = (s.goOn n a).runRoutine n 8 :=
  if_neg (not_not.2 h)

theorem State.resumeNeedle_other {s : State} {n : Nat} (a : Nat) (h : s.ndlState n ≠ 6) : s.resumeNeedle n a = s := if_pos h

theorem State.unfreeze_kept (s : State) (n a : Nat) : Kept (ob Obj.ndlState ||| km_setNdl ||| km_setStatus ||| km_rasFreeze) s (s.unfreeze n a) := by
  unfold State.unfreeze
  exact (State.rasFreeze_kept ..).step (by decide +kernel) <| (State.setStatus_kept ..).step (by decide +kernel) <|
    (State.wr_kept _ Obj.ndlState n 4).step (by decide +kernel) <| (State.setNdl_kept ..).step (by decide +kernel) (.refl ..)

/-- The parts that a needle's going on may change. -/
def goOnParts : Nat := ob Obj.ndlState ||| km_setNdl ||| km_setStatus ||| km_rasFreeze ||| km_stallEnd

/-- What the resume does to its needle before the microroutine. -/
structure GoesOn (n a : Nat) (s t : State) : Prop where
  kept : Kept goOnParts s t
  only : OnlyNeedle n s t
  t0 : (t.ndl n).t0 = a + 8 * vclkFs
  fresh : (t.ndl n).fresh = true
  state : t.ndlState n = 4 ∨ (s.strState n = 3 ∧ t.ndlState n = 5)

theorem State.unfreeze_goesOn (s : State) (n a : Nat) : GoesOn n a s (s.unfreeze n a) ∧ (s.unfreeze n a).ndlState n = 4 := by
  let u := (s.setNdl n { s.ndl n with fresh := true, resumed := true, t0 := a + 8 * vclkFs, brk := none, stallFrom := none }).wr Obj.ndlState n 4
  have b : Beside n u (s.unfreeze n a) := .kept (State.rasFreeze_kept ..) (by decide +kernel) ((State.setStatus_kept ..).beside n (by decide +kernel))
  have st : (s.unfreeze n a).ndlState n = 4 := (b.state n).trans (State.rd_wr_self ..)
  refine ⟨⟨(s.unfreeze_kept n a).mono (by decide +kernel), (OnlyNeedle.setNdl ..).trans ((OnlyNeedle.wr_state ..).trans b.only), ?_, ?_, .inl st⟩, st⟩
  · rw [← NdlRt.standing_t0, b.standing, State.wr_ndl, State.setNdl_self]; rfl
  · rw [← NdlRt.standing_fresh, b.standing, State.wr_ndl, State.setNdl_self]; rfl

theorem State.goOn_goesOn (s : State) (n a : Nat) : GoesOn n a s (s.goOn n a) := by
  obtain ⟨g, g4⟩ := s.unfreeze_goesOn n a
  unfold State.goOn
  extract_lets stalled u e
  change GoesOn n a s u at g
  change u.ndlState n = 4 at g4
  split
  · exact g
  · rename_i hs
    have hs3 : s.strState n = 3 := by simpa using hs
    split
    · have st := u.stallEnd_standing n
      refine ⟨(State.stallEnd_kept ..).step (by decide +kernel) g.kept, g.only.trans (u.stallEnd_only n), ?_, ?_, .inl (u.stallEnd_state n)⟩
      · rw [← NdlRt.standing_t0, st, NdlRt.standing_t0, g.t0]
      · rw [← NdlRt.standing_fresh, st, NdlRt.standing_fresh, g.fresh]
    · refine ⟨?_, g.only.trans ((OnlyNeedle.wr_state n u 5).trans (OnlyNeedle.setNdl ..)), ?_, ?_, .inr ⟨hs3, ?_⟩⟩
      · exact (State.setNdl_kept ..).step (by decide +kernel) <| (State.wr_kept u Obj.ndlState n 5).step (by decide +kernel) g.kept
      · rw [State.restall, State.setNdl_self]; exact g.t0
      · rw [State.restall, State.setNdl_self]; exact g.fresh
      · rw [State.ndlState, State.restall, State.setNdl_rd, State.rd_wr_self]

/-- No HOLD is in progress. -/
def State.NoHold (s : State) : Prop := ∀ x, s.trans = some x → x.target ≠ 7

/-- The parts that the resume of a needle may change; the mode is none of them. -/
def resumeParts : Nat := goOnParts ||| km_routine ||| frogEngineParts

/-- Where a held needle stands after a resume with apply edge a. -/
structure HeldResumes (n a : Nat) (s t : State) : Prop where
  t0 : (t.ndl n).t0 = a + 8 * vclkFs
  fresh : (t.ndl n).fresh = true
  state : ParityEnd n t ∨ t.ndlState n = 4 ∨ (s.strState n = 3 ∧ t.ndlState n = 5)

/-- What the resume of one needle does. -/
structure NeedleResumes (n a : Nat) (s t : State) : Prop where
  kept : Kept resumeParts s t
  only : OnlyNeedle n s t
  grows : s.ActiveGrows t
  trans : t.trans = s.trans ∨ (t.active Ev.ucodeParity = true ∧ t.NoHold)
  held : s.ndlState n = 6 → HeldResumes n a s t
  other : s.ndlState n ≠ 6 → t = s

theorem State.resumeNeedle_resumes {s : State} (n a : Nat) (hh : s.NoHold) : NeedleResumes n a s (s.resumeNeedle n a) := by
  by_cases h6 : s.ndlState n = 6
  · rw [State.resumeNeedle_held a h6]
    have g := s.goOn_goesOn n a
    generalize s.goOn n a = u at g ⊢
    have tr : u.trans = s.trans := g.kept.trans_eq (by decide +kernel)
    have gr : s.ActiveGrows u := g.kept.activeGrows (by decide +kernel)
    have busy : u.busyNeedle n = true := by
      rcases g.state with h | ⟨_, h⟩ <;> rw [State.busyNeedle, h] <;> rfl
    rcases State.runRoutine_cases 8 busy (fun x hx h7 => absurd h7 (hh x (tr ▸ hx))) with ⟨b, k⟩ | p
    · refine ⟨k.step (by decide +kernel) (g.kept.mono (by decide +kernel)), g.only.trans b.only, gr.trans (k.activeGrows (by decide +kernel)),
        .inl ((k.trans_eq (by decide +kernel)).trans tr), fun _ => ⟨?_, ?_, .inr ?_⟩, fun h => absurd h6 h⟩
      · rw [← NdlRt.standing_t0, b.standing, NdlRt.standing_t0, g.t0]
      · rw [← NdlRt.standing_fresh, b.standing, NdlRt.standing_fresh, g.fresh]
      · rw [b.state]; exact g.state
    · refine ⟨p.kept.step (by decide +kernel) (g.kept.mono (by decide +kernel)), g.only.trans p.only, gr.trans p.grows, .inr ⟨p.active, ?_⟩,
        fun _ => ⟨p.t0.trans g.t0, p.fresh.trans g.fresh, .inl p.ended⟩, fun h => absurd h6 h⟩
      intro x hx
      rcases p.trans with e | ⟨y, hy, h5⟩
      · exact hh x (by rw [← tr, ← e]; exact hx)
      · rw [hy] at hx
        cases hx
        rw [h5]
        decide
  · rw [State.resumeNeedle_other a h6]
    exact ⟨.refl .., .refl .., fun _ h => h, .inl rfl, fun h => absurd h h6, fun _ => rfl⟩

theorem NeedleResumes.noHold {n a : Nat} {s t : State} (h : NeedleResumes n a s t) (hh : s.NoHold) : t.NoHold := by
  rcases h.trans with e | ⟨_, k⟩
  · exact fun x hx => hh x (e ▸ hx)
  · exact k

/-- What the resume of a list of needles does. -/
structure NeedlesResume (l : List Nat) (a : Nat) (s t : State) : Prop where
  kept : Kept resumeParts s t
  grows : s.ActiveGrows t
  trans : t.trans = s.trans ∨ t.active Ev.ucodeParity = true
  held : ∀ m ∈ l, s.ndlState m = 6 → HeldResumes m a s t
  rest : ∀ m, m ∉ l ∨ s.ndlState m ≠ 6 → t.ndlState m = s.ndlState m ∧ t.ndl m = s.ndl m

theorem State.resumeList_resumes (a : Nat) (l : List Nat) (hl : l.Nodup) (s : State) (hh : s.NoHold) :
    NeedlesResume l a s (l.foldl (State.resumeNeedle · · a) s) := by
  induction l generalizing s with
  | nil => exact ⟨.refl .., fun _ h => h, .inl rfl, fun m hm => absurd hm (List.not_mem_nil), fun m _ => ⟨rfl, rfl⟩⟩
  | cons n l ih =>
    obtain ⟨hn, hl⟩ := List.nodup_cons.1 hl
    have h := s.resumeNeedle_resumes n a hh
    have k := ih hl _ (h.noHold hh)
    rw [List.foldl_cons]
    generalize s.resumeNeedle n a = u at h k ⊢
    generalize l.foldl (State.resumeNeedle · · a) u = t at k ⊢
    obtain ⟨stn, ndn⟩ := k.rest n (.inl hn)
    refine ⟨h.kept.trans k.kept, h.grows.trans k.grows, ?_, fun m hm h6 => ?_, fun m hm => ?_⟩
    · rcases k.trans with e | e
      · rcases h.trans with e' | ⟨e', _⟩
        · exact .inl (e.trans e')
        · exact .inr (k.grows _ e')
      · exact .inr e
    · by_cases e : m = n
      · subst e
        obtain ⟨t0, fresh, state⟩ := h.held h6
        rw [← ndn] at t0 fresh
        exact ⟨t0, fresh, state.imp (fun p => p.mono k.grows stn) (fun h => by rw [stn]; exact h)⟩
      · obtain ⟨t0, fresh, state⟩ := k.held m ((List.mem_cons.1 hm).resolve_left e) (by rw [h.only.state m e]; exact h6)
        rw [h.only.str m e] at state
        exact ⟨t0, fresh, state⟩
    · by_cases e : m = n
      · subst e
        have h6 : s.ndlState m ≠ 6 := hm.resolve_left (fun h => h (List.mem_cons_self ..))
        rw [h.other h6] at stn ndn
        exact ⟨stn, ndn⟩
      · have hm' : m ∉ l ∨ u.ndlState m ≠ 6 := hm.imp (fun h k => h (List.mem_cons_of_mem _ k)) (fun k => by rw [h.only.state m e]; exact k)
        obtain ⟨st, nd⟩ := k.rest m hm'
        exact ⟨st.trans (h.only.state m e), nd.trans (h.only.ndl m e)⟩

/-- The engine on the apply edge of a RUN request from HOLD, before its needles go on. -/
def State.resumeEdge (s : State) (x : Trans) (a : Nat) : State := ({ s.reach a with trans := none }).enter .run x.source x.reason

theorem State.resumeAll_eq {s : State} {x : Trans} {a : Nat} (hx : s.trans = some x) (ht : x.target = 6) (hs : x.source = 7) (hd : x.due = some a) :
    s.resumeAll = ((List.range 16).foldl (State.resumeNeedle · · a) (s.resumeEdge x a)).taeResume a := by
  unfold State.resumeAll
  rw [hx]
  dsimp only
  rw [if_pos ⟨ht, hs⟩, hd]
  rfl

theorem State.resumeEdge_kept (s : State) (x : Trans) (a : Nat) : Kept (pt.trans ||| km_reach ||| km_enter) s (s.resumeEdge x a) :=
  (State.enter_kept ..).step (by decide +kernel) <| .set_trans (by decide +kernel) <| (State.reach_kept ..).step (by decide +kernel) (.refl ..)

theorem State.resumeEdge_trans (s : State) (x : Trans) (a : Nat) : (s.resumeEdge x a).trans = none :=
  (State.enter_kept { s.reach a with trans := none } .run x.source x.reason).trans_eq (by decide +kernel)

theorem State.resumeEdge_now (s : State) (x : Trans) (a : Nat) : (s.resumeEdge x a).now = max s.now a :=
  (State.enter_kept { s.reach a with trans := none } .run x.source x.reason).now_eq (by decide +kernel)

end Sys2Proof.Machine
end

section
namespace Sys2Proof.Machine
-- one declaration at a time, as in the laws: each `decide +kernel` waits for the declarations before it
set_option Elab.async false

/-! ### Parking (R310, R316) -/

theorem State.passEdge_pin_ne (s : State) {p q : Nat} (den high : Bool) (t : Nat) (h : q ≠ p) : (s.passEdge p den high t).pin q = s.pin q := by
  unfold State.passEdge
  extract_lets x u
  have hu : u.pin q = s.pin q := s.setPin_ne p _ q h
  split <;> exact hu

theorem State.passEdge_rd (s : State) (p : Nat) (den high : Bool) (t o e : Nat) : (s.passEdge p den high t).rd o e = s.rd o e := by
  unfold State.passEdge
  extract_lets x u
  split <;> rfl

/-- The edges with which a pin parks. -/
def State.parkEdges (s : State) (t p : Nat) : State :=
  let x := s.pin p
  let later := t + nsFs + Config.freeValue s.freeCtr
  let s := if x.ballDen then s.passEdge p true false t else s
  if x.ballDrv then s.draw.passEdge p false false later else s

theorem State.parkPin_eq (s : State) (t p : Nat) : s.parkPin t p =
    ((s.parkEdges t p).setPin p { (s.parkEdges t p).pin p with
      den := false, drv := false, waveDen := false, masked := false, denAt := ((s.parkEdges t p).pin p).ballDenAt,
      drvAt := ((s.parkEdges t p).pin p).ballDrvAt }).wr Obj.ptfPinState p (if (s.parkEdges t p).rd Obj.ptfPinState p = 0 then 0 else 1) := rfl

theorem State.parkEdges_pin_ne (s : State) (t : Nat) {p q : Nat} (h : q ≠ p) : (s.parkEdges t p).pin q = s.pin q := by
  unfold State.parkEdges
  extract_lets x later u
  have hu : u.pin q = s.pin q := by
    simp only [u]
    split
    · exact s.passEdge_pin_ne _ _ _ h
    · rfl
  split
  · exact (u.draw.passEdge_pin_ne _ _ _ h).trans hu
  · exact hu

theorem State.parkEdges_rd (s : State) (t p o e : Nat) : (s.parkEdges t p).rd o e = s.rd o e := by
  unfold State.parkEdges
  extract_lets x later u
  have hu : u.rd o e = s.rd o e := by
    simp only [u]
    split
    · exact s.passEdge_rd ..
    · rfl
  split
  · exact (u.draw.passEdge_rd ..).trans hu
  · exact hu

/-- PTF.PIN_STATE after a park: PARKED, or 0 where the pin is off. -/
def parkedState (v : Nat) : Nat := if v = 0 then 0 else 1

theorem parkedState_idem (v : Nat) : parkedState (parkedState v) = parkedState v := by
  unfold parkedState
  split <;> rfl

theorem State.parkPin_self (s : State) (t p : Nat) :
    ((s.parkPin t p).pin p).den = false ∧ ((s.parkPin t p).pin p).drv = false ∧ (s.parkPin t p).rd Obj.ptfPinState p = parkedState (s.rd Obj.ptfPinState p) := by
  rw [State.parkPin_eq, State.rd_wr_self, State.parkEdges_rd]
  have e (u : State) (x : PinRt) (v : Nat) : ((u.setPin p x).wr Obj.ptfPinState p v).pin p = x := u.setPin_self p x
  rw [e]
  exact ⟨rfl, rfl, rfl⟩

theorem State.parkPin_ne (s : State) (t : Nat) {p q : Nat} (h : q ≠ p) :
    (s.parkPin t p).pin q = s.pin q ∧ (s.parkPin t p).rd Obj.ptfPinState q = s.rd Obj.ptfPinState q := by
  rw [State.parkPin_eq]
  refine ⟨(State.setPin_ne _ p _ q h).trans (s.parkEdges_pin_ne t h), ?_⟩
  rw [State.rd_wr_ne _ _ (by decide) (by decide) (fun k => h k.2), State.setPin_rd, State.parkEdges_rd]

/-- Every pin of a list has parked, and no other one. -/
theorem State.parkPins_parked (t : Nat) (l : List Nat) (s : State) :
    (∀ p ∈ l, ((l.foldl (fun s p => s.parkPin t p) s).pin p).den = false ∧ ((l.foldl (fun s p => s.parkPin t p) s).pin p).drv = false ∧
      (l.foldl (fun s p => s.parkPin t p) s).rd Obj.ptfPinState p = parkedState (s.rd Obj.ptfPinState p)) ∧
    (∀ p, p ∉ l → (l.foldl (fun s p => s.parkPin t p) s).pin p = s.pin p ∧
      (l.foldl (fun s p => s.parkPin t p) s).rd Obj.ptfPinState p = s.rd Obj.ptfPinState p) := by
  induction l generalizing s with
  | nil => exact ⟨fun p hp => absurd hp List.not_mem_nil, fun _ _ => ⟨rfl, rfl⟩⟩
  | cons q l ih =>
    obtain ⟨hin, hout⟩ := ih (s.parkPin t q)
    rw [List.foldl_cons]
    refine ⟨fun p hp => ?_, fun p hp => ?_⟩
    · by_cases hl : p ∈ l
      · obtain ⟨den, drv, st⟩ := hin p hl
        refine ⟨den, drv, st.trans ?_⟩
        by_cases e : p = q
        · subst e; rw [(s.parkPin_self t p).2.2, parkedState_idem]
        · rw [(s.parkPin_ne t e).2]
      · have e : p = q := (List.mem_cons.1 hp).resolve_right hl
        subst e
        obtain ⟨pin, st⟩ := hout p hl
        rw [pin, st]
        exact s.parkPin_self t p
    · obtain ⟨hq, hl⟩ := not_or.1 (fun h => hp (List.mem_cons.2 h))
      obtain ⟨pin, st⟩ := hout p hl
      obtain ⟨pin', st'⟩ := s.parkPin_ne t hq
      exact ⟨pin.trans pin', st.trans st'⟩

/-- Passing edges leaves the dictionary and the other pins alone. -/
theorem State.emitEdges_frame (l : List PinEdge) (s : State) :
    (∀ o e, (l.foldl State.emitEdge s).rd o e = s.rd o e) ∧ ∀ p, (∀ x ∈ l, x.pin ≠ p) → (l.foldl State.emitEdge s).pin p = s.pin p := by
  induction l generalizing s with
  | nil => exact ⟨fun _ _ => rfl, fun _ _ => rfl⟩
  | cons x l ih =>
    obtain ⟨hr, hp⟩ := ih (s.emitEdge x)
    refine ⟨fun o e => (hr o e).trans (s.passEdge_rd ..), fun p h => ?_⟩
    exact (hp p (fun y hy => h y (List.mem_cons_of_mem _ hy))).trans (s.passEdge_pin_ne _ _ _ (h x (List.mem_cons_self ..)).symm)

/-- The edges of a needle before its park edge have passed; later ones never come. -/
def State.dropEdges (s : State) (n t : Nat) : State :=
  ((s.ndl n).edges.filter (fun e => decide (e.t < t))).foldl State.emitEdge (s.setNdl n { s.ndl n with edges := [], park := none })

theorem State.parkNeedle_eq (s : State) (n t : Nat) :
    s.parkNeedle n t = ((s.dropEdges n t).chartPins n).foldl (fun s p => s.parkPin t p) (s.dropEdges n t) := rfl

theorem State.dropEdges_rd (s : State) (n t o e : Nat) : (s.dropEdges n t).rd o e = s.rd o e := (State.emitEdges_frame _ _).1 o e

theorem State.dropEdges_chartPins (s : State) (n t : Nat) : (s.dropEdges n t).chartPins n = s.chartPins n := by
  rw [State.chartPins, State.dropEdges_rd, State.chartPins]

/-- R316: every pin of the needle's chart is PARKED, its drive off. -/
theorem State.parkNeedle_pins (s : State) (n t : Nat) {p : Nat} (hp : p ∈ s.chartPins n) :
    ((s.parkNeedle n t).pin p).den = false ∧ ((s.parkNeedle n t).pin p).drv = false ∧
    (s.parkNeedle n t).rd Obj.ptfPinState p = parkedState (s.rd Obj.ptfPinState p) := by
  rw [State.parkNeedle_eq, State.dropEdges_chartPins, ← s.dropEdges_rd n t Obj.ptfPinState p]
  exact (State.parkPins_parked t _ _).1 p hp

theorem State.parkNeedle_others (s : State) (n t : Nat) (he : ∀ e ∈ (s.ndl n).edges, e.pin ∈ s.chartPins n) {p : Nat} (hp : p ∉ s.chartPins n) :
    (s.parkNeedle n t).pin p = s.pin p ∧ (s.parkNeedle n t).rd Obj.ptfPinState p = s.rd Obj.ptfPinState p := by
  obtain ⟨pin, st⟩ := (State.parkPins_parked t (s.chartPins n) (s.dropEdges n t)).2 p hp
  rw [State.parkNeedle_eq, State.dropEdges_chartPins, pin, st, State.dropEdges_rd]
  refine ⟨(State.emitEdges_frame _ _).2 p (fun e h hpin => hp ?_), rfl⟩
  exact hpin ▸ he e (List.mem_filter.1 h).1

theorem State.parkNeedle_standing (s : State) (n t : Nat) : ((s.parkNeedle n t).ndl n).standing = { (s.ndl n).standing with park := none } := by
  have h1 (l : List PinEdge) (u : State) : Kept km_emitEdge u (l.foldl State.emitEdge u) := .foldl (fun x e h => h.trans (x.emitEdge_kept e)) (.refl ..)
  have h2 (l : List Nat) (u : State) : Kept km_parkPin u (l.foldl (fun s p => s.parkPin t p) u) := .foldl (fun x p h => h.trans (x.parkPin_kept t p)) (.refl ..)
  rw [State.parkNeedle_eq, (h2 _ _).ndl_eq (by decide +kernel), State.dropEdges, (h1 _ _).ndl_eq (by decide +kernel), State.setNdl_self]
  rfl

/-! ### The end of a bind-off seam (R184, R203, R347) -/

/-- The needle at the end of its bind-off seam, its pins parked. -/
def State.doneStop (s : State) (n t : Nat) : State :=
  let s := (s.stopNeedle n).parkNeedle n t
  s.setNdl n { s.ndl n with final := some t, parked := none, frogs := [] }

theorem State.doneAt_eq (s : State) (n t : Nat) :
    s.doneAt n t = ((((s.doneStop n t).wr Obj.ndlState n 8).ndlCount n 1).latch Ev.ndlDone).needlesEnded t := rfl

theorem State.doneStop_standing (s : State) (n t : Nat) :
    ((s.doneStop n t).ndl n).standing = { (s.ndl n).standing.ended with park := none, parked := none, final := some t, frogs := [] } := by
  have e : (((s.stopNeedle n).parkNeedle n t).ndl n).standing = { (s.ndl n).standing.ended with park := none } := by
    rw [State.parkNeedle_standing, State.stopNeedle_standing]
  rw [State.doneStop, State.setNdl_self]
  exact congrArg (fun r : NdlRt => { r with final := some t, parked := none, frogs := [] }) e

theorem State.doneAt_standing (s : State) (n t : Nat) :
    ((s.doneAt n t).ndl n).standing = { (s.ndl n).standing.ended with park := none, parked := none, final := some t, frogs := [] } := by
  rw [State.doneAt_eq, State.needlesEnded_standing, (State.latch_kept ..).ndl_eq (by decide +kernel), (State.ndlCount_kept ..).ndl_eq (by decide +kernel),
    State.wr_ndl, State.doneStop_standing]

theorem State.doneAt_state (s : State) (n t : Nat) : (s.doneAt n t).ndlState n = 8 := by
  rw [State.doneAt_eq, State.ndlState, (State.needlesEnded_kept ..).rd n (by decide) (by decide +kernel), (State.latch_kept ..).rd n (by decide) (by decide +kernel),
    (State.ndlCount_kept ..).rd n (by decide) (by decide +kernel), State.rd_wr_self]

theorem State.doneAt_pending (s : State) (n t : Nat) : (s.doneAt n t).srcPending Ev.ndlDone = true :=
  State.needlesEnded_pending _ _ _ (State.latch_pending ..)

theorem State.doneStop_kept (s : State) (n t : Nat) : Kept (km_stopNeedle ||| km_parkNeedle ||| km_setNdl) s (s.doneStop n t) :=
  (State.setNdl_kept ..).step (by decide +kernel) <| (State.parkNeedle_kept ..).step (by decide +kernel) <|
    (State.stopNeedle_kept ..).step (by decide +kernel) (.refl ..)

theorem State.doneAt_dones (s : State) (n t : Nat) :
    (s.doneAt n t).fld Obj.ndlCounts n F.ndlCountsDones = counted 48 (s.fld Obj.ndlCounts n F.ndlCountsDones) 1 := by
  rw [State.doneAt_eq, (State.needlesEnded_kept ..).fld_eq n _ (by decide) (by decide +kernel), (State.latch_kept ..).fld_eq n _ (by decide) (by decide +kernel)]
  refine (State.fld_count _ _ _ _ _ _ (.inr (by decide))).trans ?_
  rw [State.wr_state_fld _ _ _ _ _ (by decide) (by decide), (State.doneStop_kept ..).fld_eq n _ (by decide) (by decide +kernel)]
  rfl

end Sys2Proof.Machine
end

section
namespace Sys2Proof.Machine
-- one declaration at a time, as in the laws: each `decide +kernel` waits for the declarations before it
set_option Elab.async false

/-! ### A frog commits (R234 to R239, R279) -/

/-- After a frog of needle n with a commit edge and a cause, from the state s: what its registers, its sites and its run show. -/
structure FrogStands (n c cause : Nat) (s t : State) : Prop where
  recorded : t.status n F.ndlStatusFrogCause = cause ∨
    (t.status n F.ndlStatusFrogCause = 1 ∧ (t.active Ev.ucodeParity = true ∨ t.active Ev.streamUnderrun = true))
  standing : (t.ndl n).standing = (s.ndl n).standing.frogged c
  sites : t.sitesOf n = s.sitesOf n
  late : (s.ndl n).boundBefore c = true → t.ndlState n = 8 ∧ t.status n F.ndlStatusFrogLate = 1
  inTime : (s.ndl n).boundBefore c = false → t.ndlState n = 9 ∧
    (cause ≠ 4 → ∀ i ∈ s.sitesOf n, bit (s.ndl n).active i = true → t.fld Obj.ptfSiteResult i F.ptfSiteResultResult = 3)

theorem State.frogBody_stands (s : State) (n c : Nat) {cause : Nat} (hc : cause < 8) : FrogStands n c cause s (s.frogBody n c cause) where
  recorded := (s.frogBody_cause n c hc).imp_right (fun h => ⟨h.1, .inl h.2⟩)
  standing := s.frogBody_standing n c cause
  sites := by rw [State.sitesOf, (s.frogBody_kept n c cause).rd n (by decide) (by decide +kernel), State.sitesOf]
  late h := ⟨by rw [State.frogBody_state, h]; rfl, s.frogBody_late cause h⟩
  inTime h := ⟨by rw [State.frogBody_state, h]; rfl, fun h4 _ hi ha => s.frogBody_invalid h h4 hi ha⟩

/-- What an operation after a frog of needle n may do: nothing to its state and its run, at most an under-run as its cause, INVALID results. -/
structure FrogSame (n : Nat) (t u : State) : Prop where
  cause : u.status n F.ndlStatusFrogCause = t.status n F.ndlStatusFrogCause ∨ (u.status n F.ndlStatusFrogCause = 1 ∧ u.active Ev.streamUnderrun = true)
  grows : t.ActiveGrows u
  late : u.status n F.ndlStatusFrogLate = t.status n F.ndlStatusFrogLate
  state : u.ndlState n = t.ndlState n
  standing : (u.ndl n).standing = (t.ndl n).standing
  sites : u.sitesOf n = t.sitesOf n
  invalid : ∀ i ∈ t.sitesOf n, bit (t.ndl n).active i = true → t.fld Obj.ptfSiteResult i F.ptfSiteResultResult = 3 →
    u.fld Obj.ptfSiteResult i F.ptfSiteResultResult = 3

theorem FrogStands.then {n c cause : Nat} {s t u : State} (h : FrogStands n c cause s t) (k : FrogSame n t u) : FrogStands n c cause s u := by
  have act : (t.ndl n).active = (s.ndl n).active := by rw [← NdlRt.standing_active, h.standing]; rfl
  refine ⟨?_, by rw [k.standing, h.standing], by rw [k.sites, h.sites], by rw [k.late, k.state]; exact h.late, fun hl => ?_⟩
  · rcases k.cause with e | ⟨e, a⟩
    · rw [e]; exact h.recorded.imp_right (fun ⟨e, a⟩ => ⟨e, a.imp (k.grows _) (k.grows _)⟩)
    · exact .inr ⟨e, .inr a⟩
  · obtain ⟨st, inv⟩ := h.inTime hl
    exact ⟨k.state.trans st, fun h4 i hi ha => k.invalid i (h.sites ▸ hi) (act ▸ ha) (inv h4 i hi ha)⟩

/-- The parts in which a frog shows, the needle's runtime state apart. -/
def frogShows : Nat := ob Obj.ndlState ||| ob Obj.ndlStatus ||| ob Obj.ptfSiteResult ||| ob Obj.ndlSites

/-- An operation that leaves a frog's parts alone, and adds active faults at most. -/
theorem Kept.frogSame {n m : Nat} {t u : State} (k : Kept m t u) (hm : m &&& frogShows = 0) (hs : (u.ndl n).standing = (t.ndl n).standing)
    (g : t.ActiveGrows u) : FrogSame n t u := by
  have off {i : Nat} (hi : frogShows.testBit i = true) := testBit_off_of_land hm hi
  have st (f : Fld) : u.status n f = t.status n f := k.fld_eq n f (by decide) (off (by decide +kernel))
  refine ⟨.inl (st _), g, st _, k.rd n (by decide) (off (by decide +kernel)), hs, ?_, fun i _ _ h => ?_⟩
  · rw [State.sitesOf, k.rd n (by decide) (off (by decide +kernel)), State.sitesOf]
  · rw [k.fld_eq i _ (by decide) (off (by decide +kernel)), h]

theorem FrogStands.needlesEnded {n c cause : Nat} {s t : State} (h : FrogStands n c cause s t) (e : Nat) : FrogStands n c cause s (t.needlesEnded e) :=
  have k := t.needlesEnded_kept e
  h.then (k.frogSame (by decide +kernel) (t.needlesEnded_standing e n) (k.activeGrows (by decide +kernel)))

theorem FrogStands.ended {n c cause : Nat} {s t : State} (h : FrogStands n c cause s t) : t.busyNeedle n = false := by
  have st : t.ndlState n = 8 ∨ t.ndlState n = 9 := by
    cases hl : (s.ndl n).boundBefore c with
    | true => exact .inl (h.late hl).1
    | false => exact .inr (h.inTime hl).1
  rcases st with e | e <;> rw [State.busyNeedle, e] <;> rfl

/-- No frog is on its way any longer that could pass. -/
theorem FrogStands.passFrogs {n c cause : Nat} {s t : State} (h : FrogStands n c cause s t) : FrogStands n c cause s (t.passFrogs n c) := by
  have fr : (t.ndl n).frogs = [] := by rw [← NdlRt.standing_frogs, h.standing]; rfl
  refine h.then ⟨.inl rfl, fun _ h => h, rfl, rfl, ?_, rfl, fun _ _ _ h => h⟩
  rw [State.passFrogs, State.setNdl_self]
  simp only [NdlRt.standing, fr, List.filter_nil]

/-- R239: the lowest cause stands, FAULT with an under-run. -/
theorem State.setStatus_frogSame {t : State} (n : Nat) (ha : t.active Ev.streamUnderrun = true) : FrogSame n t (t.setStatus n F.ndlStatusFrogCause 1) := by
  have k : Kept km_setStatus t (t.setStatus n F.ndlStatusFrogCause 1) := State.setStatus_kept ..
  have g : t.ActiveGrows (t.setStatus n F.ndlStatusFrogCause 1) := k.activeGrows (by decide +kernel)
  refine ⟨.inr ⟨?_, g _ ha⟩, g, ?_, k.rd n (by decide) (by decide +kernel), rfl, ?_, fun i _ _ h => ?_⟩
  · exact State.fld_setFld_self t Obj.ndlStatus n F.ndlStatusFrogCause 1
  · exact State.fld_setFld_apart t Obj.ndlStatus n F.ndlStatusFrogCause F.ndlStatusFrogLate 1 (.inr (by decide))
  · rw [State.sitesOf, k.rd n (by decide) (by decide +kernel), State.sitesOf]
  · rw [k.fld_eq i _ (by decide) (by decide +kernel), h]

/-- R346: the results of an under-run on the edge are INVALID too. -/
theorem State.frogResults_frogSame (t : State) (n : Nat) : FrogSame n t (t.frogResults n 1) := by
  have k : Kept km_frogResults t (t.frogResults n 1) := State.frogResults_kept ..
  have b : Beside n t (t.frogResults n 1) := State.frogResults_beside ..
  have st (f : Fld) : (t.frogResults n 1).status n f = t.status n f := k.fld_eq n f (by decide) (by decide +kernel)
  refine ⟨.inl (st _), k.activeGrows (by decide +kernel), st _, b.state n, b.standing, ?_, fun i hi ha _ => t.frogResults_invalid n (by decide) hi ha⟩
  rw [State.sitesOf, k.rd n (by decide) (by decide +kernel), State.sitesOf]

/-- A second frog, by an under-run on the same edge, leaves the first one standing but for the cause. -/
theorem FrogStands.frogAt {n c cause : Nat} {s t : State} (h : FrogStands n c cause s t) (ha : t.active Ev.streamUnderrun = true) :
    FrogStands n c cause s (t.frogAt n c 1) := by
  have hp := h.passFrogs
  have nb : (!(t.passFrogs n c).busyNeedle n) = true := by rw [show (t.passFrogs n c).busyNeedle n = false from h.ended]; rfl
  have e : t.frogAt n c 1 =
      if ((t.passFrogs n c).ndl n).parked = some (c + 6 * vclkFs) ∧ 1 < (t.passFrogs n c).status n F.ndlStatusFrogCause then
        (if ((t.passFrogs n c).setStatus n F.ndlStatusFrogCause 1).ndlState n = 9 then ((t.passFrogs n c).setStatus n F.ndlStatusFrogCause 1).frogResults n 1
          else (t.passFrogs n c).setStatus n F.ndlStatusFrogCause 1)
      else t.passFrogs n c := if_pos nb
  rw [e]
  split
  · split
    · exact (hp.then (State.setStatus_frogSame n ha)).then (State.frogResults_frogSame ..)
    · exact hp.then (State.setStatus_frogSame n ha)
  · exact hp

/-- R278, R279: an under-run on the edge of a frog. -/
theorem FrogStands.underFrog {n c cause : Nat} {s t : State} (h : FrogStands n c cause s t) (expired : Bool) : FrogStands n c cause s (t.underFrog n c expired) := by
  unfold State.underFrog
  extract_lets u v
  have k : Kept (ob Obj.strUnderrun) t v := (State.setFld_kept _ Obj.strUnderrun ..).step (by decide +kernel) <|
    (State.setFld_kept _ Obj.strUnderrun ..).step (by decide +kernel) <| (State.setFld_kept _ Obj.strUnderrun ..).step (by decide +kernel) <|
    (State.count_kept _ Obj.strUnderrun ..).step (by decide +kernel) (.refl ..)
  have kr : Kept km_raise v (v.raise Ev.streamUnderrun n n 0 0 (some (2 ^ n)) true) := State.raise_kept ..
  have hv := h.then (k.frogSame (n := n) (by decide +kernel) (by rw [k.ndl_eq (by decide +kernel)]) (k.activeGrows (by decide +kernel)))
  refine (hv.then (kr.frogSame (by decide +kernel) (by rw [kr.ndl_eq (by decide +kernel)]) (v.raise_activeGrows _ _ _ _ _ _ _))).frogAt ?_
  exact (v.raise_raised Ev.streamUnderrun ..).2 1 (by decide +kernel) (by decide)

theorem FrogStands.alsoUnder {n c cause : Nat} {s t : State} (h : FrogStands n c cause s t) (before : State) : FrogStands n c cause s (t.alsoUnder before n c) := by
  unfold State.alsoUnder
  split
  · split
    · exact h.underFrog _
    · exact h
  · exact h

/-! ### Where nothing waits (R76) -/

theorem State.settleLoop_idle (k : Nat) (s : State) (hd : s.ode.done = []) (hj : s.jobs = []) (hw : s.waiters = []) :
    State.settleLoop k s = { s with results := s.results.drop k } := by
  induction k generalizing s with
  | zero => rfl
  | succ k ih =>
    rw [State.settleLoop, hd]
    dsimp only
    split
    · rename_i r l e
      rw [State.deliverResult_none _ _ _ _ (by exact hw), ih _ (by exact hd) (by exact hj) (by exact hw), e]
      rfl
    · rename_i e
      rw [State.nextJob_none s hj, e, List.drop_nil, ← e]

/-- The parts in which something can wait for an answer or an effect. -/
def waitParts : Nat := pt.ode ||| pt.jobs ||| pt.waiters

theorem State.Quiet.settle {m : Nat} {s t : State} (hq : s.Quiet) (h : Kept m s t) (hm : m &&& waitParts = 0) :
    t.settle = { t with results := t.results.drop 20000 } := by
  have off {i : Nat} (hi : waitParts.testBit i = true) := testBit_off_of_land hm hi
  refine State.settleLoop_idle _ t ?_ ?_ ?_
  · rw [show t.ode = s.ode from h.same .ode (off (by decide +kernel))]; exact hq.done
  · rw [show t.jobs = s.jobs from h.same .jobs (off (by decide +kernel))]; exact hq.jobs
  · rw [show t.waiters = s.waiters from h.same .waiters (off (by decide +kernel))]; exact hq.waiters

/-- What holds of the state that a command leaves, and does not speak of results, still holds when the results that nobody awaits have gone. -/
theorem State.Quiet.next_settled {i : Instr} {m : Nat} {s t : State} {p : State → Prop} (hq : s.Quiet) (hx : exec i s = settled (.next t)) (h : Kept m s t)
    (hm : m &&& waitParts = 0) (hp : p t) (hr : ∀ u l, p u → p { u with results := l }) : Next i s p :=
  ⟨_, hx, by rw [hq.settle h hm]; exact hr _ _ hp⟩

theorem State.Quiet.settle_eq {m : Nat} {s t : State} (hq : s.Quiet) (h : Kept m s t) (hm : m &&& waitParts = 0) (hr : t.results = s.results) : t.settle = t := by
  rw [hq.settle h hm, hr, hq.results, List.drop_nil, ← hq.results, ← hr]

end Sys2Proof.Machine
end

section
namespace Sys2Proof.Machine
-- one declaration at a time, as in the laws: each `decide +kernel` waits for the declarations before it
set_option Elab.async false

/-! ### A seam ends (R184, R203, R221) -/

theorem State.bindBegin_of_seam {s : State} {n : Nat} {x : Nat × Bool} (h : (s.ndl n).seam = some x) : s.bindBegin n = s := by
  rw [State.bindBegin, h]
  cases (s.ndl n).bound <;> rfl

theorem State.bindBegin_of_unbound {s : State} {n : Nat} (h : (s.ndl n).bound = none) : s.bindBegin n = s := by
  rw [State.bindBegin, h]

/-- The needle on the issue edge after a seam that ends at e: its next stitch starts there. -/
def State.seamPassed (s : State) (n e : Nat) : State :=
  let s := s.reach (s.issueEdge e)
  ((s.setNdl n { s.ndl n with seam := none, fresh := true, t0 := e, pause := true }).setStatus n F.ndlStatusInSeam 0).ageFrom n (some e)

theorem exec_seamEnd (s : State) (n : Nat) : exec (.seamEnd n) s = settled (runSeamEnd n s) := rfl

theorem runSeamEnd_bindOff {s : State} {n e : Nat} (h : (s.ndl n).seam = some (e, true)) : runSeamEnd n s = .next ((s.reach e).doneAt n e) := by
  rw [runSeamEnd, State.bindBegin_of_seam h]
  dsimp only
  rw [h]
  exact if_pos rfl

theorem runSeamEnd_goesOn {s : State} {n e : Nat} (h : (s.ndl n).seam = some (e, false)) : runSeamEnd n s = .next (s.seamPassed n e) := by
  rw [runSeamEnd, State.bindBegin_of_seam h]
  dsimp only
  rw [h]
  exact if_neg Bool.false_ne_true

theorem runSeamEnd_idle {s : State} {n : Nat} (h : (s.ndl n).seam = none) (hb : (s.ndl n).bound = none) : runSeamEnd n s = .next s := by
  rw [runSeamEnd, State.bindBegin_of_unbound hb]
  dsimp only
  rw [h]

theorem State.seamPassed_kept (s : State) (n e : Nat) : Kept (km_reach ||| km_setNdl ||| km_setStatus ||| km_ageFrom) s (s.seamPassed n e) :=
  (State.ageFrom_kept ..).step (by decide +kernel) <| (State.setStatus_kept ..).step (by decide +kernel) <|
    (State.setNdl_kept ..).step (by decide +kernel) <| (State.reach_kept ..).step (by decide +kernel) (.refl ..)

theorem State.seamPassed_ndl (s : State) (n e : Nat) :
    (s.seamPassed n e).ndl n = { s.ndl n with seam := none, fresh := true, t0 := e, pause := true, ageFrom := some e } := by
  rw [State.seamPassed, State.ageFrom, (State.setFld_kept _ Obj.calNeedleAge n F.calNeedleAgeAged 0).ndl_eq (by decide +kernel), State.setNdl_self,
    (State.setStatus_kept ..).ndl_eq (by decide +kernel), State.setNdl_self]
  rfl

theorem State.seamPassed_inSeam (s : State) (n e : Nat) : (s.seamPassed n e).status n F.ndlStatusInSeam = 0 := by
  rw [State.seamPassed, State.status, (State.ageFrom_kept ..).fld_eq n _ (by decide) (by decide +kernel), State.setStatus, State.fld_setFld_self]
  rfl

/-- The end of a seam writes one field of NDL.STATUS and one of CAL.NEEDLE_AGE. -/
theorem State.seamPassed_keeps (s : State) (n e : Nat) : Keeps s (s.seamPassed n e) [(Obj.ndlStatus, n), (Obj.calNeedleAge, n)] [.now, .ndls] := by
  have k : Kept (maskOf [.now, .ndls, .obj Obj.ndlStatus, .obj Obj.calNeedleAge]) s (s.seamPassed n e) := (s.seamPassed_kept n e).mono (by decide +kernel)
  refine ⟨k.pending, fun o m ho hm _ => ?_, fun p hp hobj => k.same p (maskOf_testBit ?_)⟩
  · have ne (o' : Nat) (h : (o', n) ∈ [(Obj.ndlStatus, n), (Obj.calNeedleAge, n)]) : ¬ (o = o' ∧ m = n) := fun ⟨e1, e2⟩ => hm (e1 ▸ e2 ▸ h)
    rw [State.seamPassed, State.ageFrom, State.setFld, State.rd_wr_ne _ _ (by decide) ho (ne _ (by simp)), State.setNdl_rd, State.setStatus, State.setFld,
      State.rd_wr_ne _ _ (by decide) ho (ne _ (by simp))]
    rfl
  · simp only [List.mem_cons, List.not_mem_nil, or_false, not_or] at hp ⊢
    exact ⟨hp.1, hp.2, hobj _, hobj _⟩

theorem seamEnd_bindOff {s : State} {n e : Nat} (hq : s.Quiet) (h : (s.ndl n).seam = some (e, true)) :
    Next (.seamEnd n) s (fun t => t.now = max s.now e ∧ t.ndlState n = 8 ∧ (t.ndl n).seam = none ∧ (t.ndl n).final = some e ∧
      t.srcPending Ev.ndlDone = true ∧ t.fld Obj.ndlCounts n F.ndlCountsDones = counted 48 (s.fld Obj.ndlCounts n F.ndlCountsDones) 1) := by
  have k : Kept (km_reach ||| km_doneAt) s ((s.reach e).doneAt n e) :=
    (State.doneAt_kept ..).step (by decide +kernel) <| (State.reach_kept ..).step (by decide +kernel) (.refl ..)
  have standing := (s.reach e).doneAt_standing n e
  refine hq.next_settled (by rw [exec_seamEnd, runSeamEnd_bindOff h]) k (by decide +kernel) ⟨?_, (s.reach e).doneAt_state n e, ?_, ?_,
    (s.reach e).doneAt_pending n e, (s.reach e).doneAt_dones n e⟩ (fun _ _ h => h)
  · exact (State.doneAt_kept ..).now_eq (by decide +kernel)
  · rw [← NdlRt.standing_seam, standing]; rfl
  · rw [← NdlRt.standing_final, standing]

theorem seamEnd_goesOn {s : State} {n e : Nat} (hq : s.Quiet) (h : (s.ndl n).seam = some (e, false)) :
    Next (.seamEnd n) s (fun t => t.now = max s.now (s.issueEdge e) ∧ t.ndlState n = s.ndlState n ∧ (t.ndl n).seam = none ∧ (t.ndl n).t0 = e ∧
      (t.ndl n).fresh = true ∧ (t.ndl n).pause = true ∧ t.status n F.ndlStatusInSeam = 0 ∧ Keeps s t [(Obj.ndlStatus, n), (Obj.calNeedleAge, n)] [.now, .ndls]) := by
  refine ⟨s.seamPassed n e, ?_, ?_⟩
  · rw [exec_seamEnd, runSeamEnd_goesOn h, settled, hq.settle_eq (s.seamPassed_kept n e) (by decide +kernel) rfl]
  · dsimp only
    rw [State.seamPassed_ndl]
    exact ⟨rfl, (s.seamPassed_kept n e).rd n (by decide) (by decide +kernel), rfl, rfl, rfl, rfl, s.seamPassed_inSeam n e, s.seamPassed_keeps n e⟩

/-- Where nothing waits and a command leaves the state as it is, it ends at once. -/
theorem State.Quiet.settled_self {s : State} (hq : s.Quiet) : settled (.next s) = .next s := by
  rw [settled, hq.settle_eq (.refl 0 s) (by decide +kernel) rfl]

theorem seamEnd_idle {s : State} {n : Nat} (hq : s.Quiet) (h : (s.ndl n).seam = none) (hb : (s.ndl n).bound = none) :
    Next (.seamEnd n) s (fun t => t = s) :=
  ⟨s, by rw [exec_seamEnd, runSeamEnd_idle h hb, hq.settled_self], rfl⟩

/-! ### Freezes, resumes and parks as commands (R111, R113, R203, R316) -/

/-- The parts that a freeze or a resume may change. -/
def holdParts : List Part := withFaults [.cal, .freeCtr, .ndls, .now, .ras, .results, .tae, .trans, .wdpLost, .wdpTrace, .obj Obj.calNeedleAge,
  .obj Obj.clkSyncArm, .obj Obj.clkSyncStatus, .obj Obj.devMode, .obj Obj.devModeReason, .obj Obj.devModeStamp, .obj Obj.devPrevMode,
  .obj Obj.hmsLoad, .obj Obj.ndlCounts, .obj Obj.ndlJumpStatus, .obj Obj.ndlState, .obj Obj.ndlStatus, .obj Obj.ndlTraceStatus,
  .obj Obj.ptfSiteResult, .obj Obj.rasBufferState, .obj Obj.rasCommitPending, .obj Obj.rasLayerActive, .obj Obj.rasState,
  .obj Obj.rqpPoolStatus, .obj Obj.strCounts, .obj Obj.strNextSeq, .obj Obj.strState, .obj Obj.wdpTraceStatus]

theorem State.holdAll_of_front {s : State} {n : Nat} (k : Nat) (h : ∀ d, (s.ndl n).queue.head? = some d → d.waits = false) : State.holdAll k n s = s := by
  cases k with
  | zero => rfl
  | succ k =>
    rw [State.holdAll]
    split
    · rename_i d l e
      have hd : d.waits = false := h d (by rw [e]; rfl)
      exact if_neg (by simp [hd])
    · rfl

theorem exec_needleFreeze (s : State) (n : Nat) : exec (.needleFreeze n) s = execNeedleFreeze n s := rfl

theorem execNeedleFreeze_due {s : State} {n f t1 p e : Nat} (hf : (s.ndl n).freeze = some f) (hi : s.issuing n = true) (hs : s.slot n = (false, t1, p, e))
    (hfe : f ≤ e) (hb : (s.ndl n).brk = none) (hd : ∀ d, (s.ndl n).queue.head? = some d → d.waits = false) :
    execNeedleFreeze n s = .next ((s.reach e).freezeAt n e) := by
  have front : State.holdAll (s.ndl n).queue.length n (s.reach e) = s.reach e := State.holdAll_of_front _ hd
  have brk : ((s.reach e).ndl n).brk = none := hb
  unfold execNeedleFreeze
  rw [hf, hi, hs]
  dsimp only
  rw [if_neg (by decide), if_neg (by simp [hfe]), front, brk]

theorem execNeedleFreeze_idle {s : State} {n : Nat} (h : (s.ndl n).freeze = none ∨ s.issuing n = false) : execNeedleFreeze n s = .next s := by
  unfold execNeedleFreeze
  rcases h with h | h
  · rw [h]
  · rw [h]
    split
    · rfl
    · exact if_pos rfl

theorem needleFreeze_due {s : State} {n f t1 p e : Nat} (hn : n < 16) (hf : (s.ndl n).freeze = some f) (hi : s.issuing n = true)
    (hs : s.slot n = (false, t1, p, e)) (hfe : f ≤ e) (hb : (s.ndl n).brk = none) (hd : ∀ d, (s.ndl n).queue.head? = some d → d.waits = false) :
    Next (.needleFreeze n) s (fun t => t.now = max s.now e ∧ (t.ndl n).freeze = none ∧ (ParityEnd n t ∨ (t.ndlState n = 6 ∧ (t.ndl n).queue = (s.ndl n).queue)) ∧
      t.fld Obj.ndlCounts n F.ndlCountsHolds = counted 48 (s.fld Obj.ndlCounts n F.ndlCountsHolds) 1 ∧
      (∀ x : Trans, s.trans = some x → x.target = 7 →
        ((∀ m < 16, m ≠ n → s.running m = false) → t.mode = .hold ∧ t.rd Obj.devPrevMode 0 = x.source ∧ t.rd Obj.devModeReason 0 = x.reason ∧
          (ParityEnd n t ∨ t.trans = none)) ∧
        (s.OtherRuns n → t.mode = s.mode ∧ t.trans = s.trans)) ∧ Keeps s t [] holdParts) := by
  have k : Kept (km_reach ||| km_freezeAt) s ((s.reach e).freezeAt n e) :=
    (State.freezeAt_kept ..).step (by decide +kernel) <| (State.reach_kept ..).step (by decide +kernel) (.refl ..)
  exact ⟨_, (exec_needleFreeze s n).trans (execNeedleFreeze_due hf hi hs hfe hb hd), (State.freezeAt_kept ..).now_eq (by decide +kernel), (s.reach e).freezeAt_freeze hn e,
    (s.reach e).freezeAt_outcome hn e, (s.reach e).freezeAt_holds hn e,
    fun x hx ht => ⟨State.freezeAt_last (s := s.reach e) hn e hx ht, State.freezeAt_goesOn (s := s.reach e) hn e⟩, k.keeps _ _ (by decide +kernel)⟩

theorem needleFreeze_idle {s : State} {n : Nat} (h : (s.ndl n).freeze = none ∨ s.issuing n = false) : Next (.needleFreeze n) s (fun t => t = s) :=
  ⟨s, (exec_needleFreeze s n).trans (execNeedleFreeze_idle h), rfl⟩

theorem exec_resume (s : State) : exec .resume s = .next s.resumeAll := rfl

theorem State.resumeAll_idle {s : State} (h : s.trans = none) : s.resumeAll = s := by rw [State.resumeAll, h]

/-- R113: a RUN request from HOLD reaches its apply edge. -/
theorem resume_runs {s : State} {x : Trans} {a : Nat} (hx : s.trans = some x) (ht : x.target = 6) (hs : x.source = 7) (hd : x.due = some a) :
    Next .resume s (fun t => t.now = max s.now a ∧ t.mode = .run ∧ (t.trans = none ∨ t.active Ev.ucodeParity = true) ∧ t.rd Obj.devPrevMode 0 = 7 ∧
      t.rd Obj.devModeReason 0 = x.reason ∧
      (∀ m < 16, s.ndlState m = 6 → (t.ndl m).t0 = a + 8 * vclkFs ∧ (t.ndl m).fresh = true ∧
        (ParityEnd m t ∨ t.ndlState m = 4 ∨ (s.strState m = 3 ∧ t.ndlState m = 5))) ∧
      (∀ m < 16, s.ndlState m ≠ 6 → t.ndlState m = s.ndlState m ∧ t.ndl m = s.ndl m) ∧ Keeps s t [] holdParts) := by
  refine ⟨s.resumeAll, exec_resume s, ?_⟩
  have keeps : Keeps s s.resumeAll [] holdParts := s.resumeAll_kept.keeps _ _ (by decide +kernel)
  rw [State.resumeAll_eq hx ht hs hd] at keeps ⊢
  -- the engine enters RUN on the apply edge, the needles as they were
  have k0 := s.resumeEdge_kept x a
  have now0 := s.resumeEdge_now x a
  have trans0 := s.resumeEdge_trans x a
  have state0 (m : Nat) : (s.resumeEdge x a).ndlState m = s.ndlState m := k0.rd m (by decide) (by decide +kernel)
  have str0 (m : Nat) : (s.resumeEdge x a).strState m = s.strState m := k0.rd m (by decide) (by decide +kernel)
  have ndl0 (m : Nat) : (s.resumeEdge x a).ndl m = s.ndl m := k0.ndl_eq (by decide +kernel) m
  obtain ⟨mode0, prev0, reason0⟩ := ({ s.reach a with trans := none } : State).enter_reads x.source x.reason (m := .run) (by decide)
  change (s.resumeEdge x a).rd _ _ = _ at mode0 prev0 reason0
  generalize s.resumeEdge x a = u at *
  -- each held needle goes on
  have r := u.resumeList_resumes a (List.range 16) List.nodup_range (fun y hy => by rw [trans0] at hy; cases hy)
  generalize (List.range 16).foldl (State.resumeNeedle · · a) u = v at *
  -- the time-and-event engine resumes last
  have kt := v.taeResume_kept a
  have nowT : (v.taeResume a).now = v.now := kt.now_eq (by decide +kernel)
  have transT : (v.taeResume a).trans = v.trans := kt.trans_eq (by decide +kernel)
  have ndlT (m : Nat) : (v.taeResume a).ndl m = v.ndl m := kt.ndl_eq (by decide +kernel) m
  have stateT (m : Nat) : (v.taeResume a).ndlState m = v.ndlState m := kt.rd m (by decide) (by decide +kernel)
  have growsT : v.ActiveGrows (v.taeResume a) := kt.activeGrows (by decide +kernel)
  have k1 : Kept (resumeParts ||| km_taeResume) u (v.taeResume a) := kt.step (by decide +kernel) (r.kept.mono (by decide +kernel))
  generalize v.taeResume a = t at *
  refine ⟨?_, State.mode_of_rd ((k1.rd 0 (by decide) (by decide +kernel)).trans mode0), ?_, ?_, ?_, ?_, ?_, keeps⟩
  · rw [k1.now_eq (by decide +kernel), now0]
  · rw [transT]
    exact r.trans.imp (fun h => h.trans trans0) (growsT _)
  · rw [k1.rd 0 (by decide) (by decide +kernel), prev0, hs]
  · rw [k1.rd 0 (by decide) (by decide +kernel), reason0]
  · intro m hm h6
    obtain ⟨t0, fresh, state⟩ := r.held m (List.mem_range.2 hm) (by rw [state0]; exact h6)
    rw [str0] at state
    rw [ndlT]
    exact ⟨t0, fresh, state.imp (fun p => p.mono growsT (stateT m)) (fun h => by rw [stateT]; exact h)⟩
  · intro m hm h6
    obtain ⟨st, nd⟩ := r.rest m (.inr (by rw [state0]; exact h6))
    exact ⟨(stateT m).trans (st.trans (state0 m)), (ndlT m).trans (nd.trans (ndl0 m))⟩

theorem resume_idle {s : State} (h : s.trans = none) : Next .resume s (fun t => t = s) := ⟨s, by rw [exec_resume, State.resumeAll_idle h], rfl⟩

theorem exec_pinPark (s : State) (n : Nat) : exec (.pinPark n) s = execPinPark n s := rfl

theorem pinPark_parks {s : State} {n d : Nat} (h : (s.ndl n).park = some d) (he : ∀ e ∈ (s.ndl n).edges, e.pin ∈ s.chartPins n) :
    Next (.pinPark n) s (fun t => t.now = max s.now d ∧ (t.ndl n).park = none ∧
      (∀ p ∈ s.chartPins n, (t.pin p).den = false ∧ (t.pin p).drv = false ∧ t.rd Obj.ptfPinState p = (if s.rd Obj.ptfPinState p = 0 then 0 else 1)) ∧
      (∀ p, p ∉ s.chartPins n → t.pin p = s.pin p ∧ t.rd Obj.ptfPinState p = s.rd Obj.ptfPinState p) ∧
      Keeps s t [] [.now, .ndls, .out, .freeCtr, .pins, .obj Obj.ptfPinState]) := by
  have ex : execPinPark n s = .next ((s.reach d).parkNeedle n d) := by rw [execPinPark, h]
  refine ⟨_, (exec_pinPark s n).trans ex, (State.parkNeedle_kept ..).now_eq (by decide +kernel), congrArg NdlRt.park ((s.reach d).parkNeedle_standing n d),
    fun p hp => (s.reach d).parkNeedle_pins n d hp, fun p hp => (s.reach d).parkNeedle_others n d he hp, ?_⟩
  exact ((execPinPark_kept n s).kept _ ex).keeps _ _ (by decide +kernel)

theorem pinPark_idle {s : State} {n : Nat} (h : (s.ndl n).park = none) : Next (.pinPark n) s (fun t => t = s) :=
  ⟨s, by rw [exec_pinPark, execPinPark, h], rfl⟩

/-! ### A frog as a command (R234 to R239) -/

theorem NdlRt.boundBefore_of_some {r : NdlRt} {c e i : Nat} (h : r.bound = some (e, i)) : r.boundBefore c = decide (i < c) := by rw [NdlRt.boundBefore, h]

/-- R236: no BIND_OFF stitch was issued before c, be it that none was issued or that all were at or after c. -/
theorem NdlRt.boundBefore_eq_false {r : NdlRt} {c : Nat} (h : ∀ e i, r.bound = some (e, i) → c ≤ i) : r.boundBefore c = false := by
  cases hb : r.bound with
  | none => rw [NdlRt.boundBefore, hb]
  | some p => rw [NdlRt.boundBefore_of_some hb, decide_eq_false (Nat.not_lt.2 (h p.1 p.2 hb))]

theorem exec_frogCommit (s : State) (n : Nat) : exec (.frogCommit n) s = settled (runFrogCommit n s) := rfl

theorem runFrogCommit_single {s : State} {n c cause : Nat} (hst : s.stagedFor Obj.ndlFrog n = none) (hf : (s.ndl n).frogs = [(c, cause)]) :
    runFrogCommit n s = .next (((s.reach c).frogAt n c cause).alsoUnder (s.reach c) n c) := by
  have hr : (s.reach c).stagedFor Obj.ndlFrog n = none := hst
  unfold runFrogCommit
  rw [hst, hf]
  dsimp only [Option.map_none, List.nil_append, List.foldl_nil]
  rw [hr]

theorem runFrogCommit_idle {s : State} {n : Nat} (hst : s.stagedFor Obj.ndlFrog n = none) (hf : (s.ndl n).frogs = []) : runFrogCommit n s = .next s := by
  unfold runFrogCommit
  rw [hst, hf]
  rfl

theorem frogCommit_frogs {s : State} {n c cause : Nat} (hq : s.Quiet) (hst : s.stagedFor Obj.ndlFrog n = none) (hf : (s.ndl n).frogs = [(c, cause)])
    (hb : s.busyNeedle n = true) (hc : cause < 8) :
    Next (.frogCommit n) s (fun t => t.now = max s.now c ∧
      (t.status n F.ndlStatusFrogCause = cause ∨ (t.status n F.ndlStatusFrogCause = 1 ∧ (t.active Ev.ucodeParity = true ∨ t.active Ev.streamUnderrun = true))) ∧
      (t.ndl n).park = some (c + 6 * vclkFs) ∧ (t.ndl n).final = some (c + 14 * vclkFs) ∧ (t.ndl n).queue = [] ∧ (t.ndl n).frogs = [] ∧
      (∀ e i, (s.ndl n).bound = some (e, i) → i < c → t.ndlState n = 8 ∧ t.status n F.ndlStatusFrogLate = 1) ∧
      ((∀ e i, (s.ndl n).bound = some (e, i) → c ≤ i) → t.ndlState n = 9 ∧
        (cause ≠ 4 → ∀ i ∈ s.sitesOf n, bit (s.ndl n).active i = true → t.fld Obj.ptfSiteResult i F.ptfSiteResultResult = 3))) := by
  have k : Kept (km_reach ||| km_frogAt ||| km_alsoUnder) s (((s.reach c).frogAt n c cause).alsoUnder (s.reach c) n c) :=
    (State.alsoUnder_kept ..).step (by decide +kernel) <| (State.frogAt_kept ..).step (by decide +kernel) <|
      (State.reach_kept ..).step (by decide +kernel) (.refl ..)
  have now : (((s.reach c).frogAt n c cause).alsoUnder (s.reach c) n c).now = max s.now c :=
    ((State.alsoUnder_kept ..).now_eq (by decide +kernel)).trans ((State.frogAt_kept ..).now_eq (by decide +kernel))
  have f : FrogStands n c cause (s.reach c) (((s.reach c).frogAt n c cause).alsoUnder (s.reach c) n c) := by
    rw [State.frogAt_busy (s := s.reach c) c cause hb]
    exact (((s.reach c).frogBody_stands n c hc).needlesEnded _).alsoUnder _
  refine hq.next_settled (by rw [exec_frogCommit, runFrogCommit_single hst hf]) k (by decide +kernel) ?_ (fun _ _ h => h)
  refine ⟨now, f.recorded, ?_, ?_, ?_, ?_, fun e i he hi => f.late ?_, fun h => f.inTime (NdlRt.boundBefore_eq_false h)⟩
  · rw [← NdlRt.standing_park, f.standing]; rfl
  · rw [← NdlRt.standing_final, f.standing]; rfl
  · rw [← NdlRt.standing_queue, f.standing]; rfl
  · rw [← NdlRt.standing_frogs, f.standing]; rfl
  · exact (NdlRt.boundBefore_of_some he).trans (decide_eq_true hi)

theorem frogCommit_idle {s : State} {n : Nat} (hq : s.Quiet) (hst : s.stagedFor Obj.ndlFrog n = none) (hf : (s.ndl n).frogs = []) :
    Next (.frogCommit n) s (fun t => t = s) :=
  ⟨s, by rw [exec_frogCommit, runFrogCommit_idle hst hf, hq.settled_self], rfl⟩

/-- Settles O41, a command at a time: seams (`seamEnd_*`), freezes (`needleFreeze_*`), resumes (`resume_*`), frogs (`frogCommit_*`) and parks (`pinPark_*`). -/
theorem needlesEndAndHold : Obligations.NeedlesEndAndHold := by
  unfold Obligations.NeedlesEndAndHold
  intro s n hq hn
  exact ⟨fun _ h => seamEnd_bindOff hq h, fun _ h => seamEnd_goesOn hq h, fun h hb => seamEnd_idle hq h hb,
    fun _ _ _ _ hf hi hs hfe hb hd => needleFreeze_due hn hf hi hs hfe hb hd, fun h => needleFreeze_idle h,
    fun _ _ hx ht hs hd => resume_runs hx ht hs hd, fun h => resume_idle h,
    fun _ _ hst hf hb hc => frogCommit_frogs hq hst hf hb hc, fun hst hf => frogCommit_idle hq hst hf,
    fun _ h he => pinPark_parks h he, fun h => pinPark_idle h⟩

end Sys2Proof.Machine
end

section
namespace Sys2Proof.Machine
-- one declaration at a time, as in the laws: each `decide +kernel` waits for the declarations before it
set_option Elab.async false

/-! ### Frames, element by element -/

theorem Keeps.refl (s : State) (els : List (Nat × Nat)) (ps : List Part) : Keeps s s els ps :=
  (Kept.refl 0 s).keeps els ps (Nat.zero_or _)

theorem Keeps.trans {s t u : State} {els : List (Nat × Nat)} {ps : List Part} (h : Keeps s t els ps) (k : Keeps t u els ps) : Keeps s u els ps where
  pending := k.pending.trans h.pending
  rd o e ho he hp := (k.rd o e ho he hp).trans (h.rd o e ho he hp)
  field p hp ho := Part.same_trans (h.field p hp ho) (k.field p hp ho)

/-- After an operation that changes only listed parts. -/
theorem Keeps.kept {m : Nat} {s t u : State} {els : List (Nat × Nat)} {ps : List Part} (h : Keeps s t els ps) (k : Kept m t u)
    (hm : m ||| maskOf ps = maskOf ps) : Keeps s u els ps where
  pending := k.pending.trans h.pending
  rd o e ho he hp := ((k.mono hm).same (.obj o) (maskOf_testBit hp) e ho).trans (h.rd o e ho he hp)
  field p hp ho := Part.same_trans (h.field p hp ho) ((k.mono hm).same p (maskOf_testBit hp))

/-- After a write to a listed element. -/
theorem Keeps.wr {s t : State} {els : List (Nat × Nat)} {ps : List Part} (h : Keeps s t els ps) {o e : Nat} (v : Nat) (ho : o < 65536)
    (he : (o, e) ∈ els) : Keeps s (t.wr o e v) els ps where
  pending := h.pending
  rd o' e' ho' he' hp :=
    (t.rd_wr_ne v ho ho' (fun ⟨eo, ee⟩ => he' (eo ▸ ee ▸ he))).trans (h.rd o' e' ho' he' hp)
  field p hp hobj := by
    have k := h.field p hp hobj
    cases p with
    | obj o' => exact absurd rfl (hobj o')
    | _ => exact k

theorem Keeps.setFld {s t : State} {els : List (Nat × Nat)} {ps : List Part} (h : Keeps s t els ps) {o e : Nat} (f : Fld) (v : Nat) (ho : o < 65536)
    (he : (o, e) ∈ els) : Keeps s (t.setFld o e f v) els ps := h.wr _ ho he

theorem Keeps.count {s t : State} {els : List (Nat × Nat)} {ps : List Part} (h : Keeps s t els ps) {o e : Nat} (f g : Fld) (n : Nat) (ho : o < 65536)
    (he : (o, e) ∈ els) : Keeps s (t.count o e f g n) els ps := by
  unfold State.count
  extract_lets x
  split
  · exact h.setFld _ _ ho he
  · exact (h.setFld _ _ ho he).setFld _ _ ho he

theorem Keeps.wrAll {s t : State} {els : List (Nat × Nat)} {ps : List Part} (h : Keeps s t els ps) {o : Nat} {l : List Nat} (v : Nat) (ho : o < 65536)
    (hl : ∀ e ∈ l, (o, e) ∈ els) : Keeps s (t.wrAll o l v) els ps := by
  induction l generalizing t with
  | nil => exact h
  | cons e l ih => exact ih (h.wr v ho (hl e List.mem_cons_self)) (fun e' he' => hl e' (List.mem_cons_of_mem _ he'))

/-- What waits for an answer plays no part in a frame that holds beside it. -/
theorem Keeps.withWaiters {s t : State} {els : List (Nat × Nat)} {ps : List Part} (h : Keeps s t els ps) (l : List Waiter) :
    Keeps { s with waiters := l } { t with waiters := l } els ps where
  pending := h.pending
  rd := h.rd
  field p hp hobj := by
    have k := h.field p hp hobj
    cases p with
    | waiters => rfl
    | _ => exact k

theorem State.wrAll_eq (s : State) (o : Nat) (l : List Nat) (v : Nat) :
    s.wrAll o l v = { s with od := l.foldl (fun t e => Tbl.put odDflt t (odKey o e) v) s.od } := by
  induction l generalizing s with
  | nil => rfl
  | cons e l ih => exact ih (s.wr o e v)

theorem State.rd_wrAll_mem (s : State) {o : Nat} {l : List Nat} (v : Nat) {e : Nat} (he : e ∈ l) : (s.wrAll o l v).rd o e = v := by
  induction l using List.reverseRecOn generalizing s with
  | nil => cases he
  | append_singleton l a ih =>
    rw [State.wrAll, List.foldl_append]
    show ((s.wrAll o l v).wr o a v).rd o e = v
    by_cases h : e = a
    · rw [h, State.rd_wr_self]
    · have hl : e ∈ l := by simpa [h] using he
      rw [State.rd, State.wr, Tbl.get_put_ne _ _ _ (by unfold odKey; omega)]
      exact ih s hl

end Sys2Proof.Machine
end

section
namespace Sys2Proof.Machine
-- one declaration at a time, as in the laws: each `decide +kernel` waits for the declarations before it
set_option Elab.async false

/-! ### A service commanded alone (R71, R76, R688) -/

/-- The parts in which something waits for its answer, and the answers that wait for it. -/
def answerParts : Nat := waitParts ||| pt.results

theorem Kept.results_eq {m : Nat} {s t : State} (h : Kept m s t) (hm : m &&& answerParts = 0) : t.results = s.results :=
  h.same .results (testBit_off_of_land hm (by decide +kernel))

theorem Kept.waiters_eq {m : Nat} {s t : State} (h : Kept m s t) (hm : m &&& answerParts = 0) : t.waiters = s.waiters :=
  h.same .waiters (testBit_off_of_land hm (by decide +kernel))

theorem Kept.jobs_eq {m : Nat} {s t : State} (h : Kept m s t) (hm : m &&& answerParts = 0) : t.jobs = s.jobs :=
  h.same .jobs (testBit_off_of_land hm (by decide +kernel))

theorem Kept.ode_eq {m : Nat} {s t : State} (h : Kept m s t) (hm : m &&& answerParts = 0) : t.ode = s.ode :=
  h.same .ode (testBit_off_of_land hm (by decide +kernel))

theorem State.touch_kept (s : State) (n : Nat) (x : Session) : Kept km_setSession s (s.touch n x) := State.setSession_kept ..

theorem State.Quiet.touch {s : State} (hq : s.Quiet) (n : Nat) (x : Session) : (s.touch n x).Quiet := ⟨hq.jobs, hq.waiters, hq.results, hq.done⟩

/-- Where nothing waited, a service that leaves what waits alone ends with its reply. -/
theorem State.Quiet.settle_emit {m : Nat} {s t : State} (hq : s.Quiet) (k : Kept m s t) (hm : m &&& answerParts = 0) (o : OutMsg) : (t.emit o).settle = t.emit o :=
  have r : t.results = [] := (k.results_eq hm).trans hq.results
  have q : t.Quiet := ⟨(k.jobs_eq hm).trans hq.jobs, (k.waiters_eq hm).trans hq.waiters, r, (congrArg OdeRt.done (k.ode_eq hm)).trans hq.done⟩
  q.settle_eq (State.emit_kept t o) (by decide +kernel) rfl

section
variable {s : State} {n svc : Nat} {f : Session → Who → State → Ans × State}

theorem State.direct_shut (h : s.session n = none ∨ ∃ x, s.session n = some x ∧ x.state ≠ 2) :
    s.direct n svc f = s.emit (.item n (replyItem svc rSeq 0xFFFF [])) := by
  rcases h with e | ⟨x, e, hx⟩
  · rw [State.direct, e]
  · rw [State.direct, e]
    exact if_pos hx

theorem State.direct_done {x : Session} {r m : Nat} {b : Bytes} {t : State} (hs : s.session n = some x) (hl : x.state = 2)
    (hf : f { x with lastRx := s.now } ⟨n, x.level, x.port⟩ (s.touch n x) = (.done r m b, t)) :
    s.direct n svc f = (t.emit (.item n (replyItem svc r m b))).settle := by
  rw [State.direct, hs]
  dsimp only
  rw [if_neg (fun k => k hl), show s.setSession n (some { x with lastRx := s.now }) = s.touch n x from rfl, hf]
  rfl

theorem State.direct_wait {x : Session} {k : Token} {d o : Nat} {t : State} (hs : s.session n = some x) (hl : x.state = 2)
    (hf : f { x with lastRx := s.now } ⟨n, x.level, x.port⟩ (s.touch n x) = (.wait k d o, t)) :
    s.direct n svc f = State.settle { t with waiters := t.waiters ++ [⟨k, n, svc, false, d, o, none⟩] } := by
  rw [State.direct, hs]
  dsimp only
  rw [if_neg (fun k => k hl), show s.setSession n (some { x with lastRx := s.now }) = s.touch n x from rfl, hf]

end

/-! #### An access that a core serves is posted (R74, R754) -/

/-- The state in which an access has been handed to its core. -/
def State.handed (s : State) (j : FwJob) : State :=
  let u := (s.enqueue 88 0 3).2
  { u with ode := { u.ode with jobs := u.ode.jobs ++ [j], next := j.id + 1 } }

theorem State.enqueue_ode (s : State) (flow prio producer : Nat) : (s.enqueue flow prio producer).2.ode = s.ode :=
  (State.enqueue_kept ..).ode_eq (by decide +kernel)

theorem State.firmware_handed {s : State} (h : (s.enqueue 88 0 3).1 = true) (read : Bool) (ix el : Nat) (els : List Nat) (v : Nat) :
    s.firmware read ix el els v = (some (.fw s.ode.next), s.handed ⟨s.ode.next, read, ix, el, els, v⟩) := by
  have ho := s.enqueue_ode 88 0 3
  unfold State.firmware State.handed
  revert h ho
  generalize s.enqueue 88 0 3 = e
  obtain ⟨c, u⟩ := e
  rintro rfl ho
  dsimp only at ho ⊢
  rw [ho]

theorem State.firmware_full {s : State} (h : (s.enqueue 88 0 3).1 = false) (read : Bool) (ix el : Nat) (els : List Nat) (v : Nat) :
    s.firmware read ix el els v = (none, (s.enqueue 88 0 3).2) := by
  unfold State.firmware
  revert h
  generalize s.enqueue 88 0 3 = e
  obtain ⟨c, u⟩ := e
  rintro rfl
  rfl

/-- The item that an enqueue now would put in the ready list. -/
def State.newItem (s : State) (flow prio producer : Nat) : Item := ⟨flow, s.flowPrio flow prio, producer, s.now⟩

theorem State.enqueue_accepted {s : State} {flow prio producer : Nat} (h : (s.enqueue flow prio producer).1 = true) :
    (s.enqueue flow prio producer).2 =
      (({ s with ready := s.ready ++ [s.newItem flow prio producer] }).wdpCount 0).trace 0 (s.newItem flow prio producer) 0 := by
  revert h
  unfold State.enqueue
  extract_lets i free t raise
  split
  · intro h; cases h
  · exact fun _ => rfl

theorem State.trace_off {s : State} (h : bit (s.rd Obj.wdpTraceCtrl 0) 0 = false) (kind : Nat) (i : Item) (core : Nat) : s.trace kind i core = s := by
  unfold State.trace
  extract_lets c
  rw [if_neg (by rw [show bit c 0 = false from h]; exact Bool.false_ne_true)]

theorem State.enqueue_out {s : State} {flow prio producer : Nat} (h : (s.enqueue flow prio producer).1 = true) (ht : bit (s.rd Obj.wdpTraceCtrl 0) 0 = false) :
    (s.enqueue flow prio producer).2.out = s.out := by
  have kc (u : State) : Kept km_wdpCount u (u.wdpCount 0) := State.wdpCount_kept ..
  rw [State.enqueue_accepted h, State.trace_off]
  · exact (kc _).same .out (by decide +kernel)
  · rw [(kc _).rd 0 (by decide) (by decide +kernel)]
    exact ht

theorem State.enqueue_ready {s : State} {flow prio producer : Nat} (h : (s.enqueue flow prio producer).1 = true) :
    (s.enqueue flow prio producer).2.ready = s.ready ++ [s.newItem flow prio producer] := by
  rw [State.enqueue_accepted h]
  exact ((State.trace_kept ..).same .ready (by decide +kernel)).trans ((State.wdpCount_kept ..).same .ready (by decide +kernel))

/-- The parts beside those of a latch that the posting of an access may change. -/
def postParts : List Part := withSignals [.ode, .waiters, .ready, .wdpFullAt, .wdpTrace, .wdpLost, .obj Obj.wdpCounts, .obj Obj.wdpTraceStatus]

theorem State.handed_keeps (s : State) (j : FwJob) (l : List Waiter) : Keeps s { s.handed j with waiters := l } [] postParts :=
  ((Keeps.refl s [] postParts).kept (State.enqueue_kept s 88 0 3) (by decide +kernel)).kept
    (Kept.set_waiters (m := pt.waiters ||| pt.ode) (by decide +kernel) (Kept.set_ode (by decide +kernel) (.refl ..))) (by decide +kernel)

/-- With nothing that could go on, the end of a service leaves the state as it is, whatever waits. -/
theorem State.settleLoop_still (k : Nat) {s : State} (hd : s.ode.done = []) (hr : s.results = []) (hj : s.jobs = []) : State.settleLoop k s = s := by
  cases k with
  | zero => rfl
  | succ k =>
    rw [State.settleLoop, hd]
    dsimp only
    rw [hr]
    dsimp only
    rw [State.nextJob_none s hj]

theorem State.handed_waits {s : State} (hq : s.Quiet) (j : FwJob) (w : Waiter) :
    State.settle { s.handed j with waiters := (s.handed j).waiters ++ [w] } = { s.handed j with waiters := [w] } := by
  have k := State.enqueue_kept s 88 0 3
  have hw : (s.handed j).waiters = [] := (k.waiters_eq (by decide +kernel)).trans hq.waiters
  have hd : (s.handed j).ode.done = [] := (congrArg OdeRt.done (s.enqueue_ode 88 0 3)).trans hq.done
  rw [hw, State.settle]
  exact State.settleLoop_still _ hd ((k.results_eq (by decide +kernel)).trans hq.results) ((k.jobs_eq (by decide +kernel)).trans hq.jobs)

/-- R74, R76: the access of session n is with its core, and its request waits. -/
theorem State.handed_posted {s : State} {n svc : Nat} {x : Session} {j : FwJob}
    (room : ((s.touch n x).enqueue 88 0 3).1 = true) :
    Posted s n x svc j { (s.touch n x).handed j with waiters := [⟨.fw j.id, n, svc, false, 0, 0, none⟩] } where
  jobs := congrArg (fun o : OdeRt => o.jobs ++ [j]) ((s.touch n x).enqueue_ode 88 0 3)
  waiters := rfl
  out ht := State.enqueue_out room ht
  ready := State.enqueue_ready room
  kept := ((Keeps.refl s [] postParts).kept (s.touch_kept n x) (by decide +kernel)).trans ((s.touch n x).handed_keeps j _)

/-- An access in an open session that goes to a core with room in its list is posted. -/
theorem State.direct_posted {s : State} {n svc : Nat} {x : Session} {f : Session → Who → State → Ans × State} {j : FwJob} (hq : s.Quiet)
    (hs : s.session n = some x) (hl : x.state = 2) (room : ((s.touch n x).enqueue 88 0 3).1 = true)
    (hf : f { x with lastRx := s.now } ⟨n, x.level, x.port⟩ (s.touch n x) = (.wait (.fw j.id) 0 0, (s.touch n x).handed j)) :
    Posted s n x svc j (s.direct n svc f) := by
  rw [State.direct_wait hs hl hf, State.handed_waits (hq.touch n x)]
  exact State.handed_posted room

/-! #### The item completes, the access is carried out (R76) -/

/-- A result reaches the one request that waits, commanded alone. -/
theorem State.deliverResult_alone {s : State} {w : Waiter} (hw : s.waiters = [w]) (ha : w.inFrame = false) (hm : w.mcast = none) (reason : Nat) (b : Bytes) :
    s.deliverResult w.token reason b = ({ s with waiters := [] }).emit (.item w.session (w.reply reason b)) := by
  have hf : s.waiters.find? (fun v => v.token == w.token) = some w := by rw [hw]; simp
  have he : s.waiters.erase w = [] := by rw [hw]; simp
  rw [State.deliverResult, hf]
  dsimp only
  rw [hm, ha, he]
  rfl

/-- An access whose carrying out leaves t and a result, and nothing else that waits, ends with the reply to its request. -/
theorem State.Awaits.finish_eq {u t : State} {w : Waiter} {j : FwJob} {m reason : Nat} {b : Bytes} (h : u.Awaits w) (hw : w.token = .fw j.id)
    (hr : u.fwRun j = t.result (.fw j.id) reason b) (k : Kept m u t) (hm : m &&& answerParts = 0) :
    u.finish j = ({ t with waiters := [] }).emit (.item w.session (w.reply reason b)) := by
  have hd : t.ode.done = [] := (congrArg OdeRt.done (k.ode_eq hm)).trans h.done
  have hres : t.results = [] := (k.results_eq hm).trans h.results
  have hj : t.jobs = [] := (k.jobs_eq hm).trans h.jobs
  have hwt : t.waiters = [w] := (k.waiters_eq hm).trans h.waiters
  have e : t.result (.fw j.id) reason b = { t with results := [(w.token, reason, b)] } := by rw [State.result, hres, hw]; rfl
  rw [State.finish, hr, e, show (19999 : Nat) = 19998 + 1 from rfl, State.settleLoop, hd]
  dsimp only
  rw [State.deliverResult_alone (s := { t with results := [] }) (by exact hwt) h.alone h.single, State.settleLoop_still]
  · rw [← hres]
  · exact hd
  · rfl
  · exact hj

end Sys2Proof.Machine
end

section
namespace Sys2Proof.Machine
-- one declaration at a time, as in the laws: each `decide +kernel` waits for the declarations before it
set_option Elab.async false

/-! ### An accepted write takes effect (R56, R71, R76) -/

theorem exec_write (n ix el : Nat) (b : Bytes) (s : State) : exec (.write n ix el b) s = .next (s.hostWrite n ix el b) := rfl

theorem Accepts.posted {s : State} {n : Nat} {x : Session} {r : ObjRow} {ix el : Nat} {b : Bytes} {els : List Nat} (h : Accepts s n x r ix el b els)
    (hs : (s.touch n x).fwServed r = true) : Posted s n x 0x02 ⟨s.ode.next, false, ix, el, els, ofLE b⟩ (s.hostWrite n ix el b) := by
  refine State.direct_posted h.quiet h.sess h.level (h.room hs) ?_
  have ho : ((s.touch n x).enqueue 88 0 3).2.ode.next = s.ode.next := congrArg OdeRt.next (State.enqueue_ode ..)
  refine (State.writeItem_posted h hs).trans ?_
  dsimp only
  rw [ho]
  rfl

/-- In every state a write of v to the members commits as c does, is answered OK, and touches nothing that waits for an answer or answers it. -/
structure CommitsTo (r : ObjRow) (ix el v : Nat) (els : List Nat) (c : State → State) (m : Nat) : Prop where
  commit : ∀ u : State, u.commitCommand r ix el v els = (.of rOk, c u)
  kept : ∀ u, Kept m u (c u)
  apart : m &&& answerParts = 0
  waiters : ∀ u : State, c { u with waiters := [] } = { c u with waiters := [] }

/-- An accepted write that commits in one way in every state, and is answered OK, takes effect in this way. -/
theorem Accepts.effect {i : Instr} {s : State} {n : Nat} {x : Session} {r : ObjRow} {ix el : Nat} {b : Bytes} {els : List Nat} {c : State → State} {m : Nat}
    {p : State → State → Prop} (h : Accepts s n x r ix el b els) (hi : exec i s = .next (s.hostWrite n ix el b))
    (hc : CommitsTo r ix el (ofLE b) els c m) (hp : ∀ u, p u ((c u).emit (wrote n rOk 0xFFFF))) : Effect i s n x r ix el b els p where
  direct hs := by
    refine ⟨_, hi.trans (congrArg _ ?_), hp (s.touch n x)⟩
    rw [State.hostWrite_direct h hs (hc.commit _), (h.quiet.touch n x).settle_emit (hc.kept _) hc.apart]
  posted hs := ⟨_, hi, h.posted hs⟩
  later hs u k hu := by
    have hr : u.fwRun ⟨k, false, ix, el, els, ofLE b⟩ = (c u).result (.fw k) rOk [] := by
      rw [State.fwRun, if_neg Bool.false_ne_true]
      dsimp only
      rw [h.row]
      dsimp only
      rw [hc.commit]
      rfl
    rw [hu.finish_eq (j := ⟨k, false, ix, el, els, ofLE b⟩) rfl hr (hc.kept u) hc.apart, ← hc.waiters]
    exact hp { u with waiters := [] }

/-- R849: any value but a command object's 0 is committed. -/
theorem State.commitCommand_eq {s : State} {r : ObjRow} {v : Nat} (h : r.ty = .command → v ≠ 0) (ix el : Nat) (els : List Nat) :
    s.commitCommand r ix el v els = s.commitWrite ix el v els := by
  refine if_neg (fun hc => ?_)
  obtain ⟨ht, hv⟩ := Bool.and_eq_true_iff.1 hc
  exact h (eq_of_beq ht) (eq_of_beq hv)

/-- R47: an object's index has 16 bits. -/
theorem objRow_lt {ix : Nat} {r : ObjRow} (h : objRow ix = some r) : ix < 65536 := by
  by_contra hge
  have hp : objPage (ix / 256) = [] := by
    unfold objPage
    split
    case h_32 => rfl
    all_goals omega
  rw [objRow, hp] at h
  cases h

/-! #### A value is stored and nothing else happens (R53, R56) -/

/-- The objects whose stored write acts beside the store. -/
abbrev actingObjs : List Nat := [Obj.devStore, Obj.devFactoryRestore, Obj.secSessionClose, Obj.clkStartAt, Obj.clkCancelStart, Obj.ptpCfg, Obj.ptpServoCfg,
  Obj.ptpNtSet, Obj.ptpNtAdj, Obj.cslAlign, Obj.cslLaneTest, Obj.botRollbackCommit, Obj.botKeyRevoke, Obj.splEnable, Obj.adcSyscal, Obj.adcOwTest,
  Obj.wdpStatsClear, Obj.fcrClear, Obj.fcrFirstClear, Obj.fcrInject, Obj.dmpClear, Obj.dmpSummaryClear, Obj.ndlChartDelete, Obj.ptfWaveDelete, Obj.strFlush,
  Obj.lvlHostCmd, Obj.rqpFlush, Obj.taeArm, Obj.taeForce, Obj.tmuCtrl, Obj.tmuXtalAgeing, Obj.calCtrl, Obj.plcMigrate, Obj.rasCommit,
  Obj.rasBufferRelease, Obj.wdpTraceCtrl, Obj.ptfPinCfg]

theorem State.effects_none {ix : Nat} (hu : unstored ix = false) (ha : ix ∉ actingObjs) (s : State) (m v : Nat) :
    (s.effectSys ix m v).effectTest ix m v = s := by
  simp only [unstored, Bool.or_eq_false_iff, List.contains_eq_mem, decide_eq_false_iff_not, List.mem_cons, List.not_mem_nil, or_false, not_or] at hu
  simp only [List.mem_cons, List.not_mem_nil, or_false, not_or] at ha
  simp only [State.effectSys, State.effectTest, hu, ha, or_self, if_false]

/-- R53, R56: the objects whose write is stored in every member and then acts member by member. -/
def actsByMember (ix : Nat) : Bool := !unstored ix && !isStaged ix && !([Obj.ptfPinCfg, Obj.fcrClear, Obj.wdpTraceCtrl].contains ix)

theorem State.commitWrite_byMember {ix : Nat} (h : actsByMember ix = true) (s : State) (el v : Nat) (els : List Nat) :
    s.commitWrite ix el v els = (.of rOk, els.foldl (fun s m => (s.effectSys ix m v).effectTest ix m v) (s.wrAll ix els v)) := by
  simp only [actsByMember, Bool.and_eq_true, Bool.not_eq_true', List.contains_eq_mem, decide_eq_false_iff_not, List.mem_cons, List.not_mem_nil, or_false,
    not_or] at h
  obtain ⟨⟨hu, hs⟩, hp, hf, ht⟩ := h
  have hserv : isService ix = false := (Bool.or_eq_false_iff.1 hu).2
  have hreq : ix ≠ Obj.devModeReq := by rintro rfl; cases hu
  simp only [State.commitWrite, hp, hf, ht, hreq, hu, hs, hserv, false_and, if_false, Bool.false_eq_true]

theorem State.commitWrite_stored {ix : Nat} (hu : unstored ix = false) (hs : isStaged ix = false) (ha : ix ∉ actingObjs) (s : State) (el v : Nat) (els : List Nat) :
    s.commitWrite ix el v els = (.of rOk, s.wrAll ix els v) := by
  have hne {o : Nat} (ho : o ∈ actingObjs) : ix ≠ o := fun e => ha (e ▸ ho)
  have hfold (t : State) : els.foldl (fun s _ => s) t = t := by
    induction els with
    | nil => rfl
    | cons _ _ ih => exact ih
  rw [State.commitWrite_byMember]
  · simp only [State.effects_none hu ha, hfold]
  · simp only [actsByMember, hu, hs, List.contains_eq_mem, List.mem_cons, List.not_mem_nil, hne (o := Obj.ptfPinCfg) (by decide),
      hne (o := Obj.fcrClear) (by decide), hne (o := Obj.wdpTraceCtrl) (by decide), or_self, decide_false, Bool.not_false, Bool.and_self]

/-- An object is none of the parts that are numbered below it. -/
theorem ob_land_low {m : Nat} (h : m < 2 ^ 64) (o : Nat) : ob o &&& m = 0 := by
  refine Nat.eq_of_testBit_eq fun i => ?_
  rw [Nat.testBit_and, Nat.testBit_two_pow, Nat.zero_testBit, Bool.and_eq_false_iff]
  refine (em (o + 64 = i)).elim (fun e => .inr ?_) (fun e => .inl (decide_eq_false e))
  exact Nat.testBit_lt_two_pow (h.trans_le (Nat.pow_le_pow_right (by decide) (by omega)))

/-- A plain write: its value is stored in every member. -/
theorem commitsTo_stored {ix el v : Nat} {r : ObjRow} {els : List Nat} (hr : objRow ix = some r) (hu : unstored ix = false) (hs : isStaged ix = false)
    (ha : ix ∉ actingObjs) (hv : r.ty = .command → v ≠ 0) : CommitsTo r ix el v els (fun u => u.wrAll ix els v) (ob ix) where
  commit u := (State.commitCommand_eq hv ix el els).trans (State.commitWrite_stored hu hs ha u el v els)
  kept u := by
    have k := u.wrAll_kept ix els v
    rwa [Nat.mod_eq_of_lt (objRow_lt hr)] at k
  apart := ob_land_low (by decide +kernel) ix
  waiters u := by rw [State.wrAll_eq, State.wrAll_eq]

/-- R56, R688: after a write that stores its value in every member and is answered OK. -/
theorem State.wrAll_wrote (u : State) {n ix v : Nat} {els : List Nat} (hix : ix < 65536) :
    (∀ m ∈ els, ((u.wrAll ix els v).emit (wrote n rOk 0xFFFF)).rd ix m = v) ∧
    ((u.wrAll ix els v).emit (wrote n rOk 0xFFFF)).out = u.out ++ [wrote n rOk 0xFFFF] ∧
    Keeps u ((u.wrAll ix els v).emit (wrote n rOk 0xFFFF)) (els.map (fun m => (ix, m))) [.out] := by
  refine ⟨fun m hm => u.rd_wrAll_mem v hm, ?_, ?_⟩
  · rw [State.wrAll_eq]; rfl
  · exact ((Keeps.refl u _ _).wrAll v hix (fun e he => List.mem_map_of_mem he)).kept (State.emit_kept ..) (by decide +kernel)

theorem Accepts.stored {s : State} {n : Nat} {x : Session} {r : ObjRow} {ix el : Nat} {b : Bytes} {els : List Nat} (h : Accepts s n x r ix el b els)
    (hu : unstored ix = false) (hs : isStaged ix = false) (ha : ix ∉ actingObjs) (hv : r.ty = .command → ofLE b ≠ 0) :
    Effect (.write n ix el b) s n x r ix el b els (fun b' t => (∀ m ∈ els, t.rd ix m = ofLE b) ∧ t.out = b'.out ++ [wrote n rOk 0xFFFF] ∧
      Keeps b' t (els.map (fun m => (ix, m))) [.out]) :=
  h.effect (exec_write ..) (commitsTo_stored h.row hu hs ha hv) (fun u => u.wrAll_wrote (objRow_lt h.row))

/-! #### Refusals (R55, R71) -/

theorem State.writeItem_unchecked {w : State} {who : Who} {ix el c : Nat} {b : Bytes} {els : List Nat} (h : w.writeCheck who.level ix el b = (c, els))
    (hc : c ≠ rOk) : w.writeItem who ix el b = (.done c (memberOf el els) [], w) := by
  unfold State.writeItem
  rw [h]
  obtain ⟨k, rfl⟩ := Nat.exists_eq_succ_of_ne_zero hc
  rfl

/-- The lowest-numbered member that refuses decides the reason. -/
theorem State.writeItem_member {w : State} {who : Who} {r : ObjRow} {ix el m : Nat} {b : Bytes} {pre post : List Nat} (hr : objRow ix = some r)
    (h : w.writeCheck who.level ix el b = (rOk, pre ++ m :: post)) (hpre : ∀ k ∈ pre, w.memberReason who r (pre ++ m :: post) (ofLE b) k = rOk)
    (hm : w.memberReason who r (pre ++ m :: post) (ofLE b) m ≠ rOk) :
    w.writeItem who ix el b = (.done (w.memberReason who r (pre ++ m :: post) (ofLE b) m) (if isGroup el then m else 0xFFFF) [], w) := by
  have hf : (pre ++ m :: post).find? (fun k => w.memberReason who r (pre ++ m :: post) (ofLE b) k != 0) = some m := by
    rw [List.find?_append, List.find?_eq_none.2 (fun k hk => by rw [hpre k hk]; decide), Option.none_or]
    exact List.find?_cons_of_pos (bne_iff_ne.2 hm)
  unfold State.writeItem
  rw [h]
  simp only [rOk, hr, hf]

theorem State.readItem_unchecked {w : State} {who : Who} {ix el c : Nat} {els : List Nat} (h : w.readCheck who.level ix el = (c, els)) (hc : c ≠ rOk) :
    w.readItem who ix el = (.of c, w) := by
  unfold State.readItem
  rw [h]
  obtain ⟨k, rfl⟩ := Nat.exists_eq_succ_of_ne_zero hc
  rfl

/-- An item that is answered at once and changes nothing but the reply. -/
theorem State.Opened.direct_answer {s : State} {n svc r m : Nat} {x : Session} {b : Bytes} {f : Session → Who → State → Ans × State} (h : s.Opened n x)
    (hf : f { x with lastRx := s.now } ⟨n, x.level, x.port⟩ (s.touch n x) = (.done r m b, s.touch n x)) :
    (s.direct n svc f).out = s.out ++ [.item n (replyItem svc r m b)] ∧ Keeps s (s.direct n svc f) [] [.poa, .out] := by
  rw [State.direct_done h.sess h.level hf, (h.quiet.touch n x).settle_emit (.refl 0 _) (Nat.zero_and _)]
  exact ⟨rfl, ((Keeps.refl s [] _).kept (s.touch_kept n x) (by decide +kernel)).kept (State.emit_kept ..) (by decide +kernel)⟩

/-! ### Reads (R61, R62, R76) -/

theorem exec_read (n ix el : Nat) (s : State) : exec (.read n ix el) s = .next (s.direct n 0x01 (fun _ w s => s.readItem w ix el)) := rfl

theorem State.readItem_direct {w : State} {who : Who} {r : ObjRow} {ix el : Nat} {els : List Nat} (hr : objRow ix = some r)
    (h : w.readCheck who.level ix el = (rOk, els)) (hs : w.fwServed r = false) :
    w.readItem who ix el = (.done (w.readNow ix els).1 0xFFFF (w.readNow ix els).2.1, (w.readNow ix els).2.2) := by
  unfold State.readItem
  rw [h]
  simp [rOk, hr, hs]

theorem State.readItem_handed {w : State} {who : Who} {r : ObjRow} {ix el : Nat} {els : List Nat} (hr : objRow ix = some r)
    (h : w.readCheck who.level ix el = (rOk, els)) (hs : w.fwServed r = true) (room : (w.enqueue 88 0 3).1 = true) :
    w.readItem who ix el = (.wait (.fw w.ode.next) 0 0, w.handed ⟨w.ode.next, true, ix, el, els, 0⟩) := by
  unfold State.readItem
  rw [h]
  simp [rOk, hr, hs, State.firmware_handed room]

theorem State.readItem_full {w : State} {who : Who} {r : ObjRow} {ix el : Nat} {els : List Nat} (hr : objRow ix = some r)
    (h : w.readCheck who.level ix el = (rOk, els)) (hs : w.fwServed r = true) (room : (w.enqueue 88 0 3).1 = false) :
    w.readItem who ix el = (.of rBusy, (w.enqueue 88 0 3).2) := by
  unfold State.readItem
  rw [h]
  simp [rOk, hr, hs, State.firmware_full room]

/-- R61: the members read the same. -/
theorem State.readNow_same {s : State} {ix e0 : Nat} {rest : List Nat} (h : ∀ e ∈ rest, s.readBytes ix e = s.readBytes ix e0) :
    s.readNow ix (e0 :: rest) = (rOk, toBE 2 (s.readBytes ix e0).length ++ [0#8, 0#8] ++ s.readBytes ix e0, s.readDone ix) := by
  have ha : rest.all (fun e => s.readBytes ix e == s.readBytes ix e0) = true := List.all_eq_true.2 (fun e he => beq_iff_eq.2 (h e he))
  unfold State.readNow State.sample
  simp only [ha, if_true]

/-- R61: two members differ. -/
theorem State.readNow_mixed {s : State} {ix e0 : Nat} {rest : List Nat} (h : ∃ e ∈ rest, s.readBytes ix e ≠ s.readBytes ix e0) :
    s.readNow ix (e0 :: rest) = (rMixed, [], s.readDone ix) := by
  have ha : rest.all (fun e => s.readBytes ix e == s.readBytes ix e0) = false := by
    obtain ⟨e, he, hne⟩ := h
    exact List.all_eq_false.2 ⟨e, he, fun k => hne (beq_iff_eq.1 k)⟩
  unfold State.readNow State.sample
  simp only [ha, Bool.false_eq_true, if_false]

theorem State.readNow_snd (s : State) (ix : Nat) (els : List Nat) : (s.readNow ix els).2.2 = s.readDone ix := by
  unfold State.readNow
  split <;> rfl

/-! #### What waits plays no part in a read -/

theorem State.reached_withWaiters (s : State) (l : List Waiter) (k : Nat) (a b : List Nat) :
    ({ s with waiters := l }).reached k a b = s.reached k a b := by
  induction k generalizing a b with
  | zero => cases a <;> rfl
  | succ k ih =>
    cases a with
    | nil => rfl
    | cons h t =>
      simp only [State.reached, ih]
      rfl

theorem State.chartUsers_withWaiters (s : State) (l : List Waiter) (h : Nat) : ({ s with waiters := l }).chartUsers h = s.chartUsers h := by
  simp only [State.chartUsers, State.needleCharts, State.reached_withWaiters]
  rfl

theorem State.readBytes_withWaiters (s : State) (l : List Waiter) (ix el : Nat) : ({ s with waiters := l }).readBytes ix el = s.readBytes ix el := by
  have hv : ({ s with waiters := l }).valueOf ix el = s.valueOf ix el := by
    unfold State.valueOf
    rw [State.chartUsers_withWaiters]
    rfl
  unfold State.readBytes
  rw [hv]

theorem State.readDone_withWaiters (s : State) (l : List Waiter) (ix : Nat) : ({ s with waiters := l }).readDone ix = { s.readDone ix with waiters := l } := by
  have hf : ({ s with waiters := l } : State).readFree ix = s.readFree ix := rfl
  unfold State.readDone
  rw [hf]
  split <;> rfl

theorem State.readNow_withWaiters (s : State) (l : List Waiter) (ix : Nat) (els : List Nat) :
    (({ s with waiters := l }).readNow ix els).1 = (s.readNow ix els).1 ∧ (({ s with waiters := l }).readNow ix els).2.1 = (s.readNow ix els).2.1 := by
  have hs : ({ s with waiters := l }).sample ix els = s.sample ix els := by
    cases els with
    | nil => rfl
    | cons e t => simp only [State.sample, State.readBytes_withWaiters]
  unfold State.readNow
  rw [hs]
  constructor <;> split <;> rfl

/-! #### A read is answered -/

/-- R61: t is b after a read for session n of the members e0 and rest of an object: OK with the value that every member reads, else E_MIXED. -/
def ReadAnswered (n ix e0 : Nat) (rest : List Nat) (b t : State) : Prop :=
  ((∀ e ∈ rest, b.readBytes ix e = b.readBytes ix e0) →
    t.out = b.out ++ [.item n (replyItem 0x01 rOk 0xFFFF (toBE 2 (b.readBytes ix e0).length ++ [0#8, 0#8] ++ b.readBytes ix e0))]) ∧
  ((∃ e ∈ rest, b.readBytes ix e ≠ b.readBytes ix e0) → t.out = b.out ++ [.item n (replyItem 0x01 rMixed 0xFFFF [])]) ∧ Keeps b t [] [.out, .freeCtr]

/-- The reply item of a read carried out in a state. -/
def State.readReply (b : State) (n ix : Nat) (els : List Nat) : OutMsg :=
  .item n (replyItem 0x01 (b.readNow ix els).1 0xFFFF (b.readNow ix els).2.1)

theorem State.readDone_answered (b : State) (n ix e0 : Nat) (rest : List Nat) :
    ReadAnswered n ix e0 rest b ((b.readDone ix).emit (b.readReply n ix (e0 :: rest))) := by
  have ho : ((b.readDone ix).emit (b.readReply n ix (e0 :: rest))).out = b.out ++ [b.readReply n ix (e0 :: rest)] :=
    congrArg (· ++ [b.readReply n ix (e0 :: rest)]) ((State.readDone_kept b ix).same .out (by decide +kernel))
  refine ⟨fun h => ?_, fun h => ?_, ?_⟩
  · rw [ho, State.readReply, State.readNow_same h]
  · rw [ho, State.readReply, State.readNow_mixed h]
  · exact ((Keeps.refl b [] _).kept (State.readDone_kept b ix) (by decide +kernel)).kept (State.emit_kept ..) (by decide +kernel)

section
variable {s : State} {n ix el e0 : Nat} {rest : List Nat} {x : Session} {r : ObjRow}

theorem State.Opened.read_direct (h : s.Opened n x) (hr : objRow ix = some r) (hc : (s.touch n x).readCheck x.level ix el = (rOk, e0 :: rest))
    (hs : (s.touch n x).fwServed r = false) : Next (.read n ix el) s (ReadAnswered n ix e0 rest (s.touch n x)) := by
  have hi := State.readItem_direct (who := ⟨n, x.level, x.port⟩) hr hc hs
  rw [State.readNow_snd] at hi
  refine ⟨_, exec_read .., ?_⟩
  rw [State.direct_done h.sess h.level hi, (h.quiet.touch n x).settle_emit (State.readDone_kept ..) (by decide +kernel)]
  exact State.readDone_answered ..

theorem State.Opened.read_posted (h : s.Opened n x) (hr : objRow ix = some r) (hc : (s.touch n x).readCheck x.level ix el = (rOk, e0 :: rest))
    (hs : (s.touch n x).fwServed r = true) (room : ((s.touch n x).enqueue 88 0 3).1 = true) :
    Next (.read n ix el) s (Posted s n x 0x01 ⟨s.ode.next, true, ix, el, e0 :: rest, 0⟩) :=
  ⟨_, exec_read .., State.direct_posted h.quiet h.sess h.level room (State.readItem_handed (who := ⟨n, x.level, x.port⟩) hr hc hs room)⟩

theorem State.Opened.read_full (h : s.Opened n x) (hr : objRow ix = some r) (hc : (s.touch n x).readCheck x.level ix el = (rOk, e0 :: rest))
    (hs : (s.touch n x).fwServed r = true) (room : ((s.touch n x).enqueue 88 0 3).1 = false) :
    Next (.read n ix el) s (fun t => t.out.getLast? = some (.item n (replyItem 0x01 rBusy 0xFFFF [])) ∧ t.waiters = []) := by
  have k := State.enqueue_kept (s.touch n x) 88 0 3
  have hw : ((s.touch n x).enqueue 88 0 3).2.waiters = [] := (k.waiters_eq (by decide +kernel)).trans h.quiet.waiters
  refine ⟨_, exec_read .., ?_⟩
  rw [State.direct_done h.sess h.level (State.readItem_full (who := ⟨n, x.level, x.port⟩) hr hc hs room),
    (h.quiet.touch n x).settle_emit k (by decide +kernel)]
  exact ⟨List.getLast?_concat, hw⟩

end

/-- R76: the read is carried out when its item completes, in the state that it finds then. -/
theorem State.Awaits.read_finish {u : State} {n k ix el e0 : Nat} {rest : List Nat} (h : u.Awaits ⟨.fw k, n, 0x01, false, 0, 0, none⟩) :
    ReadAnswered n ix e0 rest { u with waiters := [] } (u.finish ⟨k, true, ix, el, e0 :: rest, 0⟩) := by
  have hr : u.fwRun ⟨k, true, ix, el, e0 :: rest, 0⟩ =
      (u.readDone ix).result (.fw k) (u.readNow ix (e0 :: rest)).1 (u.readNow ix (e0 :: rest)).2.1 := by
    rw [← State.readNow_snd u ix (e0 :: rest)]
    rfl
  have a := State.readDone_answered { u with waiters := [] } n ix e0 rest
  obtain ⟨h1, h2⟩ := u.readNow_withWaiters [] ix (e0 :: rest)
  rw [State.readReply, h1, h2, State.readDone_withWaiters] at a
  rw [h.finish_eq (j := ⟨k, true, ix, el, e0 :: rest, 0⟩) rfl hr (State.readDone_kept u ix) (by decide +kernel)]
  exact a

/-- Settles O20: refusals, reads and plain writes, each in an open session, and both services where the session is not open. -/
theorem readsAndWritesAreAnswered : Obligations.ReadsAndWritesAreAnswered := by
  unfold Obligations.ReadsAndWritesAreAnswered
  intro s n ix el
  refine ⟨fun v hs => ⟨⟨_, exec_read .., ?_⟩, ⟨_, exec_write .., ?_⟩⟩, fun x h => ⟨?_, ?_, ?_, ?_, ?_⟩⟩
  · rw [State.direct_shut hs]
    exact ⟨rfl, (Keeps.refl s [] _).kept (State.emit_kept ..) (by decide +kernel)⟩
  · rw [State.hostWrite, State.direct_shut hs]
    exact ⟨rfl, (Keeps.refl s [] _).kept (State.emit_kept ..) (by decide +kernel)⟩
  · exact fun c els hc hk => ⟨_, exec_read .., h.direct_answer (State.readItem_unchecked (who := ⟨n, x.level, x.port⟩) hk hc)⟩
  · exact fun r e0 rest hr hk => ⟨h.read_direct hr hk, h.read_posted hr hk, h.read_full hr hk, fun u k hu => hu.read_finish⟩
  · exact fun v c els hc hk => ⟨_, exec_write .., h.direct_answer (State.writeItem_unchecked (who := ⟨n, x.level, x.port⟩) hk hc)⟩
  · rintro r v pre post m c hr hk why hpre rfl hc
    exact ⟨_, exec_write .., h.direct_answer (State.writeItem_member (who := ⟨n, x.level, x.port⟩) hr hk hpre hc)⟩
  · exact fun r v els ha hu hs hx hv => ha.stored hu hs hx hv

end Sys2Proof.Machine
end

section
namespace Sys2Proof.Machine
-- one declaration at a time, as in the laws: each `decide +kernel` waits for the declarations before it
set_option Elab.async false

/-! ### Writes of a number (R7, R67) -/

theorem State.hostPut_eq {ix : Nat} {r : ObjRow} (hr : objRow ix = some r) (s : State) (n el v : Nat) :
    s.hostPut n ix el v = s.hostWrite n ix el (toLE ((tyLen r.ty).getD 0) v) := by
  rw [State.hostPut, hr]
  rfl

/-- An accepted write of a number that commits in one way in every state, and is answered OK, takes effect in this way. -/
theorem Takes.of_commits {i : Instr} {s : State} {n : Nat} {x : Session} {r : ObjRow} {ix el v : Nat} {els : List Nat} {c : State → State} {m : Nat}
    {p : State → State → Prop} (hi : exec i s = .next (s.hostPut n ix el v)) (hc : objRow ix = some r → CommitsTo r ix el v els c m)
    (hp : ∀ u, p u ((c u).emit (wrote n rOk 0xFFFF))) : Takes i s n x r ix el v els p := by
  intro hv ha
  have hb : ofLE (toLE ((tyLen r.ty).getD 0) v) = v := (ofLE_toLE ..).trans (Nat.mod_eq_of_lt hv)
  exact ha.effect (by rw [hi, State.hostPut_eq ha.row]) (hb.symm ▸ hc ha.row) hp

/-! ### Staged writes (R57) -/

/-- The objects of R57. -/
abbrev stagedObjs : List Nat := [Obj.ndlStart, Obj.ndlFrog, Obj.ndlHostEvent, Obj.ndlJump, Obj.ptfMeasDrive]

/-- What the commit of a staged write does (R57). -/
def State.staging (u : State) (o el v : Nat) (els : List Nat) : State := (u.wrAll o els v).stage o el (ofMembers els) v

theorem mem_of_isStaged {o : Nat} (h : isStaged o = true) : o ∈ stagedObjs :=
  List.contains_iff_mem.1 h

theorem State.commitWrite_staged {o : Nat} (h : isStaged o = true) (s : State) (el v : Nat) (els : List Nat) :
    s.commitWrite o el v els = (.of rOk, s.staging o el v els) := by
  have hall : ∀ k ∈ stagedObjs,
      k ≠ Obj.ptfPinCfg ∧ unstored k = false ∧ k ≠ Obj.devModeReq ∧ k ≠ Obj.fcrClear := by decide +kernel
  obtain ⟨hp, hu, hreq, hf⟩ := hall o (mem_of_isStaged h)
  simp only [State.commitWrite, hp, hu, hreq, hf, h, false_and, if_false, if_true, Bool.false_eq_true]
  rfl

theorem commitsTo_staged {r : ObjRow} {o el v : Nat} {els : List Nat} (ho : isStaged o = true) (hv : r.ty = .command → v ≠ 0) :
    CommitsTo r o el v els (fun u => u.staging o el v els) (ob o ||| km_stage) where
  commit u := (State.commitCommand_eq hv o el els).trans (State.commitWrite_staged ho u el v els)
  kept u := by
    have hall : ∀ k ∈ stagedObjs, ob (k % 65536) ||| (ob k ||| km_stage) = ob k ||| km_stage ∧ km_stage ||| (ob k ||| km_stage) = ob k ||| km_stage := by decide +kernel
    obtain ⟨hw, hs⟩ := hall o (mem_of_isStaged ho)
    exact (State.stage_kept ..).step hs ((u.wrAll_kept o els v).mono hw)
  apart := by
    have hall : ∀ k ∈ stagedObjs, (ob k ||| km_stage) &&& answerParts = 0 := by decide +kernel
    exact hall o (mem_of_isStaged ho)
  waiters u := by rw [State.staging, State.staging, State.wrAll_eq, State.wrAll_eq]; rfl

/-- R57: an accepted write of a staged object is stored and waits for its apply edge. -/
theorem takes_staged {i : Instr} {s : State} {n el o v : Nat} {x : Session} {r : ObjRow} {els : List Nat} (ho : isStaged o = true)
    (hv : objRow o = some r → r.ty = .command → v ≠ 0) (hi : exec i s = .next (s.hostPut n o el v)) :
    Takes i s n x r o el v els (fun b t =>
      t.staged = b.staged ++ [⟨o, el, ofMembers els, v, b.edgeAt vclkFs (b.now + 16 * vclkFs)⟩] ∧ (∀ m ∈ els, t.rd o m = v) ∧
      t.out = b.out ++ [wrote n rOk 0xFFFF] ∧ Keeps b t (els.map (fun m => (o, m))) [.staged, .out]) := by
  refine Takes.of_commits hi (fun hr => commitsTo_staged ho (hv hr)) (fun u => ⟨?_, fun m hm => ?_, ?_, ?_⟩)
  · rw [State.staging, State.wrAll_eq]; rfl
  · exact u.rd_wrAll_mem v hm
  · rw [State.staging, State.wrAll_eq]; rfl
  · have hlt : ∀ k ∈ stagedObjs, k < 65536 := by decide
    exact (((Keeps.refl u _ _).wrAll v (hlt o (mem_of_isStaged ho)) (fun e he => List.mem_map_of_mem he)).kept (State.stage_kept ..) (by decide +kernel)).kept
      (State.emit_kept ..) (by decide +kernel)

/-- A row of an object that is no command object (R849). -/
theorem ty_ne_command {ix : Nat} {r : ObjRow} (hr : objRow ix = some r) (h : (objRow ix).map (·.ty) ≠ some .command) : r.ty ≠ .command := by
  rw [hr] at h
  exact fun e => h (congrArg some e)

/-- Settles O37: each of the five objects is staged (`takes_staged`); the three that carry a value are no command objects, so 0 is staged too (R849). -/
theorem writesAreStaged : Obligations.WritesAreStaged := by
  unfold Obligations.WritesAreStaged
  intro s n el v x r els
  exact ⟨takes_staged (by decide) (fun _ _ => by decide) rfl, takes_staged (by decide) (fun _ _ => by decide) rfl,
    takes_staged (by decide) (fun hr hc => absurd hc (ty_ne_command hr (by decide +kernel))) rfl,
    takes_staged (by decide) (fun hr hc => absurd hc (ty_ne_command hr (by decide +kernel))) rfl,
    takes_staged (by decide) (fun hr hc => absurd hc (ty_ne_command hr (by decide +kernel))) rfl⟩

/-! ### The persistent store (R79 to R84, R850) -/

theorem Tbl.find_filter {α : Type} (t : Tbl α) {p : Nat × α → Bool} {k : Nat} (h : ∀ a, p (k, a) = true) : Tbl.find (t.filter p) k = Tbl.find t k := by
  induction t with
  | nil => rfl
  | cons q t ih =>
    obtain ⟨j, a⟩ := q
    by_cases hj : j = k
    · subst hj
      rw [List.filter_cons_of_pos (h a)]
      simp only [Tbl.find, if_true]
    · by_cases hp : p (j, a) = true
      · rw [List.filter_cons_of_pos hp]
        simp only [Tbl.find, hj, if_false, ih]
      · rw [List.filter_cons_of_neg hp, ih]
        simp only [Tbl.find, hj, if_false]

/-- R81: the copy of a SAVE holds every P object's value. -/
theorem State.snapshot_get (s : State) {o : Nat} (ho : o < 65536) (hp : objP o = true) (e : Nat) : Tbl.get odDflt s.snapshot.vals (odKey o e) = s.rd o e := by
  have hk : odKey o e % 65536 = o := by unfold odKey; omega
  rw [State.rd, Tbl.get, Tbl.get, State.snapshot, Tbl.find_filter _ (fun a => by rw [hk]; exact hp)]

/-- R81: DEV.STORE written with 1 is stored, and the SAVE starts. -/
theorem State.commitWrite_save (s : State) : s.commitWrite Obj.devStore 0 1 [0] = (.of rOk, (s.wr Obj.devStore 0 1).saveStart) :=
  State.commitWrite_byMember (by decide +kernel) s 0 1 [0]

/-- R84: DEV.FACTORY_RESTORE written with 1 is stored, and the RESTORE starts. -/
theorem State.commitWrite_restore (s : State) : s.commitWrite Obj.devFactoryRestore 0 1 [0] = (.of rOk, (s.wr Obj.devFactoryRestore 0 1).restoreStart) :=
  State.commitWrite_byMember (by decide +kernel) s 0 1 [0]

theorem commitsTo_save (r : ObjRow) : CommitsTo r Obj.devStore 0 1 [0] (fun u => (u.wr Obj.devStore 0 1).saveStart) (ob Obj.devStore ||| km_saveStart) where
  commit u := (State.commitCommand_eq (fun _ => by decide) _ _ _).trans u.commitWrite_save
  kept u := (State.saveStart_kept _).step (by decide +kernel) ((u.wr_kept Obj.devStore 0 1).mono (by decide +kernel))
  apart := by decide +kernel
  waiters _ := rfl

theorem commitsTo_restore (r : ObjRow) :
    CommitsTo r Obj.devFactoryRestore 0 1 [0] (fun u => (u.wr Obj.devFactoryRestore 0 1).restoreStart) (ob Obj.devFactoryRestore ||| km_restoreStart) where
  commit u := (State.commitCommand_eq (fun _ => by decide) _ _ _).trans u.commitWrite_restore
  kept u := (State.restoreStart_kept _).step (by decide +kernel) ((u.wr_kept Obj.devFactoryRestore 0 1).mono (by decide +kernel))
  apart := by decide +kernel
  waiters _ := rfl

end Sys2Proof.Machine
end

section
namespace Sys2Proof.Machine
-- one declaration at a time, as in the laws: each `decide +kernel` waits for the declarations before it
set_option Elab.async false

/-- After what flash and boot hold was replaced, where they are listed. -/
theorem Keeps.bot {s t : State} {els : List (Nat × Nat)} {ps : List Part} (h : Keeps s t els ps) (x : BotRt) (hb : .bot ∈ ps) :
    Keeps s { t with bot := x } els ps where
  pending := h.pending
  rd := h.rd
  field p hp hobj := by
    have k := h.field p hp hobj
    cases p with
    | bot => exact absurd hb hp
    | _ => exact k

theorem takes_save (s : State) (n : Nat) (x : Session) (r : ObjRow) : Takes (.save n) s n x r Obj.devStore 0 1 [0] (fun b t =>
    (∃ c : StoreCopy, t.bot.saving = some ⟨false, some c, Config.freeValue b.freeCtr % 65536⟩ ∧
      (∀ o e, o < 65536 → objP o = true → Tbl.get odDflt c.vals (odKey o e) = b.rd o e)) ∧
    t.bot.store = b.bot.store ∧ t.fld Obj.devStoreStatus 0 F.devStoreStatusState = 1 ∧
    t.out = b.out ++ [wrote n rOk 0xFFFF] ∧ Keeps b t [(Obj.devStore, 0), (Obj.devStoreStatus, 0)] [.bot, .freeCtr, .out]) := by
  refine Takes.of_commits rfl (fun _ => commitsTo_save r) (fun u => ⟨⟨_, rfl, fun o e ho hp => ?_⟩, rfl, State.fld_setFld_self .., rfl, ?_⟩)
  · have hne : o ≠ Obj.devStore := by rintro rfl; exact absurd hp (by decide +kernel)
    rw [State.snapshot_get _ ho hp, State.rd_wr_obj _ _ (by decide) ho hne]
  · exact (((((Keeps.refl u _ _).wr 1 (by decide) (by simp)).bot _ (by simp)).kept (State.draw_kept _) (by decide +kernel)).setFld _ 1 (by decide)
      (by simp)).kept (State.emit_kept ..) (by decide +kernel)

theorem takes_restore (s : State) (n : Nat) (x : Session) (r : ObjRow) : Takes (.restore n) s n x r Obj.devFactoryRestore 0 1 [0] (fun b t =>
    t.bot = { b.bot with saving := some ⟨true, none, Config.freeValue b.freeCtr % 65536⟩ } ∧ t.fld Obj.devStoreStatus 0 F.devStoreStatusState = 2 ∧
    t.out = b.out ++ [wrote n rOk 0xFFFF] ∧ Keeps b t [(Obj.devFactoryRestore, 0), (Obj.devStoreStatus, 0)] [.bot, .freeCtr, .out]) := by
  refine Takes.of_commits rfl (fun _ => commitsTo_restore r) (fun u => ⟨rfl, State.fld_setFld_self .., rfl, ?_⟩)
  exact (((((Keeps.refl u _ _).wr 1 (by decide) (by simp)).bot _ (by simp)).kept (State.draw_kept _) (by decide +kernel)).setFld _ 2 (by decide)
    (by simp)).kept (State.emit_kept ..) (by decide +kernel)

/-- R93, R95: DEV.STORE_STATUS with a state and the reason with which the last operation ended. -/
def State.storeStatus (s : State) (state reason : Nat) : State :=
  (s.setFld Obj.devStoreStatus 0 F.devStoreStatusState state).setFld Obj.devStoreStatus 0 F.devStoreStatusLastReason reason

theorem State.storeStatus_state (s : State) (state reason : Nat) : (s.storeStatus state reason).fld Obj.devStoreStatus 0 F.devStoreStatusState = state % 2 ^ 8 :=
  (State.fld_setFld_apart _ _ _ _ _ _ (.inr (by decide))).trans (State.fld_setFld_self ..)

theorem State.storeStatus_reason (s : State) (state reason : Nat) :
    (s.storeStatus state reason).fld Obj.devStoreStatus 0 F.devStoreStatusLastReason = reason % 2 ^ 16 := State.fld_setFld_self ..

theorem State.storeStatus_rd (s : State) (state reason : Nat) {o : Nat} (e : Nat) (ho : o < 65536) (h : o ≠ Obj.devStoreStatus) :
    (s.storeStatus state reason).rd o e = s.rd o e :=
  (State.rd_wr_obj _ _ (by decide) ho h).trans (State.rd_wr_obj _ _ (by decide) ho h)

theorem Keeps.storeStatus {s t : State} {els : List (Nat × Nat)} {ps : List Part} (h : Keeps s t els ps) (state reason : Nat)
    (he : (Obj.devStoreStatus, 0) ∈ els) : Keeps s (t.storeStatus state reason) els ps :=
  (h.setFld _ _ (by decide) he).setFld _ _ (by decide) he

theorem exec_storeComplete (s : State) : exec .storeComplete s = execStoreComplete s := rfl

theorem storeComplete_idle {s : State} (h : s.bot.saving = none) : Next .storeComplete s (fun t => t = s) :=
  ⟨s, by rw [exec_storeComplete, execStoreComplete, h], rfl⟩

/-- R95: a writing that ends with a reason other than OK leaves the copy in force. -/
theorem storeComplete_failed {s : State} {w : Saving} (h : s.bot.saving = some w) (he : w.ending ≠ rOk) (hlt : w.ending < 65536) :
    Next .storeComplete s (fun t => t.bot = { s.bot with saving := none } ∧ t.fld Obj.devStoreStatus 0 F.devStoreStatusState = 3 ∧
      t.fld Obj.devStoreStatus 0 F.devStoreStatusLastReason = w.ending ∧ Keeps s t [(Obj.devStoreStatus, 0)] [.bot]) := by
  have ex : execStoreComplete s = .next (({ s with bot := { s.bot with saving := none } } : State).storeStatus 3 w.ending) := by
    rw [execStoreComplete, h]
    exact if_pos he
  refine ⟨_, (exec_storeComplete s).trans ex, rfl, State.storeStatus_state .., ?_, ((Keeps.refl s _ _).bot _ (by simp)).storeStatus _ _ (by simp)⟩
  exact (State.storeStatus_reason ..).trans (Nat.mod_eq_of_lt hlt)

/-- The new copy is in force, and DEV.STORE_STATUS reads idle (R93). -/
def State.storeCurrent (s : State) (c : Option StoreCopy) : State :=
  ({ s with bot := { s.bot with saving := none, store := c } } : State).storeStatus 0 rOk

/-- R93: a SAVE is counted, and its instant recorded. -/
def State.saveCounted (s : State) : State :=
  let s := s.count64 Obj.devStoreCount 0 1
  let nt := s.ntAt s.now / 2 ^ 32
  (({ s with bot := { s.bot with storeCount := s.rd Obj.devStoreCount 0 } } : State).setFld Obj.devStoreStatus 0 F.devStoreStatusLastSaveNs (nt % 2 ^ 32)).setFld
    Obj.devStoreStatus 0 F.devStoreStatusLastSaveS (nt / 1000000000)

theorem execStoreComplete_ok {s : State} {w : Saving} (h : s.bot.saving = some w) (he : w.ending = rOk) :
    execStoreComplete s = .next (if w.restore then s.storeCurrent w.copy else (s.storeCurrent w.copy).saveCounted) := by
  rw [execStoreComplete, h, apply_ite Host.Outcome.next]
  exact if_neg (fun k => k he)

theorem State.saveCounted_rd (s : State) : s.saveCounted.rd Obj.devStoreCount 0 = (s.count64 Obj.devStoreCount 0 1).rd Obj.devStoreCount 0 :=
  (State.rd_wr_obj _ _ (by decide) (by decide) (by decide)).trans (State.rd_wr_obj _ _ (by decide) (by decide) (by decide))

theorem State.saveCounted_bot (s : State) :
    s.saveCounted.bot = { s.bot with storeCount := (s.count64 Obj.devStoreCount 0 1).rd Obj.devStoreCount 0 } := by
  have k : (s.count64 Obj.devStoreCount 0 1).bot = s.bot := (State.count_kept s Obj.devStoreCount 0 ⟨0, 48⟩ ⟨63, 1⟩ 1).same .bot (by decide +kernel)
  rw [← k]
  rfl

/-- The instant of a SAVE leaves the state and the reason of DEV.STORE_STATUS alone. -/
theorem State.saveCounted_fld (s : State) {f : Fld} (h : f.lo + f.w ≤ 64) : s.saveCounted.fld Obj.devStoreStatus 0 f = s.fld Obj.devStoreStatus 0 f := by
  refine (State.fld_setFld_apart _ _ _ _ _ _ (.inr (h.trans (by decide)))).trans ((State.fld_setFld_apart _ _ _ _ _ _ (.inr h)).trans ?_)
  exact (State.count_kept s Obj.devStoreCount 0 ⟨0, 48⟩ ⟨63, 1⟩ 1).fld_eq 0 f (by decide) (by decide +kernel)

theorem State.storeCurrent_keeps (s : State) (c : Option StoreCopy) {els : List (Nat × Nat)} (he : (Obj.devStoreStatus, 0) ∈ els) :
    Keeps s (s.storeCurrent c) els [.bot] := ((Keeps.refl s _ _).bot _ (by simp)).storeStatus _ _ he

theorem State.saveCounted_keeps {s t : State} (h : Keeps s t [(Obj.devStoreStatus, 0), (Obj.devStoreCount, 0)] [.bot]) :
    Keeps s t.saveCounted [(Obj.devStoreStatus, 0), (Obj.devStoreCount, 0)] [.bot] :=
  (((h.count _ _ 1 (by decide) (by simp)).bot _ (by simp)).setFld _ _ (by decide) (by simp)).setFld _ _ (by decide) (by simp)

/-- R93, R850: a writing that ends OK makes its copy current; a SAVE is counted. -/
theorem storeComplete_ok {s : State} {w : Saving} (h : s.bot.saving = some w) (he : w.ending = rOk) :
    Next .storeComplete s (fun t => t.bot.saving = none ∧ t.bot.store = w.copy ∧ t.fld Obj.devStoreStatus 0 F.devStoreStatusState = 0 ∧
      t.fld Obj.devStoreStatus 0 F.devStoreStatusLastReason = 0 ∧
      (w.restore = false → t.fld Obj.devStoreCount 0 ⟨0, 48⟩ = counted 48 (s.fld Obj.devStoreCount 0 ⟨0, 48⟩) 1 ∧ t.bot.storeCount = t.rd Obj.devStoreCount 0) ∧
      (w.restore = true → t.rd Obj.devStoreCount 0 = s.rd Obj.devStoreCount 0) ∧
      Keeps s t [(Obj.devStoreStatus, 0), (Obj.devStoreCount, 0)] [.bot]) := by
  have count0 : (s.storeCurrent w.copy).rd Obj.devStoreCount 0 = s.rd Obj.devStoreCount 0 := State.storeStatus_rd _ _ _ _ (by decide) (by decide)
  have keeps := s.storeCurrent_keeps w.copy (els := [(Obj.devStoreStatus, 0), (Obj.devStoreCount, 0)]) (by simp)
  refine ⟨_, (exec_storeComplete s).trans (execStoreComplete_ok h he), ?_⟩
  cases hr : w.restore with
  | true => exact ⟨rfl, rfl, State.storeStatus_state .., State.storeStatus_reason .., fun k => absurd k (by decide), fun _ => count0, keeps⟩
  | false =>
    have bot := (s.storeCurrent w.copy).saveCounted_bot
    refine ⟨?_, ?_, ?_, ?_, fun _ => ⟨?_, ?_⟩, fun k => absurd k (by decide), State.saveCounted_keeps keeps⟩
    · exact congrArg BotRt.saving bot
    · exact congrArg BotRt.store bot
    · exact (State.saveCounted_fld _ (by decide)).trans (State.storeStatus_state ..)
    · exact (State.saveCounted_fld _ (by decide)).trans (State.storeStatus_reason ..)
    · show Fld.get ⟨0, 48⟩ ((s.storeCurrent w.copy).saveCounted.rd Obj.devStoreCount 0) = _
      rw [State.saveCounted_rd]
      refine (State.fld_count _ _ _ _ _ _ (.inr (by decide))).trans ?_
      rw [State.fld, count0]
      rfl
    · exact (congrArg BotRt.storeCount bot).trans (State.saveCounted_rd _).symm

/-- Settles O13: SAVE, RESTORE, and the three ways in which STORE_COMPLETE can find the store. -/
theorem theStoreIsSavedAndRestored : Obligations.TheStoreIsSavedAndRestored := by
  unfold Obligations.TheStoreIsSavedAndRestored
  intro s
  exact ⟨fun n x r => ⟨takes_save s n x r, takes_restore s n x r⟩, fun w h => ⟨storeComplete_ok h, storeComplete_failed h⟩, storeComplete_idle⟩

end Sys2Proof.Machine
end

section
namespace Sys2Proof.Machine
-- one declaration at a time, as in the laws: each `decide +kernel` waits for the declarations before it
set_option Elab.async false

/-! ### One step -/

/-- Settles O1: `step` by the two forms of its queue. -/
theorem stepRunsTheFrontCommand : Obligations.StepRunsTheFrontCommand := by
  unfold Obligations.StepRunsTheFrontCommand
  refine ⟨fun s c rest h => ?_, fun s c => rfl, fun s h => ?_⟩
  · rw [step, h]
  · rw [step, h]

/-- Settles O5: whatever the front command does, it is `step_kept` that bounds it. -/
theorem stepsTakeOneCommandAndNoTimeBack : Obligations.StepsTakeOneCommandAndNoTimeBack := by
  unfold Obligations.StepsTakeOneCommandAndNoTimeBack
  intro s t h
  have k := step_kept h
  exact ⟨k.pending, k.now⟩

/-! ### Entry to BOOT and COLD (R79, R108, R807, R830, R831) -/

/-- R79: a store in which nothing is listed reads every object's Default. -/
theorem State.rd_of_od_nil {s : State} (h : s.od = []) {o : Nat} (ho : o < 65536) (e : Nat) : s.rd o e = objDflt o := by
  have hk : odKey o e % 65536 = o := by unfold odKey; omega
  rw [State.rd, h]
  exact congrArg objDflt hk

/-- What outlasts the entry to BOOT, with the boot ROM's word on how it came about. -/
def State.bootFrom (s : State) (warm : Bool) : State := { s.bootBase with bot := { s.bootBase.bot with warm := warm } }

/-- BOOT as it is entered, before an over-temperature is sensed again (R79, R97, R807, R808). -/
def State.booting (s : State) (prev reason : Nat) (warm : Bool) : State :=
  (((s.bootFrom warm).setFld Obj.botStatus 0 F.botStatusStage 1).count Obj.botCounts 0 F.botCountsBoots ⟨96, 1⟩ 1).enter .boot prev reason

theorem State.bootFrom_rd (s : State) (warm : Bool) {o : Nat} (e : Nat) (ho : o < 65536) (h : o ∉ [Obj.psmCounts, Obj.botCounts, Obj.fcrRecoveries]) :
    (s.bootFrom warm).rd o e = objDflt o := by
  simp only [List.mem_cons, List.not_mem_nil, or_false, not_or] at h
  obtain ⟨hp, hb, hf⟩ := h
  show s.bootBase.rd o e = objDflt o
  rw [State.bootBase, State.rd_wr_obj _ _ (by decide) ho hf, State.rd_wr_obj _ _ (by decide) ho hb, State.rd_wr_obj _ _ (by decide) ho hp]
  exact State.rd_of_od_nil rfl ho e

theorem State.bootFrom_botCounts (s : State) (warm : Bool) : (s.bootFrom warm).rd Obj.botCounts 0 = s.rd Obj.botCounts 0 := by
  show s.bootBase.rd Obj.botCounts 0 = _
  rw [State.bootBase, State.rd_wr_obj _ _ (by decide) (by decide) (by decide), State.rd_wr_self]

theorem State.mode_of_devMode {s : State} {m : Nat} (h : s.rd Obj.devMode 0 = m) : s.mode = Mode.ofCode m := congrArg Mode.ofCode h

/-- The mode that the engine enters, how and when it came to it, are all that an entry to BOOT from COLD writes. -/
theorem State.enter_boot {s : State} (h : s.mode = .cold) (prev reason : Nat) :
    s.enter .boot prev reason = (((s.wr Obj.devMode 0 1).wr Obj.devModeStamp 0 s.stamp).wr Obj.devPrevMode 0 prev).wr Obj.devModeReason 0 reason := by
  have hc : ¬ ((s.mode = .safe ∨ s.mode = .idle) ∧ s.mode ≠ .boot) := by rw [h]; decide
  rw [State.enter, if_neg hc]
  rfl

theorem State.booting_eq (s : State) (prev reason : Nat) (warm : Bool) :
    let u := ((s.bootFrom warm).setFld Obj.botStatus 0 F.botStatusStage 1).count Obj.botCounts 0 F.botCountsBoots ⟨96, 1⟩ 1
    s.booting prev reason warm = (((u.wr Obj.devMode 0 1).wr Obj.devModeStamp 0 u.stamp).wr Obj.devPrevMode 0 prev).wr Obj.devModeReason 0 reason := by
  refine State.enter_boot (State.mode_of_devMode (m := 0) ?_) prev reason
  rw [State.rd_count_ne _ _ _ _ (by decide) (by decide) (by decide), State.setFld, State.rd_wr_obj _ _ (by decide) (by decide) (by decide),
    State.bootFrom_rd _ _ _ (by decide) (by decide)]
  decide +kernel

/-- The objects that an entry to BOOT does not put back to their Defaults: those that outlast it and those of boot and mode. -/
abbrev bootObjs : List Nat := [Obj.psmCounts, Obj.botCounts, Obj.fcrRecoveries, Obj.botStatus, Obj.devMode, Obj.devModeStamp, Obj.devPrevMode, Obj.devModeReason]

/-- An object that the entry to a mode does not write. -/
theorem State.booting_rd_count (s : State) (prev reason : Nat) (warm : Bool) {o : Nat} (e : Nat) (ho : o < 65536)
    (h : o ∉ [Obj.devMode, Obj.devModeStamp, Obj.devPrevMode, Obj.devModeReason]) :
    (s.booting prev reason warm).rd o e =
      (((s.bootFrom warm).setFld Obj.botStatus 0 F.botStatusStage 1).count Obj.botCounts 0 F.botCountsBoots ⟨96, 1⟩ 1).rd o e := by
  simp only [List.mem_cons, List.not_mem_nil, or_false, not_or] at h
  obtain ⟨hm, hs, hp, hr⟩ := h
  rw [State.booting_eq, State.rd_wr_obj _ _ (by decide) ho hr, State.rd_wr_obj _ _ (by decide) ho hp, State.rd_wr_obj _ _ (by decide) ho hs,
    State.rd_wr_obj _ _ (by decide) ho hm]

theorem State.booting_dflt (s : State) (prev reason : Nat) (warm : Bool) {o : Nat} (e : Nat) (ho : o < 65536) (h : o ∉ bootObjs) :
    (s.booting prev reason warm).rd o e = objDflt o := by
  have sub {l : List Nat} (hl : l ⊆ bootObjs) : o ∉ l := fun k => h (hl k)
  have ne {k : Nat} (hk : k ∈ bootObjs) : o ≠ k := fun e => h (e ▸ hk)
  rw [State.booting_rd_count _ _ _ _ _ ho (sub (by decide)), State.rd_count_ne _ _ _ _ (by decide) ho (ne (by decide)), State.setFld,
    State.rd_wr_obj _ _ (by decide) ho (ne (by decide)), State.bootFrom_rd _ _ _ ho (sub (by decide))]

/-- What BOOT.STATUS, BOT.COUNTS and the objects of the mode read as BOOT is entered. -/
structure BootRecorded (s : State) (prev reason : Nat) (t : State) : Prop where
  mode : t.mode = .boot
  prev : t.rd Obj.devPrevMode 0 = prev
  reason : t.rd Obj.devModeReason 0 = reason
  stage : t.bootStage = 1
  boots : t.fld Obj.botCounts 0 F.botCountsBoots = counted 48 (s.fld Obj.botCounts 0 F.botCountsBoots) 1

theorem State.booting_recorded (s : State) (prev reason : Nat) (warm : Bool) : BootRecorded s prev reason (s.booting prev reason warm) where
  mode := by
    refine State.mode_of_devMode (m := 1) ?_
    rw [State.booting_eq, State.rd_wr_obj _ _ (by decide) (by decide) (by decide), State.rd_wr_obj _ _ (by decide) (by decide) (by decide),
      State.rd_wr_obj _ _ (by decide) (by decide) (by decide), State.rd_wr_self]
  prev := by rw [State.booting_eq, State.rd_wr_obj _ _ (by decide) (by decide) (by decide), State.rd_wr_self]
  reason := by rw [State.booting_eq, State.rd_wr_self]
  stage := by
    rw [State.bootStage, State.fld, State.booting_rd_count _ _ _ _ _ (by decide) (by decide),
      State.rd_count_ne _ _ _ _ (by decide) (by decide) (by decide), State.setFld, State.rd_wr_self]
    exact Fld.get_put_self ..
  boots := by
    rw [State.fld, State.booting_rd_count _ _ _ _ _ (by decide) (by decide)]
    refine (State.fld_count _ _ _ _ _ _ (.inr (by decide))).trans ?_
    rw [State.fld, State.setFld, State.rd_wr_obj _ _ (by decide) (by decide) (by decide), State.bootFrom_botCounts]
    rfl

theorem State.booting_kept (s : State) (prev reason : Nat) (warm : Bool) :
    Kept (ob Obj.botStatus ||| ob Obj.botCounts ||| km_enter) (s.bootFrom warm) (s.booting prev reason warm) :=
  (State.enter_kept ..).step (by decide +kernel) <| (State.count_kept _ Obj.botCounts ..).step (by decide +kernel) <|
    (State.setFld_kept _ Obj.botStatus ..).step (by decide +kernel) (.refl ..)

theorem State.booting_hot (s : State) (prev reason : Nat) (warm : Bool) : (s.booting prev reason warm).psm.hot = s.psm.hot := by
  have k : (s.booting prev reason warm).psm = (s.bootFrom warm).psm := (s.booting_kept prev reason warm).same .psm (by decide +kernel)
  rw [k]
  rfl

/-- A junction that is not too hot: BOOT is entered as it stands. -/
theorem State.bootEntry_cool {s : State} (h : s.psm.hot = false) (prev reason : Nat) (warm : Bool) : s.bootEntry prev reason warm = s.booting prev reason warm := by
  refine if_neg (fun k => ?_)
  exact absurd ((s.booting_hot prev reason warm).symm.trans k) (by rw [h]; decide)

/-- A junction that is still too hot raises TEMP_LIMIT again. -/
theorem State.bootEntry_hot {s : State} (h : s.psm.hot = true) (prev reason : Nat) (warm : Bool) :
    s.bootEntry prev reason warm = (s.booting prev reason warm).raiseAll Ev.tempLimit 0xFFFF :=
  if_pos ((s.booting_hot prev reason warm).trans h)

theorem State.bootEntry_raises (s : State) (prev reason : Nat) (warm : Bool) : Kept km_raiseAll (s.booting prev reason warm) (s.bootEntry prev reason warm) := by
  cases h : s.psm.hot with
  | true => rw [State.bootEntry_hot h]; exact State.raiseAll_kept ..
  | false => rw [State.bootEntry_cool h]; exact .refl ..

theorem State.bootEntry_recorded (s : State) (prev reason : Nat) (warm : Bool) : BootRecorded s prev reason (s.bootEntry prev reason warm) :=
  have k := s.bootEntry_raises prev reason warm
  have b := s.booting_recorded prev reason warm
  ⟨(k.mode_eq (by decide +kernel)).trans b.mode, (k.rd 0 (by decide) (by decide +kernel)).trans b.prev, (k.rd 0 (by decide) (by decide +kernel)).trans b.reason,
    (k.fld_eq 0 _ (by decide) (by decide +kernel)).trans b.stage, (k.fld_eq 0 _ (by decide) (by decide +kernel)).trans b.boots⟩

/-- R79, R807, R830: what the flash and the fuses hold, time and the queue outlast an entry to BOOT or COLD. -/
def Outlasts (s t : State) : Prop :=
  t.bot.fw = s.bot.fw ∧ t.bot.patch = s.bot.patch ∧ t.bot.fused = s.bot.fused ∧ t.bot.revoked = s.bot.revoked ∧
    t.bot.keys = s.bot.keys ∧ t.bot.store = s.bot.store ∧ t.bot.factory = s.bot.factory ∧ t.now = s.now ∧ t.pending = s.pending

/-- BOOT entered from a mode with a reason (R108, R807). -/
def Boots (s : State) (prev reason : Nat) (t : State) : Prop :=
  t.mode = .boot ∧ t.rd Obj.devPrevMode 0 = prev ∧ t.rd Obj.devModeReason 0 = reason ∧ t.bootStage = 1 ∧
  t.fld Obj.botCounts 0 F.botCountsBoots = counted 48 (s.fld Obj.botCounts 0 F.botCountsBoots) 1 ∧
  t.ready = [] ∧ t.staged = [] ∧ t.trans = none ∧ Outlasts s t ∧
  (s.psm.hot = true → Raised t Ev.tempLimit) ∧
  (s.psm.hot = false → (∀ n, t.session n = none) ∧ ∀ o e, o < 65536 → o ∉ bootObjs → t.rd o e = objDflt o)

theorem State.bootEntry_boots (s : State) (prev reason : Nat) (warm : Bool) : Boots s prev reason (s.bootEntry prev reason warm) := by
  have r := s.bootEntry_recorded prev reason warm
  have k : Kept (ob Obj.botStatus ||| ob Obj.botCounts ||| km_enter ||| km_raiseAll) (s.bootFrom warm) (s.bootEntry prev reason warm) :=
    (s.bootEntry_raises prev reason warm).step (by decide +kernel) ((s.booting_kept prev reason warm).mono (by decide +kernel))
  have bot : (s.bootEntry prev reason warm).bot = (s.bootFrom warm).bot := k.same .bot (by decide +kernel)
  refine ⟨r.mode, r.prev, r.reason, r.stage, r.boots, k.same .ready (by decide +kernel), k.same .staged (by decide +kernel), k.trans_eq (by decide +kernel),
    ?_, fun h => ?_, fun h => ?_⟩
  · rw [Outlasts, bot]
    exact ⟨rfl, rfl, rfl, rfl, rfl, rfl, rfl, k.now_eq (by decide +kernel), k.pending⟩
  · rw [State.bootEntry_hot h]
    exact State.raise_raised ..
  · rw [State.bootEntry_cool h]
    refine ⟨fun n => ?_, fun o e ho hn => s.booting_dflt prev reason warm e ho hn⟩
    rw [State.session, (s.booting_kept prev reason warm).same .poa (by decide +kernel)]
    rfl

theorem exec_powerOn (s : State) : exec .powerOn s = execPowerOn s := rfl

theorem exec_extReset (s : State) : exec .extReset s = execExtReset s := rfl

theorem powerOn_cold {s : State} (hm : s.mode = .cold) (ht : s.bot.testMode = false) : Next .powerOn s (Boots s 0 0) :=
  ⟨_, (exec_powerOn s).trans (if_pos ⟨hm, ht⟩), s.bootEntry_boots 0 0 false⟩

theorem powerOn_idle {s : State} (h : s.mode ≠ .cold ∨ s.bot.testMode = true) : Next .powerOn s (fun t => t = s) := by
  refine ⟨s, (exec_powerOn s).trans (if_neg (fun ⟨hm, ht⟩ => ?_)), rfl⟩
  rcases h with h | h
  · exact h hm
  · rw [ht] at h; cases h

theorem extReset_on {s : State} (hm : s.mode ≠ .cold) : Next .extReset s (Boots s s.leftMode 15) :=
  ⟨_, (exec_extReset s).trans (if_neg hm), s.bootEntry_boots s.leftMode 15 false⟩

theorem extReset_idle {s : State} (hm : s.mode = .cold) : Next .extReset s (fun t => t = s) :=
  ⟨s, (exec_extReset s).trans (if_pos hm), rfl⟩

theorem State.leftMode_standing {s : State} (hp : s.psm.plan = none) (ht : s.trans = none) : s.leftMode = s.mode.code := by
  rw [State.leftMode, hp, ht]

theorem State.mode_of_od_nil {s : State} (h : s.od = []) : s.mode = .cold :=
  State.mode_of_devMode (m := 0) ((State.rd_of_od_nil h (by decide) 0).trans (by decide +kernel))

theorem coldEntry_enters (s : State) : Next .coldEntry s (fun t => t.mode = .cold ∧ (∀ o e, o < 65536 → t.rd o e = objDflt o) ∧ t.mem = [] ∧ t.images = [] ∧
    (∀ n, t.session n = none) ∧ Outlasts s t) :=
  ⟨_, rfl, State.mode_of_od_nil rfl, fun _ e ho => State.rd_of_od_nil rfl ho e, rfl, rfl, fun _ => rfl, rfl, rfl, rfl, rfl, rfl, rfl, rfl, rfl, rfl⟩

/-- Settles O9: what POWER_ON, EXT_RESET and COLD_ENTRY enter, and where they change nothing. -/
theorem bootBegins : Obligations.BootBegins := by
  unfold Obligations.BootBegins
  intro s kept boots
  exact ⟨powerOn_cold, powerOn_idle, extReset_on, fun _ => State.leftMode_standing, extReset_idle, coldEntry_enters s⟩

/-- Settles O2: nothing is listed after reset, and POWER_ON boots from it. -/
theorem resetHoldsTheDefaults : Obligations.ResetHoldsTheDefaults := by
  unfold Obligations.ResetHoldsTheDefaults
  obtain ⟨t, ex, mode, prev, reason, -⟩ := powerOn_cold (s := State.reset) (State.mode_of_od_nil rfl) rfl
  exact ⟨fun _ e ho => State.rd_of_od_nil rfl ho e, State.mode_of_od_nil rfl, rfl, rfl, fun _ => rfl, rfl, rfl, rfl, by decide +kernel, rfl,
    t, ex, mode, prev, reason⟩

end Sys2Proof.Machine
end

section
namespace Sys2Proof.Machine
-- one declaration at a time, as in the laws: each `decide +kernel` waits for the declarations before it
set_option Elab.async false

/-! ### COMPLETE of a HALTED core (R751, R752, R758) -/

theorem exec_complete (core : Nat) (s : State) : exec (.complete core) s = execComplete core s := rfl

theorem complete_halted {s : State} {core : Nat} (h : s.halted core = true) : exec (.complete core) s = .next s :=
  (exec_complete core s).trans (if_pos h)

/-- Where no request waits, a read carried out for a core leaves the accesses that are with the cores as they are. -/
theorem State.finish_read_ode {v : State} {j : FwJob} (hr : j.read = true) (hd : v.ode.done = []) (hj : v.jobs = []) (hw : v.waiters = []) :
    (v.finish j).ode = v.ode := by
  have e : v.fwRun j = (v.readDone j.ix).result (.fw j.id) (v.readNow j.ix j.els).1 (v.readNow j.ix j.els).2.1 := by
    rw [← State.readNow_snd v j.ix j.els]
    exact if_pos hr
  have k : Kept (km_readDone ||| km_result) v (v.fwRun j) := by
    rw [e]
    exact (State.result_kept ..).step (by decide +kernel) ((State.readDone_kept ..).mono (by decide +kernel))
  have ode : (v.fwRun j).ode = v.ode := k.same .ode (by decide +kernel)
  rw [State.finish, State.settleLoop_idle _ _ ((congrArg OdeRt.done ode).trans hd) ((k.same .jobs (by decide +kernel)).trans hj)
    ((k.same .waiters (by decide +kernel)).trans hw)]
  exact ode

/-- A READ of DEV.MODE that a core was to serve. -/
def heldRead : FwJob := ⟨0, true, Obj.devMode, 0, [0], 0⟩

/-- Core 0 has the read's item of flow 88 in service and is HALTED, as CCC_HANG leaves it (R751). -/
def haltedServing : State :=
  (({ State.reset with ode := { jobs := [heldRead], next := 1 } }).setCore 0 { item := some (⟨88, 6, 3, 0⟩, 0) }).halt 0

theorem haltedServing_halted : haltedServing.halted 0 = true := by decide +kernel

/-- Refutes O8: its clause on COMPLETE does not ask that the core runs. A HALTED core (R751, R752) can still have the item of a read in service; its COMPLETE
changes nothing, so the access stays with the core, where the statement has it carried out and gone. -/
theorem not_acceptedWritesAreServed : ¬ Obligations.AcceptedWritesAreServed := by
  unfold Obligations.AcceptedWritesAreServed
  rintro ⟨-, -, completes⟩
  obtain ⟨v, ex, ode, waiters, -, jobs, -, -⟩ := completes haltedServing 0 0 ⟨88, 6, 3, 0⟩ heldRead [] rfl rfl rfl rfl
  have same : haltedServing = v.finish heldRead := Host.Outcome.next.inj ((complete_halted haltedServing_halted).symm.trans ex)
  have gone : (v.finish heldRead).ode = v.ode := State.finish_read_ode rfl (by rw [ode]; rfl) jobs waiters
  have left : haltedServing.ode.jobs = [] := by rw [same, gone, ode]
  exact absurd left (by decide +kernel)

end Sys2Proof.Machine
end

section
namespace Sys2Proof.Machine
-- one declaration at a time, as in the laws: each `decide +kernel` waits for the declarations before it
set_option Elab.async false

/-! ### An accepted write whose commit depends on the state (R71, R76) -/

theorem Effect.imp {i : Instr} {s : State} {n : Nat} {x : Session} {r : ObjRow} {ix el : Nat} {b : Bytes} {els : List Nat} {p q : State → State → Prop}
    (h : Effect i s n x r ix el b els p) (hpq : ∀ b t, p b t → q b t) : Effect i s n x r ix el b els q where
  direct hs := (h.direct hs).imp fun _ ⟨e, k⟩ => ⟨e, hpq _ _ k⟩
  posted := h.posted
  later hs u k hu := hpq _ _ (h.later hs u k hu)

theorem Takes.imp {i : Instr} {s : State} {n : Nat} {x : Session} {r : ObjRow} {ix el v : Nat} {els : List Nat} {p q : State → State → Prop}
    (h : Takes i s n x r ix el v els p) (hpq : ∀ b t, p b t → q b t) : Takes i s n x r ix el v els q :=
  fun hv ha => (h hv ha).imp hpq

theorem State.withWaiters_nil {s : State} (h : s.waiters = []) : { s with waiters := [] } = s := by rw [← h]

/-- A frame in which what waits is listed still holds once a request waits. -/
theorem Keeps.waiting {s t : State} {els : List (Nat × Nat)} {ps : List Part} (h : Keeps s t els ps) (l : List Waiter) (hw : .waiters ∈ ps) :
    Keeps { s with waiters := [] } { t with waiters := l } els ps where
  pending := h.pending
  rd := h.rd
  field p hp hobj := by
    have k := h.field p hp hobj
    cases p with
    | waiters => exact absurd hw hp
    | _ => exact k

/-- A frame in which outputs are listed still holds once the request is answered. -/
theorem Keeps.answered {s t : State} {els : List (Nat × Nat)} {ps : List Part} (h : Keeps s t els ps) (o : OutMsg) (ho : km_emit ||| maskOf ps = maskOf ps) :
    Keeps { s with waiters := [] } (({ t with waiters := [] } : State).emit o) els ps :=
  (h.withWaiters []).kept (State.emit_kept ..) ho

section
variable {i : Instr} {s : State} {n : Nat} {x : Session} {r : ObjRow} {ix el : Nat} {b : Bytes} {els : List Nat} {C : State → Prop} {c : State → State} {m : Nat}
  {q : State → State → Prop}

/-- A write that in every state with a property commits as c does, and is answered OK. What waits plays no part in the property. -/
theorem Accepts.effect_done (h : Accepts s n x r ix el b els) (hi : exec i s = .next (s.hostWrite n ix el b)) (hm : m &&& answerParts = 0)
    (hC : ∀ u : State, C { u with waiters := [] } → C u) (hc : ∀ u, C u → u.commitCommand r ix el (ofLE b) els = (.of rOk, c u)) (hk : ∀ u, C u → Kept m u (c u))
    (hq : ∀ u, C u → q { u with waiters := [] } (({ c u with waiters := [] } : State).emit (wrote n rOk 0xFFFF))) :
    Effect i s n x r ix el b els (fun b t => C b → q b t) where
  direct hs := by
    refine ⟨_, hi, fun hb => ?_⟩
    have w : (s.touch n x).waiters = [] := h.quiet.waiters
    have w' : (c (s.touch n x)).waiters = [] := ((hk _ hb).waiters_eq hm).trans w
    have e := hq _ hb
    rw [State.withWaiters_nil w, State.withWaiters_nil w'] at e
    rwa [State.hostWrite_direct h hs (hc _ hb), (h.quiet.touch n x).settle_emit (hk _ hb) hm]
  posted hs := ⟨_, hi, h.posted hs⟩
  later hs u k hu hb := by
    have cu : C u := hC u hb
    have hr : u.fwRun ⟨k, false, ix, el, els, ofLE b⟩ = (c u).result (.fw k) rOk [] := by
      rw [State.fwRun, if_neg Bool.false_ne_true]
      dsimp only
      rw [h.row]
      dsimp only
      rw [hc u cu]
      rfl
    rw [hu.finish_eq (j := ⟨k, false, ix, el, els, ofLE b⟩) rfl hr (hk u cu) hm]
    exact hq u cu

/-- A write that in every state with a property commits as c does, and whose request then waits for a token. -/
theorem Accepts.effect_wait {tok : Token} (h : Accepts s n x r ix el b els) (hi : exec i s = .next (s.hostWrite n ix el b)) (hm : m &&& answerParts = 0)
    (hC : ∀ u : State, C { u with waiters := [] } → C u) (hc : ∀ u, C u → u.commitCommand r ix el (ofLE b) els = (.wait tok 0 0, c u)) (hk : ∀ u, C u → Kept m u (c u))
    (hq : ∀ u, C u → q { u with waiters := [] } { c u with waiters := [⟨tok, n, 0x02, false, 0, 0, none⟩] }) :
    Effect i s n x r ix el b els (fun b t => C b → q b t) where
  direct hs := by
    refine ⟨_, hi, fun hb => ?_⟩
    have quiet := h.quiet.touch n x
    have k := hk _ hb
    have e := hq _ hb
    rw [State.withWaiters_nil quiet.waiters] at e
    rw [State.hostWrite, State.direct_wait h.sess h.level ((State.writeItem_direct h hs).trans (hc _ hb)), (k.waiters_eq hm).trans quiet.waiters, State.settle,
      State.settleLoop_still]
    · exact e
    · exact (congrArg OdeRt.done (k.ode_eq hm)).trans quiet.done
    · exact (k.results_eq hm).trans quiet.results
    · exact (k.jobs_eq hm).trans quiet.jobs
  posted hs := ⟨_, hi, h.posted hs⟩
  later hs u k hu hb := by
    have cu : C u := hC u hb
    have kept := hk u cu
    have hw : (c u).waiters = [⟨.fw k, n, 0x02, false, 0, 0, none⟩] := (kept.waiters_eq hm).trans hu.waiters
    have hr : u.fwRun ⟨k, false, ix, el, els, ofLE b⟩ = { c u with waiters := [⟨tok, n, 0x02, false, 0, 0, none⟩] } := by
      rw [State.fwRun, if_neg Bool.false_ne_true]
      dsimp only
      rw [h.row]
      dsimp only
      rw [hc u cu]
      dsimp only
      rw [hw, List.map_cons, List.map_nil, if_pos rfl]
    rw [State.finish, hr, State.settleLoop_still]
    · exact hq u cu
    · exact (congrArg OdeRt.done (kept.ode_eq hm)).trans hu.done
    · exact (kept.results_eq hm).trans hu.results
    · exact (kept.jobs_eq hm).trans hu.jobs

end

/-! ### What a mode request does (R100 to R116) -/

theorem State.setTrans_clk (s : State) (x : Option Trans) : (s.setTrans x).clk = s.clk := rfl

theorem State.dropTimedStart_of_none {s : State} (h : s.clk.startQ = none) : s.dropTimedStart = s := by
  rw [State.dropTimedStart, h]
  exact if_neg (by decide)

theorem State.dropTimedStart_startQ (s : State) : s.dropTimedStart.clk.startQ = none := by
  unfold State.dropTimedStart
  split
  · exact congrArg ClkRt.startQ ((State.latch_kept _ Ev.clkStartDropped).same .clk (by decide +kernel))
  · rename_i h
    simpa using h

/-- R639: with a transition other than ARMED to RUN on its way, a pending timed start is dropped. -/
theorem State.timedCheck_drops {s : State} {x : Trans} (hx : s.trans = some x) (h : x.target ≠ 6 ∨ x.source ≠ 5) : s.timedCheck = s.dropTimedStart := by
  have other : (x.target != Mode.run.code || x.source != Mode.armed.code) = true := by
    rcases h with h | h
    · rw [show (x.target != Mode.run.code) = true from bne_iff_ne.2 h, Bool.true_or]
    · rw [show (x.source != Mode.armed.code) = true from bne_iff_ne.2 h, Bool.or_true]
  unfold State.timedCheck
  rw [hx]
  dsimp only
  rw [other, Bool.or_true, Bool.and_true]
  split
  · rfl
  · rename_i hq
    exact (State.dropTimedStart_of_none (by simpa using hq)).symm

theorem State.timedCheck_of_none {s : State} (h : s.clk.startQ = none) : s.timedCheck = s := by
  unfold State.timedCheck
  rw [h]
  exact if_neg (by simp)

theorem State.pend_trans (s : State) (m : Mode) (v : Nat) (d : Option Nat) : (s.pend m v d).trans = some ⟨m.code, v, 1, d⟩ :=
  (State.timedCheck_kept (s.setTrans (some ⟨m.code, v, 1, d⟩))).trans_eq (by decide +kernel)

theorem State.pend_startQ (s : State) (m : Mode) {v : Nat} (d : Option Nat) (h : v ≠ 6) : (s.pend m v d).clk.startQ = none := by
  rw [State.pend, State.timedCheck_drops (x := ⟨m.code, v, 1, d⟩) rfl (.inl h)]
  exact State.dropTimedStart_startQ _

theorem State.pend_of_none {s : State} (m : Mode) (v : Nat) (d : Option Nat) (h : s.clk.startQ = none) : s.pend m v d = s.setTrans (some ⟨m.code, v, 1, d⟩) :=
  State.timedCheck_of_none h

theorem State.leaveDoze_of_ne {s : State} (h : s.mode ≠ .doze) : s.leaveDoze = s := if_neg h

theorem Mode.code_inj {a b : Mode} (h : a.code = b.code) : a = b := by rw [← Mode.ofCode_code a, h, Mode.ofCode_code]

section
variable {s : State} {v : Nat}

theorem State.requestMode_current (h : v = s.mode.code) (hi : s.inTransition = false) : s.requestMode v = s := if_pos ⟨h, hi⟩

theorem State.requestMode_other (h : v ≠ s.mode.code) (h2 : v ≠ 2) (h7 : v ≠ 7) (h6 : v ≠ 6) (h5 : v ≠ 5) (hp : ¬ (s.mode = .run ∨ s.mode = .hold)) :
    s.requestMode v = s.leaveDoze.pend s.mode v (some s.now) := by
  simp only [State.requestMode, h, h2, h7, h6, h5, hp, false_and, if_false]

theorem State.requestMode_placed (h2 : v ≠ 2) (h7 : v ≠ 7) (h6 : v ≠ 6) (hp : s.mode = .run ∨ s.mode = .hold) :
    s.requestMode v = (s.frogAll s.applyEdge).pend s.mode v (some (s.applyEdge + 6 * vclkFs)) := by
  have h : v ≠ s.mode.code := by
    rcases hp with e | e <;> rw [e]
    · exact h6
    · exact h7
  simp only [State.requestMode, h, h2, h7, h6, hp, false_and, if_false, if_true]

theorem State.requestMode_run (h : s.mode ≠ .run) : s.requestMode 6 = s.pend s.mode 6 (some s.applyEdge) := by
  have h : ¬ 6 = s.mode.code := fun e => h (Mode.code_inj (b := .run) e.symm)
  simp only [State.requestMode, h, false_and, if_false, if_true, Nat.reduceEqDiff]

theorem State.requestMode_hold (h : s.mode = .run) : s.requestMode 7 = ((s.freezeAll s.applyEdge).pend .run 7 none).holdCheck := by
  simp only [State.requestMode, h, Mode.code, false_and, if_false, if_true, Nat.reduceEqDiff]

/-- R484: an ARMED request from IDLE starts admission. -/
def State.startArming (s : State) : State :=
  let s := (s.wr Obj.plcState 0 1).dropTimedStart
  s.setPlc { s.plc with arming := some (s.now + 4 * msFs) }

theorem State.requestMode_arming (h : s.mode = .idle) : s.requestMode 5 = s.startArming.pend .idle 5 none := by
  have hp : ¬ (s.mode = .run ∨ s.mode = .hold) := by rw [h]; decide
  simp only [State.requestMode, h, Mode.code, false_and, if_false, if_true, Nat.reduceEqDiff, reduceCtorEq, or_self]
  rfl

theorem State.requestMode_safe (h : s.mode ≠ .safe) :
    s.requestMode 2 = if s.mode = .boot then { s with safeWanted := true } else if s.psm.plan.isSome then s else s.safeNow 1 := by
  have h : ¬ 2 = s.mode.code := fun e => h (Mode.code_inj (b := .safe) e.symm)
  simp only [State.requestMode, h, false_and, if_false, if_true]

end

end Sys2Proof.Machine
end

section
namespace Sys2Proof.Machine
-- one declaration at a time, as in the laws: each `decide +kernel` waits for the declarations before it
set_option Elab.async false

/-! ### Every running or held needle of a request (R111, R115) -/

/-- One change of the runtime state of every needle of a list. -/
theorem State.mapNdls_ndl (g : NdlRt → NdlRt) {l : List Nat} (hl : l.Nodup) (s : State) (m : Nat) :
    (l.foldl (fun s n => s.setNdl n (g (s.ndl n))) s).ndl m = if m ∈ l then g (s.ndl m) else s.ndl m := by
  induction l generalizing s with
  | nil => rfl
  | cons n l ih =>
    obtain ⟨hn, hl⟩ := List.nodup_cons.1 hl
    rw [List.foldl_cons, ih hl]
    by_cases e : m = n
    · subst e
      rw [if_neg hn, if_pos List.mem_cons_self, State.setNdl_self]
    · rw [State.setNdl_ne _ _ _ _ e]
      simp only [List.mem_cons, e, false_or]

theorem needles_nodup (p : Nat → Bool) : (needles p).Nodup := List.nodup_range.filter p

theorem mem_needles {p : Nat → Bool} {m : Nat} (hm : m < 16) : m ∈ needles p ↔ p m = true := by
  rw [needles, List.mem_filter, List.mem_range]
  exact ⟨fun h => h.2, fun h => ⟨hm, h⟩⟩

/-- A frog of cause HOST is on its way, with its commit edge (R115). -/
def NdlRt.addFrog (r : NdlRt) (a : Nat) : NdlRt := { r with frogs := r.frogs ++ [(a, 3)] }

/-- The needle freezes from an edge on, or from an earlier one (R111). -/
def NdlRt.freezeFrom (r : NdlRt) (a : Nat) : NdlRt := { r with freeze := some (match r.freeze with | some f => min f a | none => a) }

theorem State.frogAll_ndl (s : State) (a : Nat) {m : Nat} (hm : m < 16) :
    (s.frogAll a).ndl m = if s.busyNeedle m = true then (s.ndl m).addFrog a else s.ndl m := by
  simp only [← mem_needles (p := s.busyNeedle) hm]
  exact State.mapNdls_ndl (NdlRt.addFrog · a) (needles_nodup s.busyNeedle) s m

theorem State.freezeAll_ndl (s : State) (a : Nat) {m : Nat} (hm : m < 16) :
    (s.freezeAll a).ndl m = if s.running m = true ∧ (s.ndl m).bound = none ∧ s.ndlState m ≠ 7 then (s.ndl m).freezeFrom a else s.ndl m := by
  have hmem : m ∈ (needles s.running).filter (fun n => (s.ndl n).bound.isNone && s.ndlState n != 7) ↔
      s.running m = true ∧ (s.ndl m).bound = none ∧ s.ndlState m ≠ 7 := by
    rw [List.mem_filter, mem_needles hm, Bool.and_eq_true, Option.isNone_iff_eq_none, bne_iff_ne]
  simp only [← hmem]
  exact State.mapNdls_ndl (NdlRt.freezeFrom · a) ((needles_nodup s.running).filter _) s m

/-- R115: a frog of cause HOST is on its way to every running or held needle. -/
theorem State.frogAll_frogs (s : State) (a : Nat) {m : Nat} (hm : m < 16) :
    ((s.frogAll a).ndl m).frogs = (s.ndl m).frogs ++ (if s.busyNeedle m then [(a, 3)] else []) := by
  rw [s.frogAll_ndl a hm]
  split
  · rfl
  · exact (List.append_nil _).symm

/-- R111, R112: every running needle that is not in its bind-off freezes from the edge on. -/
theorem State.freezeAll_freeze (s : State) (a : Nat) {m : Nat} (hm : m < 16) :
    ((s.freezeAll a).ndl m).freeze = if s.running m = true ∧ (s.ndl m).bound = none ∧ s.ndlState m ≠ 7 then
      some (match (s.ndl m).freeze with | some f => min f a | none => a) else (s.ndl m).freeze := by
  rw [s.freezeAll_ndl a hm]
  split <;> rfl

theorem Kept.anyRunning_eq {m : Nat} {s t : State} (k : Kept m s t) (hm : m.testBit (Obj.ndlState + 64) = false) : t.anyRunning = s.anyRunning := by
  have run (n : Nat) : t.running n = s.running n := congrArg ([3, 4, 5, 7].contains ·) (k.rd n (by decide) hm)
  rw [State.anyRunning, State.anyRunning, funext run]

/-! ### Mode requests as commands -/

section
variable {s : State} {n v : Nat} {x : Session} {r : ObjRow} {i : Instr} {C : State → Prop} {q : State → State → Prop}

/-- The command i of session n writes v to DEV.MODE_REQ. -/
def Asks (n v : Nat) (i : Instr) : Prop := v ≠ 0 ∧ ∀ s, exec i s = .next (s.hostPut n Obj.devModeReq 0 v)

theorem State.commitCommand_modeReq (u : State) (hv : v ≠ 0) : u.commitCommand r Obj.devModeReq 0 v [0] =
    (if (u.requestMode v).plc.arming.isSome && u.plc.arming.isNone then .wait .arming 0 0 else .of rOk, u.requestMode v) :=
  State.commitCommand_eq (fun _ => hv) _ _ _

theorem toLE_value {n : Nat} (hv : v < 256 ^ n) : ofLE (toLE n v) = v := (ofLE_toLE ..).trans (Nat.mod_eq_of_lt hv)

/-- A request that does not start admission is answered OK. -/
theorem takes_request (hi : Asks n v i) (hC : ∀ u : State, C { u with waiters := [] } → C u) (hp : ∀ u, C u → (u.requestMode v).plc = u.plc)
    (hq : ∀ u, C u → q { u with waiters := [] } (({ u.requestMode v with waiters := [] } : State).emit (wrote n rOk 0xFFFF))) :
    Takes i s n x r Obj.devModeReq 0 v [0] (fun b t => C b → q b t) := by
  intro hv ha
  refine ha.effect_done (c := fun u => u.requestMode v) (m := km_requestMode) ?_ (by decide +kernel) hC (fun u hu => ?_) (fun u _ => u.requestMode_kept v) hq
  · rw [hi.2, State.hostPut_eq ha.row]
  · rw [toLE_value hv, State.commitCommand_modeReq u hi.1, hp u hu]
    cases u.plc.arming <;> rfl


/-- A request that starts admission waits for its end. -/
theorem takes_arming (hi : Asks n v i) (hC : ∀ u : State, C { u with waiters := [] } → C u)
    (hp : ∀ u, C u → u.plc.arming = none ∧ (u.requestMode v).plc.arming.isSome = true)
    (hq : ∀ u, C u → q { u with waiters := [] } { u.requestMode v with waiters := [⟨.arming, n, 0x02, false, 0, 0, none⟩] }) :
    Takes i s n x r Obj.devModeReq 0 v [0] (fun b t => C b → q b t) := by
  intro hv ha
  refine ha.effect_wait (tok := .arming) (c := fun u => u.requestMode v) (m := km_requestMode) ?_ (by decide +kernel) hC (fun u hu => ?_)
    (fun u _ => u.requestMode_kept v) hq
  · rw [hi.2, State.hostPut_eq ha.row]
  · obtain ⟨h0, h1⟩ := hp u hu
    rw [toLE_value hv, State.commitCommand_modeReq u hi.1, h0, h1]
    rfl

end

/-- The nine commands that ask for a mode. -/
abbrev modeRequests (n : Nat) : List (Nat × Instr) :=
  [(1, Instr.requestBoot n), (2, .requestSafe n), (3, .requestIdle n), (4, .requestDoze n), (5, .requestArmed n), (6, .requestRun n),
    (7, .requestHold n), (8, .requestMeasure n), (9, .requestCalibrate n)]

theorem asks_of_mem {n : Nat} : ∀ p ∈ modeRequests n, Asks n p.1 p.2 := by
  simp only [List.forall_mem_cons, Asks]
  exact ⟨⟨by decide, fun _ => rfl⟩, ⟨by decide, fun _ => rfl⟩, ⟨by decide, fun _ => rfl⟩, ⟨by decide, fun _ => rfl⟩, ⟨by decide, fun _ => rfl⟩,
    ⟨by decide, fun _ => rfl⟩, ⟨by decide, fun _ => rfl⟩, ⟨by decide, fun _ => rfl⟩, ⟨by decide, fun _ => rfl⟩, List.forall_mem_nil _⟩

/-- Session n is answered OK (R688). -/
def Answered (n : Nat) (b t : State) : Prop := t.out = b.out ++ [wrote n rOk 0xFFFF]

section
variable {s : State} {n v : Nat} {x : Session} {r : ObjRow} {i : Instr}

/-- R101: a request for the current mode. -/
theorem takes_current (hi : Asks n v i) : Takes i s n x r Obj.devModeReq 0 v [0] (fun b t =>
    b.inTransition = false → v = b.mode.code → Answered n b t ∧ Keeps b t [] [.out]) := by
  refine (takes_request (C := fun u => u.inTransition = false ∧ v = u.mode.code) hi (fun _ h => h) (fun u h => ?_) (fun u h => ?_)).imp
    (fun _ _ h hi hv => h ⟨hi, hv⟩)
  · rw [State.requestMode_current h.2 h.1]
  · rw [State.requestMode_current h.2 h.1]
    exact ⟨rfl, (Keeps.refl u _ _).answered _ (by decide +kernel)⟩

/-- R107, R108, R583: BOOT, IDLE, DOZE, MEASURE or CALIBRATE from a mode without running needles. -/
theorem takes_unplaced (hi : Asks n v i) (h2 : v ≠ 2) (h7 : v ≠ 7) (h6 : v ≠ 6) (h5 : v ≠ 5) : Takes i s n x r Obj.devModeReq 0 v [0] (fun b t =>
    b.inTransition = false → v ≠ b.mode.code → ¬ (b.mode = .run ∨ b.mode = .hold) →
      t.trans = some ⟨b.mode.code, v, 1, some b.now⟩ ∧ t.clk.startQ = none ∧
      (b.clk.startQ = none → b.mode ≠ .doze → Answered n b t ∧ Keeps b t [] [.trans, .out]) ∧
      Keeps b t [] (withSignals [.clk, .psm, .trans, .obj Obj.clkStartStatus, .obj Obj.hmsState, .obj Obj.psmDomainState])) := by
  have eq {u : State} (h : v ≠ u.mode.code ∧ ¬ (u.mode = .run ∨ u.mode = .hold)) : u.requestMode v = u.leaveDoze.pend u.mode v (some u.now) :=
    State.requestMode_other h.1 h2 h7 h6 h5 h.2
  have kept (u : State) : Kept (km_leaveDoze ||| km_pend) u (u.leaveDoze.pend u.mode v (some u.now)) :=
    (State.pend_kept ..).step (by decide +kernel) ((State.leaveDoze_kept u).mono (by decide +kernel))
  refine (takes_request (C := fun u => v ≠ u.mode.code ∧ ¬ (u.mode = .run ∨ u.mode = .hold)) hi (fun _ h => h) (fun u h => ?_) (fun u h => ?_)).imp
    (fun _ _ h _ hv hp => h ⟨hv, hp⟩)
  · rw [eq h]; exact (kept u).same .plc (by decide +kernel)
  · rw [eq h]
    refine ⟨State.pend_trans .., State.pend_startQ _ _ _ h6, fun (hq : u.clk.startQ = none) (hd : u.mode ≠ .doze) => ?_,
      ((kept u).keeps _ _ (by decide +kernel)).answered _ (by decide +kernel)⟩
    rw [State.leaveDoze_of_ne hd, State.pend_of_none _ _ _ hq]
    exact ⟨rfl, ((State.setTrans_kept ..).keeps _ _ (by decide +kernel)).answered _ (by decide +kernel)⟩

/-- A request that has changed needles at most, with no timed start pending. -/
theorem State.pend_answered {u w : State} (k : Kept pt.ndls u w) (hq : u.clk.startQ = none) (m : Mode) (v : Nat) (d : Option Nat) :
    Answered n { u with waiters := [] } (({ w.pend m v d with waiters := [] } : State).emit (wrote n rOk 0xFFFF)) ∧
    Keeps { u with waiters := [] } (({ w.pend m v d with waiters := [] } : State).emit (wrote n rOk 0xFFFF)) [] [.trans, .ndls, .out] := by
  have hw : w.clk.startQ = none := (congrArg ClkRt.startQ (k.same .clk (by decide +kernel))).trans hq
  rw [State.pend_of_none _ _ _ hw]
  exact ⟨congrArg (· ++ [wrote n rOk 0xFFFF]) (k.same .out (by decide +kernel)),
    (((Keeps.refl u _ _).kept k (by decide +kernel)).kept (State.setTrans_kept ..) (by decide +kernel)).answered _ (by decide +kernel)⟩

/-- R110, R115: IDLE or ARMED from RUN or HOLD. -/
theorem takes_placed (hi : Asks n v i) (h2 : v ≠ 2) (h7 : v ≠ 7) (h6 : v ≠ 6) : Takes i s n x r Obj.devModeReq 0 v [0] (fun b t =>
    b.inTransition = false → b.mode = .run ∨ b.mode = .hold →
      t.trans = some ⟨b.mode.code, v, 1, some (b.applyEdge + 6 * vclkFs)⟩ ∧ t.clk.startQ = none ∧
      (∀ m < 16, (t.ndl m).frogs = (b.ndl m).frogs ++ (if b.busyNeedle m then [(b.applyEdge, 3)] else [])) ∧
      (b.clk.startQ = none → Answered n b t ∧ Keeps b t [] [.trans, .ndls, .out]) ∧ Keeps b t [] (withSignals [.clk, .ndls, .trans, .obj Obj.clkStartStatus])) := by
  have kept (u : State) (d : Option Nat) : Kept (km_frogAll ||| km_pend) u ((u.frogAll u.applyEdge).pend u.mode v d) :=
    (State.pend_kept ..).step (by decide +kernel) ((State.frogAll_kept ..).mono (by decide +kernel))
  refine (takes_request (C := fun u => u.mode = .run ∨ u.mode = .hold) hi (fun _ h => h) (fun u h => ?_) (fun u h => ?_)).imp (fun _ _ h _ hp => h hp)
  · rw [State.requestMode_placed h2 h7 h6 h]; exact (kept u _).same .plc (by decide +kernel)
  · rw [State.requestMode_placed h2 h7 h6 h]
    refine ⟨State.pend_trans .., State.pend_startQ _ _ _ h6, fun m hm => ?_, fun (hq : u.clk.startQ = none) => ?_,
      ((kept u _).keeps _ _ (by decide +kernel)).answered _ (by decide +kernel)⟩
    · exact (congrArg NdlRt.frogs ((State.pend_kept ..).ndl_eq (by decide +kernel) m)).trans (u.frogAll_frogs u.applyEdge hm)
    · exact State.pend_answered ((State.frogAll_kept ..).mono (by decide +kernel)) hq _ _ _

/-- R105, R113: RUN. -/
theorem takes_run : Takes (.requestRun n) s n x r Obj.devModeReq 0 6 [0] (fun b t => b.inTransition = false → b.mode ≠ .run →
    t.trans = some ⟨b.mode.code, 6, 1, some b.applyEdge⟩ ∧
      (b.clk.startQ = none → Answered n b t ∧ Keeps b t [] [.trans, .out]) ∧ Keeps b t [] (withSignals [.clk, .trans, .obj Obj.clkStartStatus])) := by
  refine (takes_request (C := fun u => u.mode ≠ .run) ⟨by decide, fun _ => rfl⟩ (fun _ h => h) (fun u h => ?_) (fun u h => ?_)).imp (fun _ _ h _ hp => h hp)
  · rw [State.requestMode_run h]; exact (State.pend_kept ..).same .plc (by decide +kernel)
  · rw [State.requestMode_run h]
    refine ⟨State.pend_trans .., fun (hq : u.clk.startQ = none) => ?_, ((State.pend_kept ..).keeps _ _ (by decide +kernel)).answered _ (by decide +kernel)⟩
    rw [State.pend_of_none _ _ _ hq]
    exact ⟨rfl, ((State.setTrans_kept ..).keeps _ _ (by decide +kernel)).answered _ (by decide +kernel)⟩

/-- R111: a HOLD that waits for a running needle. -/
theorem State.requestMode_holds {u : State} (hr : u.mode = .run) (ha : u.anyRunning = true) : u.requestMode 7 = (u.freezeAll u.applyEdge).pend .run 7 none := by
  rw [State.requestMode_hold hr]
  refine State.holdCheck_of_waits (fun _ _ _ => ?_)
  exact ((State.pend_kept ..).anyRunning_eq (by decide +kernel)).trans (((u.freezeAll_kept u.applyEdge).anyRunning_eq (by decide +kernel)).trans ha)

/-- R111, R112: HOLD with a needle running. -/
theorem takes_hold : Takes (.requestHold n) s n x r Obj.devModeReq 0 7 [0] (fun b t => b.inTransition = false → b.mode = .run → b.anyRunning = true →
    t.trans = some ⟨6, 7, 1, none⟩ ∧ t.clk.startQ = none ∧ t.mode = .run ∧
      (∀ m < 16, (t.ndl m).freeze = (if b.running m = true ∧ (b.ndl m).bound = none ∧ b.ndlState m ≠ 7 then
        some (match (b.ndl m).freeze with | some f => min f b.applyEdge | none => b.applyEdge) else (b.ndl m).freeze)) ∧
      (b.clk.startQ = none → Answered n b t ∧ Keeps b t [] [.trans, .ndls, .out]) ∧ Keeps b t [] (withSignals [.clk, .ndls, .trans, .obj Obj.clkStartStatus])) := by
  have kept (u : State) : Kept (km_freezeAll ||| km_pend) u ((u.freezeAll u.applyEdge).pend .run 7 none) :=
    (State.pend_kept ..).step (by decide +kernel) ((State.freezeAll_kept ..).mono (by decide +kernel))
  refine (takes_request (C := fun u => u.mode = .run ∧ u.anyRunning = true) ⟨by decide, fun _ => rfl⟩ (fun _ h => h) (fun u h => ?_) (fun u h => ?_)).imp
    (fun _ _ h _ hr ha => h ⟨hr, ha⟩)
  · rw [State.requestMode_holds h.1 h.2]; exact (kept u).same .plc (by decide +kernel)
  · rw [State.requestMode_holds h.1 h.2]
    refine ⟨State.pend_trans .., State.pend_startQ _ _ _ (by decide), ((kept u).mode_eq (by decide +kernel)).trans h.1, fun m hm => ?_,
      fun (hq : u.clk.startQ = none) => ?_, ((kept u).keeps _ _ (by decide +kernel)).answered _ (by decide +kernel)⟩
    · exact (congrArg NdlRt.freeze ((State.pend_kept ..).ndl_eq (by decide +kernel) m)).trans (u.freezeAll_freeze u.applyEdge hm)
    · exact State.pend_answered ((State.freezeAll_kept ..).mono (by decide +kernel)) hq _ _ _

theorem State.startArming_plc (u : State) : u.startArming.plc = { u.plc with arming := some (u.now + 4 * msFs) } := by
  have k := (u.wr Obj.plcState 0 1).dropTimedStart_kept
  have now : (u.wr Obj.plcState 0 1).dropTimedStart.now = u.now := k.now_eq (by decide +kernel)
  have plc : (u.wr Obj.plcState 0 1).dropTimedStart.plc = u.plc := k.same .plc (by decide +kernel)
  rw [State.startArming, ← now, ← plc]
  rfl

theorem State.startArming_state (u : State) : u.startArming.rd Obj.plcState 0 = 1 :=
  ((State.dropTimedStart_kept _).rd 0 (by decide) (by decide +kernel)).trans (State.rd_wr_self ..)

/-- The start of admission writes PLC.STATE alone. -/
theorem State.startArming_keeps (u : State) : Keeps u u.startArming [(Obj.plcState, 0)] (withSignals [.clk, .plc, .trans, .waiters, .obj Obj.clkStartStatus]) :=
  (((Keeps.refl u _ _).wr 1 (by decide) (by simp)).kept (State.dropTimedStart_kept _) (by decide +kernel)).kept (State.setPlc_kept ..) (by decide +kernel)

theorem State.startArming_keeps_of_none {u : State} (h : u.clk.startQ = none) : Keeps u u.startArming [(Obj.plcState, 0)] [.trans, .plc, .waiters] := by
  unfold State.startArming
  rw [State.dropTimedStart_of_none (s := u.wr Obj.plcState 0 1) h]
  exact ((Keeps.refl u _ _).wr 1 (by decide) (by simp)).kept (State.setPlc_kept ..) (by decide +kernel)

/-- R484, R486: ARMED from IDLE. -/
theorem takes_armed : Takes (.requestArmed n) s n x r Obj.devModeReq 0 5 [0] (fun b t => b.inTransition = false → b.mode = .idle → b.plc.arming = none →
    t.trans = some ⟨3, 5, 1, none⟩ ∧ t.rd Obj.plcState 0 = 1 ∧ t.plc = { b.plc with arming := some (b.now + 4 * msFs) } ∧
      t.waiters = [⟨.arming, n, 0x02, false, 0, 0, none⟩] ∧ t.clk.startQ = none ∧
      (b.clk.startQ = none → Keeps b t [(Obj.plcState, 0)] [.trans, .plc, .waiters]) ∧
      Keeps b t [(Obj.plcState, 0)] (withSignals [.clk, .plc, .trans, .waiters, .obj Obj.clkStartStatus])) := by
  have plc (u : State) : (u.startArming.pend .idle 5 none).plc = { u.plc with arming := some (u.now + 4 * msFs) } :=
    ((State.pend_kept ..).same .plc (by decide +kernel)).trans u.startArming_plc
  refine (takes_arming (C := fun u => u.mode = .idle ∧ u.plc.arming = none) ⟨by decide, fun _ => rfl⟩ (fun _ h => h) (fun u h => ⟨h.2, ?_⟩) (fun u h => ?_)).imp
    (fun _ _ h _ hm ha => h ⟨hm, ha⟩)
  · rw [State.requestMode_arming h.1, plc]; rfl
  · rw [State.requestMode_arming h.1]
    have startQ : (u.startArming.pend .idle 5 none).clk.startQ = none := State.pend_startQ _ _ _ (by decide)
    refine ⟨State.pend_trans .., ((State.pend_kept ..).rd 0 (by decide) (by decide +kernel)).trans u.startArming_state, plc u, rfl, startQ,
      fun (hq : u.clk.startQ = none) => ?_, ?_⟩
    · have hqa : u.startArming.clk.startQ = none := State.dropTimedStart_startQ _
      rw [State.pend_of_none _ _ _ hqa]
      exact ((State.startArming_keeps_of_none hq).kept (State.setTrans_kept ..) (by decide +kernel)).waiting _ (by simp)
    · exact (u.startArming_keeps.kept (State.pend_kept ..) (by decide +kernel)).waiting _ (by decide +kernel)

/-- R102: SAFE is asked for in BOOT. -/
theorem takes_safe_boot : Takes (.requestSafe n) s n x r Obj.devModeReq 0 2 [0] (fun b t => b.mode = .boot → b.safeWanted = false →
    t.safeWanted = true ∧ t.mode = .boot ∧ Answered n b t ∧ Keeps b t [] [.safeWanted, .out]) := by
  have eq {u : State} (h : u.mode = .boot) : u.requestMode 2 = { u with safeWanted := true } := by
    rw [State.requestMode_safe (by rw [h]; decide), if_pos h]
  refine (takes_request (C := fun u => u.mode = .boot) ⟨by decide, fun _ => rfl⟩ (fun _ h => h) (fun u h => ?_) (fun u h => ?_)).imp (fun _ _ h hm _ => h hm)
  · rw [eq h]
  · rw [eq h]
    exact ⟨rfl, h, rfl, ((Kept.set_safeWanted (m := pt.safeWanted) (by decide +kernel) (.refl ..)).keeps _ _ (by decide +kernel)).answered _ (by decide +kernel)⟩

/-- R116, R126: SAFE is asked for, and its entry starts at once. -/
theorem takes_safe : Takes (.requestSafe n) s n x r Obj.devModeReq 0 2 [0] (fun b t => b.mode ≠ .boot → b.mode ≠ .safe → b.psm.plan = none → b.fcr.entry = none →
    t.fcr = { b.fcr with entry := some (b.now, false, 1, 0xFFFF) } ∧ Answered n b t ∧ Keeps b t [] [.fcr, .out]) := by
  have eq {u : State} (h : (u.mode ≠ .boot ∧ u.mode ≠ .safe) ∧ u.psm.plan = none ∧ u.fcr.entry = none) :
      u.requestMode 2 = { u with fcr := { u.fcr with entry := some (u.now, false, 1, 0xFFFF) } } := by
    rw [State.requestMode_safe h.1.2, if_neg h.1.1, h.2.1, if_neg (by decide), State.safeNow, h.2.2]
    dsimp only
    rw [State.scheduleEntry, h.2.2]
  refine (takes_request (C := fun u => (u.mode ≠ .boot ∧ u.mode ≠ .safe) ∧ u.psm.plan = none ∧ u.fcr.entry = none) ⟨by decide, fun _ => rfl⟩ (fun _ h => h)
    (fun u h => ?_) (fun u h => ?_)).imp (fun _ _ h hb hs hp he => h ⟨⟨hb, hs⟩, hp, he⟩)
  · rw [eq h]
  · rw [eq h]
    exact ⟨rfl, rfl, ((Kept.set_fcr (m := pt.fcr) (by decide +kernel) (.refl ..)).keeps _ _ (by decide +kernel)).answered _ (by decide +kernel)⟩

/-- R116: SAFE is asked for while the safe plan runs. -/
theorem takes_safe_planned : Takes (.requestSafe n) s n x r Obj.devModeReq 0 2 [0] (fun b t => b.mode ≠ .boot → b.mode ≠ .safe → b.psm.plan ≠ none →
    Answered n b t ∧ Keeps b t [] [.out]) := by
  have eq {u : State} (h : (u.mode ≠ .boot ∧ u.mode ≠ .safe) ∧ u.psm.plan ≠ none) : u.requestMode 2 = u := by
    rw [State.requestMode_safe h.1.2, if_neg h.1.1, if_pos (Option.isSome_iff_ne_none.2 h.2)]
  refine (takes_request (C := fun u => (u.mode ≠ .boot ∧ u.mode ≠ .safe) ∧ u.psm.plan ≠ none) ⟨by decide, fun _ => rfl⟩ (fun _ h => h)
    (fun u h => ?_) (fun u h => ?_)).imp (fun _ _ h hb hs hp => h ⟨⟨hb, hs⟩, hp⟩)
  · rw [eq h]
  · rw [eq h]
    exact ⟨rfl, (Keeps.refl u _ _).answered _ (by decide +kernel)⟩

end

/-- Settles O14: the requests that concern the current mode (`takes_current`), other modes (`takes_unplaced` to `takes_armed`) and SAFE (`takes_safe_*`). -/
theorem modeRequestsStartTransitions : Obligations.ModeRequestsStartTransitions := by
  unfold Obligations.ModeRequestsStartTransitions
  intro s n x r
  refine ⟨fun p hp => takes_current (asks_of_mem p hp), fun p hp => ?_, fun p hp => ?_, takes_run, takes_hold, takes_armed, takes_safe_boot, takes_safe,
    takes_safe_planned⟩
  · have hm : p ∈ modeRequests n := by simp only [List.mem_cons] at hp ⊢; tauto
    have apart : ∀ v ∈ [1, 3, 4, 8, 9], v ≠ 2 ∧ v ≠ 7 ∧ v ≠ 6 ∧ v ≠ 5 := by decide
    obtain ⟨h2, h7, h6, h5⟩ := apart p.1 (List.mem_map_of_mem (f := Prod.fst) hp)
    exact takes_unplaced (asks_of_mem p hm) h2 h7 h6 h5
  · have hm : p ∈ modeRequests n := by simp only [List.mem_cons] at hp ⊢; tauto
    have apart : ∀ v ∈ [3, 5], v ≠ 2 ∧ v ≠ 7 ∧ v ≠ 6 := by decide
    obtain ⟨h2, h7, h6⟩ := apart p.1 (List.mem_map_of_mem (f := Prod.fst) hp)
    exact takes_placed (asks_of_mem p hm) h2 h7 h6

end Sys2Proof.Machine
end

section
namespace Sys2Proof.Machine
-- one declaration at a time, as in the laws: each `decide +kernel` waits for the declarations before it
set_option Elab.async false

/-! ### A parity mismatch on the resume of a needle that has issued its BIND_OFF stitch (R236, R245) -/

/-- R795: what a checked access finds depends on the pending injection alone. -/
theorem State.checked_congr {s t : State} (hf : t.fcr = s.fcr) (hi : t.rd Obj.fcrInject 0 = s.rd Obj.fcrInject 0) (src master : Nat) :
    (t.checked src master).1 = (s.checked src master).1 := by
  unfold State.checked
  rw [hf, hi]
  dsimp only
  split <;> rfl

theorem Kept.checked_eq {m : Nat} {s t : State} (k : Kept m s t) (hf : m.testBit 15 = false) (hi : m.testBit (Obj.fcrInject + 64) = false) (src master : Nat) :
    (t.checked src master).1 = (s.checked src master).1 :=
  State.checked_congr (k.same .fcr hf) (k.rd 0 (by decide) hi) src master

theorem State.checkedMany_of_checked {s : State} {src master : Nat} (h : (s.checked src master).1 ≠ 0) (count : Nat) : (s.checkedMany src master count).1 ≠ 0 := by
  unfold State.checkedMany
  dsimp only
  rw [if_neg h]
  exact h

/-- R795: an injection into the control store shows in the next microroutine of a needle that it names. -/
theorem State.routine_injected {s : State} {n : Nat} (cycles : Nat) (h : (s.checked Ev.ucodeParity n).1 ≠ 0) : (s.routine n cycles).1.isSome = true := by
  unfold State.routine
  extract_lets entry
  obtain ⟨op, course⟩ := s.blockOf n
  dsimp -zeta only
  extract_lets u s1 s2
  have k1 : Kept (km_draw ||| km_setNdl) s s1 := (State.setNdl_kept ..).step (by decide +kernel) ((State.draw_kept s).mono (by decide +kernel))
  have k2 : Kept (km_draw ||| km_setNdl ||| km_ndlTraceAt) s s2 := by
    simp only [s2]
    split
    · exact k1.mono (by decide +kernel)
    · exact .foldl (fun v a k => (State.ndlTraceAt_kept ..).step (by decide +kernel) k) (k1.mono (by decide +kernel))
  have hc : (s2.checkedMany Ev.ucodeParity n u.words).1 ≠ 0 := by
    refine State.checkedMany_of_checked ?_ _
    rw [k2.checked_eq (by decide +kernel) (by decide +kernel)]
    exact h
  clear_value s2
  revert hc
  obtain ⟨k, v⟩ := s2.checkedMany Ev.ucodeParity n u.words
  intro hc
  have hk : k ≠ 0 := hc
  simp [hk]

@[simp] theorem NdlRt.standing_bound (r : NdlRt) : r.standing.bound = r.bound := rfl

theorem Beside.bound {n : Nat} {s t : State} (h : Beside n s t) : (t.ndl n).bound = (s.ndl n).bound := by
  rw [← NdlRt.standing_bound, h.standing, NdlRt.standing_bound]

/-- R236, R245: a parity mismatch frogs the needle too late: its BIND_OFF stitch has been issued, so it ends DONE. -/
theorem State.runRoutine_late {s : State} {n : Nat} (cycles : Nat) (hb : s.busyNeedle n = true) (hl : (s.ndl n).boundBefore s.now = true)
    (hp : (s.checked Ev.ucodeParity n).1 ≠ 0) : (s.runRoutine n cycles).ndlState n = 8 := by
  have hr : Beside n s (s.routine n cycles).2 := State.routine_beside ..
  have hk : Kept km_routine s (s.routine n cycles).2 := State.routine_kept ..
  have bad := State.routine_injected cycles hp
  unfold State.runRoutine
  revert hr hk bad
  obtain ⟨bad, u⟩ := s.routine n cycles
  intro hr hk hbad
  obtain ⟨a, rfl⟩ := Option.isSome_iff_exists.1 hbad
  let v := u.raise Ev.ucodeParity n n 4 a (some (2 ^ n)) true
  have kv : Kept km_raise u v := State.raise_kept ..
  have bv : Beside n s v := hr.trans (kv.beside n (by decide +kernel))
  have hbv : v.busyNeedle n = true := by rw [State.busyNeedle, bv.state]; exact hb
  have now : u.now = s.now := hk.now_eq (by decide +kernel)
  have bound : (v.ndl n).boundBefore u.now = true := by
    rw [NdlRt.boundBefore, bv.bound, now]
    exact hl
  change (v.frogAt n u.now 1).ndlState n = 8
  rw [State.frogAt_busy _ _ hbv, State.ndlState, (State.needlesEnded_kept ..).rd n (by decide) (by decide +kernel)]
  exact (State.frogBody_state ..).trans (if_pos bound)

theorem State.goOn_bound (s : State) (n a : Nat) : ((s.goOn n a).ndl n).bound = (s.ndl n).bound := by
  have unfreeze : ((s.unfreeze n a).ndl n).bound = (s.ndl n).bound := by
    have b : Beside n ((s.setNdl n { s.ndl n with fresh := true, resumed := true, t0 := a + 8 * vclkFs, brk := none, stallFrom := none }).wr Obj.ndlState n 4)
        (s.unfreeze n a) := .kept (State.rasFreeze_kept ..) (by decide +kernel) ((State.setStatus_kept ..).beside n (by decide +kernel))
    refine b.bound.trans ?_
    rw [State.wr_ndl, State.setNdl_self]
  unfold State.goOn
  extract_lets stalled u e
  change (u.ndl n).bound = _ at unfreeze
  split
  · exact unfreeze
  · split
    · rw [← NdlRt.standing_bound, u.stallEnd_standing, NdlRt.standing_bound]
      exact unfreeze
    · rw [State.restall, State.setNdl_self]
      exact unfreeze

theorem State.resumeNeedle_late {s : State} {n : Nat} (a : Nat) (h6 : s.ndlState n = 6) (hl : (s.ndl n).boundBefore s.now = true)
    (hp : (s.checked Ev.ucodeParity n).1 ≠ 0) : (s.resumeNeedle n a).ndlState n = 8 := by
  have g := s.goOn_goesOn n a
  have bound := s.goOn_bound n a
  rw [State.resumeNeedle_held a h6]
  refine State.runRoutine_late 8 ?_ ?_ ?_
  · rcases g.state with h | ⟨_, h⟩ <;> rw [State.busyNeedle, h] <;> rfl
  · rw [NdlRt.boundBefore, bound, g.kept.now_eq (by decide +kernel)]
    exact hl
  · rw [g.kept.checked_eq (by decide +kernel) (by decide +kernel)]
    exact hp

/-- Where a single needle is held, its resume is all that a resume does to the needles. -/
theorem State.resumeList_single {s : State} {n : Nat} (a : Nat) {l : List Nat} (hl : l.Nodup) (hn : n ∈ l) (hh : s.NoHold) (alone : ∀ m ∈ l, m ≠ n → s.ndlState m ≠ 6) :
    l.foldl (State.resumeNeedle · · a) s = s.resumeNeedle n a := by
  have rest (u : State) (l : List Nat) (h : ∀ m ∈ l, u.ndlState m ≠ 6) : l.foldl (State.resumeNeedle · · a) u = u := by
    induction l with
    | nil => rfl
    | cons k l ih =>
      rw [List.foldl_cons, State.resumeNeedle_other a (h k List.mem_cons_self)]
      exact ih (fun m hm => h m (List.mem_cons_of_mem _ hm))
  induction l with
  | nil => cases hn
  | cons k l ih =>
    obtain ⟨hk, hl⟩ := List.nodup_cons.1 hl
    rw [List.foldl_cons]
    by_cases e : k = n
    · subst e
      refine rest _ l (fun m hm => ?_)
      have hne : m ≠ k := fun h => hk (h ▸ hm)
      rw [(s.resumeNeedle_resumes k a hh).only.state m hne]
      exact alone m (List.mem_cons_of_mem _ hm) hne
    · rw [State.resumeNeedle_other a (alone k List.mem_cons_self e)]
      exact ih hl ((List.mem_cons.1 hn).resolve_left (Ne.symm e)) (fun m hm => alone m (List.mem_cons_of_mem _ hm))

/-- R113, R236: the resume of a single held needle whose BIND_OFF stitch was issued before the apply edge, with an injection into its microroutine. -/
theorem State.resumeAll_late {s : State} {x : Trans} {a n : Nat} (hx : s.trans = some x) (ht : x.target = 6) (hs : x.source = 7) (hd : x.due = some a)
    (hn : n < 16) (h6 : s.ndlState n = 6) (alone : ∀ m < 16, m ≠ n → s.ndlState m ≠ 6) (hl : (s.ndl n).boundBefore (max s.now a) = true)
    (hp : (s.checked Ev.ucodeParity n).1 ≠ 0) : s.resumeAll.ndlState n = 8 := by
  have k := s.resumeEdge_kept x a
  have state (m : Nat) : (s.resumeEdge x a).ndlState m = s.ndlState m := k.rd m (by decide) (by decide +kernel)
  have noHold : (s.resumeEdge x a).NoHold := fun y hy => by rw [State.resumeEdge_trans] at hy; cases hy
  rw [State.resumeAll_eq hx ht hs hd, State.ndlState, (State.taeResume_kept ..).rd n (by decide) (by decide +kernel),
    State.resumeList_single a List.nodup_range (List.mem_range.2 hn) noHold (fun m hm hne => by rw [state]; exact alone m (List.mem_range.1 hm) hne)]
  refine State.resumeNeedle_late a ?_ ?_ ?_
  · rw [state]; exact h6
  · rw [k.ndl_eq (by decide +kernel), State.resumeEdge_now]; exact hl
  · rw [k.checked_eq (by decide +kernel) (by decide +kernel)]; exact hp

theorem exec_modeTransitionComplete (s : State) : exec .modeTransitionComplete s = settled (runModeTransitionComplete s) := rfl

theorem runModeTransitionComplete_resumes {s : State} {x : Trans} {a : Nat} (hx : s.trans = some x) (ht : x.target = 6) (hs : x.source = 7) (hd : x.due = some a) :
    runModeTransitionComplete s = .next s.resumeAll := by
  rw [runModeTransitionComplete, hx]
  dsimp only
  rw [hd]
  dsimp only
  rw [if_pos (by exact ht), if_pos (by exact hs)]

/-- R113, R236: the same for the command. -/
theorem modeTransitionComplete_late {s : State} {x : Trans} {a n : Nat} (quiet : s.Quiet) (hx : s.trans = some x) (ht : x.target = 6) (hs : x.source = 7)
    (hd : x.due = some a) (hn : n < 16) (h6 : s.ndlState n = 6) (alone : ∀ m < 16, m ≠ n → s.ndlState m ≠ 6) (hl : (s.ndl n).boundBefore (max s.now a) = true)
    (hp : (s.checked Ev.ucodeParity n).1 ≠ 0) : Next .modeTransitionComplete s (fun t => t.ndlState n = 8) := by
  have ex : exec .modeTransitionComplete s = settled (.next s.resumeAll) := by
    rw [exec_modeTransitionComplete, runModeTransitionComplete_resumes hx ht hs hd]
  exact quiet.next_settled ex (State.resumeAll_kept s) (by decide +kernel) (State.resumeAll_late hx ht hs hd hn h6 alone hl hp) (fun _ _ h => h)

/-- HOLD with a RUN request at its apply edge: needle 0 is held, its BIND_OFF stitch has been issued, and one access of its microsequencer is to be corrupted. -/
def boundHeld : State :=
  let s := ((rIn .hold).wr Obj.ndlState 0 6).setNdl 0 { bound := some (0, 0) }
  let s := ((s.setFld Obj.fcrInject 0 F.fcrInjectSource Ev.ucodeParity).setFld Obj.fcrInject 0 F.fcrInjectMaster 0xFF).setFld Obj.fcrInject 0 F.fcrInjectBits 1
  { s with trans := some ⟨7, 6, 1, some 9⟩, fcr := { injLeft := 1 } }

theorem boundHeld_quiet : boundHeld.Quiet := ⟨rfl, rfl, rfl, rfl⟩

theorem boundHeld_trans : boundHeld.trans = some ⟨7, 6, 1, some 9⟩ := rfl

theorem boundHeld_late : Next .modeTransitionComplete boundHeld (fun t => t.ndlState 0 = 8) :=
  modeTransitionComplete_late (x := ⟨7, 6, 1, some 9⟩) (a := 9) boundHeld_quiet boundHeld_trans rfl rfl rfl (by decide) (by decide +kernel) (by decide +kernel)
    (by decide +kernel) (by decide +kernel)

/-- Refutes O15: of a RUN from HOLD it says that every held needle is then RUNNING, STALLED or FROGGED. A parity mismatch of the resume's microroutine (R245) frogs
the needle, and a frog that comes after its BIND_OFF stitch was issued leaves it DONE (R236); the statement does not ask that no held needle has issued one. -/
theorem not_transitionsComplete : ¬ Obligations.TransitionsComplete := by
  unfold Obligations.TransitionsComplete
  intro h
  obtain ⟨-, -, -, -, -, -, resumes, -⟩ := (h boundHeld boundHeld_quiet).2 _ 9 boundHeld_trans rfl
  obtain ⟨t, ex, -, -, -, -, -, -, -, ends⟩ := resumes rfl rfl
  obtain ⟨u, ex', done⟩ := boundHeld_late
  have same : t = u := Host.Outcome.next.inj (ex.symm.trans ex')
  have ends0 := ends 0 (by decide) (by decide +kernel)
  rw [same, done] at ends0
  exact absurd ends0 (by decide)

end Sys2Proof.Machine
end

section
namespace Sys2Proof.Machine
-- one declaration at a time, as in the laws: each `decide +kernel` waits for the declarations before it
set_option Elab.async false

/-! ### What an entry to SAFE or DUMP holds on to while it stops the engine (R126) -/

/-- The entry has been taken; only a fault of a needle that it stops can have set another on its way. -/
def State.EntryTaken (s : State) : Prop := s.fcr.entry = none ∨ s.active Ev.ucodeParity = true ∨ s.active Ev.streamUnderrun = true

theorem State.EntryTaken.grows {s t : State} (h : s.EntryTaken) (he : t.fcr.entry = s.fcr.entry) (g : s.ActiveGrows t) : t.EntryTaken :=
  h.imp (fun e => he.trans e) (Or.imp (g _) (g _))

/-- The parts that say whether an entry has been taken. -/
def takenParts : Nat := pt.fcr ||| ob Obj.fcrActive

theorem Kept.entryTaken {m : Nat} {s t : State} (k : Kept m s t) (hm : m &&& takenParts = 0) (h : s.EntryTaken) : t.EntryTaken :=
  h.grows (congrArg FcrRt.entry (k.same .fcr (testBit_off_of_land hm (by decide +kernel)))) (k.activeGrows (testBit_off_of_land hm (by decide +kernel)))

/-- Every needle that runs or is held is one of a list. -/
def State.BusyIn (s : State) (l : List Nat) : Prop := ∀ k < 16, s.busyNeedle k = true → k ∈ l

theorem State.BusyIn.nil {s : State} (h : s.BusyIn []) : ∀ k < 16, s.busyNeedle k = false := fun k hk => Bool.eq_false_iff.2 fun hb => List.not_mem_nil (h k hk hb)

theorem Kept.busyIn {m : Nat} {s t : State} {l : List Nat} (k : Kept m s t) (hm : m.testBit (Obj.ndlState + 64) = false) (h : s.BusyIn l) : t.BusyIn l :=
  fun i hi hb => h i hi (by rwa [State.busyNeedle, show t.ndlState i = s.ndlState i from k.rd i (by decide) hm] at hb)

theorem OnlyNeedle.busyIn {n : Nat} {s t : State} {l : List Nat} (k : OnlyNeedle n s t) (hn : t.busyNeedle n = false) (h : s.BusyIn (n :: l)) : t.BusyIn l := by
  intro i hi hb
  by_cases e : i = n
  · rw [e, hn] at hb; cases hb
  · refine (List.mem_cons.1 (h i hi ?_)).resolve_left e
    rwa [State.busyNeedle, k.state i e] at hb

/-- The engine from the entry edge on: it stands at an instant and in a mode, no transition and no ride-through goes on, and the safe plan runs. -/
structure State.Entering (now : Nat) (m : Mode) (p : Nat × Bool × Nat × Nat) (s : State) : Prop where
  now : s.now = now
  mode : s.mode = m
  trans : s.trans = none
  wanted : s.safeWanted = false
  plan : s.psm.plan = some p
  ride : s.psm.ride = none

section
variable {now mask : Nat} {m : Mode} {p : Nat × Bool × Nat × Nat} {s t : State}

/-- The parts, the power supplies' runtime state apart, that an entry's state is made of. -/
def enteringParts : Nat := pt.now ||| pt.trans ||| pt.safeWanted ||| ob Obj.devMode

theorem State.Entering.of_psm (h : s.Entering now m p) (k : Kept mask s t) (hm : mask &&& enteringParts = 0) (hp : t.psm.plan = s.psm.plan)
    (hr : t.psm.ride = s.psm.ride) : t.Entering now m p where
  now := (k.now_eq (testBit_off_of_land hm (by decide +kernel))).trans h.now
  mode := (k.mode_eq (testBit_off_of_land hm (by decide +kernel))).trans h.mode
  trans := (k.trans_eq (testBit_off_of_land hm (by decide +kernel))).trans h.trans
  wanted := (k.same .safeWanted (testBit_off_of_land hm (by decide +kernel))).trans h.wanted
  plan := hp.trans h.plan
  ride := hr.trans h.ride

theorem State.Entering.kept (h : s.Entering now m p) (k : Kept mask s t) (hm : mask &&& (enteringParts ||| pt.psm) = 0) : t.Entering now m p := by
  have psm : t.psm = s.psm := k.same .psm (testBit_off_of_land hm (by decide +kernel))
  have apart : mask &&& enteringParts = 0 := by
    rw [Nat.and_or_distrib_left] at hm
    exact (Nat.or_eq_zero_iff.1 hm).1
  exact h.of_psm k apart (congrArg PsmRt.plan psm) (congrArg PsmRt.ride psm)

end

/-! ### The needles stop (R126, R234 to R239) -/

/-- While the safe plan runs, the end of the last needle starts no way back to ARMED (R110, R116). -/
theorem State.needlesEnded_of_plan {s : State} (t : Nat) (hp : s.psm.plan.isSome = true) (ht : s.trans = none) : s.needlesEnded t = s := by
  rw [State.needlesEnded, if_neg, State.holdCheck_of_waits (fun x hx => by rw [ht] at hx; cases hx)]
  rintro ⟨-, -, hn, -⟩
  rw [Option.isNone_iff_eq_none.1 hn] at hp
  cases hp

/-- The parts that a further frog of a needle that has stopped may change. -/
def frogAgainParts : Nat := km_setNdl ||| km_setStatus ||| km_frogResults

theorem State.frogAt_idle {s : State} {n : Nat} (c cause : Nat) (h : s.busyNeedle n = false) : Kept frogAgainParts s (s.frogAt n c cause) := by
  have pass (r : NdlRt) : Kept frogAgainParts s (s.setNdl n r) := (State.setNdl_kept ..).mono (by decide +kernel)
  have hb (r : NdlRt) : (!(s.setNdl n r).busyNeedle n) = true := by rw [show (s.setNdl n r).busyNeedle n = false from h]; rfl
  unfold State.frogAt
  extract_lets r u r' u' _
  rw [if_pos (hb _)]
  refine Kept.ite (fun _ => Kept.ite (fun _ => ?_) (fun _ => ?_)) (fun _ => pass _)
  · exact (State.frogResults_kept ..).step (by decide +kernel) <| (State.setStatus_kept ..).step (by decide +kernel) (pass _)
  · exact (State.setStatus_kept ..).step (by decide +kernel) (pass _)

theorem State.checked_entry (s : State) (src master : Nat) : (s.checked src master).2.fcr.entry = s.fcr.entry := by
  unfold State.checked
  extract_lets r m
  split <;> rfl

theorem State.checkedMany_entry (s : State) (src master count : Nat) : (s.checkedMany src master count).2.fcr.entry = s.fcr.entry := by
  have e := s.checked_entry src master
  unfold State.checkedMany
  revert e
  obtain ⟨k, u⟩ := s.checked src master
  intro e
  dsimp only
  split
  · exact e
  · exact e

theorem State.routine_entry (s : State) (n cycles : Nat) : (s.routine n cycles).2.fcr.entry = s.fcr.entry := by
  unfold State.routine
  extract_lets entry
  obtain ⟨op, course⟩ := s.blockOf n
  dsimp -zeta only
  extract_lets u s1 s2
  have k1 : Kept (km_draw ||| km_setNdl ||| km_ndlTraceAt) s s1 := (State.setNdl_kept ..).step (by decide +kernel) ((State.draw_kept s).mono (by decide +kernel))
  have k2 : Kept (km_draw ||| km_setNdl ||| km_ndlTraceAt) s s2 :=
    Kept.ite (fun _ => k1) (fun _ => Kept.foldl (fun v a k => (State.ndlTraceAt_kept ..).step (by decide +kernel) k) k1)
  exact (s2.checkedMany_entry ..).trans (congrArg FcrRt.entry (k2.same .fcr (by decide +kernel)))

theorem State.frogRoutine_entry (s : State) (n c : Nat) : ((s.passFrogs n c).frogRoutine n).2.fcr.entry = s.fcr.entry := by
  have k (op course : Nat) : Kept (km_setNdl ||| km_dropJump ||| km_ndlTrace) s (((s.passFrogs n c).dropJump n).ndlTrace n 7 op course) :=
    (State.ndlTrace_kept ..).step (by decide +kernel) <| (State.dropJump_kept ..).step (by decide +kernel) ((State.setNdl_kept ..).mono (by decide +kernel))
  exact (State.routine_entry ..).trans (congrArg FcrRt.entry ((k _ _).same .fcr (by decide +kernel)))

/-- A frog takes no entry back: only a parity mismatch of its microroutine, which is then an active fault, can set one on its way. -/
theorem State.frogBody_entryTaken {s : State} (n c cause : Nat) (h : s.EntryTaken) : (s.frogBody n c cause).EntryTaken := by
  have grows := s.frogBody_activeGrows n c cause
  unfold State.frogBody at grows ⊢
  have before := s.frogRoutine_entry n c
  revert grows before
  generalize (s.passFrogs n c).frogRoutine n = q
  intro grows before
  have after : Kept (km_stopNeedle ||| km_setStatus ||| km_setNdl ||| ob Obj.ndlState ||| km_ndlCount ||| km_frogResults ||| km_latch) (State.frogParity q n)
      (((State.frogParity q n).frogStop n c (frogCause q.1 cause)).frogMark n (frogCause q.1 cause) ((s.ndl n).boundBefore c)) :=
    (State.frogMark_kept ..).step (by decide +kernel) ((State.frogStop_kept ..).mono (by decide +kernel))
  by_cases hq : q.1.isSome = true
  · exact .inr (.inl (after.activeGrows (by decide +kernel) _ (State.frogParity_active n hq)))
  · have none : q.1 = none := by simpa using hq
    have same : State.frogParity q n = q.2 := by rw [State.frogParity, none]
    refine h.grows ?_ grows
    rw [← before, ← same]
    exact congrArg FcrRt.entry (after.same .fcr (by decide +kernel))

/-- The state of a frog for an under-run (R278), before the needle itself. -/
def State.underRaise (s : State) (n : Nat) (expired : Bool) : State :=
  let s := s.count Obj.strUnderrun n F.strUnderrunFrogs F.strUnderrunFrogsSat 1
  let s := ((s.setFld Obj.strUnderrun n F.strUnderrunLastFrog 1).setFld Obj.strUnderrun n F.strUnderrunExpired expired.toNat).setFld Obj.strUnderrun n F.strUnderrunLastStitch (s.stitches n)
  s.raise Ev.streamUnderrun n n 0 0 (some (2 ^ n)) true

theorem State.underFrog_eq (s : State) (n e : Nat) (expired : Bool) : s.underFrog n e expired = (s.underRaise n expired).frogAt n e 1 := rfl

theorem State.underRaise_kept (s : State) (n : Nat) (expired : Bool) : Kept (km_raise ||| ob Obj.strUnderrun) s (s.underRaise n expired) := by
  unfold State.underRaise
  exact (State.raise_kept ..).step (by decide +kernel) <| (State.setFld_kept _ Obj.strUnderrun ..).step (by decide +kernel) <|
    (State.setFld_kept _ Obj.strUnderrun ..).step (by decide +kernel) <| (State.setFld_kept _ Obj.strUnderrun ..).step (by decide +kernel) <|
    (State.count_kept _ Obj.strUnderrun ..).mono (by decide +kernel)

theorem State.underRaise_active (s : State) (n : Nat) (expired : Bool) : (s.underRaise n expired).active Ev.streamUnderrun = true :=
  (State.raise_raised _ Ev.streamUnderrun ..).2 1 (by decide +kernel) (by decide)

/-- R279: an under-run recorded for a needle that has stopped. -/
theorem State.underFrog_idle {s : State} {n : Nat} (e : Nat) (expired : Bool) (h : s.busyNeedle n = false) :
    Kept (km_raise ||| ob Obj.strUnderrun ||| frogAgainParts) s (s.underFrog n e expired) ∧ (s.underFrog n e expired).active Ev.streamUnderrun = true := by
  have k := s.underRaise_kept n expired
  have idle : (s.underRaise n expired).busyNeedle n = false := by
    rw [State.busyNeedle, show (s.underRaise n expired).ndlState n = s.ndlState n from k.rd n (by decide) (by decide +kernel)]
    exact h
  have f : Kept frogAgainParts (s.underRaise n expired) (s.underFrog n e expired) := State.frogAt_idle e 1 idle
  exact ⟨f.step (by decide +kernel) (k.mono (by decide +kernel)), f.activeGrows (by decide +kernel) _ (s.underRaise_active n expired)⟩

section
variable {now : Nat} {m : Mode} {p : Nat × Bool × Nat × Nat} {s : State}

/-- One needle of an entry: it no longer runs, and no other needle is concerned. -/
theorem State.Entering.frog {n : Nat} {l : List Nat} (t : Nat) (h : s.Entering now m p) (he : s.EntryTaken) (hl : s.BusyIn (n :: l)) :
    ((s.frogAt n t 3).alsoUnder s n t).Entering now m p ∧ ((s.frogAt n t 3).alsoUnder s n t).EntryTaken ∧ ((s.frogAt n t 3).alsoUnder s n t).BusyIn l := by
  cases hb : s.busyNeedle n with
  | false =>
    have k := State.frogAt_idle (s := s) t 3 hb
    rw [State.alsoUnder, hb, if_neg (by simp)]
    refine ⟨h.kept k (by decide +kernel), k.entryTaken (by decide +kernel) he, k.busyIn (by decide +kernel) fun i hi hbi => ?_⟩
    refine (List.mem_cons.1 (hl i hi hbi)).resolve_left fun e => ?_
    rw [e, hb] at hbi
    cases hbi
  | true =>
    have body : (s.frogBody n t 3).Entering now m p := h.kept (s.frogBody_kept n t 3) (by decide +kernel)
    have taken : (s.frogBody n t 3).EntryTaken := State.frogBody_entryTaken n t 3 he
    have idle : (s.frogBody n t 3).busyNeedle n = false := by
      rw [State.busyNeedle, State.frogBody_state]
      split <;> rfl
    have left : (s.frogBody n t 3).BusyIn l := (s.frogBody_only n t 3).busyIn idle hl
    rw [State.frogAt_busy t 3 hb, State.needlesEnded_of_plan _ (by rw [body.plan]; rfl) body.trans, State.alsoUnder, hb, idle, if_pos (by decide)]
    split
    · rename_i x _
      obtain ⟨k, under⟩ := State.underFrog_idle t x idle
      exact ⟨body.kept k (by decide +kernel), .inr (.inr under), k.busyIn (by decide +kernel) left⟩
    · exact ⟨body, taken, left⟩

/-- R126: every needle that ran or was held is frogged. -/
def State.frogBusy (s : State) (t : Nat) : State := (needles s.busyNeedle).foldl (fun s n => (s.frogAt n t 3).alsoUnder s n t) s

theorem State.Entering.frogBusy (t : Nat) (h : s.Entering now m p) (he : s.EntryTaken) :
    (s.frogBusy t).Entering now m p ∧ (s.frogBusy t).EntryTaken ∧ (s.frogBusy t).BusyIn [] := by
  have fold (l : List Nat) : ∀ u : State, u.Entering now m p → u.EntryTaken → u.BusyIn l →
      (l.foldl (fun s n => (s.frogAt n t 3).alsoUnder s n t) u).Entering now m p ∧ (l.foldl (fun s n => (s.frogAt n t 3).alsoUnder s n t) u).EntryTaken ∧
      (l.foldl (fun s n => (s.frogAt n t 3).alsoUnder s n t) u).BusyIn [] := by
    induction l with
    | nil => exact fun u hu he hl => ⟨hu, he, hl⟩
    | cons n l ih =>
      intro u hu he hl
      obtain ⟨hu, he, hl⟩ := hu.frog t he hl
      exact ih _ hu he hl
  exact fold _ s h he fun k hk hb => (mem_needles hk).2 hb

end

end Sys2Proof.Machine
end

section
namespace Sys2Proof.Machine
-- one declaration at a time, as in the laws: each `decide +kernel` waits for the declarations before it
set_option Elab.async false

/-! ### The entry edge, step by step (R126) -/

/-- The safe plan is noted; a ride-through plan ends. -/
def State.notePlan (s : State) (p : Nat × Bool × Nat × Nat) : State :=
  { s with safeWanted := false, psm := { s.psm with plan := some p, ride := none, rideArming := false } }

theorem State.notePlan_kept (s : State) (p : Nat × Bool × Nat × Nat) : Kept (pt.safeWanted ||| pt.psm) s (s.notePlan p) :=
  .set_safeWanted_psm (by decide +kernel) (by decide +kernel) (.refl _ s)

/-- R126: what was under way is abandoned, and the plan is noted. -/
def State.safeBegin (s : State) (dump : Bool) (reason src : Nat) : State :=
  (s.dropTimedStart.abandon.notePlan (s.leftMode, dump, reason, src)).setFld Obj.psmLineStatus 0 F.psmLineStatusState 0

/-- R126: acquisition, streams, calibration and, for a host's request from MEASURE, measurements stop; pins park. -/
def State.haltEngine (s : State) (m : Mode) (reason : Nat) : State :=
  let s := (s.taeStop.rasStopAll.fullAbandon.leaveDoze).calPause
  let s := if m = .measure ∧ reason = 1 then s.leaveMeasure.tmuAbandon else s.leaveMeasure
  (List.range 16).foldl (fun s n => if s.strState n = 0 then s else (s.flushRing n).wr Obj.strState n 0) s

/-- What an entry does before the plan goes on or DUMP is entered. -/
def State.safeStop (s : State) (dump : Bool) (reason src : Nat) : State :=
  (((s.safeBegin dump reason src).frogBusy s.now).haltEngine s.mode reason).rampDown

/-- DUMP is entered at the entry edge. -/
def State.enterDump (s : State) (prev reason src : Nat) : State :=
  ((s.enter .dump prev reason).setFld Obj.dmpStatus 0 F.dmpStatusCause src).tmuAbandon.wakeStacks.unplace

section
variable {s : State} {dump : Bool} {reason src : Nat}

theorem State.safeEnter_safe (hc : s.mode ≠ .cold) (hd : s.mode ≠ .dump) (hb : s.mode ≠ .boot) (hs : s.mode ≠ .safe) (hp : s.psm.plan = none) :
    s.safeEnter false reason src = (s.safeStop false reason src).planCheck := by
  have skip : ¬ (false = false ∧ (s.psm.plan.isSome = true ∨ s.mode = .safe ∨ s.mode = .boot)) := by
    rintro ⟨-, h | h | h⟩
    · rw [hp] at h; cases h
    · exact hs h
    · exact hb h
  refine (if_neg (by exact fun h => h.elim hc hd)).trans ((if_neg skip).trans ((if_neg Bool.false_ne_true).trans ?_))
  rfl

theorem State.safeEnter_dump (hc : s.mode ≠ .cold) (hd : s.mode ≠ .dump) :
    s.safeEnter true reason src = ((s.safeStop true reason src).enterDump s.leftMode reason src).planCheck := by
  refine (if_neg (by exact fun h => h.elim hc hd)).trans ((if_neg (by simp)).trans ((if_pos rfl).trans ?_))
  rfl

theorem State.safeEnter_none (h : s.mode = .cold ∨ s.mode = .dump ∨ (dump = false ∧ (s.mode = .boot ∨ s.mode = .safe ∨ s.psm.plan ≠ none))) :
    s.safeEnter dump reason src = s := by
  unfold State.safeEnter
  extract_lets m
  by_cases hm : m = .cold ∨ m = .dump
  · rw [if_pos hm]
  · rw [if_neg hm, if_pos]
    obtain ⟨hdump, hw⟩ := (h.resolve_left (fun e => hm (.inl e))).resolve_left (fun e => hm (.inr e))
    refine ⟨hdump, ?_⟩
    rcases hw with e | e | e
    · exact .inr (.inr e)
    · exact .inr (.inl e)
    · exact .inl (Option.isSome_iff_ne_none.2 e)

end

theorem State.notePlan_entering {s : State} (h : s.trans = none) (p : Nat × Bool × Nat × Nat) : (s.notePlan p).Entering s.now s.mode p :=
  ⟨rfl, rfl, h, rfl, rfl, rfl⟩

/-- R117: no transition is left. -/
theorem State.abandon_trans (s : State) : s.abandon.trans = none := by unfold State.abandon; rfl

theorem State.safeBegin_entering (s : State) (dump : Bool) (reason src : Nat) :
    (s.safeBegin dump reason src).Entering s.now s.mode (s.leftMode, dump, reason, src) := by
  have k : Kept (km_dropTimedStart ||| km_abandon) s s.dropTimedStart.abandon :=
    (State.abandon_kept _).step (by decide +kernel) ((State.dropTimedStart_kept s).mono (by decide +kernel))
  have noted := State.notePlan_entering s.dropTimedStart.abandon_trans (s.leftMode, dump, reason, src)
  rw [k.now_eq (by decide +kernel), k.mode_eq (by decide +kernel)] at noted
  exact noted.kept (State.setFld_kept _ Obj.psmLineStatus ..) (by decide +kernel)

theorem State.safeBegin_kept (s : State) (dump : Bool) (reason src : Nat) :
    Kept (km_dropTimedStart ||| km_abandon ||| pt.safeWanted ||| pt.psm ||| ob Obj.psmLineStatus) s (s.safeBegin dump reason src) :=
  (State.setFld_kept _ Obj.psmLineStatus ..).step (by decide +kernel) <| (State.notePlan_kept ..).step (by decide +kernel) <|
    (State.abandon_kept _).step (by decide +kernel) ((State.dropTimedStart_kept s).mono (by decide +kernel))

/-- R581: a domain is on its way. -/
def State.powering (s : State) (pd : Nat) : State :=
  { s.setDomain pd 1 with psm := { s.psm with domDue := Tbl.put (fun _ => none) s.psm.domDue pd (some (s.now + domainTime pd)) } }

theorem State.domainPower_rest (s : State) (pd : Nat) : Kept (km_setStack ||| ob Obj.cccState) (s.powering pd) (s.domainPower pd) := by
  change Kept _ _ (if pd = 11 ∨ pd = 12 then (s.powering pd).setStack (pd - 11) 1
    else if pd = 16 ∨ pd = 17 then (s.powering pd).wrAll Obj.cccState ((List.range 8).map (· + 8 * (pd - 16))) 1 else s.powering pd)
  refine .ite (fun _ => ?_) (fun _ => .ite (fun _ => ?_) (fun _ => .refl ..))
  · exact (State.setStack_kept ..).mono (by decide +kernel)
  · exact (State.wrAll_kept _ Obj.cccState ..).mono (by decide +kernel)

/-- A domain that switches on concerns neither the safe plan nor the ride-through. -/
theorem State.domainPower_plan (s : State) (pd : Nat) : (s.domainPower pd).psm.plan = s.psm.plan ∧ (s.domainPower pd).psm.ride = s.psm.ride := by
  have psm : (s.domainPower pd).psm = (s.powering pd).psm := (s.domainPower_rest pd).same .psm (by decide +kernel)
  rw [psm]
  exact ⟨rfl, rfl⟩

theorem State.leaveDoze_plan (s : State) : s.leaveDoze.psm.plan = s.psm.plan ∧ s.leaveDoze.psm.ride = s.psm.ride := by
  have fold (l : List Nat) (u : State) : (l.foldl State.domainPower u).psm.plan = u.psm.plan ∧ (l.foldl State.domainPower u).psm.ride = u.psm.ride := by
    induction l generalizing u with
    | nil => exact ⟨rfl, rfl⟩
    | cons d l ih => exact ⟨(ih _).1.trans (u.domainPower_plan d).1, (ih _).2.trans (u.domainPower_plan d).2⟩
  unfold State.leaveDoze
  split
  · exact fold _ s
  · exact ⟨rfl, rfl⟩

/-- The parts that stopping the engine, after its needles, may change. -/
def haltParts : Nat := km_taeStop ||| km_rasStopAll ||| km_fullAbandon ||| km_leaveDoze ||| km_calPause ||| km_leaveMeasure ||| km_tmuAbandon |||
  km_flushRing ||| ob Obj.strState

/-- All of it that comes after DOZE is left. -/
theorem State.haltEngine_rest (u s : State) (m : Mode) (reason : Nat) (h : u = s.taeStop.rasStopAll.fullAbandon.leaveDoze) :
    Kept (km_calPause ||| km_leaveMeasure ||| km_tmuAbandon ||| km_flushRing ||| ob Obj.strState) u (s.haltEngine m reason) := by
  unfold State.haltEngine
  rw [← h]
  have pause : Kept (km_calPause ||| km_leaveMeasure ||| km_tmuAbandon ||| km_flushRing ||| ob Obj.strState) u u.calPause :=
    (State.calPause_kept u).mono (by decide +kernel)
  refine .foldl (fun v n k => .ite (fun _ => k) (fun _ => ?_)) (.ite (fun _ => ?_) (fun _ => ?_))
  · exact (State.wr_kept _ Obj.strState ..).step (by decide +kernel) <| (State.flushRing_kept ..).step (by decide +kernel) k
  · exact (State.tmuAbandon_kept _).step (by decide +kernel) <| (State.leaveMeasure_kept _).step (by decide +kernel) pause
  · exact (State.leaveMeasure_kept _).step (by decide +kernel) pause

theorem State.haltEngine_kept (s : State) (m : Mode) (reason : Nat) : Kept haltParts s (s.haltEngine m reason) :=
  (State.haltEngine_rest _ s m reason rfl).step (by decide +kernel) <| (State.leaveDoze_kept _).step (by decide +kernel) <|
    (State.fullAbandon_kept _).step (by decide +kernel) <| (State.rasStopAll_kept _).step (by decide +kernel) <|
    (State.taeStop_kept s).mono (by decide +kernel)

theorem State.Entering.haltEngine {now : Nat} {m : Mode} {p : Nat × Bool × Nat × Nat} {s : State} (h : s.Entering now m p) (m' : Mode) (reason : Nat) :
    (s.haltEngine m' reason).Entering now m p := by
  have stop : Kept (km_taeStop ||| km_rasStopAll ||| km_fullAbandon) s s.taeStop.rasStopAll.fullAbandon :=
    (State.fullAbandon_kept _).step (by decide +kernel) <| (State.rasStopAll_kept _).step (by decide +kernel) <| (State.taeStop_kept s).mono (by decide +kernel)
  obtain ⟨plan, ride⟩ := s.taeStop.rasStopAll.fullAbandon.leaveDoze_plan
  have doze := (h.kept stop (by decide +kernel)).of_psm (State.leaveDoze_kept _) (by decide +kernel) plan ride
  exact doze.kept (State.haltEngine_rest _ s m' reason rfl) (by decide +kernel)

/-! ### The ramp-down (R127, R128) -/

theorem State.rampLoops_psm (s : State) (l : List Nat) : (l.foldl State.rampLoop s).psm = s.psm :=
  (Kept.foldl (m := km_rampLoop) (fun _ n k => (State.rampLoop_kept _ n).step (by decide +kernel) k) (.refl _ s)).same .psm (by decide +kernel)

/-- R127: a stage from st on is in progress, or none is left. -/
def StageFrom (st : Nat) (r : Option (Nat × Nat)) : Prop := r = none ∨ ∃ k e, r = some (k, e) ∧ st ≤ k ∧ k ≤ 7

theorem StageFrom.mono {st st' : Nat} {r : Option (Nat × Nat)} (h : StageFrom st' r) (hle : st ≤ st') : StageFrom st r :=
  h.imp_right fun ⟨k, e, hr, hk, h7⟩ => ⟨k, e, hr, hle.trans hk, h7⟩

/-- R127: the ramp-down changes of the supplies' runtime state its stage alone. -/
theorem State.startStage_psm (f st : Nat) (s : State) : ∃ r, (State.startStage f st s).psm = { s.psm with ramp := r } ∧ StageFrom st r := by
  induction f generalizing st s with
  | zero => exact ⟨none, rfl, .inl rfl⟩
  | succ f ih =>
    unfold State.startStage
    split
    · exact ⟨none, rfl, .inl rfl⟩
    · extract_lets u
      have same : u.psm = s.psm := s.rampLoops_psm (s.stageLoops st)
      split
      · obtain ⟨r, e, hr⟩ := ih (st + 1) u
        exact ⟨r, by rw [e, same], hr.mono (Nat.le_succ st)⟩
      · exact ⟨some (st, u.now + u.stageTimeout st), congrArg (fun q : PsmRt => { q with ramp := some (st, u.now + u.stageTimeout st) }) same,
          .inr ⟨st, _, rfl, Nat.le_refl st, by omega⟩⟩

theorem State.rampDown_psm (s : State) : ∃ r, s.rampDown.psm = { s.psm with ramp := r } := by
  unfold State.rampDown
  split
  · exact ⟨s.psm.ramp, rfl⟩
  · obtain ⟨r, e, -⟩ := State.startStage_psm 9 0 s
    exact ⟨r, e⟩

theorem State.Entering.rampDown {now : Nat} {m : Mode} {p : Nat × Bool × Nat × Nat} {s : State} (h : s.Entering now m p) : s.rampDown.Entering now m p := by
  obtain ⟨r, e⟩ := s.rampDown_psm
  exact h.of_psm s.rampDown_kept (by decide +kernel) (by rw [e]) (by rw [e])

/-- R126: after the entry edge the plan runs, no needle runs or is held, and the entry has been taken. -/
theorem State.safeStop_entering (s : State) (dump : Bool) (reason src : Nat) (he : s.fcr.entry = none) :
    (s.safeStop dump reason src).Entering s.now s.mode (s.leftMode, dump, reason, src) ∧ (s.safeStop dump reason src).EntryTaken ∧
    (s.safeStop dump reason src).BusyIn [] := by
  have begun := (s.safeBegin_kept dump reason src).entryTaken (by decide +kernel) (.inl he)
  obtain ⟨frogged, taken, idle⟩ := (s.safeBegin_entering dump reason src).frogBusy s.now begun
  have rest : Kept (haltParts ||| km_rampDown) ((s.safeBegin dump reason src).frogBusy s.now) (s.safeStop dump reason src) :=
    (State.rampDown_kept _).step (by decide +kernel) ((State.haltEngine_kept ..).mono (by decide +kernel))
  exact ⟨(frogged.haltEngine s.mode reason).rampDown, rest.entryTaken (by decide +kernel) taken, rest.busyIn (by decide +kernel) idle⟩

end Sys2Proof.Machine
end

section
namespace Sys2Proof.Machine
-- one declaration at a time, as in the laws: each `decide +kernel` waits for the declarations before it
set_option Elab.async false

/-! ### The end of the safe plan (R127, R130) -/

/-- The safe plan is over. -/
def State.endPlan (s : State) : State := { s with psm := { s.psm with plan := none } }

theorem State.endPlan_kept (s : State) : Kept pt.psm s s.endPlan := .set_psm (by decide +kernel) (.refl _ s)

section
variable {s : State} {prev reason src : Nat}

theorem State.planCheck_idle (h : s.psm.plan = none) : s.planCheck = s := by rw [State.planCheck, h]

theorem State.planCheck_ramping (h : s.psm.ramp ≠ none) : s.planCheck = s := by
  unfold State.planCheck
  split
  · rfl
  · exact if_pos (Option.isSome_iff_ne_none.2 h)

theorem State.planCheck_dump (hp : s.psm.plan = some (prev, true, reason, src)) (hr : s.psm.ramp = none) : s.planCheck = s.endPlan := by
  unfold State.planCheck
  rw [hp, hr]
  rfl

theorem State.planCheck_safe (hp : s.psm.plan = some (prev, false, reason, src)) (hr : s.psm.ramp = none) :
    s.planCheck = (s.endPlan.wakeStacks.enter .safe prev reason).unplace := by
  unfold State.planCheck
  rw [hp, hr]
  rfl

/-- R96, R130: the safe plan has ended in SAFE. -/
structure InSafe (prev reason : Nat) (t : State) : Prop where
  plan : t.psm.plan = none
  mode : t.mode = .safe
  prev : t.rd Obj.devPrevMode 0 = prev
  reason : t.rd Obj.devModeReason 0 = reason

theorem State.planCheck_inSafe (hp : s.psm.plan = some (prev, false, reason, src)) (hr : s.psm.ramp = none) : InSafe prev reason s.planCheck := by
  rw [State.planCheck_safe hp hr]
  obtain ⟨hm, hprev, hreason⟩ := s.endPlan.wakeStacks.enter_reads prev reason (m := .safe) (by decide)
  have k := (s.endPlan.wakeStacks.enter .safe prev reason).unplace_kept
  have psm : (s.endPlan.wakeStacks.enter .safe prev reason).psm = s.endPlan.psm :=
    ((State.enter_kept ..).step (m := km_wakeStacks ||| km_enter) (by decide +kernel) ((State.wakeStacks_kept _).mono (by decide +kernel))).same .psm (by decide +kernel)
  refine ⟨?_, ?_, ?_, ?_⟩
  · rw [show (s.endPlan.wakeStacks.enter .safe prev reason).unplace.psm = _ from k.same .psm (by decide +kernel), psm]
    rfl
  · rw [k.mode_eq (by decide +kernel)]
    exact State.mode_of_rd hm
  · rw [k.rd 0 (by decide) (by decide +kernel)]
    exact hprev
  · rw [k.rd 0 (by decide) (by decide +kernel)]
    exact hreason

end

/-! ### The engine once every needle has stopped -/

/-- No needle runs or is held, no transition or ride-through goes on, and the entry has been taken. -/
structure State.Halted (now : Nat) (s : State) : Prop where
  now : s.now = now
  trans : s.trans = none
  wanted : s.safeWanted = false
  ride : s.psm.ride = none
  taken : s.EntryTaken
  idle : s.BusyIn []

section
variable {now mask : Nat} {s t : State}

theorem State.Entering.halted {m : Mode} {p : Nat × Bool × Nat × Nat} (h : s.Entering now m p) (he : s.EntryTaken) (hb : s.BusyIn []) : s.Halted now :=
  ⟨h.now, h.trans, h.wanted, h.ride, he, hb⟩

/-- The parts, the needles' states apart, that a halted engine is made of. -/
def haltedParts : Nat := pt.now ||| pt.trans ||| pt.safeWanted ||| pt.psm ||| takenParts

theorem State.Halted.of_idle (h : s.Halted now) (k : Kept mask s t) (hm : mask &&& haltedParts = 0) (idle : t.BusyIn []) : t.Halted now where
  now := (k.now_eq (testBit_off_of_land hm (by decide +kernel))).trans h.now
  trans := (k.trans_eq (testBit_off_of_land hm (by decide +kernel))).trans h.trans
  wanted := (k.same .safeWanted (testBit_off_of_land hm (by decide +kernel))).trans h.wanted
  ride := (congrArg PsmRt.ride (k.same .psm (testBit_off_of_land hm (by decide +kernel)))).trans h.ride
  taken := h.taken.grows (congrArg FcrRt.entry (k.same .fcr (testBit_off_of_land hm (by decide +kernel)))) (k.activeGrows (testBit_off_of_land hm (by decide +kernel)))
  idle := idle

theorem State.Halted.kept (h : s.Halted now) (k : Kept mask s t) (hm : mask &&& haltedParts = 0) (hn : mask.testBit (Obj.ndlState + 64) = false) : t.Halted now :=
  h.of_idle k hm (k.busyIn hn h.idle)

theorem State.Halted.endPlan (h : s.Halted now) : s.endPlan.Halted now := ⟨h.now, h.trans, h.wanted, h.ride, h.taken, h.idle⟩

/-- R203: a needle that returns to IDLE neither runs nor is held. -/
theorem State.needlesIdle_busyIn (h : s.BusyIn []) : s.needlesIdle.BusyIn [] := by
  have fold (l : List Nat) : ∀ u : State, u.BusyIn [] → (l.foldl (fun s n => if s.ndlState n = 0 then s else s.wr Obj.ndlState n 1) u).BusyIn [] := by
    induction l with
    | nil => exact fun u hu => hu
    | cons n l ih =>
      intro u hu
      refine ih _ ?_
      dsimp only
      split
      · exact hu
      · refine (OnlyNeedle.wr_state n u 1).busyIn ?_ (fun k hk hb => absurd (hu k hk hb) List.not_mem_nil)
        rw [State.busyNeedle, State.ndlState, State.rd_wr_self]
        rfl
  exact fold _ s h

theorem State.unplace_busyIn (h : s.BusyIn []) : s.unplace.BusyIn [] := by
  unfold State.unplace
  extract_lets u
  have k : Kept (km_rasStopAll ||| km_calPause ||| km_flushRing ||| ob Obj.strState ||| km_releasePlacement) s u.releasePlacement := by
    refine (State.releasePlacement_kept _).step (by decide +kernel) (.foldl (fun v n k => .ite (fun _ => k) (fun _ => ?_)) ?_)
    · exact (State.wr_kept _ Obj.strState ..).step (by decide +kernel) <| (State.flushRing_kept ..).step (by decide +kernel) k
    · exact (State.calPause_kept _).step (by decide +kernel) ((State.rasStopAll_kept s).mono (by decide +kernel))
  exact State.needlesIdle_busyIn (k.busyIn (by decide +kernel) h)

theorem State.Halted.unplace (h : s.Halted now) : s.unplace.Halted now := h.of_idle s.unplace_kept (by decide +kernel) (State.unplace_busyIn h.idle)

theorem State.Halted.wakeStacks (h : s.Halted now) : s.wakeStacks.Halted now := h.kept s.wakeStacks_kept (by decide +kernel) (by decide +kernel)

theorem State.Halted.enter (h : s.Halted now) (m : Mode) (prev reason : Nat) : (s.enter m prev reason).Halted now :=
  h.kept (State.enter_kept ..) (by decide +kernel) (by decide +kernel)

theorem State.Halted.planCheck (h : s.Halted now) : s.planCheck.Halted now := by
  by_cases hr : s.psm.ramp = none
  · cases hp : s.psm.plan with
    | none => rw [State.planCheck_idle hp]; exact h
    | some p =>
      obtain ⟨prev, dump, reason, src⟩ := p
      cases dump with
      | true => rw [State.planCheck_dump hp hr]; exact h.endPlan
      | false => rw [State.planCheck_safe hp hr]; exact (h.endPlan.wakeStacks.enter _ _ _).unplace
  · rw [State.planCheck_ramping hr]; exact h

end

/-! ### DUMP is entered (R126) -/

section
variable {now : Nat} {s : State} {prev reason src : Nat}

/-- What enterDump does after DEV.MODE reads DUMP and DMP.STATUS names the cause. -/
theorem State.enterDump_rest (s : State) (prev reason src : Nat) :
    Kept (km_tmuAbandon ||| km_wakeStacks ||| km_unplace) ((s.enter .dump prev reason).setFld Obj.dmpStatus 0 F.dmpStatusCause src) (s.enterDump prev reason src) :=
  (State.unplace_kept _).step (by decide +kernel) <| (State.wakeStacks_kept _).step (by decide +kernel) ((State.tmuAbandon_kept _).mono (by decide +kernel))

theorem State.Halted.enterDump (h : s.Halted now) (prev reason src : Nat) : (s.enterDump prev reason src).Halted now :=
  have noted : ((s.enter .dump prev reason).setFld Obj.dmpStatus 0 F.dmpStatusCause src).Halted now :=
    (h.enter .dump prev reason).kept (State.setFld_kept ..) (by decide +kernel) (by decide +kernel)
  State.Halted.unplace (State.Halted.wakeStacks (noted.kept (State.tmuAbandon_kept _) (by decide +kernel) (by decide +kernel)))

/-- R96: DUMP and what its entry records. -/
structure InDump (prev reason src : Nat) (t : State) : Prop where
  mode : t.mode = .dump
  prev : t.rd Obj.devPrevMode 0 = prev
  reason : t.rd Obj.devModeReason 0 = reason
  cause : t.fld Obj.dmpStatus 0 F.dmpStatusCause = src

theorem InDump.kept {mask : Nat} {s t : State} (h : InDump prev reason src s) (k : Kept mask s t)
    (hm : mask &&& (ob Obj.devMode ||| ob Obj.devPrevMode ||| ob Obj.devModeReason ||| ob Obj.dmpStatus) = 0) : InDump prev reason src t where
  mode := (k.mode_eq (testBit_off_of_land hm (by decide +kernel))).trans h.mode
  prev := (k.rd 0 (by decide) (testBit_off_of_land hm (by decide +kernel))).trans h.prev
  reason := (k.rd 0 (by decide) (testBit_off_of_land hm (by decide +kernel))).trans h.reason
  cause := (k.fld_eq 0 _ (by decide) (testBit_off_of_land hm (by decide +kernel))).trans h.cause

theorem State.enterDump_inDump (s : State) (prev reason : Nat) (h : src < 2 ^ 16) : InDump prev reason src (s.enterDump prev reason src) := by
  obtain ⟨hm, hp, hr⟩ := s.enter_reads prev reason (m := .dump) (by decide)
  refine InDump.kept ⟨?_, ?_, ?_, ?_⟩ (s.enterDump_rest prev reason src) (by decide +kernel)
  · exact ((State.setFld_kept _ Obj.dmpStatus ..).mode_eq (by decide +kernel)).trans (State.mode_of_rd hm)
  · exact ((State.setFld_kept _ Obj.dmpStatus ..).rd 0 (by decide) (by decide +kernel)).trans hp
  · exact ((State.setFld_kept _ Obj.dmpStatus ..).rd 0 (by decide) (by decide +kernel)).trans hr
  · exact (State.fld_setFld_self ..).trans (Nat.mod_eq_of_lt h)

/-- A plan for DUMP that goes on has a stage of the ramp-down in progress; one that ends leaves the mode alone. -/
theorem State.planCheck_dumping {s : State} {p : Nat × Nat × Nat} (hp : s.psm.plan = some (p.1, true, p.2.1, p.2.2)) :
    Kept pt.psm s s.planCheck ∧ (s.planCheck.psm.plan ≠ none → s.planCheck.psm.ramp ≠ none) := by
  by_cases hr : s.psm.ramp = none
  · rw [State.planCheck_dump hp hr]
    exact ⟨s.endPlan_kept, fun h => absurd rfl h⟩
  · rw [State.planCheck_ramping hr]
    exact ⟨.refl _ s, fun _ => hr⟩

end

end Sys2Proof.Machine
end

section
namespace Sys2Proof.Machine
-- one declaration at a time, as in the laws: each `decide +kernel` waits for the declarations before it
set_option Elab.async false

/-! ### The stages of the ramp-down (R127, R128) -/

/-- R127: the check for the end of the plan leaves the stage in progress alone. -/
theorem State.planCheck_ramp (s : State) : s.planCheck.psm.ramp = s.psm.ramp := by
  by_cases hr : s.psm.ramp = none
  · cases hp : s.psm.plan with
    | none => rw [State.planCheck_idle hp]
    | some p =>
      obtain ⟨prev, dump, reason, src⟩ := p
      cases dump with
      | true => rw [State.planCheck_dump hp hr]; rfl
      | false =>
        have k : Kept (km_wakeStacks ||| km_enter ||| km_unplace) s.endPlan (s.endPlan.wakeStacks.enter .safe prev reason).unplace :=
          (State.unplace_kept _).step (by decide +kernel) <| (State.enter_kept ..).step (by decide +kernel) ((State.wakeStacks_kept _).mono (by decide +kernel))
        rw [State.planCheck_safe hp hr]
        have psm : (s.endPlan.wakeStacks.enter .safe prev reason).unplace.psm = s.endPlan.psm := k.same .psm (by decide +kernel)
        rw [psm]
        rfl
  · rw [State.planCheck_ramping hr]

/-- R127, R130: the ramp-down goes on with a later stage, or the plan ends in SAFE. -/
theorem State.nextStage_goes (s : State) (st : Nat) : StageFrom (st + 1) (s.nextStage st).psm.ramp ∧
    ∀ prev reason src, s.psm.plan = some (prev, false, reason, src) → (s.nextStage st).psm.ramp = none → InSafe prev reason (s.nextStage st) := by
  obtain ⟨r, e, hr⟩ := State.startStage_psm 9 (st + 1) s
  have ramp : (s.nextStage st).psm.ramp = r := by rw [State.nextStage, State.planCheck_ramp, e]
  rw [ramp]
  refine ⟨hr, fun prev reason src hp hn => State.planCheck_inSafe (src := src) ?_ ?_⟩
  · rw [e]; exact hp
  · rw [e]; exact hn

theorem State.rampLoop_off {s : State} {l : Nat} (n : Nat) (h : s.rd Obj.splState l = 0) : (s.rampLoop n).rd Obj.splState l = 0 := by
  unfold State.rampLoop
  split
  · rename_i on
    have ne : l ≠ n := by
      rintro rfl
      rw [State.loopState, h] at on
      omega
    rw [State.rd_wr_ne _ _ (by decide) (by decide) (fun e => ne e.2)]
    exact h
  · exact h

/-- R604: a loop that is off takes no part in a ramp-down. -/
theorem State.startStage_off {l : Nat} (f st : Nat) {s : State} (h : s.rd Obj.splState l = 0) : (State.startStage f st s).rd Obj.splState l = 0 := by
  have fold (ls : List Nat) : ∀ u : State, u.rd Obj.splState l = 0 → (ls.foldl State.rampLoop u).rd Obj.splState l = 0 := by
    induction ls with
    | nil => exact fun u hu => hu
    | cons n ls ih => exact fun u hu => ih _ (u.rampLoop_off n hu)
  induction f generalizing st s with
  | zero => exact h
  | succ f ih =>
    unfold State.startStage
    split
    · exact h
    · extract_lets u
      have hu : u.rd Obj.splState l = 0 := fold _ s h
      split
      · exact ih (st + 1) hu
      · exact hu

/-- R128: a loop is turned off on a stage's time-out. -/
def State.timeoutLoop (s : State) (n : Nat) : State := ((s.loopOff n).splCount n 4).raiseAll Ev.splSafeTimeout n

theorem State.timeoutLoop_kept (s : State) (n : Nat) : Kept (km_loopOff ||| km_splCount ||| km_raiseAll) s (s.timeoutLoop n) :=
  (State.raiseAll_kept ..).step (by decide +kernel) <| (State.splCount_kept ..).step (by decide +kernel) ((State.loopOff_kept s n).mono (by decide +kernel))

/-- R128: a loop is off on its time-out, and the time-out's fault is active. -/
def State.TimedOut (s : State) (l : Nat) : Prop := s.rd Obj.splState l = 0 ∧ s.active Ev.splSafeTimeout = true

theorem State.timeoutLoop_state (s : State) (n l : Nat) : (s.timeoutLoop n).rd Obj.splState l = if l = n then 0 else s.rd Obj.splState l := by
  have k : Kept (km_splCount ||| km_raiseAll ||| ob Obj.splMeas) (s.wr Obj.splState n 0) (s.timeoutLoop n) :=
    (State.raiseAll_kept ..).step (by decide +kernel) <| (State.splCount_kept ..).step (by decide +kernel) ((State.setFld_kept _ Obj.splMeas ..).mono (by decide +kernel))
  rw [k.rd l (by decide) (by decide +kernel)]
  split
  · rename_i e
    rw [e, State.rd_wr_self]
  · rename_i e
    exact State.rd_wr_ne _ _ (by decide) (by decide) (fun h => e h.2)

theorem State.timeoutLoop_active (s : State) (n : Nat) : (s.timeoutLoop n).active Ev.splSafeTimeout = true :=
  (State.raise_raised _ Ev.splSafeTimeout ..).2 1 (by decide +kernel) (by decide)

theorem State.TimedOut.fold {l : Nat} (ls : List Nat) {s : State} (h : s.TimedOut l ∨ l ∈ ls) : (ls.foldl State.timeoutLoop s).TimedOut l := by
  induction ls generalizing s with
  | nil => exact h.resolve_right List.not_mem_nil
  | cons n ls ih =>
    refine ih ?_
    by_cases e : l = n
    · exact .inl ⟨by rw [State.timeoutLoop_state, if_pos e], s.timeoutLoop_active n⟩
    · refine h.imp (fun off => ⟨?_, s.timeoutLoop_active n⟩) (fun hl => (List.mem_cons.1 hl).resolve_left e)
      rw [State.timeoutLoop_state, if_neg e]
      exact off.1

theorem State.TimedOut.nextStage {s : State} {l : Nat} (h : s.TimedOut l) (st : Nat) : (s.nextStage st).TimedOut l := by
  refine ⟨?_, ?_⟩
  · rw [State.nextStage, (State.planCheck_kept _).rd l (by decide) (by decide +kernel)]
    exact State.startStage_off 9 (st + 1) h.1
  · rw [(State.nextStage_kept s st).active_src (by decide +kernel)]
    exact h.2

/-- R128: every loop of a stage that is still on is turned off. -/
def State.timeoutLoops (s : State) (st : Nat) : State := ((s.stageLoops st).filter (fun n => s.loopOn n)).foldl State.timeoutLoop s

theorem State.timeoutLoops_kept (s : State) (st : Nat) : Kept (km_loopOff ||| km_splCount ||| km_raiseAll) s (s.timeoutLoops st) :=
  .foldl (fun v n k => (v.timeoutLoop_kept n).step (by decide +kernel) k) (.refl ..)

/-! ### The commands -/

theorem exec_safeEntry (s : State) : exec .safeEntry s = settled (runSafeEntry s) := rfl
theorem exec_safeStageEnd (s : State) : exec .safeStageEnd s = settled (runSafeStageEnd s) := rfl
theorem exec_safeStageTimeout (s : State) : exec .safeStageTimeout s = settled (runSafeStageTimeout s) := rfl

/-- The entry edge: the entry on its way has arrived. -/
def State.atEntry (s : State) (e : Nat) : State := ({ s with fcr := { s.fcr with entry := none } } : State).reach e

theorem State.atEntry_now (s : State) (e : Nat) : (s.atEntry e).now = max s.now e := rfl
theorem State.atEntry_mode (s : State) (e : Nat) : (s.atEntry e).mode = s.mode := rfl
theorem State.atEntry_leftMode (s : State) (e : Nat) : (s.atEntry e).leftMode = s.leftMode := rfl

theorem State.atEntry_kept (s : State) (e : Nat) : Kept (pt.now ||| pt.fcr) s (s.atEntry e) :=
  (State.reach_kept ..).step (by decide +kernel) (.set_fcr (by decide +kernel) (.refl _ s))

section
variable {s : State} {e st d : Nat} {dump : Bool} {reason src : Nat}

theorem runSafeEntry_none (h : s.fcr.entry = none) : runSafeEntry s = .next s := by rw [runSafeEntry, h]

theorem runSafeEntry_some (h : s.fcr.entry = some (e, dump, reason, src)) : runSafeEntry s = .next ((s.atEntry e).safeEnter dump reason src) := by
  rw [runSafeEntry, h]
  rfl

theorem runSafeStageEnd_none (h : s.psm.ramp = none) : runSafeStageEnd s = .next s := by rw [runSafeStageEnd, h]

theorem runSafeStageEnd_done (h : s.psm.ramp = some (st, d)) (hd : s.stageDone st = true) : runSafeStageEnd s = .next (s.nextStage st) := by
  rw [runSafeStageEnd, h]
  exact if_pos hd

theorem runSafeStageEnd_waits (h : s.psm.ramp = some (st, d)) (hd : s.stageDone st = false) : runSafeStageEnd s = .next s := by
  rw [runSafeStageEnd, h]
  exact if_neg (by rw [hd]; exact Bool.false_ne_true)

theorem runSafeStageTimeout_none (h : s.psm.ramp = none) : runSafeStageTimeout s = .next s := by rw [runSafeStageTimeout, h]

theorem runSafeStageTimeout_some (h : s.psm.ramp = some (st, d)) : runSafeStageTimeout s = .next (((s.reach d).timeoutLoops st).nextStage st) := by
  rw [runSafeStageTimeout, h]
  rfl

/-- A command that finds nothing to do changes nothing. -/
theorem State.Quiet.next_self {i : Instr} (hq : s.Quiet) (h : exec i s = settled (.next s)) : Next i s (fun t => t = s) :=
  ⟨s, h.trans hq.settled_self, rfl⟩

/-- What an entry that is taken does, for a fact that says nothing of replies. -/
theorem State.Quiet.safeEntry {p : State → Prop} (hq : s.Quiet) (h : s.fcr.entry = some (e, dump, reason, src)) (hp : p ((s.atEntry e).safeEnter dump reason src))
    (hr : ∀ u l, p u → p { u with results := l }) : Next .safeEntry s p :=
  hq.next_settled (m := pt.now ||| pt.fcr ||| km_safeEnter) (by rw [exec_safeEntry, runSafeEntry_some h])
    ((State.safeEnter_kept ..).step (by decide +kernel) ((s.atEntry_kept e).mono (by decide +kernel))) (by decide +kernel) hp hr

/-- R126: what an entry finds once the engine has stopped. -/
theorem State.atEntry_entering (s : State) (e : Nat) (dump : Bool) (reason src : Nat) :
    ((s.atEntry e).safeStop dump reason src).Entering (max s.now e) s.mode (s.leftMode, dump, reason, src) ∧
    ((s.atEntry e).safeStop dump reason src).Halted (max s.now e) := by
  obtain ⟨entering, taken, idle⟩ := (s.atEntry e).safeStop_entering dump reason src rfl
  rw [State.atEntry_now, State.atEntry_mode, State.atEntry_leftMode] at entering
  exact ⟨entering, entering.halted taken idle⟩

/-- R126: an entry that is without effect. -/
theorem safeEntry_taken (hq : s.Quiet) (h : s.fcr.entry = some (e, dump, reason, src))
    (hn : s.mode = .cold ∨ s.mode = .dump ∨ (dump = false ∧ (s.mode = .boot ∨ s.mode = .safe ∨ s.psm.plan ≠ none))) :
    Next .safeEntry s (fun t => t.fcr.entry = none ∧ t.now = max s.now e ∧ Keeps s t [] [.now, .fcr]) := by
  have same : (s.atEntry e).safeEnter dump reason src = s.atEntry e := State.safeEnter_none hn
  refine ⟨s.atEntry e, ?_, rfl, rfl, (s.atEntry_kept e).keeps _ _ (by decide +kernel)⟩
  rw [exec_safeEntry, runSafeEntry_some h, same, settled, hq.settle_eq (s.atEntry_kept e) (by decide +kernel) rfl]

/-- What an entry leaves (R126). -/
def Stops (s : State) (e : Nat) (t : State) : Prop :=
  ((t.fcr.entry = none ∨ t.active Ev.ucodeParity = true ∨ t.active Ev.streamUnderrun = true) ∧ t.now = max s.now e) ∧
  (t.trans = none ∧ t.safeWanted = false ∧ (∀ m < 16, t.busyNeedle m = false) ∧ t.psm.ride = none)

theorem State.Halted.stops {t : State} (h : t.Halted (max s.now e)) : Stops s e t := ⟨⟨h.taken, h.now⟩, h.trans, h.wanted, h.idle.nil, h.ride⟩

/-- R126, R127: SAFE is entered at the end of the plan, or its ramp-down is in progress. -/
theorem safeEntry_safe (hq : s.Quiet) (h : s.fcr.entry = some (e, false, reason, src)) (hc : s.mode ≠ .cold) (hd : s.mode ≠ .dump) (hb : s.mode ≠ .boot)
    (hs : s.mode ≠ .safe) (hp : s.psm.plan = none) :
    Next .safeEntry s (fun t => Stops s e t ∧
      ((t.psm.plan = some (s.leftMode, false, reason, src) ∧ t.psm.ramp ≠ none ∧ t.mode = s.mode) ∨
        (t.psm.plan = none ∧ t.mode = .safe ∧ t.rd Obj.devPrevMode 0 = s.leftMode ∧ t.rd Obj.devModeReason 0 = reason))) := by
  refine hq.safeEntry h ?_ (fun _ _ h => h)
  obtain ⟨entering, halted⟩ := s.atEntry_entering e false reason src
  rw [State.safeEnter_safe (s := s.atEntry e) hc hd hb hs hp]
  refine ⟨halted.planCheck.stops, ?_⟩
  by_cases hr : ((s.atEntry e).safeStop false reason src).psm.ramp = none
  · obtain ⟨plan, mode, prev, rsn⟩ := State.planCheck_inSafe entering.plan hr
    exact .inr ⟨plan, mode, prev, rsn⟩
  · rw [State.planCheck_ramping hr]
    exact .inl ⟨entering.plan, hr, entering.mode⟩

/-- R126: DUMP is entered at once; its ramp-down, if any is left, goes on. -/
theorem safeEntry_dump (hq : s.Quiet) (h : s.fcr.entry = some (e, true, reason, src)) (hc : s.mode ≠ .cold) (hd : s.mode ≠ .dump) (hs : src < 2 ^ 16) :
    Next .safeEntry s (fun t => Stops s e t ∧ t.mode = .dump ∧ t.rd Obj.devPrevMode 0 = s.leftMode ∧ t.rd Obj.devModeReason 0 = reason ∧
      t.fld Obj.dmpStatus 0 F.dmpStatusCause = src ∧ (t.psm.plan ≠ none → t.psm.ramp ≠ none)) := by
  refine hq.safeEntry h ?_ (fun _ _ h => h)
  obtain ⟨entering, halted⟩ := s.atEntry_entering e true reason src
  rw [State.safeEnter_dump (s := s.atEntry e) hc hd, State.atEntry_leftMode]
  generalize (s.atEntry e).safeStop true reason src = u at entering halted ⊢
  have k : Kept (km_enter ||| ob Obj.dmpStatus ||| km_tmuAbandon ||| km_wakeStacks ||| km_unplace) u (u.enterDump s.leftMode reason src) :=
    (u.enterDump_rest s.leftMode reason src).step (by decide +kernel) <| (State.setFld_kept _ Obj.dmpStatus ..).step (by decide +kernel)
      ((State.enter_kept ..).mono (by decide +kernel))
  have plan : (u.enterDump s.leftMode reason src).psm.plan = some (s.leftMode, true, reason, src) :=
    (congrArg PsmRt.plan (k.same .psm (by decide +kernel))).trans entering.plan
  obtain ⟨kept, ramping⟩ := State.planCheck_dumping (p := (s.leftMode, reason, src)) plan
  obtain ⟨mode, prev, rsn, cause⟩ := (u.enterDump_inDump s.leftMode reason hs).kept kept (by decide +kernel)
  exact ⟨(halted.enterDump s.leftMode reason src).planCheck.stops, mode, prev, rsn, cause, ramping⟩

/-- What the end of a stage or its time-out goes on with (R127, R130). -/
def StageGoesOn (s : State) (st : Nat) (t : State) : Prop :=
  (t.psm.ramp = none ∨ ∃ k e, t.psm.ramp = some (k, e) ∧ st < k ∧ k ≤ 7) ∧
  ∀ prev reason src, s.psm.plan = some (prev, false, reason, src) → t.psm.ramp = none →
    t.psm.plan = none ∧ t.mode = .safe ∧ t.rd Obj.devPrevMode 0 = prev ∧ t.rd Obj.devModeReason 0 = reason

theorem State.nextStage_goesOn {u : State} (st : Nat) (h : u.psm.plan = s.psm.plan) : StageGoesOn s st (u.nextStage st) := by
  obtain ⟨stage, safe⟩ := u.nextStage_goes st
  refine ⟨stage, fun prev reason src hp hr => ?_⟩
  obtain ⟨plan, mode, hprev, hreason⟩ := safe prev reason src (h.trans hp) hr
  exact ⟨plan, mode, hprev, hreason⟩

theorem safeStageEnd_done (hq : s.Quiet) (h : s.psm.ramp = some (st, d)) (hd : s.stageDone st = true) :
    Next .safeStageEnd s (fun t => StageGoesOn s st t ∧ t.now = s.now) :=
  hq.next_settled (by rw [exec_safeStageEnd, runSafeStageEnd_done h hd]) (s.nextStage_kept st) (by decide +kernel)
    ⟨State.nextStage_goesOn st rfl, (s.nextStage_kept st).now_eq (by decide +kernel)⟩ (fun _ _ h => h)

theorem safeStageTimeout_some (hq : s.Quiet) (h : s.psm.ramp = some (st, d)) :
    Next .safeStageTimeout s (fun t => StageGoesOn s st t ∧ t.now = max s.now d ∧
      ∀ l ∈ s.stageLoops st, s.loopOn l = true → t.rd Obj.splState l = 0 ∧ t.active Ev.splSafeTimeout = true) := by
  have off := (s.reach d).timeoutLoops_kept st
  have next := ((s.reach d).timeoutLoops st).nextStage_kept st
  refine hq.next_settled (m := km_reach ||| km_loopOff ||| km_splCount ||| km_raiseAll ||| km_nextStage) (by rw [exec_safeStageTimeout, runSafeStageTimeout_some h])
    (next.step (by decide +kernel) <| off.step (by decide +kernel) ((s.reach_kept d).mono (by decide +kernel))) (by decide +kernel) ⟨?_, ?_, fun l hl on => ?_⟩ (fun _ _ h => h)
  · exact State.nextStage_goesOn st (congrArg PsmRt.plan (off.same .psm (by decide +kernel)))
  · exact (next.now_eq (by decide +kernel)).trans (off.now_eq (by decide +kernel))
  · exact State.TimedOut.nextStage (.fold _ (.inr (List.mem_filter.2 ⟨hl, on⟩))) st

end

/-- Settles O17: SAFE_ENTRY by its target and mode (`safeEntry_safe`, `safeEntry_dump`, `safeEntry_taken`), then the ends of a stage (`safeStageEnd_done`,
`safeStageTimeout_some`). -/
theorem safeAndDumpAreEntered : Obligations.SafeAndDumpAreEntered := by
  unfold Obligations.SafeAndDumpAreEntered
  intro s hq
  refine ⟨fun e dump reason src h => ⟨?_, ?_, safeEntry_taken hq h⟩, fun h => ?_, fun st d h => ⟨safeStageEnd_done hq h, fun hd => ?_, safeStageTimeout_some hq h⟩,
    fun h => ⟨?_, ?_⟩⟩
  · rintro rfl hc hd hb hs hp
    obtain ⟨t, ex, ⟨took, stopped⟩, ends⟩ := safeEntry_safe hq h hc hd hb hs hp
    exact ⟨t, ex, took, stopped, ends⟩
  · rintro rfl hc hd hs
    obtain ⟨t, ex, ⟨took, stopped⟩, dumped⟩ := safeEntry_dump hq h hc hd hs
    exact ⟨t, ex, took, stopped, dumped⟩
  · exact hq.next_self (by rw [exec_safeEntry, runSafeEntry_none h])
  · exact hq.next_self (by rw [exec_safeStageEnd, runSafeStageEnd_waits h hd])
  · exact hq.next_self (by rw [exec_safeStageEnd, runSafeStageEnd_none h])
  · exact hq.next_self (by rw [exec_safeStageTimeout, runSafeStageTimeout_none h])

end Sys2Proof.Machine
end

section
namespace Sys2Proof.Machine
-- one declaration at a time, as in the laws: each `decide +kernel` waits for the declarations before it
set_option Elab.async false

/-! ### Results for a request that is gone (R76, R198) -/

/-- Results that no request awaits are dropped, and the one that the waiting request awaits is its reply. -/
theorem State.settleLoop_results {w : Waiter} {reason : Nat} {b : Bytes} (ha : w.inFrame = false) (hm : w.mcast = none) (l : List (Token × Nat × Bytes))
    (n : Nat) {t : State} (hw : t.waiters = [w]) (hj : t.jobs = []) (hd : t.ode.done = []) (hl : ∀ a ∈ l, a.1 ≠ w.token) (hn : l.length < n)
    (hr : t.results = l ++ [(w.token, reason, b)]) :
    State.settleLoop n t = ({ t with results := [], waiters := [] } : State).emit (.item w.session (w.reply reason b)) := by
  induction l generalizing t n with
  | nil =>
    obtain ⟨n, rfl⟩ := Nat.exists_eq_add_one_of_ne_zero (Nat.ne_of_gt hn)
    rw [State.settleLoop, hd]
    dsimp only
    rw [hr]
    dsimp only [List.nil_append]
    rw [State.deliverResult_alone (s := { t with results := [] }) (by exact hw) ha hm]
    exact State.settleLoop_still n hd rfl hj
  | cons a l ih =>
    obtain ⟨n, rfl⟩ := Nat.exists_eq_add_one_of_ne_zero (Nat.ne_of_gt (Nat.lt_of_le_of_lt (Nat.zero_le _) hn))
    have hskip : ({ t with results := l ++ [(w.token, reason, b)] } : State).deliverResult a.1 a.2.1 a.2.2 = { t with results := l ++ [(w.token, reason, b)] } := by
      have hne : w.token ≠ a.1 := (hl a List.mem_cons_self).symm
      simp [State.deliverResult, hw, hne]
    rw [State.settleLoop, hd]
    dsimp only
    rw [hr]
    dsimp only [List.cons_append]
    rw [hskip]
    exact ih n (by exact hw) (by exact hj) (by exact hd) (fun a ha => hl a (List.mem_cons_of_mem _ ha)) (by simpa using hn) rfl

/-- A command that leaves a result for the one request that waits ends with its reply. -/
theorem State.Awaits.settle_result {s t : State} {w : Waiter} {m reason : Nat} {b : Bytes} (h : s.Awaits w) (k : Kept m s t) (hm : m &&& answerParts = 0) :
    (t.result w.token reason b).settle = ({ t with waiters := [] } : State).emit (.item w.session (w.reply reason b)) := by
  have hr : t.results = [] := (k.results_eq hm).trans h.results
  have e : t.result w.token reason b = { t with results := [(w.token, reason, b)] } := by rw [State.result, hr]; rfl
  rw [e, State.settle, State.settleLoop_results (t := { t with results := [(w.token, reason, b)] }) h.alone h.single [] 20000
    (by exact (k.waiters_eq hm).trans h.waiters) (by exact (k.jobs_eq hm).trans h.jobs) (by exact (congrArg OdeRt.done (k.ode_eq hm)).trans h.done)
    (fun _ ha => nomatch ha) (by decide) rfl, ← hr]

/-! ### The validation of an image (R191, R305, R707) -/

theorem exec_chartValidation (s : State) (h : Nat) : exec (.chartValidation h) s = .next (s.validateChart h).settle := rfl
theorem exec_waveValidation (s : State) (h : Nat) : exec (.waveValidation h) s = .next (s.validateWave h).settle := rfl

section
variable {s : State} {h id : Nat} {x : Xfer} 

theorem State.validateChart_none (hw : s.writing Obj.ndlChartImage h = none) : s.validateChart h = s := by
  rw [State.validateChart, hw]

theorem State.validateChart_passes (hw : s.writing Obj.ndlChartImage h = some (id, x)) (hv : x.validating = true) (hc : chartChecks x.data = none) :
    s.validateChart h = ((s.setXfer id none).chartLoaded h x.data).result (.xfer id) rOk [0#8] := by
  rw [State.validateChart, hw]
  simp only [hv, hc]
  rfl

theorem State.validateChart_fails {c k : Nat} (hw : s.writing Obj.ndlChartImage h = some (id, x)) (hv : x.validating = true)
    (hc : chartChecks x.data = some (c, k)) :
    s.validateChart h = ((s.setXfer id none).chartFail h rFormat c k).result (.xfer id) rFormat [BitVec.ofNat 8 c] := by
  rw [State.validateChart, hw]
  simp only [hv, hc]
  rfl

theorem State.validateWave_none (hw : s.writing Obj.ptfWaveTable h = none) : s.validateWave h = s := by
  rw [State.validateWave, hw]

/-- R305: a validated table is held. -/
def State.waveLoaded (s : State) (h : Nat) (img : Bytes) : State :=
  ((s.wr Obj.ptfWaveState h 2).wr Obj.ptfWaveInfo h (waveInfo img)).setImg Obj.ptfWaveTable h img

/-- R306: a load of a table fails. -/
def State.waveFail (s : State) (h reason : Nat) (f : Nat × Nat × Nat × Nat) : State := (s.waveClear h 3).waveError h reason f

theorem State.validateWave_passes (hw : s.writing Obj.ptfWaveTable h = some (id, x)) (hv : x.validating = true) (hc : waveChecks x.data = none) :
    s.validateWave h = ((s.setXfer id none).waveLoaded h x.data).result (.xfer id) rOk [0#8] := by
  rw [State.validateWave, hw]
  simp only [hv, hc]
  rfl

theorem State.validateWave_fails {f : Nat × Nat × Nat × Nat} (hw : s.writing Obj.ptfWaveTable h = some (id, x)) (hv : x.validating = true)
    (hc : waveChecks x.data = some f) :
    s.validateWave h = ((s.setXfer id none).waveFail h rFormat f).result (.xfer id) rFormat [BitVec.ofNat 8 f.1] := by
  rw [State.validateWave, hw]
  simp only [hv, hc]
  rfl

end

@[simp] theorem State.img_setImg_self (s : State) (o e : Nat) (b : Bytes) : (s.setImg o e b).img o e = b := Tbl.get_put_self ..

theorem State.img_setImg_ne (s : State) {o e e' : Nat} (b : Bytes) (ho : o < 65536) (h : e' ≠ e) : (s.setImg o e b).img o e' = s.img o e' :=
  Tbl.get_put_ne _ _ _ (fun k => h ((odKey_inj ho ho).1 k).2)

/-- R191, R305, R707: the validation ends with t, and its result is the reply to the request that waits for it. -/
def Ends (w : Waiter) (reason check : Nat) (t u : State) : Prop :=
  u = ({ t with waiters := [] } : State).emit (.item w.session (w.reply reason [BitVec.ofNat 8 check]))

theorem State.Awaits.next_ends {s t : State} {w : Waiter} {i : Instr} {id m reason check : Nat} (h : s.Awaits w) (hw : w.token = .xfer id)
    (hx : exec i s = .next (t.result (.xfer id) reason [BitVec.ofNat 8 check]).settle) (k : Kept m s t) (hm : m &&& answerParts = 0) :
    Next i s (Ends w reason check t) :=
  ⟨_, hx, by rw [← hw]; exact h.settle_result k hm⟩

section
variable {t u : State} {w : Waiter} {reason check : Nat}

theorem Ends.rd (h : Ends w reason check t u) (o e : Nat) : u.rd o e = t.rd o e := by rw [h]; rfl
theorem Ends.img (h : Ends w reason check t u) (o e : Nat) : u.img o e = t.img o e := by rw [h]; rfl
theorem Ends.xfer (h : Ends w reason check t u) (id : Nat) : u.xfer id = t.xfer id := by rw [h]; rfl
theorem Ends.waiters (h : Ends w reason check t u) : u.waiters = [] := by rw [h]; rfl
theorem Ends.out (h : Ends w reason check t u) : u.out = t.out ++ [.item w.session (w.reply reason [BitVec.ofNat 8 check])] := by rw [h]; rfl

end

theorem Ends.keeps {s t u : State} {w : Waiter} {reason check : Nat} {els : List (Nat × Nat)} {ps : List Part} (h : Ends w reason check t u)
    (k : Keeps s t els ps) (hw : pt.waiters ||| km_emit ||| maskOf ps = maskOf ps) : Keeps s u els ps := by
  rw [h]
  exact k.kept ((State.emit_kept _ _).step (by decide +kernel) (Kept.set_waiters (m := pt.waiters ||| km_emit) (by decide +kernel) (.refl ..))) hw

/-- The elements that the load of a chart writes. -/
abbrev chartEls (h : Nat) : List (Nat × Nat) :=
  [(Obj.ndlChartState, h), (Obj.ndlChartInfo, h), (Obj.ndlChartLabel, h), (Obj.ndlChartTsets, h), (Obj.ndlChartError, h), (Obj.ndlChartCounts, 0)]

theorem State.chartCount_keeps {s t : State} {h : Nat} {ps : List Part} (k : Keeps s t (chartEls h) ps) (i : Nat) : Keeps s (t.chartCount i) (chartEls h) ps :=
  k.count _ _ _ (by decide) (by simp)

/-- R191: a held image writes four elements of its handle and the image, and is counted. -/
theorem State.chartLoaded_eq (s : State) (h : Nat) (b : Bytes) : ∃ i l t, s.chartLoaded h b =
    (((((s.wr Obj.ndlChartState h 2).wr Obj.ndlChartInfo h i).wr Obj.ndlChartLabel h l).wr Obj.ndlChartTsets h t).setImg Obj.ndlChartImage h b).chartCount 0 :=
  ⟨_, _, _, rfl⟩

theorem State.chartLoaded_keeps (s : State) (h : Nat) (b : Bytes) : Keeps s (s.chartLoaded h b) (chartEls h) [.images, .chartLen, .poa, .out, .waiters] := by
  obtain ⟨i, l, t, e⟩ := s.chartLoaded_eq h b
  rw [e]
  exact State.chartCount_keeps (((((Keeps.refl s _ _).wr _ (by decide) (by simp)).wr _ (by decide) (by simp)).wr _ (by decide) (by simp)).wr _ (by decide) (by simp)
    |>.kept (State.setImg_kept ..) (by decide +kernel)) 0

theorem State.chartFail_keeps (s : State) (h reason c e : Nat) :
    Keeps s (s.chartFail h reason c e) (chartEls h) [.images, .chartLen, .poa, .out, .waiters] :=
  State.chartCount_keeps ((((((Keeps.refl s _ _).wr _ (by decide) (by simp)).wr _ (by decide) (by simp)).wr _ (by decide) (by simp)).wr _ (by decide) (by simp)
    |>.kept (State.setImg_kept ..) (by decide +kernel)).kept (State.setChartLen_kept ..) (by decide +kernel) |>.wr _ (by decide) (by simp)) 1

theorem State.rd_chartCount (s : State) {o : Nat} (e i : Nat) (ho : o < 65536) (h : o ≠ Obj.ndlChartCounts) : (s.chartCount i).rd o e = s.rd o e :=
  State.rd_count_ne _ _ _ _ (by decide) ho h

theorem State.chartLoaded_state (s : State) (h : Nat) (b : Bytes) : (s.chartLoaded h b).chartState h = 2 := by
  obtain ⟨i, l, t, e⟩ := s.chartLoaded_eq h b
  rw [e, State.chartState]
  simp (disch := decide) only [State.rd_chartCount, State.setImg_rd, State.rd_wr_obj, State.rd_wr_self]

theorem State.chartLoaded_error (s : State) (h : Nat) (b : Bytes) : (s.chartLoaded h b).rd Obj.ndlChartError h = s.rd Obj.ndlChartError h := by
  obtain ⟨i, l, t, e⟩ := s.chartLoaded_eq h b
  rw [e]
  simp (disch := decide) only [State.rd_chartCount, State.setImg_rd, State.rd_wr_obj]

theorem State.chartLoaded_img (s : State) (h : Nat) (b : Bytes) : (s.chartLoaded h b).img Obj.ndlChartImage h = b := by
  obtain ⟨i, l, t, e⟩ := s.chartLoaded_eq h b
  rw [e, State.img, show (State.chartCount _ _).images = _ from (State.chartCount_kept ..).same .images (by decide +kernel)]
  exact State.img_setImg_self ..

@[simp] theorem State.setChartLen_img (s : State) (h n o e : Nat) : (s.setChartLen h n).img o e = s.img o e := rfl

theorem State.chartClear_img (s : State) (h st : Nat) : (s.chartClear h st).img Obj.ndlChartImage h = [] := by
  rw [State.chartClear, State.setChartLen_img, State.img_setImg_self]

theorem State.chartClear_state (s : State) (h st : Nat) : (s.chartClear h st).chartState h = st := by
  show ((((s.wr Obj.ndlChartState h st).wr Obj.ndlChartInfo h 0).wr Obj.ndlChartLabel h 0).wr Obj.ndlChartTsets h 0).rd Obj.ndlChartState h = st
  simp (disch := decide) only [State.rd_wr_obj, State.rd_wr_self]

theorem State.chartFail_state (s : State) (h reason c e : Nat) : (s.chartFail h reason c e).chartState h = 3 := by
  unfold State.chartFail State.chartError
  simp (disch := decide) only [State.chartState, State.rd_chartCount, State.rd_wr_obj]
  exact s.chartClear_state h 3

theorem State.chartFail_error (s : State) (h reason c e : Nat) :
    (s.chartFail h reason c e).rd Obj.ndlChartError h = reason + c * 2 ^ 16 + e % 2 ^ 32 * 2 ^ 24 := by
  unfold State.chartFail State.chartError
  simp (disch := decide) only [State.rd_chartCount, State.rd_wr_self]

theorem State.chartFail_img (s : State) (h reason c e : Nat) : (s.chartFail h reason c e).img Obj.ndlChartImage h = [] := by
  rw [State.img, show (s.chartFail h reason c e).images = (s.chartClear h 3).images from (State.chartError_kept ..).same .images (by decide +kernel)]
  exact s.chartClear_img h 3

/-! #### Wave tables -/

/-- The elements that the load of a wave table writes. -/
abbrev waveEls (h : Nat) : List (Nat × Nat) := [(Obj.ptfWaveState, h), (Obj.ptfWaveInfo, h), (Obj.ptfWaveError, h)]

theorem State.waveLoaded_keeps (s : State) (h : Nat) (b : Bytes) : Keeps s (s.waveLoaded h b) (waveEls h) [.images, .poa, .out, .waiters] :=
  ((Keeps.refl s _ _).wr _ (by decide) (by simp)).wr _ (by decide) (by simp) |>.kept (State.setImg_kept ..) (by decide +kernel)

theorem State.waveFail_keeps (s : State) (h reason : Nat) (f : Nat × Nat × Nat × Nat) :
    Keeps s (s.waveFail h reason f) (waveEls h) [.images, .poa, .out, .waiters] :=
  (((Keeps.refl s _ _).wr _ (by decide) (by simp)).wr _ (by decide) (by simp) |>.kept (State.setImg_kept ..) (by decide +kernel)).wr _ (by decide) (by simp)

/-- R336: the elements that a held table writes, for its PTF.WAVE_INFO. -/
theorem State.waveHeld_reads (s : State) (h i : Nat) (b : Bytes) :
    let t := ((s.wr Obj.ptfWaveState h 2).wr Obj.ptfWaveInfo h i).setImg Obj.ptfWaveTable h b
    t.rd Obj.ptfWaveState h = 2 ∧ t.img Obj.ptfWaveTable h = b ∧ t.rd Obj.ptfWaveInfo h = i ∧ t.rd Obj.ptfWaveError h = s.rd Obj.ptfWaveError h := by
  simp (disch := decide) only [State.setImg_rd, State.rd_wr_obj, State.rd_wr_self, State.img_setImg_self, and_self]

theorem State.waveLoaded_reads (s : State) (h : Nat) (b : Bytes) : (s.waveLoaded h b).rd Obj.ptfWaveState h = 2 ∧ (s.waveLoaded h b).img Obj.ptfWaveTable h = b ∧
    (s.waveLoaded h b).rd Obj.ptfWaveInfo h = waveInfo b ∧ (s.waveLoaded h b).rd Obj.ptfWaveError h = s.rd Obj.ptfWaveError h :=
  s.waveHeld_reads h (waveInfo b) b

/-- What a wave table without an image reads. -/
theorem State.waveClear_reads (s : State) (h st : Nat) :
    (s.waveClear h st).rd Obj.ptfWaveState h = st ∧ (s.waveClear h st).img Obj.ptfWaveTable h = [] ∧ (s.waveClear h st).rd Obj.ptfWaveInfo h = 0 := by
  unfold State.waveClear
  simp (disch := decide) only [State.setImg_rd, State.rd_wr_obj, State.rd_wr_self, State.img_setImg_self, and_self]

/-- R306: what a wave table reads once a check has failed, for its PTF.WAVE_ERROR. -/
theorem State.waveRefused_reads (s : State) (h v : Nat) :
    let t := (s.waveClear h 3).wr Obj.ptfWaveError h v
    t.rd Obj.ptfWaveState h = 3 ∧ t.img Obj.ptfWaveTable h = [] ∧ t.rd Obj.ptfWaveInfo h = 0 ∧ t.rd Obj.ptfWaveError h = v := by
  obtain ⟨hs, hb, hi⟩ := s.waveClear_reads h 3
  refine ⟨?_, hb, ?_, State.rd_wr_self ..⟩
  · rw [State.rd_wr_obj _ _ (by decide) (by decide) (by decide), hs]
  · rw [State.rd_wr_obj _ _ (by decide) (by decide) (by decide), hi]

theorem State.waveFail_reads (s : State) (h reason c p v e : Nat) :
    (s.waveFail h reason (c, p, v, e)).rd Obj.ptfWaveState h = 3 ∧ (s.waveFail h reason (c, p, v, e)).img Obj.ptfWaveTable h = [] ∧
    (s.waveFail h reason (c, p, v, e)).rd Obj.ptfWaveInfo h = 0 ∧
    (s.waveFail h reason (c, p, v, e)).rd Obj.ptfWaveError h = reason + c * 2 ^ 16 + p * 2 ^ 24 + v * 2 ^ 32 + e * 2 ^ 36 :=
  s.waveRefused_reads h _

/-! #### The two commands -/

section
variable {s : State} {w : Waiter} {h id : Nat} {x : Xfer}

theorem Kept.xfer_eq {m : Nat} {s t : State} (k : Kept m s t) (hm : m.testBit 17 = false) (id : Nat) : t.xfer id = s.xfer id := by
  rw [State.xfer, show t.poa = s.poa from k.same .poa hm, State.xfer]

/-- The frame of a validation, from the frame of the load. -/
theorem Ends.frame {t u : State} {reason check : Nat} {els : List (Nat × Nat)} {ps : List Part} (e : Ends w reason check t u)
    (k : Keeps (s.setXfer id none) t els ps) (hp : km_setXfer ||| maskOf ps = maskOf ps) (hw : pt.waiters ||| km_emit ||| maskOf ps = maskOf ps) :
    Keeps s u els ps :=
  e.keeps (((Keeps.refl s _ _).kept (State.setXfer_kept ..) hp).trans k) hw

/-- The one output of a validation is the reply. -/
theorem Ends.said {m : Nat} {t u : State} {reason check : Nat} (e : Ends w reason check t u) (k : Kept m (s.setXfer id none) t) (hm : m.testBit 3 = false) :
    u.out = s.out ++ [.item w.session (w.reply reason [BitVec.ofNat 8 check])] :=
  e.out.trans (congrArg (· ++ _) (k.same .out hm))

/-- The transfer has ended. -/
theorem Ends.ended {m : Nat} {t u : State} {reason check : Nat} (e : Ends w reason check t u) (k : Kept m (s.setXfer id none) t) (hm : m.testBit 17 = false) :
    u.xfer id = none := by
  rw [e.xfer, k.xfer_eq hm, State.setXfer_self]

theorem chartValidation_passes (ha : s.Awaits w) (hk : w.token = .xfer id) (hw : s.writing Obj.ndlChartImage h = some (id, x)) (hv : x.validating = true)
    (hc : chartChecks x.data = none) : Next (.chartValidation h) s (Ends w rOk 0 ((s.setXfer id none).chartLoaded h x.data)) :=
  ha.next_ends hk (by rw [exec_chartValidation, State.validateChart_passes hw hv hc])
    ((State.chartLoaded_kept ..).step (m := km_setXfer ||| km_chartLoaded) (by decide +kernel) ((s.setXfer_kept id none).mono (by decide +kernel))) (by decide +kernel)

theorem chartValidation_fails {c e : Nat} (ha : s.Awaits w) (hk : w.token = .xfer id) (hw : s.writing Obj.ndlChartImage h = some (id, x))
    (hv : x.validating = true) (hc : chartChecks x.data = some (c, e)) :
    Next (.chartValidation h) s (Ends w rFormat c ((s.setXfer id none).chartFail h rFormat c e)) :=
  ha.next_ends hk (by rw [exec_chartValidation, State.validateChart_fails hw hv hc])
    ((State.chartFail_kept ..).step (m := km_setXfer ||| km_chartFail) (by decide +kernel) ((s.setXfer_kept id none).mono (by decide +kernel))) (by decide +kernel)

theorem State.waveLoaded_kept (s : State) (h : Nat) (b : Bytes) : Kept km_waveClear s (s.waveLoaded h b) :=
  (State.setImg_kept ..).step (by decide +kernel) <| (State.wr_kept _ Obj.ptfWaveInfo h _).step (by decide +kernel) <|
    (State.wr_kept s Obj.ptfWaveState h 2).mono (by decide +kernel)

theorem State.waveFail_kept (s : State) (h reason : Nat) (f : Nat × Nat × Nat × Nat) : Kept (km_waveClear ||| km_waveError) s (s.waveFail h reason f) :=
  (State.waveError_kept ..).step (by decide +kernel) ((State.waveClear_kept ..).mono (by decide +kernel))

theorem waveValidation_passes (ha : s.Awaits w) (hk : w.token = .xfer id) (hw : s.writing Obj.ptfWaveTable h = some (id, x)) (hv : x.validating = true)
    (hc : waveChecks x.data = none) : Next (.waveValidation h) s (Ends w rOk 0 ((s.setXfer id none).waveLoaded h x.data)) :=
  ha.next_ends hk (by rw [exec_waveValidation, State.validateWave_passes hw hv hc])
    ((State.waveLoaded_kept ..).step (m := km_setXfer ||| km_waveClear) (by decide +kernel) ((s.setXfer_kept id none).mono (by decide +kernel))) (by decide +kernel)

theorem waveValidation_fails {f : Nat × Nat × Nat × Nat} (ha : s.Awaits w) (hk : w.token = .xfer id) (hw : s.writing Obj.ptfWaveTable h = some (id, x))
    (hv : x.validating = true) (hc : waveChecks x.data = some f) :
    Next (.waveValidation h) s (Ends w rFormat f.1 ((s.setXfer id none).waveFail h rFormat f)) :=
  ha.next_ends hk (by rw [exec_waveValidation, State.validateWave_fails hw hv hc])
    ((State.waveFail_kept ..).step (m := km_setXfer ||| (km_waveClear ||| km_waveError)) (by decide +kernel) ((s.setXfer_kept id none).mono (by decide +kernel)))
    (by decide +kernel)

end

/-- Settles O35: the load of the image or its refusal (`chartLoaded_keeps`, `chartFail_keeps`, `waveLoaded_reads`, `waveFail_reads`), whose result reaches the one
request that waits (`State.Awaits.next_ends`). -/
theorem chartsAndWavesAreValidated : Obligations.ChartsAndWavesAreValidated := by
  unfold Obligations.ChartsAndWavesAreValidated
  intro s h
  refine ⟨fun id x w hw hv ha hk => ⟨fun hc => ?_, fun c e hc => ?_⟩, fun id x w hw hv ha hk => ⟨fun hc => ?_, fun c p v e hc => ?_⟩,
    fun hq => ⟨fun hw => hq.next_self ?_, fun hw => hq.next_self ?_⟩⟩
  · obtain ⟨t, ht, he⟩ := chartValidation_passes ha hk hw hv hc
    have k := State.chartLoaded_kept (s.setXfer id none) h x.data
    refine ⟨t, ht, ⟨?_, ?_, ?_, ?_⟩, ?_, he.waiters, he.frame (State.chartLoaded_keeps ..) (by decide +kernel) (by decide +kernel)⟩
    · rw [State.chartState, he.rd]; exact State.chartLoaded_state ..
    · rw [he.img, State.chartLoaded_img]
    · rw [he.rd, State.chartLoaded_error, State.setXfer_rd]
    · exact he.said k (by decide +kernel)
    · exact he.ended k (by decide +kernel)
  · obtain ⟨t, ht, he⟩ := chartValidation_fails ha hk hw hv hc
    have k := State.chartFail_kept (s.setXfer id none) h rFormat c e
    refine ⟨t, ht, ⟨?_, ?_, ?_, ?_⟩, ?_, he.waiters, he.frame (State.chartFail_keeps ..) (by decide +kernel) (by decide +kernel)⟩
    · rw [State.chartState, he.rd]; exact State.chartFail_state ..
    · rw [he.img, State.chartFail_img]
    · rw [he.rd, State.chartFail_error]
    · exact he.said k (by decide +kernel)
    · exact he.ended k (by decide +kernel)
  · obtain ⟨t, ht, he⟩ := waveValidation_passes ha hk hw hv hc
    have k := State.waveLoaded_kept (s.setXfer id none) h x.data
    obtain ⟨hs, hb, hi, hf⟩ := (s.setXfer id none).waveLoaded_reads h x.data
    rw [State.setXfer_rd] at hf
    exact ⟨t, ht, ⟨(he.rd ..).trans hs, (he.img ..).trans hb, (he.rd ..).trans hi, (he.rd ..).trans hf, he.said k (by decide +kernel)⟩,
      he.ended k (by decide +kernel), he.waiters, he.frame (State.waveLoaded_keeps ..) (by decide +kernel) (by decide +kernel)⟩
  · obtain ⟨t, ht, he⟩ := waveValidation_fails ha hk hw hv hc
    have k := State.waveFail_kept (s.setXfer id none) h rFormat (c, p, v, e)
    obtain ⟨hs, hb, hi, hf⟩ := (s.setXfer id none).waveFail_reads h rFormat c p v e
    exact ⟨t, ht, ⟨(he.rd ..).trans hs, (he.img ..).trans hb, (he.rd ..).trans hi, (he.rd ..).trans hf, he.said k (by decide +kernel)⟩,
      he.ended k (by decide +kernel), he.waiters, he.frame (State.waveFail_keeps ..) (by decide +kernel) (by decide +kernel)⟩
  · rw [exec_chartValidation, State.validateChart_none hw]; rfl
  · rw [exec_waveValidation, State.validateWave_none hw]; rfl

end Sys2Proof.Machine
end

section
namespace Sys2Proof.Machine
-- one declaration at a time, as in the laws: each `decide +kernel` waits for the declarations before it
set_option Elab.async false

/-! ### Results that nobody awaits (R76, R198) -/

/-- A frame that lists results holds without them where they read as before. -/
theorem Keeps.forget {s t : State} {els : List (Nat × Nat)} {ps : List Part} (h : Keeps s t els (.results :: ps)) :
    Keeps s { t with results := s.results } els ps where
  pending := h.pending
  rd o e ho he hp := h.rd o e ho he (by simpa using hp)
  field p hp hobj := by
    have k (hr : p ≠ .results) := h.field p (by simpa using ⟨hr, hp⟩) hobj
    cases p with
    | results => rfl
    | _ => exact k (by simp)

/-- In every state a write of v to the members commits as c does, is answered OK, and leaves nothing to wait for but results of requests that are gone. -/
structure DropsTo (r : ObjRow) (ix el v : Nat) (els : List Nat) (c : State → State) (m : Nat) : Prop where
  commit : ∀ u : State, u.commitCommand r ix el v els = (.of rOk, c u)
  kept : ∀ u, Kept m u (c u)
  apart : m &&& waitParts = 0
  results : ∀ u, ∃ l, (c u).results = u.results ++ l ∧ l.length < 19999 ∧ ∀ a ∈ l, ∃ id, a.1 = .xfer id

/-- An operation leaves alone what waits. -/
theorem Kept.waits {m : Nat} {s t : State} (k : Kept m s t) (hm : m &&& waitParts = 0) : t.ode = s.ode ∧ t.jobs = s.jobs ∧ t.waiters = s.waiters :=
  have off {i : Nat} (hi : waitParts.testBit i = true) := testBit_off_of_land hm hi
  ⟨k.same .ode (off (by decide +kernel)), k.same .jobs (off (by decide +kernel)), k.same .waiters (off (by decide +kernel))⟩

/-- The state that such a commit leaves once the results of gone requests are dropped. -/
def State.dropTo (u t : State) : State := { t with results := u.results, waiters := [] }

section
variable {r : ObjRow} {ix el v : Nat} {els : List Nat} {c : State → State} {m : Nat}

/-- Where nothing waited, the results of gone requests are dropped and the reply leaves. -/
theorem DropsTo.settle_emit (hc : DropsTo r ix el v els c m) {u : State} (hq : u.Quiet) (o : OutMsg) : ((c u).emit o).settle = (u.dropTo (c u)).emit o := by
  obtain ⟨ho, hj, hw⟩ := (hc.kept u).waits hc.apart
  obtain ⟨l, hl, hlen, -⟩ := hc.results u
  have hr : ((c u).emit o).results.length ≤ 20000 := by
    rw [State.emit_results, hl, hq.results, List.nil_append]
    omega
  rw [State.settle_quiet ((c u).emit o) ((congrArg OdeRt.done ho).trans hq.done) (hj.trans hq.jobs) (hw.trans hq.waiters) hr, State.dropTo, hq.results,
    ← hw.trans hq.waiters]
  rfl

/-- Where the write's own request waits, it is answered OK and the results of gone requests are dropped. -/
theorem DropsTo.finish_eq (hc : DropsTo r ix el v els c m) (hr : objRow ix = some r) {u : State} {n k : Nat} (hu : u.Awaits ⟨.fw k, n, 0x02, false, 0, 0, none⟩) :
    u.finish ⟨k, false, ix, el, els, v⟩ = (u.dropTo (c u)).emit (wrote n rOk 0xFFFF) := by
  obtain ⟨ho, hj, hw⟩ := (hc.kept u).waits hc.apart
  obtain ⟨l, hl, hlen, htok⟩ := hc.results u
  have run : u.fwRun ⟨k, false, ix, el, els, v⟩ = (c u).result (.fw k) rOk [] := by
    rw [State.fwRun, if_neg Bool.false_ne_true]
    dsimp only
    rw [hr]
    dsimp only
    rw [hc.commit]
    rfl
  have apart : ∀ a ∈ l, a.1 ≠ .fw k := by
    intro a ha e
    obtain ⟨id, hid⟩ := htok a ha
    exact Token.noConfusion (hid.symm.trans e)
  rw [State.finish, run, State.settleLoop_results (w := ⟨.fw k, n, 0x02, false, 0, 0, none⟩) (reason := rOk) (b := []) hu.alone hu.single l 19999
    (by exact hw.trans hu.waiters) (by exact hj.trans hu.jobs) (by exact (congrArg OdeRt.done ho).trans hu.done) apart hlen
    (congrArg (· ++ _) (hl.trans (by rw [hu.results, List.nil_append]))), State.dropTo, hu.results]
  rfl

theorem Accepts.effect_drops {i : Instr} {s : State} {n : Nat} {x : Session} {b : Bytes} {p : State → State → Prop} (h : Accepts s n x r ix el b els)
    (hi : exec i s = .next (s.hostWrite n ix el b)) (hc : DropsTo r ix el (ofLE b) els c m)
    (hp : ∀ u : State, p { u with waiters := [] } ((u.dropTo (c u)).emit (wrote n rOk 0xFFFF))) : Effect i s n x r ix el b els p where
  direct hs := by
    have quiet := h.quiet.touch n x
    have e := hp (s.touch n x)
    rw [State.withWaiters_nil quiet.waiters] at e
    exact ⟨_, hi, by rwa [State.hostWrite_direct h hs (hc.commit _), hc.settle_emit quiet]⟩
  posted hs := ⟨_, hi, h.posted hs⟩
  later hs u k hu := by
    rw [hc.finish_eq h.row hu]
    exact hp u

end

/-! ### The delete of an image (R194, R198, R335) -/

/-- R198: the transfer to an element ends; a reply that it still owes is refused. -/
def State.endWriting (s : State) (ix el : Nat) : State :=
  match s.writing ix el with
  | some (id, x) => if x.validating then (s.setXfer id none).result (.xfer id) rSeq [] else s.setXfer id none
  | none => s

theorem State.chartDelete_eq (s : State) (h : Nat) : s.chartDelete h = (s.endWriting Obj.ndlChartImage h).chartClear h 0 := rfl

theorem State.waveDelete_eq (s : State) (h : Nat) : s.waveDelete h = (s.endWriting Obj.ptfWaveTable h).waveClear h 0 := rfl

theorem State.endWriting_kept (s : State) (ix el : Nat) : Kept (km_setXfer ||| km_result) s (s.endWriting ix el) := by
  unfold State.endWriting
  split
  · split
    · exact (State.result_kept ..).step (by decide +kernel) ((State.setXfer_kept ..).mono (by decide +kernel))
    · exact (State.setXfer_kept ..).mono (by decide +kernel)
  · exact .refl ..

/-- The transfers after a transfer has ended: those of other numbers. -/
theorem State.endWriting_xfers (s : State) (ix el : Nat) :
    (s.endWriting ix el).poa.xfers = match s.writing ix el with | some (id, _) => Tbl.del s.poa.xfers id | none => s.poa.xfers := by
  unfold State.endWriting
  split
  · split <;> rfl
  · rfl

theorem State.endWriting_results (s : State) (ix el : Nat) :
    ∃ l, (s.endWriting ix el).results = s.results ++ l ∧ l.length ≤ 1 ∧ ∀ a ∈ l, ∃ id, a.1 = .xfer id := by
  unfold State.endWriting
  split
  · rename_i id x _
    split
    · exact ⟨[(.xfer id, rSeq, [])], rfl, le_refl _, fun a ha => ⟨id, by rw [List.mem_singleton.1 ha]⟩⟩
    · exact ⟨[], (List.append_nil _).symm, Nat.zero_le _, fun _ ha => nomatch ha⟩
  · exact ⟨[], (List.append_nil _).symm, Nat.zero_le _, fun _ ha => nomatch ha⟩

/-! #### The transfers that are left -/

theorem Tbl.del_eq_filter {α : Type} (t : Tbl α) (k : Nat) : Tbl.del t k = t.filter (fun e => e.1 != k) := by
  induction t with
  | nil => rfl
  | cons e t ih => by_cases h : e.1 = k <;> simp [Tbl.del, h, ih]

theorem Tbl.find_filter_off {α : Type} (t : Tbl α) {p : Nat → Bool} {k : Nat} (h : p k = false) : Tbl.find (t.filter (fun e => p e.1)) k = none := by
  induction t with
  | nil => rfl
  | cons e t ih =>
    by_cases hp : p e.1 = true
    · have hk : e.1 ≠ k := fun he => by rw [he, h] at hp; exact Bool.false_ne_true hp
      simp [hp, Tbl.find, hk, ih]
    · simpa [hp] using ih

theorem findSome?_filter_key {α β : Type} {l : List (Nat × α)} {f : Nat × α → Option (Nat × β)} (hf : ∀ e z, f e = some z → z.1 = e.1) {p : Nat → Bool}
    {z : Nat × β} (h : l.findSome? f = some z) (hp : p z.1 = true) : (l.filter (fun e => p e.1)).findSome? f = some z := by
  induction l with
  | nil => cases h
  | cons e l ih =>
    rw [List.findSome?_cons] at h
    cases he : f e with
    | some y =>
      rw [he] at h
      cases h
      rw [hf e _ he] at hp
      simp [hp, he]
    | none =>
      rw [he] at h
      by_cases hpe : p e.1 = true <;> simp [hpe, he, ih h]

/-- A transfer in progress is still there where its number is. -/
theorem State.writing_of_xfers {s t : State} {p : Nat → Bool} {ix el id : Nat} {x : Xfer} (ht : t.poa.xfers = s.poa.xfers.filter (fun e => p e.1))
    (h : s.writing ix el = some (id, x)) (hp : p id = true) : t.writing ix el = some (id, x) := by
  unfold State.writing at h ⊢
  rw [ht]
  refine findSome?_filter_key ?_ h hp
  intro e z hz
  split at hz
  · split at hz
    · cases hz; rfl
    · cases hz
  · cases hz

/-- The numbers that a transfer's end leaves. -/
theorem State.endWriting_filter (s : State) (ix el : Nat) : ∃ p : Nat → Bool, (s.endWriting ix el).poa.xfers = s.poa.xfers.filter (fun e => p e.1) ∧
    ∀ id x, s.writing ix el = some (id, x) → p id = false := by
  have h := s.endWriting_xfers ix el
  cases hw : s.writing ix el with
  | none =>
    rw [hw] at h
    exact ⟨fun _ => true, by rw [h]; simp, fun _ _ k => nomatch k⟩
  | some y =>
    rw [hw] at h
    refine ⟨fun k => k != y.1, h.trans (Tbl.del_eq_filter ..), fun id x k => ?_⟩
    cases k
    simp

/-- One after another, each member's transfer ends and the member is cleared. -/
def State.deleteAll (ix : Nat) (clear : State → Nat → State) (els : List Nat) (s : State) : State := els.foldl (fun u h => clear (u.endWriting ix h) h) s

section
variable {ix : Nat} {clear : State → Nat → State}

theorem State.deleteAll_filter (hx : ∀ u h, (clear u h).poa = u.poa) (els : List Nat) (s : State) :
    ∃ p : Nat → Bool, (s.deleteAll ix clear els).poa.xfers = s.poa.xfers.filter (fun e => p e.1) ∧
      ∀ h ∈ els, ∀ id x, s.writing ix h = some (id, x) → p id = false := by
  induction els generalizing s with
  | nil => exact ⟨fun _ => true, by simp [State.deleteAll], fun _ h => nomatch h⟩
  | cons h els ih =>
    obtain ⟨p, hp, gone⟩ := s.endWriting_filter ix h
    have hp' : (clear (s.endWriting ix h) h).poa.xfers = s.poa.xfers.filter (fun e => p e.1) := by rw [hx, hp]
    obtain ⟨q, hq, gone'⟩ := ih (clear (s.endWriting ix h) h)
    refine ⟨fun k => p k && q k, ?_, ?_⟩
    · refine hq.trans ?_
      rw [hp', List.filter_filter]
      exact List.filter_congr (fun e _ => Bool.and_comm ..)
    · intro h' hm id x hw
      show (p id && q id) = false
      cases hpi : p id with
      | false => rw [Bool.false_and]
      | true =>
        rcases List.mem_cons.1 hm with rfl | hm
        · rw [gone id x hw] at hpi
          cases hpi
        · rw [gone' h' hm id x (State.writing_of_xfers hp' hw hpi), Bool.and_false]

/-- No transfer to a member is left. -/
theorem State.deleteAll_xfer (hx : ∀ u h, (clear u h).poa = u.poa) {els : List Nat} {s : State} {h id : Nat} {x : Xfer} (hm : h ∈ els)
    (hw : s.writing ix h = some (id, x)) : (s.deleteAll ix clear els).xfer id = none := by
  obtain ⟨p, hp, gone⟩ := s.deleteAll_filter (ix := ix) hx els
  rw [State.xfer, hp, Tbl.get, Tbl.find_filter_off _ (gone h hm id x hw)]
  rfl

/-- All that waits afterwards is a result for each transfer that ended. -/
theorem State.deleteAll_results (hr : ∀ u h, (clear u h).results = u.results) (els : List Nat) (s : State) :
    ∃ l, (s.deleteAll ix clear els).results = s.results ++ l ∧ l.length ≤ els.length ∧ ∀ a ∈ l, ∃ id, a.1 = .xfer id := by
  induction els generalizing s with
  | nil => exact ⟨[], (List.append_nil _).symm, le_refl _, fun _ ha => nomatch ha⟩
  | cons h els ih =>
    obtain ⟨k, hk, hlen, hid⟩ := s.endWriting_results ix h
    obtain ⟨l, hl, hlen', hid'⟩ := ih (clear (s.endWriting ix h) h)
    refine ⟨k ++ l, ?_, ?_, fun a ha => (List.mem_append.1 ha).elim (hid a) (hid' a)⟩
    · refine hl.trans ?_
      rw [hr, hk, List.append_assoc]
    · rw [List.length_append, List.length_cons]
      omega

/-- What an operation sets for its member and leaves alone for others, after the operation on several members. -/
theorem foldl_sets {α : Type} {f : State → Nat → State} {g : State → Nat → α} {v : α} (hs : ∀ u h, g (f u h) h = v) (hn : ∀ u h k, k ≠ h → g (f u h) k = g u k)
    (els : List Nat) (s : State) (k : Nat) : (k ∈ els → g (els.foldl f s) k = v) ∧ (k ∉ els → g (els.foldl f s) k = g s k) := by
  induction els using List.reverseRecOn with
  | nil => exact ⟨fun h => absurd h (by simp), fun _ => rfl⟩
  | append_singleton els h ih =>
    rw [List.foldl_append]
    by_cases hk : k = h
    · subst hk
      exact ⟨fun _ => hs .., fun k => absurd (by simp) k⟩
    · rw [show List.foldl f (els.foldl f s) [h] = f (els.foldl f s) h from rfl, hn _ _ _ hk]
      simpa [hk] using ih

end

/-- A fold whose every step keeps the frame. -/
theorem Keeps.foldl {α : Type} {s t : State} {els : List (Nat × Nat)} {ps : List Part} {f : State → α → State} {l : List α} (h : Keeps s t els ps)
    (hf : ∀ u, ∀ a ∈ l, Keeps s u els ps → Keeps s (f u a) els ps) : Keeps s (l.foldl f t) els ps := by
  induction l generalizing t with
  | nil => exact h
  | cons a l ih => exact ih (hf t a List.mem_cons_self h) (fun u b hb => hf u b (List.mem_cons_of_mem _ hb))

/-- R53: an accepted write goes to the members that its element selects. -/
theorem State.writeCheck_els {s : State} {level ix el : Nat} {b : Bytes} {els : List Nat} {r : ObjRow} (hr : objRow ix = some r)
    (h : s.writeCheck level ix el b = (rOk, els)) : els = s.elems r.cls el := by
  have hne : (rNoElem ≠ rOk ∧ rAccess ≠ rOk) ∧ (rType ≠ rOk ∧ rMode ≠ rOk) ∧ rFault ≠ rOk := by decide
  obtain ⟨⟨h1, h2⟩, ⟨h3, h4⟩, h5⟩ := hne
  unfold State.writeCheck at h
  rw [hr] at h
  dsimp only at h
  by_cases c1 : (s.elems r.cls el).isEmpty = true
  · rw [if_pos c1] at h; exact absurd (congrArg Prod.fst h) h1
  rw [if_neg c1] at h
  by_cases c2 : (!reaches r.wr level) = true
  · rw [if_pos c2] at h; exact absurd (congrArg Prod.fst h) h2
  rw [if_neg c2] at h
  split at h
  · exact absurd (congrArg Prod.fst h) h3
  · split at h
    · exact absurd (congrArg Prod.fst h) h4
    · split at h
      · exact absurd (congrArg Prod.fst h) h5
      · exact (congrArg Prod.snd h).symm

theorem State.elems_chart_length (s : State) (el : Nat) : (s.elems .chart el).length ≤ 1 := by
  unfold State.elems
  dsimp only
  split
  · exact le_refl _
  · split
    · rename_i h
      exact absurd h.2 (by decide)
    · split
      · rename_i h
        exact absurd h.2 (Nat.not_lt_of_le h.1)
      · exact Nat.zero_le _

theorem State.elems_composite_length (s : State) (a b el : Nat) : (s.elems (.composite a b) el).length ≤ 1 := by
  rw [State.elems]
  split <;> simp

/-- Object o deletes the members of object ix that are named in it, and `clear` is what a member without an image holds (R194, R335). -/
structure Deletes (o ix : Nat) (clear : State → Nat → State) (m : Nat) : Prop where
  acts : ∀ (s : State) (h v : Nat), (s.effectSys o h v).effectTest o h v = clear (s.endWriting ix h) h
  byMember : actsByMember o = true
  lt : o < 65536
  poa : ∀ u h, (clear u h).poa = u.poa
  results : ∀ u h, (clear u h).results = u.results
  kept : ∀ u h, Kept m u (clear u h)
  apart : m &&& waitParts = 0

theorem deletes_charts : Deletes Obj.ndlChartDelete Obj.ndlChartImage (fun u h => u.chartClear h 0) km_chartClear where
  acts _ _ _ := rfl
  byMember := by decide
  lt := by decide
  poa u h := (u.chartClear_kept h 0).same .poa (by decide +kernel)
  results u h := (u.chartClear_kept h 0).same .results (by decide +kernel)
  kept u h := u.chartClear_kept h 0
  apart := by decide +kernel

theorem deletes_waves : Deletes Obj.ptfWaveDelete Obj.ptfWaveTable (fun u h => u.waveClear h 0) km_waveClear where
  acts _ _ _ := rfl
  byMember := by decide
  lt := by decide
  poa u h := (u.waveClear_kept h 0).same .poa (by decide +kernel)
  results u h := (u.waveClear_kept h 0).same .results (by decide +kernel)
  kept u h := u.waveClear_kept h 0
  apart := by decide +kernel

/-- What the commit of a delete does. -/
def State.deleting (u : State) (o ix : Nat) (clear : State → Nat → State) (els : List Nat) : State := (u.wrAll o els 1).deleteAll ix clear els

section
variable {o ix m : Nat} {clear : State → Nat → State} {els : List Nat}

theorem State.deleteAll_kept (D : Deletes o ix clear m) (els : List Nat) (s : State) : Kept (km_setXfer ||| km_result ||| m) s (s.deleteAll ix clear els) := by
  have hm : m ||| (km_setXfer ||| km_result ||| m) = km_setXfer ||| km_result ||| m := by rw [Nat.or_comm, Nat.or_assoc, Nat.or_self]
  have hx : (km_setXfer ||| km_result) ||| (km_setXfer ||| km_result ||| m) = km_setXfer ||| km_result ||| m := by rw [← Nat.or_assoc, Nat.or_self]
  exact Kept.foldl (fun u h k => (D.kept _ h).step hm ((u.endWriting_kept ix h).step hx k)) (.refl ..)

theorem State.deleting_kept (D : Deletes o ix clear m) (u : State) : Kept (ob o ||| (km_setXfer ||| km_result ||| m)) u (u.deleting o ix clear els) := by
  have k := u.wrAll_kept o els 1
  rw [Nat.mod_eq_of_lt D.lt] at k
  exact (State.deleteAll_kept D ..).step (by rw [Nat.or_comm, Nat.or_assoc, Nat.or_self]) (k.mono (by rw [← Nat.or_assoc, Nat.or_self]))

theorem Deletes.dropsTo (D : Deletes o ix clear m) {r : ObjRow} {el : Nat} (hlen : els.length ≤ 1) :
    DropsTo r o el 1 els (fun u => u.deleting o ix clear els) (ob o ||| (km_setXfer ||| km_result ||| m)) where
  commit u := by
    rw [State.commitCommand_eq (fun _ => Nat.one_ne_zero), State.commitWrite_byMember D.byMember]
    simp only [D.acts]
    rfl
  kept u := State.deleting_kept D u
  apart := by
    rw [Nat.and_or_distrib_right, Nat.and_or_distrib_right, D.apart, ob_land_low (by decide +kernel)]
    decide +kernel
  results u := by
    obtain ⟨l, hl, hn, ht⟩ := (u.wrAll o els 1).deleteAll_results (ix := ix) D.results els
    refine ⟨l, hl.trans ?_, by omega, ht⟩
    rw [State.wrAll_eq]

/-- R194, R198: what waited for a deleted member is refused, and the delete is answered OK; what it does else, on a state in which its value is stored. -/
theorem Takes.of_deletes (D : Deletes o ix clear m) {i : Instr} {s : State} {n el : Nat} {x : Session} {r : ObjRow} {p : State → State → Prop}
    (hi : exec i s = .next (s.hostPut n o el 1)) (hlen : objRow o = some r → ∀ w : State, (w.elems r.cls el).length ≤ 1)
    (hp : ∀ u : State, p { u with waiters := [] } ((u.dropTo (u.deleting o ix clear els)).emit (wrote n rOk 0xFFFF))) : Takes i s n x r o el 1 els p := by
  intro hv ha
  have hb : ofLE (toLE ((tyLen r.ty).getD 0) 1) = 1 := (ofLE_toLE ..).trans (Nat.mod_eq_of_lt hv)
  have hl : els.length ≤ 1 := by
    rw [State.writeCheck_els ha.row ha.check]
    exact hlen ha.row _
  exact ha.effect_drops (by rw [hi, State.hostPut_eq ha.row]) (hb.symm ▸ D.dropsTo hl) hp

/-- The delete's own answer is its only output. -/
theorem State.deleting_out (D : Deletes o ix clear m) (hm : (ob o ||| (km_setXfer ||| km_result ||| m)).testBit 3 = false) (u : State) (w : OutMsg) :
    ((u.dropTo (u.deleting o ix clear els)).emit w).out = u.out ++ [w] :=
  congrArg (· ++ [w]) ((State.deleting_kept D u).same .out hm)

/-- No transfer to a deleted member is left. -/
theorem State.deleting_xfer (D : Deletes o ix clear m) (u : State) (w : OutMsg) {h id : Nat} {y : Xfer} (hm : h ∈ els) (hw : u.writing ix h = some (id, y)) :
    ((u.dropTo (u.deleting o ix clear els)).emit w).xfer id = none := by
  have e : (u.wrAll o els 1).writing ix h = some (id, y) := by rw [State.wrAll_eq]; exact hw
  exact State.deleteAll_xfer D.poa hm e

/-- The frame of a delete, from the frame of the members' clearing. -/
theorem State.deleting_keeps (hlt : o < 65536) {l : List (Nat × Nat)} {ps : List Part} (ho : ∀ h ∈ els, (o, h) ∈ l)
    (hx : km_setXfer ||| km_result ||| maskOf (.results :: ps) = maskOf (.results :: ps)) (he : km_emit ||| maskOf ps = maskOf ps)
    (hc : ∀ s t : State, ∀ h ∈ els, Keeps s t l (.results :: ps) → Keeps s (clear t h) l (.results :: ps)) (u : State) (w : OutMsg) :
    Keeps { u with waiters := [] } ((u.dropTo (u.deleting o ix clear els)).emit w) l ps :=
  have k : Keeps u (u.deleting o ix clear els) l (.results :: ps) :=
    ((Keeps.refl u l _).wrAll 1 hlt ho).foldl (fun t h hm kt => hc u _ h hm (kt.kept (t.endWriting_kept ix h) hx))
  (k.forget.withWaiters []).kept (State.emit_kept ..) he

end

/-! #### Charts -/

theorem State.endWriting_rd (s : State) (ix el o e : Nat) : (s.endWriting ix el).rd o e = s.rd o e := by
  unfold State.endWriting
  split
  · split <;> rfl
  · rfl

theorem State.endWriting_img (s : State) (ix el o e : Nat) : (s.endWriting ix el).img o e = s.img o e := by
  unfold State.endWriting
  split
  · split <;> rfl
  · rfl

theorem State.chartClear_rd_ne (s : State) {h k o : Nat} (st : Nat) (ho : o < 65536) (hk : k ≠ h) : (s.chartClear h st).rd o k = s.rd o k := by
  have ne {a : Nat} : ¬ (o = a ∧ k = h) := fun e => hk e.2
  show ((((s.wr Obj.ndlChartState h st).wr Obj.ndlChartInfo h 0).wr Obj.ndlChartLabel h 0).wr Obj.ndlChartTsets h 0).rd o k = s.rd o k
  rw [State.rd_wr_ne _ _ (by decide) ho ne, State.rd_wr_ne _ _ (by decide) ho ne, State.rd_wr_ne _ _ (by decide) ho ne, State.rd_wr_ne _ _ (by decide) ho ne]

theorem State.chartClear_info (s : State) (h st : Nat) : (s.chartClear h st).rd Obj.ndlChartInfo h = 0 := by
  show ((((s.wr Obj.ndlChartState h st).wr Obj.ndlChartInfo h 0).wr Obj.ndlChartLabel h 0).wr Obj.ndlChartTsets h 0).rd Obj.ndlChartInfo h = 0
  simp (disch := decide) only [State.rd_wr_obj, State.rd_wr_self]

theorem State.chartClear_img_ne (s : State) {h k : Nat} (st : Nat) (hk : k ≠ h) : (s.chartClear h st).img Obj.ndlChartImage k = s.img Obj.ndlChartImage k := by
  rw [State.chartClear, State.setChartLen_img, State.img_setImg_ne _ _ (by decide) hk]
  rfl

/-- The elements that the delete of charts writes. -/
abbrev chartDeleteEls (els : List Nat) : List (Nat × Nat) :=
  els.flatMap (fun h => [(Obj.ndlChartDelete, h), (Obj.ndlChartState, h), (Obj.ndlChartInfo, h), (Obj.ndlChartLabel, h), (Obj.ndlChartTsets, h)])

theorem takes_chartDelete (s : State) (n el : Nat) (x : Session) (r : ObjRow) (els : List Nat) :
    Takes (.chartDelete n el) s n x r Obj.ndlChartDelete el 1 els (fun b t =>
      (∀ h ∈ els, t.chartState h = 0 ∧ t.rd Obj.ndlChartInfo h = 0 ∧ t.img Obj.ndlChartImage h = [] ∧
        ∀ id y, b.writing Obj.ndlChartImage h = some (id, y) → t.xfer id = none) ∧
      (∀ h, h ∉ els → t.img Obj.ndlChartImage h = b.img Obj.ndlChartImage h) ∧ t.out = b.out ++ [wrote n rOk 0xFFFF] ∧
      Keeps b t (chartDeleteEls els) [.images, .chartLen, .poa, .out]) := by
  have hcls : (objRow Obj.ndlChartDelete).map (·.cls) = some .chart := by decide +kernel
  refine Takes.of_deletes deletes_charts rfl (fun hr w => ?_) (fun u => ?_)
  · rw [hr] at hcls
    rw [show r.cls = .chart from Option.some.inj hcls]
    exact w.elems_chart_length el
  · have sets {α : Type} {g : State → Nat → α} {v : α} := foldl_sets (f := fun (t : State) h => (t.endWriting Obj.ndlChartImage h).chartClear h 0) (g := g) (v := v)
    have img := sets (g := fun t h => t.img Obj.ndlChartImage h) (fun t h => State.chartClear_img ..)
      (fun t h k hk => (State.chartClear_img_ne _ 0 hk).trans (t.endWriting_img ..)) els (u.wrAll Obj.ndlChartDelete els 1)
    have state := sets (g := fun t h => t.chartState h) (fun t h => State.chartClear_state ..)
      (fun t h k hk => (State.chartClear_rd_ne _ 0 (by decide) hk).trans (t.endWriting_rd ..)) els (u.wrAll Obj.ndlChartDelete els 1)
    have info := sets (g := fun t h => t.rd Obj.ndlChartInfo h) (fun t h => State.chartClear_info ..)
      (fun t h k hk => (State.chartClear_rd_ne _ 0 (by decide) hk).trans (t.endWriting_rd ..)) els (u.wrAll Obj.ndlChartDelete els 1)
    refine ⟨fun h hm => ⟨(state h).1 hm, (info h).1 hm, (img h).1 hm, fun id y hw => State.deleting_xfer deletes_charts u _ hm hw⟩, fun h hm => ?_,
      State.deleting_out deletes_charts (by decide +kernel) u _, ?_⟩
    · refine ((img h).2 hm).trans ?_
      rw [State.wrAll_eq]
      rfl
    · have mem {h o : Nat} (hm : h ∈ els) (ho : (o, h) ∈ chartDeleteEls [h]) : (o, h) ∈ chartDeleteEls els :=
        List.mem_flatMap.2 ⟨h, hm, by simpa using ho⟩
      refine State.deleting_keeps (by decide) (fun h hm => mem hm (by simp)) (by decide +kernel) (by decide +kernel) (fun s t h hm k => ?_) u _
      exact ((((k.wr _ (by decide) (mem hm (by simp))).wr _ (by decide) (mem hm (by simp))).wr _ (by decide) (mem hm (by simp))).wr _ (by decide) (mem hm (by simp))
        |>.kept (State.setImg_kept ..) (by decide +kernel)).kept (State.setChartLen_kept ..) (by decide +kernel)

/-! #### Wave tables -/

theorem State.waveClear_rd_ne (s : State) {h k o : Nat} (st : Nat) (ho : o < 65536) (hk : k ≠ h) : (s.waveClear h st).rd o k = s.rd o k := by
  have ne {a : Nat} : ¬ (o = a ∧ k = h) := fun e => hk e.2
  rw [State.waveClear, State.setImg_rd, State.rd_wr_ne _ _ (by decide) ho ne, State.rd_wr_ne _ _ (by decide) ho ne]

theorem State.waveClear_img_ne (s : State) {h k : Nat} (st : Nat) (hk : k ≠ h) : (s.waveClear h st).img Obj.ptfWaveTable k = s.img Obj.ptfWaveTable k := by
  rw [State.waveClear, State.img_setImg_ne _ _ (by decide) hk]
  rfl

/-- The elements that the delete of wave tables writes. -/
abbrev waveDeleteEls (els : List Nat) : List (Nat × Nat) := els.flatMap (fun h => [(Obj.ptfWaveDelete, h), (Obj.ptfWaveState, h), (Obj.ptfWaveInfo, h)])

theorem takes_waveDelete (s : State) (n el : Nat) (x : Session) (r : ObjRow) (els : List Nat) :
    Takes (.waveDelete n el) s n x r Obj.ptfWaveDelete el 1 els (fun b t =>
      (∀ h ∈ els, t.rd Obj.ptfWaveState h = 0 ∧ t.rd Obj.ptfWaveInfo h = 0 ∧ t.img Obj.ptfWaveTable h = [] ∧
        ∀ id y, b.writing Obj.ptfWaveTable h = some (id, y) → t.xfer id = none) ∧
      (∀ h, h ∉ els → t.img Obj.ptfWaveTable h = b.img Obj.ptfWaveTable h) ∧ t.out = b.out ++ [wrote n rOk 0xFFFF] ∧
      Keeps b t (waveDeleteEls els) [.images, .poa, .out]) := by
  have hcls : (objRow Obj.ptfWaveDelete).map (·.cls) = some (.composite 16 64) := by decide +kernel
  refine Takes.of_deletes deletes_waves rfl (fun hr w => ?_) (fun u => ?_)
  · rw [hr] at hcls
    rw [show r.cls = .composite 16 64 from Option.some.inj hcls]
    exact w.elems_composite_length 16 64 el
  · have sets {α : Type} {g : State → Nat → α} {v : α} := foldl_sets (f := fun (t : State) h => (t.endWriting Obj.ptfWaveTable h).waveClear h 0) (g := g) (v := v)
    have img := sets (g := fun t h => t.img Obj.ptfWaveTable h) (fun t h => (State.waveClear_reads ..).2.1)
      (fun t h k hk => (State.waveClear_img_ne _ 0 hk).trans (t.endWriting_img ..)) els (u.wrAll Obj.ptfWaveDelete els 1)
    have state := sets (g := fun t h => t.rd Obj.ptfWaveState h) (fun t h => (State.waveClear_reads ..).1)
      (fun t h k hk => (State.waveClear_rd_ne _ 0 (by decide) hk).trans (t.endWriting_rd ..)) els (u.wrAll Obj.ptfWaveDelete els 1)
    have info := sets (g := fun t h => t.rd Obj.ptfWaveInfo h) (fun t h => (State.waveClear_reads ..).2.2)
      (fun t h k hk => (State.waveClear_rd_ne _ 0 (by decide) hk).trans (t.endWriting_rd ..)) els (u.wrAll Obj.ptfWaveDelete els 1)
    refine ⟨fun h hm => ⟨(state h).1 hm, (info h).1 hm, (img h).1 hm, fun id y hw => State.deleting_xfer deletes_waves u _ hm hw⟩, fun h hm => ?_,
      State.deleting_out deletes_waves (by decide +kernel) u _, ?_⟩
    · refine ((img h).2 hm).trans ?_
      rw [State.wrAll_eq]
      rfl
    · have mem {h o : Nat} (hm : h ∈ els) (ho : (o, h) ∈ waveDeleteEls [h]) : (o, h) ∈ waveDeleteEls els :=
        List.mem_flatMap.2 ⟨h, hm, by simpa using ho⟩
      refine State.deleting_keeps (by decide) (fun h hm => mem hm (by simp)) (by decide +kernel) (by decide +kernel) (fun s t h hm k => ?_) u _
      exact ((k.wr _ (by decide) (mem hm (by simp))).wr _ (by decide) (mem hm (by simp))).kept (State.setImg_kept ..) (by decide +kernel)

/-- Settles O36: each delete ends the transfers to its members and clears them (`takes_chartDelete`, `takes_waveDelete`). -/
theorem chartsAndWavesAreDeleted : Obligations.ChartsAndWavesAreDeleted := by
  unfold Obligations.ChartsAndWavesAreDeleted
  intro s n el x r els
  exact ⟨takes_chartDelete s n el x r els, takes_waveDelete s n el x r els⟩

end Sys2Proof.Machine
end

section
namespace Sys2Proof.Machine
-- one declaration at a time, as in the laws: each `decide +kernel` waits for the declarations before it
set_option Elab.async false

/-! ### What a needle reads and traces (R150, R215, R250, R795) -/

/-- A needle's runtime state apart from what it has read and traced, and from the edge of its last decode. -/
def NdlRt.place (r : NdlRt) : NdlRt := { r with pre := [], trace := [], traceRun := 0, uaddr := 0, decodedAt := 0 }

/-- The parts in which a needle reads and traces. -/
def tracedParts : Nat := pt.ndls ||| ob Obj.ndlTraceStatus

/-- Needle n has read courses or written trace records at most. -/
structure Traced (n : Nat) (s t : State) : Prop where
  kept : Kept tracedParts s t
  place : (t.ndl n).place = (s.ndl n).place
  decodedAt : (t.ndl n).decodedAt = (s.ndl n).decodedAt

theorem Traced.refl (n : Nat) (s : State) : Traced n s s := ⟨.refl .., rfl, rfl⟩

theorem Traced.trans {n : Nat} {s t u : State} (h : Traced n s t) (k : Traced n t u) : Traced n s u :=
  ⟨h.kept.trans k.kept, k.place.trans h.place, k.decodedAt.trans h.decodedAt⟩

/-- What a needle goes by, where it does not depend on what it has read and traced. -/
theorem Traced.reads {α : Type} {n : Nat} {s t : State} (h : Traced n s t) (f : NdlRt → α) (hf : ∀ r : NdlRt, f r.place = f r) : f (t.ndl n) = f (s.ndl n) := by
  rw [← hf, h.place, hf]

theorem Traced.setNdl {n : Nat} {s t : State} {x : NdlRt} (h : Traced n s t) (hp : x.place = (t.ndl n).place) (hd : x.decodedAt = (t.ndl n).decodedAt) :
    Traced n s (t.setNdl n x) :=
  h.trans ⟨(State.setNdl_kept ..).mono (by decide +kernel), by rw [State.setNdl_self, hp], by rw [State.setNdl_self, hd]⟩

theorem Traced.count {n : Nat} {s t : State} (h : Traced n s t) (f g : Fld) : Traced n s (t.count Obj.ndlTraceStatus n f g 1) :=
  have k := State.count_kept t Obj.ndlTraceStatus n f g 1
  h.trans ⟨k.mono (by decide +kernel), by rw [k.ndl_eq (by decide +kernel)], by rw [k.ndl_eq (by decide +kernel)]⟩

theorem State.ndlTraceWrite_traced (s : State) (n r : Nat) : Traced n s (s.ndlTraceWrite n r) := by
  unfold State.ndlTraceWrite
  split
  · refine Traced.count (Traced.setNdl (.refl n s) ?_ ?_) _ _ <;> rfl
  · exact .count (.refl n s) ..

theorem State.ndlTraceTime_traced (s : State) (n : Nat) : Traced n s (s.ndlTraceTime n) := by
  unfold State.ndlTraceTime
  split
  · exact .refl n s
  · exact .setNdl (State.ndlTraceWrite_traced ..) rfl rfl

theorem State.ndlTraceAt_traced (s : State) (n kind uaddr op course : Nat) : Traced n s (s.ndlTraceAt n kind uaddr op course) := by
  unfold State.ndlTraceAt
  extract_lets c u
  split
  · split
    · exact (State.ndlTraceWrite_traced ..).trans (State.ndlTraceTime_traced ..)
    · exact State.ndlTraceWrite_traced ..
  · exact .refl n s

/-- R795: a checker finds nothing while no injection is pending. -/
theorem State.checked_clean {s : State} (h : s.fcr.injLeft = 0) (src master : Nat) : s.checked src master = (0, s) := by
  simp [State.checked, h]

theorem State.cacheRead_clean {s : State} (h : s.fcr.injLeft = 0) (n : Nat) (img : Img) (course : Nat) : s.cacheRead n img course = (false, s) := by
  unfold State.cacheRead
  split
  · rfl
  · rw [s.checked_clean h]
    simp

/-- R215: with a sound cache a course that is taken only enters the prefetch buffer. -/
theorem State.takeCourse_clean {s : State} (h : s.fcr.injLeft = 0) (n : Nat) (img : Img) (course : Nat) (replay used : Bool) :
    ∃ p, s.takeCourse n img course replay used = (false, s.setNdl n { s.ndl n with pre := p }) := by
  unfold State.takeCourse
  rw [s.cacheRead_clean h]
  simp only [ite_self, Bool.false_eq_true, if_false]
  exact ⟨_, rfl⟩

theorem Traced.injLeft {n : Nat} {s t : State} (h : Traced n s t) : t.fcr.injLeft = s.fcr.injLeft := by
  rw [show t.fcr = s.fcr from h.kept.same .fcr (by decide +kernel)]

theorem Kept.chart_eq {m : Nat} {s t : State} (k : Kept m s t) (hm : m.testBit 2 = false) (h : Nat) : t.chart h = s.chart h := by
  rw [State.chart, State.img, show t.images = s.images from k.same .images hm]
  rfl

theorem Kept.chartOf_eq {m : Nat} {s t : State} (k : Kept m s t) (hm : m.testBit (Obj.ndlChart + 64) = false) (n : Nat) : t.chartOf n = s.chartOf n :=
  k.rd n (by decide) hm

/-! #### The image that a needle walks -/

/-- What the images and the ring of a needle hold is the same. -/
structure SameImages (n : Nat) (s t : State) : Prop where
  chart : ∀ h, t.chart h = s.chart h
  chartOf : t.chartOf n = s.chartOf n
  ring : (t.ndl n).ring = (s.ndl n).ring

section
variable {n : Nat} {s t : State}

theorem Traced.images (h : Traced n s t) : SameImages n s t :=
  ⟨h.kept.chart_eq (by decide +kernel), h.kept.chartOf_eq (by decide +kernel) n, h.reads NdlRt.ring (fun _ => rfl)⟩

theorem SameImages.imgBytes (h : SameImages n s t) (img : Img) : t.imgBytes n img = s.imgBytes n img := by
  cases img with
  | chart k => exact h.chart k
  | skein q => rw [State.imgBytes, State.imgBytes, State.skein, State.skein, h.ring]

theorem SameImages.afterBlock (h : SameImages n s t) (img : Img) (off : Nat) (b : Block) : t.afterBlock n img off b = s.afterBlock n img off b := by
  have hp : t.imgPins n img = s.imgPins n img := by
    cases img with
    | chart k => rw [State.imgPins, h.chart, State.imgPins]
    | skein q => rw [State.imgPins, h.chartOf, h.chart, State.imgPins]
  rw [State.afterBlock, hp, State.afterBlock]

theorem SameImages.nextPlace (h : SameImages n s t) (img : Img) (off : Nat) : t.nextPlace n img off = s.nextPlace n img off := by
  cases img with
  | chart k => rfl
  | skein q => rw [State.nextPlace, State.nextPlace, h.imgBytes]

end
end Sys2Proof.Machine
end

section
namespace Sys2Proof.Machine
-- one declaration at a time, as in the laws: each `decide +kernel` waits for the declarations before it
set_option Elab.async false

/-! ### One header (R150, R159 to R164, R183, R245) -/

section
variable {s t : State} {n : Nat} {img : Img} {off : Nat}

theorem Traced.trapped (h : Traced n s t) (a : Nat) : t.trapped a = s.trapped a := by
  rw [State.trapped, show t.traps = s.traps from h.kept.same .traps (by decide +kernel), State.trapped]

theorem Traced.uBad (h : Traced n s t) (a : Nat) : t.uBad a = s.uBad a := by
  have hu : t.ucode = s.ucode := h.kept.same .ucode (by decide +kernel)
  have hb : t.ubase = s.ubase := h.kept.same .ubase (by decide +kernel)
  unfold State.uBad State.uword
  rw [hu]
  rw [hb]

/-- R244, R247, R250: the microword of an operation is read, and traced. -/
def State.wordRead (s : State) (n a op off : Nat) : State :=
  let v := (s.setNdl n { s.ndl n with uaddr := a }).ndlTraceAt n 1 a op off
  if a = op then v else v.ndlTraceAt n 11 op op off

theorem State.wordRead_traced (s : State) (n a op off : Nat) : Traced n s (s.wordRead n a op off) := by
  unfold State.wordRead
  extract_lets _ v
  have tr : Traced n s v := by
    refine .trans (.setNdl (.refl n s) ?_ ?_) (State.ndlTraceAt_traced ..) <;> rfl
  split
  · exact tr
  · exact tr.trans (State.ndlTraceAt_traced ..)

/-- R150, R244, R245: a decode, while no injection is pending, once the header's course has been read. -/
theorem State.decodeAt_read (hi : s.fcr.injLeft = 0) : ∃ u, Traced n s u ∧ s.decodeAt n img off =
    let b := decodeBlock (courseAt (s.imgBytes n img) off)
    let a := s.trapped b.op
    if blockCrcOk (courseAt (s.imgBytes n img) off) = false then u.frogFault n Ev.chartCrc 4 off
    else if s.uBad a = true then u.frogFault n Ev.ucodeParity 4 a
    else (u.wordRead n a b.op off).decodeMove n img off b := by
  obtain ⟨p, hp⟩ := s.takeCourse_clean hi n img off (s.replaying n img off) true
  have tr : Traced n s (s.setNdl n { s.ndl n with pre := p }) := by refine Traced.setNdl (.refl n s) ?_ ?_ <;> rfl
  refine ⟨_, tr, ?_⟩
  unfold State.decodeAt
  rw [hp]
  dsimp only
  rw [tr.images.imgBytes, State.checked_clean (tr.injLeft.trans hi), State.checked_clean (tr.injLeft.trans hi), tr.trapped, tr.uBad]
  simp only [Bool.false_eq_true, if_false, ne_eq, not_true_eq_false, decide_false, Bool.false_or, Bool.not_eq_true']
  rfl

/-- A sound header of a sound microword is followed from where it stands. -/
theorem State.decodeAt_sound (hi : s.fcr.injLeft = 0) (hc : blockCrcOk (courseAt (s.imgBytes n img) off) = true)
    (hu : s.uBad (s.trapped (decodeBlock (courseAt (s.imgBytes n img) off)).op) = false) :
    ∃ u, Traced n s u ∧ s.decodeAt n img off = u.decodeMove n img off (decodeBlock (courseAt (s.imgBytes n img) off)) := by
  obtain ⟨u, tr, e⟩ := s.decodeAt_read (n := n) (img := img) (off := off) hi
  dsimp only at e
  rw [hc, hu, if_neg (by decide), if_neg (by decide)] at e
  exact ⟨_, tr.trans (State.wordRead_traced ..), e⟩

/-- R147: a header with a wrong CRC is a fault of the needle. -/
theorem State.decodeAt_crc (hi : s.fcr.injLeft = 0) (hc : blockCrcOk (courseAt (s.imgBytes n img) off) = false) :
    ∃ u, Traced n s u ∧ s.decodeAt n img off = u.frogFault n Ev.chartCrc 4 off := by
  obtain ⟨u, tr, e⟩ := s.decodeAt_read (n := n) (img := img) (off := off) hi
  exact ⟨u, tr, e.trans (if_pos hc)⟩

end
end Sys2Proof.Machine
end

section
namespace Sys2Proof.Machine
-- one declaration at a time, as in the laws: each `decide +kernel` waits for the declarations before it
set_option Elab.async false

/-! ### BLOCK_DECODE (R150, R185, R214) -/

theorem exec_blockDecode (s : State) (n : Nat) : exec (.blockDecode n) s = settled (runBlockDecode n s) := rfl

/-- Where a decoder could go on, but for its place. -/
theorem State.canDecode_eq_false {s : State} {n ts pos reps : Nat} {a : Ahead} (h : a.wait = true ∨ a.cursor = none) : s.canDecode n ts pos reps a = false := by
  unfold State.canDecode
  rcases h with h | h <;> simp [h]

/-- R185, R214: a needle that is not busy, is in its cast-on reset, or stands behind a decision or nowhere without a branch buffer decodes nothing. -/
theorem runBlockDecode_idle {s : State} {n : Nat} (h : s.busyNeedle n = false ∨ s.now < (s.ndl n).q + vclkFs ∨
    ((s.ndl n).warm = true ∧ (s.ndl n).ahead = none ∧ ((s.ndl n).wait = true ∨ (s.ndl n).cursor = none))) : runBlockDecode n s = .next s := by
  unfold runBlockDecode
  dsimp only
  by_cases hout : (!s.busyNeedle n || decide (s.now < (s.ndl n).q + vclkFs)) = true
  · rw [if_pos hout]
  · rw [if_neg hout]
    have hlast := h.resolve_left (fun hb => hout (by rw [hb]; rfl)) |>.resolve_left (fun hq => hout (by rw [decide_eq_true hq, Bool.or_true]))
    obtain ⟨hw, ha, hp⟩ := hlast
    have hc : s.canDecode n (s.status n F.ndlStatusTset) (s.ndl n).pos (s.ndl n).reps (s.ndl n).path = false := State.canDecode_eq_false hp
    simp [hw, ha, hc]

/-- The state in which a decode is made that is due at t. -/
def State.decodeBy (s : State) (n t : Nat) : State := (s.reach t).setNdl n { (s.reach t).ndl n with decodedAt := max t (s.edgeBefore vclkFs (max s.now t)) }

/-- The state on the edge of the next decode. -/
def State.decodeEdge (s : State) (n : Nat) : State := s.decodeBy n ((s.ndl n).decodedAt + vclkFs)

/-- R185, R208: the needle can decode the header at a course of its image, and no injection is pending. -/
structure State.CanDecode (s : State) (n : Nat) (img : Img) (off : Nat) : Prop where
  busy : s.busyNeedle n = true
  wait : (s.ndl n).wait = false
  room : (s.ndl n).queue = [] ∨ (s.aheadTime n).1 < 64 * vclkFs
  reset : (s.ndl n).q + vclkFs ≤ s.now
  warm : (s.ndl n).warm = true
  cursor : (s.ndl n).cursor = some (img, off)
  within : off * 64 < (s.imgBytes n img).length
  clean : s.fcr.injLeft = 0

section
variable {s : State} {n : Nat} {img : Img} {off : Nat}

theorem State.CanDecode.canDecode (h : s.CanDecode n img off) :
    s.canDecode n (s.status n F.ndlStatusTset) (s.ndl n).pos (s.ndl n).reps (s.ndl n).path = true := by
  have hr : ((s.ndl n).queue.isEmpty || decide ((s.aheadTime n).1 < 64 * vclkFs)) = true := by
    rcases h.room with e | e
    · rw [e]; rfl
    · rw [decide_eq_true e, Bool.or_true]
  have hw : (!(s.ndl n).path.wait) = true := by rw [show (s.ndl n).path.wait = false from h.wait]; rfl
  unfold State.canDecode
  rw [hw, show (s.ndl n).path.cursor = some (img, off) from h.cursor]
  dsimp only
  rw [decide_eq_true h.within, Bool.and_true, Bool.true_and]
  exact hr

theorem runBlockDecode_header (h : s.CanDecode n img off) : runBlockDecode n s = .next (((s.decodeEdge n).decodeAt n img off).ringSettle n) := by
  have hgo : ¬ (!s.busyNeedle n || decide (s.now < (s.ndl n).q + vclkFs)) = true := by
    rw [h.busy, decide_eq_false (Nat.not_lt_of_le h.reset)]
    decide
  unfold runBlockDecode
  dsimp only
  rw [if_neg hgo, if_pos h.warm]
  dsimp only
  rw [if_neg Bool.false_ne_true, if_pos h.canDecode, h.cursor]
  rfl

/-- What a decode goes by is as it was when the command came, but for the edge of the decode. -/
structure Walks (n : Nat) (s t : State) : Prop where
  kept : Kept (pt.now ||| tracedParts) s t
  place : (t.ndl n).place = (s.ndl n).place
  now : t.now = max s.now ((s.ndl n).decodedAt + vclkFs)
  decoded : (s.ndl n).decodedAt + vclkFs ≤ (t.ndl n).decodedAt

theorem State.decodeBy_facts (s : State) (n t : Nat) : Kept (pt.now ||| tracedParts) s (s.decodeBy n t) ∧ ((s.decodeBy n t).ndl n).place = (s.ndl n).place ∧
    (s.decodeBy n t).now = max s.now t ∧ t ≤ ((s.decodeBy n t).ndl n).decodedAt := by
  have e : (s.decodeBy n t).ndl n = { s.ndl n with decodedAt := max t (s.edgeBefore vclkFs (max s.now t)) } := State.setNdl_self ..
  refine ⟨(State.setNdl_kept ..).step (by decide +kernel) ((s.reach_kept t).mono (by decide +kernel)), ?_, rfl, ?_⟩
  · rw [e]; rfl
  · rw [e]; exact le_max_left ..

theorem State.decodeEdge_walks (s : State) (n : Nat) : Walks n s (s.decodeEdge n) := by
  obtain ⟨hk, hp, hn, hd⟩ := s.decodeBy_facts n ((s.ndl n).decodedAt + vclkFs)
  exact ⟨hk, hp, hn, hd⟩

theorem Walks.traced {t u : State} (h : Walks n s t) (k : Traced n t u) : Walks n s u :=
  ⟨k.kept.step (by decide +kernel) h.kept, k.place.trans h.place, (k.kept.now_eq (by decide +kernel)).trans h.now, by rw [k.decodedAt]; exact h.decoded⟩

theorem Walks.reads {α : Type} {t : State} (h : Walks n s t) (f : NdlRt → α) (hf : ∀ r : NdlRt, f r.place = f r) : f (t.ndl n) = f (s.ndl n) := by
  rw [← hf, h.place, hf]

theorem Walks.images {t : State} (h : Walks n s t) : SameImages n s t :=
  ⟨h.kept.chart_eq (by decide +kernel), h.kept.chartOf_eq (by decide +kernel) n, h.reads NdlRt.ring (fun _ => rfl)⟩

/-- R264: what leaves the ring leaves the rest of the needle alone. -/
theorem State.ringSettle_ndl (s : State) (n : Nat) : ∃ a c, (s.ringSettle n).ndl n = { s.ndl n with ring := a, returned := c } := by
  have same : ∃ a c, s.ndl n = { s.ndl n with ring := a, returned := c } := ⟨_, _, rfl⟩
  have back (q o : Nat) : ∃ a c, (s.ringReturn n q o).ndl n = { s.ndl n with ring := a, returned := c } := by
    unfold State.ringReturn
    extract_lets r before
    split
    · exact same
    · split
      · exact same
      · split
        · exact ⟨_, _, State.setNdl_self ..⟩
        · exact ⟨_, _, State.setNdl_self ..⟩
  unfold State.ringSettle
  extract_lets r
  split
  · exact same
  · split
    · split
      · exact same
      · split
        · exact back ..
        · split
          · split
            · exact back ..
            · exact same
          · exact same
    · exact same

/-- What is known of the state after a decode, with p of the needle. -/
def State.DecodesTo (s : State) (n : Nat) (p : NdlRt → Prop) : Prop :=
  Next (.blockDecode n) s (fun t => t.now = max s.now ((s.ndl n).decodedAt + vclkFs) ∧ p (t.ndl n) ∧
    (s.ndl n).decodedAt + vclkFs ≤ (t.ndl n).decodedAt ∧ t.ndlState n = s.ndlState n ∧ Keeps s t [] [.now, .ndls, .freeCtr, .obj Obj.ndlTraceStatus])

/-- The header and its microword have no error. -/
def State.Sound (s : State) (n : Nat) (img : Img) (off : Nat) : Prop :=
  blockCrcOk (courseAt (s.imgBytes n img) off) = true ∧ s.uBad (s.trapped (decodeBlock (courseAt (s.imgBytes n img) off)).op) = false

/-- The header at a course of an image. -/
def State.header (s : State) (n : Nat) (img : Img) (off : Nat) : Block := decodeBlock (courseAt (s.imgBytes n img) off)

/-- R150, R158: a header that is sound moves the decoder as f says. -/
theorem State.CanDecode.goes (h : s.CanDecode n img off) (hq : s.Quiet) {f : State → NdlRt} {p : NdlRt → Prop}
    (hm : ∀ u : State, Walks n s u → u.decodeMove n img off (s.header n img off) = u.setNdl n (f u))
    (hd : ∀ u : State, (f u).decodedAt = (u.ndl n).decodedAt) (hp : ∀ u, Walks n s u → ∀ a c, p { f u with ring := a, returned := c })
    (hs : s.Sound n img off) : s.DecodesTo n p := by
  have w0 := s.decodeEdge_walks n
  have i0 := w0.images.imgBytes img
  obtain ⟨u, tr, e⟩ := State.decodeAt_sound (s := s.decodeEdge n) (n := n) (img := img) (off := off) h.clean (by rw [i0]; exact hs.1) (by rw [i0]; exact hs.2)
  have w := w0.traced tr
  rw [i0] at e
  replace e := e.trans (hm u w)
  obtain ⟨a, c, er⟩ := (u.setNdl n (f u)).ringSettle_ndl n
  rw [State.setNdl_self] at er
  have k : Kept (pt.now ||| tracedParts) s ((u.setNdl n (f u)).ringSettle n) :=
    (State.ringSettle_kept ..).step (by decide +kernel) ((State.setNdl_kept ..).step (by decide +kernel) w.kept)
  have know : ((u.setNdl n (f u)).ringSettle n).now = u.now := (State.ringSettle_kept ..).now_eq (by decide +kernel)
  have run : runBlockDecode n s = .next ((u.setNdl n (f u)).ringSettle n) := by rw [runBlockDecode_header h, e]
  refine ⟨_, (by rw [exec_blockDecode, run]; rfl), ?_⟩
  rw [hq.settle_eq k (by decide +kernel) (k.same .results (by decide +kernel))]
  refine ⟨know.trans w.now, ?_, ?_, k.rd n (by decide) (by decide +kernel), (Keeps.refl s _ _).kept k (by decide +kernel)⟩
  · rw [er]; exact hp u w a c
  · rw [er]; exact w.decoded.trans (le_of_eq (hd u).symm)

end
end Sys2Proof.Machine
end

section
namespace Sys2Proof.Machine
-- one declaration at a time, as in the laws: each `decide +kernel` waits for the declarations before it
set_option Elab.async false

/-! #### Where the decoder goes from a block (R159 to R164, R183, R217) -/

/-- The place after a block. -/
def State.placeAfter (s : State) (n : Nat) (img : Img) (off : Nat) (b : Block) : Img × Nat := s.nextPlace n img (s.afterBlock n img off b)

/-- The block as it waits in the queue for issue. -/
def State.decoded (s : State) (n : Nat) (img : Img) (off : Nat) (b : Block) : Dec :=
  let r := s.ndl n
  ⟨img, off, b, r.loops.length, r.calls.length,
    match img with | .skein _ => ((r.loops.filter (fun l => l.1 == img)).getLast?.map (·.2.1)).getD 0 | _ => 0,
    r.decodedAt, (r.ringSeq, r.ringOff), s.replaying n img off, r.past⟩

/-- R285: the course after the loop headers of a skein that have been passed, at such a header. -/
def NdlRt.passing (r : NdlRt) (img : Img) (off : Nat) : Nat := match img with | .skein _ => max r.past (off + 1) | .chart _ => 0

/-- A block joins the queue, and the decoder stands at a place or waits. -/
def NdlRt.put (r : NdlRt) (d : Dec) (p : Option (Img × Nat)) (w : Bool) : NdlRt := { r with queue := r.queue ++ [d], cursor := p, wait := w, past := 0 }

section
variable {u : State} {n : Nat} {img : Img} {off : Nat} {b : Block}

theorem State.decodeMove_skipsLoop (h : b.op = 0x03) (hc : b.count = 0) :
    u.decodeMove n img off b = u.setNdl n { u.ndl n with cursor := some (u.nextPlace n img (b.target + 1)) } := by
  unfold State.decodeMove
  rw [h]
  exact if_pos hc

theorem State.decodeMove_opensLoop (h : b.op = 0x03) (hc : b.count ≠ 0) : u.decodeMove n img off b =
    u.setNdl n { u.ndl n with past := (u.ndl n).passing img off, cursor := some (u.placeAfter n img off b), loops := ((img, off, b.count) :: (u.ndl n).loops).take 8 } := by
  unfold State.decodeMove
  rw [h]
  exact if_neg hc

theorem State.decodeMove_leavesLoop {i : Img} {o left : Nat} {rest : List (Img × Nat × Nat)} (h : b.op = 0x04) (hl : (u.ndl n).loops = (i, o, left) :: rest)
    (hle : left ≤ 1) : u.decodeMove n img off b =
    u.setNdl n { u.ndl n with past := (u.ndl n).passing img off, cursor := some (u.placeAfter n img off b), loops := rest } := by
  unfold State.decodeMove
  rw [h]
  dsimp only
  rw [hl]
  exact if_pos hle

theorem State.decodeMove_repeatsLoop {i : Img} {o left : Nat} {rest : List (Img × Nat × Nat)} (h : b.op = 0x04) (hl : (u.ndl n).loops = (i, o, left) :: rest)
    (hlt : 1 < left) : u.decodeMove n img off b =
    u.setNdl n { u.ndl n with past := (u.ndl n).passing img off, cursor := some (i, o + 1), loops := (i, o, left - 1) :: rest } := by
  unfold State.decodeMove
  rw [h]
  dsimp only
  rw [hl]
  exact if_neg (Nat.not_le_of_lt hlt)

theorem State.decodeMove_calls (h : b.op = 0x05) : u.decodeMove n img off b =
    u.setNdl n { u.ndl n with
      cursor := some (if bit b.arg 15 then .chart (b.arg % 1024) else img, b.target), calls := (u.placeAfter n img off b :: (u.ndl n).calls).take 16 } := by
  unfold State.decodeMove
  rw [h]
  rfl

theorem State.decodeMove_returns {p : Img × Nat} {rest : List (Img × Nat)} (h : b.op = 0x06) (hc : (u.ndl n).calls = p :: rest) :
    u.decodeMove n img off b = u.setNdl n { u.ndl n with cursor := some p, calls := rest } := by
  unfold State.decodeMove
  rw [h]
  dsimp only
  rw [hc]
  rfl

theorem State.decodeMove_jumps (h : b.op = 0x07) : u.decodeMove n img off b = u.setNdl n { u.ndl n with cursor := some (img, b.target) } := by
  unfold State.decodeMove
  rw [h]
  rfl

theorem State.decodeMove_decides (h : b.op ∈ [0x08, 0x09, 0x0A]) : u.decodeMove n img off b =
    u.setNdl n (({ u.ndl n with queue := (u.ndl n).queue ++ [u.decoded n img off b], cursor := some (u.placeAfter n img off b), wait := true } : NdlRt).fork
      (u.decoded n img off b)) := by
  unfold State.decodeMove
  simp only [List.mem_cons, List.not_mem_nil, or_false] at h
  rcases h with h | h | h <;> rw [h] <;> rfl

theorem State.decodeMove_bindsOff (h : b.op = 0xFF) :
    u.decodeMove n img off b = u.setNdl n ((u.ndl n).put (u.decoded n img off b) none true) := by
  unfold State.decodeMove
  rw [h]
  rfl

theorem State.decodeMove_issues (h : b.op ∈ [0x01, 0x02, 0x0B, 0x0C, 0x0D, 0x0E, 0x0F, 0x10, 0x11, 0x13, 0x14, 0xFE]) :
    u.decodeMove n img off b = u.setNdl n ((u.ndl n).put (u.decoded n img off b) (some (u.placeAfter n img off b)) false) := by
  unfold State.decodeMove
  simp only [List.mem_cons, List.not_mem_nil, or_false] at h
  rcases h with h | h | h | h | h | h | h | h | h | h | h | h <;> rw [h] <;> rfl

theorem State.decodeMove_joins {k : Nat} (h : b.op = 0x12) : u.decodeMove n (.chart k) off b =
    u.setNdl n { u.ndl n with
      queue := (u.ndl n).queue ++ [u.decoded n (.chart k) off b], cursor := some (.skein (u.ndl n).ringSeq, (u.ndl n).ringOff), resume := some (.chart k, b.target) } := by
  unfold State.decodeMove
  rw [h]
  rfl

end
end Sys2Proof.Machine
end

section
namespace Sys2Proof.Machine
-- one declaration at a time, as in the laws: each `decide +kernel` waits for the declarations before it
set_option Elab.async false

/-! #### Where the decoder stands after each operation (R158 to R164) -/

theorem SameImages.placeAfter {n : Nat} {s t : State} (h : SameImages n s t) (img : Img) (off : Nat) (b : Block) :
    t.placeAfter n img off b = s.placeAfter n img off b := by
  rw [State.placeAfter, h.nextPlace, h.afterBlock, State.placeAfter]

/-- The decoder of a needle has gone on to a place with these loops and calls, and no block has joined the queue. -/
def NdlRt.MovedTo (q r : NdlRt) (c : Option (Img × Nat)) (l : List (Img × Nat × Nat)) (k : List (Img × Nat)) : Prop :=
  q.cursor = c ∧ q.loops = l ∧ q.calls = k ∧ q.queue = r.queue ∧ q.wait = false

/-- The block b of an image has joined the queue, and the decoder stands at a place or waits. -/
def NdlRt.JoinedBy (q r : NdlRt) (img : Img) (off : Nat) (b : Block) (c : Option (Img × Nat)) (w : Bool) : Prop :=
  q.cursor = c ∧ q.loops = r.loops ∧ q.calls = r.calls ∧ q.wait = w ∧
    ∃ d : Dec, q.queue = r.queue ++ [d] ∧ d.img = img ∧ d.off = off ∧ d.blk = b ∧ d.loops = r.loops.length ∧ d.calls = r.calls.length

section
variable {s u : State} {n : Nat} {img : Img} {off : Nat} {b : Block}

theorem Walks.loops (w : Walks n s u) : (u.ndl n).loops = (s.ndl n).loops := w.reads NdlRt.loops fun _ => rfl
theorem Walks.calls (w : Walks n s u) : (u.ndl n).calls = (s.ndl n).calls := w.reads NdlRt.calls fun _ => rfl
theorem Walks.queue (w : Walks n s u) : (u.ndl n).queue = (s.ndl n).queue := w.reads NdlRt.queue fun _ => rfl
theorem Walks.wait (w : Walks n s u) : (u.ndl n).wait = (s.ndl n).wait := w.reads NdlRt.wait fun _ => rfl
theorem Walks.ringSeq (w : Walks n s u) : (u.ndl n).ringSeq = (s.ndl n).ringSeq := w.reads NdlRt.ringSeq fun _ => rfl
theorem Walks.ringOff (w : Walks n s u) : (u.ndl n).ringOff = (s.ndl n).ringOff := w.reads NdlRt.ringOff fun _ => rfl

/-- The block that joins the queue is the one decoded, at the depth of the needle's stacks. -/
theorem Walks.joined (w : Walks n s u) (img : Img) (off : Nat) (b : Block) :
    ∃ d : Dec, (u.ndl n).queue ++ [u.decoded n img off b] = (s.ndl n).queue ++ [d] ∧ d.img = img ∧ d.off = off ∧ d.blk = b ∧
      d.loops = (s.ndl n).loops.length ∧ d.calls = (s.ndl n).calls.length :=
  ⟨_, by rw [w.queue], rfl, rfl, rfl, congrArg List.length w.loops, congrArg List.length w.calls⟩

end

section
variable {s : State} {n : Nat} {img : Img} {off : Nat}

variable (h : s.CanDecode n img off) (hq : s.Quiet) (hs : s.Sound n img off)
include h hq hs

/-- R161: a LOOP_BEGIN of no rounds is skipped with its body. -/
theorem State.CanDecode.skipsLoop (op : (s.header n img off).op = 0x03) (hc : (s.header n img off).count = 0) :
    s.DecodesTo n (·.MovedTo (s.ndl n) (some (s.nextPlace n img ((s.header n img off).target + 1))) (s.ndl n).loops (s.ndl n).calls) :=
  h.goes hq (fun _ _ => State.decodeMove_skipsLoop op hc) (fun _ => rfl)
    (fun _ w _ _ => ⟨congrArg some (w.images.nextPlace ..), w.loops, w.calls, w.queue, w.wait.trans h.wait⟩) hs

/-- R161: a LOOP_BEGIN opens a loop. -/
theorem State.CanDecode.opensLoop (op : (s.header n img off).op = 0x03) (hc : (s.header n img off).count ≠ 0) :
    s.DecodesTo n (·.MovedTo (s.ndl n) (some (s.placeAfter n img off (s.header n img off)))
      (((img, off, (s.header n img off).count) :: (s.ndl n).loops).take 8) (s.ndl n).calls) :=
  h.goes hq (fun _ _ => State.decodeMove_opensLoop op hc) (fun _ => rfl)
    (fun _ w _ _ => ⟨congrArg some (w.images.placeAfter ..), congrArg (fun l => ((img, off, _) :: l).take 8) w.loops, w.calls, w.queue, w.wait.trans h.wait⟩) hs

/-- R162: the LOOP_END of the last round leaves the loop. -/
theorem State.CanDecode.leavesLoop {i : Img} {o left : Nat} {rest : List (Img × Nat × Nat)} (op : (s.header n img off).op = 0x04)
    (hl : (s.ndl n).loops = (i, o, left) :: rest) (hle : left ≤ 1) :
    s.DecodesTo n (·.MovedTo (s.ndl n) (some (s.placeAfter n img off (s.header n img off))) rest (s.ndl n).calls) :=
  h.goes hq (fun _ w => State.decodeMove_leavesLoop op (w.loops.trans hl) hle) (fun _ => rfl)
    (fun _ w _ _ => ⟨congrArg some (w.images.placeAfter ..), rfl, w.calls, w.queue, w.wait.trans h.wait⟩) hs

/-- R162: a LOOP_END before the last round returns behind its LOOP_BEGIN. -/
theorem State.CanDecode.repeatsLoop {i : Img} {o left : Nat} {rest : List (Img × Nat × Nat)} (op : (s.header n img off).op = 0x04)
    (hl : (s.ndl n).loops = (i, o, left) :: rest) (hlt : 1 < left) :
    s.DecodesTo n (·.MovedTo (s.ndl n) (some (i, o + 1)) ((i, o, left - 1) :: rest) (s.ndl n).calls) :=
  h.goes hq (fun _ w => State.decodeMove_repeatsLoop op (w.loops.trans hl) hlt) (fun _ => rfl)
    (fun _ w _ _ => ⟨rfl, rfl, w.calls, w.queue, w.wait.trans h.wait⟩) hs

/-- R163: a CALL stacks the place after it. -/
theorem State.CanDecode.calls (op : (s.header n img off).op = 0x05) :
    s.DecodesTo n (·.MovedTo (s.ndl n)
      (some (if bit (s.header n img off).arg 15 then .chart ((s.header n img off).arg % 1024) else img, (s.header n img off).target)) (s.ndl n).loops
      ((s.placeAfter n img off (s.header n img off) :: (s.ndl n).calls).take 16)) :=
  h.goes hq (fun _ _ => State.decodeMove_calls op) (fun _ => rfl)
    (fun u w _ _ => ⟨rfl, w.loops, (show (u.placeAfter n img off _ :: (u.ndl n).calls).take 16 = _ by rw [w.images.placeAfter, w.calls]),
      w.queue, w.wait.trans h.wait⟩) hs

/-- R163: a RETURN goes to the place on top of the call stack. -/
theorem State.CanDecode.returns {p : Img × Nat} {rest : List (Img × Nat)} (op : (s.header n img off).op = 0x06) (hc : (s.ndl n).calls = p :: rest) :
    s.DecodesTo n (·.MovedTo (s.ndl n) (some p) (s.ndl n).loops rest) :=
  h.goes hq (fun _ w => State.decodeMove_returns op (w.calls.trans hc)) (fun _ => rfl)
    (fun _ w _ _ => ⟨rfl, w.loops, rfl, w.queue, w.wait.trans h.wait⟩) hs

/-- R164: a JUMP goes to its TARGET. -/
theorem State.CanDecode.jumps (op : (s.header n img off).op = 0x07) :
    s.DecodesTo n (·.MovedTo (s.ndl n) (some (img, (s.header n img off).target)) (s.ndl n).loops (s.ndl n).calls) :=
  h.goes hq (fun _ _ => State.decodeMove_jumps op) (fun _ => rfl) (fun _ w _ _ => ⟨rfl, w.loops, w.calls, w.queue, w.wait.trans h.wait⟩) hs

/-- R185: a decision joins the queue, and the decoder waits behind it. -/
theorem State.CanDecode.decides (op : (s.header n img off).op ∈ [0x08, 0x09, 0x0A]) :
    s.DecodesTo n (·.JoinedBy (s.ndl n) img off (s.header n img off) (some (s.placeAfter n img off (s.header n img off))) true) :=
  h.goes hq (fun _ _ => State.decodeMove_decides op) (fun _ => rfl)
    (fun _ w _ _ => ⟨congrArg some (w.images.placeAfter ..), w.loops, w.calls, rfl, w.joined img off _⟩) hs

/-- R214: behind a decision the branch buffer begins at its TARGET and at the block after it. -/
theorem State.CanDecode.forks (op : (s.header n img off).op ∈ [0x08, 0x09, 0x0A]) :
    s.DecodesTo n (fun q => ∃ a c, q.ahead = some (a, c) ∧ a.cursor = some (img, (s.header n img off).target) ∧
      c.cursor = some (s.placeAfter n img off (s.header n img off)) ∧ a.queue = [] ∧ c.queue = []) :=
  h.goes hq (fun _ _ => State.decodeMove_decides op) (fun _ => rfl)
    (fun _ w _ _ => ⟨_, _, rfl, rfl, congrArg some (w.images.placeAfter ..), rfl, rfl⟩) hs

/-- R185: BIND_OFF stops the decoder. -/
theorem State.CanDecode.bindsOff (op : (s.header n img off).op = 0xFF) :
    s.DecodesTo n (·.JoinedBy (s.ndl n) img off (s.header n img off) none true) :=
  h.goes hq (fun _ _ => State.decodeMove_bindsOff op) (fun _ => rfl) (fun _ w _ _ => ⟨rfl, w.loops, w.calls, rfl, w.joined img off _⟩) hs

/-- R158: the other blocks join the queue, and the decoder goes on behind them. -/
theorem State.CanDecode.issues
    (op : (s.header n img off).op ∈ [0x01, 0x02, 0x0B, 0x0C, 0x0D, 0x0E, 0x0F, 0x10, 0x11, 0x13, 0x14, 0xFE]) :
    s.DecodesTo n (·.JoinedBy (s.ndl n) img off (s.header n img off) (some (s.placeAfter n img off (s.header n img off))) false) :=
  h.goes hq (fun _ _ => State.decodeMove_issues op) (fun _ => rfl)
    (fun _ w _ _ => ⟨congrArg some (w.images.placeAfter ..), w.loops, w.calls, rfl, w.joined img off _⟩) hs

/-- R183: behind the STREAM_JOIN of a chart the decoder goes on in the ring. -/
theorem State.CanDecode.joinsStream {k : Nat} (op : (s.header n img off).op = 0x12) (hi : img = .chart k) :
    s.DecodesTo n (·.JoinedBy (s.ndl n) img off (s.header n img off) (some (.skein (s.ndl n).ringSeq, (s.ndl n).ringOff)) false) := by
  subst hi
  exact h.goes hq (fun _ _ => State.decodeMove_joins op) (fun _ => rfl)
    (fun u w _ _ => ⟨(show some (Img.skein (u.ndl n).ringSeq, (u.ndl n).ringOff) = _ by rw [w.ringSeq, w.ringOff]), w.loops, w.calls, w.wait.trans h.wait,
      w.joined (.chart k) off _⟩) hs

end
end Sys2Proof.Machine
end

section
namespace Sys2Proof.Machine
-- one declaration at a time, as in the laws: each `decide +kernel` waits for the declarations before it
set_option Elab.async false

/-! ### Pending sources only grow -/

/-- Every source that was pending still is. -/
def State.PendingGrows (s t : State) : Prop := ∀ src, s.srcPending src = true → t.srcPending src = true

theorem State.PendingGrows.trans {s t u : State} (h : s.PendingGrows t) (k : t.PendingGrows u) : s.PendingGrows u := fun x hx => k x (h x hx)

theorem Kept.pendingGrows {m : Nat} {s t : State} (h : Kept m s t) (hm : m.testBit (Obj.iecPending + 64) = false) : s.PendingGrows t :=
  fun src hs => (h.pending_src hm src).trans hs

theorem State.latch_pendingGrows (s : State) (src : Nat) : s.PendingGrows (s.latch src) := fun x => s.latch_pending_mono src x

theorem State.raise_pendingGrows (s : State) (src inst master access addr : Nat) (scope : Option Nat) (own : Bool) :
    s.PendingGrows (s.raise src inst master access addr scope own) := by
  unfold State.raise
  split
  · exact s.latch_pendingGrows src
  · rename_i cls _
    extract_lets st e s1 f1 s2 s3 s4 seen f2 s5 s6
    have g3 : s1.PendingGrows s3 := Kept.pendingGrows (m := pt.fcr ||| km_fcrCount ||| km_captureFirst)
      ((State.captureFirst_kept _ _ _ _ _).step (by decide +kernel) <| (State.fcrCount_kept _ _ _).step (by decide +kernel) <|
        Kept.set_fcr (by decide +kernel) (.refl ..)) (by decide +kernel)
    have g5 : s3.PendingGrows s5 := by
      simp only [s5]
      split
      · exact fun _ h => h
      · exact (State.wr_kept s3 Obj.fcrActive 0 _).pendingGrows (by decide +kernel)
    have g6 : s5.PendingGrows s6 := by
      simp only [s6]
      split
      · exact s5.dropTimedStart_pending
      · exact fun _ h => h
    exact (s.latch_pendingGrows src).trans (g3.trans (g5.trans (g6.trans ((State.react_kept ..).pendingGrows (by decide +kernel)))))

theorem State.dropJump_pendingGrows (s : State) (n : Nat) : s.PendingGrows (s.dropJump n) := by
  unfold State.dropJump
  split
  · exact fun _ h => h
  · exact State.PendingGrows.trans
      (Kept.pendingGrows (m := km_setNdl ||| km_setStatus ||| ob (Obj.ndlJumpStatus % 65536))
        ((State.setFld_kept ..).step (by decide +kernel) <| (State.setFld_kept ..).step (by decide +kernel) <| (State.setStatus_kept ..).step (by decide +kernel) <|
          (State.setNdl_kept ..).step (by decide +kernel) (.refl ..)) (by decide +kernel))
      (State.latch_pendingGrows _ _)

theorem State.frogMark_pendingGrows (s : State) (n cause : Nat) (late : Bool) : s.PendingGrows (s.frogMark n cause late) := by
  unfold State.frogMark
  split
  · exact State.PendingGrows.trans (Kept.pendingGrows (m := ob Obj.ndlState ||| km_setStatus ||| km_ndlCount)
      ((State.ndlCount_kept ..).step (by decide +kernel) <| (State.ndlCount_kept ..).step (by decide +kernel) <|
        (State.setStatus_kept ..).step (by decide +kernel) <| (State.wr_kept s Obj.ndlState n 8).step (by decide +kernel) (.refl ..)) (by decide +kernel))
      (State.latch_pendingGrows _ _)
  · exact State.PendingGrows.trans (Kept.pendingGrows (m := ob Obj.ndlState ||| km_frogResults ||| km_ndlCount)
      ((State.ndlCount_kept ..).step (by decide +kernel) <| (State.frogResults_kept ..).step (by decide +kernel) <|
        (State.wr_kept s Obj.ndlState n 9).step (by decide +kernel) (.refl ..)) (by decide +kernel))
      (State.latch_pendingGrows _ _)

/-! The microwords of a needle leave the controller alone. -/

theorem State.ndlTrace_traced (s : State) (n kind op course : Nat) : Kept (km_draw ||| tracedParts) s (s.ndlTrace n kind op course) :=
  (State.ndlTraceAt_traced ..).kept.step (by decide +kernel) <| (State.draw_kept s).step (by decide +kernel) (.refl ..)

/-- The parts in which a microroutine is read, traced and checked. -/
def routineParts : Nat := km_draw ||| tracedParts ||| km_checkedMany

theorem State.routine_traced (s : State) (n cycles : Nat) : Kept routineParts s (s.routine n cycles).2 := by
  unfold State.routine
  extract_lets entry
  obtain ⟨op, course⟩ := s.blockOf n
  dsimp -zeta only
  extract_lets u s1 s2
  have h1 : Kept routineParts s s1 := (State.setNdl_kept ..).step (by decide +kernel) <| (State.draw_kept s).step (by decide +kernel) (.refl ..)
  have h2 : Kept tracedParts s1 s2 := by
    simp only [s2]
    split
    · exact .refl ..
    · exact .foldl (fun v a h => h.trans (State.ndlTraceAt_traced ..).kept) (.refl ..)
  exact (State.checkedMany_kept ..).step (by decide +kernel) (h2.step (by decide +kernel) h1)

theorem State.frogBody_pendingGrows (s : State) (n c cause : Nat) : s.PendingGrows (s.frogBody n c cause) := by
  have parity (p : Option Nat × State) : p.2.PendingGrows (State.frogParity p n) := by
    unfold State.frogParity
    split
    · exact State.raise_pendingGrows _ _ _ _ _ _ _ _
    · exact fun _ h => h
  have routine (u : State) : u.PendingGrows (u.frogRoutine n).2 :=
    (u.dropJump_pendingGrows n).trans <| Kept.pendingGrows (m := routineParts)
      ((State.routine_traced ..).step (by decide +kernel) <| (State.ndlTrace_traced ..).step (by decide +kernel) (.refl ..)) (by decide +kernel)
  exact Kept.pendingGrows (t := s.passFrogs n c) (State.setNdl_kept ..) (by decide +kernel) |>.trans <| (routine _).trans <| (parity _).trans <|
    ((State.frogStop_kept ..).pendingGrows (by decide +kernel)).trans (State.frogMark_pendingGrows _ _ _ _)

/-! ### A fault frogs a busy needle (R142, R150, R235) -/

theorem State.frogFault_stands {s : State} {n : Nat} (src access addr : Nat) (hb : s.busyNeedle n = true) :
    Raised (s.frogFault n src access addr) src ∧ FrogStands n s.now 1 s (s.frogFault n src access addr) := by
  obtain ⟨rp, ra⟩ := s.raise_raised src n n access addr (some (2 ^ n)) true
  have k := State.raise_kept s src n n access addr (some (2 ^ n)) true
  unfold State.frogFault
  generalize s.raise src n n access addr (some (2 ^ n)) true = v at rp ra k ⊢
  have hv : v.busyNeedle n = true := by
    rw [State.busyNeedle, State.ndlState, k.rd n (by decide) (by decide +kernel)]
    exact hb
  have e : v.ndl n = s.ndl n := k.ndl_eq (by decide +kernel) n
  have sites : v.sitesOf n = s.sitesOf n := by rw [State.sitesOf, k.rd n (by decide) (by decide +kernel), State.sitesOf]
  rw [State.frogAt_busy _ _ hv]
  obtain ⟨recorded, standing, same, late, inTime⟩ := (v.frogBody_stands n s.now (cause := 1) (by decide)).needlesEnded (s.now + 6 * vclkFs)
  rw [e] at standing late inTime
  rw [sites] at same inTime
  refine ⟨⟨State.needlesEnded_pending _ _ _ (v.frogBody_pendingGrows n _ _ _ rp), fun c hc h0 => ?_⟩, recorded, standing, same, late, inTime⟩
  exact (State.needlesEnded_kept ..).activeGrows (by decide +kernel) _ (v.frogBody_activeGrows n _ _ _ (ra c hc h0))

/-- R147: a header with a wrong CRC ends the needle. -/
theorem State.CanDecode.frogs {s : State} {n : Nat} {img : Img} {off : Nat} (h : s.CanDecode n img off) (hq : s.Quiet)
    (hc : blockCrcOk (courseAt (s.imgBytes n img) off) = false) (hb : (s.ndl n).bound = none) :
    Next (.blockDecode n) s (fun t => Raised t Ev.chartCrc ∧ t.ndlState n = 9 ∧ t.status n F.ndlStatusFrogCause = 1 ∧
      t.now = max s.now ((s.ndl n).decodedAt + vclkFs)) := by
  have w0 := s.decodeEdge_walks n
  obtain ⟨u, tr, e⟩ := State.decodeAt_crc (s := s.decodeEdge n) (n := n) (img := img) (off := off) h.clean (by rw [w0.images.imgBytes]; exact hc)
  have w := w0.traced tr
  have busy : u.busyNeedle n = true := by
    rw [State.busyNeedle, State.ndlState, w.kept.rd n (by decide) (by decide +kernel)]
    exact h.busy
  have bound : (u.ndl n).boundBefore u.now = false := by rw [NdlRt.boundBefore, w.reads NdlRt.bound fun _ => rfl, hb]
  obtain ⟨⟨rp, ra⟩, frog⟩ := State.frogFault_stands (s := u) (n := n) Ev.chartCrc 4 off busy
  have st := (frog.inTime bound).1
  have cause := frog.recorded.elim id And.left
  have kf := State.frogFault_kept u n Ev.chartCrc 4 off
  clear frog
  generalize u.frogFault n Ev.chartCrc 4 off = v at e rp ra st cause kf
  have k := State.ringSettle_kept v n
  refine hq.next_settled (by rw [exec_blockDecode, runBlockDecode_header h, e]) (k.step (by decide +kernel) <| kf.step (by decide +kernel) <|
    w.kept.mono (b := pt.now ||| tracedParts ||| km_frogFault ||| km_ringSettle) (by decide +kernel)) (by decide +kernel) ⟨⟨?_, fun c hf h0 => ?_⟩, ?_, ?_, ?_⟩
    (fun _ _ h => h)
  · exact (k.pending_src (by decide +kernel) _).trans rp
  · exact (k.active_src (by decide +kernel) _).trans (ra c hf h0)
  · exact (k.rd n (by decide) (by decide +kernel)).trans st
  · exact (k.fld_eq n _ (by decide) (by decide +kernel)).trans cause
  · rw [k.now_eq (by decide +kernel), kf.now_eq (by decide +kernel), w.now]

/-- Settles O39: the course of the header enters the prefetch buffer and the trace at most, so the decoder moves as the header says from where it stood; a header with
a wrong CRC is a fault of the needle. -/
theorem blocksAreDecoded : Obligations.BlocksAreDecoded := by
  unfold Obligations.BlocksAreDecoded
  intro s n hq
  refine ⟨fun h => hq.next_self (by rw [exec_blockDecode, runBlockDecode_idle h]), fun img off busy wait room reset warm cursor within clean => ?_⟩
  have can : s.CanDecode n img off := ⟨busy, wait, room, reset, warm, cursor, within, clean⟩
  exact ⟨fun op hc hs => can.skipsLoop hq hs op hc, fun op hc hs => can.opensLoop hq hs op hc,
    fun _ _ _ _ op hl => ⟨fun hle hs => can.leavesLoop hq hs op hl hle, fun hlt hs => can.repeatsLoop hq hs op hl hlt⟩,
    fun op hs => can.calls hq hs op, fun _ _ op hc hs => can.returns hq hs op hc, fun op hs => can.jumps hq hs op,
    fun op => ⟨fun hs => can.decides hq hs op, fun hs => can.forks hq hs op⟩, fun op hs => can.bindsOff hq hs op, fun op hs => can.issues hq hs op,
    fun _ op hi hs => can.joinsStream hq hs op hi, fun hc hb => can.frogs hq hc hb⟩

end Sys2Proof.Machine
end

section
namespace Sys2Proof.Machine
-- one declaration at a time, as in the laws: each `decide +kernel` waits for the declarations before it
set_option Elab.async false

/-! ### STITCH_ISSUE and STALL_EXPIRY (R212, R277, R278) -/

theorem exec_stitchIssue (s : State) (n : Nat) : exec (.stitchIssue n) s = settled (runStitchIssue n s) := rfl
theorem exec_stallExpiry (s : State) (n : Nat) : exec (.stallExpiry n) s = settled (runStallExpiry n s) := rfl

section
variable {s : State} {n : Nat}

theorem State.issuing_busy (h : s.issuing n = true) : s.busyNeedle n = true := by
  simp only [State.issuing, Bool.and_eq_true, List.contains_iff_mem] at h
  obtain ⟨⟨st, -⟩, -⟩ := h
  simp only [State.busyNeedle, List.contains_iff_mem, List.mem_cons] at st ⊢
  tauto

theorem State.issuing_bound (h : s.issuing n = true) : (s.ndl n).bound = none := by
  simp only [State.issuing, Bool.and_eq_true, Option.isNone_iff_eq_none] at h
  exact h.2

theorem State.issuing_ended (h : s.ndlState n = 9) : s.issuing n = false := by
  rw [State.issuing, h]
  rfl

/-- R236: a BIND_OFF stitch that has ended begins its seam. -/
theorem runStitchIssue_bindOff (hb : (s.ndl n).bound.isSome = true) (hs : (s.ndl n).seam = none) (busy : s.busyNeedle n = true) :
    runStitchIssue n s = .next (s.bindBegin n) := if_pos (by rw [hb, hs, busy]; rfl)

theorem runStitchIssue_idle (hi : s.issuing n = false) (h : (s.ndl n).bound = none ∨ (s.ndl n).seam ≠ none ∨ s.busyNeedle n = false) :
    runStitchIssue n s = .next s := by
  have hb : ¬ ((s.ndl n).bound.isSome && (s.ndl n).seam.isNone && s.busyNeedle n) = true := by
    simp only [Bool.and_eq_true, Option.isSome_iff_ne_none, Option.isNone_iff_eq_none, ne_eq]
    rintro ⟨⟨h1, h2⟩, h3⟩
    rcases h with h | h | h
    · exact h1 h
    · exact h h2
    · rw [h] at h3; cases h3
  have hi' : (!s.issuing n) = true := by rw [hi]; rfl
  unfold runStitchIssue
  rw [if_neg hb, if_pos hi']

/-- R212, R235: a slot on whose issue edge the needle goes on. -/
structure State.IssuesAt (s : State) (n t1 p e : Nat) : Prop where
  issuing : s.issuing n = true
  awake : s.ndlState n ≠ 5
  flags : (s.ndl n).flags = []
  brk : (s.ndl n).brk = none
  freeze : (s.ndl n).freeze = none
  slot : s.slot n = (false, t1, p, e)
  frogBy : s.frogBy n e = false

section
variable {t1 p e : Nat}

theorem runStitchIssue_slot (h : s.IssuesAt n t1 p e) : runStitchIssue n s = .next ((s.reach e).issueAll 64 n e) := by
  have hb : ¬ ((s.ndl n).bound.isSome && (s.ndl n).seam.isNone && s.busyNeedle n) = true := by rw [State.issuing_bound h.issuing]; exact Bool.false_ne_true
  have hi : ¬ (!s.issuing n) = true := by rw [h.issuing]; exact Bool.false_ne_true
  have same (x : Nat) : (s.deliverFlags (s.ndl n).flags.length n x).alsoUnder s n x = s := by
    rw [h.flags]
    refine (if_neg ?_ : State.alsoUnder s s n x = s)
    rw [State.issuing_busy h.issuing]
    exact Bool.false_ne_true
  unfold runStitchIssue
  rw [if_neg hb, if_neg hi]
  dsimp only
  rw [same, if_neg hi, h.slot]
  dsimp only
  rw [h.frogBy, h.freeze]
  rfl

theorem State.missingIn_reach (s : State) (n t e : Nat) (joins : Bool) (l : List Dec) : (s.reach t).missingIn n e joins l = s.missingIn n e joins l := by
  induction l with
  | nil => rfl
  | cons d l ih => rw [State.missingIn, State.missingIn, ih]; rfl

theorem State.missing_reach (s : State) (n t e : Nat) (joins : Bool) : (s.reach t).missing n e joins = s.missing n e joins := State.missingIn_reach ..

theorem State.slot_reach (s : State) (n t : Nat) : (s.reach t).slot n = s.slot n := by
  unfold State.slot
  dsimp only
  rw [State.missing_reach]
  rfl

/-- What the needle does first on its issue edge, and then. -/
theorem State.issueAll_first {u : State} (k : Nat) (h : s.IssuesAt n t1 p e) (hu : (s.reach e).slotStep n e t1 p = some u) :
    (s.reach e).issueAll (k + 1) n e = u.issueAll k n e := by
  have hi : ¬ (!(s.reach e).issuing n) = true := by rw [show (s.reach e).issuing n = true from h.issuing]; exact Bool.false_ne_true
  rw [State.issueAll, if_neg hi, State.slot_reach, h.slot]
  dsimp only
  rw [if_neg (by simp), hu]

theorem State.issueAll_ended (k : Nat) (h : s.issuing n = false) : s.issueAll k n e = s := by
  cases k with
  | zero => rfl
  | succ k => exact if_pos (by rw [h]; rfl)

end

/-! #### A frog for an under-run (R278) -/

/-- What an under-run frog with an edge shows. -/
structure UnderRan (n e : Nat) (expired : Bool) (s t : State) : Prop where
  now : t.now = s.now
  state : t.ndlState n = 9
  cause : t.status n F.ndlStatusFrogCause = 1
  park : (t.ndl n).park = some (e + 6 * vclkFs)
  frogs : t.fld Obj.strUnderrun n F.strUnderrunFrogs = counted F.strUnderrunFrogs.w (s.fld Obj.strUnderrun n F.strUnderrunFrogs) 1
  expired : t.fld Obj.strUnderrun n F.strUnderrunExpired = expired.toNat

/-- R278: the counter and the record of an under-run. -/
def State.underNote (s : State) (n : Nat) (expired : Bool) : State :=
  (((s.count Obj.strUnderrun n F.strUnderrunFrogs F.strUnderrunFrogsSat 1).setFld Obj.strUnderrun n F.strUnderrunLastFrog 1).setFld Obj.strUnderrun n
    F.strUnderrunExpired expired.toNat).setFld Obj.strUnderrun n F.strUnderrunLastStitch
    ((s.count Obj.strUnderrun n F.strUnderrunFrogs F.strUnderrunFrogsSat 1).stitches n)

theorem State.underRaise_eq (s : State) (n : Nat) (expired : Bool) :
    s.underRaise n expired = (s.underNote n expired).raise Ev.streamUnderrun n n 0 0 (some (2 ^ n)) true := rfl

theorem State.underNote_frogs (s : State) (n : Nat) (expired : Bool) :
    (s.underNote n expired).fld Obj.strUnderrun n F.strUnderrunFrogs = counted F.strUnderrunFrogs.w (s.fld Obj.strUnderrun n F.strUnderrunFrogs) 1 := by
  unfold State.underNote
  rw [State.fld_setFld_apart _ _ _ _ _ _ (.inr (by decide)), State.fld_setFld_apart _ _ _ _ _ _ (.inr (by decide)), State.fld_setFld_apart _ _ _ _ _ _ (.inr (by decide))]
  exact State.fld_count _ _ _ _ _ _ (.inr (by decide))

theorem State.underNote_expired (s : State) (n : Nat) (expired : Bool) :
    (s.underNote n expired).fld Obj.strUnderrun n F.strUnderrunExpired = expired.toNat := by
  unfold State.underNote
  rw [State.fld_setFld_apart _ _ _ _ _ _ (.inr (by decide)), State.fld_setFld_self]
  cases expired <;> rfl

theorem State.underFrog_underRan (e : Nat) (expired : Bool) (hb : s.busyNeedle n = true) (hd : (s.ndl n).bound = none) :
    UnderRan n e expired s (s.underFrog n e expired) := by
  have k := s.underRaise_kept n expired
  have kr : Kept km_raise (s.underNote n expired) (s.underRaise n expired) := by rw [State.underRaise_eq]; exact State.raise_kept ..
  have kn (u : State) : Kept (frogParts ||| km_needlesEnded) u ((u.frogBody n e 1).needlesEnded (e + 6 * vclkFs)) :=
    (State.needlesEnded_kept ..).step (by decide +kernel) ((u.frogBody_kept n e 1).mono (by decide +kernel))
  have frogs := s.underNote_frogs n expired
  have exp := s.underNote_expired n expired
  rw [← kr.fld_eq n _ (by decide) (by decide +kernel)] at frogs exp
  rw [State.underFrog_eq]
  generalize s.underRaise n expired = v at k frogs exp ⊢
  have busy : v.busyNeedle n = true := by
    rw [State.busyNeedle, State.ndlState, k.rd n (by decide) (by decide +kernel)]
    exact hb
  have bound : (v.ndl n).boundBefore e = false := by rw [NdlRt.boundBefore, k.ndl_eq (by decide +kernel), hd]
  rw [State.frogAt_busy _ _ busy]
  have st := (v.frogBody_stands n e (cause := 1) (by decide)).needlesEnded (e + 6 * vclkFs)
  refine ⟨?_, (st.inTime bound).1, st.recorded.elim id And.left, ?_, ?_, ?_⟩
  · rw [(kn v).now_eq (by decide +kernel), k.now_eq (by decide +kernel)]
  · rw [← NdlRt.standing_park, st.standing]; rfl
  · rw [(kn v).fld_eq n _ (by decide) (by decide +kernel), frogs]
  · rw [(kn v).fld_eq n _ (by decide) (by decide +kernel), exp]

/-- R272, R278: a stitch that has not arrived at a slot that is no pause point frogs the needle. -/
theorem runStitchIssue_missing {t1 p e : Nat} (h : s.IssuesAt n t1 p e) (hp : (s.ndl n).pause = false) (ho : s.openArrival n e = false)
    (hm : s.missing n e false = true) : runStitchIssue n s = .next ((s.reach e).underFrog n e false) := by
  have under : (s.reach e).slotStep n e t1 p = some ((s.reach e).underFrog n e false) := by
    have hu : (s.reach e).underRun n e t1 p = (s.reach e).underFrog n e false := if_neg (by rw [show ((s.reach e).ndl n).pause = false from hp]; exact Bool.false_ne_true)
    unfold State.slotStep
    dsimp only
    rw [show (s.reach e).openArrival n e = false from ho, show ((s.reach e).ndl n).brk = none from h.brk, State.missing_reach, hm, hu]
    exact if_neg h.awake
  have ran := State.underFrog_underRan (s := s.reach e) e false (State.issuing_busy h.issuing) (State.issuing_bound h.issuing)
  rw [runStitchIssue_slot h, State.issueAll_first 63 h under, State.issueAll_ended _ (State.issuing_ended ran.state)]

theorem runStallExpiry_due {x : Nat} (h5 : s.ndlState n = 5) (hx : s.stallEdge n = some x)
    (hn : ¬((s.slot n).2.2.2 ≤ x ∧ (s.openArrival n (s.slot n).2.2.2 = true ∨ s.stallEnds n (s.slot n).2.2.2 = true))) :
    runStallExpiry n s = .next ((s.reach x).underFrog n x true) := by
  unfold runStallExpiry
  rw [if_neg (not_not_intro h5), hx]
  exact if_neg hn

theorem runStallExpiry_awake (h : s.ndlState n ≠ 5) : runStallExpiry n s = .next s := if_pos h

/-- The clauses of an under-run frog, from the state that has reached its edge. -/
theorem UnderRan.next {i : Instr} {x : Nat} {expired : Bool} (hq : s.Quiet) (hx : exec i s = settled (.next ((s.reach x).underFrog n x expired)))
    (h : UnderRan n x expired (s.reach x) ((s.reach x).underFrog n x expired)) : Next i s (fun t => t.now = max s.now x ∧ t.ndlState n = 9 ∧
      t.status n F.ndlStatusFrogCause = 1 ∧ (t.ndl n).park = some (x + 6 * vclkFs) ∧
      t.fld Obj.strUnderrun n F.strUnderrunFrogs = counted F.strUnderrunFrogs.w (s.fld Obj.strUnderrun n F.strUnderrunFrogs) 1 ∧
      t.fld Obj.strUnderrun n F.strUnderrunExpired = expired.toNat) :=
  hq.next_settled hx ((State.underFrog_kept ..).step (by decide +kernel) ((s.reach_kept x).mono (b := km_reach ||| km_underFrog) (by decide +kernel))) (by decide +kernel)
    ⟨h.now, h.state, h.cause, h.park, h.frogs, h.expired⟩ (fun _ _ h => h)

end
end Sys2Proof.Machine
end

section
namespace Sys2Proof.Machine
-- one declaration at a time, as in the laws: each `decide +kernel` waits for the declarations before it
set_option Elab.async false

/-! ### A seam begins (R26, R203) -/

theorem FrogStands.state {n c cause : Nat} {s t : State} (h : FrogStands n c cause s t) : t.ndlState n = 8 ∨ t.ndlState n = 9 := by
  cases hl : (s.ndl n).boundBefore c with
  | true => exact .inl (h.late hl).1
  | false => exact .inr (h.inTime hl).1

/-- A counter of NDL.COUNTS that no end of a needle counts in. -/
def frogFree (j : Nat) : Prop := j < 7 ∧ j ∉ [1, 2, 3]

theorem State.frogMark_count {j : Nat} (s : State) (n cause : Nat) (late : Bool) (hj : frogFree j) :
    (s.frogMark n cause late).fld Obj.ndlCounts n ⟨48 * j, 48⟩ = s.fld Obj.ndlCounts n ⟨48 * j, 48⟩ := by
  obtain ⟨h7, hn⟩ := hj
  have ne (u : State) {i : Nat} (hi : i ∈ [1, 2, 3]) : (u.ndlCount n i).fld Obj.ndlCounts n ⟨48 * j, 48⟩ = u.fld Obj.ndlCounts n ⟨48 * j, 48⟩ :=
    u.ndlCount_fld_ne n (by simp only [List.mem_cons, List.not_mem_nil, or_false] at hi; omega) h7 (fun e => hn (e ▸ hi))
  unfold State.frogMark
  split
  · rw [(State.latch_kept ..).fld_eq n _ (by decide) (by decide +kernel), ne _ (by decide), ne _ (by decide),
      (State.setStatus_kept ..).fld_eq n _ (by decide) (by decide +kernel), State.wr_state_fld _ _ _ _ _ (by decide) (by decide)]
  · rw [(State.latch_kept ..).fld_eq n _ (by decide) (by decide +kernel), ne _ (by decide),
      (State.frogResults_kept ..).fld_eq n _ (by decide) (by decide +kernel), State.wr_state_fld _ _ _ _ _ (by decide) (by decide)]

theorem State.frogBody_count {j : Nat} (s : State) (n c cause : Nat) (hj : frogFree j) :
    (s.frogBody n c cause).fld Obj.ndlCounts n ⟨48 * j, 48⟩ = s.fld Obj.ndlCounts n ⟨48 * j, 48⟩ := by
  rw [State.frogBody, State.frogMark_count _ _ _ _ hj, (State.frogStop_kept ..).fld_eq n _ (by decide) (by decide +kernel),
    (State.frogParity_kept ..).fld_eq n _ (by decide) (by decide +kernel), (State.frogRoutine_kept ..).fld_eq n _ (by decide) (by decide +kernel)]
  exact (State.setNdl_kept ..).fld_eq n _ (by decide) (by decide +kernel)

theorem State.frogFault_count {j : Nat} {s : State} {n : Nat} (src access addr : Nat) (hb : s.busyNeedle n = true) (hj : frogFree j) :
    (s.frogFault n src access addr).fld Obj.ndlCounts n ⟨48 * j, 48⟩ = s.fld Obj.ndlCounts n ⟨48 * j, 48⟩ := by
  have k := State.raise_kept s src n n access addr (some (2 ^ n)) true
  unfold State.frogFault
  generalize s.raise src n n access addr (some (2 ^ n)) true = v at k ⊢
  have hv : v.busyNeedle n = true := by
    rw [State.busyNeedle, State.ndlState, k.rd n (by decide) (by decide +kernel)]
    exact hb
  rw [State.frogAt_busy _ _ hv, (State.needlesEnded_kept ..).fld_eq n _ (by decide) (by decide +kernel), State.frogBody_count _ _ _ _ hj,
    k.fld_eq n _ (by decide) (by decide +kernel)]

/-- R244, R245: the microroutine of a busy needle passes, or frogs it for a parity mismatch. -/
theorem State.runRoutine_passes {s : State} {n : Nat} (cycles : Nat) (hb : s.busyNeedle n = true) :
    (Kept routineParts s (s.runRoutine n cycles) ∧ ((s.runRoutine n cycles).ndl n).standing = (s.ndl n).standing) ∨
    (Raised (s.runRoutine n cycles) Ev.ucodeParity ∧ ((s.runRoutine n cycles).ndlState n = 8 ∨ (s.runRoutine n cycles).ndlState n = 9) ∧
      ∀ j, frogFree j → (s.runRoutine n cycles).fld Obj.ndlCounts n ⟨48 * j, 48⟩ = s.fld Obj.ndlCounts n ⟨48 * j, 48⟩) := by
  have k := s.routine_traced n cycles
  have st := (s.routine_beside n cycles).standing
  unfold State.runRoutine
  revert k st
  obtain ⟨bad, u⟩ := s.routine n cycles
  intro k st
  cases bad with
  | none => exact .inl ⟨k, st⟩
  | some a =>
    have busy : u.busyNeedle n = true := by
      rw [State.busyNeedle, State.ndlState, k.rd n (by decide) (by decide +kernel)]
      exact hb
    obtain ⟨raised, frog⟩ := State.frogFault_stands (s := u) Ev.ucodeParity 4 a busy
    exact .inr ⟨raised, frog.state, fun j hj => (State.frogFault_count _ _ _ busy hj).trans (k.fld_eq n _ (by decide) (by decide +kernel))⟩

/-- R507: the switches that a seam applies change SWITCH_PENDING of NDL.STATUS at most. -/
theorem State.applySwitches_status (s : State) (n e : Nat) {f : Fld} (hf : F.ndlStatusSwitchPending.Apart f) : (s.applySwitches n e).status n f = s.status n f := by
  unfold State.applySwitches
  extract_lets mine _ u
  have k : Kept (pt.plc ||| km_plcCount ||| km_plcLog ||| km_placeNote ||| km_latch) s
      (mine.foldl (fun (s : State) (c : Copy) => (((s.plcCount 3).plcLog 6 n c.handle c.seg (s.segLen (segKey c.handle c.seg))).placeNote c.handle).latch Ev.plcMigrated) u) :=
    .foldl (fun v c h => (State.latch_kept ..).step (by decide +kernel) <| (State.placeNote_kept ..).step (by decide +kernel) <|
      (State.plcLog_kept ..).step (by decide +kernel) <| (State.plcCount_kept ..).step (by decide +kernel) h) (.set_plc (by decide +kernel) (.refl ..))
  exact (State.fld_setFld_apart _ _ _ _ _ _ hf).trans (k.fld_eq n f (by decide) (by decide +kernel))

/-- R26: the seam of needle n is reached on the VCLK edge at or after t: it is counted, and what is pending is applied. -/
def State.seamReach (s : State) (n t op course : Nat) : State :=
  let b := s.edgeAt vclkFs t
  let s := (s.reach b).flushEdges n
  let s := ((s.setStatus n F.ndlStatusInSeam 1).ndlCount n 4).ndlTrace n 3 op course
  (if s.mode = .run then s.applyGauges n b else s).applySwitches n b

theorem State.seamBegin_eq (s : State) (n t : Nat) (bind : Bool) (op course : Nat) : s.seamBegin n t bind op course =
    ((s.seamReach n t op course).setNdl n { (s.seamReach n t op course).ndl n with seam := some (t + 1024 * vclkFs, bind) }).runRoutine n 1024 := rfl

/-- What a seam that is reached shows. -/
structure SeamReached (n t : Nat) (s u : State) : Prop where
  now : u.now = max s.now (s.edgeAt vclkFs t)
  state : u.ndlState n = s.ndlState n
  inSeam : u.status n F.ndlStatusInSeam = 1
  seams : u.fld Obj.ndlCounts n F.ndlCountsSeams = counted 48 (s.fld Obj.ndlCounts n F.ndlCountsSeams) 1

theorem State.seamReach_reached (s : State) (n t op course : Nat) : SeamReached n t s (s.seamReach n t op course) := by
  unfold State.seamReach
  extract_lets b s1 s2
  have k1 : Kept (km_reach ||| km_flushEdges) s s1 := (State.flushEdges_kept ..).step (by decide +kernel) ((s.reach_kept b).mono (by decide +kernel))
  have n1 : s1.now = max s.now b := (State.flushEdges_kept ..).now_eq (by decide +kernel)
  have t2 : Kept (km_draw ||| tracedParts) ((s1.setStatus n F.ndlStatusInSeam 1).ndlCount n 4) s2 := State.ndlTrace_traced ..
  have k2 : Kept (km_setStatus ||| km_ndlCount ||| km_draw ||| tracedParts) s1 s2 :=
    t2.step (by decide +kernel) <| (State.ndlCount_kept ..).step (by decide +kernel) ((State.setStatus_kept ..).mono (by decide +kernel))
  have k3 : Kept km_applyGauges s2 (if s2.mode = .run then s2.applyGauges n b else s2) := .ite (fun _ => State.applyGauges_kept ..) (fun _ => .refl ..)
  generalize (if s2.mode = .run then s2.applyGauges n b else s2) = s3 at k3 ⊢
  have k4 : Kept km_applySwitches s3 (s3.applySwitches n b) := State.applySwitches_kept ..
  have i2 : s2.status n F.ndlStatusInSeam = 1 := by
    rw [State.status, t2.fld_eq n _ (by decide) (by decide +kernel), (State.ndlCount_kept ..).fld_eq n _ (by decide) (by decide +kernel)]
    exact State.fld_setFld_self ..
  have c2 : s2.fld Obj.ndlCounts n F.ndlCountsSeams = counted 48 (s1.fld Obj.ndlCounts n F.ndlCountsSeams) 1 := by
    rw [t2.fld_eq n _ (by decide) (by decide +kernel), ← (State.setStatus_kept s1 n F.ndlStatusInSeam 1).fld_eq n F.ndlCountsSeams (by decide) (by decide +kernel)]
    exact State.fld_count _ _ _ _ _ _ (.inr (by decide))
  refine ⟨?_, ?_, ?_, ?_⟩
  · rw [k4.now_eq (by decide +kernel), k3.now_eq (by decide +kernel), k2.now_eq (by decide +kernel), n1]
  · exact (k4.rd n (by decide) (by decide +kernel)).trans <| (k3.rd n (by decide) (by decide +kernel)).trans <| (k2.rd n (by decide) (by decide +kernel)).trans
      (k1.rd n (by decide) (by decide +kernel))
  · rw [State.applySwitches_status _ _ _ (.inr (by decide)), State.status, k3.fld_eq n _ (by decide) (by decide +kernel)]
    exact i2
  · rw [k4.fld_eq n _ (by decide) (by decide +kernel), k3.fld_eq n _ (by decide) (by decide +kernel), c2, k1.fld_eq n _ (by decide) (by decide +kernel)]

/-- R203: the bind-off seam begins at the end of the BIND_OFF stitch, but for a parity error of its microroutine. -/
theorem State.bindBegin_begins {s : State} {n e i : Nat} (hb : (s.ndl n).bound = some (e, i)) (hs : (s.ndl n).seam = none) :
    let t := s.bindBegin n
    t.now = max s.now (s.edgeAt vclkFs e) ∧
    (Raised t Ev.ucodeParity ∧ (t.ndlState n = 8 ∨ t.ndlState n = 9) ∨
      t.ndlState n = 7 ∧ (t.ndl n).seam = some (e + 1024 * vclkFs, true) ∧ t.status n F.ndlStatusInSeam = 1) ∧
    t.fld Obj.ndlCounts n F.ndlCountsSeams = counted 48 (s.fld Obj.ndlCounts n F.ndlCountsSeams) 1 := by
  have eq : s.bindBegin n = (s.wr Obj.ndlState n 7).seamBegin n e true (s.ndl n).last.1 (s.ndl n).last.2 := by rw [State.bindBegin, hb, hs]
  have r := (s.wr Obj.ndlState n 7).seamReach_reached n e (s.ndl n).last.1 (s.ndl n).last.2
  rw [eq, State.seamBegin_eq]
  have seams : (s.wr Obj.ndlState n 7).fld Obj.ndlCounts n F.ndlCountsSeams = s.fld Obj.ndlCounts n F.ndlCountsSeams :=
    State.wr_state_fld _ _ _ _ _ (by decide) (by decide)
  have st : (s.wr Obj.ndlState n 7).ndlState n = 7 := State.rd_wr_self ..
  generalize (s.wr Obj.ndlState n 7).seamReach n e (s.ndl n).last.1 (s.ndl n).last.2 = v at r
  have kv : Kept km_setNdl v (v.setNdl n { v.ndl n with seam := some (e + 1024 * vclkFs, true) }) := State.setNdl_kept ..
  have sv : ((v.setNdl n { v.ndl n with seam := some (e + 1024 * vclkFs, true) }).ndl n).standing.seam = some (e + 1024 * vclkFs, true) := by
    rw [State.setNdl_self]; rfl
  generalize v.setNdl n { v.ndl n with seam := some (e + 1024 * vclkFs, true) } = w at kv sv
  have stw : w.ndlState n = 7 := (kv.rd n (by decide) (by decide +kernel)).trans (r.state.trans st)
  have cw : w.fld Obj.ndlCounts n F.ndlCountsSeams = counted 48 (s.fld Obj.ndlCounts n F.ndlCountsSeams) 1 := by
    rw [kv.fld_eq n _ (by decide) (by decide +kernel), r.seams, seams]
  have nw : w.now = max s.now (s.edgeAt vclkFs e) := (kv.now_eq (by decide +kernel)).trans r.now
  refine ⟨((State.runRoutine_kept ..).now_eq (by decide +kernel)).trans nw, ?_⟩
  rcases State.runRoutine_passes (s := w) (n := n) 1024 (by rw [State.busyNeedle, stw]; rfl) with ⟨k, same⟩ | ⟨raised, ended, counts⟩
  · refine ⟨.inr ⟨(k.rd n (by decide) (by decide +kernel)).trans stw, ?_, ?_⟩, (k.fld_eq n _ (by decide) (by decide +kernel)).trans cw⟩
    · rw [← NdlRt.standing_seam, same, sv]
    · exact (k.fld_eq n _ (by decide) (by decide +kernel)).trans ((kv.fld_eq n _ (by decide) (by decide +kernel)).trans r.inSeam)
  · exact ⟨.inl ⟨raised, ended⟩, (counts 4 ⟨by decide, by decide⟩).trans cw⟩

end Sys2Proof.Machine
end

section
namespace Sys2Proof.Machine
-- one declaration at a time, as in the laws: each `decide +kernel` waits for the declarations before it
set_option Elab.async false

/-! ### A stitch, part by part (R143, R153, R211, R256, R308) -/

/-- What of a needle's runtime state places its next slot. -/
def NdlRt.slotting (r : NdlRt) : NdlRt :=
  { fresh := r.fresh, t0 := r.t0, cursor := r.cursor, queue := r.queue, pos := r.pos, reps := r.reps, streams := r.streams, jump := r.jump, brk := r.brk, skeinIn := r.skeinIn }

/-- The parts in which a stitch shows, the needle's runtime state apart. -/
def stitchShows : Nat := pt.now ||| ob Obj.ndlState ||| ob Obj.ndlStatus ||| ob Obj.ndlStitchCount ||| ob Obj.ndlCastonWait

/-- An operation that leaves alone what the stitches of needle n show. -/
structure Steady (n : Nat) (s t : State) : Prop where
  now : t.now = s.now
  state : ∀ m, t.ndlState m = s.ndlState m
  stitches : ∀ m, t.rd Obj.ndlStitchCount m = s.rd Obj.ndlStitchCount m
  waited : t.rd Obj.ndlCastonWait n = s.rd Obj.ndlCastonWait n
  course : t.status n F.ndlStatusCourse = s.status n F.ndlStatusCourse

/-- Moreover the needle's next slot stands where it stood. -/
structure Apace (n : Nat) (s t : State) : Prop extends Steady n s t where
  slotting : (t.ndl n).slotting = (s.ndl n).slotting

section
variable {n : Nat} {s t u : State}

theorem Steady.refl (n : Nat) (s : State) : Steady n s s := ⟨rfl, fun _ => rfl, fun _ => rfl, rfl, rfl⟩

theorem Steady.trans (h : Steady n s t) (k : Steady n t u) : Steady n s u :=
  ⟨k.now.trans h.now, fun m => (k.state m).trans (h.state m), fun m => (k.stitches m).trans (h.stitches m), k.waited.trans h.waited, k.course.trans h.course⟩

theorem Apace.refl (n : Nat) (s : State) : Apace n s s := ⟨.refl n s, rfl⟩

theorem Apace.trans (h : Apace n s t) (k : Apace n t u) : Apace n s u := ⟨h.toSteady.trans k.toSteady, k.slotting.trans h.slotting⟩

theorem Kept.steady {m : Nat} (k : Kept m s t) (hm : m &&& stitchShows = 0) : Steady n s t := by
  have off {i : Nat} (hi : stitchShows.testBit i = true) := testBit_off_of_land hm hi
  exact ⟨k.now_eq (off (by decide +kernel)), fun i => k.rd i (by decide) (off (by decide +kernel)), fun i => k.rd i (by decide) (off (by decide +kernel)),
    k.rd n (by decide) (off (by decide +kernel)), k.fld_eq n _ (by decide) (off (by decide +kernel))⟩

theorem State.setNdl_steady (s : State) (n : Nat) (x : NdlRt) : Steady n s (s.setNdl n x) := (State.setNdl_kept ..).steady (by decide +kernel)

theorem Kept.apace_of {m : Nat} (k : Kept m s t) (hm : m &&& stitchShows = 0) (hs : (t.ndl n).slotting = (s.ndl n).slotting) : Apace n s t := ⟨k.steady hm, hs⟩

/-- An operation that has nothing to do with needles. -/
theorem Kept.apace {m : Nat} (k : Kept m s t) (hm : m &&& (pt.ndls ||| stitchShows) = 0) : Apace n s t := by
  have off {i : Nat} (hi : (pt.ndls ||| stitchShows).testBit i = true) := testBit_off_of_land hm hi
  have hm' : m &&& stitchShows = 0 := by
    refine Nat.eq_of_testBit_eq fun i => ?_
    have h := congrArg (Nat.testBit · i) hm
    simp only [Nat.testBit_and, Nat.testBit_or, Nat.zero_testBit] at h ⊢
    revert h
    cases m.testBit i <;> cases stitchShows.testBit i <;> simp
  exact k.apace_of hm' (by rw [k.ndl_eq (off (by decide +kernel))])

theorem Apace.setNdl {x : NdlRt} (h : Apace n s t) (hx : x.slotting = (t.ndl n).slotting) : Apace n s (t.setNdl n x) :=
  h.trans ((State.setNdl_kept ..).apace_of (by decide +kernel) (by rw [State.setNdl_self, hx]))

theorem Apace.then {m : Nat} (h : Apace n s t) (k : Kept m t u) (hm : m &&& (pt.ndls ||| stitchShows) = 0) : Apace n s u := h.trans (k.apace hm)

theorem Apace.foldl {α : Type} {f : State → α → State} (h : ∀ v a, Apace n v (f v a)) (l : List α) (s : State) : Apace n s (l.foldl f s) := by
  induction l generalizing s with
  | nil => exact .refl n s
  | cons a l ih => exact (h s a).trans (ih (f s a))

/-- What the slot of a needle goes by. -/
theorem Apace.reads {α : Type} (h : Apace n s t) (f : NdlRt → α) (hf : ∀ r : NdlRt, f r.slotting = f r) : f (t.ndl n) = f (s.ndl n) := by
  rw [← hf, h.slotting, hf]

theorem Traced.apace (h : Traced n s t) : Apace n s t := h.kept.apace_of (by decide +kernel) (h.reads NdlRt.slotting fun _ => rfl)

end

section
variable (s : State) (n : Nat)

theorem State.ndlTrace_apace (kind op course : Nat) : Apace n s (s.ndlTrace n kind op course) :=
  Apace.trans ((State.draw_kept s).apace (by decide +kernel)) (State.ndlTraceAt_traced ..).apace

/-! #### The pins (R308) -/

theorem State.drvEdge_apace (p : Nat) (high : Bool) (t : Int) : Apace n s (s.drvEdge n p high t) := by
  unfold State.drvEdge
  extract_lets x t' s1 _ s2
  have h2 : Apace n s s2 := ((State.setPin_kept ..).apace (by decide +kernel)).setNdl rfl
  split
  · exact .refl n s
  · split
    · exact h2.then (State.collision_kept ..) (by decide +kernel)
    · exact h2

theorem State.denEdge_apace (p : Nat) (high : Bool) (t : Int) : Apace n s (s.denEdge n p high t) := by
  unfold State.denEdge
  extract_lets x t' s1 _ s2
  have h2 : Apace n s s2 := ((State.setPin_kept ..).apace (by decide +kernel)).setNdl rfl
  split
  · exact .refl n s
  · split
    · exact h2.then (State.collision_kept ..) (by decide +kernel)
    · exact h2

theorem State.driveEdge_apace (p start : Nat) (e : Nat × Nat × Nat) : Apace n s (s.driveEdge n p start e) := by
  obtain ⟨i, off, a⟩ := e
  have drv (b : Bool) (q : Nat) : Apace n s (if b then s.drvEdge n p (drvLevel a) (s.corrected p q start off) else s) := by
    split
    · exact State.drvEdge_apace ..
    · exact .refl n s
  have den (u : State) (q : Nat) : Apace n u (let v := u.setPin p { u.pin p with waveDen := denLevel a }
      if (v.pin p).masked then v else v.denEdge n p (denLevel a) (v.corrected p q start off)) := by
    have h : Apace n u (u.setPin p { u.pin p with waveDen := denLevel a }) := (State.setPin_kept ..).apace (by decide +kernel)
    dsimp only
    split
    · exact h
    · exact h.trans (State.denEdge_apace ..)
  unfold State.driveEdge
  dsimp only
  split
  · exact (drv _ _).trans (den _ _)
  · exact drv _ _

theorem State.allPins_apace (t1 : Nat) (wave : Nat → Nat → Nat) (masked : Nat → Bool) : Apace n s (s.allPins n t1 wave masked).2 := by
  unfold State.allPins
  generalize (s.chartPins n).zipIdx = l
  have step (l : List (Nat × Nat)) (ss : List Strobe) (u : State) : Apace n u (l.foldl (fun (a : List Strobe × State) (x : Nat × Nat) =>
      let (ss, s) := a.2.pinStitch n t1 x.1 (wave x.2 x.1) (masked x.1)
      (a.1 ++ ss, s)) (ss, u)).2 := by
    induction l generalizing ss u with
    | nil => exact .refl n u
    | cons x l ih => exact (Apace.foldl (fun v e => v.driveEdge_apace n x.1 t1 e) _ u).trans (ih _ _)
  exact step l [] s

theorem State.flushEdges_apace : Apace n s (s.flushEdges n) := by
  refine .trans ?_ (Apace.foldl (fun v e => (v.emitEdge_kept e).apace (by decide +kernel)) _ _)
  exact (Apace.refl n s).setNdl rfl

/-! #### The ring and the strobes (R264, R341) -/

theorem State.ringSettle_apace : Apace n s (s.ringSettle n) := by
  obtain ⟨a, c, e⟩ := s.ringSettle_ndl n
  exact (State.ringSettle_kept ..).apace_of (by decide +kernel) (by rw [e]; rfl)

/-- R341: a stitch without strobes is evaluated with nothing seen; no raster stream is attached. -/
theorem State.evalStitch_apace (st : Stitch) (h : (s.ndl n).streams = 0) : Apace n s (s.evalStitch n st []) := by
  have key (x : NdlRt) (hx : x.slotting = (s.ndl n).slotting) :
      Apace n s ((members 2 ((s.setNdl n x).ndl n).streams).foldl (fun s i => s.rasReturn i st.idx []) (s.setNdl n x)) := by
    have none : ((s.setNdl n x).ndl n).streams = 0 := by
      rw [State.setNdl_self]
      exact (congrArg NdlRt.streams hx).trans h
    rw [none]
    exact (Apace.refl n s).setNdl hx
  have nil (l : List Nat) : l.filter (fun _ => false) = [] := List.filter_false l
  unfold State.evalStitch
  dsimp only [List.filter_nil, List.foldl_nil, List.map_nil, List.any_nil, List.isEmpty_nil, ite_self]
  simp only [ite_self, List.any_nil, List.filter_false, List.foldl_nil, if_true]
  split
  · exact key _ rfl
  · exact key _ rfl

theorem State.popEmpty_apace (k : Nat) (h : (s.ndl n).streams = 0) : Apace n s (s.popEmpty k n) := by
  induction k generalizing s with
  | zero => exact .refl n s
  | succ k ih =>
    rw [State.popEmpty]
    split
    · exact .refl n s
    · rename_i st t _
      split
      · have h1 : Apace n s (s.setNdl n { s.ndl n with strobes := t }) := (Apace.refl n s).setNdl rfl
        have h2 : Apace n s ((s.setNdl n { s.ndl n with strobes := t }).evalStitch n st []) :=
          h1.trans (State.evalStitch_apace _ n st ((h1.reads NdlRt.streams fun _ => rfl).trans h))
        exact h2.trans (ih _ ((h2.reads NdlRt.streams fun _ => rfl).trans h))
      · exact .refl n s

end
end Sys2Proof.Machine
end

section
namespace Sys2Proof.Machine
-- one declaration at a time, as in the laws: each `decide +kernel` waits for the declarations before it
set_option Elab.async false

/-! #### The courses and waves that a stitch reads (R143, R216, R338) -/

section
variable {s : State} {n : Nat}

theorem State.checkedMany_clean (h : s.fcr.injLeft = 0) (src master count : Nat) : s.checkedMany src master count = (0, s) := by
  rw [State.checkedMany, State.checked_clean h]
  rfl

theorem State.waveRead_clean (h : s.fcr.injLeft = 0) (bpp : Nat) : s.waveRead n bpp = (false, s) := by
  unfold State.waveRead
  extract_lets pins lanes
  rw [State.checkedMany_clean h]
  rfl

/-- With a sound cache the courses that are taken only enter the prefetch buffer. -/
theorem State.takeCourses_clean (h : s.fcr.injLeft = 0) (img : Img) (replay used : Bool) (l : List Nat) :
    ∃ t, Traced n s t ∧ l.foldl (fun (a : Bool × State) c => if a.1 then a else a.2.takeCourse n img c replay used) (false, s) = (false, t) := by
  induction l generalizing s with
  | nil => exact ⟨s, .refl n s, rfl⟩
  | cons c l ih =>
    obtain ⟨p, hp⟩ := s.takeCourse_clean h n img c replay used
    have tr : Traced n s (s.setNdl n { s.ndl n with pre := p }) := by refine Traced.setNdl (.refl n s) ?_ ?_ <;> rfl
    obtain ⟨t, ht, e⟩ := ih (s := s.setNdl n { s.ndl n with pre := p }) (tr.injLeft.trans h)
    refine ⟨t, tr.trans ht, ?_⟩
    rw [List.foldl_cons, if_neg Bool.false_ne_true, hp, e]

theorem State.loadStitch_clean (h : s.fcr.injLeft = 0) (d : Dec) : ∃ t, Traced n s t ∧ s.loadStitch n d = (false, t) := by
  unfold State.loadStitch
  dsimp only
  split
  · exact ⟨s, .refl n s, rfl⟩
  · exact State.takeCourses_clean h ..

/-- A stitch of an EMIT whose needle has no jump and no action waiting: the needle has read its courses, and issues it. -/
theorem State.slotStitch_emit {d : Dec} {e t1 p : Nat} (hi : s.fcr.injLeft = 0) (hj : (s.ndl n).jump = none) (hh : (s.ndl n).held = []) (op : d.blk.op = 0x01) :
    ∃ u, Apace n s u ∧ (u.ndl n).castOn = (s.ndl n).castOn ∧ (u.ndl n).q = (s.ndl n).q ∧ s.slotStitch n e t1 p d = u.issueStitch n e t1 p d := by
  obtain ⟨t, tr, load⟩ := State.loadStitch_clean (n := n) hi d
  have held : t.actHeld n e t1 = t.setNdl n { t.ndl n with held := [] } := by rw [State.actHeld, tr.reads NdlRt.held fun _ => rfl, hh]; rfl
  have act (v : State) : v.act n e t1 d.blk = v := by unfold State.act; rw [op]; rfl
  have cast : (t.ndl n).castOn = (s.ndl n).castOn := tr.reads NdlRt.castOn fun _ => rfl
  have q : (t.ndl n).q = (s.ndl n).q := tr.reads NdlRt.q fun _ => rfl
  have hu : Apace n s (t.setNdl n { t.ndl n with held := [] }) := tr.apace.setNdl rfl
  have eu : (t.setNdl n { t.ndl n with held := [] }).ndl n = { t.ndl n with held := [] } := State.setNdl_self ..
  have run : s.slotStitch n e t1 p d = (let u := t.setNdl n { t.ndl n with held := [] }
      if ((u.ndl n).acted || (u.ndl n).pos != 0 || (u.ndl n).reps != 0) = true then u else u.setNdl n { u.ndl n with acted := true }).issueStitch n e t1 p d := by
    unfold State.slotStitch
    dsimp only
    rw [hj, if_neg Bool.false_ne_true]
    dsimp only
    rw [load]
    dsimp only
    rw [if_neg Bool.false_ne_true, State.waveRead_clean (tr.injLeft.trans hi)]
    dsimp only
    rw [if_neg Bool.false_ne_true, held, act]
  dsimp only at run
  split at run
  · exact ⟨_, hu, by rw [eu]; exact cast, by rw [eu]; exact q, run⟩
  · refine ⟨_, hu.setNdl ?_, ?_, ?_, run⟩
    · rfl
    · rw [State.setNdl_self, eu]; exact cast
    · rw [State.setNdl_self, eu]; exact q

/-! #### The first stitch, and what a stitch records (R203, R211, R256) -/

/-- R211: with the first stitch of a cast-on the time that it has waited is noted. -/
def State.waitNoted (s : State) (n t1 : Nat) : State :=
  if (s.ndl n).castOn then s.wr Obj.ndlCastonWait n (t1 - ((s.ndl n).q + 64 * vclkFs)) else s

theorem State.firstStitch_noted (s : State) (n t1 op course : Nat) :
    ∃ v, Apace n (s.waitNoted n t1) v ∧ s.firstStitch n t1 op course = if v.ndlState n = 3 then v.wr Obj.ndlState n 4 else v := by
  have cast : Apace n (s.waitNoted n t1) (if (s.ndl n).castOn then
      let s := ((s.wr Obj.ndlCastonWait n (t1 - ((s.ndl n).q + 64 * vclkFs))).ageFrom n (some t1)).ndlTrace n 0 op course
      (s.chartPins n).foldl (fun s p => if s.rd Obj.ptfPinState p = 0 then s else s.wr Obj.ptfPinState p 2) s
    else s) := by
    have age (u : State) : Apace n u (u.ageFrom n (some t1)) :=
      (Apace.setNdl (x := { u.ndl n with ageFrom := some t1 }) (.refl n u) rfl).trans ((State.setFld_kept _ Obj.calNeedleAge ..).apace (by decide +kernel))
    have pin (v : State) (p : Nat) : Apace n v (if v.rd Obj.ptfPinState p = 0 then v else v.wr Obj.ptfPinState p 2) := by
      split
      · exact .refl n v
      · exact (State.wr_kept v Obj.ptfPinState p 2).apace (by decide +kernel)
    unfold State.waitNoted
    split
    · exact ((age _).trans (State.ndlTrace_apace ..)).trans (.foldl pin _ _)
    · exact .refl n s
  unfold State.firstStitch
  extract_lets r c s1 s2 gap x s3
  have resumed : Apace n s1 s2 := by
    simp only [s2]
    split
    · exact State.ndlTrace_apace ..
    · exact .refl n s1
  exact ⟨s3, (Apace.trans cast resumed).setNdl rfl, rfl⟩

/-- What the first stitch after a cast-on or a resume leaves, and every other stitch. -/
structure FirstIssued (n t1 : Nat) (s t : State) : Prop where
  now : t.now = s.now
  slotting : (t.ndl n).slotting = (s.ndl n).slotting
  state : t.ndlState n = 4
  others : ∀ m, m ≠ n → t.ndlState m = s.ndlState m
  stitches : ∀ m, t.rd Obj.ndlStitchCount m = s.rd Obj.ndlStitchCount m
  waited : (s.ndl n).castOn = true → t.rd Obj.ndlCastonWait n = t1 - ((s.ndl n).q + 64 * vclkFs)

theorem State.firstStitch_issued (t1 op course : Nat) (h : s.ndlState n = 3 ∨ s.ndlState n = 4) : FirstIssued n t1 s (s.firstStitch n t1 op course) := by
  obtain ⟨v, hv, e⟩ := s.firstStitch_noted n t1 op course
  have kw : Kept (ob Obj.ndlCastonWait) s (s.waitNoted n t1) := .ite (fun _ => (State.wr_kept s Obj.ndlCastonWait n _).mono (by decide +kernel)) (fun _ => .refl ..)
  have wait (hc : (s.ndl n).castOn = true) : v.rd Obj.ndlCastonWait n = t1 - ((s.ndl n).q + 64 * vclkFs) := by
    rw [hv.waited, State.waitNoted, if_pos hc, State.rd_wr_self]
  have state (m : Nat) : v.ndlState m = s.ndlState m := (hv.state m).trans (kw.rd m (by decide) (by decide +kernel))
  have stitches (m : Nat) : v.rd Obj.ndlStitchCount m = s.rd Obj.ndlStitchCount m := (hv.stitches m).trans (kw.rd m (by decide) (by decide +kernel))
  have slotting : (v.ndl n).slotting = (s.ndl n).slotting := by rw [hv.slotting, kw.ndl_eq (by decide +kernel)]
  have now : v.now = s.now := hv.now.trans (kw.now_eq (by decide +kernel))
  rw [e]
  split
  · have k : Kept (ob Obj.ndlState) v (v.wr Obj.ndlState n 4) := (State.wr_kept v Obj.ndlState n 4).mono (by decide +kernel)
    exact ⟨now, slotting, State.rd_wr_self .., fun m hm => (State.rd_wr_ne v (o := Obj.ndlState) 4 (by decide) (by decide) (fun h => hm h.2)).trans (state m),
      fun m => (k.rd m (by decide) (by decide +kernel)).trans (stitches m), fun hc => (k.rd n (by decide) (by decide +kernel)).trans (wait hc)⟩
  · rename_i h3
    exact ⟨now, slotting, (state n).trans (h.resolve_left (fun e => h3 ((state n).trans e))), fun m _ => state m, stitches, wait⟩

/-- R256: NDL.STATUS shows the course of the block of the last stitch; nothing else of what a stitch shows changes. -/
theorem State.noteStitch_shows (s : State) (n course : Nat) (d : Dec) :
    Kept (km_setStatus ||| km_setNdl) s (s.noteStitch n course d) ∧ ((s.noteStitch n course d).ndl n).slotting = (s.ndl n).slotting ∧
      (s.noteStitch n course d).status n F.ndlStatusCourse = d.off % 2 ^ 32 := by
  have set (u : State) (f : Fld) (x : Nat) : Kept (km_setStatus ||| km_setNdl) u (u.setStatus n f x) := (State.setStatus_kept ..).mono (by decide +kernel)
  have put (u : State) (x : NdlRt) : Kept (km_setStatus ||| km_setNdl) u (u.setNdl n x) := (State.setNdl_kept ..).mono (by decide +kernel)
  have apart (u : State) (f : Fld) (x : Nat) (hf : f.Apart F.ndlStatusCourse) : (u.setStatus n f x).status n F.ndlStatusCourse = u.status n F.ndlStatusCourse :=
    State.fld_setFld_apart _ _ _ _ _ _ hf
  have same (u : State) (x : NdlRt) : (u.setNdl n x).status n F.ndlStatusCourse = u.status n F.ndlStatusCourse := rfl
  have block : Kept (km_setStatus ||| km_setNdl) s ((s.noteBlock n d).setStatus n F.ndlStatusCourse d.off) :=
    ((((set _ _ _).trans (set _ _ _)).trans (set _ _ _)).trans (put _ _)).trans (set _ _ _)
  have slot : (((s.noteBlock n d).setStatus n F.ndlStatusCourse d.off).ndl n).slotting = (s.ndl n).slotting :=
    show ((s.noteBlock n d).ndl n).slotting = (s.ndl n).slotting by
      unfold State.noteBlock
      dsimp only
      rw [State.setNdl_self]
      rfl
  have off : ((s.noteBlock n d).setStatus n F.ndlStatusCourse d.off).status n F.ndlStatusCourse = d.off % 2 ^ 32 := State.fld_setFld_self ..
  unfold State.noteStitch
  dsimp only
  generalize (s.noteBlock n d).setStatus n F.ndlStatusCourse d.off = v at block slot off ⊢
  split
  · refine ⟨(((block.trans (set _ _ _)).trans (set _ _ _)).trans (set _ _ _)).trans (put _ _), ?_, ?_⟩
    · rw [State.setNdl_self]; exact slot
    · rw [same, apart _ _ _ (.inr (by decide)), apart _ _ _ (.inr (by decide)), apart _ _ _ (.inr (by decide)), off]
  · refine ⟨((block.trans (set _ _ _)).trans (set _ _ _)).trans (put _ _), ?_, ?_⟩
    · rw [State.setNdl_self]; exact slot
    · rw [same, apart _ _ _ (.inr (by decide)), apart _ _ _ (.inr (by decide)), off]

/-- The needle's slot after the last stitch of its front block. -/
def NdlRt.blockDone (r : NdlRt) : NdlRt := { r with queue := r.queue.drop 1, pos := 0, reps := 0 }

/-- R153: after its last stitch an EMIT of a chart leaves the queue. -/
theorem State.advance_emit {d : Dec} {h e t1 p : Nat} (hl : d.blk.len ≤ (s.ndl n).pos + 1) (op : d.blk.op = 0x01) (hd : d.img = .chart h) :
    Steady n s (s.advance n e t1 p d) ∧ ((s.advance n e t1 p d).ndl n).slotting = (s.ndl n).slotting.blockDone := by
  have pop (u : State) : Steady n u (u.popFront n d) ∧ ((u.popFront n d).ndl n).slotting = (u.ndl n).slotting.blockDone := by
    have ring (v : State) : v.ringBlock n d = v := by rw [State.ringBlock, hd]
    have settle (v : State) : Apace n v (v.ringSettle n) := v.ringSettle_apace n
    unfold State.popFront
    dsimp only
    rw [ring]
    refine ⟨(u.setNdl_steady n _).trans (settle _).toSteady, ?_⟩
    rw [(settle _).slotting, State.setNdl_self]
    rfl
  have run : s.advance n e t1 p d = (s.setNdl n { s.ndl n with pos := 0, reps := (s.ndl n).reps + 1 }).popFront n d := by
    unfold State.advance
    dsimp only
    rw [if_neg (Nat.not_lt_of_le hl), op]
    rfl
  rw [run]
  obtain ⟨st, sl⟩ := pop (s.setNdl n { s.ndl n with pos := 0, reps := (s.ndl n).reps + 1 })
  refine ⟨(s.setNdl_steady n _).trans st, ?_⟩
  rw [sl, State.setNdl_self]
  rfl

end
end Sys2Proof.Machine
end

section
namespace Sys2Proof.Machine
-- one declaration at a time, as in the laws: each `decide +kernel` waits for the declarations before it
set_option Elab.async false

/-! #### The last stitch of an EMIT (R153, R212, R218) -/

/-- The needle's slot after a stitch that ends at t. -/
def NdlRt.issuedTo (r : NdlRt) (t : Nat) : NdlRt := { r with t0 := t, fresh := false }

/-- What the last stitch of a block, at course off, leaves. -/
structure Issued (n t1 p off : Nat) (s t : State) : Prop where
  now : t.now = s.now
  state : t.ndlState n = 4
  stitches : t.rd Obj.ndlStitchCount n = (s.rd Obj.ndlStitchCount n + 1) % 2 ^ 64
  others : ∀ m, m ≠ n → t.ndlState m = s.ndlState m ∧ t.rd Obj.ndlStitchCount m = s.rd Obj.ndlStitchCount m
  waited : (s.ndl n).castOn = true → t.rd Obj.ndlCastonWait n = t1 - ((s.ndl n).q + 64 * vclkFs)
  course : t.status n F.ndlStatusCourse = off % 2 ^ 32
  slotting : (t.ndl n).slotting = ((s.ndl n).slotting.issuedTo (t1 + p)).blockDone

section
variable {s : State} {n e t1 p : Nat}

/-- What follows the pins of a stitch: it is counted and noted, its block leaves the queue, and edges and stitches that wait for nothing pass. -/
theorem FirstIssued.issued {v w : State} {y : NdlRt} {d : Dec} {h : Nat} (course k npins j : Nat) (f : FirstIssued n t1 s v) (ap : Apace n v w)
    (hy : y.slotting = (w.ndl n).slotting.issuedTo (t1 + p)) (hl : d.blk.len ≤ (s.ndl n).pos + 1) (op : d.blk.op = 0x01) (hd : d.img = .chart h)
    (hs : (s.ndl n).streams = 0) :
    Issued n t1 p d.off s (((((((w.setNdl n y).wr Obj.ndlStitchCount n ((v.stitches n + 1) % 2 ^ 64)).noteStitch n course d).ringStitch n k d npins).advance n e t1 p
      d).popEmpty j n).flushEdges n) := by
  have put := ap.toSteady.trans (w.setNdl_steady n y)
  have slot1 : ((w.setNdl n y).ndl n).slotting = (s.ndl n).slotting.issuedTo (t1 + p) := by rw [State.setNdl_self, hy, ap.slotting, f.slotting]
  generalize w.setNdl n y = x at put slot1
  have kc : Kept (ob Obj.ndlStitchCount) x (x.wr Obj.ndlStitchCount n ((v.stitches n + 1) % 2 ^ 64)) :=
    (State.wr_kept x Obj.ndlStitchCount n _).mono (by decide +kernel)
  have count : (x.wr Obj.ndlStitchCount n ((v.stitches n + 1) % 2 ^ 64)).rd Obj.ndlStitchCount n = (s.rd Obj.ndlStitchCount n + 1) % 2 ^ 64 := by
    rw [State.rd_wr_self, State.stitches, f.stitches]
  have apart (m : Nat) (hm : m ≠ n) : (x.wr Obj.ndlStitchCount n ((v.stitches n + 1) % 2 ^ 64)).rd Obj.ndlStitchCount m = s.rd Obj.ndlStitchCount m :=
    (State.rd_wr_ne x (o := Obj.ndlStitchCount) _ (by decide) (by decide) (fun h => hm h.2)).trans ((put.stitches m).trans (f.stitches m))
  generalize x.wr Obj.ndlStitchCount n ((v.stitches n + 1) % 2 ^ 64) = c at kc count apart
  obtain ⟨kn, slot2, off⟩ := c.noteStitch_shows n course d
  generalize c.noteStitch n course d = b at kn slot2 off
  have slot3 : (b.ndl n).slotting = (s.ndl n).slotting.issuedTo (t1 + p) := by rw [slot2, kc.ndl_eq (by decide +kernel), slot1]
  have pos : (b.ndl n).pos = (s.ndl n).pos := (congrArg NdlRt.pos slot3).trans rfl
  have ring : b.ringStitch n k d npins = b := by rw [State.ringStitch, hd]
  rw [ring]
  obtain ⟨st, slot4⟩ := State.advance_emit (s := b) (n := n) (e := e) (t1 := t1) (p := p) (h := h) (by rw [pos]; exact hl) op hd
  generalize b.advance n e t1 p d = a at st slot4
  have streams : (a.ndl n).streams = 0 := by
    refine (congrArg NdlRt.streams (slot4.trans (congrArg NdlRt.blockDone slot3))).trans ?_
    exact hs
  have last : Apace n a ((a.popEmpty j n).flushEdges n) := (a.popEmpty_apace n j streams).trans (State.flushEdges_apace ..)
  have all := st.trans last.toSteady
  refine ⟨?_, ?_, ?_, fun m hm => ⟨?_, ?_⟩, fun hc => ?_, ?_, ?_⟩
  · rw [all.now, kn.now_eq (by decide +kernel), kc.now_eq (by decide +kernel), put.now, f.now]
  · rw [all.state, State.ndlState, kn.rd n (by decide) (by decide +kernel), kc.rd n (by decide) (by decide +kernel)]
    exact (put.state n).trans f.state
  · rw [all.stitches, kn.rd n (by decide) (by decide +kernel), count]
  · rw [all.state, State.ndlState, kn.rd m (by decide) (by decide +kernel), kc.rd m (by decide) (by decide +kernel)]
    exact (put.state m).trans (f.others m hm)
  · rw [all.stitches, kn.rd m (by decide) (by decide +kernel), apart m hm]
  · rw [all.waited, kn.rd n (by decide) (by decide +kernel), kc.rd n (by decide) (by decide +kernel), put.waited, f.waited hc]
  · rw [all.course, off]
  · rw [last.slotting, slot4, slot3]

/-- R153: the last stitch of an EMIT of a chart, of a needle without raster streams. -/
theorem State.issueStitch_emit {d : Dec} {h : Nat} (h34 : s.ndlState n = 3 ∨ s.ndlState n = 4) (hl : d.blk.len ≤ (s.ndl n).pos + 1) (op : d.blk.op = 0x01)
    (hd : d.img = .chart h) (hs : (s.ndl n).streams = 0) : Issued n t1 p d.off s (s.issueStitch n e t1 p d) := by
  have f := State.firstStitch_issued t1 d.blk.op d.off h34
  unfold State.issueStitch
  dsimp only
  generalize s.firstStitch n t1 d.blk.op d.off = v at f ⊢
  have none : (v.ndl n).streams = 0 := (congrArg NdlRt.streams f.slotting).trans hs
  have lanes (g : List (Nat × Nat) × State → Nat → List (Nat × Nat) × State) : (members 2 (v.ndl n).streams).foldl g ([], v) = ([], v) := by rw [none]; rfl
  rw [lanes]
  dsimp only
  have ap (wave : Nat → Nat → Nat) (masked : Nat → Bool) : Apace n v (v.allPins n t1 wave masked).2 := State.allPins_apace ..
  exact f.issued _ _ _ _ (ap _ _) rfl hl op hd hs

/-- R272: with no block decoded, the rest of the chart still to be decoded, the needle does nothing more on the edge. -/
theorem State.issueAll_starved (k : Nat) (h5 : s.ndlState n ≠ 5) (hq : (s.ndl n).queue = []) (hc : ∃ h o, (s.ndl n).cursor = some (.chart h, o))
    (hb : (s.ndl n).brk = none) (hi : (s.ndl n).skeinIn = none) : s.issueAll k n e = s := by
  have step (t1 p : Nat) : s.slotStep n e t1 p = none := by
    obtain ⟨h, o, hc⟩ := hc
    have open' : s.openArrival n e = false := by rw [State.openArrival, hi]
    have here : s.missing n e false = false := by rw [State.missing, hq, State.missingIn, hc]; rfl
    unfold State.slotStep
    dsimp only
    rw [open', hb, here, hq]
    exact if_neg h5
  cases k with
  | zero => rfl
  | succ k =>
    rw [State.issueAll]
    split
    · rfl
    · obtain ⟨seam, t1, p, e'⟩ := s.slot n
      dsimp only
      rw [step]
      split <;> rfl

/-- R212: at a slot of a needle whose only decoded block is an EMIT of a chart, the stitch of the block is next. -/
theorem State.slotStep_emit {d : Dec} {h : Nat} (h5 : s.ndlState n ≠ 5) (hq : (s.ndl n).queue = [d]) (op : d.blk.op = 0x01) (hl : d.blk.len ≠ 0) (hd : d.img = .chart h)
    (hb : (s.ndl n).brk = none) (hi : (s.ndl n).skeinIn = none) : s.slotStep n e t1 p = some (s.slotStitch n e t1 p d) := by
  have waits : d.waits = false := by rw [Dec.waits, beq_false_of_ne hl]; rfl
  have open' : s.openArrival n e = false := by rw [State.openArrival, hi]
  have here : s.missing n e false = false := by
    rw [State.missing, hq, State.missingIn, State.absent, hd, waits, op]
    rfl
  unfold State.slotStep
  dsimp only
  rw [open', hb, here, hq]
  dsimp only
  rw [op, waits]
  exact if_neg h5

end

/-- Settles O40: a needle that issues nothing is left alone; the BIND_OFF stitch begins its seam, but for a parity error; the last stitch of an EMIT is issued as its
parts say, and nothing is left for the edge; an under-run frogs the needle, at a slot or where a stall expires. -/
theorem stitchesAreIssued : Obligations.StitchesAreIssued := by
  unfold Obligations.StitchesAreIssued
  intro s n hq _
  refine ⟨fun hi h => hq.next_self (by rw [exec_stitchIssue, runStitchIssue_idle hi h]), fun e i hb hs busy => ?_,
    fun d h t1 p e issuing h5 flags hqueue op hl reps hd brk jump freeze streams skeinIn cursor slot clean held frogBy => ?_,
    fun t1 p e issuing h5 flags brk freeze pause slot hopen missing frogBy => ?_, fun x h5 hb hx hn => ?_,
    fun h => hq.next_self (by rw [exec_stallExpiry, runStallExpiry_awake h])⟩
  · exact hq.next_settled (by rw [exec_stitchIssue, runStitchIssue_bindOff (by rw [hb]; rfl) hs busy]) (s.bindBegin_kept n) (by decide +kernel)
      (State.bindBegin_begins hb hs) (fun _ _ h => h)
  · have at' : s.IssuesAt n t1 p e := ⟨issuing, h5, flags, brk, freeze, slot, frogBy⟩
    have h34 : s.ndlState n = 3 ∨ s.ndlState n = 4 := by
      have st := issuing
      simp only [State.issuing, Bool.and_eq_true, List.contains_iff_mem, List.mem_cons, List.not_mem_nil, or_false] at st
      obtain ⟨⟨st, -⟩, -⟩ := st
      tauto
    obtain ⟨u, ap, cast, q, run⟩ := State.slotStitch_emit (s := s.reach e) (n := n) (d := d) (e := e) (t1 := t1) (p := p) clean jump held op
    have slotting : (u.ndl n).slotting = (s.ndl n).slotting := ap.slotting
    have out : Issued n t1 p d.off u (u.issueStitch n e t1 p d) := State.issueStitch_emit (by rw [ap.state]; exact h34)
      (by rw [show (u.ndl n).pos = (s.ndl n).pos from (congrArg NdlRt.pos slotting).trans rfl]; exact le_of_eq hl) op hd ((congrArg NdlRt.streams slotting).trans streams)
    have last : runStitchIssue n s = .next (u.issueStitch n e t1 p d) := by
      have slot' := out.slotting
      rw [slotting] at slot'
      rw [runStitchIssue_slot at', State.issueAll_first 63 at' (State.slotStep_emit h5 hqueue op (by omega) hd brk skeinIn), run,
        State.issueAll_starved 63 (by rw [out.state]; decide) ((congrArg NdlRt.queue slot').trans (congrArg (List.drop 1) hqueue))
          (cursor.imp fun _ => .imp fun _ c => (congrArg NdlRt.cursor slot').trans c) ((congrArg NdlRt.brk slot').trans brk)
          ((congrArg NdlRt.skeinIn slot').trans skeinIn)]
    have k : Kept km_runStitchIssue s (u.issueStitch n e t1 p d) :=
      (runStitchIssue_kept n s).kept _ last
    have slot' := out.slotting
    rw [slotting] at slot'
    refine hq.next_settled (by rw [exec_stitchIssue, last]) k (by decide +kernel) ⟨out.now.trans ap.now, ?_, out.state, ?_, congrArg NdlRt.t0 slot',
      (congrArg NdlRt.cursor slot').trans rfl, congrArg NdlRt.fresh slot', fun hc => ?_, fun ho => ?_, fun m hm => ?_⟩ (fun _ _ h => h)
    · rw [out.stitches, ap.stitches]; rfl
    · exact (congrArg NdlRt.queue slot').trans (congrArg (List.drop 1) hqueue)
    · rw [out.waited (by rw [cast]; exact hc), q]; rfl
    · rw [out.course, Nat.mod_eq_of_lt ho]
    · exact ⟨(out.others m hm).1.trans (ap.state m), (out.others m hm).2.trans (ap.stitches m)⟩
  · have at' : s.IssuesAt n t1 p e := ⟨issuing, h5, flags, brk, freeze, slot, frogBy⟩
    exact UnderRan.next hq (by rw [exec_stitchIssue, runStitchIssue_missing at' pause hopen missing])
      (State.underFrog_underRan e false (State.issuing_busy issuing) (State.issuing_bound issuing))
  · exact UnderRan.next hq (by rw [exec_stallExpiry, runStallExpiry_due h5 hx hn])
      (State.underFrog_underRan x true (by rw [State.busyNeedle, show (s.reach x).ndlState n = 5 from h5]; rfl) hb)

end Sys2Proof.Machine
end

section
namespace Sys2Proof.Machine
-- one declaration at a time, as in the laws: each `decide +kernel` waits for the declarations before it
set_option Elab.async false

/-! ### One operation for every needle or pin of a set -/

theorem members_nodup (n v : Nat) : (members n v).Nodup := List.nodup_range.filter _

theorem mem_members {n v m : Nat} : m ∈ members n v ↔ m < n ∧ bit v m = true := by
  rw [members, List.mem_filter, List.mem_range]
  rfl

/-- An operation for each of different numbers, of which each leaves alone what is seen of the others: what is seen of a listed number goes as its own
operation says, what is seen of another number stays. `Inv` holds all along, `Ready` is what the operation asks of its number before. -/
theorem State.foldl_each {β : Type} {view : Nat → State → β} {f : State → Nat → State} {Inv : State → Prop} {Ready : Nat → β → Prop}
    {Goes : Nat → β → β → Prop} (hinv : ∀ u n, Inv u → Ready n (view n u) → Inv (f u n)) (hself : ∀ u n, Inv u → Ready n (view n u) → Goes n (view n u) (view n (f u n)))
    (hne : ∀ u n m, Inv u → Ready n (view n u) → m ≠ n → view m (f u n) = view m u) {l : List Nat} (hl : l.Nodup) (s : State) (hi : Inv s)
    (hr : ∀ m ∈ l, Ready m (view m s)) :
    Inv (l.foldl f s) ∧ (∀ m ∈ l, Goes m (view m s) (view m (l.foldl f s))) ∧ ∀ m, m ∉ l → view m (l.foldl f s) = view m s := by
  induction l generalizing s with
  | nil => exact ⟨hi, fun m hm => absurd hm List.not_mem_nil, fun _ _ => rfl⟩
  | cons n l ih =>
    obtain ⟨hn, hl⟩ := List.nodup_cons.1 hl
    have ready := hr n List.mem_cons_self
    have ne {m : Nat} (hm : m ≠ n) : view m (f s n) = view m s := hne s n m hi ready hm
    obtain ⟨inv, goes, rest⟩ := ih hl (f s n) (hinv s n hi ready) fun m hm => by
      rw [ne (fun e => hn (e ▸ hm))]
      exact hr m (List.mem_cons_of_mem _ hm)
    refine ⟨inv, fun m hm => ?_, fun m hm => ?_⟩
    · rw [List.foldl_cons]
      by_cases e : m = n
      · subst e
        rw [rest m hn]
        exact hself s m hi ready
      · rw [← ne e]
        exact goes m ((List.mem_cons.1 hm).resolve_left e)
    · rw [List.foldl_cons, rest m (fun h => hm (List.mem_cons_of_mem _ h)), ne (fun e => hm (e ▸ List.mem_cons_self))]

/-! ### Host events (R171, R227) -/

/-- An event is noted for the needles that cast on within a microsecond. -/
def State.noteEvent (s : State) (k mask edge : Nat) : State := { s with evts := s.evts.filter (fun x => decide (s.now ≤ x.2.2 + usFs)) ++ [(k, mask, edge)] }

/-- The latch of an event in a needle keeps its first edge. -/
def State.latchIn (s : State) (k edge n : Nat) : State :=
  match Tbl.get (fun _ => none) (s.ndl n).latches k with
  | some _ => s
  | none => s.setNdl n { s.ndl n with latches := Tbl.put (fun _ => none) (s.ndl n).latches k (some edge) }

theorem State.latchEvent_eq (s : State) (source select mask edge : Nat) : s.latchEvent source select mask edge =
    ((needles s.busyNeedle).filter (bit mask)).foldl (fun u n => u.latchIn (source * 256 + select) edge n) (s.noteEvent (source * 256 + select) mask edge) := rfl

theorem State.latchIn_self (s : State) (k edge n : Nat) : Tbl.get (fun _ => none) ((s.latchIn k edge n).ndl n).latches k =
    (match Tbl.get (fun _ => none) (s.ndl n).latches k with | some l => some l | none => some edge) := by
  unfold State.latchIn
  split
  · rename_i e
    rw [e]
  · rw [State.setNdl_self, Tbl.get_put_self]

theorem State.latchIn_ne (s : State) (k edge : Nat) {n m : Nat} (h : m ≠ n) : (s.latchIn k edge n).ndl m = s.ndl m := by
  unfold State.latchIn
  split
  · rfl
  · exact s.setNdl_ne n _ m h

/-- R171, R227: every busy needle of the mask latches the event, no other one. -/
theorem State.latchEvent_ndl (s : State) (source select mask edge : Nat) :
    (∀ m ∈ members 16 mask, s.busyNeedle m = true → Tbl.get (fun _ => none) ((s.latchEvent source select mask edge).ndl m).latches (source * 256 + select) =
      (match Tbl.get (fun _ => none) (s.ndl m).latches (source * 256 + select) with | some l => some l | none => some edge)) ∧
    (∀ m, m ∉ members 16 mask ∨ s.busyNeedle m = false → (s.latchEvent source select mask edge).ndl m = s.ndl m) := by
  have hl : ((needles s.busyNeedle).filter (bit mask)).Nodup := (needles_nodup _).filter _
  obtain ⟨-, latched, rest⟩ := State.foldl_each (view := fun m u => u.ndl m) (f := fun u n => u.latchIn (source * 256 + select) edge n)
    (Inv := fun _ => True) (Ready := fun _ _ => True)
    (Goes := fun _ a b => Tbl.get (fun _ => none) b.latches (source * 256 + select) =
      (match Tbl.get (fun _ => none) a.latches (source * 256 + select) with | some l => some l | none => some edge))
    (fun _ _ _ _ => trivial) (fun u n _ _ => u.latchIn_self _ edge n) (fun u _ _ _ _ h => u.latchIn_ne _ edge h) hl (s.noteEvent (source * 256 + select) mask edge)
    trivial (fun _ _ => trivial)
  rw [State.latchEvent_eq]
  refine ⟨fun m hm hb => latched m ?_, fun m hm => rest m fun h => ?_⟩
  · exact List.mem_filter.2 ⟨(mem_needles (mem_members.1 hm).1).2 hb, (mem_members.1 hm).2⟩
  · obtain ⟨hn, hb⟩ := List.mem_filter.1 h
    have h16 : m < 16 := List.mem_range.1 (List.mem_filter.1 hn).1
    rcases hm with hm | hm
    · exact hm (mem_members.2 ⟨h16, hb⟩)
    · rw [(mem_needles h16).1 hn] at hm
      cases hm

/-! ### Jumps (R233) -/

/-- A field written in a record of another object. -/
theorem State.fld_setFld_obj (s : State) {o o' : Nat} (e e' : Nat) (f g : Fld) {v : Nat} (ho : o < 65536) (ho' : o' < 65536) (h : o' ≠ o) :
    (s.setFld o e f v).fld o' e' g = s.fld o' e' g := s.fld_setFld_ne f g v ho ho' fun k => h k.1

/-- What is seen of a needle's jump: the needle's runtime state, NDL.STATE, NDL.STATUS and NDL.JUMP_STATUS. -/
structure JumpView where
  rt : NdlRt
  state : Nat
  status : Nat
  jump : Nat

def State.jumpView (n : Nat) (s : State) : JumpView := ⟨s.ndl n, s.ndlState n, s.rd Obj.ndlStatus n, s.rd Obj.ndlJumpStatus n⟩

/-- The needle runs or is held, and has not issued its BIND_OFF. -/
def JumpView.Jumps (v : JumpView) : Prop := v.state ∈ [3, 4, 5, 6] ∧ v.rt.bound = none

/-- A jump to an entry with apply edge a is pending. -/
structure JumpView.Pending (v : JumpView) (entry a : Nat) : Prop where
  rt : v.rt.jump = some (entry, a, false)
  status : Fld.get F.ndlStatusJumpPending v.status = 1
  state : Fld.get F.ndlJumpStatusState v.jump = 1
  entry : Fld.get F.ndlJumpStatusEntry v.jump = entry

/-- No jump is pending, the last one was dropped. -/
structure JumpView.Dropped (v : JumpView) : Prop where
  rt : v.rt.jump = none
  status : Fld.get F.ndlStatusJumpPending v.status = 0
  state : Fld.get F.ndlJumpStatusState v.jump = 3

/-- A jump of a needle, noted before it is known whether the needle takes it. -/
def State.noteJump (s : State) (n entry a : Nat) : State :=
  let s := (s.setFld Obj.ndlJumpStatus n F.ndlJumpStatusEntry entry).setFld Obj.ndlJumpStatus n F.ndlJumpStatusState 1
  s.setNdl n { s.ndl n with jump := some (entry, a, false) }

theorem State.noteJump_kept (s : State) (n entry a : Nat) : Kept (ob Obj.ndlJumpStatus ||| km_setNdl) s (s.noteJump n entry a) := by
  unfold State.noteJump
  exact (State.setNdl_kept ..).step (by decide +kernel) <| (State.setFld_kept _ Obj.ndlJumpStatus ..).step (by decide +kernel) <|
    (State.setFld_kept _ Obj.ndlJumpStatus ..).step (by decide +kernel) (.refl ..)

theorem State.noteJump_ndl (s : State) (n entry a : Nat) : (s.noteJump n entry a).ndl n = { s.ndl n with jump := some (entry, a, false) } :=
  State.setNdl_self ..

/-- Whether the jump is taken is decided on the state and the BIND_OFF that the needle had before. -/
theorem State.jumpNow_cond (s : State) (n entry a : Nat) :
    ([3, 4, 5, 6].contains ((s.noteJump n entry a).ndlState n) && ((s.noteJump n entry a).ndl n).bound.isNone) = true ↔ (s.jumpView n).Jumps := by
  rw [State.ndlState, (s.noteJump_kept n entry a).rd n (by decide) (by decide +kernel), State.noteJump_ndl, Bool.and_eq_true, Option.isNone_iff_eq_none,
    List.contains_iff_mem]
  rfl

theorem State.jumpNow_jumps {s : State} {n : Nat} (entry a : Nat) (h : (s.jumpView n).Jumps) :
    s.jumpNow n entry a = ((s.noteJump n entry a).setStatus n F.ndlStatusJumpPending 1).setFld Obj.ndlJumpStatus n F.ndlJumpStatusDeferred 0 :=
  if_pos ((s.jumpNow_cond n entry a).2 h)

/-- The jump of a needle that ended or has issued its BIND_OFF. -/
def State.loseJump (s : State) (n entry : Nat) : State :=
  (((s.setNdl n { s.ndl n with jump := none }).setStatus n F.ndlStatusJumpPending 0).setFld Obj.ndlJumpStatus n F.ndlJumpStatusState 3).setFld Obj.ndlJumpStatus n
    F.ndlJumpStatusEntry entry

theorem State.dropJump_some {s : State} {n : Nat} {x : Nat × Nat × Bool} (h : (s.ndl n).jump = some x) : s.dropJump n = (s.loseJump n x.1).latch Ev.ndlJump := by
  unfold State.dropJump
  rw [h]
  rfl

theorem State.jumpNow_drops {s : State} {n : Nat} (entry a : Nat) (h : ¬ (s.jumpView n).Jumps) : s.jumpNow n entry a = (s.noteJump n entry a).dropJump n :=
  if_neg (mt (s.jumpNow_cond n entry a).1 h)

theorem State.jumpNow_loses {s : State} {n : Nat} (entry a : Nat) (h : ¬ (s.jumpView n).Jumps) :
    s.jumpNow n entry a = ((s.noteJump n entry a).loseJump n entry).latch Ev.ndlJump :=
  (State.jumpNow_drops entry a h).trans (State.dropJump_some (x := (entry, a, false)) (congrArg NdlRt.jump (s.noteJump_ndl n entry a)))

/-- Writes to the two objects of a needle's jump leave another needle alone. -/
theorem State.setFld_jumpView_ne (s : State) {o n m : Nat} (f : Fld) (v : Nat) (ho : o < 65536) (h : m ≠ n) : (s.setFld o n f v).jumpView m = s.jumpView m := by
  have ne {o' : Nat} (ho' : o' < 65536) : (s.setFld o n f v).rd o' m = s.rd o' m := State.rd_wr_ne _ _ ho ho' fun k => h k.2
  simp only [State.jumpView, State.ndlState, ne (o' := Obj.ndlState) (by decide), ne (o' := Obj.ndlStatus) (by decide), ne (o' := Obj.ndlJumpStatus) (by decide)]
  rfl

theorem State.setNdl_jumpView_ne (s : State) {n m : Nat} (x : NdlRt) (h : m ≠ n) : (s.setNdl n x).jumpView m = s.jumpView m := by
  rw [State.jumpView, s.setNdl_ne n x m h]
  rfl

theorem State.latch_jumpView (s : State) (src m : Nat) : (s.latch src).jumpView m = s.jumpView m := by
  have k := s.latch_kept src
  rw [State.jumpView, State.ndlState, k.ndl_eq (by decide +kernel), k.rd m (by decide) (by decide +kernel), k.rd m (by decide) (by decide +kernel),
    k.rd m (by decide) (by decide +kernel)]
  rfl

theorem State.noteJump_jumpView_ne (s : State) (entry a : Nat) {n m : Nat} (h : m ≠ n) : (s.noteJump n entry a).jumpView m = s.jumpView m := by
  rw [State.noteJump, State.setNdl_jumpView_ne _ _ h, State.setFld_jumpView_ne _ _ _ (by decide) h, State.setFld_jumpView_ne _ _ _ (by decide) h]

theorem State.jumpNow_jumpView_ne (s : State) (entry a : Nat) {n m : Nat} (h : m ≠ n) : (s.jumpNow n entry a).jumpView m = s.jumpView m := by
  by_cases hj : (s.jumpView n).Jumps
  · rw [State.jumpNow_jumps entry a hj, State.setFld_jumpView_ne _ _ _ (by decide) h, State.setStatus, State.setFld_jumpView_ne _ _ _ (by decide) h,
      State.noteJump_jumpView_ne _ _ _ h]
  · rw [State.jumpNow_loses entry a hj, State.latch_jumpView, State.loseJump, State.setFld_jumpView_ne _ _ _ (by decide) h,
      State.setFld_jumpView_ne _ _ _ (by decide) h, State.setStatus, State.setFld_jumpView_ne _ _ _ (by decide) h, State.setNdl_jumpView_ne _ _ h,
      State.noteJump_jumpView_ne _ _ _ h]

theorem State.noteJump_status (s : State) (n a : Nat) {entry : Nat} (he : entry < 8) :
    (s.noteJump n entry a).fld Obj.ndlJumpStatus n F.ndlJumpStatusState = 1 ∧ (s.noteJump n entry a).fld Obj.ndlJumpStatus n F.ndlJumpStatusEntry = entry := by
  constructor
  · exact State.fld_setFld_self _ Obj.ndlJumpStatus n F.ndlJumpStatusState 1
  · exact (State.fld_setFld_apart _ _ _ _ _ _ (.inl (by decide))).trans ((State.fld_setFld_self ..).trans (Nat.mod_eq_of_lt he))

theorem State.setFld_ndl (s : State) (o e : Nat) (f : Fld) (v n : Nat) : (s.setFld o e f v).ndl n = s.ndl n := rfl

theorem State.jumpNow_pending {s : State} {n entry : Nat} (a : Nat) (he : entry < 8) (h : (s.jumpView n).Jumps) :
    ((s.jumpNow n entry a).jumpView n).Pending entry a := by
  obtain ⟨st, en⟩ := s.noteJump_status n a he
  have rt : ((s.noteJump n entry a).ndl n).jump = some (entry, a, false) := congrArg NdlRt.jump (s.noteJump_ndl n entry a)
  rw [State.jumpNow_jumps entry a h]
  generalize s.noteJump n entry a = u at st en rt ⊢
  refine ⟨?_, ?_, ?_, ?_⟩
  · rw [State.jumpView, State.setFld_ndl, State.setStatus, State.setFld_ndl]
    exact rt
  · exact (State.fld_setFld_obj _ _ _ _ _ (by decide) (by decide) (by decide)).trans (State.fld_setFld_self ..)
  · exact (State.fld_setFld_apart _ _ _ _ _ _ (.inr (by decide))).trans ((State.fld_setFld_obj _ _ _ _ _ (by decide) (by decide) (by decide)).trans st)
  · exact (State.fld_setFld_apart _ _ _ _ _ _ (.inr (by decide))).trans ((State.fld_setFld_obj _ _ _ _ _ (by decide) (by decide) (by decide)).trans en)

theorem State.loseJump_dropped (s : State) (n entry : Nat) : ((s.loseJump n entry).jumpView n).Dropped := by
  unfold State.loseJump
  refine ⟨?_, ?_, ?_⟩
  · rw [State.jumpView, State.setFld_ndl, State.setFld_ndl, State.setStatus, State.setFld_ndl, State.setNdl_self]
  · exact (State.fld_setFld_obj _ _ _ _ _ (by decide) (by decide) (by decide)).trans <|
      (State.fld_setFld_obj _ _ _ _ _ (by decide) (by decide) (by decide)).trans (State.fld_setFld_self ..)
  · exact (State.fld_setFld_apart _ _ _ _ _ _ (.inr (by decide))).trans (State.fld_setFld_self ..)

theorem State.jumpNow_dropped {s : State} {n : Nat} (entry a : Nat) (h : ¬ (s.jumpView n).Jumps) :
    ((s.jumpNow n entry a).jumpView n).Dropped ∧ (s.jumpNow n entry a).srcPending Ev.ndlJump = true := by
  rw [State.jumpNow_loses entry a h]
  refine ⟨?_, State.latch_pending ..⟩
  rw [State.latch_jumpView]
  exact State.loseJump_dropped ..

theorem State.jumpNow_pendingGrows (s : State) (n entry a : Nat) : s.PendingGrows (s.jumpNow n entry a) := by
  have note : s.PendingGrows (s.noteJump n entry a) := (s.noteJump_kept n entry a).pendingGrows (by decide +kernel)
  by_cases h : (s.jumpView n).Jumps
  · rw [State.jumpNow_jumps entry a h]
    exact note.trans <| Kept.pendingGrows (m := km_setStatus ||| ob Obj.ndlJumpStatus)
      ((State.setFld_kept _ Obj.ndlJumpStatus ..).step (by decide +kernel) ((State.setStatus_kept ..).mono (by decide +kernel))) (by decide +kernel)
  · exact note.trans (by rw [State.jumpNow_drops entry a h]; exact State.dropJump_pendingGrows _ n)

/-- What a jump to an entry with apply edge a makes of the needles of a list. -/
structure JumpsApplied (l : List Nat) (entry a : Nat) (s t : State) : Prop where
  pending : ∀ m ∈ l, (s.jumpView m).Jumps → (t.jumpView m).Pending entry a
  dropped : ∀ m ∈ l, ¬ (s.jumpView m).Jumps → (t.jumpView m).Dropped ∧ t.srcPending Ev.ndlJump = true
  rest : ∀ m, m ∉ l → t.jumpView m = s.jumpView m

theorem State.jumpAll_applied (s : State) {l : List Nat} (hl : l.Nodup) {entry : Nat} (a : Nat) (he : entry < 8) :
    JumpsApplied l entry a s (l.foldl (fun s n => s.jumpNow n entry a) s) := by
  have each {l : List Nat} (hl : l.Nodup) (s : State) := State.foldl_each (view := State.jumpView) (f := fun s n => s.jumpNow n entry a)
    (Inv := fun _ => True) (Ready := fun _ _ => True) (Goes := fun _ v w => (v.Jumps → w.Pending entry a) ∧ (¬ v.Jumps → w.Dropped))
    (fun _ _ _ _ => trivial) (fun _ _ _ _ => ⟨State.jumpNow_pending a he, fun h => (State.jumpNow_dropped entry a h).1⟩)
    (fun u _ _ _ _ h => u.jumpNow_jumpView_ne entry a h) hl s trivial (fun _ _ => trivial)
  have grows (l : List Nat) (s : State) : s.PendingGrows (l.foldl (fun s n => s.jumpNow n entry a) s) := by
    induction l generalizing s with
    | nil => exact fun _ h => h
    | cons n l ih => exact (s.jumpNow_pendingGrows n entry a).trans (ih _)
  obtain ⟨-, goes, rest⟩ := each hl s
  refine ⟨fun m hm => (goes m hm).1, fun m hm hj => ⟨(goes m hm).2 hj, ?_⟩, rest⟩
  -- the needle's own jump latches NDL_JUMP, and nothing clears it
  obtain ⟨pre, post, rfl⟩ := List.append_of_mem hm
  rw [List.foldl_append, List.foldl_cons]
  obtain ⟨hpre, -, hdis⟩ := List.nodup_append.1 hl
  have before : (pre.foldl (fun s n => s.jumpNow n entry a) s).jumpView m = s.jumpView m :=
    (each hpre s).2.2 m fun h => hdis m h m List.mem_cons_self rfl
  exact grows post _ _ (State.jumpNow_dropped entry a (by rw [before]; exact hj)).2

/-! ### Pins in MEASURE (R317) -/

/-- The level of DEN or DRV at the balls. -/
def PinRt.ball (x : PinRt) (den : Bool) : Bool := if den then x.ballDen else x.ballDrv

/-- A signal of a pin comes to a level at the balls, where it does not have it. -/
def State.ballTo (s : State) (p : Nat) (den high : Bool) (t : Nat) : State :=
  if (s.pin p).ball den = high then s else s.passEdge p den high t

/-- The pin's balls at the levels that a value of PTF.MEAS_DRIVE calls for. -/
def State.measBalls (s : State) (a v p : Nat) : State :=
  if v = 0 then (s.ballTo p true false (a + 4 * vclkFs)).ballTo p false false (a + 6 * vclkFs)
  else (s.ballTo p false (v == 2) (a + 4 * vclkFs)).ballTo p true true (a + 6 * vclkFs)

theorem State.measPin_driven {s : State} {p : Nat} (a v : Nat) (h : s.driven p = true) : s.measPin a v p =
    (s.measBalls a v p).setPin p { (s.measBalls a v p).pin p with
      den := ((s.measBalls a v p).pin p).ballDen, drv := ((s.measBalls a v p).pin p).ballDrv, denAt := ((s.measBalls a v p).pin p).ballDenAt,
      drvAt := ((s.measBalls a v p).pin p).ballDrvAt } := if_neg (by rw [h]; decide)

theorem State.measPin_off {s : State} {p : Nat} (a v : Nat) (h : s.driven p = false) : s.measPin a v p = s := if_pos (by rw [h]; rfl)

theorem State.passEdge_pin_self (s : State) (p : Nat) (den high : Bool) (t : Nat) : (s.passEdge p den high t).pin p =
    if den then { s.pin p with ballDen := high, ballDenAt := some (t : Int) } else { s.pin p with ballDrv := high, ballDrvAt := some (t : Int) } := by
  unfold State.passEdge
  extract_lets x u
  have hu := s.setPin_self p (if den then { x with ballDen := high, ballDenAt := some (t : Int) } else { x with ballDrv := high, ballDrvAt := some (t : Int) })
  split <;> exact hu

/-- One signal comes to the level, the other keeps its own. -/
theorem State.ballTo_ball (s : State) (p : Nat) (den high : Bool) (t : Nat) (d : Bool) :
    ((s.ballTo p den high t).pin p).ball d = if d = den then high else (s.pin p).ball d := by
  unfold State.ballTo
  split
  · rename_i h
    split
    · rename_i e
      rw [e, h]
    · rfl
  · rw [State.passEdge_pin_self]
    cases den <;> cases d <;> rfl

theorem State.ballTo_ne (s : State) {p q : Nat} (den high : Bool) (t : Nat) (h : q ≠ p) : (s.ballTo p den high t).pin q = s.pin q := by
  unfold State.ballTo
  split
  · rfl
  · exact s.passEdge_pin_ne den high t h

/-- R317: DEN and DRV as the value of PTF.MEAS_DRIVE calls for them. -/
theorem State.measBalls_levels (s : State) (a v p : Nat) :
    ((s.measBalls a v p).pin p).ball true = decide (v ≠ 0) ∧ ((s.measBalls a v p).pin p).ball false = decide (v = 2) := by
  unfold State.measBalls
  by_cases h : v = 0
  · rw [if_pos h, h]
    simp [State.ballTo_ball]
  · rw [if_neg h]
    refine ⟨by simp [State.ballTo_ball, h], ?_⟩
    rw [State.ballTo_ball, if_neg (by decide), State.ballTo_ball, if_pos rfl]
    exact beq_eq_decide v 2

/-- R317: a driven pin takes the drive. -/
theorem State.measPin_pin (s : State) (a v p : Nat) :
    (s.driven p = true → ((s.measPin a v p).pin p).den = decide (v ≠ 0) ∧ ((s.measPin a v p).pin p).drv = decide (v = 2)) ∧
    (s.driven p = false → (s.measPin a v p).pin p = s.pin p) := by
  refine ⟨fun h => ?_, fun h => by rw [State.measPin_off a v h]⟩
  rw [State.measPin_driven a v h, State.setPin_self]
  exact s.measBalls_levels a v p

theorem State.measPin_ne (s : State) (a v : Nat) {p q : Nat} (h : q ≠ p) : (s.measPin a v p).pin q = s.pin q := by
  cases hd : s.driven p with
  | false => rw [State.measPin_off a v hd]
  | true =>
    rw [State.measPin_driven a v hd, State.setPin_ne _ _ _ _ h, State.measBalls]
    split <;> rw [State.ballTo_ne _ _ _ _ h, State.ballTo_ne _ _ _ _ h]

/-- R317: every driven pin of a list takes the drive, and no other pin changes. -/
theorem State.measAll_pins (s : State) {l : List Nat} (hl : l.Nodup) (a v : Nat) :
    (∀ p ∈ l, s.driven p = true → ((l.foldl (fun s p => s.measPin a v p) s).pin p).den = decide (v ≠ 0) ∧
      ((l.foldl (fun s p => s.measPin a v p) s).pin p).drv = decide (v = 2)) ∧
    (∀ p, p ∉ l ∨ s.driven p = false → (l.foldl (fun s p => s.measPin a v p) s).pin p = s.pin p) := by
  have driven {u : State} (hu : ∀ p, u.driven p = s.driven p) (q p : Nat) : (u.measPin a v q).driven p = s.driven p := by
    rw [← hu p, State.driven, State.domOn, State.domain, (u.measPin_kept a v q).fld_eq _ _ (by decide) (by decide +kernel)]
    rfl
  obtain ⟨-, goes, rest⟩ := State.foldl_each (view := fun p u => u.pin p) (f := fun u p => u.measPin a v p) (Inv := fun u => ∀ p, u.driven p = s.driven p)
    (Ready := fun _ _ => True)
    (Goes := fun p x y => (s.driven p = true → y.den = decide (v ≠ 0) ∧ y.drv = decide (v = 2)) ∧ (s.driven p = false → y = x))
    (fun u q hu _ => driven hu q) (fun u p hu _ => hu p ▸ u.measPin_pin a v p) (fun u q p _ _ h => u.measPin_ne a v h) hl s (fun _ => rfl)
    (fun _ _ => trivial)
  refine ⟨fun p hp => (goes p hp).1, fun p hp => ?_⟩
  by_cases hm : p ∈ l
  · exact (goes p hm).2 (hp.resolve_left fun h => h hm)
  · exact rest p hm

/-! ### Staged writes as commands (R57, R227, R233, R317) -/

/-- The state on the apply edge of a staged write, the write taken. -/
def State.takeStaged (s : State) (x : Staged) : State := ({ s with staged := s.staged.erase x }).reach x.due

theorem State.takeStaged_kept (s : State) (x : Staged) : Kept (pt.staged ||| km_reach) s (s.takeStaged x) :=
  (State.reach_kept ..).step (by decide +kernel) (.set_staged (by decide +kernel) (.refl ..))

theorem State.takeStaged_jumpView (s : State) (x : Staged) (m : Nat) : (s.takeStaged x).jumpView m = s.jumpView m := rfl

/-- An operation on the apply edge that touches neither time nor the staged writes. -/
theorem Kept.takeStaged {s : State} {x : Staged} {t : State} {m : Nat} (k : Kept m (s.takeStaged x) t) (hnow : m.testBit 0 = false) (hst : m.testBit 29 = false) :
    t.now = max s.now x.due ∧ t.staged = s.staged.erase x := ⟨k.now_eq hnow, k.same .staged hst⟩

theorem exec_hostEventLatch (s : State) (n : Nat) : exec (.hostEventLatch n) s = execHostEventLatch n s := rfl

theorem exec_jumpApply (s : State) (n : Nat) : exec (.jumpApply n) s = execJumpApply n s := rfl

theorem hostEventLatch_latches {s : State} {n : Nat} {x : Staged} (h : s.stagedFor Obj.ndlHostEvent n = some x) :
    Next (.hostEventLatch n) s (fun t => t.now = max s.now x.due ∧ t.staged = s.staged.erase x ∧
      (∀ m ∈ members 16 x.els, s.busyNeedle m = true → Tbl.get (fun _ => none) (t.ndl m).latches (256 + x.value % 256) =
        (match Tbl.get (fun _ => none) (s.ndl m).latches (256 + x.value % 256) with | some l => some l | none => some x.due)) ∧
      (∀ m, (m ∉ members 16 x.els ∨ s.busyNeedle m = false) → t.ndl m = s.ndl m) ∧ Keeps s t [] [.now, .staged, .ndls, .evts]) := by
  have ex : exec (.hostEventLatch n) s = .next ((s.takeStaged x).latchEvent 1 (x.value % 256) x.els x.due) := by
    rw [exec_hostEventLatch, execHostEventLatch, h]
    rfl
  have k := (s.takeStaged x).latchEvent_kept 1 (x.value % 256) x.els x.due
  obtain ⟨now, staged⟩ := k.takeStaged (by decide +kernel) (by decide +kernel)
  obtain ⟨latched, rest⟩ := (s.takeStaged x).latchEvent_ndl 1 (x.value % 256) x.els x.due
  exact ⟨_, ex, now, staged, latched, rest, (k.step (m := pt.staged ||| km_reach ||| km_latchEvent) (by decide +kernel)
    ((s.takeStaged_kept x).mono (by decide +kernel))).keeps _ _ (by decide +kernel)⟩

theorem hostEventLatch_idle {s : State} {n : Nat} (h : s.stagedFor Obj.ndlHostEvent n = none) : Next (.hostEventLatch n) s (fun t => t = s) :=
  ⟨s, by rw [exec_hostEventLatch, execHostEventLatch, h], rfl⟩

theorem jumpApply_applies {s : State} {n : Nat} {x : Staged} (h : s.stagedFor Obj.ndlJump n = some x) :
    Next (.jumpApply n) s (fun t => t.now = max s.now x.due ∧ t.staged = s.staged.erase x ∧ JumpsApplied (members 16 x.els) (x.value % 8) x.due s t ∧
      Keeps s t [] (withSignals [.ndls, .now, .staged, .obj Obj.ndlJumpStatus, .obj Obj.ndlStatus])) := by
  have ex : exec (.jumpApply n) s = .next ((members 16 x.els).foldl (fun s n => s.jumpNow n (x.value % 8) x.due) (s.takeStaged x)) := by
    rw [exec_jumpApply, execJumpApply, h]
    rfl
  have k : Kept km_jumpNow (s.takeStaged x) ((members 16 x.els).foldl (fun s n => s.jumpNow n (x.value % 8) x.due) (s.takeStaged x)) :=
    .foldl (fun u n hu => hu.trans (u.jumpNow_kept ..)) (.refl ..)
  obtain ⟨now, staged⟩ := k.takeStaged (by decide +kernel) (by decide +kernel)
  obtain ⟨pending, dropped, rest⟩ := (s.takeStaged x).jumpAll_applied (members_nodup 16 x.els) x.due (Nat.mod_lt x.value (by decide : 0 < 8))
  exact ⟨_, ex, now, staged, ⟨pending, dropped, rest⟩, (k.step (m := pt.staged ||| km_reach ||| km_jumpNow) (by decide +kernel)
    ((s.takeStaged_kept x).mono (by decide +kernel))).keeps _ _ (by decide +kernel)⟩

theorem jumpApply_idle {s : State} {n : Nat} (h : s.stagedFor Obj.ndlJump n = none) : Next (.jumpApply n) s (fun t => t = s) :=
  ⟨s, by rw [exec_jumpApply, execJumpApply, h], rfl⟩

theorem exec_measDriveApply (s : State) : exec .measDriveApply s = execMeasDriveApply s := rfl

/-- R126, R317: on its apply edge the oldest staged drive takes force or not. -/
theorem execMeasDriveApply_staged {s : State} {x : Staged} (h : s.staged.find? (fun y => y.obj == Obj.ptfMeasDrive) = some x) :
    execMeasDriveApply s = if s.mode ≠ .measure ∨ (s.reach x.due).safeGoing = true then .next (s.takeStaged x)
      else .next ((members 256 x.els).foldl (fun s p => s.measPin x.due x.value p) (s.takeStaged x)) := by
  rw [execMeasDriveApply, h]
  rfl

theorem measDriveApply_drives {s : State} {x : Staged} (h : s.staged.find? (fun y => y.obj == Obj.ptfMeasDrive) = some x) (hm : s.mode = .measure)
    (hs : (s.reach x.due).safeGoing = false) :
    Next .measDriveApply s (fun t => t.now = max s.now x.due ∧ t.staged = s.staged.erase x ∧
      (∀ p ∈ members 256 x.els, s.driven p = true → (t.pin p).den = decide (x.value ≠ 0) ∧ (t.pin p).drv = decide (x.value = 2)) ∧
      (∀ p, p ∉ members 256 x.els ∨ s.driven p = false → t.pin p = s.pin p) ∧ Keeps s t [] [.now, .staged, .pins, .out]) := by
  have go : ¬ (s.mode ≠ .measure ∨ (s.reach x.due).safeGoing = true) := by rw [hm, hs]; decide
  have k : Kept km_measPin (s.takeStaged x) ((members 256 x.els).foldl (fun s p => s.measPin x.due x.value p) (s.takeStaged x)) :=
    .foldl (fun u p hu => hu.trans (u.measPin_kept ..)) (.refl ..)
  obtain ⟨now, staged⟩ := k.takeStaged (by decide +kernel) (by decide +kernel)
  obtain ⟨driven, rest⟩ := (s.takeStaged x).measAll_pins (members_nodup 256 x.els) x.due x.value
  exact ⟨_, by rw [exec_measDriveApply, execMeasDriveApply_staged h, if_neg go], now, staged, driven, rest,
    (k.step (m := pt.staged ||| km_reach ||| km_measPin) (by decide +kernel) ((s.takeStaged_kept x).mono (by decide +kernel))).keeps _ _ (by decide +kernel)⟩

theorem measDriveApply_lost {s : State} {x : Staged} (h : s.staged.find? (fun y => y.obj == Obj.ptfMeasDrive) = some x)
    (hm : s.mode ≠ .measure ∨ (s.reach x.due).safeGoing = true) :
    Next .measDriveApply s (fun t => t.now = max s.now x.due ∧ t.staged = s.staged.erase x ∧ Keeps s t [] [.now, .staged]) :=
  ⟨_, by rw [exec_measDriveApply, execMeasDriveApply_staged h, if_pos hm], rfl, rfl, (s.takeStaged_kept x).keeps _ _ (by decide +kernel)⟩

theorem measDriveApply_idle {s : State} (h : s.staged.find? (fun y => y.obj == Obj.ptfMeasDrive) = none) : Next .measDriveApply s (fun t => t = s) :=
  ⟨s, by rw [exec_measDriveApply, execMeasDriveApply, h], rfl⟩

/-- Settles O42, a command at a time; the jump and the drive of the members of a write by `State.foldl_each`. -/
theorem stagedWritesReachTheirNeedles : Obligations.StagedWritesReachTheirNeedles := by
  unfold Obligations.StagedWritesReachTheirNeedles
  intro s n
  refine ⟨fun x h => hostEventLatch_latches h, fun h => hostEventLatch_idle h, fun x h => ?_, fun h => jumpApply_idle h,
    fun x h => ⟨fun hm hs => measDriveApply_drives h hm hs, fun hm => measDriveApply_lost h hm⟩, fun h => measDriveApply_idle h⟩
  obtain ⟨t, ex, now, staged, applied, keeps⟩ := jumpApply_applies h
  refine ⟨t, ex, now, staged, fun m hm hs hb => ?_, fun m hm hd => ?_, fun m hm => congrArg JumpView.rt (applied.rest m hm), keeps⟩
  · obtain ⟨rt, status, state, entry⟩ := applied.pending m hm ⟨hs, hb⟩
    exact ⟨rt, status, state, entry⟩
  · obtain ⟨⟨rt, status, state⟩, pending⟩ := applied.dropped m hm fun h => hd.elim (fun k => k h.1) (fun k => k h.2)
    exact ⟨rt, status, state, pending⟩

end Sys2Proof.Machine
end

section
namespace Sys2Proof.Machine
-- one declaration at a time, as in the laws: each `decide +kernel` waits for the declarations before it
set_option Elab.async false

/-! ### A pending timed start (R639) -/

/-- Where no timed start is pending none becomes pending, and CLK.START_STATUS stays. -/
def State.StartStays (s t : State) : Prop := s.clk.startQ = none → t.clk.startQ = none ∧ t.rd Obj.clkStartStatus 0 = s.rd Obj.clkStartStatus 0

theorem State.StartStays.refl (s : State) : s.StartStays s := fun h => ⟨h, rfl⟩

theorem State.StartStays.trans {s t u : State} (h : s.StartStays t) (k : t.StartStays u) : s.StartStays u := fun hs =>
  ⟨(k (h hs).1).1, (k (h hs).1).2.trans (h hs).2⟩

theorem Kept.startStays {m : Nat} {s t : State} (h : Kept m s t) (hc : m.testBit 16 = false) (ho : m.testBit (Obj.clkStartStatus + 64) = false) :
    s.StartStays t := fun hs => ⟨(congrArg ClkRt.startQ (h.same .clk hc)).trans hs, h.rd 0 (by decide) ho⟩

theorem State.dropTimedStart_startStays (s : State) : s.StartStays s.dropTimedStart := fun h => by
  rw [State.dropTimedStart_of_none h]
  exact ⟨h, rfl⟩

theorem State.timedCheck_startStays (s : State) : s.StartStays s.timedCheck := fun h => by
  rw [State.timedCheck_of_none h]
  exact ⟨h, rfl⟩

theorem State.raise_startStays (s : State) (src inst master access addr : Nat) (scope : Option Nat) (own : Bool) :
    s.StartStays (s.raise src inst master access addr scope own) := by
  unfold State.raise
  split
  · exact (State.latch_kept ..).startStays (by decide +kernel) (by decide +kernel)
  · rename_i cls _
    extract_lets st e s1 f1 s2 s3 s4 seen f2 s5 s6
    have k3 : Kept (pt.fcr ||| km_latch ||| km_fcrCount ||| km_captureFirst) s s3 :=
      (State.captureFirst_kept _ _ _ _ _).step (by decide +kernel) <| (State.fcrCount_kept _ _ _).step (by decide +kernel) <|
        Kept.set_fcr (by decide +kernel) <| (State.latch_kept s src).step (by decide +kernel) (.refl ..)
    have g3 : s.StartStays s3 := k3.startStays (by decide +kernel) (by decide +kernel)
    have g5 : s3.StartStays s5 := by
      simp only [s5]
      split
      · exact .refl s3
      · exact (State.wr_kept s3 Obj.fcrActive 0 _).startStays (by decide +kernel) (by decide +kernel)
    have g6 : s5.StartStays s6 := by
      simp only [s6]
      split
      · exact s5.dropTimedStart_startStays
      · exact .refl s5
    exact g3.trans (g5.trans (g6.trans ((State.react_kept ..).startStays (by decide +kernel) (by decide +kernel))))

theorem State.frogBody_startStays (s : State) (n c cause : Nat) : s.StartStays (s.frogBody n c cause) := by
  have parity (p : Option Nat × State) : p.2.StartStays (State.frogParity p n) := by
    unfold State.frogParity
    split
    · exact State.raise_startStays _ _ _ _ _ _ _ _
    · exact .refl _
  have start : s.StartStays ((s.passFrogs n c).frogRoutine n).2 := Kept.startStays (m := km_setNdl ||| km_dropJump ||| km_ndlTrace ||| km_routine)
    ((State.frogRoutine_kept ..).step (by decide +kernel) <| (State.setNdl_kept ..).step (by decide +kernel) (.refl ..)) (by decide +kernel) (by decide +kernel)
  exact start.trans <| (parity _).trans <| ((State.frogStop_kept ..).startStays (by decide +kernel) (by decide +kernel)).trans
    ((State.frogMark_kept ..).startStays (by decide +kernel) (by decide +kernel))

theorem State.holdCheck_startStays (s : State) : s.StartStays s.holdCheck := by
  unfold State.holdCheck
  split
  · split
    · rw [State.arriveHold_eq]
      exact ((State.toHold_kept ..).startStays (by decide +kernel) (by decide +kernel)).trans (State.timedCheck_startStays _)
    · exact .refl s
  · exact .refl s

theorem State.needlesEnded_startStays (s : State) (t : Nat) : s.StartStays (s.needlesEnded t) := by
  unfold State.needlesEnded
  split
  · split
    · exact (State.arriveArmed_kept ..).startStays (by decide +kernel) (by decide +kernel)
    · exact State.timedCheck_startStays { s with trans := some ⟨s.mode.code, Mode.armed.code, 4, some t⟩ }
  · exact s.holdCheck_startStays

/-- R245: a microroutine of a busy needle, be it that a parity mismatch frogs the needle. -/
theorem State.runRoutine_startStays {s : State} {n : Nat} (cycles : Nat) (hb : s.busyNeedle n = true) : s.StartStays (s.runRoutine n cycles) := by
  have hr : Beside n s (s.routine n cycles).2 := State.routine_beside ..
  have hk : Kept km_routine s (s.routine n cycles).2 := State.routine_kept ..
  unfold State.runRoutine
  revert hr hk
  obtain ⟨bad, u⟩ := s.routine n cycles
  intro hr hk
  have su : s.StartStays u := hk.startStays (by decide +kernel) (by decide +kernel)
  cases bad with
  | none => exact su
  | some a =>
    have hv : (u.raise Ev.ucodeParity n n 4 a (some (2 ^ n)) true).busyNeedle n = true := by
      rw [State.busyNeedle, State.ndlState, (State.raise_kept ..).rd n (by decide) (by decide +kernel), hk.rd n (by decide) (by decide +kernel)]
      exact hb
    have fault : u.StartStays (u.frogFault n Ev.ucodeParity 4 a) := by
      rw [State.frogFault, State.frogAt_busy _ _ hv]
      exact (State.raise_startStays _ _ _ _ _ _ _ _).trans <| (State.frogBody_startStays _ _ _ _ : State.StartStays _ _).trans (State.needlesEnded_startStays _ _)
    exact su.trans fault

/-- R245: the microroutine of a busy needle whose BIND_OFF is not issued leaves its state, or a parity mismatch makes it FROGGED. -/
theorem State.runRoutine_state {s : State} {n : Nat} (cycles : Nat) (hb : s.busyNeedle n = true) (hbound : (s.ndl n).bound = none) :
    (s.runRoutine n cycles).ndlState n = s.ndlState n ∨ (s.runRoutine n cycles).ndlState n = 9 := by
  have hr : Beside n s (s.routine n cycles).2 := State.routine_beside ..
  unfold State.runRoutine
  revert hr
  obtain ⟨bad, u⟩ := s.routine n cycles
  intro hr
  cases bad with
  | none => exact .inl (hr.state n)
  | some a =>
    have hbu : u.busyNeedle n = true := by rw [State.busyNeedle, hr.state]; exact hb
    have before : (u.ndl n).boundBefore u.now = false := by
      rw [NdlRt.boundBefore, show (u.ndl n).bound = none from (congrArg NdlRt.bound hr.standing).trans hbound]
    exact .inr ((State.frogFault_stands Ev.ucodeParity 4 a hbu).2.inTime before).1

end Sys2Proof.Machine
end

section
namespace Sys2Proof.Machine
-- one declaration at a time, as in the laws: each `decide +kernel` waits for the declarations before it
set_option Elab.async false

/-! ### Needles cast on (R207, R208, R852) -/

/-- The needle before it counts as casting on: what its last run left has ended, pending gauges and switches apply. -/
def State.castClear (s : State) (q n : Nat) : State :=
  let s := match (s.ndl n).park with | some t => s.parkNeedle n t | none => s
  let s := if (s.ndl n).final.isSome then s.finalize n else s
  ((s.rasStopNeedle n).applyGauges n q).applySwitches n q

theorem State.castOn_eq (s : State) (q n : Nat) : s.castOn q n = ((s.castClear q n).wr Obj.ndlState n 3).ndlCount n 0 := rfl

theorem State.castClear_kept (s : State) (q n : Nat) :
    Kept (km_parkNeedle ||| km_finalize ||| km_rasStopNeedle ||| km_applyGauges ||| km_applySwitches) s (s.castClear q n) := by
  unfold State.castClear
  extract_lets u v
  have hu : Kept km_parkNeedle s u := by
    simp only [u]
    split
    · exact State.parkNeedle_kept ..
    · exact .refl ..
  have hv : Kept (km_parkNeedle ||| km_finalize) s v := by
    simp only [v]
    split
    · exact (State.finalize_kept ..).step (by decide +kernel) (hu.mono (by decide +kernel))
    · exact hu.mono (by decide +kernel)
  exact (State.applySwitches_kept ..).step (by decide +kernel) <| (State.applyGauges_kept ..).step (by decide +kernel) <|
    (State.rasStopNeedle_kept ..).step (by decide +kernel) (hv.mono (by decide +kernel))

theorem State.castOn_state (s : State) (q n : Nat) : (s.castOn q n).ndlState n = 3 := by
  rw [State.castOn_eq, State.ndlState, (State.ndlCount_kept ..).rd n (by decide) (by decide +kernel), State.rd_wr_self]

theorem State.castOn_state_ne (s : State) (q : Nat) {n m : Nat} (h : m ≠ n) : (s.castOn q n).ndlState m = s.ndlState m := by
  rw [State.castOn_eq, State.ndlState, (State.ndlCount_kept ..).rd m (by decide) (by decide +kernel), State.rd_wr_ne _ _ (by decide) (by decide) (fun k => h k.2),
    (State.castClear_kept ..).rd m (by decide) (by decide +kernel), State.ndlState]

/-- The engine one VCLK after the qualify edge: the needles in CASTON, the mode RUN. -/
def State.castAll (s : State) (ns : List Nat) (q reason : Nat) : State := ((ns.foldl (State.castOn · q) s).enterRun reason).timedCheck.reach (q + vclkFs)

theorem State.qualify_eq {s : State} {ns : List Nat} (q reason t0 : Nat) (h : s.qualifies ns = true) (hn : ns ≠ []) :
    s.qualify ns q reason t0 = ns.foldl (State.castReset · q t0) (s.castAll ns q reason) :=
  if_pos (by rw [h, List.isEmpty_eq_false_iff.2 hn]; rfl)

theorem State.qualify_none {s : State} {ns : List Nat} (q reason t0 : Nat) (h : s.qualifies ns = false) : s.qualify ns q reason t0 = s :=
  if_neg (by rw [h, Bool.false_and]; decide)

theorem State.castOns_kept (s : State) (ns : List Nat) (q : Nat) : Kept km_castOn s (ns.foldl (State.castOn · q) s) :=
  .foldl (fun u n hu => hu.trans (u.castOn_kept q n)) (.refl ..)

theorem State.castAll_rest (u : State) (q reason : Nat) :
    Kept (km_enterRun ||| km_timedCheck ||| km_reach) u ((u.enterRun reason).timedCheck.reach (q + vclkFs)) :=
  (State.reach_kept ..).step (by decide +kernel) <| (State.timedCheck_kept _).step (by decide +kernel) <| (State.enterRun_kept ..).step (by decide +kernel) (.refl ..)

theorem State.castAll_kept (s : State) (ns : List Nat) (q reason : Nat) :
    Kept (km_castOn ||| km_enterRun ||| km_timedCheck ||| km_reach) s (s.castAll ns q reason) :=
  (State.castAll_rest ..).step (by decide +kernel) ((s.castOns_kept ns q).mono (by decide +kernel))

/-- R207: every needle of the start is in CASTON. -/
theorem State.castAll_state (s : State) {ns : List Nat} (hn : ns.Nodup) (q reason : Nat) : ∀ m ∈ ns, (s.castAll ns q reason).ndlState m = 3 := by
  obtain ⟨-, cast, -⟩ := State.foldl_each (view := fun m u => u.ndlState m) (f := fun u n => u.castOn q n) (Inv := fun _ => True) (Ready := fun _ _ => True)
    (Goes := fun _ _ y => y = 3) (fun _ _ _ _ => trivial) (fun u n _ _ => u.castOn_state q n) (fun u _ _ _ _ h => u.castOn_state_ne q h) hn s trivial
    (fun _ _ => trivial)
  exact fun m hm => ((State.castAll_rest ..).rd m (by decide) (by decide +kernel)).trans (cast m hm)

theorem State.castAll_now (s : State) (ns : List Nat) (q reason : Nat) : (s.castAll ns q reason).now = max s.now (q + vclkFs) := by
  rw [State.castAll, State.reach, (State.timedCheck_kept _).now_eq (by decide +kernel), (State.enterRun_kept ..).now_eq (by decide +kernel),
    (s.castOns_kept ns q).now_eq (by decide +kernel)]

/-- R109: a start from ARMED takes the engine to RUN. -/
theorem State.castAll_mode {s : State} (ns : List Nat) (q reason : Nat) (h : s.mode = .armed) : (s.castAll ns q reason).mode = .run := by
  have k : Kept (km_timedCheck ||| km_reach) ((ns.foldl (State.castOn · q) s).enterRun reason) (s.castAll ns q reason) :=
    (State.reach_kept ..).step (by decide +kernel) ((State.timedCheck_kept _).mono (by decide +kernel))
  rw [k.mode_eq (by decide +kernel), State.enterRun, if_pos ((s.castOns_kept ns q).mode_eq (by decide +kernel) ▸ h)]
  exact State.mode_of_rd (State.enter_reads _ _ _ (by decide)).1

theorem State.castAll_trans (s : State) (ns : List Nat) (q reason : Nat) : (s.castAll ns q reason).trans = s.trans :=
  (s.castAll_kept ns q reason).trans_eq (by decide +kernel)

theorem State.castAll_startStays (s : State) (ns : List Nat) (q reason : Nat) : s.StartStays (s.castAll ns q reason) :=
  ((s.castOns_kept ns q).startStays (by decide +kernel) (by decide +kernel)).trans <|
    ((State.enterRun_kept ..).startStays (by decide +kernel) (by decide +kernel)).trans <| (State.timedCheck_startStays _).trans
      ((State.reach_kept ..).startStays (by decide +kernel) (by decide +kernel))

/-- R852: no HOLD is in progress where a start qualifies. -/
theorem State.noHold_of_qualifies {s : State} {ns : List Nat} (h : s.qualifies ns = true) : s.NoHold := by
  intro x hx ht
  rw [State.qualifies, hx] at h
  simp [ht, Mode.code] at h

/-! ### The reset of a needle that casts on (R208 to R211) -/

/-- R356: the records of a flow's queue are numbered from 0 again. -/
def State.restartSeq (s : State) (flow : Nat) : State :=
  match s.flowQueue flow with
  | some q => match s.queue q with | some x => s.putQueue q (some { x with seq := 0 }) | none => s
  | none => s

theorem State.restartSeq_kept (s : State) (flow : Nat) : Kept km_putQueue s (s.restartSeq flow) := by
  unfold State.restartSeq
  split
  · split
    · exact State.putQueue_kept ..
    · exact .refl ..
  · exact .refl ..

/-- The results of a site start afresh. -/
def State.clearSite (s : State) (n i : Nat) : State :=
  ((s.wr Obj.ptfSiteResult i (1 + n * 2 ^ 24)).setSite i { s.site i with logged := 0 }).restartSeq i

/-- The results and logs of a needle and its sites start afresh. -/
def State.clearLogs (s : State) (n : Nat) : State :=
  let s := (s.sitesOf n).foldl (fun s i => s.clearSite n i) s
  (((s.wrAll Obj.ptfPinFails (s.chartPins n) 0).setFld Obj.ptfFailFifo n F.ptfFailFifoHighWater 0).wr Obj.ptfCapStatus n 0).restartSeq (64 + n)

/-- The captures of a needle start afresh. -/
def NdlRt.freshCapture (r : NdlRt) : NdlRt := { r with capLive := true, capNext := none }

theorem NdlRt.freshCapture_standing (r : NdlRt) : r.freshCapture.standing = r.standing := rfl

theorem State.clearRun_eq (s : State) (n : Nat) : s.clearRun n = (s.clearLogs n).setNdl n ((s.clearLogs n).ndl n).freshCapture := rfl

theorem State.clearSite_kept (s : State) (n i : Nat) : Kept (ob Obj.ptfSiteResult ||| km_setSite ||| km_putQueue) s (s.clearSite n i) :=
  (State.restartSeq_kept ..).step (by decide +kernel) <| (State.setSite_kept ..).step (by decide +kernel) <|
    (State.wr_kept s Obj.ptfSiteResult ..).step (by decide +kernel) (.refl ..)

theorem State.clearLogs_kept (s : State) (n : Nat) :
    Kept (ob Obj.ptfSiteResult ||| km_setSite ||| km_putQueue ||| ob Obj.ptfPinFails ||| ob Obj.ptfFailFifo ||| ob Obj.ptfCapStatus) s (s.clearLogs n) := by
  unfold State.clearLogs
  extract_lets u
  have hu : Kept (ob Obj.ptfSiteResult ||| km_setSite ||| km_putQueue) s u := .foldl (fun v i hv => hv.trans (v.clearSite_kept n i)) (.refl ..)
  exact (State.restartSeq_kept ..).step (by decide +kernel) <| (State.wr_kept _ Obj.ptfCapStatus ..).step (by decide +kernel) <|
    (State.setFld_kept _ Obj.ptfFailFifo ..).step (by decide +kernel) <| (State.wrAll_kept u Obj.ptfPinFails ..).step (by decide +kernel) (hu.mono (by decide +kernel))

/-- The run of the needle stands where it stood. -/
theorem State.clearRun_beside (s : State) (n : Nat) : Beside n s (s.clearRun n) := by
  rw [State.clearRun_eq]
  exact .setNdl ((s.clearLogs_kept n).beside n (by decide +kernel)) (NdlRt.freshCapture_standing _)

theorem State.clearRun_bound (s : State) (n : Nat) : ((s.clearRun n).ndl n).bound = (s.ndl n).bound := by
  rw [State.clearRun_eq, State.setNdl_self, (s.clearLogs_kept n).ndl_eq (by decide +kernel)]
  rfl

/-- A needle that casts on as its microroutine finds it. -/
structure CastBlank (n : Nat) (s t : State) : Prop where
  kept : Kept (ob Obj.ndlStatus ||| ob Obj.ndlStitchCount ||| ob Obj.strUnderrun ||| km_setNdl ||| km_clearRun ||| km_setPin) s t
  bound : (t.ndl n).bound = none
  stitches : t.rd Obj.ndlStitchCount n = 0
  others : ∀ m, m ≠ n → t.rd Obj.ndlStitchCount m = s.rd Obj.ndlStitchCount m

/-- R208, R209: the reset of a needle ends with its entry microroutine. -/
theorem State.castReset_blank (s : State) (q t0 n : Nat) : ∃ u, s.castReset q t0 n = u.runRoutine n 8 ∧ CastBlank n s u := by
  unfold State.castReset
  extract_lets h img r fresh r' s1 pend sw s2 s3 s4 s5
  refine ⟨s5, rfl, ?_⟩
  have k1 : Kept (km_setNdl ||| km_clearRun) s s1 := (State.clearRun_kept ..).step (by decide +kernel) ((State.setNdl_kept ..).mono (by decide +kernel))
  have bound : (s1.ndl n).bound = none := by
    simp only [s1]
    rw [State.clearRun_bound, State.setNdl_self]
  clear_value s1
  have k2 : Kept (ob Obj.ndlStatus) s1 s2 := (s1.wr_kept Obj.ndlStatus n _).mono (by decide +kernel)
  clear_value s2
  have k3 : Kept (ob Obj.ndlStitchCount) s2 s3 := (s2.wr_kept Obj.ndlStitchCount n 0).mono (by decide +kernel)
  have self : s3.rd Obj.ndlStitchCount n = 0 := State.rd_wr_self ..
  have others (m : Nat) (hm : m ≠ n) : s3.rd Obj.ndlStitchCount m = s2.rd Obj.ndlStitchCount m :=
    State.rd_wr_ne _ _ (by decide) (by decide) (fun k => hm k.2)
  clear_value s3
  have k4 : Kept (ob Obj.strUnderrun) s3 s4 :=
    (State.setFld_kept _ Obj.strUnderrun ..).step (by decide +kernel) ((State.setFld_kept s3 Obj.strUnderrun ..).mono (by decide +kernel))
  clear_value s4
  have k5 : Kept (ob Obj.strUnderrun ||| km_setPin) s3 s5 :=
    (Kept.foldl (m := km_setPin) (fun u p hu => hu.trans (u.setPin_kept ..)) (.refl ..)).step (by decide +kernel) (k4.mono (by decide +kernel))
  clear_value s5
  have k15 : Kept (ob Obj.ndlStatus ||| ob Obj.ndlStitchCount ||| ob Obj.strUnderrun ||| km_setPin) s1 s5 :=
    k5.step (by decide +kernel) <| k3.step (by decide +kernel) (k2.mono (by decide +kernel))
  refine ⟨k15.step (by decide +kernel) (k1.mono (by decide +kernel)), ?_, ?_, fun m hm => ?_⟩
  · rw [k15.ndl_eq (by decide +kernel)]
    exact bound
  · rw [k5.rd n (by decide) (by decide +kernel)]
    exact self
  · rw [k5.rd m (by decide) (by decide +kernel), others m hm, k2.rd m (by decide) (by decide +kernel), k1.rd m (by decide) (by decide +kernel)]

/-- The parts that the resets of a start may change; the mode is none of them. -/
def castParts : Nat :=
  ob Obj.ndlStatus ||| ob Obj.ndlStitchCount ||| ob Obj.strUnderrun ||| km_setNdl ||| km_clearRun ||| km_setPin ||| km_routine ||| frogEngineParts

/-- What is seen of a needle that casts on: NDL.STATE and NDL.STITCH_COUNT. -/
def State.castView (n : Nat) (s : State) : Nat × Nat := (s.ndlState n, s.rd Obj.ndlStitchCount n)

/-- What the reset of needle n does. -/
structure CastReset (n : Nat) (s t : State) : Prop where
  kept : Kept castParts s t
  noHold : t.NoHold
  start : s.StartStays t
  state : t.ndlState n = 3 ∨ t.ndlState n = 9
  stitches : t.rd Obj.ndlStitchCount n = 0
  others : ∀ m, m ≠ n → t.castView m = s.castView m

theorem State.castReset_resets {s : State} {n : Nat} (q t0 : Nat) (hh : s.NoHold) (h3 : s.ndlState n = 3) : CastReset n s (s.castReset q t0 n) := by
  obtain ⟨u, e, kept, bound, stitches, others⟩ := s.castReset_blank q t0 n
  rw [e]
  have state (m : Nat) : u.ndlState m = s.ndlState m := kept.rd m (by decide) (by decide +kernel)
  have tr : u.trans = s.trans := kept.trans_eq (by decide +kernel)
  have busy : u.busyNeedle n = true := by rw [State.busyNeedle, state, h3]; rfl
  have stays : s.StartStays (u.runRoutine n 8) :=
    (kept.startStays (by decide +kernel) (by decide +kernel)).trans (State.runRoutine_startStays 8 busy)
  have st := (State.runRoutine_state 8 busy bound).imp_left (fun h => h.trans ((state n).trans h3))
  have count (m : Nat) : (u.runRoutine n 8).rd Obj.ndlStitchCount m = u.rd Obj.ndlStitchCount m :=
    (State.runRoutine_kept ..).rd m (by decide) (by decide +kernel)
  have view {m : Nat} (hm : m ≠ n) (o : OnlyNeedle n u (u.runRoutine n 8)) : (u.runRoutine n 8).castView m = s.castView m := by
    rw [State.castView, o.state m hm, state, count, others m hm, State.castView]
  rcases State.runRoutine_cases 8 busy (fun x hx h7 => absurd h7 (hh x (tr ▸ hx))) with ⟨b, k⟩ | p
  · refine ⟨k.step (by decide +kernel) (kept.mono (by decide +kernel)), fun x hx => hh x ?_, stays, st, (count n).trans stitches, fun m hm => view hm b.only⟩
    rw [← tr, ← k.trans_eq (by decide +kernel)]
    exact hx
  · refine ⟨p.kept.step (by decide +kernel) (kept.mono (by decide +kernel)), fun x hx => ?_, stays, st, (count n).trans stitches, fun m hm => view hm p.only⟩
    rcases p.trans with e | ⟨y, hy, h5⟩
    · exact hh x (by rw [← tr, ← e]; exact hx)
    · rw [hy] at hx
      cases hx
      rw [h5]
      decide

/-- What the resets of the needles of a start do. -/
structure CastResets (ns : List Nat) (s t : State) : Prop where
  kept : Kept castParts s t
  start : s.StartStays t
  cast : ∀ m ∈ ns, (t.ndlState m = 3 ∨ t.ndlState m = 9) ∧ t.rd Obj.ndlStitchCount m = 0

theorem State.castResets {s : State} {ns : List Nat} (hn : ns.Nodup) (q t0 : Nat) (hh : s.NoHold) (h3 : ∀ m ∈ ns, s.ndlState m = 3) :
    CastResets ns s (ns.foldl (State.castReset · q t0) s) := by
  have reset {u : State} {n : Nat} (hu : Kept castParts s u ∧ u.NoHold ∧ s.StartStays u) (hr : (u.castView n).1 = 3) : CastReset n u (u.castReset q t0 n) :=
    State.castReset_resets q t0 hu.2.1 hr
  obtain ⟨⟨kept, -, start⟩, cast, -⟩ := State.foldl_each (view := State.castView) (f := fun u n => u.castReset q t0 n)
    (Inv := fun u => Kept castParts s u ∧ u.NoHold ∧ s.StartStays u) (Ready := fun _ v => v.1 = 3) (Goes := fun _ _ v => (v.1 = 3 ∨ v.1 = 9) ∧ v.2 = 0)
    (fun u n hu hr => ⟨hu.1.trans (reset hu hr).kept, (reset hu hr).noHold, hu.2.2.trans (reset hu hr).start⟩)
    (fun u n hu hr => ⟨(reset hu hr).state, (reset hu hr).stitches⟩) (fun u n m hu hr hm => (reset hu hr).others m hm) hn s ⟨.refl .., hh, .refl s⟩ h3
  exact ⟨kept, start, cast⟩

/-! ### A start that qualifies (R207, R852) -/

/-- What the start of a set of needles on the qualify edge q does. -/
structure Started (ns : List Nat) (q : Nat) (s t : State) : Prop where
  kept : Kept km_qualify s t
  now : t.now = max s.now (q + vclkFs)
  cast : ∀ m ∈ ns, (t.ndlState m = 3 ∨ t.ndlState m = 9) ∧ t.rd Obj.ndlStitchCount m = 0
  mode : s.mode = .armed → t.mode = .run
  start : s.StartStays t

theorem State.qualify_started {s : State} {ns : List Nat} (hd : ns.Nodup) (q reason t0 : Nat) (h : s.qualifies ns = true) (hn : ns ≠ []) :
    Started ns q s (s.qualify ns q reason t0) := by
  have k := s.qualify_kept ns q reason t0
  have noHold : (s.castAll ns q reason).NoHold := fun x hx => State.noHold_of_qualifies h x (s.castAll_trans ns q reason ▸ hx)
  rw [State.qualify_eq q reason t0 h hn] at k ⊢
  have r := State.castResets hd q t0 noHold (s.castAll_state hd q reason)
  exact ⟨k, (r.kept.now_eq (by decide +kernel)).trans (s.castAll_now ns q reason), r.cast,
    fun ha => (r.kept.mode_eq (by decide +kernel)).trans (State.castAll_mode ns q reason ha), (s.castAll_startStays ns q reason).trans r.start⟩

end Sys2Proof.Machine
end

section
namespace Sys2Proof.Machine
-- one declaration at a time, as in the laws: each `decide +kernel` waits for the declarations before it
set_option Elab.async false

/-! ### The end of a pending timed start (R638, R639) -/

/-- The pending timed start ends, and CLK.START_STATUS reads the state v. -/
def State.endTimedStart (s : State) (v : Nat) : State := ({ s with clk := { s.clk with startQ := none } }).setFld Obj.clkStartStatus 0 F.clkStartStatusState v

theorem State.dropTimedStart_of_some {s : State} (h : s.clk.startQ ≠ none) : s.dropTimedStart = (s.endTimedStart 3).latch Ev.clkStartDropped :=
  if_pos (Option.isSome_iff_ne_none.2 h)

theorem State.endTimedStart_kept (s : State) (v : Nat) : Kept (ob Obj.clkStartStatus ||| pt.clk) s (s.endTimedStart v) :=
  (State.setFld_kept _ Obj.clkStartStatus ..).step (by decide +kernel) (.set_clk (by decide +kernel) (.refl ..))

theorem State.endTimedStart_state (s : State) (v : Nat) : (s.endTimedStart v).fld Obj.clkStartStatus 0 F.clkStartStatusState = v % 2 ^ F.clkStartStatusState.w :=
  State.fld_setFld_self ..

theorem Keeps.endTimedStart {s t : State} {els : List (Nat × Nat)} {ps : List Part} (h : Keeps s t els ps) (v : Nat) (he : (Obj.clkStartStatus, 0) ∈ els)
    (hc : pt.clk ||| maskOf ps = maskOf ps) : Keeps s (t.endTimedStart v) els ps :=
  (h.kept (u := { t with clk := { t.clk with startQ := none } }) (.set_clk (Nat.or_self _) (.refl ..)) hc).setFld _ _ (by decide) he

/-- R639: the drop of a pending timed start. -/
theorem State.dropTimedStart_drops {s : State} (h : s.clk.startQ ≠ none) :
    s.dropTimedStart.fld Obj.clkStartStatus 0 F.clkStartStatusState = 3 ∧ s.dropTimedStart.srcPending Ev.clkStartDropped = true := by
  rw [State.dropTimedStart_of_some h]
  refine ⟨?_, State.latch_pending ..⟩
  rw [State.fld, (State.latch_kept ..).rd 0 (by decide) (by decide +kernel)]
  exact s.endTimedStart_state 3

theorem Keeps.dropTimedStart {s t : State} {els : List (Nat × Nat)} {ps : List Part} (h : Keeps s t els ps) (he : (Obj.clkStartStatus, 0) ∈ els)
    (hc : pt.clk ||| maskOf ps = maskOf ps) (hl : km_latch ||| maskOf ps = maskOf ps) : Keeps s t.dropTimedStart els ps := by
  by_cases hs : t.clk.startQ = none
  · rw [State.dropTimedStart_of_none hs]
    exact h
  · rw [State.dropTimedStart_of_some hs]
    exact (h.endTimedStart 3 he hc).kept (State.latch_kept ..) hl

/-- R852: what a start looks at is not the timed start. -/
theorem Kept.qualifies {s t : State} (h : Kept (ob Obj.clkStartStatus ||| pt.clk) s t) (ns : List Nat) : t.qualifies ns = s.qualifies ns := by
  have rd (o e : Nat) (ho : o < 65536) (k : (ob Obj.clkStartStatus ||| pt.clk).testBit (o + 64) = false) : t.rd o e = s.rd o e := h.rd e ho k
  have chartOf (n : Nat) : t.rd Obj.ndlChart n = s.rd Obj.ndlChart n := rd _ _ (by decide) (by decide +kernel)
  have startable : t.startable = s.startable := funext fun n => by
    rw [State.startable, State.startable, State.ndlState, State.hasChart, State.chartState, State.chartOf, rd Obj.ndlState n (by decide) (by decide +kernel), chartOf,
      rd Obj.ndlChartState _ (by decide) (by decide +kernel)]
    rfl
  have safeGoing : t.safeGoing = s.safeGoing := by
    rw [State.safeGoing, State.safeGoing, h.now_eq (by decide +kernel), h.same .fcr (by decide +kernel), h.same .psm (by decide +kernel)]
  rw [State.qualifies, State.qualifies, startable, safeGoing, h.mode_eq (by decide +kernel), h.trans_eq (by decide +kernel)]

/-! ### START_QUALIFY and TIMED_START (R207, R638, R852) -/

theorem exec_startQualify {s : State} {n : Nat} {x : Staged} (h : s.stagedFor Obj.ndlStart n = some x) :
    exec (.startQualify n) s = .next ((s.takeStaged x).qualify (members 16 x.els) x.due 3 (x.due + 64 * vclkFs)) := by
  show execStartQualify n s = _
  rw [execStartQualify, h]
  rfl

theorem startQualify_starts {s : State} {n : Nat} {x : Staged} (h : s.stagedFor Obj.ndlStart n = some x) (hq : (s.takeStaged x).qualifies (members 16 x.els) = true)
    (hn : members 16 x.els ≠ []) : Next (.startQualify n) s (fun t => Started (members 16 x.els) x.due (s.takeStaged x) t) :=
  ⟨_, exec_startQualify h, State.qualify_started (members_nodup ..) _ _ _ hq hn⟩

theorem startQualify_drops {s : State} {n : Nat} {x : Staged} (h : s.stagedFor Obj.ndlStart n = some x) (hq : (s.takeStaged x).qualifies (members 16 x.els) = false) :
    Next (.startQualify n) s (fun t => t = s.takeStaged x) :=
  ⟨_, exec_startQualify h, State.qualify_none _ _ _ hq⟩

/-- The needles of CLK.START_STATUS. -/
def State.timedNeedles (s : State) : List Nat := members 16 (s.fld Obj.clkStartStatus 0 F.clkStartStatusNeedles)

theorem timedStart_starts {s : State} {q : Nat} (h : s.clk.startQ = some q) (hq : (s.reach q).qualifies s.timedNeedles = true) (hn : s.timedNeedles ≠ []) :
    Next .timedStart s (fun t => Started s.timedNeedles q ((s.reach q).endTimedStart 2) t) := by
  have ex : exec .timedStart s = .next (((s.reach q).endTimedStart 2).qualify s.timedNeedles q 3
      (s.clk.epoch + s.fld Obj.clkStartStatus 0 F.clkStartStatusAtNs * nsFs)) := by
    show execTimedStart s = _
    rw [execTimedStart, h]
    exact if_pos hq
  exact ⟨_, ex, State.qualify_started (members_nodup ..) _ _ _ ((((s.reach q).endTimedStart_kept 2).qualifies _).trans hq) hn⟩

theorem State.endTimedStart_startQ (s : State) (v : Nat) : (s.endTimedStart v).clk.startQ = none := rfl

/-- R638: a timed start is no longer pending once its needles start, and reads DONE. -/
theorem Started.done {ns : List Nat} {q : Nat} {s t : State} (h : Started ns q (s.endTimedStart 2) t) :
    t.clk.startQ = none ∧ t.fld Obj.clkStartStatus 0 F.clkStartStatusState = 2 := by
  obtain ⟨pending, status⟩ := h.start (s.endTimedStart_startQ 2)
  refine ⟨pending, ?_⟩
  rw [State.fld, status]
  exact s.endTimedStart_state 2

theorem timedStart_drops {s : State} {q : Nat} (h : s.clk.startQ = some q) (hq : (s.reach q).qualifies s.timedNeedles = false) :
    Next .timedStart s (fun t => t = (s.reach q).dropTimedStart) := by
  refine ⟨_, ?_, rfl⟩
  show execTimedStart s = _
  rw [execTimedStart, h]
  exact if_neg (Bool.eq_false_iff.1 hq)

/-! ### CLK.START_AT and CLK.CANCEL_START (R637, R639) -/

theorem commitsTo_startAt (r : ObjRow) (hr : objRow Obj.clkStartAt = some r) (v : Nat) : CommitsTo r Obj.clkStartAt 0 v [0]
    (fun u => (u.wr Obj.clkStartAt 0 v).startAt (v % 2 ^ 16) (v / 2 ^ 64)) (ob Obj.clkStartAt ||| km_startAt) where
  commit u := (State.commitCommand_eq (fun h => absurd h (ty_ne_command hr (by decide +kernel))) _ _ _).trans
    (State.commitWrite_byMember (by decide +kernel) u 0 v [0])
  kept u := (State.startAt_kept ..).step (by decide +kernel) ((u.wr_kept Obj.clkStartAt 0 v).mono (by decide +kernel))
  apart := by decide +kernel
  waiters _ := rfl

theorem State.startAt_status (s : State) {ns a : Nat} (hn : ns < 2 ^ 16) (ha : a < 2 ^ 64) :
    (s.startAt ns a).rd Obj.clkStartStatus 0 = 1 + ns * 2 ^ 16 + a * 2 ^ 64 := by
  rw [State.startAt, State.rd_wr_self, Nat.mod_eq_of_lt hn, Nat.mod_eq_of_lt ha]

theorem State.startAt_pending (s : State) (ns a : Nat) : (s.startAt ns a).clk.startQ = some (s.startEdge a) := rfl

theorem State.startEdge_wr (s : State) (o e v a : Nat) : (s.wr o e v).startEdge a = s.startEdge a := by
  rw [State.startEdge, State.startEdge, State.edgeBefore, State.edgeBefore, State.wr_clk]

theorem Keeps.startAt {s t : State} {els : List (Nat × Nat)} {ps : List Part} (h : Keeps s t els ps) (ns a : Nat) (he : (Obj.clkStartStatus, 0) ∈ els)
    (hc : pt.clk ||| maskOf ps = maskOf ps) : Keeps s (t.startAt ns a) els ps :=
  (h.kept (u := { t with clk := { t.clk with startQ := some (t.startEdge a) } }) (.set_clk (Nat.or_self _) (.refl ..)) hc).wr _ (by decide) he

theorem takes_startAt (s : State) (n : Nat) (x : Session) (r : ObjRow) {ns a : Nat} (hn : ns < 2 ^ 16) (ha : a < 2 ^ 64) :
    Takes (.startAt n ns a) s n x r Obj.clkStartAt 0 (ns + a * 2 ^ 64) [0] (fun b t =>
      t.clk.startQ = some (b.startEdge a) ∧ t.rd Obj.clkStartStatus 0 = 1 + ns * 2 ^ 16 + a * 2 ^ 64 ∧ t.out = b.out ++ [wrote n rOk 0xFFFF] ∧
      Keeps b t [(Obj.clkStartAt, 0), (Obj.clkStartStatus, 0)] [.out, .clk]) := by
  have needles : (ns + a * 2 ^ 64) % 2 ^ 16 = ns := by omega
  have instant : (ns + a * 2 ^ 64) / 2 ^ 64 = a := by omega
  refine Takes.of_commits rfl (fun hr => commitsTo_startAt r hr _) (fun u => ?_)
  rw [needles, instant]
  refine ⟨?_, State.startAt_status _ hn ha, rfl, ?_⟩
  · rw [State.emit_clk, State.startAt_pending, State.startEdge_wr]
  · exact (((Keeps.refl u _ _).wr _ (by decide) (by simp)).startAt _ _ (by simp) (by decide +kernel)).kept
      (State.emit_kept ..) (by decide +kernel)

/-- R639: CLK.CANCEL_START is stored, and a pending timed start is dropped. -/
def State.cancelStart (s : State) : State := (s.wr Obj.clkCancelStart 0 1).dropTimedStart

theorem State.cancelStart_kept (s : State) : Kept (ob Obj.clkCancelStart ||| km_dropTimedStart) s s.cancelStart :=
  (State.dropTimedStart_kept _).step (by decide +kernel) ((s.wr_kept Obj.clkCancelStart 0 1).mono (by decide +kernel))

theorem State.commitCommand_cancelStart (s : State) (r : ObjRow) : s.commitCommand r Obj.clkCancelStart 0 1 [0] = (.of rOk, s.cancelStart) :=
  (State.commitCommand_eq (fun _ => by decide) _ _ _).trans (State.commitWrite_byMember (by decide +kernel) s 0 1 [0])

theorem State.cancelStart_keeps (s : State) : Keeps s s.cancelStart [(Obj.clkCancelStart, 0), (Obj.clkStartStatus, 0)] (withSignals [.clk]) :=
  ((Keeps.refl s ..).wr 1 (by decide) (by simp)).dropTimedStart (by simp) (by decide +kernel) (by decide +kernel)

theorem State.cancelStart_drops (s : State) (h : s.clk.startQ ≠ none) :
    s.cancelStart.fld Obj.clkStartStatus 0 F.clkStartStatusState = 3 ∧ s.cancelStart.srcPending Ev.clkStartDropped = true :=
  State.dropTimedStart_drops (s := s.wr Obj.clkCancelStart 0 1) h

theorem State.cancelStart_idle (s : State) (h : s.clk.startQ = none) : Keeps s s.cancelStart [(Obj.clkCancelStart, 0)] [.out] := by
  rw [State.cancelStart, State.dropTimedStart_of_none (s := s.wr Obj.clkCancelStart 0 1) h]
  exact (Keeps.refl ..).wr 1 (by decide) (by simp)

theorem takes_cancelStart (s : State) (n : Nat) (x : Session) (r : ObjRow) : Takes (.cancelStart n) s n x r Obj.clkCancelStart 0 1 [0] (fun b t =>
    t.clk.startQ = none ∧
    (b.clk.startQ ≠ none → t.fld Obj.clkStartStatus 0 F.clkStartStatusState = 3 ∧ t.srcPending Ev.clkStartDropped = true) ∧
    (b.clk.startQ = none → Keeps b t [(Obj.clkCancelStart, 0)] [.out]) ∧
    Keeps b t [(Obj.clkCancelStart, 0), (Obj.clkStartStatus, 0)] (withSignals [.clk])) := by
  intro hv ha
  refine (ha.effect_done (C := fun _ => True) (c := State.cancelStart) (m := ob Obj.clkCancelStart ||| km_dropTimedStart) (by rw [← State.hostPut_eq ha.row]; rfl)
    (by decide +kernel) (fun _ => id) (fun u _ => ?_) (fun u _ => u.cancelStart_kept) (fun u _ => ?_)).imp (fun _ _ k => k trivial)
  · rw [toLE_value hv]
    exact u.commitCommand_cancelStart r
  · have dropped : u.cancelStart.clk.startQ = none := State.dropTimedStart_startQ _
    have drops := u.cancelStart_drops
    have idle := u.cancelStart_idle
    have keeps := u.cancelStart_keeps
    generalize u.cancelStart = v at *
    exact ⟨dropped, drops, fun h => (idle h).answered _ (by decide +kernel), keeps.answered _ (by decide +kernel)⟩

/-! ### Starts (R206, R207, R637 to R639, R852) -/

/-- Settles O38, a command at a time; a start by `State.qualify_started`. -/
theorem needlesStart : Obligations.NeedlesStart := by
  intro s
  refine ⟨fun n x _ hx => ⟨fun hq hn => ?_, startQualify_drops hx⟩, fun q hs => ⟨fun hq hn => ?_, fun hq => ?_⟩,
    fun n ns a x r hn ha => takes_startAt s n x r hn ha, fun n x r => takes_cancelStart s n x r⟩
  · obtain ⟨t, ex, started⟩ := startQualify_starts hx hq hn
    have now : t.now = max (max s.now x.due) (x.due + vclkFs) := started.now
    exact ⟨t, ex, by omega, started.kept.same .staged (by decide +kernel), started.cast, started.mode,
      (started.kept.step (m := pt.staged ||| km_reach ||| km_qualify) (by decide +kernel) ((s.takeStaged_kept x).mono (by decide +kernel))).keeps _ _ (by decide +kernel)⟩
  · obtain ⟨t, ex, started⟩ := timedStart_starts hs hq hn
    have now : t.now = max (max s.now q) (q + vclkFs) := started.now
    obtain ⟨ended, done⟩ := started.done
    have kept : Kept (ob Obj.clkStartStatus ||| pt.clk ||| km_reach) s ((s.reach q).endTimedStart 2) :=
      (State.endTimedStart_kept ..).step (by decide +kernel) ((s.reach_kept q).mono (by decide +kernel))
    exact ⟨t, ex, by omega, ended, done, started.cast, fun h => started.mode ((kept.mode_eq (by decide +kernel)).trans h),
      (started.kept.step (m := ob Obj.clkStartStatus ||| pt.clk ||| km_reach ||| km_qualify) (by decide +kernel) (kept.mono (by decide +kernel))).keeps _ _
        (by decide +kernel)⟩
  · obtain ⟨t, ex, rfl⟩ := timedStart_drops hs hq
    have pending : (s.reach q).clk.startQ ≠ none := by rw [State.reach_clk, hs]; exact Option.some_ne_none q
    obtain ⟨status, source⟩ := State.dropTimedStart_drops pending
    exact ⟨_, ex, (State.dropTimedStart_kept _).now_eq (by decide +kernel), State.dropTimedStart_startQ _, status, source,
      ((Keeps.refl s ..).kept (s.reach_kept q) (by decide +kernel)).dropTimedStart (by simp) (by decide +kernel) (by decide +kernel)⟩

end Sys2Proof.Machine
end

section
namespace Sys2Proof.Machine
-- one declaration at a time, as in the laws: each `decide +kernel` waits for the declarations before it
set_option Elab.async false

/-! ### Fields put into a number -/

theorem Fld.get_eq_div (f : Fld) (v : Nat) : f.get v = v / 2 ^ f.lo % 2 ^ f.w := by rw [Fld.get, Nat.shiftRight_eq_div_pow]

/-- A value put into a field that reads 0 is added in its place. -/
theorem Fld.put_zero {f : Fld} {v x : Nat} (h : f.get v = 0) (hx : x < 2 ^ f.w) : f.put v x = v + x * 2 ^ f.lo := by
  have low : v % 2 ^ f.lo < 2 ^ f.lo := Nat.mod_lt _ (Nat.two_pow_pos _)
  have high : 2 ^ f.w * (v / 2 ^ f.lo / 2 ^ f.w) + 0 = v / 2 ^ f.lo := by
    rw [Fld.get_eq_div] at h
    exact Nat.mul_div_cancel' (Nat.dvd_of_mod_eq_zero h)
  have ev : v = 2 ^ f.lo * (2 ^ f.w * (v / 2 ^ f.lo / 2 ^ f.w) + 0) + v % 2 ^ f.lo := by rw [high, Nat.div_add_mod]
  have sum : v + x * 2 ^ f.lo = 2 ^ f.lo * (2 ^ f.w * (v / 2 ^ f.lo / 2 ^ f.w) + x) + v % 2 ^ f.lo := by
    rw [Nat.add_zero] at high
    rw [high, Nat.mul_add, Nat.add_right_comm, Nat.div_add_mod, Nat.mul_comm]
  rw [Fld.put, h, Nat.zero_xor, Nat.mod_eq_of_lt hx, sum]
  conv_lhs => rw [ev]
  refine Nat.eq_of_testBit_eq fun i => ?_
  rw [Nat.testBit_xor, Nat.testBit_shiftLeft, Nat.testBit_two_pow_mul_add _ low, Nat.testBit_two_pow_mul_add _ low]
  by_cases hi : i < f.lo
  · simp [hi, Nat.not_le.2 hi]
  · rw [if_neg hi, if_neg hi, Nat.testBit_two_pow_mul_add _ (Nat.two_pow_pos _), Nat.testBit_two_pow_mul_add _ hx]
    by_cases hw : i - f.lo < f.w
    · simp [hw, Nat.le_of_not_lt hi]
    · rw [if_neg hw, if_neg hw, Nat.testBit_lt_two_pow (hx.trans_le (Nat.pow_le_pow_right (by decide) (Nat.le_of_not_lt hw)))]
      simp

/-- A field that is put back as it was. -/
theorem Fld.put_same {f : Fld} {v x : Nat} (h : x % 2 ^ f.w = f.get v) : f.put v x = v := by
  rw [Fld.put, h, Nat.xor_self, Nat.zero_shiftLeft, Nat.xor_zero]

/-! ### Host frames (R325, R331) -/

/-- The number of LVL.HOST_CMD, field by field (R331). -/
def hostCmdWord (value reg pin : Nat) (read bcast : Bool) : Nat := value + reg * 2 ^ 16 + pin * 2 ^ 24 + read.toNat * 2 ^ 32 + bcast.toNat * 2 ^ 33

theorem hostCmdWord_write {value reg pin : Nat} (hp : pin < 2 ^ 8) (hr : reg < 2 ^ 8) (hv : value < 2 ^ 16) (bcast : Bool) :
    F.lvlHostCmdBcast.put (F.lvlHostCmdValue.put (F.lvlHostCmdReg.put (F.lvlHostCmdPin.put 0 pin) reg) value) bcast.toNat =
      hostCmdWord value reg pin false bcast := by
  rw [Fld.put_zero (f := F.lvlHostCmdPin) (by decide) hp, Fld.put_zero (f := F.lvlHostCmdReg) (by rw [Fld.get_eq_div]; dsimp only; omega) hr,
    Fld.put_zero (f := F.lvlHostCmdValue) (by rw [Fld.get_eq_div]; dsimp only; omega) hv,
    Fld.put_zero (f := F.lvlHostCmdBcast) (by rw [Fld.get_eq_div]; dsimp only; omega) (Bool.toNat_lt bcast), hostCmdWord, Bool.toNat_false]
  dsimp only
  omega

theorem hostCmdWord_read {reg pin : Nat} (hp : pin < 2 ^ 8) (hr : reg < 2 ^ 8) :
    F.lvlHostCmdRead.put (F.lvlHostCmdReg.put (F.lvlHostCmdPin.put 0 pin) reg) 1 = hostCmdWord 0 reg pin true false := by
  rw [Fld.put_zero (f := F.lvlHostCmdPin) (by decide) hp, Fld.put_zero (f := F.lvlHostCmdReg) (by rw [Fld.get_eq_div]; dsimp only; omega) hr,
    Fld.put_zero (f := F.lvlHostCmdRead) (by rw [Fld.get_eq_div]; dsimp only; omega) (by decide), hostCmdWord, Bool.toNat_false, Bool.toNat_true]
  dsimp only
  omega

section
variable {value reg pin : Nat} (hp : pin < 2 ^ 8) (hr : reg < 2 ^ 8) (hv : value < 2 ^ 16) (read bcast : Bool)
include hp hr hv

/-- R331: the fields of LVL.HOST_CMD. -/
theorem hostCmdWord_fields :
    Fld.get F.lvlHostCmdValue (hostCmdWord value reg pin read bcast) = value ∧ Fld.get F.lvlHostCmdReg (hostCmdWord value reg pin read bcast) = reg ∧
    Fld.get F.lvlHostCmdPin (hostCmdWord value reg pin read bcast) = pin ∧ (Fld.get F.lvlHostCmdRead (hostCmdWord value reg pin read bcast) == 1) = read ∧
    (Fld.get F.lvlHostCmdBcast (hostCmdWord value reg pin read bcast) == 1) = bcast := by
  have r := Bool.toNat_lt read
  have b := Bool.toNat_lt bcast
  have isOne (c : Bool) : (c.toNat == 1) = c := by cases c <;> rfl
  have eRead : Fld.get F.lvlHostCmdRead (hostCmdWord value reg pin read bcast) = read.toNat := by
    rw [Fld.get_eq_div, hostCmdWord]
    dsimp only
    omega
  have eBcast : Fld.get F.lvlHostCmdBcast (hostCmdWord value reg pin read bcast) = bcast.toNat := by
    rw [Fld.get_eq_div, hostCmdWord]
    dsimp only
    omega
  refine ⟨?_, ?_, ?_, by rw [eRead, isOne], by rw [eBcast, isOne]⟩ <;> rw [Fld.get_eq_div, hostCmdWord] <;> dsimp only <;> omega

end

/-- The earliest start of the next frame of a bank (R325). -/
def State.frameFirst (s : State) (b : Nat) : Nat :=
  match (s.levelFrames b).getLast? with
  | some f => max s.now (f.start + 35 * s.sclk b)
  | none => max s.now (Tbl.get (fun _ => 0) s.levelFree b)

/-- The start that a host frame of a bank is given: a free value within two slots, where the bank is free by then. -/
def State.hostStart (s : State) (b : Nat) : Nat :=
  s.frameFirst b + Config.freeValue s.freeCtr % (s.now + 70 * s.sclk b + 1 - s.frameFirst b)

theorem State.hostStart_within (s : State) (b : Nat) :
    s.frameFirst b ≤ s.hostStart b ∧ (s.frameFirst b ≤ s.now + 70 * s.sclk b → s.hostStart b ≤ s.now + 70 * s.sclk b) := by
  refine ⟨Nat.le_add_right .., fun h => ?_⟩
  have lt := Nat.mod_lt (Config.freeValue s.freeCtr) (y := s.now + 70 * s.sclk b + 1 - s.frameFirst b) (by omega)
  rw [State.hostStart]
  omega

/-- The host frame of LVL.HOST_CMD with these fields (R324, R331). -/
def State.hostFrame (s : State) (value reg pin : Nat) (read bcast : Bool) : LevelFrame :=
  ⟨s.hostStart (pin / 32), levelWord value reg (if bcast then 0 else pin % 32 % s.ppd (pin / 32)) bcast read, pin % 32 / s.ppd (pin / 32), true, false⟩

/-- What the commit of LVL.HOST_CMD does. -/
def State.hostQueued (s : State) (value reg pin : Nat) (read bcast : Bool) : State :=
  (s.draw.setFrames (pin / 32) (s.levelFrames (pin / 32) ++ [s.hostFrame value reg pin read bcast])).setFld Obj.lvlHostResult 0 F.lvlHostResultState 1

theorem State.hostCmd_queues (s : State) {value reg pin : Nat} (hp : pin < 2 ^ 8) (hr : reg < 2 ^ 8) (hv : value < 2 ^ 16) (read bcast : Bool) :
    s.hostCmd (hostCmdWord value reg pin read bcast) = s.hostQueued value reg pin read bcast := by
  obtain ⟨eValue, eReg, ePin, eRead, eBcast⟩ := hostCmdWord_fields hp hr hv read bcast
  unfold State.hostCmd
  rw [eValue, eReg, ePin, eRead, eBcast]
  rfl

/-- The write of the command's own register plays no part in the frame. -/
theorem State.hostFrame_wr (s : State) (v value reg pin : Nat) (read bcast : Bool) :
    (s.wr Obj.lvlHostCmd 0 v).hostFrame value reg pin read bcast = s.hostFrame value reg pin read bcast := by
  have bank : (s.wr Obj.lvlHostCmd 0 v).rd Obj.lvlBankCfg 0 = s.rd Obj.lvlBankCfg 0 := State.rd_wr_obj _ _ (by decide) (by decide) (by decide)
  unfold State.hostFrame State.hostStart State.frameFirst State.sclk State.ppd
  rw [bank]
  rfl

theorem commitsTo_hostCmd (r : ObjRow) (hr : objRow Obj.lvlHostCmd = some r) (v : Nat) :
    CommitsTo r Obj.lvlHostCmd 0 v [0] (fun u => (u.wr Obj.lvlHostCmd 0 v).hostCmd v) (ob Obj.lvlHostCmd ||| km_hostCmd) where
  commit u := (State.commitCommand_eq (fun hc => absurd hc (ty_ne_command hr (by decide +kernel))) ..).trans (State.commitWrite_byMember (by decide +kernel) u 0 v [0])
  kept u := (State.hostCmd_kept ..).step (by decide +kernel) ((u.wr_kept Obj.lvlHostCmd 0 v).mono (by decide +kernel))
  apart := by decide +kernel
  waiters _ := rfl

/-- What an accepted host command leaves, from the state b in which it commits (R324, R325, R331). -/
structure HostQueued (n pin value reg : Nat) (read bcast : Bool) (b t : State) : Prop where
  frames : t.levelFrames (pin / 32) = b.levelFrames (pin / 32) ++ [b.hostFrame value reg pin read bcast]
  busy : t.fld Obj.lvlHostResult 0 F.lvlHostResultState = 1
  banks : ∀ j, j ≠ pin / 32 → t.levelFrames j = b.levelFrames j
  out : t.out = b.out ++ [wrote n rOk 0xFFFF]
  kept : Keeps b t [(Obj.lvlHostCmd, 0), (Obj.lvlHostResult, 0)] [.levelBus, .freeCtr, .out]

/-- R325, R331: the host frame is queued, and the command answered. -/
theorem State.hostQueued_wrote (u : State) (n v value reg pin : Nat) (read bcast : Bool) :
    HostQueued n pin value reg read bcast u (((u.wr Obj.lvlHostCmd 0 v).hostQueued value reg pin read bcast).emit (wrote n rOk 0xFFFF)) where
  frames := by
    rw [← u.hostFrame_wr v]
    exact State.setFrames_self ..
  busy := State.fld_setFld_self ..
  banks _ hj := State.setFrames_ne _ _ _ _ hj
  out := rfl
  kept := ((((Keeps.refl u _ _).wr v (by decide) (by simp)).kept (State.draw_kept _) (by decide +kernel)).kept (State.setFrames_kept ..) (by decide +kernel)
      |>.setFld _ _ (by decide) (by simp)).kept (State.emit_kept ..) (by decide +kernel)

/-- An accepted host command queues its frame, whichever command has written it. -/
theorem takes_hostCmd {i : Instr} {s : State} {n value reg pin : Nat} {x : Session} {r : ObjRow} (hp : pin < 2 ^ 8) (hr : reg < 2 ^ 8) (hv : value < 2 ^ 16)
    (read bcast : Bool) (hi : exec i s = .next (s.hostPut n Obj.lvlHostCmd 0 (hostCmdWord value reg pin read bcast))) :
    Takes i s n x r Obj.lvlHostCmd 0 (hostCmdWord value reg pin read bcast) [0] (HostQueued n pin value reg read bcast) := by
  refine Takes.of_commits hi (fun h => commitsTo_hostCmd r h _) (fun u => ?_)
  rw [State.hostCmd_queues _ hp hr hv]
  exact u.hostQueued_wrote ..

end Sys2Proof.Machine
end

section
namespace Sys2Proof.Machine
-- one declaration at a time, as in the laws: each `decide +kernel` waits for the declarations before it
set_option Elab.async false

theorem exec_lvlHostWrite {s : State} {n value reg pin : Nat} (hp : pin < 2 ^ 8) (hr : reg < 2 ^ 8) (hv : value < 2 ^ 16) (bcast : Bool) :
    exec (.lvlHostWrite n pin reg value bcast) s = .next (s.hostPut n Obj.lvlHostCmd 0 (hostCmdWord value reg pin false bcast)) := by
  rw [← hostCmdWord_write hp hr hv]
  rfl

theorem exec_lvlHostRead {s : State} {n reg pin : Nat} (hp : pin < 2 ^ 8) (hr : reg < 2 ^ 8) :
    exec (.lvlHostRead n pin reg) s = .next (s.hostPut n Obj.lvlHostCmd 0 (hostCmdWord 0 reg pin true false)) := by
  rw [← hostCmdWord_read hp hr]
  rfl

/-- R331: LVL_HOST_WRITE and LVL_HOST_READ, of which a read carries no value and goes to one channel. -/
theorem takes_lvlHost {s : State} {n value reg pin : Nat} {x : Session} {r : ObjRow} (hp : pin < 2 ^ 8) (hr : reg < 2 ^ 8) (hv : value < 2 ^ 16)
    (bcast read : Bool) (h0 : read = true → value = 0 ∧ bcast = false) :
    Takes (if read then .lvlHostRead n pin reg else .lvlHostWrite n pin reg value bcast) s n x r Obj.lvlHostCmd 0 (hostCmdWord value reg pin read bcast) [0]
      (HostQueued n pin value reg read bcast) := by
  refine takes_hostCmd hp hr hv read bcast ?_
  cases read with
  | false => exact exec_lvlHostWrite hp hr hv bcast
  | true =>
    obtain ⟨rfl, rfl⟩ := h0 rfl
    exact exec_lvlHostRead hp hr

/-! ### Level frames (R324 to R326, R331) -/

theorem exec_levelFrameStart (s : State) (k : Nat) : exec (.levelFrameStart k) s = execLevelFrameStart k s := rfl

theorem exec_levelFrameEnd (s : State) (k miso : Nat) : exec (.levelFrameEnd k miso) s = execLevelFrameEnd k miso s := rfl

/-- The first frame of a bank is on its way to its device. -/
def State.frameOpened (s : State) (k : Nat) (f : LevelFrame) (l : List LevelFrame) : State :=
  ((s.reach f.start).setFrames k ({ f with open' := true } :: l)).emit (.level k f.word (if s.domOn (k + 1) then 2 ^ f.dev else 0))

/-- The frame under way of a bank has ended at an instant, with the frames l left; the bank is free from another instant on (R325). -/
def State.frameClosed (s : State) (k : Nat) (l : List LevelFrame) (ends free : Nat) : State :=
  { (s.reach ends).setFrames k l with levelFree := Tbl.put (fun _ => 0) s.levelFree k free }

/-- The frame under way has ended, on its bank's clock. -/
def State.frameOver (s : State) (k : Nat) (f : LevelFrame) (l : List LevelFrame) : State :=
  s.frameClosed k l (f.start + 33 * s.sclk k) (f.start + 35 * s.sclk k)

/-- R331: a host frame is counted and its result stored. -/
def State.hostAnswered (s : State) (word miso : Nat) : State :=
  let u := (s.count Obj.lvlCounts 0 F.lvlCountsHostFrames F.lvlCountsHostSat 1).setFld Obj.lvlHostResult 0 F.lvlHostResultState 2
  if bit word 31 then u.setFld Obj.lvlHostResult 0 F.lvlHostResultReadValue miso else u

/-- A chart's frame is counted. -/
def State.chartFrame (s : State) : State := s.count Obj.lvlCounts 0 F.lvlCountsChartFrames F.lvlCountsChartSat 1

section
variable {s : State} {k : Nat} {f : LevelFrame} {l : List LevelFrame} (h : s.levelFrames k = f :: l)
include h

theorem execLevelFrameStart_closed (ho : f.open' = false) : execLevelFrameStart k s = .next (s.frameOpened k f l) := by
  unfold execLevelFrameStart
  rw [h]
  exact if_neg (by rw [ho]; decide)

theorem execLevelFrameStart_open (ho : f.open' = true) : execLevelFrameStart k s = .next s := by
  unfold execLevelFrameStart
  rw [h]
  exact if_pos ho

theorem execLevelFrameEnd_open (miso : Nat) (ho : f.open' = true) :
    execLevelFrameEnd k miso s = .next (if f.host then (s.frameOver k f l).hostAnswered f.word miso else (s.frameOver k f l).chartFrame) := by
  unfold execLevelFrameEnd
  rw [h, apply_ite Host.Outcome.next]
  exact if_neg (by rw [ho]; decide)

theorem execLevelFrameEnd_closed (miso : Nat) (ho : f.open' = false) : execLevelFrameEnd k miso s = .next s := by
  unfold execLevelFrameEnd
  rw [h]
  exact if_pos (by rw [ho]; rfl)

end

@[simp] theorem State.emit_levelFrames (s : State) (m : OutMsg) (k : Nat) : (s.emit m).levelFrames k = s.levelFrames k := rfl

/-- R325, R326: CS_N of the frame falls. -/
theorem State.frameOpened_starts (s : State) (k : Nat) (f : LevelFrame) (l : List LevelFrame) :
    (s.frameOpened k f l).levelFrames k = { f with open' := true } :: l ∧ (∀ j, j ≠ k → (s.frameOpened k f l).levelFrames j = s.levelFrames j) ∧
    Keeps s (s.frameOpened k f l) [] [.now, .levelBus, .out] := by
  unfold State.frameOpened
  refine ⟨?_, fun j hj => ?_, ?_⟩
  · rw [State.emit_levelFrames, State.setFrames_self]
  · rw [State.emit_levelFrames, State.setFrames_ne _ _ _ _ hj]
    rfl
  · exact (((Keeps.refl s _ _).kept (State.reach_kept ..) (by decide +kernel)).kept (State.setFrames_kept ..) (by decide +kernel)).kept (State.emit_kept ..)
      (by decide +kernel)

/-- What the end of a frame leaves beside its count and its result. -/
structure FrameEnds (k : Nat) (l : List LevelFrame) (ends free : Nat) (s t : State) : Prop where
  now : t.now = max s.now ends
  frames : t.levelFrames k = l
  free : t.levelFree = Tbl.put (fun _ => 0) s.levelFree k free
  banks : ∀ j, j ≠ k → t.levelFrames j = s.levelFrames j

theorem State.frameClosed_ends (s : State) (k : Nat) (l : List LevelFrame) (ends free : Nat) : FrameEnds k l ends free s (s.frameClosed k l ends free) :=
  ⟨rfl, (s.reach ends).setFrames_self k l, rfl, fun j hj => (s.reach ends).setFrames_ne k l j hj⟩

theorem FrameEnds.kept {k m ends free : Nat} {l : List LevelFrame} {s t u : State} (h : FrameEnds k l ends free s t) (e : Kept m t u)
    (hm : m &&& (pt.now ||| pt.levelBus ||| pt.levelFree) = 0) : FrameEnds k l ends free s u := by
  have bus : u.levelBus = t.levelBus := e.same .levelBus (testBit_off_of_land hm (by decide +kernel))
  refine ⟨(e.now_eq (testBit_off_of_land hm (by decide +kernel))).trans h.now, ?_, ?_, fun j hj => ?_⟩
  · rw [State.levelFrames, bus]; exact h.frames
  · exact (e.same .levelFree (testBit_off_of_land hm (by decide +kernel))).trans h.free
  · rw [State.levelFrames, bus]; exact h.banks j hj

theorem State.frameClosed_keeps (s : State) (k : Nat) (l : List LevelFrame) (ends free : Nat) (els : List (Nat × Nat)) :
    Keeps s (s.frameClosed k l ends free) els [.now, .levelBus, .levelFree] :=
  ((Keeps.refl s _ _).kept (State.reach_kept ..) (by decide +kernel)).kept
    (Kept.set_levelFree (m := pt.levelFree ||| km_setFrames) (by decide +kernel) ((State.setFrames_kept ..).mono (by decide +kernel))) (by decide +kernel)

theorem State.hostAnswered_kept (s : State) (word miso : Nat) : Kept (ob Obj.lvlCounts ||| ob Obj.lvlHostResult) s (s.hostAnswered word miso) := by
  have k : Kept (ob Obj.lvlCounts ||| ob Obj.lvlHostResult) s
      ((s.count Obj.lvlCounts 0 F.lvlCountsHostFrames F.lvlCountsHostSat 1).setFld Obj.lvlHostResult 0 F.lvlHostResultState 2) :=
    (State.setFld_kept ..).step (by decide +kernel) ((State.count_kept ..).mono (by decide +kernel))
  unfold State.hostAnswered
  extract_lets u
  split
  · exact (State.setFld_kept u Obj.lvlHostResult ..).step (by decide +kernel) k
  · exact k

/-- R331: DONE, one more host frame, and of a read what the device drove. -/
theorem State.hostAnswered_result (s : State) (word miso : Nat) :
    (s.hostAnswered word miso).fld Obj.lvlHostResult 0 F.lvlHostResultState = 2 ∧
    (s.hostAnswered word miso).fld Obj.lvlCounts 0 F.lvlCountsHostFrames = counted 48 (s.fld Obj.lvlCounts 0 F.lvlCountsHostFrames) 1 ∧
    (s.hostAnswered word miso).fld Obj.lvlHostResult 0 F.lvlHostResultReadValue =
      (if bit word 31 then miso % 2 ^ 16 else s.fld Obj.lvlHostResult 0 F.lvlHostResultReadValue) := by
  have count : (s.count Obj.lvlCounts 0 F.lvlCountsHostFrames F.lvlCountsHostSat 1).fld Obj.lvlCounts 0 F.lvlCountsHostFrames =
      counted 48 (s.fld Obj.lvlCounts 0 F.lvlCountsHostFrames) 1 := State.fld_count _ _ _ _ _ _ (.inr (by decide))
  have value : (s.count Obj.lvlCounts 0 F.lvlCountsHostFrames F.lvlCountsHostSat 1).fld Obj.lvlHostResult 0 F.lvlHostResultReadValue =
      s.fld Obj.lvlHostResult 0 F.lvlHostResultReadValue := (State.count_kept ..).fld_eq 0 _ (by decide) (by decide +kernel)
  unfold State.hostAnswered
  extract_lets u
  have hState : u.fld Obj.lvlHostResult 0 F.lvlHostResultState = 2 := State.fld_setFld_self ..
  have hCount : u.fld Obj.lvlCounts 0 F.lvlCountsHostFrames = counted 48 (s.fld Obj.lvlCounts 0 F.lvlCountsHostFrames) 1 :=
    (State.fld_setFld_obj _ _ _ _ _ (by decide) (by decide) (by decide)).trans count
  have hValue : u.fld Obj.lvlHostResult 0 F.lvlHostResultReadValue = s.fld Obj.lvlHostResult 0 F.lvlHostResultReadValue :=
    (State.fld_setFld_apart _ _ _ _ _ _ (.inl (by decide))).trans value
  split
  · exact ⟨(State.fld_setFld_apart _ _ _ _ _ _ (.inr (by decide))).trans hState,
      (State.fld_setFld_obj _ _ _ _ _ (by decide) (by decide) (by decide)).trans hCount, State.fld_setFld_self ..⟩
  · exact ⟨hState, hCount, hValue⟩

theorem State.hostAnswered_keeps {s t : State} {els : List (Nat × Nat)} {ps : List Part} (h : Keeps s t els ps) (word miso : Nat)
    (hr : (Obj.lvlHostResult, 0) ∈ els) (hc : (Obj.lvlCounts, 0) ∈ els) : Keeps s (t.hostAnswered word miso) els ps := by
  unfold State.hostAnswered
  extract_lets u
  have hu : Keeps s u els ps := (h.count _ _ 1 (by decide) hc).setFld _ 2 (by decide) hr
  split
  · exact hu.setFld _ _ (by decide) hr
  · exact hu

theorem levelFrameStart_idle {s : State} {k : Nat} (h : s.levelFrames k = []) : Next (.levelFrameStart k) s (fun t => t = s) :=
  ⟨s, by rw [exec_levelFrameStart, execLevelFrameStart, h], rfl⟩

theorem levelFrameEnd_idle {s : State} {k : Nat} (miso : Nat) (h : s.levelFrames k = []) : Next (.levelFrameEnd k miso) s (fun t => t = s) :=
  ⟨s, by rw [exec_levelFrameEnd, execLevelFrameEnd, h], rfl⟩

theorem levelFrameEnd_ends {s : State} {k : Nat} {f : LevelFrame} {l : List LevelFrame} (h : s.levelFrames k = f :: l) (miso : Nat) (ho : f.open' = true) :
    Next (.levelFrameEnd k miso) s (fun t => FrameEnds k l (f.start + 33 * s.sclk k) (f.start + 35 * s.sclk k) s t ∧
      (f.host = true → t.fld Obj.lvlHostResult 0 F.lvlHostResultState = 2 ∧
        t.fld Obj.lvlCounts 0 F.lvlCountsHostFrames = counted 48 (s.fld Obj.lvlCounts 0 F.lvlCountsHostFrames) 1 ∧
        t.fld Obj.lvlHostResult 0 F.lvlHostResultReadValue =
          (if bit f.word 31 then miso % 2 ^ 16 else s.fld Obj.lvlHostResult 0 F.lvlHostResultReadValue) ∧
        Keeps s t [(Obj.lvlHostResult, 0), (Obj.lvlCounts, 0)] [.now, .levelBus, .levelFree]) ∧
      (f.host = false → t.fld Obj.lvlCounts 0 F.lvlCountsChartFrames = counted 48 (s.fld Obj.lvlCounts 0 F.lvlCountsChartFrames) 1 ∧
        Keeps s t [(Obj.lvlCounts, 0)] [.now, .levelBus, .levelFree])) := by
  have closed : FrameEnds k l _ _ s (s.frameOver k f l) := s.frameClosed_ends ..
  have keeps (els : List (Nat × Nat)) : Keeps s (s.frameOver k f l) els [.now, .levelBus, .levelFree] := s.frameClosed_keeps ..
  refine ⟨_, execLevelFrameEnd_open h miso ho, ?_⟩
  cases hh : f.host with
  | true =>
    obtain ⟨state, count, value⟩ := (s.frameOver k f l).hostAnswered_result f.word miso
    exact ⟨closed.kept (State.hostAnswered_kept ..) (by decide +kernel), fun _ => ⟨state, count, value,
      State.hostAnswered_keeps (keeps _) _ _ (by simp) (by simp)⟩, fun k => absurd k (by decide)⟩
  | false =>
    exact ⟨closed.kept (State.count_kept _ Obj.lvlCounts ..) (by decide +kernel), fun k => absurd k (by decide),
      fun _ => ⟨State.fld_count _ _ _ _ _ _ (.inr (by decide)), (keeps _).count _ _ 1 (by decide) (by simp)⟩⟩

end Sys2Proof.Machine
end

section
namespace Sys2Proof.Machine
-- one declaration at a time, as in the laws: each `decide +kernel` waits for the declarations before it
set_option Elab.async false

/-! ### Supply entries of a chart (R602) -/

theorem exec_supplyApply (s : State) : exec .supplyApply s = execSupplyApply s := rfl

/-- The fold of SUPPLY_APPLY finds the entry that is due before all others. -/
theorem foldl_dueFirst {e x : SupplyEntry} {r : List SupplyEntry} (hm : e ∈ x :: r) (first : ∀ y ∈ x :: r, y ≠ e → e.due < y.due) :
    r.foldl (fun a b => if b.due < a.due then b else a) x = e := by
  induction r generalizing x with
  | nil => exact (List.mem_singleton.1 hm).symm
  | cons b r ih =>
    have hx : x = e ∨ e.due < x.due := or_iff_not_imp_left.2 (first x List.mem_cons_self)
    have hb : b = e ∨ e.due < b.due := or_iff_not_imp_left.2 (first b (List.mem_cons_of_mem _ List.mem_cons_self))
    rw [List.foldl_cons]
    refine ih ?_ fun y hy => ?_
    · rcases List.mem_cons.1 hm with rfl | hm
      · refine List.mem_cons.2 (.inl ?_)
        split
        · exact hb.elim Eq.symm fun h => by omega
        · rfl
      · rcases List.mem_cons.1 hm with rfl | hm
        · refine List.mem_cons.2 (.inl ?_)
          split
          · rfl
          · exact hx.elim Eq.symm fun h => by omega
        · exact List.mem_cons_of_mem _ hm
    · rcases List.mem_cons.1 hy with rfl | hy
      · split
        · exact first b (List.mem_cons_of_mem _ List.mem_cons_self)
        · exact first x List.mem_cons_self
      · exact first y (List.mem_cons_of_mem _ (List.mem_cons_of_mem _ hy))

/-- Time has come to an entry's edge, and the entry has left the list. -/
def State.supplyDue (s : State) (e : SupplyEntry) : State := { s.reach e.due with psm := { s.psm with supply := s.psm.supply.erase e } }

theorem State.supplyDue_keeps (s : State) (e : SupplyEntry) (els : List (Nat × Nat)) {ps : List Part} (hp : (pt.now ||| pt.psm) ||| maskOf ps = maskOf ps) :
    Keeps s (s.supplyDue e) els ps :=
  (Keeps.refl s _ _).kept (Kept.set_psm (m := pt.now ||| pt.psm) (by decide +kernel) ((State.reach_kept ..).mono (by decide +kernel))) hp

theorem execSupplyApply_first {s : State} {e : SupplyEntry} (hm : e ∈ s.psm.supply) (first : ∀ y ∈ s.psm.supply, y ≠ e → e.due < y.due) :
    execSupplyApply s = .next ((s.supplyDue e).supply e) := by
  unfold execSupplyApply
  split
  · rename_i h
    rw [h] at hm
    cases hm
  · rename_i x r h
    rw [h] at hm first
    rw [foldl_dueFirst hm first]
    rfl

/-- R11: a counter of SPL.COUNTS. -/
theorem State.splCount_self (s : State) (n : Nat) {i : Nat} (hi : i < 5) :
    (s.splCount n i).fld Obj.splCounts n ⟨48 * i, 48⟩ = counted 48 (s.fld Obj.splCounts n ⟨48 * i, 48⟩) 1 :=
  State.fld_count _ _ _ _ _ _ (by simp only [Fld.Apart]; omega)

theorem State.splCount_ne (s : State) (n : Nat) {i j : Nat} (hi : i < 5) (hj : j < 5) (h : i ≠ j) :
    (s.splCount n i).fld Obj.splCounts n ⟨48 * j, 48⟩ = s.fld Obj.splCounts n ⟨48 * j, 48⟩ :=
  State.fld_count_apart _ _ _ _ _ _ _ (by simp only [Fld.Apart]; omega) (by simp only [Fld.Apart]; omega)

theorem kindObj_lt (kind : Nat) : kindObj kind < 65536 := by
  unfold kindObj
  split <;> decide

theorem kindObj_ne_counts (kind : Nat) : kindObj kind ≠ Obj.splCounts := by
  unfold kindObj
  split <;> decide

/-- R601, R602: an entry's value within the limits of its loop. -/
def State.supplyValue (s : State) (e : SupplyEntry) : Int := min (max e.value (s.supplyLimits e.loop e.kind).1) (s.supplyLimits e.loop e.kind).2

/-- The loop's record of a chart value that takes force now (R603). -/
def State.chartForce (s : State) (e : SupplyEntry) : State :=
  s.setLoop e.loop (if e.kind = 0 then { s.loop e.loop with chartV := some s.now } else { s.loop e.loop with chartI := some s.now })

/-- A value of an entry is stored and the chart step counted. -/
def State.supplyStored (s : State) (e : SupplyEntry) (v : Int) : State :=
  ((s.chartForce e).wr (kindObj e.kind) e.loop (ofSigned 32 v)).splCount e.loop 2

/-- The clamping of an entry's value is counted and raised. -/
def State.supplyClamped (s : State) (e : SupplyEntry) : State := (s.splCount e.loop 1).latch Ev.splClamp

theorem State.supply_rampdown {s : State} {e : SupplyEntry} (h : s.loopState e.loop = 3) : s.supply e = s.splCount e.loop 3 := if_pos h

theorem State.supply_stores {s : State} {e : SupplyEntry} (h : s.loopState e.loop ≠ 3) :
    s.supply e = if s.supplyValue e ≠ e.value then (s.supplyStored e (s.supplyValue e)).supplyClamped e else s.supplyStored e (s.supplyValue e) := if_neg h

theorem State.supplyStored_rd (s : State) (e : SupplyEntry) (v : Int) : (s.supplyStored e v).rd (kindObj e.kind) e.loop = ofSigned 32 v :=
  (State.rd_count_ne _ _ _ _ (by decide) (kindObj_lt _) (kindObj_ne_counts _)).trans (State.rd_wr_self ..)

/-- The stored value is no counter. -/
theorem State.chartForce_counts (s : State) (e : SupplyEntry) (v : Int) {i : Nat} :
    ((s.chartForce e).wr (kindObj e.kind) e.loop (ofSigned 32 v)).fld Obj.splCounts e.loop ⟨48 * i, 48⟩ = s.fld Obj.splCounts e.loop ⟨48 * i, 48⟩ := by
  rw [State.fld, State.rd_wr_obj _ _ (kindObj_lt _) (by decide) (kindObj_ne_counts _).symm]
  rfl

/-- What an entry that takes force stores and counts. -/
structure SupplyTaken (e : SupplyEntry) (v : Int) (s t : State) : Prop where
  stored : t.rd (kindObj e.kind) e.loop = ofSigned 32 v
  step : t.fld Obj.splCounts e.loop ⟨48 * 2, 48⟩ = counted 48 (s.fld Obj.splCounts e.loop ⟨48 * 2, 48⟩) 1
  kept : Keeps s t [(kindObj e.kind, e.loop), (Obj.splCounts, e.loop)] (withSignals [.now, .psm, .loops])

theorem State.supplyStored_taken (s : State) (e : SupplyEntry) (v : Int) : SupplyTaken e v s (s.supplyStored e v) where
  stored := s.supplyStored_rd e v
  step := (State.splCount_self _ _ (by decide)).trans (by rw [State.chartForce_counts])
  kept := (((Keeps.refl s _ _).kept (State.setLoop_kept ..) (by decide +kernel)).wr _ (kindObj_lt _) (by simp)).count _ _ 1 (by decide) (by simp)

theorem SupplyTaken.clamped {e : SupplyEntry} {v : Int} {s t : State} (h : SupplyTaken e v s t) : SupplyTaken e v s (t.supplyClamped e) where
  stored := by
    have off : km_latch &&& (ob Obj.splSetpoint ||| ob Obj.splIlimit) = 0 := by decide +kernel
    have hk : (ob Obj.splSetpoint ||| ob Obj.splIlimit).testBit (kindObj e.kind + 64) = true := by
      unfold kindObj
      split <;> decide +kernel
    exact ((State.latch_kept ..).rd _ (kindObj_lt _) (testBit_off_of_land off hk)).trans <|
      (State.rd_count_ne _ _ _ _ (by decide) (kindObj_lt _) (kindObj_ne_counts _)).trans h.stored
  step := ((State.latch_kept ..).fld_eq _ _ (by decide) (by decide +kernel)).trans <| (State.splCount_ne _ _ (by decide) (by decide) (by decide)).trans h.step
  kept := (h.kept.count _ _ 1 (by decide) (by simp)).kept (State.latch_kept ..) (by decide +kernel)

/-- R602: an entry of a loop that is not ramping down takes force. -/
theorem State.supply_taken {s : State} {e : SupplyEntry} (h : s.loopState e.loop ≠ 3) : SupplyTaken e (s.supplyValue e) s (s.supply e) ∧
    (s.supplyValue e ≠ e.value → (s.supply e).fld Obj.splCounts e.loop ⟨48 * 1, 48⟩ = counted 48 (s.fld Obj.splCounts e.loop ⟨48 * 1, 48⟩) 1 ∧
      (s.supply e).srcPending Ev.splClamp = true) := by
  have taken := s.supplyStored_taken e (s.supplyValue e)
  rw [State.supply_stores h]
  split
  · refine ⟨taken.clamped, fun _ => ⟨?_, State.latch_pending ..⟩⟩
    rw [State.supplyClamped, (State.latch_kept ..).fld_eq _ _ (by decide) (by decide +kernel), State.splCount_self _ _ (by decide), State.supplyStored,
      State.splCount_ne _ _ (by decide) (by decide) (by decide), State.chartForce_counts]
  · rename_i hv
    exact ⟨taken, fun k => absurd k hv⟩

theorem supplyApply_takes {s : State} {e : SupplyEntry} (hm : e ∈ s.psm.supply) (first : ∀ y ∈ s.psm.supply, y ≠ e → e.due < y.due) :
    Next .supplyApply s (fun t => t.now = max s.now e.due ∧ t.psm.supply = s.psm.supply.erase e ∧
      (s.loopState e.loop = 3 → t.fld Obj.splCounts e.loop ⟨48 * 3, 48⟩ = counted 48 (s.fld Obj.splCounts e.loop ⟨48 * 3, 48⟩) 1 ∧
        Keeps s t [(Obj.splCounts, e.loop)] [.now, .psm]) ∧
      (s.loopState e.loop ≠ 3 → SupplyTaken e (s.supplyValue e) s t ∧
        (s.supplyValue e ≠ e.value → t.fld Obj.splCounts e.loop ⟨48 * 1, 48⟩ = counted 48 (s.fld Obj.splCounts e.loop ⟨48 * 1, 48⟩) 1 ∧
          t.srcPending Ev.splClamp = true))) := by
  have k := (s.supplyDue e).supply_kept e
  refine ⟨_, (exec_supplyApply s).trans (execSupplyApply_first hm first), k.now_eq (by decide +kernel), ?_, fun h => ?_, fun h => ?_⟩
  · exact congrArg PsmRt.supply (k.same .psm (by decide +kernel))
  · rw [State.supply_rampdown (s := s.supplyDue e) h]
    exact ⟨State.splCount_self _ _ (by decide), (s.supplyDue_keeps e _ (by decide +kernel)).count _ _ 1 (by decide) (by simp)⟩
  · obtain ⟨taken, clamped⟩ := State.supply_taken (s := s.supplyDue e) h
    exact ⟨⟨taken.stored, taken.step, (s.supplyDue_keeps e _ (by decide +kernel)).trans taken.kept⟩, clamped⟩

theorem supplyApply_idle {s : State} (h : s.psm.supply = []) : Next .supplyApply s (fun t => t = s) :=
  ⟨s, by rw [exec_supplyApply, execSupplyApply, h], rfl⟩

end Sys2Proof.Machine
end

section
namespace Sys2Proof.Machine
-- one declaration at a time, as in the laws: each `decide +kernel` waits for the declarations before it
set_option Elab.async false

/-! ### One operation after another for the numbers of a list -/

/-- An operation for every number of a list, be it listed once or more often: what the operation brings about for its number, and no operation for another
number undoes, holds for every number of the list. `Inv` holds all along. -/
theorem State.foldl_establishes {Inv : State → Prop} {P : Nat → State → Prop} {f : State → Nat → State} (inv : ∀ u p, Inv u → Inv (f u p))
    (self : ∀ u p, Inv u → P p (f u p)) (ne : ∀ u p q, Inv u → P q u → P q (f u p)) (l : List Nat) (s : State) (hi : Inv s) :
    Inv (l.foldl f s) ∧ ∀ p, p ∈ l ∨ P p s → P p (l.foldl f s) := by
  induction l generalizing s with
  | nil => exact ⟨hi, fun p hp => hp.resolve_left List.not_mem_nil⟩
  | cons a l ih =>
    obtain ⟨hinv, goes⟩ := ih (f s a) (inv s a hi)
    refine ⟨hinv, fun p hp => goes p ?_⟩
    rcases hp with hp | hp
    · rcases List.mem_cons.1 hp with rfl | hp
      · exact .inr (self s p hi)
      · exact .inl hp
    · exact .inr (ne s a p hi hp)

/-! ### A gauge written by the host (R429, R435, R438) -/

theorem exec_gaugeWrite (s : State) (n el : Nat) (v : Bytes) : exec (.gaugeWrite n el v) s = .next (s.hostWrite n Obj.ptfGauge el v) := rfl

theorem toSigned_emod (w v : Nat) : toSigned w v % (2 ^ w : Nat) = (v % 2 ^ w : Nat) := by
  unfold toSigned
  extract_lets u
  have lt : u < 2 ^ w := Nat.mod_lt _ (Nat.two_pow_pos w)
  have self : (u : Int) % (2 ^ w : Nat) = (u : Int) := Int.emod_eq_of_lt (by omega) (by omega)
  split
  · exact self
  · rw [Int.sub_emod_right, self]

/-- Two's complement there and back. -/
theorem ofSigned_toSigned (w v : Nat) : ofSigned w (toSigned w v) = v % 2 ^ w := by
  rw [ofSigned, toSigned_emod, Int.toNat_natCast]

theorem State.rd_wr_rd (s : State) {o e o' e' : Nat} (ho : o < 65536) (ho' : o' < 65536) : (s.wr o e (s.rd o e)).rd o' e' = s.rd o' e' := by
  by_cases h : o' = o ∧ e' = e
  · rw [h.1, h.2, State.rd_wr_self]
  · exact State.rd_wr_ne _ _ ho ho' h

/-- A quantity of a pin is committed as it stands, and its anchor is dropped. -/
def State.commitDrop (s : State) (p q : Nat) : State := (s.commitGauge p q (s.gaugeOf Obj.ptfGauge p q) false).setAnchor p q none

theorem State.commitDrop_rd (s : State) (p q : Nat) {o : Nat} (e : Nat) (ho : o < 65536) : (s.commitDrop p q).rd o e = s.rd o e := by
  have same : (gaugeFld q).put (s.rd Obj.ptfGauge p) (ofSigned 16 (s.gaugeOf Obj.ptfGauge p q)) = s.rd Obj.ptfGauge p := by
    refine Fld.put_same ?_
    rw [State.gaugeOf, ofSigned_toSigned, State.fld, Fld.get_eq_div]
    exact (Nat.mod_mod _ _).trans (Nat.mod_mod _ _)
  show (s.setFld Obj.ptfGauge p (gaugeFld q) (ofSigned 16 (s.gaugeOf Obj.ptfGauge p q))).rd o e = s.rd o e
  rw [State.setFld, same, State.rd_wr_rd _ (by decide) ho]

@[simp] theorem State.wr_anchor (s : State) (o e v p q : Nat) : (s.wr o e v).anchor p q = s.anchor p q := rfl

theorem State.setAnchor_self (s : State) (p q : Nat) (v : Option Int) : (s.setAnchor p q v).anchor p q = v := by
  unfold State.setAnchor State.anchor
  exact Tbl.get_put_self ..

theorem State.setAnchor_ne (s : State) {p q p' q' : Nat} (v : Option Int) (h : calKey p' q' ≠ calKey p q) : (s.setAnchor p q v).anchor p' q' = s.anchor p' q' := by
  unfold State.setAnchor State.anchor
  exact Tbl.get_put_ne _ _ _ h

theorem State.commitDrop_anchor_self (s : State) (p q : Nat) : (s.commitDrop p q).anchor p q = none := State.setAnchor_self ..

theorem State.commitDrop_anchor_ne (s : State) {p q p' q' : Nat} (h : calKey p' q' ≠ calKey p q) : (s.commitDrop p q).anchor p' q' = s.anchor p' q' :=
  State.setAnchor_ne _ _ h

/-- A quantity whose anchor has been dropped has none after another commit either. -/
theorem State.commitDrop_anchor_none (s : State) (p q q' : Nat) (h : s.anchor p q' = none) : (s.commitDrop p q).anchor p q' = none := by
  by_cases e : calKey p q' = calKey p q
  · rw [State.commitDrop, State.anchor, e]
    exact s.commitDrop_anchor_self p q
  · rw [State.commitDrop_anchor_ne _ e, h]

theorem State.commitDrop_keeps {s t : State} {els : List (Nat × Nat)} {ps : List Part} (h : Keeps s t els ps) (p q : Nat) (he : (Obj.ptfGauge, p) ∈ els)
    (hp : pt.cal ||| maskOf ps = maskOf ps) : Keeps s (t.commitDrop p q) els ps :=
  (h.setFld (gaugeFld q) (ofSigned 16 (t.gaugeOf Obj.ptfGauge p q)) (by decide) he).kept (Kept.set_cal (by decide +kernel) (Kept.set_cal (by decide +kernel) (.refl pt.cal _))) hp

theorem calKey_inj {p q p' q' : Nat} (hq : q < 6) (hq' : q' < 6) (h : calKey p' q' = calKey p q) : p' = p ∧ q' = q := by
  unfold calKey at h
  omega

/-- A live commit of one quantity on this FCLK edge gives way to the host's (R433, R438). -/
def State.supersedeOne (s : State) (p q : Nat) : State :=
  match Tbl.get (fun _ => none) s.cal.live (calKey p q) with
  | some (t, run, un) =>
    if s.sameFclk t s.now then
      (({ s with cal := { s.cal with runs := Tbl.put (fun _ => 0) s.cal.runs (calKey p q) run } }).setFld Obj.calPinStatus p ⟨12 + q, 1⟩ un).setFld
        Obj.calLastSwatch p F.calLastSwatchOutcome 8
    else s
  | none => s

theorem State.supersede_eq (s : State) (p : Nat) : s.supersede p = (List.range 6).foldl (fun s q => s.supersedeOne p q) s := rfl

theorem State.supersedeOne_anchors (s : State) (p q : Nat) : (s.supersedeOne p q).cal.anchors = s.cal.anchors := by
  unfold State.supersedeOne
  split
  · split <;> rfl
  · rfl

theorem State.supersede_anchor (s : State) (p p' q' : Nat) : (s.supersede p).anchor p' q' = s.anchor p' q' := by
  have same : (s.supersede p).cal.anchors = s.cal.anchors := by
    rw [State.supersede_eq]
    exact List.foldlRecOn (motive := fun u : State => u.cal.anchors = s.cal.anchors) _ _ rfl fun u hu q _ => (u.supersedeOne_anchors p q).trans hu
  rw [State.anchor, same, State.anchor]

/-- What a gauge write may change of a pin. -/
def gaugeEls (p : Nat) : List (Nat × Nat) :=
  [(Obj.ptfGauge, p), (Obj.calBase, p), (Obj.ptfGaugeActive, p), (Obj.calPinStatus, p), (Obj.calLastSwatch, p)]

theorem State.supersede_keeps (s : State) (p : Nat) : Keeps s (s.supersede p) (gaugeEls p) [.cal] := by
  rw [State.supersede_eq]
  refine Keeps.foldl (.refl ..) fun u q _ h => ?_
  unfold State.supersedeOne
  split
  · split
    · exact ((h.kept (Kept.set_cal (by decide +kernel) (.refl pt.cal u)) (by decide +kernel)).setFld _ _ (by decide) (by simp [gaugeEls])).setFld _ _ (by decide)
        (by simp [gaugeEls])
    · exact h
  · exact h

/-- The gauge and its base of a pin are written. -/
def State.gaugeWr (s : State) (p v : Nat) : State := ((s.supersede p).wr Obj.ptfGauge p v).wr Obj.calBase p v

/-- What stood before a host write is kept for swatches under way (R438). -/
def State.gaugeBefore (s : State) (p : Nat) (w : GaugeWrite) : State :=
  { s with cal := { s.cal with host := Tbl.put (fun _ => none) s.cal.host p (some w) } }

/-- After a host write of a gauge of pin p. -/
structure GaugeWritten (p v : Nat) (s t : State) : Prop where
  gauge : t.rd Obj.ptfGauge p = v
  base : t.rd Obj.calBase p = v
  anchors : ∀ q < 6, t.anchor p q = none
  active : t.rd Obj.ptfGaugeActive p = if s.pinFree p then v else s.rd Obj.ptfGaugeActive p
  others : ∀ p' q, p' ≠ p → q < 6 → t.anchor p' q = s.anchor p' q
  kept : Keeps s t (gaugeEls p) [.cal]

theorem Keeps.pinFree {s t : State} {els : List (Nat × Nat)} {ps : List Part} (h : Keeps s t els ps) (he : ∀ n, (Obj.ndlPinset, n) ∉ els)
    (hp : .obj Obj.ndlPinset ∉ ps) (p : Nat) : t.pinFree p = s.pinFree p := by
  unfold State.pinFree
  simp only [h.rd _ _ (show Obj.ndlPinset < 65536 by decide) (he _) hp]

theorem ndlPinset_not_mem_gaugeEls (p n : Nat) : (Obj.ndlPinset, n) ∉ gaugeEls p := by
  simp [gaugeEls]

/-- R435: the gauge and its base are written, every quantity is committed and has no anchor. -/
def State.gaugeStored (s : State) (p v : Nat) : State := (List.range 6).foldl (fun s q => s.commitDrop p q) (s.gaugeWr p v)

/-- The pin's gauge in effect is not touched yet. -/
theorem State.gaugeStored_written (s : State) (p v : Nat) : (s.gaugeStored p v).rd Obj.ptfGauge p = v ∧ (s.gaugeStored p v).rd Obj.calBase p = v ∧
    (s.gaugeStored p v).rd Obj.ptfGaugeActive p = s.rd Obj.ptfGaugeActive p ∧ (∀ q < 6, (s.gaugeStored p v).anchor p q = none) ∧
    (∀ p' q, p' ≠ p → q < 6 → (s.gaugeStored p v).anchor p' q = s.anchor p' q) ∧ Keeps s (s.gaugeStored p v) (gaugeEls p) [.cal] := by
  have rd {o : Nat} (ho : o < 65536) : (s.gaugeStored p v).rd o p = (s.gaugeWr p v).rd o p :=
    List.foldlRecOn (motive := fun u : State => u.rd o p = (s.gaugeWr p v).rd o p) _ _ rfl fun u hu q _ => (u.commitDrop_rd p q p ho).trans hu
  refine ⟨?_, ?_, ?_, fun q hq => ?_, fun p' q' hp hq' => ?_, ?_⟩
  · rw [rd (by decide), State.gaugeWr, State.rd_wr_obj _ _ (by decide) (by decide) (by decide), State.rd_wr_self]
  · rw [rd (by decide), State.gaugeWr, State.rd_wr_self]
  · rw [rd (by decide), State.gaugeWr, State.rd_wr_obj _ _ (by decide) (by decide) (by decide), State.rd_wr_obj _ _ (by decide) (by decide) (by decide),
      (s.supersede_kept p).rd p (by decide) (by decide +kernel)]
  · exact (State.foldl_establishes (Inv := fun _ => True) (P := fun q u => u.anchor p q = none) (fun _ _ _ => trivial)
      (fun u q _ => u.commitDrop_anchor_self p q) (fun u q q' _ h => u.commitDrop_anchor_none p q q' h) _ _ trivial).2 q (.inl (List.mem_range.2 hq))
  · exact List.foldlRecOn (motive := fun u : State => u.anchor p' q' = s.anchor p' q') _ _
      (by rw [State.gaugeWr, State.wr_anchor, State.wr_anchor, State.supersede_anchor]) fun u hu q hq => (u.commitDrop_anchor_ne fun e => hp (calKey_inj (List.mem_range.1 hq) hq' e).1).trans hu
  · rw [State.gaugeStored]
    refine Keeps.foldl ?_ fun u q _ h => State.commitDrop_keeps h p q (by simp [gaugeEls]) (by decide +kernel)
    exact ((s.supersede_keeps p).wr v (by decide) (by simp [gaugeEls])).wr v (by decide) (by simp [gaugeEls])

theorem State.gaugeBefore_kept (s : State) (p : Nat) (w : GaugeWrite) : Kept pt.cal s (s.gaugeBefore p w) := by
  unfold State.gaugeBefore
  exact Kept.set_cal (by decide +kernel) (.refl ..)

@[simp] theorem State.gaugeBefore_rd (s : State) (p : Nat) (w : GaugeWrite) (o e : Nat) : (s.gaugeBefore p w).rd o e = s.rd o e := rfl

@[simp] theorem State.gaugeBefore_anchor (s : State) (p : Nat) (w : GaugeWrite) (p' q : Nat) : (s.gaugeBefore p w).anchor p' q = s.anchor p' q := rfl

/-- R454: the note of a pin is a write of CAL.PIN_STATUS. -/
theorem State.calNote_eq (s : State) (p : Nat) : ∃ x, s.calNote p = s.wr Obj.calPinStatus p x := ⟨_, rfl⟩

@[simp] theorem State.calNote_anchor (s : State) (p p' q : Nat) : (s.calNote p).anchor p' q = s.anchor p' q := by
  obtain ⟨x, e⟩ := s.calNote_eq p
  rw [e, State.wr_anchor]

theorem State.calNote_rd (s : State) (p : Nat) {o : Nat} (e : Nat) (ho : o < 65536) (h : o ≠ Obj.calPinStatus) : (s.calNote p).rd o e = s.rd o e := by
  obtain ⟨x, eq⟩ := s.calNote_eq p
  rw [eq, State.rd_wr_obj _ _ (by decide) ho h]

theorem Keeps.calNote {s t : State} {els : List (Nat × Nat)} {ps : List Part} (h : Keeps s t els ps) (p : Nat) (he : (Obj.calPinStatus, p) ∈ els) :
    Keeps s (t.calNote p) els ps := by
  obtain ⟨x, e⟩ := t.calNote_eq p
  exact e ▸ h.wr x (by decide) he

/-- R30: whether the gauge takes effect now, and the note of the pin. -/
def State.gaugeSettled (s : State) (p : Nat) (free : Bool) : State :=
  (if free then s.wr Obj.ptfGaugeActive p (s.rd Obj.ptfGauge p) else s).calNote p

/-- The gauge, its base and the anchors of a pin as they stand (R438). -/
def State.gaugeNow (s : State) (p : Nat) : GaugeWrite := ⟨s.now, s.rd Obj.ptfGauge p, s.rd Obj.calBase p, (List.range 6).map (s.anchor p)⟩

theorem State.hostGauge_eq (s : State) (p v : Nat) : s.hostGauge p v =
    ((s.gaugeStored p v).gaugeBefore p ((s.supersede p).gaugeNow p)).gaugeSettled p
      (((s.gaugeStored p v).gaugeBefore p ((s.supersede p).gaugeNow p)).pinFree p) := by
  rw [State.gaugeSettled, apply_ite (fun u : State => u.calNote p)]
  rfl

theorem State.gaugeSettled_rd (s : State) (p : Nat) (free : Bool) {o : Nat} (e : Nat) (ho : o < 65536) (hn : o ≠ Obj.calPinStatus) (ha : o ≠ Obj.ptfGaugeActive) :
    (s.gaugeSettled p free).rd o e = s.rd o e := by
  rw [State.gaugeSettled, State.calNote_rd _ _ _ ho hn]
  split
  · exact State.rd_wr_obj _ _ (by decide) ho ha
  · rfl

theorem State.gaugeSettled_active (s : State) (p : Nat) (free : Bool) :
    (s.gaugeSettled p free).rd Obj.ptfGaugeActive p = if free then s.rd Obj.ptfGauge p else s.rd Obj.ptfGaugeActive p := by
  rw [State.gaugeSettled, State.calNote_rd _ _ _ (by decide) (by decide)]
  split
  · exact State.rd_wr_self ..
  · rfl

theorem State.gaugeSettled_anchor (s : State) (p : Nat) (free : Bool) (p' q : Nat) : (s.gaugeSettled p free).anchor p' q = s.anchor p' q := by
  rw [State.gaugeSettled, State.calNote_anchor]
  split <;> rfl

theorem Keeps.gaugeSettled {s t : State} {els : List (Nat × Nat)} {ps : List Part} (h : Keeps s t els ps) (p : Nat) (free : Bool)
    (hn : (Obj.calPinStatus, p) ∈ els) (ha : (Obj.ptfGaugeActive, p) ∈ els) : Keeps s (t.gaugeSettled p free) els ps := by
  refine Keeps.calNote ?_ p hn
  split
  · exact h.wr _ (by decide) ha
  · exact h

/-- R30, R429: a host write stores the gauge and its base, drops the pin's anchors, and takes effect at once for a pin in no PINSET. -/
theorem State.hostGauge_written (s : State) (p v : Nat) : GaugeWritten p v s (s.hostGauge p v) := by
  obtain ⟨gauge, base, active, anchors, others, kept⟩ := s.gaugeStored_written p v
  have kept' := kept.kept (State.gaugeBefore_kept _ p ((s.supersede p).gaugeNow p)) (by decide +kernel)
  rw [State.hostGauge_eq, kept'.pinFree (ndlPinset_not_mem_gaugeEls p) (by decide) p]
  refine ⟨?_, ?_, fun q hq => ?_, ?_, fun p' q hp hq => ?_, kept'.gaugeSettled p _ (by simp [gaugeEls]) (by simp [gaugeEls])⟩
  · rw [State.gaugeSettled_rd _ _ _ _ (by decide) (by decide) (by decide), State.gaugeBefore_rd, gauge]
  · rw [State.gaugeSettled_rd _ _ _ _ (by decide) (by decide) (by decide), State.gaugeBefore_rd, base]
  · rw [State.gaugeSettled_anchor, State.gaugeBefore_anchor, anchors q hq]
  · rw [State.gaugeSettled_active, State.gaugeBefore_rd, State.gaugeBefore_rd, gauge, active]
  · rw [State.gaugeSettled_anchor, State.gaugeBefore_anchor, others p' q hp hq]

end Sys2Proof.Machine
end

section
namespace Sys2Proof.Machine
-- one declaration at a time, as in the laws: each `decide +kernel` waits for the declarations before it
set_option Elab.async false

/-- A frame that lists more. -/
theorem Keeps.mono {s t : State} {els els' : List (Nat × Nat)} {ps ps' : List Part} (h : Keeps s t els ps) (he : els ⊆ els') (hp : ps ⊆ ps') : Keeps s t els' ps' :=
  ⟨h.pending, fun o e ho ne np => h.rd o e ho (fun k => ne (he k)) (fun k => np (hp k)), fun p np ho => h.field p (fun k => np (hp k)) ho⟩

theorem GaugeWritten.rd_ne {p v : Nat} {s t : State} (h : GaugeWritten p v s t) {o e : Nat} (ho : o < 65536) (he : e ≠ p) : t.rd o e = s.rd o e :=
  h.kept.rd o e ho (by simp [gaugeEls, he]) (by simp)

theorem GaugeWritten.pinFree {p v : Nat} {s t : State} (h : GaugeWritten p v s t) (q : Nat) : t.pinFree q = s.pinFree q :=
  h.kept.pinFree (ndlPinset_not_mem_gaugeEls p) (by decide) q

/-- A gauge written to every pin of a list. -/
def State.gaugeAll (s : State) (els : List Nat) (v : Nat) : State := els.foldl (fun u p => u.hostGauge p v) s

/-- What a pin of a list that a gauge was written to shows, from the state s. -/
def GaugeShows (s : State) (v p : Nat) (t : State) : Prop :=
  t.rd Obj.ptfGauge p = v ∧ t.rd Obj.calBase p = v ∧ (∀ q < 6, t.anchor p q = none) ∧
    t.rd Obj.ptfGaugeActive p = if s.pinFree p then v else s.rd Obj.ptfGaugeActive p

/-- The PINSETs are as in s, and so is the gauge in effect of every pin in one. -/
def GaugeWaits (s t : State) : Prop :=
  (∀ p, t.pinFree p = s.pinFree p) ∧ ∀ p, s.pinFree p = false → t.rd Obj.ptfGaugeActive p = s.rd Obj.ptfGaugeActive p

theorem GaugeWaits.hostGauge {s u : State} (h : GaugeWaits s u) (p v : Nat) : GaugeWaits s (u.hostGauge p v) := by
  have w := u.hostGauge_written p v
  refine ⟨fun q => (w.pinFree q).trans (h.1 q), fun q hq => ?_⟩
  by_cases e : q = p
  · rw [e] at hq ⊢
    rw [w.active, h.1, hq]
    exact h.2 p hq
  · rw [w.rd_ne (by decide) e, h.2 q hq]

theorem GaugeWaits.shows {s u : State} (h : GaugeWaits s u) (p v : Nat) : GaugeShows s v p (u.hostGauge p v) := by
  have w := u.hostGauge_written p v
  refine ⟨w.gauge, w.base, w.anchors, ?_⟩
  rw [w.active, h.1]
  cases hf : s.pinFree p with
  | true => rfl
  | false => exact h.2 p hf

theorem GaugeShows.hostGauge {s u : State} {p q v : Nat} (h : GaugeShows s v q u) (hw : GaugeWaits s u) : GaugeShows s v q (u.hostGauge p v) := by
  by_cases e : q = p
  · exact e ▸ hw.shows q v
  · have w := u.hostGauge_written p v
    obtain ⟨gauge, base, anchors, active⟩ := h
    refine ⟨?_, ?_, fun i hi => (w.others q i e hi).trans (anchors i hi), ?_⟩
    · rw [w.rd_ne (by decide) e, gauge]
    · rw [w.rd_ne (by decide) e, base]
    · rw [w.rd_ne (by decide) e, active]

/-- R429: every pin of the list has the gauge, no other pin's anchors change. -/
theorem State.gaugeAll_written (s : State) (els : List Nat) (v : Nat) : (∀ p ∈ els, GaugeShows s v p (s.gaugeAll els v)) ∧
    (∀ p q, p ∉ els → q < 6 → (s.gaugeAll els v).anchor p q = s.anchor p q) ∧ Keeps s (s.gaugeAll els v) (els.flatMap gaugeEls) [.cal] := by
  refine ⟨fun p hp => ?_, fun p q hp hq => ?_, ?_⟩
  · exact (State.foldl_establishes (f := fun u p => u.hostGauge p v) (Inv := GaugeWaits s) (P := GaugeShows s v) (fun u p h => h.hostGauge p v)
      (fun u p h => h.shows p v) (fun u p q hw h => h.hostGauge hw) els s ⟨fun _ => rfl, fun _ _ => rfl⟩).2 p (.inl hp)
  · exact List.foldlRecOn (motive := fun u : State => u.anchor p q = s.anchor p q) els _ rfl
      fun u hu p' hp' => ((u.hostGauge_written p' v).others p q (fun e => hp (e ▸ hp')) hq).trans hu
  · exact Keeps.foldl (.refl ..) fun u p hp h => h.trans ((u.hostGauge_written p v).kept.mono (fun x hx => List.mem_flatMap.2 ⟨p, hp, hx⟩) (List.Subset.refl _))

theorem State.gaugeAll_kept (s : State) (els : List Nat) (v : Nat) : Kept km_hostGauge s (s.gaugeAll els v) :=
  Kept.foldl (fun _ _ h => h.trans (State.hostGauge_kept ..)) (.refl ..)

theorem State.effectTest_gauge (s : State) (p v : Nat) : (s.effectSys Obj.ptfGauge p v).effectTest Obj.ptfGauge p v = s.hostGauge p v := by
  simp (decide := true) only [State.effectSys, State.effectTest, if_true, if_false]

theorem State.commitWrite_gauge (s : State) (el v : Nat) (els : List Nat) : s.commitWrite Obj.ptfGauge el v els = (.of rOk, s.gaugeAll els v) := by
  have other : (Obj.ptfGauge ≠ Obj.ptfPinCfg ∧ Obj.ptfGauge ≠ Obj.devModeReq) ∧ Obj.ptfGauge ≠ Obj.fcrClear ∧ Obj.ptfGauge ≠ Obj.wdpTraceCtrl := by decide
  have kinds : unstored Obj.ptfGauge = true ∧ isStaged Obj.ptfGauge = false ∧ isService Obj.ptfGauge = false := by decide
  obtain ⟨⟨hp, hm⟩, hf, ht⟩ := other
  obtain ⟨hu, hs, hv⟩ := kinds
  simp only [State.commitWrite, hp, hm, hf, ht, hu, hs, hv, false_and, if_true, if_false, Bool.false_eq_true, State.effectTest_gauge, State.gaugeAll]

/-- R30, R429: an accepted write of PTF.GAUGE. -/
theorem gaugeWrite_effect {s : State} {n el : Nat} {v : Bytes} {x : Session} {r : ObjRow} {els : List Nat} (h : Accepts s n x r Obj.ptfGauge el v els) :
    Effect (.gaugeWrite n el v) s n x r Obj.ptfGauge el v els (fun b t => (∀ p ∈ els, GaugeShows b (ofLE v) p t) ∧
      (∀ p q, p ∉ els → q < 6 → t.anchor p q = b.anchor p q) ∧ t.out = b.out ++ [wrote n rOk 0xFFFF] ∧ Keeps b t (els.flatMap gaugeEls) [.cal, .out]) := by
  have commits (u : State) : u.commitCommand r Obj.ptfGauge el (ofLE v) els = (.of rOk, u.gaugeAll els (ofLE v)) :=
    (State.commitCommand_eq (fun hc => absurd hc (ty_ne_command h.row (by decide +kernel))) ..).trans (State.commitWrite_gauge ..)
  refine (h.effect_done (C := fun _ => True) (exec_gaugeWrite ..) (m := km_hostGauge) (by decide +kernel) (fun _ _ => trivial) (fun u _ => commits u)
    (fun u _ => u.gaugeAll_kept ..) (q := fun b t => (∀ p ∈ els, GaugeShows b (ofLE v) p t) ∧ (∀ p q, p ∉ els → q < 6 → t.anchor p q = b.anchor p q) ∧
      t.out = b.out ++ [wrote n rOk 0xFFFF] ∧ Keeps b t (els.flatMap gaugeEls) [.cal, .out]) (fun u _ => ?_)).imp fun _ _ k => k trivial
  obtain ⟨shows, others, kept⟩ := u.gaugeAll_written els (ofLE v)
  have out : (u.gaugeAll els (ofLE v)).out = u.out := (u.gaugeAll_kept els (ofLE v)).same .out (by decide +kernel)
  refine ⟨shows, others, congrArg (· ++ [wrote n rOk 0xFFFF]) out, Keeps.answered ?_ _ (by decide +kernel)⟩
  exact kept.mono (List.Subset.refl _) (by simp)

/-- Settles O45: frames by the state of the bank (`levelFrameEnd_ends`), host frames by their command (`takes_lvlHost`), supply entries (`supplyApply_takes`) and
host gauges (`gaugeWrite_effect`). -/
theorem levelsAndSuppliesAreSet : Obligations.LevelsAndSuppliesAreSet := by
  unfold Obligations.LevelsAndSuppliesAreSet
  refine ⟨fun s k f l h => ⟨fun ho => ?_, fun ho => ?_, fun miso ho => ?_, fun miso ho => ?_⟩, fun s k miso h => ⟨levelFrameStart_idle h, levelFrameEnd_idle miso h⟩,
    fun s n pin reg v bc rd x r hp hr hv h0 => ?_, fun s e hm first _ _ => ?_, fun s h => supplyApply_idle h, fun s n el v x r els h => ?_⟩
  · obtain ⟨first, others, keeps⟩ := s.frameOpened_starts k f l
    exact ⟨_, (exec_levelFrameStart ..).trans (execLevelFrameStart_closed h ho), rfl, first, rfl, others, keeps⟩
  · exact ⟨s, (exec_levelFrameStart ..).trans (execLevelFrameStart_open h ho), rfl⟩
  · obtain ⟨t, ex, ends, host, chart⟩ := levelFrameEnd_ends h miso ho
    exact ⟨t, ex, ends.now, ends.frames, ends.free, ends.banks, host, chart⟩
  · exact ⟨s, (exec_levelFrameEnd ..).trans (execLevelFrameEnd_closed h miso ho), rfl⟩
  · refine (takes_lvlHost hp hr hv bc rd h0).imp fun b t q => ?_
    obtain ⟨earliest, latest⟩ := b.hostStart_within (pin / 32)
    exact ⟨⟨_, earliest, latest, q.frames⟩, q.busy, q.banks, q.out, q.kept⟩
  · obtain ⟨t, ex, now, left, rampdown, takes⟩ := supplyApply_takes hm first
    refine ⟨t, ex, now, left, rampdown, fun h => ?_⟩
    obtain ⟨taken, clamped⟩ := takes h
    exact ⟨taken.stored, taken.step, clamped, taken.kept⟩
  · exact (gaugeWrite_effect h).imp fun b t ⟨shows, others, out, kept⟩ => ⟨shows, others, out, kept⟩

end Sys2Proof.Machine
end

section
namespace Sys2Proof.Machine
-- one declaration at a time, as in the laws: each `decide +kernel` waits for the declarations before it
set_option Elab.async false

/-! ### What a frog leaves of a site that has stopped (R168, R350) -/

/-- STOPPED of a site stays, and no source that was pending goes. -/
structure StopStays (i : Nat) (s t : State) : Prop where
  stopped : t.fld Obj.ptfSiteResult i F.ptfSiteResultStopped = s.fld Obj.ptfSiteResult i F.ptfSiteResultStopped
  grows : s.PendingGrows t

theorem StopStays.refl (i : Nat) (s : State) : StopStays i s s := ⟨rfl, fun _ h => h⟩

theorem StopStays.trans {i : Nat} {s t u : State} (h : StopStays i s t) (k : StopStays i t u) : StopStays i s u :=
  ⟨k.stopped.trans h.stopped, h.grows.trans k.grows⟩

/-- The parts in which a stopped site shows. -/
def stopShows : Nat := ob Obj.ptfSiteResult ||| ob Obj.iecPending

theorem Kept.stopStays {m : Nat} {s t : State} (i : Nat) (k : Kept m s t) (hm : m &&& stopShows = 0) : StopStays i s t :=
  ⟨k.fld_eq i _ (by decide) (testBit_off_of_land hm (by decide +kernel)), k.pendingGrows (testBit_off_of_land hm (by decide +kernel))⟩

theorem State.setResult_stopStays (s : State) (i j : Nat) {f : Fld} (v : Nat) (h : f.Apart F.ptfSiteResultStopped) : StopStays i s (s.setResult j f v) := by
  refine ⟨?_, (State.setResult_kept ..).pendingGrows (by decide +kernel)⟩
  unfold State.setResult
  by_cases hj : j = i
  · rw [hj, State.fld_setFld_apart _ _ _ _ _ _ h]
  · exact State.fld_setFld_ne _ _ _ _ (by decide) (by decide) (fun e => hj e.2.symm)

theorem State.frogResults_stopStays (s : State) (n cause i : Nat) : StopStays i s (s.frogResults n cause) := by
  have site (u : State) (act j : Nat) : StopStays i u (if bit act j = true then
      (if cause = 4 then (match (u.ndl n).before.find? (fun b => b.1 == j) with | some b => u.setResult j F.ptfSiteResultResult b.2 | none => u)
       else u.setResult j F.ptfSiteResultResult 3) else u.setResult j F.ptfSiteResultNeedleFrogged 1) := by
    split
    · split
      · split
        · exact u.setResult_stopStays i j _ (.inl (by decide))
        · exact .refl ..
      · exact u.setResult_stopStays i j _ (.inl (by decide))
    · exact u.setResult_stopStays i j _ (.inr (by decide))
  unfold State.frogResults
  extract_lets act old now _ u
  have start : StopStays i s u := (State.setNdl_kept ..).stopStays i (by decide +kernel)
  exact List.foldlRecOn (motive := StopStays i s) _ _ start fun v hv j _ => hv.trans (site v act j)

theorem State.frogMark_stopStays (s : State) (n cause i : Nat) (late : Bool) : StopStays i s (s.frogMark n cause late) := by
  refine ⟨?_, s.frogMark_pendingGrows n cause late⟩
  unfold State.frogMark
  split
  · exact Kept.fld_eq (m := ob Obj.ndlState ||| km_setStatus ||| km_ndlCount ||| km_latch)
      ((State.latch_kept ..).step (by decide +kernel) <| (State.ndlCount_kept ..).step (by decide +kernel) <| (State.ndlCount_kept ..).step (by decide +kernel) <|
        (State.setStatus_kept ..).step (by decide +kernel) <| (State.wr_kept s Obj.ndlState n 8).step (by decide +kernel) (.refl ..)) i _ (by decide) (by decide +kernel)
  · rw [(State.latch_kept ..).fld_eq i _ (by decide) (by decide +kernel), (State.ndlCount_kept ..).fld_eq i _ (by decide) (by decide +kernel),
      (State.frogResults_stopStays ..).stopped, (State.wr_kept s Obj.ndlState n 9).fld_eq i _ (by decide) (by decide +kernel)]

theorem State.frogBody_stopStays (s : State) (n c cause i : Nat) : StopStays i s (s.frogBody n c cause) := by
  refine ⟨?_, s.frogBody_pendingGrows n c cause⟩
  rw [State.frogBody, (State.frogMark_stopStays ..).stopped, (State.frogStop_kept ..).fld_eq i _ (by decide) (by decide +kernel),
    (State.frogParity_kept ..).fld_eq i _ (by decide) (by decide +kernel), (State.frogRoutine_kept ..).fld_eq i _ (by decide) (by decide +kernel), State.passFrogs,
    (State.setNdl_kept ..).fld_eq i _ (by decide) (by decide +kernel)]

theorem State.needlesEnded_stopStays (s : State) (e i : Nat) : StopStays i s (s.needlesEnded e) :=
  ⟨(State.needlesEnded_kept ..).fld_eq i _ (by decide) (by decide +kernel), fun src => s.needlesEnded_pending e src⟩

theorem State.frogAt_stopStays (s : State) (n c cause i : Nat) : StopStays i s (s.frogAt n c cause) := by
  by_cases hb : s.busyNeedle n = true
  · rw [State.frogAt_busy c cause hb]
    exact (s.frogBody_stopStays ..).trans (State.needlesEnded_stopStays ..)
  · have pass : StopStays i s (s.passFrogs n c) := (State.setNdl_kept ..).stopStays i (by decide +kernel)
    have status (u : State) : StopStays i u (u.setStatus n F.ndlStatusFrogCause cause) := (State.setStatus_kept ..).stopStays i (by decide +kernel)
    have idle : (!(s.passFrogs n c).busyNeedle n) = true := by rw [show (s.passFrogs n c).busyNeedle n = false from Bool.eq_false_of_not_eq_true hb]; rfl
    have e : s.frogAt n c cause =
        if ((s.passFrogs n c).ndl n).parked = some (c + 6 * vclkFs) ∧ cause < (s.passFrogs n c).status n F.ndlStatusFrogCause then
          (if ((s.passFrogs n c).setStatus n F.ndlStatusFrogCause cause).ndlState n = 9 then ((s.passFrogs n c).setStatus n F.ndlStatusFrogCause cause).frogResults n cause
            else (s.passFrogs n c).setStatus n F.ndlStatusFrogCause cause)
        else s.passFrogs n c := if_pos idle
    rw [e]
    split
    · split
      · exact (pass.trans (status _)).trans (State.frogResults_stopStays ..)
      · exact pass.trans (status _)
    · exact pass

theorem State.alsoUnder_stopStays (s before : State) (n c i : Nat) : StopStays i s (s.alsoUnder before n c) := by
  unfold State.alsoUnder
  split
  · split
    · rw [State.underFrog_eq, State.underRaise_eq]
      have note : Kept (ob Obj.strUnderrun) s (s.underNote n ‹_›) := (State.setFld_kept _ Obj.strUnderrun ..).step (by decide +kernel) <|
        (State.setFld_kept _ Obj.strUnderrun ..).step (by decide +kernel) <| (State.setFld_kept _ Obj.strUnderrun ..).step (by decide +kernel) <|
        (State.count_kept _ Obj.strUnderrun ..).step (by decide +kernel) (.refl ..)
      have raised (u : State) : StopStays i u (u.raise Ev.streamUnderrun n n 0 0 (some (2 ^ n)) true) :=
        ⟨(State.raise_kept ..).fld_eq i _ (by decide) (by decide +kernel), State.raise_pendingGrows _ _ _ _ _ _ _ _⟩
      exact ((note.stopStays i (by decide +kernel)).trans (raised _)).trans (State.frogAt_stopStays ..)
    · exact .refl ..
  · exact .refl ..

/-- R235: a frog of a needle that has issued no BIND_OFF before it is an event. -/
theorem State.frogBody_frogged (s : State) {n c : Nat} (cause : Nat) (h : (s.ndl n).boundBefore c = false) : (s.frogBody n c cause).srcPending Ev.ndlFrogged = true := by
  rw [State.frogBody, h, State.frogMark, if_neg Bool.false_ne_true]
  exact State.latch_pending ..

/-! ### The one flag under way reaches its needle (R168, R213, R350 to R352) -/

section
variable {s : State} {n : Nat} {f : Flag}

/-- The flag has reached the needle: its site has failed. -/
def State.flagTaken (s : State) (n : Nat) (f : Flag) : State :=
  s.setNdl n { s.ndl n with flags := [], failed := (s.ndl n).failed ||| (if f.site < 64 then 2 ^ f.site else 0) }

/-- The sticky fail of a busy needle. -/
def State.flagSticky (s : State) (n : Nat) (f : Flag) : State :=
  if s.busyNeedle n && f.sticky then (s.setNdl n { s.ndl n with sticky := (s.ndl n).sticky ++ [f.t] }).setStatus n F.ndlStatusStickyFail 1 else s

theorem State.flagSticky_kept (s : State) (n : Nat) (f : Flag) : Kept (km_setNdl ||| km_setStatus) s (s.flagSticky n f) :=
  Kept.ite (fun _ => (State.setStatus_kept ..).step (by decide +kernel) ((State.setNdl_kept ..).mono (by decide +kernel))) (fun _ => .refl ..)

/-- What a flag that does not stop its needle does. -/
def State.flagPassed (s : State) (n : Nat) (f : Flag) : State := (s.flagTaken n f).flagSticky n f

theorem State.flagPassed_kept (s : State) (n : Nat) (f : Flag) : Kept (km_setNdl ||| km_setStatus) s (s.flagPassed n f) :=
  (State.flagSticky_kept ..).step (by decide +kernel) ((State.setNdl_kept ..).mono (by decide +kernel))

theorem State.flagTaken_ndl (s : State) (n : Nat) (f : Flag) :
    (s.flagTaken n f).ndl n = { s.ndl n with flags := [], failed := (s.ndl n).failed ||| (if f.site < 64 then 2 ^ f.site else 0) } := State.setNdl_self ..

/-- The needle's flag is gone and its sites have failed; its run stands where it stood. -/
theorem State.flagPassed_ndl (s : State) (n : Nat) (f : Flag) :
    ∃ l, (s.flagPassed n f).ndl n = { s.ndl n with flags := [], failed := (s.ndl n).failed ||| (if f.site < 64 then 2 ^ f.site else 0), sticky := l } := by
  unfold State.flagPassed State.flagSticky
  split
  · exact ⟨_, by rw [(State.setStatus_kept ..).ndl_eq (by decide +kernel), State.setNdl_self, State.flagTaken_ndl]⟩
  · exact ⟨_, State.flagTaken_ndl ..⟩

theorem State.flagPassed_sticky (hs : f.sticky = true) (hb : s.busyNeedle n = true) :
    ((s.flagPassed n f).ndl n).sticky = (s.ndl n).sticky ++ [f.t] ∧ (s.flagPassed n f).status n F.ndlStatusStickyFail = 1 := by
  have e : s.flagPassed n f = ((s.flagTaken n f).setNdl n { (s.flagTaken n f).ndl n with sticky := ((s.flagTaken n f).ndl n).sticky ++ [f.t] }).setStatus n
      F.ndlStatusStickyFail 1 := if_pos (by rw [hs, show (s.flagTaken n f).busyNeedle n = true from hb]; rfl)
  rw [e, (State.setStatus_kept ..).ndl_eq (by decide +kernel), State.setNdl_self, State.flagTaken_ndl]
  exact ⟨rfl, State.fld_setFld_self ..⟩

/-- Whether flags stop the needle hangs on STOP_ON_FAIL and the sites that have failed. -/
theorem State.stops_congr {s t : State} (n : Nat) (l : List Flag) (hr : t.rd Obj.ptfStopOnFail n = s.rd Obj.ptfStopOnFail n)
    (hf : (t.ndl n).failed = (s.ndl n).failed) : t.stops n l = s.stops n l := by
  rw [State.stops, hr, hf]
  rfl

theorem State.stops_any (h : s.rd Obj.ptfStopOnFail n = 1) (hf : f.site < 64) : s.stops n [f] = true := by
  rw [State.stops, h]
  simpa using hf

/-- The flags that are due on the edge of the one flag. -/
theorem State.flagGroup_single (hf : (s.ndl n).flags = [f]) :
    s.flagGroup n f.due =
      if (s.busyNeedle n || (s.ndl n).parked == some (f.due + 6 * vclkFs)) && (s.flagPassed n f).stops n [f] then
        (((([f].filter (fun f => decide (f.site < 64))).foldl (fun s f => s.setResult f.site F.ptfSiteResultStopped 1) (s.flagPassed n f)).latch
          Ev.ptfStopped).frogAt n f.due 4)
      else s.flagPassed n f := by
  have rest : (s.ndl n).flags.filter (fun x => x.due != f.due) = [] := by simp [hf]
  have site : ofMembers (([f].map (·.site)).filter (fun i => decide (i < 64))) = if f.site < 64 then 2 ^ f.site else 0 := by
    by_cases h : f.site < 64 <;> simp [ofMembers, h]
  unfold State.flagGroup
  extract_lets r fs u live st _ v w
  have hfs : fs = [f] := by simp [fs, r, hf]
  have hst : st = if f.sticky then [f.t] else [] := by cases h : f.sticky <;> simp [st, hfs, h]
  have hu : u = s.flagTaken n f :=
    congrArg₂ (fun l x => s.setNdl n { s.ndl n with flags := l, failed := (s.ndl n).failed ||| x }) rest (by rw [hfs]; exact site)
  have hl : live = s.busyNeedle n := rfl
  have hv : v = u.flagSticky n f := by
    show (if u.busyNeedle n && !st.isEmpty then (u.setNdl n { u.ndl n with sticky := (u.ndl n).sticky ++ st }).setStatus n F.ndlStatusStickyFail 1 else u) = _
    rw [hst, State.flagSticky]
    cases f.sticky
    · rw [Bool.and_false]
      exact if_neg (by simp)
    · rfl
  have hw : w = ([f].filter (fun f => decide (f.site < 64))).foldl (fun s f => s.setResult f.site F.ptfSiteResultStopped 1) v := by
    rw [← hfs]
  rw [hw, hfs, hl, hv, hu]
  rfl

/-- No stop on fail: the needle takes the flag, and no more. -/
theorem State.flagGroup_goesOn (hf : (s.ndl n).flags = [f]) (h : (s.flagTaken n f).stops n [f] = false) :
    s.flagGroup n f.due = s.flagPassed n f := by
  have same : (s.flagPassed n f).stops n [f] = false := by
    obtain ⟨l, e⟩ := s.flagPassed_ndl n f
    rw [← h]
    exact State.stops_congr n [f] ((s.flagPassed_kept n f).rd n (by decide) (by decide +kernel)) (by rw [e, State.flagTaken_ndl])
  rw [State.flagGroup_single hf, same, Bool.and_false]
  exact if_neg Bool.false_ne_true

/-- The state in which a flag with STOP_ON_FAIL frogs its needle: the flag is taken, its site STOPPED, and PTF_STOPPED is latched. -/
def State.flagStopped (s : State) (n : Nat) (f : Flag) : State :=
  ((s.flagPassed n f).setResult f.site F.ptfSiteResultStopped 1).latch Ev.ptfStopped

theorem State.flagGroup_stops (hf : (s.ndl n).flags = [f]) (hr : s.rd Obj.ptfStopOnFail n = 1) (hs : f.site < 64) (hb : s.busyNeedle n = true) :
    s.flagGroup n f.due = (s.flagStopped n f).frogAt n f.due 4 := by
  have k := s.flagPassed_kept n f
  have stops : (s.flagPassed n f).stops n [f] = true := State.stops_any ((k.rd n (by decide) (by decide +kernel)).trans hr) hs
  have site : [f].filter (fun f => decide (f.site < 64)) = [f] := by simp [hs]
  rw [State.flagGroup_single hf, stops, hb, site]
  exact if_pos rfl

theorem exec_failFlag (s : State) (n : Nat) : exec (.failFlag n) s = settled (runFailFlag n s) := rfl

theorem runFailFlag_idle (hf : (s.ndl n).flags = []) : runFailFlag n s = .next s := by rw [runFailFlag, hf]

theorem runFailFlag_single (hf : (s.ndl n).flags = [f]) :
    runFailFlag n s = .next (((s.reach f.due).flagGroup n f.due).alsoUnder s n f.due) := by
  rw [runFailFlag, hf]
  rfl

theorem State.alsoUnder_busy {s before : State} {n : Nat} (c : Nat) (h : s.busyNeedle n = before.busyNeedle n) : s.alsoUnder before n c = s := by
  rw [State.alsoUnder, h]
  exact if_neg (by cases before.busyNeedle n <;> decide)

theorem State.flagPassed_keeps (s : State) (n : Nat) (f : Flag) : Keeps s (s.flagPassed n f) [(Obj.ndlStatus, n)] [.now, .ndls] := by
  have set (u : State) (r : NdlRt) (h : Keeps s u [(Obj.ndlStatus, n)] [.now, .ndls]) : Keeps s (u.setNdl n r) [(Obj.ndlStatus, n)] [.now, .ndls] :=
    h.kept (State.setNdl_kept ..) (by decide +kernel)
  have taken : Keeps s (s.flagTaken n f) [(Obj.ndlStatus, n)] [.now, .ndls] := set _ _ (.refl ..)
  unfold State.flagPassed State.flagSticky
  split
  · exact (set _ _ taken).setFld _ _ (by decide) (by simp)
  · exact taken

/-- R168, R350: a flag that does not stop the needle. -/
theorem failFlag_goesOn (hq : s.Quiet) (hf : (s.ndl n).flags = [f]) (h : (s.flagTaken n f).stops n [f] = false) :
    Next (.failFlag n) s (fun t => t.now = max s.now f.due ∧ (t.ndl n).flags = [] ∧
      (f.sticky = true → s.busyNeedle n = true → (t.ndl n).sticky = (s.ndl n).sticky ++ [f.t] ∧ t.status n F.ndlStatusStickyFail = 1) ∧
      Keeps s t [(Obj.ndlStatus, n)] [.now, .ndls]) := by
  have group : (s.reach f.due).flagGroup n f.due = (s.reach f.due).flagPassed n f := State.flagGroup_goesOn hf h
  have frame := ((Keeps.refl s [(Obj.ndlStatus, n)] [.now, .ndls]).kept (s.reach_kept f.due) (by decide +kernel)).trans ((s.reach f.due).flagPassed_keeps n f)
  have k := (s.reach f.due).flagPassed_kept n f
  have busy : ((s.reach f.due).flagPassed n f).busyNeedle n = s.busyNeedle n := by
    rw [State.busyNeedle, State.ndlState, k.rd n (by decide) (by decide +kernel)]
    rfl
  have run : runFailFlag n s = .next ((s.reach f.due).flagPassed n f) := by
    rw [runFailFlag_single hf, group, State.alsoUnder_busy _ busy]
  have stay : ((s.reach f.due).flagPassed n f).settle = (s.reach f.due).flagPassed n f :=
    hq.settle_eq (m := km_reach ||| (km_setNdl ||| km_setStatus)) (k.step (by decide +kernel) ((s.reach_kept f.due).mono (by decide +kernel))) (by decide +kernel)
      (k.same .results (by decide +kernel))
  obtain ⟨l, passed⟩ := (s.reach f.due).flagPassed_ndl n f
  exact ⟨_, by rw [exec_failFlag, run, settled, stay], k.now_eq (by decide +kernel), by rw [passed], fun hs hb => State.flagPassed_sticky hs hb, frame⟩

theorem State.flagStopped_kept (s : State) (n : Nat) (f : Flag) : Kept (km_setNdl ||| km_setStatus ||| km_setResult ||| km_latch) s (s.flagStopped n f) :=
  (State.latch_kept ..).step (by decide +kernel) <| (State.setResult_kept ..).step (by decide +kernel) ((s.flagPassed_kept n f).mono (by decide +kernel))

/-- R351: with STOP_ON_FAIL at 1 a failing site stops, and frogs its needle. -/
theorem failFlag_stops (hq : s.Quiet) (hf : (s.ndl n).flags = [f]) (hr : s.rd Obj.ptfStopOnFail n = 1) (hs : f.site < 64) (hb : s.busyNeedle n = true)
    (hd : (s.ndl n).bound = none) :
    Next (.failFlag n) s (fun t => t.now = max s.now f.due ∧ t.ndlState n = 9 ∧ (t.status n F.ndlStatusFrogCause = 4 ∨
        (t.status n F.ndlStatusFrogCause = 1 ∧ (t.active Ev.ucodeParity = true ∨ t.active Ev.streamUnderrun = true))) ∧
      (t.ndl n).park = some (f.due + 6 * vclkFs) ∧ t.fld Obj.ptfSiteResult f.site F.ptfSiteResultStopped = 1 ∧
      t.srcPending Ev.ptfStopped = true ∧ t.srcPending Ev.ndlFrogged = true ∧ Keeps s t [] (withFaults [.cal, .freeCtr, .ndls, .now, .ras, .results, .tae, .trans, .wdpLost, .wdpTrace, .obj Obj.calNeedleAge,
        .obj Obj.clkSyncArm, .obj Obj.clkSyncStatus, .obj Obj.devMode, .obj Obj.devModeReason, .obj Obj.devModeStamp, .obj Obj.devPrevMode,
        .obj Obj.hmsLoad, .obj Obj.ndlCounts, .obj Obj.ndlJumpStatus, .obj Obj.ndlState, .obj Obj.ndlStatus, .obj Obj.ndlTraceStatus,
        .obj Obj.ptfSiteResult, .obj Obj.rasBufferState, .obj Obj.rasCommitPending, .obj Obj.rasLayerActive, .obj Obj.rasState,
        .obj Obj.rqpPoolStatus, .obj Obj.strCounts, .obj Obj.strNextSeq, .obj Obj.strState, .obj Obj.strUnderrun,
        .obj Obj.wdpTraceStatus])) := by
  have k := (s.reach f.due).flagStopped_kept n f
  have busy : ((s.reach f.due).flagStopped n f).busyNeedle n = true := by
    rw [State.busyNeedle, State.ndlState, k.rd n (by decide) (by decide +kernel)]
    exact hb
  have bound : (((s.reach f.due).flagStopped n f).ndl n).boundBefore f.due = false := by
    obtain ⟨l, e⟩ := (s.reach f.due).flagPassed_ndl n f
    have none : (((s.reach f.due).flagStopped n f).ndl n).bound = none := by
      rw [State.flagStopped, (State.latch_kept ..).ndl_eq (by decide +kernel), (State.setResult_kept ..).ndl_eq (by decide +kernel), e]
      exact hd
    rw [NdlRt.boundBefore, none]
  have stopped : ((s.reach f.due).flagStopped n f).fld Obj.ptfSiteResult f.site F.ptfSiteResultStopped = 1 := by
    rw [State.flagStopped, (State.latch_kept ..).fld_eq _ _ (by decide) (by decide +kernel)]
    exact State.fld_setFld_self ..
  have latched : ((s.reach f.due).flagStopped n f).srcPending Ev.ptfStopped = true := State.latch_pending ..
  have run : runFailFlag n s = .next (((((s.reach f.due).flagStopped n f).frogBody n f.due 4).needlesEnded (f.due + 6 * vclkFs)).alsoUnder s n f.due) := by
    rw [runFailFlag_single hf, State.flagGroup_stops (s := s.reach f.due) hf hr hs hb, State.frogAt_busy _ _ busy]
  have kt := (runFailFlag_kept n s).kept
  generalize (s.reach f.due).flagStopped n f = v at k busy bound stopped latched run
  have rest : StopStays f.site (v.frogBody n f.due 4) (((v.frogBody n f.due 4).needlesEnded (f.due + 6 * vclkFs)).alsoUnder s n f.due) :=
    (State.needlesEnded_stopStays ..).trans (State.alsoUnder_stopStays ..)
  have stays := (v.frogBody_stopStays n f.due 4 f.site).trans rest
  have frog := ((v.frogBody_stands n f.due (cause := 4) (by decide)).needlesEnded (f.due + 6 * vclkFs)).alsoUnder s
  have frogged := rest.grows _ (v.frogBody_frogged 4 bound)
  have kn : Kept (frogParts ||| km_needlesEnded ||| km_alsoUnder) v (((v.frogBody n f.due 4).needlesEnded (f.due + 6 * vclkFs)).alsoUnder s n f.due) :=
    (State.alsoUnder_kept ..).step (by decide +kernel) <| (State.needlesEnded_kept ..).step (by decide +kernel) ((State.frogBody_kept ..).mono (by decide +kernel))
  generalize ((v.frogBody n f.due 4).needlesEnded (f.due + 6 * vclkFs)).alsoUnder s n f.due = t at run rest stays frog frogged kn
  have all : Kept km_runFailFlag s t := kt t run
  refine hq.next_settled (by rw [exec_failFlag, run]) all (by decide +kernel)
    ⟨?_, (frog.inTime bound).1, frog.recorded, ?_, stays.stopped.trans stopped, stays.grows _ latched, frogged, all.keeps _ _ (by decide +kernel)⟩ ?_
  · rw [kn.now_eq (by decide +kernel), k.now_eq (by decide +kernel)]
    rfl
  · rw [← NdlRt.standing_park, frog.standing]
    rfl
  · rintro u l ⟨now, state, cause, park, stop, ev, fr, frame⟩
    exact ⟨now, state, cause, park, stop, ev, fr, frame.kept (Kept.set_results (m := pt.results) (by decide +kernel) (.refl ..)) (by decide +kernel)⟩

/-- R213: no flag is under way. -/
theorem failFlag_idle (hq : s.Quiet) (hf : (s.ndl n).flags = []) : Next (.failFlag n) s (fun t => t = s) :=
  hq.next_self (by rw [exec_failFlag, runFailFlag_idle hf])

end

end Sys2Proof.Machine
end

section
namespace Sys2Proof.Machine
-- one declaration at a time, as in the laws: each `decide +kernel` waits for the declarations before it
set_option Elab.async false

/-! ### A failing stitch of a site (R344, R353) -/

/-- The failing stitches counted for a site, and its result. -/
def State.siteTally (s : State) (i : Nat) : Nat × Nat :=
  (s.fld Obj.ptfSiteResult i F.ptfSiteResultFailStitches, s.fld Obj.ptfSiteResult i F.ptfSiteResultResult)

theorem Kept.siteTally {m : Nat} {s t : State} (k : Kept m s t) (hm : m.testBit (Obj.ptfSiteResult + 64) = false) (i : Nat) : t.siteTally i = s.siteTally i :=
  congrArg₂ Prod.mk (k.fld_eq i _ (by decide) hm) (k.fld_eq i _ (by decide) hm)

theorem State.setFld_siteTally_ne (s : State) {i j : Nat} (f : Fld) (v : Nat) (h : i ≠ j) : (s.setFld Obj.ptfSiteResult j f v).siteTally i = s.siteTally i :=
  congrArg₂ Prod.mk (State.fld_setFld_ne _ _ _ _ (by decide) (by decide) (fun e => h e.2)) (State.fld_setFld_ne _ _ _ _ (by decide) (by decide) (fun e => h e.2))

/-- A field of PTF.SITE_RESULT that is neither the count of failing stitches nor the result. -/
abbrev Fld.OffTally (f : Fld) : Prop := 80 ≤ f.lo ∨ (8 ≤ f.lo ∧ f.lo + f.w ≤ 32)

theorem Fld.OffTally.apart {f : Fld} (h : f.OffTally) : f.Apart F.ptfSiteResultFailStitches ∧ f.Apart F.ptfSiteResultResult :=
  h.elim (fun h => ⟨.inr h, .inr (Nat.le_trans (by decide) h)⟩) fun h => ⟨.inl h.2, .inr h.1⟩

theorem State.setFld_siteTally (s : State) (i j : Nat) {f : Fld} (v : Nat) (h : f.OffTally) : (s.setFld Obj.ptfSiteResult j f v).siteTally i = s.siteTally i := by
  by_cases e : i = j
  · rw [e]
    exact congrArg₂ Prod.mk (State.fld_setFld_apart _ _ _ _ _ _ h.apart.1) (State.fld_setFld_apart _ _ _ _ _ _ h.apart.2)
  · exact s.setFld_siteTally_ne f v e

theorem State.count_siteTally (s : State) (i j : Nat) {f g : Fld} (v : Nat) (hf : f.OffTally) (hg : g.OffTally) :
    (s.count Obj.ptfSiteResult j f g v).siteTally i = s.siteTally i := by
  unfold State.count
  extract_lets x
  split
  · exact s.setFld_siteTally i j _ hf
  · exact (State.setFld_siteTally _ i j _ hg).trans (s.setFld_siteTally i j _ hf)

theorem State.count_siteTally_ne (s : State) {i j : Nat} (f g : Fld) (v : Nat) (h : i ≠ j) : (s.count Obj.ptfSiteResult j f g v).siteTally i = s.siteTally i := by
  unfold State.count
  extract_lets x
  split
  · exact s.setFld_siteTally_ne f _ h
  · exact (State.setFld_siteTally_ne _ g _ h).trans (s.setFld_siteTally_ne f _ h)

/-- What the fail logger and the pool change of a needle: its FIFO, and the results kept for a STOP_ON_FAIL on the same edge. -/
def NdlRt.logless (r : NdlRt) : NdlRt := { r with fifo := [], before := [] }

/-- No needle but n changes, and of that one the log alone; no site's tally changes. -/
structure LogsOnly (n : Nat) (s t : State) : Prop where
  others : ∀ m, m ≠ n → t.ndl m = s.ndl m
  run : (t.ndl n).logless = (s.ndl n).logless
  tally : ∀ i, t.siteTally i = s.siteTally i

theorem LogsOnly.refl (n : Nat) (s : State) : LogsOnly n s s := ⟨fun _ _ => rfl, rfl, fun _ => rfl⟩

theorem LogsOnly.trans {n : Nat} {s t u : State} (h : LogsOnly n s t) (k : LogsOnly n t u) : LogsOnly n s u :=
  ⟨fun m hm => (k.others m hm).trans (h.others m hm), k.run.trans h.run, fun i => (k.tally i).trans (h.tally i)⟩

/-- What a log may change only as LogsOnly says: the needles' runtime state and the sites' results. -/
def tallyShows : Nat := pt.ndls ||| ob Obj.ptfSiteResult

theorem Kept.logsOnly {m : Nat} {s t : State} (n : Nat) (k : Kept m s t) (hm : m &&& tallyShows = 0) : LogsOnly n s t where
  others i _ := k.ndl_eq (testBit_off_of_land hm (by decide +kernel)) i
  run := by rw [k.ndl_eq (testBit_off_of_land hm (by decide +kernel))]
  tally := k.siteTally (testBit_off_of_land hm (by decide +kernel))

theorem State.setNdl_logsOnly {s : State} {n : Nat} {r : NdlRt} (h : r.logless = (s.ndl n).logless) : LogsOnly n s (s.setNdl n r) where
  others m hm := State.setNdl_ne _ _ _ _ hm
  run := by rw [State.setNdl_self, h]
  tally _ := rfl

theorem State.setResult_logsOnly (s : State) (n j : Nat) {f : Fld} (v : Nat) (h : f.OffTally) : LogsOnly n s (s.setResult j f v) :=
  ⟨fun _ _ => rfl, rfl, fun i => s.setFld_siteTally i j v h⟩

/-- R368: a drop counts in its own fields. -/
theorem State.dropRec_logsOnly (s : State) (n qn stitch k : Nat) {cause : Nat} (hc : cause ≤ 6) : LogsOnly n s (s.dropRec qn cause stitch k) := by
  unfold State.dropRec
  split
  · exact .refl ..
  · rename_i q _
    extract_lets g u was v w x
    have noted : LogsOnly n s u := Kept.logsOnly (m := km_putQueue ||| km_rqpCount) n
      ((State.rqpCount_kept ..).step (by decide +kernel) ((State.putQueue_kept ..).mono (by decide +kernel))) (by decide +kernel)
    have counted : LogsOnly n u v := ⟨fun m _ => (State.count_kept _ Obj.ptfSiteResult ..).ndl_eq (by decide +kernel) m,
      by rw [(State.count_kept _ Obj.ptfSiteResult ..).ndl_eq (by decide +kernel)], fun i => u.count_siteTally i _ _ (by decide) (by decide)⟩
    have marked : LogsOnly n v w := v.setResult_logsOnly n _ _ (by decide)
    have caused : LogsOnly n w x := w.setResult_logsOnly n _ _ (.inr ⟨by dsimp only; omega, by dsimp only; omega⟩)
    have latched (y : State) : LogsOnly n y (y.latch Ev.siteLogIncomplete) := (State.latch_kept ..).logsOnly n (by decide +kernel)
    split
    · split
      · exact (((noted.trans counted).trans marked).trans caused).trans (latched _)
      · exact ((noted.trans counted).trans marked).trans caused
    · exact noted

/-- R353 to R355: the fail logger takes an entry, or drops it. -/
theorem State.logFail_logsOnly (s : State) (n : Nat) (e : FailEntry) : LogsOnly n s (s.logFail n e) := by
  unfold State.logFail
  extract_lets cfg x limit r u v w y
  split
  · exact .refl ..
  · split
    · have overrun : LogsOnly n s u := (State.count_kept _ Obj.ptfFailFifo ..).logsOnly n (by decide +kernel)
      split
      · exact overrun.trans (State.dropRec_logsOnly _ _ _ _ _ (by decide))
      · exact overrun
    · have entered : LogsOnly n s v := State.setNdl_logsOnly rfl
      have kept : LogsOnly n v y := Kept.logsOnly (m := ob Obj.ptfFailFifo ||| km_setSite) n
        ((State.setSite_kept ..).step (by decide +kernel) ((State.setFld_kept v Obj.ptfFailFifo ..).mono (by decide +kernel))) (by decide +kernel)
      split
      · exact (entered.trans kept).trans (State.setResult_logsOnly _ n _ _ (by decide))
      · exact entered.trans kept

/-- R344: a tally after one failing stitch more: INVALID stays, else the site is FAIL. -/
def tallied (p : Nat × Nat) : Nat × Nat := (counted 48 p.1 1, if p.2 = 3 then 3 else 2)

/-- A failing stitch is counted for site i, and for no other; of the needles, the log of n alone changes. -/
structure SiteFailed (n i : Nat) (s t : State) : Prop where
  others : ∀ m, m ≠ n → t.ndl m = s.ndl m
  run : (t.ndl n).logless = (s.ndl n).logless
  tally : t.siteTally i = tallied (s.siteTally i)
  rest : ∀ j, j ≠ i → t.siteTally j = s.siteTally j

theorem SiteFailed.between {n i : Nat} {s u v t : State} (h : LogsOnly n s u) (k : SiteFailed n i u v) (l : LogsOnly n v t) : SiteFailed n i s t where
  others m hm := ((l.others m hm).trans (k.others m hm)).trans (h.others m hm)
  run := (l.run.trans k.run).trans h.run
  tally := by rw [l.tally, k.tally, h.tally]
  rest j hj := by rw [l.tally, k.rest j hj, h.tally]

/-- The count of a failing stitch of a site, and its result. -/
def State.siteCounted (s : State) (n i : Nat) : State :=
  let u := s.count Obj.ptfSiteResult i F.ptfSiteResultFailStitches F.ptfSiteResultFailSat 1
  if s.fld Obj.ptfSiteResult i F.ptfSiteResultResult = 3 then
    u.setNdl n { u.ndl n with before := (u.ndl n).before.map (fun b => if b.1 = i then (i, 2) else b) }
  else u.setResult i F.ptfSiteResultResult 2

theorem State.siteCounted_failed (s : State) (n i : Nat) : SiteFailed n i s (s.siteCounted n i) := by
  have ndl (m : Nat) : (s.count Obj.ptfSiteResult i F.ptfSiteResultFailStitches F.ptfSiteResultFailSat 1).ndl m = s.ndl m :=
    (State.count_kept _ Obj.ptfSiteResult ..).ndl_eq (by decide +kernel) m
  have count : (s.count Obj.ptfSiteResult i F.ptfSiteResultFailStitches F.ptfSiteResultFailSat 1).fld Obj.ptfSiteResult i F.ptfSiteResultFailStitches =
      counted 48 (s.fld Obj.ptfSiteResult i F.ptfSiteResultFailStitches) 1 := State.fld_count _ _ _ _ _ _ (.inr (by decide))
  have result : (s.count Obj.ptfSiteResult i F.ptfSiteResultFailStitches F.ptfSiteResultFailSat 1).fld Obj.ptfSiteResult i F.ptfSiteResultResult =
      s.fld Obj.ptfSiteResult i F.ptfSiteResultResult := State.fld_count_apart _ _ _ _ _ _ _ (.inr (by decide)) (.inr (by decide))
  have rest (j : Nat) (hj : j ≠ i) := s.count_siteTally_ne F.ptfSiteResultFailStitches F.ptfSiteResultFailSat 1 hj
  unfold State.siteCounted
  extract_lets u
  have hu : u = s.count Obj.ptfSiteResult i F.ptfSiteResultFailStitches F.ptfSiteResultFailSat 1 := rfl
  clear_value u
  rw [← hu] at ndl count result rest
  by_cases h3 : s.fld Obj.ptfSiteResult i F.ptfSiteResultResult = 3
  · rw [if_pos h3]
    have before : LogsOnly n u (u.setNdl n { u.ndl n with before := (u.ndl n).before.map (fun b => if b.1 = i then (i, 2) else b) }) := State.setNdl_logsOnly rfl
    refine ⟨fun m hm => (before.others m hm).trans (ndl m), before.run.trans (congrArg NdlRt.logless (ndl n)), ?_, rest⟩
    exact congrArg₂ Prod.mk count (result.trans (h3.trans (if_pos h3).symm))
  · rw [if_neg h3]
    refine ⟨fun m _ => ndl m, congrArg NdlRt.logless (ndl n), congrArg₂ Prod.mk ?_ ?_, fun j hj => (u.setFld_siteTally_ne _ _ hj).trans (rest j hj)⟩
    · exact (State.fld_setFld_apart _ _ _ _ _ _ (.inl (by decide))).trans count
    · exact (State.fld_setFld_self ..).trans (if_neg h3).symm

/-- R344, R353: a failing stitch of a site: its first one is noted, it is counted, and it goes to the log. -/
theorem State.siteFail_failed (s : State) (n : Nat) (st : Stitch) (bad : List Seen) (i : Nat) : SiteFailed n i s (s.siteFail n st bad i) := by
  unfold State.siteFail
  extract_lets r u v _ w pins bits
  have first : LogsOnly n s u := by
    unfold u
    split
    · exact s.setResult_logsOnly n i _ (by decide)
    · exact .refl ..
  have mid : SiteFailed n i u w := by
    have same : Fld.get F.ptfSiteResultResult r = u.fld Obj.ptfSiteResult i F.ptfSiteResultResult := (congrArg Prod.snd (first.tally i)).symm
    have e : w = u.siteCounted n i := by
      unfold State.siteCounted
      rw [← same]
    rw [e]
    exact u.siteCounted_failed n i
  have logged : LogsOnly n w (if st.nolog = true then w else w.logFail n ⟨i, st.idx, st.course, st.tset, bits⟩) := by
    split
    · exact .refl ..
    · exact State.logFail_logsOnly ..
  exact .between first mid logged

/-- R348: a failing strobe of a pin, counted for that pin alone. -/
theorem State.pinFail_fails (s : State) (idx p : Nat) :
    (s.pinFail idx p).fld Obj.ptfPinFails p F.ptfPinFailsFails = counted 48 (s.fld Obj.ptfPinFails p F.ptfPinFailsFails) 1 := by
  unfold State.pinFail
  extract_lets u
  have first : u.fld Obj.ptfPinFails p F.ptfPinFailsFails = s.fld Obj.ptfPinFails p F.ptfPinFailsFails := by
    unfold u
    split
    · exact State.fld_setFld_apart _ _ _ _ _ _ (.inr (by decide))
    · rfl
  rw [← first]
  exact State.fld_count _ _ _ _ _ _ (.inr (by decide))

theorem State.pinFail_rd_ne (s : State) (idx : Nat) {p q : Nat} (h : q ≠ p) : (s.pinFail idx p).rd Obj.ptfPinFails q = s.rd Obj.ptfPinFails q := by
  have set (u : State) (f : Fld) (v : Nat) : (u.setFld Obj.ptfPinFails p f v).rd Obj.ptfPinFails q = u.rd Obj.ptfPinFails q :=
    State.rd_wr_ne u _ (by decide) (by decide) (fun e => h e.2)
  have count (u : State) (f g : Fld) (v : Nat) : (u.count Obj.ptfPinFails p f g v).rd Obj.ptfPinFails q = u.rd Obj.ptfPinFails q := by
    unfold State.count
    extract_lets x
    split
    · exact set ..
    · exact (set ..).trans (set ..)
  unfold State.pinFail
  extract_lets u
  rw [count]
  unfold u
  split
  · exact set ..
  · rfl

/-! ### A stitch's strobes (R313, R341 to R348) -/

/-- The failing strobes of a stitch that count: those of a site active on it. -/
def strobeHits (st : Stitch) (seen : List Seen) : List Seen := seen.filter (fun x => seenFails x && bit st.active x.1.site)

theorem strobeHits_eq (st : Stitch) (seen : List Seen) : (seen.filter seenFails).filter (fun x => bit st.active x.1.site) = strobeHits st seen := by
  rw [List.filter_filter, strobeHits]
  simp only [Bool.and_comm]

/-- R404 FAIL: the failing strobes reach the trigger units. -/
def State.taeFails (s : State) (bad : List Seen) : State := bad.foldl (fun s x => s.taeFail x.1.pin (s.edgeBefore vclkFs x.1.t) x.1.t) s

/-- R168, R213: every failing strobe sends a flag. -/
def State.flagsSent (s : State) (n : Nat) (st : Stitch) (act : List Seen) : State :=
  s.setNdl n { s.ndl n with flags := (s.ndl n).flags ++ act.map (fun x => ⟨s.flagEdge x.1.t, x.1.t, true, x.1.site, st.active⟩) }

/-- A MATCH pass after the strobes of one of its stitches (R165, R167). -/
def Pass.noted (p : Pass) (st : Stitch) (act : List Seen) : Pass :=
  if p.n = st.pass then
    { p with waiting := if st.strobes.isEmpty then p.waiting else p.waiting - 1, failed := p.failed ||| ofMembers (act.map (fun x => x.1.site)) } else p

/-- In a MATCH pass the failing strobes count for the pass. -/
def State.passNoted (s : State) (n : Nat) (st : Stitch) (act : List Seen) : State :=
  s.setNdl n { s.ndl n with passes := (s.ndl n).passes.map (fun p => p.noted st act) }

/-- R344: every site of a failing strobe has one failing stitch more. -/
def State.sitesFail (s : State) (n : Nat) (st : Stitch) (hits : List Seen) : State :=
  ((List.range 64).filter (fun i => hits.any (fun x => x.1.site == i))).foldl (fun s i => s.siteFail n st hits i) s

/-- R348: every pin of a failing strobe has one fail more. -/
def State.pinsFail (s : State) (idx : Nat) (hits : List Seen) : State :=
  ((List.range 256).filter (fun p => hits.any (fun x => x.1.pin == p))).foldl (fun s p => s.pinFail idx p) s

theorem State.taeFails_kept (s : State) (bad : List Seen) : Kept km_taeFail s (s.taeFails bad) :=
  Kept.foldl (fun _ _ h => h.trans (State.taeFail_kept ..)) (.refl ..)

theorem State.sitesFail_kept (s : State) (n : Nat) (st : Stitch) (hits : List Seen) : Kept km_siteFail s (s.sitesFail n st hits) :=
  Kept.foldl (fun _ _ h => h.trans (State.siteFail_kept ..)) (.refl ..)

theorem State.pinsFail_kept (s : State) (idx : Nat) (hits : List Seen) : Kept km_pinFail s (s.pinsFail idx hits) :=
  Kept.foldl (fun _ _ h => h.trans (State.pinFail_kept ..)) (.refl ..)

/-- What the counts of the failing sites leave of the needles. -/
theorem State.sitesFail_ndl (s : State) (n : Nat) (st : Stitch) (hits : List Seen) :
    (∀ m, m ≠ n → (s.sitesFail n st hits).ndl m = s.ndl m) ∧ ((s.sitesFail n st hits).ndl n).logless = (s.ndl n).logless := by
  unfold State.sitesFail
  refine List.foldlRecOn (motive := fun (t : State) => (∀ m, m ≠ n → t.ndl m = s.ndl m) ∧ (t.ndl n).logless = (s.ndl n).logless) _ _ ⟨fun _ _ => rfl, rfl⟩ ?_
  rintro u ⟨others, run⟩ i -
  have f := u.siteFail_failed n st hits i
  exact ⟨fun m hm => (f.others m hm).trans (others m hm), f.run.trans run⟩

theorem mem_hit_range {l : List Seen} {f : Seen → Nat} {k i : Nat} (hi : i < k) :
    i ∈ (List.range k).filter (fun j => l.any (fun x => f x == j)) ↔ ∃ x ∈ l, f x = i := by
  rw [List.mem_filter, List.mem_range, List.any_eq_true]
  simp [hi]

/-- R344: the tallies after a stitch's strobes. -/
theorem State.sitesFail_tally (s : State) (n : Nat) (st : Stitch) (hits : List Seen) {i : Nat} (hi : i < 64) :
    ((∃ x ∈ hits, x.1.site = i) → (s.sitesFail n st hits).siteTally i = tallied (s.siteTally i)) ∧
    ((∀ x ∈ hits, x.1.site ≠ i) → (s.sitesFail n st hits).siteTally i = s.siteTally i) := by
  obtain ⟨-, counted, rest⟩ := State.foldl_each (view := fun i s => s.siteTally i) (f := fun s i => s.siteFail n st hits i) (Inv := fun _ => True)
    (Ready := fun _ _ => True) (Goes := fun _ a b => b = tallied a) (fun _ _ _ _ => trivial) (fun u i _ _ => (u.siteFail_failed n st hits i).tally)
    (fun u i j _ _ hj => (u.siteFail_failed n st hits i).rest j hj) (List.nodup_range.filter (fun i => hits.any (fun x => x.1.site == i))) s trivial
    (fun _ _ => trivial)
  exact ⟨fun h => counted i ((mem_hit_range hi).2 h), fun h => rest i fun hm => by
    obtain ⟨x, hx, e⟩ := (mem_hit_range hi).1 hm
    exact h x hx e⟩

/-- R348: the pins' counts after a stitch's strobes. -/
theorem State.pinsFail_fails (s : State) (idx : Nat) (hits : List Seen) {p : Nat} (hp : p < 256) :
    ((∃ x ∈ hits, x.1.pin = p) → (s.pinsFail idx hits).fld Obj.ptfPinFails p F.ptfPinFailsFails = counted 48 (s.fld Obj.ptfPinFails p F.ptfPinFailsFails) 1) ∧
    ((∀ x ∈ hits, x.1.pin ≠ p) → (s.pinsFail idx hits).rd Obj.ptfPinFails p = s.rd Obj.ptfPinFails p) := by
  obtain ⟨-, one, rest⟩ := State.foldl_each (view := fun p s => s.rd Obj.ptfPinFails p) (f := fun s p => s.pinFail idx p) (Inv := fun _ => True)
    (Ready := fun _ _ => True) (Goes := fun _ a b => Fld.get F.ptfPinFailsFails b = counted 48 (Fld.get F.ptfPinFailsFails a) 1) (fun _ _ _ _ => trivial)
    (fun u p _ _ => u.pinFail_fails idx p) (fun u p q _ _ hq => u.pinFail_rd_ne idx hq)
    (List.nodup_range.filter (fun p => hits.any (fun x => x.1.pin == p))) s trivial (fun _ _ => trivial)
  exact ⟨fun h => one p ((mem_hit_range hp).2 h), fun h => rest p fun hm => by
    obtain ⟨x, hx, e⟩ := (mem_hit_range hp).1 hm
    exact h x hx e⟩

end Sys2Proof.Machine
end

section
namespace Sys2Proof.Machine
-- one declaration at a time, as in the laws: each `decide +kernel` waits for the declarations before it
set_option Elab.async false

section
variable {s : State} {n : Nat} {st : Stitch} {seen : List Seen}

theorem State.seenOf_strobe {samples : Samples} {x : Seen} (h : x ∈ s.seenOf st samples) : x.1 ∈ st.strobes := by
  obtain ⟨y, hy, rfl⟩ := List.mem_map.1 h
  exact List.fst_mem_of_mem_zipIdx hy

/-- No strobe of the stitch captures. -/
theorem State.seenOf_captureless {samples : Samples} (h : ∀ x ∈ st.strobes, x.act ≠ 4) : (s.seenOf st samples).filter (fun x => x.1.act == 4) = [] :=
  List.filter_eq_nil_iff.2 fun x hx => by simpa using h _ (State.seenOf_strobe hx)

theorem State.flagEdge_of_clk {s t : State} (h : t.clk = s.clk) (e : Nat) : t.flagEdge e = s.flagEdge e := by
  rw [State.flagEdge, State.edgeBefore, h]
  rfl

/-- The strobes of a stitch of no MATCH pass, on a needle whose pins have not been parked. -/
theorem State.evalStitch_stitch (hp : st.pass = 0) (hk : (s.ndl n).parked = none) (hs : (s.ndl n).streams = 0) (hc : seen.filter (fun x => x.1.act == 4) = []) :
    s.evalStitch n st seen =
      (((s.taeFails (seen.filter seenFails)).flagsSent n st (strobeHits st seen)).sitesFail n st (strobeHits st seen)).pinsFail st.idx (strobeHits st seen) := by
  have tae := (s.taeFails_kept (seen.filter seenFails)).ndl_eq (by decide +kernel) n
  unfold State.evalStitch
  extract_lets bad u r act counts v hits w x caps y
  have hact : act = strobeHits st seen := strobeHits_eq st seen
  have all : counts = fun _ => true := by
    funext z
    show (match r.parked with | some p => decide (z.1.t < p) | none => true) = true
    rw [show r.parked = none from (congrArg NdlRt.parked tae).trans hk]
  have hv : v = u.flagsSent n st (strobeHits st seen) := by
    unfold v
    rw [if_pos hp, all, hact]
    rfl
  have hhits : hits = strobeHits st seen := by
    unfold hits
    rw [if_pos hp, all, hact, List.filter_true]
  have hx : x = ((u.flagsSent n st (strobeHits st seen)).sitesFail n st (strobeHits st seen)).pinsFail st.idx (strobeHits st seen) := by
    unfold x w
    rw [hhits, hv]
    rfl
  have hy : y = x := if_pos (by rw [show caps = [] from hc]; rfl)
  have streams : (x.ndl n).streams = 0 := by
    rw [hx, (State.pinsFail_kept ..).ndl_eq (by decide +kernel)]
    refine (congrArg NdlRt.streams ((u.flagsSent n st (strobeHits st seen)).sitesFail_ndl n st (strobeHits st seen)).2).trans ?_
    rw [State.flagsSent, State.setNdl_self]
    exact (congrArg NdlRt.streams tae).trans hs
  rw [hy, streams, hx]
  rfl

/-- The strobes of a stitch of a MATCH pass. -/
theorem State.evalStitch_pass (hp : st.pass ≠ 0) (hs : (s.ndl n).streams = 0) (hc : seen.filter (fun x => x.1.act == 4) = []) :
    s.evalStitch n st seen = (s.taeFails (seen.filter seenFails)).passNoted n st (strobeHits st seen) := by
  have tae := (s.taeFails_kept (seen.filter seenFails)).ndl_eq (by decide +kernel) n
  unfold State.evalStitch
  extract_lets bad u r act counts v hits w x caps y
  have hv : v = u.passNoted n st (strobeHits st seen) := by
    unfold v
    rw [if_neg hp, show act = strobeHits st seen from strobeHits_eq st seen]
    rfl
  have none : hits = [] := if_neg hp
  have hx : x = u.passNoted n st (strobeHits st seen) := by
    unfold x w
    rw [none, hv]
    simp
  have hy : y = x := if_pos (by rw [show caps = [] from hc]; rfl)
  have streams : (x.ndl n).streams = 0 := by
    rw [hx, State.passNoted, State.setNdl_self]
    exact (congrArg NdlRt.streams tae).trans hs
  rw [hy, streams, hx]
  rfl

theorem exec_strobeResult (s : State) (n : Nat) (samples : Samples) : exec (.strobeResult n samples) s = execStrobeResult n samples s := rfl

/-- The last strobe instant of a stitch. -/
def Stitch.last (st : Stitch) : Nat := st.strobes.foldl (fun a x => max a x.t) 0

/-- The stitch that waited for its strobes is taken, on its last strobe. -/
def State.strobesTaken (s : State) (n : Nat) (st : Stitch) : State := (s.reach st.last).setNdl n { s.ndl n with strobes := [] }

theorem execStrobeResult_idle (samples : Samples) (h : (s.ndl n).strobes = []) : execStrobeResult n samples s = .next s := by
  rw [execStrobeResult, h]
  dsimp only [List.length_nil, State.popEmpty]
  rw [h]

theorem execStrobeResult_single (samples : Samples) (h : (s.ndl n).strobes = [st]) (hn : st.strobes ≠ []) :
    execStrobeResult n samples s = .next ((s.strobesTaken n st).evalStitch n st (s.seenOf st samples)) := by
  have pop : s.popEmpty [st].length n = s := by
    rw [List.length_singleton, State.popEmpty, h]
    exact if_neg (by rw [List.isEmpty_iff]; exact hn)
  rw [execStrobeResult, h, pop]
  dsimp only
  rw [h]
  rfl

theorem State.strobesTaken_ndl (s : State) (n : Nat) (st : Stitch) : (s.strobesTaken n st).ndl n = { s.ndl n with strobes := [] } := State.setNdl_self ..

theorem State.strobesTaken_kept (s : State) (n : Nat) (st : Stitch) : Kept (km_reach ||| km_setNdl) s (s.strobesTaken n st) :=
  (State.setNdl_kept ..).step (by decide +kernel) ((s.reach_kept _).mono (by decide +kernel))

theorem testBit_foldl_or (l : List Nat) (a i : Nat) : (l.foldl (fun a i => a ||| 2 ^ i) a).testBit i = (a.testBit i || l.any (fun j => j == i)) := by
  induction l generalizing a with
  | nil => simp
  | cons j l ih =>
    rw [List.foldl_cons, ih, Nat.testBit_or, Nat.testBit_two_pow, List.any_cons, Bool.or_assoc]
    rfl

/-- A number of a list is a member of the set made of it. -/
theorem bit_ofMembers (l : List Nat) (i : Nat) : bit (ofMembers l) i = l.any (fun j => j == i) := by
  rw [bit, ofMembers, testBit_foldl_or, Nat.zero_testBit, Bool.false_or]

/-- R165, R167: in a MATCH pass the strobes count for the pass alone. -/
theorem strobeResult_pass (samples : Samples) (h : (s.ndl n).strobes = [st]) (hn : st.strobes ≠ []) (hs : (s.ndl n).streams = 0)
    (hc : ∀ x ∈ st.strobes, x.act ≠ 4) (hp : st.pass ≠ 0) :
    Next (.strobeResult n samples) s (fun t => t.now = max s.now st.last ∧ (t.ndl n).strobes = [] ∧ (t.ndl n).flags = (s.ndl n).flags ∧
      (∀ p ∈ (t.ndl n).passes, p.n = st.pass → ∃ p0 ∈ (s.ndl n).passes, p0.n = st.pass ∧ p.waiting = p0.waiting - 1 ∧
        ∀ i, bit p.failed i = (bit p0.failed i || (strobeHits st (s.seenOf st samples)).any (fun x => x.1.site == i))) ∧ Keeps s t [] [.now, .ndls, .tae]) := by
  have eval := State.evalStitch_pass (s := s.strobesTaken n st) (n := n) (seen := s.seenOf st samples) hp (by rw [State.strobesTaken_ndl]; exact hs)
    (State.seenOf_captureless hc)
  have taken := s.strobesTaken_ndl n st
  have k := s.strobesTaken_kept n st
  have now : (s.strobesTaken n st).now = max s.now st.last := rfl
  refine ⟨_, by rw [exec_strobeResult, execStrobeResult_single samples h hn, eval], ?_⟩
  clear eval
  generalize s.strobesTaken n st = u at taken k now ⊢
  generalize strobeHits st (s.seenOf st samples) = hits
  have kt := u.taeFails_kept ((s.seenOf st samples).filter seenFails)
  have tae := (kt.ndl_eq (by decide +kernel) n).trans taken
  generalize u.taeFails ((s.seenOf st samples).filter seenFails) = v at kt tae ⊢
  have ndl : (v.passNoted n st hits).ndl n = { s.ndl n with strobes := [], passes := (s.ndl n).passes.map (fun p => p.noted st hits) } := by
    rw [State.passNoted, State.setNdl_self, tae]
  refine ⟨(kt.now_eq (by decide +kernel)).trans now, by rw [ndl], by rw [ndl], ?_, ?_⟩
  · rw [ndl]
    intro p hm hpass
    obtain ⟨p0, h0, rfl⟩ := List.mem_map.1 hm
    by_cases e : p0.n = st.pass
    · refine ⟨p0, h0, e, ?_, fun i => ?_⟩
      · rw [Pass.noted, if_pos e]
        exact if_neg (by rw [List.isEmpty_iff]; exact hn)
      · rw [Pass.noted, if_pos e]
        dsimp only
        rw [bit, Nat.testBit_or]
        refine congrArg (_ || ·) ((bit_ofMembers ..).trans ?_)
        rw [List.any_map]
        rfl
    · rw [Pass.noted, if_neg e] at hpass
      exact absurd hpass e
  · exact Kept.keeps (m := km_reach ||| km_setNdl ||| km_taeFail)
      ((State.setNdl_kept ..).step (by decide +kernel) <| kt.step (by decide +kernel) (k.mono (by decide +kernel))) _ _ (by decide +kernel)

/-- R341 to R348: outside a MATCH pass the failing strobes count for their sites and pins, and each sends a flag. -/
theorem strobeResult_stitch (samples : Samples) (h : (s.ndl n).strobes = [st]) (hn : st.strobes ≠ []) (hs : (s.ndl n).streams = 0)
    (hc : ∀ x ∈ st.strobes, x.act ≠ 4) (hp : st.pass = 0) (hk : (s.ndl n).parked = none) :
    let hits := strobeHits st (s.seenOf st samples)
    Next (.strobeResult n samples) s (fun t => t.now = max s.now st.last ∧ (t.ndl n).strobes = [] ∧
      (t.ndl n).flags = (s.ndl n).flags ++ hits.map (fun x => ⟨s.flagEdge x.1.t, x.1.t, true, x.1.site, st.active⟩) ∧
      (∀ i < 64, ((∃ x ∈ hits, x.1.site = i) → t.siteTally i = tallied (s.siteTally i)) ∧ ((∀ x ∈ hits, x.1.site ≠ i) → t.siteTally i = s.siteTally i)) ∧
      (∀ p < 256, ((∃ x ∈ hits, x.1.pin = p) → t.fld Obj.ptfPinFails p F.ptfPinFailsFails = counted 48 (s.fld Obj.ptfPinFails p F.ptfPinFailsFails) 1) ∧
        ((∀ x ∈ hits, x.1.pin ≠ p) → t.rd Obj.ptfPinFails p = s.rd Obj.ptfPinFails p)) ∧
      (∀ m, m ≠ n → t.ndl m = s.ndl m) ∧
      Keeps s t [] (withSignals [.ndls, .now, .queues, .sites, .tae, .obj Obj.ptfFailFifo, .obj Obj.ptfPinFails, .obj Obj.ptfSiteResult, .obj Obj.rqpCounts])) := by
  intro hits
  have eval : (s.strobesTaken n st).evalStitch n st (s.seenOf st samples) =
      ((((s.strobesTaken n st).taeFails ((s.seenOf st samples).filter seenFails)).flagsSent n st hits).sitesFail n st hits).pinsFail st.idx hits :=
    State.evalStitch_stitch hp (by rw [State.strobesTaken_ndl]; exact hk) (by rw [State.strobesTaken_ndl]; exact hs) (State.seenOf_captureless hc)
  have taken := s.strobesTaken_ndl n st
  have others (m : Nat) (hm : m ≠ n) : (s.strobesTaken n st).ndl m = s.ndl m := State.setNdl_ne _ _ _ _ hm
  have k := s.strobesTaken_kept n st
  have now : (s.strobesTaken n st).now = max s.now st.last := rfl
  have clk : (s.strobesTaken n st).clk = s.clk := rfl
  refine ⟨_, by rw [exec_strobeResult, execStrobeResult_single samples h hn, eval], ?_⟩
  clear eval
  generalize s.strobesTaken n st = u at taken others k now clk ⊢
  clear_value hits
  have kt := u.taeFails_kept ((s.seenOf st samples).filter seenFails)
  generalize u.taeFails ((s.seenOf st samples).filter seenFails) = v at kt ⊢
  have tae (m : Nat) : v.ndl m = u.ndl m := kt.ndl_eq (by decide +kernel) m
  have edge (e : Nat) : v.flagEdge e = s.flagEdge e := State.flagEdge_of_clk ((kt.same .clk (by decide +kernel)).trans clk) e
  have sent : (v.flagsSent n st hits).ndl n =
      { s.ndl n with strobes := [], flags := (s.ndl n).flags ++ hits.map (fun x => ⟨s.flagEdge x.1.t, x.1.t, true, x.1.site, st.active⟩) } := by
    rw [State.flagsSent, State.setNdl_self, tae, taken]
    simp only [edge]
  have kf : Kept (km_reach ||| km_setNdl ||| km_taeFail) s (v.flagsSent n st hits) :=
    (State.setNdl_kept ..).step (by decide +kernel) <| kt.step (by decide +kernel) (k.mono (by decide +kernel))
  have sentOthers (m : Nat) (hm : m ≠ n) : (v.flagsSent n st hits).ndl m = s.ndl m := (State.setNdl_ne _ _ _ _ hm).trans ((tae m).trans (others m hm))
  have sentNow : (v.flagsSent n st hits).now = max s.now st.last := (kt.now_eq (by decide +kernel)).trans now
  generalize v.flagsSent n st hits = w at sent kf sentOthers sentNow ⊢
  have ks := w.sitesFail_kept n st hits
  obtain ⟨siteOthers, siteRun⟩ := w.sitesFail_ndl n st hits
  have tally {i : Nat} (hi : i < 64) := w.sitesFail_tally n st hits hi
  generalize w.sitesFail n st hits = y at ks siteOthers siteRun tally ⊢
  have kp := y.pinsFail_kept st.idx hits
  have pins {p : Nat} (hp : p < 256) := y.pinsFail_fails st.idx hits hp
  generalize y.pinsFail st.idx hits = t at kp pins ⊢
  have run : (t.ndl n).logless = (w.ndl n).logless := (congrArg NdlRt.logless (kp.ndl_eq (by decide +kernel) n)).trans siteRun
  rw [sent] at run
  have first (i : Nat) : w.siteTally i = s.siteTally i := kf.siteTally (by decide +kernel) i
  have last (i : Nat) : t.siteTally i = y.siteTally i := kp.siteTally (by decide +kernel) i
  have pin (p : Nat) : y.rd Obj.ptfPinFails p = s.rd Obj.ptfPinFails p := (ks.rd p (by decide) (by decide +kernel)).trans (kf.rd p (by decide) (by decide +kernel))
  refine ⟨?_, congrArg NdlRt.strobes run, congrArg NdlRt.flags run, fun i hi => ?_, fun p hp => ?_, fun m hm => ?_, ?_⟩
  · rw [kp.now_eq (by decide +kernel), ks.now_eq (by decide +kernel), sentNow]
  · rw [last, ← first]
    exact tally hi
  · rw [State.fld, State.fld, ← pin]
    exact pins hp
  · rw [kp.ndl_eq (by decide +kernel), siteOthers m hm, sentOthers m hm]
  · exact Kept.keeps (m := km_reach ||| km_setNdl ||| km_taeFail ||| km_siteFail ||| km_pinFail)
      (kp.step (by decide +kernel) <| ks.step (by decide +kernel) (kf.mono (by decide +kernel))) _ _ (by decide +kernel)

/-- R313: no stitch waits for its strobes. -/
theorem strobeResult_idle (samples : Samples) (h : (s.ndl n).strobes = []) : Next (.strobeResult n samples) s (fun t => t = s) :=
  ⟨s, by rw [exec_strobeResult, execStrobeResult_idle samples h], rfl⟩

end

/-- Settles O43: a stitch's strobes are seen as one fold over the failing sites and one over the failing pins, of which each leaves the others' tallies alone; a flag
with a stop frogs its needle as any frog does, and neither the frog nor an under-run on its edge touches STOPPED. -/
theorem strobesAreEvaluated : Obligations.StrobesAreEvaluated := by
  unfold Obligations.StrobesAreEvaluated
  intro s n _
  refine ⟨fun st samples h hn hs hc => ⟨fun hp hk => ?_, fun hp => strobeResult_pass samples h hn hs hc hp⟩, fun samples h => strobeResult_idle samples h,
    fun hq f hf => ⟨fun h => ?_, fun hr hs hb hd => failFlag_stops hq hf hr hs hb hd⟩, fun hq hf => failFlag_idle hq hf⟩
  · obtain ⟨t, ht, now, strobes, flags, tally, rest⟩ := strobeResult_stitch samples h hn hs hc hp hk
    refine ⟨t, ht, now, strobes, flags, fun i hi => ⟨fun hit => ?_, fun miss => ?_⟩, rest⟩
    · exact Prod.mk.inj ((tally i hi).1 hit)
    · exact Prod.mk.inj ((tally i hi).2 miss)
  · refine failFlag_goesOn hq hf ?_
    rw [← h]
    exact State.stops_congr n [f] rfl (by rw [State.flagTaken, State.setNdl_self, State.setNdl_self])

end Sys2Proof.Machine
end

section
namespace Sys2Proof.Machine
-- one declaration at a time, as in the laws: each `decide +kernel` waits for the declarations before it
set_option Elab.async false

/-! ### A queue and the records that follow it (R355 to R358, R387) -/

theorem Kept.queue_eq {m : Nat} {s t : State} (k : Kept m s t) (hm : m.testBit 36 = false) (qn : Nat) : t.queue qn = s.queue qn := by
  rw [State.queue, show t.queues = s.queues from k.same .queues hm, State.queue]

/-- R387: MIN_FREE and FREE_CELLS follow the pool's cells. -/
def State.cellsNoted (s : State) : State :=
  let u := s.setFld Obj.rqpPoolStatus 0 F.rqpPoolStatusFreeCells s.freeCells
  u.setFld Obj.rqpPoolStatus 0 F.rqpPoolStatusMinFree (min s.freeCells (u.fld Obj.rqpPoolStatus 0 F.rqpPoolStatusMinFree))

theorem State.cellsNoted_exhausted (s : State) :
    s.cellsNoted.fld Obj.rqpPoolStatus 0 F.rqpPoolStatusExhausted = s.fld Obj.rqpPoolStatus 0 F.rqpPoolStatusExhausted :=
  (State.fld_setFld_apart _ _ _ _ _ _ (.inl (by decide))).trans (State.fld_setFld_apart _ _ _ _ _ _ (.inl (by decide)))

/-- R367: only an exhausted pool can resume. -/
theorem State.poolNote_of_open {s : State} (h : s.fld Obj.rqpPoolStatus 0 F.rqpPoolStatusExhausted = 0) : s.poolNote = s.cellsNoted :=
  if_neg fun c => by
    have e : s.cellsNoted.fld Obj.rqpPoolStatus 0 F.rqpPoolStatusExhausted = 1 := c.1
    rw [s.cellsNoted_exhausted, h] at e
    cases e

section
variable {s t : State} {els : List (Nat × Nat)} {ps : List Part} {qn : Nat} {q : Queue}

theorem Keeps.cellsNoted (h : Keeps s t els ps) (he : (Obj.rqpPoolStatus, 0) ∈ els) : Keeps s t.cellsNoted els ps :=
  (h.setFld _ _ (by decide) he).setFld _ _ (by decide) he

theorem Keeps.poolNote (h : Keeps s t els ps) (he : (Obj.rqpPoolStatus, 0) ∈ els) (hm : km_latch ||| maskOf ps = maskOf ps) : Keeps s t.poolNote els ps := by
  by_cases c : t.cellsNoted.fld Obj.rqpPoolStatus 0 F.rqpPoolStatusExhausted = 1 ∧
      t.cellsNoted.fld Obj.rqpPoolCfg 0 F.rqpPoolCfgResumeCells ≤ t.freeCells
  · rw [show t.poolNote = (t.cellsNoted.setFld Obj.rqpPoolStatus 0 F.rqpPoolStatusExhausted 0).latch Ev.rqpResumed from if_pos c]
    exact ((h.cellsNoted he).setFld _ _ (by decide) he).kept (State.latch_kept ..) hm
  · rw [show t.poolNote = t.cellsNoted from if_neg c]
    exact h.cellsNoted he

/-- The elements that follow a queue's cells and its pending bytes. -/
abbrev queueEls (q : Queue) : List (Nat × Nat) := [(Obj.rqpPoolStatus, 0), (Obj.rqpSiteQueue, q.flow), (Obj.rqpNeedleQueue, q.flow - 64)]

theorem Keeps.queueNote (h : Keeps s t els ps) (hq : t.queue qn = some q) (he : queueEls q ⊆ els) : Keeps s (t.queueNote qn) els ps := by
  unfold State.queueNote
  rw [hq]
  dsimp only
  split
  · exact h.wr _ (by decide) (he (by simp))
  · split
    · exact h.wr _ (by decide) (he (by simp))
    · exact h

theorem State.setQueue_self (s : State) (qn : Nat) (q : Queue) : (s.setQueue qn q).queue qn = some q := by
  rw [State.setQueue, (State.queueNote_kept ..).queue_eq (by decide +kernel), (State.poolNote_kept _).queue_eq (by decide +kernel), State.putQueue_self]

/-- The pool's records follow a queue; an exhaustion may end. -/
theorem Keeps.setQueue (h : Keeps s t els ps) (he : queueEls q ⊆ els) (hq : km_putQueue ||| maskOf ps = maskOf ps) (hm : km_latch ||| maskOf ps = maskOf ps) :
    Keeps s (t.setQueue qn q) els ps := by
  have put : Keeps s (t.putQueue qn (some q)) els ps := h.kept (State.putQueue_kept ..) hq
  refine (put.poolNote (he (by simp)) hm).queueNote ?_ he
  rw [(State.poolNote_kept _).queue_eq (by decide +kernel), State.putQueue_self]

/-- As `Keeps.setQueue`, where the pool is not exhausted: nothing is signalled. -/
theorem Keeps.setQueue_open (h : Keeps s t els ps) (he : queueEls q ⊆ els) (hq : km_putQueue ||| maskOf ps = maskOf ps)
    (ho : t.fld Obj.rqpPoolStatus 0 F.rqpPoolStatusExhausted = 0) :
    Keeps s (t.setQueue qn q) els ps := by
  have put : Keeps s (t.putQueue qn (some q)) els ps := h.kept (State.putQueue_kept ..) hq
  rw [State.setQueue, State.poolNote_of_open (s := t.putQueue qn (some q)) ho]
  refine (put.cellsNoted (he (by simp))).queueNote ?_ he
  exact t.putQueue_self qn (some q)

end

/-! ### A log becomes INCOMPLETE (R368) -/

/-- A log is marked with a cause of its incompleteness. -/
def State.markIncomplete (s : State) (site cause : Nat) : State :=
  (s.setResult site F.ptfSiteResultLogIncomplete 1).setFld Obj.ptfSiteResult site ⟨16 + (cause - 1), 1⟩ 1

theorem State.incomplete_eq (s : State) (site cause : Nat) : s.incomplete site cause =
    if s.fld Obj.ptfSiteResult site F.ptfSiteResultLogIncomplete = 0 then (s.markIncomplete site cause).latch Ev.siteLogIncomplete
    else s.markIncomplete site cause := rfl

/-- The site's results are those of its marked log: its source has no part in them. -/
theorem State.incomplete_fld (s : State) (site cause : Nat) (f : Fld) :
    (s.incomplete site cause).fld Obj.ptfSiteResult site f = (s.markIncomplete site cause).fld Obj.ptfSiteResult site f := by
  rw [State.incomplete_eq]
  split
  · exact (State.latch_kept ..).fld_eq _ _ (by decide) (by decide +kernel)
  · rfl

theorem State.incomplete_marks (s : State) (site cause : Nat) : (s.incomplete site cause).fld Obj.ptfSiteResult site F.ptfSiteResultLogIncomplete = 1 ∧
    (s.incomplete site cause).fld Obj.ptfSiteResult site ⟨16 + (cause - 1), 1⟩ = 1 := by
  rw [State.incomplete_fld, State.incomplete_fld]
  refine ⟨?_, State.fld_setFld_self ..⟩
  exact (State.fld_setFld_apart _ _ _ _ _ _ (.inr (by dsimp only; omega))).trans (State.fld_setFld_self ..)

theorem State.incomplete_dropped (s : State) (site : Nat) {cause : Nat} (hc : cause ≤ 6) :
    (s.incomplete site cause).fld Obj.ptfSiteResult site F.ptfSiteResultDropped = s.fld Obj.ptfSiteResult site F.ptfSiteResultDropped := by
  rw [State.incomplete_fld]
  exact (State.fld_setFld_apart _ _ _ _ _ _ (.inl (by dsimp only; omega))).trans (State.fld_setFld_apart _ _ _ _ _ _ (.inl (by decide)))

theorem Keeps.incomplete {s t : State} {els : List (Nat × Nat)} {ps : List Part} (h : Keeps s t els ps) {site : Nat} (cause : Nat)
    (he : (Obj.ptfSiteResult, site) ∈ els) (hm : km_latch ||| maskOf ps = maskOf ps) : Keeps s (t.incomplete site cause) els ps := by
  have mark : Keeps s (t.markIncomplete site cause) els ps := (h.setFld _ _ (by decide) he).setFld _ _ (by decide) he
  rw [State.incomplete_eq]
  split
  · exact mark.kept (State.latch_kept ..) hm
  · exact mark

/-- R369: the gap of a queue after k drops more. -/
def Queue.gapAfter (q : Queue) (cause stitch k : Nat) : Nat × Nat × Nat :=
  if q.gap.1 = 0 then (k, cause, stitch) else (q.gap.1 + k, q.gap.2.1, q.gap.2.2)

/-- A drop counted by the pool and for its site. -/
def State.dropCounted (s : State) (qn : Nat) (q : Queue) (cause stitch k : Nat) : State :=
  ((s.putQueue qn (some { q with gap := q.gapAfter cause stitch k })).rqpCount 1 k).count Obj.ptfSiteResult q.flow F.ptfSiteResultDropped
    F.ptfSiteResultDroppedSat k

/-- R368: a drop of a site's queue is counted, and its log is INCOMPLETE. -/
theorem State.dropRec_site {s : State} {qn : Nat} {q : Queue} (hq : s.queue qn = some q) (hs : q.flow < 64) (cause stitch k : Nat) :
    s.dropRec qn cause stitch k = (s.dropCounted qn q cause stitch k).incomplete q.flow cause := by
  have was := State.fld_count_apart ((s.putQueue qn (some { q with gap := q.gapAfter cause stitch k })).rqpCount 1 k) Obj.ptfSiteResult q.flow
    F.ptfSiteResultDropped F.ptfSiteResultDroppedSat F.ptfSiteResultLogIncomplete k (.inr (by decide)) (.inr (by decide))
  rw [State.incomplete_eq, State.dropCounted, was]
  unfold State.dropRec
  rw [hq]
  exact if_pos hs

/-- What a drop of a site's queue leaves. -/
structure RecordDropped (q : Queue) (k : Nat) (s t : State) : Prop where
  dropped : t.fld Obj.ptfSiteResult q.flow F.ptfSiteResultDropped = counted 48 (s.fld Obj.ptfSiteResult q.flow F.ptfSiteResultDropped) k
  incomplete : t.fld Obj.ptfSiteResult q.flow F.ptfSiteResultLogIncomplete = 1
  kept : Keeps s t [(Obj.rqpCounts, 0), (Obj.ptfSiteResult, q.flow)] (withSignals [.queues])

theorem State.dropRec_drops {s : State} {qn : Nat} {q : Queue} (hq : s.queue qn = some q) (hs : q.flow < 64) {cause : Nat} (hc : cause ≤ 6) (stitch k : Nat) :
    RecordDropped q k s (s.dropRec qn cause stitch k) := by
  have before : Kept (km_putQueue ||| km_rqpCount) s ((s.putQueue qn (some { q with gap := q.gapAfter cause stitch k })).rqpCount 1 k) :=
    (State.rqpCount_kept ..).step (by decide +kernel) ((State.putQueue_kept ..).mono (by decide +kernel))
  have putKept : Keeps s (s.putQueue qn (some { q with gap := q.gapAfter cause stitch k })) [(Obj.rqpCounts, 0), (Obj.ptfSiteResult, q.flow)]
      (withSignals [.queues]) := (Keeps.refl ..).kept (State.putQueue_kept ..) (by decide +kernel)
  rw [State.dropRec_site hq hs]
  refine ⟨?_, (State.incomplete_marks ..).1, ?_⟩
  · rw [State.incomplete_dropped _ _ hc, State.dropCounted, State.fld_count _ _ _ _ _ _ (.inr (by decide)),
      before.fld_eq _ _ (by decide) (by decide +kernel), counted]
  · exact ((putKept.count _ _ _ (by decide) (by simp)).count _ _ _ (by decide) (by simp)).incomplete _ (by simp) (by decide +kernel)

end Sys2Proof.Machine
end

section
namespace Sys2Proof.Machine
-- one declaration at a time, as in the laws: each `decide +kernel` waits for the declarations before it
set_option Elab.async false

/-! ### Records of a producer (R356, R357, R363) -/

/-- R363: the TYPE that a record was made with. -/
theorem recType_poolRec {typ : Nat} (h : typ < 256) (site seq : Nat) (payload : Bytes) : recType (poolRec typ site seq payload) = typ := by
  simp [recType, leAt, slice, poolRec, toLE, ofLE, Nat.mod_eq_of_lt h]

theorem Queue.withGap_of_none {q : Queue} (h : q.gap.1 = 0) (t run : Nat) : q.withGap t run = q := if_pos h

/-- R356: the last record of a queue is a SITE_END of an instant, in the end cell. -/
def State.SiteEnds (s : State) (qn e : Nat) : Prop :=
  ∃ (q : Queue) (r : PoolRec), s.queue qn = some q ∧ q.recs.getLast? = some r ∧ recType r.bytes = 0x02 ∧ r.t = e ∧ r.inEnd = true

section
variable {s : State} {qn typ : Nat} {q : Queue} (hq : s.queue qn = some q)
include hq

/-- R357: with room in the pool and in the queue, a record joins it. -/
theorem State.produce_joins (payload : Bytes) (stitch : Nat) (ho : s.fld Obj.rqpPoolStatus 0 F.rqpPoolStatusExhausted = 0) (hg : q.gap.1 = 0)
    (hc : (q.push (q.record typ payload s.now stitch (s.runOf q.flow) false)).cells ≤ s.fld Obj.rqpPoolCfg 0 F.rqpPoolCfgQueueCells)
    (hf : (q.push (q.record typ payload s.now stitch (s.runOf q.flow) false)).cells - q.cells ≤ s.freeCells) :
    s.produce qn typ payload stitch = s.setQueue qn (q.push (q.record typ payload s.now stitch (s.runOf q.flow) false)) := by
  unfold State.produce
  rw [hq]
  dsimp only
  rw [Queue.withGap_of_none hg, if_neg (by rw [ho]; decide), if_neg (Nat.not_lt.2 hc), if_neg (Nat.not_lt.2 hf)]

/-- R367: an exhausted pool takes no record. -/
theorem State.produce_exhausted (payload : Bytes) (stitch : Nat) (he : s.fld Obj.rqpPoolStatus 0 F.rqpPoolStatusExhausted = 1) :
    s.produce qn typ payload stitch = s.dropRec qn 1 stitch 1 := by
  unfold State.produce
  rw [hq]
  exact if_pos he

theorem State.produceEnd_last (payload : Bytes) : (s.produceEnd qn payload).SiteEnds qn s.now := by
  unfold State.produceEnd
  rw [hq]
  dsimp only
  exact ⟨_, _, State.setQueue_self .., List.getLast?_concat .., recType_poolRec (by decide) .., rfl, rfl⟩

end

/-! ### FAIL_LOGGER_DRAIN (R353, R357, R368) -/

theorem exec_failLoggerDrain (s : State) (n : Nat) : exec (.failLoggerDrain n) s = .next (s.drainOne n) := rfl

/-- A needle's fail logger with its oldest entry taken. -/
def State.fifoTaken (s : State) (n : Nat) (l : List FailEntry) : State := s.setNdl n { s.ndl n with fifo := l }

/-- The record of a logger's entry that a queue would take now. -/
def State.withFail (s : State) (q : Queue) (e : FailEntry) : Queue :=
  q.push (q.record 0x01 (failPayload e (s.sitePins e.site).length) s.now e.stitch (s.runOf q.flow) false)

section
variable {s : State} {n qn : Nat} {e : FailEntry} {l : List FailEntry} {q : Queue}

theorem State.drainOne_empty (h : (s.ndl n).fifo = []) : s.drainOne n = s := by
  unfold State.drainOne
  extract_lets r
  rw [show r.fifo = [] from h]

theorem failLoggerDrain_idle (h : (s.ndl n).fifo = []) : Next (.failLoggerDrain n) s (fun t => t = s) :=
  ⟨_, exec_failLoggerDrain .., State.drainOne_empty h⟩

variable (h : (s.ndl n).fifo = e :: l) (hf : s.flowQueue e.site = some qn)
include h hf

theorem State.drainOne_produces : s.drainOne n =
    (s.fifoTaken n l).produce qn 0x01 (failPayload e (s.sitePins e.site).length) e.stitch := by
  unfold State.drainOne
  extract_lets r
  rw [show r.fifo = e :: l from h]
  dsimp only
  rw [State.produceFlow, show (s.setNdl n { r with fifo := l }).flowQueue e.site = some qn from hf]
  rfl

variable (hq : s.queue qn = some q)
include hq

/-- R357: the FAIL record joins the queue of its site. -/
theorem failLoggerDrain_joins (ho : s.fld Obj.rqpPoolStatus 0 F.rqpPoolStatusExhausted = 0) (hg : q.gap.1 = 0)
    (hc : (s.withFail q e).cells ≤ s.fld Obj.rqpPoolCfg 0 F.rqpPoolCfgQueueCells) (hr : (s.withFail q e).cells - q.cells ≤ s.freeCells) :
    Next (.failLoggerDrain n) s (fun t => (t.ndl n).fifo = l ∧ t.queue qn = some (s.withFail q e) ∧ Keeps s t (queueEls q) [.ndls, .queues]) := by
  have drained : s.drainOne n = (s.fifoTaken n l).setQueue qn (s.withFail q e) :=
    (State.drainOne_produces h hf).trans (State.produce_joins (s := s.fifoTaken n l) hq _ _ ho hg hc hr)
  have taken : Keeps s (s.fifoTaken n l) (queueEls q) [.ndls, .queues] := (Keeps.refl ..).kept (State.setNdl_kept ..) (by decide +kernel)
  refine ⟨_, (exec_failLoggerDrain ..).trans (congrArg _ drained), ?_, State.setQueue_self .., ?_⟩
  · rw [(State.setQueue_kept ..).ndl_eq (by decide +kernel), State.fifoTaken, State.setNdl_self]
  · exact taken.setQueue_open (q := s.withFail q e) (List.Subset.refl _) (by decide +kernel) ho

/-- R367, R368: with the pool exhausted the record is dropped. -/
theorem failLoggerDrain_drops (he : s.fld Obj.rqpPoolStatus 0 F.rqpPoolStatusExhausted = 1) (hs : q.flow < 64) :
    Next (.failLoggerDrain n) s (fun t => (t.ndl n).fifo = l ∧
      t.fld Obj.ptfSiteResult q.flow F.ptfSiteResultDropped = counted 48 (s.fld Obj.ptfSiteResult q.flow F.ptfSiteResultDropped) 1 ∧
      t.fld Obj.ptfSiteResult q.flow F.ptfSiteResultLogIncomplete = 1 ∧
      Keeps s t [(Obj.rqpCounts, 0), (Obj.ptfSiteResult, q.flow)] (withSignals [.ndls, .queues])) := by
  have drained : s.drainOne n = (s.fifoTaken n l).dropRec qn 1 e.stitch 1 :=
    (State.drainOne_produces h hf).trans (State.produce_exhausted (s := s.fifoTaken n l) hq _ _ he)
  obtain ⟨dropped, incomplete, kept⟩ := State.dropRec_drops (s := s.fifoTaken n l) hq hs (cause := 1) (by decide) e.stitch 1
  have taken : Keeps s (s.fifoTaken n l) [(Obj.rqpCounts, 0), (Obj.ptfSiteResult, q.flow)] (withSignals [.ndls, .queues]) :=
    (Keeps.refl ..).kept (State.setNdl_kept ..) (by decide +kernel)
  refine ⟨_, (exec_failLoggerDrain ..).trans (congrArg _ drained), ?_, dropped, incomplete, taken.trans (kept.mono (List.Subset.refl _) ?_)⟩
  · rw [(State.dropRec_kept ..).ndl_eq (by decide +kernel), State.fifoTaken, State.setNdl_self]
  · decide

end

/-! ### RESULTS_FINAL (R346, R347, R356) -/

theorem exec_resultsFinal (s : State) (n : Nat) : exec (.resultsFinal n) s = execResultsFinal n s := rfl

theorem State.drainAll_empty {s : State} {n : Nat} (k : Nat) (h : (s.ndl n).fifo = []) : State.drainAll k n s = s := by
  cases k with
  | zero => rfl
  | succ k => exact if_pos (by rw [h]; rfl)

/-- R346: after a stop on fail, an active site that holds no FAIL is INVALID. -/
def State.siteStopped (s : State) (n : Nat) (stopped : Bool) (i : Nat) : State :=
  if stopped && bit (s.ndl n).active i && s.fld Obj.ptfSiteResult i F.ptfSiteResultResult != 2 then s.setResult i F.ptfSiteResultResult 3 else s

/-- The SITE_END record of a site, where a queue serves it (R356). -/
def State.siteEnded (s : State) (i : Nat) : State :=
  match s.flowQueue i with
  | some q => s.produceEnd q (s.endPayload i)
  | none => s

/-- R347: one site's results become final. -/
def State.siteFinal (n : Nat) (stopped : Bool) (s : State) (i : Nat) : State :=
  ((s.siteStopped n stopped i).setResult i F.ptfSiteResultFinal 1).siteEnded i

/-- A needle's final edge is past. -/
def State.finalTaken (s : State) (n : Nat) : State := s.setNdl n { s.ndl n with final := none }

/-- R346: a needle has ended by a stop on fail. -/
def State.stoppedOnFail (s : State) (n : Nat) : Bool := s.ndlState n == 9 && s.fld Obj.ndlStatus n F.ndlStatusFrogCause == 4

theorem State.finalize_drained {s : State} {n : Nat} (h : (s.ndl n).fifo = []) :
    s.finalize n = (s.sitesOf n).foldl (State.siteFinal n (s.stoppedOnFail n)) (s.finalTaken n) := by
  unfold State.finalize
  rw [State.drainAll_empty _ h]
  rfl

theorem State.siteEnded_kept (s : State) (i : Nat) : Kept km_produceEnd s (s.siteEnded i) := by
  unfold State.siteEnded
  split
  · exact State.produceEnd_kept ..
  · exact .refl ..

theorem State.siteStopped_kept (s : State) (n : Nat) (stopped : Bool) (i : Nat) : Kept km_setResult s (s.siteStopped n stopped i) :=
  Kept.ite (fun _ => State.setResult_kept ..) fun _ => .refl ..

theorem State.siteFinal_kept (n : Nat) (stopped : Bool) (s : State) (i : Nat) : Kept (km_setResult ||| km_produceEnd) s (State.siteFinal n stopped s i) :=
  (State.siteEnded_kept ..).step (by decide +kernel) <| (State.setResult_kept ..).step (by decide +kernel) <|
    (s.siteStopped_kept n stopped i).mono (by decide +kernel)

/-- A record of an end says nothing in PTF.SITE_RESULT. -/
theorem State.siteFinal_fld (n : Nat) (stopped : Bool) (s : State) (i j : Nat) (f : Fld) : (State.siteFinal n stopped s i).fld Obj.ptfSiteResult j f =
    ((s.siteStopped n stopped i).setResult i F.ptfSiteResultFinal 1).fld Obj.ptfSiteResult j f :=
  (State.siteEnded_kept ..).fld_eq _ _ (by decide) (by decide +kernel)

theorem State.siteFinal_final (n : Nat) (stopped : Bool) (s : State) (i : Nat) :
    (State.siteFinal n stopped s i).fld Obj.ptfSiteResult i F.ptfSiteResultFinal = 1 :=
  (State.siteFinal_fld ..).trans (State.fld_setFld_self ..)

theorem State.siteFinal_others (n : Nat) (stopped : Bool) (s : State) (i : Nat) {j : Nat} (hj : j ≠ i) (f : Fld) :
    (State.siteFinal n stopped s i).fld Obj.ptfSiteResult j f = s.fld Obj.ptfSiteResult j f := by
  have set (u : State) (g : Fld) (v : Nat) : (u.setResult i g v).fld Obj.ptfSiteResult j f = u.fld Obj.ptfSiteResult j f :=
    State.fld_setFld_ne _ _ _ _ (by decide) (by decide) fun e => hj e.2
  rw [State.siteFinal_fld, set, State.siteStopped]
  split
  · exact set ..
  · rfl

/-- R346: only a stop on fail changes a result. -/
theorem State.siteFinal_result (n : Nat) (s : State) (i j : Nat) :
    (State.siteFinal n false s i).fld Obj.ptfSiteResult j F.ptfSiteResultResult = s.fld Obj.ptfSiteResult j F.ptfSiteResultResult := by
  by_cases hj : j = i
  · rw [State.siteFinal_fld, hj]
    exact State.fld_setFld_apart _ _ _ _ _ _ (.inr (by decide))
  · exact State.siteFinal_others _ _ _ _ hj _

/-- The last record of the queue that serves a site is its SITE_END. -/
theorem State.siteFinal_last {s : State} {qn i : Nat} {q : Queue} (n : Nat) (stopped : Bool) (hf : s.flowQueue i = some qn) (hq : s.queue qn = some q) :
    (State.siteFinal n stopped s i).SiteEnds qn s.now := by
  have k : Kept km_setResult s ((s.siteStopped n stopped i).setResult i F.ptfSiteResultFinal 1) :=
    (State.setResult_kept ..).step (by decide +kernel) (s.siteStopped_kept n stopped i)
  have queues := k.same .queues (by decide +kernel)
  have served : ((s.siteStopped n stopped i).setResult i F.ptfSiteResultFinal 1).flowQueue i = some qn := by
    rw [State.flowQueue, queues]
    exact hf
  rw [State.siteFinal, State.siteEnded, served, ← k.now_eq (by decide +kernel)]
  exact State.produceEnd_last ((k.queue_eq (by decide +kernel) qn).trans hq) _

theorem resultsFinal_idle {s : State} {n : Nat} (h : (s.ndl n).final = none) : Next (.resultsFinal n) s (fun t => t = s) := by
  refine ⟨s, ?_, rfl⟩
  rw [exec_resultsFinal, execResultsFinal, h]

theorem exec_resultsFinal_drained {s : State} {n d : Nat} (h : (s.ndl n).final = some d) (he : (s.ndl n).fifo = []) : exec (.resultsFinal n) s =
    .next ((s.sitesOf n).foldl (State.siteFinal n (s.stoppedOnFail n)) ((s.reach d).finalTaken n)) := by
  rw [exec_resultsFinal, execResultsFinal, h]
  exact congrArg _ (State.finalize_drained (s := s.reach d) he)

section
variable (s : State) (n d : Nat) (stopped : Bool) (l : List Nat)

theorem State.finalTaken_kept : Kept (km_reach ||| km_setNdl) s ((s.reach d).finalTaken n) :=
  (State.setNdl_kept ..).step (by decide +kernel) ((State.reach_kept ..).mono (by decide +kernel))

theorem State.sitesFinal_kept : Kept (km_setResult ||| km_produceEnd) s (l.foldl (State.siteFinal n stopped) s) :=
  Kept.foldl (fun _ _ k => (State.siteFinal_kept ..).step (by decide +kernel) k) (.refl ..)

end

/-- R346, R347: at the final edge of an empty logger the needle's sites become final, and a site alone ends its queue. -/
theorem resultsFinal_ends {s : State} {n d : Nat} (h : (s.ndl n).final = some d) (he : (s.ndl n).fifo = []) :
    Next (.resultsFinal n) s (fun t => t.now = max s.now d ∧ (t.ndl n).final = none ∧
      (∀ i ∈ s.sitesOf n, t.fld Obj.ptfSiteResult i F.ptfSiteResultFinal = 1) ∧
      (s.ndlState n ≠ 9 → ∀ i < 64, t.fld Obj.ptfSiteResult i F.ptfSiteResultResult = s.fld Obj.ptfSiteResult i F.ptfSiteResultResult) ∧
      (∀ (i qn : Nat) (q : Queue), s.sitesOf n = [i] → s.flowQueue i = some qn → s.queue qn = some q → t.SiteEnds qn (max s.now d)) ∧
      Keeps s t [] (withSignals [.now, .ndls, .queues, .obj Obj.ptfSiteResult, .obj Obj.rqpPoolStatus, .obj Obj.rqpSiteQueue, .obj Obj.rqpNeedleQueue])) := by
  have taken := s.finalTaken_kept n d
  have final (l : List Nat) := ((s.reach d).finalTaken n).sitesFinal_kept n (s.stoppedOnFail n) l
  refine ⟨_, exec_resultsFinal_drained h he, (final _).now_eq (by decide +kernel), ?_, fun i hi => ?_, fun h9 i _ => ?_, fun i qn q hs hf hq => ?_, ?_⟩
  · rw [(final _).ndl_eq (by decide +kernel), State.finalTaken, State.setNdl_self]
  · exact (foldl_sets (g := fun u k => u.fld Obj.ptfSiteResult k F.ptfSiteResultFinal) (State.siteFinal_final n _)
      (fun u i k hk => u.siteFinal_others n _ i hk _) _ _ i).1 hi
  · have running : s.stoppedOnFail n = false := Bool.and_eq_false_iff.2 (.inl (beq_false_of_ne h9))
    rw [running]
    exact List.foldlRecOn (motive := fun u : State => u.fld Obj.ptfSiteResult i F.ptfSiteResultResult = s.fld Obj.ptfSiteResult i F.ptfSiteResultResult) _ _
      (taken.fld_eq _ _ (by decide) (by decide +kernel)) fun u hu j _ => (u.siteFinal_result n j i).trans hu
  · rw [hs]
    exact State.siteFinal_last n _ (s := (s.reach d).finalTaken n) hf hq
  · exact Kept.keeps ((final _).step (m := km_reach ||| km_setNdl ||| km_setResult ||| km_produceEnd) (by decide +kernel) (taken.mono (by decide +kernel)))
      _ _ (by decide +kernel)

end Sys2Proof.Machine
end

section
namespace Sys2Proof.Machine
-- one declaration at a time, as in the laws: each `decide +kernel` waits for the declarations before it
set_option Elab.async false

/-! ### QUEUE_POST (R360, R361) -/

theorem exec_queuePost (s : State) (k : Nat) : exec (.queuePost k) s = execQueuePost k s := rfl

/-- R759: with more than 1,024 places free the ready list takes any item. -/
theorem State.enqueue_room {s : State} (h : s.ready.length < 64512) (flow prio producer : Nat) : (s.enqueue flow prio producer).1 = true := by
  unfold State.enqueue
  extract_lets i free t raise
  rw [if_neg (by omega)]

/-- An accepted item changes the ready list, the dispatcher's counts and its trace. -/
theorem State.enqueue_accepted_kept {s : State} {flow prio producer : Nat} (h : (s.enqueue flow prio producer).1 = true) :
    Kept (pt.ready ||| km_wdpCount ||| km_trace) s (s.enqueue flow prio producer).2 := by
  rw [State.enqueue_accepted h]
  exact (State.trace_kept ..).step (by decide +kernel) <| (State.wdpCount_kept ..).step (by decide +kernel) <| Kept.set_ready (by decide +kernel) (.refl ..)

/-- R754: the producer of a queue's item. -/
def Queue.producer (q : Queue) : Nat := if q.flow < 64 then 0x20 else if q.flow < 80 then 0x21 else 0x22 + (q.flow - 80)

section
variable {s : State} {k d : Nat} {q : Queue} (hq : s.queue k = some q)
include hq

theorem queuePost_idle (h : s.postEdge q = none ∨ (q.posted = true ∧ ∃ i ∈ s.ready, i.flow = q.flow)) : Next (.queuePost k) s (fun t => t = s) := by
  refine ⟨s, (exec_queuePost ..).trans ?_, rfl⟩
  rw [execQueuePost, hq]
  dsimp only
  rcases h with h | ⟨hp, i, hi, hf⟩
  · rw [h]
  · cases s.postEdge q with
    | none => rfl
    | some t => exact if_pos (Bool.and_eq_true_iff.2 ⟨hp, List.any_eq_true.2 ⟨i, hi, (beq_iff_eq (a := i.flow)).2 hf⟩⟩)

variable (hd : s.postEdge q = some d) (hp : q.posted = false ∨ ∀ i ∈ s.ready, i.flow ≠ q.flow)
include hd hp

theorem execQueuePost_posts : execQueuePost k s = .next (((s.reach d).enqueue q.flow 0 q.producer).2.putQueue k
    (some { q with posted := ((s.reach d).enqueue q.flow 0 q.producer).1 })) := by
  have unposted : (q.posted && s.ready.any (fun i => i.flow == q.flow)) = false := by
    rw [Bool.and_eq_false_iff, List.any_eq_false]
    exact hp.imp_right fun h i hi e => h i hi (beq_iff_eq.1 e)
  rw [execQueuePost, hq]
  dsimp only
  rw [hd]
  dsimp only
  rw [unposted]
  rfl

theorem queuePost_posts (hr : s.ready.length < 64512) : Next (.queuePost k) s (fun t => t.now = max s.now d ∧ t.queue k = some { q with posted := true } ∧
    t.ready = s.ready ++ [⟨q.flow, s.flowPrio q.flow 0, q.producer, t.now⟩] ∧
    Keeps s t [] (withSignals [.now, .queues, .ready, .wdpTrace, .wdpLost, .obj Obj.wdpCounts, .obj Obj.wdpTraceStatus])) := by
  have accepted := State.enqueue_room (s := s.reach d) hr q.flow 0 q.producer
  have kept := State.enqueue_accepted_kept accepted
  have now : ((s.reach d).enqueue q.flow 0 q.producer).2.now = max s.now d := kept.now_eq (by decide +kernel)
  refine ⟨_, (exec_queuePost ..).trans (execQueuePost_posts hq hd hp), now, ?_, ?_, ?_⟩
  · rw [State.putQueue_self, accepted]
  · rw [State.putQueue_ready, State.enqueue_ready accepted, State.putQueue_now, now]
    rfl
  · exact (((Keeps.refl s _ _).kept (State.reach_kept ..) (by decide +kernel)).kept kept (by decide +kernel)).kept (State.putQueue_kept ..) (by decide +kernel)

end

/-! ### POOL_RELEASE (R359, R383) -/

theorem exec_poolRelease (s : State) (k n : Nat) : exec (.poolRelease k n) s = execPoolRelease k n s := rfl

/-- A queue of which n bytes have been released, with what is left of it. -/
def Queue.after (q : Queue) (n : Nat) (recs : List PoolRec) (part : Nat) : Queue :=
  let q' := { q with recs := recs, part := part, released := (q.released + n) % 2 ^ 32 }
  { q' with pos := (q.pos + (q.held - q'.held)) % 256 }

/-- R359: bytes short of the front record's rest are only counted. -/
theorem release_part {n part : Nat} {r : PoolRec} (l : List PoolRec) (h : n < r.bytes.length - part) : release n (r :: l) part = ([], r :: l, part + n, 0) := by
  rw [release, if_neg (Nat.not_le.2 h)]

theorem release_zero {l : List PoolRec} (h : ∀ y ∈ l, y.bytes ≠ []) : release 0 l 0 = ([], l, 0, 0) := by
  cases l with
  | nil => rfl
  | cons r l => exact release_part l (List.length_pos_of_ne_nil (h r List.mem_cons_self))

/-- R359: the rest of the front record takes that record and no other. -/
theorem release_record {n part : Nat} {r : PoolRec} {l : List PoolRec} (h : n = r.bytes.length - part) (hl : ∀ y ∈ l, y.bytes ≠ []) :
    release n (r :: l) part = ([r], l, 0, 0) := by
  rw [release, if_pos (Nat.le_of_eq h.symm), ← h, Nat.sub_self, release_zero hl]

theorem State.consume_nil (s : State) (flow : Nat) : s.consume flow (0, []) [] = s := by
  unfold State.consume State.dlogRun
  split
  · rfl
  · split <;> rfl

section
variable {s : State} {k n : Nat} {q : Queue} (hq : s.queue k = some q)
include hq

theorem poolRelease_idle (h : s.releasable q n = 0) : Next (.poolRelease k n) s (fun t => t = s) := by
  refine ⟨s, (exec_poolRelease ..).trans ?_, rfl⟩
  rw [execPoolRelease, hq]
  exact if_pos (.inr h)

variable {r : PoolRec} {l : List PoolRec} (hl : q.recs = r :: l) (hn : s.releasable q n = n) (h0 : 0 < n) (hi : s.fcr.injLeft = 0)
include hl hn h0 hi

/-- R359, R383: a release that meets no error in a cell, and discards no record. -/
theorem execPoolRelease_clean {rest done : List PoolRec} {part : Nat} (hr : release n (r :: l) q.part = (done, rest, part, 0)) (hb : ∀ y ∈ done, y.bad = false) :
    execPoolRelease k n s = .next ((s.setQueue k (q.after n rest part)).consume q.flow (0, []) done) := by
  have good : done.filter (fun y => !y.bad) = done := List.filter_eq_self.2 fun y h => by rw [hb y h]; rfl
  have discarded : done.filter (fun y => y.bad) = [] := List.filter_eq_nil_iff.2 fun y h => by rw [hb y h]; decide
  have cell : s.cellError k 0 = s := by rw [State.cellError, hq]; rfl
  have go : ¬ (q.recs.isEmpty = true ∨ n = 0) := by
    rw [hl]
    exact fun h => h.elim Bool.false_ne_true (Nat.pos_iff_ne_zero.1 h0)
  rw [execPoolRelease, hq]
  dsimp only
  rw [hn, if_neg go, State.checked_clean hi]
  dsimp only
  rw [cell, if_neg (by decide), if_neg (by decide), hq, Option.getD_some, hl, hr]
  dsimp only
  rw [good, discarded]
  rfl

theorem poolRelease_counts (h : n < r.bytes.length - q.part) : Next (.poolRelease k n) s (fun t => t.queue k = some (q.after n (r :: l) (q.part + n)) ∧
    Keeps s t (queueEls q) (withSignals [.queues])) := by
  have released := execPoolRelease_clean hq hl hn h0 hi (release_part l h) (fun _ hy => absurd hy List.not_mem_nil)
  rw [State.consume_nil] at released
  exact ⟨_, (exec_poolRelease ..).trans released, State.setQueue_self ..,
    (Keeps.refl ..).setQueue (q := q.after n (r :: l) (q.part + n)) (List.Subset.refl _) (by decide +kernel) (by decide +kernel)⟩

theorem poolRelease_takes (hy : ∀ y ∈ l, y.bytes ≠ []) (h : n = r.bytes.length - q.part) (hb : r.bad = false) :
    Next (.poolRelease k n) s (fun t => t.queue k = some (q.after n l 0) ∧
      Keeps s t [] (withFaults [.images, .ndls, .queues, .sites, .obj Obj.ptfDlogStatus, .obj Obj.ptfSiteResult, .obj Obj.rqpCounts,
        .obj Obj.rqpNeedleQueue, .obj Obj.rqpPoolStatus, .obj Obj.rqpSiteQueue, .obj Obj.taeLastRecord])) := by
  have released := execPoolRelease_clean hq hl hn h0 hi (release_record h hy) (by simpa using hb)
  refine ⟨_, (exec_poolRelease ..).trans released, ?_, ?_⟩
  · rw [(State.consume_kept ..).queue_eq (by decide +kernel), State.setQueue_self]
  · exact ((Keeps.refl ..).kept (State.setQueue_kept ..) (by decide +kernel)).kept (State.consume_kept ..) (by decide +kernel)

end

end Sys2Proof.Machine
end

section
namespace Sys2Proof.Machine
-- one declaration at a time, as in the laws: each `decide +kernel` waits for the declarations before it
set_option Elab.async false

/-! ### RQP.FLUSH (R370) -/

theorem exec_rqpFlush (s : State) (n el : Nat) : exec (.rqpFlush n el) s = .next (s.hostPut n Obj.rqpFlush el 1) := rfl

/-- The bytes of a queue that no core serves, all lost to a flush. -/
def Queue.flushBytes (q : Queue) : Nat := q.recs.foldl (fun a r => a + r.bytes.length) 0 - q.part

/-- A queue without its records. -/
def Queue.emptied (q : Queue) : Queue := { q with recs := [], part := 0, pos := 0, released := (q.released + q.flushBytes) % 2 ^ 32 }

/-- R370: the FLUSH record of a queue that no core serves. -/
def Queue.flushRec (q : Queue) (t run : Nat) : PoolRec :=
  q.record 0x05 (toLE 6 q.flushBytes ++ [BitVec.ofNat 8 (q.recs.any (·.inEnd)).toNat, 0#8]) t 0 run false

/-- A queue after a flush that no core's claim holds up: the FLUSH record stands alone. -/
def Queue.flushed (q : Queue) (t run : Nat) : Queue := q.emptied.push (q.flushRec t run)

/-- No core has an item of a flow in service. -/
def State.Unserved (s : State) (flow : Nat) : Prop := ∀ c < 16, ∀ p, (s.core c).item = some p → p.1.flow ≠ flow

/-- R370: where no core has the flow's item, no record is claimed: all go. -/
theorem State.flushQueue_unserved {s : State} {el qn : Nat} {q : Queue} (hf : s.flowQueue el = some qn) (hq : s.queue qn = some q) (hu : s.Unserved el) :
    s.flushQueue el = ((s.setQueue qn (q.flushed s.now (s.runOf q.flow))).rqpCount 2 1).incomplete el 4 := by
  unfold State.flushQueue
  rw [hf]
  dsimp -zeta only
  rw [hq]
  dsimp -zeta only
  extract_lets since claimed keep gone partGone bytes kept noted u
  have since_none : since = none := by
    refine List.findSome?_eq_none_iff.2 fun c hc => ?_
    split
    · rename_i i t hi
      exact if_neg fun e => hu c (List.mem_range.1 hc) (i, t) hi (eq_of_beq e)
    · rfl
  have unclaimed (r : PoolRec) : ¬ claimed r = true := by
    unfold claimed
    rw [since_none]
    exact Bool.false_ne_true
  have keep_nil : keep = [] := by
    unfold keep
    cases q.recs with
    | nil => rfl
    | cons r l => exact List.takeWhile_cons_of_neg (unclaimed r)
  clear_value keep
  subst keep_nil
  rfl

/-- The state after RQP.FLUSH of a site's queue has committed. -/
def State.flushed (s : State) (el : Nat) : State := (s.wr Obj.rqpFlush el 1).flushQueue el

theorem State.commitCommand_rqpFlush (s : State) (r : ObjRow) (el : Nat) : s.commitCommand r Obj.rqpFlush el 1 [el] = (.of rOk, s.flushed el) :=
  (State.commitCommand_eq (fun _ => by decide) ..).trans (State.commitWrite_byMember (by decide +kernel) s el 1 [el])

theorem State.flushed_kept (s : State) (el : Nat) : Kept (ob Obj.rqpFlush ||| km_flushQueue) s (s.flushed el) :=
  (State.flushQueue_kept ..).step (by decide +kernel) ((s.wr_kept Obj.rqpFlush el 1).mono (by decide +kernel))

/-- What a flush changes beside the log of its site and what its signals do. -/
abbrev flushParts : List Part :=
  withSignals [.queues, .obj Obj.rqpCounts, .obj Obj.rqpPoolStatus, .obj Obj.rqpSiteQueue, .obj Obj.rqpNeedleQueue]

/-- What a flush of a queue that no core serves leaves. -/
structure Flushed (el qn : Nat) (s t : State) : Prop where
  queue : ∃ (q' : Queue) (p : PoolRec), t.queue qn = some q' ∧ q'.recs = [p] ∧ recType p.bytes = 0x05 ∧ q'.part = 0
  count : t.fld Obj.rqpCounts 0 ⟨96, 48⟩ = counted 48 (s.fld Obj.rqpCounts 0 ⟨96, 48⟩) 1
  incomplete : t.fld Obj.ptfSiteResult el F.ptfSiteResultLogIncomplete = 1
  cause : t.fld Obj.ptfSiteResult el ⟨19, 1⟩ = 1
  kept : Keeps s t [(Obj.rqpFlush, el), (Obj.ptfSiteResult, el)] flushParts

theorem State.flushed_unserved {s : State} {el qn : Nat} {q : Queue} (hf : s.flowQueue el = some qn) (hq : s.queue qn = some q) (hu : s.Unserved el) :
    Flushed el qn s (s.flushed el) := by
  rw [State.flushed, State.flushQueue_unserved (s := s.wr Obj.rqpFlush el 1) hf hq hu]
  generalize (s.wr Obj.rqpFlush el 1).runOf q.flow = run
  obtain ⟨log, cause⟩ := (((s.wr Obj.rqpFlush el 1).setQueue qn (q.flushed s.now run)).rqpCount 2 1).incomplete_marks el 4
  refine ⟨⟨q.flushed s.now run, q.flushRec s.now run, ?_, rfl, recType_poolRec (by decide) .., rfl⟩, ?_, log, cause, ?_⟩
  · rw [(State.incomplete_kept ..).queue_eq (by decide +kernel), (State.rqpCount_kept ..).queue_eq (by decide +kernel), State.setQueue_self]
    rfl
  · rw [(State.incomplete_kept ..).fld_eq _ _ (by decide) (by decide +kernel), State.rqpCount, State.fld_count _ _ _ _ _ _ (.inr (by decide)),
      (State.setQueue_kept ..).fld_eq _ _ (by decide) (by decide +kernel), (State.wr_kept ..).fld_eq _ _ (by decide) (by decide +kernel), counted]
  · exact (((((Keeps.refl s _ _).wr _ (by decide) (by simp)).kept (State.setQueue_kept ..) (by decide +kernel)).kept (State.rqpCount_kept ..)
      (by decide +kernel)).incomplete _ (by simp) (by decide +kernel))

theorem takes_rqpFlush (s : State) (n el : Nat) (x : Session) (r : ObjRow) (qn : Nat) (q : Queue) :
    Takes (.rqpFlush n el) s n x r Obj.rqpFlush el 1 [el] (fun b t => (b.flowQueue el = some qn ∧ b.queue qn = some q ∧ b.Unserved el) →
      Flushed el qn b t ∧ t.out.getLast? = some (wrote n rOk 0xFFFF)) := by
  intro hv ha
  have one : ofLE (toLE ((tyLen r.ty).getD 0) 1) = 1 := toLE_value hv
  refine ha.effect_done (C := fun b => b.flowQueue el = some qn ∧ b.queue qn = some q ∧ b.Unserved el) (c := fun u => u.flushed el)
    (m := ob Obj.rqpFlush ||| km_flushQueue) (q := fun b t => Flushed el qn b t ∧ t.out.getLast? = some (wrote n rOk 0xFFFF))
    ((exec_rqpFlush ..).trans (congrArg _ (State.hostPut_eq ha.row ..))) (by decide +kernel) (fun _ => id) (fun u _ => ?_) (fun u _ => u.flushed_kept el)
    (fun u ⟨hf, hq, hu⟩ => ?_)
  · rw [one]
    exact u.commitCommand_rqpFlush r el
  · obtain ⟨queue, count, incomplete, cause, kept⟩ := State.flushed_unserved hf hq hu
    exact ⟨⟨queue, count, incomplete, cause, kept.answered _ (by decide +kernel)⟩, List.getLast?_concat ..⟩

end Sys2Proof.Machine
end

section
namespace Sys2Proof.Machine
-- one declaration at a time, as in the laws: each `decide +kernel` waits for the declarations before it
set_option Elab.async false

/-- Settles O44, command by command: the pool's records follow a queue element by element (`Keeps.setQueue`), and a dropped record or a flush marks the log of its
site in one way (`State.incomplete_marks`). -/
theorem logsAreKept : Obligations.LogsAreKept := by
  unfold Obligations.LogsAreKept
  intro s
  refine ⟨fun n e l qn q h hf hq => ⟨failLoggerDrain_joins h hf hq, failLoggerDrain_drops h hf hq⟩, fun n h => failLoggerDrain_idle h,
    fun n d h he => resultsFinal_ends h he, fun n h => resultsFinal_idle h, fun k d q hq hd hr hp => queuePost_posts hq hd hp hr, fun k q hq h => queuePost_idle hq h,
    fun k n q r l hq hl hy _ h0 hi => ⟨fun hn h => poolRelease_counts hq hl hn h0 hi h, fun hn h hb => poolRelease_takes hq hl hn h0 hi hy h hb,
      fun h => poolRelease_idle hq h⟩, fun n el x r qn q => ?_⟩
  refine (takes_rqpFlush s n el x r qn q).imp fun b t flush hf hq hu => ?_
  obtain ⟨⟨queue, count, incomplete, cause, kept⟩, out⟩ := flush ⟨hf, hq, hu⟩
  exact ⟨queue, count, incomplete, cause, out, kept⟩

end Sys2Proof.Machine
end

section
namespace Sys2Proof.Machine
-- one declaration at a time, as in the laws: each `decide +kernel` waits for the declarations before it
set_option Elab.async false

/-! ### A bank's calibration TDC and its round (R423, R426, R428) -/

@[simp] theorem State.setCalBank_self (s : State) (b : Nat) (x : CalBank) : (s.setCalBank b x).calBank b = x := Tbl.get_put_self ..

theorem State.setCalBank_ne (s : State) {b j : Nat} (x : CalBank) (h : j ≠ b) : (s.setCalBank b x).calBank j = s.calBank j := Tbl.get_put_ne _ _ _ h

@[simp] theorem State.count_cal (s : State) (o e : Nat) (f sat : Fld) (n : Nat) : (s.count o e f sat n).cal = s.cal := by
  unfold State.count
  extract_lets x
  split <;> rfl

/-- A bank's TDC stays where it is, or moves to another place and counts the places that it passed. -/
theorem State.skipSwatches_cases (s : State) (b : Nat) : s.skipSwatches b = s ∨ ∃ pin q n,
    s.skipSwatches b = (s.count Obj.calCounts 0 F.calCountsSkips ⟨193, 1⟩ n).setCalBank b { s.calBank b with pin := pin, q := q } := by
  unfold State.skipSwatches
  extract_lets x
  split
  · exact .inl rfl
  · exact .inr ⟨_, _, _, rfl⟩

/-- Where the swatch at the bank's place may be taken, none is skipped. -/
theorem State.skipSwatches_here {s : State} {b : Nat} (h : s.swatchOk b (s.calBank b).pin (s.calBank b).q = true) :
    s.skipSwatches b = (s.count Obj.calCounts 0 F.calCountsSkips ⟨193, 1⟩ 0).setCalBank b (s.calBank b) := by
  have here : State.skipSwatches.go s b 192 ((s.calBank b).pin, (s.calBank b).q) 0 = some (((s.calBank b).pin, (s.calBank b).q), 0) := by
    rw [State.skipSwatches.go]
    exact if_pos h
  unfold State.skipSwatches
  extract_lets x
  rw [here]

/-- What decides whether a swatch may be taken. -/
def swatchOkParts : Nat := ob Obj.ptfPinState ||| ob Obj.calCtrl ||| ob Obj.tmuState

theorem Kept.swatchOk_eq {m : Nat} {s t : State} (k : Kept m s t) (hm : m &&& swatchOkParts = 0) (b pin q : Nat) : t.swatchOk b pin q = s.swatchOk b pin q := by
  have rd {o : Nat} (e : Nat) (ho : o < 65536) (hb : swatchOkParts.testBit (o + 64) = true) : t.rd o e = s.rd o e := k.rd e ho (testBit_off_of_land hm hb)
  simp only [State.swatchOk, State.fld, rd (o := Obj.ptfPinState) _ (by decide) (by decide +kernel), rd (o := Obj.calCtrl) _ (by decide) (by decide +kernel),
    rd (o := Obj.tmuState) _ (by decide) (by decide +kernel)]

theorem Tbl.find_map {α β : Type} (g : α → β) (t : Tbl α) (k : Nat) :
    Tbl.find (t.map (fun p => (p.1, g p.2)) : Tbl β) k = (Tbl.find t k).map g := by
  induction t with
  | nil => rfl
  | cons p t ih =>
    rw [List.map_cons, Tbl.find, Tbl.find]
    split
    · rfl
    · exact ih

/-- A bank's TDC without its samples. -/
def CalBank.emptied (x : CalBank) : CalBank := { x with samples := [] }

/-- R428: a pause discards the samples of every bank and leaves the rest of it. -/
theorem State.calPause_bank {s : State} (h : s.calOn = false) (j : Nat) : s.calPause.calBank j = (s.calBank j).emptied := by
  rw [State.calPause, if_neg (by simp [h])]
  show (Tbl.find (s.cal.banks.map (fun p => (p.1, p.2.emptied))) j).getD {} = _
  rw [Tbl.find_map, State.calBank, Tbl.get]
  cases Tbl.find s.cal.banks j <;> rfl

theorem exec_calSample (s : State) (k : Nat) (v : Int) : exec (.calSample k v) s = execCalSample k v s := rfl

theorem exec_swatchTimeout (s : State) (k : Nat) : exec (.swatchTimeout k) s = execSwatchTimeout k s := rfl

theorem State.calPause_discards {s : State} (h : s.calOn = false) :
    (∀ j, (s.calPause.calBank j).samples = []) ∧ (∀ j, (s.calPause.calBank j).ready = (s.calBank j).ready) ∧ Keeps s s.calPause [] [.cal] :=
  ⟨fun j => by rw [s.calPause_bank h, CalBank.emptied], fun j => by rw [s.calPause_bank h, CalBank.emptied], (s.calPause_kept).keeps _ _ (by decide +kernel)⟩

theorem calSample_paused {s : State} (k : Nat) (v : Int) (h : s.calOn = false) : exec (.calSample k v) s = .next s.calPause := by
  rw [exec_calSample, execCalSample, if_pos (.inl (by simp [h]))]

theorem swatchTimeout_paused {s : State} (k : Nat) (h : s.calOn = false) : exec (.swatchTimeout k) s = .next s.calPause := by
  rw [exec_swatchTimeout, execSwatchTimeout, if_pos (by simp [h])]

/-! ### A sample (R423 to R425) -/

/-- A bank's TDC after another sample, taken at the edge on which it is ready. -/
def State.sampled (s : State) (k : Nat) (v : Int) : CalBank :=
  { s.calBank k with
    samples := (s.calBank k).samples ++ [v]
    first := if (s.calBank k).samples = [] then max s.now (s.calBank k).ready else (s.calBank k).first
    ready := s.edgeAt vclkFs (max s.now (s.calBank k).ready) + 16 * vclkFs }

/-- The state in which the sample has been added. -/
def State.takeSample (s : State) (k : Nat) (v : Int) : State := (s.reach (s.calBank k).ready).setCalBank k (s.sampled k v)

@[simp] theorem State.takeSample_now (s : State) (k : Nat) (v : Int) : (s.takeSample k v).now = max s.now (s.calBank k).ready := rfl

@[simp] theorem State.takeSample_bank (s : State) (k : Nat) (v : Int) : (s.takeSample k v).calBank k = s.sampled k v := State.setCalBank_self ..

theorem State.takeSample_bank_ne (s : State) {k j : Nat} (v : Int) (h : j ≠ k) : (s.takeSample k v).calBank j = s.calBank j := State.setCalBank_ne _ _ h

theorem State.takeSample_kept (s : State) (k : Nat) (v : Int) : Kept (km_reach ||| km_setCalBank) s (s.takeSample k v) :=
  (State.setCalBank_kept ..).step (by decide +kernel) <| (s.reach_kept _).step (by decide +kernel) (.refl ..)

/-- A sample that may be taken, `u` being the state in which swatches that may not be taken have been skipped: the 128th sample ends the swatch. -/
theorem calSample_takes {s u : State} {k : Nat} (v : Int) (hk : k < 8) (on : s.calOn = true) (hu : (if (s.calBank k).samples.isEmpty then s.skipSwatches k else s) = u)
    (hp : u.rd Obj.ptfPinState (32 * k + (u.calBank k).pin) = 2)
    (ok : (u.calBank k).samples ≠ [] ∨ u.swatchOk k (u.calBank k).pin (u.calBank k).q = true) :
    exec (.calSample k v) s = .next (if (u.calBank k).samples.length < 127 then u.takeSample k v else
      ((u.takeSample k v).evalSwatch (32 * k + (u.calBank k).pin) (u.calBank k).q ((u.calBank k).samples ++ [v])).swatchDone k) := by
  have taken : ¬ (u.rd Obj.ptfPinState (32 * k + (u.calBank k).pin) ≠ 2 ∨
      (!u.swatchOk k (u.calBank k).pin (u.calBank k).q && (u.calBank k).samples.isEmpty) = true) := by
    rcases ok with h | h <;> simp [hp, h]
  have short : ((u.calBank k).samples ++ [v]).length < 128 ↔ (u.calBank k).samples.length < 127 := by
    rw [List.length_append, List.length_singleton]
    omega
  rw [exec_calSample, execCalSample, if_neg (by simp [on, hk])]
  extract_lets w x r l y z
  have hw : w = u := hu
  clear_value w
  subst hw
  have hz : z = w.takeSample k v := by
    simp only [z, y, x, List.isEmpty_iff]
    rfl
  rw [if_neg taken, hz, apply_ite Host.Outcome.next]
  exact if_congr short rfl rfl

/-- The first sample of a swatch that may be taken where the TDC stands skips none. -/
theorem State.skipSwatches_here_bank {s : State} {k : Nat} (h : s.swatchOk k (s.calBank k).pin (s.calBank k).q = true) :
    (s.skipSwatches k).calBank k = s.calBank k := by
  rw [State.skipSwatches_here h, State.setCalBank_self]

/-- A sample before the 128th is added to the bank's swatch. -/
theorem calSample_adds {s : State} {k : Nat} (v : Int) (hk : k < 8) (on : s.calOn = true) (hp : s.rd Obj.ptfPinState (32 * k + (s.calBank k).pin) = 2)
    (hl : (s.calBank k).samples.length < 127) (ok : (s.calBank k).samples ≠ [] ∨ s.swatchOk k (s.calBank k).pin (s.calBank k).q = true) :
    Next (.calSample k v) s (fun t => t.now = max s.now (s.calBank k).ready ∧ t.calBank k = s.sampled k v ∧ (∀ j, j ≠ k → t.calBank j = s.calBank j) ∧
      t.rd Obj.calRejects 0 = s.rd Obj.calRejects 0 ∧ Keeps s t [(Obj.calCounts, 0)] [.now, .cal]) := by
  by_cases hs : (s.calBank k).samples = []
  · have here : s.swatchOk k (s.calBank k).pin (s.calBank k).q = true := ok.resolve_left fun h => h hs
    have eq := State.skipSwatches_here here
    have bank := State.skipSwatches_here_bank here
    have keeps : Keeps s (s.skipSwatches k) [(Obj.calCounts, 0)] [.now, .cal] := by
      rw [eq]
      exact ((Keeps.refl ..).count _ _ _ (by decide) (by simp)).kept (State.setCalBank_kept ..) (by decide +kernel)
    have now : (s.skipSwatches k).now = s.now := (s.skipSwatches_kept k).now_eq (by decide +kernel)
    have pin := keeps.rd Obj.ptfPinState (32 * k + (s.calBank k).pin) (by decide) (by simp) (by simp)
    have clk : (s.skipSwatches k).clk = s.clk := keeps.field .clk (by decide) (by simp)
    have sampled : (s.skipSwatches k).sampled k v = s.sampled k v := by
      simp only [State.sampled, bank, now, State.edgeAt, clk]
    have kept := keeps.kept ((s.skipSwatches k).takeSample_kept k v) (by decide +kernel)
    refine ⟨_, calSample_takes v hk on (if_pos (by simp [hs])) (by rw [bank, pin, hp]) ?_, ?_⟩
    · rw [bank]
      exact .inr (((s.skipSwatches_kept k).swatchOk_eq (by decide +kernel) _ _ _).trans here)
    · rw [bank, if_pos hl]
      refine ⟨?_, ?_, fun j hj => ?_, kept.rd _ _ (by decide) (by simp) (by simp), kept⟩
      · rw [State.takeSample_now, bank, now]
      · rw [State.takeSample_bank, sampled]
      · rw [State.takeSample_bank_ne _ _ hj, eq, State.setCalBank_ne _ _ hj]
        simp [State.calBank]
  · have kept : Keeps s (s.takeSample k v) [(Obj.calCounts, 0)] [.now, .cal] := (s.takeSample_kept k v).keeps _ _ (by decide +kernel)
    refine ⟨_, calSample_takes v hk on (if_neg (by simpa using hs)) hp (.inl hs), ?_⟩
    rw [if_pos hl]
    exact ⟨rfl, s.takeSample_bank k v, fun j hj => s.takeSample_bank_ne v hj, kept.rd _ _ (by decide) (by simp) (by simp), kept⟩

end Sys2Proof.Machine
end

section
namespace Sys2Proof.Machine
-- one declaration at a time, as in the laws: each `decide +kernel` waits for the declarations before it
set_option Elab.async false

/-! ### What a swatch shows when it has ended (R429 to R434, R455) -/

/-- The outcome of the last swatch of a pin, its gauge, the count of rejections, and the anchor of one quantity. -/
structure SwatchView where
  outcome : Nat
  gauge : Nat
  rejects : Nat
  anchor : Option Int

def State.swatchView (s : State) (p q : Nat) : SwatchView :=
  ⟨s.fld Obj.calLastSwatch p F.calLastSwatchOutcome, s.rd Obj.ptfGauge p, s.fld Obj.calRejects 0 ⟨0, 48⟩, s.anchor p q⟩

/-- The objects that the view shows. -/
def swatchObjs : Nat := ob Obj.calLastSwatch ||| ob Obj.ptfGauge ||| ob Obj.calRejects

theorem State.swatchView_of_rd {s t : State} {p q : Nat} (l : t.rd Obj.calLastSwatch p = s.rd Obj.calLastSwatch p) (g : t.rd Obj.ptfGauge p = s.rd Obj.ptfGauge p)
    (r : t.rd Obj.calRejects 0 = s.rd Obj.calRejects 0) (a : t.anchor p q = s.anchor p q) : t.swatchView p q = s.swatchView p q := by
  simp only [State.swatchView, State.fld, l, g, r, a]

/-- An operation that leaves these objects and the anchors alone does not change the view. -/
theorem Kept.swatchView_eq {m : Nat} {s t : State} (k : Kept m s t) (hm : m &&& swatchObjs = 0) (ha : t.cal.anchors = s.cal.anchors) (p q : Nat) :
    t.swatchView p q = s.swatchView p q := by
  have rd {o : Nat} (e : Nat) (ho : o < 65536) (hb : swatchObjs.testBit (o + 64) = true) : t.rd o e = s.rd o e := k.rd e ho (testBit_off_of_land hm hb)
  exact State.swatchView_of_rd (rd _ (by decide) (by decide +kernel)) (rd _ (by decide) (by decide +kernel)) (rd _ (by decide) (by decide +kernel))
    (by rw [State.anchor, ha, State.anchor])

@[simp] theorem State.noteAge_swatchView (s : State) (p q : Nat) (v : Int) : (s.noteAge p q v).swatchView p q = s.swatchView p q :=
  (s.noteAge_kept p q v).swatchView_eq (by decide +kernel) rfl p q

@[simp] theorem State.setAnchor_swatchView (s : State) (p q : Nat) (v : Option Int) :
    (s.setAnchor p q v).swatchView p q = { s.swatchView p q with anchor := v } := by
  show SwatchView.mk _ _ _ ((s.setAnchor p q v).anchor p q) = _
  rw [State.setAnchor_self]
  rfl

@[simp] theorem State.calNote_swatchView (s : State) (p p' q : Nat) : (s.calNote p).swatchView p' q = s.swatchView p' q :=
  (s.calNote_kept p).swatchView_eq (by decide +kernel) (by obtain ⟨x, e⟩ := s.calNote_eq p; rw [e]; rfl) p' q

@[simp] theorem State.endRun_swatchView (s : State) (p q : Nat) : (s.endRun p q).swatchView p q = s.swatchView p q :=
  (s.endRun_kept p q).swatchView_eq (by decide +kernel) rfl p q

/-- R426, R427: a swatch that ends leaves its bank without samples, counts the places that the TDC passes, and changes nothing else. -/
theorem State.swatchDone_cases (s : State) (b : Nat) : ∃ x y : CalBank, x.samples = [] ∧ y.samples = [] ∧ (s.swatchDone b = s.setCalBank b x ∨
    ∃ n, s.swatchDone b = ((s.setCalBank b x).count Obj.calCounts 0 F.calCountsSkips ⟨193, 1⟩ n).setCalBank b y) := by
  unfold State.swatchDone
  extract_lets x p
  obtain e | ⟨pin, q, n, e⟩ := State.skipSwatches_cases (s.setCalBank b { x with pin := p.1, q := p.2, samples := [] }) b
  · exact ⟨_, {}, rfl, rfl, .inl e⟩
  · rw [State.setCalBank_self] at e
    exact ⟨_, _, rfl, rfl, .inr ⟨n, e⟩⟩

theorem State.swatchDone_anchors (s : State) (b : Nat) : (s.swatchDone b).cal.anchors = s.cal.anchors := by
  obtain ⟨x, y, -, -, e | ⟨n, e⟩⟩ := s.swatchDone_cases b
  · rw [e, State.setCalBank]
  · rw [e, State.setCalBank, State.count_cal, State.setCalBank]

@[simp] theorem State.swatchDone_swatchView (s : State) (b p q : Nat) : (s.swatchDone b).swatchView p q = s.swatchView p q :=
  (s.swatchDone_kept b).swatchView_eq (by decide +kernel) (s.swatchDone_anchors b) p q

/-- The bank's TDC starts its next swatch without samples. -/
theorem State.swatchDone_samples (s : State) (b : Nat) : ((s.swatchDone b).calBank b).samples = [] := by
  obtain ⟨x, y, hx, hy, e | ⟨n, e⟩⟩ := s.swatchDone_cases b
  · rw [e, State.setCalBank_self, hx]
  · rw [e, State.setCalBank_self, hy]

/-- R455: the outcome stands in its field, below the values that it may not have. -/
theorem State.lastSwatch_outcome (s : State) (p : Nat) {q o : Nat} (hq : q < 8) (ho : o < 16) (spread : Option Nat) (delta cand : Option Int) :
    (s.lastSwatch p q o spread delta cand).fld Obj.calLastSwatch p F.calLastSwatchOutcome = o := by
  unfold State.lastSwatch
  extract_lets f d v
  rw [State.calCounts, State.fld, State.rd_count_ne _ _ _ _ (by decide) (by decide) (by decide), State.rd_wr_self, Fld.get_eq_div]
  simp only [v]
  generalize min (spread.getD (f 0 16)) 65535 = a
  generalize (match cand with | some c => ofSigned 16 c | none => f 2 16) = c
  generalize s.stamp = e
  show _ / 2 ^ 3 % 2 ^ 4 = o
  omega

theorem State.lastSwatch_swatchView (s : State) (p : Nat) {q o : Nat} (hq : q < 8) (ho : o < 16) (spread : Option Nat) (delta cand : Option Int) :
    (s.lastSwatch p q o spread delta cand).swatchView p q = { s.swatchView p q with outcome := o } := by
  have rd {x : Nat} (e : Nat) (hx : x < 65536) (hm : km_lastSwatch.testBit (x + 64) = false) : (s.lastSwatch p q o spread delta cand).rd x e = s.rd x e :=
    (s.lastSwatch_kept ..).rd e hx hm
  have anchors : (s.lastSwatch p q o spread delta cand).cal.anchors = s.cal.anchors := by
    unfold State.lastSwatch
    extract_lets f d v
    rw [State.calCounts, State.count_cal]
    rfl
  rw [State.swatchView, s.lastSwatch_outcome p hq ho, State.fld, rd _ (by decide) (by decide +kernel), rd _ (by decide) (by decide +kernel), State.anchor, anchors]
  rfl

/-- R432: a rejection counts. -/
theorem State.rejectSwatch_swatchView (s : State) (p q : Nat) :
    (s.rejectSwatch p q).swatchView p q = { s.swatchView p q with rejects := counted 48 (s.swatchView p q).rejects 1 } := by
  have counts : (s.count64 Obj.calRejects 0 1).swatchView p q = { s.swatchView p q with rejects := counted 48 (s.swatchView p q).rejects 1 } := by
    rw [State.count64, State.swatchView, State.fld_count _ _ _ _ _ _ (.inr (by decide)), State.fld, State.rd_count_ne _ _ _ _ (by decide) (by decide) (by decide),
      State.rd_count_ne _ _ _ _ (by decide) (by decide) (by decide), State.anchor, State.count_cal]
    rfl
  rw [← counts]
  unfold State.rejectSwatch
  extract_lets run u c w
  split
  · exact ((State.raise_kept ..).swatchView_eq (by decide +kernel) (congrArg CalRt.anchors ((State.raise_kept ..).same .cal (by decide +kernel))) p q).trans
      ((State.setFld_kept w ..).swatchView_eq (by decide +kernel) rfl p q)
  · rfl

/-- R431: a commit puts the value into the pin's gauge. -/
theorem State.commitGauge_swatchView (s : State) (p q : Nat) (v : Int) (live : Bool) :
    (s.commitGauge p q v live).swatchView p q = { s.swatchView p q with gauge := (gaugeFld q).put (s.swatchView p q).gauge (ofSigned 16 v) } := by
  show SwatchView.mk ((s.setFld Obj.ptfGauge p (gaugeFld q) (ofSigned 16 v)).fld _ _ _) ((s.setFld Obj.ptfGauge p (gaugeFld q) (ofSigned 16 v)).rd _ _)
    ((s.setFld Obj.ptfGauge p (gaugeFld q) (ofSigned 16 v)).fld _ _ _) (s.anchor p q) = _
  rw [State.fld_setFld_obj _ _ _ _ _ (by decide) (by decide) (by decide), State.fld_setFld_obj _ _ _ _ _ (by decide) (by decide) (by decide), State.setFld,
    State.rd_wr_self]
  rfl

/-! ### The evaluation of a complete swatch (R430 to R434, R438) -/

/-- The sum of a swatch's samples. -/
def swatchSum (l : List Int) : Int := l.foldl (· + ·) 0

/-- R438: the anchor, the base and the gauge that a swatch which ends now sees. -/
def State.anchorSeen (s : State) (p q : Nat) : Option Int := (s.gaugeWrite p).elim (s.anchor p q) (fun g => (g.anchors[q]?).join)

def State.baseSeen (s : State) (p q : Nat) : Int := (s.gaugeWrite p).elim (s.gaugeOf Obj.calBase p q) (fun g => toSigned 16 (Fld.get (gaugeFld q) g.base))

def State.gaugeSeen (s : State) (p q : Nat) : Int := (s.gaugeWrite p).elim (s.gaugeOf Obj.ptfGauge p q) (fun g => toSigned 16 (Fld.get (gaugeFld q) g.gauge))

/-- R430: the candidate of a swatch with an anchor. -/
def State.candidate (s : State) (p q : Nat) (l : List Int) : Int := s.baseSeen p q - roundDiv (swatchSum l - (s.anchorSeen p q).getD 0) 256

/-- R432: a candidate is too far from the factory's gauge or from zero. -/
abbrev State.tooFar (s : State) (p q : Nat) (c : Int) : Prop := s.rd Obj.calAbsLimit 0 < (c - s.gaugeOf Obj.ptfGaugeFactory p q).natAbs ∨ 2000 < c.natAbs

/-- R432: a candidate is too far from the gauge in effect. -/
abbrev State.tooSteep (s : State) (p q : Nat) (c : Int) : Prop := s.rd Obj.calStepLimit 0 < (c - s.gaugeOf Obj.ptfGaugeActive p q).natAbs

/-- R434: how a complete swatch ends, from its samples and what it sees. -/
def State.swatchOutcome (s : State) (p q : Nat) (l : List Int) : Nat :=
  if 2 ^ 21 ≤ spreadSum l then 4
  else if s.anchorSeen p q = none then 3
  else if s.tooFar p q (s.candidate p q l) then 5
  else if s.tooSteep p q (s.candidate p q l) then 6
  else if s.candidate p q l = s.gaugeSeen p q then 2
  else if s.gaugeWrite p = none then 1 else 8

theorem State.swatchOutcome_lt (s : State) (p q : Nat) (l : List Int) : s.swatchOutcome p q l < 16 := by
  unfold State.swatchOutcome
  split_ifs <;> decide

section
variable {s : State} {p q : Nat} {l : List Int}

theorem State.outcome_wide (h : 2 ^ 21 ≤ spreadSum l) : s.swatchOutcome p q l = 4 := if_pos h

theorem State.outcome_first (h : spreadSum l < 2 ^ 21) (ha : s.anchorSeen p q = none) : s.swatchOutcome p q l = 3 := by
  rw [State.swatchOutcome, if_neg (by omega), if_pos ha]

variable (h : spreadSum l < 2 ^ 21) (ha : s.anchorSeen p q ≠ none)
include h ha

theorem State.outcome_far (hf : s.tooFar p q (s.candidate p q l)) : s.swatchOutcome p q l = 5 := by
  rw [State.swatchOutcome, if_neg (by omega), if_neg ha, if_pos hf]

variable (hf : ¬ s.tooFar p q (s.candidate p q l))
include hf

theorem State.outcome_steep (hs : s.tooSteep p q (s.candidate p q l)) : s.swatchOutcome p q l = 6 := by
  rw [State.swatchOutcome, if_neg (by omega), if_neg ha, if_neg hf, if_pos hs]

variable (hs : ¬ s.tooSteep p q (s.candidate p q l))
include hs

theorem State.outcome_equal (he : s.candidate p q l = s.gaugeSeen p q) : s.swatchOutcome p q l = 2 := by
  rw [State.swatchOutcome, if_neg (by omega), if_neg ha, if_neg hf, if_neg hs, if_pos he]

theorem State.outcome_yields (he : s.candidate p q l ≠ s.gaugeSeen p q) (hw : s.gaugeWrite p ≠ none) : s.swatchOutcome p q l = 8 := by
  rw [State.swatchOutcome, if_neg (by omega), if_neg ha, if_neg hf, if_neg hs, if_neg he, if_neg hw]

theorem State.outcome_commits (he : s.candidate p q l ≠ s.gaugeSeen p q) (hw : s.gaugeWrite p = none) : s.swatchOutcome p q l = 1 := by
  rw [State.swatchOutcome, if_neg (by omega), if_neg ha, if_neg hf, if_neg hs, if_neg he, if_pos hw]

end

/-- What is noted before the outcome: the first anchor, or the candidate's age (R429, R442). -/
def State.swatchNoted (s : State) (p q : Nat) (l : List Int) (o : Nat) : State :=
  if o = 4 then s
  else if o = 3 then (s.setAnchor p q (some (swatchSum l))).noteAge p q (s.gaugeOf Obj.calBase p q)
  else s.noteAge p q (s.candidate p q l)

/-- What follows the outcome: a rejection, a commit, the end of a run of rejections (R431 to R433). -/
def State.swatchSettled (s : State) (p q o : Nat) (c : Int) : State :=
  if o = 4 ∨ o = 5 ∨ o = 6 then s.rejectSwatch p q
  else if o = 1 then (s.commitGauge p q c true).endRun p q
  else if o = 8 then s
  else s.endRun p q

@[simp] theorem State.swatchNoted_wide (s : State) (p q : Nat) (l : List Int) : s.swatchNoted p q l 4 = s := if_pos rfl

@[simp] theorem State.swatchNoted_first (s : State) (p q : Nat) (l : List Int) :
    s.swatchNoted p q l 3 = (s.setAnchor p q (some (swatchSum l))).noteAge p q (s.gaugeOf Obj.calBase p q) := rfl

theorem State.swatchNoted_candidate (s : State) (p q : Nat) (l : List Int) {o : Nat} (h4 : o ≠ 4) (h3 : o ≠ 3) :
    s.swatchNoted p q l o = s.noteAge p q (s.candidate p q l) := by
  rw [State.swatchNoted, if_neg h4, if_neg h3]

theorem State.swatchSettled_rejects (s : State) (p q : Nat) (c : Int) {o : Nat} (h : o = 4 ∨ o = 5 ∨ o = 6) : s.swatchSettled p q o c = s.rejectSwatch p q := if_pos h

@[simp] theorem State.swatchSettled_commits (s : State) (p q : Nat) (c : Int) : s.swatchSettled p q 1 c = (s.commitGauge p q c true).endRun p q := rfl

@[simp] theorem State.swatchSettled_yields (s : State) (p q : Nat) (c : Int) : s.swatchSettled p q 8 c = s := rfl

theorem State.swatchSettled_ends (s : State) (p q : Nat) (c : Int) {o : Nat} (h : o = 2 ∨ o = 3) : s.swatchSettled p q o c = s.endRun p q := by
  rw [State.swatchSettled, if_neg (by omega), if_neg (by omega), if_neg (by omega)]

/-- R430: a complete swatch, step by step: what it notes, its outcome, what follows, the note of the pin. -/
theorem State.evalSwatch_eq (s : State) (p q : Nat) (l : List Int) : ∃ spread delta cand, s.evalSwatch p q l =
    (((s.draw.draw.swatchNoted p q l (s.swatchOutcome p q l)).lastSwatch p q (s.swatchOutcome p q l) spread delta cand).swatchSettled p q (s.swatchOutcome p q l)
      (s.candidate p q l)).calNote p := by
  unfold State.evalSwatch
  extract_lets sum ss root write anchor base committed up spread s1 delta s2
  have hanchor : anchor = s.anchorSeen p q := by
    simp only [anchor, write, State.anchorSeen]
    cases s.gaugeWrite p <;> rfl
  have hbase : base = s.baseSeen p q := by
    simp only [base, write, State.baseSeen]
    cases s.gaugeWrite p <;> rfl
  have hcommitted : committed = s.gaugeSeen p q := by
    simp only [committed, write, State.gaugeSeen]
    cases s.gaugeWrite p <;> rfl
  clear_value anchor base committed spread delta
  subst hanchor hbase hcommitted
  by_cases hs : 2 ^ 21 ≤ spreadSum l
  · refine ⟨some spread, delta, none, ?_⟩
    rw [if_pos hs, State.outcome_wide hs, State.swatchNoted_wide, State.swatchSettled_rejects _ _ _ _ (.inl rfl)]
  rw [if_neg hs]
  have hl : spreadSum l < 2 ^ 21 := by omega
  cases ha : s.anchorSeen p q with
  | none =>
    refine ⟨some spread, some 0, none, ?_⟩
    rw [State.outcome_first hl ha, State.swatchNoted_first, State.swatchSettled_ends _ _ _ _ (.inr rfl)]
    rfl
  | some a =>
    have hc : s.baseSeen p q - roundDiv (sum - a) 256 = s.candidate p q l := by
      rw [State.candidate, ha]
      rfl
    have han : s.anchorSeen p q ≠ none := by simp [ha]
    dsimp only
    rw [hc]
    refine ⟨some spread, delta, some (s.candidate p q l), ?_⟩
    split
    · rename_i hf
      rw [State.outcome_far hl han hf, State.swatchNoted_candidate _ _ _ _ (by decide) (by decide), State.swatchSettled_rejects _ _ _ _ (.inr (.inl rfl))]
      rfl
    rename_i hf
    split
    · rename_i hst
      rw [State.outcome_steep hl han hf hst, State.swatchNoted_candidate _ _ _ _ (by decide) (by decide), State.swatchSettled_rejects _ _ _ _ (.inr (.inr rfl))]
      rfl
    rename_i hst
    split
    · rename_i he
      rw [State.outcome_equal hl han hf hst he, State.swatchNoted_candidate _ _ _ _ (by decide) (by decide), State.swatchSettled_ends _ _ _ _ (.inl rfl)]
      rfl
    rename_i he
    by_cases hw : s.gaugeWrite p = none
    · rw [if_neg (by simp [write, hw]), State.outcome_commits hl han hf hst he hw, State.swatchNoted_candidate _ _ _ _ (by decide) (by decide),
        State.swatchSettled_commits]
      rfl
    · rw [if_pos (by simpa [write, Option.isSome_iff_ne_none] using hw), State.outcome_yields hl han hf hst he hw,
        State.swatchNoted_candidate _ _ _ _ (by decide) (by decide), State.swatchSettled_yields]
      rfl

/-! What each step shows. -/

theorem State.swatchNoted_swatchView (s : State) (p q : Nat) (l : List Int) (o : Nat) :
    (s.swatchNoted p q l o).swatchView p q = { s.swatchView p q with anchor := if o = 3 then some (swatchSum l) else s.anchor p q } := by
  unfold State.swatchNoted
  split_ifs with h4 h3 h3
  · exact absurd h3 (by omega)
  · rfl
  · simp
  · simp only [State.noteAge_swatchView]
    rfl

theorem State.swatchSettled_swatchView (s : State) (p q o : Nat) (c : Int) : (s.swatchSettled p q o c).swatchView p q =
    { s.swatchView p q with
      gauge := if o = 1 then (gaugeFld q).put (s.swatchView p q).gauge (ofSigned 16 c) else (s.swatchView p q).gauge
      rejects := if o = 4 ∨ o = 5 ∨ o = 6 then counted 48 (s.swatchView p q).rejects 1 else (s.swatchView p q).rejects } := by
  unfold State.swatchSettled
  split_ifs with hr h1 h1 h8
  · exact absurd h1 (by omega)
  · rw [State.rejectSwatch_swatchView]
  · rw [State.endRun_swatchView, State.commitGauge_swatchView]
  · rfl
  · rw [State.endRun_swatchView]

/-- R429 to R434: what a complete swatch leaves of its pin and quantity. -/
theorem State.evalSwatch_swatchView (s : State) (p : Nat) {q : Nat} (hq : q < 8) (l : List Int) : (s.evalSwatch p q l).swatchView p q =
    { outcome := s.swatchOutcome p q l
      gauge := if s.swatchOutcome p q l = 1 then (gaugeFld q).put (s.rd Obj.ptfGauge p) (ofSigned 16 (s.candidate p q l)) else s.rd Obj.ptfGauge p
      rejects := if s.swatchOutcome p q l = 4 ∨ s.swatchOutcome p q l = 5 ∨ s.swatchOutcome p q l = 6 then counted 48 (s.fld Obj.calRejects 0 ⟨0, 48⟩) 1
        else s.fld Obj.calRejects 0 ⟨0, 48⟩
      anchor := if s.swatchOutcome p q l = 3 then some (swatchSum l) else s.anchor p q } := by
  obtain ⟨spread, delta, cand, e⟩ := s.evalSwatch_eq p q l
  rw [e, State.calNote_swatchView, State.swatchSettled_swatchView, State.lastSwatch_swatchView _ _ hq (s.swatchOutcome_lt p q l), State.swatchNoted_swatchView]
  rfl

/-! ### The frame of a swatch that ends -/

/-- What the end of a swatch of a pin may change. -/
abbrev swatchEls (p : Nat) : List (Nat × Nat) := [(Obj.ptfGauge, p), (Obj.calLastSwatch, p), (Obj.calPinStatus, p), (Obj.calCounts, 0), (Obj.calRejects, 0)]

abbrev swatchParts : List Part := withFaults [.now, .cal, .freeCtr]

theorem Keeps.lastSwatch {s t : State} {els : List (Nat × Nat)} {ps : List Part} (h : Keeps s t els ps) {p : Nat} (q o : Nat) (spread : Option Nat)
    (delta cand : Option Int) (hl : (Obj.calLastSwatch, p) ∈ els) (hc : (Obj.calCounts, 0) ∈ els) (hf : pt.freeCtr ||| maskOf ps = maskOf ps) :
    Keeps s (t.lastSwatch p q o spread delta cand) els ps := by
  unfold State.lastSwatch
  extract_lets f d v
  exact ((h.kept (Kept.set_freeCtr (by decide +kernel) (.refl pt.freeCtr t)) hf).wr v (by decide) hl).count _ _ _ (by decide) hc

theorem Keeps.swatchDone {s t : State} {els : List (Nat × Nat)} {ps : List Part} (h : Keeps s t els ps) (b : Nat) (hc : (Obj.calCounts, 0) ∈ els)
    (hp : pt.cal ||| maskOf ps = maskOf ps) : Keeps s (t.swatchDone b) els ps := by
  obtain ⟨x, y, -, -, e | ⟨n, e⟩⟩ := t.swatchDone_cases b <;> rw [e]
  · exact h.kept (State.setCalBank_kept ..) hp
  · exact ((h.kept (State.setCalBank_kept ..) hp).count _ _ _ (by decide) hc).kept (State.setCalBank_kept ..) hp

section
variable {s t : State} {p : Nat} (h : Keeps s t (swatchEls p) swatchParts)
include h

theorem Keeps.endRun (q : Nat) : Keeps s (t.endRun p q) (swatchEls p) swatchParts :=
  (h.kept (Kept.set_cal (by decide +kernel) (.refl pt.cal t)) (by decide +kernel)).setFld _ _ (by decide) (by simp)

theorem Keeps.rejectSwatch (q : Nat) : Keeps s (t.rejectSwatch p q) (swatchEls p) swatchParts := by
  unfold State.rejectSwatch
  extract_lets run u c w
  have counted : Keeps s u (swatchEls p) swatchParts := h.count _ _ _ (by decide) (by simp)
  have noted : Keeps s w (swatchEls p) swatchParts := counted.kept (Kept.set_cal (by decide +kernel) (.refl pt.cal u)) (by decide +kernel)
  split
  · exact (noted.setFld _ _ (by decide) (by simp)).kept (State.raise_kept ..) (by decide +kernel)
  · exact noted

theorem Keeps.commitGauge (q : Nat) (v : Int) (live : Bool) : Keeps s (t.commitGauge p q v live) (swatchEls p) swatchParts := by
  unfold State.commitGauge
  extract_lets k before u
  exact (h.setFld _ _ (by decide) (by simp)).kept (Kept.set_cal (by decide +kernel) (.refl pt.cal u)) (by decide +kernel)

theorem Keeps.swatchSettled (q o : Nat) (c : Int) : Keeps s (t.swatchSettled p q o c) (swatchEls p) swatchParts := by
  unfold State.swatchSettled
  split_ifs
  · exact h.rejectSwatch q
  · exact (h.commitGauge q c true).endRun q
  · exact h
  · exact h.endRun q

theorem Keeps.swatchNoted (q : Nat) (l : List Int) (o : Nat) : Keeps s (t.swatchNoted p q l o) (swatchEls p) swatchParts := by
  unfold State.swatchNoted
  split_ifs
  · exact h
  · exact (h.kept (State.setAnchor_kept ..) (by decide +kernel)).kept (State.noteAge_kept ..) (by decide +kernel)
  · exact h.kept (State.noteAge_kept ..) (by decide +kernel)

theorem Keeps.evalSwatch (q : Nat) (l : List Int) : Keeps s (t.evalSwatch p q l) (swatchEls p) swatchParts := by
  obtain ⟨spread, delta, cand, e⟩ := t.evalSwatch_eq p q l
  have drawn := (h.kept t.draw_kept (by decide +kernel)).kept t.draw.draw_kept (by decide +kernel)
  rw [e]
  exact (((drawn.swatchNoted q l _).lastSwatch q _ spread delta cand (by simp) (by simp) (by decide +kernel)).swatchSettled q _ _).calNote p (by simp)

end

/-! ### The 128th sample (R430 to R434) -/

/-- Bank k's swatch of quantity q of pin p has ended at instant d with an outcome. -/
def SwatchEnded (k p q d : Nat) (s t : State) (o : Nat) : Prop :=
  t.now = d ∧ (t.calBank k).samples = [] ∧ t.fld Obj.calLastSwatch p F.calLastSwatchOutcome = o ∧
    (o ≠ 1 → t.rd Obj.ptfGauge p = s.rd Obj.ptfGauge p) ∧ (o ≠ 3 → t.anchor p q = s.anchor p q) ∧
    t.fld Obj.calRejects 0 ⟨0, 48⟩ = (if o = 4 ∨ o = 5 ∨ o = 6 then counted 48 (s.fld Obj.calRejects 0 ⟨0, 48⟩) 1 else s.fld Obj.calRejects 0 ⟨0, 48⟩) ∧
    Keeps s t (swatchEls p) swatchParts

/-- The 128th sample ends the swatch with the outcome that its samples have where they have been taken: a first anchor is their sum, a commit puts the candidate into
the gauge. -/
theorem calSample_ends {s : State} {k : Nat} (v : Int) {o : Nat} (hk : k < 8) (on : s.calOn = true) (hp : s.rd Obj.ptfPinState (32 * k + (s.calBank k).pin) = 2)
    (hq : (s.calBank k).q < 6) (hl : (s.calBank k).samples.length = 127)
    (ho : (s.takeSample k v).swatchOutcome (32 * k + (s.calBank k).pin) (s.calBank k).q ((s.calBank k).samples ++ [v]) = o) :
    Next (.calSample k v) s (fun t => SwatchEnded k (32 * k + (s.calBank k).pin) (s.calBank k).q (max s.now (s.calBank k).ready) s t o ∧
      (o = 3 → t.anchor (32 * k + (s.calBank k).pin) (s.calBank k).q = some (swatchSum ((s.calBank k).samples ++ [v]))) ∧
      (o = 1 → t.rd Obj.ptfGauge (32 * k + (s.calBank k).pin) = (gaugeFld (s.calBank k).q).put (s.rd Obj.ptfGauge (32 * k + (s.calBank k).pin))
        (ofSigned 16 ((s.takeSample k v).candidate (32 * k + (s.calBank k).pin) (s.calBank k).q ((s.calBank k).samples ++ [v]))))) := by
  have hs : (s.calBank k).samples ≠ [] := List.ne_nil_of_length_pos (by omega)
  refine ⟨_, (calSample_takes v hk on (if_neg (by simpa using hs)) hp (.inl hs)).trans (congrArg _ (if_neg (by omega))), ?_⟩
  generalize (s.calBank k).samples ++ [v] = l at ho ⊢
  generalize 32 * k + (s.calBank k).pin = p at ho ⊢
  generalize (s.calBank k).q = q at hq ho ⊢
  let t := ((s.takeSample k v).evalSwatch p q l).swatchDone k
  have view : t.swatchView p q = _ := (State.swatchDone_swatchView ..).trans ((s.takeSample k v).evalSwatch_swatchView p (by omega) l)
  rw [ho] at view
  have outcome : t.fld Obj.calLastSwatch p F.calLastSwatchOutcome = o := congrArg SwatchView.outcome view
  have gauge : t.rd Obj.ptfGauge p = _ := congrArg SwatchView.gauge view
  have rejects : t.fld Obj.calRejects 0 ⟨0, 48⟩ = _ := congrArg SwatchView.rejects view
  have anchor : t.anchor p q = _ := congrArg SwatchView.anchor view
  have now : t.now = max s.now (s.calBank k).ready :=
    ((State.swatchDone_kept ..).now_eq (by decide +kernel)).trans ((State.evalSwatch_kept ..).now_eq (by decide +kernel))
  refine ⟨⟨now, State.swatchDone_samples .., outcome, fun h1 => gauge.trans (if_neg h1), fun h3 => anchor.trans (if_neg h3), rejects, ?_⟩,
    fun h3 => anchor.trans (if_pos h3), fun h1 => gauge.trans (if_pos h1)⟩
  exact (Keeps.evalSwatch ((s.takeSample_kept k v).keeps _ _ (by decide +kernel)) q l).swatchDone k (by simp) (by decide +kernel)

end Sys2Proof.Machine
end

section
namespace Sys2Proof.Machine
-- one declaration at a time, as in the laws: each `decide +kernel` waits for the declarations before it
set_option Elab.async false

/-! ### SWATCH_TIMEOUT (R427) -/

/-- A swatch that ends counts skips in CAL.COUNTS and nothing else. -/
theorem State.swatchDone_counts (s : State) (b : Nat) {g : Fld} (hf : F.calCountsSkips.Apart g) (hs : Fld.Apart ⟨193, 1⟩ g) :
    (s.swatchDone b).fld Obj.calCounts 0 g = s.fld Obj.calCounts 0 g := by
  obtain ⟨x, y, -, -, e | ⟨n, e⟩⟩ := s.swatchDone_cases b <;> rw [e]
  · rfl
  · exact State.fld_count_apart _ _ _ _ _ _ _ hf hs

/-- An outcome counts in its own field of CAL.COUNTS. -/
theorem State.lastSwatch_counts (s : State) (p q o : Nat) (spread : Option Nat) (delta cand : Option Int) {g : Fld} (hf : Fld.Apart ⟨0, 48⟩ g)
    (hs : Fld.Apart ⟨192, 1⟩ g) : (s.lastSwatch p q o spread delta cand).fld Obj.calCounts 0 g = s.fld Obj.calCounts 0 g := by
  unfold State.lastSwatch
  extract_lets f d v
  rw [State.calCounts, State.fld_count_apart _ _ _ _ _ _ _ hf hs, State.fld, State.rd_wr_obj _ _ (by decide) (by decide) (by decide)]
  rfl

theorem swatchTimeout_ends {s : State} {k : Nat} (on : s.calOn = true) (hq : (s.calBank k).q < 8) (hs : (s.calBank k).samples ≠ []) :
    Next (.swatchTimeout k) s (fun t => t.now = max s.now ((s.calBank k).first + s.rd Obj.calSwatchTimeout 0) ∧ (t.calBank k).samples = [] ∧
      t.fld Obj.calLastSwatch (32 * k + (s.calBank k).pin) F.calLastSwatchOutcome = 7 ∧
      t.fld Obj.calCounts 0 ⟨96, 48⟩ = counted 48 (s.fld Obj.calCounts 0 ⟨96, 48⟩) 1 ∧
      Keeps s t [(Obj.calLastSwatch, 32 * k + (s.calBank k).pin), (Obj.calCounts, 0)] [.now, .cal, .freeCtr]) := by
  generalize hu : s.reach ((s.calBank k).first + s.rd Obj.calSwatchTimeout 0) = u
  have reached : Keeps s u [(Obj.calLastSwatch, 32 * k + (s.calBank k).pin), (Obj.calCounts, 0)] [.now, .cal, .freeCtr] :=
    hu ▸ (s.reach_kept _).keeps _ _ (by decide +kernel)
  have now : u.now = max s.now ((s.calBank k).first + s.rd Obj.calSwatchTimeout 0) := hu ▸ rfl
  have counts : u.fld Obj.calCounts 0 ⟨96, 48⟩ = s.fld Obj.calCounts 0 ⟨96, 48⟩ := hu ▸ rfl
  refine ⟨_, by rw [exec_swatchTimeout, execSwatchTimeout, if_neg (by simp [on]), if_neg (by simpa using hs), hu], ?_⟩
  generalize 32 * k + (s.calBank k).pin = p at reached ⊢
  generalize (s.calBank k).q = q at hq ⊢
  refine ⟨?_, State.swatchDone_samples .., ?_, ?_, ?_⟩
  · rw [(State.swatchDone_kept ..).now_eq (by decide +kernel), (State.calCounts_kept ..).now_eq (by decide +kernel),
      (State.lastSwatch_kept ..).now_eq (by decide +kernel), now]
  · rw [(State.swatchDone_kept ..).fld_eq _ _ (by decide) (by decide +kernel), (State.calCounts_kept ..).fld_eq _ _ (by decide) (by decide +kernel),
      State.lastSwatch_outcome _ _ hq (by decide)]
  · rw [State.swatchDone_counts _ _ (.inl (by decide)) (.inr (by decide)), State.calCounts, State.fld_count _ _ _ _ _ _ (.inr (by decide)),
      State.lastSwatch_counts _ _ _ _ _ _ _ (.inl (by decide)) (.inr (by decide)), counts]
    rfl
  · exact ((reached.lastSwatch q 7 none none none (by simp) (by simp) (by decide +kernel)).count _ _ _ (by decide) (by simp)).swatchDone k (by simp)
      (by decide +kernel)

/-! ### CAL_AGED (R441) -/

theorem exec_calAged (s : State) (n : Nat) : exec (.calAged n) s = execCalAged n s := rfl

theorem calAged_ages {s : State} {n d : Nat} (h : (s.ndl n).ageFrom = some d) (ha : s.fld Obj.calNeedleAge n F.calNeedleAgeAged = 0) :
    Next (.calAged n) s (fun t => t.now = max s.now (d + s.rd Obj.calMaxAge 0 + 1) ∧ t.fld Obj.calNeedleAge n F.calNeedleAgeAged = 1 ∧
      t.srcPending Ev.calAged = true ∧ Keeps s t [(Obj.calNeedleAge, n)] (withSignals [.now])) := by
  let u := (s.reach (d + s.rd Obj.calMaxAge 0 + 1)).setFld Obj.calNeedleAge n F.calNeedleAgeAged 1
  have kept : Keeps s u [(Obj.calNeedleAge, n)] (withSignals [.now]) := ((s.reach_kept _).keeps _ _ (by decide +kernel)).setFld _ _ (by decide) (by simp)
  refine ⟨u.latch Ev.calAged, ?_, ?_, ?_, State.latch_pending .., kept.kept (State.latch_kept ..) (by decide +kernel)⟩
  · rw [exec_calAged, execCalAged, h]
    exact if_neg (by omega)
  · exact (State.latch_kept ..).now_eq (by decide +kernel)
  · rw [(State.latch_kept ..).fld_eq _ _ (by decide) (by decide +kernel), State.fld_setFld_self]
    rfl

theorem calAged_idle {s : State} {n : Nat} (h : (s.ndl n).ageFrom = none ∨ s.fld Obj.calNeedleAge n F.calNeedleAgeAged = 1) :
    Next (.calAged n) s (fun t => t = s) := by
  refine ⟨s, ?_, rfl⟩
  rw [exec_calAged, execCalAged]
  cases ha : (s.ndl n).ageFrom with
  | none => rfl
  | some d => exact if_pos (h.resolve_left (by simp [ha]))

/-! ### FULL_CAL_PHASE before the last phase (R447) -/

theorem exec_fullCalPhase (s : State) (res : CalResults) : exec (.fullCalPhase res) s = execFullCalPhase res s := rfl

theorem fullCalPhase_idle {s : State} (res : CalResults) (h : s.cal.full = none) : Next (.fullCalPhase res) s (fun t => t = s) :=
  ⟨s, by rw [exec_fullCalPhase, execFullCalPhase, h], rfl⟩

/-- Full calibration goes on with the next phase; phases 1 and 2 have found results. -/
def State.phaseFound (s : State) (ph : Nat) (res : CalResults) : State :=
  ({ s with cal := { s.cal with found := s.cal.found ++ (if ph = 1 ∨ ph = 2 then res else []) } }).setFld Obj.calFullStatus 0 F.calFullStatusPhase (ph + 1)

/-- The phase of full calibration. -/
def State.fullPhase (s : State) : Nat := s.fld Obj.calFullStatus 0 F.calFullStatusPhase

/-- Full calibration, which began at instant d, has come to the end of its phase. -/
def State.phaseOver (s : State) (d : Nat) : State := s.reach (d + phaseEnd s.fullPhase)

theorem execFullCalPhase_early {s : State} (res : CalResults) {d : Nat} (h : s.cal.full = some d) (hp : s.fullPhase < 3) :
    execFullCalPhase res s = .next (((s.phaseOver d).fullDrive d s.fullPhase).phaseFound s.fullPhase res) := by
  unfold execFullCalPhase
  split
  · rename_i hn
    exact absurd (h.symm.trans hn) nofun
  · rename_i d' hd
    obtain rfl : d' = d := Option.some.inj (hd.symm.trans h)
    exact if_pos hp

theorem fullCalPhase_goesOn {s : State} (res : CalResults) {d : Nat} (h : s.cal.full = some d) (hp : s.fullPhase < 3) :
    Next (.fullCalPhase res) s (fun t => t.now = max s.now (d + phaseEnd s.fullPhase) ∧ t.fld Obj.calFullStatus 0 F.calFullStatusPhase = s.fullPhase + 1 ∧
      t.cal.found = s.cal.found ++ (if s.fullPhase = 0 then [] else res) ∧ t.cal.full = s.cal.full ∧
      Keeps s t [(Obj.calFullStatus, 0)] [.cal, .now, .out, .pins]) := by
  refine ⟨_, (exec_fullCalPhase s res).trans (execFullCalPhase_early res h hp), ?_⟩
  have driven := State.fullDrive_kept (s.phaseOver d) d s.fullPhase
  generalize (s.phaseOver d).fullDrive d s.fullPhase = u at driven ⊢
  have cal : u.cal = s.cal := driven.same .cal (by decide +kernel)
  have kept : Keeps s u [(Obj.calFullStatus, 0)] [.cal, .now, .out, .pins] := ((s.reach_kept _).keeps _ _ (by decide +kernel)).kept driven (by decide +kernel)
  refine ⟨driven.now_eq (by decide +kernel), ?_, ?_, show u.cal.full = _ from congrArg CalRt.full cal, ?_⟩
  · rw [State.phaseFound, State.fld_setFld_self]
    exact Nat.mod_eq_of_lt (by show _ < 2 ^ 8; omega)
  · show u.cal.found ++ (if s.fullPhase = 1 ∨ s.fullPhase = 2 then res else []) = _
    rw [cal]
    congr 1
    by_cases h0 : s.fullPhase = 0
    · rw [if_neg (by omega), if_pos h0]
    · rw [if_pos (by omega), if_neg h0]
  · exact (kept.kept (Kept.set_cal (by decide +kernel) (.refl pt.cal u)) (by decide +kernel)).setFld _ _ (by decide) (by simp)

/-! ### One pin at the end of full calibration (R448 to R450) -/

/-- The pin's bank takes part. -/
def State.chosen (s : State) (p : Nat) : Bool := bit (s.fld Obj.calFullCfg 0 F.calFullCfgBanks) (p / 32)

/-- The first quantity of a pin that fails. -/
def State.failing (s : State) (p : Nat) : Option Nat := (s.fullQuants p).find? (fun q => s.fullCheck p q != 0)

/-- The result of one quantity is committed; it is the quantity's anchor and age too (R449). -/
def State.commitFound (s : State) (p q : Nat) : State :=
  match calFound s.cal.found p q with
  | some (g, a, _) => ((s.commitGauge p q g false).setAnchor p q (some a)).noteAge p q g
  | none => s

/-- All results of a pin are committed. -/
def State.commitPin (s : State) (p : Nat) : State := (s.fullQuants p).foldl (fun s q => s.commitFound p q) s

/-- A pin that passes: its results, its code, its new base (R449). -/
def State.passPin (s : State) (p : Nat) : State := ((s.commitPin p).wr Obj.calFullPin p 1).wr Obj.calBase p ((s.commitPin p).rd Obj.ptfGauge p)

/-- One pin, without the counts of passes and failures. -/
def State.endPin (s : State) (p : Nat) : State := (State.fullPin (s, 0, 0) p).1

section
variable {s : State} {p : Nat}

theorem State.fullPin_unchosen (h : s.chosen p = false) (pass bad : Nat) : State.fullPin (s, pass, bad) p = (s.wr Obj.calFullPin p 0, pass, bad) := by
  rw [State.fullPin]
  exact if_pos (by rw [State.chosen] at h; simp [h])

theorem State.fullPin_chosen (h : s.chosen p = true) (pass bad : Nat) : State.fullPin (s, pass, bad) p = (match s.failing p with
    | some q => (s.wr Obj.calFullPin p (s.fullCheck p q + q * 2 ^ 8), pass, bad + 1)
    | none => ((s.passPin p).gaugeSettled p ((s.passPin p).pinFree p), pass + 1, bad)) := by
  have h' : ¬ (!bit (s.fld Obj.calFullCfg 0 F.calFullCfgBanks) (p / 32)) = true := by rw [State.chosen] at h; simp [h]
  rw [State.fullPin]
  dsimp only
  rw [if_neg h', State.gaugeSettled, apply_ite (fun u : State => u.calNote p)]
  rfl

theorem State.endPin_unchosen (h : s.chosen p = false) : s.endPin p = s.wr Obj.calFullPin p 0 := by
  rw [State.endPin, State.fullPin_unchosen h]

theorem State.endPin_fails {q : Nat} (h : s.chosen p = true) (hf : s.failing p = some q) :
    s.endPin p = s.wr Obj.calFullPin p (s.fullCheck p q + q * 2 ^ 8) := by
  rw [State.endPin, State.fullPin_chosen h, hf]

theorem State.endPin_passes (h : s.chosen p = true) (hf : s.failing p = none) : s.endPin p = (s.passPin p).gaugeSettled p ((s.passPin p).pinFree p) := by
  rw [State.endPin, State.fullPin_chosen h, hf]

end

end Sys2Proof.Machine
end

section
namespace Sys2Proof.Machine
-- one declaration at a time, as in the laws: each `decide +kernel` waits for the declarations before it
set_option Elab.async false

/-! ### A result that is committed (R448, R449) -/

theorem ofSigned_cast (w : Nat) (i : Int) : (ofSigned w i : Int) = i % (2 ^ w : Nat) := Int.toNat_of_nonneg (Int.emod_nonneg _ (by positivity))

theorem ofSigned_lt (w : Nat) (i : Int) : ofSigned w i < 2 ^ w := by
  have := Int.emod_lt_of_pos i (show (0 : Int) < (2 ^ w : Nat) by positivity)
  have := ofSigned_cast w i
  omega

/-- Two's complement there and back, for a number that fits. -/
theorem toSigned_ofSigned {w : Nat} {i : Int} (hl : -(2 ^ w : Nat) ≤ i) (hh : i < (2 ^ w : Nat)) : toSigned (w + 1) (ofSigned (w + 1) i) = i := by
  have e := ofSigned_cast (w + 1) i
  have double : 2 ^ (w + 1) = 2 * 2 ^ w := by rw [Nat.pow_succ, Nat.mul_comm]
  rw [toSigned, Nat.mod_eq_of_lt (ofSigned_lt ..), Nat.add_sub_cancel]
  rw [double] at e ⊢
  by_cases hi : 0 ≤ i
  · rw [Int.emod_eq_of_lt hi (by omega)] at e
    rw [if_pos (by omega), e]
  · rw [← Int.add_emod_right, Int.emod_eq_of_lt (by omega) (by omega)] at e
    rw [if_neg (by omega), e]
    omega

theorem gaugeFld_apart {q q' : Nat} (h : q ≠ q') : (gaugeFld q).Apart (gaugeFld q') := by
  show 16 * q + 16 ≤ 16 * q' ∨ 16 * q' + 16 ≤ 16 * q
  omega

/-- A gauge into which a quantity that fits has been put. -/
theorem toSigned_gauge_put (q g : Nat) {c : Int} (h : c.natAbs ≤ 2000) : toSigned 16 ((gaugeFld q).get ((gaugeFld q).put g (ofSigned 16 c))) = c := by
  rw [Fld.get_put_self]
  show toSigned 16 (ofSigned 16 c % 2 ^ 16) = c
  rw [Nat.mod_eq_of_lt (ofSigned_lt 16 c)]
  exact toSigned_ofSigned (w := 15) (by norm_num; omega) (by norm_num; omega)

/-- The other quantities of the gauge stay. -/
theorem get_gauge_put_ne {q q' : Nat} (g v : Nat) (h : q' ≠ q) : (gaugeFld q').get ((gaugeFld q).put g v) = (gaugeFld q').get g :=
  Fld.get_put_apart _ _ _ _ (gaugeFld_apart h.symm)

/-- A quantity that passes lies in the range of a gauge. -/
theorem State.fullCheck_fits {s : State} {p q : Nat} {y : Int × Int × Bool} (h : s.fullCheck p q = 0)
    (hy : calFound s.cal.found p q = some y) : y.1.natAbs ≤ 2000 := by
  obtain ⟨g, a, ok⟩ := y
  rw [State.fullCheck, hy] at h
  dsimp only at h
  split_ifs at h with hok hlim
  exact not_lt.1 fun hg => hlim (.inr hg)

@[simp] theorem State.noteAge_anchor (s : State) (p q : Nat) (v : Int) (p' q' : Nat) : (s.noteAge p q v).anchor p' q' = s.anchor p' q' := rfl

@[simp] theorem State.commitGauge_anchor (s : State) (p q : Nat) (v : Int) (live : Bool) (p' q' : Nat) : (s.commitGauge p q v live).anchor p' q' = s.anchor p' q' :=
  rfl

section
variable {s : State} {p q : Nat}

theorem State.commitFound_some {y : Int × Int × Bool} (hy : calFound s.cal.found p q = some y) :
    s.commitFound p q = ((s.commitGauge p q y.1 false).setAnchor p q (some y.2.1)).noteAge p q y.1 := by
  rw [State.commitFound, hy]

theorem State.commitFound_none (hy : calFound s.cal.found p q = none) : s.commitFound p q = s := by
  rw [State.commitFound, hy]

theorem State.commitFound_found : (s.commitFound p q).cal.found = s.cal.found := by
  cases hy : calFound s.cal.found p q with
  | none => rw [State.commitFound_none hy]
  | some y => rw [State.commitFound_some hy, State.noteAge, State.setAnchor, State.commitGauge, State.setFld, State.wr]

/-- A result that is committed shows in the gauge and the anchor of its quantity. -/
theorem State.commitFound_self {y : Int × Int × Bool} (hy : calFound s.cal.found p q = some y) (fits : y.1.natAbs ≤ 2000) :
    (s.commitFound p q).gaugeOf Obj.ptfGauge p q = y.1 ∧ (s.commitFound p q).anchor p q = some y.2.1 := by
  have view : (s.commitFound p q).swatchView p q =
      { s.swatchView p q with gauge := (gaugeFld q).put (s.rd Obj.ptfGauge p) (ofSigned 16 y.1), anchor := some y.2.1 } := by
    rw [State.commitFound_some hy, State.noteAge_swatchView, State.setAnchor_swatchView, State.commitGauge_swatchView]
    rfl
  have gauge : (s.commitFound p q).rd Obj.ptfGauge p = _ := congrArg SwatchView.gauge view
  refine ⟨?_, congrArg SwatchView.anchor view⟩
  rw [State.gaugeOf, State.fld, gauge]
  exact toSigned_gauge_put _ _ fits

theorem State.commitFound_anchor_ne {p' q' : Nat} (h : calKey p' q' ≠ calKey p q) : (s.commitFound p q).anchor p' q' = s.anchor p' q' := by
  cases hy : calFound s.cal.found p q with
  | none => rw [State.commitFound_none hy]
  | some y =>
    rw [State.commitFound_some hy, State.noteAge_anchor, State.setAnchor_ne _ _ h, State.commitGauge_anchor]

/-- The other quantities of the pin stay. -/
theorem State.commitFound_ne {q' : Nat} (h : q' ≠ q) :
    (s.commitFound p q).gaugeOf Obj.ptfGauge p q' = s.gaugeOf Obj.ptfGauge p q' ∧ (s.commitFound p q).anchor p q' = s.anchor p q' := by
  refine ⟨?_, State.commitFound_anchor_ne (by unfold calKey; omega)⟩
  cases hy : calFound s.cal.found p q with
  | none => rw [State.commitFound_none hy]
  | some y =>
    have gauge : (s.commitFound p q).rd Obj.ptfGauge p = (gaugeFld q).put (s.rd Obj.ptfGauge p) (ofSigned 16 y.1) := by
      rw [State.commitFound_some hy]
      exact congrArg SwatchView.gauge (s.commitGauge_swatchView p q y.1 false)
    rw [State.gaugeOf, State.fld, gauge, get_gauge_put_ne _ _ h, State.gaugeOf, State.fld]

end

/-- What the end of full calibration may change of a pin. -/
abbrev pinEls (p : Nat) : List (Nat × Nat) := [(Obj.ptfGauge, p), (Obj.calFullPin, p), (Obj.calBase, p), (Obj.ptfGaugeActive, p), (Obj.calPinStatus, p)]

theorem Keeps.commitFound {s t : State} {els : List (Nat × Nat)} {ps : List Part} (h : Keeps s t els ps) {p : Nat} (q : Nat) (he : (Obj.ptfGauge, p) ∈ els)
    (hp : pt.cal ||| maskOf ps = maskOf ps) : Keeps s (t.commitFound p q) els ps := by
  cases hy : calFound t.cal.found p q with
  | none => rw [State.commitFound_none hy]; exact h
  | some y =>
    rw [State.commitFound_some hy]
    refine Keeps.kept (Keeps.kept ?_ (State.setAnchor_kept ..) hp) (State.noteAge_kept ..) hp
    unfold State.commitGauge
    extract_lets k before u
    exact (h.setFld _ _ (by decide) he).kept (Kept.set_cal (by decide +kernel) (.refl pt.cal u)) hp

theorem State.commitPin_keeps (s : State) (p : Nat) : Keeps s (s.commitPin p) [(Obj.ptfGauge, p)] [.cal] :=
  Keeps.foldl (.refl ..) fun _ q _ h => h.commitFound q (by simp) (by decide +kernel)

theorem State.commitPin_found (s : State) (p : Nat) : (s.commitPin p).cal.found = s.cal.found :=
  List.foldlRecOn (motive := fun u : State => u.cal.found = s.cal.found) _ _ rfl fun _ hu _ _ => State.commitFound_found.trans hu

theorem State.fullQuants_lt {s : State} {p q : Nat} (h : q ∈ s.fullQuants p) : q < 6 := by
  unfold State.fullQuants at h
  split at h
  · simp only [List.mem_cons, List.not_mem_nil, or_false] at h
    omega
  · exact List.mem_range.1 h

theorem State.commitPin_anchor_ne (s : State) {p p' q' : Nat} (hp : p' ≠ p) (hq : q' < 6) : (s.commitPin p).anchor p' q' = s.anchor p' q' :=
  List.foldlRecOn (motive := fun u : State => u.anchor p' q' = s.anchor p' q') _ _ rfl fun _ hu _ hm =>
    (State.commitFound_anchor_ne fun e => hp (calKey_inj (State.fullQuants_lt hm) hq e).1).trans hu

/-- Quantity q of pin p has the gauge and the anchor that full calibration found for it in state s, where it passes. -/
def FoundSet (s : State) (p q : Nat) (t : State) : Prop :=
  s.fullCheck p q = 0 → ∀ y, calFound s.cal.found p q = some y → t.gaugeOf Obj.ptfGauge p q = y.1 ∧ t.anchor p q = some y.2.1

theorem State.commitPin_set (s : State) {p q : Nat} (hq : q ∈ s.fullQuants p) : FoundSet s p q (s.commitPin p) := by
  refine (State.foldl_establishes (Inv := fun u => u.cal.found = s.cal.found) (P := fun q => FoundSet s p q) (f := fun u q => u.commitFound p q)
    (fun u q h => State.commitFound_found.trans h) (fun u q h ok y hy => ?_) (fun u q q' h hs ok y hy => ?_) (s.fullQuants p) s rfl).2 q (.inl hq)
  · exact State.commitFound_self (h ▸ hy) (State.fullCheck_fits ok hy)
  · by_cases e : q' = q
    · subst e
      exact State.commitFound_self (h ▸ hy) (State.fullCheck_fits ok hy)
    · obtain ⟨gauge, anchor⟩ := State.commitFound_ne (s := u) (p := p) e
      rw [gauge, anchor]
      exact hs ok y hy

/-! ### A pin at the end of full calibration -/

/-- Full calibration has dealt with pin p as state s judges it (R448, R449, R454). -/
structure PinEnded (s : State) (p : Nat) (t : State) : Prop where
  unchosen : s.chosen p = false → t.rd Obj.calFullPin p = 0
  fails : ∀ q, s.chosen p = true → s.failing p = some q → t.rd Obj.calFullPin p = s.fullCheck p q + q * 2 ^ 8
  passes : s.chosen p = true → s.failing p = none →
    t.rd Obj.calFullPin p = 1 ∧ t.rd Obj.calBase p = t.rd Obj.ptfGauge p ∧ ∀ q ∈ s.fullQuants p, FoundSet s p q t

theorem PinEnded.of_same {s t u : State} {p : Nat} (h : PinEnded s p t) (rd : ∀ o ∈ [Obj.calFullPin, Obj.calBase, Obj.ptfGauge], u.rd o p = t.rd o p)
    (anchor : ∀ q < 6, u.anchor p q = t.anchor p q) : PinEnded s p u where
  unchosen k := (rd _ (by simp)).trans (h.unchosen k)
  fails q k f := (rd _ (by simp)).trans (h.fails q k f)
  passes k f := by
    obtain ⟨code, base, found⟩ := h.passes k f
    refine ⟨(rd _ (by simp)).trans code, ((rd _ (by simp)).trans base).trans (rd _ (by simp)).symm, fun q hq ok y hy => ?_⟩
    rw [State.gaugeOf, State.fld, rd _ (by simp), anchor q (State.fullQuants_lt hq)]
    exact found q hq ok y hy

/-- The gauge and the base of a pin that does not pass stand as they did. -/
def GaugesStay (s t : State) : Prop := ∀ p, (s.chosen p = true → s.failing p ≠ none) →
  t.rd Obj.ptfGauge p = s.rd Obj.ptfGauge p ∧ t.rd Obj.calBase p = s.rd Obj.calBase p

theorem State.passPin_keeps (s : State) (p : Nat) : Keeps s (s.passPin p) (pinEls p) [.cal] :=
  (((s.commitPin_keeps p).mono (by simp) (by simp)).wr _ (by decide) (by simp)).wr _ (by decide) (by simp)

/-- What full calibration does with a pin, by what it finds. -/
theorem State.endPin_cases (s : State) (p : Nat) :
    (s.chosen p = false ∧ s.endPin p = s.wr Obj.calFullPin p 0) ∨
    (s.chosen p = true ∧ ∃ q, s.failing p = some q ∧ s.endPin p = s.wr Obj.calFullPin p (s.fullCheck p q + q * 2 ^ 8)) ∨
    (s.chosen p = true ∧ s.failing p = none ∧ s.endPin p = (s.passPin p).gaugeSettled p ((s.passPin p).pinFree p)) := by
  cases hc : s.chosen p with
  | false => exact .inl ⟨rfl, State.endPin_unchosen hc⟩
  | true =>
    cases hf : s.failing p with
    | some q => exact .inr (.inl ⟨rfl, q, rfl, State.endPin_fails hc hf⟩)
    | none => exact .inr (.inr ⟨rfl, rfl, State.endPin_passes hc hf⟩)

theorem State.endPin_keeps (s : State) (p : Nat) : Keeps s (s.endPin p) (pinEls p) [.cal] := by
  obtain ⟨-, e⟩ | ⟨-, q, -, e⟩ | ⟨-, -, e⟩ := s.endPin_cases p <;> rw [e]
  · exact (Keeps.refl ..).wr _ (by decide) (by simp)
  · exact (Keeps.refl ..).wr _ (by decide) (by simp)
  · exact (s.passPin_keeps p).gaugeSettled p _ (by simp) (by simp)

theorem State.gaugeSettled_cal (s : State) (p : Nat) (free : Bool) : (s.gaugeSettled p free).cal = s.cal := by
  rw [State.gaugeSettled]
  obtain ⟨x, e⟩ := (if free then s.wr Obj.ptfGaugeActive p (s.rd Obj.ptfGauge p) else s).calNote_eq p
  rw [e]
  cases free <;> rfl

theorem State.endPin_found (s : State) (p : Nat) : (s.endPin p).cal.found = s.cal.found := by
  obtain ⟨-, e⟩ | ⟨-, q, -, e⟩ | ⟨-, -, e⟩ := s.endPin_cases p <;> rw [e]
  · rfl
  · rfl
  · rw [State.gaugeSettled_cal]
    exact s.commitPin_found p

theorem State.endPin_anchor_ne (s : State) {p p' q' : Nat} (hp : p' ≠ p) (hq : q' < 6) : (s.endPin p).anchor p' q' = s.anchor p' q' := by
  obtain ⟨-, e⟩ | ⟨-, q, -, e⟩ | ⟨-, -, e⟩ := s.endPin_cases p <;> rw [e]
  · rfl
  · rfl
  · rw [State.gaugeSettled_anchor]
    exact s.commitPin_anchor_ne hp hq

theorem State.endPin_ended (s : State) (p : Nat) : PinEnded s p (s.endPin p) := by
  obtain ⟨hc, e⟩ | ⟨hc, q, hf, e⟩ | ⟨hc, hf, e⟩ := s.endPin_cases p <;> rw [e]
  · exact ⟨fun _ => State.rd_wr_self .., fun q k => absurd (hc.symm.trans k) nofun, fun k => absurd (hc.symm.trans k) nofun⟩
  · refine ⟨fun k => absurd (hc.symm.trans k) nofun, fun q' _ f => ?_, fun _ f => absurd (hf.symm.trans f) nofun⟩
    obtain rfl : q = q' := Option.some.inj (hf.symm.trans f)
    exact State.rd_wr_self ..
  · have passed : PinEnded s p (s.passPin p) := by
      refine ⟨fun k => absurd (hc.symm.trans k) nofun, fun q _ f => absurd (hf.symm.trans f) nofun, fun _ _ => ⟨?_, ?_, fun q hq ok y hy => ?_⟩⟩
      · rw [State.passPin, State.rd_wr_obj _ _ (by decide) (by decide) (by decide), State.rd_wr_self]
      · rw [State.passPin, State.rd_wr_self, State.rd_wr_obj _ _ (by decide) (by decide) (by decide), State.rd_wr_obj _ _ (by decide) (by decide) (by decide)]
      · rw [State.passPin, State.gaugeOf, State.fld, State.rd_wr_obj _ _ (by decide) (by decide) (by decide), State.rd_wr_obj _ _ (by decide) (by decide) (by decide),
          State.wr_anchor, State.wr_anchor]
        exact s.commitPin_set hq ok y hy
    refine passed.of_same (fun o ho => ?_) fun q _ => State.gaugeSettled_anchor ..
    simp only [List.mem_cons, List.not_mem_nil, or_false] at ho
    rcases ho with rfl | rfl | rfl <;> exact State.gaugeSettled_rd _ _ _ _ (by decide) (by decide) (by decide)

theorem State.endPin_stays (s : State) {p : Nat} (h : s.chosen p = true → s.failing p ≠ none) :
    (s.endPin p).rd Obj.ptfGauge p = s.rd Obj.ptfGauge p ∧ (s.endPin p).rd Obj.calBase p = s.rd Obj.calBase p := by
  obtain ⟨-, e⟩ | ⟨-, q, -, e⟩ | ⟨hc, hf, -⟩ := s.endPin_cases p
  · rw [e]
    exact ⟨State.rd_wr_obj _ _ (by decide) (by decide) (by decide), State.rd_wr_obj _ _ (by decide) (by decide) (by decide)⟩
  · rw [e]
    exact ⟨State.rd_wr_obj _ _ (by decide) (by decide) (by decide), State.rd_wr_obj _ _ (by decide) (by decide) (by decide)⟩
  · exact absurd hf (h hc)

/-! ### All pins (R449) -/

/-- What full calibration goes by is as in state s, and the pins that do not pass have kept their gauges. -/
structure FullInv (s t : State) : Prop where
  kept : Kept km_fullPin s t
  found : t.cal.found = s.cal.found
  stays : GaugesStay s t

section
variable {s u : State} (h : FullInv s u)
include h

theorem FullInv.chosen_eq (p : Nat) : u.chosen p = s.chosen p := by
  rw [State.chosen, h.kept.fld_eq _ _ (by decide) (by decide +kernel), State.chosen]

theorem FullInv.fullQuants_eq (p : Nat) : u.fullQuants p = s.fullQuants p := by
  rw [State.fullQuants, h.kept.fld_eq _ _ (by decide) (by decide +kernel), State.fullQuants]

theorem FullInv.fullCheck_eq (p q : Nat) : u.fullCheck p q = s.fullCheck p q := by
  unfold State.fullCheck State.gaugeOf
  rw [h.found, h.kept.fld_eq _ _ (by decide) (by decide +kernel), h.kept.rd _ (by decide) (by decide +kernel)]

theorem FullInv.failing_eq (p : Nat) : u.failing p = s.failing p := by
  unfold State.failing
  simp only [h.fullQuants_eq, h.fullCheck_eq]

theorem FullInv.ended {p : Nat} {t : State} (k : PinEnded u p t) : PinEnded s p t where
  unchosen c := k.unchosen ((h.chosen_eq p).trans c)
  fails q c f := h.fullCheck_eq p q ▸ k.fails q ((h.chosen_eq p).trans c) ((h.failing_eq p).trans f)
  passes c f := by
    obtain ⟨code, base, found⟩ := k.passes ((h.chosen_eq p).trans c) ((h.failing_eq p).trans f)
    exact ⟨code, base, fun q hq ok y hy => found q (h.fullQuants_eq p ▸ hq) (h.fullCheck_eq p q ▸ ok) y (h.found ▸ hy)⟩

theorem FullInv.endPin (p : Nat) : FullInv s (u.endPin p) where
  kept := h.kept.trans (State.fullPin_kept (u, 0, 0) p)
  found := (u.endPin_found p).trans h.found
  stays p' hp' := by
    obtain ⟨gauge, base⟩ := h.stays p' hp'
    by_cases e : p' = p
    · subst e
      obtain ⟨gauge', base'⟩ := u.endPin_stays (p := p') (by rw [h.chosen_eq, h.failing_eq]; exact hp')
      exact ⟨gauge'.trans gauge, base'.trans base⟩
    · exact ⟨((u.endPin_keeps p).rd _ _ (by decide) (by simp [e]) (by simp)).trans gauge, ((u.endPin_keeps p).rd _ _ (by decide) (by simp [e]) (by simp)).trans base⟩

end

/-- Dealing with another pin changes nothing of a pin that has been dealt with. -/
theorem PinEnded.endPin_ne {s u : State} {p q : Nat} (h : PinEnded s q u) (hq : q ≠ p) : PinEnded s q (u.endPin p) := by
  refine h.of_same (fun o ho => ?_) fun q' hq' => u.endPin_anchor_ne hq hq'
  simp only [List.mem_cons, List.not_mem_nil, or_false] at ho
  rcases ho with rfl | rfl | rfl <;> exact (u.endPin_keeps p).rd _ _ (by decide) (by simp [hq]) (by simp)

theorem State.fullPin_fst (x : State × Nat × Nat) (p : Nat) : (State.fullPin x p).1 = x.1.endPin p := by
  obtain ⟨s, pass, bad⟩ := x
  cases hc : s.chosen p with
  | false => rw [State.endPin, State.fullPin_unchosen hc, State.fullPin_unchosen hc]
  | true =>
    rw [State.endPin, State.fullPin_chosen hc, State.fullPin_chosen hc]
    cases s.failing p <;> rfl

theorem State.fullPins_fst (l : List Nat) (x : State × Nat × Nat) : (l.foldl State.fullPin x).1 = l.foldl State.endPin x.1 :=
  (List.foldl_hom Prod.fst fun x p => (State.fullPin_fst x p).symm).symm

/-- Full calibration deals with every pin of a list, and every pin that does not pass keeps its gauge. -/
theorem State.endPins_ended (s : State) (l : List Nat) : FullInv s (l.foldl State.endPin s) ∧ ∀ p ∈ l, PinEnded s p (l.foldl State.endPin s) := by
  have ne (u : State) (p q : Nat) (h : FullInv s u) (k : PinEnded s q u) : PinEnded s q (u.endPin p) := by
    by_cases e : q = p
    · subst e
      exact h.ended (u.endPin_ended q)
    · exact k.endPin_ne e
  obtain ⟨inv, ended⟩ := State.foldl_establishes (fun _ p (h : FullInv s _) => h.endPin p) (fun u p h => h.ended (u.endPin_ended p)) ne l s
    ⟨.refl .., rfl, fun _ _ => ⟨rfl, rfl⟩⟩
  exact ⟨inv, fun p hp => ended p (.inl hp)⟩

/-! ### The end of phase 3 (R449) -/

/-- What follows the pins, which have passed or failed so often: the count of calibrations, the status, the end of the transition. -/
def State.fullCounted (s : State) (pass bad : Nat) : State :=
  let s := if pass > 0 then s.calCount s.now else s
  let s := s.wr Obj.calFullStatus 0 ((if bad = 0 then 1 else 2) + 3 * 2 ^ 8 + bad * 2 ^ 16 + s.stamp * 2 ^ 32)
  let s := { s with cal := { s.cal with full := none, found := [] } }
  { s with trans := none }

/-- IDLE follows, and CAL_FULL_DONE is pending (R449). -/
def State.fullEnd (s : State) (pass bad : Nat) : State := ((s.fullCounted pass bad).enter .idle 9 6).latch Ev.calFullDone

/-- The pins with the counts of passes and failures. -/
def State.endPins (s : State) : State × Nat × Nat := (List.range 256).foldl State.fullPin (s, 0, 0)

theorem State.endPins_fst (s : State) : s.endPins.1 = (List.range 256).foldl State.endPin s := State.fullPins_fst ..

theorem execFullCalPhase_last {s : State} (res : CalResults) {d : Nat} (h : s.cal.full = some d) (hp : s.fullPhase = 3) :
    execFullCalPhase res s = .next ((s.phaseOver d).endPins.1.fullEnd (s.phaseOver d).endPins.2.1 (s.phaseOver d).endPins.2.2) := by
  unfold execFullCalPhase
  split
  · rename_i hn
    exact absurd (h.symm.trans hn) nofun
  · rename_i d' hd
    obtain rfl : d' = d := Option.some.inj (hd.symm.trans h)
    extract_lets ph v
    have hv : s.phaseOver d' = v := rfl
    rw [if_neg (show ¬ ph < 3 from fun k => absurd (hp.symm.trans_lt k) (by decide)), hv, State.endPins]
    generalize (List.range 256).foldl State.fullPin (v, 0, 0) = r
    obtain ⟨u, pass, bad⟩ := r
    rfl

/-- What the end of full calibration may change beside the pins. -/
def fullEndParts : Nat := km_calCount ||| ob Obj.calFullStatus ||| pt.cal ||| pt.trans ||| km_enter ||| km_latch

theorem State.fullCounted_kept (s : State) (pass bad : Nat) : Kept (km_calCount ||| ob Obj.calFullStatus ||| pt.cal ||| pt.trans) s (s.fullCounted pass bad) := by
  unfold State.fullCounted
  extract_lets u w c
  have counted : Kept (km_calCount ||| ob Obj.calFullStatus ||| pt.cal ||| pt.trans) s u :=
    .ite (fun _ => (State.calCount_kept ..).step (by decide +kernel) (.refl ..)) fun _ => .refl ..
  have told : Kept (km_calCount ||| ob Obj.calFullStatus ||| pt.cal ||| pt.trans) s w := (State.wr_kept ..).step (by decide +kernel) counted
  exact Kept.set_trans (by decide +kernel) (Kept.set_cal (by decide +kernel) told)

theorem State.fullEnd_kept (s : State) (pass bad : Nat) : Kept fullEndParts s (s.fullEnd pass bad) :=
  (State.latch_kept ..).step (by decide +kernel) <| (State.enter_kept ..).step (by decide +kernel) <| (s.fullCounted_kept pass bad).mono (by decide +kernel)

theorem State.calCount_anchors (s : State) (e : Nat) : (s.calCount e).cal.anchors = s.cal.anchors := by
  unfold State.calCount
  split
  · rfl
  · rw [State.wr_cal, State.count64, State.count_cal]

theorem State.fullCounted_anchors (s : State) (pass bad : Nat) : (s.fullCounted pass bad).cal.anchors = s.cal.anchors := by
  unfold State.fullCounted
  extract_lets u w c
  show w.cal.anchors = s.cal.anchors
  rw [show w.cal = u.cal from State.wr_cal ..]
  simp only [u]
  split
  · exact s.calCount_anchors _
  · rfl

/-- Entering IDLE and the event leave the Calibration Engine as it is. -/
theorem State.fullEnd_cal (s : State) (pass bad : Nat) : (s.fullEnd pass bad).cal = (s.fullCounted pass bad).cal :=
  ((State.latch_kept ..).same .cal (by decide +kernel)).trans ((State.enter_kept ..).same .cal (by decide +kernel))

theorem State.fullEnd_anchor (s : State) (pass bad p q : Nat) : (s.fullEnd pass bad).anchor p q = s.anchor p q := by
  rw [State.anchor, State.fullEnd_cal, State.fullCounted_anchors, State.anchor]

theorem State.fullEnd_full (s : State) (pass bad : Nat) : (s.fullEnd pass bad).cal.full = none := by
  rw [State.fullEnd_cal]
  rfl

theorem State.fullEnd_trans (s : State) (pass bad : Nat) : (s.fullEnd pass bad).trans = none := by
  rw [State.fullEnd, (State.latch_kept ..).trans_eq (by decide +kernel), (State.enter_kept ..).trans_eq (by decide +kernel)]
  rfl

theorem State.fullEnd_mode (s : State) (pass bad : Nat) : (s.fullEnd pass bad).mode = .idle ∧ (s.fullEnd pass bad).rd Obj.devPrevMode 0 = 9 ∧
    (s.fullEnd pass bad).rd Obj.devModeReason 0 = 6 := by
  obtain ⟨mode, prev, reason⟩ := (s.fullCounted pass bad).enter_reads 9 6 (m := .idle) (by decide)
  refine ⟨State.mode_of_rd ?_, ?_, ?_⟩
  · exact ((State.latch_kept ..).rd _ (by decide) (by decide +kernel)).trans mode
  · exact ((State.latch_kept ..).rd _ (by decide) (by decide +kernel)).trans prev
  · exact ((State.latch_kept ..).rd _ (by decide) (by decide +kernel)).trans reason

/-- The parts that the end of full calibration may change. -/
abbrev fullDoneParts : List Part := withSignals [.cal, .now, .pins, .trans, .obj Obj.calBase, .obj Obj.calCount, .obj Obj.calFullPin, .obj Obj.calFullStatus,
  .obj Obj.calLastTime, .obj Obj.calPinStatus, .obj Obj.clkSyncArm, .obj Obj.clkSyncStatus, .obj Obj.devMode, .obj Obj.devModeReason,
  .obj Obj.devModeStamp, .obj Obj.devPrevMode, .obj Obj.hmsLoad, .obj Obj.ptfGauge, .obj Obj.ptfGaugeActive, .obj Obj.rqpPoolStatus]

/-- Full calibration is over: the engine is in IDLE, every pin has been dealt with, and a pin that does not pass has kept its gauge. -/
theorem fullCalPhase_ends {s : State} (res : CalResults) {d : Nat} (h : s.cal.full = some d) (hp : s.fullPhase = 3) :
    Next (.fullCalPhase res) s (fun t => t.now = max s.now (d + 180 * msFs) ∧ t.mode = .idle ∧ t.rd Obj.devPrevMode 0 = 9 ∧
      t.rd Obj.devModeReason 0 = 6 ∧ t.trans = none ∧ t.cal.full = none ∧ t.srcPending Ev.calFullDone = true ∧
      (∀ p < 256, PinEnded s p t) ∧ GaugesStay s t ∧ Keeps s t [] fullDoneParts) := by
  refine ⟨_, (exec_fullCalPhase s res).trans (execFullCalPhase_last res h hp), ?_⟩
  obtain ⟨inv, ended⟩ := (s.phaseOver d).endPins_ended (List.range 256)
  rw [State.endPins_fst]
  generalize (s.phaseOver d).endPins.2.1 = pass
  generalize (s.phaseOver d).endPins.2.2 = bad
  generalize (List.range 256).foldl State.endPin (s.phaseOver d) = u at inv ended ⊢
  have kept := u.fullEnd_kept pass bad
  obtain ⟨mode, prev, reason⟩ := u.fullEnd_mode pass bad
  refine ⟨?_, mode, prev, reason, u.fullEnd_trans pass bad, u.fullEnd_full pass bad, State.latch_pending .., fun p hp => ?_, fun p hp => ?_, ?_⟩
  · rw [kept.now_eq (by decide +kernel), inv.kept.now_eq (by decide +kernel), State.phaseOver, hp]
    rfl
  · have dealt := ended p (List.mem_range.2 hp)
    have here : PinEnded s p u := ⟨dealt.unchosen, dealt.fails, dealt.passes⟩
    refine here.of_same (fun o ho => ?_) fun q _ => u.fullEnd_anchor pass bad p q
    simp only [List.mem_cons, List.not_mem_nil, or_false] at ho
    rcases ho with rfl | rfl | rfl <;> exact kept.rd _ (by decide) (by decide +kernel)
  · obtain ⟨gauge, base⟩ := inv.stays p hp
    exact ⟨(kept.rd _ (by decide) (by decide +kernel)).trans gauge, (kept.rd _ (by decide) (by decide +kernel)).trans base⟩
  · exact (((s.reach_kept _).keeps _ _ (by decide +kernel)).kept inv.kept (by decide +kernel)).kept kept (by decide +kernel)

/-- Settles O47, command by command: a complete swatch has one outcome (`State.swatchOutcome`), on which all that it leaves depends (`calSample_ends`); full calibration
deals with its pins one after another, each as the state before the first one judges it (`State.endPins_ended`). -/
theorem calibrationFollowsItsSwatches : Obligations.CalibrationFollowsItsSwatches := by
  unfold Obligations.CalibrationFollowsItsSwatches
  refine ⟨fun s k v hk on => ?_, fun s k v off i hi => ?_, fun s n d h ha => calAged_ages h ha, fun s n h => calAged_idle h, fun s res d h => ?_,
    fun s res h => fullCalPhase_idle res h⟩
  · intro x p d hp hq
    refine ⟨fun hl ok => ?_, fun hl => ?_, fun hs => swatchTimeout_ends on (hq.trans (by decide)) hs⟩
    · exact calSample_adds v hk on hp hl ok
    · intro l sum ended w anchor base committed
      have ends {o : Nat} (ho : (s.takeSample k v).swatchOutcome p x.q l = o) := calSample_ends v hk on hp hq hl ho
      refine ⟨fun hw => ?_, fun hs ha => ?_, fun a hs ha => ?_⟩
      · obtain ⟨t, e, done, -⟩ := ends (State.outcome_wide hw)
        exact ⟨t, e, done⟩
      · obtain ⟨t, e, done, first, -⟩ := ends (State.outcome_first hs ha)
        exact ⟨t, e, done, first rfl⟩
      · intro c far step
        have seen : (s.takeSample k v).anchorSeen p x.q = some a := ha
        have anchored : (s.takeSample k v).anchorSeen p x.q ≠ none := by simp [seen]
        have cand : (s.takeSample k v).candidate p x.q l = c := by
          rw [State.candidate, seen]
          rfl
        have hfar : (s.takeSample k v).tooFar p x.q ((s.takeSample k v).candidate p x.q l) ↔ far := by rw [cand]; rfl
        have hstep : (s.takeSample k v).tooSteep p x.q ((s.takeSample k v).candidate p x.q l) ↔ step := by rw [cand]; rfl
        refine ⟨fun hf => ?_, fun hf hst => ?_, fun hf hst he => ?_, fun hf hst he hw => ?_, fun hf hst he hw => ?_⟩
        · obtain ⟨t, e, done, -⟩ := ends (State.outcome_far hs anchored (hfar.2 hf))
          exact ⟨t, e, done⟩
        · obtain ⟨t, e, done, -⟩ := ends (State.outcome_steep hs anchored (mt hfar.1 hf) (hstep.2 hst))
          exact ⟨t, e, done⟩
        · obtain ⟨t, e, done, -⟩ := ends (State.outcome_equal hs anchored (mt hfar.1 hf) (mt hstep.1 hst) (cand.trans he))
          exact ⟨t, e, done⟩
        · obtain ⟨t, e, done, -⟩ := ends (State.outcome_yields hs anchored (mt hfar.1 hf) (mt hstep.1 hst) (fun k => he (cand.symm.trans k)) hw)
          exact ⟨t, e, done⟩
        · obtain ⟨t, e, done, -, commit⟩ := ends (State.outcome_commits hs anchored (mt hfar.1 hf) (mt hstep.1 hst) (fun k => he (cand.symm.trans k)) hw)
          have gauge := (commit rfl).trans (by rw [cand])
          refine ⟨t, e, done, ?_, fun q _ hq' => ?_⟩
          · exact (congrArg (fun g => toSigned 16 ((gaugeFld x.q).get g)) gauge).trans (toSigned_gauge_put _ _ (not_lt.1 fun h => hf (.inr h)))
          · exact congrArg (toSigned 16) ((congrArg (gaugeFld q).get gauge).trans (get_gauge_put_ne _ _ hq'))
  · simp only [List.mem_cons, List.not_mem_nil, or_false] at hi
    rcases hi with rfl | rfl
    · exact ⟨_, calSample_paused k v off, State.calPause_discards off⟩
    · exact ⟨_, swatchTimeout_paused k off, State.calPause_discards off⟩
  · intro ph
    refine ⟨fun hp => fullCalPhase_goesOn res h hp, fun hp => ?_⟩
    obtain ⟨t, e, now, mode, prev, reason, trans, full, pending, ended, stays, kept⟩ := fullCalPhase_ends res h hp
    refine ⟨t, e, now, mode, prev, reason, trans, full, pending, fun p hp' => ?_, kept⟩
    intro chosen
    obtain ⟨unchosen, fails, passes⟩ := ended p hp'
    refine ⟨fun hc => ⟨unchosen (Bool.eq_false_iff.2 hc), (stays p fun k => absurd k hc).1⟩, fun q hc hf => ?_, fun hc ok => ?_⟩
    · exact ⟨fails q hc hf, stays p fun _ k => nomatch hf.symm.trans k⟩
    · have clean : s.failing p = none := List.find?_eq_none.2 fun q hq => by simp [ok q hq]
      obtain ⟨code, base, found⟩ := passes hc clean
      exact ⟨code, base, fun q hq y hy => found q hq (ok q hq) y hy⟩

end Sys2Proof.Machine
end
